-- ==== Sys2Proof/Word.lean ====
section
/-! DEFINITION. The word types of the HN256 model: register words, bytes, blocks, and the finite index types
of the hierarchy of `00_scope.md` (tiles, sequencers, plots, quadrants, links, devices). -/

namespace Sys2Proof

/-- A 32-bit register word (R8). -/
abbrev Word := BitVec 32
/-- One byte of a memory, an image, a capsule or a record. -/
abbrev Byte := BitVec 8
/-- The payload of one 66-bit Kelair block (R255). -/
abbrev Block := BitVec 64

/-- Tile number 0–31 (R1). -/
abbrev Tile := Fin 32
/-- Sequencer index within a tile, 0–33 (R2). -/
abbrev Seq := Fin 34
/-- Plot 0–7 (R30). -/
abbrev Plot := Fin 8
/-- Quadrant 0–3 (R1). -/
abbrev Quad := Fin 4
/-- Kelair link 0–7 (R248). -/
abbrev Link := Fin 8
/-- Lane of a Kelair link, 0–3 (R248). -/
abbrev KLane := Fin 4
/-- Read-out lane of a tile, 0–7. -/
abbrev Lane := Fin 8
/-- Bias channel of a quadrant, 0–127 (R168). -/
abbrev BiasCh := Fin 128
/-- Ethernet port (R381). -/
abbrev Port := Fin 2
/-- TIU measurement engine (R396). -/
abbrev Engine := Fin 4

end Sys2Proof
end

