-- ==== Sys2Proof/Syntax.lean ====
section
/-! DEFINITION. The commands of the HN256: one constructor of `Instr` for each row of `opcode_table.json`, in the
table's order, with the data the command carries. What arrives from outside the block (sampled values, received
blocks, fetched bytes, verdicts of cryptographic engines) is an operand; everything else is in the state. -/

namespace Sys2Proof

/-- The BAR window of a host access (R34), or a write to any BAR that arrives poisoned or with a bad ECRC (R356). -/
inductive Window where
  | control | doorbell
  | badWrite (ecrc : Bool)
  deriving DecidableEq, Repr

/-- The BAR window of a host read (R34), or the configuration space (R354). -/
inductive ReadWin where
  | control | doorbell | memory | config
  deriving DecidableEq, Repr

/-- What the check bits of a program-memory word show on fetch (R80), and which microword of the instruction's routine, counted from
0, is found with a parity error (R113, R117). -/
inductive Ecc where
  | clean | single | double
  | microParity (n : Fin 64)
  deriving DecidableEq, Repr

/-- A frame of a bias link with a bad CRC (R22): entry `n` on its way to channel `j`, register write `n` on its way to it, or a frame
of another kind (housekeeping, or one toward the core die) whose last `failed` transmissions failed. -/
inductive BiasFrame where
  | entry (j : BiasCh) (n : Nat)
  | write (j : BiasCh) (n : Nat)
  | other (failed : Fin 4)
  deriving DecidableEq, Repr

/-- One unit written by an image section: a register or a memory-window word (R296). -/
inductive UnitWrite where
  /-- a control-window register -/
  | reg (off : Nat) (v : Word)
  /-- a word of the memory window -/
  | mem (off : Nat) (v : Word)
  deriving DecidableEq, Repr

/-- How a read request of the device failed or succeeded (R377). -/
inductive DmaRead where
  | decant (t : Tile) (d : Fin 16)
  | ring (p : Plot)
  | imageRef (p : Plot)
  | stage
  deriving DecidableEq, Repr

/-- What befell a completion (R356, R377): an error status, a timeout, poison, a bad ECRC. -/
inductive CplFault where
  | error | timeout | poisoned | ecrc
  deriving DecidableEq, Repr

/-- A read of the device that fails, and how. -/
structure DmaFail where
  read : DmaRead
  how : CplFault
  deriving DecidableEq, Repr

/-- What the host's write to the control registers of the configuration space sets (R354, R376, R378): Bus Master Enable, the maximum payload
size and the maximum read request size as 128 · 2ⁿ bytes, Relaxed Ordering, MSI-X Enable and Function Mask. -/
structure PciCtl where
  busMaster : Bool
  mps : Fin 3
  readReq : Fin 6
  relaxed : Bool
  msixEn : Bool
  msixMask : Bool
  deriving DecidableEq, Repr

/-- A device calibration task (R446): a TIU input, or a lane of a link. -/
inductive DevTask where
  | tiu (i : Fin 34)
  | lane (k : Link) (i : KLane)
  deriving DecidableEq, Repr

/-- Outcome of one calibration measurement (R447): the quality figure, and whether the result lies within BASE_LIM
and STEP_LIM of the baseline, which are held in MRAM. -/
structure CalResult where
  within : Bool
  quality : BitVec 16
  /-- the sequencer that a self-test found failing -/
  seq : Fin 34
  deriving DecidableEq, Repr

/-- What a housekeeping converter measures (R414, R415, R423): `x` is the quantity at the input, in nV or pA for a voltage or a current, in
10⁻⁶ °C for a temperature, and the resistance of a sensor in mΩ; `vref` is the voltage of the selected reference in nV. -/
structure HkSample where
  x : Int
  vref : Nat
  deriving DecidableEq, Repr

/-- An edge seen at a TIU input (R393–R395): the conditioned level after it and the fraction of its stamp. -/
structure Edge where
  level : Bool
  frac : Byte
  deriving DecidableEq, Repr

/-- PTP event message types that the ports stamp (R382). -/
inductive PtpMsg where
  | sync | delayReq | pdelayReq | pdelayResp
  deriving DecidableEq, Repr

/-- Kinds of converter that power down in shot gaps (R432). -/
inductive Converter where
  | xy | probe | flux
  deriving DecidableEq, Repr

/-- The commands of the HN256. -/
inductive Instr where
  /-- REGISTER_WRITE (R8): a host write of `w`, `size` bytes long, at byte offset `off` of a window. -/
  | registerWrite (win : Window) (off size : Nat) (w : Word)
  /-- SNAPSHOT_READ (R13, R8, R38): a host read of `size` bytes at byte offset `off` of a window: one half of a 64-bit pair, any
  other register that no row names, or the memory window. -/
  | snapshotRead (win : ReadWin) (off size : Nat)
  /-- READ_TO_CLEAR (R10): a host read, `size` bytes long, of a register with an RC field. -/
  | readToClear (win : Window) (off size : Nat)
  /-- GLB_ERR_ADDR_CLEAR (R43). -/
  | glbErrAddrClear
  /-- MEM_WINDOW_WRITE (R39): a host write of `data` at byte offset `off` of the memory window. -/
  | memWindowWrite (off : Nat) (data : List Byte)
  /-- MUTE_ALL (R42): a write of GLB_CTL with MUTE_ALL = `on` and DRAIN_ALL = 0. -/
  | muteAll (on : Bool)
  /-- DRAIN_ALL (R64): a write of GLB_CTL with DRAIN_ALL = 1 and MUTE_ALL = `mute`. -/
  | drainAll (mute : Bool)
  /-- BRIDGE_TRAINING (R20): bit q of `cbr` and `blk`: converter bridge and bias link of quadrant q trained. -/
  | bridgeTraining (cbr blk : BitVec 4)
  /-- BRIDGE_PARITY_ERROR (R21): the outputs of the tiles of quadrant `q` that lie in the wire group (tile within the
  quadrant; XY output 0–3, probe output 4, flux output 5 + f), and the tiles whose read-out ADC codes lie in it. -/
  | bridgeParityError (q : Quad) (outs : List (Fin 8 × Fin 19)) (adc : BitVec 8)
  /-- BIAS_FRAME_CRC_FAIL (R22): the frame arrives with a bad CRC, and is repeated. -/
  | biasFrameCrcFail (q : Quad) (f : BiasFrame)
  /-- BIAS_LINK_LOST (R186). -/
  | biasLinkLost (q : Quad)
  /-- BIAS_LINK_RETRAIN (R186). -/
  | biasLinkRetrain (q : Quad)
  /-- DT_ARM_NOW (R47): a write of DT_LOAD_CTL with ARM_NOW set; `w` holds the other bits. -/
  | dtArmNow (w : Word)
  /-- DT_ARM_PPS (R47): a write of DT_LOAD_CTL with ARM_PPS set. -/
  | dtArmPps (w : Word)
  /-- DT_LOAD_CANCEL (R47): a write of DT_LOAD_CTL with CANCEL set. -/
  | dtLoadCancel (w : Word)
  /-- DT_LOAD (R47): the load tick of the pending load. -/
  | dtLoad
  /-- RUN_START (R62): a write of RUN_CMD with START set; `w` holds the other bits. -/
  | runStart (p : Plot) (w : Word)
  /-- RUN_DRAIN (R62). -/
  | runDrain (p : Plot) (w : Word)
  /-- RUN_ABORT (R63). -/
  | runAbort (p : Plot) (w : Word)
  /-- CLR_COUNT (R64). -/
  | clrCount (p : Plot) (w : Word)
  /-- ABORT_TAKES_EFFECT (R63). -/
  | abortTakesEffect (p : Plot)
  /-- SHOT_TRIGGER (R58): the edge of TRIG_IN[i] sampled 10 ticks ago is recognised. -/
  | shotTrigger (i : Fin 16) (rising : Bool)
  /-- SHOT_END (R53). -/
  | shotEnd (p : Plot)
  /-- NEXT_START_FIX (R55). -/
  | nextStartFix (p : Plot)
  /-- SHOT_ANNOUNCE (R59). -/
  | shotAnnounce (p : Plot)
  /-- SHOT_START (R59). -/
  | shotStart (p : Plot)
  /-- SHOT_CUT (R52). -/
  | shotCut (p : Plot)
  /-- SHOT_RECORD_WRITE (R486). -/
  | shotRecordWrite (p : Plot)
  /-- TQ_ENTRY_ARRIVAL (R73): the oldest command under way from sequencer (t, q) enters its timed queue. -/
  | tqEntryArrival (t : Tile) (q : Seq)
  /-- QUEUE_STALL_END (R71), after `cyc` island cycles of stall. -/
  | queueStallEnd (t : Tile) (q : Seq) (cyc : Nat)
  /-- END_MARKER_EXECUTE (R75). -/
  | endMarkerExecute (t : Tile) (q : Seq)
  /-- NOP (R87): sequencer (t, q) executes the NOP at its PC; `e` is what the fetch found (R80). An instruction that
  no other row names (an unlisted OP) is executed in this row, and faults. -/
  | nop (t : Tile) (q : Seq) (e : Ecc)
  /-- END (R102). -/
  | endI (t : Tile) (q : Seq) (e : Ecc)
  /-- BR (R103). -/
  | br (t : Tile) (q : Seq) (e : Ecc)
  /-- BRMW (R106). -/
  | brmw (t : Tile) (q : Seq) (e : Ecc)
  /-- BRMW_DECISION_VALID (R107), after `cyc` island cycles in STALL_DEC. -/
  | brmwDecisionValid (t : Tile) (q : Seq) (cyc : Nat)
  /-- BRMW_DEADLINE (R107), after `cyc` island cycles in STALL_DEC. -/
  | brmwDeadline (t : Tile) (q : Seq) (cyc : Nat)
  /-- LOOP (R104). -/
  | loop (t : Tile) (q : Seq) (e : Ecc)
  /-- SYNC (R108). -/
  | sync (t : Tile) (q : Seq) (e : Ecc)
  /-- SYNC_RELEASE (R108): barrier `b` of plot `p` releases its participants. -/
  | syncRelease (p : Plot) (b : Fin 16)
  /-- EVT (R101). -/
  | evt (t : Tile) (q : Seq) (e : Ecc)
  /-- WAIT (R91). -/
  | wait (t : Tile) (q : Seq) (e : Ecc)
  /-- WAITUNTIL (R91). -/
  | waituntil (t : Tile) (q : Seq) (e : Ecc)
  /-- PLAY (R94). -/
  | play (t : Tile) (q : Seq) (e : Ecc)
  /-- ARM (R95). -/
  | arm (t : Tile) (q : Seq) (e : Ecc)
  /-- MARK (R98). -/
  | mark (t : Tile) (q : Seq) (e : Ecc)
  /-- VEC (R98). -/
  | vec (t : Tile) (q : Seq) (e : Ecc)
  /-- MEAS (R97). -/
  | meas (t : Tile) (q : Seq) (e : Ecc)
  /-- BIASQ (R99). -/
  | biasq (t : Tile) (q : Seq) (e : Ecc)
  /-- FREQ (R100). -/
  | freq (t : Tile) (q : Seq) (e : Ecc)
  /-- PHASE (R100). -/
  | phase (t : Tile) (q : Seq) (e : Ecc)
  /-- ADD (R110). -/
  | add (t : Tile) (q : Seq) (e : Ecc)
  /-- SUB (R110). -/
  | sub (t : Tile) (q : Seq) (e : Ecc)
  /-- AND (R110). -/
  | and (t : Tile) (q : Seq) (e : Ecc)
  /-- OR (R110). -/
  | or (t : Tile) (q : Seq) (e : Ecc)
  /-- XOR (R110). -/
  | xor (t : Tile) (q : Seq) (e : Ecc)
  /-- SHL (R110). -/
  | shl (t : Tile) (q : Seq) (e : Ecc)
  /-- SHR (R110). -/
  | shr (t : Tile) (q : Seq) (e : Ecc)
  /-- SRA (R110). -/
  | sra (t : Tile) (q : Seq) (e : Ecc)
  /-- MUL (R110). -/
  | mul (t : Tile) (q : Seq) (e : Ecc)
  /-- MOVI (R87). -/
  | movi (t : Tile) (q : Seq) (e : Ecc)
  /-- RDSP (R111). -/
  | rdsp (t : Tile) (q : Seq) (e : Ecc)
  /-- LD (R112). -/
  | ld (t : Tile) (q : Seq) (e : Ecc)
  /-- ST (R112). -/
  | st (t : Tile) (q : Seq) (e : Ecc)
  /-- CLR_FAULT (R115): a write of SEQ_CTL with CLR_FAULT set; `w` holds the other bits. -/
  | clrFault (t : Tile) (q : Seq) (w : Word)
  /-- SEQ_CTL_WRITE (R124): a write of SEQ_CTL without CLR_FAULT. -/
  | seqCtlWrite (t : Tile) (q : Seq) (w : Word)
  /-- PLAY_EXECUTE (R134). -/
  | playExecute (t : Tile) (q : Seq)
  /-- JUMP_REQUEST (R138). -/
  | jumpRequest (t : Tile) (q : Seq)
  /-- JUMP_TAKE_EFFECT (R138). -/
  | jumpTakeEffect (t : Tile) (q : Seq)
  /-- SEGMENT_END (R134). -/
  | segmentEnd (t : Tile) (q : Seq)
  /-- ARM_SELECT (R241). -/
  | armSelect (t : Tile) (q : Seq)
  /-- ARM_EXECUTE (R96). -/
  | armExecute (t : Tile) (q : Seq)
  /-- MARK_EXECUTE (R98). -/
  | markExecute (t : Tile) (q : Seq)
  /-- MARK_PULSE_END (R98). -/
  | markPulseEnd (t : Tile) (m : Fin 2)
  /-- VEC_EXECUTE (R149). -/
  | vecExecute (t : Tile) (q : Seq)
  /-- VEC_PULSE_END (R98). -/
  | vecPulseEnd (t : Tile) (v : Fin 2)
  /-- FREQ_EXECUTE (R142). -/
  | freqExecute (t : Tile) (q : Seq)
  /-- PHASE_EXECUTE (R142). -/
  | phaseExecute (t : Tile) (q : Seq)
  /-- EVT_EXECUTE (R101). -/
  | evtExecute (t : Tile) (q : Seq)
  /-- BIASQ_EXECUTE (R172). -/
  | biasqExecute (t : Tile) (q : Seq)
  /-- PARTITION_WRITE (R130). -/
  | partitionWrite (t : Tile) (i : Fin 32) (w : Word)
  /-- SEG_ENTRY_WRITE (R132): a write of SEG_LO (`hi` false) or SEG_HI of entry `n`. -/
  | segEntryWrite (t : Tile) (n : Fin 4096) (hi : Bool) (w : Word)
  /-- MARKER_CFG_WRITE (R148): a write of MK_CFG[m] (`vl` false) or VL_CFG[m]. -/
  | markerCfgWrite (t : Tile) (m : Fin 2) (vl : Bool) (w : Word)
  /-- DECANT_ENABLE (R152): a write of DD_CTL with ENABLE set and REPRIME clear. -/
  | decantEnable (t : Tile) (d : Fin 16) (w : Word)
  /-- DECANT_REPRIME (R152): a write of DD_CTL with REPRIME set. -/
  | decantReprime (t : Tile) (d : Fin 16) (w : Word)
  /-- DD_DESC_WRITE (R350): a write of DD_ADDR_LO (0), DD_ADDR_HI (1) or DD_LEN (2). -/
  | ddDescWrite (t : Tile) (d : Fin 16) (which : Fin 3) (w : Word)
  /-- DECANT_CHUNK_ARRIVAL (R151): the samples of the oldest chunk being fetched arrive, with the 16 bytes of its tag where AUTH asks
  for one (R350). -/
  | decantChunkArrival (t : Tile) (d : Fin 16) (samples : List Word) (tag : List Byte)
  /-- DECANT_CHUNK_RELEASE (R153). -/
  | decantChunkRelease (t : Tile) (d : Fin 16)
  /-- DECANT_UNDERRUN (R154). -/
  | decantUnderrun (t : Tile) (d : Fin 16)
  /-- DECANT_TRANSFER_ERROR (R156). -/
  | decantTransferError (t : Tile) (d : Fin 16)
  /-- FLUX_COEF_WRITE (R167): a write of the register of flux output `f` at offset `off` within the output's block
  (FX_CFG, FX_IDLE, an IIR coefficient or a FIR tap). -/
  | fluxCoefWrite (t : Tile) (f : Fin 14) (off : Nat) (w : Word)
  /-- BIAS_UPDATE_INSTANT (R170): the update marker of channel `j`; `mon` is what its compliance monitor samples. -/
  | biasUpdateInstant (q : Quad) (j : BiasCh) (mon : BitVec 16)
  /-- BIAS_ENTRY_ARRIVAL (R172): of the entries under way to channel `j`, in the order of handover, number `n` reaches the bias die. -/
  | biasEntryArrival (q : Quad) (j : BiasCh) (n : Nat)
  /-- BQ_HOST_WRITE (R174). -/
  | bqHostWrite (t : Tile) (b : Fin 16) (w : Word)
  /-- BIAS_REG_WRITE (R191): a write of BD_CFG, BD_CLR_CODE, BD_SLEW, BD_COMP or a generator register of channel `j`
  that no other row names, at offset `off` of the channel's block. -/
  | biasRegWrite (q : Quad) (j : BiasCh) (off : Nat) (w : Word)
  /-- GEN_RUN (R180): a write of BD_GEN_CTL. -/
  | genRun (q : Quad) (j : BiasCh) (w : Word)
  /-- COMPLIANCE_TRIP (R182). -/
  | complianceTrip (q : Quad) (j : BiasCh)
  /-- COMP_CLR (R182): a write of BD_COMP with COMP_CLR set. -/
  | compClr (q : Quad) (j : BiasCh) (w : Word)
  /-- BIAS_CLR_ASSERT (R184): the pin is low at an update instant; the second of two in a row is the filtered assertion. -/
  | biasClrAssert (q : Quad)
  /-- BIAS_CLR_RELEASE (R184): the pin is high at an update instant; the second of two in a row is the filtered release. -/
  | biasClrRelease (q : Quad)
  /-- SPAN_WRITE (R187): a write of BD_CFG that changes SPAN. -/
  | spanWrite (q : Quad) (j : BiasCh) (w : Word)
  /-- PARK_SETTLE_END (R187). -/
  | parkSettleEnd (q : Quad) (j : BiasCh)
  /-- RI_BAND_WRITE (R195): a write of RI_CFG. -/
  | riBandWrite (t : Tile) (w : Word)
  /-- READOUT_SET_WRITE (R207): a write of word `k` (RS_A–RS_D) of set `r` of lane `p`. -/
  | readoutSetWrite (t : Tile) (p : Lane) (r : Fin 16) (k : Fin 4) (w : Word)
  /-- WINDOW_OPEN (R204): the MEAS entry of sequencer (t, q) executes. -/
  | windowOpen (t : Tile) (q : Seq)
  /-- WINDOW_CLOSE (R204): the window of lane `p` on the set `sh` closes. -/
  | windowClose (t : Tile) (p : Lane) (sh : Bool)
  /-- THR_LOOP_ENABLE (R216): a write of DB_LOOP without UNFREEZE. -/
  | thrLoopEnable (t : Tile) (p : Lane) (d : Fin 4) (w : Word)
  /-- DB_UNFREEZE (R215): a write of DB_LOOP with UNFREEZE. -/
  | dbUnfreeze (t : Tile) (p : Lane) (d : Fin 4) (w : Word)
  /-- TONE_TRACK_ENABLE (R220): a write of TT_CTL without UNFREEZE. -/
  | toneTrackEnable (t : Tile) (p : Lane) (w : Word)
  /-- TT_UNFREEZE (R219): a write of TT_CTL with UNFREEZE. -/
  | ttUnfreeze (t : Tile) (p : Lane) (w : Word)
  /-- RESULT_RING_WRITE (R371). -/
  | resultRingWrite (p : Plot)
  /-- DECISION_RELEASE_TILE (R230). -/
  | decisionReleaseTile (n : Fin 256)
  /-- DECISION_RELEASE_DEVICE (R230): slot 0–319. -/
  | decisionReleaseDevice (n : Fin 320)
  /-- PARITY_FIRE (R235). -/
  | parityFire (u : Fin 64)
  /-- REMOTE_RELEASE (R245). -/
  | remoteRelease (r : Fin 192)
  /-- PARITY_UNIT_CFG_WRITE (R236): PU_CFG (0), PU_MASK_LO (1), PU_MASK_HI (2). -/
  | parityUnitCfgWrite (u : Fin 64) (which : Fin 3) (w : Word)
  /-- KEY_BIT_WRITE (R240). -/
  | keyBitWrite (t : Tile) (ks : Fin 8) (i : Fin 4) (w : Word)
  /-- REMOTE_MAP_WRITE (R246). -/
  | remoteMapWrite (r : Fin 192) (w : Word)
  /-- EXPORT_WRITE (R246). -/
  | exportWrite (n : Fin 320) (w : Word)
  /-- LINK_ENABLE (R258): a write of KL_CTL with EN set and RETRAIN clear. -/
  | linkEnable (k : Link) (w : Word)
  /-- LINK_RETRAIN (R258): a write of KL_CTL with RETRAIN set. -/
  | linkRetrain (k : Link) (w : Word)
  /-- TRAIN_PHASE_DONE (R258): the lanes that passed the phase, in EQ the receive pairs found inverted, and in CONFIG what the partner
  reports. -/
  | trainPhaseDone (k : Link) (lanes pol : BitVec 4) (array : Byte) (dev : BitVec 4) (plink : BitVec 3) (map : BitVec 4)
  /-- TRAIN_ATTEMPT_TIMEOUT (R259). -/
  | trainAttemptTimeout (k : Link)
  /-- BACKOFF_EXPIRY (R259). -/
  | backoffExpiry (k : Link)
  /-- AUTORETRY_ATTEMPT (R259). -/
  | autoretryAttempt (k : Link)
  /-- LANE_LOCK_LOSS (R276): with the invalid headers that the lane saw on the way (R253). -/
  | laneLockLoss (k : Link) (i : KLane) (hdrs : Nat)
  /-- LANE_REJOIN (R276): `pol` tells that its receive pair was found inverted. -/
  | laneRejoin (k : Link) (i : KLane) (pol : Bool)
  /-- FILLER_ROW_SEND (R256). -/
  | fillerRowSend (k : Link)
  /-- FILLER_ROW_RECEIVE (R256): the elastic buffer holds `depth` blocks as the row arrives. -/
  | fillerRowReceive (k : Link) (depth : Nat)
  /-- DECISION_MSG_RECEIVE (R245): the two blocks of R266. -/
  | decisionMsgReceive (k : Link) (b0 b1 : Block)
  /-- TT_REQUEST_SEND (R278): with the stamp fraction of the departure row. -/
  | ttRequestSend (frac : Byte)
  /-- TT_MSG_RECEIVE (R278): the three blocks of R267 and the fraction of the arrival stamp; `frac3` is the fraction
  of the reserved departure row of the answer. -/
  | ttMsgReceive (k : Link) (b0 b1 b2 : Block) (frac frac3 : Byte)
  /-- MGMT_MSG (R268): header, payload and trailer of a bulk message of kind 0. -/
  | mgmtMsg (k : Link) (h : Block) (payload : List Block) (tr : Block)
  /-- MIRROR_MSG (R288): kind 1; `units` is what the mirrored capsule or image writes, and `shot` the SHOT_NUM of
  plot `p` at which the active device applied it (the payload's layout is not given). -/
  | mirrorMsg (k : Link) (h : Block) (payload : List Block) (tr : Block) (p : Plot) (shot : Word) (units : List UnitWrite)
  /-- COORD_MSG (R283): kind 2; a pause request for the gap after shot `gap` of plot `p` (`cal`, `thr` its causes),
  or, with `check`, the partner's NEXT_START. -/
  | coordMsg (k : Link) (h : Block) (payload : List Block) (tr : Block) (p : Plot) (check : Bool) (gap : Word) (ticks : Nat)
      (cal thr : Bool) (next : BitVec 64)
  /-- HEARTBEAT_MSG (R286): kind 3; the payload's ACTIVE, SYNCED and DT[47:0]. -/
  | heartbeatMsg (k : Link) (h : Block) (payload : List Block) (tr : Block) (active synced : Bool) (dt : BitVec 48)
  /-- LINK_ACK (R263): the link-control block. -/
  | linkAck (k : Link) (b : Block)
  /-- LINK_NAK (R263). -/
  | linkNak (k : Link) (b : Block)
  /-- REPLAY_FAILURE (R270). -/
  | replayFailure (k : Link)
  /-- LANE_MAP (R276). -/
  | laneMap (k : Link) (b : Block)
  /-- IDLE_REQ (R261). -/
  | idleReq (k : Link) (b : Block)
  /-- IDLE_ACK (R261). -/
  | idleAck (k : Link) (b : Block)
  /-- IDLE_LP_EXIT (R261): `relocked` are the lanes that regain lock during the exit burst; `burst` tells that the
  partner's burst is detected. -/
  | idleLpExit (k : Link) (relocked : BitVec 4) (burst : Bool)
  /-- PRBS_INJECT (R251): a write of KL_LN_CTL with INJECT set. -/
  | prbsInject (k : Link) (i : KLane) (w : Word)
  /-- BIT_SLIP (R252): a write of KL_LN_CTL with BIT_SLIP set. -/
  | bitSlip (k : Link) (i : KLane) (w : Word)
  /-- ROUTE_WRITE (R273). -/
  | routeWrite (i : Fin 16) (w : Word)
  /-- FWD_WRITE (R289). -/
  | fwdWrite (d : Fin 16) (w : Word)
  /-- PAIR_ENABLE (R282): a write of KL_PAIR_CTL. -/
  | pairEnable (w : Word)
  /-- HB_LOST (R286). -/
  | hbLost
  /-- TAKE_OVER (R287): a write of KL_PAIR_CTL with TAKE_OVER set. -/
  | takeOver (w : Word)
  /-- STAND_DOWN (R287): a write of KL_PAIR_CTL with STAND_DOWN set. -/
  | standDown (w : Word)
  /-- PAIR_CHANGE_EFFECT (R287). -/
  | pairChangeEffect
  /-- PAIR_CHANGE_TIMEOUT (R287). -/
  | pairChangeTimeout
  /-- PAIR_ACT_SENSE (R285): the level device A senses; `boundary` tells that the net fell at B's shot boundary. -/
  | pairActSense (level boundary : Bool)
  /-- IMAGE_LOAD (R302): a write of CFG_CTL with LOAD set. -/
  | imageLoad (w : Word)
  /-- IMAGE_APPLY (R306): a write of CFG_CTL with APPLY set. -/
  | imageApply (w : Word)
  /-- IMAGE_CANCEL (R307): a write of CFG_CTL with CANCEL set. -/
  | imageCancel (w : Word)
  /-- CFG_SEAL (R303): a write of CFG_CTL with SEAL set. -/
  | cfgSeal (w : Word)
  /-- IMAGE_FETCH_DONE (R298, R299, R307): the bytes that the slot holds from flash byte 0 on, or those staged at CFG_STAGE; for a
  slot, the read command and dummy cycles that its SFDP gives, none where it does not answer or is unusable. -/
  | imageFetchDone (bytes : List Byte) (sfdp : Option (Byte × Byte))
  /-- IMAGE_VERIFY_DONE (R294): what the plaintext of each section says, in table order (the layout of their contents is not given). -/
  | imageVerifyDone (units : List (List UnitWrite))
  /-- BOOT_IMAGE_APPLY (R297). -/
  | bootImageApply
  /-- PARTIAL_HOLD (R309). -/
  | partialHold
  /-- PARTIAL_STOPPED_APPLY (R310). -/
  | partialStoppedApply
  /-- PARTIAL_HOLD_END (R311). -/
  | partialHoldEnd
  /-- SEQ_FAILED (R316): `selfTest` when built-in self-test found it. -/
  | seqFailed (t : Tile) (q : Seq) (selfTest : Bool)
  /-- PLACEMENT (R318): `bad` when a program-memory word cannot be corrected. -/
  | placement (t : Tile) (bad : Bool)
  /-- HEN_CONFIRM (R321). -/
  | henConfirm
  /-- TRIAL_TIMEOUT (R321). -/
  | trialTimeout
  /-- HEN_RESTART (R323). -/
  | henRestart
  /-- FLASH_WRITE (R322): a write of CFG_FLASH_CTL with START set; `slot` is the slot bit written. -/
  | flashWrite (slot : Bool)
  /-- FLASH_WRITE_DONE (R322): the reason found when both staged images were verified (Fh: both pass), and the staged bytes. -/
  | flashWriteDone (reason : BitVec 4) (bytes : List Byte)
  /-- TAKE_OWNERSHIP (R339): a host write of WL_CMD with GO set and its opcode; `w` holds the other bits. The blob is in WL_BUF. -/
  | takeOwnership (w : Word)
  /-- ROTATE_OWNER (R339). -/
  | rotateOwner (w : Word)
  /-- RETIRE (R339). -/
  | retire (w : Word)
  /-- DEBUG_UNLOCK (R340). -/
  | debugUnlock (w : Word)
  /-- ZEROISE_PLOT (R339). -/
  | zeroisePlot (w : Word)
  /-- ARB_COMMIT (R338): a host write of WL_ARB.COMMIT. -/
  | arbCommit
  /-- COMMAND_DOORBELL (R359). -/
  | commandDoorbell (p : Plot) (w : Word)
  /-- RSP_CONS_WRITE (R359). -/
  | rspConsWrite (p : Plot) (w : Word)
  /-- RR_CONS_WRITE (R359). -/
  | rrConsWrite (p : Plot) (w : Word)
  /-- RING_ENABLE (R360): a write of CMD_CFG (0), RSP_CFG (1) or RR_CFG (2). -/
  | ringEnable (p : Plot) (ring : Fin 3) (w : Word)
  /-- CMD_RING_RESTART (R363). -/
  | cmdRingRestart (p : Plot)
  /-- CAPSULE_FETCH (R363): the 32 bytes of the header at CMD_CONS. -/
  | capsuleFetch (p : Plot) (header : List Byte)
  /-- CAPSULE_AUTH_DONE (R343, R344): the ciphertext of the body and the 16 bytes of the tag, as fetched. -/
  | capsuleAuthDone (p : Plot) (cipher tag : List Byte)
  /-- CAPSULE_NOP (R364): the next operation of plot `p`'s capsule. A body that is malformed at this point (R366,
  BAD_OP) is met in this row. -/
  | capsuleNop (p : Plot)
  /-- REG_WRITE (R364). -/
  | regWrite (p : Plot)
  /-- REG_READ (R364). -/
  | regRead (p : Plot)
  /-- MEM_WRITE (R364). -/
  | memWrite (p : Plot)
  /-- MEM_READ (R364). -/
  | memRead (p : Plot)
  /-- IMAGE_INLINE (R364). -/
  | imageInline (p : Plot)
  /-- IMAGE_REF (R364). -/
  | imageRef (p : Plot)
  /-- IMAGE_REF_FETCH_DONE (R364): the bytes fetched. -/
  | imageRefFetchDone (p : Plot) (bytes : List Byte)
  /-- WAIT_STATE (R364). -/
  | waitState (p : Plot)
  /-- WAIT_STATE_REACHED (R364). -/
  | waitStateReached (p : Plot)
  /-- WAIT_STATE_TIMEOUT (R366). -/
  | waitStateTimeout (p : Plot)
  /-- BATCH_SIGN_DONE (R349). -/
  | batchSignDone (p : Plot)
  /-- WRITEBACK (R361). -/
  | writeback (p : Plot)
  /-- RESULT_IRQ_TIMER (R379). -/
  | resultIrqTimer (p : Plot)
  /-- DMA_TRANSFER_ERROR (R377). -/
  | dmaTransferError (f : DmaFail)
  /-- D3HOT_ENTRY (R357). -/
  | d3hotEntry
  /-- D0_RETURN (R357). -/
  | d0Return
  /-- FUNCTION_LEVEL_RESET (R380). -/
  | functionLevelReset
  /-- HOT_RESET (R380). -/
  | hotReset
  /-- PCIE_LINK_DOWN (R380). -/
  | pcieLinkDown
  /-- PE_PERST_ASSERT (R466). -/
  | pePerstAssert
  /-- SPDM_GET_VERSION (R351). -/
  | spdmGetVersion
  /-- SPDM_GET_CAPABILITIES (R351). -/
  | spdmGetCapabilities
  /-- SPDM_NEGOTIATE_ALGORITHMS (R351). -/
  | spdmNegotiateAlgorithms
  /-- SPDM_GET_DIGESTS (R351). -/
  | spdmGetDigests
  /-- SPDM_GET_CERTIFICATE (R351). -/
  | spdmGetCertificate (slot : Fin 2)
  /-- SPDM_CHALLENGE (R351). -/
  | spdmChallenge (slot : Fin 2) (nonce : List Byte)
  /-- SPDM_GET_MEASUREMENTS (R351): index 1–7, with the requester's nonce. -/
  | spdmGetMeasurements (index : Fin 8) (nonce : List Byte)
  /-- SPDM_KEY_EXCHANGE (R351). -/
  | spdmKeyExchange (exchange : List Byte)
  /-- SPDM_FINISH (R351): `ok` is the verdict of the verify-data check. -/
  | spdmFinish (sess : Fin 2) (ok : Bool)
  /-- SPDM_KEY_UPDATE (R351). -/
  | spdmKeyUpdate (sess : Fin 2)
  /-- SPDM_HEARTBEAT (R351). -/
  | spdmHeartbeat (sess : Fin 2)
  /-- SPDM_END_SESSION (R351). -/
  | spdmEndSession (sess : Fin 2)
  /-- SPDM_SET_CERTIFICATE (R351). -/
  | spdmSetCertificate (slot : Fin 2) (chain : List Byte)
  /-- IDE_KM_PROGRAM (R352): stream 0 is the link stream, 1–4 the selective streams. -/
  | ideKmProgram (sess : Fin 2) (stream : Fin 5) (key : List Byte)
  /-- PTP_RATE_COMMIT (R384): a write of PTP_RATE_LO. -/
  | ptpRateCommit (w : Word)
  /-- PTP_OFFSET_SUBMIT (R385): a write of PTP_OFFSET. -/
  | ptpOffsetSubmit (w : Word)
  /-- PTP_CORRECTION_APPLY (R385). -/
  | ptpCorrectionApply
  /-- SLEW_END (R385). -/
  | slewEnd
  /-- PTP_REARM (R385). -/
  | ptpRearm
  /-- PTP_EPOCH_COMMIT (R386): a write of PTP_EPOCH_NS. -/
  | ptpEpochCommit (w : Word)
  /-- PTP_WRAP (R384). -/
  | ptpWrap
  /-- EPOCH_STALE (R386). -/
  | epochStale
  /-- PTP_FRAME_RX (R382): a message with the port identity of its requester, at the ball `sub` · 2⁻¹¹ ns after the begin of the present
  tick. -/
  | ptpFrameRx (e : Port) (m : PtpMsg) (seqId : BitVec 16) (port : BitVec 80) (sub : Fin 820)
  /-- PTP_FRAME_TX (R383): likewise, of a message that departs. -/
  | ptpFrameTx (e : Port) (m : PtpMsg) (seqId : BitVec 16) (port : BitVec 80) (sub : Fin 820)
  /-- TS_READ (R382): a read of ETH_RXTS_NS (`tx` false) or ETH_TXTS_NS. -/
  | tsRead (e : Port) (tx : Bool)
  /-- LAUNCH_PUSH (R388): a frame of the port's frame memory and its launch time. -/
  | launchPush (e : Port) (frame : Nat) (t : Word)
  /-- LAUNCH (R387): the launch time of the front entry; `busy` tells that the line is still busy with an earlier
  timed frame. -/
  | launch (e : Port) (busy : Bool)
  /-- CLR_HALT (R388): a write of ETH_LQ_CTL with CLR_HALT set; `w` holds the other bits. -/
  | clrHalt (e : Port) (w : Word)
  /-- XTS_GO (R389): a write of XTS_CTL with GO set; `w` holds the other bits. -/
  | xtsGo (w : Word)
  /-- PPS_OUT_PULSE (R390). -/
  | ppsOutPulse
  /-- PPS_IN_EDGE (R391): a conditioned transition of PPS_IN. -/
  | ppsInEdge (ed : Edge)
  /-- PTM_DIALOGUE (R392): the PTM master time of the dialogue. -/
  | ptmDialogue (master : BitVec 64)
  /-- TIU_EDGE (R395): a transition at the ball of input `i`. -/
  | tiuEdge (i : Fin 34) (ed : Edge)
  /-- HOLDOFF_EXPIRY (R395): the ball of input `i` is at `level` when its hold-off ends. -/
  | holdoffExpiry (i : Fin 34) (level : Bool)
  /-- TIU_GO (R397): a write of TM_CTL with GO set; `w` holds the other bits. -/
  | tiuGo (m : Engine) (w : Word)
  /-- TIU_STOP (R397): a write of TM_CTL with STOP set. -/
  | tiuStop (m : Engine) (w : Word)
  /-- TIU_ENGINE_DONE (R397). -/
  | tiuEngineDone (m : Engine)
  /-- TIU_TIMEOUT (R397). -/
  | tiuTimeout (m : Engine)
  /-- TIU_GATE_END (R398). -/
  | tiuGateEnd (m : Engine)
  /-- EXPORT_DATAGRAM_CLOSE (R400): `full` when the port's transmit memory has no room. -/
  | exportDatagramClose (p : Plot) (full : Bool)
  /-- EVENT_FIRE (R404): the fabric takes, in one cycle, the waiting events of the sources named. -/
  | eventFire (srcs : List Nat)
  /-- EVF_FIRE (R409): a write of EVF_FIRE; `mgmt` when it comes from the management cores. -/
  | evfFire (w : Word) (mgmt : Bool)
  /-- ALERT_RELEASE (R411). -/
  | alertRelease
  /-- HK_GO (R417): a write of HK_CTL with GO set; `w` holds the other bits. -/
  | hkGo (q : Quad) (w : Word)
  /-- HK_STOP (R417). -/
  | hkStop (q : Quad) (w : Word)
  /-- HK_URG_GO (R418). -/
  | hkUrgGo (q : Quad) (w : Word)
  /-- HK_CFG_WRITE (R416). -/
  | hkCfgWrite (q : Quad) (w : Word)
  /-- HK_CONVERSION_DONE (R413): with what the converter has measured. -/
  | hkConversionDone (q : Quad) (v : HkSample)
  /-- HK_PASS_GAP_EXPIRY (R417). -/
  | hkPassGapExpiry (q : Quad)
  /-- HK_REF_READY (R416). -/
  | hkRefReady (q : Quad)
  /-- HK_REF_FAULT (R416). -/
  | hkRefFault (q : Quad)
  /-- SENS_OPEN_DETECT (R424). -/
  | sensOpenDetect (q : Quad)
  /-- SENS_CHECK_GO (R425): a write of SN_CHK_CTL with GO set. -/
  | sensCheckGo (q : Quad) (w : Word)
  /-- SENS_CHECK_PERIOD (R425). -/
  | sensCheckPeriod (q : Quad)
  /-- SENS_CHECK_DONE (R425): |Z| in Ω and its phase in 0.01°. -/
  | sensCheckDone (q : Quad) (k : Fin 8) (ohms : Nat) (ph : BitVec 16)
  /-- POWER_METER_UPDATE (R429): mean power (mW) and mean voltage (mV) of every domain, and the current (mA) of
  every rail. -/
  | powerMeterUpdate (mw mv : List Nat) (ma : List Nat)
  /-- THERMAL_MODEL_UPDATE (R436): whether the fraction of 1/16 °C that each node reaches is rounded up. -/
  | thermalModelUpdate (up : List Bool)
  /-- THROTTLE_EVAL (R439). -/
  | throttleEval
  /-- THERMAL_ANCHOR (R437): what the thermal slots have converted anchors the model. -/
  | thermalAnchor
  /-- HOST_SHUTDOWN (R440): a write of PM_CTL.SHUTDOWN. -/
  | hostShutdown
  /-- SHUTDOWN_POWER_OFF (R440). -/
  | shutdownPowerOff
  /-- HARD_TRIP (R442): the diode whose comparator trips. -/
  | hardTrip (diode : Fin 4)
  /-- AVS_STEP (R434): the margin, in 1/64 cycle, that the monitors of domain `d` report. -/
  | avsStep (d : Fin 168) (margin : BitVec 6)
  /-- AVS_EMERGENCY (R434). -/
  | avsEmergency (d : Fin 168) (margin : BitVec 6)
  /-- AVS_REQUEST_RETRY (R465): whether the regulator acknowledges the request that stands. -/
  | avsRequestRetry (ack : Bool)
  /-- ISLAND_CLOCK_STEP (R435): the highest clock code the monitors allow, and the margin. -/
  | islandClockStep (t : Tile) (i : Fin 6) (code : BitVec 7) (margin : BitVec 6)
  /-- CLOCK_STRETCH (R435). -/
  | clockStretch (t : Tile) (i : Fin 6)
  /-- CONVERTER_POWER_DOWN (R432): converter `o` of a kind in tile `t` (XY 0–3, probe 0, flux 0–13). -/
  | converterPowerDown (t : Tile) (c : Converter) (o : Fin 14)
  /-- CONVERTER_WAKE (R432). -/
  | converterWake (t : Tile) (c : Converter) (o : Fin 14)
  /-- SKIM_SLOT (R444): the result of the next task of each of the 32 tiles; those of plot `p` run. -/
  | skimSlot (p : Plot) (results : List CalResult)
  /-- CAL_TIMER_EXPIRY (R445). -/
  | calTimerExpiry (p : Plot)
  /-- DEVICE_CAL_TASK (R446). -/
  | deviceCalTask (task : DevTask) (r : CalResult)
  /-- CAL_STORE_SAVE (R448). -/
  | calStoreSave
  /-- BOOT_CALIBRATION (R449): the results of the 32 tasks of each of the 32 tiles, of which the enabled ones run, and of every device
  task. -/
  | bootCalibration (tiles : List (List CalResult)) (tiu : List CalResult) (lanes : List CalResult)
  /-- CB_SAVE (R450). -/
  | cbSave
  /-- CB_SAVE_REQUEST (R450): a write of CB_CTL.SAVE. -/
  | cbSaveRequest
  /-- RTC_SET (R455): a write of RTC_CTL.SET. -/
  | rtcSet
  /-- VBAT_LOSS (R455). -/
  | vbatLoss
  /-- POR_ASSERT (R466, R467): POR_n falls. -/
  | porAssert
  /-- POR_RELEASE (R460): the levels on the strap balls, and whether SYS_RST_n is high. -/
  | porRelease (bootSel pairRole : BitVec 2) (sysHigh : Bool)
  /-- SYS_RST_ASSERT (R467): SYS_RST_n falls. -/
  | sysRstAssert
  /-- SYS_RST_RELEASE (R466). -/
  | sysRstRelease
  /-- BROWN_OUT (R464). -/
  | brownOut
  /-- REF_IN_LOSS (R469). -/
  | refInLoss
  /-- REF_IN_RECOVERY (R469). -/
  | refInRecovery
  /-- REF_IN_BOOT_TIMEOUT (R469). -/
  | refInBootTimeout
  /-- LANE_REF_LOSS (R470). -/
  | laneRefLoss (k : Fin 2)
  /-- PE_REFCLK_LOSS (R470). -/
  | peRefclkLoss
  /-- SMB_READ_GLB_ID (R479). -/
  | smbReadGlbId
  /-- SMB_READ_GLB_STS (R479). -/
  | smbReadGlbSts
  /-- SMB_READ_TJ (R479). -/
  | smbReadTj
  /-- SMB_READ_PM_TOTAL (R479). -/
  | smbReadPmTotal
  /-- SMB_READ_AON_STS (R479). -/
  | smbReadAonSts
  /-- SMB_READ_TRIP_LATCH (R479). -/
  | smbReadTripLatch
  /-- SMB_READ_STATE (R479). -/
  | smbReadState
  /-- JTAG_BYPASS (R484). -/
  | jtagBypass
  /-- JTAG_IDCODE (R484). -/
  | jtagIdcode
  /-- JTAG_SAMPLE (R484): the levels of the digital balls. -/
  | jtagSample (balls : List Bool)
  /-- JTAG_PRELOAD (R484): the values shifted into the boundary cells. -/
  | jtagPreload (cells : List Bool)
  /-- JTAG_EXTEST (R484). -/
  | jtagExtest
  /-- JTAG_CLAMP (R484). -/
  | jtagClamp
  /-- JTAG_HIGHZ (R484). -/
  | jtagHighz
  /-- JTAG_EXTEST_PULSE (R484). -/
  | jtagExtestPulse
  /-- JTAG_EXTEST_TRAIN (R484). -/
  | jtagExtestTrain
  /-- HEARTBEAT_SEND (R286). -/
  | heartbeatSend
  /-- PE_PERST_RELEASE (R471): the enumeration that follows settles a maximum payload of 128 · 2^`mps` bytes (R38). -/
  | pePerstRelease (mps : Fin 3)
  /-- BUS_MASTER_ENABLE_WRITE (R377): a write of the configuration space. -/
  | busMasterEnableWrite (c : PciCtl)
  /-- ETH_LINK_CHANGE (R388). -/
  | ethLinkChange (e : Port) (up : Bool) (speed : BitVec 2)
  /-- CONVERTER_AWAKE (R432). -/
  | converterAwake (t : Tile) (c : Converter) (o : Fin 14)
  /-- HENONE_RESTART_DONE (R323). -/
  | henoneRestartDone
  /-- MAILBOX_COMMAND_DONE (R339). -/
  | mailboxCommandDone
  deriving DecidableEq, Repr

end Sys2Proof
end

