-- ==== Sys2Proof/Decode.lean ====
section
/-! DEFINITION. The decoder of table words. The commands reach the HN256 as register accesses, messages, edges and events: no row of
the opcode table gives bits, so no word spells a command. -/

namespace Sys2Proof

/-- The command that a word of `nbits` bits spells: none, for the table gives no row any bits. -/
def decodeTableWord (_nbits _w : Nat) : Option Instr := none

end Sys2Proof
end

