-- ==== Sys2Proof/Config.lean ====
section
/-! DEFINITION. What a part fixes and the spec does not give: constants without a body, which no proof can see
through. Each is named in the assumption log. -/

namespace Sys2Proof.Config

/-- GLB_ID.STEP, the stepping of the part. -/
opaque stepping : BitVec 8
/-- The fused serial number (GLB_SERIAL). -/
opaque serial : BitVec 64
/-- UC_ID, by stepping. -/
opaque ucId : Word

/-- Island cycles that a sequencer spends in STALL_SYNC: the spec bounds the release, and does not fix it (R108). -/
opaque syncCycles : (now key : Nat) → Nat

/-- Island cycles that a sequencer spends in a wait that a cut or an abort ends: the island clock is not given (R90, R109, R125). -/
opaque stallCycles : (now key : Nat) → Nat
/-- The microcode ROM: the words at 0000h–1FFFh, which the spec describes and does not list (R116). -/
opaque ucRom : (addr : Nat) → BitVec 32
/-- The nano-store: 512 words of 192 bits, likewise (R116, R120). -/
opaque nanoStore : (i : Nat) → BitVec 192
/-- What the nano-words of a routine that a patch has changed write: scalar register `i` of a sequencer (16: TC, 17: PC), given what
the register held and what the instruction set makes of it. The bits of a nano-word's units are not described (R120, R121). -/
opaque nanoReg : (words : List (BitVec 192)) → (ins : BitVec 64) → (i : Nat) → (old new : BitVec 32) → BitVec 32
/-- Whether they carry out what the instruction does beside its registers: the push of its command, its store, its wait. -/
opaque nanoActs : (words : List (BitVec 192)) → (ins : BitVec 64) → Bool
/-- The cause that the fault unit of a nano-word raises, from bits 31:16 (R120). -/
opaque nanoCause : BitVec 16 → BitVec 5
/-- The carry of the ALU for an operation of which the spec defines none (R119). -/
opaque aluCarry : (op : Nat) → (a b : BitVec 32) → Bool

/-- Ticks that a register write takes to reach the bias die: the spec gives the bound 100, and not the time (R191). -/
opaque biasTransport : (now channel : Nat) → Nat
/-- Tap `m` of the interpolation filter for RF DAC sample `j` of a tick, in units of 2⁻¹⁶: the spec bounds its ripple and its images and
lists no taps (R127). Tap m weighs the envelope of m ticks ago. -/
opaque interpTap : (j m : Nat) → BitVec 18
/-- Whether an entry of a sine or cosine table is rounded up: the rounding of the tables is not given (R144, R199). Tables 0 and 1 are
the cosine and the sine of the frames, 2 and 3 those of the lanes' oscillators. -/
opaque trigUp : (table : Nat) → BitVec 48 → Bool

/-- ADC code `j` (0–3) that stands at the read-out input of tile `t` in tick `now`, with input band `band`: the signal is the outside
world's (R195). -/
opaque adc : (band t now j : Nat) → BitVec 12
/-- Tap `m` of the decimation filter, in units of 2⁻¹⁵: the spec bounds its ripple and its stop band, and lists no taps (R200). -/
opaque decTap : (m : Nat) → BitVec 16
/-- The angle of the vector 0, in 2⁻¹⁶ turn: it has none (R218). -/
opaque zeroAngle : BitVec 16
/-- KL_LN_EQ as the adaptation of lane `lane` sets it: the values come from the line (R250). -/
opaque equaliser : (now lane : Nat) → BitVec 32
/-- The 64 bits that lane `lane` receives in 5 ticks of a PRBS test (R251). -/
opaque laneRx : (now lane : Nat) → BitVec 64
/-- What a PRBS generator holds as it is turned on, and the bits that must fit for the checker to be synchronised (R251). -/
opaque prbsSeed : (lane : Nat) → BitVec 31
/-- The second of the two. -/
opaque prbsFit : Nat
/-- The lane on which the first block of a message arrives, where only the link is told (R255, R262). -/
opaque rxLane : (now link : Nat) → Nat
/-- Block and bit that an error injection on a lane inverts, in a message of `n` blocks (R251). -/
opaque injectAt : (lane n : Nat) → Nat × Nat
/-- The payload of coordination and heartbeat messages: the spec names its contents, and not its layout (R283, R286). -/
opaque bulkPayload : (kind : Nat) → (fields : List Nat) → List (BitVec 64)
/-- The partial image that a mirror message completes, with the tile of a PATCH image that it concerns (FFh: the whole image); none for
a capsule: Henone defines its content (R268, R288). -/
opaque mirrorImage : (payload : List (BitVec 64)) → Option (BitVec 8 × List (BitVec 8))
/-- Whether a management message completes a re-mirror: Henone defines its content (R268, R288). -/
opaque remirrorDone : (payload : List (BitVec 64)) → Bool

/-- KL_TT_ERR when the average lies outside its 16 bits, and the trim outside ±128 (R278, R280: no value is given). -/
opaque ttErr : (theta : Int) → BitVec 16

/-- Whether a quotient `num / den` whose rounding the spec does not state is rounded up (R382, R398). -/
opaque roundUp : (num den : Nat) → Bool
/-- The INFO bits, below VALID, of a stamp queue that is read empty (R382). -/
opaque absentStamp : (now : Nat) → BitVec 32
/-- A TIU result outside its 48 bits (R396, R399). -/
opaque tiuOverflow : (x : Int) → BitVec 48
/-- TM_FREQ where the fitted slope is not positive (R398). -/
opaque noFreq : (slope : Int) → BitVec 64
/-- OWN_TICKET_REQ of the Usdiel options (R326). -/
opaque ownTicketReq : Bool
/-- Whether fuse `bit` reads back set after an attempt to blow it (R328). -/
opaque fuseTakes : (bit attempt : Nat) → Bool
/-- The device seed: 256 fuses (R326). -/
opaque deviceSeed : BitVec 256
/-- The PUF helper data: 4,096 fuses (R326). -/
opaque pufHelper : BitVec 4096
/-- The PUF response that the helper data reconstructs (R326, R329). -/
opaque puf : (helper : List (BitVec 8)) → List (BitVec 8)
/-- The Usdiel options beside OWN_TICKET_REQ, the converter and bias factory trim, and the memory-repair maps: 64, 6,144 and 2,048
fuses, whose layout the spec does not give (R326). -/
opaque options : BitVec 64
/-- The factory trim. -/
opaque factoryTrim : BitVec 6144
/-- The redundancy maps. -/
opaque memoryRepair : BitVec 2048
/-- Word `i` of the nonce that Welolyan loads after command `n` (R339: random). -/
opaque nonce : (n i : Nat) → BitVec 32
/-- Whether a Henone image passes Welolyan's verification: its format is not given (R321). -/
opaque henPasses : (image : List (BitVec 8)) → Bool
/-- HEN_STS.VERSION of a Henone image (R321). -/
opaque henVersion : (image : List (BitVec 8)) → BitVec 16
/-- The Welolyan ROM and the primer image in on-die ROM, as the measurements take them (R302, R351). -/
opaque welolyanRom : List (BitVec 8)
/-- The primer image. -/
opaque primer : List (BitVec 8)
/-- The minimal Henone in ROM (R321). -/
opaque henRom : List (BitVec 8)
/-- The Henone image that the flash of a slot holds as a boot finds it, where this part has not written the slot (R321). -/
opaque henFlash : (now slot : Nat) → List (BitVec 8)
/-- Usdiel's vendor identifier (R354). -/
opaque vendorId : BitVec 16
/-- A word of the configuration space whose place the spec does not give, from what the endpoint holds (R354). -/
opaque configWord : (off : Nat) → (fields : List Nat) → BitVec 32
/-- Ticks that a flash write takes to verify, and to erase: neither is given (R322). -/
opaque flashVerify : (start : Nat) → Nat
/-- Ticks of the erase. -/
opaque flashErase : (start : Nat) → Nat
/-- What a slot holds after a write that a power loss or a reset cut short (R322). -/
opaque flashTorn : (now slot : Nat) → List (BitVec 8)
/-- Bits 11:1 of IDCODE: the manufacturer's identity, which the spec does not give (R484). -/
opaque jtagMaker : BitVec 11
/-- What an SPDM response carries beside what the spec states: nonces, key shares, verification data. -/
opaque spdmData : (code : Nat) → (fields : List Nat) → (data : List (BitVec 8)) → List (BitVec 8)

/-! ### Cryptographic engines: the primitives that the spec names by their standards (R221, R329–R352) -/

/-- SHA-384. -/
opaque sha384 : (data : List (BitVec 8)) → List (BitVec 8)
/-- HKDF-SHA-384 (RFC 5869) of `n` bytes. -/
opaque hkdf : (ikm salt info : List (BitVec 8)) → (n : Nat) → List (BitVec 8)
/-- HMAC-SHA-384. -/
opaque hmac : (key data : List (BitVec 8)) → List (BitVec 8)
/-- The counter mode of AES-256-GCM: from plaintext to ciphertext and back. -/
opaque gcmCtr : (key nonce data : List (BitVec 8)) → List (BitVec 8)
/-- The tag of AES-256-GCM over additional data and ciphertext; with no ciphertext it is AES-256-GMAC. -/
opaque gcmTag : (key nonce aad cipher : List (BitVec 8)) → List (BitVec 8)
/-- The public key of a P-384 scalar, uncompressed SEC1. -/
opaque p384Pub : (scalar : Nat) → List (BitVec 8)
/-- The uncompressed form of a compressed SEC1 key. -/
opaque sec1Expand : (key : List (BitVec 8)) → List (BitVec 8)
/-- ECDH P-384 of a private scalar and a public key. -/
opaque ecdh : (scalar : Nat) → (pub : List (BitVec 8)) → List (BitVec 8)
/-- ECDSA P-384 over a digest: r then s. -/
opaque ecdsaSign : (scalar : Nat) → (digest : List (BitVec 8)) → List (BitVec 8)
/-- An ECDSA P-384 signature verifies over a digest under a public key. -/
opaque ecdsaVerify : (key digest sig : List (BitVec 8)) → Bool
/-- Usdiel's keys, compressed SEC1: 0 manufacturing, 1 patch (R335), 2 service, 3 the tickets of TAKE_OWNERSHIP (R339). -/
opaque usdielKey : (role : Nat) → List (BitVec 8)
/-- The X.509 encoding of a certificate without its signature (R330). -/
opaque x509 : (level issuer : Nat) → (subject key ext : List (BitVec 8)) → List (BitVec 8)
/-- Public keys of the root and of the device CA (R330; level 0 and 1). -/
opaque caKey : (level : Nat) → List (BitVec 8)
/-- The signatures of Usdiel's CAs on the certificates of levels 0 to 2. -/
opaque caSign : (level : Nat) → (tbs : List (BitVec 8)) → List (BitVec 8)
/-- The GCM nonce with which a plot key of a generation is sealed (R333: not given). -/
opaque sealNonce : (plot gen : Nat) → List (BitVec 8)

/-- The GCM nonce with which a copy of the calibration store is sealed (R329, R448: not given). -/
opaque calNonce : (seq : Nat) → List (BitVec 8)

/-! ### The factory baseline of the thermal model (R436, R448): its coefficients, in units of 2⁻²⁴ and for 1 ms -/

/-- What node `n` takes of its difference from node `m`. -/
opaque rcNode : (n m : Nat) → BitVec 32
/-- What node `n` takes of a power in mW that is turned into heat there, in 1/16 °C. -/
opaque rcPower : (n : Nat) → BitVec 32
/-- What the lid over a quadrant takes of its difference from the cold plate. -/
opaque rcCold : (quad : Nat) → BitVec 32
/-- Whether VDD_IO stays within tolerance through a reset by POR_n or a brown-out: which rail leaves it is not told (R463, R464). -/
opaque vddIo : (now : Nat) → Bool

end Sys2Proof.Config
end

