-- ==== Sys2Proof/Machine/KMap.lean ====
section
/-! DEFINITION. Sparse maps in one canonical form: a list of key and value pairs, keys strictly rising, no entry equal
to the value that an unlisted key reads as. All indexed state of the model that is not a register is held so. -/

namespace Sys2Proof.Machine

/-- A sparse map from Nat keys. -/
abbrev KMap (α : Type) := List (Nat × α)

/-- The value at a key: `d` where the map lists none. -/
def KMap.get {α : Type} (d : α) : KMap α → Nat → α
  | [], _ => d
  | (a, v) :: m, k => if a = k then v else KMap.get d m k

/-- Enters or replaces the entry of a key. -/
def KMap.ins {α : Type} (k : Nat) (v : α) : KMap α → KMap α
  | [] => [(k, v)]
  | (a, w) :: m =>
    if k < a then (k, v) :: (a, w) :: m
    else if k = a then (k, v) :: m
    else (a, w) :: KMap.ins k v m

/-- Removes the entries of a key. -/
def KMap.del {α : Type} (k : Nat) : KMap α → KMap α
  | [] => []
  | (a, w) :: m => if a = k then KMap.del k m else (a, w) :: KMap.del k m

/-- Writes a key: a value equal to the unlisted one removes the entry. -/
def KMap.set {α : Type} [DecidableEq α] (d : α) (m : KMap α) (k : Nat) (v : α) : KMap α :=
  if v = d then KMap.del k m else KMap.ins k v m

/-- Keys strictly rising from above `lo`. -/
def KMap.rising {α : Type} : Nat → KMap α → Bool
  | _, [] => true
  | lo, (a, _) :: m => decide (lo ≤ a) && KMap.rising (a + 1) m

/-- The canonical form: keys strictly rising, no entry with the value that an unlisted key reads as. -/
def KMap.wf {α : Type} [DecidableEq α] (d : Nat → α) (m : KMap α) : Bool :=
  KMap.rising 0 m && m.all fun e => decide (e.2 ≠ d e.1)

end Sys2Proof.Machine
end

