-- ==== Sys2Proof/Machine/RegMap.lean ====
section
/-! DEFINITION. The register map of the control and doorbell windows (R8–R10, R34–R36): the byte offset of every
register (`A.<register>`, with its indices), the bit range of every field (`F.<register>.<field>`), and the table of
registers with their access codes. A register of the doorbell window has key 1000_0000h plus its offset. -/

namespace Sys2Proof.Machine

/-- A bit field NAME[hi:lo] of a register (R9). -/
structure Fld where
  hi : Nat
  lo : Nat
  deriving DecidableEq, Repr

/-- The access codes of R10. -/
inductive Acc where
  | rw | ro | wo | w1c | w1s | rc | rws
  deriving DecidableEq, Repr

/-- A field of the register table: its bits, its access code, whether it is LK. -/
structure FieldSpec where
  fld : Fld
  acc : Acc
  lk : Bool
  deriving DecidableEq, Repr

/-- The register names of the manual. -/
inductive Reg where
  -- 01_architecture.md
  | glbId | glbCaps | glbSerialLo | glbSerialHi | glbCtl | glbSts | glbErrSts | glbErrAddr | glbTileEn 
  | glbTilePlot | glbBridgeSts | glbScratch 
  -- 02_timeline_shots.md
  | dtLo | dtHi | dtSts | dtLoadLo | dtLoadHi | dtLoadCtl | shotCtl | shotPeriod | shotGapMin | shotLead 
  | trigDelay | shotMax | runStartLo | runStartHi | runShots | runCmd | runSts | shotNum | shotsDone | nextStartLo 
  | nextStartHi | lastLen | flagsAcc | flaggedShots | slipCount | pauseTotal | pauseLast 
  -- 03_sequencer_isa.md
  | seqCtl | seqSts | seqPc | seqTc | seqFault | seqFaultInfo | seqFaultCnt | seqPmCorr | seqInstrLo | seqInstrHi 
  | seqCycLo | seqCycHi | seqS | seqLoopSe | seqLoopRem | tqCtl | tqSts | tqLateCnt | tqMargin | tqLastLate 
  | tqStallTicks | ucId | ucPatchId | ucSts | ucParCnt | ucMatch | ucHitCnt | ucPatchRam 
  -- 04_drive_synthesis.md
  | fsFwLo | fsFwHi | fsPhInit | fsPhWork | xoCfg | xoSts | xoClipCnt | xcSts | xcJumps | xcUnderCnt | mkCfg 
  | vlCfg | cp | celChk | ddAddrLo | ddAddrHi | ddLen | ddCtl | ddSts | ddChunk | ddStarveCnt | ddFetchCnt | ddGen 
  | segLo | segHi 
  -- 05_flux_bias.md
  | fxCfg | fxIdle | fxSts | fxClipCnt | fxJumps | fxUnderCnt | fxIirB0 | fxIirB1 | fxIirA1 | fxFir | bqCtl | bqSts 
  | bqLateCnt | bqSuperCnt | bqLostCnt | bqHost | bdCfg | bdClrCode | bdSlew | bdOut | bdTarget | bdSts | bdComp 
  | bdMon | bdGenCtl | bdGenLow | bdGenHigh | bdGenStep | bdGenSeed | bqdSts | bqdClrCnt 
  -- 06_readout.md
  | riCfg | riSts | riOvrCnt | riDropCnt | roChk | poCfg | poSts | poClipCnt | rcSts | rcJumps | rcUnderCnt 
  | rfsFwLo | rfsFwHi | rfsPhInit | rfsPhWork | lnCfg | lnSts | lnResI | lnResQ | lnResMeta | lnWinCnt 
  | lnRefusedCnt | lnOvfCnt | lnPreemptTicks | ttCtl | ttBaseLo | ttBaseHi | ttWin | ttPhRef | ttAmpRef | ttQlim 
  | ttOff | ttSts | ttStepCnt | rsA | rsB | rsC | rsD | dbCtl | dbW | dbTh | dbRef | dbLoop | dbDrift | dbSts 
  | dbUpdCnt | dbRecentreCnt | dbCentI | dbCentQ | dbSpread | roWeight 
  -- 07_trellis_feedback.md
  | trlSts | trlStaleCnt | trlRemLateCnt | trlRemDropCnt | trlChk | trlCollideCnt | trlSlot | puCfg | puMaskLo 
  | puMaskHi | puSts | rmCfg | rmSts | exp | kb | tpSts | tpLateDecCnt | tpSupersededCnt | tpSelectCnt 
  | tpFallbackCnt | tpLastSel | tpChk 
  -- 08_kelair_multidevice.md
  | klId | klGsts | klFwdDropCnt | klChk | klRouteA | klRouteB | klFwd | klTtCfg | klTtSts | klTtErr | klTtTrim 
  | klTtAsym | klPairCtl | klPairSts | klTakeoverLo | klTakeoverHi | klCoord | klCoordSts | klCtl | klSts | klFill 
  | klMargin | klDecCrcCnt | klBulkCrcCnt | klReplayCnt | klDupCnt | klGapCnt | klTrainFailCnt | klDegradeCnt 
  | klFillInsCnt | klFillDelCnt | klTxDecCnt | klRxDecCnt | klLnCtl | klLnSts | klLnEq | klLnPrbsErr | klLnHdrErr 
  -- 09_configuration_live_update.md
  | cfgSts | imgFallback | imgBuildLo | imgBuildHi | cfgCtl | cfgStageLo | cfgStageHi | cfgStageLen | cfgPartP 
  | cfgPartCnt | henSts | henCtl | cfgFlashCtl | cfgFlashSts | tileSts | tileXb | tileBarLo | tileBarHi 
  | tilePlaceCtl | tilePlaceSts | tileFailLo | tileFailHi | tilePlaceCnt 
  -- 10_security_plots.md
  | wlSts | wlCmd | wlCmdSts | wlFuseRem | wlArb | wlNonce | wlCseqInLo | wlCseqInHi | wlPlotSts | wlBatchCfg 
  | wlBatchNum | wlAuthFailCnt | wlSignSkipCnt | wlBuf 
  -- 11_host_interface.md
  | cmdBaseLo | cmdBaseHi | cmdCfg | cmdProd | cmdCons | cmdSts | cmdCtl | rspBaseLo | rspBaseHi | rspCfg | rspProd 
  | rspCons | rrBaseLo | rrBaseHi | rrCfg | rrProd | rrCons | rrIrq | rrShotDropCnt | wbLo | wbHi | pgAlert 
  | capOkCnt | capNackCnt | msixTable | msixPba 
  -- 12_network_time_tiu.md
  | ptpCtl | ptpSts | ptpNs | ptpNsFrac | ptpRateLo | ptpOffset | ptpOffsetFrac | ptpJumpThr | ptpSlew 
  | ptpEpochSecLo | ptpEpochSecHi | ptpEpochNs | ptpJumpCnt | ptpLastRefused | ptpRateHi | xtsCtl | xtsDtLo 
  | xtsDtHi | xtsNs | xtsNsFrac | ppsOutCtl | ppsPeriod | ptmDtLo | ptmDtHi | ptmMtLo | ptmMtHi | ethTsCtl 
  | ethAsymIn | ethAsymOut | ethTsSts | ethLqCtl | ethGuard | ethLateCnt | ethLaunchCnt | ethTsStaleCnt | ethRxtsNs 
  | ethRxtsInfo | ethTxtsNs | ethTxtsInfo | tiuInCfg | tiuInHoldCnt | tiuInEdgeCnt | tiuInSts | tmCtl | tmN 
  | tmGate | tmTimeout | tmSts | tmCount | tmMeanLo | tmMeanHi | tmDev | tmMinLo | tmMinHi | tmMaxLo | tmMaxHi 
  | tmFreqLo | tmFreqHi | expCfg | expDropCnt 
  -- 13_events_housekeeping.md
  | evfCh | evfChCnt | taskSub | taskCtl | taskCoal | taskCnt | evfFire | evfSts | evfLoopCnt | evfLoopSrc 
  | evfIrqStsLo | evfIrqStsHi | evfAlertSts | evfSrcSts | hkCfg | hkCtl | hkSts | hkPassCnt | hkLimStsLo 
  | hkLimStsHi | hkUrgCfg | hkUrgRes | hkUrgFlg | hkMissCnt | hkAbortCnt | hkSeq | hkRes | hkResFlg | hkLimLo 
  | hkLimHi | snCfg | snSts | snImpMag | snImpPh | snOpenCnt | snChkCtl 
  -- 14_power_thermal_calibration.md
  | pmCtl | pmSts | pmTotal | pmLimit | pmEnergyLo | pmEnergyHi | pmDom | avsDom | avsCtl | avsEmergCnt | thCtl 
  | thSts | thTj | thAnchor | thCold | thNode | thDiode | calCtl | calSts | calTiuQ | calAge | calInsCnt | rtcSecLo 
  | rtcSecHi | rtcSetLo | rtcSetHi | rtcCtl | rtcSts | aonSts | tpwCtl | tpwSts | tpwPdCnt | islCtl | islLim 
  | islSts | calQ | calQlim | cbCtl | cbSts | cbLogHead | cbLastSave | cbCntLo | cbCntHi | cbLog 
  deriving DecidableEq

/-- A register of the map: its base offset, the count and the stride of each of its indices, its fields. -/
structure RegSpec where
  reg : Reg
  base : Nat
  dims : List (Nat × Nat)
  fields : List FieldSpec
  deriving DecidableEq

/-! ## Offsets -/

/-- GLB_ID (R8). -/
def A.glbId : Nat := 0x0
/-- GLB_CAPS (R8). -/
def A.glbCaps : Nat := 0x4
/-- GLB_SERIAL_LO (R13). -/
def A.glbSerialLo : Nat := 0x8
/-- GLB_SERIAL_HI (R13). -/
def A.glbSerialHi : Nat := 0xC
/-- GLB_CTL (R42). -/
def A.glbCtl : Nat := 0x10
/-- GLB_STS (R41). -/
def A.glbSts : Nat := 0x14
/-- GLB_ERR_STS (R43). -/
def A.glbErrSts : Nat := 0x18
/-- GLB_ERR_ADDR (R43). -/
def A.glbErrAddr : Nat := 0x1C
/-- GLB_TILE_EN (R44). -/
def A.glbTileEn : Nat := 0x20
/-- GLB_TILE_PLOT (R30). -/
def A.glbTilePlot (i : Nat) : Nat := 0x24 + 0x4 * i
/-- GLB_BRIDGE_STS (R20). -/
def A.glbBridgeSts : Nat := 0x34
/-- GLB_SCRATCH (R10). -/
def A.glbScratch : Nat := 0x38
/-- DT_LO (R45). -/
def A.dtLo : Nat := 0x300000
/-- DT_HI (R45). -/
def A.dtHi : Nat := 0x300004
/-- DT_STS (R47). -/
def A.dtSts : Nat := 0x300008
/-- DT_LOAD_LO (R47). -/
def A.dtLoadLo : Nat := 0x30000C
/-- DT_LOAD_HI (R47). -/
def A.dtLoadHi : Nat := 0x300010
/-- DT_LOAD_CTL (R49). -/
def A.dtLoadCtl : Nat := 0x300014
/-- SHOT_CTL (R56). -/
def A.shotCtl (i : Nat) : Nat := 0x301000 + 0x100 * i
/-- SHOT_PERIOD (R56). -/
def A.shotPeriod (i : Nat) : Nat := 0x301004 + 0x100 * i
/-- SHOT_GAP_MIN (R55). -/
def A.shotGapMin (i : Nat) : Nat := 0x301008 + 0x100 * i
/-- SHOT_LEAD (R60). -/
def A.shotLead (i : Nat) : Nat := 0x30100C + 0x100 * i
/-- TRIG_DELAY (R56). -/
def A.trigDelay (i : Nat) : Nat := 0x301010 + 0x100 * i
/-- SHOT_MAX (R52). -/
def A.shotMax (i : Nat) : Nat := 0x301014 + 0x100 * i
/-- RUN_START_LO (R55). -/
def A.runStartLo (i : Nat) : Nat := 0x301018 + 0x100 * i
/-- RUN_START_HI (R55). -/
def A.runStartHi (i : Nat) : Nat := 0x30101C + 0x100 * i
/-- RUN_SHOTS (R62). -/
def A.runShots (i : Nat) : Nat := 0x301020 + 0x100 * i
/-- RUN_CMD (R64). -/
def A.runCmd (i : Nat) : Nat := 0x301024 + 0x100 * i
/-- RUN_STS (R62). -/
def A.runSts (i : Nat) : Nat := 0x301028 + 0x100 * i
/-- SHOT_NUM (R59). -/
def A.shotNum (i : Nat) : Nat := 0x30102C + 0x100 * i
/-- SHOTS_DONE (R62). -/
def A.shotsDone (i : Nat) : Nat := 0x301030 + 0x100 * i
/-- NEXT_START_LO (R59). -/
def A.nextStartLo (i : Nat) : Nat := 0x301034 + 0x100 * i
/-- NEXT_START_HI (R59). -/
def A.nextStartHi (i : Nat) : Nat := 0x301038 + 0x100 * i
/-- LAST_LEN (R53). -/
def A.lastLen (i : Nat) : Nat := 0x30103C + 0x100 * i
/-- FLAGS_ACC (R67). -/
def A.flagsAcc (i : Nat) : Nat := 0x301040 + 0x100 * i
/-- FLAGGED_SHOTS (R67). -/
def A.flaggedShots (i : Nat) : Nat := 0x301044 + 0x100 * i
/-- SLIP_COUNT (R57). -/
def A.slipCount (i : Nat) : Nat := 0x301048 + 0x100 * i
/-- PAUSE_TOTAL (R55). -/
def A.pauseTotal (i : Nat) : Nat := 0x30104C + 0x100 * i
/-- PAUSE_LAST (R55). -/
def A.pauseLast (i : Nat) : Nat := 0x301050 + 0x100 * i
/-- SEQ_CTL (R124). -/
def A.seqCtl (i j : Nat) : Nat := 0x1008000 + 0x80000 * i + 0x400 * j
/-- SEQ_STS (R83). -/
def A.seqSts (i j : Nat) : Nat := 0x1008004 + 0x80000 * i + 0x400 * j
/-- SEQ_PC (R78). -/
def A.seqPc (i j : Nat) : Nat := 0x1008008 + 0x80000 * i + 0x400 * j
/-- SEQ_TC (R78). -/
def A.seqTc (i j : Nat) : Nat := 0x100800C + 0x80000 * i + 0x400 * j
/-- SEQ_FAULT (R125). -/
def A.seqFault (i j : Nat) : Nat := 0x1008010 + 0x80000 * i + 0x400 * j
/-- SEQ_FAULT_INFO (R114). -/
def A.seqFaultInfo (i j : Nat) : Nat := 0x1008014 + 0x80000 * i + 0x400 * j
/-- SEQ_FAULT_CNT (R114). -/
def A.seqFaultCnt (i j : Nat) : Nat := 0x1008018 + 0x80000 * i + 0x400 * j
/-- SEQ_PM_CORR (R80). -/
def A.seqPmCorr (i j : Nat) : Nat := 0x100801C + 0x80000 * i + 0x400 * j
/-- SEQ_INSTR_LO (R13). -/
def A.seqInstrLo (i j : Nat) : Nat := 0x1008020 + 0x80000 * i + 0x400 * j
/-- SEQ_INSTR_HI (R13). -/
def A.seqInstrHi (i j : Nat) : Nat := 0x1008024 + 0x80000 * i + 0x400 * j
/-- SEQ_CYC_LO (R13). -/
def A.seqCycLo (i j : Nat) : Nat := 0x1008028 + 0x80000 * i + 0x400 * j
/-- SEQ_CYC_HI (R13). -/
def A.seqCycHi (i j : Nat) : Nat := 0x100802C + 0x80000 * i + 0x400 * j
/-- SEQ_S (R78). -/
def A.seqS (i j k : Nat) : Nat := 0x1008040 + 0x80000 * i + 0x400 * j + 0x4 * k
/-- SEQ_LOOP_SE (R78). -/
def A.seqLoopSe (i j k : Nat) : Nat := 0x1008080 + 0x80000 * i + 0x400 * j + 0x8 * k
/-- SEQ_LOOP_REM (R78). -/
def A.seqLoopRem (i j k : Nat) : Nat := 0x1008084 + 0x80000 * i + 0x400 * j + 0x8 * k
/-- TQ_CTL (R74). -/
def A.tqCtl (i j : Nat) : Nat := 0x1008300 + 0x80000 * i + 0x400 * j
/-- TQ_STS (R71). -/
def A.tqSts (i j : Nat) : Nat := 0x1008304 + 0x80000 * i + 0x400 * j
/-- TQ_LATE_CNT (R74). -/
def A.tqLateCnt (i j : Nat) : Nat := 0x1008308 + 0x80000 * i + 0x400 * j
/-- TQ_MARGIN (R73). -/
def A.tqMargin (i j : Nat) : Nat := 0x100830C + 0x80000 * i + 0x400 * j
/-- TQ_LAST_LATE (R74). -/
def A.tqLastLate (i j : Nat) : Nat := 0x1008310 + 0x80000 * i + 0x400 * j
/-- TQ_STALL_TICKS (R71). -/
def A.tqStallTicks (i j : Nat) : Nat := 0x1008314 + 0x80000 * i + 0x400 * j
/-- UC_ID (R116). -/
def A.ucId (i : Nat) : Nat := 0x1050000 + 0x80000 * i
/-- UC_PATCH_ID (R122). -/
def A.ucPatchId (i : Nat) : Nat := 0x1050004 + 0x80000 * i
/-- UC_STS (R113). -/
def A.ucSts (i : Nat) : Nat := 0x1050008 + 0x80000 * i
/-- UC_PAR_CNT (R113). -/
def A.ucParCnt (i : Nat) : Nat := 0x105000C + 0x80000 * i
/-- UC_MATCH (R121). -/
def A.ucMatch (i j : Nat) : Nat := 0x1050100 + 0x80000 * i + 0x4 * j
/-- UC_HIT_CNT (R121). -/
def A.ucHitCnt (i j : Nat) : Nat := 0x1050200 + 0x80000 * i + 0x4 * j
/-- UC_PATCH_RAM (R116). -/
def A.ucPatchRam (i j : Nat) : Nat := 0x1051000 + 0x80000 * i + 0x4 * j
/-- FS_FW_LO (R143). -/
def A.fsFwLo (i j k : Nat) : Nat := 0x1020000 + 0x80000 * i + 0x80 * j + 0x10 * k
/-- FS_FW_HI (R143). -/
def A.fsFwHi (i j k : Nat) : Nat := 0x1020004 + 0x80000 * i + 0x80 * j + 0x10 * k
/-- FS_PH_INIT (R143). -/
def A.fsPhInit (i j k : Nat) : Nat := 0x1020008 + 0x80000 * i + 0x80 * j + 0x10 * k
/-- FS_PH_WORK (R142). -/
def A.fsPhWork (i j k : Nat) : Nat := 0x102000C + 0x80000 * i + 0x80 * j + 0x10 * k
/-- XO_CFG (R145). -/
def A.xoCfg (i j : Nat) : Nat := 0x1020800 + 0x80000 * i + 0x10 * j
/-- XO_STS (R146). -/
def A.xoSts (i j : Nat) : Nat := 0x1020804 + 0x80000 * i + 0x10 * j
/-- XO_CLIP_CNT (R145). -/
def A.xoClipCnt (i j : Nat) : Nat := 0x1020808 + 0x80000 * i + 0x10 * j
/-- XC_STS (R136). -/
def A.xcSts (i j : Nat) : Nat := 0x1020900 + 0x80000 * i + 0x10 * j
/-- XC_JUMPS (R138). -/
def A.xcJumps (i j : Nat) : Nat := 0x1020904 + 0x80000 * i + 0x10 * j
/-- XC_UNDER_CNT (R154). -/
def A.xcUnderCnt (i j : Nat) : Nat := 0x1020908 + 0x80000 * i + 0x10 * j
/-- MK_CFG (R148). -/
def A.mkCfg (i j : Nat) : Nat := 0x1020A00 + 0x80000 * i + 0x4 * j
/-- VL_CFG (R149). -/
def A.vlCfg (i j : Nat) : Nat := 0x1020A08 + 0x80000 * i + 0x4 * j
/-- CP (R130). -/
def A.cp (i j : Nat) : Nat := 0x1021000 + 0x80000 * i + 0x4 * j
/-- CEL_CHK (R132). -/
def A.celChk (i : Nat) : Nat := 0x1021080 + 0x80000 * i
/-- DD_ADDR_LO (R150). -/
def A.ddAddrLo (i j : Nat) : Nat := 0x1022000 + 0x80000 * i + 0x20 * j
/-- DD_ADDR_HI (R150). -/
def A.ddAddrHi (i j : Nat) : Nat := 0x1022004 + 0x80000 * i + 0x20 * j
/-- DD_LEN (R150). -/
def A.ddLen (i j : Nat) : Nat := 0x1022008 + 0x80000 * i + 0x20 * j
/-- DD_CTL (R152). -/
def A.ddCtl (i j : Nat) : Nat := 0x102200C + 0x80000 * i + 0x20 * j
/-- DD_STS (R152). -/
def A.ddSts (i j : Nat) : Nat := 0x1022010 + 0x80000 * i + 0x20 * j
/-- DD_CHUNK (R153). -/
def A.ddChunk (i j : Nat) : Nat := 0x1022014 + 0x80000 * i + 0x20 * j
/-- DD_STARVE_CNT (R154). -/
def A.ddStarveCnt (i j : Nat) : Nat := 0x1022018 + 0x80000 * i + 0x20 * j
/-- DD_FETCH_CNT (R152). -/
def A.ddFetchCnt (i j : Nat) : Nat := 0x102201C + 0x80000 * i + 0x20 * j
/-- DD_GEN (R350). -/
def A.ddGen (i j : Nat) : Nat := 0x1022200 + 0x80000 * i + 0x4 * j
/-- SEG_LO (R132). -/
def A.segLo (i j : Nat) : Nat := 0x1028000 + 0x80000 * i + 0x8 * j
/-- SEG_HI (R132). -/
def A.segHi (i j : Nat) : Nat := 0x1028004 + 0x80000 * i + 0x8 * j
/-- FX_CFG (R158). -/
def A.fxCfg (i j : Nat) : Nat := 0x1040000 + 0x80000 * i + 0x200 * j
/-- FX_IDLE (R161). -/
def A.fxIdle (i j : Nat) : Nat := 0x1040004 + 0x80000 * i + 0x200 * j
/-- FX_STS (R162). -/
def A.fxSts (i j : Nat) : Nat := 0x1040008 + 0x80000 * i + 0x200 * j
/-- FX_CLIP_CNT (R166). -/
def A.fxClipCnt (i j : Nat) : Nat := 0x104000C + 0x80000 * i + 0x200 * j
/-- FX_JUMPS (R159). -/
def A.fxJumps (i j : Nat) : Nat := 0x1040010 + 0x80000 * i + 0x200 * j
/-- FX_UNDER_CNT (R159). -/
def A.fxUnderCnt (i j : Nat) : Nat := 0x1040014 + 0x80000 * i + 0x200 * j
/-- FX_IIR_B0 (R164). -/
def A.fxIirB0 (i j k : Nat) : Nat := 0x1040040 + 0x80000 * i + 0x200 * j + 0x10 * k
/-- FX_IIR_B1 (R164). -/
def A.fxIirB1 (i j k : Nat) : Nat := 0x1040044 + 0x80000 * i + 0x200 * j + 0x10 * k
/-- FX_IIR_A1 (R164). -/
def A.fxIirA1 (i j k : Nat) : Nat := 0x1040048 + 0x80000 * i + 0x200 * j + 0x10 * k
/-- FX_FIR (R165). -/
def A.fxFir (i j k : Nat) : Nat := 0x1040100 + 0x80000 * i + 0x200 * j + 0x4 * k
/-- BQ_CTL (R173). -/
def A.bqCtl (i j : Nat) : Nat := 0x1042000 + 0x80000 * i + 0x20 * j
/-- BQ_STS (R176). -/
def A.bqSts (i j : Nat) : Nat := 0x1042004 + 0x80000 * i + 0x20 * j
/-- BQ_LATE_CNT (R173). -/
def A.bqLateCnt (i j : Nat) : Nat := 0x1042008 + 0x80000 * i + 0x20 * j
/-- BQ_SUPER_CNT (R175). -/
def A.bqSuperCnt (i j : Nat) : Nat := 0x104200C + 0x80000 * i + 0x20 * j
/-- BQ_LOST_CNT (R176). -/
def A.bqLostCnt (i j : Nat) : Nat := 0x1042010 + 0x80000 * i + 0x20 * j
/-- BQ_HOST (R174). -/
def A.bqHost (i j : Nat) : Nat := 0x1042014 + 0x80000 * i + 0x20 * j
/-- BD_CFG (R187). -/
def A.bdCfg (i j : Nat) : Nat := 0x2000000 + 0x100000 * i + 0x40 * j
/-- BD_CLR_CODE (R183). -/
def A.bdClrCode (i j : Nat) : Nat := 0x2000004 + 0x100000 * i + 0x40 * j
/-- BD_SLEW (R178). -/
def A.bdSlew (i j : Nat) : Nat := 0x2000008 + 0x100000 * i + 0x40 * j
/-- BD_OUT (R170). -/
def A.bdOut (i j : Nat) : Nat := 0x200000C + 0x100000 * i + 0x40 * j
/-- BD_TARGET (R170). -/
def A.bdTarget (i j : Nat) : Nat := 0x2000010 + 0x100000 * i + 0x40 * j
/-- BD_STS (R187). -/
def A.bdSts (i j : Nat) : Nat := 0x2000014 + 0x100000 * i + 0x40 * j
/-- BD_COMP (R182). -/
def A.bdComp (i j : Nat) : Nat := 0x2000018 + 0x100000 * i + 0x40 * j
/-- BD_MON (R182). -/
def A.bdMon (i j : Nat) : Nat := 0x200001C + 0x100000 * i + 0x40 * j
/-- BD_GEN_CTL (R180). -/
def A.bdGenCtl (i j : Nat) : Nat := 0x2000020 + 0x100000 * i + 0x40 * j
/-- BD_GEN_LOW (R180). -/
def A.bdGenLow (i j : Nat) : Nat := 0x2000024 + 0x100000 * i + 0x40 * j
/-- BD_GEN_HIGH (R180). -/
def A.bdGenHigh (i j : Nat) : Nat := 0x2000028 + 0x100000 * i + 0x40 * j
/-- BD_GEN_STEP (R180). -/
def A.bdGenStep (i j : Nat) : Nat := 0x200002C + 0x100000 * i + 0x40 * j
/-- BD_GEN_SEED (R180). -/
def A.bdGenSeed (i j : Nat) : Nat := 0x2000030 + 0x100000 * i + 0x40 * j
/-- BQD_STS (R184). -/
def A.bqdSts (i : Nat) : Nat := 0x2004000 + 0x100000 * i
/-- BQD_CLR_CNT (R184). -/
def A.bqdClrCnt (i : Nat) : Nat := 0x2004004 + 0x100000 * i
/-- RI_CFG (R195). -/
def A.riCfg (i : Nat) : Nat := 0x1030000 + 0x80000 * i
/-- RI_STS (R196). -/
def A.riSts (i : Nat) : Nat := 0x1030004 + 0x80000 * i
/-- RI_OVR_CNT (R196). -/
def A.riOvrCnt (i : Nat) : Nat := 0x1030008 + 0x80000 * i
/-- RI_DROP_CNT (R223). -/
def A.riDropCnt (i : Nat) : Nat := 0x103000C + 0x80000 * i
/-- RO_CHK (R207). -/
def A.roChk (i : Nat) : Nat := 0x1030010 + 0x80000 * i
/-- PO_CFG (R193). -/
def A.poCfg (i : Nat) : Nat := 0x1030020 + 0x80000 * i
/-- PO_STS (R193). -/
def A.poSts (i : Nat) : Nat := 0x1030024 + 0x80000 * i
/-- PO_CLIP_CNT (R193). -/
def A.poClipCnt (i : Nat) : Nat := 0x1030028 + 0x80000 * i
/-- RC_STS (R192). -/
def A.rcSts (i j : Nat) : Nat := 0x1030040 + 0x80000 * i + 0x10 * j
/-- RC_JUMPS (R192). -/
def A.rcJumps (i j : Nat) : Nat := 0x1030044 + 0x80000 * i + 0x10 * j
/-- RC_UNDER_CNT (R192). -/
def A.rcUnderCnt (i j : Nat) : Nat := 0x1030048 + 0x80000 * i + 0x10 * j
/-- RFS_FW_LO (R192). -/
def A.rfsFwLo (i j k : Nat) : Nat := 0x1030400 + 0x80000 * i + 0x80 * j + 0x10 * k
/-- RFS_FW_HI (R192). -/
def A.rfsFwHi (i j k : Nat) : Nat := 0x1030404 + 0x80000 * i + 0x80 * j + 0x10 * k
/-- RFS_PH_INIT (R192). -/
def A.rfsPhInit (i j k : Nat) : Nat := 0x1030408 + 0x80000 * i + 0x80 * j + 0x10 * k
/-- RFS_PH_WORK (R192). -/
def A.rfsPhWork (i j k : Nat) : Nat := 0x103040C + 0x80000 * i + 0x80 * j + 0x10 * k
/-- LN_CFG (R221). -/
def A.lnCfg (i j : Nat) : Nat := 0x1031000 + 0x80000 * i + 0x200 * j
/-- LN_STS (R207). -/
def A.lnSts (i j : Nat) : Nat := 0x1031004 + 0x80000 * i + 0x200 * j
/-- LN_RES_I (R224). -/
def A.lnResI (i j : Nat) : Nat := 0x1031010 + 0x80000 * i + 0x200 * j
/-- LN_RES_Q (R224). -/
def A.lnResQ (i j : Nat) : Nat := 0x1031014 + 0x80000 * i + 0x200 * j
/-- LN_RES_META (R224). -/
def A.lnResMeta (i j : Nat) : Nat := 0x1031018 + 0x80000 * i + 0x200 * j
/-- LN_WIN_CNT (R204). -/
def A.lnWinCnt (i j : Nat) : Nat := 0x1031020 + 0x80000 * i + 0x200 * j
/-- LN_REFUSED_CNT (R205). -/
def A.lnRefusedCnt (i j : Nat) : Nat := 0x1031024 + 0x80000 * i + 0x200 * j
/-- LN_OVF_CNT (R202). -/
def A.lnOvfCnt (i j : Nat) : Nat := 0x1031028 + 0x80000 * i + 0x200 * j
/-- LN_PREEMPT_TICKS (R206). -/
def A.lnPreemptTicks (i j : Nat) : Nat := 0x103102C + 0x80000 * i + 0x200 * j
/-- TT_CTL (R220). -/
def A.ttCtl (i j : Nat) : Nat := 0x1031100 + 0x80000 * i + 0x200 * j
/-- TT_BASE_LO (R218). -/
def A.ttBaseLo (i j : Nat) : Nat := 0x1031104 + 0x80000 * i + 0x200 * j
/-- TT_BASE_HI (R218). -/
def A.ttBaseHi (i j : Nat) : Nat := 0x1031108 + 0x80000 * i + 0x200 * j
/-- TT_WIN (R218). -/
def A.ttWin (i j : Nat) : Nat := 0x103110C + 0x80000 * i + 0x200 * j
/-- TT_PH_REF (R218). -/
def A.ttPhRef (i j : Nat) : Nat := 0x1031110 + 0x80000 * i + 0x200 * j
/-- TT_AMP_REF (R219). -/
def A.ttAmpRef (i j : Nat) : Nat := 0x1031114 + 0x80000 * i + 0x200 * j
/-- TT_QLIM (R219). -/
def A.ttQlim (i j : Nat) : Nat := 0x1031118 + 0x80000 * i + 0x200 * j
/-- TT_OFF (R218). -/
def A.ttOff (i j : Nat) : Nat := 0x103111C + 0x80000 * i + 0x200 * j
/-- TT_STS (R218). -/
def A.ttSts (i j : Nat) : Nat := 0x1031120 + 0x80000 * i + 0x200 * j
/-- TT_STEP_CNT (R218). -/
def A.ttStepCnt (i j : Nat) : Nat := 0x1031124 + 0x80000 * i + 0x200 * j
/-- RS_A (R207). -/
def A.rsA (i j k : Nat) : Nat := 0x1032000 + 0x80000 * i + 0x100 * j + 0x10 * k
/-- RS_B (R201). -/
def A.rsB (i j k : Nat) : Nat := 0x1032004 + 0x80000 * i + 0x100 * j + 0x10 * k
/-- RS_C (R207). -/
def A.rsC (i j k : Nat) : Nat := 0x1032008 + 0x80000 * i + 0x100 * j + 0x10 * k
/-- RS_D (R199). -/
def A.rsD (i j k : Nat) : Nat := 0x103200C + 0x80000 * i + 0x100 * j + 0x10 * k
/-- DB_CTL (R209). -/
def A.dbCtl (i j k : Nat) : Nat := 0x1033000 + 0x80000 * i + 0x200 * j + 0x80 * k
/-- DB_W (R209). -/
def A.dbW (i j k l : Nat) : Nat := 0x1033004 + 0x80000 * i + 0x200 * j + 0x80 * k + 0x4 * l
/-- DB_TH (R209). -/
def A.dbTh (i j k l : Nat) : Nat := 0x103300C + 0x80000 * i + 0x200 * j + 0x80 * k + 0x4 * l
/-- DB_REF (R214). -/
def A.dbRef (i j k l : Nat) : Nat := 0x1033014 + 0x80000 * i + 0x200 * j + 0x80 * k + 0x4 * l
/-- DB_LOOP (R216). -/
def A.dbLoop (i j k : Nat) : Nat := 0x103301C + 0x80000 * i + 0x200 * j + 0x80 * k
/-- DB_DRIFT (R214). -/
def A.dbDrift (i j k : Nat) : Nat := 0x1033020 + 0x80000 * i + 0x200 * j + 0x80 * k
/-- DB_STS (R215). -/
def A.dbSts (i j k : Nat) : Nat := 0x1033024 + 0x80000 * i + 0x200 * j + 0x80 * k
/-- DB_UPD_CNT (R213). -/
def A.dbUpdCnt (i j k : Nat) : Nat := 0x1033028 + 0x80000 * i + 0x200 * j + 0x80 * k
/-- DB_RECENTRE_CNT (R214). -/
def A.dbRecentreCnt (i j k : Nat) : Nat := 0x103302C + 0x80000 * i + 0x200 * j + 0x80 * k
/-- DB_CENT_I (R213). -/
def A.dbCentI (i j k l : Nat) : Nat := 0x1033030 + 0x80000 * i + 0x200 * j + 0x80 * k + 0x8 * l
/-- DB_CENT_Q (R213). -/
def A.dbCentQ (i j k l : Nat) : Nat := 0x1033034 + 0x80000 * i + 0x200 * j + 0x80 * k + 0x8 * l
/-- DB_SPREAD (R213). -/
def A.dbSpread (i j k l : Nat) : Nat := 0x1033048 + 0x80000 * i + 0x200 * j + 0x80 * k + 0x4 * l
/-- RO_WEIGHT (R201). -/
def A.roWeight (i j k : Nat) : Nat := 0x1038000 + 0x80000 * i + 0x1000 * j + 0x4 * k
/-- TRL_STS (R228). -/
def A.trlSts : Nat := 0x3000000
/-- TRL_STALE_CNT (R228). -/
def A.trlStaleCnt : Nat := 0x3000004
/-- TRL_REM_LATE_CNT (R245). -/
def A.trlRemLateCnt : Nat := 0x3000008
/-- TRL_REM_DROP_CNT (R245). -/
def A.trlRemDropCnt : Nat := 0x300000C
/-- TRL_CHK (R236). -/
def A.trlChk : Nat := 0x3000010
/-- TRL_COLLIDE_CNT (R229). -/
def A.trlCollideCnt : Nat := 0x3000014
/-- TRL_SLOT (R225). -/
def A.trlSlot (i : Nat) : Nat := 0x3001000 + 0x4 * i
/-- PU_CFG (R236). -/
def A.puCfg (i : Nat) : Nat := 0x3002000 + 0x10 * i
/-- PU_MASK_LO (R233). -/
def A.puMaskLo (i : Nat) : Nat := 0x3002004 + 0x10 * i
/-- PU_MASK_HI (R233). -/
def A.puMaskHi (i : Nat) : Nat := 0x3002008 + 0x10 * i
/-- PU_STS (R234). -/
def A.puSts (i : Nat) : Nat := 0x300200C + 0x10 * i
/-- RM_CFG (R245). -/
def A.rmCfg (i : Nat) : Nat := 0x3003000 + 0x8 * i
/-- RM_STS (R245). -/
def A.rmSts (i : Nat) : Nat := 0x3003004 + 0x8 * i
/-- EXP (R244). -/
def A.exp (i : Nat) : Nat := 0x3004000 + 0x4 * i
/-- KB (R240). -/
def A.kb (i j k : Nat) : Nat := 0x1060000 + 0x80000 * i + 0x10 * j + 0x4 * k
/-- TP_STS (R241). -/
def A.tpSts (i : Nat) : Nat := 0x1060100 + 0x80000 * i
/-- TP_LATE_DEC_CNT (R241). -/
def A.tpLateDecCnt (i : Nat) : Nat := 0x1060104 + 0x80000 * i
/-- TP_SUPERSEDED_CNT (R241). -/
def A.tpSupersededCnt (i : Nat) : Nat := 0x1060108 + 0x80000 * i
/-- TP_SELECT_CNT (R242). -/
def A.tpSelectCnt (i : Nat) : Nat := 0x106010C + 0x80000 * i
/-- TP_FALLBACK_CNT (R242). -/
def A.tpFallbackCnt (i : Nat) : Nat := 0x1060110 + 0x80000 * i
/-- TP_LAST_SEL (R242). -/
def A.tpLastSel (i : Nat) : Nat := 0x1060114 + 0x80000 * i
/-- TP_CHK (R240). -/
def A.tpChk (i : Nat) : Nat := 0x1060118 + 0x80000 * i
/-- KL_ID (R290). -/
def A.klId : Nat := 0x500000
/-- KL_GSTS (R272). -/
def A.klGsts : Nat := 0x500004
/-- KL_FWD_DROP_CNT (R272). -/
def A.klFwdDropCnt : Nat := 0x500008
/-- KL_CHK (R273). -/
def A.klChk : Nat := 0x50000C
/-- KL_ROUTE_A (R273). -/
def A.klRouteA (i : Nat) : Nat := 0x500100 + 0x8 * i
/-- KL_ROUTE_B (R271). -/
def A.klRouteB (i : Nat) : Nat := 0x500104 + 0x8 * i
/-- KL_FWD (R272). -/
def A.klFwd (i : Nat) : Nat := 0x500200 + 0x4 * i
/-- KL_TT_CFG (R277). -/
def A.klTtCfg : Nat := 0x500300
/-- KL_TT_STS (R279). -/
def A.klTtSts : Nat := 0x500304
/-- KL_TT_ERR (R278). -/
def A.klTtErr : Nat := 0x500308
/-- KL_TT_TRIM (R279). -/
def A.klTtTrim : Nat := 0x50030C
/-- KL_TT_ASYM (R278). -/
def A.klTtAsym : Nat := 0x500310
/-- KL_PAIR_CTL (R282). -/
def A.klPairCtl : Nat := 0x500400
/-- KL_PAIR_STS (R286). -/
def A.klPairSts : Nat := 0x500404
/-- KL_TAKEOVER_LO (R287). -/
def A.klTakeoverLo : Nat := 0x500408
/-- KL_TAKEOVER_HI (R287). -/
def A.klTakeoverHi : Nat := 0x50040C
/-- KL_COORD (R283). -/
def A.klCoord (i : Nat) : Nat := 0x500500 + 0x8 * i
/-- KL_COORD_STS (R283). -/
def A.klCoordSts (i : Nat) : Nat := 0x500504 + 0x8 * i
/-- KL_CTL (R258). -/
def A.klCtl (i : Nat) : Nat := 0x501000 + 0x1000 * i
/-- KL_STS (R257). -/
def A.klSts (i : Nat) : Nat := 0x501004 + 0x1000 * i
/-- KL_FILL (R256). -/
def A.klFill (i : Nat) : Nat := 0x501008 + 0x1000 * i
/-- KL_MARGIN (R274). -/
def A.klMargin (i : Nat) : Nat := 0x50100C + 0x1000 * i
/-- KL_DEC_CRC_CNT (R264). -/
def A.klDecCrcCnt (i : Nat) : Nat := 0x501020 + 0x1000 * i
/-- KL_BULK_CRC_CNT (R264). -/
def A.klBulkCrcCnt (i : Nat) : Nat := 0x501024 + 0x1000 * i
/-- KL_REPLAY_CNT (R263). -/
def A.klReplayCnt (i : Nat) : Nat := 0x501028 + 0x1000 * i
/-- KL_DUP_CNT (R265). -/
def A.klDupCnt (i : Nat) : Nat := 0x50102C + 0x1000 * i
/-- KL_GAP_CNT (R265). -/
def A.klGapCnt (i : Nat) : Nat := 0x501030 + 0x1000 * i
/-- KL_TRAIN_FAIL_CNT (R259). -/
def A.klTrainFailCnt (i : Nat) : Nat := 0x501034 + 0x1000 * i
/-- KL_DEGRADE_CNT (R276). -/
def A.klDegradeCnt (i : Nat) : Nat := 0x501038 + 0x1000 * i
/-- KL_FILL_INS_CNT (R256). -/
def A.klFillInsCnt (i : Nat) : Nat := 0x50103C + 0x1000 * i
/-- KL_FILL_DEL_CNT (R256). -/
def A.klFillDelCnt (i : Nat) : Nat := 0x501040 + 0x1000 * i
/-- KL_TX_DEC_CNT (R266). -/
def A.klTxDecCnt (i : Nat) : Nat := 0x501044 + 0x1000 * i
/-- KL_RX_DEC_CNT (R266). -/
def A.klRxDecCnt (i : Nat) : Nat := 0x501048 + 0x1000 * i
/-- KL_LN_CTL (R251). -/
def A.klLnCtl (i j : Nat) : Nat := 0x501400 + 0x1000 * i + 0x40 * j
/-- KL_LN_STS (R253). -/
def A.klLnSts (i j : Nat) : Nat := 0x501404 + 0x1000 * i + 0x40 * j
/-- KL_LN_EQ (R250). -/
def A.klLnEq (i j : Nat) : Nat := 0x501408 + 0x1000 * i + 0x40 * j
/-- KL_LN_PRBS_ERR (R251). -/
def A.klLnPrbsErr (i j : Nat) : Nat := 0x50140C + 0x1000 * i + 0x40 * j
/-- KL_LN_HDR_ERR (R253). -/
def A.klLnHdrErr (i j : Nat) : Nat := 0x501410 + 0x1000 * i + 0x40 * j
/-- CFG_STS (R307). -/
def A.cfgSts : Nat := 0x600000
/-- IMG_FALLBACK (R300). -/
def A.imgFallback : Nat := 0x600004
/-- IMG_BUILD_LO (R13). -/
def A.imgBuildLo : Nat := 0x600008
/-- IMG_BUILD_HI (R13). -/
def A.imgBuildHi : Nat := 0x60000C
/-- CFG_CTL (R307). -/
def A.cfgCtl : Nat := 0x600010
/-- CFG_STAGE_LO (R306). -/
def A.cfgStageLo : Nat := 0x600014
/-- CFG_STAGE_HI (R306). -/
def A.cfgStageHi : Nat := 0x600018
/-- CFG_STAGE_LEN (R306). -/
def A.cfgStageLen : Nat := 0x60001C
/-- CFG_PART_P (R308). -/
def A.cfgPartP : Nat := 0x600020
/-- CFG_PART_CNT (R311). -/
def A.cfgPartCnt : Nat := 0x600024
/-- HEN_STS (R321). -/
def A.henSts : Nat := 0x600030
/-- HEN_CTL (R321). -/
def A.henCtl : Nat := 0x600034
/-- CFG_FLASH_CTL (R322). -/
def A.cfgFlashCtl : Nat := 0x600038
/-- CFG_FLASH_STS (R322). -/
def A.cfgFlashSts : Nat := 0x60003C
/-- TILE_STS (R309). -/
def A.tileSts (i : Nat) : Nat := 0x1000000 + 0x80000 * i
/-- TILE_XB (R314). -/
def A.tileXb (i j : Nat) : Nat := 0x1000100 + 0x80000 * i + 0x4 * j
/-- TILE_BAR_LO (R315). -/
def A.tileBarLo (i j : Nat) : Nat := 0x1000200 + 0x80000 * i + 0x8 * j
/-- TILE_BAR_HI (R315). -/
def A.tileBarHi (i j : Nat) : Nat := 0x1000204 + 0x80000 * i + 0x8 * j
/-- TILE_PLACE_CTL (R317). -/
def A.tilePlaceCtl (i : Nat) : Nat := 0x1000300 + 0x80000 * i
/-- TILE_PLACE_STS (R318). -/
def A.tilePlaceSts (i : Nat) : Nat := 0x1000304 + 0x80000 * i
/-- TILE_FAIL_LO (R316). -/
def A.tileFailLo (i : Nat) : Nat := 0x1000308 + 0x80000 * i
/-- TILE_FAIL_HI (R316). -/
def A.tileFailHi (i : Nat) : Nat := 0x100030C + 0x80000 * i
/-- TILE_PLACE_CNT (R318). -/
def A.tilePlaceCnt (i : Nat) : Nat := 0x1000310 + 0x80000 * i
/-- WL_STS (R339). -/
def A.wlSts : Nat := 0x100000
/-- WL_CMD (R339). -/
def A.wlCmd : Nat := 0x100004
/-- WL_CMD_STS (R339). -/
def A.wlCmdSts : Nat := 0x100008
/-- WL_FUSE_REM (R327). -/
def A.wlFuseRem : Nat := 0x10000C
/-- WL_ARB (R338). -/
def A.wlArb : Nat := 0x100010
/-- WL_NONCE (R339). -/
def A.wlNonce (i : Nat) : Nat := 0x100020 + 0x4 * i
/-- WL_CSEQ_IN_LO (R344). -/
def A.wlCseqInLo (i : Nat) : Nat := 0x100100 + 0x20 * i
/-- WL_CSEQ_IN_HI (R344). -/
def A.wlCseqInHi (i : Nat) : Nat := 0x100104 + 0x20 * i
/-- WL_PLOT_STS (R333). -/
def A.wlPlotSts (i : Nat) : Nat := 0x100108 + 0x20 * i
/-- WL_BATCH_CFG (R346). -/
def A.wlBatchCfg (i : Nat) : Nat := 0x10010C + 0x20 * i
/-- WL_BATCH_NUM (R347). -/
def A.wlBatchNum (i : Nat) : Nat := 0x100110 + 0x20 * i
/-- WL_AUTH_FAIL_CNT (R344). -/
def A.wlAuthFailCnt (i : Nat) : Nat := 0x100114 + 0x20 * i
/-- WL_SIGN_SKIP_CNT (R349). -/
def A.wlSignSkipCnt (i : Nat) : Nat := 0x100118 + 0x20 * i
/-- WL_BUF (R339). -/
def A.wlBuf (i : Nat) : Nat := 0x101000 + 0x4 * i
/-- CMD_BASE_LO (R358). -/
def A.cmdBaseLo (i : Nat) : Nat := 0x10000000 + 0x2000 * i
/-- CMD_BASE_HI (R358). -/
def A.cmdBaseHi (i : Nat) : Nat := 0x10000004 + 0x2000 * i
/-- CMD_CFG (R360). -/
def A.cmdCfg (i : Nat) : Nat := 0x10000008 + 0x2000 * i
/-- CMD_PROD (R359). -/
def A.cmdProd (i : Nat) : Nat := 0x1000000C + 0x2000 * i
/-- CMD_CONS (R358). -/
def A.cmdCons (i : Nat) : Nat := 0x10000010 + 0x2000 * i
/-- CMD_STS (R363). -/
def A.cmdSts (i : Nat) : Nat := 0x10000014 + 0x2000 * i
/-- CMD_CTL (R363). -/
def A.cmdCtl (i : Nat) : Nat := 0x10000018 + 0x2000 * i
/-- RSP_BASE_LO (R358). -/
def A.rspBaseLo (i : Nat) : Nat := 0x10000020 + 0x2000 * i
/-- RSP_BASE_HI (R358). -/
def A.rspBaseHi (i : Nat) : Nat := 0x10000024 + 0x2000 * i
/-- RSP_CFG (R360). -/
def A.rspCfg (i : Nat) : Nat := 0x10000028 + 0x2000 * i
/-- RSP_PROD (R358). -/
def A.rspProd (i : Nat) : Nat := 0x1000002C + 0x2000 * i
/-- RSP_CONS (R359). -/
def A.rspCons (i : Nat) : Nat := 0x10000030 + 0x2000 * i
/-- RR_BASE_LO (R358). -/
def A.rrBaseLo (i : Nat) : Nat := 0x10000040 + 0x2000 * i
/-- RR_BASE_HI (R358). -/
def A.rrBaseHi (i : Nat) : Nat := 0x10000044 + 0x2000 * i
/-- RR_CFG (R360). -/
def A.rrCfg (i : Nat) : Nat := 0x10000048 + 0x2000 * i
/-- RR_PROD (R358). -/
def A.rrProd (i : Nat) : Nat := 0x1000004C + 0x2000 * i
/-- RR_CONS (R359). -/
def A.rrCons (i : Nat) : Nat := 0x10000050 + 0x2000 * i
/-- RR_IRQ (R379). -/
def A.rrIrq (i : Nat) : Nat := 0x10000054 + 0x2000 * i
/-- RR_SHOT_DROP_CNT (R372). -/
def A.rrShotDropCnt (i : Nat) : Nat := 0x10000058 + 0x2000 * i
/-- WB_LO (R361). -/
def A.wbLo (i : Nat) : Nat := 0x10000060 + 0x2000 * i
/-- WB_HI (R361). -/
def A.wbHi (i : Nat) : Nat := 0x10000064 + 0x2000 * i
/-- PG_ALERT (R372). -/
def A.pgAlert (i : Nat) : Nat := 0x10000070 + 0x2000 * i
/-- CAP_OK_CNT (R344). -/
def A.capOkCnt (i : Nat) : Nat := 0x10000074 + 0x2000 * i
/-- CAP_NACK_CNT (R363). -/
def A.capNackCnt (i : Nat) : Nat := 0x10000078 + 0x2000 * i
/-- MSIX_TABLE (R378). -/
def A.msixTable (i : Nat) : Nat := 0x20F000 + 0x4 * i
/-- MSIX_PBA (R378). -/
def A.msixPba (i : Nat) : Nat := 0x20F800 + 0x4 * i
/-- PTP_CTL (R385). -/
def A.ptpCtl : Nat := 0x302000
/-- PTP_STS (R385). -/
def A.ptpSts : Nat := 0x302004
/-- PTP_NS (R384). -/
def A.ptpNs : Nat := 0x302008
/-- PTP_NS_FRAC (R384). -/
def A.ptpNsFrac : Nat := 0x30200C
/-- PTP_RATE_LO (R384). -/
def A.ptpRateLo : Nat := 0x302010
/-- PTP_OFFSET (R385). -/
def A.ptpOffset : Nat := 0x302014
/-- PTP_OFFSET_FRAC (R385). -/
def A.ptpOffsetFrac : Nat := 0x302018
/-- PTP_JUMP_THR (R385). -/
def A.ptpJumpThr : Nat := 0x30201C
/-- PTP_SLEW (R385). -/
def A.ptpSlew : Nat := 0x302020
/-- PTP_EPOCH_SEC_LO (R386). -/
def A.ptpEpochSecLo : Nat := 0x302024
/-- PTP_EPOCH_SEC_HI (R386). -/
def A.ptpEpochSecHi : Nat := 0x302028
/-- PTP_EPOCH_NS (R386). -/
def A.ptpEpochNs : Nat := 0x30202C
/-- PTP_JUMP_CNT (R385). -/
def A.ptpJumpCnt : Nat := 0x302030
/-- PTP_LAST_REFUSED (R385). -/
def A.ptpLastRefused : Nat := 0x302034
/-- PTP_RATE_HI (R384). -/
def A.ptpRateHi : Nat := 0x302038
/-- XTS_CTL (R389). -/
def A.xtsCtl : Nat := 0x302040
/-- XTS_DT_LO (R389). -/
def A.xtsDtLo : Nat := 0x302044
/-- XTS_DT_HI (R389). -/
def A.xtsDtHi : Nat := 0x302048
/-- XTS_NS (R389). -/
def A.xtsNs : Nat := 0x30204C
/-- XTS_NS_FRAC (R389). -/
def A.xtsNsFrac : Nat := 0x302050
/-- PPS_OUT_CTL (R390). -/
def A.ppsOutCtl : Nat := 0x302060
/-- PPS_PERIOD (R390). -/
def A.ppsPeriod : Nat := 0x302064
/-- PTM_DT_LO (R392). -/
def A.ptmDtLo : Nat := 0x302080
/-- PTM_DT_HI (R392). -/
def A.ptmDtHi : Nat := 0x302084
/-- PTM_MT_LO (R392). -/
def A.ptmMtLo : Nat := 0x302088
/-- PTM_MT_HI (R392). -/
def A.ptmMtHi : Nat := 0x30208C
/-- ETH_TS_CTL (R383). -/
def A.ethTsCtl (i : Nat) : Nat := 0x303000 + 0x400 * i
/-- ETH_ASYM_IN (R382). -/
def A.ethAsymIn (i : Nat) : Nat := 0x303004 + 0x400 * i
/-- ETH_ASYM_OUT (R382). -/
def A.ethAsymOut (i : Nat) : Nat := 0x303008 + 0x400 * i
/-- ETH_TS_STS (R388). -/
def A.ethTsSts (i : Nat) : Nat := 0x30300C + 0x400 * i
/-- ETH_LQ_CTL (R388). -/
def A.ethLqCtl (i : Nat) : Nat := 0x303010 + 0x400 * i
/-- ETH_GUARD (R387). -/
def A.ethGuard (i : Nat) : Nat := 0x303014 + 0x400 * i
/-- ETH_LATE_CNT (R388). -/
def A.ethLateCnt (i : Nat) : Nat := 0x303018 + 0x400 * i
/-- ETH_LAUNCH_CNT (R387). -/
def A.ethLaunchCnt (i : Nat) : Nat := 0x30301C + 0x400 * i
/-- ETH_TS_STALE_CNT (R383). -/
def A.ethTsStaleCnt (i : Nat) : Nat := 0x303020 + 0x400 * i
/-- ETH_RXTS_NS (R382). -/
def A.ethRxtsNs (i : Nat) : Nat := 0x303040 + 0x400 * i
/-- ETH_RXTS_INFO (R382). -/
def A.ethRxtsInfo (i : Nat) : Nat := 0x303044 + 0x400 * i
/-- ETH_TXTS_NS (R382). -/
def A.ethTxtsNs (i : Nat) : Nat := 0x303048 + 0x400 * i
/-- ETH_TXTS_INFO (R382). -/
def A.ethTxtsInfo (i : Nat) : Nat := 0x30304C + 0x400 * i
/-- TIU_IN_CFG (R395). -/
def A.tiuInCfg (i : Nat) : Nat := 0x304000 + 0x10 * i
/-- TIU_IN_HOLD_CNT (R395). -/
def A.tiuInHoldCnt (i : Nat) : Nat := 0x304004 + 0x10 * i
/-- TIU_IN_EDGE_CNT (R395). -/
def A.tiuInEdgeCnt (i : Nat) : Nat := 0x304008 + 0x10 * i
/-- TIU_IN_STS (R399). -/
def A.tiuInSts (i : Nat) : Nat := 0x30400C + 0x10 * i
/-- TM_CTL (R397). -/
def A.tmCtl (i : Nat) : Nat := 0x304400 + 0x40 * i
/-- TM_N (R397). -/
def A.tmN (i : Nat) : Nat := 0x304404 + 0x40 * i
/-- TM_GATE (R398). -/
def A.tmGate (i : Nat) : Nat := 0x304408 + 0x40 * i
/-- TM_TIMEOUT (R397). -/
def A.tmTimeout (i : Nat) : Nat := 0x30440C + 0x40 * i
/-- TM_STS (R397). -/
def A.tmSts (i : Nat) : Nat := 0x304410 + 0x40 * i
/-- TM_COUNT (R397). -/
def A.tmCount (i : Nat) : Nat := 0x304414 + 0x40 * i
/-- TM_MEAN_LO (R397). -/
def A.tmMeanLo (i : Nat) : Nat := 0x304418 + 0x40 * i
/-- TM_MEAN_HI (R397). -/
def A.tmMeanHi (i : Nat) : Nat := 0x30441C + 0x40 * i
/-- TM_DEV (R397). -/
def A.tmDev (i : Nat) : Nat := 0x304420 + 0x40 * i
/-- TM_MIN_LO (R397). -/
def A.tmMinLo (i : Nat) : Nat := 0x304424 + 0x40 * i
/-- TM_MIN_HI (R397). -/
def A.tmMinHi (i : Nat) : Nat := 0x304428 + 0x40 * i
/-- TM_MAX_LO (R397). -/
def A.tmMaxLo (i : Nat) : Nat := 0x30442C + 0x40 * i
/-- TM_MAX_HI (R397). -/
def A.tmMaxHi (i : Nat) : Nat := 0x304430 + 0x40 * i
/-- TM_FREQ_LO (R398). -/
def A.tmFreqLo (i : Nat) : Nat := 0x304434 + 0x40 * i
/-- TM_FREQ_HI (R398). -/
def A.tmFreqHi (i : Nat) : Nat := 0x304438 + 0x40 * i
/-- EXP_CFG (R400). -/
def A.expCfg (i : Nat) : Nat := 0x306000 + 0x8 * i
/-- EXP_DROP_CNT (R400). -/
def A.expDropCnt (i : Nat) : Nat := 0x306004 + 0x8 * i
/-- EVF_CH (R404). -/
def A.evfCh (i : Nat) : Nat := 0x200000 + 0x4 * i
/-- EVF_CH_CNT (R407). -/
def A.evfChCnt (i : Nat) : Nat := 0x200400 + 0x4 * i
/-- TASK_SUB (R406). -/
def A.taskSub (i : Nat) : Nat := 0x200800 + 0x10 * i
/-- TASK_CTL (R406). -/
def A.taskCtl (i : Nat) : Nat := 0x200804 + 0x10 * i
/-- TASK_COAL (R407). -/
def A.taskCoal (i : Nat) : Nat := 0x200808 + 0x10 * i
/-- TASK_CNT (R406). -/
def A.taskCnt (i : Nat) : Nat := 0x20080C + 0x10 * i
/-- EVF_FIRE (R409). -/
def A.evfFire : Nat := 0x200C00
/-- EVF_STS (R408). -/
def A.evfSts : Nat := 0x200C04
/-- EVF_LOOP_CNT (R408). -/
def A.evfLoopCnt : Nat := 0x200C08
/-- EVF_LOOP_SRC (R408). -/
def A.evfLoopSrc : Nat := 0x200C0C
/-- EVF_IRQ_STS_LO (R405). -/
def A.evfIrqStsLo : Nat := 0x200C10
/-- EVF_IRQ_STS_HI (R405). -/
def A.evfIrqStsHi : Nat := 0x200C14
/-- EVF_ALERT_STS (R411). -/
def A.evfAlertSts : Nat := 0x200C18
/-- EVF_SRC_STS (R404). -/
def A.evfSrcSts (i : Nat) : Nat := 0x201000 + 0x4 * i
/-- HK_CFG (R416). -/
def A.hkCfg (i : Nat) : Nat := 0x2080000 + 0x100000 * i
/-- HK_CTL (R417). -/
def A.hkCtl (i : Nat) : Nat := 0x2080004 + 0x100000 * i
/-- HK_STS (R417). -/
def A.hkSts (i : Nat) : Nat := 0x2080008 + 0x100000 * i
/-- HK_PASS_CNT (R417). -/
def A.hkPassCnt (i : Nat) : Nat := 0x208000C + 0x100000 * i
/-- HK_LIM_STS_LO (R419). -/
def A.hkLimStsLo (i : Nat) : Nat := 0x2080010 + 0x100000 * i
/-- HK_LIM_STS_HI (R419). -/
def A.hkLimStsHi (i : Nat) : Nat := 0x2080014 + 0x100000 * i
/-- HK_URG_CFG (R418). -/
def A.hkUrgCfg (i : Nat) : Nat := 0x2080018 + 0x100000 * i
/-- HK_URG_RES (R420). -/
def A.hkUrgRes (i : Nat) : Nat := 0x208001C + 0x100000 * i
/-- HK_URG_FLG (R420). -/
def A.hkUrgFlg (i : Nat) : Nat := 0x2080020 + 0x100000 * i
/-- HK_MISS_CNT (R417). -/
def A.hkMissCnt (i : Nat) : Nat := 0x2080024 + 0x100000 * i
/-- HK_ABORT_CNT (R418). -/
def A.hkAbortCnt (i : Nat) : Nat := 0x2080028 + 0x100000 * i
/-- HK_SEQ (R413). -/
def A.hkSeq (i j : Nat) : Nat := 0x2080100 + 0x100000 * i + 0x4 * j
/-- HK_RES (R415). -/
def A.hkRes (i j : Nat) : Nat := 0x2080200 + 0x100000 * i + 0x8 * j
/-- HK_RES_FLG (R420). -/
def A.hkResFlg (i j : Nat) : Nat := 0x2080204 + 0x100000 * i + 0x8 * j
/-- HK_LIM_LO (R419). -/
def A.hkLimLo (i j : Nat) : Nat := 0x2080400 + 0x100000 * i + 0x8 * j
/-- HK_LIM_HI (R419). -/
def A.hkLimHi (i j : Nat) : Nat := 0x2080404 + 0x100000 * i + 0x8 * j
/-- SN_CFG (R423). -/
def A.snCfg (i j : Nat) : Nat := 0x2090000 + 0x100000 * i + 0x20 * j
/-- SN_STS (R425). -/
def A.snSts (i j : Nat) : Nat := 0x2090004 + 0x100000 * i + 0x20 * j
/-- SN_IMP_MAG (R425). -/
def A.snImpMag (i j : Nat) : Nat := 0x2090008 + 0x100000 * i + 0x20 * j
/-- SN_IMP_PH (R425). -/
def A.snImpPh (i j : Nat) : Nat := 0x209000C + 0x100000 * i + 0x20 * j
/-- SN_OPEN_CNT (R424). -/
def A.snOpenCnt (i j : Nat) : Nat := 0x2090010 + 0x100000 * i + 0x20 * j
/-- SN_CHK_CTL (R425). -/
def A.snChkCtl (i : Nat) : Nat := 0x2090100 + 0x100000 * i
/-- PM_CTL (R440). -/
def A.pmCtl : Nat := 0x400000
/-- PM_STS (R429). -/
def A.pmSts : Nat := 0x400004
/-- PM_TOTAL (R429). -/
def A.pmTotal : Nat := 0x400008
/-- PM_LIMIT (R429). -/
def A.pmLimit : Nat := 0x40000C
/-- PM_ENERGY_LO (R429). -/
def A.pmEnergyLo : Nat := 0x400010
/-- PM_ENERGY_HI (R429). -/
def A.pmEnergyHi : Nat := 0x400014
/-- PM_DOM (R429). -/
def A.pmDom (i : Nat) : Nat := 0x401000 + 0x4 * i
/-- AVS_DOM (R434). -/
def A.avsDom (i : Nat) : Nat := 0x402000 + 0x4 * i
/-- AVS_CTL (R434). -/
def A.avsCtl : Nat := 0x402400
/-- AVS_EMERG_CNT (R434). -/
def A.avsEmergCnt : Nat := 0x402404
/-- TH_CTL (R438). -/
def A.thCtl : Nat := 0x403000
/-- TH_STS (R438). -/
def A.thSts : Nat := 0x403004
/-- TH_TJ (R436). -/
def A.thTj : Nat := 0x403008
/-- TH_ANCHOR (R437). -/
def A.thAnchor : Nat := 0x40300C
/-- TH_COLD (R437). -/
def A.thCold : Nat := 0x403010
/-- TH_NODE (R436). -/
def A.thNode (i : Nat) : Nat := 0x403100 + 0x4 * i
/-- TH_DIODE (R437). -/
def A.thDiode (i : Nat) : Nat := 0x403200 + 0x4 * i
/-- CAL_CTL (R445). -/
def A.calCtl : Nat := 0x404000
/-- CAL_STS (R448). -/
def A.calSts : Nat := 0x404004
/-- CAL_TIU_Q (R446). -/
def A.calTiuQ (i : Nat) : Nat := 0x404100 + 0x4 * i
/-- CAL_AGE (R445). -/
def A.calAge (i : Nat) : Nat := 0x404200 + 0x8 * i
/-- CAL_INS_CNT (R445). -/
def A.calInsCnt (i : Nat) : Nat := 0x404204 + 0x8 * i
/-- RTC_SEC_LO (R455). -/
def A.rtcSecLo : Nat := 0x405000
/-- RTC_SEC_HI (R455). -/
def A.rtcSecHi : Nat := 0x405004
/-- RTC_SET_LO (R455). -/
def A.rtcSetLo : Nat := 0x405008
/-- RTC_SET_HI (R455). -/
def A.rtcSetHi : Nat := 0x40500C
/-- RTC_CTL (R455). -/
def A.rtcCtl : Nat := 0x405010
/-- RTC_STS (R455). -/
def A.rtcSts : Nat := 0x405014
/-- AON_STS (R442). -/
def A.aonSts : Nat := 0x405018
/-- TPW_CTL (R432). -/
def A.tpwCtl (i : Nat) : Nat := 0x1070000 + 0x80000 * i
/-- TPW_STS (R432). -/
def A.tpwSts (i : Nat) : Nat := 0x1070004 + 0x80000 * i
/-- TPW_PD_CNT (R432). -/
def A.tpwPdCnt (i : Nat) : Nat := 0x1070008 + 0x80000 * i
/-- ISL_CTL (R435). -/
def A.islCtl (i : Nat) : Nat := 0x1070010 + 0x80000 * i
/-- ISL_LIM (R435). -/
def A.islLim (i j : Nat) : Nat := 0x1070100 + 0x80000 * i + 0x8 * j
/-- ISL_STS (R435). -/
def A.islSts (i j : Nat) : Nat := 0x1070104 + 0x80000 * i + 0x8 * j
/-- CAL_Q (R447). -/
def A.calQ (i j : Nat) : Nat := 0x1070200 + 0x80000 * i + 0x4 * j
/-- CAL_QLIM (R447). -/
def A.calQlim (i : Nat) : Nat := 0x1070300 + 0x80000 * i
/-- CB_CTL (R450). -/
def A.cbCtl : Nat := 0x601000
/-- CB_STS (R450). -/
def A.cbSts : Nat := 0x601004
/-- CB_LOG_HEAD (R454). -/
def A.cbLogHead : Nat := 0x601008
/-- CB_LAST_SAVE (R450). -/
def A.cbLastSave : Nat := 0x60100C
/-- CB_CNT_LO (R450). -/
def A.cbCntLo (i : Nat) : Nat := 0x602000 + 0x8 * i
/-- CB_CNT_HI (R450). -/
def A.cbCntHi (i : Nat) : Nat := 0x602004 + 0x8 * i
/-- CB_LOG (R454). -/
def A.cbLog (i : Nat) : Nat := 0x680000 + 0x4 * i

/-! ## Fields -/

def F.glbId.family : Fld := ⟨31, 24⟩
def F.glbId.part : Fld := ⟨23, 8⟩
def F.glbId.stepF : Fld := ⟨7, 0⟩
def F.glbCaps.plots : Fld := ⟨19, 16⟩
def F.glbCaps.ethPorts : Fld := ⟨15, 13⟩
def F.glbCaps.klinks : Fld := ⟨12, 9⟩
def F.glbCaps.quads : Fld := ⟨8, 6⟩
def F.glbCaps.tiles : Fld := ⟨5, 0⟩
def F.glbCtl.drainAll : Fld := ⟨1, 1⟩
def F.glbCtl.muteAll : Fld := ⟨0, 0⟩
def F.glbSts.pairRole : Fld := ⟨13, 12⟩
def F.glbSts.bootSel : Fld := ⟨11, 10⟩
def F.glbSts.lifecycle : Fld := ⟨9, 7⟩
def F.glbSts.plotEnf : Fld := ⟨6, 6⟩
def F.glbSts.sealed : Fld := ⟨5, 5⟩
def F.glbSts.imgSrc : Fld := ⟨4, 3⟩
def F.glbSts.bootStage : Fld := ⟨2, 0⟩
def F.glbErrSts.bridgeErr : Fld := ⟨3, 3⟩
def F.glbErrSts.memBusy : Fld := ⟨2, 2⟩
def F.glbErrSts.plotDeny : Fld := ⟨1, 1⟩
def F.glbErrSts.accessErr : Fld := ⟨0, 0⟩
def F.glbErrAddr.valid : Fld := ⟨31, 31⟩
def F.glbErrAddr.kind : Fld := ⟨30, 29⟩
def F.glbErrAddr.window : Fld := ⟨28, 27⟩
def F.glbErrAddr.offset : Fld := ⟨26, 0⟩
def F.glbBridgeSts.blkDown : Fld := ⟨15, 12⟩
def F.glbBridgeSts.blkUp : Fld := ⟨11, 8⟩
def F.glbBridgeSts.cbrErr : Fld := ⟨7, 4⟩
def F.glbBridgeSts.cbrUp : Fld := ⟨3, 0⟩
def F.dtSts.overrun : Fld := ⟨7, 7⟩
def F.dtSts.loadRefused : Fld := ⟨6, 6⟩
def F.dtSts.loadPend : Fld := ⟨5, 5⟩
def F.dtSts.aligned : Fld := ⟨4, 4⟩
def F.dtSts.source : Fld := ⟨3, 2⟩
def F.dtSts.running : Fld := ⟨0, 0⟩
def F.dtLoadCtl.cancel : Fld := ⟨2, 2⟩
def F.dtLoadCtl.armPps : Fld := ⟨1, 1⟩
def F.dtLoadCtl.armNow : Fld := ⟨0, 0⟩
def F.shotCtl.runCont : Fld := ⟨15, 15⟩
def F.shotCtl.underrunAbort : Fld := ⟨14, 14⟩
def F.shotCtl.trigEdge : Fld := ⟨12, 12⟩
def F.shotCtl.trigSel : Fld := ⟨11, 8⟩
def F.shotCtl.mode : Fld := ⟨1, 0⟩
def F.shotLead.lead : Fld := ⟨15, 0⟩
def F.runCmd.clrCount : Fld := ⟨3, 3⟩
def F.runCmd.abort : Fld := ⟨2, 2⟩
def F.runCmd.drain : Fld := ⟨1, 1⟩
def F.runCmd.start : Fld := ⟨0, 0⟩
def F.runSts.shotCut : Fld := ⟨12, 12⟩
def F.runSts.overrun : Fld := ⟨11, 11⟩
def F.runSts.cmdIgnored : Fld := ⟨10, 10⟩
def F.runSts.trigPending : Fld := ⟨9, 9⟩
def F.runSts.shotTrigOvf : Fld := ⟨8, 8⟩
def F.runSts.stopCause : Fld := ⟨7, 5⟩
def F.runSts.done : Fld := ⟨4, 4⟩
def F.runSts.inShot : Fld := ⟨3, 3⟩
def F.runSts.state : Fld := ⟨2, 0⟩
def F.flagsAcc.flags : Fld := ⟨11, 0⟩
def F.seqCtl.startPc : Fld := ⟨27, 16⟩
def F.seqCtl.faultRestart : Fld := ⟨2, 2⟩
def F.seqCtl.clrFault : Fld := ⟨1, 1⟩
def F.seqCtl.enable : Fld := ⟨0, 0⟩
def F.seqSts.wrIgnored : Fld := ⟨20, 20⟩
def F.seqSts.overrun : Fld := ⟨19, 19⟩
def F.seqSts.pmCorr : Fld := ⟨18, 18⟩
def F.seqSts.tcClamp : Fld := ⟨17, 17⟩
def F.seqSts.fault : Fld := ⟨16, 16⟩
def F.seqSts.loopDepth : Fld := ⟨15, 12⟩
def F.seqSts.role : Fld := ⟨11, 8⟩
def F.seqSts.state : Fld := ⟨2, 0⟩
def F.seqPc.pc : Fld := ⟨11, 0⟩
def F.seqFault.valid : Fld := ⟨31, 31⟩
def F.seqFault.pc : Fld := ⟨27, 16⟩
def F.seqFault.cause : Fld := ⟨4, 0⟩
def F.seqLoopSe.endPc : Fld := ⟨27, 16⟩
def F.seqLoopSe.start : Fld := ⟨11, 0⟩
def F.tqCtl.latePol : Fld := ⟨1, 0⟩
def F.tqSts.stalled : Fld := ⟨18, 18⟩
def F.tqSts.halted : Fld := ⟨17, 17⟩
def F.tqSts.late : Fld := ⟨16, 16⟩
def F.tqSts.highWater : Fld := ⟨14, 8⟩
def F.tqSts.level : Fld := ⟨6, 0⟩
def F.tqMargin.minMargin : Fld := ⟨15, 0⟩
def F.ucId.romRev : Fld := ⟨31, 16⟩
def F.ucId.nanoRev : Fld := ⟨15, 0⟩
def F.ucPatchId.loaded : Fld := ⟨31, 31⟩
def F.ucPatchId.words : Fld := ⟨24, 16⟩
def F.ucPatchId.patchLevel : Fld := ⟨15, 0⟩
def F.ucSts.formatErr : Fld := ⟨1, 1⟩
def F.ucSts.parErr : Fld := ⟨0, 0⟩
def F.ucMatch.enable : Fld := ⟨31, 31⟩
def F.ucMatch.target : Fld := ⟨23, 16⟩
def F.ucMatch.addr : Fld := ⟨12, 0⟩
def F.fsFwHi.fwHi : Fld := ⟨15, 0⟩
def F.xoCfg.half : Fld := ⟨16, 16⟩
def F.xoCfg.frameB : Fld := ⟨13, 8⟩
def F.xoCfg.frameA : Fld := ⟨5, 0⟩
def F.xoSts.muted : Fld := ⟨1, 1⟩
def F.xoSts.clip : Fld := ⟨0, 0⟩
def F.xcSts.playing : Fld := ⟨31, 31⟩
def F.xcSts.jumpPend : Fld := ⟨30, 30⟩
def F.xcSts.jumpRepl : Fld := ⟨21, 21⟩
def F.xcSts.underrun : Fld := ⟨20, 20⟩
def F.xcSts.badSeg : Fld := ⟨19, 19⟩
def F.xcSts.curSeg : Fld := ⟨11, 0⟩
def F.mkCfg.fineDly : Fld := ⟨15, 13⟩
def F.mkCfg.pol : Fld := ⟨12, 12⟩
def F.mkCfg.envEn : Fld := ⟨11, 11⟩
def F.mkCfg.srcBit : Fld := ⟨10, 10⟩
def F.mkCfg.srcCh : Fld := ⟨5, 0⟩
def F.vlCfg.pol : Fld := ⟨0, 0⟩
def F.cp.valid : Fld := ⟨31, 31⟩
def F.cp.ownerB : Fld := ⟨25, 20⟩
def F.cp.ownerA : Fld := ⟨19, 14⟩
def F.cp.banks : Fld := ⟨10, 5⟩
def F.cp.base : Fld := ⟨4, 0⟩
def F.celChk.valid : Fld := ⟨31, 31⟩
def F.celChk.kind : Fld := ⟨30, 30⟩
def F.celChk.cause : Fld := ⟨19, 16⟩
def F.celChk.index : Fld := ⟨11, 0⟩
def F.ddAddrLo.addr : Fld := ⟨31, 12⟩
def F.ddLen.samples : Fld := ⟨19, 0⟩
def F.ddCtl.auth : Fld := ⟨2, 2⟩
def F.ddCtl.reprime : Fld := ⟨1, 1⟩
def F.ddCtl.enable : Fld := ⟨0, 0⟩
def F.ddSts.errCause : Fld := ⟨11, 8⟩
def F.ddSts.starve : Fld := ⟨7, 7⟩
def F.ddSts.done : Fld := ⟨6, 6⟩
def F.ddSts.resident : Fld := ⟨5, 4⟩
def F.ddSts.state : Fld := ⟨2, 0⟩
def F.ddChunk.chunk : Fld := ⟨4, 0⟩
def F.segLo.valid : Fld := ⟨31, 31⟩
def F.segLo.decant : Fld := ⟨30, 30⟩
def F.segLo.mkEn : Fld := ⟨29, 29⟩
def F.segLo.part : Fld := ⟨28, 24⟩
def F.segLo.startG : Fld := ⟨14, 0⟩
def F.segHi.desc : Fld := ⟨19, 16⟩
def F.segHi.lenG : Fld := ⟨12, 0⟩
def F.fxCfg.src : Fld := ⟨13, 8⟩
def F.fxCfg.bypFir : Fld := ⟨4, 4⟩
def F.fxCfg.bypIir : Fld := ⟨3, 0⟩
def F.fxIdle.idleCode : Fld := ⟨15, 0⟩
def F.fxSts.playing : Fld := ⟨31, 31⟩
def F.fxSts.jumpPend : Fld := ⟨30, 30⟩
def F.fxSts.held : Fld := ⟨29, 29⟩
def F.fxSts.coefRefused : Fld := ⟨24, 24⟩
def F.fxSts.clip : Fld := ⟨23, 23⟩
def F.fxSts.jumpRepl : Fld := ⟨22, 22⟩
def F.fxSts.underrun : Fld := ⟨21, 21⟩
def F.fxSts.badSeg : Fld := ⟨20, 20⟩
def F.fxSts.curSeg : Fld := ⟨11, 0⟩
def F.fxIirB0.coef : Fld := ⟨19, 0⟩
def F.fxIirB1.coef : Fld := ⟨19, 0⟩
def F.fxIirA1.coef : Fld := ⟨19, 0⟩
def F.fxFir.tap : Fld := ⟨17, 0⟩
def F.bqCtl.latePol : Fld := ⟨1, 0⟩
def F.bqSts.lost : Fld := ⟨7, 7⟩
def F.bqSts.late : Fld := ⟨6, 6⟩
def F.bqSts.halted : Fld := ⟨5, 5⟩
def F.bqSts.pending : Fld := ⟨2, 0⟩
def F.bqHost.code : Fld := ⟨19, 0⟩
def F.bdCfg.slewEn : Fld := ⟨5, 5⟩
def F.bdCfg.clrSel : Fld := ⟨4, 4⟩
def F.bdCfg.span : Fld := ⟨2, 0⟩
def F.bdClrCode.code : Fld := ⟨19, 0⟩
def F.bdSlew.div : Fld := ⟨31, 16⟩
def F.bdSlew.stepF : Fld := ⟨15, 0⟩
def F.bdOut.code : Fld := ⟨19, 0⟩
def F.bdTarget.code : Fld := ⟨19, 0⟩
def F.bdSts.genErr : Fld := ⟨11, 11⟩
def F.bdSts.genLost : Fld := ⟨10, 10⟩
def F.bdSts.kindChange : Fld := ⟨9, 9⟩
def F.bdSts.parkClamp : Fld := ⟨8, 8⟩
def F.bdSts.compTrip : Fld := ⟨7, 7⟩
def F.bdSts.genRun : Fld := ⟨6, 6⟩
def F.bdSts.parkPhase : Fld := ⟨5, 3⟩
def F.bdSts.state : Fld := ⟨2, 0⟩
def F.bdComp.en : Fld := ⟨31, 31⟩
def F.bdComp.compClr : Fld := ⟨30, 30⟩
def F.bdComp.action : Fld := ⟨29, 28⟩
def F.bdComp.filt : Fld := ⟨23, 16⟩
def F.bdComp.lim : Fld := ⟨7, 0⟩
def F.bdMon.value : Fld := ⟨15, 0⟩
def F.bdGenCtl.genDiv : Fld := ⟨31, 16⟩
def F.bdGenCtl.shape : Fld := ⟨2, 1⟩
def F.bdGenCtl.run : Fld := ⟨0, 0⟩
def F.bdGenLow.code : Fld := ⟨19, 0⟩
def F.bdGenHigh.code : Fld := ⟨19, 0⟩
def F.bdGenStep.code : Fld := ⟨19, 0⟩
def F.bdGenSeed.seed : Fld := ⟨30, 0⟩
def F.bqdSts.clrSeen : Fld := ⟨1, 1⟩
def F.bqdSts.clrPin : Fld := ⟨0, 0⟩
def F.riCfg.band : Fld := ⟨0, 0⟩
def F.riSts.drop : Fld := ⟨1, 1⟩
def F.riSts.ovr : Fld := ⟨0, 0⟩
def F.roChk.valid : Fld := ⟨31, 31⟩
def F.roChk.cause : Fld := ⟨19, 16⟩
def F.roChk.lane : Fld := ⟨6, 4⟩
def F.roChk.setF : Fld := ⟨3, 0⟩
def F.poCfg.sumShift : Fld := ⟨1, 0⟩
def F.poSts.muted : Fld := ⟨1, 1⟩
def F.poSts.clip : Fld := ⟨0, 0⟩
def F.rcSts.playing : Fld := ⟨31, 31⟩
def F.rcSts.jumpPend : Fld := ⟨30, 30⟩
def F.rcSts.jumpRepl : Fld := ⟨21, 21⟩
def F.rcSts.underrun : Fld := ⟨20, 20⟩
def F.rcSts.badSeg : Fld := ⟨19, 19⟩
def F.rcSts.curSeg : Fld := ⟨11, 0⟩
def F.rfsFwHi.fwHi : Fld := ⟨15, 0⟩
def F.lnCfg.qubit : Fld := ⟨11, 0⟩
def F.lnSts.avgCount : Fld := ⟨31, 16⟩
def F.lnSts.shOpen : Fld := ⟨9, 9⟩
def F.lnSts.fgOpen : Fld := ⟨8, 8⟩
def F.lnSts.avgLost : Fld := ⟨5, 5⟩
def F.lnSts.preempted : Fld := ⟨4, 4⟩
def F.lnSts.winRefused : Fld := ⟨3, 3⟩
def F.lnSts.sat : Fld := ⟨2, 2⟩
def F.lnSts.ovf : Fld := ⟨1, 1⟩
def F.lnSts.resOverrun : Fld := ⟨0, 0⟩
def F.lnResMeta.flags : Fld := ⟨31, 16⟩
def F.lnResMeta.midx : Fld := ⟨15, 8⟩
def F.lnResMeta.conf : Fld := ⟨7, 4⟩
def F.lnResMeta.state : Fld := ⟨1, 0⟩
def F.ttCtl.en : Fld := ⟨31, 31⟩
def F.ttCtl.unfreeze : Fld := ⟨30, 30⟩
def F.ttCtl.slot : Fld := ⟨26, 24⟩
def F.ttCtl.k : Fld := ⟨20, 16⟩
def F.ttCtl.gain : Fld := ⟨15, 0⟩
def F.ttBaseHi.fw : Fld := ⟨15, 0⟩
def F.ttWin.winKhz : Fld := ⟨9, 0⟩
def F.ttPhRef.phRef : Fld := ⟨15, 0⟩
def F.ttQlim.qLim : Fld := ⟨7, 0⟩
def F.ttSts.atLimit : Fld := ⟨9, 9⟩
def F.ttSts.frozen : Fld := ⟨8, 8⟩
def F.ttSts.qual : Fld := ⟨7, 0⟩
def F.rsA.valid : Fld := ⟨31, 31⟩
def F.rsA.acc : Fld := ⟨30, 30⟩
def F.rsA.ttSrc : Fld := ⟨29, 29⟩
def F.rsA.thrSrc : Fld := ⟨28, 28⟩
def F.rsA.wmode : Fld := ⟨27, 27⟩
def F.rsA.slot : Fld := ⟨26, 24⟩
def F.rsA.hold : Fld := ⟨22, 20⟩
def F.rsA.bank : Fld := ⟨19, 18⟩
def F.rsA.shift : Fld := ⟨12, 8⟩
def F.rsB.wbase : Fld := ⟨25, 16⟩
def F.rsB.wlen : Fld := ⟨10, 0⟩
def F.rsC.avgCount : Fld := ⟨15, 0⟩
def F.dbCtl.disc1En : Fld := ⟨31, 31⟩
def F.dbCtl.disc0En : Fld := ⟨30, 30⟩
def F.dbCtl.confShift : Fld := ⟨12, 8⟩
def F.dbCtl.stateMap : Fld := ⟨7, 0⟩
def F.dbW.wq : Fld := ⟨31, 16⟩
def F.dbW.wi : Fld := ⟨15, 0⟩
def F.dbLoop.en : Fld := ⟨31, 31⟩
def F.dbLoop.unfreeze : Fld := ⟨30, 30⟩
def F.dbLoop.k : Fld := ⟨20, 16⟩
def F.dbLoop.sepLim : Fld := ⟨15, 0⟩
def F.dbSts.loopErr : Fld := ⟨18, 18⟩
def F.dbSts.atLimit : Fld := ⟨17, 17⟩
def F.dbSts.frozen : Fld := ⟨16, 16⟩
def F.dbSts.sep : Fld := ⟨15, 0⟩
def F.trlSts.collide : Fld := ⟨3, 3⟩
def F.trlSts.remDrop : Fld := ⟨2, 2⟩
def F.trlSts.remLate : Fld := ⟨1, 1⟩
def F.trlSts.stale : Fld := ⟨0, 0⟩
def F.trlChk.valid : Fld := ⟨31, 31⟩
def F.trlChk.kind : Fld := ⟨27, 26⟩
def F.trlChk.cause : Fld := ⟨19, 16⟩
def F.trlChk.index : Fld := ⟨8, 0⟩
def F.trlSlot.valid : Fld := ⟨31, 31⟩
def F.trlSlot.tag : Fld := ⟨23, 16⟩
def F.trlSlot.midx : Fld := ⟨15, 8⟩
def F.trlSlot.value : Fld := ⟨1, 0⟩
def F.puCfg.en : Fld := ⟨31, 31⟩
def F.puCfg.bitSel : Fld := ⟨30, 30⟩
def F.puCfg.outMidx : Fld := ⟨23, 16⟩
def F.puCfg.inMidx : Fld := ⟨15, 8⟩
def F.puSts.fired : Fld := ⟨31, 31⟩
def F.puSts.latched : Fld := ⟨6, 1⟩
def F.rmCfg.en : Fld := ⟨31, 31⟩
def F.rmCfg.plot : Fld := ⟨30, 28⟩
def F.rmCfg.srcDev : Fld := ⟨27, 24⟩
def F.rmCfg.srcSlot : Fld := ⟨20, 12⟩
def F.rmCfg.tagOfs : Fld := ⟨7, 0⟩
def F.rmSts.stale : Fld := ⟨1, 1⟩
def F.rmSts.late : Fld := ⟨0, 0⟩
def F.exp.en : Fld := ⟨31, 31⟩
def F.exp.route : Fld := ⟨3, 0⟩
def F.kb.en : Fld := ⟨31, 31⟩
def F.kb.bit : Fld := ⟨30, 30⟩
def F.kb.msrc : Fld := ⟨29, 29⟩
def F.kb.fixMidx : Fld := ⟨23, 16⟩
def F.kb.slot : Fld := ⟨8, 0⟩
def F.tpSts.superseded : Fld := ⟨1, 1⟩
def F.tpSts.lateDec : Fld := ⟨0, 0⟩
def F.tpLastSel.seq : Fld := ⟨29, 24⟩
def F.tpLastSel.v : Fld := ⟨19, 16⟩
def F.tpLastSel.alt : Fld := ⟨15, 12⟩
def F.tpLastSel.cfgFallback : Fld := ⟨8, 8⟩
def F.tpLastSel.superseded : Fld := ⟨1, 1⟩
def F.tpLastSel.lateDec : Fld := ⟨0, 0⟩
def F.tpChk.valid : Fld := ⟨31, 31⟩
def F.tpChk.cause : Fld := ⟨19, 16⟩
def F.tpChk.ks : Fld := ⟨6, 4⟩
def F.tpChk.bit : Fld := ⟨1, 0⟩
def F.klId.arrayId : Fld := ⟨31, 24⟩
def F.klId.devNum : Fld := ⟨7, 4⟩
def F.klGsts.down : Fld := ⟨31, 24⟩
def F.klGsts.degraded : Fld := ⟨23, 16⟩
def F.klGsts.up : Fld := ⟨15, 8⟩
def F.klGsts.fwdDrop : Fld := ⟨0, 0⟩
def F.klChk.valid : Fld := ⟨31, 31⟩
def F.klChk.kind : Fld := ⟨20, 20⟩
def F.klChk.cause : Fld := ⟨19, 16⟩
def F.klChk.index : Fld := ⟨3, 0⟩
def F.klRouteA.en : Fld := ⟨31, 31⟩
def F.klRouteA.destMask : Fld := ⟨15, 0⟩
def F.klRouteB.padSum : Fld := ⟨15, 0⟩
def F.klFwd.en : Fld := ⟨31, 31⟩
def F.klFwd.link : Fld := ⟨2, 0⟩
def F.klTtCfg.en : Fld := ⟨31, 31⟩
def F.klTtCfg.role : Fld := ⟨30, 30⟩
def F.klTtCfg.uplink : Fld := ⟨26, 24⟩
def F.klTtCfg.avg : Fld := ⟨20, 16⟩
def F.klTtCfg.periodUs : Fld := ⟨15, 0⟩
def F.klTtSts.alignLost : Fld := ⟨31, 31⟩
def F.klTtSts.stepRefused : Fld := ⟨30, 30⟩
def F.klTtSts.uplinkRefused : Fld := ⟨29, 29⟩
def F.klTtSts.depth : Fld := ⟨26, 24⟩
def F.klTtSts.state : Fld := ⟨1, 0⟩
def F.klTtErr.err : Fld := ⟨15, 0⟩
def F.klTtTrim.trim : Fld := ⟨8, 0⟩
def F.klTtAsym.asym : Fld := ⟨15, 0⟩
def F.klPairCtl.en : Fld := ⟨31, 31⟩
def F.klPairCtl.mode : Fld := ⟨30, 30⟩
def F.klPairCtl.bStartActive : Fld := ⟨29, 29⟩
def F.klPairCtl.standDown : Fld := ⟨28, 28⟩
def F.klPairCtl.takeOver : Fld := ⟨27, 27⟩
def F.klPairCtl.pairLinks : Fld := ⟨7, 0⟩
def F.klPairSts.overrun : Fld := ⟨11, 11⟩
def F.klPairSts.unsyncActive : Fld := ⟨10, 10⟩
def F.klPairSts.hbLost : Fld := ⟨9, 9⟩
def F.klPairSts.mirrorLate : Fld := ⟨8, 8⟩
def F.klPairSts.synced : Fld := ⟨7, 7⟩
def F.klPairSts.actNet : Fld := ⟨6, 6⟩
def F.klPairSts.active : Fld := ⟨5, 5⟩
def F.klPairSts.hbOk : Fld := ⟨4, 4⟩
def F.klPairSts.role : Fld := ⟨3, 2⟩
def F.klCoord.en : Fld := ⟨31, 31⟩
def F.klCoord.devMask : Fld := ⟨15, 0⟩
def F.klCoordSts.mismatch : Fld := ⟨17, 17⟩
def F.klCoordSts.late : Fld := ⟨16, 16⟩
def F.klCtl.en : Fld := ⟨31, 31⟩
def F.klCtl.autoretry : Fld := ⟨30, 30⟩
def F.klCtl.idleEn : Fld := ⟨29, 29⟩
def F.klCtl.retrain : Fld := ⟨28, 28⟩
def F.klCtl.test : Fld := ⟨27, 27⟩
def F.klCtl.laneEn : Fld := ⟨3, 0⟩
def F.klSts.partnerDev : Fld := ⟨31, 28⟩
def F.klSts.partnerLink : Fld := ⟨27, 25⟩
def F.klSts.downCause : Fld := ⟨24, 21⟩
def F.klSts.attempt : Fld := ⟨20, 17⟩
def F.klSts.activeLanes : Fld := ⟨16, 13⟩
def F.klSts.phase : Fld := ⟨12, 10⟩
def F.klSts.state : Fld := ⟨2, 0⟩
def F.klFill.period : Fld := ⟨10, 0⟩
def F.klMargin.minMargin : Fld := ⟨15, 0⟩
def F.klLnCtl.chkEn : Fld := ⟨31, 31⟩
def F.klLnCtl.genEn : Fld := ⟨30, 30⟩
def F.klLnCtl.prbs : Fld := ⟨29, 28⟩
def F.klLnCtl.inject : Fld := ⟨27, 27⟩
def F.klLnCtl.injRate : Fld := ⟨26, 24⟩
def F.klLnCtl.bitSlip : Fld := ⟨23, 23⟩
def F.klLnCtl.swLock : Fld := ⟨22, 22⟩
def F.klLnCtl.txPol : Fld := ⟨21, 21⟩
def F.klLnCtl.eqFreeze : Fld := ⟨20, 20⟩
def F.klLnSts.cdrLock : Fld := ⟨31, 31⟩
def F.klLnSts.blockLock : Fld := ⟨30, 30⟩
def F.klLnSts.active : Fld := ⟨29, 29⟩
def F.klLnSts.retraining : Fld := ⟨28, 28⟩
def F.klLnSts.prbsLock : Fld := ⟨27, 27⟩
def F.klLnSts.rxPol : Fld := ⟨26, 26⟩
def F.klLnSts.eyeW : Fld := ⟨23, 16⟩
def F.klLnEq.dfe1 : Fld := ⟨31, 24⟩
def F.klLnEq.dfe2 : Fld := ⟨23, 16⟩
def F.klLnEq.dfe3 : Fld := ⟨15, 8⟩
def F.klLnEq.ctle : Fld := ⟨7, 0⟩
def F.cfgSts.holdTile : Fld := ⟨23, 16⟩
def F.cfgSts.err : Fld := ⟨15, 12⟩
def F.cfgSts.kind : Fld := ⟨11, 8⟩
def F.cfgSts.done : Fld := ⟨7, 7⟩
def F.cfgSts.refused : Fld := ⟨6, 6⟩
def F.cfgSts.state : Fld := ⟨2, 0⟩
def F.imgFallback.hostReason : Fld := ⟨19, 16⟩
def F.imgFallback.bReason : Fld := ⟨11, 8⟩
def F.imgFallback.aReason : Fld := ⟨7, 4⟩
def F.imgFallback.tryBBoot : Fld := ⟨3, 3⟩
def F.imgFallback.loaded : Fld := ⟨1, 0⟩
def F.cfgCtl.tryB : Fld := ⟨4, 4⟩
def F.cfgCtl.seal : Fld := ⟨3, 3⟩
def F.cfgCtl.cancel : Fld := ⟨2, 2⟩
def F.cfgCtl.apply : Fld := ⟨1, 1⟩
def F.cfgCtl.load : Fld := ⟨0, 0⟩
def F.cfgStageLo.addr : Fld := ⟨31, 6⟩
def F.cfgStageLen.len : Fld := ⟨28, 0⟩
def F.henSts.version : Fld := ⟨31, 16⟩
def F.henSts.reverted : Fld := ⟨4, 4⟩
def F.henSts.confirmed : Fld := ⟨3, 3⟩
def F.henSts.trial : Fld := ⟨2, 2⟩
def F.henSts.slot : Fld := ⟨1, 0⟩
def F.henCtl.restart : Fld := ⟨1, 1⟩
def F.henCtl.confirm : Fld := ⟨0, 0⟩
def F.cfgFlashCtl.slot : Fld := ⟨1, 1⟩
def F.cfgFlashCtl.start : Fld := ⟨0, 0⟩
def F.cfgFlashSts.err : Fld := ⟨7, 4⟩
def F.cfgFlashSts.done : Fld := ⟨3, 3⟩
def F.cfgFlashSts.state : Fld := ⟨2, 0⟩
def F.tileSts.degraded : Fld := ⟨11, 11⟩
def F.tileSts.held : Fld := ⟨10, 10⟩
def F.tileSts.enabled : Fld := ⟨9, 9⟩
def F.tileSts.assigned : Fld := ⟨8, 8⟩
def F.tileSts.plot : Fld := ⟨2, 0⟩
def F.tileXb.src : Fld := ⟨5, 0⟩
def F.tileBarHi.mask : Fld := ⟨1, 0⟩
def F.tilePlaceCtl.en : Fld := ⟨31, 31⟩
def F.tilePlaceCtl.freeze : Fld := ⟨30, 30⟩
def F.tilePlaceCtl.failLim : Fld := ⟨7, 0⟩
def F.tilePlaceSts.spare1For : Fld := ⟨29, 24⟩
def F.tilePlaceSts.spare0For : Fld := ⟨21, 16⟩
def F.tilePlaceSts.copyErr : Fld := ⟨8, 8⟩
def F.tilePlaceSts.pending : Fld := ⟨7, 7⟩
def F.tilePlaceSts.noSpare : Fld := ⟨6, 6⟩
def F.tilePlaceSts.qual : Fld := ⟨1, 0⟩
def F.tileFailHi.mask : Fld := ⟨1, 0⟩
def F.wlSts.fuseFail : Fld := ⟨11, 11⟩
def F.wlSts.cmdErr : Fld := ⟨10, 10⟩
def F.wlSts.debug : Fld := ⟨9, 9⟩
def F.wlSts.enforce : Fld := ⟨8, 8⟩
def F.wlSts.busy : Fld := ⟨7, 7⟩
def F.wlSts.lcPending : Fld := ⟨6, 6⟩
def F.wlSts.lcNext : Fld := ⟨5, 3⟩
def F.wlSts.lc : Fld := ⟨2, 0⟩
def F.wlCmd.go : Fld := ⟨31, 31⟩
def F.wlCmd.opcode : Fld := ⟨7, 0⟩
def F.wlCmdSts.result : Fld := ⟨7, 0⟩
def F.wlFuseRem.arbRem : Fld := ⟨23, 16⟩
def F.wlFuseRem.debugRem : Fld := ⟨10, 8⟩
def F.wlFuseRem.ownerSlot : Fld := ⟨7, 4⟩
def F.wlFuseRem.ownerRotRem : Fld := ⟨3, 0⟩
def F.wlArb.commit : Fld := ⟨31, 31⟩
def F.wlArb.image : Fld := ⟨15, 8⟩
def F.wlArb.count : Fld := ⟨7, 0⟩
def F.wlPlotSts.overrun : Fld := ⟨16, 16⟩
def F.wlPlotSts.keyed : Fld := ⟨8, 8⟩
def F.wlPlotSts.keyGen : Fld := ⟨7, 0⟩
def F.wlBatchCfg.en : Fld := ⟨31, 31⟩
def F.wlBatchCfg.sign : Fld := ⟨30, 30⟩
def F.wlBatchCfg.batchUs : Fld := ⟨27, 16⟩
def F.wlBatchCfg.batchSlots : Fld := ⟨15, 0⟩
def F.cmdBaseLo.addr : Fld := ⟨31, 12⟩
def F.cmdCfg.en : Fld := ⟨31, 31⟩
def F.cmdCfg.sizeLog2 : Fld := ⟨4, 0⟩
def F.cmdSts.nackLast : Fld := ⟨15, 8⟩
def F.cmdSts.state : Fld := ⟨1, 0⟩
def F.cmdCtl.restart : Fld := ⟨0, 0⟩
def F.rspBaseLo.addr : Fld := ⟨31, 12⟩
def F.rspCfg.en : Fld := ⟨31, 31⟩
def F.rspCfg.sizeLog2 : Fld := ⟨4, 0⟩
def F.rrBaseLo.addr : Fld := ⟨31, 12⟩
def F.rrCfg.en : Fld := ⟨31, 31⟩
def F.rrCfg.sizeLog2 : Fld := ⟨4, 0⟩
def F.rrIrq.onBatch : Fld := ⟨31, 31⟩
def F.rrIrq.us : Fld := ⟨27, 16⟩
def F.rrIrq.cnt : Fld := ⟨15, 0⟩
def F.wbLo.addr : Fld := ⟨31, 6⟩
def F.wbLo.en : Fld := ⟨0, 0⟩
def F.pgAlert.fetchErr : Fld := ⟨4, 4⟩
def F.pgAlert.shotDrop : Fld := ⟨3, 3⟩
def F.pgAlert.backpress : Fld := ⟨2, 2⟩
def F.pgAlert.nack : Fld := ⟨1, 1⟩
def F.pgAlert.prodErr : Fld := ⟨0, 0⟩
def F.ptpCtl.rearm : Fld := ⟨31, 31⟩
def F.ptpSts.epochStale : Fld := ⟨5, 5⟩
def F.ptpSts.stepPend : Fld := ⟨4, 4⟩
def F.ptpSts.slewing : Fld := ⟨3, 3⟩
def F.ptpSts.rateClamp : Fld := ⟨2, 2⟩
def F.ptpSts.ptpJump : Fld := ⟨1, 1⟩
def F.ptpSts.overrun : Fld := ⟨0, 0⟩
def F.ptpNsFrac.frac : Fld := ⟨15, 0⟩
def F.ptpOffsetFrac.frac : Fld := ⟨15, 0⟩
def F.ptpJumpThr.thr : Fld := ⟨23, 0⟩
def F.ptpSlew.ms : Fld := ⟨15, 0⟩
def F.ptpEpochSecHi.sec : Fld := ⟨15, 0⟩
def F.ptpRateHi.rate : Fld := ⟨7, 0⟩
def F.xtsCtl.go : Fld := ⟨31, 31⟩
def F.xtsCtl.autoPps : Fld := ⟨30, 30⟩
def F.xtsCtl.overrun : Fld := ⟨0, 0⟩
def F.xtsNsFrac.frac : Fld := ⟨15, 0⟩
def F.ppsOutCtl.en : Fld := ⟨31, 31⟩
def F.ppsOutCtl.mode : Fld := ⟨30, 30⟩
def F.ppsOutCtl.width : Fld := ⟨18, 0⟩
def F.ethTsCtl.onestep : Fld := ⟨31, 31⟩
def F.ethAsymIn.ps : Fld := ⟨19, 0⟩
def F.ethAsymOut.ps : Fld := ⟨19, 0⟩
def F.ethTsSts.linkUp : Fld := ⟨31, 31⟩
def F.ethTsSts.speed : Fld := ⟨30, 29⟩
def F.ethTsSts.halted : Fld := ⟨7, 7⟩
def F.ethTsSts.late : Fld := ⟨6, 6⟩
def F.ethTsSts.tsOvf : Fld := ⟨5, 5⟩
def F.ethTsSts.lqLevel : Fld := ⟨4, 0⟩
def F.ethLqCtl.clrHalt : Fld := ⟨31, 31⟩
def F.ethLqCtl.latePol : Fld := ⟨1, 0⟩
def F.ethGuard.ns : Fld := ⟨15, 0⟩
def F.ethRxtsInfo.seqId : Fld := ⟨31, 16⟩
def F.ethRxtsInfo.msg : Fld := ⟨15, 12⟩
def F.ethRxtsInfo.valid : Fld := ⟨11, 11⟩
def F.ethRxtsInfo.frac : Fld := ⟨10, 0⟩
def F.ethTxtsInfo.seqId : Fld := ⟨31, 16⟩
def F.ethTxtsInfo.msg : Fld := ⟨15, 12⟩
def F.ethTxtsInfo.valid : Fld := ⟨11, 11⟩
def F.ethTxtsInfo.frac : Fld := ⟨10, 0⟩
def F.tiuInCfg.thr : Fld := ⟨31, 24⟩
def F.tiuInCfg.holdoff : Fld := ⟨16, 8⟩
def F.tiuInCfg.hyst : Fld := ⟨3, 2⟩
def F.tiuInCfg.edge : Fld := ⟨1, 0⟩
def F.tiuInSts.rateOvf : Fld := ⟨0, 0⟩
def F.tmCtl.go : Fld := ⟨31, 31⟩
def F.tmCtl.stop : Fld := ⟨30, 30⟩
def F.tmCtl.mode : Fld := ⟨26, 24⟩
def F.tmCtl.srcA : Fld := ⟨21, 16⟩
def F.tmCtl.srcB : Fld := ⟨13, 8⟩
def F.tmN.n : Fld := ⟨24, 0⟩
def F.tmGate.us : Fld := ⟨23, 0⟩
def F.tmSts.result : Fld := ⟨11, 8⟩
def F.tmSts.trunc : Fld := ⟨7, 7⟩
def F.tmSts.startMissed : Fld := ⟨6, 6⟩
def F.tmSts.overrun : Fld := ⟨5, 5⟩
def F.tmSts.done : Fld := ⟨4, 4⟩
def F.tmSts.running : Fld := ⟨0, 0⟩
def F.expCfg.en : Fld := ⟨31, 31⟩
def F.expCfg.port : Fld := ⟨30, 30⟩
def F.expCfg.slots : Fld := ⟨5, 0⟩
def F.evfCh.en : Fld := ⟨31, 31⟩
def F.evfCh.src : Fld := ⟨10, 0⟩
def F.taskSub.ch3 : Fld := ⟨31, 24⟩
def F.taskSub.ch2 : Fld := ⟨23, 16⟩
def F.taskSub.ch1 : Fld := ⟨15, 8⟩
def F.taskSub.ch0 : Fld := ⟨7, 0⟩
def F.taskCtl.fired : Fld := ⟨8, 8⟩
def F.taskCtl.subEn : Fld := ⟨3, 0⟩
def F.taskCoal.coal : Fld := ⟨7, 0⟩
def F.evfFire.gen : Fld := ⟨10, 8⟩
def F.evfFire.ch : Fld := ⟨7, 0⟩
def F.evfSts.chCoal : Fld := ⟨2, 2⟩
def F.evfSts.fireIgnored : Fld := ⟨1, 1⟩
def F.evfSts.evfLoop : Fld := ⟨0, 0⟩
def F.evfLoopSrc.src : Fld := ⟨10, 0⟩
def F.evfIrqStsHi.irq : Fld := ⟨7, 0⟩
def F.evfAlertSts.asserted : Fld := ⟨0, 0⟩
def F.hkCfg.ref : Fld := ⟨3, 2⟩
def F.hkCfg.mains : Fld := ⟨0, 0⟩
def F.hkCtl.go : Fld := ⟨31, 31⟩
def F.hkCtl.stop : Fld := ⟨30, 30⟩
def F.hkCtl.urgGo : Fld := ⟨29, 29⟩
def F.hkCtl.cont : Fld := ⟨28, 28⟩
def F.hkCtl.gapMs : Fld := ⟨23, 16⟩
def F.hkCtl.len : Fld := ⟨6, 0⟩
def F.hkSts.entry : Fld := ⟨21, 16⟩
def F.hkSts.refReady : Fld := ⟨15, 15⟩
def F.hkSts.refFault : Fld := ⟨14, 14⟩
def F.hkSts.linkLost : Fld := ⟨13, 13⟩
def F.hkSts.overrun : Fld := ⟨12, 12⟩
def F.hkSts.stopped : Fld := ⟨11, 11⟩
def F.hkSts.urgMissed : Fld := ⟨10, 10⟩
def F.hkSts.hkGoMissed : Fld := ⟨9, 9⟩
def F.hkSts.done : Fld := ⟨8, 8⟩
def F.hkSts.urgDone : Fld := ⟨7, 7⟩
def F.hkSts.urgBusy : Fld := ⟨6, 6⟩
def F.hkSts.busy : Fld := ⟨5, 5⟩
def F.hkSts.state : Fld := ⟨2, 0⟩
def F.hkUrgCfg.limEn : Fld := ⟨31, 31⟩
def F.hkUrgCfg.az : Fld := ⟨30, 30⟩
def F.hkUrgCfg.fast : Fld := ⟨29, 29⟩
def F.hkUrgCfg.nplc : Fld := ⟨28, 22⟩
def F.hkUrgCfg.settle : Fld := ⟨21, 14⟩
def F.hkUrgCfg.sub : Fld := ⟨13, 10⟩
def F.hkUrgCfg.input : Fld := ⟨5, 0⟩
def F.hkUrgFlg.valid : Fld := ⟨31, 31⟩
def F.hkUrgFlg.openF : Fld := ⟨30, 30⟩
def F.hkUrgFlg.ovr : Fld := ⟨29, 29⟩
def F.hkUrgFlg.lim : Fld := ⟨28, 28⟩
def F.hkUrgFlg.denied : Fld := ⟨27, 27⟩
def F.hkUrgFlg.pass : Fld := ⟨15, 8⟩
def F.hkUrgFlg.input : Fld := ⟨5, 0⟩
def F.hkSeq.limEn : Fld := ⟨31, 31⟩
def F.hkSeq.az : Fld := ⟨30, 30⟩
def F.hkSeq.fast : Fld := ⟨29, 29⟩
def F.hkSeq.nplc : Fld := ⟨28, 22⟩
def F.hkSeq.settle : Fld := ⟨21, 14⟩
def F.hkSeq.sub : Fld := ⟨13, 10⟩
def F.hkSeq.input : Fld := ⟨5, 0⟩
def F.hkResFlg.valid : Fld := ⟨31, 31⟩
def F.hkResFlg.openF : Fld := ⟨30, 30⟩
def F.hkResFlg.ovr : Fld := ⟨29, 29⟩
def F.hkResFlg.lim : Fld := ⟨28, 28⟩
def F.hkResFlg.denied : Fld := ⟨27, 27⟩
def F.hkResFlg.pass : Fld := ⟨15, 8⟩
def F.hkResFlg.input : Fld := ⟨5, 0⟩
def F.hkLimLo.lim : Fld := ⟨23, 0⟩
def F.hkLimHi.lim : Fld := ⟨23, 0⟩
def F.snCfg.en : Fld := ⟨31, 31⟩
def F.snCfg.excCont : Fld := ⟨30, 30⟩
def F.snCfg.rf : Fld := ⟨26, 24⟩
def F.snCfg.excMv : Fld := ⟨9, 0⟩
def F.snSts.short : Fld := ⟨4, 4⟩
def F.snSts.openF : Fld := ⟨3, 3⟩
def F.snSts.openNow : Fld := ⟨2, 2⟩
def F.snSts.checking : Fld := ⟨1, 1⟩
def F.snSts.excited : Fld := ⟨0, 0⟩
def F.snImpPh.ph : Fld := ⟨15, 0⟩
def F.snChkCtl.en : Fld := ⟨31, 31⟩
def F.snChkCtl.go : Fld := ⟨30, 30⟩
def F.snChkCtl.missed : Fld := ⟨29, 29⟩
def F.snChkCtl.periodS : Fld := ⟨7, 0⟩
def F.pmCtl.shutdown : Fld := ⟨31, 31⟩
def F.pmSts.overLimit : Fld := ⟨1, 1⟩
def F.pmSts.overrun : Fld := ⟨0, 0⟩
def F.pmTotal.mw : Fld := ⟨19, 0⟩
def F.pmLimit.mw : Fld := ⟨19, 0⟩
def F.pmDom.mv : Fld := ⟨31, 20⟩
def F.pmDom.mw : Fld := ⟨19, 0⟩
def F.avsDom.adapt : Fld := ⟨31, 31⟩
def F.avsDom.atLimit : Fld := ⟨30, 30⟩
def F.avsDom.margin : Fld := ⟨29, 24⟩
def F.avsDom.vmin : Fld := ⟨23, 18⟩
def F.avsDom.vmax : Fld := ⟨17, 12⟩
def F.avsDom.vset : Fld := ⟨5, 0⟩
def F.avsCtl.en : Fld := ⟨31, 31⟩
def F.avsCtl.freeze : Fld := ⟨30, 30⟩
def F.avsCtl.marginHi : Fld := ⟨15, 8⟩
def F.avsCtl.marginLo : Fld := ⟨7, 0⟩
def F.thCtl.thrEn : Fld := ⟨31, 31⟩
def F.thCtl.warn : Fld := ⟨23, 16⟩
def F.thCtl.throt : Fld := ⟨15, 8⟩
def F.thCtl.shut : Fld := ⟨7, 0⟩
def F.thSts.warn : Fld := ⟨31, 31⟩
def F.thSts.throttling : Fld := ⟨30, 30⟩
def F.thSts.anchorStale : Fld := ⟨29, 29⟩
def F.thSts.modelErr : Fld := ⟨28, 28⟩
def F.thSts.hotNode : Fld := ⟨23, 16⟩
def F.thSts.level : Fld := ⟨12, 8⟩
def F.thTj.tj : Fld := ⟨15, 0⟩
def F.thAnchor.ageS : Fld := ⟨31, 16⟩
def F.thAnchor.err : Fld := ⟨15, 0⟩
def F.thCold.ofs : Fld := ⟨31, 16⟩
def F.thCold.ref : Fld := ⟨15, 0⟩
def F.thNode.t : Fld := ⟨15, 0⟩
def F.thDiode.valid : Fld := ⟨31, 31⟩
def F.thDiode.t : Fld := ⟨15, 0⟩
def F.calCtl.en : Fld := ⟨31, 31⟩
def F.calCtl.maxS : Fld := ⟨21, 16⟩
def F.calCtl.minMs : Fld := ⟨15, 0⟩
def F.calSts.storeErr : Fld := ⟨2, 2⟩
def F.calSts.bootDone : Fld := ⟨1, 1⟩
def F.calSts.devFail : Fld := ⟨0, 0⟩
def F.calTiuQ.nl : Fld := ⟨15, 0⟩
def F.rtcCtl.setF : Fld := ⟨31, 31⟩
def F.rtcSts.overrun : Fld := ⟨2, 2⟩
def F.rtcSts.invalid : Fld := ⟨1, 1⟩
def F.rtcSts.oscOk : Fld := ⟨0, 0⟩
def F.aonSts.tripSeen : Fld := ⟨31, 31⟩
def F.aonSts.shutSeen : Fld := ⟨30, 30⟩
def F.tpwCtl.fluxPd : Fld := ⟨2, 2⟩
def F.tpwCtl.probePd : Fld := ⟨1, 1⟩
def F.tpwCtl.xyPd : Fld := ⟨0, 0⟩
def F.tpwSts.downNow : Fld := ⟨8, 8⟩
def F.islCtl.en : Fld := ⟨31, 31⟩
def F.islCtl.freeze : Fld := ⟨30, 30⟩
def F.islLim.fmax : Fld := ⟨14, 8⟩
def F.islLim.fmin : Fld := ⟨6, 0⟩
def F.islSts.atMin : Fld := ⟨31, 31⟩
def F.islSts.margin : Fld := ⟨29, 24⟩
def F.islSts.freq : Fld := ⟨6, 0⟩
def F.calQ.fail : Fld := ⟨31, 31⟩
def F.calQ.qlim : Fld := ⟨30, 30⟩
def F.calQ.rej : Fld := ⟨23, 16⟩
def F.calQ.q : Fld := ⟨15, 0⟩
def F.calQlim.ofs : Fld := ⟨15, 8⟩
def F.calQlim.spur : Fld := ⟨7, 0⟩
def F.cbCtl.save : Fld := ⟨31, 31⟩
def F.cbSts.overrun : Fld := ⟨3, 3⟩
def F.cbSts.err : Fld := ⟨2, 2⟩
def F.cbSts.saving : Fld := ⟨1, 1⟩

/-! ## Table -/

/-- GLB_ID (R8). -/
def spec_glbId : RegSpec := ⟨.glbId, 0x0, [],
  [⟨⟨31, 24⟩, .ro, false⟩, ⟨⟨23, 8⟩, .ro, false⟩, ⟨⟨7, 0⟩, .ro, false⟩]⟩
/-- GLB_CAPS (R8). -/
def spec_glbCaps : RegSpec := ⟨.glbCaps, 0x4, [],
  [⟨⟨19, 16⟩, .ro, false⟩, ⟨⟨15, 13⟩, .ro, false⟩, ⟨⟨12, 9⟩, .ro, false⟩, ⟨⟨8, 6⟩, .ro, false⟩, ⟨⟨5, 0⟩, .ro, false⟩]⟩
/-- GLB_SERIAL_LO (R13). -/
def spec_glbSerialLo : RegSpec := ⟨.glbSerialLo, 0x8, [],
  [⟨⟨31, 0⟩, .ro, false⟩]⟩
/-- GLB_SERIAL_HI (R13). -/
def spec_glbSerialHi : RegSpec := ⟨.glbSerialHi, 0xC, [],
  [⟨⟨31, 0⟩, .ro, false⟩]⟩
/-- GLB_CTL (R42). -/
def spec_glbCtl : RegSpec := ⟨.glbCtl, 0x10, [],
  [⟨⟨1, 1⟩, .w1s, false⟩, ⟨⟨0, 0⟩, .rw, false⟩]⟩
/-- GLB_STS (R41). -/
def spec_glbSts : RegSpec := ⟨.glbSts, 0x14, [],
  [⟨⟨13, 12⟩, .ro, false⟩, ⟨⟨11, 10⟩, .ro, false⟩, ⟨⟨9, 7⟩, .ro, false⟩, ⟨⟨6, 6⟩, .ro, false⟩, ⟨⟨5, 5⟩, .ro, false⟩, ⟨⟨4, 3⟩, .ro, false⟩, ⟨⟨2, 0⟩, .ro, false⟩]⟩
/-- GLB_ERR_STS (R43). -/
def spec_glbErrSts : RegSpec := ⟨.glbErrSts, 0x18, [],
  [⟨⟨3, 3⟩, .ro, false⟩, ⟨⟨2, 2⟩, .w1c, false⟩, ⟨⟨1, 1⟩, .w1c, false⟩, ⟨⟨0, 0⟩, .w1c, false⟩]⟩
/-- GLB_ERR_ADDR (R43). -/
def spec_glbErrAddr : RegSpec := ⟨.glbErrAddr, 0x1C, [],
  [⟨⟨31, 31⟩, .w1c, false⟩, ⟨⟨30, 29⟩, .ro, false⟩, ⟨⟨28, 27⟩, .ro, false⟩, ⟨⟨26, 0⟩, .ro, false⟩]⟩
/-- GLB_TILE_EN (R44). -/
def spec_glbTileEn : RegSpec := ⟨.glbTileEn, 0x20, [],
  [⟨⟨31, 0⟩, .ro, false⟩]⟩
/-- GLB_TILE_PLOT (R30). -/
def spec_glbTilePlot : RegSpec := ⟨.glbTilePlot, 0x24, [(0x4, 0x4)],
  [⟨⟨31, 0⟩, .ro, false⟩]⟩
/-- GLB_BRIDGE_STS (R20). -/
def spec_glbBridgeSts : RegSpec := ⟨.glbBridgeSts, 0x34, [],
  [⟨⟨15, 12⟩, .w1c, false⟩, ⟨⟨11, 8⟩, .ro, false⟩, ⟨⟨7, 4⟩, .w1c, false⟩, ⟨⟨3, 0⟩, .ro, false⟩]⟩
/-- GLB_SCRATCH (R10). -/
def spec_glbScratch : RegSpec := ⟨.glbScratch, 0x38, [],
  [⟨⟨31, 0⟩, .rws, false⟩]⟩
/-- DT_LO (R45). -/
def spec_dtLo : RegSpec := ⟨.dtLo, 0x300000, [],
  [⟨⟨31, 0⟩, .ro, false⟩]⟩
/-- DT_HI (R45). -/
def spec_dtHi : RegSpec := ⟨.dtHi, 0x300004, [],
  [⟨⟨31, 0⟩, .ro, false⟩]⟩
/-- DT_STS (R47). -/
def spec_dtSts : RegSpec := ⟨.dtSts, 0x300008, [],
  [⟨⟨7, 7⟩, .w1c, false⟩, ⟨⟨6, 6⟩, .w1c, false⟩, ⟨⟨5, 5⟩, .ro, false⟩, ⟨⟨4, 4⟩, .ro, false⟩, ⟨⟨3, 2⟩, .ro, false⟩, ⟨⟨0, 0⟩, .ro, false⟩]⟩
/-- DT_LOAD_LO (R47). -/
def spec_dtLoadLo : RegSpec := ⟨.dtLoadLo, 0x30000C, [],
  [⟨⟨31, 0⟩, .rw, false⟩]⟩
/-- DT_LOAD_HI (R47). -/
def spec_dtLoadHi : RegSpec := ⟨.dtLoadHi, 0x300010, [],
  [⟨⟨31, 0⟩, .rw, false⟩]⟩
/-- DT_LOAD_CTL (R49). -/
def spec_dtLoadCtl : RegSpec := ⟨.dtLoadCtl, 0x300014, [],
  [⟨⟨2, 2⟩, .w1s, false⟩, ⟨⟨1, 1⟩, .w1s, false⟩, ⟨⟨0, 0⟩, .w1s, false⟩]⟩
/-- SHOT_CTL (R56). -/
def spec_shotCtl : RegSpec := ⟨.shotCtl, 0x301000, [(0x8, 0x100)],
  [⟨⟨15, 15⟩, .rw, false⟩, ⟨⟨14, 14⟩, .rw, false⟩, ⟨⟨12, 12⟩, .rw, false⟩, ⟨⟨11, 8⟩, .rw, false⟩, ⟨⟨1, 0⟩, .rw, false⟩]⟩
/-- SHOT_PERIOD (R56). -/
def spec_shotPeriod : RegSpec := ⟨.shotPeriod, 0x301004, [(0x8, 0x100)],
  [⟨⟨31, 0⟩, .rw, false⟩]⟩
/-- SHOT_GAP_MIN (R55). -/
def spec_shotGapMin : RegSpec := ⟨.shotGapMin, 0x301008, [(0x8, 0x100)],
  [⟨⟨31, 0⟩, .rw, false⟩]⟩
/-- SHOT_LEAD (R60). -/
def spec_shotLead : RegSpec := ⟨.shotLead, 0x30100C, [(0x8, 0x100)],
  [⟨⟨15, 0⟩, .rw, false⟩]⟩
/-- TRIG_DELAY (R56). -/
def spec_trigDelay : RegSpec := ⟨.trigDelay, 0x301010, [(0x8, 0x100)],
  [⟨⟨31, 0⟩, .rw, false⟩]⟩
/-- SHOT_MAX (R52). -/
def spec_shotMax : RegSpec := ⟨.shotMax, 0x301014, [(0x8, 0x100)],
  [⟨⟨31, 0⟩, .rw, false⟩]⟩
/-- RUN_START_LO (R55). -/
def spec_runStartLo : RegSpec := ⟨.runStartLo, 0x301018, [(0x8, 0x100)],
  [⟨⟨31, 0⟩, .rw, false⟩]⟩
/-- RUN_START_HI (R55). -/
def spec_runStartHi : RegSpec := ⟨.runStartHi, 0x30101C, [(0x8, 0x100)],
  [⟨⟨31, 0⟩, .rw, false⟩]⟩
/-- RUN_SHOTS (R62). -/
def spec_runShots : RegSpec := ⟨.runShots, 0x301020, [(0x8, 0x100)],
  [⟨⟨31, 0⟩, .rw, false⟩]⟩
/-- RUN_CMD (R64). -/
def spec_runCmd : RegSpec := ⟨.runCmd, 0x301024, [(0x8, 0x100)],
  [⟨⟨3, 3⟩, .w1s, false⟩, ⟨⟨2, 2⟩, .w1s, false⟩, ⟨⟨1, 1⟩, .w1s, false⟩, ⟨⟨0, 0⟩, .w1s, false⟩]⟩
/-- RUN_STS (R62). -/
def spec_runSts : RegSpec := ⟨.runSts, 0x301028, [(0x8, 0x100)],
  [⟨⟨12, 12⟩, .w1c, false⟩, ⟨⟨11, 11⟩, .w1c, false⟩, ⟨⟨10, 10⟩, .w1c, false⟩, ⟨⟨9, 9⟩, .ro, false⟩, ⟨⟨8, 8⟩, .w1c, false⟩, ⟨⟨7, 5⟩, .ro, false⟩, ⟨⟨4, 4⟩, .w1c, false⟩, ⟨⟨3, 3⟩, .ro, false⟩, ⟨⟨2, 0⟩, .ro, false⟩]⟩
/-- SHOT_NUM (R59). -/
def spec_shotNum : RegSpec := ⟨.shotNum, 0x30102C, [(0x8, 0x100)],
  [⟨⟨31, 0⟩, .ro, false⟩]⟩
/-- SHOTS_DONE (R62). -/
def spec_shotsDone : RegSpec := ⟨.shotsDone, 0x301030, [(0x8, 0x100)],
  [⟨⟨31, 0⟩, .ro, false⟩]⟩
/-- NEXT_START_LO (R59). -/
def spec_nextStartLo : RegSpec := ⟨.nextStartLo, 0x301034, [(0x8, 0x100)],
  [⟨⟨31, 0⟩, .ro, false⟩]⟩
/-- NEXT_START_HI (R59). -/
def spec_nextStartHi : RegSpec := ⟨.nextStartHi, 0x301038, [(0x8, 0x100)],
  [⟨⟨31, 0⟩, .ro, false⟩]⟩
/-- LAST_LEN (R53). -/
def spec_lastLen : RegSpec := ⟨.lastLen, 0x30103C, [(0x8, 0x100)],
  [⟨⟨31, 0⟩, .ro, false⟩]⟩
/-- FLAGS_ACC (R67). -/
def spec_flagsAcc : RegSpec := ⟨.flagsAcc, 0x301040, [(0x8, 0x100)],
  [⟨⟨11, 0⟩, .w1c, false⟩]⟩
/-- FLAGGED_SHOTS (R67). -/
def spec_flaggedShots : RegSpec := ⟨.flaggedShots, 0x301044, [(0x8, 0x100)],
  [⟨⟨31, 0⟩, .rc, false⟩]⟩
/-- SLIP_COUNT (R57). -/
def spec_slipCount : RegSpec := ⟨.slipCount, 0x301048, [(0x8, 0x100)],
  [⟨⟨31, 0⟩, .rc, false⟩]⟩
/-- PAUSE_TOTAL (R55). -/
def spec_pauseTotal : RegSpec := ⟨.pauseTotal, 0x30104C, [(0x8, 0x100)],
  [⟨⟨31, 0⟩, .rc, false⟩]⟩
/-- PAUSE_LAST (R55). -/
def spec_pauseLast : RegSpec := ⟨.pauseLast, 0x301050, [(0x8, 0x100)],
  [⟨⟨31, 0⟩, .ro, false⟩]⟩
/-- SEQ_CTL (R124). -/
def spec_seqCtl : RegSpec := ⟨.seqCtl, 0x1008000, [(0x20, 0x80000), (0x22, 0x400)],
  [⟨⟨27, 16⟩, .rw, true⟩, ⟨⟨2, 2⟩, .rw, false⟩, ⟨⟨1, 1⟩, .w1s, false⟩, ⟨⟨0, 0⟩, .rw, true⟩]⟩
/-- SEQ_STS (R83). -/
def spec_seqSts : RegSpec := ⟨.seqSts, 0x1008004, [(0x20, 0x80000), (0x22, 0x400)],
  [⟨⟨20, 20⟩, .w1c, false⟩, ⟨⟨19, 19⟩, .w1c, false⟩, ⟨⟨18, 18⟩, .w1c, false⟩, ⟨⟨17, 17⟩, .w1c, false⟩, ⟨⟨16, 16⟩, .ro, false⟩, ⟨⟨15, 12⟩, .ro, false⟩, ⟨⟨11, 8⟩, .ro, false⟩, ⟨⟨2, 0⟩, .ro, false⟩]⟩
/-- SEQ_PC (R78). -/
def spec_seqPc : RegSpec := ⟨.seqPc, 0x1008008, [(0x20, 0x80000), (0x22, 0x400)],
  [⟨⟨11, 0⟩, .ro, false⟩]⟩
/-- SEQ_TC (R78). -/
def spec_seqTc : RegSpec := ⟨.seqTc, 0x100800C, [(0x20, 0x80000), (0x22, 0x400)],
  [⟨⟨31, 0⟩, .ro, false⟩]⟩
/-- SEQ_FAULT (R125). -/
def spec_seqFault : RegSpec := ⟨.seqFault, 0x1008010, [(0x20, 0x80000), (0x22, 0x400)],
  [⟨⟨31, 31⟩, .w1c, false⟩, ⟨⟨27, 16⟩, .ro, false⟩, ⟨⟨4, 0⟩, .ro, false⟩]⟩
/-- SEQ_FAULT_INFO (R114). -/
def spec_seqFaultInfo : RegSpec := ⟨.seqFaultInfo, 0x1008014, [(0x20, 0x80000), (0x22, 0x400)],
  [⟨⟨31, 0⟩, .ro, false⟩]⟩
/-- SEQ_FAULT_CNT (R114). -/
def spec_seqFaultCnt : RegSpec := ⟨.seqFaultCnt, 0x1008018, [(0x20, 0x80000), (0x22, 0x400)],
  [⟨⟨31, 0⟩, .rc, false⟩]⟩
/-- SEQ_PM_CORR (R80). -/
def spec_seqPmCorr : RegSpec := ⟨.seqPmCorr, 0x100801C, [(0x20, 0x80000), (0x22, 0x400)],
  [⟨⟨31, 0⟩, .rc, false⟩]⟩
/-- SEQ_INSTR_LO (R13). -/
def spec_seqInstrLo : RegSpec := ⟨.seqInstrLo, 0x1008020, [(0x20, 0x80000), (0x22, 0x400)],
  [⟨⟨31, 0⟩, .ro, false⟩]⟩
/-- SEQ_INSTR_HI (R13). -/
def spec_seqInstrHi : RegSpec := ⟨.seqInstrHi, 0x1008024, [(0x20, 0x80000), (0x22, 0x400)],
  [⟨⟨31, 0⟩, .ro, false⟩]⟩
/-- SEQ_CYC_LO (R13). -/
def spec_seqCycLo : RegSpec := ⟨.seqCycLo, 0x1008028, [(0x20, 0x80000), (0x22, 0x400)],
  [⟨⟨31, 0⟩, .ro, false⟩]⟩
/-- SEQ_CYC_HI (R13). -/
def spec_seqCycHi : RegSpec := ⟨.seqCycHi, 0x100802C, [(0x20, 0x80000), (0x22, 0x400)],
  [⟨⟨31, 0⟩, .ro, false⟩]⟩
/-- SEQ_S (R78). -/
def spec_seqS : RegSpec := ⟨.seqS, 0x1008040, [(0x20, 0x80000), (0x22, 0x400), (0x10, 0x4)],
  [⟨⟨31, 0⟩, .ro, false⟩]⟩
/-- SEQ_LOOP_SE (R78). -/
def spec_seqLoopSe : RegSpec := ⟨.seqLoopSe, 0x1008080, [(0x20, 0x80000), (0x22, 0x400), (0x8, 0x8)],
  [⟨⟨27, 16⟩, .ro, false⟩, ⟨⟨11, 0⟩, .ro, false⟩]⟩
/-- SEQ_LOOP_REM (R78). -/
def spec_seqLoopRem : RegSpec := ⟨.seqLoopRem, 0x1008084, [(0x20, 0x80000), (0x22, 0x400), (0x8, 0x8)],
  [⟨⟨31, 0⟩, .ro, false⟩]⟩
/-- TQ_CTL (R74). -/
def spec_tqCtl : RegSpec := ⟨.tqCtl, 0x1008300, [(0x20, 0x80000), (0x22, 0x400)],
  [⟨⟨1, 0⟩, .rw, true⟩]⟩
/-- TQ_STS (R71). -/
def spec_tqSts : RegSpec := ⟨.tqSts, 0x1008304, [(0x20, 0x80000), (0x22, 0x400)],
  [⟨⟨18, 18⟩, .w1c, false⟩, ⟨⟨17, 17⟩, .ro, false⟩, ⟨⟨16, 16⟩, .w1c, false⟩, ⟨⟨14, 8⟩, .rc, false⟩, ⟨⟨6, 0⟩, .ro, false⟩]⟩
/-- TQ_LATE_CNT (R74). -/
def spec_tqLateCnt : RegSpec := ⟨.tqLateCnt, 0x1008308, [(0x20, 0x80000), (0x22, 0x400)],
  [⟨⟨31, 0⟩, .rc, false⟩]⟩
/-- TQ_MARGIN (R73). -/
def spec_tqMargin : RegSpec := ⟨.tqMargin, 0x100830C, [(0x20, 0x80000), (0x22, 0x400)],
  [⟨⟨15, 0⟩, .rc, false⟩]⟩
/-- TQ_LAST_LATE (R74). -/
def spec_tqLastLate : RegSpec := ⟨.tqLastLate, 0x1008310, [(0x20, 0x80000), (0x22, 0x400)],
  [⟨⟨31, 0⟩, .ro, false⟩]⟩
/-- TQ_STALL_TICKS (R71). -/
def spec_tqStallTicks : RegSpec := ⟨.tqStallTicks, 0x1008314, [(0x20, 0x80000), (0x22, 0x400)],
  [⟨⟨31, 0⟩, .rc, false⟩]⟩
/-- UC_ID (R116). -/
def spec_ucId : RegSpec := ⟨.ucId, 0x1050000, [(0x20, 0x80000)],
  [⟨⟨31, 16⟩, .ro, false⟩, ⟨⟨15, 0⟩, .ro, false⟩]⟩
/-- UC_PATCH_ID (R122). -/
def spec_ucPatchId : RegSpec := ⟨.ucPatchId, 0x1050004, [(0x20, 0x80000)],
  [⟨⟨31, 31⟩, .ro, false⟩, ⟨⟨24, 16⟩, .ro, false⟩, ⟨⟨15, 0⟩, .ro, false⟩]⟩
/-- UC_STS (R113). -/
def spec_ucSts : RegSpec := ⟨.ucSts, 0x1050008, [(0x20, 0x80000)],
  [⟨⟨1, 1⟩, .w1c, false⟩, ⟨⟨0, 0⟩, .w1c, false⟩]⟩
/-- UC_PAR_CNT (R113). -/
def spec_ucParCnt : RegSpec := ⟨.ucParCnt, 0x105000C, [(0x20, 0x80000)],
  [⟨⟨31, 0⟩, .rc, false⟩]⟩
/-- UC_MATCH (R121). -/
def spec_ucMatch : RegSpec := ⟨.ucMatch, 0x1050100, [(0x20, 0x80000), (0x10, 0x4)],
  [⟨⟨31, 31⟩, .ro, false⟩, ⟨⟨23, 16⟩, .ro, false⟩, ⟨⟨12, 0⟩, .ro, false⟩]⟩
/-- UC_HIT_CNT (R121). -/
def spec_ucHitCnt : RegSpec := ⟨.ucHitCnt, 0x1050200, [(0x20, 0x80000), (0x10, 0x4)],
  [⟨⟨31, 0⟩, .rc, false⟩]⟩
/-- UC_PATCH_RAM (R116). -/
def spec_ucPatchRam : RegSpec := ⟨.ucPatchRam, 0x1051000, [(0x20, 0x80000), (0x100, 0x4)],
  [⟨⟨31, 0⟩, .ro, false⟩]⟩
/-- FS_FW_LO (R143). -/
def spec_fsFwLo : RegSpec := ⟨.fsFwLo, 0x1020000, [(0x20, 0x80000), (0x8, 0x80), (0x8, 0x10)],
  [⟨⟨31, 0⟩, .rw, false⟩]⟩
/-- FS_FW_HI (R143). -/
def spec_fsFwHi : RegSpec := ⟨.fsFwHi, 0x1020004, [(0x20, 0x80000), (0x8, 0x80), (0x8, 0x10)],
  [⟨⟨15, 0⟩, .rw, false⟩]⟩
/-- FS_PH_INIT (R143). -/
def spec_fsPhInit : RegSpec := ⟨.fsPhInit, 0x1020008, [(0x20, 0x80000), (0x8, 0x80), (0x8, 0x10)],
  [⟨⟨31, 0⟩, .rw, false⟩]⟩
/-- FS_PH_WORK (R142). -/
def spec_fsPhWork : RegSpec := ⟨.fsPhWork, 0x102000C, [(0x20, 0x80000), (0x8, 0x80), (0x8, 0x10)],
  [⟨⟨31, 0⟩, .ro, false⟩]⟩
/-- XO_CFG (R145). -/
def spec_xoCfg : RegSpec := ⟨.xoCfg, 0x1020800, [(0x20, 0x80000), (0x4, 0x10)],
  [⟨⟨16, 16⟩, .rw, true⟩, ⟨⟨13, 8⟩, .ro, false⟩, ⟨⟨5, 0⟩, .ro, false⟩]⟩
/-- XO_STS (R146). -/
def spec_xoSts : RegSpec := ⟨.xoSts, 0x1020804, [(0x20, 0x80000), (0x4, 0x10)],
  [⟨⟨1, 1⟩, .ro, false⟩, ⟨⟨0, 0⟩, .w1c, false⟩]⟩
/-- XO_CLIP_CNT (R145). -/
def spec_xoClipCnt : RegSpec := ⟨.xoClipCnt, 0x1020808, [(0x20, 0x80000), (0x4, 0x10)],
  [⟨⟨31, 0⟩, .rc, false⟩]⟩
/-- XC_STS (R136). -/
def spec_xcSts : RegSpec := ⟨.xcSts, 0x1020900, [(0x20, 0x80000), (0x8, 0x10)],
  [⟨⟨31, 31⟩, .ro, false⟩, ⟨⟨30, 30⟩, .ro, false⟩, ⟨⟨21, 21⟩, .w1c, false⟩, ⟨⟨20, 20⟩, .w1c, false⟩, ⟨⟨19, 19⟩, .w1c, false⟩, ⟨⟨11, 0⟩, .ro, false⟩]⟩
/-- XC_JUMPS (R138). -/
def spec_xcJumps : RegSpec := ⟨.xcJumps, 0x1020904, [(0x20, 0x80000), (0x8, 0x10)],
  [⟨⟨31, 0⟩, .rc, false⟩]⟩
/-- XC_UNDER_CNT (R154). -/
def spec_xcUnderCnt : RegSpec := ⟨.xcUnderCnt, 0x1020908, [(0x20, 0x80000), (0x8, 0x10)],
  [⟨⟨31, 0⟩, .rc, false⟩]⟩
/-- MK_CFG (R148). -/
def spec_mkCfg : RegSpec := ⟨.mkCfg, 0x1020A00, [(0x20, 0x80000), (0x2, 0x4)],
  [⟨⟨15, 13⟩, .rw, false⟩, ⟨⟨12, 12⟩, .rw, true⟩, ⟨⟨11, 11⟩, .rw, true⟩, ⟨⟨10, 10⟩, .rw, true⟩, ⟨⟨5, 0⟩, .rw, true⟩]⟩
/-- VL_CFG (R149). -/
def spec_vlCfg : RegSpec := ⟨.vlCfg, 0x1020A08, [(0x20, 0x80000), (0x2, 0x4)],
  [⟨⟨0, 0⟩, .rw, true⟩]⟩
/-- CP (R130). -/
def spec_cp : RegSpec := ⟨.cp, 0x1021000, [(0x20, 0x80000), (0x20, 0x4)],
  [⟨⟨31, 31⟩, .rw, true⟩, ⟨⟨25, 20⟩, .rw, true⟩, ⟨⟨19, 14⟩, .rw, true⟩, ⟨⟨10, 5⟩, .rw, true⟩, ⟨⟨4, 0⟩, .rw, true⟩]⟩
/-- CEL_CHK (R132). -/
def spec_celChk : RegSpec := ⟨.celChk, 0x1021080, [(0x20, 0x80000)],
  [⟨⟨31, 31⟩, .w1c, false⟩, ⟨⟨30, 30⟩, .ro, false⟩, ⟨⟨19, 16⟩, .ro, false⟩, ⟨⟨11, 0⟩, .ro, false⟩]⟩
/-- DD_ADDR_LO (R150). -/
def spec_ddAddrLo : RegSpec := ⟨.ddAddrLo, 0x1022000, [(0x20, 0x80000), (0x10, 0x20)],
  [⟨⟨31, 12⟩, .rw, false⟩]⟩
/-- DD_ADDR_HI (R150). -/
def spec_ddAddrHi : RegSpec := ⟨.ddAddrHi, 0x1022004, [(0x20, 0x80000), (0x10, 0x20)],
  [⟨⟨31, 0⟩, .rw, false⟩]⟩
/-- DD_LEN (R150). -/
def spec_ddLen : RegSpec := ⟨.ddLen, 0x1022008, [(0x20, 0x80000), (0x10, 0x20)],
  [⟨⟨19, 0⟩, .rw, false⟩]⟩
/-- DD_CTL (R152). -/
def spec_ddCtl : RegSpec := ⟨.ddCtl, 0x102200C, [(0x20, 0x80000), (0x10, 0x20)],
  [⟨⟨2, 2⟩, .rw, false⟩, ⟨⟨1, 1⟩, .w1s, false⟩, ⟨⟨0, 0⟩, .rw, false⟩]⟩
/-- DD_STS (R152). -/
def spec_ddSts : RegSpec := ⟨.ddSts, 0x1022010, [(0x20, 0x80000), (0x10, 0x20)],
  [⟨⟨11, 8⟩, .ro, false⟩, ⟨⟨7, 7⟩, .w1c, false⟩, ⟨⟨6, 6⟩, .w1c, false⟩, ⟨⟨5, 4⟩, .ro, false⟩, ⟨⟨2, 0⟩, .ro, false⟩]⟩
/-- DD_CHUNK (R153). -/
def spec_ddChunk : RegSpec := ⟨.ddChunk, 0x1022014, [(0x20, 0x80000), (0x10, 0x20)],
  [⟨⟨4, 0⟩, .ro, false⟩]⟩
/-- DD_STARVE_CNT (R154). -/
def spec_ddStarveCnt : RegSpec := ⟨.ddStarveCnt, 0x1022018, [(0x20, 0x80000), (0x10, 0x20)],
  [⟨⟨31, 0⟩, .rc, false⟩]⟩
/-- DD_FETCH_CNT (R152). -/
def spec_ddFetchCnt : RegSpec := ⟨.ddFetchCnt, 0x102201C, [(0x20, 0x80000), (0x10, 0x20)],
  [⟨⟨31, 0⟩, .rc, false⟩]⟩
/-- DD_GEN (R350). -/
def spec_ddGen : RegSpec := ⟨.ddGen, 0x1022200, [(0x20, 0x80000), (0x10, 0x4)],
  [⟨⟨31, 0⟩, .ro, false⟩]⟩
/-- SEG_LO (R132). -/
def spec_segLo : RegSpec := ⟨.segLo, 0x1028000, [(0x20, 0x80000), (0x1000, 0x8)],
  [⟨⟨31, 31⟩, .rw, false⟩, ⟨⟨30, 30⟩, .rw, false⟩, ⟨⟨29, 29⟩, .rw, false⟩, ⟨⟨28, 24⟩, .rw, false⟩, ⟨⟨14, 0⟩, .rw, false⟩]⟩
/-- SEG_HI (R132). -/
def spec_segHi : RegSpec := ⟨.segHi, 0x1028004, [(0x20, 0x80000), (0x1000, 0x8)],
  [⟨⟨19, 16⟩, .rw, false⟩, ⟨⟨12, 0⟩, .rw, false⟩]⟩
/-- FX_CFG (R158). -/
def spec_fxCfg : RegSpec := ⟨.fxCfg, 0x1040000, [(0x20, 0x80000), (0xE, 0x200)],
  [⟨⟨13, 8⟩, .ro, false⟩, ⟨⟨4, 4⟩, .rw, false⟩, ⟨⟨3, 0⟩, .rw, false⟩]⟩
/-- FX_IDLE (R161). -/
def spec_fxIdle : RegSpec := ⟨.fxIdle, 0x1040004, [(0x20, 0x80000), (0xE, 0x200)],
  [⟨⟨15, 0⟩, .rw, false⟩]⟩
/-- FX_STS (R162). -/
def spec_fxSts : RegSpec := ⟨.fxSts, 0x1040008, [(0x20, 0x80000), (0xE, 0x200)],
  [⟨⟨31, 31⟩, .ro, false⟩, ⟨⟨30, 30⟩, .ro, false⟩, ⟨⟨29, 29⟩, .ro, false⟩, ⟨⟨24, 24⟩, .w1c, false⟩, ⟨⟨23, 23⟩, .w1c, false⟩, ⟨⟨22, 22⟩, .w1c, false⟩, ⟨⟨21, 21⟩, .w1c, false⟩, ⟨⟨20, 20⟩, .w1c, false⟩, ⟨⟨11, 0⟩, .ro, false⟩]⟩
/-- FX_CLIP_CNT (R166). -/
def spec_fxClipCnt : RegSpec := ⟨.fxClipCnt, 0x104000C, [(0x20, 0x80000), (0xE, 0x200)],
  [⟨⟨31, 0⟩, .rc, false⟩]⟩
/-- FX_JUMPS (R159). -/
def spec_fxJumps : RegSpec := ⟨.fxJumps, 0x1040010, [(0x20, 0x80000), (0xE, 0x200)],
  [⟨⟨31, 0⟩, .rc, false⟩]⟩
/-- FX_UNDER_CNT (R159). -/
def spec_fxUnderCnt : RegSpec := ⟨.fxUnderCnt, 0x1040014, [(0x20, 0x80000), (0xE, 0x200)],
  [⟨⟨31, 0⟩, .rc, false⟩]⟩
/-- FX_IIR_B0 (R164). -/
def spec_fxIirB0 : RegSpec := ⟨.fxIirB0, 0x1040040, [(0x20, 0x80000), (0xE, 0x200), (0x4, 0x10)],
  [⟨⟨19, 0⟩, .rw, false⟩]⟩
/-- FX_IIR_B1 (R164). -/
def spec_fxIirB1 : RegSpec := ⟨.fxIirB1, 0x1040044, [(0x20, 0x80000), (0xE, 0x200), (0x4, 0x10)],
  [⟨⟨19, 0⟩, .rw, false⟩]⟩
/-- FX_IIR_A1 (R164). -/
def spec_fxIirA1 : RegSpec := ⟨.fxIirA1, 0x1040048, [(0x20, 0x80000), (0xE, 0x200), (0x4, 0x10)],
  [⟨⟨19, 0⟩, .rw, false⟩]⟩
/-- FX_FIR (R165). -/
def spec_fxFir : RegSpec := ⟨.fxFir, 0x1040100, [(0x20, 0x80000), (0xE, 0x200), (0x30, 0x4)],
  [⟨⟨17, 0⟩, .rw, false⟩]⟩
/-- BQ_CTL (R173). -/
def spec_bqCtl : RegSpec := ⟨.bqCtl, 0x1042000, [(0x20, 0x80000), (0x10, 0x20)],
  [⟨⟨1, 0⟩, .rw, true⟩]⟩
/-- BQ_STS (R176). -/
def spec_bqSts : RegSpec := ⟨.bqSts, 0x1042004, [(0x20, 0x80000), (0x10, 0x20)],
  [⟨⟨7, 7⟩, .w1c, false⟩, ⟨⟨6, 6⟩, .w1c, false⟩, ⟨⟨5, 5⟩, .ro, false⟩, ⟨⟨2, 0⟩, .ro, false⟩]⟩
/-- BQ_LATE_CNT (R173). -/
def spec_bqLateCnt : RegSpec := ⟨.bqLateCnt, 0x1042008, [(0x20, 0x80000), (0x10, 0x20)],
  [⟨⟨31, 0⟩, .rc, false⟩]⟩
/-- BQ_SUPER_CNT (R175). -/
def spec_bqSuperCnt : RegSpec := ⟨.bqSuperCnt, 0x104200C, [(0x20, 0x80000), (0x10, 0x20)],
  [⟨⟨31, 0⟩, .rc, false⟩]⟩
/-- BQ_LOST_CNT (R176). -/
def spec_bqLostCnt : RegSpec := ⟨.bqLostCnt, 0x1042010, [(0x20, 0x80000), (0x10, 0x20)],
  [⟨⟨31, 0⟩, .rc, false⟩]⟩
/-- BQ_HOST (R174). -/
def spec_bqHost : RegSpec := ⟨.bqHost, 0x1042014, [(0x20, 0x80000), (0x10, 0x20)],
  [⟨⟨19, 0⟩, .wo, false⟩]⟩
/-- BD_CFG (R187). -/
def spec_bdCfg : RegSpec := ⟨.bdCfg, 0x2000000, [(0x4, 0x100000), (0x80, 0x40)],
  [⟨⟨5, 5⟩, .rw, false⟩, ⟨⟨4, 4⟩, .rw, true⟩, ⟨⟨2, 0⟩, .rw, false⟩]⟩
/-- BD_CLR_CODE (R183). -/
def spec_bdClrCode : RegSpec := ⟨.bdClrCode, 0x2000004, [(0x4, 0x100000), (0x80, 0x40)],
  [⟨⟨19, 0⟩, .rw, true⟩]⟩
/-- BD_SLEW (R178). -/
def spec_bdSlew : RegSpec := ⟨.bdSlew, 0x2000008, [(0x4, 0x100000), (0x80, 0x40)],
  [⟨⟨31, 16⟩, .rw, false⟩, ⟨⟨15, 0⟩, .rw, false⟩]⟩
/-- BD_OUT (R170). -/
def spec_bdOut : RegSpec := ⟨.bdOut, 0x200000C, [(0x4, 0x100000), (0x80, 0x40)],
  [⟨⟨19, 0⟩, .ro, false⟩]⟩
/-- BD_TARGET (R170). -/
def spec_bdTarget : RegSpec := ⟨.bdTarget, 0x2000010, [(0x4, 0x100000), (0x80, 0x40)],
  [⟨⟨19, 0⟩, .ro, false⟩]⟩
/-- BD_STS (R187). -/
def spec_bdSts : RegSpec := ⟨.bdSts, 0x2000014, [(0x4, 0x100000), (0x80, 0x40)],
  [⟨⟨11, 11⟩, .w1c, false⟩, ⟨⟨10, 10⟩, .w1c, false⟩, ⟨⟨9, 9⟩, .w1c, false⟩, ⟨⟨8, 8⟩, .w1c, false⟩, ⟨⟨7, 7⟩, .w1c, false⟩, ⟨⟨6, 6⟩, .ro, false⟩, ⟨⟨5, 3⟩, .ro, false⟩, ⟨⟨2, 0⟩, .ro, false⟩]⟩
/-- BD_COMP (R182). -/
def spec_bdComp : RegSpec := ⟨.bdComp, 0x2000018, [(0x4, 0x100000), (0x80, 0x40)],
  [⟨⟨31, 31⟩, .rw, false⟩, ⟨⟨30, 30⟩, .w1s, false⟩, ⟨⟨29, 28⟩, .rw, false⟩, ⟨⟨23, 16⟩, .rw, false⟩, ⟨⟨7, 0⟩, .rw, false⟩]⟩
/-- BD_MON (R182). -/
def spec_bdMon : RegSpec := ⟨.bdMon, 0x200001C, [(0x4, 0x100000), (0x80, 0x40)],
  [⟨⟨15, 0⟩, .ro, false⟩]⟩
/-- BD_GEN_CTL (R180). -/
def spec_bdGenCtl : RegSpec := ⟨.bdGenCtl, 0x2000020, [(0x4, 0x100000), (0x80, 0x40)],
  [⟨⟨31, 16⟩, .rw, false⟩, ⟨⟨2, 1⟩, .rw, false⟩, ⟨⟨0, 0⟩, .rw, false⟩]⟩
/-- BD_GEN_LOW (R180). -/
def spec_bdGenLow : RegSpec := ⟨.bdGenLow, 0x2000024, [(0x4, 0x100000), (0x80, 0x40)],
  [⟨⟨19, 0⟩, .rw, false⟩]⟩
/-- BD_GEN_HIGH (R180). -/
def spec_bdGenHigh : RegSpec := ⟨.bdGenHigh, 0x2000028, [(0x4, 0x100000), (0x80, 0x40)],
  [⟨⟨19, 0⟩, .rw, false⟩]⟩
/-- BD_GEN_STEP (R180). -/
def spec_bdGenStep : RegSpec := ⟨.bdGenStep, 0x200002C, [(0x4, 0x100000), (0x80, 0x40)],
  [⟨⟨19, 0⟩, .rw, false⟩]⟩
/-- BD_GEN_SEED (R180). -/
def spec_bdGenSeed : RegSpec := ⟨.bdGenSeed, 0x2000030, [(0x4, 0x100000), (0x80, 0x40)],
  [⟨⟨30, 0⟩, .rw, false⟩]⟩
/-- BQD_STS (R184). -/
def spec_bqdSts : RegSpec := ⟨.bqdSts, 0x2004000, [(0x4, 0x100000)],
  [⟨⟨1, 1⟩, .w1c, false⟩, ⟨⟨0, 0⟩, .ro, false⟩]⟩
/-- BQD_CLR_CNT (R184). -/
def spec_bqdClrCnt : RegSpec := ⟨.bqdClrCnt, 0x2004004, [(0x4, 0x100000)],
  [⟨⟨31, 0⟩, .rc, false⟩]⟩
/-- RI_CFG (R195). -/
def spec_riCfg : RegSpec := ⟨.riCfg, 0x1030000, [(0x20, 0x80000)],
  [⟨⟨0, 0⟩, .rw, true⟩]⟩
/-- RI_STS (R196). -/
def spec_riSts : RegSpec := ⟨.riSts, 0x1030004, [(0x20, 0x80000)],
  [⟨⟨1, 1⟩, .w1c, false⟩, ⟨⟨0, 0⟩, .w1c, false⟩]⟩
/-- RI_OVR_CNT (R196). -/
def spec_riOvrCnt : RegSpec := ⟨.riOvrCnt, 0x1030008, [(0x20, 0x80000)],
  [⟨⟨31, 0⟩, .rc, false⟩]⟩
/-- RI_DROP_CNT (R223). -/
def spec_riDropCnt : RegSpec := ⟨.riDropCnt, 0x103000C, [(0x20, 0x80000)],
  [⟨⟨31, 0⟩, .rc, false⟩]⟩
/-- RO_CHK (R207). -/
def spec_roChk : RegSpec := ⟨.roChk, 0x1030010, [(0x20, 0x80000)],
  [⟨⟨31, 31⟩, .w1c, false⟩, ⟨⟨19, 16⟩, .ro, false⟩, ⟨⟨6, 4⟩, .ro, false⟩, ⟨⟨3, 0⟩, .ro, false⟩]⟩
/-- PO_CFG (R193). -/
def spec_poCfg : RegSpec := ⟨.poCfg, 0x1030020, [(0x20, 0x80000)],
  [⟨⟨1, 0⟩, .rw, true⟩]⟩
/-- PO_STS (R193). -/
def spec_poSts : RegSpec := ⟨.poSts, 0x1030024, [(0x20, 0x80000)],
  [⟨⟨1, 1⟩, .ro, false⟩, ⟨⟨0, 0⟩, .w1c, false⟩]⟩
/-- PO_CLIP_CNT (R193). -/
def spec_poClipCnt : RegSpec := ⟨.poClipCnt, 0x1030028, [(0x20, 0x80000)],
  [⟨⟨31, 0⟩, .rc, false⟩]⟩
/-- RC_STS (R192). -/
def spec_rcSts : RegSpec := ⟨.rcSts, 0x1030040, [(0x20, 0x80000), (0x8, 0x10)],
  [⟨⟨31, 31⟩, .ro, false⟩, ⟨⟨30, 30⟩, .ro, false⟩, ⟨⟨21, 21⟩, .w1c, false⟩, ⟨⟨20, 20⟩, .w1c, false⟩, ⟨⟨19, 19⟩, .w1c, false⟩, ⟨⟨11, 0⟩, .ro, false⟩]⟩
/-- RC_JUMPS (R192). -/
def spec_rcJumps : RegSpec := ⟨.rcJumps, 0x1030044, [(0x20, 0x80000), (0x8, 0x10)],
  [⟨⟨31, 0⟩, .rc, false⟩]⟩
/-- RC_UNDER_CNT (R192). -/
def spec_rcUnderCnt : RegSpec := ⟨.rcUnderCnt, 0x1030048, [(0x20, 0x80000), (0x8, 0x10)],
  [⟨⟨31, 0⟩, .rc, false⟩]⟩
/-- RFS_FW_LO (R192). -/
def spec_rfsFwLo : RegSpec := ⟨.rfsFwLo, 0x1030400, [(0x20, 0x80000), (0x8, 0x80), (0x8, 0x10)],
  [⟨⟨31, 0⟩, .rw, false⟩]⟩
/-- RFS_FW_HI (R192). -/
def spec_rfsFwHi : RegSpec := ⟨.rfsFwHi, 0x1030404, [(0x20, 0x80000), (0x8, 0x80), (0x8, 0x10)],
  [⟨⟨15, 0⟩, .rw, false⟩]⟩
/-- RFS_PH_INIT (R192). -/
def spec_rfsPhInit : RegSpec := ⟨.rfsPhInit, 0x1030408, [(0x20, 0x80000), (0x8, 0x80), (0x8, 0x10)],
  [⟨⟨31, 0⟩, .rw, false⟩]⟩
/-- RFS_PH_WORK (R192). -/
def spec_rfsPhWork : RegSpec := ⟨.rfsPhWork, 0x103040C, [(0x20, 0x80000), (0x8, 0x80), (0x8, 0x10)],
  [⟨⟨31, 0⟩, .ro, false⟩]⟩
/-- LN_CFG (R221). -/
def spec_lnCfg : RegSpec := ⟨.lnCfg, 0x1031000, [(0x20, 0x80000), (0x8, 0x200)],
  [⟨⟨11, 0⟩, .rw, true⟩]⟩
/-- LN_STS (R207). -/
def spec_lnSts : RegSpec := ⟨.lnSts, 0x1031004, [(0x20, 0x80000), (0x8, 0x200)],
  [⟨⟨31, 16⟩, .ro, false⟩, ⟨⟨9, 9⟩, .ro, false⟩, ⟨⟨8, 8⟩, .ro, false⟩, ⟨⟨5, 5⟩, .w1c, false⟩, ⟨⟨4, 4⟩, .w1c, false⟩, ⟨⟨3, 3⟩, .w1c, false⟩, ⟨⟨2, 2⟩, .w1c, false⟩, ⟨⟨1, 1⟩, .w1c, false⟩, ⟨⟨0, 0⟩, .w1c, false⟩]⟩
/-- LN_RES_I (R224). -/
def spec_lnResI : RegSpec := ⟨.lnResI, 0x1031010, [(0x20, 0x80000), (0x8, 0x200)],
  [⟨⟨31, 0⟩, .ro, false⟩]⟩
/-- LN_RES_Q (R224). -/
def spec_lnResQ : RegSpec := ⟨.lnResQ, 0x1031014, [(0x20, 0x80000), (0x8, 0x200)],
  [⟨⟨31, 0⟩, .ro, false⟩]⟩
/-- LN_RES_META (R224). -/
def spec_lnResMeta : RegSpec := ⟨.lnResMeta, 0x1031018, [(0x20, 0x80000), (0x8, 0x200)],
  [⟨⟨31, 16⟩, .ro, false⟩, ⟨⟨15, 8⟩, .ro, false⟩, ⟨⟨7, 4⟩, .ro, false⟩, ⟨⟨1, 0⟩, .ro, false⟩]⟩
/-- LN_WIN_CNT (R204). -/
def spec_lnWinCnt : RegSpec := ⟨.lnWinCnt, 0x1031020, [(0x20, 0x80000), (0x8, 0x200)],
  [⟨⟨31, 0⟩, .rc, false⟩]⟩
/-- LN_REFUSED_CNT (R205). -/
def spec_lnRefusedCnt : RegSpec := ⟨.lnRefusedCnt, 0x1031024, [(0x20, 0x80000), (0x8, 0x200)],
  [⟨⟨31, 0⟩, .rc, false⟩]⟩
/-- LN_OVF_CNT (R202). -/
def spec_lnOvfCnt : RegSpec := ⟨.lnOvfCnt, 0x1031028, [(0x20, 0x80000), (0x8, 0x200)],
  [⟨⟨31, 0⟩, .rc, false⟩]⟩
/-- LN_PREEMPT_TICKS (R206). -/
def spec_lnPreemptTicks : RegSpec := ⟨.lnPreemptTicks, 0x103102C, [(0x20, 0x80000), (0x8, 0x200)],
  [⟨⟨31, 0⟩, .rc, false⟩]⟩
/-- TT_CTL (R220). -/
def spec_ttCtl : RegSpec := ⟨.ttCtl, 0x1031100, [(0x20, 0x80000), (0x8, 0x200)],
  [⟨⟨31, 31⟩, .rw, false⟩, ⟨⟨30, 30⟩, .w1s, false⟩, ⟨⟨26, 24⟩, .rw, false⟩, ⟨⟨20, 16⟩, .rw, false⟩, ⟨⟨15, 0⟩, .rw, false⟩]⟩
/-- TT_BASE_LO (R218). -/
def spec_ttBaseLo : RegSpec := ⟨.ttBaseLo, 0x1031104, [(0x20, 0x80000), (0x8, 0x200)],
  [⟨⟨31, 0⟩, .rw, false⟩]⟩
/-- TT_BASE_HI (R218). -/
def spec_ttBaseHi : RegSpec := ⟨.ttBaseHi, 0x1031108, [(0x20, 0x80000), (0x8, 0x200)],
  [⟨⟨15, 0⟩, .rw, false⟩]⟩
/-- TT_WIN (R218). -/
def spec_ttWin : RegSpec := ⟨.ttWin, 0x103110C, [(0x20, 0x80000), (0x8, 0x200)],
  [⟨⟨9, 0⟩, .rw, false⟩]⟩
/-- TT_PH_REF (R218). -/
def spec_ttPhRef : RegSpec := ⟨.ttPhRef, 0x1031110, [(0x20, 0x80000), (0x8, 0x200)],
  [⟨⟨15, 0⟩, .rw, false⟩]⟩
/-- TT_AMP_REF (R219). -/
def spec_ttAmpRef : RegSpec := ⟨.ttAmpRef, 0x1031114, [(0x20, 0x80000), (0x8, 0x200)],
  [⟨⟨31, 0⟩, .rw, false⟩]⟩
/-- TT_QLIM (R219). -/
def spec_ttQlim : RegSpec := ⟨.ttQlim, 0x1031118, [(0x20, 0x80000), (0x8, 0x200)],
  [⟨⟨7, 0⟩, .rw, false⟩]⟩
/-- TT_OFF (R218). -/
def spec_ttOff : RegSpec := ⟨.ttOff, 0x103111C, [(0x20, 0x80000), (0x8, 0x200)],
  [⟨⟨31, 0⟩, .ro, false⟩]⟩
/-- TT_STS (R218). -/
def spec_ttSts : RegSpec := ⟨.ttSts, 0x1031120, [(0x20, 0x80000), (0x8, 0x200)],
  [⟨⟨9, 9⟩, .w1c, false⟩, ⟨⟨8, 8⟩, .ro, false⟩, ⟨⟨7, 0⟩, .ro, false⟩]⟩
/-- TT_STEP_CNT (R218). -/
def spec_ttStepCnt : RegSpec := ⟨.ttStepCnt, 0x1031124, [(0x20, 0x80000), (0x8, 0x200)],
  [⟨⟨31, 0⟩, .rc, false⟩]⟩
/-- RS_A (R207). -/
def spec_rsA : RegSpec := ⟨.rsA, 0x1032000, [(0x20, 0x80000), (0x8, 0x100), (0x10, 0x10)],
  [⟨⟨31, 31⟩, .rw, false⟩, ⟨⟨30, 30⟩, .rw, false⟩, ⟨⟨29, 29⟩, .rw, false⟩, ⟨⟨28, 28⟩, .rw, false⟩, ⟨⟨27, 27⟩, .rw, false⟩, ⟨⟨26, 24⟩, .rw, false⟩, ⟨⟨22, 20⟩, .rw, false⟩, ⟨⟨19, 18⟩, .rw, false⟩, ⟨⟨12, 8⟩, .rw, false⟩]⟩
/-- RS_B (R201). -/
def spec_rsB : RegSpec := ⟨.rsB, 0x1032004, [(0x20, 0x80000), (0x8, 0x100), (0x10, 0x10)],
  [⟨⟨25, 16⟩, .rw, false⟩, ⟨⟨10, 0⟩, .rw, false⟩]⟩
/-- RS_C (R207). -/
def spec_rsC : RegSpec := ⟨.rsC, 0x1032008, [(0x20, 0x80000), (0x8, 0x100), (0x10, 0x10)],
  [⟨⟨15, 0⟩, .rw, false⟩]⟩
/-- RS_D (R199). -/
def spec_rsD : RegSpec := ⟨.rsD, 0x103200C, [(0x20, 0x80000), (0x8, 0x100), (0x10, 0x10)],
  [⟨⟨31, 0⟩, .rw, false⟩]⟩
/-- DB_CTL (R209). -/
def spec_dbCtl : RegSpec := ⟨.dbCtl, 0x1033000, [(0x20, 0x80000), (0x8, 0x200), (0x4, 0x80)],
  [⟨⟨31, 31⟩, .rw, false⟩, ⟨⟨30, 30⟩, .rw, false⟩, ⟨⟨12, 8⟩, .rw, false⟩, ⟨⟨7, 0⟩, .rw, false⟩]⟩
/-- DB_W (R209). -/
def spec_dbW : RegSpec := ⟨.dbW, 0x1033004, [(0x20, 0x80000), (0x8, 0x200), (0x4, 0x80), (0x2, 0x4)],
  [⟨⟨31, 16⟩, .rw, false⟩, ⟨⟨15, 0⟩, .rw, false⟩]⟩
/-- DB_TH (R209). -/
def spec_dbTh : RegSpec := ⟨.dbTh, 0x103300C, [(0x20, 0x80000), (0x8, 0x200), (0x4, 0x80), (0x2, 0x4)],
  [⟨⟨31, 0⟩, .rw, false⟩]⟩
/-- DB_REF (R214). -/
def spec_dbRef : RegSpec := ⟨.dbRef, 0x1033014, [(0x20, 0x80000), (0x8, 0x200), (0x4, 0x80), (0x2, 0x4)],
  [⟨⟨31, 0⟩, .rw, false⟩]⟩
/-- DB_LOOP (R216). -/
def spec_dbLoop : RegSpec := ⟨.dbLoop, 0x103301C, [(0x20, 0x80000), (0x8, 0x200), (0x4, 0x80)],
  [⟨⟨31, 31⟩, .rw, false⟩, ⟨⟨30, 30⟩, .w1s, false⟩, ⟨⟨20, 16⟩, .rw, false⟩, ⟨⟨15, 0⟩, .rw, false⟩]⟩
/-- DB_DRIFT (R214). -/
def spec_dbDrift : RegSpec := ⟨.dbDrift, 0x1033020, [(0x20, 0x80000), (0x8, 0x200), (0x4, 0x80)],
  [⟨⟨31, 0⟩, .rw, false⟩]⟩
/-- DB_STS (R215). -/
def spec_dbSts : RegSpec := ⟨.dbSts, 0x1033024, [(0x20, 0x80000), (0x8, 0x200), (0x4, 0x80)],
  [⟨⟨18, 18⟩, .w1c, false⟩, ⟨⟨17, 17⟩, .w1c, false⟩, ⟨⟨16, 16⟩, .ro, false⟩, ⟨⟨15, 0⟩, .ro, false⟩]⟩
/-- DB_UPD_CNT (R213). -/
def spec_dbUpdCnt : RegSpec := ⟨.dbUpdCnt, 0x1033028, [(0x20, 0x80000), (0x8, 0x200), (0x4, 0x80)],
  [⟨⟨31, 0⟩, .rc, false⟩]⟩
/-- DB_RECENTRE_CNT (R214). -/
def spec_dbRecentreCnt : RegSpec := ⟨.dbRecentreCnt, 0x103302C, [(0x20, 0x80000), (0x8, 0x200), (0x4, 0x80)],
  [⟨⟨31, 0⟩, .rc, false⟩]⟩
/-- DB_CENT_I (R213). -/
def spec_dbCentI : RegSpec := ⟨.dbCentI, 0x1033030, [(0x20, 0x80000), (0x8, 0x200), (0x4, 0x80), (0x3, 0x8)],
  [⟨⟨31, 0⟩, .rw, false⟩]⟩
/-- DB_CENT_Q (R213). -/
def spec_dbCentQ : RegSpec := ⟨.dbCentQ, 0x1033034, [(0x20, 0x80000), (0x8, 0x200), (0x4, 0x80), (0x3, 0x8)],
  [⟨⟨31, 0⟩, .rw, false⟩]⟩
/-- DB_SPREAD (R213). -/
def spec_dbSpread : RegSpec := ⟨.dbSpread, 0x1033048, [(0x20, 0x80000), (0x8, 0x200), (0x4, 0x80), (0x4, 0x4)],
  [⟨⟨31, 0⟩, .ro, false⟩]⟩
/-- RO_WEIGHT (R201). -/
def spec_roWeight : RegSpec := ⟨.roWeight, 0x1038000, [(0x20, 0x80000), (0x8, 0x1000), (0x400, 0x4)],
  [⟨⟨31, 0⟩, .rw, false⟩]⟩
/-- TRL_STS (R228). -/
def spec_trlSts : RegSpec := ⟨.trlSts, 0x3000000, [],
  [⟨⟨3, 3⟩, .w1c, false⟩, ⟨⟨2, 2⟩, .w1c, false⟩, ⟨⟨1, 1⟩, .w1c, false⟩, ⟨⟨0, 0⟩, .w1c, false⟩]⟩
/-- TRL_STALE_CNT (R228). -/
def spec_trlStaleCnt : RegSpec := ⟨.trlStaleCnt, 0x3000004, [],
  [⟨⟨31, 0⟩, .rc, false⟩]⟩
/-- TRL_REM_LATE_CNT (R245). -/
def spec_trlRemLateCnt : RegSpec := ⟨.trlRemLateCnt, 0x3000008, [],
  [⟨⟨31, 0⟩, .rc, false⟩]⟩
/-- TRL_REM_DROP_CNT (R245). -/
def spec_trlRemDropCnt : RegSpec := ⟨.trlRemDropCnt, 0x300000C, [],
  [⟨⟨31, 0⟩, .rc, false⟩]⟩
/-- TRL_CHK (R236). -/
def spec_trlChk : RegSpec := ⟨.trlChk, 0x3000010, [],
  [⟨⟨31, 31⟩, .w1c, false⟩, ⟨⟨27, 26⟩, .ro, false⟩, ⟨⟨19, 16⟩, .ro, false⟩, ⟨⟨8, 0⟩, .ro, false⟩]⟩
/-- TRL_COLLIDE_CNT (R229). -/
def spec_trlCollideCnt : RegSpec := ⟨.trlCollideCnt, 0x3000014, [],
  [⟨⟨31, 0⟩, .rc, false⟩]⟩
/-- TRL_SLOT (R225). -/
def spec_trlSlot : RegSpec := ⟨.trlSlot, 0x3001000, [(0x200, 0x4)],
  [⟨⟨31, 31⟩, .ro, false⟩, ⟨⟨23, 16⟩, .ro, false⟩, ⟨⟨15, 8⟩, .ro, false⟩, ⟨⟨1, 0⟩, .ro, false⟩]⟩
/-- PU_CFG (R236). -/
def spec_puCfg : RegSpec := ⟨.puCfg, 0x3002000, [(0x40, 0x10)],
  [⟨⟨31, 31⟩, .rw, true⟩, ⟨⟨30, 30⟩, .rw, true⟩, ⟨⟨23, 16⟩, .rw, true⟩, ⟨⟨15, 8⟩, .rw, true⟩]⟩
/-- PU_MASK_LO (R233). -/
def spec_puMaskLo : RegSpec := ⟨.puMaskLo, 0x3002004, [(0x40, 0x10)],
  [⟨⟨31, 0⟩, .rw, true⟩]⟩
/-- PU_MASK_HI (R233). -/
def spec_puMaskHi : RegSpec := ⟨.puMaskHi, 0x3002008, [(0x40, 0x10)],
  [⟨⟨31, 0⟩, .rw, true⟩]⟩
/-- PU_STS (R234). -/
def spec_puSts : RegSpec := ⟨.puSts, 0x300200C, [(0x40, 0x10)],
  [⟨⟨31, 31⟩, .ro, false⟩, ⟨⟨6, 1⟩, .ro, false⟩]⟩
/-- RM_CFG (R245). -/
def spec_rmCfg : RegSpec := ⟨.rmCfg, 0x3003000, [(0xC0, 0x8)],
  [⟨⟨31, 31⟩, .rw, true⟩, ⟨⟨30, 28⟩, .rw, true⟩, ⟨⟨27, 24⟩, .rw, true⟩, ⟨⟨20, 12⟩, .rw, true⟩, ⟨⟨7, 0⟩, .rw, true⟩]⟩
/-- RM_STS (R245). -/
def spec_rmSts : RegSpec := ⟨.rmSts, 0x3003004, [(0xC0, 0x8)],
  [⟨⟨1, 1⟩, .w1c, false⟩, ⟨⟨0, 0⟩, .w1c, false⟩]⟩
/-- EXP (R244). -/
def spec_exp : RegSpec := ⟨.exp, 0x3004000, [(0x140, 0x4)],
  [⟨⟨31, 31⟩, .rw, true⟩, ⟨⟨3, 0⟩, .rw, true⟩]⟩
/-- KB (R240). -/
def spec_kb : RegSpec := ⟨.kb, 0x1060000, [(0x20, 0x80000), (0x8, 0x10), (0x4, 0x4)],
  [⟨⟨31, 31⟩, .rw, true⟩, ⟨⟨30, 30⟩, .rw, true⟩, ⟨⟨29, 29⟩, .rw, true⟩, ⟨⟨23, 16⟩, .rw, true⟩, ⟨⟨8, 0⟩, .rw, true⟩]⟩
/-- TP_STS (R241). -/
def spec_tpSts : RegSpec := ⟨.tpSts, 0x1060100, [(0x20, 0x80000)],
  [⟨⟨1, 1⟩, .w1c, false⟩, ⟨⟨0, 0⟩, .w1c, false⟩]⟩
/-- TP_LATE_DEC_CNT (R241). -/
def spec_tpLateDecCnt : RegSpec := ⟨.tpLateDecCnt, 0x1060104, [(0x20, 0x80000)],
  [⟨⟨31, 0⟩, .rc, false⟩]⟩
/-- TP_SUPERSEDED_CNT (R241). -/
def spec_tpSupersededCnt : RegSpec := ⟨.tpSupersededCnt, 0x1060108, [(0x20, 0x80000)],
  [⟨⟨31, 0⟩, .rc, false⟩]⟩
/-- TP_SELECT_CNT (R242). -/
def spec_tpSelectCnt : RegSpec := ⟨.tpSelectCnt, 0x106010C, [(0x20, 0x80000)],
  [⟨⟨31, 0⟩, .rc, false⟩]⟩
/-- TP_FALLBACK_CNT (R242). -/
def spec_tpFallbackCnt : RegSpec := ⟨.tpFallbackCnt, 0x1060110, [(0x20, 0x80000)],
  [⟨⟨31, 0⟩, .rc, false⟩]⟩
/-- TP_LAST_SEL (R242). -/
def spec_tpLastSel : RegSpec := ⟨.tpLastSel, 0x1060114, [(0x20, 0x80000)],
  [⟨⟨29, 24⟩, .ro, false⟩, ⟨⟨19, 16⟩, .ro, false⟩, ⟨⟨15, 12⟩, .ro, false⟩, ⟨⟨8, 8⟩, .ro, false⟩, ⟨⟨1, 1⟩, .ro, false⟩, ⟨⟨0, 0⟩, .ro, false⟩]⟩
/-- TP_CHK (R240). -/
def spec_tpChk : RegSpec := ⟨.tpChk, 0x1060118, [(0x20, 0x80000)],
  [⟨⟨31, 31⟩, .w1c, false⟩, ⟨⟨19, 16⟩, .ro, false⟩, ⟨⟨6, 4⟩, .ro, false⟩, ⟨⟨1, 0⟩, .ro, false⟩]⟩
/-- KL_ID (R290). -/
def spec_klId : RegSpec := ⟨.klId, 0x500000, [],
  [⟨⟨31, 24⟩, .rw, true⟩, ⟨⟨7, 4⟩, .rw, true⟩]⟩
/-- KL_GSTS (R272). -/
def spec_klGsts : RegSpec := ⟨.klGsts, 0x500004, [],
  [⟨⟨31, 24⟩, .ro, false⟩, ⟨⟨23, 16⟩, .ro, false⟩, ⟨⟨15, 8⟩, .ro, false⟩, ⟨⟨0, 0⟩, .w1c, false⟩]⟩
/-- KL_FWD_DROP_CNT (R272). -/
def spec_klFwdDropCnt : RegSpec := ⟨.klFwdDropCnt, 0x500008, [],
  [⟨⟨31, 0⟩, .rc, false⟩]⟩
/-- KL_CHK (R273). -/
def spec_klChk : RegSpec := ⟨.klChk, 0x50000C, [],
  [⟨⟨31, 31⟩, .w1c, false⟩, ⟨⟨20, 20⟩, .ro, false⟩, ⟨⟨19, 16⟩, .ro, false⟩, ⟨⟨3, 0⟩, .ro, false⟩]⟩
/-- KL_ROUTE_A (R273). -/
def spec_klRouteA : RegSpec := ⟨.klRouteA, 0x500100, [(0x10, 0x8)],
  [⟨⟨31, 31⟩, .rw, true⟩, ⟨⟨15, 0⟩, .rw, true⟩]⟩
/-- KL_ROUTE_B (R271). -/
def spec_klRouteB : RegSpec := ⟨.klRouteB, 0x500104, [(0x10, 0x8)],
  [⟨⟨15, 0⟩, .rw, true⟩]⟩
/-- KL_FWD (R272). -/
def spec_klFwd : RegSpec := ⟨.klFwd, 0x500200, [(0x10, 0x4)],
  [⟨⟨31, 31⟩, .rw, true⟩, ⟨⟨2, 0⟩, .rw, true⟩]⟩
/-- KL_TT_CFG (R277). -/
def spec_klTtCfg : RegSpec := ⟨.klTtCfg, 0x500300, [],
  [⟨⟨31, 31⟩, .rw, true⟩, ⟨⟨30, 30⟩, .rw, true⟩, ⟨⟨26, 24⟩, .rw, true⟩, ⟨⟨20, 16⟩, .rw, false⟩, ⟨⟨15, 0⟩, .rw, false⟩]⟩
/-- KL_TT_STS (R279). -/
def spec_klTtSts : RegSpec := ⟨.klTtSts, 0x500304, [],
  [⟨⟨31, 31⟩, .w1c, false⟩, ⟨⟨30, 30⟩, .w1c, false⟩, ⟨⟨29, 29⟩, .w1c, false⟩, ⟨⟨26, 24⟩, .ro, false⟩, ⟨⟨1, 0⟩, .ro, false⟩]⟩
/-- KL_TT_ERR (R278). -/
def spec_klTtErr : RegSpec := ⟨.klTtErr, 0x500308, [],
  [⟨⟨15, 0⟩, .ro, false⟩]⟩
/-- KL_TT_TRIM (R279). -/
def spec_klTtTrim : RegSpec := ⟨.klTtTrim, 0x50030C, [],
  [⟨⟨8, 0⟩, .ro, false⟩]⟩
/-- KL_TT_ASYM (R278). -/
def spec_klTtAsym : RegSpec := ⟨.klTtAsym, 0x500310, [],
  [⟨⟨15, 0⟩, .rw, false⟩]⟩
/-- KL_PAIR_CTL (R282). -/
def spec_klPairCtl : RegSpec := ⟨.klPairCtl, 0x500400, [],
  [⟨⟨31, 31⟩, .rw, true⟩, ⟨⟨30, 30⟩, .rw, true⟩, ⟨⟨29, 29⟩, .rw, true⟩, ⟨⟨28, 28⟩, .w1s, false⟩, ⟨⟨27, 27⟩, .w1s, false⟩, ⟨⟨7, 0⟩, .rw, true⟩]⟩
/-- KL_PAIR_STS (R286). -/
def spec_klPairSts : RegSpec := ⟨.klPairSts, 0x500404, [],
  [⟨⟨11, 11⟩, .w1c, false⟩, ⟨⟨10, 10⟩, .w1c, false⟩, ⟨⟨9, 9⟩, .w1c, false⟩, ⟨⟨8, 8⟩, .w1c, false⟩, ⟨⟨7, 7⟩, .ro, false⟩, ⟨⟨6, 6⟩, .ro, false⟩, ⟨⟨5, 5⟩, .ro, false⟩, ⟨⟨4, 4⟩, .ro, false⟩, ⟨⟨3, 2⟩, .ro, false⟩]⟩
/-- KL_TAKEOVER_LO (R287). -/
def spec_klTakeoverLo : RegSpec := ⟨.klTakeoverLo, 0x500408, [],
  [⟨⟨31, 0⟩, .ro, false⟩]⟩
/-- KL_TAKEOVER_HI (R287). -/
def spec_klTakeoverHi : RegSpec := ⟨.klTakeoverHi, 0x50040C, [],
  [⟨⟨31, 0⟩, .ro, false⟩]⟩
/-- KL_COORD (R283). -/
def spec_klCoord : RegSpec := ⟨.klCoord, 0x500500, [(0x8, 0x8)],
  [⟨⟨31, 31⟩, .rw, true⟩, ⟨⟨15, 0⟩, .rw, true⟩]⟩
/-- KL_COORD_STS (R283). -/
def spec_klCoordSts : RegSpec := ⟨.klCoordSts, 0x500504, [(0x8, 0x8)],
  [⟨⟨17, 17⟩, .w1c, false⟩, ⟨⟨16, 16⟩, .w1c, false⟩]⟩
/-- KL_CTL (R258). -/
def spec_klCtl : RegSpec := ⟨.klCtl, 0x501000, [(0x8, 0x1000)],
  [⟨⟨31, 31⟩, .rw, true⟩, ⟨⟨30, 30⟩, .rw, false⟩, ⟨⟨29, 29⟩, .rw, false⟩, ⟨⟨28, 28⟩, .w1s, false⟩, ⟨⟨27, 27⟩, .rw, false⟩, ⟨⟨3, 0⟩, .rw, true⟩]⟩
/-- KL_STS (R257). -/
def spec_klSts : RegSpec := ⟨.klSts, 0x501004, [(0x8, 0x1000)],
  [⟨⟨31, 28⟩, .ro, false⟩, ⟨⟨27, 25⟩, .ro, false⟩, ⟨⟨24, 21⟩, .ro, false⟩, ⟨⟨20, 17⟩, .ro, false⟩, ⟨⟨16, 13⟩, .ro, false⟩, ⟨⟨12, 10⟩, .ro, false⟩, ⟨⟨2, 0⟩, .ro, false⟩]⟩
/-- KL_FILL (R256). -/
def spec_klFill : RegSpec := ⟨.klFill, 0x501008, [(0x8, 0x1000)],
  [⟨⟨10, 0⟩, .rw, true⟩]⟩
/-- KL_MARGIN (R274). -/
def spec_klMargin : RegSpec := ⟨.klMargin, 0x50100C, [(0x8, 0x1000)],
  [⟨⟨15, 0⟩, .rc, false⟩]⟩
/-- KL_DEC_CRC_CNT (R264). -/
def spec_klDecCrcCnt : RegSpec := ⟨.klDecCrcCnt, 0x501020, [(0x8, 0x1000)],
  [⟨⟨31, 0⟩, .rc, false⟩]⟩
/-- KL_BULK_CRC_CNT (R264). -/
def spec_klBulkCrcCnt : RegSpec := ⟨.klBulkCrcCnt, 0x501024, [(0x8, 0x1000)],
  [⟨⟨31, 0⟩, .rc, false⟩]⟩
/-- KL_REPLAY_CNT (R263). -/
def spec_klReplayCnt : RegSpec := ⟨.klReplayCnt, 0x501028, [(0x8, 0x1000)],
  [⟨⟨31, 0⟩, .rc, false⟩]⟩
/-- KL_DUP_CNT (R265). -/
def spec_klDupCnt : RegSpec := ⟨.klDupCnt, 0x50102C, [(0x8, 0x1000)],
  [⟨⟨31, 0⟩, .rc, false⟩]⟩
/-- KL_GAP_CNT (R265). -/
def spec_klGapCnt : RegSpec := ⟨.klGapCnt, 0x501030, [(0x8, 0x1000)],
  [⟨⟨31, 0⟩, .rc, false⟩]⟩
/-- KL_TRAIN_FAIL_CNT (R259). -/
def spec_klTrainFailCnt : RegSpec := ⟨.klTrainFailCnt, 0x501034, [(0x8, 0x1000)],
  [⟨⟨31, 0⟩, .rc, false⟩]⟩
/-- KL_DEGRADE_CNT (R276). -/
def spec_klDegradeCnt : RegSpec := ⟨.klDegradeCnt, 0x501038, [(0x8, 0x1000)],
  [⟨⟨31, 0⟩, .rc, false⟩]⟩
/-- KL_FILL_INS_CNT (R256). -/
def spec_klFillInsCnt : RegSpec := ⟨.klFillInsCnt, 0x50103C, [(0x8, 0x1000)],
  [⟨⟨31, 0⟩, .rc, false⟩]⟩
/-- KL_FILL_DEL_CNT (R256). -/
def spec_klFillDelCnt : RegSpec := ⟨.klFillDelCnt, 0x501040, [(0x8, 0x1000)],
  [⟨⟨31, 0⟩, .rc, false⟩]⟩
/-- KL_TX_DEC_CNT (R266). -/
def spec_klTxDecCnt : RegSpec := ⟨.klTxDecCnt, 0x501044, [(0x8, 0x1000)],
  [⟨⟨31, 0⟩, .rc, false⟩]⟩
/-- KL_RX_DEC_CNT (R266). -/
def spec_klRxDecCnt : RegSpec := ⟨.klRxDecCnt, 0x501048, [(0x8, 0x1000)],
  [⟨⟨31, 0⟩, .rc, false⟩]⟩
/-- KL_LN_CTL (R251). -/
def spec_klLnCtl : RegSpec := ⟨.klLnCtl, 0x501400, [(0x8, 0x1000), (0x4, 0x40)],
  [⟨⟨31, 31⟩, .rw, false⟩, ⟨⟨30, 30⟩, .rw, false⟩, ⟨⟨29, 28⟩, .rw, false⟩, ⟨⟨27, 27⟩, .w1s, false⟩, ⟨⟨26, 24⟩, .rw, false⟩, ⟨⟨23, 23⟩, .w1s, false⟩, ⟨⟨22, 22⟩, .rw, false⟩, ⟨⟨21, 21⟩, .rw, true⟩, ⟨⟨20, 20⟩, .rw, false⟩]⟩
/-- KL_LN_STS (R253). -/
def spec_klLnSts : RegSpec := ⟨.klLnSts, 0x501404, [(0x8, 0x1000), (0x4, 0x40)],
  [⟨⟨31, 31⟩, .ro, false⟩, ⟨⟨30, 30⟩, .ro, false⟩, ⟨⟨29, 29⟩, .ro, false⟩, ⟨⟨28, 28⟩, .ro, false⟩, ⟨⟨27, 27⟩, .ro, false⟩, ⟨⟨26, 26⟩, .ro, false⟩, ⟨⟨23, 16⟩, .ro, false⟩]⟩
/-- KL_LN_EQ (R250). -/
def spec_klLnEq : RegSpec := ⟨.klLnEq, 0x501408, [(0x8, 0x1000), (0x4, 0x40)],
  [⟨⟨31, 24⟩, .ro, false⟩, ⟨⟨23, 16⟩, .ro, false⟩, ⟨⟨15, 8⟩, .ro, false⟩, ⟨⟨7, 0⟩, .ro, false⟩]⟩
/-- KL_LN_PRBS_ERR (R251). -/
def spec_klLnPrbsErr : RegSpec := ⟨.klLnPrbsErr, 0x50140C, [(0x8, 0x1000), (0x4, 0x40)],
  [⟨⟨31, 0⟩, .rc, false⟩]⟩
/-- KL_LN_HDR_ERR (R253). -/
def spec_klLnHdrErr : RegSpec := ⟨.klLnHdrErr, 0x501410, [(0x8, 0x1000), (0x4, 0x40)],
  [⟨⟨31, 0⟩, .rc, false⟩]⟩
/-- CFG_STS (R307). -/
def spec_cfgSts : RegSpec := ⟨.cfgSts, 0x600000, [],
  [⟨⟨23, 16⟩, .ro, false⟩, ⟨⟨15, 12⟩, .ro, false⟩, ⟨⟨11, 8⟩, .ro, false⟩, ⟨⟨7, 7⟩, .w1c, false⟩, ⟨⟨6, 6⟩, .w1c, false⟩, ⟨⟨2, 0⟩, .ro, false⟩]⟩
/-- IMG_FALLBACK (R300). -/
def spec_imgFallback : RegSpec := ⟨.imgFallback, 0x600004, [],
  [⟨⟨19, 16⟩, .ro, false⟩, ⟨⟨11, 8⟩, .ro, false⟩, ⟨⟨7, 4⟩, .ro, false⟩, ⟨⟨3, 3⟩, .ro, false⟩, ⟨⟨1, 0⟩, .ro, false⟩]⟩
/-- IMG_BUILD_LO (R13). -/
def spec_imgBuildLo : RegSpec := ⟨.imgBuildLo, 0x600008, [],
  [⟨⟨31, 0⟩, .ro, false⟩]⟩
/-- IMG_BUILD_HI (R13). -/
def spec_imgBuildHi : RegSpec := ⟨.imgBuildHi, 0x60000C, [],
  [⟨⟨31, 0⟩, .ro, false⟩]⟩
/-- CFG_CTL (R307). -/
def spec_cfgCtl : RegSpec := ⟨.cfgCtl, 0x600010, [],
  [⟨⟨4, 4⟩, .rws, false⟩, ⟨⟨3, 3⟩, .w1s, false⟩, ⟨⟨2, 2⟩, .w1s, false⟩, ⟨⟨1, 1⟩, .w1s, false⟩, ⟨⟨0, 0⟩, .w1s, false⟩]⟩
/-- CFG_STAGE_LO (R306). -/
def spec_cfgStageLo : RegSpec := ⟨.cfgStageLo, 0x600014, [],
  [⟨⟨31, 6⟩, .rw, false⟩]⟩
/-- CFG_STAGE_HI (R306). -/
def spec_cfgStageHi : RegSpec := ⟨.cfgStageHi, 0x600018, [],
  [⟨⟨31, 0⟩, .rw, false⟩]⟩
/-- CFG_STAGE_LEN (R306). -/
def spec_cfgStageLen : RegSpec := ⟨.cfgStageLen, 0x60001C, [],
  [⟨⟨28, 0⟩, .rw, false⟩]⟩
/-- CFG_PART_P (R308). -/
def spec_cfgPartP : RegSpec := ⟨.cfgPartP, 0x600020, [],
  [⟨⟨31, 0⟩, .ro, false⟩]⟩
/-- CFG_PART_CNT (R311). -/
def spec_cfgPartCnt : RegSpec := ⟨.cfgPartCnt, 0x600024, [],
  [⟨⟨31, 0⟩, .rc, false⟩]⟩
/-- HEN_STS (R321). -/
def spec_henSts : RegSpec := ⟨.henSts, 0x600030, [],
  [⟨⟨31, 16⟩, .ro, false⟩, ⟨⟨4, 4⟩, .w1c, false⟩, ⟨⟨3, 3⟩, .ro, false⟩, ⟨⟨2, 2⟩, .ro, false⟩, ⟨⟨1, 0⟩, .ro, false⟩]⟩
/-- HEN_CTL (R321). -/
def spec_henCtl : RegSpec := ⟨.henCtl, 0x600034, [],
  [⟨⟨1, 1⟩, .w1s, false⟩, ⟨⟨0, 0⟩, .w1s, false⟩]⟩
/-- CFG_FLASH_CTL (R322). -/
def spec_cfgFlashCtl : RegSpec := ⟨.cfgFlashCtl, 0x600038, [],
  [⟨⟨1, 1⟩, .rw, false⟩, ⟨⟨0, 0⟩, .w1s, false⟩]⟩
/-- CFG_FLASH_STS (R322). -/
def spec_cfgFlashSts : RegSpec := ⟨.cfgFlashSts, 0x60003C, [],
  [⟨⟨7, 4⟩, .ro, false⟩, ⟨⟨3, 3⟩, .w1c, false⟩, ⟨⟨2, 0⟩, .ro, false⟩]⟩
/-- TILE_STS (R309). -/
def spec_tileSts : RegSpec := ⟨.tileSts, 0x1000000, [(0x20, 0x80000)],
  [⟨⟨11, 11⟩, .ro, false⟩, ⟨⟨10, 10⟩, .ro, false⟩, ⟨⟨9, 9⟩, .ro, false⟩, ⟨⟨8, 8⟩, .ro, false⟩, ⟨⟨2, 0⟩, .ro, false⟩]⟩
/-- TILE_XB (R314). -/
def spec_tileXb : RegSpec := ⟨.tileXb, 0x1000100, [(0x20, 0x80000), (0x20, 0x4)],
  [⟨⟨5, 0⟩, .rw, true⟩]⟩
/-- TILE_BAR_LO (R315). -/
def spec_tileBarLo : RegSpec := ⟨.tileBarLo, 0x1000200, [(0x20, 0x80000), (0x10, 0x8)],
  [⟨⟨31, 0⟩, .rw, true⟩]⟩
/-- TILE_BAR_HI (R315). -/
def spec_tileBarHi : RegSpec := ⟨.tileBarHi, 0x1000204, [(0x20, 0x80000), (0x10, 0x8)],
  [⟨⟨1, 0⟩, .rw, true⟩]⟩
/-- TILE_PLACE_CTL (R317). -/
def spec_tilePlaceCtl : RegSpec := ⟨.tilePlaceCtl, 0x1000300, [(0x20, 0x80000)],
  [⟨⟨31, 31⟩, .rw, true⟩, ⟨⟨30, 30⟩, .rw, false⟩, ⟨⟨7, 0⟩, .rw, true⟩]⟩
/-- TILE_PLACE_STS (R318). -/
def spec_tilePlaceSts : RegSpec := ⟨.tilePlaceSts, 0x1000304, [(0x20, 0x80000)],
  [⟨⟨29, 24⟩, .ro, false⟩, ⟨⟨21, 16⟩, .ro, false⟩, ⟨⟨8, 8⟩, .w1c, false⟩, ⟨⟨7, 7⟩, .ro, false⟩, ⟨⟨6, 6⟩, .w1c, false⟩, ⟨⟨1, 0⟩, .ro, false⟩]⟩
/-- TILE_FAIL_LO (R316). -/
def spec_tileFailLo : RegSpec := ⟨.tileFailLo, 0x1000308, [(0x20, 0x80000)],
  [⟨⟨31, 0⟩, .ro, false⟩]⟩
/-- TILE_FAIL_HI (R316). -/
def spec_tileFailHi : RegSpec := ⟨.tileFailHi, 0x100030C, [(0x20, 0x80000)],
  [⟨⟨1, 0⟩, .ro, false⟩]⟩
/-- TILE_PLACE_CNT (R318). -/
def spec_tilePlaceCnt : RegSpec := ⟨.tilePlaceCnt, 0x1000310, [(0x20, 0x80000)],
  [⟨⟨31, 0⟩, .rc, false⟩]⟩
/-- WL_STS (R339). -/
def spec_wlSts : RegSpec := ⟨.wlSts, 0x100000, [],
  [⟨⟨11, 11⟩, .w1c, false⟩, ⟨⟨10, 10⟩, .w1c, false⟩, ⟨⟨9, 9⟩, .ro, false⟩, ⟨⟨8, 8⟩, .ro, false⟩, ⟨⟨7, 7⟩, .ro, false⟩, ⟨⟨6, 6⟩, .ro, false⟩, ⟨⟨5, 3⟩, .ro, false⟩, ⟨⟨2, 0⟩, .ro, false⟩]⟩
/-- WL_CMD (R339). -/
def spec_wlCmd : RegSpec := ⟨.wlCmd, 0x100004, [],
  [⟨⟨31, 31⟩, .w1s, false⟩, ⟨⟨7, 0⟩, .rw, false⟩]⟩
/-- WL_CMD_STS (R339). -/
def spec_wlCmdSts : RegSpec := ⟨.wlCmdSts, 0x100008, [],
  [⟨⟨7, 0⟩, .ro, false⟩]⟩
/-- WL_FUSE_REM (R327). -/
def spec_wlFuseRem : RegSpec := ⟨.wlFuseRem, 0x10000C, [],
  [⟨⟨23, 16⟩, .ro, false⟩, ⟨⟨10, 8⟩, .ro, false⟩, ⟨⟨7, 4⟩, .ro, false⟩, ⟨⟨3, 0⟩, .ro, false⟩]⟩
/-- WL_ARB (R338). -/
def spec_wlArb : RegSpec := ⟨.wlArb, 0x100010, [],
  [⟨⟨31, 31⟩, .w1s, false⟩, ⟨⟨15, 8⟩, .ro, false⟩, ⟨⟨7, 0⟩, .ro, false⟩]⟩
/-- WL_NONCE (R339). -/
def spec_wlNonce : RegSpec := ⟨.wlNonce, 0x100020, [(0xC, 0x4)],
  [⟨⟨31, 0⟩, .ro, false⟩]⟩
/-- WL_CSEQ_IN_LO (R344). -/
def spec_wlCseqInLo : RegSpec := ⟨.wlCseqInLo, 0x100100, [(0x8, 0x20)],
  [⟨⟨31, 0⟩, .ro, false⟩]⟩
/-- WL_CSEQ_IN_HI (R344). -/
def spec_wlCseqInHi : RegSpec := ⟨.wlCseqInHi, 0x100104, [(0x8, 0x20)],
  [⟨⟨31, 0⟩, .ro, false⟩]⟩
/-- WL_PLOT_STS (R333). -/
def spec_wlPlotSts : RegSpec := ⟨.wlPlotSts, 0x100108, [(0x8, 0x20)],
  [⟨⟨16, 16⟩, .w1c, false⟩, ⟨⟨8, 8⟩, .ro, false⟩, ⟨⟨7, 0⟩, .ro, false⟩]⟩
/-- WL_BATCH_CFG (R346). -/
def spec_wlBatchCfg : RegSpec := ⟨.wlBatchCfg, 0x10010C, [(0x8, 0x20)],
  [⟨⟨31, 31⟩, .rw, false⟩, ⟨⟨30, 30⟩, .rw, false⟩, ⟨⟨27, 16⟩, .rw, false⟩, ⟨⟨15, 0⟩, .rw, false⟩]⟩
/-- WL_BATCH_NUM (R347). -/
def spec_wlBatchNum : RegSpec := ⟨.wlBatchNum, 0x100110, [(0x8, 0x20)],
  [⟨⟨31, 0⟩, .ro, false⟩]⟩
/-- WL_AUTH_FAIL_CNT (R344). -/
def spec_wlAuthFailCnt : RegSpec := ⟨.wlAuthFailCnt, 0x100114, [(0x8, 0x20)],
  [⟨⟨31, 0⟩, .rc, false⟩]⟩
/-- WL_SIGN_SKIP_CNT (R349). -/
def spec_wlSignSkipCnt : RegSpec := ⟨.wlSignSkipCnt, 0x100118, [(0x8, 0x20)],
  [⟨⟨31, 0⟩, .rc, false⟩]⟩
/-- WL_BUF (R339). -/
def spec_wlBuf : RegSpec := ⟨.wlBuf, 0x101000, [(0x400, 0x4)],
  [⟨⟨31, 0⟩, .rw, false⟩]⟩
/-- CMD_BASE_LO (R358). -/
def spec_cmdBaseLo : RegSpec := ⟨.cmdBaseLo, 0x10000000, [(0x8, 0x2000)],
  [⟨⟨31, 12⟩, .rw, false⟩]⟩
/-- CMD_BASE_HI (R358). -/
def spec_cmdBaseHi : RegSpec := ⟨.cmdBaseHi, 0x10000004, [(0x8, 0x2000)],
  [⟨⟨31, 0⟩, .rw, false⟩]⟩
/-- CMD_CFG (R360). -/
def spec_cmdCfg : RegSpec := ⟨.cmdCfg, 0x10000008, [(0x8, 0x2000)],
  [⟨⟨31, 31⟩, .rw, false⟩, ⟨⟨4, 0⟩, .rw, false⟩]⟩
/-- CMD_PROD (R359). -/
def spec_cmdProd : RegSpec := ⟨.cmdProd, 0x1000000C, [(0x8, 0x2000)],
  [⟨⟨31, 0⟩, .rw, false⟩]⟩
/-- CMD_CONS (R358). -/
def spec_cmdCons : RegSpec := ⟨.cmdCons, 0x10000010, [(0x8, 0x2000)],
  [⟨⟨31, 0⟩, .ro, false⟩]⟩
/-- CMD_STS (R363). -/
def spec_cmdSts : RegSpec := ⟨.cmdSts, 0x10000014, [(0x8, 0x2000)],
  [⟨⟨15, 8⟩, .ro, false⟩, ⟨⟨1, 0⟩, .ro, false⟩]⟩
/-- CMD_CTL (R363). -/
def spec_cmdCtl : RegSpec := ⟨.cmdCtl, 0x10000018, [(0x8, 0x2000)],
  [⟨⟨0, 0⟩, .w1s, false⟩]⟩
/-- RSP_BASE_LO (R358). -/
def spec_rspBaseLo : RegSpec := ⟨.rspBaseLo, 0x10000020, [(0x8, 0x2000)],
  [⟨⟨31, 12⟩, .rw, false⟩]⟩
/-- RSP_BASE_HI (R358). -/
def spec_rspBaseHi : RegSpec := ⟨.rspBaseHi, 0x10000024, [(0x8, 0x2000)],
  [⟨⟨31, 0⟩, .rw, false⟩]⟩
/-- RSP_CFG (R360). -/
def spec_rspCfg : RegSpec := ⟨.rspCfg, 0x10000028, [(0x8, 0x2000)],
  [⟨⟨31, 31⟩, .rw, false⟩, ⟨⟨4, 0⟩, .rw, false⟩]⟩
/-- RSP_PROD (R358). -/
def spec_rspProd : RegSpec := ⟨.rspProd, 0x1000002C, [(0x8, 0x2000)],
  [⟨⟨31, 0⟩, .ro, false⟩]⟩
/-- RSP_CONS (R359). -/
def spec_rspCons : RegSpec := ⟨.rspCons, 0x10000030, [(0x8, 0x2000)],
  [⟨⟨31, 0⟩, .rw, false⟩]⟩
/-- RR_BASE_LO (R358). -/
def spec_rrBaseLo : RegSpec := ⟨.rrBaseLo, 0x10000040, [(0x8, 0x2000)],
  [⟨⟨31, 12⟩, .rw, false⟩]⟩
/-- RR_BASE_HI (R358). -/
def spec_rrBaseHi : RegSpec := ⟨.rrBaseHi, 0x10000044, [(0x8, 0x2000)],
  [⟨⟨31, 0⟩, .rw, false⟩]⟩
/-- RR_CFG (R360). -/
def spec_rrCfg : RegSpec := ⟨.rrCfg, 0x10000048, [(0x8, 0x2000)],
  [⟨⟨31, 31⟩, .rw, false⟩, ⟨⟨4, 0⟩, .rw, false⟩]⟩
/-- RR_PROD (R358). -/
def spec_rrProd : RegSpec := ⟨.rrProd, 0x1000004C, [(0x8, 0x2000)],
  [⟨⟨31, 0⟩, .ro, false⟩]⟩
/-- RR_CONS (R359). -/
def spec_rrCons : RegSpec := ⟨.rrCons, 0x10000050, [(0x8, 0x2000)],
  [⟨⟨31, 0⟩, .rw, false⟩]⟩
/-- RR_IRQ (R379). -/
def spec_rrIrq : RegSpec := ⟨.rrIrq, 0x10000054, [(0x8, 0x2000)],
  [⟨⟨31, 31⟩, .rw, false⟩, ⟨⟨27, 16⟩, .rw, false⟩, ⟨⟨15, 0⟩, .rw, false⟩]⟩
/-- RR_SHOT_DROP_CNT (R372). -/
def spec_rrShotDropCnt : RegSpec := ⟨.rrShotDropCnt, 0x10000058, [(0x8, 0x2000)],
  [⟨⟨31, 0⟩, .rc, false⟩]⟩
/-- WB_LO (R361). -/
def spec_wbLo : RegSpec := ⟨.wbLo, 0x10000060, [(0x8, 0x2000)],
  [⟨⟨31, 6⟩, .rw, false⟩, ⟨⟨0, 0⟩, .rw, false⟩]⟩
/-- WB_HI (R361). -/
def spec_wbHi : RegSpec := ⟨.wbHi, 0x10000064, [(0x8, 0x2000)],
  [⟨⟨31, 0⟩, .rw, false⟩]⟩
/-- PG_ALERT (R372). -/
def spec_pgAlert : RegSpec := ⟨.pgAlert, 0x10000070, [(0x8, 0x2000)],
  [⟨⟨4, 4⟩, .w1c, false⟩, ⟨⟨3, 3⟩, .w1c, false⟩, ⟨⟨2, 2⟩, .w1c, false⟩, ⟨⟨1, 1⟩, .w1c, false⟩, ⟨⟨0, 0⟩, .w1c, false⟩]⟩
/-- CAP_OK_CNT (R344). -/
def spec_capOkCnt : RegSpec := ⟨.capOkCnt, 0x10000074, [(0x8, 0x2000)],
  [⟨⟨31, 0⟩, .rc, false⟩]⟩
/-- CAP_NACK_CNT (R363). -/
def spec_capNackCnt : RegSpec := ⟨.capNackCnt, 0x10000078, [(0x8, 0x2000)],
  [⟨⟨31, 0⟩, .rc, false⟩]⟩
/-- MSIX_TABLE (R378). -/
def spec_msixTable : RegSpec := ⟨.msixTable, 0x20F000, [(0x100, 0x4)],
  [⟨⟨31, 0⟩, .rw, false⟩]⟩
/-- MSIX_PBA (R378). -/
def spec_msixPba : RegSpec := ⟨.msixPba, 0x20F800, [(0x2, 0x4)],
  [⟨⟨31, 0⟩, .ro, false⟩]⟩
/-- PTP_CTL (R385). -/
def spec_ptpCtl : RegSpec := ⟨.ptpCtl, 0x302000, [],
  [⟨⟨31, 31⟩, .w1s, false⟩]⟩
/-- PTP_STS (R385). -/
def spec_ptpSts : RegSpec := ⟨.ptpSts, 0x302004, [],
  [⟨⟨5, 5⟩, .ro, false⟩, ⟨⟨4, 4⟩, .ro, false⟩, ⟨⟨3, 3⟩, .ro, false⟩, ⟨⟨2, 2⟩, .w1c, false⟩, ⟨⟨1, 1⟩, .w1c, false⟩, ⟨⟨0, 0⟩, .w1c, false⟩]⟩
/-- PTP_NS (R384). -/
def spec_ptpNs : RegSpec := ⟨.ptpNs, 0x302008, [],
  [⟨⟨31, 0⟩, .ro, false⟩]⟩
/-- PTP_NS_FRAC (R384). -/
def spec_ptpNsFrac : RegSpec := ⟨.ptpNsFrac, 0x30200C, [],
  [⟨⟨15, 0⟩, .ro, false⟩]⟩
/-- PTP_RATE_LO (R384). -/
def spec_ptpRateLo : RegSpec := ⟨.ptpRateLo, 0x302010, [],
  [⟨⟨31, 0⟩, .rw, false⟩]⟩
/-- PTP_OFFSET (R385). -/
def spec_ptpOffset : RegSpec := ⟨.ptpOffset, 0x302014, [],
  [⟨⟨31, 0⟩, .wo, false⟩]⟩
/-- PTP_OFFSET_FRAC (R385). -/
def spec_ptpOffsetFrac : RegSpec := ⟨.ptpOffsetFrac, 0x302018, [],
  [⟨⟨15, 0⟩, .rw, false⟩]⟩
/-- PTP_JUMP_THR (R385). -/
def spec_ptpJumpThr : RegSpec := ⟨.ptpJumpThr, 0x30201C, [],
  [⟨⟨23, 0⟩, .rw, false⟩]⟩
/-- PTP_SLEW (R385). -/
def spec_ptpSlew : RegSpec := ⟨.ptpSlew, 0x302020, [],
  [⟨⟨15, 0⟩, .rw, false⟩]⟩
/-- PTP_EPOCH_SEC_LO (R386). -/
def spec_ptpEpochSecLo : RegSpec := ⟨.ptpEpochSecLo, 0x302024, [],
  [⟨⟨31, 0⟩, .rw, false⟩]⟩
/-- PTP_EPOCH_SEC_HI (R386). -/
def spec_ptpEpochSecHi : RegSpec := ⟨.ptpEpochSecHi, 0x302028, [],
  [⟨⟨15, 0⟩, .rw, false⟩]⟩
/-- PTP_EPOCH_NS (R386). -/
def spec_ptpEpochNs : RegSpec := ⟨.ptpEpochNs, 0x30202C, [],
  [⟨⟨31, 0⟩, .rw, false⟩]⟩
/-- PTP_JUMP_CNT (R385). -/
def spec_ptpJumpCnt : RegSpec := ⟨.ptpJumpCnt, 0x302030, [],
  [⟨⟨31, 0⟩, .rc, false⟩]⟩
/-- PTP_LAST_REFUSED (R385). -/
def spec_ptpLastRefused : RegSpec := ⟨.ptpLastRefused, 0x302034, [],
  [⟨⟨31, 0⟩, .ro, false⟩]⟩
/-- PTP_RATE_HI (R384). -/
def spec_ptpRateHi : RegSpec := ⟨.ptpRateHi, 0x302038, [],
  [⟨⟨7, 0⟩, .rw, false⟩]⟩
/-- XTS_CTL (R389). -/
def spec_xtsCtl : RegSpec := ⟨.xtsCtl, 0x302040, [],
  [⟨⟨31, 31⟩, .w1s, false⟩, ⟨⟨30, 30⟩, .rw, false⟩, ⟨⟨0, 0⟩, .w1c, false⟩]⟩
/-- XTS_DT_LO (R389). -/
def spec_xtsDtLo : RegSpec := ⟨.xtsDtLo, 0x302044, [],
  [⟨⟨31, 0⟩, .ro, false⟩]⟩
/-- XTS_DT_HI (R389). -/
def spec_xtsDtHi : RegSpec := ⟨.xtsDtHi, 0x302048, [],
  [⟨⟨31, 0⟩, .ro, false⟩]⟩
/-- XTS_NS (R389). -/
def spec_xtsNs : RegSpec := ⟨.xtsNs, 0x30204C, [],
  [⟨⟨31, 0⟩, .ro, false⟩]⟩
/-- XTS_NS_FRAC (R389). -/
def spec_xtsNsFrac : RegSpec := ⟨.xtsNsFrac, 0x302050, [],
  [⟨⟨15, 0⟩, .ro, false⟩]⟩
/-- PPS_OUT_CTL (R390). -/
def spec_ppsOutCtl : RegSpec := ⟨.ppsOutCtl, 0x302060, [],
  [⟨⟨31, 31⟩, .rw, true⟩, ⟨⟨30, 30⟩, .rw, true⟩, ⟨⟨18, 0⟩, .rw, false⟩]⟩
/-- PPS_PERIOD (R390). -/
def spec_ppsPeriod : RegSpec := ⟨.ppsPeriod, 0x302064, [],
  [⟨⟨31, 0⟩, .rw, true⟩]⟩
/-- PTM_DT_LO (R392). -/
def spec_ptmDtLo : RegSpec := ⟨.ptmDtLo, 0x302080, [],
  [⟨⟨31, 0⟩, .ro, false⟩]⟩
/-- PTM_DT_HI (R392). -/
def spec_ptmDtHi : RegSpec := ⟨.ptmDtHi, 0x302084, [],
  [⟨⟨31, 0⟩, .ro, false⟩]⟩
/-- PTM_MT_LO (R392). -/
def spec_ptmMtLo : RegSpec := ⟨.ptmMtLo, 0x302088, [],
  [⟨⟨31, 0⟩, .ro, false⟩]⟩
/-- PTM_MT_HI (R392). -/
def spec_ptmMtHi : RegSpec := ⟨.ptmMtHi, 0x30208C, [],
  [⟨⟨31, 0⟩, .ro, false⟩]⟩
/-- ETH_TS_CTL (R383). -/
def spec_ethTsCtl : RegSpec := ⟨.ethTsCtl, 0x303000, [(0x2, 0x400)],
  [⟨⟨31, 31⟩, .rw, false⟩]⟩
/-- ETH_ASYM_IN (R382). -/
def spec_ethAsymIn : RegSpec := ⟨.ethAsymIn, 0x303004, [(0x2, 0x400)],
  [⟨⟨19, 0⟩, .rw, false⟩]⟩
/-- ETH_ASYM_OUT (R382). -/
def spec_ethAsymOut : RegSpec := ⟨.ethAsymOut, 0x303008, [(0x2, 0x400)],
  [⟨⟨19, 0⟩, .rw, false⟩]⟩
/-- ETH_TS_STS (R388). -/
def spec_ethTsSts : RegSpec := ⟨.ethTsSts, 0x30300C, [(0x2, 0x400)],
  [⟨⟨31, 31⟩, .ro, false⟩, ⟨⟨30, 29⟩, .ro, false⟩, ⟨⟨7, 7⟩, .ro, false⟩, ⟨⟨6, 6⟩, .w1c, false⟩, ⟨⟨5, 5⟩, .w1c, false⟩, ⟨⟨4, 0⟩, .ro, false⟩]⟩
/-- ETH_LQ_CTL (R388). -/
def spec_ethLqCtl : RegSpec := ⟨.ethLqCtl, 0x303010, [(0x2, 0x400)],
  [⟨⟨31, 31⟩, .w1s, false⟩, ⟨⟨1, 0⟩, .rw, false⟩]⟩
/-- ETH_GUARD (R387). -/
def spec_ethGuard : RegSpec := ⟨.ethGuard, 0x303014, [(0x2, 0x400)],
  [⟨⟨15, 0⟩, .rw, false⟩]⟩
/-- ETH_LATE_CNT (R388). -/
def spec_ethLateCnt : RegSpec := ⟨.ethLateCnt, 0x303018, [(0x2, 0x400)],
  [⟨⟨31, 0⟩, .rc, false⟩]⟩
/-- ETH_LAUNCH_CNT (R387). -/
def spec_ethLaunchCnt : RegSpec := ⟨.ethLaunchCnt, 0x30301C, [(0x2, 0x400)],
  [⟨⟨31, 0⟩, .rc, false⟩]⟩
/-- ETH_TS_STALE_CNT (R383). -/
def spec_ethTsStaleCnt : RegSpec := ⟨.ethTsStaleCnt, 0x303020, [(0x2, 0x400)],
  [⟨⟨31, 0⟩, .rc, false⟩]⟩
/-- ETH_RXTS_NS (R382). -/
def spec_ethRxtsNs : RegSpec := ⟨.ethRxtsNs, 0x303040, [(0x2, 0x400)],
  [⟨⟨31, 0⟩, .rc, false⟩]⟩
/-- ETH_RXTS_INFO (R382). -/
def spec_ethRxtsInfo : RegSpec := ⟨.ethRxtsInfo, 0x303044, [(0x2, 0x400)],
  [⟨⟨31, 16⟩, .ro, false⟩, ⟨⟨15, 12⟩, .ro, false⟩, ⟨⟨11, 11⟩, .ro, false⟩, ⟨⟨10, 0⟩, .ro, false⟩]⟩
/-- ETH_TXTS_NS (R382). -/
def spec_ethTxtsNs : RegSpec := ⟨.ethTxtsNs, 0x303048, [(0x2, 0x400)],
  [⟨⟨31, 0⟩, .rc, false⟩]⟩
/-- ETH_TXTS_INFO (R382). -/
def spec_ethTxtsInfo : RegSpec := ⟨.ethTxtsInfo, 0x30304C, [(0x2, 0x400)],
  [⟨⟨31, 16⟩, .ro, false⟩, ⟨⟨15, 12⟩, .ro, false⟩, ⟨⟨11, 11⟩, .ro, false⟩, ⟨⟨10, 0⟩, .ro, false⟩]⟩
/-- TIU_IN_CFG (R395). -/
def spec_tiuInCfg : RegSpec := ⟨.tiuInCfg, 0x304000, [(0x22, 0x10)],
  [⟨⟨31, 24⟩, .rw, false⟩, ⟨⟨16, 8⟩, .rw, false⟩, ⟨⟨3, 2⟩, .rw, false⟩, ⟨⟨1, 0⟩, .rw, false⟩]⟩
/-- TIU_IN_HOLD_CNT (R395). -/
def spec_tiuInHoldCnt : RegSpec := ⟨.tiuInHoldCnt, 0x304004, [(0x22, 0x10)],
  [⟨⟨31, 0⟩, .rc, false⟩]⟩
/-- TIU_IN_EDGE_CNT (R395). -/
def spec_tiuInEdgeCnt : RegSpec := ⟨.tiuInEdgeCnt, 0x304008, [(0x22, 0x10)],
  [⟨⟨31, 0⟩, .rc, false⟩]⟩
/-- TIU_IN_STS (R399). -/
def spec_tiuInSts : RegSpec := ⟨.tiuInSts, 0x30400C, [(0x22, 0x10)],
  [⟨⟨0, 0⟩, .w1c, false⟩]⟩
/-- TM_CTL (R397). -/
def spec_tmCtl : RegSpec := ⟨.tmCtl, 0x304400, [(0x4, 0x40)],
  [⟨⟨31, 31⟩, .w1s, false⟩, ⟨⟨30, 30⟩, .w1s, false⟩, ⟨⟨26, 24⟩, .rw, false⟩, ⟨⟨21, 16⟩, .rw, false⟩, ⟨⟨13, 8⟩, .rw, false⟩]⟩
/-- TM_N (R397). -/
def spec_tmN : RegSpec := ⟨.tmN, 0x304404, [(0x4, 0x40)],
  [⟨⟨24, 0⟩, .rw, false⟩]⟩
/-- TM_GATE (R398). -/
def spec_tmGate : RegSpec := ⟨.tmGate, 0x304408, [(0x4, 0x40)],
  [⟨⟨23, 0⟩, .rw, false⟩]⟩
/-- TM_TIMEOUT (R397). -/
def spec_tmTimeout : RegSpec := ⟨.tmTimeout, 0x30440C, [(0x4, 0x40)],
  [⟨⟨31, 0⟩, .rw, false⟩]⟩
/-- TM_STS (R397). -/
def spec_tmSts : RegSpec := ⟨.tmSts, 0x304410, [(0x4, 0x40)],
  [⟨⟨11, 8⟩, .ro, false⟩, ⟨⟨7, 7⟩, .w1c, false⟩, ⟨⟨6, 6⟩, .w1c, false⟩, ⟨⟨5, 5⟩, .w1c, false⟩, ⟨⟨4, 4⟩, .w1c, false⟩, ⟨⟨0, 0⟩, .ro, false⟩]⟩
/-- TM_COUNT (R397). -/
def spec_tmCount : RegSpec := ⟨.tmCount, 0x304414, [(0x4, 0x40)],
  [⟨⟨31, 0⟩, .ro, false⟩]⟩
/-- TM_MEAN_LO (R397). -/
def spec_tmMeanLo : RegSpec := ⟨.tmMeanLo, 0x304418, [(0x4, 0x40)],
  [⟨⟨31, 0⟩, .ro, false⟩]⟩
/-- TM_MEAN_HI (R397). -/
def spec_tmMeanHi : RegSpec := ⟨.tmMeanHi, 0x30441C, [(0x4, 0x40)],
  [⟨⟨31, 0⟩, .ro, false⟩]⟩
/-- TM_DEV (R397). -/
def spec_tmDev : RegSpec := ⟨.tmDev, 0x304420, [(0x4, 0x40)],
  [⟨⟨31, 0⟩, .ro, false⟩]⟩
/-- TM_MIN_LO (R397). -/
def spec_tmMinLo : RegSpec := ⟨.tmMinLo, 0x304424, [(0x4, 0x40)],
  [⟨⟨31, 0⟩, .ro, false⟩]⟩
/-- TM_MIN_HI (R397). -/
def spec_tmMinHi : RegSpec := ⟨.tmMinHi, 0x304428, [(0x4, 0x40)],
  [⟨⟨31, 0⟩, .ro, false⟩]⟩
/-- TM_MAX_LO (R397). -/
def spec_tmMaxLo : RegSpec := ⟨.tmMaxLo, 0x30442C, [(0x4, 0x40)],
  [⟨⟨31, 0⟩, .ro, false⟩]⟩
/-- TM_MAX_HI (R397). -/
def spec_tmMaxHi : RegSpec := ⟨.tmMaxHi, 0x304430, [(0x4, 0x40)],
  [⟨⟨31, 0⟩, .ro, false⟩]⟩
/-- TM_FREQ_LO (R398). -/
def spec_tmFreqLo : RegSpec := ⟨.tmFreqLo, 0x304434, [(0x4, 0x40)],
  [⟨⟨31, 0⟩, .ro, false⟩]⟩
/-- TM_FREQ_HI (R398). -/
def spec_tmFreqHi : RegSpec := ⟨.tmFreqHi, 0x304438, [(0x4, 0x40)],
  [⟨⟨31, 0⟩, .ro, false⟩]⟩
/-- EXP_CFG (R400). -/
def spec_expCfg : RegSpec := ⟨.expCfg, 0x306000, [(0x8, 0x8)],
  [⟨⟨31, 31⟩, .rw, false⟩, ⟨⟨30, 30⟩, .rw, false⟩, ⟨⟨5, 0⟩, .rw, false⟩]⟩
/-- EXP_DROP_CNT (R400). -/
def spec_expDropCnt : RegSpec := ⟨.expDropCnt, 0x306004, [(0x8, 0x8)],
  [⟨⟨31, 0⟩, .rc, false⟩]⟩
/-- EVF_CH (R404). -/
def spec_evfCh : RegSpec := ⟨.evfCh, 0x200000, [(0x100, 0x4)],
  [⟨⟨31, 31⟩, .rw, false⟩, ⟨⟨10, 0⟩, .rw, false⟩]⟩
/-- EVF_CH_CNT (R407). -/
def spec_evfChCnt : RegSpec := ⟨.evfChCnt, 0x200400, [(0x100, 0x4)],
  [⟨⟨31, 0⟩, .rc, false⟩]⟩
/-- TASK_SUB (R406). -/
def spec_taskSub : RegSpec := ⟨.taskSub, 0x200800, [(0x40, 0x10)],
  [⟨⟨31, 24⟩, .rw, false⟩, ⟨⟨23, 16⟩, .rw, false⟩, ⟨⟨15, 8⟩, .rw, false⟩, ⟨⟨7, 0⟩, .rw, false⟩]⟩
/-- TASK_CTL (R406). -/
def spec_taskCtl : RegSpec := ⟨.taskCtl, 0x200804, [(0x40, 0x10)],
  [⟨⟨8, 8⟩, .w1c, false⟩, ⟨⟨3, 0⟩, .rw, false⟩]⟩
/-- TASK_COAL (R407). -/
def spec_taskCoal : RegSpec := ⟨.taskCoal, 0x200808, [(0x40, 0x10)],
  [⟨⟨7, 0⟩, .rc, false⟩]⟩
/-- TASK_CNT (R406). -/
def spec_taskCnt : RegSpec := ⟨.taskCnt, 0x20080C, [(0x40, 0x10)],
  [⟨⟨31, 0⟩, .rc, false⟩]⟩
/-- EVF_FIRE (R409). -/
def spec_evfFire : RegSpec := ⟨.evfFire, 0x200C00, [],
  [⟨⟨10, 8⟩, .wo, false⟩, ⟨⟨7, 0⟩, .wo, false⟩]⟩
/-- EVF_STS (R408). -/
def spec_evfSts : RegSpec := ⟨.evfSts, 0x200C04, [],
  [⟨⟨2, 2⟩, .w1c, false⟩, ⟨⟨1, 1⟩, .w1c, false⟩, ⟨⟨0, 0⟩, .w1c, false⟩]⟩
/-- EVF_LOOP_CNT (R408). -/
def spec_evfLoopCnt : RegSpec := ⟨.evfLoopCnt, 0x200C08, [],
  [⟨⟨31, 0⟩, .rc, false⟩]⟩
/-- EVF_LOOP_SRC (R408). -/
def spec_evfLoopSrc : RegSpec := ⟨.evfLoopSrc, 0x200C0C, [],
  [⟨⟨10, 0⟩, .ro, false⟩]⟩
/-- EVF_IRQ_STS_LO (R405). -/
def spec_evfIrqStsLo : RegSpec := ⟨.evfIrqStsLo, 0x200C10, [],
  [⟨⟨31, 0⟩, .w1c, false⟩]⟩
/-- EVF_IRQ_STS_HI (R405). -/
def spec_evfIrqStsHi : RegSpec := ⟨.evfIrqStsHi, 0x200C14, [],
  [⟨⟨7, 0⟩, .w1c, false⟩]⟩
/-- EVF_ALERT_STS (R411). -/
def spec_evfAlertSts : RegSpec := ⟨.evfAlertSts, 0x200C18, [],
  [⟨⟨0, 0⟩, .w1c, false⟩]⟩
/-- EVF_SRC_STS (R404). -/
def spec_evfSrcSts : RegSpec := ⟨.evfSrcSts, 0x201000, [(0x30, 0x4)],
  [⟨⟨31, 0⟩, .w1c, false⟩]⟩
/-- HK_CFG (R416). -/
def spec_hkCfg : RegSpec := ⟨.hkCfg, 0x2080000, [(0x4, 0x100000)],
  [⟨⟨3, 2⟩, .rw, false⟩, ⟨⟨0, 0⟩, .rw, false⟩]⟩
/-- HK_CTL (R417). -/
def spec_hkCtl : RegSpec := ⟨.hkCtl, 0x2080004, [(0x4, 0x100000)],
  [⟨⟨31, 31⟩, .w1s, false⟩, ⟨⟨30, 30⟩, .w1s, false⟩, ⟨⟨29, 29⟩, .w1s, false⟩, ⟨⟨28, 28⟩, .rw, false⟩, ⟨⟨23, 16⟩, .rw, false⟩, ⟨⟨6, 0⟩, .rw, false⟩]⟩
/-- HK_STS (R417). -/
def spec_hkSts : RegSpec := ⟨.hkSts, 0x2080008, [(0x4, 0x100000)],
  [⟨⟨21, 16⟩, .ro, false⟩, ⟨⟨15, 15⟩, .ro, false⟩, ⟨⟨14, 14⟩, .w1c, false⟩, ⟨⟨13, 13⟩, .w1c, false⟩, ⟨⟨12, 12⟩, .w1c, false⟩, ⟨⟨11, 11⟩, .w1c, false⟩, ⟨⟨10, 10⟩, .w1c, false⟩, ⟨⟨9, 9⟩, .w1c, false⟩, ⟨⟨8, 8⟩, .w1c, false⟩, ⟨⟨7, 7⟩, .w1c, false⟩, ⟨⟨6, 6⟩, .ro, false⟩, ⟨⟨5, 5⟩, .ro, false⟩, ⟨⟨2, 0⟩, .ro, false⟩]⟩
/-- HK_PASS_CNT (R417). -/
def spec_hkPassCnt : RegSpec := ⟨.hkPassCnt, 0x208000C, [(0x4, 0x100000)],
  [⟨⟨31, 0⟩, .rc, false⟩]⟩
/-- HK_LIM_STS_LO (R419). -/
def spec_hkLimStsLo : RegSpec := ⟨.hkLimStsLo, 0x2080010, [(0x4, 0x100000)],
  [⟨⟨31, 0⟩, .w1c, false⟩]⟩
/-- HK_LIM_STS_HI (R419). -/
def spec_hkLimStsHi : RegSpec := ⟨.hkLimStsHi, 0x2080014, [(0x4, 0x100000)],
  [⟨⟨31, 0⟩, .w1c, false⟩]⟩
/-- HK_URG_CFG (R418). -/
def spec_hkUrgCfg : RegSpec := ⟨.hkUrgCfg, 0x2080018, [(0x4, 0x100000)],
  [⟨⟨31, 31⟩, .rw, false⟩, ⟨⟨30, 30⟩, .rw, false⟩, ⟨⟨29, 29⟩, .rw, false⟩, ⟨⟨28, 22⟩, .rw, false⟩, ⟨⟨21, 14⟩, .rw, false⟩, ⟨⟨13, 10⟩, .rw, false⟩, ⟨⟨5, 0⟩, .rw, false⟩]⟩
/-- HK_URG_RES (R420). -/
def spec_hkUrgRes : RegSpec := ⟨.hkUrgRes, 0x208001C, [(0x4, 0x100000)],
  [⟨⟨31, 0⟩, .ro, false⟩]⟩
/-- HK_URG_FLG (R420). -/
def spec_hkUrgFlg : RegSpec := ⟨.hkUrgFlg, 0x2080020, [(0x4, 0x100000)],
  [⟨⟨31, 31⟩, .ro, false⟩, ⟨⟨30, 30⟩, .ro, false⟩, ⟨⟨29, 29⟩, .ro, false⟩, ⟨⟨28, 28⟩, .ro, false⟩, ⟨⟨27, 27⟩, .ro, false⟩, ⟨⟨15, 8⟩, .ro, false⟩, ⟨⟨5, 0⟩, .ro, false⟩]⟩
/-- HK_MISS_CNT (R417). -/
def spec_hkMissCnt : RegSpec := ⟨.hkMissCnt, 0x2080024, [(0x4, 0x100000)],
  [⟨⟨31, 0⟩, .rc, false⟩]⟩
/-- HK_ABORT_CNT (R418). -/
def spec_hkAbortCnt : RegSpec := ⟨.hkAbortCnt, 0x2080028, [(0x4, 0x100000)],
  [⟨⟨31, 0⟩, .rc, false⟩]⟩
/-- HK_SEQ (R413). -/
def spec_hkSeq : RegSpec := ⟨.hkSeq, 0x2080100, [(0x4, 0x100000), (0x40, 0x4)],
  [⟨⟨31, 31⟩, .rw, false⟩, ⟨⟨30, 30⟩, .rw, false⟩, ⟨⟨29, 29⟩, .rw, false⟩, ⟨⟨28, 22⟩, .rw, false⟩, ⟨⟨21, 14⟩, .rw, false⟩, ⟨⟨13, 10⟩, .rw, false⟩, ⟨⟨5, 0⟩, .rw, false⟩]⟩
/-- HK_RES (R415). -/
def spec_hkRes : RegSpec := ⟨.hkRes, 0x2080200, [(0x4, 0x100000), (0x40, 0x8)],
  [⟨⟨31, 0⟩, .ro, false⟩]⟩
/-- HK_RES_FLG (R420). -/
def spec_hkResFlg : RegSpec := ⟨.hkResFlg, 0x2080204, [(0x4, 0x100000), (0x40, 0x8)],
  [⟨⟨31, 31⟩, .ro, false⟩, ⟨⟨30, 30⟩, .ro, false⟩, ⟨⟨29, 29⟩, .ro, false⟩, ⟨⟨28, 28⟩, .ro, false⟩, ⟨⟨27, 27⟩, .ro, false⟩, ⟨⟨15, 8⟩, .ro, false⟩, ⟨⟨5, 0⟩, .ro, false⟩]⟩
/-- HK_LIM_LO (R419). -/
def spec_hkLimLo : RegSpec := ⟨.hkLimLo, 0x2080400, [(0x4, 0x100000), (0x40, 0x8)],
  [⟨⟨23, 0⟩, .rw, false⟩]⟩
/-- HK_LIM_HI (R419). -/
def spec_hkLimHi : RegSpec := ⟨.hkLimHi, 0x2080404, [(0x4, 0x100000), (0x40, 0x8)],
  [⟨⟨23, 0⟩, .rw, false⟩]⟩
/-- SN_CFG (R423). -/
def spec_snCfg : RegSpec := ⟨.snCfg, 0x2090000, [(0x4, 0x100000), (0x8, 0x20)],
  [⟨⟨31, 31⟩, .rw, false⟩, ⟨⟨30, 30⟩, .rw, false⟩, ⟨⟨26, 24⟩, .rw, false⟩, ⟨⟨9, 0⟩, .rw, false⟩]⟩
/-- SN_STS (R425). -/
def spec_snSts : RegSpec := ⟨.snSts, 0x2090004, [(0x4, 0x100000), (0x8, 0x20)],
  [⟨⟨4, 4⟩, .w1c, false⟩, ⟨⟨3, 3⟩, .w1c, false⟩, ⟨⟨2, 2⟩, .ro, false⟩, ⟨⟨1, 1⟩, .ro, false⟩, ⟨⟨0, 0⟩, .ro, false⟩]⟩
/-- SN_IMP_MAG (R425). -/
def spec_snImpMag : RegSpec := ⟨.snImpMag, 0x2090008, [(0x4, 0x100000), (0x8, 0x20)],
  [⟨⟨31, 0⟩, .ro, false⟩]⟩
/-- SN_IMP_PH (R425). -/
def spec_snImpPh : RegSpec := ⟨.snImpPh, 0x209000C, [(0x4, 0x100000), (0x8, 0x20)],
  [⟨⟨15, 0⟩, .ro, false⟩]⟩
/-- SN_OPEN_CNT (R424). -/
def spec_snOpenCnt : RegSpec := ⟨.snOpenCnt, 0x2090010, [(0x4, 0x100000), (0x8, 0x20)],
  [⟨⟨31, 0⟩, .rc, false⟩]⟩
/-- SN_CHK_CTL (R425). -/
def spec_snChkCtl : RegSpec := ⟨.snChkCtl, 0x2090100, [(0x4, 0x100000)],
  [⟨⟨31, 31⟩, .rw, false⟩, ⟨⟨30, 30⟩, .w1s, false⟩, ⟨⟨29, 29⟩, .w1c, false⟩, ⟨⟨7, 0⟩, .rw, false⟩]⟩
/-- PM_CTL (R440). -/
def spec_pmCtl : RegSpec := ⟨.pmCtl, 0x400000, [],
  [⟨⟨31, 31⟩, .w1s, false⟩]⟩
/-- PM_STS (R429). -/
def spec_pmSts : RegSpec := ⟨.pmSts, 0x400004, [],
  [⟨⟨1, 1⟩, .w1c, false⟩, ⟨⟨0, 0⟩, .w1c, false⟩]⟩
/-- PM_TOTAL (R429). -/
def spec_pmTotal : RegSpec := ⟨.pmTotal, 0x400008, [],
  [⟨⟨19, 0⟩, .ro, false⟩]⟩
/-- PM_LIMIT (R429). -/
def spec_pmLimit : RegSpec := ⟨.pmLimit, 0x40000C, [],
  [⟨⟨19, 0⟩, .rw, false⟩]⟩
/-- PM_ENERGY_LO (R429). -/
def spec_pmEnergyLo : RegSpec := ⟨.pmEnergyLo, 0x400010, [],
  [⟨⟨31, 0⟩, .ro, false⟩]⟩
/-- PM_ENERGY_HI (R429). -/
def spec_pmEnergyHi : RegSpec := ⟨.pmEnergyHi, 0x400014, [],
  [⟨⟨31, 0⟩, .ro, false⟩]⟩
/-- PM_DOM (R429). -/
def spec_pmDom : RegSpec := ⟨.pmDom, 0x401000, [(0xA8, 0x4)],
  [⟨⟨31, 20⟩, .ro, false⟩, ⟨⟨19, 0⟩, .ro, false⟩]⟩
/-- AVS_DOM (R434). -/
def spec_avsDom : RegSpec := ⟨.avsDom, 0x402000, [(0xA8, 0x4)],
  [⟨⟨31, 31⟩, .ro, false⟩, ⟨⟨30, 30⟩, .w1c, false⟩, ⟨⟨29, 24⟩, .ro, false⟩, ⟨⟨23, 18⟩, .rw, true⟩, ⟨⟨17, 12⟩, .rw, true⟩, ⟨⟨5, 0⟩, .ro, false⟩]⟩
/-- AVS_CTL (R434). -/
def spec_avsCtl : RegSpec := ⟨.avsCtl, 0x402400, [],
  [⟨⟨31, 31⟩, .rw, false⟩, ⟨⟨30, 30⟩, .rw, false⟩, ⟨⟨15, 8⟩, .rw, false⟩, ⟨⟨7, 0⟩, .rw, false⟩]⟩
/-- AVS_EMERG_CNT (R434). -/
def spec_avsEmergCnt : RegSpec := ⟨.avsEmergCnt, 0x402404, [],
  [⟨⟨31, 0⟩, .rc, false⟩]⟩
/-- TH_CTL (R438). -/
def spec_thCtl : RegSpec := ⟨.thCtl, 0x403000, [],
  [⟨⟨31, 31⟩, .rw, false⟩, ⟨⟨23, 16⟩, .rw, true⟩, ⟨⟨15, 8⟩, .rw, true⟩, ⟨⟨7, 0⟩, .rw, true⟩]⟩
/-- TH_STS (R438). -/
def spec_thSts : RegSpec := ⟨.thSts, 0x403004, [],
  [⟨⟨31, 31⟩, .ro, false⟩, ⟨⟨30, 30⟩, .ro, false⟩, ⟨⟨29, 29⟩, .ro, false⟩, ⟨⟨28, 28⟩, .w1c, false⟩, ⟨⟨23, 16⟩, .ro, false⟩, ⟨⟨12, 8⟩, .ro, false⟩]⟩
/-- TH_TJ (R436). -/
def spec_thTj : RegSpec := ⟨.thTj, 0x403008, [],
  [⟨⟨15, 0⟩, .ro, false⟩]⟩
/-- TH_ANCHOR (R437). -/
def spec_thAnchor : RegSpec := ⟨.thAnchor, 0x40300C, [],
  [⟨⟨31, 16⟩, .ro, false⟩, ⟨⟨15, 0⟩, .ro, false⟩]⟩
/-- TH_COLD (R437). -/
def spec_thCold : RegSpec := ⟨.thCold, 0x403010, [],
  [⟨⟨31, 16⟩, .ro, false⟩, ⟨⟨15, 0⟩, .rw, false⟩]⟩
/-- TH_NODE (R436). -/
def spec_thNode : RegSpec := ⟨.thNode, 0x403100, [(0x28, 0x4)],
  [⟨⟨15, 0⟩, .ro, false⟩]⟩
/-- TH_DIODE (R437). -/
def spec_thDiode : RegSpec := ⟨.thDiode, 0x403200, [(0x8, 0x4)],
  [⟨⟨31, 31⟩, .ro, false⟩, ⟨⟨15, 0⟩, .ro, false⟩]⟩
/-- CAL_CTL (R445). -/
def spec_calCtl : RegSpec := ⟨.calCtl, 0x404000, [],
  [⟨⟨31, 31⟩, .rw, false⟩, ⟨⟨21, 16⟩, .rw, true⟩, ⟨⟨15, 0⟩, .rw, false⟩]⟩
/-- CAL_STS (R448). -/
def spec_calSts : RegSpec := ⟨.calSts, 0x404004, [],
  [⟨⟨2, 2⟩, .w1c, false⟩, ⟨⟨1, 1⟩, .ro, false⟩, ⟨⟨0, 0⟩, .w1c, false⟩]⟩
/-- CAL_TIU_Q (R446). -/
def spec_calTiuQ : RegSpec := ⟨.calTiuQ, 0x404100, [(0x22, 0x4)],
  [⟨⟨15, 0⟩, .ro, false⟩]⟩
/-- CAL_AGE (R445). -/
def spec_calAge : RegSpec := ⟨.calAge, 0x404200, [(0x8, 0x8)],
  [⟨⟨31, 0⟩, .ro, false⟩]⟩
/-- CAL_INS_CNT (R445). -/
def spec_calInsCnt : RegSpec := ⟨.calInsCnt, 0x404204, [(0x8, 0x8)],
  [⟨⟨31, 0⟩, .rc, false⟩]⟩
/-- RTC_SEC_LO (R455). -/
def spec_rtcSecLo : RegSpec := ⟨.rtcSecLo, 0x405000, [],
  [⟨⟨31, 0⟩, .ro, false⟩]⟩
/-- RTC_SEC_HI (R455). -/
def spec_rtcSecHi : RegSpec := ⟨.rtcSecHi, 0x405004, [],
  [⟨⟨31, 0⟩, .ro, false⟩]⟩
/-- RTC_SET_LO (R455). -/
def spec_rtcSetLo : RegSpec := ⟨.rtcSetLo, 0x405008, [],
  [⟨⟨31, 0⟩, .rw, false⟩]⟩
/-- RTC_SET_HI (R455). -/
def spec_rtcSetHi : RegSpec := ⟨.rtcSetHi, 0x40500C, [],
  [⟨⟨31, 0⟩, .rw, false⟩]⟩
/-- RTC_CTL (R455). -/
def spec_rtcCtl : RegSpec := ⟨.rtcCtl, 0x405010, [],
  [⟨⟨31, 31⟩, .w1s, false⟩]⟩
/-- RTC_STS (R455). -/
def spec_rtcSts : RegSpec := ⟨.rtcSts, 0x405014, [],
  [⟨⟨2, 2⟩, .w1c, false⟩, ⟨⟨1, 1⟩, .ro, false⟩, ⟨⟨0, 0⟩, .ro, false⟩]⟩
/-- AON_STS (R442). -/
def spec_aonSts : RegSpec := ⟨.aonSts, 0x405018, [],
  [⟨⟨31, 31⟩, .w1c, false⟩, ⟨⟨30, 30⟩, .w1c, false⟩]⟩
/-- TPW_CTL (R432). -/
def spec_tpwCtl : RegSpec := ⟨.tpwCtl, 0x1070000, [(0x20, 0x80000)],
  [⟨⟨2, 2⟩, .rw, true⟩, ⟨⟨1, 1⟩, .rw, true⟩, ⟨⟨0, 0⟩, .rw, true⟩]⟩
/-- TPW_STS (R432). -/
def spec_tpwSts : RegSpec := ⟨.tpwSts, 0x1070004, [(0x20, 0x80000)],
  [⟨⟨8, 8⟩, .ro, false⟩]⟩
/-- TPW_PD_CNT (R432). -/
def spec_tpwPdCnt : RegSpec := ⟨.tpwPdCnt, 0x1070008, [(0x20, 0x80000)],
  [⟨⟨31, 0⟩, .rc, false⟩]⟩
/-- ISL_CTL (R435). -/
def spec_islCtl : RegSpec := ⟨.islCtl, 0x1070010, [(0x20, 0x80000)],
  [⟨⟨31, 31⟩, .rw, false⟩, ⟨⟨30, 30⟩, .rw, false⟩]⟩
/-- ISL_LIM (R435). -/
def spec_islLim : RegSpec := ⟨.islLim, 0x1070100, [(0x20, 0x80000), (0x6, 0x8)],
  [⟨⟨14, 8⟩, .rw, true⟩, ⟨⟨6, 0⟩, .rw, true⟩]⟩
/-- ISL_STS (R435). -/
def spec_islSts : RegSpec := ⟨.islSts, 0x1070104, [(0x20, 0x80000), (0x6, 0x8)],
  [⟨⟨31, 31⟩, .w1c, false⟩, ⟨⟨29, 24⟩, .ro, false⟩, ⟨⟨6, 0⟩, .ro, false⟩]⟩
/-- CAL_Q (R447). -/
def spec_calQ : RegSpec := ⟨.calQ, 0x1070200, [(0x20, 0x80000), (0x20, 0x4)],
  [⟨⟨31, 31⟩, .w1c, false⟩, ⟨⟨30, 30⟩, .w1c, false⟩, ⟨⟨23, 16⟩, .ro, false⟩, ⟨⟨15, 0⟩, .ro, false⟩]⟩
/-- CAL_QLIM (R447). -/
def spec_calQlim : RegSpec := ⟨.calQlim, 0x1070300, [(0x20, 0x80000)],
  [⟨⟨15, 8⟩, .rw, false⟩, ⟨⟨7, 0⟩, .rw, false⟩]⟩
/-- CB_CTL (R450). -/
def spec_cbCtl : RegSpec := ⟨.cbCtl, 0x601000, [],
  [⟨⟨31, 31⟩, .w1s, false⟩]⟩
/-- CB_STS (R450). -/
def spec_cbSts : RegSpec := ⟨.cbSts, 0x601004, [],
  [⟨⟨3, 3⟩, .w1c, false⟩, ⟨⟨2, 2⟩, .w1c, false⟩, ⟨⟨1, 1⟩, .ro, false⟩]⟩
/-- CB_LOG_HEAD (R454). -/
def spec_cbLogHead : RegSpec := ⟨.cbLogHead, 0x601008, [],
  [⟨⟨31, 0⟩, .ro, false⟩]⟩
/-- CB_LAST_SAVE (R450). -/
def spec_cbLastSave : RegSpec := ⟨.cbLastSave, 0x60100C, [],
  [⟨⟨31, 0⟩, .ro, false⟩]⟩
/-- CB_CNT_LO (R450). -/
def spec_cbCntLo : RegSpec := ⟨.cbCntLo, 0x602000, [(0x4C0, 0x8)],
  [⟨⟨31, 0⟩, .ro, false⟩]⟩
/-- CB_CNT_HI (R450). -/
def spec_cbCntHi : RegSpec := ⟨.cbCntHi, 0x602004, [(0x4C0, 0x8)],
  [⟨⟨31, 0⟩, .ro, false⟩]⟩
/-- CB_LOG (R454). -/
def spec_cbLog : RegSpec := ⟨.cbLog, 0x680000, [(0x20000, 0x4)],
  [⟨⟨31, 0⟩, .ro, false⟩]⟩
/-- The registers of 01_architecture.md. -/
def regTable01 : List RegSpec := [
  spec_glbId, spec_glbCaps, spec_glbSerialLo, spec_glbSerialHi, spec_glbCtl, spec_glbSts, spec_glbErrSts,
  spec_glbErrAddr, spec_glbTileEn, spec_glbTilePlot, spec_glbBridgeSts, spec_glbScratch]
/-- The registers of 02_timeline_shots.md. -/
def regTable02 : List RegSpec := [
  spec_dtLo, spec_dtHi, spec_dtSts, spec_dtLoadLo, spec_dtLoadHi, spec_dtLoadCtl, spec_shotCtl, spec_shotPeriod,
  spec_shotGapMin, spec_shotLead, spec_trigDelay, spec_shotMax, spec_runStartLo, spec_runStartHi, spec_runShots,
  spec_runCmd, spec_runSts, spec_shotNum, spec_shotsDone, spec_nextStartLo, spec_nextStartHi, spec_lastLen,
  spec_flagsAcc, spec_flaggedShots, spec_slipCount, spec_pauseTotal, spec_pauseLast]
/-- The registers of 03_sequencer_isa.md. -/
def regTable03 : List RegSpec := [
  spec_seqCtl, spec_seqSts, spec_seqPc, spec_seqTc, spec_seqFault, spec_seqFaultInfo, spec_seqFaultCnt,
  spec_seqPmCorr, spec_seqInstrLo, spec_seqInstrHi, spec_seqCycLo, spec_seqCycHi, spec_seqS, spec_seqLoopSe,
  spec_seqLoopRem, spec_tqCtl, spec_tqSts, spec_tqLateCnt, spec_tqMargin, spec_tqLastLate, spec_tqStallTicks,
  spec_ucId, spec_ucPatchId, spec_ucSts, spec_ucParCnt, spec_ucMatch, spec_ucHitCnt, spec_ucPatchRam]
/-- The registers of 04_drive_synthesis.md. -/
def regTable04 : List RegSpec := [
  spec_fsFwLo, spec_fsFwHi, spec_fsPhInit, spec_fsPhWork, spec_xoCfg, spec_xoSts, spec_xoClipCnt, spec_xcSts,
  spec_xcJumps, spec_xcUnderCnt, spec_mkCfg, spec_vlCfg, spec_cp, spec_celChk, spec_ddAddrLo, spec_ddAddrHi,
  spec_ddLen, spec_ddCtl, spec_ddSts, spec_ddChunk, spec_ddStarveCnt, spec_ddFetchCnt, spec_ddGen, spec_segLo,
  spec_segHi]
/-- The registers of 05_flux_bias.md. -/
def regTable05 : List RegSpec := [
  spec_fxCfg, spec_fxIdle, spec_fxSts, spec_fxClipCnt, spec_fxJumps, spec_fxUnderCnt, spec_fxIirB0, spec_fxIirB1,
  spec_fxIirA1, spec_fxFir, spec_bqCtl, spec_bqSts, spec_bqLateCnt, spec_bqSuperCnt, spec_bqLostCnt, spec_bqHost,
  spec_bdCfg, spec_bdClrCode, spec_bdSlew, spec_bdOut, spec_bdTarget, spec_bdSts, spec_bdComp, spec_bdMon,
  spec_bdGenCtl, spec_bdGenLow, spec_bdGenHigh, spec_bdGenStep, spec_bdGenSeed, spec_bqdSts, spec_bqdClrCnt]
/-- The registers of 06_readout.md. -/
def regTable06 : List RegSpec := [
  spec_riCfg, spec_riSts, spec_riOvrCnt, spec_riDropCnt, spec_roChk, spec_poCfg, spec_poSts, spec_poClipCnt,
  spec_rcSts, spec_rcJumps, spec_rcUnderCnt, spec_rfsFwLo, spec_rfsFwHi, spec_rfsPhInit, spec_rfsPhWork,
  spec_lnCfg, spec_lnSts, spec_lnResI, spec_lnResQ, spec_lnResMeta, spec_lnWinCnt, spec_lnRefusedCnt,
  spec_lnOvfCnt, spec_lnPreemptTicks, spec_ttCtl, spec_ttBaseLo, spec_ttBaseHi, spec_ttWin, spec_ttPhRef,
  spec_ttAmpRef, spec_ttQlim, spec_ttOff, spec_ttSts, spec_ttStepCnt, spec_rsA, spec_rsB, spec_rsC, spec_rsD,
  spec_dbCtl, spec_dbW, spec_dbTh, spec_dbRef, spec_dbLoop, spec_dbDrift, spec_dbSts, spec_dbUpdCnt,
  spec_dbRecentreCnt, spec_dbCentI, spec_dbCentQ, spec_dbSpread, spec_roWeight]
/-- The registers of 07_trellis_feedback.md. -/
def regTable07 : List RegSpec := [
  spec_trlSts, spec_trlStaleCnt, spec_trlRemLateCnt, spec_trlRemDropCnt, spec_trlChk, spec_trlCollideCnt,
  spec_trlSlot, spec_puCfg, spec_puMaskLo, spec_puMaskHi, spec_puSts, spec_rmCfg, spec_rmSts, spec_exp, spec_kb,
  spec_tpSts, spec_tpLateDecCnt, spec_tpSupersededCnt, spec_tpSelectCnt, spec_tpFallbackCnt, spec_tpLastSel,
  spec_tpChk]
/-- The registers of 08_kelair_multidevice.md. -/
def regTable08 : List RegSpec := [
  spec_klId, spec_klGsts, spec_klFwdDropCnt, spec_klChk, spec_klRouteA, spec_klRouteB, spec_klFwd, spec_klTtCfg,
  spec_klTtSts, spec_klTtErr, spec_klTtTrim, spec_klTtAsym, spec_klPairCtl, spec_klPairSts, spec_klTakeoverLo,
  spec_klTakeoverHi, spec_klCoord, spec_klCoordSts, spec_klCtl, spec_klSts, spec_klFill, spec_klMargin,
  spec_klDecCrcCnt, spec_klBulkCrcCnt, spec_klReplayCnt, spec_klDupCnt, spec_klGapCnt, spec_klTrainFailCnt,
  spec_klDegradeCnt, spec_klFillInsCnt, spec_klFillDelCnt, spec_klTxDecCnt, spec_klRxDecCnt, spec_klLnCtl,
  spec_klLnSts, spec_klLnEq, spec_klLnPrbsErr, spec_klLnHdrErr]
/-- The registers of 09_configuration_live_update.md. -/
def regTable09 : List RegSpec := [
  spec_cfgSts, spec_imgFallback, spec_imgBuildLo, spec_imgBuildHi, spec_cfgCtl, spec_cfgStageLo, spec_cfgStageHi,
  spec_cfgStageLen, spec_cfgPartP, spec_cfgPartCnt, spec_henSts, spec_henCtl, spec_cfgFlashCtl, spec_cfgFlashSts,
  spec_tileSts, spec_tileXb, spec_tileBarLo, spec_tileBarHi, spec_tilePlaceCtl, spec_tilePlaceSts, spec_tileFailLo,
  spec_tileFailHi, spec_tilePlaceCnt]
/-- The registers of 10_security_plots.md. -/
def regTable10 : List RegSpec := [
  spec_wlSts, spec_wlCmd, spec_wlCmdSts, spec_wlFuseRem, spec_wlArb, spec_wlNonce, spec_wlCseqInLo,
  spec_wlCseqInHi, spec_wlPlotSts, spec_wlBatchCfg, spec_wlBatchNum, spec_wlAuthFailCnt, spec_wlSignSkipCnt,
  spec_wlBuf]
/-- The registers of 11_host_interface.md. -/
def regTable11 : List RegSpec := [
  spec_cmdBaseLo, spec_cmdBaseHi, spec_cmdCfg, spec_cmdProd, spec_cmdCons, spec_cmdSts, spec_cmdCtl,
  spec_rspBaseLo, spec_rspBaseHi, spec_rspCfg, spec_rspProd, spec_rspCons, spec_rrBaseLo, spec_rrBaseHi,
  spec_rrCfg, spec_rrProd, spec_rrCons, spec_rrIrq, spec_rrShotDropCnt, spec_wbLo, spec_wbHi, spec_pgAlert,
  spec_capOkCnt, spec_capNackCnt, spec_msixTable, spec_msixPba]
/-- The registers of 12_network_time_tiu.md. -/
def regTable12 : List RegSpec := [
  spec_ptpCtl, spec_ptpSts, spec_ptpNs, spec_ptpNsFrac, spec_ptpRateLo, spec_ptpOffset, spec_ptpOffsetFrac,
  spec_ptpJumpThr, spec_ptpSlew, spec_ptpEpochSecLo, spec_ptpEpochSecHi, spec_ptpEpochNs, spec_ptpJumpCnt,
  spec_ptpLastRefused, spec_ptpRateHi, spec_xtsCtl, spec_xtsDtLo, spec_xtsDtHi, spec_xtsNs, spec_xtsNsFrac,
  spec_ppsOutCtl, spec_ppsPeriod, spec_ptmDtLo, spec_ptmDtHi, spec_ptmMtLo, spec_ptmMtHi, spec_ethTsCtl,
  spec_ethAsymIn, spec_ethAsymOut, spec_ethTsSts, spec_ethLqCtl, spec_ethGuard, spec_ethLateCnt, spec_ethLaunchCnt,
  spec_ethTsStaleCnt, spec_ethRxtsNs, spec_ethRxtsInfo, spec_ethTxtsNs, spec_ethTxtsInfo, spec_tiuInCfg,
  spec_tiuInHoldCnt, spec_tiuInEdgeCnt, spec_tiuInSts, spec_tmCtl, spec_tmN, spec_tmGate, spec_tmTimeout,
  spec_tmSts, spec_tmCount, spec_tmMeanLo, spec_tmMeanHi, spec_tmDev, spec_tmMinLo, spec_tmMinHi, spec_tmMaxLo,
  spec_tmMaxHi, spec_tmFreqLo, spec_tmFreqHi, spec_expCfg, spec_expDropCnt]
/-- The registers of 13_events_housekeeping.md. -/
def regTable13 : List RegSpec := [
  spec_evfCh, spec_evfChCnt, spec_taskSub, spec_taskCtl, spec_taskCoal, spec_taskCnt, spec_evfFire, spec_evfSts,
  spec_evfLoopCnt, spec_evfLoopSrc, spec_evfIrqStsLo, spec_evfIrqStsHi, spec_evfAlertSts, spec_evfSrcSts,
  spec_hkCfg, spec_hkCtl, spec_hkSts, spec_hkPassCnt, spec_hkLimStsLo, spec_hkLimStsHi, spec_hkUrgCfg,
  spec_hkUrgRes, spec_hkUrgFlg, spec_hkMissCnt, spec_hkAbortCnt, spec_hkSeq, spec_hkRes, spec_hkResFlg,
  spec_hkLimLo, spec_hkLimHi, spec_snCfg, spec_snSts, spec_snImpMag, spec_snImpPh, spec_snOpenCnt, spec_snChkCtl]
/-- The registers of 14_power_thermal_calibration.md. -/
def regTable14 : List RegSpec := [
  spec_pmCtl, spec_pmSts, spec_pmTotal, spec_pmLimit, spec_pmEnergyLo, spec_pmEnergyHi, spec_pmDom, spec_avsDom,
  spec_avsCtl, spec_avsEmergCnt, spec_thCtl, spec_thSts, spec_thTj, spec_thAnchor, spec_thCold, spec_thNode,
  spec_thDiode, spec_calCtl, spec_calSts, spec_calTiuQ, spec_calAge, spec_calInsCnt, spec_rtcSecLo, spec_rtcSecHi,
  spec_rtcSetLo, spec_rtcSetHi, spec_rtcCtl, spec_rtcSts, spec_aonSts, spec_tpwCtl, spec_tpwSts, spec_tpwPdCnt,
  spec_islCtl, spec_islLim, spec_islSts, spec_calQ, spec_calQlim, spec_cbCtl, spec_cbSts, spec_cbLogHead,
  spec_cbLastSave, spec_cbCntLo, spec_cbCntHi, spec_cbLog]

/-- The value of the constant (nonzero) reset fields of a register, for the registers that have any. -/
def Reg.resetConst : Reg → Nat
  | .glbId => 0x46025600
  | .glbCaps => 0x85120
  | .glbSts => 0x10
  | .shotLead => 0x100
  | .trigDelay => 0x110
  | .shotMax => 0xFFFFFFFF
  | .shotNum => 0xFFFFFFFF
  | .seqCtl => 0x4
  | .seqSts => 0x7
  | .tqMargin => 0x7FFF
  | .cp => 0x3F00000
  | .fxCfg => 0x1F
  | .fxIirB0 => 0x40000
  | .bqCtl => 0x2
  | .bdCfg => 0x33
  | .bdClrCode => 0x80000
  | .bdSlew => 0x400
  | .bdComp => 0x10064
  | .bdGenSeed => 0x1
  | .poCfg => 0x3
  | .ttCtl => 0x80000
  | .ttWin => 0x1F4
  | .ttAmpRef => 0x1
  | .ttQlim => 0x80
  | .dbCtl => 0x94
  | .dbLoop => 0x80020
  | .dbSts => 0xFFFF
  | .klRouteB => 0xFA
  | .klTtCfg => 0x603E8
  | .klTtSts => 0x7000000
  | .klCtl => 0xF
  | .klFill => 0x400
  | .klMargin => 0x7FFF
  | .klLnCtl => 0x30000000
  | .cfgSts => 0xFF0000
  | .imgFallback => 0x2
  | .tilePlaceCtl => 0x4
  | .tilePlaceSts => 0x3F3F0002
  | .wlBatchCfg => 0x3E80100
  | .cmdCfg => 0x6
  | .rspCfg => 0x9
  | .rrCfg => 0xA
  | .rrIrq => 0x80640020
  | .ptpSts => 0x30
  | .ptpJumpThr => 0x3E8
  | .ptpSlew => 0xFA
  | .ppsOutCtl => 0x186A0
  | .ppsPeriod => 0x5F5E100
  | .ethLqCtl => 0x1
  | .ethGuard => 0x1D40
  | .tiuInCfg => 0x32000204
  | .tmN => 0x1
  | .tmGate => 0xF4240
  | .expCfg => 0x2C
  | .snCfg => 0x400000A
  | .snChkCtl => 0x8000000A
  | .pmLimit => 0x2E630
  | .avsDom => 0x2801E
  | .avsCtl => 0x80000C06
  | .thCtl => 0x805F6473
  | .thCold => 0x190
  | .calCtl => 0x800A000A
  | .islCtl => 0x80000000
  | .islLim => 0x4600
  | .islSts => 0x2D
  | .calQlim => 0x446
  | _ => 0

/-- Every register of the two windows. -/
def regTable : List RegSpec :=
  regTable01 ++ regTable02 ++ regTable03 ++ regTable04 ++ regTable05 ++ regTable06 ++ regTable07 ++ regTable08 ++ regTable09 ++ regTable10 ++ regTable11 ++ regTable12 ++ regTable13 ++ regTable14

/-- The indices of the register at distance `r` from the base, where its dims admit them. -/
def decodeIdx : List (Nat × Nat) → Nat → Option (List Nat)
  | [], r => if r = 0 then some [] else none
  | (n, st) :: ds, r => if r / st < n then (decodeIdx ds (r % st)).map (r / st :: ·) else none

/-- The register of a list at an offset. -/
def findIn : List RegSpec → Nat → Option (RegSpec × List Nat)
  | [], _ => none
  | r :: rs, off =>
    if r.base ≤ off then
      match decodeIdx r.dims (off - r.base) with
      | some ix => some (r, ix)
      | none => findIn rs off
    else findIn rs off

/-- The register at an offset, searched among the registers that the chapter of its block defines (R35, R36). -/
def findReg (off : Nat) : Option (RegSpec × List Nat) := findIn regTable off

end Sys2Proof.Machine
end

