-- ==== Sys2Proof/Machine/State.lean ====
section
/-! DEFINITION. The state of the HN256, as plain data, and the state after reset. Every value that a register shows
has one home: the register map `regs`, or, where a register shows hidden state, that state (the read computes the
view). Indexed state is held in sparse maps (`KMap`). -/

namespace Sys2Proof.Machine

/-! ## Time, events and what the block sends out -/

/-- Who accesses a register or a memory (R39–R41, R365). -/
inductive Req where
  | host
  | capsule (p : Plot)
  | mgmt
  deriving DecidableEq, Repr

/-- Why an access is refused (R43, R64). -/
inductive Refuse where
  | accessErr | memBusy | plotDeny
  /-- ignored with CMD_IGNORED, which the plot's own status records -/
  | ignored
  deriving DecidableEq, Repr

/-- The holding register of a 64-bit pair (R13). -/
structure Hold where
  /-- the register is latched, with the word that its next read returns; `own`: by the low half of its own pair -/
  active : Bool := false
  hi : Word := 0
  own : Bool := false
  /-- the register is a low half that has been read -/
  low : Bool := false
  /-- a new value arrived since the low half was read -/
  fresh : Bool := false
  /-- the tick of the read of the low half -/
  tick : Nat := 0
  deriving DecidableEq, Repr

/-- Device time (R45) and its pending load (R47, R50). -/
structure TimeX where
  /-- ticks since power-on, which no register shows: the base of the timers that run on real time -/
  now : Nat := 0
  dt : BitVec 64 := 0
  /-- the value of the armed load -/
  loadVal : BitVec 64 := 0
  /-- the tick (of `now`) of an armed load; none while it waits for PPS_IN -/
  loadAt : Option Nat := none
  deriving DecidableEq, Repr

/-- What has happened in the present tick, for the ties of R11 and R43: the W1C bits that events have set in it, by register, and
the first access refused in it that GLB_ERR_ADDR, being VALID, did not capture. A tick empties it. -/
structure TieX where
  set : KMap Word := []
  refused : Option Word := none
  deriving DecidableEq, Repr

/-! ## Shot schedulers (R51–R69) -/

/-- A start instant that is fixed and not yet announced (R55–R57). -/
structure Fixed where
  start : Nat
  pause : Nat
  flags : BitVec 16
  deriving DecidableEq, Repr

/-- A shot from its announcement until its record is written (R69, R486). -/
structure Shot where
  /-- serial number within the plot -/
  sid : Nat
  start : Nat
  started : Bool := false
  num : Word := 0
  /-- the end instant E, once the shot has ended -/
  stop : Option Nat := none
  /-- result records written for it -/
  results : Nat := 0
  /-- its timed queues and bias queues that took a late action -/
  lateQ : List Nat := []
  flags : BitVec 16 := 0
  pause : Nat := 0
  /-- bias entries handed over and neither arrived nor discarded -/
  bias : Nat := 0
  /-- it started while the device of a STANDBY pair was not active: its records reach no ring (R285, R287) -/
  quiet : Bool := false
  deriving DecidableEq, Repr

/-- A pause request for the next gap (R55): its ticks and the flag of its cause (R67), if it has one. -/
structure PauseReq where
  ticks : Nat
  flags : BitVec 16
  deriving DecidableEq, Repr

/-- What the fixing of a start by a trigger of the same tick replaced, to be put back where a drain or abort makes the scheduler ignore
the trigger (R58): the tick, PAUSE_LAST, PAUSE_TOTAL, CAL_INS_CNT, the pause requests it took, and whether it took a calibration request. -/
structure FixUndo where
  tick : Nat
  last : Word
  total : Word
  ins : Word
  pauses : List PauseReq
  coord : List (Word × PauseReq)
  cal : Bool
  deriving DecidableEq, Repr

/-- The shot scheduler of a plot. -/
structure Sched where
  /-- shots whose record is not written, oldest first -/
  shots : List Shot := []
  nextSid : Nat := 0
  fixed : Option Fixed := none
  /-- the tick in which the next start is computed -/
  computeAt : Option Nat := none
  /-- earliest start of the first shot of a run, while no shot of the run has ended -/
  firstEarliest : Option Nat := none
  lastStart : Option Nat := none
  lastEnd : Nat := 0
  /-- the pending trigger: T of R56 and the tick of its recognition -/
  trig : Option (Nat × Nat) := none
  /-- the end of the shot whose gap a hold has used (R309, R318) -/
  heldGap : Option Nat := none
  /-- the tick of the last drain or abort that reached the scheduler -/
  cmdTick : Option Nat := none
  /-- a trigger of the present tick found one pending: SHOT_TRIG_OVF is set as the tick ends, unless a drain or abort comes (R58) -/
  trigOvf : Bool := false
  undo : Option FixUndo := none
  pauses : List PauseReq := []
  /-- coordinated pauses by the shot whose gap they name, and NEXT_START of partners not yet compared (R283) -/
  coord : List (Word × PauseReq) := []
  peerNext : List (Word × Nat) := []
  /-- the tick in which an abort takes effect, and whether an UNDERRUN caused it -/
  abortAt : Option (Nat × Bool) := none
  /-- the latest tick of the shot in progress in which an end marker executed or a window closed -/
  endTick : Nat := 0
  deriving DecidableEq, Repr

/-! ## Sequencers and timed queues (R70–R127) -/

/-- What a PLAY starts (R94). -/
structure PlayArg where
  seg : Nat
  amp : Nat
  slot : Nat
  jump : Bool
  deriving DecidableEq, Repr

/-- The commands of a timed queue (R93, R53). -/
inductive TqCmd where
  | play (a : PlayArg)
  /-- alternatives (none: NOP), K, the fallback, the key set and the measurement index -/
  | arm (alts : List (Option PlayArg)) (k fallback ks midx : Nat)
  | mark (level : Bool) (mask val : Nat)
  | vec (level : Bool) (mask val : Nat)
  | meas (len set midx : Nat) (shadow noRec noDec : Bool)
  | biasq (b code : Nat)
  | freq (slot fw : Nat)
  | phase (slot : Nat) (set : Bool) (ph : Word)
  | evt (k : Nat)
  | endMarker
  deriving DecidableEq, Repr

/-- A command on its way from the sequencer to the queue (R27). -/
structure Flight where
  cmd : TqCmd
  stamp : Nat
  sid : Nat
  /-- tick (of `now`) of issue -/
  issued : Nat
  /-- tick in which the issue found the queue full -/
  stalledAt : Option Nat := none
  deriving DecidableEq, Repr

/-- An entry of a timed queue, with the shot-relative tick in which it executes (R72–R75). -/
structure Entry where
  cmd : TqCmd
  stamp : Nat
  sid : Nat
  execAt : Nat
  /-- an ARM's selection (R241), once made -/
  sel : Option (Option PlayArg) := none
  /-- EXECUTE_NOW moved it behind a late entry past its stamp: a late action as it executes (R74) -/
  moved : Bool := false
  deriving DecidableEq, Repr

/-- A timed queue (R70). -/
structure Tq where
  flight : List Flight := []
  held : List Entry := []
  /-- execution tick of the entry that entered last in this shot -/
  ahead : Nat := 0
  /-- stamp of the newest command of the shot, and how many commands of the shot carry it (R72) -/
  stamp : Option Nat := none
  same : Nat := 0
  /-- the tick from which the channel is halted (R74) -/
  haltAt : Option Nat := none
  /-- QUEUE_FULL has fired in this shot (R71) -/
  fullFired : Bool := false
  /-- the channel's end marker of the current shot has not executed yet (R53) -/
  owes : Bool := false
  deriving DecidableEq, Repr

/-- A fault under way: its cause, its detail and the address of its instruction (R114). -/
structure FaultInfo where
  cause : Nat
  info : Word
  pc : Nat
  deriving DecidableEq, Repr

/-- What a sequencer does once its command has entered the queue. -/
inductive After where
  | next
  | preload
  | fault (f : FaultInfo)
  deriving DecidableEq, Repr

/-- What a sequencer waits for. -/
inductive Stall where
  | none
  /-- STALL_Q with the command it holds (R71); `since` is the tick (of `now`) in which the queue was found full -/
  | queue (cmd : TqCmd) (stamp : Nat) (after : After) (since : Nat)
  /-- STALL_DEC: base, K, key set, measurement index, NO_DEADLINE (R107) -/
  | dec (base k ks midx : Nat) (noDeadline : Bool)
  /-- STALL_SYNC: barrier and NOALIGN (R108) -/
  | sync (b : Nat) (noAlign : Bool)
  deriving DecidableEq, Repr

/-- A sequencer's hidden state; its registers show the rest (R78). -/
structure SeqX where
  stall : Stall := .none
  /-- it has executed END or faulted in the current shot -/
  done : Bool := false
  /-- it preloads at the end of the current shot (R124) -/
  joinAtEnd : Bool := false
  /-- the micro-address at which the routine under way waits (R118), where it is walked; a fetch of it was redirected; the microwords
  from there on to one with a parity error -/
  micro : Option Nat := none
  redir : Bool := false
  bad : Option Nat := none
  /-- the key set, the measurement index and K that the decision port last latched (R120) -/
  port : Option (Nat × Nat × Nat) := none
  deriving DecidableEq, Repr

/-! ## Playout, frames, markers, decant (R126–R157) -/

/-- A segment being played (R134, R153, R154). -/
structure Playing where
  seg : Nat
  /-- shot-relative tick of sample 0 -/
  start : Nat
  /-- length in ticks -/
  len : Nat
  amp : Nat
  slot : Nat
  /-- first sample that plays as zero because of an underrun -/
  missing : Option Nat := none
  deriving DecidableEq, Repr

/-- A playout channel (R134–R140). -/
structure Chan where
  playing : Option Playing := none
  /-- segment playing or last played -/
  cur : Nat := 0
  /-- anchor of the granule grid -/
  g0 : Nat := 0
  /-- the pending jump and the tick in which it was requested -/
  jump : Option (PlayArg × Nat) := none
  deriving DecidableEq, Repr

/-- A marker output or vector line (R98, R148): its level and the tick (of DT) in which a running pulse ends. -/
structure Mark where
  level : Bool := false
  pulseEnd : Option Nat := none
  deriving DecidableEq, Repr

/-- A decant descriptor (R150–R156). -/
structure DdX where
  /-- chunks of the prime or playback that are being fetched, oldest first -/
  fetching : List Nat := []
  /-- a prime is under way -/
  priming : Bool := false
  /-- the tick of the last request, for the order of priming fetches (R157) -/
  reqAt : Nat := 0
  /-- chunks resident -/
  resident : List Nat := []
  /-- a chunk of the present playback failed its tag or its transfer -/
  lost : List Nat := []
  /-- the playback that runs: the path and what it plays. It goes on where a restart by the same channel underruns (R155) -/
  player : Option (Nat × Playing) := none
  deriving DecidableEq, Repr

/-! ## Flux filters and bias outputs (R158–R191) -/

/-- The predistortion filter of a flux output (R163–R165), in 1/64 LSB. -/
structure FluxX where
  /-- x[n−1] and y[n−1] of each IIR section -/
  iir : List (Int × Int) := []
  /-- y[n−1], y[n−2], … at the FIR's input -/
  fir : List Int := []
  /-- results on their way to the output sum, newest first, each with the stages that saturated in it: 0–3 the IIR sections, 4 the
  FIR -/
  pipe : List (Int × List Nat) := []
  /-- FLUX_CLIP has fired since the announcement of the last shot (R166) -/
  clipped : Bool := false
  deriving DecidableEq, Repr

/-- A bias entry on its way to the bias die (R172). -/
structure BiasEntry where
  code : Nat
  /-- a BQ_HOST write (R174) -/
  host : Bool
  /-- the application instant of a timed entry; none: the first marker after a DT change (R171) -/
  u : Option Nat
  /-- the shot that issued it: plot and serial number (R486) -/
  shot : Option (Nat × Nat)
  /-- tick (of `now`) of handover -/
  handed : Nat
  /-- its place in the order of handover to the output -/
  ser : Nat
  /-- CRC repeats of its frame -/
  repeats : Nat := 0
  deriving DecidableEq, Repr

/-- A bias entry on the bias die: code, application instant (0: the next marker), the shot that issued it, its place in the order of
handover to the output, and whether it fell due in a park and is held (R189). -/
structure BiasWait where
  code : Nat
  u : Nat
  shot : Option (Nat × Nat)
  ser : Nat
  held : Bool := false
  deriving DecidableEq, Repr

/-- A bias output (R168–R191). -/
structure BiasX where
  /-- configuration has written it (R185) -/
  cfgd : Bool := false
  /-- the output stage is enabled -/
  on : Bool := false
  /-- the span in force -/
  span : Nat := 3
  /-- the code of the last update instant, and the tick (of `now`) in which it latches into the DAC; BD_OUT holds the
  code before it -/
  code : Nat := 0
  latchAt : Nat := 0
  /-- the last update instant: its tick of `now` and its DT -/
  mark : Option (Nat × Nat) := none
  /-- the code before it, whether an entry was applied at it, whether it fell in a park -/
  prev : Nat := 0
  applied : Bool := false
  markParked : Bool := false
  /-- register writes crossing the link: offset in the channel's block, word, tick (of `now`) of arrival, CRC repeats of the frame -/
  writes : List (Nat × Word × Nat × Nat) := []
  /-- entries crossing the link, in the order of handover -/
  flight : List BiasEntry := []
  /-- entries on the bias die, in the order of arrival, those held in a park among them (R189) -/
  queue : List BiasWait := []
  /-- entries handed over to the output so far -/
  handed : Nat := 0
  /-- the shot whose late entry halted the output (R173) -/
  halt : Option (Nat × Nat) := none
  /-- park: phase (R187), the code and span when it began, instants of SETTLE left -/
  phase : Nat := 0
  from0 : Nat := 0
  span0 : Nat := 0
  settle : Nat := 0
  /-- generator: P, direction up, no instant yet since the start, LFSR -/
  pos : Nat := 0
  up : Bool := true
  first : Bool := false
  lfsr : Nat := 1
  /-- consecutive instants over the limit, a trip that has not acted, and whether these instants have tripped the monitor -/
  exceed : Nat := 0
  trip : Bool := false
  tripped : Bool := false
  /-- compliance hold (R182) -/
  hold : Bool := false
  /-- clear: 0 none, 1 pin or shutdown, 2 CLEAR action -/
  clear : Nat := 0
  /-- the clear pin (or shutdown) that asserted at this tick (of `now`) has not acted yet -/
  clearDue : Option Nat := none
  /-- the words of the channel's block last received, while the link is lost (R186) -/
  shadow : List Word := []
  deriving DecidableEq, Repr

/-- A host write held on the core die while the bias link is lost (R174, R186). -/
inductive HeldWrite where
  /-- a register of channel `j`: offset in its block -/
  | bd (j off : Nat) (w : Word)
  /-- BQ_HOST of output `b` of tile `t` -/
  | bq (t b code : Nat)
  /-- a register of the quadrant that belongs to no channel (BQD_STS), at its offset -/
  | quad (a : Nat) (w : Word)
  deriving DecidableEq, Repr

/-! ## Read-out (R195–R224) -/

/-- The result of a window, once stored (R203, R207, R209). -/
structure Result where
  i : Int
  q : Int
  st : Nat
  conf : Nat
  flags : BitVec 16
  deriving DecidableEq, Repr

/-- An open integration window (R204). -/
structure Win where
  /-- the set's number and its four words as latched at opening -/
  set : Nat
  a : Word
  b : Word
  c : Word
  d : Word
  /-- shot-relative tick of opening, length, shot start -/
  t : Nat
  len : Nat
  start : Nat
  plot : Nat
  sid : Nat
  num : Word
  midx : Nat
  noRec : Bool
  noDec : Bool
  /-- ball tick ranges (DT) lost to pre-emption (R206) -/
  lost : List (Nat × Nat) := []
  /-- ball ticks (DT) with a bridge parity error (R197) -/
  marks : List Nat := []
  /-- phase (2⁻⁴⁸ turn) and frequency word of the set's slot at the stamps up to the present one, newest first, 72 at most (R199) -/
  nco : List (Nat × Nat) := []
  /-- an overrange tick was integrated (R196) -/
  ovr : Bool := false
  /-- what was stored in tick L + 31 (R204) -/
  stored : Option Result := none
  deriving DecidableEq, Repr

/-- A stored result with the window that it is of. -/
structure Stored where
  win : Win
  res : Result
  deriving DecidableEq, Repr

/-- An accumulator: two sums, and whether each has clamped (R202). -/
structure Accum where
  i : Int := 0
  q : Int := 0
  ci : Bool := false
  cq : Bool := false
  deriving DecidableEq, Repr

/-- A lane: for each accumulator set (foreground, shadow) the open window, the accumulator, and the averaging job (its
set and the windows taken); and the tone tracker (R204–R208, R217–R220). -/
structure LaneX where
  fg : Option Win := none
  sh : Option Win := none
  accFg : Accum := {}
  accSh : Accum := {}
  jobFg : Option (Nat × Nat) := none
  jobSh : Option (Nat × Nat) := none
  /-- results of the last tick, which feed the loops in this one (R213), and results whose record is due in tick L + 38 (R204) -/
  feeds : List Stored := []
  due : List Stored := []
  /-- the state and the confidence of the result last stored, which discrimination delivers at a tick (of `now`), L + 34 (R198) -/
  disc : Option (Nat × Nat × Nat) := none
  /-- the result last stored, behind the read latch of R224, and whether LN_RES_I was read since LN_RES_Q -/
  resQ : Word := 0
  resMeta : Word := 0
  latched : Bool := false
  /-- vector average, inputs since enable or unfreeze, an input since the last step -/
  vi : Int := 0
  vq : Int := 0
  inputs : Nat := 0
  fresh : Bool := false
  /-- an enable (or disable) and an unfreeze that wait for the next shot end (R220) -/
  pendEn : Option Bool := none
  pendUnf : Bool := false
  deriving DecidableEq, Repr

/-- The threshold loop of a discriminator bank: inputs of states 0, 1, 2 since enable or unfreeze, and what waits for the
next shot end (R213–R216). -/
structure BankX where
  n0 : Nat := 0
  n1 : Nat := 0
  n2 : Nat := 0
  pendEn : Option Bool := none
  pendUnf : Bool := false
  deriving DecidableEq, Repr

/-- A result record in a record buffer (R221, R223): its record tick (DT), lane, plot, shot and bytes. -/
structure Rec where
  tick : Nat
  lane : Nat
  plot : Nat
  sid : Nat
  bytes : List Byte
  deriving DecidableEq, Repr

/-! ## The trellis (R225–R247) -/

/-- A decision on its way to a view. -/
structure Dec where
  value : Nat
  tag : Nat
  midx : Nat
  /-- tick (of `now`) of the release; for a remote slot the DT of it -/
  at_ : Nat
  shadow : Bool
  deriving DecidableEq, Repr

/-- A latched input of a parity unit (R234): mask bit, value, tick (of `now`) of latching, DT of window end. -/
structure ParIn where
  k : Nat
  value : Nat
  at_ : Nat
  wend : Nat
  deriving DecidableEq, Repr

/-! ## Kelair (R248–R292) -/

/-- A message as it is queued, before it takes LSEQ, ALIVE and its check (R266–R268). -/
inductive KMsg where
  | decision (src hops slot value tag midx useDt mask : Nat)
  | tt (kind fracA fracB tseq depth : Nat) (aligned : Bool) (ta tb : Nat)
  | bulk (kind src dst hops : Nat) (payload : List Block)
  deriving DecidableEq, Repr

/-- The PRBS generator and checker of a lane (R251), at 64 bits in 5 ticks. -/
structure LaneTest where
  /-- the generator's register, and the bits that it sends in the present 5 ticks, first bit lowest -/
  gen : BitVec 31 := 0
  tx : BitVec 64 := 0
  /-- errors of INJECT still to be made, and bits sent since the last error of INJ_RATE -/
  inj : Nat := 0
  sent : Nat := 0
  /-- the checker's register, and consecutive received bits that fitted it -/
  chk : BitVec 31 := 0
  fit : Nat := 0
  deriving DecidableEq, Repr

/-- A link (R257–R276). -/
structure KLink where
  /-- messages that wait for a place in the replay buffer, and those sent and not acknowledged, with their LSEQ -/
  wait : List KMsg := []
  replay : List (Nat × List Block) := []
  txSeq : Nat := 0
  /-- alive counters of the six streams, as last sent -/
  txAlive : List Nat := []
  /-- the LSEQ expected; a NAK is outstanding -/
  rxSeq : Nat := 0
  naked : Bool := false
  /-- consecutive failures of the message expected, and of the one that the partner names -/
  rxFails : Nat := 0
  txNak : Option Nat := none
  txFails : Nat := 0
  /-- last accepted alive value of the six streams, and the streams that have accepted none since training -/
  rxAlive : List (Option Nat) := []
  freshRx : List Nat := []
  /-- the lanes still good in the training attempt -/
  good : Nat := 0
  /-- ticks (of `now`): begin of the attempt, end of the back-off, entry to DOWN, last message, last filler row sent,
  last filler action -/
  attemptAt : Nat := 0
  backoffAt : Nat := 0
  downAt : Nat := 0
  msgAt : Nat := 0
  fillAt : Nat := 0
  actAt : Nat := 0
  /-- the attempt is a retry of AUTORETRY -/
  retry : Bool := false
  /-- lanes whose next block carries an inverted bit, and bit slips of each lane -/
  inject : List Nat := []
  slips : List Nat := []
  /-- the PRBS test of each lane (R251), and by lane the ticks (of `now`) of its invalid headers (R253) -/
  tests : List LaneTest := []
  badHdr : List (Nat × Nat) := []
  /-- an IDLE_REQ has been sent since the last message -/
  asked : Bool := false
  deriving DecidableEq, Repr

/-- A mirrored capsule or image that waits for its shot boundary (R288). -/
structure Mirror where
  plot : Nat
  shot : Word
  units : List UnitWrite
  /-- the partial image it is, with the tile of a PATCH image (FFh: the whole image) -/
  image : Option (Byte × List Byte)
  deriving DecidableEq, Repr

/-- The pair (R282–R289). -/
structure PairX where
  /-- tick (of `now`) of the last heartbeat received and sent -/
  hbAt : Nat := 0
  hbSent : Nat := 0
  /-- HB_LOST has been raised since the last heartbeat -/
  hbGone : Bool := false
  /-- the change that waits for a shot boundary: becoming active or not, and the tick (of `now`) of the request -/
  change : Option (Bool × Nat) := none
  /-- what role B drives on PAIR_ACT; none: high-impedance -/
  drive : Option Bool := none
  mirrors : List Mirror := []
  deriving DecidableEq, Repr

/-- Time transfer (R277–R281). -/
structure TtX where
  tseq : Nat := 0
  /-- the exchange under way: number and t₁, in 1/256 tick -/
  out : Option (Nat × Nat) := none
  /-- exchanges of the present average and the sum of their (t₂ − t₁) − (t₄ − t₃) in 1/256 tick -/
  n : Nat := 0
  sum : Int := 0
  sentAt : Nat := 0
  /-- the TRIM step that the last average asks for, not yet taken (R280) -/
  step : Int := 0
  /-- block boundaries of responses that are still to leave: the tick (of `now`), the link, the fraction (R278, R393) -/
  edges : List (Nat × Nat × Byte) := []
  deriving DecidableEq, Repr

/-! ## Host rings (R358–R380) -/

/-- An item that waits for room in a result ring (R370): the serial number of the shot whose records it follows, and its
bytes. -/
structure RingItem where
  sid : Nat
  /-- a shot record (else a batch trailer), with its number, and whether it carries LAST -/
  shot : Bool
  num : Word := 0
  last : Bool := false
  bytes : List Byte
  deriving DecidableEq, Repr

/-- A result batch under way (R346): its record slots in ring order, shot numbers, the tick (of `now`) of its first
record. -/
structure BatchX where
  slots : List (List Byte)
  firstNum : Word
  lastNum : Word
  firstAt : Nat
  /-- its last slot is a shot record: it holds whole shots -/
  whole : Bool := false
  deriving DecidableEq, Repr

/-- A capsule from its fetch until its response (R362–R367). -/
structure CapX where
  cseq : BitVec 64
  tag : Word
  gen : Nat
  respReq : Bool
  slots : Nat
  /-- its header, the additional data of its tag (R343); its body, once authenticated -/
  head : List Byte := []
  body : Option (List Byte) := none
  /-- position of the next operation, and its index -/
  pos : Nat := 0
  op : Nat := 0
  data : List Byte := []
  /-- WAIT_STATE: the state awaited and the tick (of `now`) of the timeout -/
  wait : Option (Nat × Nat) := none
  /-- an IMAGE_REF is being fetched -/
  fetching : Bool := false
  deriving DecidableEq, Repr

/-- A key generation that is no longer in force while records of its shots are outstanding (R346): the last of these shots, the generation,
its root key, the number of its next batch. -/
structure OldKey where
  sid : Nat
  gen : Nat
  prk : List Byte
  num : Word
  deriving DecidableEq, Repr

/-- The rings of a plot. -/
structure RingX where
  /-- shot records and trailers that wait, oldest first (R372) -/
  queue : List RingItem := []
  /-- the serial number of the newest shot record written -/
  lastSid : Nat := 0
  batch : Option BatchX := none
  /-- the key generations before the one in force whose last records have not been written, oldest first (R346) -/
  former : List OldKey := []
  /-- shots of which a record was discarded -/
  lost : List Nat := []
  /-- trailers that wait for a signature (R349), oldest first -/
  signing : List (List Byte) := []
  /-- result slots since the last message of the vector, and the tick (of `now`) of the first (R379) -/
  irqSlots : Nat := 0
  irqSince : Option Nat := none
  /-- an index advanced since the last writeback, and the tick of that (R361) -/
  wbDirty : Bool := false
  wbAt : Option Nat := none
  /-- vectors whose message waits for the writeback that reports the same change (R361), in the order of their sources -/
  irqWait : List Nat := []
  /-- CSEQ of the last response (R343) -/
  rspSeq : Nat := 0
  /-- responses and notices that wait for room -/
  rspWait : List (List Byte) := []
  cap : Option CapX := none
  deriving DecidableEq, Repr

/-- The PCI Express endpoint, beside its registers (R354, R357, R376–R378, R471). -/
structure PcieX where
  /-- Bus Master Enable, the maximum read request size as 128 · 2ⁿ bytes and Relaxed Ordering of Device Control, MSI-X Enable and
  Function Mask -/
  busMaster : Bool := false
  readReq : Nat := 2
  relaxed : Bool := true
  msixEn : Bool := false
  msixMask : Bool := false
  /-- the errors that AER reports (R356), at the bits of its Uncorrectable Error Status -/
  aer : Word := 0
  d3 : Bool := false
  /-- PE_PERST_n is low -/
  perst : Bool := true
  /-- the negotiated maximum payload, in bytes -/
  payload : Nat := 128
  /-- the plot whose result ring was written last (R376) -/
  turn : Nat := 7
  deriving DecidableEq, Repr

/-! ## Network time and the time-interval unit (R381–R400) -/

/-- A slew of the PTP clock (R385), in clock units: the whole correction, its length in ticks, what is left of it, and
the running remainder of the division that spreads it. -/
structure SlewX where
  c : Int
  n : Nat
  left : Int
  ph : Nat := 0
  deriving DecidableEq, Repr

/-- The PTP clock (R384–R386, R390). Its unit is 2⁻⁴⁸ of 0.4 ns: 1 ns is 5 · 2⁴⁷ units. -/
structure PtpX where
  clock : Nat := 0
  /-- the clock before the last tick -/
  prev : Nat := 0
  rate : Int := 0
  /-- committed rates that take effect at a tick (of `now`), and corrections in 2⁻¹⁶ ns likewise -/
  rates : List (Nat × Int) := []
  corrs : List (Nat × Int) := []
  slew : Option SlewX := none
  /-- the committed epoch: EPOCH_SEC and EPOCH_NS; none before the first commit -/
  epoch : Option (Nat × Nat) := none
  /-- the clock wrapped in the last tick, and PTP_WRAP has not fired for it -/
  wrapped : Bool := false
  /-- the tick (of `now`) of the last PPS_OUT edge; the pulses that have not ended at the ball: the ticks of their begin and of their end
  there -/
  ppsAt : Option Nat := none
  pulses : List (Nat × Nat) := []
  deriving DecidableEq, Repr

/-- An Ethernet port (R382, R383, R387, R388): stamps that wait (ns and INFO), the Pdelay_Req that have not been answered (port identity,
sequenceId, stamp in 2⁻¹¹ ns), launch entries (frame, t), late frames that wait for the line. -/
structure EthX where
  rx : List (Word × Word) := []
  tx : List (Word × Word) := []
  reqs : List (Nat × Nat × Nat) := []
  lq : List (Nat × Word) := []
  late : List Nat := []
  deriving DecidableEq, Repr

/-- A TIU input (R395, R399): the conditioned level, the level at the ball, the tick (of `now`) of the last conditioned
transition, and those of the last transitions at the ball. -/
structure TiuX where
  level : Bool := false
  ball : Bool := false
  condAt : Option Nat := none
  recent : List Nat := []
  /-- conditioned transitions of the last 10 ticks, newest first: tick (of `now`) and level; those that the shot schedulers have
  recognised are gone (R58) -/
  conds : List (Nat × Bool) := []
  deriving DecidableEq, Repr

/-- A measurement engine (R396–R398), with the settings latched at GO. -/
structure TmX where
  mode : Nat := 0
  a : Nat := 0
  b : Nat := 0
  n : Nat := 0
  gate : Nat := 0
  timeout : Nat := 0
  /-- the tick (of `now`) of GO; the generation that its events carry -/
  startAt : Nat := 0
  gen : Nat := 0
  count : Nat := 0
  sum : Int := 0
  sq : Int := 0
  /-- Σ i · tᵢ (FREQ_REG) -/
  sumIT : Int := 0
  min : Int := 0
  max : Int := 0
  /-- the A stamp that is pending or last; the first result (PHASE) or stamp (FREQ_REG) -/
  last : Option Nat := none
  first : Option Int := none
  deriving DecidableEq, Repr

/-- Result export (R400): items written and not sent, with the tick (of `now`) of writing; the sequence number. -/
structure ExpX where
  items : List (Nat × List Byte) := []
  seq : Nat := 0
  deriving DecidableEq, Repr

/-! ## Housekeeping (R413–R427) -/

/-- A conversion (R413). -/
structure HkConv where
  /-- 0 an entry of the sequence, 1 the thermal slot, 2 the host slot -/
  kind : Nat
  /-- layout of HK_SEQ -/
  entry : Word
  /-- entry number (kind 0) -/
  e : Nat := 0
  /-- as HK_STS.STATE: 1 WAIT_REF, 2 SETTLE, 3 CHECK, 4 INTEGRATE, 6 CHECK_WAIT -/
  phase : Nat
  /-- the tick (of `now`) in which the phase began -/
  at_ : Nat
  deriving DecidableEq, Repr

/-- What is held on the core die while the bias link is lost (R421). -/
inductive HkHeld where
  | write (off : Nat) (w : Word)
  /-- a task input and the generation of its event -/
  | task (k gen : Nat)
  deriving DecidableEq, Repr

/-- A housekeeping converter. -/
structure HkX where
  conv : Option HkConv := none
  /-- the entry to convert next; the gap between passes began at this tick (of `now`) -/
  idx : Nat := 0
  gap : Option Nat := none
  /-- the host slot waits; its entry -/
  urg : Bool := false
  urgEntry : Word := 0
  /-- inputs that wait in the thermal slot -/
  therm : List Nat := []
  /-- what the thermal slot has converted since the last anchor began: input and code (R437) -/
  diodes : List (Nat × Int) := []
  /-- generations that the events of the sequence, of the host slot and of the checks carry (R403) -/
  gen : Nat := 0
  urgGen : Nat := 0
  chkGen : Nat := 0
  /-- the tick (of `now`) from which the reference settles; REF_FAULT was raised for it -/
  refAt : Nat := 0
  refBad : Bool := false
  held : List HkHeld := []
  /-- results held on the bias die: entry number (64: the host slot), its table word, code, flags in bits 31:27, and the generation that
  the events of its conversion carry -/
  heldRes : List (Nat × Word × Int × Nat × Nat) := []
  /-- the tick (of `now`) from which the check period counts -/
  perAt : Nat := 0
  deriving DecidableEq, Repr

/-- A sensor front end: the configuration in force (R426), its check (0 none, 1 due, 2 running) and the tick (of `now`)
in which it began. -/
structure SnX where
  cfg : Word := 0x0400000A
  chk : Nat := 0
  at_ : Nat := 0
  deriving DecidableEq, Repr

/-! ## Power, thermal control, calibration, cellar book (R428–R455) -/

/-- Ticks (of `now`) of the last action of what acts periodically, and the hidden state of the loops. -/
structure PowerX where
  /-- µJ below the last mJ of PM_ENERGY -/
  uj : Nat := 0
  meterAt : Nat := 0
  modelAt : Nat := 0
  throttleAt : Nat := 0
  secondAt : Nat := 0
  /-- thermal-cycle tracker (R451): in state HIGH, the extreme it tracks -/
  cycHigh : Bool := false
  cycRef : Int := 400
  /-- thermal anchors (R437): the tick in which the last one began and whether it is under way, the last success, whether ERR
  is added to Tj -/
  anchorAt : Option Nat := none
  anchoring : Bool := false
  anchorOk : Nat := 0
  errAdds : Bool := false
  /-- the core rail (R434, R465): requested and last acknowledged (mV), the tick of the last request while it is not acknowledged, and
  whether the regulator has left it unacknowledged -/
  railReq : Nat := 800
  railAck : Nat := 800
  railAt : Option Nat := none
  railBad : Bool := false
  /-- domains that rise in an emergency -/
  emerg : List Nat := []
  /-- PM_TOTAL is above PM_LIMIT (R429); the tick (of `now`) of the start-up -/
  overLim : Bool := false
  upAt : Nat := 0
  deriving DecidableEq, Repr

/-- A converter (R432): 0 awake, 1 entering power-down or down, 2 waking; the tick (of DT) in which entry or waking
began; consecutive ticks, up to 1,024, in which its code was 0 (flux). -/
structure ConvX where
  st : Nat := 0
  at_ : Nat := 0
  zero : Nat := 0
  deriving DecidableEq, Repr

/-- A copy of the calibration store or of the cellar book in MRAM (R448, R450): its sequence number, its bytes, its CRC-32C. -/
structure MramCopy where
  seq : Nat
  body : List Byte
  crc : BitVec 32
  deriving DecidableEq, Repr

/-- Calibration (R443–R449): next task of each tile, plots with a pause request, tick (of `now`) and end (DT) of the last slot of a plot,
rejections of device tasks (0–33 TIU inputs, 34 + 4k + i lanes), trims in force (task, quality at acceptance; tasks 32t + u, 1,024 + device
task), the two copies of the store, sealed under the MRAM key, the tick of the last save and of each device task's last run. A part whose MRAM
nothing has written holds no copy (DESIGN CHOICE, log entry 118). -/
structure CalX where
  next : KMap Nat := []
  req : List Nat := []
  slotAt : KMap Nat := []
  slotEnd : KMap Nat := []
  rej : KMap Nat := []
  trims : KMap Word := []
  copyA : Option MramCopy := none
  copyB : Option MramCopy := none
  savedAt : Nat := 0
  devAt : KMap Nat := []
  /-- the codes that flux outputs hold in a slot that calibrates them, of output f of tile t at 14·t + f (R444) -/
  fluxHeld : KMap Int := []
  deriving DecidableEq, Repr

/-- The cellar book (R450, R453): the two MRAM copies of the counters, writes of each 4 KiB page of the MRAM, the tick (of `now`) of the
last save, a save that waits for the management cores, and the powered seconds that have passed while a reset holds the counters. -/
structure BookX where
  copyA : Option MramCopy := none
  copyB : Option MramCopy := none
  pages : KMap Nat := []
  savedAt : Nat := 0
  want : Bool := false
  secs : Nat := 0
  deriving DecidableEq, Repr

/-- The always-on domain and the reset inputs (R440–R442, R455, R466). -/
structure AonX where
  /-- the resets of POR_n and SYS_RST_n act; the tick (of `now`) in which SYS_RST_n fell -/
  por : Bool := true
  sys : Bool := false
  sysAt : Nat := 0
  /-- the ticks in which POR_n and SYS_RST_n fell, while the glitch filter has not passed the pulse (R467) -/
  porLow : Option Nat := none
  sysLow : Option Nat := none
  /-- VDD_IO is within tolerance (R463) -/
  vddIo : Bool := true
  /-- every domain except always-on is off after a shutdown -/
  off : Bool := false
  /-- THERM_TRIP_n is low; the trip latch: calendar second and diode; the latch is not copied into the event log yet -/
  tripped : Bool := false
  latch : Option (Nat × Nat) := none
  tripNew : Bool := false
  /-- a run is under way or ended without a shutdown record; the last run ended in a shutdown -/
  open_ : Bool := false
  shut : Bool := false
  /-- the crystal lost VBAT: what the calendar held -/
  invalid : Option Nat := none
  /-- the start-up that follows is a power-up: POR_n has been low since the last one -/
  powerUp : Bool := true
  deriving DecidableEq, Repr

/-- The REF_IN monitor (R469): the ticks (of `now`) of the reset release, from which a boot waits for it, and of its last loss. -/
structure RefX where
  bootAt : Nat := 0
  lostAt : Nat := 0
  deriving DecidableEq, Repr

/-! ## The configuration loader (R293–R323) -/

/-- Where an image comes from. -/
inductive ImgSrc where
  | slotA | slotB | load | apply
  | capsule (p : Nat)
  deriving DecidableEq, Repr

/-- An image in the loader (R307). -/
structure ImgX where
  src : ImgSrc
  /-- CSEQ and TAG of the capsule, and the index of its operation -/
  cseq : BitVec 64 := 0
  tag : Word := 0
  op : Nat := 0
  /-- the whole image, and its header and section table, once fetched -/
  bytes : List Byte := []
  header : List Byte := []
  /-- plot keys that its KEYS sections bring: plot, generation, root key; and their ENFORCE bit (R337) -/
  keys : List (Nat × Nat × List Byte) := []
  enforce : Bool := false
  units : List (Nat × Nat × List UnitWrite) := []
  /-- applied in STOPPED mode -/
  stopped : Bool := false
  /-- plots concerned; tiles still to apply (PATCH: one per gap) -/
  plots : List Nat := []
  tiles : List Nat := []
  /-- the gap tag of a coordinated plot (R283) -/
  gap : Option Word := none
  deriving DecidableEq, Repr

/-- A hold under way (R309, R318): the plot, the tiles, the sequencers (keys), the tick (of `now`) of its begin, its pause, and
for a placement the failed sequencer (tile, index) and the spare. -/
structure HoldX where
  plot : Option Nat
  tiles : List Nat
  seqs : List Nat
  at_ : Nat
  pause : Nat
  place : Option (Nat × Nat × Nat) := none
  /-- the held sequencers that were to stay FAULTED until CLR_FAULT (R115), and go back to it -/
  faulted : List Nat := []
  deriving DecidableEq, Repr

/-- The loader and Henone. -/
structure CfgX where
  img : Option ImgX := none
  hold : Option HoldX := none
  /-- boot: slots still to try, oldest first; the boot is under way -/
  order : List ImgSrc := []
  booting : Bool := false
  /-- ROLLBACK and bytes of the FULL image in force; the partial images applied -/
  rollback : Nat := 0
  image : List Byte := []
  partials : List (List Byte) := []
  /-- quadrants whose converter bridge and bias link trained at start-up (R44), and those whose bridge, and whose bias link, did -/
  trained : Nat := 0
  bridges : Nat := 0
  links : Nat := 0
  /-- failed sequencers (tile, index) that the present shot still runs, and those that wait for a placement -/
  failing : List (Nat × Nat) := []
  waiting : List (Nat × Nat) := []
  /-- failed sequencers whose program could not be copied: the next PROGRAM image goes to the next spare -/
  lost : List (Nat × Nat) := []
  /-- UCODE and PM_ECC faults of each sequencer (key) since configuration -/
  faults : KMap Nat := []
  /-- the tick (of `now`) of the end of a trial boot; a flash write: its slot, 0 or 1, and the tick (of `now`) of its begin -/
  trialAt : Option Nat := none
  flash : Option (Nat × Nat) := none
  /-- what the part has written to a slot (R322); none: what the flash holds is not known -/
  slots : KMap (Option (List Byte)) := []
  /-- read command and dummy cycles that SFDP gave for a slot (R298) -/
  reads : KMap (Option (Byte × Byte)) := []
  /-- the running Henone copy (R321, R323) -/
  hen : List Byte := []
  deriving DecidableEq, Repr

/-! ## Welolyan (R324–R352) -/

/-- A plot key sealed in MRAM (R333): its generation, and ciphertext and tag under the MRAM key. -/
structure SealX where
  gen : Nat
  blob : List Byte
  deriving DecidableEq, Repr

/-- A certificate (R330): its level, the level that issued it, the subject's serialNumber, its key, its extension, the signature. -/
structure CertX where
  level : Nat
  issuer : Nat
  subject : List Byte
  key : List Byte
  ext : List Byte
  sig : List Byte
  deriving DecidableEq, Repr

/-- Fuses, keys and the mailbox. -/
structure WlX where
  /-- owner key slots programmed, slot 0 first, and whether every fuse of each read back set (R328, R331); the slot in force (none: Fh) -/
  slots : List Bool := []
  inForce : Option Nat := none
  /-- the fuses that commands have blown (R326), by their number in the array -/
  blown : List Nat := []
  /-- a debug unlock waits for the next reset -/
  debugNext : Bool := false
  /-- result of the command that runs -/
  result : Option Nat := none
  /-- commands accepted: the index of the nonce -/
  nonces : Nat := 0
  /-- the key sealed in MRAM for each plot -/
  sealed_ : KMap (Option SealX) := []
  /-- the intent record in MRAM: command and fuses to blow (R328) -/
  intent : Option (Nat × List Nat) := none
  /-- the device root key, formed at power-up (R329), and the plot root keys in force (R332) -/
  drk : List Byte := []
  prk : KMap (List Byte) := []
  /-- the alias certificate in MRAM (R330) -/
  alias_ : Option CertX := none
  /-- the plot whose capsule is authenticated, and the plot served last (R369) -/
  serving : Option Nat := none
  served : Nat := 7
  deriving DecidableEq, Repr

/-- An SPDM session (R351): in its handshake or established, and the key updates made. -/
structure SessX where
  up : Bool
  keys : Nat := 0
  deriving DecidableEq, Repr

/-- The SPDM responder (R351, R352): negotiation reached (0 none, 1 version, 2 capabilities, 3 algorithms), sessions, the
chain of slot 1, IDE keys by stream. -/
structure SpdmX where
  stage : Nat := 0
  sess0 : Option SessX := none
  sess1 : Option SessX := none
  slot1 : List Byte := []
  ide : KMap (List Byte) := []
  deriving DecidableEq, Repr

/-- The TAP (R484): the instruction selected (0 BYPASS, 1 IDCODE, 2 SAMPLE, 3 PRELOAD, 4 EXTEST, 5 CLAMP, 6 HIGHZ,
7 EXTEST_PULSE, 8 EXTEST_TRAIN), boundary cells, the bits last captured. -/
structure JtagX where
  ir : Nat := 1
  cells : List Bool := []
  capture : List Bool := []
  deriving DecidableEq, Repr

/-! ## What leaves the block -/

/-- What the HN256 sends out. -/
inductive Out where
  /-- the SFDP read of a flash slot, 1S-1S-1S at 50 MHz on its chip select (R298) -/
  | sfdpRead (slot : Nat)
  /-- a read of a flash slot with the command and the dummy cycles that SFDP gave: address and bytes (R298) -/
  | flashRead (slot : Nat) (cmd dummy : Byte) (addr len : Nat)
  /-- bytes programmed into a flash slot from an address on (R322) -/
  | flashWrite (slot addr : Nat) (bytes : List Byte)
  /-- a read of host memory for an image (R306, R322, R364): address and bytes -/
  | hostRead (addr len : Nat)
  /-- a read of host memory for chunk `chunk` of decant descriptor `d` of tile `t` (R151): address and bytes, with or without Relaxed
  Ordering (R376) -/
  | decantRead (t d chunk addr len : Nat) (relaxed : Bool)
  /-- blocks on Kelair link `k`: a message or a link-control block -/
  | blocks (k : Nat) (bs : List Block)
  /-- a filler row on the lanes `lanes` of link `k` -/
  | filler (k lanes : Nat)
  /-- a read of `len` bytes at a host address for the command ring of plot `p` (R363, R375) -/
  | ringRead (p addr len : Nat)
  /-- bytes written at a host address of the response ring (1) or result ring (2) of plot `p`, with or without Relaxed Ordering
  (R358, R376) -/
  | ringData (p ring addr : Nat) (bytes : List Byte) (relaxed : Bool)
  /-- the writeback block of plot `p` at a host address -/
  | writeback (p addr : Nat) (bytes : List Byte)
  /-- an MSI-X message of vector `v`: address and data of its table entry -/
  | msix (v addr data : Nat)
  /-- a timed frame, or a late one, of Ethernet port `e` -/
  | frame (e frame : Nat)
  /-- what one-step operation inserts into a frame of port `e`: message type, sequenceId, seconds and ns (Sync), or 0 and the
  turnaround in 2⁻¹¹ ns (Pdelay_Resp) -/
  | oneStep (e msg seqId sec value : Nat)
  /-- a UDP export datagram on port `e`: plot and payload -/
  | datagram (e p : Nat) (bytes : List Byte)
  /-- a PPS_OUT edge at the ball 32 ticks later -/
  | pps
  /-- interrupt `j` to the management cores -/
  | mgmtIrq (j : Nat)
  /-- a request of the core rail in mV over AVSBus -/
  | avs (mv : Nat)
  /-- a stretch of the clock of island `i` of tile `t` -/
  | stretch (t i : Nat)
  /-- the answer to an SMBus block read -/
  | smbus (bytes : List Byte)
  /-- the bits that the TAP selects between TDI and TDO: the bypass register, IDCODE, or the boundary register -/
  | tap (bits : List Bool)
  /-- an SPDM response: its code and what it carries; 7Fh is ERROR -/
  | spdm (code : Nat) (fields : List Nat) (data : List Byte)
  deriving DecidableEq, Repr

/-! ## The state -/

/-- The state of the block. -/
structure State where
  /-- the registers of the control and doorbell windows, by byte offset; unlisted: the reset value -/
  regs : KMap Word := []
  /-- the memory window (R37), by byte offset; unlisted: 0 -/
  mem : List Host.Cell := []
  /-- the holding registers of the 64-bit pairs (R13), by the offset of the low half -/
  holds : KMap Hold := []
  tm : TimeX := {}
  /-- the ties of the present tick (R11, R43) -/
  tie : TieX := {}
  /-- events that have fired and that the fabric has not taken: source and generation, oldest first (R404) -/
  evq : List (Nat × Nat) := []
  /-- channels that EVF_FIRE has fired and that the fabric has not taken: channel and generation (R407, R409) -/
  evIn : List (Nat × Nat) := []
  scheds : KMap Sched := []
  seqs : KMap SeqX := []
  tqs : KMap Tq := []
  chans : KMap Chan := []
  /-- working frequency word of slot k of path n (0–15) of tile t, at 128·t + 8·n + k (R141); its working phase is
  FS_PH_WORK -/
  freqs : KMap (BitVec 48) := []
  /-- changes of slot k of tone channel p of tile t in the last ticks, newest first, at 64·t + 8·p + k: the DT of the change, and the
  frequency word and the phase offset before it (R142, R199) -/
  slotLog : KMap (List (Nat × Nat × Nat)) := []
  /-- the last 23 ticks of path n (0–15) of tile t at 16·t + n, newest first: the scaled envelope, the phase at the tick's first
  RF DAC sample and the frequency word (R126, R144); trailing ticks with a zero envelope are left out -/
  envs : KMap (List (Int × Int × Nat × Nat)) := []
  /-- MARK level of marker output m of tile t at 4·t + m, VEC level of vector line v at 4·t + 2 + v (R148, R149) -/
  marks : KMap Mark := []
  /-- the sources of tile t that fire once in a shot and have fired in it -/
  once : KMap (List Nat) := []
  /-- the outputs of tile t (XY output 0–3, probe output 4, flux output 5 + f) that a converter-bridge parity error mutes until
  the end of the shot, each with the tick (of `now`) after which it does (R21) -/
  parity : KMap (List (Nat × Nat)) := []
  decs : KMap DdX := []
  /-- tile views of qubit slots 0–255 (R226), laid out as TRL_SLOT; TRL_SLOT itself is the device view -/
  tileViews : KMap Word := []
  /-- the tick (of `now`) in which a decision last entered the tile view of slot n, and at 1,024 + n the device view of slot n (R243) -/
  viewAts : KMap Nat := []
  /-- flux filter of output f of tile t at 14·t + f -/
  fluxes : KMap FluxX := []
  /-- bias channel j of quadrant q at 128·q + j -/
  biases : KMap BiasX := []
  /-- the last update instant at which BIAS_CLR_n of quadrant q was sampled (tick of `now`), and whether it was low (R184) -/
  clrSamp : KMap (Option (Nat × Bool)) := []
  /-- host writes held while the bias link of quadrant q is lost, oldest first -/
  heldWrites : KMap (List HeldWrite) := []
  /-- read-out lane p of tile t at 8·t + p -/
  lanes : KMap LaneX := []
  /-- discriminator bank d of lane p of tile t at 32·t + 4·p + d -/
  banks : KMap BankX := []
  /-- the record buffer of each tile, oldest first -/
  recs : KMap (List Rec) := []
  /-- decisions on their way to the tile view of slot n, and to the device view of slot n (0–319) -/
  tileRels : KMap (List Dec) := []
  devRels : KMap (List Dec) := []
  /-- remote decisions that wait for USE_DT, by map entry -/
  remRels : KMap (List Dec) := []
  /-- latched inputs of each parity unit -/
  parIns : KMap (List ParIn) := []
  links : KMap KLink := []
  pair2 : PairX := {}
  ttx : TtX := {}
  rings : KMap RingX := []
  pcie : PcieX := {}
  /-- the tick (of `now`) in which a restart of the management cores began (R323) -/
  henRestart : Option Nat := none
  /-- REF_IN is lost: the clocks run in holdover (R469) -/
  refLost : Bool := false
  /-- the tick (of `now`) in which a shutdown began (R440) -/
  shutAt : Option Nat := none
  ptp : PtpX := {}
  eths : KMap EthX := []
  tius : KMap TiuX := []
  tms : KMap TmX := []
  exps : KMap ExpX := []
  hks : KMap HkX := []
  /-- sensor channel c (0–31) -/
  sns : KMap SnX := []
  power : PowerX := {}
  /-- last step (tick of `now`) of the voltage loop of each domain -/
  avsAt : KMap Nat := []
  /-- converter of tile t at 32 · t + o: XY RF DAC o (0–3), probe RF DAC (4), flux DAC f (5 + f) -/
  convs : KMap ConvX := []
  cal : CalX := {}
  book : BookX := {}
  aon : AonX := {}
  refx : RefX := {}
  cfg : CfgX := {}
  wl : WlX := {}
  spdm : SpdmX := {}
  jtag : JtagX := {}
  out : List Out := []
  /-- what the last read returned -/
  readData : Word := 0
  /-- the bytes that the last read of the memory window returned (R38) -/
  readMem : List Byte := []
  /-- the queue of commands that wait -/
  pending : List Instr := []
  deriving DecidableEq, Repr

/-- The state after reset: POR_n is low, every register holds its reset value, nothing waits (R466). A device in PROVISIONED, with
no boot behind it. -/
def State.reset : State := {}

/-- Faults of the model: none is raised, since the spec gives every command its effect. -/
inductive Fault where
  /-- raised by no command; safe -/
  | never
  deriving DecidableEq, Repr

/-- Refusals of the model. -/
inductive Refusal where
  /-- raised by exec for a command that has no meaning yet; safe -/
  | notModelled (mnemonic : String)
  deriving DecidableEq, Repr

/-- The three outcomes of a command. -/
abbrev Res := Host.Outcome State Fault Refusal

end Sys2Proof.Machine
end

