-- ==== Sys2Proof/Machine/Ops.lean ====
section
/-! DEFINITION. The named operations over registers, memory, events and shots that every command uses. -/

namespace Sys2Proof.Machine

/-! ## Fields of a word -/

/-- The value of field NAME[hi:lo] (R9). -/
def getF (v : Word) (f : Fld) : Nat := v.toNat / 2 ^ f.lo % 2 ^ (f.hi + 1 - f.lo)

/-- The word with field NAME[hi:lo] replaced. -/
def putF (v : Word) (f : Fld) (x : Nat) : Word :=
  BitVec.ofNat 32 (v.toNat / 2 ^ (f.hi + 1) * 2 ^ (f.hi + 1) + x % 2 ^ (f.hi + 1 - f.lo) * 2 ^ f.lo
    + v.toNat % 2 ^ f.lo)

/-- A one-bit value of a Bool. -/
def b2n (b : Bool) : Nat := if b then 1 else 0

/-- A signed field value: two's complement of `n` bits. -/
def sext (n x : Nat) : Int := if 2 ^ (n - 1) ≤ x % 2 ^ n then (x % 2 ^ n : Nat) - (2 ^ n : Nat) else (x % 2 ^ n : Nat)

/-- A two's-complement word of a number. -/
def toW (i : Int) : Word := BitVec.ofInt 32 i

/-- Clamps a number to a range. -/
def clampI (lo hi x : Int) : Int := if x < lo then lo else if hi < x then hi else x

/-- Division rounded to nearest, ties away from zero. -/
def roundDiv (a : Int) (d : Nat) : Int :=
  if 0 ≤ a then ((2 * a.toNat + d) / (2 * d) : Nat) else -(((2 * (-a).toNat + d) / (2 * d) : Nat) : Int)

/-- A quotient rounded to one of the two whole numbers next to it; which one the spec does not state. -/
def divOpen (x : Int) (d : Nat) : Int :=
  let q := x / d
  if x % d = 0 then q else if Config.roundUp (x - q * d).toNat d then q + 1 else q

/-! ## Registers -/

/-- The role code of a sequencer index (R2, R83). -/
def roleCode (q : Nat) : Nat :=
  if q < 8 then 0 else if q < 16 then 1 else if q < 24 then 2 else if q < 30 then 3 else if q < 32 then 4 else 5

/-- The domains whose voltage the loop adapts (R434). -/
def adapted (d : Nat) : Bool := decide (d < 128) || d == 153 || d == 154 || d == 158 || d == 159

/-- Reset values that depend on the register's index or on the part. -/
def resetBy : Reg → List Nat → Word
  | .glbId, _ => BitVec.ofNat 32 Config.stepping.toNat
  | .glbSerialLo, _ => BitVec.ofNat 32 Config.serial.toNat
  | .glbSerialHi, _ => BitVec.ofNat 32 (Config.serial.toNat / 2 ^ 32)
  | .ucId, _ => Config.ucId
  | .tileXb, [_, n] => BitVec.ofNat 32 n
  | .fxFir, [_, _, i] => if i = 0 then 0x10000 else 0
  | .lnCfg, [t, p] => BitVec.ofNat 32 (8 * t + p)
  | .msixTable, [n] => if n % 4 = 3 then 1 else 0
  | .glbSts, _ => 0x80
  | .wlSts, _ => 0x9
  | .wlFuseRem, _ => 0x8004F8
  | .wlNonce, [i] => Config.nonce 0 i
  | .henSts, _ => BitVec.ofNat 32 ((Config.henVersion Config.henRom).toNat * 65536)
  | .rtcSts, _ => 1
  | .avsDom, [d] => if adapted d then 0x80000000 else 0
  | .seqSts, [_, q] => BitVec.ofNat 32 (roleCode q * 256)
  | _, _ => 0

/-- The reset value of the register at an offset (R8). -/
def regReset (a : Nat) : Word :=
  match findReg a with
  | some (r, ix) => BitVec.ofNat 32 r.reg.resetConst ||| resetBy r.reg ix
  | none => 0

/-- The word that the register at an offset holds. -/
def State.reg (s : State) (a : Nat) : Word := KMap.get (regReset a) s.regs a

/-- Writes the register at an offset. -/
def State.setReg (s : State) (a : Nat) (v : Word) : State :=
  { s with regs := KMap.set (regReset a) s.regs a v }

/-- A field of a register. -/
def State.fld (s : State) (a : Nat) (f : Fld) : Nat := getF (s.reg a) f

/-- Writes a field of a register. -/
def State.setFld (s : State) (a : Nat) (f : Fld) (x : Nat) : State := s.setReg a (putF (s.reg a) f x)

/-- A hardware event sets bits of a register: those that are W1C stay set against a write in the same tick (R11). -/
def State.raiseReg (s : State) (a : Nat) (m : Word) : State :=
  { s.setReg a (s.reg a ||| m) with tie := { s.tie with set := KMap.set 0 s.tie.set a (KMap.get 0 s.tie.set a ||| m) } }

/-- An event of the present tick has written `x` to field `f`, whose bits may be W1C (R11). -/
def State.note (s : State) (a : Nat) (f : Fld) (x : Nat) : State :=
  { s with tie := { s.tie with set := KMap.set 0 s.tie.set a (KMap.get 0 s.tie.set a ||| putF 0 f x) } }

/-- The check of a write that sets an enable bit, whose fields are all LK: a locked write leaves the register as it is, sets nothing and
is checked for nothing (R303). -/
def State.checkSet (s1 : State) (lock : Bool) (f : State → State) : State := if lock then s1 else f s1

/-- A hardware event sets the bits `x` of a W1C field (R10, R11). -/
def State.raise (s : State) (a : Nat) (f : Fld) (x : Nat) : State := s.raiseReg a (putF 0 f x)

/-- A field holds a nonzero value. -/
def State.on (s : State) (a : Nat) (f : Fld) : Bool := s.fld a f != 0

/-- Adds to a saturating 32-bit counter. -/
def State.bumpBy (s : State) (a n : Nat) : State :=
  s.setReg a (BitVec.ofNat 32 (min ((s.reg a).toNat + n) 0xFFFFFFFF))

/-- Increments a saturating 32-bit counter. -/
def State.bump (s : State) (a : Nat) : State := s.bumpBy a 1

/-- A 64-bit pair of registers. -/
def State.pair (s : State) (lo hi : Nat) : Nat := (s.reg lo).toNat + 2 ^ 32 * (s.reg hi).toNat

/-- The holding register of the pair whose low half is at `lo` (R13). -/
def State.hold (s : State) (lo : Nat) : Hold := KMap.get {} s.holds lo

/-- Writes the holding register of a pair. -/
def State.setHold (s : State) (lo : Nat) (h : Hold) : State := { s with holds := KMap.set {} s.holds lo h }

/-- A new value arrives in the pair at `lo` (R13, step 3). -/
def State.arrived (s : State) (lo : Nat) : State :=
  if (s.hold lo).low then s.setHold lo { s.hold lo with fresh := true } else s

/-- Writes a 64-bit pair: the new value arrives. -/
def State.setPair (s : State) (lo hi v : Nat) : State :=
  ((s.setReg lo (BitVec.ofNat 32 v)).setReg hi (BitVec.ofNat 32 (v / 2 ^ 32))).arrived lo

/-! ## The hierarchy (R1, R2, R30) -/

/-- DT as a number. -/
def State.DT (s : State) : Nat := s.tm.dt.toNat

/-- Tile `t` is enabled (R44). -/
def State.tileOn (s : State) (t : Nat) : Bool := (s.reg A.glbTileEn).toNat.testBit t

/-- The plot of tile `t` (R30). -/
def State.plotOf (s : State) (t : Nat) : Option Nat :=
  let n := s.fld (A.glbTilePlot (t / 8)) ⟨4 * (t % 8) + 3, 4 * (t % 8)⟩
  if 8 ≤ n then some (n % 8) else none

/-- Tile `t` is enabled and belongs to plot `p`. -/
def State.inPlot (s : State) (p t : Nat) : Bool := s.tileOn t && s.plotOf t == some p

/-- The tiles of plot `p`. -/
def State.tilesOf (s : State) (p : Nat) : List Nat := (List.range 32).filter (s.inPlot p)

/-- The key of sequencer (t, q), and of its queue and channel. -/
def sk (t q : Nat) : Nat := 34 * t + q

/-- The sequencers of plot `p`, as keys. -/
def State.seqsOf (s : State) (p : Nat) : List Nat :=
  (s.tilesOf p).flatMap fun t => (List.range 34).map fun q => sk t q

/-- Configuration defines plot `p`: some enabled tile is assigned to it (R30, R65). -/
def State.plotDefined (s : State) (p : Nat) : Bool := (s.tilesOf p) != []

/-- LIFECYCLE is OWNED and plot enforcement is on (R41). -/
def State.enforce (s : State) : Bool :=
  s.fld A.glbSts F.glbSts.lifecycle == 2 && s.on A.glbSts F.glbSts.plotEnf

/-- The configuration is sealed (R303). -/
def State.isSealed (s : State) : Bool := s.on A.glbSts F.glbSts.sealed

/-- The run state of plot `p` (R62): 0 STOPPED, 1 ARMED, 2 RUNNING, 3 DRAINING. -/
def State.runState (s : State) (p : Nat) : Nat := s.fld (A.runSts p) F.runSts.state

/-- Plot `p` is STOPPED. -/
def State.stopped (s : State) (p : Nat) : Bool := s.runState p == 0

/-- Every plot is STOPPED. -/
def State.allStopped (s : State) : Bool := (List.range 8).all s.stopped

/-- The state code of sequencer (t, q) (R83). -/
def State.seqState (s : State) (t q : Nat) : Nat := s.fld (A.seqSts t q) F.seqSts.state

/-- Sequencer (t, q) counts as IDLE (R84). -/
def State.seqIdle (s : State) (t q : Nat) : Bool :=
  s.seqState t q == 0 || s.seqState t q == 7 ||
    (s.seqState t q == 6 && (match s.plotOf t with | some p => s.stopped p | none => true))

/-- Every sequencer of tile `t` is IDLE (R39, R133). -/
def State.tileIdle (s : State) (t : Nat) : Bool := (List.range 34).all fun q => s.seqIdle t q

/-- The sequencer index whose role sequencer `q` of tile `t` plays: a spare stands in for another (R319); 34 where a
spare has no role, and for a number that is no sequencer's. -/
def State.effIdx (s : State) (t q : Nat) : Nat :=
  if q < 32 then q
  else
    let f := if q = 32 then s.fld (A.tilePlaceSts t) F.tilePlaceSts.spare0For
      else if q = 33 then s.fld (A.tilePlaceSts t) F.tilePlaceSts.spare1For
      else 0x3F
    if f = 0x3F then 34 else f

/-! ## Events (R403–R410) -/

/-- Sources of tile `t` (R17). -/
def tileSrc (t k : Nat) : Nat := 40 * t + k

/-- Source `src` enters the fabric with generation `g`: its FIRED bit sets (R404). -/
def State.fireRaw (s : State) (src g : Nat) : State :=
  let a := A.evfSrcSts (src / 32)
  { s.raiseReg a (BitVec.ofNat 32 (2 ^ (src % 32))) with evq := s.evq ++ [(src, g)] }

/-- Source `src` fires with generation `g` (R404); an event of generation 8 is dropped (R408). -/
def State.fireG (s : State) (src g : Nat) : State :=
  if g < 8 then s.fireRaw src g
  else
    let s1 := ((s.raise A.evfSts F.evfSts.evfLoop 1).bump A.evfLoopCnt).setFld A.evfLoopSrc F.evfLoopSrc.src src
    if s.on A.evfSts F.evfSts.evfLoop then s1 else s1.fireRaw 1457 0

/-- Source `src` fires (generation 0: no task caused it). -/
def State.fire (s : State) (src : Nat) : State := s.fireG src 0

/-- Sends something out. -/
def State.send (s : State) (o : Out) : State := { s with out := s.out ++ [o] }

/-- The part runs: no reset input is low and it is not off after a shutdown (R440, R466). -/
def State.live (s : State) : Bool := !s.aon.por && !s.aon.sys && !s.aon.off

/-- The device may issue requests over PCI Express (R357, R377). -/
def State.dmaOk (s : State) : Bool := s.pcie.busMaster && !s.pcie.d3 && !s.pcie.perst

/-- The requests of a read of `n` bytes at `a`, of at most `size` bytes each: none crosses a 4 KiB boundary (R375). The first argument
bounds their number. -/
def readSplit (size : Nat) : Nat → Nat → Nat → List (Nat × Nat)
  | 0, _, _ => []
  | k + 1, a, n =>
    if n = 0 then []
    else
      let m := min n (min size (4096 - a % 4096))
      (a, m) :: readSplit size k (a + m) (n - m)

/-- The requests of a read of host memory, of at most the maximum read request size, 128 to 4,096 bytes (R354, R375). -/
def State.readParts (s : State) (a n : Nat) : List (Nat × Nat) := readSplit (128 * 2 ^ s.pcie.readReq) n a n

/-- A read of host memory for an image (R364, R375). -/
def State.hostFetch (s : State) (a n : Nat) : State :=
  { s with out := s.out ++ (s.readParts a n).map fun r => .hostRead r.1 r.2 }

/-- The management cores run (R323). -/
def State.henUp (s : State) : Bool := s.henRestart.isNone

/-- They serve rings, partial images and sequences: the minimal Henone in ROM does not (R321, R323). -/
def State.henServes (s : State) : Bool := s.henUp && s.fld A.henSts F.henSts.slot != 2

/-- Ticks of a microsecond, a millisecond and a second (R5). -/
def usTicks : Nat := 2500
def msTicks : Nat := 2500000
def secTicks : Nat := 2500000000

/-- A quotient whose rounding the spec does not state. -/
def divFree (num den : Nat) : Nat := num / den + if num % den = 0 then 0 else b2n (Config.roundUp num den)

/-! ## Shots (R67, R68, R486) -/

def Flag.late : BitVec 16 := 0x1
def Flag.lateDec : BitVec 16 := 0x2
def Flag.underrun : BitVec 16 := 0x4
def Flag.ovf : BitVec 16 := 0x8
def Flag.calInserted : BitVec 16 := 0x10
def Flag.throttled : BitVec 16 := 0x20
def Flag.taint : BitVec 16 := 0x40
def Flag.triggered : BitVec 16 := 0x80
def Flag.trigDefer : BitVec 16 := 0x100
def Flag.slipped : BitVec 16 := 0x200
def Flag.cut : BitVec 16 := 0x400
def Flag.aborted : BitVec 16 := 0x800
def Flag.last : BitVec 16 := 0x1000

/-- The scheduler of plot `p`. -/
def State.sched (s : State) (p : Nat) : Sched := KMap.get {} s.scheds p

/-- Writes the scheduler of plot `p`. -/
def State.setSched (s : State) (p : Nat) (c : Sched) : State := { s with scheds := KMap.set {} s.scheds p c }

/-- Applies `f` to the open shots of plot `p` that `which` names. -/
def State.mapShots (s : State) (p : Nat) (which : Shot → Bool) (f : Shot → Shot) : State :=
  s.setSched p { s.sched p with shots := (s.sched p).shots.map fun h => if which h then f h else h }

/-- Flags the shot with serial number `sid` of plot `p` (R486, events with an originating shot). -/
def State.flagShot (s : State) (p sid : Nat) (fl : BitVec 16) : State :=
  s.mapShots p (fun h => h.sid == sid) fun h => { h with flags := h.flags ||| fl }

/-- Flags every shot of plot `p` in progress (R486, other events). -/
def State.flagNow (s : State) (p : Nat) (fl : BitVec 16) : State :=
  s.mapShots p (fun h => h.stop.isNone) fun h => { h with flags := h.flags ||| fl }

/-- Flags the shots in progress of the plot of tile `t`. -/
def State.flagTile (s : State) (t : Nat) (fl : BitVec 16) : State :=
  match s.plotOf t with
  | some p => s.flagNow p fl
  | none => s

/-- The shot in progress of plot `p`: announced and not ended (R486). -/
def State.current (s : State) (p : Nat) : Option Shot := (s.sched p).shots.find? fun h => h.stop.isNone

/-- A late action of queue `key` (R69 byte 24, R74): LATE and TAINT for its shot. -/
def State.lateShot (s : State) (p sid key : Nat) : State :=
  s.mapShots p (fun h => h.sid == sid) fun h =>
    { h with flags := h.flags ||| Flag.late ||| Flag.taint,
             lateQ := if h.lateQ.contains key then h.lateQ else key :: h.lateQ }

/-- The shot-relative tick of the present DT, for a shot that starts at `start` (R51). -/
def State.rel (s : State) (start : Nat) : Int := (s.DT : Int) - start

/-! ## Sequencers, queues and channels -/

/-- The hidden state of the sequencer with key `k`. -/
def State.seq (s : State) (k : Nat) : SeqX := KMap.get {} s.seqs k

/-- Writes the hidden state of a sequencer. -/
def State.setSeq (s : State) (k : Nat) (x : SeqX) : State := { s with seqs := KMap.set {} s.seqs k x }

/-- The timed queue with key `k`. -/
def State.tq (s : State) (k : Nat) : Tq := KMap.get {} s.tqs k

/-- Writes a timed queue. -/
def State.setTq (s : State) (k : Nat) (x : Tq) : State := { s with tqs := KMap.set {} s.tqs k x }

/-- The playout channel of path `n` of tile `t`. -/
def State.chan (s : State) (t n : Nat) : Chan := KMap.get {} s.chans (32 * t + n)

/-- Writes a playout channel. -/
def State.setChan (s : State) (t n : Nat) (x : Chan) : State :=
  { s with chans := KMap.set {} s.chans (32 * t + n) x }

/-- The output path that sequencer `q` of tile `t` feeds (R314). -/
def State.pathOf (s : State) (t q : Nat) : Option Nat :=
  (List.range 32).find? fun n => s.fld (A.tileXb t n) F.tileXb.src == q

/-- The sequencer that feeds path `n` of tile `t`; none where it is unfed. -/
def State.feeder (s : State) (t n : Nat) : Option Nat :=
  let q := s.fld (A.tileXb t n) F.tileXb.src
  if q < 34 then some q else none

/-- A source of tile `t` that fires at most once in a shot of its plot; `ahead` is the announced shot, before it starts. -/
def State.fireOnceIn (s : State) (t k : Nat) (ahead : Bool) : State :=
  let m := k + (if ahead then 100 else 0)
  if (KMap.get [] s.once t).contains m then s
  else { s.fire (tileSrc t k) with once := KMap.set [] s.once t (m :: KMap.get [] s.once t) }

/-- A source of tile `t` that fires at most once in the plot's shot. -/
def State.fireOnce (s : State) (t k : Nat) : State := s.fireOnceIn t k false

/-- The start instant of shot `sid` of plot `p`, once it is announced. -/
def State.startOf (s : State) (p sid : Nat) : Option Shot := (s.sched p).shots.find? fun h => h.sid == sid

/-! ## The memory window (R37, R38) -/

/-- One byte of the memory window; a byte that nothing has written reads 0. -/
def State.byte (s : State) (a : Nat) : Byte := KMap.get 0 s.mem a

/-- Writes one byte of the memory window. -/
def State.setByte (s : State) (a : Nat) (v : Byte) : State := { s with mem := KMap.set 0 s.mem a v }

/-- The memory in its canonical form: addresses strictly rising, no entry that reads 0. -/
def Memory.wf (m : List Host.Cell) : Bool := KMap.wf (fun _ => (0 : Byte)) m

/-- Writes consecutive bytes. -/
def State.setBytes (s : State) (a : Nat) : List Byte → State
  | [] => s
  | b :: bs => (s.setByte a b).setBytes (a + 1) bs

/-- Reads consecutive bytes. -/
def State.bytes (s : State) (a : Nat) : Nat → List Byte
  | 0 => []
  | n + 1 => s.byte a :: s.bytes (a + 1) n

/-- The word at a byte offset of the memory window, little-endian (R8). -/
def State.word (s : State) (a : Nat) : Word :=
  BitVec.ofNat 32 ((s.byte a).toNat + 2 ^ 8 * (s.byte (a + 1)).toNat + 2 ^ 16 * (s.byte (a + 2)).toNat
    + 2 ^ 24 * (s.byte (a + 3)).toNat)

/-- The bytes of a word, little-endian. -/
def wordBytes (w : Word) : List Byte :=
  [BitVec.ofNat 8 w.toNat, BitVec.ofNat 8 (w.toNat / 2 ^ 8), BitVec.ofNat 8 (w.toNat / 2 ^ 16),
    BitVec.ofNat 8 (w.toNat / 2 ^ 24)]

/-- Writes a word of the memory window. -/
def State.setWord (s : State) (a : Nat) (w : Word) : State := s.setBytes a (wordBytes w)

/-- Byte offset of sample word `i` of the cellar of tile `t` (R128). -/
def cellarAt (t i : Nat) : Nat := t * 0x200000 + 4 * i

/-- Byte offset of instruction `i` of sequencer (t, q) (R37, R79). -/
def progAt (t q i : Nat) : Nat := 0x4000000 + t * 0x200000 + q * 0x8000 + 8 * i

/-- Byte offset of data-memory word `w` of sequencer (t, q) (R37). -/
def dataAt (t q w : Nat) : Nat := 0x4180000 + t * 0x200000 + q * 0x400 + 4 * w

/-! ## Register writes (R8–R10, R41, R43, R303) -/

/-- The tile whose control block holds an offset (R35). -/
def tileOfOff (a : Nat) : Option Nat :=
  if 0x1000000 ≤ a ∧ a < 0x2000000 then some ((a - 0x1000000) / 0x80000) else none

/-- What a write leaves in one field (R10). `lock`: LK fields are locked. -/
def fieldWrite (f : FieldSpec) (lock : Bool) (old w : Nat) : Nat :=
  match f.acc with
  | .rw | .rws => if lock && f.lk then old else w
  | .w1c => old - (old &&& w)
  | .ro | .rc | .wo | .w1s => old

/-- What a write leaves in a register (R10). -/
def mergeWord (fs : List FieldSpec) (lock : Bool) (old w : Word) : Word :=
  fs.foldl (fun v f => putF v f.fld (fieldWrite f lock (getF old f.fld) (getF w f.fld))) old

/-- The word of a write without the 1s for W1C bits that an event has set in the present tick, which end set (R11). -/
def State.tied (s : State) (fs : List FieldSpec) (a : Nat) (w : Word) : Word :=
  let m := KMap.get 0 s.tie.set a
  if m = 0 then w
  else fs.foldl (fun v f => if f.acc == .w1c then putF v f.fld (getF w f.fld - (getF w f.fld &&& getF m f.fld)) else v) w

/-- A write would change a locked LK field (R10, R303). -/
def lockHit (fs : List FieldSpec) (lock : Bool) (old w : Word) : Bool :=
  lock && fs.any fun f => f.lk && (f.acc == .rw || f.acc == .rws) && getF old f.fld != getF w f.fld

/-- The offset of a register with its indices. -/
def RegSpec.at_ (r : RegSpec) (ix : List Nat) : Nat :=
  (List.zip r.dims ix).foldl (fun a d => a + d.1.2 * d.2) r.base

/-- The KIND of a refusal that is recorded (R43). -/
def Refuse.code : Refuse → Nat
  | .accessErr => 0
  | .plotDeny => 1
  | .memBusy => 2
  | .ignored => 3

/-- The capture of a refused access (R43). `window`: 0 control, 1 memory, 2 doorbell. -/
def captureWord (kind window off : Nat) : Word :=
  BitVec.ofNat 32 (2 ^ 31 + kind * 2 ^ 29 + window * 2 ^ 27 + off % 2 ^ 27)

/-- GLB_ERR_ADDR captures an access: VALID, which is set now, stays set against a clear in the same tick (R11, R43). -/
def State.captureErr (s : State) (c : Word) : State :=
  { s.setReg A.glbErrAddr c with tie := { set := KMap.set 0 s.tie.set A.glbErrAddr 0x80000000, refused := none } }

/-- Records a refused host access (R43): its status bit, and the capture while VALID is 0. While VALID is 1 the first access that
is refused in a tick is kept for a clear in the same tick. -/
def State.refuseHost (s : State) (e : Refuse) (window off : Nat) : State :=
  if e = .ignored then s
  else
    let s1 := s.raiseReg A.glbErrSts (BitVec.ofNat 32 (2 ^ e.code))
    let c := captureWord e.code window off
    if s.on A.glbErrAddr F.glbErrAddr.valid then
      { s1 with tie := { s1.tie with refused := match s1.tie.refused with | some x => some x | none => some c } }
    else s1.captureErr c

/-- What a write to a register comes to: the new state, and why it was refused, if it was. -/
abbrev WRes := State × Option Refuse

/-- The qubit slots that the mask of parity unit `u` names (R233). -/
def State.parMask (s : State) (u : Nat) : List Nat :=
  ((List.range 64).filter fun k =>
    if k < 32 then (s.reg (A.puMaskLo u)).toNat.testBit k else (s.reg (A.puMaskHi u)).toNat.testBit (k - 32)).map
    fun k => 64 * (u / 16) + k

/-- The plot that a trellis slot belongs to (R227). -/
def State.slotPlot (s : State) (n : Nat) : Option Nat :=
  if n < 256 then s.plotOf (n / 8)
  else if n < 320 then
    match s.parMask (n - 256) with
    | m :: _ => s.plotOf (m / 8)
    | [] => none
  else some (s.fld (A.rmCfg (n - 320)) F.rmCfg.plot)

/-- The plot to which configuration assigns a quadrant or trellis register (R41): a bias channel, a slot, a parity unit,
a remote map entry, an export entry. -/
def State.ownerOf (s : State) (a : Nat) : Option Nat :=
  if 0x2000000 ≤ a ∧ a < 0x2400000 then
    let o := (a - 0x2000000) % 0x100000
    if o < 0x2000 then s.plotOf (8 * ((a - 0x2000000) / 0x100000) + o / 0x400) else none
  else if 0x3001000 ≤ a ∧ a < 0x3001800 then s.slotPlot ((a - 0x3001000) / 4)
  else if 0x3002000 ≤ a ∧ a < 0x3002400 then s.slotPlot (256 + (a - 0x3002000) / 16)
  else if 0x3003000 ≤ a ∧ a < 0x3003600 then s.slotPlot (320 + (a - 0x3003000) / 8)
  else if 0x3004000 ≤ a ∧ a < 0x3004500 then s.slotPlot ((a - 0x3004000) / 4)
  else none

/-- The quadrant and trellis blocks (R35). -/
def bootBlock (a : Nat) : Bool := (0x2000000 ≤ a && a < 0x2400000) || (0x3000000 ≤ a && a < 0x3100000)

/-- The checks that hold for every access to a register of a block: the part runs; an enabled tile (R8, R44); the quadrant
and trellis blocks from BOOT_STAGE 011b on (R471); plot enforcement against the host (R41). An access that fails several of
them takes the first: ACCESS_ERR goes before PLOT_DENY (DESIGN CHOICE, log entry 163). -/
def State.accessRefuse (s : State) (src : Req) (a : Nat) : Option Refuse :=
  if src == .host && !s.live then some .ignored
  else
    match tileOfOff a with
    | some t =>
      if !s.tileOn t then some .accessErr
      else if src == .host && s.enforce then some .plotDeny
      else none
    | none =>
      if bootBlock a && src != .mgmt && s.fld A.glbSts F.glbSts.bootStage != 3 then some .accessErr
      else if src == .host && s.enforce && (s.ownerOf a).isSome then some .plotDeny
      else none

/-- The checks of a write: those of any access; the quadrant and trellis blocks, which a RETIRED part only lets read (R342); the
Kelair block, which the host only reads under enforcement (R290). -/
def State.blockRefuse (s : State) (src : Req) (a : Nat) : Option Refuse :=
  match s.accessRefuse src a with
  | some e => some e
  | none =>
    if src != .mgmt && bootBlock a && s.fld A.glbSts F.glbSts.lifecycle == 3 then some .accessErr
    else if src == .host && s.enforce && 0x500000 ≤ a && a < 0x510000 then some .plotDeny else none

/-- Whether LK fields are locked for a requester: after sealing, for the host and its capsules (R303). -/
def State.locked (s : State) (src : Req) : Bool := s.isSealed && src != .mgmt

/-- A write to register `r` with indices `ix`: the block's checks, then `deny` (the register's own refusals), then
the fields under their access codes, then the register's effect `eff` on the state before the write (given the word
that the register then holds). A locked field keeps its value, and ACCESS_ERR tells so where it would have changed. -/
def State.write (s : State) (src : Req) (r : RegSpec) (a : Nat) (w : Word) (deny : Option Refuse)
    (eff : State → State) : WRes :=
  match s.blockRefuse src a with
  | some e => (s, some e)
  | none =>
    match deny with
    | some e => (s, some e)
    | none =>
      let lock := s.locked src
      let s1 := eff (s.setReg a (mergeWord r.fields lock (s.reg a) (s.tied r.fields a w)))
      (s1, if lockHit r.fields lock (s.reg a) w then some .accessErr else none)

/-- A host write in the control window: a refusal is recorded (R43). -/
def State.hostWrite (r : WRes) (off : Nat) : State :=
  match r.2 with
  | some e => r.1.refuseHost e 0 off
  | none => r.1

/-- A host write in the doorbell window. -/
def State.bellWrite (r : WRes) (off : Nat) : State :=
  match r.2 with
  | some e => r.1.refuseHost e 2 off
  | none => r.1

/-- TIU input `i`. -/
def State.tiu (s : State) (i : Nat) : TiuX := KMap.get {} s.tius i

/-- Writes a TIU input. -/
def State.setTiu (s : State) (i : Nat) (x : TiuX) : State := { s with tius := KMap.set {} s.tius i x }

/-- The command's outcome: the next state. -/
abbrev done (s : State) : Res := .next s

/-- The outcome of an event that comes about only where `c` holds; elsewhere nothing happens. -/
@[inline] def onlyIf (c : Bool) (s t : State) : Res := if c then .next t else .next s

end Sys2Proof.Machine
end

