-- ==== Sys2Proof/Machine/Flags.lean ====
section
/-! DEFINITION. What is computed from values: ALU results and branch conditions (R103, R110: no flags are kept), and
the check codes of records and messages (CRC-32C, CRC-16). -/

namespace Sys2Proof.Machine

/-- The signed value of a word. -/
def sval (w : Word) : Int := w.toInt

/-- The conditions of BR (R103); 7–15 are reserved. -/
def brTaken (cond : Nat) (a b : Word) : Option Bool :=
  match cond with
  | 0 => some true
  | 1 => some (a == b)
  | 2 => some (a != b)
  | 3 => some (decide (sval a < sval b))
  | 4 => some (decide (sval b ≤ sval a))
  | 5 => some (decide (a.toNat < b.toNat))
  | 6 => some (decide (b.toNat ≤ a.toNat))
  | _ => none

/-- SHL: by the low 5 bits of operand 2 (R110). -/
def aluShl (a b : Word) : Word := a <<< (b.toNat % 32)
/-- SHR. -/
def aluShr (a b : Word) : Word := a >>> (b.toNat % 32)
/-- SRA. -/
def aluSra (a b : Word) : Word := a.sshiftRight (b.toNat % 32)

/-- One bit of the reflected CRC-32C (polynomial 82F6_3B78h). -/
def crc32cBit (c : BitVec 32) : BitVec 32 := if c.getLsbD 0 then (c >>> 1) ^^^ 0x82F63B78 else c >>> 1

/-- `n` bits of CRC-32C. -/
def crc32cBits : Nat → BitVec 32 → BitVec 32
  | 0, c => c
  | n + 1, c => crc32cBits n (crc32cBit c)

/-- CRC-32C of bytes, from a running value. -/
def crc32cFrom : BitVec 32 → List Byte → BitVec 32
  | c, [] => c
  | c, b :: bs => crc32cFrom (crc32cBits 8 (c ^^^ b.zeroExtend 32)) bs

/-- CRC-32C of bytes: initial value and final inversion FFFF_FFFFh. -/
def crc32c (bs : List Byte) : BitVec 32 := crc32cFrom 0xFFFFFFFF bs ^^^ 0xFFFFFFFF

/-- One bit of CRC-16 (polynomial 1021h), most significant bit first. -/
def crc16Bit (c : BitVec 16) : BitVec 16 := if c.getLsbD 15 then (c <<< 1) ^^^ 0x1021 else c <<< 1

/-- `n` bits of CRC-16. -/
def crc16Bits : Nat → BitVec 16 → BitVec 16
  | 0, c => c
  | n + 1, c => crc16Bits n (crc16Bit c)

/-- CRC-16 of bytes, from a running value. -/
def crc16From : BitVec 16 → List Byte → BitVec 16
  | c, [] => c
  | c, b :: bs => crc16From (crc16Bits 8 (c ^^^ (b.zeroExtend 16 <<< 8))) bs

/-- CRC-16 of bytes, initial value FFFFh. -/
def crc16 (bs : List Byte) : BitVec 16 := crc16From 0xFFFF bs

/-- The bytes of a number, little-endian. -/
def leBytes : Nat → Nat → List Byte
  | 0, _ => []
  | n + 1, v => BitVec.ofNat 8 v :: leBytes n (v / 256)

/-- The number that bytes spell, little-endian. -/
def leNat : List Byte → Nat
  | [] => 0
  | b :: bs => b.toNat + 256 * leNat bs

/-- The number of bytes `i`, `i + 1`, … (`n` of them) of a list. -/
def leAt (bs : List Byte) (i n : Nat) : Nat := leNat ((bs.drop i).take n)

end Sys2Proof.Machine
end

