-- ==== Sys2Proof/Machine/Book.lean ====
section
/-! DEFINITION. The cellar book: counters, the event log, MRAM wear, the calendar (R450–R455). -/

namespace Sys2Proof.Machine

/-- Calendar seconds. -/
def State.rtc (s : State) : Nat := s.pair A.rtcSecLo A.rtcSecHi

/-- Cellar-book counter `i`. -/
def State.cb (s : State) (i : Nat) : Nat := s.pair (A.cbCntLo i) (A.cbCntHi i)

/-- Writes counter `i`. -/
def State.setCb (s : State) (i v : Nat) : State := s.setPair (A.cbCntLo i) (A.cbCntHi i) v

/-- Adds to counter `i`. -/
def State.cbAdd (s : State) (i n : Nat) : State := s.setCb i (s.cb i + n)

/-- The region of a 4 KiB page of the MRAM (R453). -/
def mramRegion (page : Nat) : Nat :=
  if page < 256 then 0 else if page < 768 then 1 else if page < 1024 then 2 else if page < 1040 then 3
  else if page < 1168 then 4 else if page < 2048 then 5 else if page < 3072 then 6 else 7

/-- A record is written to a page of the MRAM: the wear of its region is the highest count of its pages (R453). -/
def State.mramWrite (s : State) (page : Nat) : State :=
  let n := KMap.get 0 s.book.pages page + 1
  let r := mramRegion page
  let s1 : State := { s with book := { s.book with pages := KMap.set 0 s.book.pages page n } }
  if n ≤ s.cb (20 + r) then s1
  else
    let s2 := s1.setCb (20 + r) n
    if s.cb (20 + r) ≤ 100000000 ∧ 100000000 < n then s2.fire 1473 else s2

/-- The words of a list of bytes, little-endian. -/
def wordsOf : Nat → List Byte → List Word
  | 0, _ => []
  | n + 1, bs => BitVec.ofNat 32 (leAt bs 0 4) :: wordsOf n (bs.drop 4)

/-- Writes words to consecutive registers. -/
def State.setRegs (s : State) (a : Nat) : List Word → State
  | [] => s
  | w :: ws => (s.setReg a w).setRegs (a + 4) ws

/-- Writes an entry of the event log with `sec` in its calendar field (R454); `tile` FFh: none. After a hard trip no MRAM write is
attempted (R442). -/
def State.logAt (s : State) (sec code tile : Nat) (data : List Byte) : State :=
  if s.aon.tripped then s
  else
  let dt := if s.on A.dtSts F.dtSts.running then s.DT else 0
  let b := leBytes 8 sec ++ leBytes 8 dt ++ leBytes 1 code ++ leBytes 1 tile ++ leBytes 2 0
    ++ (data ++ List.replicate 8 0).take 8
  let j := (s.reg A.cbLogHead).toNat % 16384
  let s1 := s.setRegs (A.cbLog (8 * j)) (wordsOf 8 (b ++ leBytes 4 (crc32c b).toNat))
  (s1.setReg A.cbLogHead (s.reg A.cbLogHead + 1)).mramWrite (1040 + j / 128)

/-- Writes an entry of the event log, with the present calendar second. -/
def State.log (s : State) (code tile : Nat) (data : List Byte) : State := s.logAt s.rtc code tile data

/-! ## Copies in MRAM (R448, R450) -/

/-- Numbered values as bytes: 4 of the number, 8 of the value (log entry 240). -/
def pairBytes (m : KMap Nat) : List Byte := m.flatMap fun e => leBytes 4 e.1 ++ leBytes 8 e.2

/-- The numbered values that bytes spell. -/
def pairsOf (b : List Byte) : KMap Nat :=
  (List.range (b.length / 12)).foldl (fun m i => KMap.set 0 m (leAt b (12 * i) 4) (leAt b (12 * i + 4) 8)) []

/-- CRC-32C of a copy: over its sequence number and its bytes. -/
def copyCrc (seq : Nat) (body : List Byte) : BitVec 32 := crc32c (leBytes 8 seq ++ body)

/-- A copy with its CRC-32C. -/
def mkCopy (seq : Nat) (body : List Byte) : MramCopy := { seq := seq, body := body, crc := copyCrc seq body }

/-- The CRC-32C of a copy agrees with it. -/
def MramCopy.valid (c : MramCopy) : Bool := c.crc == copyCrc c.seq c.body

/-- The sequence number of a copy; 0 where there is none. -/
def copySeq : Option MramCopy → Nat
  | some c => c.seq
  | none => 0

/-- A save goes to copy A: the older one, or where there is none. -/
def copyInA (a b : Option MramCopy) : Bool := a.isNone || (b.isSome && decide (copySeq a < copySeq b))

/-- What is wrong with a copy, `ok` telling whether its contents open: 0 nothing, 1 there is none, 2 the CRC-32C, 3 the seal (log entry
240). -/
def copyCause (ok : MramCopy → Bool) : Option MramCopy → Nat
  | none => 1
  | some c => if !c.valid then 2 else if !ok c then 3 else 0

/-- The newer of the copies with which nothing is wrong. -/
def newerCopy (ok : MramCopy → Bool) (a b : Option MramCopy) : Option MramCopy :=
  match copyCause ok a, copyCause ok b with
  | 0, 0 => if copySeq a < copySeq b then b else a
  | 0, _ => a
  | _, 0 => b
  | _, _ => none

/-- The counters, as a copy in MRAM holds them. -/
def State.cbCopy (s : State) : List Byte :=
  pairBytes ((List.range 1216).filterMap fun i => if s.cb i = 0 then none else some (i, s.cb i))

/-- The counters are saved to the older copy (R450), but not after a hard trip (R442). -/
def State.cbSave (s : State) : State :=
  if s.aon.tripped then s
  else
  let s1 := s.cbAdd 11 1
  let b := s1.book
  let n := max (copySeq b.copyA) (copySeq b.copyB) + 1
  let inA := copyInA b.copyA b.copyB
  let s2 : State := { s1 with book := { b with
    copyA := if inA then some (mkCopy n s1.cbCopy) else b.copyA
    copyB := if inA then b.copyB else some (mkCopy n s1.cbCopy)
    savedAt := s.tm.now, want := false } }
  ((s2.setReg A.cbLastSave 0).mramWrite (if inA then 1024 else 1032)).fire 1468

/-- At start-up the newer valid copy is restored; where neither is valid the counters restart at 0 (R450). The seconds in which SYS_RST_n
held the blocks since the save count as powered. -/
def State.cbRestore (s : State) : State :=
  let b := s.book
  let s1 := match newerCopy (fun _ => true) b.copyA b.copyB with
    | some c => (pairsOf c.body).foldl (fun (t : State) (e : Nat × Nat) => t.setCb e.1 e.2) s
    | none => ((s.raise A.cbSts F.cbSts.err 1).fire 1469).log 0x0B 255
        (leBytes 1 (copyCause (fun _ => true) b.copyA) ++ leBytes 1 (copyCause (fun _ => true) b.copyB))
  { s1.cbAdd 0 b.secs with book := { s1.book with secs := 0 } }

/-- CB_SAVE (R450): every 60 s; saves wait during a restart of Henone (R323). -/
def execCbSave (s : State) : Res :=
  onlyIf (s.live && s.henRestart.isNone && s.shutAt.isNone &&
    (s.book.want || decide (s.book.savedAt + 60 * secTicks ≤ s.tm.now))) s s.cbSave

/-- A write of CB_CTL. -/
def State.writeCbCtl (s : State) (src : Req) (w : Word) : WRes :=
  s.write src spec_cbCtl A.cbCtl w none fun s1 =>
    if getF w F.cbCtl.save = 1 then
      (if s1.henRestart.isSome then { s1 with book := { s1.book with want := true } } else s1.cbSave)
    else s1

/-- CB_SAVE_REQUEST (R450). -/
def execCbSaveRequest (s : State) : Res := done (State.hostWrite (s.writeCbCtl .host 0x80000000) A.cbCtl)

/-- A write of RTC_CTL (R455). -/
def State.writeRtcCtl (s : State) (src : Req) (w : Word) : WRes :=
  s.write src spec_rtcCtl A.rtcCtl w none fun s1 =>
    if getF w F.rtcCtl.setF = 1 then
      let new := s1.pair A.rtcSetLo A.rtcSetHi
      ((s1.setPair A.rtcSecLo A.rtcSecHi new).setFld A.rtcSts F.rtcSts.invalid 0).log 0x12 255
        (leBytes 4 s1.rtc ++ leBytes 4 new)
    else s1

/-- RTC_SET (R455). -/
def execRtcSet (s : State) : Res := done (State.hostWrite (s.writeRtcCtl .host 0x80000000) A.rtcCtl)

/-- What the loss of VBAT brings once the device runs (R454, R455): `old` is what the calendar held before it restarted at 0. -/
def State.rtcInvalid (s : State) (old : Nat) : State :=
  let s1 : State := { s with aon := { s.aon with invalid := none } }
  (s1.fire 1470).log 0x13 255 (leBytes 4 old ++ leBytes 4 0)

/-- VBAT_LOSS (R455, R463): while VDD_IO is within tolerance it feeds the always-on domain, and nothing is lost. The event and the log
entry wait until the device runs. -/
def execVbatLoss (s : State) : Res :=
  let s1 := (s.setPair A.rtcSecLo A.rtcSecHi 0).setFld A.rtcSts F.rtcSts.invalid 1
  onlyIf (!s.aon.vddIo) s (if s.live then s1.rtcInvalid s.rtc else { s1 with aon := { s1.aon with invalid := some s.rtc } })

end Sys2Proof.Machine
end

