-- ==== Sys2Proof/Machine/Keys.lean ====
section
/-! DEFINITION. Keys, certificates and the engines that use them (R329–R333, R336, R343, R350): the primitives are those of
`Config`, and what goes into each of them is the spec's. -/

namespace Sys2Proof.Machine

/-! ## Bytes -/

/-- Brings a list to a length. -/
def fixLen (n : Nat) (l : List Byte) : List Byte := l.take n ++ List.replicate (n - l.length) 0

/-- The bytes of a label. -/
def ascii (s : String) : List Byte := s.toList.map fun c => BitVec.ofNat 8 c.toNat

/-- The number that bytes spell, most significant byte first. -/
def beNat (b : List Byte) : Nat := b.foldl (fun n x => 256 * n + x.toNat) 0

/-- GLB_SERIAL as 8 bytes, little-endian (R332). -/
def serialBytes : List Byte := leBytes 8 Config.serial.toNat

/-- GLB_SERIAL in hexadecimal (R330). -/
def serialHex : List Byte :=
  (List.range 16).map fun i =>
    let d := Config.serial.toNat / 16 ^ (15 - i) % 16
    BitVec.ofNat 8 (if d < 10 then 48 + d else 55 + d)

/-! ## Primitives -/

/-- SHA-384 of bytes: 48 bytes. -/
def sha384 (b : List Byte) : List Byte := fixLen 48 (Config.sha384 b)

/-- HKDF-SHA-384 with a salt and a label, of `n` bytes. -/
def hkdf (ikm salt info : List Byte) (n : Nat) : List Byte := fixLen n (Config.hkdf ikm salt info n)

/-- The 16-byte tag of AES-256-GCM over additional data and ciphertext. -/
def gcmTag (key nonce aad cipher : List Byte) : List Byte := fixLen 16 (Config.gcmTag key nonce aad cipher)

/-- The counter mode of AES-256-GCM. -/
def gcmCtr (key nonce b : List Byte) : List Byte := fixLen b.length (Config.gcmCtr key nonce b)

/-- Ciphertext and tag of a plaintext. -/
def gcmSeal (key nonce aad b : List Byte) : List Byte :=
  let c := gcmCtr key nonce b
  c ++ gcmTag key nonce aad c

/-- The plaintext of a ciphertext whose tag verifies. -/
def gcmCheck (key nonce aad cipher tag : List Byte) : Option (List Byte) :=
  if tag = gcmTag key nonce aad cipher then some (gcmCtr key nonce cipher) else none

/-- The plaintext of ciphertext and tag in one; none where the tag fails. -/
def gcmOpen (key nonce aad b : List Byte) : Option (List Byte) :=
  gcmCheck key nonce aad (b.take (b.length - 16)) (b.drop (b.length - 16))

/-! ## Fuses (R326) -/

/-- The first fuse of a field of the fuse array (R326), whose fields stand in the order of its table: the lifecycle pairs, the
anti-rollback counter, owner key slot `n`, the secure-debug unlocks. -/
def fuseLc : Nat := 64
/-- The anti-rollback counter. -/
def fuseArb : Nat := 4488
/-- Owner key slot `n`. -/
def fuseOwner (n : Nat) : Nat := 4616 + 384 * n
/-- The secure-debug unlocks. -/
def fuseDebug : Nat := 8072

/-- The fuses of a key slot that a hash blows. -/
def hashFuses (n : Nat) (hash : List Byte) : List Nat :=
  ((List.range 384).filter fun i => (hash.getD (i / 8) 0).getLsbD (i % 8)).map fun i => fuseOwner n + i

/-- The 48 bytes that owner key slot `n` holds (R331). -/
def State.slotHash (s : State) (n : Nat) : List Byte :=
  (List.range 48).map fun k => BitVec.ofNat 8 (((List.range 8).map fun i => 2 ^ i * b2n (s.wl.blown.contains (fuseOwner n + (8 * k + i)))).sum)

/-- The highest owner key slot of which every fuse reads back (R331). -/
def topSlot (l : List Bool) : Option Nat := (List.range l.length).reverse.find? fun i => l.getD i false

/-- An owner key, uncompressed, hashes to a slot (R331). -/
def State.keyFits (s : State) (slot : Option Nat) (key : List Byte) : Bool :=
  match slot with
  | some i => s.slotHash i == sha384 key
  | none => false

/-! ## P-384 -/

/-- The order of the group of P-384. -/
def p384n : Nat := 0xFFFFFFFFFFFFFFFFFFFFFFFFFFFFFFFFFFFFFFFFFFFFFFFFC7634D81F4372DDF581A0DB248B0A77AECEC196ACCC52973

/-- An ECDSA or ECDH scalar from an HKDF output: modulo n − 1, plus 1 (R329). -/
def scalarOf (b : List Byte) : Nat := beNat b % (p384n - 1) + 1

/-! ## Device keys (R329) -/

/-- The device root key: HKDF of the PUF response, with the device seed as salt. -/
def deviceRoot : List Byte := hkdf (Config.puf (leBytes 512 Config.pufHelper.toNat)) (leBytes 32 Config.deviceSeed.toNat) [] 48

/-- A key that derives from the device root key under a label. -/
def State.deviceKey (s : State) (info : List Byte) (n : Nat) : List Byte := hkdf s.wl.drk [] info n

/-- The identity key, as its scalar. -/
def State.idKey (s : State) : Nat := scalarOf (s.deviceKey (ascii "FLR-ID") 48)

/-- The wrap key, as its scalar. -/
def State.wrapKey (s : State) : Nat := scalarOf (s.deviceKey (ascii "FLR-WRAP") 48)

/-- The MRAM key. -/
def State.mramKey (s : State) : List Byte := s.deviceKey (ascii "FLR-MRAM") 32

/-- The measurement of the running Henone image (R329, R351). -/
def State.henHash (s : State) : List Byte := sha384 s.cfg.hen

/-- The alias key, as its scalar: it changes with the Henone image and with the debug flag. -/
def State.aliasKey (s : State) : Nat :=
  scalarOf (s.deviceKey (ascii "FLR-ALIAS" ++ s.henHash ++ leBytes 1 (s.fld A.wlSts F.wlSts.debug)) 48)

/-- The alias key signs bytes: ECDSA over their SHA-384, 96 bytes. -/
def State.aliasSign (s : State) (b : List Byte) : List Byte := fixLen 96 (Config.ecdsaSign s.aliasKey (sha384 b))

/-! ## Certificates (R330) -/

/-- What the signature of a certificate covers. -/
def CertX.tbs (c : CertX) : List Byte := Config.x509 c.level c.issuer c.subject c.key c.ext

/-- A certificate's bytes. -/
def CertX.bytes (c : CertX) : List Byte := c.tbs ++ c.sig

/-- Signs a certificate of Usdiel's. -/
def caCert (c : CertX) : CertX := { c with sig := Config.caSign c.level c.tbs }

/-- The certificates of levels 0 to 2: root CA, device CA, and the IDevID certificate, whose serialNumber is GLB_SERIAL and whose
extension holds the wrap public key. -/
def State.factoryCerts (s : State) : List CertX :=
  [caCert { level := 0, issuer := 0, subject := [], key := Config.caKey 0, ext := [], sig := [] },
   caCert { level := 1, issuer := 0, subject := [], key := Config.caKey 1, ext := [], sig := [] },
   caCert { level := 2, issuer := 1, subject := serialHex, key := Config.p384Pub s.idKey, ext := Config.p384Pub s.wrapKey, sig := [] }]

/-- The alias certificate of the present alias key: its extension holds the Henone measurement, the identity key signs it. -/
def State.aliasCert (s : State) : CertX :=
  let c : CertX := { level := 3, issuer := 2, subject := [], key := Config.p384Pub s.aliasKey, ext := s.henHash, sig := [] }
  { c with sig := fixLen 96 (Config.ecdsaSign s.idKey (sha384 c.tbs)) }

/-- At a boot where the alias key has changed, its certificate is issued anew, into the MRAM (R330, R453); none after a hard trip
(R442). -/
def State.aliasIssue (s : State) : State :=
  let same := match s.wl.alias_ with | some c => c.key == Config.p384Pub s.aliasKey | none => false
  if same || s.aon.tripped then s else ({ s with wl := { s.wl with alias_ := some s.aliasCert } } : State).mramWrite 9

/-- The chain of slot 0. -/
def State.certChain (s : State) : List CertX := s.factoryCerts ++ s.wl.alias_.toList

/-- The alias key identifier: the first 8 bytes of SHA-384 of the alias certificate (R347). -/
def State.aliasId (s : State) : List Byte :=
  match s.wl.alias_ with
  | some c => (sha384 c.bytes).take 8
  | none => List.replicate 8 0

/-! ## Plot keys (R332, R333) -/

/-- The plot root key in force of plot `p`. -/
def State.prk (s : State) (p : Nat) : List Byte := KMap.get [] s.wl.prk p

/-- A key of plot `p` under a label. -/
def State.plotKey (s : State) (p : Nat) (label : String) (n : Nat) : List Byte := hkdf (s.prk p) serialBytes (ascii label) n

/-- The additional data of a sealed key: the plot index and KEY_GEN. -/
def sealAad (p gen : Nat) : List Byte := leBytes 1 p ++ leBytes 1 gen

/-- A plot root key as it is sealed in MRAM. -/
def State.sealKey (s : State) (p gen : Nat) (prk : List Byte) : SealX :=
  { gen := gen, blob := gcmSeal s.mramKey (Config.sealNonce p gen) (sealAad p gen) prk }

/-- The plot root key that a sealed record gives. -/
def State.unsealKey (s : State) (p : Nat) (x : SealX) : List Byte :=
  (gcmOpen s.mramKey (Config.sealNonce p x.gen) (sealAad p x.gen) x.blob).getD []

/-- The nonce of a capsule (R343): `dir` 0 command, 1 response. -/
def capNonce (p dir gen cseq : Nat) : List Byte := leBytes 1 p ++ leBytes 1 dir ++ leBytes 1 gen ++ leBytes 1 0 ++ leBytes 8 cseq

/-- The nonce of a decant chunk (R350). -/
def chunkNonce (t d chunk gen seg p : Nat) : List Byte :=
  leBytes 1 t ++ leBytes 1 d ++ leBytes 2 chunk ++ leBytes 4 gen ++ leBytes 2 seg ++ leBytes 1 p ++ leBytes 1 0x44

end Sys2Proof.Machine
end

