-- ==== Sys2Proof/Machine/Port.lean ====
section
/-! DEFINITION. The trellis port of a tile: the views it presents and its key sets (R226, R231, R237–R239, R243). -/

namespace Sys2Proof.Machine

/-- The tile view of qubit slot `n`. -/
def State.tileView (s : State) (n : Nat) : Word := KMap.get 0 s.tileViews n

/-- Writes the tile view of a qubit slot. -/
def State.setTileView (s : State) (n : Nat) (v : Word) : State := { s with tileViews := KMap.set 0 s.tileViews n v }

/-- The word of a slot view that holds a decision. -/
def viewWord (value tag midx : Nat) : Word :=
  BitVec.ofNat 32 (2 ^ 31 + tag % 256 * 2 ^ 16 + midx % 256 * 2 ^ 8 + value % 4)

/-- The decision that a release writes: of a foreground and a shadow decision due in one tick, the shadow one (R229). -/
def pickDec (ds : List Dec) : Option Dec :=
  match ds.find? fun d => d.shadow with
  | some d => some d
  | none => ds.getLast?

/-- The plot's own shot tag (R59). -/
def State.plotTag (s : State) (p : Nat) : Nat := (s.reg (A.shotNum p)).toNat % 256

/-- The announced shot of plot `p` starts in this tick and has not yet: its SHOT_START row is still to come. -/
def State.startDue (s : State) (p : Nat) : Bool := (s.sched p).shots.any fun h => !h.started && h.start == s.DT

/-- The decision that enters the view of slot `n` at port `t` in this tick, with the tag it must have (R226, R229, R230, R245). -/
def State.dueDec (s : State) (t n : Nat) : Option (Dec × Nat) :=
  let p := match s.slotPlot n with | some p => p | none => 0
  let tag := (s.plotTag p + b2n (s.startDue p)) % 256
  if n < 256 then
    (pickDec ((KMap.get [] (if n / 8 = t then s.tileRels else s.devRels) n).filter fun d => d.at_ == s.tm.now)).map fun d => (d, tag)
  else if n < 320 then (pickDec ((KMap.get [] s.devRels n).filter fun d => d.at_ == s.tm.now)).map fun d => (d, tag)
  else
    let ofs := s.fld (A.rmCfg (n - 320)) F.rmCfg.tagOfs
    ((KMap.get [] s.remRels (n - 320)).filter fun d => d.at_ == s.DT).getLast?.map fun d =>
      ({ d with tag := if d.tag = (tag + ofs) % 256 then tag else 256 }, tag)

/-- The view of slot `n` that port `t` presents in this tick (R231): as the clearing of a shot that starts in it and then the tick's
releases leave it, whether or not their rows have been taken (R226, R227). -/
def State.portView (s : State) (t n : Nat) : Word :=
  let v := if n < 256 ∧ n / 8 = t then s.tileView n else s.reg (A.trlSlot n)
  let clears := match s.slotPlot n with | some p => s.startDue p | none => false
  let base := if clears then putF v F.trlSlot.valid 0 else v
  match s.dueDec t n with
  | some (d, tag) => if d.tag = tag then viewWord d.value tag d.midx else base
  | none => base

/-- A decision enters the view with key `k` of `viewAts`. -/
def State.seen (s : State) (k : Nat) : State := { s with viewAts := KMap.set 0 s.viewAts k s.tm.now }

/-- The tick (of `now`) in which the view of slot `n` that port `t` presents took its decision. -/
def State.slotSeenAt (s : State) (t n : Nat) : Nat :=
  match s.dueDec t n with
  | some (d, tag) => if d.tag = tag then s.tm.now else KMap.get 0 s.viewAts (if n < 256 ∧ n / 8 = t then n else 1024 + n)
  | none => KMap.get 0 s.viewAts (if n < 256 ∧ n / 8 = t then n else 1024 + n)

/-- Ticks since the latest decision among key bits 0 to k − 1 of a key set reached the port (R243). -/
def State.keyAge (s : State) (t ks k : Nat) : Nat :=
  s.tm.now - ((List.range k).map fun i => s.slotSeenAt t (getF (s.reg (A.kb t ks i)) F.kb.slot)).foldl max 0

/-- The island of sequencer `q` (R23). -/
def islandOf (q : Nat) : Nat :=
  if q < 8 then 0 else if q < 16 then 1 else if q < 24 then 2 else if q < 30 then 3 else if q < 32 then 4 else 5

/-- `n` cycles of the island of sequencer (t, q), whose clock is 0.8 GHz + FREQ × 10 MHz, last no longer than `age` ticks (R23, R435). -/
def State.islandPast (s : State) (t q n age : Nat) : Bool :=
  decide (250 * n ≤ age * (80 + s.fld (A.islSts t (islandOf q)) F.islSts.freq))

/-- A view holds VALID with a tag. -/
def viewHas (v : Word) (tag : Nat) : Bool := getF v F.trlSlot.valid == 1 && getF v F.trlSlot.tag == tag

/-- The source of slot `n` is in use: a qubit slot of an enabled tile, an enabled parity unit or remote entry (R240). -/
def State.slotInUse (s : State) (n : Nat) : Bool :=
  if n < 256 then s.tileOn (n / 8)
  else if n < 320 then s.on (A.puCfg (n - 256)) F.puCfg.en
  else s.on (A.rmCfg (n - 320)) F.rmCfg.en

/-- What a key bit is at a tick (R238). -/
inductive KeyBit where
  | valid (b : Bool)
  | superseded
  | notValid
  deriving DecidableEq, Repr

/-- Key bit `i` of key set `ks` of tile `t`, for an instruction's MIDX and the consumer's shot tag (R237, R238; an
entry whose unit or map entry is disabled is not valid, R240). -/
def State.keyBit (s : State) (t ks i midx tag : Nat) : KeyBit :=
  let kb := s.reg (A.kb t ks i)
  let n := getF kb F.kb.slot
  let v := s.portView t n
  let m := if getF kb F.kb.msrc = 1 then getF kb F.kb.fixMidx else midx
  if !s.slotInUse n then .notValid
  else if !viewHas v tag then .notValid
  else if getF v F.trlSlot.midx = m then
    .valid ((getF v F.trlSlot.value).testBit (getF kb F.kb.bit))
  else .superseded

/-- Key bits `i`, `i + 1`, … (`n` of them). -/
def State.keyBits (s : State) (t ks midx tag : Nat) : Nat → Nat → List KeyBit
  | 0, _ => []
  | n + 1, i => s.keyBit t ks i midx tag :: s.keyBits t ks midx tag n (i + 1)

/-- The decision value of valid key bits, bit 0 first; none where one is not valid. -/
def keyValue : List KeyBit → Option Nat
  | [] => some 0
  | .valid b :: r => (keyValue r).map fun v => b2n b + 2 * v
  | _ :: _ => none

/-- Key bits 0 to k − 1 of a key set are all defined (R239). -/
def State.keyDefined (s : State) (t ks k : Nat) : Bool := (List.range k).all fun i => s.on (A.kb t ks i) F.kb.en

/-- The shot tag of a consumer that belongs to shot `sid` of plot `p`: that of the shot's number, from its
announcement on (R238). -/
def State.tagOf (s : State) (p sid : Nat) : Nat :=
  match (s.sched p).shots.find? (fun h => h.sid == sid) with
  | some h => if h.started then h.num.toNat % 256 else ((s.reg (A.shotNum p)).toNat + 1) % 256
  | none => (s.reg (A.shotNum p)).toNat % 256

end Sys2Proof.Machine
end

