-- ==== Sys2Proof/Machine/Cellar.lean ====
section
/-! DEFINITION. The cellar of a tile: partitions, the segment table and the decant engine (R128–R133, R150–R157). -/

namespace Sys2Proof.Machine

/-! ## Segments (R131) -/

/-- VALID of segment `n`. -/
def State.segValid (s : State) (t n : Nat) : Bool := s.on (A.segLo t n) F.segLo.valid
/-- DECANT of segment `n`. -/
def State.segDecant (s : State) (t n : Nat) : Bool := s.on (A.segLo t n) F.segLo.decant
/-- The partition of segment `n`. -/
def State.segPart (s : State) (t n : Nat) : Nat := s.fld (A.segLo t n) F.segLo.part
/-- The start granule of segment `n`. -/
def State.segStart (s : State) (t n : Nat) : Nat := s.fld (A.segLo t n) F.segLo.startG
/-- The length of segment `n` in granules. -/
def State.segLen (s : State) (t n : Nat) : Nat := s.fld (A.segHi t n) F.segHi.lenG
/-- The decant descriptor of segment `n`. -/
def State.segDesc (s : State) (t n : Nat) : Nat := s.fld (A.segHi t n) F.segHi.desc

/-- Offsets of the segment table of tile `t`, by the registers of it that hold anything: an entry that is not listed
holds its reset value, VALID = 0. -/
def State.segsListed (s : State) (t : Nat) : List Nat :=
  s.regs.filterMap fun e =>
    if A.segLo t 0 ≤ e.1 ∧ e.1 < A.segLo t 4096 ∧ (e.1 - A.segLo t 0) % 8 = 0 then some ((e.1 - A.segLo t 0) / 8)
    else none

/-- The valid decanted segment, other than `but`, that names descriptor `d` (R132 DESC_BUSY). -/
def State.segOfDesc (s : State) (t d : Nat) (but : Option Nat) : Option Nat :=
  (s.segsListed t).find? fun n =>
    s.segValid t n && s.segDecant t n && s.segDesc t n == d && some n != but

/-- Captures the first refused partition or segment write (CEL_CHK); VALID is W1C (R11). -/
def State.celChk (s : State) (t kind cause index : Nat) : State :=
  if s.on (A.celChk t) F.celChk.valid then s
  else (s.setReg (A.celChk t) (BitVec.ofNat 32 (2 ^ 31 + kind * 2 ^ 30 + cause * 2 ^ 16 + index))).note
    (A.celChk t) F.celChk.valid 1

/-- Granules START_G … START_G + len − 1 lie in partition `i` (1,024 granules a bank, R128, R129). -/
def State.inPart (s : State) (t i start len : Nat) : Bool :=
  let base := 1024 * s.fld (A.cp t i) F.cp.base
  let banks := 1024 * s.fld (A.cp t i) F.cp.banks
  base ≤ start && start + len ≤ base + banks

/-- The cause for which the entry of segment `n` fails its check (R132); 0 where it passes. Of several causes the one with the lowest
code is captured: R132 states no precedence (DESIGN CHOICE, log entry 173). -/
def State.segCause (s : State) (t n : Nat) : Nat :=
  let len := s.segLen t n
  let part := s.segPart t n
  if len = 0 then 1
  else if len < 4 then 2
  else if 4096 < len then 3
  else if !s.on (A.cp t part) F.cp.valid then 4
  else if !s.inPart t part (s.segStart t n) (if s.segDecant t n then 512 else len) then 5
  else if s.segDecant t n && s.segStart t n % 256 != 0 then 6
  else if s.segDecant t n && (s.segOfDesc t (s.segDesc t n) (some n)).isSome then 7
  else 0

/-- The check of a segment entry that is valid as written (R132). -/
def State.segCheck (s : State) (t n : Nat) : State :=
  if s.segCause t n = 0 then s
  else (s.setFld (A.segLo t n) F.segLo.valid 0).celChk t 0 (s.segCause t n) n

/-- The refusal of a write that is accepted only while every sequencer of the tile is IDLE (R39, R133). -/
def State.busyTile (s : State) (src : Req) (t : Nat) : Option Refuse :=
  if src != .mgmt && !s.tileIdle t then some .memBusy else none

/-- A write of SEG_LO or SEG_HI of entry `n`. -/
def State.writeSeg (s : State) (src : Req) (t n : Nat) (hi : Bool) (w : Word) : WRes :=
  if hi then
    s.write src spec_segHi (A.segHi t n) w (s.busyTile src t) fun s1 =>
      if s1.segValid t n then s1.segCheck t n else s1
  else
    s.write src spec_segLo (A.segLo t n) w (s.busyTile src t) fun s1 =>
      if s1.segValid t n then s1.segCheck t n else s1

/-- SEG_ENTRY_WRITE (R132). -/
def execSegEntryWrite (t : Tile) (n : Fin 4096) (hi : Bool) (w : Word) (s : State) : Res :=
  done (State.hostWrite (s.writeSeg .host t n hi w) (if hi then A.segHi t n else A.segLo t n))

/-! ## Partitions (R129, R130) -/

/-- A sequencer index is a playing role: 0–29, or a spare that placement gives one (R129). -/
def State.playingRole (s : State) (t q : Nat) : Bool := s.effIdx t q < 30

/-- Two bank ranges overlap. -/
def overlap (b1 n1 b2 n2 : Nat) : Bool := b1 < b2 + n2 && b2 < b1 + n1

/-- The cause for which partition `i` fails its check (R130); 0 where it passes. Of several causes the one with the lowest code is
captured: R130 states no precedence (DESIGN CHOICE, log entry 173). -/
def State.partCause (s : State) (t i : Nat) : Nat :=
  let f := fun j g => s.fld (A.cp t j) g
  let base := f i F.cp.base
  let n := f i F.cp.banks
  let b := f i F.cp.ownerB
  if n = 0 then 8
  else if 32 < base + n then 9
  else if (List.range 32).any (fun j => j != i && s.on (A.cp t j) F.cp.valid &&
      overlap base n (f j F.cp.base) (f j F.cp.banks)) then 10
  else if !s.playingRole t (f i F.cp.ownerA) || (b != 0x3F && !s.playingRole t b) then 11
  else 0

/-- Clears VALID in every segment entry that names partition `i` (R130). -/
def State.dropSegs (s : State) (t i : Nat) : State :=
  (s.segsListed t).foldl (fun s n => if s.segPart t n = i then s.setFld (A.segLo t n) F.segLo.valid 0 else s) s

/-- A write of CP[i] (R130). A locked write changes nothing and clears no segment entry. -/
def State.writeCp (s : State) (src : Req) (t i : Nat) (w : Word) : WRes :=
  let lock := s.locked src
  s.write src spec_cp (A.cp t i) w (s.busyTile src t) fun s1 =>
    if lock then s1
    else
      let s2 := s1.dropSegs t i
      if s2.on (A.cp t i) F.cp.valid && s2.partCause t i != 0 then
        (s2.setFld (A.cp t i) F.cp.valid 0).celChk t 1 (s2.partCause t i) i
      else s2

/-- PARTITION_WRITE (R130). -/
def execPartitionWrite (t : Tile) (i : Fin 32) (w : Word) (s : State) : Res :=
  done (State.hostWrite (s.writeCp .host t i w) (A.cp t i))

/-! ## Decant (R150–R157) -/

/-- The hidden state of descriptor `d` of tile `t`. -/
def State.dec (s : State) (t d : Nat) : DdX := KMap.get {} s.decs (16 * t + d)

/-- Writes the hidden state of a descriptor. -/
def State.setDec (s : State) (t d : Nat) (x : DdX) : State := { s with decs := KMap.set {} s.decs (16 * t + d) x }

/-- DD_STS.STATE: 0 DISABLED, 1 PRIMING, 2 PRIMED, 3 STREAMING, 4 ERROR. -/
def State.ddState (s : State) (t d : Nat) : Nat := s.fld (A.ddSts t d) F.ddSts.state

/-- Samples held in host memory (DD_LEN). -/
def State.ddLen (s : State) (t d : Nat) : Nat := s.fld (A.ddLen t d) F.ddLen.samples

/-- Chunks that DD_LEN reaches. -/
def State.ddChunks (s : State) (t d : Nat) : Nat := (s.ddLen t d + 4095) / 4096

/-- DD_LEN is no legal length (R150): no multiple of 16, or beyond 16 × LEN_G of the segment that names `d`. -/
def State.ddBadLen (s : State) (t d : Nat) : Bool :=
  s.ddLen t d % 16 != 0 ||
    (match s.segOfDesc t d none with | some n => decide (16 * s.segLen t n < s.ddLen t d) | none => false)

/-- DD_CTL.AUTH of a descriptor (R151): 1 under plot enforcement. -/
def State.ddAuth (s : State) (t d : Nat) : Bool := s.enforce || s.on (A.ddCtl t d) F.ddCtl.auth

/-- Samples of chunk `k` in host memory. -/
def State.chunkLen (s : State) (t d k : Nat) : Nat := min 4096 (s.ddLen t d - 4096 * k)

/-- The host address at which chunk `k` begins (R151): with tags each chunk is 64 bytes longer. -/
def State.chunkAddr (s : State) (t d k : Nat) : Nat :=
  s.fld (A.ddAddrLo t d) F.ddAddrLo.addr * 4096 + (s.reg (A.ddAddrHi t d)).toNat * 2 ^ 32 +
    (if s.ddAuth t d then 16448 else 16384) * k

/-- Moves a descriptor to a state. -/
def State.setDd (s : State) (t d code : Nat) : State := s.setFld (A.ddSts t d) F.ddSts.state code

/-- A descriptor enters ERROR (R151, R156): its fetches end, DECANT_ERR fires. -/
def State.ddError (s : State) (t d cause : Nat) : State :=
  let x := s.dec t d
  (((s.setDd t d 4).setFld (A.ddSts t d) F.ddSts.errCause cause).setDec t d
    { x with fetching := [], priming := false }).fire (tileSrc t 9)

/-- The engine takes on the fetches of chunks `ks` (R151, R157, R375): each reads the chunk's samples and, with tags, its trailer from
host memory; a read that may not be issued is a transfer error (R156, R377). -/
def State.askChunks (s : State) (t d : Nat) (ks : List Nat) : State :=
  if ks = [] then s
  else if s.dmaOk then
    { s with out := s.out ++ ks.flatMap fun k =>
        (s.readParts (s.chunkAddr t d k) (4 * s.chunkLen t d k + if s.ddAuth t d then 64 else 0)).map fun r =>
          .decantRead t d k r.1 r.2 s.pcie.relaxed }
  else s.ddError t d 1

/-- Priming begins (R152): it fetches chunks 0 and 1, as far as DD_LEN reaches; a length of 0 completes at once. A playback that runs
keeps its claim: its next sample finds its chunk not resident (R154). A prime that ends at once for a bad DD_LEN leaves no chunk
resident, and DD_STS.RESIDENT at its count (DESIGN CHOICE, log entry 210). -/
def State.prime (s : State) (t d : Nat) : State :=
  let s1 := (s.setFld (A.ddSts t d) F.ddSts.errCause 0).setReg (A.ddChunk t d) 0
  let x : DdX := { player := (s.dec t d).player }
  if s.ddBadLen t d then
    ((s1.setDd t d 4).setFld (A.ddSts t d) F.ddSts.errCause 3).setDec t d x
  else if s.ddLen t d = 0 then
    (((s1.setDd t d 2).raise (A.ddSts t d) F.ddSts.done 1).setFld (A.ddSts t d) F.ddSts.resident 0).setDec t d x
  else
    let ks := (List.range 2).filter (· < s.ddChunks t d)
    (((s1.setDd t d 1).setFld (A.ddSts t d) F.ddSts.resident 0).setDec t d
      { x with fetching := ks, priming := true, reqAt := s.tm.now }).askChunks t d ks

/-- A prime that follows a playback (R152): a descriptor in ERROR stays there, one that is DISABLED too. -/
def State.reprimeAfter (s : State) (t d : Nat) : State :=
  let s1 := s.setDec t d { s.dec t d with player := none }
  if s.ddState t d = 4 ∨ s.ddState t d = 0 then s1 else s1.prime t d

/-- The primes of a tile at START (R152): a descriptor with ENABLE = 0 is not in use and does not prime (DESIGN CHOICE, log entry 175). -/
def State.primeTile (s : State) (t : Nat) : State :=
  (List.range 16).foldl (fun s d => if s.on (A.ddCtl t d) F.ddCtl.enable then s.prime t d else s) s

/-- A write of DD_CTL (R151, R152). A descriptor in ERROR stays there when ENABLE is cleared. In the other states the clearing ends what
the descriptor does: it is DISABLED, nothing is resident and its fetches are dropped, so that a playback of it underruns (DESIGN
CHOICE, log entry 174). -/
def State.writeDdCtl (s : State) (src : Req) (t d : Nat) (w : Word) : WRes :=
  let was := s.on (A.ddCtl t d) F.ddCtl.enable
  s.write src spec_ddCtl (A.ddCtl t d) w none fun s1 =>
    let now := s1.on (A.ddCtl t d) F.ddCtl.enable
    if getF w F.ddCtl.reprime = 1 || (!was && now) then s1.prime t d
    else if was && !now && s.ddState t d != 4 then
      ((s1.setDd t d 0).setFld (A.ddSts t d) F.ddSts.resident 0).setDec t d { player := (s.dec t d).player }
    else s1

/-- DECANT_ENABLE (R152). -/
def execDecantEnable (t : Tile) (d : Fin 16) (w : Word) (s : State) : Res :=
  done (State.hostWrite (s.writeDdCtl .host t d (putF (putF w F.ddCtl.enable 1) F.ddCtl.reprime 0)) (A.ddCtl t d))

/-- DECANT_REPRIME (R152). -/
def execDecantReprime (t : Tile) (d : Fin 16) (w : Word) (s : State) : Res :=
  done (State.hostWrite (s.writeDdCtl .host t d (putF w F.ddCtl.reprime 1)) (A.ddCtl t d))

/-- The refusal of a write of a decant descriptor: a sequencer of its tile is not IDLE (R133), or its generation would pass
FFFF_FFFFh (R350). -/
def State.ddDescDeny (s : State) (src : Req) (t d : Nat) : Option Refuse :=
  match s.busyTile src t with
  | some e => some e
  | none => if s.reg (A.ddGen t d) == 0xFFFFFFFF then some .accessErr else none

/-- A write of DD_ADDR_LO, DD_ADDR_HI or DD_LEN (R133, R350): an accepted write increments the generation of the
descriptor. -/
def State.writeDdDesc (s : State) (src : Req) (t d which : Nat) (w : Word) : WRes :=
  let g := fun s1 : State => s1.setReg (A.ddGen t d) (s1.reg (A.ddGen t d) + 1)
  if which = 0 then s.write src spec_ddAddrLo (A.ddAddrLo t d) w (s.ddDescDeny src t d) g
  else if which = 1 then s.write src spec_ddAddrHi (A.ddAddrHi t d) w (s.ddDescDeny src t d) g
  else s.write src spec_ddLen (A.ddLen t d) w (s.ddDescDeny src t d) g

/-- DD_DESC_WRITE (R350). -/
def execDdDescWrite (t : Tile) (d : Fin 16) (which : Fin 3) (w : Word) (s : State) : Res :=
  done (State.hostWrite (s.writeDdDesc .host t d which w)
    (if which = 0 then A.ddAddrLo t d else if which = 1 then A.ddAddrHi t d else A.ddLen t d))

/-- Writes sample words into the cellar of tile `t` from word `i` on. -/
def State.putSamples (s : State) (t i : Nat) : List Word → State
  | [] => s
  | w :: ws => (s.setWord (cellarAt t i) w).putSamples t (i + 1) ws

/-- Rank of a descriptor's oldest fetch (R157): streaming fetches by deadline, then priming fetches by request. -/
def State.fetchRank (s : State) (t d : Nat) : Nat × Nat :=
  let x := s.dec t d
  if x.priming then (1, x.reqAt)
  else
    match x.player with
    | some (_, pl) =>
      let st := match s.plotOf t with
        | some p => (match s.current p with | some h => h.start | none => 0)
        | none => 0
      (0, st + pl.start + 4096 * x.fetching.headD 0)
    | none => (1, x.reqAt)

/-- No other descriptor has a fetch that the engine serves first (R157). -/
def State.fetchFirst (s : State) (t d : Nat) : Bool :=
  let r := s.fetchRank t d
  s.decs.all fun e =>
    let r' := s.fetchRank (e.1 / 16) (e.1 % 16)
    e.1 == 16 * t + d || e.2.fetching.isEmpty ||
      !(decide (r'.1 < r.1) || (r'.1 == r.1 && decide (r'.2 < r.2)))

/-- The tag of chunk `k` of a descriptor (R350): GMAC under DK of the plot, over the sample bytes as fetched. -/
def State.chunkTag (s : State) (t d k : Nat) (samples : List Word) : List Byte :=
  let p := (s.plotOf t).getD 0
  gcmTag (s.plotKey p "FLR-DEC" 32)
    (chunkNonce t d k (s.reg (A.ddGen t d)).toNat ((s.segOfDesc t d none).getD 0) p) (samples.flatMap wordBytes) []

/-- DECANT_CHUNK_ARRIVAL (R151, R152, R350): the oldest fetch of a descriptor completes. -/
def execDecantChunkArrival (t : Tile) (d : Fin 16) (samples : List Word) (tag : List Byte) (s : State) : Res :=
  let x := s.dec t d
  match x.fetching with
  | [] => done s
  | k :: ks =>
    let auth := s.ddAuth t d
    onlyIf (s.fetchFirst t d && samples.length == s.chunkLen t d k) s <|
      let s0 := s.bump (A.ddFetchCnt t d)
      if auth && tag != s.chunkTag t d k samples then s0.ddError t d 2
      else
        let base := match s.segOfDesc t d none with
          | some n => 16 * s.segStart t n + 4096 * (k % 2)
          | none => 0
        let s1 := if (s.segOfDesc t d none).isSome then s0.putSamples t base samples else s0
        let res := x.resident ++ [k]
        let s2 := s1.setFld (A.ddSts t d) F.ddSts.resident res.length
        let s3 := s2.setDec t d { x with fetching := ks, resident := res, priming := x.priming && !ks.isEmpty }
        if x.priming && ks.isEmpty then (s3.setDd t d 2).raise (A.ddSts t d) F.ddSts.done 1 else s3

/-- DECANT_TRANSFER_ERROR (R156). -/
def execDecantTransferError (t : Tile) (d : Fin 16) (s : State) : Res :=
  onlyIf (!(s.dec t d).fetching.isEmpty) s (s.ddError t d 1)

end Sys2Proof.Machine
end

