-- ==== Sys2Proof/Machine/Trig.lean ====
section
/-! DEFINITION. Angles, sines and cosines by exact integer arithmetic (R144, R199, R218). -/

namespace Sys2Proof.Machine

/-- The angles of tangent 2⁻ᵏ, in 2⁻⁶⁰ turn. -/
def atanTable : List Nat :=
  [144115188075855872, 85076163258429574, 44951908161305065, 22818290470345122, 11453424468330927, 5732295643252264,
   2866847280169571, 1433511120421931, 716766496754739, 358384615492275, 179192478636968, 89596260679883,
   44798133010118, 22399066838831, 11199533461137, 5599766735784, 2799883368544, 1399941684353, 699970842187,
   349985421095, 174992710548, 87496355274, 43748177637] ++
  [21874088818, 10937044409, 5468522205, 2734261102, 1367130551, 683565276, 341782638, 170891319, 85445659,
   42722830, 21361415, 10680707, 5340354, 2670177, 1335088, 667544, 333772, 166886, 83443, 41722, 20861, 10430,
   5215]

/-- Turns the vector (`x`, `y`) onto the axis in steps of the table, and adds up the angles. -/
def cordic : List Nat → Nat → Int → Int → Int → Int
  | [], _, _, _, acc => acc
  | c :: cs, k, x, y, acc =>
    if 0 ≤ y then cordic cs (k + 1) (x + y / 2 ^ k) (y - x / 2 ^ k) (acc + c)
    else cordic cs (k + 1) (x - y / 2 ^ k) (y + x / 2 ^ k) (acc - c)

/-- Turns the vector (`x`, `y`) by the angle `z`, in 2⁻⁶⁰ turn, in steps of the table. -/
def turn : List Nat → Nat → Int → Int → Int → Int × Int
  | [], _, x, y, _ => (x, y)
  | c :: cs, k, x, y, z =>
    if 0 ≤ z then turn cs (k + 1) (x - y / 2 ^ k) (y + x / 2 ^ k) (z - c)
    else turn cs (k + 1) (x + y / 2 ^ k) (y - x / 2 ^ k) (z + c)

/-- The cosine and the sine of a phase in 2⁻⁴⁸ turn, in units of 2⁻⁸⁰: the vector that the table's steps lengthen to 1, turned. -/
def cosSin (ph : BitVec 48) : Int × Int :=
  let p := ph.toNat
  let r : Int × Bool :=
    if p < 2 ^ 46 then (p, false) else if p < 3 * 2 ^ 46 then ((p : Int) - 2 ^ 47, true) else ((p : Int) - 2 ^ 48, false)
  let v := turn atanTable 0 734123752169000915170809 0 (r.1 * 2 ^ 12)
  if r.2 then (-v.1, -v.2) else v

/-- A table value of 18 bits, in units of 2⁻¹⁷: exact to 2⁻³⁷, then rounded to either side; +1 is the largest code. -/
def tableValue (up : Bool) (v : Int) : Int :=
  let u := (v + 2 ^ 42) / 2 ^ 43
  let q := u / 2 ^ 20
  clampI (-131072) 131071 (if u % 2 ^ 20 = 0 then q else if up then q + 1 else q)

/-- The cosine of table pair `n` (0 the frames', 1 the lanes') at a phase. -/
def cosTab (n : Nat) (ph : BitVec 48) : Int := tableValue (Config.trigUp (2 * n) ph) (cosSin ph).1

/-- The sine. -/
def sinTab (n : Nat) (ph : BitVec 48) : Int := tableValue (Config.trigUp (2 * n + 1) ph) (cosSin ph).2

end Sys2Proof.Machine
end

