-- ==== Sys2Proof/Machine/Playout.lean ====
section
/-! DEFINITION. The timed queues and the playout channels (R70–R77, R96, R98, R126–R149, R153–R155, R241, R242). -/

namespace Sys2Proof.Machine

/-! ## Arrival in the queue (R72–R75) -/

/-- Entries of a queue, end markers apart, that execute in tick `x`. -/
def Tq.countAt (q : Tq) (x : Nat) : Nat := (q.held.filter fun e => e.execAt == x && e.cmd != .endMarker).length

/-- The earliest tick from `x` on with one of its four places free (R72, R74). -/
def Tq.place (q : Tq) : Nat → Nat → Nat
  | 0, x => x
  | fuel + 1, x => if q.countAt x < 4 then x else q.place fuel (x + 1)

/-- The smallest margin seen (TQ_MARGIN, R73). -/
def State.noteMargin (s : State) (t q : Nat) (m : Int) : State :=
  let m := clampI (-32768) 32767 m
  if m < sext 16 (s.fld (A.tqMargin t q) F.tqMargin.minMargin) then
    s.setReg (A.tqMargin t q) (BitVec.ofNat 32 (m % 65536).toNat)
  else s

/-- A late action of the queue of (t, q) (R74). -/
def State.lateAction (s : State) (t q p sid stamp : Nat) : State :=
  let s1 := ((s.raise (A.tqSts t q) F.tqSts.late 1).bump (A.tqLateCnt t q)).setReg (A.tqLastLate t q)
    (BitVec.ofNat 32 stamp)
  (s1.fire (tileSrc t 0)).lateShot p sid (sk t q)

/-- An entry takes its place in the queue. -/
def State.enqueue (s : State) (t q : Nat) (e : Entry) : State :=
  let k := sk t q
  let x := s.tq k
  let s1 := s.setTq k { x with held := x.held ++ [e], ahead := e.execAt }
  if s1.fld (A.tqSts t q) F.tqSts.highWater < x.held.length + 1 then
    s1.setFld (A.tqSts t q) F.tqSts.highWater (x.held.length + 1)
  else s1

/-- The arrival of a command whose shot starts at `start` (R73–R75). -/
def State.arrive (s : State) (t q p start : Nat) (f : Flight) : State :=
  let k := sk t q
  let a : Int := s.rel start
  let m : Int := (f.stamp : Int) - a
  let s1 := s.noteMargin t q m
  let x := s1.tq k
  if f.cmd = .endMarker then
    s1.enqueue t q { cmd := f.cmd, stamp := f.stamp, sid := f.sid, execAt := max (max (f.stamp : Int) (a + 1)).toNat x.ahead }
  else if x.haltAt.isSome then s1
  else
    let same := if x.stamp = some f.stamp then x.same + 1 else 1
    let s2 := s1.setTq k { x with stamp := some f.stamp, same := same }
    let late := m < 20 ∨ 4 < same
    let pol := s2.fld (A.tqCtl t q) F.tqCtl.latePol
    if !late then
      let e := x.place 65 (max f.stamp x.ahead)
      s2.enqueue t q { cmd := f.cmd, stamp := f.stamp, sid := f.sid, execAt := e, moved := decide (f.stamp < e) }
    else if pol = 1 then s2.lateAction t q p f.sid f.stamp
    else if pol = 2 then
      let e := x.place 65 (max (a + 20).toNat x.ahead)
      (s2.lateAction t q p f.sid f.stamp).enqueue t q { cmd := f.cmd, stamp := f.stamp, sid := f.sid, execAt := e }
    else
      let s3 := s2.lateAction t q p f.sid f.stamp
      s3.setTq k { s3.tq k with haltAt := some (max (f.stamp : Int) (a + 1)).toNat }

/-- A queue's stalls count the tick that passes (R71): one for a sequencer in STALL_Q, one for a stalled command that is issued and not
yet in the queue. -/
def State.stallTick (s : State) : State :=
  let waiting := s.seqs.filterMap fun e => match e.2.stall with | .queue .. => some e.1 | _ => none
  let onWay := s.tqs.flatMap fun e => (e.2.flight.filter fun f => f.stalledAt.isSome).map fun _ => e.1
  (waiting ++ onWay).foldl (fun s k => s.bump (A.tqStallTicks (k / 34) (k % 34))) s

/-- TQ_ENTRY_ARRIVAL (R27, R73): 2–3 ticks after issue. -/
def execTqEntryArrival (t : Tile) (q : Seq) (s : State) : Res :=
  let k := sk t q
  match (s.tq k).flight, s.plotOf t with
  | f :: fs, some p =>
    let s1 := s.setTq k { s.tq k with flight := fs }
    onlyIf (f.issued + 2 == s.tm.now || f.issued + 3 == s.tm.now) s
      (match s.startOf p f.sid with
       | some h => s1.arrive t q p h.start f
       | none => s1)
  | _, _ => done s

/-! ## The front of a queue -/

/-- The entry of (t, q) that executes in the present tick: the oldest one, at its tick of its started shot. -/
def State.due (s : State) (t q : Nat) : Option Entry :=
  match (s.tq (sk t q)).held, s.plotOf t with
  | e :: _, some p =>
    match s.startOf p e.sid with
    | some h => if h.started && h.start + e.execAt == s.DT then some e else none
    | none => none
  | _, _ => none

/-- The oldest entry leaves the queue (R71); one that EXECUTE_NOW moved past its stamp is a late action as it executes (R74). -/
def State.pop (s : State) (t q : Nat) : State :=
  let k := sk t q
  let s1 := s.setTq k { s.tq k with held := (s.tq k).held.tail }
  match (s.tq k).held, s.plotOf t with
  | e :: _, some p => if e.moved then s1.lateAction t q p e.sid e.stamp else s1
  | _, _ => s1

/-- The channel of (t, q) is halted in shot-relative tick `c` (R74). -/
def State.haltedAt (s : State) (t q c : Nat) : Bool :=
  match (s.tq (sk t q)).haltAt with
  | some h => h ≤ c
  | none => false

/-! ## Channels (R134–R140) -/

/-- The status register of a channel: XC_STS, RC_STS or FX_STS. -/
def chanSts (t n : Nat) : Nat := if n < 8 then A.xcSts t n else if n < 16 then A.rcSts t (n - 8) else A.fxSts t (n - 16)
/-- Its jump counter. -/
def chanJumps (t n : Nat) : Nat :=
  if n < 8 then A.xcJumps t n else if n < 16 then A.rcJumps t (n - 8) else A.fxJumps t (n - 16)
/-- Its underrun counter. -/
def chanUnder (t n : Nat) : Nat :=
  if n < 8 then A.xcUnderCnt t n else if n < 16 then A.rcUnderCnt t (n - 8) else A.fxUnderCnt t (n - 16)
/-- BAD_SEG of a channel. -/
def chanBad (n : Nat) : Fld := if n < 16 then F.xcSts.badSeg else F.fxSts.badSeg
/-- UNDERRUN of a channel. -/
def chanUnd (n : Nat) : Fld := if n < 16 then F.xcSts.underrun else F.fxSts.underrun
/-- JUMP_REPL of a channel. -/
def chanRepl (n : Nat) : Fld := if n < 16 then F.xcSts.jumpRepl else F.fxSts.jumpRepl

/-- Segment `seg` can be played by sequencer `q` of tile `t` (R136): it is valid, and `q` (or the sequencer for which
it stands in, R319) owns its partition. -/
def State.playable (s : State) (t q seg : Nat) : Bool :=
  let i := s.segPart t seg
  let x := s.effIdx t q
  s.segValid t seg && (s.fld (A.cp t i) F.cp.ownerA == x || s.fld (A.cp t i) F.cp.ownerB == x)

/-- A PLAY or jump names an unusable segment (R136, R140). -/
def State.badSeg (s : State) (t n : Nat) : State :=
  ((s.raise (chanSts t n) (chanBad n) 1).fire (tileSrc t 10)).flagTile t Flag.taint

/-- Whatever plays on path `n` stops (R134); a decanted playback is stopped, and its descriptor primes (R152). -/
def State.stopPlay (s : State) (t n : Nat) : State :=
  match (s.chan t n).playing with
  | none => s
  | some pl =>
    let s1 := s.setChan t n { s.chan t n with playing := none }
    let d := s.segDesc t pl.seg
    if s.segDecant t pl.seg && (s.dec t d).player == some (n, pl) then s1.reprimeAfter t d else s1

/-- The descriptors of tile `t` whose playback, begun by path `n`, satisfies `c`: it is over, and they prime (R152, R155). -/
def State.playbacksEnd (s : State) (t n : Nat) (c : Playing → Bool) : State :=
  (List.range 16).foldl (fun s d =>
    match (s.dec t d).player with
    | some (m, pl) => if m = n ∧ c pl then s.reprimeAfter t d else s
    | none => s) s

/-- The abort that an UNDERRUN triggers takes effect in the next tick (R63), or with an earlier one that is under way. -/
def State.underrunAbort (s : State) (t : Nat) : State :=
  match s.plotOf t with
  | some p =>
    if s.on (A.shotCtl p) F.shotCtl.underrunAbort && !s.stopped p then
      match (s.sched p).abortAt with
      | some (a, _) => if a ≤ s.DT + 1 then s else s.setSched p { s.sched p with abortAt := some (s.DT + 1, true) }
      | none => s.setSched p { s.sched p with abortAt := some (s.DT + 1, true) }
    else s
  | none => s

/-- What an underrun of path `n` on descriptor `d` does beside the zero envelope (R154). -/
def State.underrun (s : State) (t n d : Nat) : State :=
  let s1 := (s.raise (A.ddSts t d) F.ddSts.starve 1).raise (chanSts t n) (chanUnd n) 1
  let s2 := (s1.bump (A.ddStarveCnt t d)).bump (chanUnder t n)
  ((s2.fire (tileSrc t 8)).flagTile t (Flag.underrun ||| Flag.taint)).underrunAbort t

/-- Starts segment `a.seg` on path `n` at shot-relative tick `c` (R134, R153–R155); the start re-anchors the grid
(R137). A restart by the channel whose playback of the descriptor runs leaves that playback running. -/
def State.startSeg (s : State) (t n c : Nat) (a : PlayArg) : State :=
  let d := s.segDesc t a.seg
  let dec := s.segDecant t a.seg
  let streaming := s.ddState t d == 3
  let primed := s.ddState t d == 2
  let same := match (s.chan t n).playing with | some pl => s.segDecant t pl.seg && s.segDesc t pl.seg == d | none => false
  let again := dec && streaming && same && (match (s.dec t d).player with | some (m, _) => m == n | none => false)
  let base := if again then s.setChan t n { s.chan t n with playing := none } else s.stopPlay t n
  let pl : Playing := { seg := a.seg, start := c, len := 16 * s.segLen t a.seg, amp := a.amp, slot := a.slot,
                        missing := if dec && !primed then some 0 else none }
  let s1 := base.setChan t n { base.chan t n with playing := some pl, cur := a.seg, g0 := c }
  if !dec then s1
  else if primed then
    ((s1.setDd t d 3).setReg (A.ddChunk t d) 0).setDec t d { s1.dec t d with player := some (n, pl) }
  else
    let s2 := s1.underrun t n d
    if streaming then s2 else s2.reprimeAfter t d

/-- A PLAY with JUMP = 0 by sequencer `q`, whose channel is path `n`, in tick `c` (R134, R136). -/
def State.play (s : State) (t q n c : Nat) (a : PlayArg) : State :=
  if s.playable t q a.seg then s.startSeg t n c a else s.badSeg t n

/-- A jump request in tick `c` (R138): it replaces a pending jump. -/
def State.requestJump (s : State) (t n c : Nat) (a : PlayArg) : State :=
  let s1 := if (s.chan t n).jump.isSome then s.raise (chanSts t n) (chanRepl n) 1 else s
  s1.setChan t n { s1.chan t n with jump := some (a, c) }

/-- The boundary at which a jump requested in tick `p` takes effect, on a grid anchored at `g0`: the first one at or
after p + 8, and after the start that anchors the grid (R138, R139). -/
def jumpTick (g0 p : Nat) : Nat := g0 + 16 * max 1 ((p + 8 - g0 + 15) / 16)

/-- A PLAY or a jump on the path of sequencer (t, q); a halted channel stays idle (R74), and a sequencer that no path
names acts on nothing (R314). -/
def State.playOn (s : State) (t q c : Nat) (a : PlayArg) : State :=
  match s.pathOf t q with
  | some n =>
    if s.haltedAt t q c then s
    else if a.jump then s.requestJump t n c a else s.play t q n c a
  | none => s

/-- PLAY_EXECUTE (R134). -/
def execPlayExecute (t : Tile) (q : Seq) (s : State) : Res :=
  match s.due t q with
  | some e =>
    match e.cmd with
    | .play a => onlyIf (!a.jump) s ((s.pop t q).playOn t q e.execAt a)
    | _ => done s
  | none => done s

/-- JUMP_REQUEST (R138). -/
def execJumpRequest (t : Tile) (q : Seq) (s : State) : Res :=
  match s.due t q with
  | some e =>
    match e.cmd with
    | .play a => onlyIf a.jump s ((s.pop t q).playOn t q e.execAt a)
    | _ => done s
  | none => done s

/-- The shot-relative tick of the shot in progress of tile `t`, once it has started. -/
def State.relTile (s : State) (t : Nat) : Option Nat :=
  match s.plotOf t with
  | some p =>
    match s.current p with
    | some h => if h.started then some (s.DT - h.start) else none
    | none => none
  | none => none

/-- A queue holds a command that executes in shot-relative tick `r` and goes before a pending jump of that tick: a PLAY, or an ARM
whose alternative is one, that starts a segment, or the end marker, which discards the jump (R139). -/
def State.beforeJump (s : State) (t q r : Nat) : Bool :=
  (s.tq (sk t q)).held.any fun e => e.execAt == r &&
    (match e.cmd, e.sel with
     | .play a, _ => !a.jump && s.playable t q a.seg
     | .arm .., some (some a) => !a.jump && s.playable t q a.seg
     | .endMarker, _ => true
     | _, _ => false)

/-- JUMP_TAKE_EFFECT (R138–R140). -/
def execJumpTakeEffect (t : Tile) (q : Seq) (s : State) : Res :=
  match s.pathOf t q, s.relTile t with
  | some n, some r =>
    match (s.chan t n).jump with
    | some (a, p) =>
      onlyIf (r == jumpTick (s.chan t n).g0 p && !s.haltedAt t q r && !s.beforeJump t q r) s
        (let s1 := s.setChan t n { s.chan t n with jump := none }
         if s1.playable t q a.seg then (s1.startSeg t n r a).bump (chanJumps t n)
         else (s1.stopPlay t n).badSeg t n)
    | none => done s
  | _, _ => done s

/-- The tick after the last sample of what path `n` plays: its natural end, or the tick of a halt (R74, R134). -/
def State.playEnd (s : State) (t q : Nat) (pl : Playing) : Nat :=
  match (s.tq (sk t q)).haltAt with
  | some h => min (pl.start + pl.len) h
  | none => pl.start + pl.len

/-- SEGMENT_END (R134): after the last sample the channel plays its idle state; a playback that went on behind a restart ends likewise
(R155). -/
def execSegmentEnd (t : Tile) (q : Seq) (s : State) : Res :=
  match s.pathOf t q, s.relTile t with
  | some n, some r =>
    let s1 := match (s.chan t n).playing with
      | some pl => if r = s.playEnd t q pl then s.stopPlay t n else s
      | none => s
    done (s1.playbacksEnd t n fun pl => r == s.playEnd t q pl)
  | _, _ => done s

/-- The channel of path `n` plays its idle state and drops its pending jump (R134, R139). -/
def State.idleChan (s : State) (t n : Nat) : State :=
  let s1 := (s.stopPlay t n).playbacksEnd t n fun _ => true
  s1.setChan t n { s1.chan t n with jump := none }

/-- Before the first start of a shot the grid of every channel of tile `t` is anchored at 0 (R137). -/
def State.clearGrid (s : State) (t : Nat) : State :=
  (List.range 30).foldl (fun s n => if (s.chan t n).g0 = 0 then s else s.setChan t n { s.chan t n with g0 := 0 }) s

/-- END_MARKER_EXECUTE (R53, R75). -/
def execEndMarkerExecute (t : Tile) (q : Seq) (s : State) : Res :=
  match s.due t q, s.plotOf t with
  | some e, some p =>
    onlyIf (e.cmd == .endMarker) s
      (let s1 := s.pop t q
       let s2 := s1.setTq (sk t q) { s1.tq (sk t q) with owes := false }
       let s3 := match s2.pathOf t q with | some n => s2.idleChan t n | none => s2
       s3.setSched p { s3.sched p with endTick := s.DT })
  | _, _ => done s

/-! ## Select at playout (R96, R241, R242) -/

/-- Records a selection in the oldest unresolved ARM entry. -/
def setSel (x : Option PlayArg) : List Entry → List Entry
  | [] => []
  | e :: es =>
    match e.cmd, e.sel with
    | .arm .., none => { e with sel := some x } :: es
    | _, _ => e :: setSel x es

/-- The oldest ARM entry that is not resolved. -/
def State.unresolved (s : State) (t q : Nat) : Option Entry :=
  (s.tq (sk t q)).held.find? fun e => (match e.cmd with | .arm .. => true | _ => false) && e.sel.isNone

/-- Shot `sid` of plot `p` is announced and has not started. -/
def State.beforeStart (s : State) (p sid : Nat) : Bool := (s.sched p).shots.any fun h => h.sid == sid && !h.started

/-- The resolution of an armed entry (R241): counters, the late decision, and the alternative chosen. -/
def State.resolve (s : State) (t q p : Nat) (e : Entry) (alts : List (Option PlayArg)) (k fb ks midx : Nat) : State :=
  let bs := s.keyBits t ks midx (s.tagOf p e.sid) k 0
  let put := fun (s : State) (i : Nat) =>
    s.setTq (sk t q) { s.tq (sk t q) with held := setSel (alts.getD i none) (s.tq (sk t q)).held }
  let last := fun (s : State) (v alt : Nat) (cfg sup late : Bool) =>
    s.setReg (A.tpLastSel t) (BitVec.ofNat 32 (q * 2 ^ 24 + v * 2 ^ 16 + alt * 2 ^ 12 + b2n cfg * 2 ^ 8
      + b2n sup * 2 + b2n late))
  let s1 := s.bump (A.tpSelectCnt t)
  match keyValue bs with
  | some v =>
    if v < alts.length then put (last s1 v v false false false) v
    else put (last (s1.bump (A.tpFallbackCnt t)) v fb true false false) fb
  | none =>
    let sup := bs.any fun b => b == .superseded
    let s2 := ((s1.raise (A.tpSts t) F.tpSts.lateDec 1).bump (A.tpLateDecCnt t)).fireOnceIn t 23 (s.beforeStart p e.sid)
    let s3 := s2.flagShot p e.sid Flag.lateDec
    let s4 := if sup then (s3.raise (A.tpSts t) F.tpSts.superseded 1).bump (A.tpSupersededCnt t) else s3
    put (last s4 0 fb false sup true) fb

/-- ARM_SELECT (R232, R241): the select tick is 20 ticks before the entry executes. -/
def execArmSelect (t : Tile) (q : Seq) (s : State) : Res :=
  match s.unresolved t q, s.plotOf t with
  | some e, some p =>
    match e.cmd, s.startOf p e.sid with
    | .arm alts k fb ks midx, some h =>
      onlyIf (s.DT + 20 == h.start + e.execAt) s (s.resolve t q p e alts k fb ks midx)
    | _, _ => done s
  | _, _ => done s

/-- ARM_EXECUTE (R96, R140): the alternative chosen plays, jumps, or (a NOP) changes nothing. -/
def execArmExecute (t : Tile) (q : Seq) (s : State) : Res :=
  match s.due t q with
  | some e =>
    match e.cmd, e.sel with
    | .arm .., some (some a) => done ((s.pop t q).playOn t q e.execAt a)
    | .arm .., some none => done (s.pop t q)
    | _, _ => done s
  | none => done s

/-! ## Markers and vector lines (R98, R147–R149) -/

/-- A marker output or vector line of tile `t`: 0, 1 markers, 2, 3 vector lines. -/
def State.mark (s : State) (t m : Nat) : Mark := KMap.get {} s.marks (4 * t + m)

/-- Writes a marker output or vector line. -/
def State.setMark (s : State) (t m : Nat) (x : Mark) : State := { s with marks := KMap.set {} s.marks (4 * t + m) x }

/-- The MARK and VEC levels of tile `t` fall to 0, and no pulse runs on: at a shot start and as the plot stops (R148, R149). -/
def State.clearMarks (s : State) (t : Nat) : State := (List.range 4).foldl (fun s m => s.setMark t m {}) s

/-- A MARK or VEC on output `m` (R98): a level, or a pulse of `v` ticks; a width of 0 produces no pulse. -/
def State.markOne (s : State) (t m : Nat) (level : Bool) (bit : Nat) (v : Nat) : State :=
  if level then s.setMark t m { level := v.testBit bit, pulseEnd := none }
  else if v = 0 then s
  else s.setMark t m { level := true, pulseEnd := some (s.DT + v) }

/-- A MARK (`off` = 0) or VEC (`off` = 2) on the outputs of its mask. -/
def State.markAll (s : State) (t off : Nat) (level : Bool) (mask v : Nat) : State :=
  let s1 := if mask.testBit 0 then s.markOne t off level 0 v else s
  if mask.testBit 1 then s1.markOne t (off + 1) level 1 v else s1

/-- An auxiliary port is fed by sequencer (t, q), which is not halted in tick `c`. -/
def State.auxPort (s : State) (t q c : Nat) : Bool :=
  (match s.pathOf t q with | some n => decide (30 ≤ n) | none => false) && !s.haltedAt t q c

/-- MARK_EXECUTE (R98). -/
def execMarkExecute (t : Tile) (q : Seq) (s : State) : Res :=
  match s.due t q with
  | some e =>
    match e.cmd with
    | .mark level mask v =>
      let s1 := s.pop t q
      done (if s.auxPort t q e.execAt then s1.markAll t 0 level mask v else s1)
    | _ => done s
  | none => done s

/-- VEC_EXECUTE (R149). -/
def execVecExecute (t : Tile) (q : Seq) (s : State) : Res :=
  match s.due t q with
  | some e =>
    match e.cmd with
    | .vec level mask v =>
      let s1 := s.pop t q
      done (if s.auxPort t q e.execAt then s1.markAll t 2 level mask v else s1)
    | _ => done s
  | none => done s

/-- The end of a running pulse: the output returns low (R98). -/
def State.pulseEnds (s : State) (t m : Nat) : Res :=
  onlyIf ((s.mark t m).pulseEnd == some s.DT) s (s.setMark t m {})

/-- MARK_PULSE_END (R98). -/
def execMarkPulseEnd (t : Tile) (m : Fin 2) (s : State) : Res := s.pulseEnds t m

/-- VEC_PULSE_END (R98). -/
def execVecPulseEnd (t : Tile) (v : Fin 2) (s : State) : Res := s.pulseEnds t (2 + v)

/-- A write of MK_CFG[m] or VL_CFG[m] (R148, R149): it takes effect in the marker stage at once. -/
def State.writeMarkCfg (s : State) (src : Req) (t m : Nat) (vl : Bool) (w : Word) : WRes :=
  if vl then s.write src spec_vlCfg (A.vlCfg t m) w none id else s.write src spec_mkCfg (A.mkCfg t m) w none id

/-- MARKER_CFG_WRITE (R148). -/
def execMarkerCfgWrite (t : Tile) (m : Fin 2) (vl : Bool) (w : Word) (s : State) : Res :=
  done (State.hostWrite (s.writeMarkCfg .host t m vl w) (if vl then A.vlCfg t m else A.mkCfg t m))

/-- The sample word that path `n` plays in the present tick; none where it plays no segment (R134, R154). A decanted
segment's sample lies in buffer (chunk mod 2) of its chunk area; beyond DD_LEN, from the first missing sample of an
underrun on, and where its chunk is not resident, it is zero. -/
def State.sampleAt (s : State) (t n : Nat) : Option Word :=
  match (s.chan t n).playing, s.relTile t with
  | some pl, some r =>
    let i := r - pl.start
    if r < pl.start ∨ pl.len ≤ i then none
    else if (match pl.missing with | some m => decide (m ≤ i) | none => false) then some 0
    else if s.segDecant t pl.seg then
      let d := s.segDesc t pl.seg
      if s.ddLen t d ≤ i ∨ !(s.dec t d).resident.contains (i / 4096) then some 0
      else some (s.word (cellarAt t (16 * s.segStart t pl.seg + 4096 * (i / 4096 % 2) + i % 4096)))
    else some (s.word (cellarAt t (16 * s.segStart t pl.seg + i)))
  | _, _ => none

/-- Marker bit `b` of the sample that sequencer `q` of tile `t` plays (R147): 0 where it plays none or its segment has
MK_EN = 0. -/
def State.envBit (s : State) (t q b : Nat) : Bool :=
  match (List.range 16).find? (fun n => match s.feeder t n with | some x => s.effIdx t x == q | none => false) with
  | some n =>
    match (s.chan t n).playing, s.sampleAt t n with
    | some pl, some w => s.on (A.segLo t pl.seg) F.segLo.mkEn && w.getLsbD (16 * b)
    | _, _ => false
  | none => false

/-- The level of marker output `m` in the marker stage (R148): it reaches the ball 32 ticks later. -/
def State.markerLevel (s : State) (t m : Nat) : Bool :=
  let c := s.reg (A.mkCfg t m)
  let q := getF c F.mkCfg.srcCh
  let env := getF c F.mkCfg.envEn == 1 && q < 16 && s.envBit t q (getF c F.mkCfg.srcBit)
  xor ((s.mark t m).level || env) (getF c F.mkCfg.pol == 1)

/-- The level of vector line `v` (R149). -/
def State.vectorLevel (s : State) (t v : Nat) : Bool := xor (s.mark t (2 + v)).level (s.on (A.vlCfg t v) F.vlCfg.pol)

/-! ## Frames (R100, R141–R143) -/

/-- The working frequency word of slot `k` of path `n` (0–15). -/
def State.freqWord (s : State) (t n k : Nat) : BitVec 48 := KMap.get 0 s.freqs (128 * t + 8 * n + k)

/-- Writes a working frequency word. -/
def State.setFreqWord (s : State) (t n k : Nat) (v : BitVec 48) : State :=
  { s with freqs := KMap.set 0 s.freqs (128 * t + 8 * n + k) v }

/-- Offset of FS_PH_WORK of slot `k` of path `n`. -/
def phWorkAt (t n k : Nat) : Nat := if n < 8 then A.fsPhWork t n k else A.rfsPhWork t (n - 8) k

/-- Slot `k` of path `n` changes in this tick: what it held stands in the log, if it is a tone channel's (R142, R199). Changes that no
window looks back to are dropped. -/
def State.logSlot (s : State) (t n k : Nat) : State :=
  if n < 8 then s
  else
    let i := 64 * t + 8 * (n - 8) + k
    let l := (KMap.get [] s.slotLog i).filter fun e => decide (s.DT ≤ e.1 + 10)
    { s with slotLog := KMap.set [] s.slotLog i ((s.DT, (s.freqWord t n k).toNat, (s.reg (phWorkAt t n k)).toNat) :: l) }

/-- Frequency word and phase offset of slot `k` of path `n` in the tick `m` ticks ago (R142). -/
def State.slotAgo (s : State) (t n k m : Nat) : Nat × Nat :=
  match (KMap.get [] s.slotLog (64 * t + 8 * (n - 8) + k)).reverse.find? fun e => decide (s.DT < e.1 + m) with
  | some (_, fw, ph) => (fw, ph)
  | none => ((s.freqWord t n k).toNat, (s.reg (phWorkAt t n k)).toNat)

/-- FREQ_EXECUTE (R142): the phase at this tick becomes that of the new word at absolute time. -/
def execFreqExecute (t : Tile) (q : Seq) (s : State) : Res :=
  match s.due t q with
  | some e =>
    match e.cmd with
    | .freq k fw =>
      let s1 := s.pop t q
      done (match s.pathOf t q with
        | some n => if n < 16 then (s1.logSlot t n k).setFreqWord t n k (BitVec.ofNat 48 fw) else s1
        | none => s1)
    | _ => done s
  | none => done s

/-- PHASE_EXECUTE (R142). -/
def execPhaseExecute (t : Tile) (q : Seq) (s : State) : Res :=
  match s.due t q with
  | some e =>
    match e.cmd with
    | .phase k set ph =>
      let s1 := s.pop t q
      done (match s.pathOf t q with
        | some n =>
          if n < 16 then (s1.logSlot t n k).setReg (phWorkAt t n k) (if set then ph else s1.reg (phWorkAt t n k) + ph) else s1
        | none => s1)
    | _ => done s
  | none => done s

/-- The working words of one slot reload from its registers (R143). -/
def State.reloadSlot (s : State) (t n k : Nat) : State :=
  let lo := if n < 8 then A.fsFwLo t n k else A.rfsFwLo t (n - 8) k
  let hi := if n < 8 then A.fsFwHi t n k else A.rfsFwHi t (n - 8) k
  let ini := if n < 8 then A.fsPhInit t n k else A.rfsPhInit t (n - 8) k
  ((s.logSlot t n k).setFreqWord t n k (BitVec.ofNat 48 (s.pair lo hi))).setReg (phWorkAt t n k) (s.reg ini)

/-- Every slot of tile `t` reloads (R143). -/
def State.reloadTile (s : State) (t : Nat) : State :=
  (List.range 16).foldl (fun s n => (List.range 8).foldl (fun s k => s.reloadSlot t n k) s) s

/-- The phase of slot `k` of path `n` at RF DAC sample 8·DT + j, in units of 2⁻⁴⁸ turn (R141). -/
def State.phaseAt (s : State) (t n k j : Nat) : Nat :=
  ((s.freqWord t n k).toNat * (8 * s.DT + j) + (s.reg (phWorkAt t n k)).toNat * 2 ^ 16) % 2 ^ 48

/-- A write of a frame slot register (R133, R220: the words of a tracked slot belong to the tracker). -/
def State.writeFrame (s : State) (src : Req) (t n k which : Nat) (w : Word) : WRes :=
  let owned := decide (8 ≤ n) && which != 2 && s.on (A.ttCtl t (n - 8)) F.ttCtl.en &&
    s.fld (A.ttCtl t (n - 8)) F.ttCtl.slot == k
  let deny := if src != .mgmt && owned then some Refuse.accessErr else s.busyTile src t
  if n < 8 then
    if which = 0 then s.write src spec_fsFwLo (A.fsFwLo t n k) w deny id
    else if which = 1 then s.write src spec_fsFwHi (A.fsFwHi t n k) w deny id
    else s.write src spec_fsPhInit (A.fsPhInit t n k) w deny id
  else
    if which = 0 then s.write src spec_rfsFwLo (A.rfsFwLo t (n - 8) k) w deny id
    else if which = 1 then s.write src spec_rfsFwHi (A.rfsFwHi t (n - 8) k) w deny id
    else s.write src spec_rfsPhInit (A.rfsPhInit t (n - 8) k) w deny id

/-! ## Events (R101) and decant during playback (R153, R154) -/

/-- EVT_EXECUTE (R101): EVT_0–EVT_3 of the tile. -/
def execEvtExecute (t : Tile) (q : Seq) (s : State) : Res :=
  match s.due t q with
  | some e =>
    match e.cmd with
    | .evt k => done ((s.pop t q).fire (tileSrc t (4 + k)))
    | _ => done s
  | none => done s

/-- The playback of descriptor `d`: its path, what it plays and the sample index of the present tick. -/
def State.playback (s : State) (t d : Nat) : Option (Nat × Playing × Nat) :=
  match (s.dec t d).player, s.relTile t with
  | some (n, pl), some r => if pl.start ≤ r then some (n, pl, r - pl.start) else none
  | _, _ => none

/-- DECANT_CHUNK_RELEASE (R153): playback has passed the last sample of the chunk playing; its buffer is released, and
chunk k + 2 is fetched if DD_LEN reaches it. -/
def execDecantChunkRelease (t : Tile) (d : Fin 16) (s : State) : Res :=
  match s.playback t d with
  | some (_, _, i) =>
    let k := s.fld (A.ddChunk t d) F.ddChunk.chunk
    let x := s.dec t d
    onlyIf (s.ddState t d == 3 && i == 4096 * (k + 1)) s
      (let res := x.resident.filter (· != k)
       let fe := if k + 2 < s.ddChunks t d then x.fetching ++ [k + 2] else x.fetching
       (((s.setReg (A.ddChunk t d) (BitVec.ofNat 32 ((k + 1) % 32))).setFld (A.ddSts t d) F.ddSts.resident
         res.length).setDec t d { x with resident := res, fetching := fe }).askChunks t d
         (if k + 2 < s.ddChunks t d then [k + 2] else []))
  | none => done s

/-- DECANT_UNDERRUN (R154): the sample due lies in a chunk that is not resident; the channel plays zero to the end of
the segment, the remaining fetches are cancelled, and priming begins again. -/
def execDecantUnderrun (t : Tile) (d : Fin 16) (s : State) : Res :=
  match s.playback t d with
  | some (n, pl, i) =>
    onlyIf (decide (i < pl.len) && decide (i < s.ddLen t d) && !(s.dec t d).resident.contains (i / 4096)) s
      (let s1 := if (s.chan t n).playing = some pl then
          s.setChan t n { s.chan t n with playing := some { pl with missing := some i } } else s
       (s1.underrun t n d).reprimeAfter t d)
  | none => done s

end Sys2Proof.Machine
end

