-- ==== Sys2Proof/Machine/Bias.lean ====
section
/-! DEFINITION. Bias queues and bias dies (R168–R191, R22, R186): entries and register writes cross the bias link, and
take effect at update instants. -/

namespace Sys2Proof.Machine

/-! ## Access -/

/-- Bias channel `j` of quadrant `q`. -/
def State.bias (s : State) (q j : Nat) : BiasX := KMap.get {} s.biases (128 * q + j)

/-- Writes a bias channel. -/
def State.setBias (s : State) (q j : Nat) (x : BiasX) : State :=
  { s with biases := KMap.set {} s.biases (128 * q + j) x }

/-- The tile and output of channel `j` of quadrant `q` (R168). -/
def biasTile (q j : Nat) : Nat := 8 * q + j / 16
/-- The quadrant of a tile. -/
def quadOf (t : Nat) : Nat := t / 8
/-- The channel of output `b` of tile `t`. -/
def biasCh (t b : Nat) : Nat := 16 * (t % 8) + b

/-- The bias link of quadrant `q` is up (R22). -/
def State.blkUp (s : State) (q : Nat) : Bool := (s.fld A.glbBridgeSts F.glbBridgeSts.blkUp).testBit q

/-- BIAS_CLR_n of quadrant `q` is asserted (R184). -/
def State.clrPin (s : State) (q : Nat) : Bool := s.on (A.bqdSts q) F.bqdSts.clrPin

/-- The outputs of quadrant `q` are kept at their clear states: by BIAS_CLR_n, or by a shutdown, which acts as the pin does (R184,
R440). -/
def State.clrOn (s : State) (q : Nat) : Bool := s.clrPin q || s.shutAt.isSome

/-- Applies `f` to a bias channel. -/
def State.modBias (s : State) (q j : Nat) (f : BiasX → BiasX) : State := s.setBias q j (f (s.bias q j))

/-- SLEW_EN. -/
def State.slewEn (s : State) (q j : Nat) : Bool := s.on (A.bdCfg q j) F.bdCfg.slewEn
/-- The target (R170). -/
def State.bdTarget (s : State) (q j : Nat) : Nat := (s.reg (A.bdTarget q j)).toNat
/-- Writes the target. -/
def State.setTarget (s : State) (q j c : Nat) : State := s.setReg (A.bdTarget q j) (BitVec.ofNat 32 (c % 2 ^ 20))
/-- BD_GEN_CTL.RUN: the generator runs (R181). -/
def State.genOn (s : State) (q j : Nat) : Bool := s.on (A.bdGenCtl q j) F.bdGenCtl.run

/-- The DAC code in force (BD_OUT): a code latches 400 ticks after its update instant (R170). -/
def State.biasOut (s : State) (q j : Nat) : Nat :=
  let x := s.bias q j
  if x.latchAt ≤ s.tm.now then x.code else (s.reg (A.bdOut q j)).toNat

/-- The output takes code `c` at an update instant, whose code latches at U + 400. -/
def State.setCode (s : State) (q j c : Nat) : State :=
  let x := s.bias q j
  if c = x.code then s
  else
    let base := match x.mark with | some (n, _) => n | none => s.tm.now
    (s.setReg (A.bdOut q j) (BitVec.ofNat 32 (s.biasOut q j))).setBias q j { x with code := c, latchAt := base + 400 }

/-! ## Spans (R169, R183, R188) -/

/-- Vmin, range and kind (current) of a span. -/
def spanOf : Nat → Int × Nat × Bool
  | 0 => (0, 5, false)
  | 1 => (0, 10, false)
  | 2 => (-5, 10, false)
  | 3 => (-10, 20, false)
  | 4 => (-1, 2, true)
  | 5 => (-5, 10, true)
  | _ => (-10, 20, true)

/-- The zero code of a span. -/
def zeroCode (span : Nat) : Nat := if span ≤ 1 then 0 else 0x80000

/-- The clear state of a channel (R183). -/
def State.clearCode (s : State) (q j : Nat) : Nat :=
  if s.on (A.bdCfg q j) F.bdCfg.clrSel then 0x80000 else (s.reg (A.bdClrCode q j)).toNat

/-- A code of span `a` expressed in span `b`, rounded to nearest, before clamping (R188). -/
def convertSpan (a b code : Nat) : Int :=
  let x := spanOf a
  let y := spanOf b
  roundDiv ((x.1 - y.1) * 2 ^ 20 + code * x.2.1) y.2.1

/-! ## Discards and late actions (R173, R176, R182, R184, R186) -/

/-- Flags the shot that issued an entry. -/
def State.flagIssuer (s : State) (sh : Option (Nat × Nat)) (fl : BitVec 16) : State :=
  match sh with
  | some (p, sid) => s.flagShot p sid fl
  | none => s

/-- An entry of output `b` of tile `t` is discarded and counted; its shot is flagged TAINT. -/
def State.biasLost (s : State) (t b : Nat) (sh : Option (Nat × Nat)) : State :=
  ((s.raise (A.bqSts t b) F.bqSts.lost 1).bump (A.bqLostCnt t b)).flagIssuer sh Flag.taint

/-- An entry has arrived or has been discarded (R486): its shot waits for one fewer. -/
def State.biasSettled (s : State) (sh : Option (Nat × Nat)) : State :=
  match sh with
  | some (p, sid) => s.mapShots p (fun h => h.sid == sid) fun h => { h with bias := h.bias - 1 }
  | none => s

/-- A late action of a bias queue (R173). -/
def State.biasLate (s : State) (t b : Nat) (sh : Option (Nat × Nat)) : State :=
  let s1 := ((s.raise (A.bqSts t b) F.bqSts.late 1).bump (A.bqLateCnt t b)).fire (tileSrc t 13)
  match sh with
  | some (p, sid) => s1.lateShot p sid (2000 + 16 * t + b)
  | none => s1

/-- Entries wait on the bias die that fell due in a park (R189). -/
def BiasX.holds (x : BiasX) : Bool := x.queue.any (·.held)

/-- Entries on the bias die that wait for their update instant. -/
def BiasX.waits (x : BiasX) : List BiasWait := x.queue.filter fun e => !e.held

/-- Places in use (R176): distinct instants, and one for the entries held in a park. -/
def BiasX.places (x : BiasX) : Nat := ((x.waits.map (·.u)).dedup).length + b2n x.holds

/-- Update instants with entries handed over and not yet applied (BQ_STS.PENDING): the places in use on the bias die and the instants
of the entries that still cross, of which those without one share a place; at most 4. -/
def BiasX.pending (x : BiasX) : Nat :=
  min 4 (((x.waits.map fun e => some e.u) ++ x.flight.map fun e => e.u).dedup.length + b2n x.holds)

/-! ## Generators (R180, R181) -/

/-- The generator stops; the target keeps its value. -/
def State.genStop (s : State) (q j : Nat) : State := s.setFld (A.bdGenCtl q j) F.bdGenCtl.run 0

/-- One advance of the 31-bit LFSR x³¹ + x²⁸ + 1. -/
def lfsrNext (v : Nat) : Nat := (2 * v + b2n (xor (v.testBit 30) (v.testBit 27))) % 2 ^ 31

/-- One generator step: the new position, direction and LFSR (R180). -/
def genNext (shape low high gstep : Nat) (x : BiasX) : BiasX :=
  if shape = 2 then
    let v := lfsrNext x.lfsr
    { x with lfsr := v, pos := low + v % 2 ^ 20 * (high - low + 1) / 2 ^ 20, first := false }
  else if x.first then { x with first := false }
  else if shape = 0 then
    if x.up then
      let p := min (x.pos + gstep) high
      { x with pos := p, up := p < high }
    else
      let p := max (x.pos - gstep) low
      { x with pos := p, up := p ≤ low }
  else if x.pos = high then { x with pos := low }
  else { x with pos := min (x.pos + gstep) high }

/-- A write of BD_GEN_CTL takes effect: the start, its refusal, or the stop (R180, R181). -/
def State.genCtl (s : State) (q j : Nat) (w : Word) : State :=
  let was := s.genOn q j
  let s1 := s.setReg (A.bdGenCtl q j) (mergeWord spec_bdGenCtl.fields false 0 w)
  let low := (s1.reg (A.bdGenLow q j)).toNat
  let shape := s1.fld (A.bdGenCtl q j) F.bdGenCtl.shape
  if !s1.genOn q j then s1
  else if shape = 3 || (s1.reg (A.bdGenHigh q j)).toNat < low ||
      (shape ≤ 1 && (s1.reg (A.bdGenStep q j)).toNat = 0) then
    (s1.genStop q j).raise (A.bdSts q j) F.bdSts.genErr 1
  else if was then s1
  else s1.modBias q j fun x =>
    { x with pos := low, up := true, first := true, lfsr := max 1 (s1.reg (A.bdGenSeed q j)).toNat }

/-! ## Register writes (R169, R178, R182, R186, R191) -/

/-- A write that is discarded with ACCESS_ERR, by its offset in the channel's block. -/
def bdBad (off : Nat) (w : Word) : Bool :=
  (off == 0x00 && getF w F.bdCfg.span == 7) ||
  (off == 0x08 && getF w F.bdSlew.stepF == 0) ||
  (off == 0x18 && (getF w F.bdComp.lim == 0 || getF w F.bdComp.filt == 0))

/-- The word that a held write carries for the register at `off` of channel `j`. -/
def HeldWrite.wordFor (j off : Nat) : HeldWrite → Option Word
  | .bd j' off' w => if j' = j ∧ off' = off then some w else none
  | _ => none

/-- The newest word of a register of the channel: held on the core die (R186), still on its way, or in force. -/
def State.bdNewest (s : State) (q j off : Nat) : Word :=
  match (KMap.get [] s.heldWrites q).reverse.findSome? (HeldWrite.wordFor j off) with
  | some w => w
  | none =>
    match (s.bias q j).writes.reverse.find? fun x => x.1 == off with
    | some x => x.2.1
    | none => s.reg (A.bdCfg q j + off)

/-- A register write sets out across the link (R191). -/
def State.stageBd (s : State) (q j off : Nat) (w : Word) : State :=
  s.modBias q j fun x => { x with
    writes := x.writes ++ [(off, w, s.tm.now + min 100 (Config.biasTransport s.tm.now (128 * q + j)), 0)] }

/-- Holds a host write on the core die (R186). -/
def State.holdWrite (s : State) (q : Nat) (h : HeldWrite) : State :=
  { s with heldWrites := KMap.set [] s.heldWrites q (KMap.get [] s.heldWrites q ++ [h]) }

/-- Offsets of the registers that cross the link as writes: BD_CFG, BD_CLR_CODE, BD_SLEW, BD_COMP, the generator. -/
def bdStaged (off : Nat) : Bool :=
  off == 0x00 || off == 0x04 || off == 0x08 || off == 0x18 || off == 0x20 || off == 0x24 || off == 0x28 ||
    off == 0x2C || off == 0x30

/-- The word that a write of a bias die register carries: locked fields keep their value, SEED 0 is stored as 1. -/
def State.bdWord (s : State) (r : RegSpec) (lock : Bool) (q j off : Nat) (w : Word) : Word :=
  let v := mergeWord r.fields lock (s.bdNewest q j off) w
  let v := if off = 0x18 then putF v F.bdComp.compClr (getF w F.bdComp.compClr) else v
  if off = 0x30 && v = 0 then 1 else v

/-- A write of a register of bias channel `j` of quadrant `q` at offset `off` of its block. -/
def State.writeBd (s : State) (src : Req) (q j off : Nat) (w : Word) : WRes :=
  let a := A.bdCfg q j + off
  match findReg a with
  | none => (s, some .accessErr)
  | some (r, _) =>
    match s.blockRefuse src a with
    | some e => (s, some e)
    | none =>
      let lock := s.locked src
      let hit := if lockHit r.fields lock (s.bdNewest q j off) w then some Refuse.accessErr else none
      if bdBad off w then (s, some .accessErr)
      else if !s.blkUp q then (s.holdWrite q (.bd j off (if bdStaged off then s.bdWord r lock q j off w else w)), hit)
      else if bdStaged off then (s.stageBd q j off (s.bdWord r lock q j off w), hit)
      else s.write src r a w none id

/-- A write of BQD_STS of quadrant `q`, which is held while the bias link is lost (R186). -/
def State.writeBqd (s : State) (src : Req) (r : RegSpec) (q a : Nat) (w : Word) : WRes :=
  match s.blockRefuse src a with
  | some e => (s, some e)
  | none => if s.blkUp q then s.write src r a w none id else (s.holdWrite q (.quad a w), none)

/-- BIAS_REG_WRITE (R191). -/
def execBiasRegWrite (q : Quad) (j : BiasCh) (off : Nat) (w : Word) (s : State) : Res :=
  if off < 0x40 then done (State.hostWrite (s.writeBd .host q j off w) (A.bdCfg q j + off))
  else done (s.refuseHost .accessErr 0 (A.bdCfg q j + off))

/-- GEN_RUN (R180). -/
def execGenRun (q : Quad) (j : BiasCh) (w : Word) (s : State) : Res :=
  done (State.hostWrite (s.writeBd .host q j 0x20 w) (A.bdGenCtl q j))

/-- COMP_CLR (R182). -/
def execCompClr (q : Quad) (j : BiasCh) (w : Word) (s : State) : Res :=
  done (State.hostWrite (s.writeBd .host q j 0x18 (putF w F.bdComp.compClr 1)) (A.bdComp q j))

/-- SPAN_WRITE (R187). -/
def execSpanWrite (q : Quad) (j : BiasCh) (w : Word) (s : State) : Res :=
  done (State.hostWrite (s.writeBd .host q j 0x00 w) (A.bdCfg q j))

/-- COMP_CLR takes effect: COMP_TRIP clears, the hold ends, and the output stays where it is (R182); a ramp to the clear state that the
pin or a shutdown began goes on (R184). -/
def State.compClear (s : State) (q j : Nat) : State :=
  let x := s.bias q j
  let s1 := s.setFld (A.bdSts q j) F.bdSts.compTrip 0
  let s2 := s1.setBias q j { x with exceed := 0, trip := false, tripped := false, hold := false,
                                    clear := if x.clear = 2 then 0 else x.clear }
  if x.hold && x.phase == 0 && x.clear != 1 then s2.setTarget q j x.code else s2

/-- A register write takes effect on the bias die. -/
def State.applyBd (s : State) (q j off : Nat) (w : Word) : State :=
  if off = 0x20 then s.genCtl q j w
  else if off = 0x18 then
    let s1 := s.setReg (A.bdComp q j) (putF w F.bdComp.compClr 0)
    if getF w F.bdComp.compClr = 1 then s1.compClear q j else s1
  else s.setReg (A.bdCfg q j + off) w

/-- The register writes that are on the bias die take effect, in order (R191). The rule gives no order of frames: that a write behind
one whose frame is still repeated waits for it is the model's (DESIGN CHOICE, log entry 217). -/
def State.applyWrites (s : State) (q j : Nat) : State :=
  let x := s.bias q j
  let due := x.writes.takeWhile fun w => w.2.2.1 ≤ s.tm.now
  due.foldl (fun s w => s.applyBd q j w.1 w.2.1) (s.setBias q j { x with writes := x.writes.drop due.length })

/-! ## Slew limiter (R178, R179) -/

/-- Moves a code toward a target by at most `step`. -/
def toward (code target step : Nat) : Nat :=
  if code ≤ target then min (code + step) target else max (code - step) target

/-- DT is a limiter instant (R178). -/
def State.limiterAt (s : State) (q j u : Nat) : Bool :=
  u / 2500 % (s.fld (A.bdSlew q j) F.bdSlew.div + 1) == 0

/-- The code that a step from `code` toward `target` reaches at update instant `u`; `ramp`: a clear ramp (maximum slew
always), `park`: a park (maximum slew where the limiter is off). -/
def State.slewFrom (s : State) (q j u code target : Nat) (ramp park : Bool) : Nat :=
  if ramp then toward code target 65535
  else if !s.slewEn q j then (if park then toward code target 65535 else target)
  else if s.limiterAt q j u then toward code target (s.fld (A.bdSlew q j) F.bdSlew.stepF)
  else code

/-! ## Clear (R183, R184) -/

/-- The output goes to its clear state (kind 1: the pin or shutdown; 2: a CLEAR action): a park is abandoned with the
span in force, the generator stops, and the target becomes the clear state. -/
def State.toClear (s : State) (q j kind : Nat) : State :=
  let x := s.bias q j
  let s1 := if x.phase = 0 then s else s.setFld (A.bdCfg q j) F.bdCfg.span x.span
  let s2 := (s1.genStop q j).modBias q j fun x => { x with phase := 0, clear := kind, clearDue := none }
  s2.setTarget q j (s2.clearCode q j)

/-! ## Entries on the bias die (R175, R181, R189) -/

/-- An entry becomes the target; a running generator stops. -/
def State.applyEntry (s : State) (q j code : Nat) : State :=
  ((s.genStop q j).setTarget q j code).modBias q j fun x => { x with applied := true, clear := 0 }

/-- Entries that fall due are discarded and counted. -/
def State.loseAll (s : State) (t b : Nat) : List BiasWait → State
  | [] => s
  | e :: es => (s.biasLost t b e.shot).loseAll t b es

/-- An entry falls due by instant `u`, or fell due in a park. -/
def BiasWait.dueBy (u : Nat) (e : BiasWait) : Bool := e.held || decide (e.u ≤ u)

/-- The entries due at instant `u`, and those held in a park: the last to reach the bias die wins (R175, R189). -/
def State.takeDue (s : State) (q j u : Nat) : State :=
  let x := s.bias q j
  let t := biasTile q j
  let b := j % 16
  let due := x.queue.filter (·.dueBy u)
  let s1 := s.setBias q j { x with queue := x.queue.filter fun e => !e.dueBy u }
  if x.hold || s.clrOn q then s1.loseAll t b due
  else
    match due.getLast? with
    | none => s1
    | some e => (s1.bumpBy (A.bqSuperCnt t b) (due.length - 1)).applyEntry q j e.code

/-- Entries that fall due in a park are held (R189). -/
def State.holdDue (s : State) (q j u : Nat) : State :=
  s.modBias q j fun x => { x with queue := x.queue.map fun e => { e with held := e.dueBy u } }

/-- Arrival of an entry in its instant `u`, whose marker has passed (R170, R172): it takes effect at that instant. -/
def State.applyNow (s : State) (q j u : Nat) (e : BiasWait) : State :=
  let x := s.bias q j
  if x.markParked then s.setBias q j { x with queue := x.queue ++ [{ e with held := true }] }
  else
    let s1 := if x.applied then s.bump (A.bqSuperCnt (biasTile q j) (j % 16)) else s
    let s2 := s1.applyEntry q j e.code
    s2.setCode q j (s2.slewFrom q j u x.prev e.code false false)

/-- The first update instant at or after a DT value. -/
def instantFrom (x : Nat) : Nat := (x + 2499) / 2500 * 2500

/-- An entry takes its place for instant `u`, or acts at once where that instant's marker has passed (R176). -/
def State.placeEntry (s : State) (q j u : Nat) (e : BiasEntry) : State :=
  let x := s.bias q j
  let w : BiasWait := { code := e.code, u := u, shot := e.shot, ser := e.ser }
  let passed := match x.mark with | some (_, m) => m == u && u != 0 && decide (u ≤ s.DT) | none => false
  if passed then s.applyNow q j u w
  else if x.places = 4 && !x.waits.any (fun y => y.u == u) then s.biasLost (biasTile q j) (j % 16) e.shot
  else s.setBias q j { x with queue := x.queue ++ [w] }

/-- The tick of `now` by which an entry's frame has crossed the link (R172). -/
def BiasEntry.arriveBy (e : BiasEntry) : Nat := e.handed + 100 + 80 * e.repeats

/-- Item `n` of a list, between those before it and those after it. The spec bounds the time of each frame and states no order among
the frames that cross a link (R22, R172), so which one arrives or fails is the command's operand. -/
def pick {α : Type} : Nat → List α → Option (List α × α × List α)
  | _, [] => none
  | 0, e :: es => some ([], e, es)
  | n + 1, e :: es => (pick n es).map fun r => (e :: r.1, r.2.1, r.2.2)

/-- HALT (R173): the output takes no further entry of the shot: those handed over after the late one, number `n`, are discarded, on the
link and on the bias die, and those before it are not. -/
def State.haltBias (s : State) (q j n : Nat) (sh : Option (Nat × Nat)) : State :=
  let gone := (s.bias q j).flight.filter fun e => e.shot == sh && decide (n < e.ser)
  gone.foldl (fun s e => s.biasSettled e.shot)
    (s.modBias q j fun x => { x with
      halt := sh
      flight := x.flight.filter fun e => e.shot != sh || decide (e.ser ≤ n)
      queue := x.queue.filter fun e => e.shot != sh || decide (e.ser ≤ n) })

/-- An entry is judged as it reaches the bias die (R172–R176, R182, R184). -/
def State.judgeEntry (s : State) (q j : Nat) (e : BiasEntry) : State :=
  let x := s.bias q j
  let t := biasTile q j
  let b := j % 16
  if x.hold || s.clrOn q then s.biasLost t b e.shot
  else
    let reach := instantFrom (s.DT - 250)
    if e.host then s.placeEntry q j reach e
    else
      match e.u with
      | none => s.placeEntry q j 0 e
      | some u =>
        if s.DT ≤ u + 250 then s.placeEntry q j u e
        else
          let s1 := s.biasLate t b e.shot
          match s.fld (A.bqCtl t b) F.bqCtl.latePol with
          | 0 => s1.haltBias q j e.ser e.shot
          | 1 => s1
          | _ => s1.placeEntry q j reach e

/-- BIAS_ENTRY_ARRIVAL (R172): at most 100 ticks after handover, and 80 more for each CRC repeat. -/
def execBiasEntryArrival (q : Quad) (j : BiasCh) (n : Nat) (s : State) : Res :=
  match pick n (s.bias q j).flight with
  | some (b, e, a) =>
    onlyIf (decide (s.tm.now ≤ e.arriveBy)) s
      ((((s.modBias q j fun x => { x with flight := b ++ a }).judgeEntry q j e)).biasSettled e.shot)
  | none => done s

/-- An entry sets out for output channel `j` of quadrant `q`. -/
def State.handOver (s : State) (q j : Nat) (e : BiasEntry) : State :=
  s.modBias q j fun x => { x with flight := x.flight ++ [e], handed := x.handed + 1 }

/-- BIASQ_EXECUTE (R172, R173, R186): the entry is handed to the output's bias queue. -/
def execBiasqExecute (t : Tile) (q : Seq) (s : State) : Res :=
  match s.due t q, s.plotOf t with
  | some e, some p =>
    match e.cmd with
    | .biasq b code =>
      let s1 := s.pop t q
      let qd := quadOf t
      let j := biasCh t b
      let sh := some (p, e.sid)
      done (if !s.auxPort t q e.execAt then s1
        else if (s1.bias qd j).halt == sh then s1
        else if !s1.blkUp qd then s1.biasLost t b sh
        else
          (s1.handOver qd j { code := code % 2 ^ 20, host := false, u := some (instantFrom s.DT), shot := sh,
                              handed := s.tm.now, ser := (s1.bias qd j).handed }).mapShots p
            (fun h => h.sid == e.sid) fun h => { h with bias := h.bias + 1 })
    | _ => done s
  | _, _ => done s

/-- A host entry sets out, or is held while the link is lost (R174). -/
def State.handHost (s : State) (t b code : Nat) : State :=
  if !s.blkUp (quadOf t) then s.holdWrite (quadOf t) (.bq t b code)
  else s.handOver (quadOf t) (biasCh t b) { code := code, host := true, u := none, shot := none, handed := s.tm.now,
                                            ser := (s.bias (quadOf t) (biasCh t b)).handed }

/-- A write of BQ_HOST of output `b` of tile `t`. -/
def State.writeBqHost (s : State) (src : Req) (t b : Nat) (w : Word) : WRes :=
  s.write src spec_bqHost (A.bqHost t b) w none fun s1 => s1.handHost t b (getF w F.bqHost.code)

/-- BQ_HOST_WRITE (R174). -/
def execBqHostWrite (t : Tile) (b : Fin 16) (w : Word) (s : State) : Res :=
  done (State.hostWrite (s.writeBqHost .host t b w) (A.bqHost t b))

/-! ## Parks (R187–R189) -/

/-- The park ends: the output is active again and BIAS_PARKED fires. -/
def State.parkEnd (s : State) (q j : Nat) : State :=
  (s.modBias q j fun x => { x with phase := 0 }).fire (tileSrc (biasTile q j) 14)

/-- A step of RAMP_UP at instant `u`. -/
def State.parkUp (s : State) (q j u : Nat) : State :=
  let x := s.bias q j
  let s1 := s.setCode q j (s.slewFrom q j u x.code (s.bdTarget q j) false true)
  if (s1.bias q j).code = s1.bdTarget q j then s1.parkEnd q j else s1

/-- One update instant of a park: RAMP_DOWN, SWITCH, SETTLE, RAMP_UP. -/
def State.parkStep (s : State) (q j u : Nat) : State :=
  let x := s.bias q j
  match x.phase with
  | 1 =>
    let z := zeroCode x.span
    let s1 := (s.setTarget q j z).setCode q j (s.slewFrom q j u x.code z false true)
    if (s1.bias q j).code = z then s1.modBias q j fun x => { x with phase := 2 } else s1
  | 2 =>
    let n := s.fld (A.bdCfg q j) F.bdCfg.span
    let z := zeroCode n
    ((s.setTarget q j z).setCode q j z).modBias q j fun x => { x with phase := 3, span := n, settle := 50 }
  | 3 => s.modBias q j fun x => { x with settle := x.settle - 1 }
  | _ => s.parkUp q j u

/-- RAMP_UP begins: V′ becomes the target (R188). -/
def State.parkTarget (s : State) (q j : Nat) : State :=
  let x := s.bias q j
  if (spanOf x.span0).2.2 != (spanOf x.span).2.2 then
    (s.setTarget q j (zeroCode x.span)).raise (A.bdSts q j) F.bdSts.kindChange 1
  else
    let v := convertSpan x.span0 x.span x.from0
    let c := clampI 0 0xFFFFF v
    let s1 := s.setTarget q j c.toNat
    if c != v then s1.raise (A.bdSts q j) F.bdSts.parkClamp 1 else s1

/-- PARK_SETTLE_END (R187): 50 update instants after SWITCH; the first RAMP_UP step follows in the same instant. -/
def execParkSettleEnd (q : Quad) (j : BiasCh) (s : State) : Res :=
  let x := s.bias q j
  match x.mark with
  | some (n, u) =>
    onlyIf (x.phase == 3 && x.settle == 0 && n == s.tm.now && s.blkUp q) s
      (((s.parkTarget q j).modBias q j fun x => { x with phase := 4 }).parkUp q j u)
  | none => done s

/-! ## The update instant (R170) -/

/-- The compliance monitor samples (R182). The rule gives LIM = 1 to 200 on a voltage span and refuses only 0: a larger value acts as it
stands (DESIGN CHOICE, log entry 218). -/
def State.monitor (s : State) (q j : Nat) (mon : BitVec 16) : State :=
  let s1 := s.setReg (A.bdMon q j) (mon.zeroExtend 32)
  let c := s.reg (A.bdComp q j)
  let lim := if (spanOf (s.bias q j).span).2.2 then min 120 (getF c F.bdComp.lim) else getF c F.bdComp.lim
  let above := getF c F.bdComp.en == 1 && decide (lim * 100 < mon.toInt.natAbs)
  s1.modBias q j fun x =>
    let n := if above then x.exceed + 1 else 0
    let trip := above && decide (getF c F.bdComp.filt ≤ n) && !x.tripped
    { x with exceed := n, trip := trip, tripped := above && (x.tripped || trip) }

/-- BIAS_CLR_n, or a shutdown, acts on the channel: from the update instant after its beginning on (R184, R440). -/
def State.clrActs (s : State) (q j : Nat) : Bool := s.clrOn q && (s.bias q j).clearDue.isNone

/-- The generator sets the target at a generator instant (R180); a step under a compliance hold is discarded and
counted (R182). -/
def State.genStep (s : State) (q j u : Nat) : State :=
  let gd := s.fld (A.bdGenCtl q j) F.bdGenCtl.genDiv
  if s.genOn q j && s.limiterAt q j u && u / 2500 % (gd + 1) == 0 && !s.clrActs q j then
    if (s.bias q j).hold then
      (s.raise (A.bqSts (biasTile q j) (j % 16)) F.bqSts.lost 1).bump (A.bqLostCnt (biasTile q j) (j % 16))
    else
      let x := genNext (s.fld (A.bdGenCtl q j) F.bdGenCtl.shape) (s.reg (A.bdGenLow q j)).toNat
        (s.reg (A.bdGenHigh q j)).toNat (s.reg (A.bdGenStep q j)).toNat (s.bias q j)
      (s.setBias q j { x with clear := 0 }).setTarget q j x.pos
  else s

/-- A park begins at the first instant at which a changed SPAN is on the bias die (R187). -/
def State.parkStart (s : State) (q j : Nat) : State :=
  let x := s.bias q j
  if x.phase == 0 && s.fld (A.bdCfg q j) F.bdCfg.span != x.span && !s.clrActs q j && s.blkUp q then
    s.setBias q j { x with phase := 1, from0 := x.code, span0 := x.span, clear := 0 }
  else s

/-- Entries, generator and limiter of an output that is not in a park. With the link lost only a clear ramp goes on (R184, R186): an
entry on the bias die whose instant falls within the loss stays there and applies at the first instant after retraining, which the spec
does not say (DESIGN CHOICE, log entry 219). -/
def State.stepFree (s : State) (q j u : Nat) : State :=
  let ramp := (s.bias q j).clear != 0
  if !s.blkUp q then
    if ramp then s.setCode q j (s.slewFrom q j u (s.bias q j).code (s.bdTarget q j) true false) else s
  else
    let s1 := s.takeDue q j u
    let s2 := s1.genStep q j u
    s2.setCode q j (s2.slewFrom q j u (s2.bias q j).code (s2.bdTarget q j) ((s2.bias q j).clear != 0) false)

/-- An entry on its way that has no instant yet: a timed one, handed over before a change of DT, has that of the first marker after it
(R171). -/
def BiasEntry.meet (u : Nat) (e : BiasEntry) : BiasEntry := if e.u.isNone && !e.host then { e with u := some u } else e

/-- The update marker of channel `j` at DT `u`. -/
def State.updateInstant (s : State) (q j u : Nat) (mon : BitVec 16) : State :=
  let x := s.bias q j
  let s1 := s.setBias q j { x with mark := some (s.tm.now, u), prev := x.code, applied := false, on := true,
                                   flight := x.flight.map (BiasEntry.meet u) }
  let s2 := (s1.applyWrites q j).monitor q j mon
  let due := match (s2.bias q j).clearDue with | some n => decide (n < s.tm.now) | none => false
  let s3 := if due then s2.toClear q j 1 else s2
  let s4 := s3.parkStart q j
  if (s4.bias q j).phase = 0 then
    (s4.modBias q j fun x => { x with markParked := false }).stepFree q j u
  else
    let s5 := (s4.modBias q j fun x => { x with markParked := true }).holdDue q j u
    if s5.blkUp q then s5.parkStep q j u else s5

/-- BIAS_UPDATE_INSTANT (R170, R171): the tick's DT, which counts, is a multiple of 2,500. -/
def execBiasUpdateInstant (q : Quad) (j : BiasCh) (mon : BitVec 16) (s : State) : Res :=
  let x := s.bias q j
  let seen := match x.mark with | some (n, _) => n == s.tm.now | none => false
  onlyIf (s.on A.dtSts F.dtSts.running && s.DT % 2500 == 0 && x.cfgd && !seen) s (s.updateInstant q j s.DT mon)

/-- COMPLIANCE_TRIP (R182, R190). -/
def execComplianceTrip (q : Quad) (j : BiasCh) (s : State) : Res :=
  let x := s.bias q j
  let s1 := ((s.setBias q j { x with trip := false }).raise (A.bdSts q j) F.bdSts.compTrip 1).fire
    (tileSrc (biasTile q j) 12)
  onlyIf x.trip s
    (match s.fld (A.bdComp q j) F.bdComp.action with
     | 1 =>
       if s.clrOn q then s1
       else
         let s2 := (s1.genStop q j).modBias q j fun x => { x with hold := true }
         if x.phase = 0 then s2.setTarget q j x.code else s2
     | 2 =>
       if s.clrOn q then s1 else (s1.toClear q j 2).modBias q j fun x => { x with hold := true }
     | _ => s1)

/-! ## BIAS_CLR_n (R184) -/

/-- Applies `f` to the bias channels of a quadrant. -/
def State.eachBias (s : State) (_q : Nat) (f : State → Nat → State) : State := (List.range 128).foldl f s

/-- The plots with an enabled tile in quadrant `q`. -/
def State.plotsOf (s : State) (q : Nat) : List Nat :=
  (List.range 8).filter fun p => (List.range 8).any fun i => s.inPlot p (8 * q + i)

/-- An instant at which the glitch filter samples the pin (R184): an update instant; before DT counts, with the core die in reset, the
1 µs of the filter is judged on real time. -/
def State.clrInstant (s : State) : Bool := !s.on A.dtSts F.dtSts.running || s.DT % 2500 == 0

/-- The pin of quadrant `q` was at the level at the sampling instant before this one (R184). Instants lie 2,500 ticks apart, and up to
4,999 across a change of DT (R171). -/
def State.clrBefore (s : State) (q : Nat) (low : Bool) : Bool :=
  match KMap.get none s.clrSamp q with
  | some (n, l) => l == low && decide (n < s.tm.now) && decide (s.tm.now ≤ n + 4999) &&
      (s.on A.dtSts F.dtSts.running || decide (n + 2500 ≤ s.tm.now))
  | none => false

/-- The pin of quadrant `q` is sampled. -/
def State.clrSample (s : State) (q : Nat) (low : Bool) : State :=
  { s with clrSamp := KMap.set none s.clrSamp q (some (s.tm.now, low)) }

/-- The filtered assertion of the pin of quadrant `q` (R184): the ramps begin at the next update instant. The pin acts on the bias die
while the core die is in reset, where no counter, event or shot is there to see it. -/
def State.clrAssert (s : State) (q : Nat) : State :=
  let s1 := (s.setFld (A.bqdSts q) F.bqdSts.clrPin 1).raise (A.bqdSts q) F.bqdSts.clrSeen 1
  let s2 := s1.eachBias q fun s j => s.modBias q j fun x => { x with clearDue := if x.cfgd then some s.tm.now else none }
  if s.live then (s.plotsOf q).foldl (fun s p => s.flagNow p Flag.taint) ((s2.bump (A.bqdClrCnt q)).fire (1320 + q)) else s2

/-- BIAS_CLR_ASSERT (R184): the pin is low at a sampling instant. -/
def execBiasClrAssert (q : Quad) (s : State) : Res :=
  let s1 := s.clrSample q true
  onlyIf s.clrInstant s (if !s.clrPin q && s.clrBefore q true then s1.clrAssert q else s1)

/-- BIAS_CLR_RELEASE (R184): the pin is high at a sampling instant. -/
def execBiasClrRelease (q : Quad) (s : State) : Res :=
  let s1 := s.clrSample q false
  onlyIf s.clrInstant s (if s.clrPin q && s.clrBefore q false then s1.setFld (A.bqdSts q) F.bqdSts.clrPin 0 else s1)

/-! ## The bias link (R22, R186) -/

/-- The entries on their way are discarded (R172). -/
def State.loseFlight (s : State) (t b : Nat) : List BiasEntry → State
  | [] => s
  | e :: es => ((s.biasLost t b e.shot).biasSettled e.shot).loseFlight t b es

/-- BD_STS.STATE (R185–R189, R182). -/
def State.biasState (s : State) (q j : Nat) : Nat :=
  let x := s.bias q j
  if !x.on then 0
  else if !s.blkUp q then 4
  else if x.phase != 0 then 3
  else if x.clear = 1 && (!x.hold || s.clrPin q || s.shutAt.isSome || x.code != s.bdTarget q j) then 1
  else if x.clear = 2 && x.code != s.bdTarget q j then 1
  else if x.hold then 5
  else 2

/-- BD_STS as read. -/
def State.bdStsView (s : State) (q j : Nat) : Word :=
  let w := s.reg (A.bdSts q j)
  putF (putF (putF w F.bdSts.genRun (b2n (s.genOn q j))) F.bdSts.parkPhase (s.bias q j).phase) F.bdSts.state
    (s.biasState q j)

/-- A register of a bias channel as read: during the loss of the link, the value last received (R186). -/
def State.bdView (s : State) (q j off : Nat) : Word :=
  let live := if off = 0x0C then BitVec.ofNat 32 (s.biasOut q j)
    else if off = 0x14 then s.bdStsView q j
    else s.reg (A.bdCfg q j + off)
  if s.blkUp q || (s.bias q j).shadow == [] then live
  else
    let w := (s.bias q j).shadow.getD (off / 4) 0
    if off = 0x14 then putF w F.bdSts.state (s.biasState q j) else w

/-- What the loss of the link does to channel `j`: the DAC code holds, so a code that has not latched yet does not, except in a
ramp to the clear state (R184), and the zero code of a span that has switched (R187) does; the generator stops with GEN_LOST, entries on their way are discarded, register writes on their way are held, and reads return the values last received. -/
def State.biasChLost (s : State) (q j : Nat) : State :=
  let x := s.bias q j
  let s1 := if s.genOn q j then (s.genStop q j).raise (A.bdSts q j) F.bdSts.genLost 1 else s
  let s2 := x.writes.foldl (fun s w => s.holdWrite q (.bd j w.1 w.2.1)) s1
  let s3 := s2.loseFlight (biasTile q j) (j % 16) x.flight
  if x.on || x.flight != [] || x.writes != [] then
    let code := if x.clear = 0 && x.phase != 3 then s.biasOut q j else x.code
    s3.modBias q j fun x => { x with flight := [], writes := [], code := code,
                                     shadow := (List.range 13).map fun i => s1.bdView q j (4 * i) }
  else s3

/-- The bias link of quadrant `q` is lost (R22, R186, R421). -/
def State.biasLinkLost (s : State) (q : Nat) : State :=
  let s1 := s.eachBias q fun s j => s.biasChLost q j
  let up := s1.fld A.glbBridgeSts F.glbBridgeSts.blkUp
  (((s1.setFld A.glbBridgeSts F.glbBridgeSts.blkUp (up - (up &&& 2 ^ q))).raise A.glbBridgeSts
    F.glbBridgeSts.blkDown (2 ^ q)).raise (A.hkSts q) F.hkSts.linkLost 1).fire (1284 + q)

/-- A word takes effect in the fields of a register as a write does (R10, R11). -/
def State.merge (s : State) (r : RegSpec) (a : Nat) (w : Word) : State :=
  s.setReg a (mergeWord r.fields false (s.reg a) (s.tied r.fields a w))

/-- A held write is delivered. -/
def State.deliver (s : State) (q : Nat) : HeldWrite → State
  | .bd j off w => if bdStaged off then s.stageBd q j off w
      else match findReg (A.bdCfg q j + off) with
        | some (r, _) => s.merge r (A.bdCfg q j + off) w
        | none => s
  | .bq t b code => s.handHost t b code
  | .quad a w => match findReg a with
    | some (r, _) => s.merge r a w
    | none => s

/-- The link of quadrant `q` retrains: the held writes are delivered in order (R186). -/
def State.biasLinkUp (s : State) (q : Nat) : State :=
  let held := KMap.get [] s.heldWrites q
  let s1 := s.setFld A.glbBridgeSts F.glbBridgeSts.blkUp (s.fld A.glbBridgeSts F.glbBridgeSts.blkUp ||| 2 ^ q)
  let s2 := s1.eachBias q fun s j => s.modBias q j fun x => { x with shadow := [] }
  held.foldl (fun s h => s.deliver q h) { s2 with heldWrites := KMap.set [] s2.heldWrites q [] }

/-- BIAS_FRAME_CRC_FAIL (R22, R172, R191): a frame on the link is repeated; after three failed repeats in a row the link is lost. A
register write that is on the bias die crosses no more. -/
def execBiasFrameCrcFail (q : Quad) (f : BiasFrame) (s : State) : Res :=
  match f with
  | .entry j n =>
    match pick n (s.bias q j).flight with
    | some (b, e, a) => onlyIf (s.blkUp q) s
        (if e.repeats < 3 then
           s.modBias q j fun x => { x with flight := b ++ { e with repeats := e.repeats + 1 } :: a }
         else s.biasLinkLost q)
    | none => done s
  | .write j n =>
    match pick n (s.bias q j).writes with
    | some (b, (off, w, due, k), a) => onlyIf (s.blkUp q && decide (s.tm.now < due)) s
        (if k < 3 then s.modBias q j fun x => { x with writes := b ++ (off, w, due + 80, k + 1) :: a }
         else s.biasLinkLost q)
    | none => done s
  | .other failed => onlyIf (s.blkUp q && failed == 3) s (s.biasLinkLost q)

/-! ## DT changes and configuration (R171, R185) -/

/-- DT changes while no shot runs: entries handed over before it apply at the first marker after it (R171). -/
def State.carryBias (s : State) : State :=
  { s with biases := s.biases.map fun e => (e.1, { e.2 with
      flight := e.2.flight.map fun x => { x with u := none }
      queue := e.2.queue.map fun x => { x with u := 0 }
      mark := match e.2.mark with | some (n, _) => some (n, 0) | none => none }) }

/-- DT changes by a load or an alignment step (R46): what runs on it keeps its time. -/
def State.setDT (s : State) (v : BitVec 64) : State :=
  let old := s.DT
  let s1 : State := { s with tm := { s.tm with dt := v } }
  let s2 : State := { s1 with marks := s.marks.map fun e => (e.1, { e.2 with
      pulseEnd := e.2.pulseEnd.map fun x => x + v.toNat - old }) }
  if v.toNat = old then s else s2.carryBias

/-- Configuration loads the DAC of channel `j` with the clear state (R185). -/
def State.configBias (s : State) (q j : Nat) : State :=
  let c := s.clearCode q j
  ((s.setTarget q j c).setReg (A.bdOut q j) (BitVec.ofNat 32 c)).modBias q j fun x =>
    { x with cfgd := true, span := s.fld (A.bdCfg q j) F.bdCfg.span, code := c, prev := c }

/-- The output stages of a quadrant return to high impedance, and all it holds is lost (R185, R466). -/
def State.biasOff (s : State) (q : Nat) : State :=
  s.eachBias q fun s j => s.setBias q j {}

end Sys2Proof.Machine
end

