-- ==== Sys2Proof/Machine/Housekeeping.lean ====
section
/-! DEFINITION. The housekeeping converters and the sensor front ends of the bias dies (R413–R427). -/

namespace Sys2Proof.Machine

/-- The housekeeping converter of quadrant `q`. -/
def State.hk (s : State) (q : Nat) : HkX := KMap.get {} s.hks q

/-- Writes the converter of quadrant `q`. -/
def State.setHk (s : State) (q : Nat) (x : HkX) : State := { s with hks := KMap.set {} s.hks q x }

/-- Sensor channel `k` of quadrant `q`. -/
def State.sn (s : State) (q k : Nat) : SnX := KMap.get {} s.sns (8 * q + k)

/-- Writes a sensor channel. -/
def State.setSn (s : State) (q k : Nat) (x : SnX) : State := { s with sns := KMap.set {} s.sns (8 * q + k) x }

/-- Sets a field of HK_STS. -/
def State.hkFlag (s : State) (q : Nat) (f : Fld) (v : Nat) : State := (s.setFld (A.hkSts q) f v).note (A.hkSts q) f v

/-- A sequence is running. -/
def State.hkBusy (s : State) (q : Nat) : Bool := s.on (A.hkSts q) F.hkSts.busy

/-- The input of an entry. -/
def hkIn (entry : Word) : Nat := getF entry F.hkSeq.input

/-- A reserved input (R414). -/
def hkReserved (i : Nat) : Bool := i == 38 || i == 39 || decide (44 ≤ i)

/-- Ticks of settling, and of the integrations of an entry (R413). -/
def settleTicks (entry : Word) : Nat := getF entry F.hkSeq.settle * 25000
def State.hkLen (s : State) (q : Nat) (entry : Word) : Nat :=
  let one := if getF entry F.hkSeq.fast = 1 then 250000
    else getF entry F.hkSeq.nplc * (if s.on (A.hkCfg q) F.hkCfg.mains then 41666667 else 50000000)
  if getF entry F.hkSeq.az = 1 ∨ (32 ≤ hkIn entry ∧ hkIn entry ≤ 34) then 2 * one else one

/-- The settling time of the selected reference (R416). -/
def State.refSettle (s : State) (q : Nat) : Nat :=
  match s.fld (A.hkCfg q) F.hkCfg.ref with
  | 0 => 20 * msTicks
  | 1 => msTicks
  | _ => 100 * usTicks

/-! ## Results (R415, R419–R422) -/

/-- Full scale of an input in nV or pA, for a reference of 2.5 V (R414). -/
def hkFs (inp : Nat) : Nat :=
  if inp < 16 then 25000000000
  else if inp < 24 then 12500000000
  else if inp < 26 then 20000000000
  else if inp = 26 then 6250000000
  else if inp = 31 then 5000000000
  else 2500000000

/-- The feedback resistance of a sensor channel in mΩ (R423). -/
def rfOhms (cfg : Word) : Nat := 1000000 * 10 ^ getF cfg F.snCfg.rf

/-- The code of a measurement, before clamping (R414, R415, R423): a sensor's is the ratio of R_F to its resistance, a temperature is in
2⁻¹⁴ °C, another stands against the full scale, which the external and the ratiometric reference scale. A tie of the rounding goes away from
zero (DESIGN CHOICE, log entry 233). -/
def State.hkCode (s : State) (q : Nat) (entry : Word) (v : HkSample) : Int :=
  let inp := if hkIn entry = 31 ∧ q ≠ 0 then 37 else hkIn entry
  let vref := if s.fld (A.hkCfg q) F.hkCfg.ref = 0 then 2500000000 else v.vref
  if inp < 8 then
    (if v.x ≤ 0 then 2 ^ 23 else roundDiv ((2 ^ 23 * rfOhms (KMap.get {} s.sns (8 * q + inp)).cfg : Nat) : Int) v.x.toNat)
  else if 32 ≤ inp ∧ inp ≤ 34 then roundDiv (2 ^ 14 * v.x) 1000000
  else roundDiv (2 ^ 23 * v.x * 2500000000) (hkFs inp * vref)

/-- A result reaches its registers on the core die, with its limit check. `fl`: OPEN 8, OVR 4, DENIED 1. -/
def State.hkStore (s : State) (q : Nat) (r : Nat × Word × Int × Nat × Nat) : State :=
  let e := r.1
  let code := r.2.2.1
  let fl := r.2.2.2.1
  let inp := if hkIn r.2.1 = 31 ∧ q ≠ 0 then 37 else hkIn r.2.1
  let base := 2 ^ 31 + fl * 2 ^ 27 + s.fld (A.hkPassCnt q) ⟨7, 0⟩ * 2 ^ 8 + inp
  if e < 64 then
    let lim := getF r.2.1 F.hkSeq.limEn = 1 && fl % 2 == 0 &&
      (decide (4 ≤ fl) || decide (code < sext 24 (s.reg (A.hkLimLo q e)).toNat) ||
        decide (sext 24 (s.reg (A.hkLimHi q e)).toNat < code))
    let s1 := ((s.setReg (A.hkRes q e) (toW code)).setReg (A.hkResFlg q e)
      (BitVec.ofNat 32 (base + b2n lim * 2 ^ 28))).arrived (A.hkRes q e)
    if lim then
      let a := if e < 32 then A.hkLimStsLo q else A.hkLimStsHi q
      (s1.raiseReg a (BitVec.ofNat 32 (2 ^ (e % 32)))).fireG (1416 + q) r.2.2.2.2
    else s1
  else ((s.setReg (A.hkUrgRes q) (toW code)).setReg (A.hkUrgFlg q) (BitVec.ofNat 32 base)).arrived (A.hkUrgRes q)

/-- A result: while the bias link is lost, and until what it held is delivered, the bias die keeps the newest of each entry (R421). Those
of the thermal slot go to the thermal model; a reading that does not cross the link is missing (R437). -/
def State.hkResult (s : State) (q : Nat) (c : HkConv) (code : Int) (fl : Nat) : State :=
  if c.kind = 1 then
    (if s.blkUp q then s.setHk q { s.hk q with diodes := (s.hk q).diodes ++ [(hkIn c.entry, code)] } else s)
  else
    let r := (if c.kind = 2 then 64 else c.e, c.entry, code, fl, (s.hk q).gen)
    if s.blkUp q && (s.hk q).heldRes.isEmpty then s.hkStore q r
    else s.setHk q { s.hk q with heldRes := (s.hk q).heldRes.filter (fun x => x.1 != r.1) ++ [r] }

/-! ## Sensor front ends (R423–R427) -/

/-- An open circuit is recorded (R424), found by an action that fires with generation `gen` (R403). -/
def State.snOpen (s : State) (q k gen : Nat) : State :=
  ((s.raise (A.snSts q k) F.snSts.openF 1).bump (A.snOpenCnt q k)).fireG (1420 + 8 * q + k) gen

/-- The check of a channel begins (R425). -/
def State.snBegin (s : State) (q k : Nat) : State :=
  (s.setSn q k { s.sn q k with chk := 2, at_ := s.tm.now }).setFld (A.snSts q k) F.snSts.checking 1

/-- The front end of channel `k` is in use: until configuration no pair is driven (R427). -/
def State.snOn (s : State) (q k : Nat) : Bool :=
  getF (s.sn q k).cfg F.snCfg.en == 1 && s.fld A.glbSts F.glbSts.bootStage == 3

/-- Checks are running or due. -/
def State.snRunning (s : State) (q : Nat) : Bool := (List.range 8).any fun k => (s.sn q k).chk != 0

/-- The checks of quadrant `q` are done once none is running or due (R425). -/
def State.snChecked (s : State) (q : Nat) : State := if s.snRunning q then s else s.fireG (1452 + q) (s.hk q).chkGen

/-- The channel's conversion or check has ended: a written SN_CFG takes effect, and a check that is due begins (R426); a channel that is no
longer in use takes none (R427). -/
def State.snFree (s : State) (q k : Nat) : State :=
  let x := { s.sn q k with cfg := s.reg (A.snCfg q k) }
  let s1 := s.setSn q k x
  if x.chk = 1 then (if s1.snOn q k then s1.snBegin q k else (s1.setSn q k { x with chk := 0 }).snChecked q) else s1

/-- The converter converts channel `k`. -/
def State.converting (s : State) (q k : Nat) : Bool :=
  match (s.hk q).conv with
  | some c => hkIn c.entry == k && (c.phase == 2 || c.phase == 3 || c.phase == 4)
  | none => false

/-- SN_STS as read (R423): the excitation is applied from the settle phase to the end of integration, or throughout, but
for checks. -/
def State.snStsView (s : State) (q k : Nat) : Word :=
  let exc := s.snOn q k && s.live && (s.sn q k).chk != 2 &&
    (getF (s.sn q k).cfg F.snCfg.excCont == 1 || s.converting q k)
  putF (s.reg (A.snSts q k)) F.snSts.excited (b2n exc)

/-! ## The converter (R413, R417, R418) -/

/-- STATE and ENTRY follow the conversion. -/
def State.hkShow (s : State) (q : Nat) : State :=
  match (s.hk q).conv with
  | none => s.hkFlag q F.hkSts.state 0
  | some c =>
    let st := if c.phase = 1 ∨ c.phase = 6 then c.phase else if c.kind = 0 then c.phase else 5
    let s1 := s.hkFlag q F.hkSts.state st
    if c.kind = 0 then s1.hkFlag q F.hkSts.entry c.e else s1

/-- The phase after the settle phase: the excitation check of a sensor input, or integration. -/
def afterSettle (entry : Word) : Nat := if hkIn entry < 8 then 3 else 4

/-- A conversion begins, or waits for the reference or for the end of a check (R413, R416, R426). -/
def State.hkStart (s : State) (q : Nat) (c : HkConv) : State :=
  let ph := if !s.on (A.hkSts q) F.hkSts.refReady then 1
    else if hkIn c.entry < 8 ∧ (s.sn q (hkIn c.entry)).chk = 2 then 6
    else if settleTicks c.entry = 0 then afterSettle c.entry
    else 2
  s.setHk q { s.hk q with conv := some { c with phase := ph, at_ := s.tm.now } }

/-- What an entry gives at once: DENIED under enforcement (R422), OPEN for a front end that is not in use (R427). -/
def State.hkAtOnce (s : State) (q : Nat) (entry : Word) : Option Nat :=
  let i := hkIn entry
  if 8 ≤ i ∧ i < 24 then
    (if s.enforce && (s.plotOf (8 * q + (i - 8) % 8)).isSome then some 1 else none)
  else if i < 8 then (if s.snOn q i then none else some 8)
  else none

/-- A conversion has ended. -/
def State.hkEnded (s : State) (q : Nat) (c : HkConv) : State :=
  let s1 := if c.kind = 2 then
      ((s.hkFlag q F.hkSts.urgBusy 0).hkFlag q F.hkSts.urgDone 1).fireG (1412 + q) (s.hk q).urgGen
    else s
  let x := s1.hk q
  s1.setHk q { x with conv := none, idx := if c.kind = 0 then x.idx + 1 else x.idx }

/-- A pass ends (R417). -/
def State.hkPassEnd (s : State) (q : Nat) : State :=
  let s1 := ((s.hkFlag q F.hkSts.done 1).bump (A.hkPassCnt q)).fireG (1408 + q) (s.hk q).gen
  if s.on (A.hkCtl q) F.hkCtl.cont then s1.setHk q { s1.hk q with gap := some s.tm.now }
  else s1.hkFlag q F.hkSts.busy 0

/-- The conversion that is due: the thermal slot, the host slot, then the sequence (R418), which pauses during a restart of
Henone (R323). -/
def State.hkDue (s : State) (q : Nat) : Option HkConv :=
  let x := s.hk q
  match x.therm with
  | i :: _ => some { kind := 1, entry := BitVec.ofNat 32 (2 ^ 29 + 2 ^ 14 + i), phase := 0, at_ := 0 }
  | [] =>
    if x.urg then some { kind := 2, entry := x.urgEntry, phase := 0, at_ := 0 }
    else if s.hkBusy q && x.gap.isNone && s.henServes && decide (x.idx < s.fld (A.hkCtl q) F.hkCtl.len) then
      some { kind := 0, entry := s.reg (A.hkSeq q x.idx), e := x.idx, phase := 0, at_ := 0 }
    else none

/-- The converter, free, takes what is due. -/
def State.hkNext (s : State) (q : Nat) : Nat → State
  | 0 => s
  | n + 1 =>
    let x := s.hk q
    if x.conv.isSome then s
    else
      match s.hkDue q with
      | some c =>
        let s1 := s.setHk q { x with therm := if c.kind = 1 then x.therm.drop 1 else x.therm,
                                     urg := if c.kind = 2 then false else x.urg }
        match s.hkAtOnce q c.entry with
        | some fl => ((s1.hkResult q c 0 fl).hkEnded q c).hkNext q n
        | none => s1.hkStart q c
      | none =>
        if s.hkBusy q && x.gap.isNone && decide (s.fld (A.hkCtl q) F.hkCtl.len ≤ x.idx) then s.hkPassEnd q else s

/-- The converter goes on: at most 64 entries, the two slots and the pass end follow at once. -/
def State.hkGo (s : State) (q : Nat) : State := (s.hkNext q 70).hkShow q

/-- A conversion that waits for the reference or for the end of a check goes on: what its entry gives at once is asked anew (R416, R422,
R426, R427). -/
def State.hkResume (s : State) (q : Nat) (c : HkConv) : State :=
  match s.hkAtOnce q c.entry with
  | some fl => (((s.setHk q { s.hk q with conv := none }).hkResult q c 0 fl).hkEnded q c).hkGo q
  | none => (s.hkStart q c).hkShow q

/-- The conversion in progress is discarded and counted; one that waits has not begun, and its channel is not free of it (R417, R418,
R426). -/
def State.hkDiscard (s : State) (q : Nat) (c : HkConv) : State :=
  let waits := c.phase == 1 || c.phase == 6
  let s1 := s.setHk q { s.hk q with conv := none }
  if waits then s1
  else
    let s2 := s1.bump (A.hkAbortCnt q)
    if hkIn c.entry < 8 then s2.snFree q (hkIn c.entry) else s2

/-- A conversion of the sequence gives way to an urgent one (R418). -/
def State.hkPreempt (s : State) (q : Nat) : State :=
  match (s.hk q).conv with
  | some c => if c.kind = 0 then (s.hkDiscard q c).hkGo q else s
  | none => s.hkGo q

/-- The thermal model fills the thermal slot (R437). -/
def State.hkThermal (s : State) (q : Nat) : State := (s.setHk q { s.hk q with therm := [32, 33], diodes := [] }).hkPreempt q

/-- A request that is ignored (R417, R418). -/
def State.hkMiss (s : State) (q : Nat) (f : Fld) (gen : Nat) : State :=
  ((s.hkFlag q f 1).bump (A.hkMissCnt q)).fireG (1416 + q) gen

/-- GO, or the HK_START task (R417). -/
def State.hkBegin (s : State) (q gen : Nat) : State :=
  if s.hkBusy q then s.hkMiss q F.hkSts.hkGoMissed gen
  else if s.fld (A.hkCtl q) F.hkCtl.len = 0 then (s.hkFlag q F.hkSts.done 1).fireG (1408 + q) gen
  else ((s.hkFlag q F.hkSts.busy 1).setHk q { s.hk q with idx := 0, gap := none, gen := gen }).hkGo q

/-- STOP (R417). -/
def State.hkStop (s : State) (q : Nat) : State :=
  if !s.hkBusy q then s
  else
    let s1 := ((s.hkFlag q F.hkSts.busy 0).hkFlag q F.hkSts.stopped 1).setHk q { s.hk q with gap := none }
    match (s.hk q).conv with
    | some c => if c.kind = 0 then (s1.hkDiscard q c).hkGo q else s1
    | none => s1.hkGo q

/-- URG_GO, or the HK_URGENT task (R418). -/
def State.hkUrgent (s : State) (q gen : Nat) : State :=
  if s.on (A.hkSts q) F.hkSts.urgBusy then s.hkMiss q F.hkSts.urgMissed gen
  else
    ((s.hkFlag q F.hkSts.urgBusy 1).setHk q { s.hk q with urg := true, urgEntry := s.reg (A.hkUrgCfg q),
                                                          urgGen := gen }).hkPreempt q

/-- The checks of quadrant `q` (R425): each front end in use; done at once where there is none. -/
def State.snChecks (s : State) (q gen : Nat) : State :=
  let ks := (List.range 8).filter (s.snOn q)
  let s1 := s.setHk q { s.hk q with chkGen := gen }
  if ks = [] then s1.fireG (1452 + q) gen
  else ks.foldl (fun s k => if s.converting q k then s.setSn q k { s.sn q k with chk := 1 } else s.snBegin q k) s1

/-- GO of the checks, or the SENS_CHECK task (R425, R426). -/
def State.snGo (s : State) (q gen : Nat) : State :=
  if s.snRunning q then s.raise (A.snChkCtl q) F.snChkCtl.missed 1 else s.snChecks q gen

/-! ## Register writes -/

/-- A write of HK_CTL: LEN and CONT only while BUSY = 0. -/
def State.writeHkCtl (s : State) (src : Req) (q : Nat) (w : Word) : WRes :=
  let a := A.hkCtl q
  let old := s.reg a
  let busy := s.hkBusy q
  let w1 := if busy then putF (putF w F.hkCtl.len (getF old F.hkCtl.len)) F.hkCtl.cont (getF old F.hkCtl.cont) else w
  let r := s.write src spec_hkCtl a w1 (if 64 < getF w F.hkCtl.len then some .accessErr else none) fun s1 =>
    let s2 := if getF w F.hkCtl.go = 1 then s1.hkBegin q 0 else s1
    let s3 := if getF w F.hkCtl.urgGo = 1 then s2.hkUrgent q 0 else s2
    if getF w F.hkCtl.stop = 1 && busy then s3.hkStop q else s3
  (r.1, if r.2.isNone && w1 != w then some .accessErr else r.2)

/-- A write of HK_CFG (R416). -/
def State.writeHkCfg (s : State) (src : Req) (q : Nat) (w : Word) : WRes :=
  let bad := s.hkBusy q || s.on (A.hkSts q) F.hkSts.urgBusy || getF w F.hkCfg.ref == 3
  s.write src spec_hkCfg (A.hkCfg q) w (if bad then some .accessErr else none) fun s1 =>
    if s1.fld (A.hkCfg q) F.hkCfg.ref = s.fld (A.hkCfg q) F.hkCfg.ref then s1
    else (s1.hkFlag q F.hkSts.refReady 0).setHk q { s1.hk q with refAt := s1.tm.now, refBad := false }

/-- A write of HK_SEQ (R414, R417, R419). -/
def State.writeHkSeq (s : State) (src : Req) (q e : Nat) (w : Word) : WRes :=
  let order := getF w F.hkSeq.limEn == 1 &&
    decide (sext 24 (s.reg (A.hkLimHi q e)).toNat < sext 24 (s.reg (A.hkLimLo q e)).toNat)
  s.write src spec_hkSeq (A.hkSeq q e) w
    (if s.hkBusy q || hkReserved (hkIn w) || order then some .accessErr else none) id

/-- A write of HK_URG_CFG (R414, R418). -/
def State.writeHkUrg (s : State) (src : Req) (q : Nat) (w : Word) : WRes :=
  s.write src spec_hkUrgCfg (A.hkUrgCfg q) w
    (if s.on (A.hkSts q) F.hkSts.urgBusy || hkReserved (hkIn w) then some .accessErr else none) id

/-- A write of SN_CFG: it takes effect at once where the channel is neither converted nor checked (R426). -/
def State.writeSnCfg (s : State) (src : Req) (q k : Nat) (w : Word) : WRes :=
  let mv := getF w F.snCfg.excMv
  let bad := decide (4 < getF w F.snCfg.rf) || decide (mv < 10) || decide (1000 < mv)
  s.write src spec_snCfg (A.snCfg q k) w (if bad then some .accessErr else none) fun s1 =>
    if s1.converting q k || (s1.sn q k).chk != 0 then s1 else s1.snFree q k

/-- A write of SN_CHK_CTL (R425): enabling the periodic checks begins a period. -/
def State.writeSnChk (s : State) (src : Req) (q : Nat) (w : Word) : WRes :=
  s.write src spec_snChkCtl (A.snChkCtl q) w (if getF w F.snChkCtl.periodS = 0 then some .accessErr else none) fun s1 =>
    let s2 := if s1.on (A.snChkCtl q) F.snChkCtl.en && !s.on (A.snChkCtl q) F.snChkCtl.en then
        s1.setHk q { s1.hk q with perAt := s1.tm.now } else s1
    if getF w F.snChkCtl.go = 1 then s2.snGo q 0 else s2

/-- The registers whose writes cross the bias link (R421). -/
def hkCrosses : Reg → Bool
  | .hkCfg | .hkCtl | .hkUrgCfg | .hkSeq | .hkLimLo | .hkLimHi | .snCfg | .snChkCtl => true
  | _ => false

/-- A write of a housekeeping or sensor register that reaches its unit. -/
def State.writeHkNow (s : State) (src : Req) (r : RegSpec) (ix : List Nat) (a : Nat) (w : Word) : WRes :=
  match r.reg, ix with
  | .hkCtl, [q] => s.writeHkCtl src q w
  | .hkCfg, [q] => s.writeHkCfg src q w
  | .hkSeq, [q, e] => s.writeHkSeq src q e w
  | .hkUrgCfg, [q] => s.writeHkUrg src q w
  | .snCfg, [q, k] => s.writeSnCfg src q k w
  | .snChkCtl, [q] => s.writeSnChk src q w
  | _, _ => s.write src r a w none id

/-- A write of a housekeeping or sensor register: held while the bias link is lost (R421). -/
def State.writeHk (s : State) (src : Req) (r : RegSpec) (ix : List Nat) (a : Nat) (w : Word) : WRes :=
  let q := ix.headD 0
  if hkCrosses r.reg && !s.blkUp q && (s.blockRefuse src a).isNone then
    (s.setHk q { s.hk q with held := (s.hk q).held ++ [.write a w] }, none)
  else s.writeHkNow src r ix a w

/-- HK_START (41–44), HK_URGENT (45–48) and SENS_CHECK (54–57) on the bias die. -/
def State.hkTaskNow (s : State) (k gen : Nat) : State :=
  if k < 45 then s.hkBegin (k - 41) gen
  else if k < 49 then s.hkUrgent (k - 45) gen
  else s.snGo (k - 54) gen

/-- Such a task, on an event of generation `gen` − 1: held while the bias link is lost (R421). -/
def State.hkTask (s : State) (k gen : Nat) : State :=
  let q := if k < 45 then k - 41 else if k < 49 then k - 45 else k - 54
  if s.blkUp q then s.hkTaskNow k gen
  else s.setHk q { s.hk q with held := (s.hk q).held ++ [.task k gen] }

/-- The bias link of quadrant `q` has retrained (R421): what was held is delivered in order, then the newest results, those among them that
the delivery has brought. -/
def State.hkDeliver (s : State) (q : Nat) : State :=
  let x := s.hk q
  let s1 := x.held.foldl (fun s h =>
    match h with
    | .write off w =>
      match findReg off with
      | some (r, ix) => State.hostWrite (s.writeHkNow .host r ix off w) off
      | none => s
    | .task k gen => s.hkTaskNow k gen) (s.setHk q { x with held := [] })
  (s1.hk q).heldRes.foldl (fun s r => s.hkStore q r) (s1.setHk q { s1.hk q with heldRes := [] })

/-- A host write of a register of quadrant `q`, given by its offset. -/
def State.hkHost (s : State) (r : RegSpec) (ix : List Nat) (a : Nat) (w : Word) : Res :=
  done (State.hostWrite (s.writeHk .host r ix a w) a)

/-- HK_GO (R417). -/
def execHkGo (q : Quad) (w : Word) (s : State) : Res :=
  s.hkHost spec_hkCtl [q.val] (A.hkCtl q) (putF w F.hkCtl.go 1)

/-- HK_STOP (R417). -/
def execHkStop (q : Quad) (w : Word) (s : State) : Res :=
  s.hkHost spec_hkCtl [q.val] (A.hkCtl q) (putF w F.hkCtl.stop 1)

/-- HK_URG_GO (R418). -/
def execHkUrgGo (q : Quad) (w : Word) (s : State) : Res :=
  s.hkHost spec_hkCtl [q.val] (A.hkCtl q) (putF w F.hkCtl.urgGo 1)

/-- HK_CFG_WRITE (R416). -/
def execHkCfgWrite (q : Quad) (w : Word) (s : State) : Res := s.hkHost spec_hkCfg [q.val] (A.hkCfg q) w

/-- SENS_CHECK_GO (R425). -/
def execSensCheckGo (q : Quad) (w : Word) (s : State) : Res :=
  s.hkHost spec_snChkCtl [q.val] (A.snChkCtl q) (putF w F.snChkCtl.go 1)

/-! ## What happens in time -/

/-- The settle phase and the excitation check end in their tick (R413). -/
def State.hkTick (s : State) (q : Nat) : State :=
  match (s.hk q).conv with
  | some c =>
    if c.phase = 2 ∧ c.at_ + settleTicks c.entry ≤ s.tm.now then
      (s.setHk q { s.hk q with conv := some { c with phase := afterSettle c.entry,
                                                     at_ := c.at_ + settleTicks c.entry } }).hkShow q
    else if c.phase = 3 ∧ c.at_ + 250000 ≤ s.tm.now then
      ((s.setHk q { s.hk q with conv := some { c with phase := 4, at_ := c.at_ + 250000 } }).setFld
        (A.snSts q (hkIn c.entry)) F.snSts.openNow 0).hkShow q
    else s
  | none => s

/-- A conversion ends with a result, and what is due follows. -/
def State.hkFinish (s : State) (q : Nat) (c : HkConv) (code : Int) (fl : Nat) : State :=
  let s1 := (s.hkResult q c code fl).hkEnded q c
  (if hkIn c.entry < 8 then s1.snFree q (hkIn c.entry) else s1).hkGo q

/-- HK_CONVERSION_DONE (R413–R415, R423). -/
def execHkConversionDone (q : Quad) (m : HkSample) (s : State) : Res :=
  match (s.hk q).conv with
  | some c =>
    let code := s.hkCode q c.entry m
    let v := clampI (-8388607) 8388607 code
    onlyIf (c.phase == 4 && decide (c.at_ + s.hkLen q c.entry ≤ s.tm.now)) s
      (s.hkFinish q c v (if v = code then 0 else 4))
  | none => done s

/-- HK_PASS_GAP_EXPIRY (R417). -/
def execHkPassGapExpiry (q : Quad) (s : State) : Res :=
  match (s.hk q).gap with
  | some g =>
    onlyIf (s.hkBusy q && decide (g + s.fld (A.hkCtl q) F.hkCtl.gapMs * msTicks ≤ s.tm.now)) s
      ((s.setHk q { s.hk q with gap := none, idx := 0 }).hkGo q)
  | none => done s

/-- HK_REF_READY (R416): a conversion that waits for the reference goes on. -/
def execHkRefReady (q : Quad) (s : State) : Res :=
  let s1 := s.hkFlag q F.hkSts.refReady 1
  onlyIf (s.live && !s.on (A.hkSts q) F.hkSts.refReady && decide ((s.hk q).refAt + s.refSettle q ≤ s.tm.now)) s
    (match (s.hk q).conv with
     | some c => if c.phase = 1 then s1.hkResume q c else s1
     | none => s1)

/-- HK_REF_FAULT (R416): the sequence and any urgent conversion are cancelled without DONE. -/
def execHkRefFault (q : Quad) (s : State) : Res :=
  let x := s.hk q
  let waits := match x.conv with | some c => c.phase == 1 | none => false
  let s1 := s.setHk q { x with conv := none, gap := none, urg := false, therm := [], refBad := true }
  let s2 := ((s1.hkFlag q F.hkSts.busy 0).hkFlag q F.hkSts.urgBusy 0).hkFlag q F.hkSts.refFault 1
  onlyIf (s.live && !s.on (A.hkSts q) F.hkSts.refReady && (waits || !x.refBad) &&
      decide (x.refAt + s.refSettle q + 10 * msTicks ≤ s.tm.now)) s
    ((s2.fireG (1416 + q) (if s.hkBusy q then x.gen else if s.on (A.hkSts q) F.hkSts.urgBusy then x.urgGen else 0)).hkShow q)

/-- SENS_OPEN_DETECT (R424): during the excitation check or integration. -/
def execSensOpenDetect (q : Quad) (s : State) : Res :=
  match (s.hk q).conv with
  | some c =>
    let gen := if c.kind = 0 then (s.hk q).gen else (s.hk q).urgGen
    onlyIf (decide (hkIn c.entry < 8) && (c.phase == 3 || c.phase == 4)) s
      (((s.setFld (A.snSts q (hkIn c.entry)) F.snSts.openNow 1).snOpen q (hkIn c.entry) gen).hkFinish q c 0 8)
  | none => done s

/-- SENS_CHECK_PERIOD (R425, R427). -/
def execSensCheckPeriod (q : Quad) (s : State) : Res :=
  let due := (s.hk q).perAt + s.fld (A.snChkCtl q) F.snChkCtl.periodS * secTicks
  let s1 := s.setHk q { s.hk q with perAt := s.tm.now }
  onlyIf (s.on (A.snChkCtl q) F.snChkCtl.en && s.fld A.glbSts F.glbSts.bootStage == 3 && decide (due ≤ s.tm.now)) s
    (if s1.snRunning q then s1 else s1.snChecks q 0)

/-- SENS_CHECK_DONE (R425, R426): after 100 ms. -/
def execSensCheckDone (q : Quad) (k : Fin 8) (ohms : Nat) (ph : BitVec 16) (s : State) : Res :=
  let x := s.sn q k
  let s1 := (s.setReg (A.snImpMag q k) (BitVec.ofNat 32 (min ohms 0xFFFFFFFF))).setReg (A.snImpPh q k)
    (BitVec.ofNat 32 ph.toNat)
  let gen := (s.hk q).chkGen
  let s2 := if 100000000 < ohms then s1.snOpen q k gen
    else if ohms < 10 then (s1.raise (A.snSts q k) F.snSts.short 1).fireG (1420 + 8 * q + k) gen else s1
  let s3 := ((s2.setSn q k { x with chk := 0 }).setFld (A.snSts q k) F.snSts.checking 0).snFree q k
  let s4 := match (s3.hk q).conv with
    | some c => if c.phase = 6 ∧ hkIn c.entry = k.val then s3.hkResume q c else s3
    | none => s3
  onlyIf (x.chk == 2 && decide (x.at_ + 100 * msTicks ≤ s.tm.now)) s
    (s4.snChecked q)

end Sys2Proof.Machine
end

