-- ==== Sys2Proof/Machine/Net.lean ====
section
/-! DEFINITION. Network time (R381–R392), the time-interval unit (R393–R399) and result export (R400). -/

namespace Sys2Proof.Machine

/-! ## The PTP clock (R384–R386) -/

/-- One nanosecond and 2⁻¹⁶ ns in clock units of 2⁻⁴⁸ · 0.4 ns, and the modulus of the clock. -/
def nsUnit : Nat := 703687441776640
def fracUnit : Nat := 10737418240
def ptpMod : Nat := 2 ^ 32 * nsUnit

/-- ±500 ppm (R384). -/
def rateLimit : Int := 140737488355

/-- PTP_NS. -/
def State.ptpNs (s : State) : Nat := s.ptp.clock / nsUnit

/-- PTP_NS_FRAC. -/
def State.ptpFrac (s : State) : Nat := s.ptp.clock % nsUnit / fracUnit

/-- d of R386 for a counter value. -/
def sinceEpoch (ns epochNs : Nat) : Nat := (ns + 2 ^ 32 - epochNs % 2 ^ 32) % 2 ^ 32

/-- Seconds and nanoseconds of a counter value under the committed epoch (R386). -/
def State.fullTime (s : State) (ns : Nat) : Nat × Nat :=
  let e := s.ptp.epoch.getD (0, 0)
  let d := sinceEpoch ns e.2
  (e.1 + d / 1000000000, d % 1000000000)

/-- The count lies 4 s or more beyond the epoch. -/
def State.epochOld (s : State) : Bool :=
  match s.ptp.epoch with
  | some e => decide (4000000000 ≤ sinceEpoch s.ptpNs e.2)
  | none => true

/-- EPOCH_STALE clears once the count lies less than 4 s beyond a committed epoch. -/
def State.freshEpoch (s : State) : State :=
  if s.epochOld then s else s.setFld A.ptpSts F.ptpSts.epochStale 0

/-- What a slew adds in one tick, before the limit of R385, and the new remainder of the division. -/
def SlewX.want (w : SlewX) : Int × Nat :=
  let tot := w.ph + w.c.natAbs
  let a := min (tot / w.n) w.left.natAbs
  (if w.c < 0 then -(a : Int) else a, tot % w.n)

/-- The PTP clock advances by one tick (R384, R385). -/
def State.ptpTick (s : State) : State :=
  let x := s.ptp
  let rate := (x.rates.filter fun r => decide (r.1 ≤ s.tm.now)).foldl (fun _ r => r.2) x.rate
  let later := x.rates.filter fun r => decide (s.tm.now < r.1)
  let want := match x.slew with | some w => w.want | none => (0, 0)
  let held := clampI (-rateLimit) rateLimit (rate + want.1)
  let next := x.clock + (281474976710656 + held).toNat
  let s1 : State := { s with ptp := { x with
    clock := next % ptpMod, prev := x.clock, rate := rate, rates := later,
    slew := x.slew.map fun w => { w with left := w.left - (held - rate), ph := want.2 },
    wrapped := x.wrapped || decide (ptpMod ≤ next) } }
  let s2 := if held != rate + want.1 then s1.raise A.ptpSts F.ptpSts.rateClamp 1 else s1
  s2.freshEpoch

/-- A write of PTP_RATE_LO (R384). -/
def State.writePtpRate (s : State) (src : Req) (w : Word) : WRes :=
  let v := sext 40 (w.toNat + 2 ^ 32 * s.fld A.ptpRateHi F.ptpRateHi.rate)
  let deny := if v < -rateLimit ∨ rateLimit < v then some Refuse.accessErr else none
  s.write src spec_ptpRateLo A.ptpRateLo w deny fun s1 =>
    { s1 with ptp := { s1.ptp with rates := s1.ptp.rates ++ [(s1.tm.now + 4, v)] } }

/-- PTP_RATE_COMMIT (R384). -/
def execPtpRateCommit (w : Word) (s : State) : Res := done (State.hostWrite (s.writePtpRate .host w) A.ptpRateLo)

/-- A write of PTP_OFFSET (R385). -/
def State.writePtpOffset (s : State) (src : Req) (w : Word) : WRes :=
  s.write src spec_ptpOffset A.ptpOffset w none fun s1 =>
    let c := sext 32 w.toNat * 65536 + s1.fld A.ptpOffsetFrac F.ptpOffsetFrac.frac
    { s1 with ptp := { s1.ptp with corrs := s1.ptp.corrs ++ [(s1.tm.now + 4, c)] } }

/-- PTP_OFFSET_SUBMIT (R385). -/
def execPtpOffsetSubmit (w : Word) (s : State) : Res := done (State.hostWrite (s.writePtpOffset .host w) A.ptpOffset)

/-- A correction of `c` · 2⁻¹⁶ ns acts: a step, a slew or a refusal (R385). -/
def State.correct (s : State) (c : Int) : State :=
  if s.on A.ptpSts F.ptpSts.stepPend then
    let s1 : State := { s with ptp := { s.ptp with clock := ((s.ptp.clock + c * fracUnit) % (ptpMod : Int)).toNat } }
    (s1.setFld A.ptpSts F.ptpSts.stepPend 0).freshEpoch
  else if c.natAbs ≤ s.fld A.ptpJumpThr F.ptpJumpThr.thr * 65536 then
    let w : SlewX := { c := c * fracUnit, n := s.fld A.ptpSlew F.ptpSlew.ms * msTicks, left := c * fracUnit }
    let s1 : State := { s with ptp := { s.ptp with slew := some w } }
    s1.setFld A.ptpSts F.ptpSts.slewing 1
  else
    (((s.raise A.ptpSts F.ptpSts.ptpJump 1).bump A.ptpJumpCnt).setReg A.ptpLastRefused (toW (c / 65536))).fire 1376

/-- PTP_CORRECTION_APPLY (R385): in the fourth tick after the write. -/
def execPtpCorrectionApply (s : State) : Res :=
  match s.ptp.corrs with
  | (at_, c) :: cs =>
    let s1 : State := { s with ptp := { s.ptp with corrs := cs } }
    onlyIf (decide (at_ ≤ s.tm.now)) s (s1.correct c)
  | [] => done s

/-- SLEW_END (R385). -/
def execSlewEnd (s : State) : Res :=
  match s.ptp.slew with
  | some w =>
    let s1 : State := { s with ptp := { s.ptp with slew := none } }
    onlyIf (w.left == 0) s (s1.setFld A.ptpSts F.ptpSts.slewing 0)
  | none => done s

/-- A write of PTP_CTL (R385). -/
def State.writePtpCtl (s : State) (src : Req) (w : Word) : WRes :=
  s.write src spec_ptpCtl A.ptpCtl w none fun s1 =>
    if getF w F.ptpCtl.rearm = 1 then s1.setFld A.ptpSts F.ptpSts.stepPend 1 else s1

/-- PTP_REARM (R385). -/
def execPtpRearm (s : State) : Res := done (State.hostWrite (s.writePtpCtl .host 0x80000000) A.ptpCtl)

/-- The 48-bit second that PTP_EPOCH_SEC names (R386). -/
def State.epochSec (s : State) : Nat :=
  (s.reg A.ptpEpochSecLo).toNat + 2 ^ 32 * s.fld A.ptpEpochSecHi F.ptpEpochSecHi.sec

/-- A write of PTP_EPOCH_NS commits the epoch (R386). -/
def State.writePtpEpoch (s : State) (src : Req) (w : Word) : WRes :=
  s.write src spec_ptpEpochNs A.ptpEpochNs w none fun s1 =>
    State.freshEpoch { s1 with ptp := { s1.ptp with epoch := some (s1.epochSec, w.toNat) } }

/-- PTP_EPOCH_COMMIT (R386). -/
def execPtpEpochCommit (w : Word) (s : State) : Res := done (State.hostWrite (s.writePtpEpoch .host w) A.ptpEpochNs)

/-- PTP_WRAP (R384). -/
def execPtpWrap (s : State) : Res :=
  let s1 : State := { s with ptp := { s.ptp with wrapped := false } }
  onlyIf s.ptp.wrapped s (s1.fire 1378)

/-- EPOCH_STALE (R386). -/
def execEpochStale (s : State) : Res :=
  onlyIf (s.ptp.epoch.isSome && s.epochOld && !s.on A.ptpSts F.ptpSts.epochStale) s
    ((s.setFld A.ptpSts F.ptpSts.epochStale 1).fire 1377)

/-- A write of another register of the PTP block: values out of range are discarded. -/
def State.writePtpReg (s : State) (src : Req) (r : RegSpec) (a : Nat) (w : Word) : WRes :=
  let bad := match r.reg with
    | .ptpJumpThr => getF w F.ptpJumpThr.thr == 0
    | .ptpSlew => getF w F.ptpSlew.ms == 0
    | .ppsOutCtl => getF w F.ppsOutCtl.width == 0 || decide (500000 < getF w F.ppsOutCtl.width)
    | .ppsPeriod => decide (w.toNat < 2500)
    | _ => false
  s.write src r a w (if bad then some .accessErr else none) id

/-! ## Cross-timestamps, PPS and PTM (R389–R392) -/

/-- DT and the PTP clock are latched in one tick (R389). -/
def State.xtsLatch (s : State) : State :=
  ((s.setPair A.xtsDtLo A.xtsDtHi s.DT).setReg A.xtsNs (BitVec.ofNat 32 s.ptpNs)).setReg A.xtsNsFrac
    (BitVec.ofNat 32 s.ptpFrac)

/-- A write of XTS_CTL. -/
def State.writeXtsCtl (s : State) (src : Req) (w : Word) : WRes :=
  s.write src spec_xtsCtl A.xtsCtl w none fun s1 => if getF w F.xtsCtl.go = 1 then s1.xtsLatch else s1

/-- XTS_GO (R389). -/
def execXtsGo (w : Word) (s : State) : Res :=
  done (State.hostWrite (s.writeXtsCtl .host (putF w F.xtsCtl.go 1)) A.xtsCtl)

/-- The tick holds a PPS_OUT edge (R390). -/
def State.ppsEdge (s : State) : Bool :=
  s.on A.ppsOutCtl F.ppsOutCtl.en && s.ptp.ppsAt != some s.tm.now &&
    if s.on A.ppsOutCtl F.ppsOutCtl.mode then
      s.on A.dtSts F.dtSts.running && s.DT % (s.reg A.ppsPeriod).toNat == 0
    else
      !s.on A.ptpSts F.ptpSts.epochStale && decide ((s.fullTime (s.ptp.prev / nsUnit)).1 < (s.fullTime s.ptpNs).1)

/-- PPS_OUT_PULSE (R390): the pulse is at the ball 32 ticks later, for its width, whatever edge follows. -/
def execPpsOutPulse (s : State) : Res :=
  let width := s.fld A.ppsOutCtl F.ppsOutCtl.width * usTicks
  let s1 : State := { s with ptp := { s.ptp with
    ppsAt := some s.tm.now
    pulses := (s.tm.now + 32, s.tm.now + 32 + width) :: s.ptp.pulses.filter fun x => decide (s.tm.now < x.2) } }
  let s2 := s1.send .pps
  onlyIf s.ppsEdge s (if s.on A.xtsCtl F.xtsCtl.autoPps then s2.xtsLatch else s2)

/-- PTM_DIALOGUE (R392). -/
def execPtmDialogue (master : BitVec 64) (s : State) : Res :=
  done ((s.setPair A.ptmDtLo A.ptmDtHi s.DT).setPair A.ptmMtLo A.ptmMtHi master.toNat)

/-! ## Stamps of the ports (R382, R383) -/

/-- Ethernet port `e`. -/
def State.eth (s : State) (e : Nat) : EthX := KMap.get {} s.eths e

/-- Writes an Ethernet port. -/
def State.setEth (s : State) (e : Nat) (x : EthX) : State := { s with eths := KMap.set {} s.eths e x }

/-- messageType of IEEE 1588. -/
def ptpCode : PtpMsg → Nat
  | .sync => 0
  | .delayReq => 1
  | .pdelayReq => 2
  | .pdelayResp => 3

/-- A board term in ps, in 2⁻¹¹ ns. -/
def asymTerm (ps : Int) : Int :=
  if ps < 0 then -(divFree (ps.natAbs * 256) 125 : Int) else (divFree (ps.natAbs * 256) 125 : Int)

/-- The stamp reported: the PTP clock at the ball instant, `sub` after the begin of the present tick, and the board term, in 2⁻¹¹ ns modulo
2³² ns. -/
def State.stampOf (s : State) (sub : Nat) (term : Int) : Nat :=
  ((((s.ptp.clock / (nsUnit / 2048) + sub : Nat) : Int) + term) % (2 ^ 43 : Int)).toNat

/-- The INFO word of a stamp. -/
def stampInfo (m : PtpMsg) (seqId : BitVec 16) (st : Nat) : Word :=
  BitVec.ofNat 32 (seqId.toNat * 2 ^ 16 + ptpCode m * 2 ^ 12 + 2 ^ 11 + st % 2048)

/-- Queues a stamp: of 33 the oldest is overwritten. -/
def queueStamp (l : List (Word × Word)) (x : Word × Word) : List (Word × Word) :=
  if l.length < 32 then l ++ [x] else l.drop 1 ++ [x]

/-- TS_OVF where a stamp queue was full. -/
def State.tsOvf (s : State) (e n : Nat) : State := if n < 32 then s else s.raise (A.ethTsSts e) F.ethTsSts.tsOvf 1

/-- The Pdelay_Req of a port without those of one identity and sequenceId. -/
def EthX.unasked (x : EthX) (port seqId : Nat) : List (Nat × Nat × Nat) := x.reqs.filter fun r => r.1 != port || r.2.1 != seqId

/-- PTP_FRAME_RX (R382): a Pdelay_Req is held until its response departs (R383). -/
def execPtpFrameRx (e : Port) (m : PtpMsg) (seqId : BitVec 16) (port : BitVec 80) (sub : Fin 820) (s : State) : Res :=
  let x := s.eth e
  let st := s.stampOf sub (-(asymTerm (sext 20 (s.fld (A.ethAsymIn e) F.ethAsymIn.ps))))
  let reqs := if m = .pdelayReq then (port.toNat, seqId.toNat, st) :: x.unasked port.toNat seqId.toNat else x.reqs
  done ((s.tsOvf e x.rx.length).setEth e { x with
    rx := queueStamp x.rx (BitVec.ofNat 32 (st / 2048), stampInfo m seqId st), reqs := reqs })

/-- What one-step operation inserts (R383): the turnaround of a response is that of the request with its port identity and sequenceId. -/
def State.oneStep (s : State) (e : Nat) (m : PtpMsg) (seqId : BitVec 16) (port st : Nat) : State :=
  if !s.on (A.ethTsCtl e) F.ethTsCtl.onestep then s
  else
    match m with
    | .sync => s.send (.oneStep e 0 seqId.toNat (s.fullTime (st / 2048)).1 (s.fullTime (st / 2048)).2)
    | .pdelayResp =>
      match (s.eth e).reqs.find? fun r => r.1 == port && r.2.1 == seqId.toNat with
      | some r => s.send (.oneStep e 3 seqId.toNat 0 ((st + 2 ^ 43 - r.2.2) % 2 ^ 43))
      | none => s
    | _ => s

/-- PTP_FRAME_TX (R382, R383): a frame that needs insertion is not sent while the epoch is stale. -/
def execPtpFrameTx (e : Port) (m : PtpMsg) (seqId : BitVec 16) (port : BitVec 80) (sub : Fin 820) (s : State) : Res :=
  let insert := s.on (A.ethTsCtl e) F.ethTsCtl.onestep && (m == .sync || m == .pdelayResp)
  if insert && s.on A.ptpSts F.ptpSts.epochStale then done (s.bump (A.ethTsStaleCnt e))
  else
    let x := s.eth e
    let st := s.stampOf sub (asymTerm (sext 20 (s.fld (A.ethAsymOut e) F.ethAsymOut.ps)))
    let s1 := ((s.tsOvf e x.tx.length).oneStep e m seqId port.toNat st)
    done (s1.setEth e { x with
      tx := queueStamp x.tx (BitVec.ofNat 32 (st / 2048), stampInfo m seqId st)
      reqs := if m = .pdelayResp then x.unasked port.toNat seqId.toNat else x.reqs })

/-- A read of ETH_RXTS_NS or ETH_TXTS_NS (R382): the oldest stamp is removed and its INFO is latched. -/
def State.readStamp (s : State) (e : Nat) (tx : Bool) : State :=
  let x := s.eth e
  let info := if tx then A.ethTxtsInfo e else A.ethRxtsInfo e
  match if tx then x.tx else x.rx with
  | (ns, i) :: rest =>
    let s1 := (s.setEth e (if tx then { x with tx := rest } else { x with rx := rest })).setReg info i
    { s1 with readData := ns }
  | [] =>
    let s1 := s.setReg info (putF (Config.absentStamp s.tm.now) F.ethRxtsInfo.valid 0)
    { s1 with readData := 0 }

/-- TS_READ (R382). -/
def execTsRead (e : Port) (tx : Bool) (s : State) : Res := done (s.readStamp e tx)

/-! ## Timed launch (R387, R388) -/

/-- Port `e`'s launch entries, with LQ_LEVEL. -/
def State.setLq (s : State) (e : Nat) (l : List (Nat × Word)) : State :=
  (s.setEth e { s.eth e with lq := l }).setFld (A.ethTsSts e) F.ethTsSts.lqLevel l.length

/-- A late entry is counted and raises the event. -/
def State.launchLate (s : State) (e : Nat) : State :=
  ((s.raise (A.ethTsSts e) F.ethTsSts.late 1).bump (A.ethLateCnt e)).fire (1380 + e)

/-- A late entry under LATE_POL (R388): EXECUTE_NOW sends its frame at once where the line is known to be free; else it waits for the
line. -/
def State.latePolicy (s : State) (e frame : Nat) (free : Bool) : State :=
  let s1 := s.launchLate e
  let pol := s.fld (A.ethLqCtl e) F.ethLqCtl.latePol
  if pol = 0 then s1.setFld (A.ethTsSts e) F.ethTsSts.halted 1
  else if pol = 2 then
    if free then s1.send (.frame e frame) else s1.setEth e { s1.eth e with late := (s1.eth e).late ++ [frame] }
  else s1

/-- `t` lies ahead of PTP_NS, or is the present count (R388). -/
def State.ahead (s : State) (t : Word) : Bool := decide ((t - BitVec.ofNat 32 s.ptpNs).toNat < 2 ^ 31)

/-- LAUNCH_PUSH (R388): late when less than 2.0 µs ahead, or past. -/
def execLaunchPush (e : Port) (frame : Nat) (t : Word) (s : State) : Res :=
  let l := (s.eth e).lq
  if s.on (A.ethTsSts e) F.ethTsSts.halted || decide (16 ≤ l.length) then done s
  else
    let left := (t - BitVec.ofNat 32 s.ptpNs).toNat * nsUnit
    if !s.ahead t || decide (left < 2000 * nsUnit + s.ptp.clock % nsUnit) then done (s.latePolicy e frame false)
    else done (s.setLq e (l ++ [(frame, t)]))

/-- The PTP_NS at which an entry's first symbol leaves the ball: its launch time less ETH_ASYM_OUT (R387). -/
def State.launchAt (s : State) (e : Nat) (t : Word) : Word :=
  BitVec.ofNat 32 ((((t.toNat * 2048 : Nat) - asymTerm (sext 20 (s.fld (A.ethAsymOut e) F.ethAsymOut.ps))) % (2 ^ 43 : Int)).toNat / 2048)

/-- The launch time of the front entry of port `e` (R387, R388). -/
def State.launchFront (s : State) (e : Nat) (busy : Bool) : State :=
  match (s.eth e).lq with
  | (frame, t) :: rest =>
    let now := decide ((s.launchAt e t).toNat = s.ptpNs)
    let s1 := s.setLq e rest
    if !now && s.ahead (s.launchAt e t) then s
    else if !s.on (A.ethTsSts e) F.ethTsSts.linkUp then s1.launchLate e
    else if busy || !now then s1.latePolicy e frame (!busy)
    else (s1.send (.frame e frame)).bump (A.ethLaunchCnt e)
  | [] => s

/-- LAUNCH (R387, R388): the launch time of the front entry has come, or the line is free for a late frame that waits; the link of which is
down, it is dropped. -/
def execLaunch (e : Port) (busy : Bool) (s : State) : Res :=
  match (s.eth e).late with
  | f :: fs =>
    let s1 := s.setEth e { s.eth e with late := fs }
    done (if busy then s.launchFront e true
      else if s.on (A.ethTsSts e) F.ethTsSts.linkUp then s1.send (.frame e f) else s1)
  | [] => done (s.launchFront e busy)

/-- A write of ETH_LQ_CTL. -/
def State.writeLqCtl (s : State) (src : Req) (e : Nat) (w : Word) : WRes :=
  s.write src spec_ethLqCtl (A.ethLqCtl e) w none fun s1 =>
    if getF w F.ethLqCtl.clrHalt = 1 then s1.setFld (A.ethTsSts e) F.ethTsSts.halted 0 else s1

/-- CLR_HALT (R388). -/
def execClrHalt (e : Port) (w : Word) (s : State) : Res :=
  done (State.hostWrite (s.writeLqCtl .host e (putF w F.ethLqCtl.clrHalt 1)) (A.ethLqCtl e))

/-- ETH_LINK_CHANGE (R388): no link comes up in a reset. -/
def execEthLinkChange (e : Port) (up : Bool) (speed : BitVec 2) (s : State) : Res :=
  onlyIf s.live s ((s.setFld (A.ethTsSts e) F.ethTsSts.linkUp (b2n up)).setFld (A.ethTsSts e) F.ethTsSts.speed
    (if up then speed.toNat else 0))

/-! ## Measurement engines (R396–R398) -/

/-- Engine `m`. -/
def State.tm' (s : State) (m : Nat) : TmX := KMap.get {} s.tms m

/-- Writes an engine. -/
def State.setTm (s : State) (m : Nat) (x : TmX) : State := { s with tms := KMap.set {} s.tms m x }

/-- Engine `m` takes results. -/
def State.tmRun (s : State) (m : Nat) : Bool := s.on (A.tmSts m) F.tmSts.running

/-- The greatest root whose square is at most `v`, by bits. -/
def isqrtGo (v : Nat) : Nat → Nat → Nat
  | 0, r => r
  | b + 1, r => isqrtGo v b (if (r + 2 ^ b) * (r + 2 ^ b) ≤ v then r + 2 ^ b else r)

/-- ⌊√v⌋ for v below 2²⁵⁶. -/
def isqrt (v : Nat) : Nat := isqrtGo v 128 0

/-- DEV in 2⁻⁸ LSB, rounded to nearest: the population deviation of `n` results (R397). -/
def devOf (n : Nat) (sum sq : Int) : Nat :=
  min ((isqrt (4 * 65536 * (n * sq - sum * sum).toNat) / n + 1) / 2) 0xFFFFFFFF

/-- One result of an engine; one outside 48 bits is an engine overflow (R396, R399). -/
def State.tmTake (s : State) (m : Nat) (x : Int) : State :=
  let t := s.tm' m
  let ovf := x < -(2 ^ 47) ∨ 2 ^ 47 ≤ x
  let x := if ovf then (Config.tiuOverflow x).toInt else x
  let s1 := s.setTm m { t with count := t.count + 1, sum := t.sum + x, sq := t.sq + x * x,
                               min := if t.count = 0 then x else min t.min x,
                               max := if t.count = 0 then x else max t.max x }
  if ovf then s1.fireG 1388 t.gen else s1

/-- A stamp of input `i` reaches engine `m`. -/
def State.tmEdge (s : State) (m i st : Nat) : State :=
  let t := s.tm' m
  if !s.tmRun m || (i != t.a && i != t.b) || (t.mode != 3 && decide (t.n ≤ t.count)) then s
  else if t.mode = 3 then
    if i != t.a then s
    else if 16777216 ≤ t.count then s.raise (A.tmSts m) F.tmSts.trunc 1
    else s.setTm m { t with count := t.count + 1, sum := t.sum + st, sumIT := t.sumIT + t.count * st }
  else if t.mode = 2 then
    if i != t.a then s
    else
      let p : Int := (st % 6400 : Nat)
      let f := t.first.getD p
      (s.setTm m { t with first := some f }).tmTake m (f + ((p - f + 3200) % 6400 - 3200))
  else if t.mode = 1 ∨ t.a = t.b then
    if i != t.a then s
    else
      let s1 := s.setTm m { t with last := some st }
      match t.last with
      | some l => s1.tmTake m ((st : Int) - l)
      | none => s1
  else if i = t.a then s.setTm m { t with last := some st }
  else match t.last with
    | some l => (s.setTm m { t with last := none }).tmTake m ((st : Int) - l)
    | none => s

/-- The statistics registers of engine `m` (R397). -/
def State.tmStats (s : State) (m : Nat) : State :=
  let t := s.tm' m
  let w64 := fun (i : Int) => (BitVec.ofInt 64 i).toNat
  let s1 := (s.setPair (A.tmMeanLo m) (A.tmMeanHi m) (w64 (roundDiv (256 * t.sum) t.count))).setReg (A.tmDev m)
    (BitVec.ofNat 32 (devOf t.count t.sum t.sq))
  ((s1.setPair (A.tmMinLo m) (A.tmMinHi m) (w64 t.min)).setPair (A.tmMaxLo m) (A.tmMaxHi m) (w64 t.max)).setReg
    (A.tmCount m) (BitVec.ofNat 32 t.count)

/-- The least-squares fit of engine `m` (R398). -/
def State.tmFit (s : State) (m : Nat) : State :=
  let t := s.tm' m
  let n := t.count
  let si := n * (n - 1) / 2
  let sii := (n - 1) * n * (2 * n - 1) / 6
  let num : Int := n * t.sumIT - si * t.sum
  let den := n * sii - si * si
  let mean := (BitVec.ofInt 64 (roundDiv (256 * num) den)).toNat
  let f := if num ≤ 0 then (Config.noFreq num).toNat else divFree (640000000000000000 * den) num.toNat
  ((s.setPair (A.tmMeanLo m) (A.tmMeanHi m) mean).setPair (A.tmFreqLo m) (A.tmFreqHi m) f).setReg (A.tmCount m)
    (BitVec.ofNat 32 n)

/-- The run of engine `m` ends with a result (R397, R398); too few results: 3h, and the statistics stay. -/
def State.tmEnd (s : State) (m result : Nat) : State :=
  let t := s.tm' m
  let few := if t.mode = 3 then t.count < 3 else t.count = 0
  let s1 := if few then s else if t.mode = 3 then s.tmFit m else s.tmStats m
  (((s1.setReg (A.tmSts m) (putF (putF (putF (s.reg (A.tmSts m)) F.tmSts.running 0) F.tmSts.done 1) F.tmSts.result
    (if few then 3 else result))).note (A.tmSts m) F.tmSts.done 1).setTm m {}).fireG (1384 + m) t.gen

/-- GO of engine `m` (R396, R397). -/
def State.tmGo (s : State) (m gen : Nat) : State :=
  let c := s.reg (A.tmCtl m)
  let mode := getF c F.tmCtl.mode
  let a := getF c F.tmCtl.srcA
  let b := getF c F.tmCtl.srcB
  let n := s.fld (A.tmN m) F.tmN.n
  if s.tmRun m then s.raise (A.tmSts m) F.tmSts.startMissed 1
  else if 3 < mode ∨ 33 < a ∨ 33 < b ∨ (mode ≠ 3 ∧ (n = 0 ∨ 16777216 < n)) then s.setFld (A.tmSts m) F.tmSts.result 4
  else
    (s.setTm m { mode := mode, a := a, b := b, n := n, gate := s.fld (A.tmGate m) F.tmGate.us,
                 timeout := (s.reg (A.tmTimeout m)).toNat, startAt := s.tm.now, gen := gen }).setFld
      (A.tmSts m) F.tmSts.running 1

/-- A write of TM_CTL: STOP acts on a run under way before the write. -/
def State.writeTmCtl (s : State) (src : Req) (m : Nat) (w : Word) : WRes :=
  s.write src spec_tmCtl (A.tmCtl m) w none fun s1 =>
    let s2 := if getF w F.tmCtl.go = 1 then s1.tmGo m 0 else s1
    if getF w F.tmCtl.stop = 1 && s.tmRun m then s2.tmEnd m 2 else s2

/-- TIU_GO (R397). -/
def execTiuGo (m : Engine) (w : Word) (s : State) : Res :=
  done (State.hostWrite (s.writeTmCtl .host m (putF w F.tmCtl.go 1)) (A.tmCtl m))

/-- TIU_STOP (R397). -/
def execTiuStop (m : Engine) (w : Word) (s : State) : Res :=
  done (State.hostWrite (s.writeTmCtl .host m (putF w F.tmCtl.stop 1)) (A.tmCtl m))

/-- TIU_ENGINE_DONE (R397). -/
def execTiuEngineDone (m : Engine) (s : State) : Res :=
  let t := s.tm' m
  onlyIf (s.tmRun m && t.mode != 3 && decide (t.n ≤ t.count)) s (s.tmEnd m 0)

/-- TIU_TIMEOUT (R397). -/
def execTiuTimeout (m : Engine) (s : State) : Res :=
  let t := s.tm' m
  onlyIf (s.tmRun m && t.timeout != 0 && decide (t.startAt + t.timeout * msTicks ≤ s.tm.now)) s (s.tmEnd m 1)

/-- TIU_GATE_END (R398). -/
def execTiuGateEnd (m : Engine) (s : State) : Res :=
  let t := s.tm' m
  onlyIf (s.tmRun m && t.mode == 3 && decide (t.startAt + t.gate * usTicks ≤ s.tm.now)) s (s.tmEnd m 0)

/-! ## Conditioned edges (R391, R393, R395, R399) -/

/-- EDGE of input `i` selects a transition to `level`. -/
def State.edgeSel (s : State) (i : Nat) (level : Bool) : Bool :=
  match s.fld (A.tiuInCfg i) F.tiuInCfg.edge with
  | 0 => level
  | 1 => !level
  | 2 => true
  | _ => false

/-- A conditioned transition of input `i` in the present tick (R391, R395). -/
def State.condEdge (s : State) (i : Nat) (ed : Edge) : State :=
  let x := s.tiu i
  let recent := x.conds.filter fun e => decide (s.tm.now ≤ e.1 + 10)
  let s1 := (s.setTiu i { x with level := ed.level, condAt := some s.tm.now, conds := (s.tm.now, ed.level) :: recent }).bump
    (A.tiuInEdgeCnt i)
  let s2 := if s.edgeSel i ed.level then
      let s3 := if i < 16 then s1.fire (1392 + i) else if i = 16 then s1.fire 1379 else s1
      (List.range 4).foldl (fun s m => s.tmEdge m i (s.DT * 256 + ed.frac.toNat)) s3
    else s1
  if i = 16 && ed.level && s.on A.dtSts F.dtSts.loadPend && s.tm.loadAt.isNone then
    { s2 with tm := { s2.tm with loadAt := some (s2.tm.now + 1) } }
  else s2

/-- Input `i` is within its hold-off (R395). -/
def State.inHold (s : State) (i : Nat) : Bool :=
  match (s.tiu i).condAt with
  | some a => decide (s.tm.now ≤ a + s.fld (A.tiuInCfg i) F.tiuInCfg.holdoff)
  | none => false

/-- A transition at the ball enters the rate measurement (R399): more than two in two consecutive ticks exceed it. -/
def State.ballRate (s : State) (i : Nat) (level : Bool) : State :=
  let x := s.tiu i
  let r := s.tm.now :: x.recent.filter fun t => decide (s.tm.now ≤ t + 1)
  let s1 := s.setTiu i { x with ball := level, recent := r.take 3 }
  if 2 < r.length then (s1.raise (A.tiuInSts i) F.tiuInSts.rateOvf 1).fire 1388 else s1

/-- A transition at input `i` passes the hold-off (R395). The inputs above 16 have no level: each edge is a transition. -/
def State.tiuIn (s : State) (i : Nat) (ed : Edge) : State :=
  let s1 := s.ballRate i ed.level
  if s.inHold i then s1.bump (A.tiuInHoldCnt i)
  else if 16 < i then s1.condEdge i { ed with level := true }
  else if ed.level != (s.tiu i).level then s1.condEdge i ed
  else s1

/-- A level at an input while the part is in reset or off: no event comes of it (R412). -/
def State.tiuQuiet (s : State) (i : Nat) (level : Bool) : State := s.setTiu i { s.tiu i with level := level, ball := level }

/-- TIU_EDGE (R393, R395): of a ball, or of the REF_IN phase. The edges of inputs 18 to 33 are the block boundaries of time-transfer
messages, which the rows of those messages bring. -/
def execTiuEdge (i : Fin 34) (ed : Edge) (s : State) : Res :=
  if 17 < i.val then done s else done (if s.live then s.tiuIn i ed else s.tiuQuiet i ed.level)

/-- HOLDOFF_EXPIRY (R395): the tick after the hold-off. -/
def execHoldoffExpiry (i : Fin 34) (level : Bool) (s : State) : Res :=
  let x := s.tiu i
  let due := match x.condAt with
    | some a => s.tm.now == a + s.fld (A.tiuInCfg i) F.tiuInCfg.holdoff + 1
    | none => false
  onlyIf (s.live && due && decide (i.val ≤ 16) && level != x.level) s
    ((s.setTiu i { x with ball := level }).condEdge i { level := level, frac := 0 })

/-- PPS_IN_EDGE (R391): a conditioned transition of input 16. -/
def execPpsInEdge (ed : Edge) (s : State) : Res :=
  onlyIf (s.live && ed.level != (s.tiu 16).level && !s.inHold 16) s (s.condEdge 16 ed)

/-- A write of TIU_IN_CFG. -/
def State.writeTiuCfg (s : State) (src : Req) (i : Nat) (w : Word) : WRes :=
  let h := getF w F.tiuInCfg.holdoff
  s.write src spec_tiuInCfg (A.tiuInCfg i) w (if h < 2 ∨ 500 < h then some .accessErr else none) id

/-! ## Result export (R400) -/

/-- The export of plot `p`. -/
def State.exp (s : State) (p : Nat) : ExpX := KMap.get {} s.exps p

/-- Writes the export of plot `p`. -/
def State.setExp (s : State) (p : Nat) (x : ExpX) : State := { s with exps := KMap.set {} s.exps p x }

/-- An item written to the result ring of plot `p` is copied for export. -/
def State.exportItem (s : State) (p : Nat) (bytes : List Byte) : State :=
  if s.on (A.expCfg p) F.expCfg.en then
    s.setExp p { s.exp p with items := (s.exp p).items ++ [(s.tm.now, bytes)] }
  else s

/-- Whole items that fit `room` slots, and the rest. -/
def packItems : Nat → List (Nat × List Byte) → List (Nat × List Byte) × List (Nat × List Byte)
  | _, [] => ([], [])
  | room, i :: is =>
    if i.2.length / 32 ≤ room then
      let r := packItems (room - i.2.length / 32) is
      (i :: r.1, r.2)
    else ([], i :: is)

/-- The items of the next datagram of plot `p`, and those left: at least one item. -/
def State.datagramOf (s : State) (p : Nat) : List (Nat × List Byte) × List (Nat × List Byte) :=
  match packItems (s.fld (A.expCfg p) F.expCfg.slots) (s.exp p).items, (s.exp p).items with
  | ([], _), i :: is => ([i], is)
  | r, _ => r

/-- A write of EXP_CFG. -/
def State.writeExpCfg (s : State) (src : Req) (p : Nat) (w : Word) : WRes :=
  let n := getF w F.expCfg.slots
  s.write src spec_expCfg (A.expCfg p) w (if n = 0 ∨ 44 < n then some .accessErr else none) id

/-- EXPORT_DATAGRAM_CLOSE (R400): the datagram is full, or 100 µs have passed since its first slot. One that finds the
port's memory full, or its link down, is discarded. -/
def execExportDatagramClose (p : Plot) (full : Bool) (s : State) : Res :=
  let x := s.exp p
  let d := s.datagramOf p
  let port := s.fld (A.expCfg p) F.expCfg.port
  let body := (d.1.map fun i => i.2).flatten
  let slots := body.length / 32
  let aged := match x.items with | i :: _ => decide (i.1 + 100 * usTicks ≤ s.tm.now) | [] => false
  let ready := aged || d.2 != [] || (d.1 != [] && decide (s.fld (A.expCfg p) F.expCfg.slots ≤ slots))
  let s1 := s.setExp p { items := d.2, seq := x.seq + 1 }
  let head := leBytes 4 x.seq ++ leBytes 1 p ++ leBytes 1 slots ++ leBytes 2 0 ++ leBytes 8 s.DT
  onlyIf ready s
    (if full || !s.on (A.ethTsSts port) F.ethTsSts.linkUp then s1.bump (A.expDropCnt p)
     else s1.send (.datagram port p (head ++ body)))

end Sys2Proof.Machine
end

