-- ==== Sys2Proof/Machine/Flux.lean ====
section
/-! DEFINITION. The fast flux outputs (R158–R167): coefficient writes, and what the datapath does in each tick. -/

namespace Sys2Proof.Machine

/-- The filter state of flux output `f` of tile `t`. -/
def State.flux (s : State) (t f : Nat) : FluxX := KMap.get {} s.fluxes (14 * t + f)

/-- Writes a filter state. -/
def State.setFlux (s : State) (t f : Nat) (x : FluxX) : State :=
  { s with fluxes := KMap.set {} s.fluxes (14 * t + f) x }

/-- A coefficient or bypass write clears every filter state of the output (R167); what has passed the filter goes on. -/
def State.clearFilter (s : State) (t f : Nat) : State := s.setFlux t f { s.flux t f with iir := [], fir := [] }

/-! ## Writes (R164, R167) -/

/-- |A1| ≥ 1.0 for a 20-bit coefficient with 18 fractional bits (R164). -/
def unstableA1 (v : Nat) : Bool :=
  let a := sext 20 v
  decide ((2 ^ 18 : Int) ≤ a) || decide (a ≤ -(2 ^ 18 : Int))

/-- A write of a register of flux output `f` at offset `off` of its block. -/
def State.writeFx (s : State) (src : Req) (t f off : Nat) (w : Word) : WRes :=
  let a := A.fxCfg t f + off
  match findReg a with
  | some (r, _) =>
    match r.reg with
    | .fxCfg | .fxIirB0 | .fxIirB1 | .fxFir =>
      s.write src r a w (s.busyTile src t) fun s1 => s1.clearFilter t f
    | .fxIirA1 =>
      if (s.blockRefuse src a).isNone && (s.busyTile src t).isNone && unstableA1 w.toNat then
        (s.raise (A.fxSts t f) F.fxSts.coefRefused 1, none)
      else s.write src r a w (s.busyTile src t) fun s1 => s1.clearFilter t f
    | .fxIdle => s.write src r a w (s.busyTile src t) id
    | _ => s.write src r a w none id
  | none => (s, some .accessErr)

/-- FLUX_COEF_WRITE (R167). -/
def execFluxCoefWrite (t : Tile) (f : Fin 14) (off : Nat) (w : Word) (s : State) : Res :=
  if off < 0x200 then done (State.hostWrite (s.writeFx .host t f off w) (A.fxCfg t f + off))
  else done (s.refuseHost .accessErr 0 (A.fxCfg t f + off))

/-! ## The datapath (R159–R166) -/

/-- The component of an envelope after scaling (R135). -/
def scaled (e : Int) (amp : Nat) : Int := roundDiv (e * amp) (2 ^ 18)

/-- The scaled flux sample that path 16 + f plays in the present tick: 0 where none plays (R159, R161). -/
def State.fluxSample (s : State) (t f : Nat) : Int :=
  let n := 16 + f
  let halted := match s.feeder t n, s.relTile t with
    | some q, some r => s.haltedAt t q r
    | _, _ => false
  if halted then 0
  else
    match (s.chan t n).playing, s.sampleAt t n with
    | some pl, some w =>
      let i := w.toNat % 2 ^ 16
      let i := if s.on (A.segLo t pl.seg) F.segLo.mkEn then i / 2 * 2 else i
      scaled (sext 16 i) pl.amp
    | _, _ => 0

/-- Saturation to the 24-bit internal range, and whether it acted (R163). -/
def sat24 (v : Int) : Int × Bool :=
  let c := clampI (-8388608) 8388607 v
  (c, c != v)

/-- One IIR section (R164): coefficients with 18 fractional bits. -/
def iirStep (b0 b1 a1 : Int) (x x1 y1 : Int) : Int × Bool :=
  sat24 (roundDiv (b0 * x + b1 * x1 - a1 * y1) (2 ^ 18))

/-- IIR sections `k`, `k + 1`, … (`n` of them): the output, the sections that saturated, and the new states. -/
def State.iirs (s : State) (t f : Nat) (st : List (Int × Int)) : Nat → Nat → Int → Int × List Nat × List (Int × Int)
  | 0, _, x => (x, [], [])
  | n + 1, k, x =>
    let p := st.getD k (0, 0)
    let bypassed := (s.fld (A.fxCfg t f) F.fxCfg.bypIir).testBit k
    let co := fun a => sext 20 (s.reg a).toNat
    let r := if bypassed then (x, false)
      else iirStep (co (A.fxIirB0 t f k)) (co (A.fxIirB1 t f k)) (co (A.fxIirA1 t f k)) x p.1 p.2
    let rest := s.iirs t f st n (k + 1) r.1
    (rest.1, (if r.2 then [k] else []) ++ rest.2.1, (x, r.1) :: rest.2.2)

/-- The FIR sum over the newest samples (R165): taps with 16 fractional bits. -/
def State.firSum (s : State) (t f : Nat) : List Int → Nat → Int
  | [], _ => 0
  | y :: ys, i => sext 18 (s.reg (A.fxFir t f i)).toNat * y + s.firSum t f ys (i + 1)

/-- The output code that the datapath computes in the output-sum stage (R166), before the clamp. -/
def State.fluxSum (s : State) (t f : Nat) (z : Int) : Int :=
  sext 16 (s.fld (A.fxIdle t f) F.fxIdle.idleCode) + roundDiv z 64

/-- A stage of the filter saturates in the present tick (R160, R163): IIR section k has the sample that entered playout 3 + k ticks ago,
the FIR that of 19 ticks ago. -/
def stageSat (pipe : List (Int × List Nat)) : Bool :=
  (List.range 5).any fun k => (pipe.getD (if k = 4 then 19 else 3 + k) (0, [])).2.contains k

/-- One tick of flux output `f` of tile `t`: the sample that enters playout passes the filter, and the result that
entered 20 ticks before reaches the output sum (R160). A tick with a clamp or a saturation counts once (FX_CLIP_CNT). -/
def State.fluxTick (s : State) (t f : Nat) : State :=
  let x := s.flux t f
  let inp := s.fluxSample t f * 64
  let quiet := inp = 0 ∧ x.iir.all (fun p => p.1 == 0 && p.2 == 0) ∧ x.fir.all (· == 0)
  let r := s.iirs t f x.iir 4 0 inp
  let line := r.1 :: x.fir
  let z := if s.on (A.fxCfg t f) F.fxCfg.bypFir then (r.1, false)
    else sat24 (roundDiv (s.firSum t f (line.take 48) 0) (2 ^ 16))
  let entry := if quiet then (0, []) else (z.1, r.2.1 ++ if z.2 then [4] else [])
  let pipe := entry :: x.pipe
  let o := pipe.getD 20 (0, [])
  let sum := s.fluxSum t f o.1
  let clamped := clampI (-32768) 32767 sum != sum
  let keep := (pipe.take 21).reverse.dropWhile (fun e => e.1 == 0 && e.2.isEmpty)
  let s1 := s.setFlux t f { x with
    iir := if quiet then [] else r.2.2
    fir := if quiet then [] else (line.take 47)
    pipe := keep.reverse
    clipped := x.clipped || clamped }
  if stageSat pipe || clamped then
    let s2 := (s1.raise (A.fxSts t f) F.fxSts.clip 1).bump (A.fxClipCnt t f)
    if clamped && !x.clipped then s2.fire (tileSrc t 15) else s2
  else s1

/-- The code at the flux DAC of output `f` when no hold acts (R166). -/
def State.fluxCode (s : State) (t f : Nat) : Int :=
  clampI (-32768) 32767 (s.fluxSum t f ((s.flux t f).pipe.getD 20 (0, [])).1)

end Sys2Proof.Machine
end

