-- ==== Sys2Proof/Machine/KelairTx.lean ====
section
/-! DEFINITION. The sending side of Kelair (R262–R276): messages, their checks, the replay buffer, routes and
forwarding. -/

namespace Sys2Proof.Machine

/-- Link `k`. -/
def State.link (s : State) (k : Nat) : KLink := KMap.get {} s.links k

/-- Writes link `k`. -/
def State.setLink (s : State) (k : Nat) (x : KLink) : State := { s with links := KMap.set {} s.links k x }

/-- Applies `f` to link `k`. -/
def State.modLink (s : State) (k : Nat) (f : KLink → KLink) : State := s.setLink k (f (s.link k))

/-- The state code of link `k` (R257): 0 OFF, 1 TRAIN, 2 UP, 3 DEGRADED, 4 IDLE_LP, 5 BACKOFF, 6 DOWN, 7 TEST. -/
def State.klState (s : State) (k : Nat) : Nat := s.fld (A.klSts k) F.klSts.state

/-- Moves link `k` to a state. -/
def State.setKlState (s : State) (k c : Nat) : State := s.setFld (A.klSts k) F.klSts.state c

/-- Link `k` is UP or DEGRADED. -/
def State.klUp (s : State) (k : Nat) : Bool := s.klState k == 2 || s.klState k == 3

/-- Global sources of link `k` (R291): 0 UP, 1 DEGRADED, 2 DOWN, 3 ERR. -/
def klSrc (k e : Nat) : Nat := 1328 + 4 * k + e

/-- The active lanes of link `k`. -/
def State.klLanes (s : State) (k : Nat) : Nat := s.fld (A.klSts k) F.klSts.activeLanes

/-- The number of lanes in a mask. -/
def laneCount (m : Nat) : Nat := ((List.range 4).filter fun i => m.testBit i).length

/-- This device's number (R271). -/
def State.devNum (s : State) : Nat := s.fld A.klId F.klId.devNum

/-! ## Blocks and checks (R264, R266–R269) -/

/-- The bytes of a block. -/
def blockBytes (b : Block) : List Byte := leBytes 8 b.toNat

/-- CRC-16 of the two blocks of a decision message: block 0 bits 63:8, block 1 bits 47:0. -/
def crcDecision (b0 b1 : Block) : Nat := (crc16 ((blockBytes b0).drop 1 ++ (blockBytes b1).take 6)).toNat

/-- CRC-16 of the three blocks of a time-transfer message. -/
def crcTt (b0 b1 b2 : Block) : Nat :=
  (crc16 ((blockBytes b0).drop 1 ++ (blockBytes b1).take 6 ++ (blockBytes b2).take 6)).toNat

/-- CRC-16 of a link-control block: bits 47:8. -/
def crcControl (b : Block) : Nat := (crc16 (((blockBytes b).take 6).drop 1)).toNat

/-- CRC-32C of a bulk message: header bits 63:8 and every payload byte. -/
def crcBulk (h : Block) (pl : List Block) : Nat := (crc32c ((blockBytes h).drop 1 ++ pl.flatMap blockBytes)).toNat

/-- The stream of a message (R265): 0 decision, 1 time transfer, 2–5 bulk kinds 0–3. -/
def KMsg.stream : KMsg → Nat
  | .decision .. => 0
  | .tt .. => 1
  | .bulk kind .. => 2 + kind % 4

/-- The order of priority in which messages take rows (R262). -/
def KMsg.prio : KMsg → Nat
  | .decision .. => 0
  | .tt .. => 1
  | .bulk kind .. => if 2 ≤ kind then 2 else 3

/-- The blocks of a message with its LSEQ and ALIVE. -/
def KMsg.encode (lseq alive : Nat) : KMsg → List Block
  | .decision src hops slot value tag midx useDt mask =>
    let b0 := BitVec.ofNat 64 (0x1E + lseq % 256 * 2 ^ 8 + alive % 256 * 2 ^ 16 + src % 16 * 2 ^ 24 + hops % 4 * 2 ^ 28
      + slot % 512 * 2 ^ 32 + value % 4 * 2 ^ 41 + tag % 256 * 2 ^ 48 + midx % 256 * 2 ^ 56)
    let b1 := BitVec.ofNat 64 (useDt % 2 ^ 32 + mask % 2 ^ 16 * 2 ^ 32)
    [b0, b1 ||| BitVec.ofNat 64 (crcDecision b0 b1 * 2 ^ 48)]
  | .tt kind fracA fracB tseq depth aligned ta tb =>
    let b0 := BitVec.ofNat 64 (0x33 + lseq % 256 * 2 ^ 8 + alive % 256 * 2 ^ 16 + kind % 2 * 2 ^ 24
      + fracA % 256 * 2 ^ 32 + fracB % 256 * 2 ^ 40 + tseq % 256 * 2 ^ 48 + depth % 16 * 2 ^ 56
      + b2n aligned * 2 ^ 60)
    let b1 := BitVec.ofNat 64 (ta % 2 ^ 48)
    let b2 := BitVec.ofNat 64 (tb % 2 ^ 48)
    [b0, b1, b2 ||| BitVec.ofNat 64 (crcTt b0 b1 b2 * 2 ^ 48)]
  | .bulk kind src dst hops pl =>
    let h := BitVec.ofNat 64 (0x2D + lseq % 256 * 2 ^ 8 + alive % 256 * 2 ^ 16 + kind % 4 * 2 ^ 24
      + pl.length % 256 * 2 ^ 32 + src % 16 * 2 ^ 40 + dst % 16 * 2 ^ 44 + hops % 16 * 2 ^ 48)
    h :: pl ++ [BitVec.ofNat 64 (crcBulk h pl)]

/-- A link-control block (R269). -/
def controlBlock (kind lseq lanes : Nat) : Block :=
  let b := BitVec.ofNat 64 (0x66 + kind % 256 * 2 ^ 8 + lseq % 256 * 2 ^ 16 + lanes % 16 * 2 ^ 24)
  b ||| BitVec.ofNat 64 (crcControl b * 2 ^ 48)

/-! ## Transmission (R262, R263) -/

/-- Inverts one bit of a message. -/
def invertBit (bs : List Block) (j i : Nat) : List Block :=
  bs.mapIdx fun n b => if n = j then b ^^^ BitVec.ofNat 64 (2 ^ (i % 64)) else b

/-- Blocks leave on link `k`; a pending error injection inverts one bit of them (R251). -/
def State.emitBlocks (s : State) (k : Nat) (bs : List Block) : State :=
  match (s.link k).inject with
  | i :: is =>
    let at_ := Config.injectAt i bs.length
    (s.modLink k fun x => { x with inject := is }).send (.blocks k (invertBit bs at_.1 at_.2))
  | [] => s.send (.blocks k bs)

/-- A message of link `k` is sent or received: the idle time starts anew (R261). -/
def State.notIdle (s : State) (k : Nat) : State := s.modLink k fun x => { x with msgAt := s.tm.now, asked := false }

/-- A message leaves on link `k`. -/
def State.emit (s : State) (k : Nat) (bs : List Block) : State := (s.notIdle k).emitBlocks k bs

/-- A link-control block leaves on link `k`. -/
def State.control (s : State) (k kind lseq : Nat) : State :=
  if s.klUp k then s.emitBlocks k [controlBlock kind lseq (s.klLanes k)] else s

/-- The first message of the highest priority, and the others. -/
def pickMsg (ms : List KMsg) : Option (KMsg × List KMsg) :=
  match (List.range 4).findSome? fun p => ms.find? fun m => m.prio == p with
  | some m => some (m, ms.erase m)
  | none => none

/-- Blocks held in the replay buffer. -/
def KLink.held (x : KLink) : Nat := (x.replay.map fun e => e.2.length).sum

/-- Sends waiting messages of link `k`, at most `fuel`, while it is UP or DEGRADED and the 256-block replay buffer has
room. -/
def State.pump (s : State) (k : Nat) : Nat → State
  | 0 => s
  | fuel + 1 =>
    if !s.klUp k then s
    else
      match pickMsg (s.link k).wait with
      | none => s
      | some (m, rest) =>
        let x := s.link k
        let alive := (x.txAlive.getD m.stream 0 + 1) % 256
        let bs := m.encode x.txSeq alive
        if 256 < x.held + bs.length then s
        else
          let s1 := s.setLink k { x with
            wait := rest, replay := x.replay ++ [(x.txSeq, bs)], txSeq := (x.txSeq + 1) % 256,
            txAlive := (x.txAlive ++ List.replicate (6 - x.txAlive.length) 0).set m.stream alive }
          let s2 := if m.stream = 0 then s1.bump (A.klTxDecCnt k) else s1
          (s2.emit k bs).pump k fuel

/-- Hands a message to link `k`: it goes out at once, or waits (for an exit from IDLE_LP, for room in the buffer). -/
def State.post (s : State) (k : Nat) (m : KMsg) : State :=
  let s1 := s.modLink k fun x => { x with wait := x.wait ++ [m] }
  s1.pump k (s1.link k).wait.length

/-- Retransmits the messages of the replay buffer from `lseq` on, in their order (R263). -/
def State.replayFrom (s : State) (k : Nat) : List (Nat × List Block) → State
  | [] => s
  | e :: es => ((s.emit k e.2).bump (A.klReplayCnt k)).replayFrom k es

/-! ## Routes and forwarding (R271–R273) -/

/-- A destination is dropped. -/
def State.dropDest (s : State) : State :=
  ((s.bump A.klFwdDropCnt).raise A.klGsts F.klGsts.fwdDrop 1).fire 1366

/-- The link toward device `d`, when the destination is not dropped for it: the entry enabled, the link UP or DEGRADED
(IDLE_LP counts: a queued message wakes it, R261). -/
def State.linkTo (s : State) (d : Nat) : Option Nat :=
  if s.on (A.klFwd d) F.klFwd.en then
    let k := s.fld (A.klFwd d) F.klFwd.link
    if s.klUp k || s.klState k == 4 then some k else none
  else none

/-- The destinations of a mask that link `k` reaches. -/
def State.maskOver (s : State) (mask k : Nat) : Nat :=
  (List.range 16).foldl (fun m d => if mask.testBit d && s.linkTo d == some k then m + 2 ^ d else m) 0

/-- The destinations of a mask that are dropped. -/
def State.dropped (s : State) (mask hops : Nat) : Nat :=
  ((List.range 16).filter fun d => mask.testBit d && (decide (3 < hops) || (s.linkTo d).isNone)).length

/-- Sends a decision toward the destinations of `mask` with hop count `hops` (R272). -/
def State.sendDecision (s : State) (src hops slot value tag midx useDt mask : Nat) : State :=
  let n := s.dropped mask hops
  let s1 := (List.range n).foldl (fun s _ => s.dropDest) s
  if 3 < hops then s1
  else
    (List.range 8).foldl (fun s k =>
      let m := s1.maskOver mask k
      if m = 0 then s else s.post k (.decision src hops slot value tag midx useDt m)) s1

/-- An exported slot is written (R244): a decision message on its route, stamped with USE_DT = L + 138 + ΣPAD. A route that is
not enabled sends nothing, and the write is counted (R273). -/
def State.exportSlot (s : State) (n value tag midx wend : Nat) : State :=
  if !s.on (A.exp n) F.exp.en then s
  else
    let i := s.fld (A.exp n) F.exp.route
    if !s.on (A.klRouteA i) F.klRouteA.en then s.bump A.klFwdDropCnt
    else
      s.sendDecision s.devNum 1 n value tag midx (wend + 138 + s.fld (A.klRouteB i) F.klRouteB.padSum)
        (s.fld (A.klRouteA i) F.klRouteA.destMask)

/-- Sends a bulk message toward device `d` over the forwarding table, with at most three hops (R272). -/
def State.sendBulk (s : State) (kind src d hops : Nat) (pl : List Block) : State :=
  if 3 < hops then s.dropDest
  else
    match s.linkTo d with
    | some k => s.post k (.bulk kind src d hops pl)
    | none => s.dropDest

/-- The pair is a STANDBY pair (R289). -/
def State.standbyPair (s : State) : Bool := s.on A.klPairCtl F.klPairCtl.en && s.on A.klPairCtl F.klPairCtl.mode

/-- Link `k` is a pair link. -/
def State.isPairLink (s : State) (k : Nat) : Bool :=
  s.on A.klPairCtl F.klPairCtl.en && (s.fld A.klPairCtl F.klPairCtl.pairLinks).testBit k

/-- The device of a STANDBY pair is not the active one: its records reach no ring (R285, R287). -/
def State.isStandby (s : State) : Bool := s.standbyPair && !s.on A.klPairSts F.klPairSts.active

end Sys2Proof.Machine
end

