-- ==== Sys2Proof/Machine/Trellis.lean ====
section
/-! DEFINITION. The trellis (R225–R247): releases into views, parity units, remote decisions, and the checks of key
bits, parity units, remote map and export entries. -/

namespace Sys2Proof.Machine

/-! ## Views (R225–R229) -/

/-- The shot tag of the plot of slot `n` (R228). -/
def State.slotTag (s : State) (n : Nat) : Option Nat := (s.slotPlot n).map s.plotTag

/-- A stale release is discarded (R228). -/
def State.staleDec (s : State) : State := ((s.raise A.trlSts F.trlSts.stale 1).bump A.trlStaleCnt).fire 1324

/-- A collision is counted (R229). -/
def State.collide (s : State) : State := (s.raise A.trlSts F.trlSts.collide 1).bump A.trlCollideCnt

/-- Releases a decision into a view by `put`, or discards it as stale. -/
def State.release (s : State) (n : Nat) (d : Dec) (put : State → Word → State) : State :=
  if s.slotTag n = some d.tag then put s (viewWord d.value d.tag d.midx) else s.staleDec

/-- The releases of slot `n` wait for the plot's SHOT_START of this tick, whose clearing comes first (R227). -/
def State.startFirst (s : State) (n : Nat) : Bool := match s.slotPlot n with | some p => s.startDue p | none => false

/-- The decision due in this tick enters the tile view of qubit slot `n` (R230): L + 88. -/
def State.releaseTile (s : State) (n : Nat) : State :=
  let ds := KMap.get [] s.tileRels n
  let due := ds.filter fun d => d.at_ == s.tm.now
  let s1 : State := { s with tileRels := KMap.set [] s.tileRels n (ds.filter fun d => s.tm.now < d.at_) }
  let s2 := if 2 ≤ due.length then s1.collide else s1
  match pickDec due with
  | some d => s2.release n d fun s w => (s.setTileView n w).seen n
  | none => s

/-- The decision due in this tick enters the device view of slot `n` (R230): L + 128. -/
def State.releaseDevice (s : State) (n : Nat) : State :=
  let ds := KMap.get [] s.devRels n
  let due := ds.filter fun d => d.at_ == s.tm.now
  let s1 : State := { s with devRels := KMap.set [] s.devRels n (ds.filter fun d => s.tm.now < d.at_) }
  match pickDec due with
  | some d => s1.release n d fun s w => (s.setReg (A.trlSlot n) w).seen (1024 + n)
  | none => s

/-- DECISION_RELEASE_TILE (R230). -/
def execDecisionReleaseTile (n : Fin 256) (s : State) : Res := onlyIf (!s.startFirst n) s (s.releaseTile n)

/-- DECISION_RELEASE_DEVICE (R230). -/
def execDecisionReleaseDevice (n : Fin 320) (s : State) : Res := onlyIf (!s.startFirst n) s (s.releaseDevice n)

/-- A decision sets out for a view. -/
def addDec (m : KMap (List Dec)) (n : Nat) (d : Dec) : KMap (List Dec) := KMap.set [] m n (KMap.get [] m n ++ [d])

/-! ## Parity units (R233–R236) -/

/-- The latched inputs of unit `u`. -/
def State.parIn (s : State) (u : Nat) : List ParIn := KMap.get [] s.parIns u

/-- Those that the mask in force names: a latch of an earlier mask is no input of the unit (R234). -/
def State.parHas (s : State) (u : Nat) : List ParIn := (s.parIn u).filter fun x => (s.parMask u).contains (64 * (u / 16) + x.k)

/-- Unit `u` latches slot `n` where it names it (R234, step 1). -/
def State.parLatch (s : State) (n value tag midx wend : Nat) (u : Nat) : State :=
  let k := n % 64
  if s.on (A.puCfg u) F.puCfg.en && (s.parMask u).contains n && s.fld (A.puCfg u) F.puCfg.inMidx == midx &&
      s.slotTag n == some tag && !(s.parIn u).any fun x => x.k == k then
    { s with parIns := KMap.set [] s.parIns u (s.parIn u ++
        [{ k := k, value := value, at_ := s.tm.now + 8, wend := wend }]) }
  else s

/-- The parity units of the quadrant of slot `n` latch a write of it (R234): in tick L + 44. -/
def State.parLatches (s : State) (n value tag midx wend : Nat) : State :=
  (List.range 16).foldl (fun s i => s.parLatch n value tag midx wend (16 * (n / 64) + i)) s

/-- The tick after the last input of unit `u` latches; none while one is missing. -/
def State.parTick (s : State) (u : Nat) : Option Nat :=
  let ins := s.parHas u
  let mask := s.parMask u
  if mask != [] && mask.all fun n => ins.any fun x => x.k == n % 64 then
    some (ins.foldl (fun m x => max m x.at_) 0 + 1)
  else none

/-- The value that unit `u` writes (R234). -/
def State.parValue (s : State) (u : Nat) : Nat :=
  let sel := s.fld (A.puCfg u) F.puCfg.bitSel
  let b0 := (s.parHas u).foldl (fun b x => xor b (x.value.testBit sel)) false
  let b1 := (s.parHas u).any fun x => x.value.testBit 1
  b2n b0 + 2 * b2n b1

/-- The unit's firing: its slot is released at L_last + 128, and exported (R230, R234, R235, R244). -/
def State.parFire (s : State) (u : Nat) : State :=
  let wend := (s.parHas u).foldl (fun m x => max m x.wend) 0
  let tag := (s.slotTag (256 + u)).getD 0
  let midx := s.fld (A.puCfg u) F.puCfg.outMidx
  let v := s.parValue u
  let d : Dec := { value := v, tag := tag, midx := midx, at_ := s.tm.now + (wend + 128 - s.DT), shadow := false }
  let s1 : State := { s.setFld (A.puSts u) F.puSts.fired 1 with devRels := addDec s.devRels (256 + u) d }
  s1.exportSlot (256 + u) v tag midx wend

/-- PARITY_FIRE (R235). -/
def execParityFire (u : Fin 64) (s : State) : Res :=
  onlyIf (s.on (A.puCfg u) F.puCfg.en && !s.on (A.puSts u) F.puSts.fired && s.parTick u == some s.tm.now) s
    (s.parFire u)

/-- PU_STS as read: LATCHED is the number of inputs latched, saturating at 63. -/
def State.puStsView (s : State) (u : Nat) : Word :=
  putF (s.reg (A.puSts u)) F.puSts.latched (min 63 ((s.parIn u).filter fun x => x.at_ ≤ s.tm.now).length)

/-- Captures the first refused trellis write (TRL_CHK); VALID is W1C (R11). -/
def State.trlChk (s : State) (kind cause index : Nat) : State :=
  if s.on A.trlChk F.trlChk.valid then s
  else (s.setReg A.trlChk (BitVec.ofNat 32 (2 ^ 31 + kind * 2 ^ 26 + cause * 2 ^ 16 + index))).note A.trlChk F.trlChk.valid 1

/-- The cause for which parity unit `u` fails its check (R236); 0 where it passes. -/
def State.parCause (s : State) (u : Nat) : Nat :=
  match s.parMask u with
  | [] => 1
  | n :: ns =>
    if (n :: ns).any fun x => !s.tileOn (x / 8) then 3
    else if ns.any fun x => s.plotOf (x / 8) != s.plotOf (n / 8) then 2
    else 0

/-- The check of an enabled parity unit. -/
def State.parCheck (s : State) (u : Nat) : State :=
  if s.on (A.puCfg u) F.puCfg.en && s.parCause u != 0 then
    (s.setFld (A.puCfg u) F.puCfg.en 0).trlChk 0 (s.parCause u) u
  else s

/-- A write of PU_CFG (0), PU_MASK_LO (1) or PU_MASK_HI (2) of unit `u`: only while every tile of the mask in force is
IDLE. -/
def State.writePu (s : State) (src : Req) (u which : Nat) (w : Word) : WRes :=
  let deny := if src != .mgmt && (s.parMask u).any fun n => !s.tileIdle (n / 8) then some Refuse.memBusy else none
  let eff := fun (s1 : State) => s1.checkSet (s.locked src) fun s1 => s1.parCheck u
  if which = 0 then s.write src spec_puCfg (A.puCfg u) w deny eff
  else if which = 1 then s.write src spec_puMaskLo (A.puMaskLo u) w deny eff
  else s.write src spec_puMaskHi (A.puMaskHi u) w deny eff

/-- PARITY_UNIT_CFG_WRITE (R236). -/
def execParityUnitCfgWrite (u : Fin 64) (which : Fin 3) (w : Word) (s : State) : Res :=
  done (State.hostWrite (s.writePu .host u which w) (A.puCfg u + 4 * which))

/-! ## Key bits (R240) -/

/-- The cause for which key bit `i` of key set `ks` of tile `t` fails its check; 0 where it passes. -/
def State.keyCause (s : State) (t ks i : Nat) : Nat :=
  let n := s.fld (A.kb t ks i) F.kb.slot
  if !s.slotInUse n then 1
  else if s.slotPlot n != s.plotOf t then 2
  else 0

/-- The check of a key bit that is enabled. -/
def State.keyCheck (s : State) (t ks i : Nat) : State :=
  if s.on (A.kb t ks i) F.kb.en && s.keyCause t ks i != 0 then
    let s1 := s.setFld (A.kb t ks i) F.kb.en 0
    if s1.on (A.tpChk t) F.tpChk.valid then s1
    else (s1.setReg (A.tpChk t) (BitVec.ofNat 32 (2 ^ 31 + s.keyCause t ks i * 2 ^ 16 + ks * 2 ^ 4 + i))).note (A.tpChk t)
      F.tpChk.valid 1
  else s

/-- A write of a key bit. -/
def State.writeKb (s : State) (src : Req) (t ks i : Nat) (w : Word) : WRes :=
  s.write src spec_kb (A.kb t ks i) w (s.busyTile src t) fun s1 => s1.checkSet (s.locked src) fun s1 => s1.keyCheck t ks i

/-- KEY_BIT_WRITE (R240). -/
def execKeyBitWrite (t : Tile) (ks : Fin 8) (i : Fin 4) (w : Word) (s : State) : Res :=
  done (State.hostWrite (s.writeKb .host t ks i w) (A.kb t ks i))

/-! ## Remote map and export entries (R245, R246) -/

/-- The source that remote entry `r` maps. -/
def State.rmSource (s : State) (r : Nat) : Nat × Nat :=
  (s.fld (A.rmCfg r) F.rmCfg.srcDev, s.fld (A.rmCfg r) F.rmCfg.srcSlot)

/-- The cause for which remote entry `r` fails its check (R246); 0 where it passes. -/
def State.rmCause (s : State) (r : Nat) : Nat :=
  if 319 < s.fld (A.rmCfg r) F.rmCfg.srcSlot then 4
  else if (List.range 192).any fun x => x != r && s.on (A.rmCfg x) F.rmCfg.en && s.rmSource x == s.rmSource r then 5
  else if !s.plotDefined (s.fld (A.rmCfg r) F.rmCfg.plot) then 6
  else 0

/-- A write of RM_CFG of entry `r`: only while the plot it names, before and after, is STOPPED. -/
def State.writeRm (s : State) (src : Req) (r : Nat) (w : Word) : WRes :=
  let deny := if src != .mgmt && !(s.stopped (s.fld (A.rmCfg r) F.rmCfg.plot) && s.stopped (getF w F.rmCfg.plot)) then
    some Refuse.memBusy else none
  s.write src spec_rmCfg (A.rmCfg r) w deny fun s1 => s1.checkSet (s.locked src) fun s1 =>
    if s1.on (A.rmCfg r) F.rmCfg.en && s1.rmCause r != 0 then
      (s1.setFld (A.rmCfg r) F.rmCfg.en 0).trlChk 1 (s1.rmCause r) r
    else s1

/-- REMOTE_MAP_WRITE (R246). -/
def execRemoteMapWrite (r : Fin 192) (w : Word) (s : State) : Res :=
  done (State.hostWrite (s.writeRm .host r w) (A.rmCfg r))

/-- A write of EXP of slot `n`. -/
def State.writeExp (s : State) (src : Req) (n : Nat) (w : Word) : WRes :=
  s.write src spec_exp (A.exp n) w none fun s1 => s1.checkSet (s.locked src) fun s1 =>
    if s1.on (A.exp n) F.exp.en && !s1.slotInUse n then (s1.setFld (A.exp n) F.exp.en 0).trlChk 2 7 n else s1

/-- EXPORT_WRITE (R246). -/
def execExportWrite (n : Fin 320) (w : Word) (s : State) : Res :=
  done (State.hostWrite (s.writeExp .host n w) (A.exp n))

/-- The enabled remote entry that maps a source. -/
def State.rmFind (s : State) (dev slot : Nat) : Option Nat :=
  (List.range 192).find? fun r => s.on (A.rmCfg r) F.rmCfg.en && s.rmSource r == (dev, slot)

/-- A remote decision reaches the trellis (R245). -/
def State.remoteArrive (s : State) (dev slot value tag midx use : Nat) : State :=
  match s.rmFind dev slot with
  | none => ((s.raise A.trlSts F.trlSts.remDrop 1).bump A.trlRemDropCnt).fire 1324
  | some r =>
    if use < s.DT + 60 then
      (((s.raise (A.rmSts r) F.rmSts.late 1).raise A.trlSts F.trlSts.remLate 1).bump A.trlRemLateCnt).fire 1324
    else
      let d : Dec := { value := value, tag := tag, midx := midx, at_ := use, shadow := false }
      { s with remRels := addDec s.remRels r d }

/-- The decision due in this tick enters the slot of remote entry `r` (R245): at DT USE_DT. -/
def State.releaseRemote (s : State) (r : Nat) : State :=
  let ds := KMap.get [] s.remRels r
  let due := ds.filter fun d => d.at_ == s.DT
  let s1 : State := { s with remRels := KMap.set [] s.remRels r (ds.filter fun d => s.DT < d.at_) }
  match due.getLast? with
  | some d =>
    let ofs := s.fld (A.rmCfg r) F.rmCfg.tagOfs
    let tag := s.plotTag (s.fld (A.rmCfg r) F.rmCfg.plot)
    if d.tag = (tag + ofs) % 256 then (s1.setReg (A.trlSlot (320 + r)) (viewWord d.value tag d.midx)).seen (1344 + r)
    else s1.staleDec.raise (A.rmSts r) F.rmSts.stale 1
  | none => s

/-- REMOTE_RELEASE (R245). -/
def execRemoteRelease (r : Fin 192) (s : State) : Res := onlyIf (!s.startFirst (320 + r)) s (s.releaseRemote r)

/-! ## Shot start (R227, R234) -/

/-- Every view of slot `n` clears VALID, and a parity slot's unit its latches and FIRED. -/
def State.clearSlot (s : State) (n : Nat) : State :=
  let s1 := s.setFld (A.trlSlot n) F.trlSlot.valid 0
  if n < 256 then s1.setTileView n (putF (s1.tileView n) F.trlSlot.valid 0)
  else if n < 320 then { s1.setFld (A.puSts (n - 256)) F.puSts.fired 0 with parIns := KMap.set [] s1.parIns (n - 256) [] }
  else s1

/-- The slots of plot `p` clear; the releases of the tick follow (R227, R234). -/
def State.clearSlots (s : State) (p : Nat) : State :=
  (List.range 512).foldl (fun s n => if s.slotPlot n == some p then s.clearSlot n else s) s

/-- The releases of this tick into the slots of plot `p`, which its shot start precedes (R226, R227). -/
def State.releaseSlots (s : State) (p : Nat) : State :=
  (List.range 512).foldl (fun s n =>
    if s.slotPlot n == some p then
      if n < 256 then (s.releaseTile n).releaseDevice n
      else if n < 320 then s.releaseDevice n
      else s.releaseRemote (n - 320)
    else s) s

end Sys2Proof.Machine
end

