-- ==== Sys2Proof/Machine/Kelair.lean ====
section
/-! DEFINITION. Kelair (R248–R292): training, lanes, filler rows, idle, the receiving side, time transfer, routes, pairs
and coordination. -/

namespace Sys2Proof.Machine

/-! ## Training (R257–R260) -/

/-- Sets the active lanes of link `k`, in KL_STS and in each KL_LN_STS. -/
def State.setLanes (s : State) (k m : Nat) : State :=
  (List.range 4).foldl (fun s i => s.setFld (A.klLnSts k i) F.klLnSts.active (b2n (m.testBit i)))
    (s.setFld (A.klSts k) F.klSts.activeLanes m)

/-- No lane of link `k` carries rows or holds a lock, and none retrains (R254, R258). -/
def State.lanesOff (s : State) (k : Nat) : State :=
  (List.range 4).foldl (fun s i =>
    (((s.setFld (A.klLnSts k i) F.klLnSts.cdrLock 0).setFld (A.klLnSts k i) F.klLnSts.blockLock 0).setFld (A.klLnSts k i)
      F.klLnSts.retraining 0).setFld (A.klLnSts k i) F.klLnSts.prbsLock 0) ((s.setLanes k 0).modLink k fun x =>
    { x with tests := [] })

/-- Link `k` begins training attempt `n` (R258). Messages of the replay buffer are lost (R270). -/
def State.attempt (s : State) (k n : Nat) (retry : Bool) : State :=
  let s1 := ((s.setKlState k 1).setFld (A.klSts k) F.klSts.phase 0).setFld (A.klSts k) F.klSts.attempt n
  (s1.lanesOff k).modLink k fun x =>
    { x with good := s.fld (A.klCtl k) F.klCtl.laneEn, attemptAt := s.tm.now, retry := retry, replay := [],
             naked := false, rxFails := 0, txNak := none, txFails := 0, freshRx := List.range 6, inject := [] }

/-- Records DOWN_CAUSE (R260). -/
def State.downCause (s : State) (k c : Nat) : State := s.setFld (A.klSts k) F.klSts.downCause c

/-- An UP or DEGRADED link goes into a training attempt with a cause, and LINK_ERR fires (R270, R276). -/
def State.linkFails (s : State) (k c : Nat) : State := ((s.attempt k 1 false).downCause k c).fire (klSrc k 3)

/-- Link `k` enters DOWN (R259). -/
def State.linkDown (s : State) (k : Nat) : State :=
  ((s.setKlState k 6).modLink k fun x => { x with downAt := s.tm.now }).fire (klSrc k 2)

/-- The training attempt of link `k` fails for a cause (R259). -/
def State.attemptFails (s : State) (k c : Nat) : State :=
  let s1 := ((s.bump (A.klTrainFailCnt k)).downCause k c).lanesOff k
  let n := s.fld (A.klSts k) F.klSts.attempt
  if (s.link k).retry || 8 ≤ n then s1.linkDown k
  else (s1.setKlState k 5).modLink k fun x => { x with backoffAt := s.tm.now + 2 ^ (n - 1) * msTicks }

/-- Link `k` enters UP or DEGRADED with the lanes `m` (R258). -/
def State.linkUp (s : State) (k m : Nat) : State :=
  let s1 := ((s.setLanes k m).setKlState k (if m = 15 then 2 else 3)).fire (klSrc k 0)
  (s1.notIdle k).pump k (s1.link k).wait.length

/-- The lanes that a mask names show a lock bit. -/
def State.lockLanes (s : State) (k m : Nat) (f : Fld) : State :=
  (List.range 4).foldl (fun s i => if m.testBit i then s.raise (A.klLnSts k i) f 1 else s) s

/-- The lanes that a mask names have adapted (R249, R250): an inversion found is corrected and shown, and the equaliser stands at what
it converged on, unless EQ_FREEZE holds it. -/
def State.lanesAdapt (s : State) (k m pol : Nat) : State :=
  (List.range 4).foldl (fun s i =>
    if m.testBit i then
      let s1 := s.setFld (A.klLnSts k i) F.klLnSts.rxPol (b2n (pol.testBit i))
      if s1.on (A.klLnCtl k i) F.klLnCtl.eqFreeze then s1
      else s1.setReg (A.klLnEq k i) (Config.equaliser s.tm.now (4 * k + i))
    else s) s

/-- KL_LN_EQ as read: the adaptation tracks while the lane holds CDR lock, and EQ_FREEZE holds the present values (R250). -/
def State.klLnEqView (s : State) (k i : Nat) : Word :=
  if s.on (A.klLnSts k i) F.klLnSts.cdrLock && !s.on (A.klLnCtl k i) F.klLnCtl.eqFreeze then Config.equaliser s.tm.now (4 * k + i)
  else s.reg (A.klLnEq k i)

/-- Lanes regain or gain both locks, and retrain no longer (R254, R276). -/
def State.lanesLock (s : State) (k m : Nat) : State :=
  (List.range 4).foldl (fun s i => if m.testBit i then s.setFld (A.klLnSts k i) F.klLnSts.retraining 0 else s)
    ((s.lockLanes k m F.klLnSts.cdrLock).lockLanes k m F.klLnSts.blockLock)

/-- Lane `i` of link `k` retrains in the background. -/
def State.laneRetrains (s : State) (k i : Nat) : State :=
  ((s.setFld (A.klLnSts k i) F.klLnSts.cdrLock 0).setFld (A.klLnSts k i) F.klLnSts.blockLock 0).setFld (A.klLnSts k i)
    F.klLnSts.retraining 1

/-- The permitted lanes that a mask does not name retrain in the background. -/
def State.restRetrain (s : State) (k m : Nat) : State :=
  (List.range 4).foldl (fun s i =>
    if (s.fld (A.klCtl k) F.klCtl.laneEn).testBit i && !m.testBit i then s.laneRetrains k i else s) s

/-- The last phase ends: the partner's identity is compared (R258, R260). -/
def State.configDone (s : State) (k good array dev plink map : Nat) : State :=
  if array != s.fld A.klId F.klId.arrayId || map != good then s.attemptFails k 5
  else if dev = s.devNum then s.attemptFails k 6
  else
    let s1 := ((s.setFld (A.klSts k) F.klSts.partnerDev dev).setFld (A.klSts k) F.klSts.partnerLink plink).setFld
      (A.klSts k) F.klSts.attempt 0
    ((s1.restRetrain k good).modLink k fun x => { x with retry := false }).linkUp k good

/-- TRAIN_PHASE_DONE (R258): a phase ends when at least two lanes pass it. -/
def execTrainPhaseDone (k : Link) (lanes pol : BitVec 4) (array : Byte) (dev : BitVec 4) (plink : BitVec 3) (map : BitVec 4)
    (s : State) : Res :=
  let good := (s.link k).good &&& lanes.toNat
  let ph := s.fld (A.klSts k) F.klSts.phase
  let s1 := s.modLink k fun x => { x with good := good }
  onlyIf (s.klState k == 1 && decide (2 ≤ laneCount good)) s
    (if ph = 4 then s1.configDone k good array.toNat dev.toNat plink.toNat map.toNat
     else
       let s2 := if ph = 1 then (s1.lockLanes k good F.klLnSts.cdrLock).lanesAdapt k good pol.toNat
         else if ph = 2 then s1.lockLanes k good F.klLnSts.blockLock else s1
       s2.setFld (A.klSts k) F.klSts.phase (ph + 1))

/-- TRAIN_ATTEMPT_TIMEOUT (R259): 10 ms after the attempt began. -/
def execTrainAttemptTimeout (k : Link) (s : State) : Res :=
  onlyIf (s.klState k == 1 && decide ((s.link k).attemptAt + 10 * msTicks ≤ s.tm.now)) s
    (s.attemptFails k (min 5 (s.fld (A.klSts k) F.klSts.phase + 1)))

/-- BACKOFF_EXPIRY (R259). -/
def execBackoffExpiry (k : Link) (s : State) : Res :=
  onlyIf (s.klState k == 5 && decide ((s.link k).backoffAt ≤ s.tm.now)) s
    (s.attempt k (s.fld (A.klSts k) F.klSts.attempt + 1) false)

/-- AUTORETRY_ATTEMPT (R259): every 1 s. -/
def execAutoretryAttempt (k : Link) (s : State) : Res :=
  onlyIf (s.klState k == 6 && s.on (A.klCtl k) F.klCtl.autoretry && decide ((s.link k).downAt + 1000 * msTicks ≤ s.tm.now)) s
    (s.attempt k 1 true)

/-- Link `k` goes to OFF or TEST: nothing of its messages stays. -/
def State.linkOff (s : State) (k code : Nat) : State :=
  ((s.lanesOff k).setKlState k code).modLink k fun x => { x with wait := [], replay := [], good := 0, inject := [] }

/-- Links may leave electrical idle: the part is configured, by an image that is not the primer image, and no shutdown is under way (R254,
R292, R302, R440). -/
def State.linksMay (s : State) : Bool :=
  s.fld A.glbSts F.glbSts.bootStage == 3 && s.fld A.glbSts F.glbSts.imgSrc != 2 && s.shutAt.isNone

/-- The effect of a write of KL_CTL, on the state `s` before it (R258, R260). A link enabled before the part is configured is OFF until
then (R254, R292). -/
def State.klCtlEffect (s : State) (k : Nat) (w : Word) (s1 : State) : State :=
  let was := s.on (A.klCtl k) F.klCtl.en
  let now := s1.on (A.klCtl k) F.klCtl.en
  let idle := if s1.on (A.klCtl k) F.klCtl.test && s1.shutAt.isNone then 7 else 0
  if now && !s1.linksMay then (s1.lanesOff k).setKlState k 0
  else if now && (!was || getF w F.klCtl.retrain = 1) then s1.attempt k 1 false
  else if was && !now then (s1.linkOff k idle).downCause k 9
  else if now then s1
  else if idle = 0 then (s1.lanesOff k).setKlState k 0
  else s1.setKlState k idle

/-- A write of KL_CTL. -/
def State.writeKlCtl (s : State) (src : Req) (k : Nat) (w : Word) : WRes :=
  s.write src spec_klCtl (A.klCtl k) w none (s.klCtlEffect k w)

/-- LINK_ENABLE (R258). -/
def execLinkEnable (k : Link) (w : Word) (s : State) : Res :=
  done (State.hostWrite (s.writeKlCtl .host k (putF (putF w F.klCtl.en 1) F.klCtl.retrain 0)) (A.klCtl k))

/-- LINK_RETRAIN (R258). -/
def execLinkRetrain (k : Link) (w : Word) (s : State) : Res :=
  done (State.hostWrite (s.writeKlCtl .host k (putF w F.klCtl.retrain 1)) (A.klCtl k))

/-! ## Lanes and filler rows (R251–R256, R276) -/

/-- Link `k` goes on with fewer lanes, or trains anew below two (R276). `n`: lanes lost. -/
def State.lanesLost (s : State) (k m n : Nat) (announce : Bool) : State :=
  let s1 := (s.bumpBy (A.klDegradeCnt k) n).setLanes k m
  if laneCount m < 2 then s1.linkFails k 7
  else
    let s2 := (s1.setKlState k 3).fire (klSrc k 1)
    let s3 := if announce then s2.control k 3 0 else s2
    s3.replayFrom k (s3.link k).replay

/-- Lane `i` of link `k` is no longer good: it carries no rows, and retrains (R253, R276). -/
def State.laneGone (s : State) (k i : Nat) : State :=
  let s1 := (s.laneRetrains k i).modLink k fun x => { x with badHdr := x.badHdr.filter fun e => e.1 != i }
  if (s.klLanes k).testBit i then s1.lanesLost k (s.klLanes k - 2 ^ i) 1 true else s1

/-- The invalid headers of lane `i` in the last 64 blocks, 330 ticks (R253). -/
def KLink.recent (x : KLink) (now i : Nat) : Nat := (x.badHdr.filter fun e => e.1 == i && decide (now < e.2 + 330)).length

/-- Lane `i` of link `k` receives `n` blocks with an invalid sync header or of an undefined type (R253): each is counted, and 32 among
64 blocks end its block lock. -/
def State.hdrErrs (s : State) (k i n : Nat) : State :=
  let s1 := (s.bumpBy (A.klLnHdrErr k i) n).modLink k fun x =>
    { x with badHdr := (x.badHdr.filter fun e => decide (s.tm.now < e.2 + 330)) ++ List.replicate n (i, s.tm.now) }
  if 32 ≤ (s1.link k).recent s.tm.now i && s1.on (A.klLnSts k i) F.klLnSts.blockLock then s1.laneGone k i else s1

/-- LANE_LOCK_LOSS (R253, R276): the lane loses CDR lock (`hdrs` = 0), or receives `hdrs` blocks with an invalid header, whatever they
carry. Fewer than 32 of them among 64 blocks cost no lock, and are only counted. -/
def execLaneLockLoss (k : Link) (i : KLane) (hdrs : Nat) (s : State) : Res :=
  onlyIf (s.klUp k && (s.klLanes k).testBit i) s (if hdrs = 0 then s.laneGone k i else s.hdrErrs k i hdrs)

/-- LANE_REJOIN (R276). -/
def execLaneRejoin (k : Link) (i : KLane) (pol : Bool) (s : State) : Res :=
  let m := s.klLanes k + 2 ^ i.val
  let s1 := (s.lanesLock k (2 ^ i.val)).lanesAdapt k (2 ^ i.val) (b2n pol * 2 ^ i.val)
  onlyIf (s.klUp k && s.on (A.klLnSts k i) F.klLnSts.retraining && !(s.klLanes k).testBit i) s
    (((s1.setLanes k m).setKlState k (if m = 15 then 2 else 3)).control k 3 0)

/-- FILLER_ROW_SEND (R256): a row lasts 5.15625 = 165/32 ticks. -/
def execFillerRowSend (k : Link) (s : State) : Res :=
  onlyIf (s.klUp k && decide (s.fld (A.klFill k) F.klFill.period * 165 ≤ (s.tm.now - (s.link k).fillAt) * 32)) s
    ((s.modLink k fun x => { x with fillAt := s.tm.now }).send (.filler k (s.klLanes k)))

/-- FILLER_ROW_RECEIVE (R256): at most one action per 2,048 rows (10,560 ticks). -/
def execFillerRowReceive (k : Link) (depth : Nat) (s : State) : Res :=
  let s1 := s.modLink k fun x => { x with actAt := s.tm.now }
  let s2 := if 4 ≤ depth then s1.bump (A.klFillDelCnt k) else if depth ≤ 2 then s1.bump (A.klFillInsCnt k) else s
  onlyIf (s.klUp k && decide ((s.link k).actAt + 10560 ≤ s.tm.now)) s s2

/-- A write of KL_FILL: a period outside 64–1,024 is discarded. -/
def State.writeKlFill (s : State) (src : Req) (k : Nat) (w : Word) : WRes :=
  let n := getF w F.klFill.period
  s.write src spec_klFill (A.klFill k) w (if n < 64 || 1024 < n then some .accessErr else none) id

/-- A write of KL_LN_CTL acts on the generator, the checker or the block alignment (R251, R252). -/
def State.testWrite (s : State) (k i : Nat) (w : Word) : Bool :=
  let v := s.reg (A.klLnCtl k i)
  getF w F.klLnCtl.bitSlip == 1 || getF w F.klLnCtl.genEn != getF v F.klLnCtl.genEn ||
    getF w F.klLnCtl.chkEn != getF v F.klLnCtl.chkEn || getF w F.klLnCtl.swLock != getF v F.klLnCtl.swLock

/-- The PRBS test of lane `i`. -/
def State.laneTest (s : State) (k i : Nat) : LaneTest := (s.link k).tests.getD i {}

/-- Applies `f` to the PRBS test of lane `i`, while the link is in TEST. -/
def State.modTest (s : State) (k i : Nat) (f : LaneTest → LaneTest) : State :=
  if s.klState k = 7 then
    s.modLink k fun x =>
      let l := x.tests ++ List.replicate (4 - x.tests.length) ({} : LaneTest)
      { x with tests := l.set i (f (l.getD i {})) }
  else s

/-- What a write of KL_LN_CTL, before `v`, does to the test and the equaliser: a generator that is turned on starts anew, a checker has
no lock at first, and EQ_FREEZE holds the present values `eq` (R250, R251). -/
def State.testModes (s : State) (k i : Nat) (v eq : Word) : State :=
  let w := s.reg (A.klLnCtl k i)
  let rise := fun (f : Fld) => getF w f == 1 && getF v f == 0
  let s1 := if rise F.klLnCtl.genEn then s.modTest k i fun x => { x with gen := Config.prbsSeed (4 * k + i) } else s
  let s2 := if getF w F.klLnCtl.chkEn != getF v F.klLnCtl.chkEn then
      (s1.modTest k i fun x => { x with chk := 0, fit := 0 }).setFld (A.klLnSts k i) F.klLnSts.prbsLock 0
    else s1
  if rise F.klLnCtl.eqFreeze then s2.setReg (A.klLnEq k i) eq else s2

/-- The next bit of a pseudo-random sequence after those of a register, newest lowest: PRBS7, 15, 23 or 31 (R251). The polynomials
of ITU-T O.150 and its inversion of the longer three are PRESUMED (log entry 176). -/
def prbsBit (kind : Nat) (r : BitVec 31) : Bool :=
  match kind with
  | 0 => xor (r.getLsbD 6) (r.getLsbD 5)
  | 1 => !xor (r.getLsbD 14) (r.getLsbD 13)
  | 2 => !xor (r.getLsbD 22) (r.getLsbD 17)
  | _ => !xor (r.getLsbD 30) (r.getLsbD 27)

/-- A bit enters a register. -/
def shiftIn (r : BitVec 31) (b : Bool) : BitVec 31 := (r <<< 1) ||| BitVec.ofNat 31 (b2n b)

/-- `n` bits of a generator: its register after them, and the bits, first lowest. -/
def prbsRun (kind : Nat) : Nat → BitVec 31 → Nat → BitVec 64 → BitVec 31 × BitVec 64
  | 0, r, _, w => (r, w)
  | n + 1, r, i, w =>
    let b := prbsBit kind r
    prbsRun kind n (shiftIn r b) (i + 1) (w ||| BitVec.ofNat 64 (b2n b * 2 ^ i))

/-- The checker takes `n` bits of `w` from bit `i` on: it follows the received bits until enough fit, and from then on its own sequence,
which it compares with them (R251). The third component counts errors. -/
def prbsCheck (kind : Nat) (w : BitVec 64) : Nat → Nat → BitVec 31 → Nat → Nat → BitVec 31 × Nat × Nat
  | 0, _, r, fit, errs => (r, fit, errs)
  | n + 1, i, r, fit, errs =>
    let b := w.getLsbD i
    let p := prbsBit kind r
    if Config.prbsFit ≤ fit then prbsCheck kind w n (i + 1) (shiftIn r p) fit (errs + b2n (b != p))
    else prbsCheck kind w n (i + 1) (shiftIn r b) (if b = p then fit + 1 else 0) errs

/-- The generator of lane `i` sends 64 bits, with the errors that INJECT and INJ_RATE ask for (R251). -/
def State.prbsSend (s : State) (k i : Nat) : State :=
  let c := s.reg (A.klLnCtl k i)
  let x := s.laneTest k i
  if getF c F.klLnCtl.genEn = 0 then s.modTest k i fun x => { x with tx := 0 }
  else
    let g := prbsRun (getF c F.klLnCtl.prbs) 64 x.gen 0 0
    let rate := getF c F.klLnCtl.injRate
    let gap := 10 ^ (rate + 3)
    let hit := rate != 0 && decide (gap ≤ x.sent + 64)
    let w1 := if 0 < x.inj then g.2 ^^^ BitVec.ofNat 64 (2 ^ ((Config.injectAt i 1).2 % 64)) else g.2
    let w2 := if hit then w1 ^^^ BitVec.ofNat 64 (2 ^ (gap - 1 - x.sent)) else w1
    let sent := if rate = 0 then 0 else if hit then x.sent + 64 - gap else x.sent + 64
    s.modTest k i fun x => { x with gen := g.1, tx := w2, inj := x.inj - 1, sent := sent }

/-- The checker of lane `i` takes 64 bits and counts their errors (R251). -/
def State.prbsTake (s : State) (k i : Nat) : State :=
  let c := s.reg (A.klLnCtl k i)
  let x := s.laneTest k i
  if getF c F.klLnCtl.chkEn = 0 then s
  else
    let r := prbsCheck (getF c F.klLnCtl.prbs) (Config.laneRx s.tm.now (4 * k + i)) 64 0 x.chk x.fit 0
    ((s.modTest k i fun x => { x with chk := r.1, fit := r.2.1 }).setFld (A.klLnSts k i) F.klLnSts.prbsLock
      (b2n (decide (Config.prbsFit ≤ r.2.1)))).bumpBy (A.klLnPrbsErr k i) r.2.2

/-- What every fifth tick brings to a link in TEST. -/
def State.prbsTick (s : State) (k : Nat) : State :=
  if s.klState k = 7 ∧ s.tm.now % 5 = 0 then (List.range 4).foldl (fun s i => (s.prbsSend k i).prbsTake k i) s else s

/-- A write of KL_LN_CTL. INJECT corrupts the next message of a lane that carries rows (R251); in TEST it makes one PRBS
error; on another lane it inverts a bit of a block that carries no message. -/
def State.writeKlLn (s : State) (src : Req) (k i : Nat) (w : Word) : WRes :=
  let deny := if s.testWrite k i w && s.klState k != 7 then some Refuse.accessErr else none
  s.write src spec_klLnCtl (A.klLnCtl k i) w deny fun s1 =>
    let hits := getF w F.klLnCtl.inject = 1 && s1.klUp k && (s1.klLanes k).testBit i
    let s2 := if hits then s1.modLink k fun x => { x with inject := x.inject ++ [i] }
      else if getF w F.klLnCtl.inject = 1 then s1.modTest k i fun x => { x with inj := x.inj + 1 } else s1
    let s2 := s2.testModes k i (s.reg (A.klLnCtl k i)) (s.klLnEqView k i)
    if getF w F.klLnCtl.bitSlip = 1 && s2.on (A.klLnCtl k i) F.klLnCtl.swLock then
      s2.modLink k fun x =>
        let l := x.slips ++ List.replicate (4 - x.slips.length) 0
        { x with slips := l.set i ((l.getD i 0 + 1) % 66) }
    else s2

/-- PRBS_INJECT (R251). -/
def execPrbsInject (k : Link) (i : KLane) (w : Word) (s : State) : Res :=
  done (State.hostWrite (s.writeKlLn .host k i (putF w F.klLnCtl.inject 1)) (A.klLnCtl k i))

/-- BIT_SLIP (R252). -/
def execBitSlip (k : Link) (i : KLane) (w : Word) (s : State) : Res :=
  done (State.hostWrite (s.writeKlLn .host k i (putF w F.klLnCtl.bitSlip 1)) (A.klLnCtl k i))

/-! ## The receiving side (R263–R272) -/

/-- Bits `lo + n − 1 … lo` of a block. -/
def blkF (b : Block) (lo n : Nat) : Nat := b.toNat / 2 ^ lo % 2 ^ n

/-- The block types that R255 defines. -/
def blockType (n : Nat) : Bool := [0x1E, 0x2D, 0x33, 0x4B, 0x55, 0x66, 0x78].contains n

/-- The lane on which a message's first block arrives: one of the active lanes, which one only the part knows. -/
def State.rxLane (s : State) (k : Nat) : Nat :=
  let ls := (List.range 4).filter fun i => (s.klLanes k).testBit i
  ls.getD (Config.rxLane s.tm.now k % ls.length) 0

/-- A block of no defined type counts as an invalid header of its lane (R253, R255). -/
def State.badBlock (s : State) (k : Nat) (b : Block) : State := if blockType (blkF b 0 8) then s else s.hdrErrs k (s.rxLane k) 1

/-- A message whose check fails is discarded, counted and asked for again (R263, R264). While one is awaited, only a failure of that
one is a further failure of the same message (R270). -/
def State.rxBad (s : State) (k cnt : Nat) (h : Block) : State :=
  let same := !(s.link k).naked || blkF h 8 8 == (s.link k).rxSeq
  let s1 := ((s.badBlock k h).bump cnt).modLink k fun x => { x with naked := true, rxFails := x.rxFails + b2n same }
  s1.control k 2 (s1.link k).rxSeq

/-- The gap that an accepted alive value shows (R265, R270). -/
def aliveGap (last : Option Nat) (alive : Nat) : Nat :=
  match last with
  | some l => if l = alive then 0 else (alive + 255 - l) % 256
  | none => 0

/-- A message whose check passes: its place in sequence, its alive counter and its acknowledgement (R263, R265). Tells
whether it is accepted. -/
def State.rxGood (s : State) (k st : Nat) (h : Block) : State × Bool :=
  let x := s.link k
  let lseq := blkF h 8 8
  let alive := blkF h 16 8
  if x.naked && lseq != x.rxSeq then (s, false)
  else
    let s1 := (s.notIdle k).modLink k fun x => { x with naked := false, rxFails := 0, rxSeq := (lseq + 1) % 256 }
    let s2 := s1.control k 1 lseq
    let last := x.rxAlive.getD st none
    let fresh := x.freshRx.contains st
    if last = some alive && !fresh then (s2.bump (A.klDupCnt k), false)
    else
      (((s2.bumpBy (A.klGapCnt k) (aliveGap last alive)).modLink k fun x =>
        { x with rxAlive := (x.rxAlive ++ List.replicate (6 - x.rxAlive.length) none).set st (some alive),
                 freshRx := x.freshRx.erase st }), true)

/-- A message arrives on link `k`: checked, and accepted or not. -/
def State.receive (s : State) (k st cnt : Nat) (h : Block) (ok : Bool) : State × Bool :=
  if !s.klUp k then (s, false)
  else if ok then s.rxGood k st h
  else (s.rxBad k cnt h, false)

/-- The DT that agrees with 32 bits of it and lies nearest to the present one (R266). -/
def State.wholeDT (s : State) (lo : Nat) : Nat :=
  (s.tm.dt + (BitVec.ofInt 64 (sext 32 ((lo + 2 ^ 32 - s.DT % 2 ^ 32) % 2 ^ 32)))).toNat

/-- KL_MARGIN of link `k` (R274). -/
def State.klMargin (s : State) (k : Nat) (m : Int) : State :=
  let v := clampI (-32768) 32767 m
  if v < sext 16 (s.fld (A.klMargin k) F.klMargin.minMargin) then
    s.setFld (A.klMargin k) F.klMargin.minMargin (toW v).toNat
  else s

/-- An accepted decision message is delivered and forwarded (R245, R272). -/
def State.takeDecision (s : State) (k : Nat) (b0 b1 : Block) : State :=
  let use := s.wholeDT (blkF b1 0 32)
  let mask := blkF b1 32 16
  let src := blkF b0 24 4
  let slot := blkF b0 32 9
  let own := mask.testBit s.devNum
  let s1 := s.bump (A.klRxDecCnt k)
  let s2 := if own then (s1.klMargin k ((use : Int) - 60 - s.DT)).remoteArrive src slot (blkF b0 41 2) (blkF b0 48 8)
      (blkF b0 56 8) use
    else s1
  s2.sendDecision src (blkF b0 28 2 + 1) slot (blkF b0 41 2) (blkF b0 48 8) (blkF b0 56 8) use
    (if own then mask - 2 ^ s.devNum else mask)

/-- DECISION_MSG_RECEIVE (R245). -/
def execDecisionMsgReceive (k : Link) (b0 b1 : Block) (s : State) : Res :=
  let r := s.receive k 0 (A.klDecCrcCnt k) b0 (blkF b0 0 8 == 0x1E && blkF b1 48 16 == crcDecision b0 b1)
  done (if r.2 then r.1.takeDecision k b0 b1 else r.1)

/-- A bulk message as it should be: type, length and check (R264, R268). -/
def bulkOk (h : Block) (payload : List Block) (tr : Block) (kind : Nat) : Bool :=
  blkF h 0 8 == 0x2D && blkF h 24 2 == kind && blkF h 32 8 == payload.length && payload.length != 0 &&
    decide (payload.length ≤ 32) && blkF tr 0 32 == crcBulk h payload

/-- A bulk message of a kind arrives: checked, and forwarded where it is for another device (R272). Tells whether it is
for this one. -/
def State.receiveBulk (s : State) (k kind : Nat) (h : Block) (payload : List Block) (tr : Block) : State × Bool :=
  let r := s.receive k (2 + kind) (A.klBulkCrcCnt k) h (bulkOk h payload tr kind)
  if !r.2 then r
  else if blkF h 44 4 = s.devNum then r
  else (r.1.sendBulk kind (blkF h 40 4) (blkF h 44 4) (blkF h 48 4 + 1) payload, false)

/-- MGMT_MSG (R268): management traffic; one that completes a re-mirror sets SYNCED (R288). -/
def execMgmtMsg (k : Link) (h : Block) (payload : List Block) (tr : Block) (s : State) : Res :=
  let r := s.receiveBulk k 0 h payload tr
  done (if r.2 && s.isStandby && s.allStopped && Config.remirrorDone payload then
      r.1.setFld A.klPairSts F.klPairSts.synced 1 else r.1)

/-- A link-control block that fails its check is discarded (R264). -/
def State.controlIn (s : State) (k kind : Nat) (b : Block) (f : State → State) : State :=
  if blkF b 0 8 == 0x66 && blkF b 8 8 == kind && blkF b 48 16 == crcControl b then f s
  else (s.badBlock k b).bump (A.klDecCrcCnt k)

/-- The entries of a replay buffer behind the one with `lseq`; all of them where it is not held. -/
def ackList (lseq : Nat) (l : List (Nat × List Block)) : List (Nat × List Block) :=
  if l.any fun e => e.1 == lseq then (l.dropWhile fun e => e.1 != lseq).tail else l

/-- LINK_ACK (R263). -/
def execLinkAck (k : Link) (b : Block) (s : State) : Res :=
  onlyIf (s.klUp k) s (s.controlIn k 1 b fun s =>
    let s1 := s.modLink k fun x =>
      let r := ackList (blkF b 16 8) x.replay
      if r.length < x.replay.length then { x with replay := r, txNak := none, txFails := 0 } else x
    s1.pump k (s1.link k).wait.length)

/-- LINK_NAK (R263). -/
def execLinkNak (k : Link) (b : Block) (s : State) : Res :=
  onlyIf (s.klUp k) s (s.controlIn k 2 b fun s =>
    let n := blkF b 16 8
    let s1 := s.modLink k fun x =>
      { x with txNak := some n, txFails := if x.txNak = some n then x.txFails + 1 else 1 }
    s1.replayFrom k ((s1.link k).replay.dropWhile fun e => e.1 != n))

/-- REPLAY_FAILURE (R270): one message has failed four consecutive times. -/
def execReplayFailure (k : Link) (s : State) : Res :=
  onlyIf (s.klUp k && (decide (4 ≤ (s.link k).rxFails) || decide (4 ≤ (s.link k).txFails))) s (s.linkFails k 8)

/-- LANE_MAP (R276): both directions use the lanes of the map. -/
def execLaneMap (k : Link) (b : Block) (s : State) : Res :=
  onlyIf (s.klUp k) s (s.controlIn k 3 b fun s =>
    let m := blkF b 24 4
    let gone := (List.range 4).filter fun i => (s.klLanes k).testBit i && !m.testBit i
    let s1 := gone.foldl (fun s i => s.laneRetrains k i) (s.lanesLock k (m - (m &&& s.klLanes k)))
    if gone = [] then (s1.setLanes k m).setKlState k (if m = 15 then 2 else 3)
    else s1.lanesLost k m gone.length false)

/-! ## Idle (R261) -/

/-- Plot `p` has its next start fixed at least 2,000 ticks ahead. -/
def State.startFar (s : State) (p : Nat) : Bool :=
  !s.stopped p && (match (s.sched p).fixed with | some f => decide (s.DT + 2000 ≤ f.start) | none => false)

/-- The conditions of R261 for entering IDLE_LP, but for the partner's agreement. -/
def State.idleOk (s : State) (k : Nat) : Bool :=
  s.klUp k && s.on (A.klCtl k) F.klCtl.idleEn && decide ((s.link k).msgAt + 10 * usTicks ≤ s.tm.now) && !s.isPairLink k &&
    (List.range 8).all fun p => !s.plotDefined p || s.startFar p

/-- Link `k` enters IDLE_LP: its lanes are in electrical idle, and `good` names those that were active (R254, R261). -/
def State.enterIdle (s : State) (k : Nat) : State :=
  ((s.modLink k fun x => { x with good := s.klLanes k }).lanesOff k).setKlState k 4

/-- IDLE_REQ (R261): the partner asks; the link agrees where its own conditions hold. -/
def execIdleReq (k : Link) (b : Block) (s : State) : Res :=
  onlyIf (s.klUp k) s (s.controlIn k 4 b fun s => if s.idleOk k then (s.control k 5 0).enterIdle k else s)

/-- IDLE_ACK (R261): the partner agrees. -/
def execIdleAck (k : Link) (b : Block) (s : State) : Res :=
  onlyIf (s.klUp k) s (s.controlIn k 5 b fun s => if s.idleOk k then s.enterIdle k else s)

/-- The link asks its partner for IDLE_LP once its conditions hold (R261). -/
def State.idleAsk (s : State) (k : Nat) : State :=
  if s.idleOk k && !(s.link k).asked then (s.control k 4 0).modLink k fun x => { x with asked := true } else s

/-- A time-transfer exchange is due (R278). -/
def State.ttDue (s : State) : Bool :=
  s.on A.klTtCfg F.klTtCfg.en && !s.on A.klTtCfg F.klTtCfg.role &&
    decide (s.ttx.sentAt + s.fld A.klTtCfg F.klTtCfg.periodUs * usTicks ≤ s.tm.now)

/-- A start of plot `p` lies within 1,000 ticks. -/
def State.startNear (s : State) (p : Nat) : Bool :=
  (match (s.sched p).fixed with | some f => decide (f.start ≤ s.DT + 1000) | none => false) ||
    (match s.current p with | some h => !h.started && decide (h.start ≤ s.DT + 1000) | none => false)

/-- IDLE_LP_EXIT (R261). -/
def execIdleLpExit (k : Link) (relocked : BitVec 4) (burst : Bool) (s : State) : Res :=
  let m := (s.link k).good &&& relocked.toNat
  onlyIf (s.klState k == 4 && ((s.link k).wait != [] || (s.ttDue && s.fld A.klTtCfg F.klTtCfg.uplink == k.val) || burst ||
      (List.range 8).any s.startNear)) s
    (if laneCount m < 2 then (s.restRetrain k m).attempt k 1 false else ((s.lanesLock k m).restRetrain k m).linkUp k m)

/-! ## Time transfer (R277–R281) -/

/-- DT_STS.ALIGNED. -/
def State.ttAligned (s : State) : Bool := s.on A.dtSts F.dtSts.aligned

/-- A field of KL_TT_STS sets. -/
def State.ttSet (s : State) (f : Fld) : State := s.raise A.klTtSts f 1

/-- KL_TT_STS as read: STATE follows from the enable, the uplink and the alignment (R280). -/
def State.ttStsView (s : State) : Word :=
  let st := if !s.on A.klTtCfg F.klTtCfg.en then 0
    else if !s.on A.klTtCfg F.klTtCfg.role && !s.klUp (s.fld A.klTtCfg F.klTtCfg.uplink) then 3
    else if s.ttAligned then 2 else 1
  putF (s.reg A.klTtSts) F.klTtSts.state st

/-- A write of KL_TT_CFG. A device that takes a role begins in it: the root at DEPTH 0, a follower unaligned and at no known depth
(R277). -/
def State.writeTtCfg (s : State) (src : Req) (w : Word) : WRes :=
  let deny := if 10 < getF w F.klTtCfg.avg || getF w F.klTtCfg.periodUs = 0 then some Refuse.accessErr else none
  s.write src spec_klTtCfg A.klTtCfg w deny fun s1 =>
    let was := s.on A.klTtCfg F.klTtCfg.en
    let now := s1.on A.klTtCfg F.klTtCfg.en
    let root := s1.on A.klTtCfg F.klTtCfg.role
    if now && (!was || root != s.on A.klTtCfg F.klTtCfg.role) then
      let s2 : State := { s1 with ttx := { s1.ttx with out := none, n := 0, sum := 0, sentAt := s.tm.now } }
      if root then (s2.setFld A.dtSts F.dtSts.aligned 1).setFld A.klTtSts F.klTtSts.depth 0
      else (s2.setFld A.dtSts F.dtSts.aligned 0).setFld A.klTtSts F.klTtSts.depth 7
    else if was && !now then (s1.setFld A.dtSts F.dtSts.aligned 0).setFld A.klTtSts F.klTtSts.depth 7
    else s1

/-- DT[47:0] with a fraction, in units of 1/256 tick. -/
def stamp48 (dt frac : Nat) : Nat := dt % 2 ^ 48 * 256 + frac

/-- A block boundary of a time-transfer message of link `k` is an edge of a TIU input (R278, R393): 18 + k where it arrives, 26 + k where
it leaves. -/
def State.ttEdge (s : State) (i : Nat) (frac : Byte) : State := s.tiuIn i { level := true, frac := frac }

/-- The boundaries of the responses that leave in the present tick. -/
def State.ttEdgesTick (s : State) : State :=
  (s.ttx.edges.filter fun e => decide (e.1 ≤ s.tm.now)).foldl (fun s e => s.ttEdge (26 + e.2.1) e.2.2)
    { s with ttx := { s.ttx with edges := s.ttx.edges.filter fun e => decide (s.tm.now < e.1) } }

/-- TT_REQUEST_SEND (R278): every PERIOD_US. -/
def execTtRequestSend (frac : Byte) (s : State) : Res :=
  let k := s.fld A.klTtCfg F.klTtCfg.uplink
  let n := (s.ttx.tseq + 1) % 256
  let s1 : State := { s with ttx := { s.ttx with tseq := n, out := some (n, stamp48 s.DT frac.toNat), sentAt := s.tm.now } }
  onlyIf (s.ttDue && s.klUp k) s
    ((s1.post k (.tt 0 frac.toNat 0 n (s.fld A.klTtSts F.klTtSts.depth) s.ttAligned s.DT 0)).ttEdge (26 + k) frac)

/-- The signed difference of two 56-bit stamps. -/
def stampDiff (a b : Nat) : Int := sext 56 ((a + 2 ^ 56 - b) % 2 ^ 56)

/-- KL_TT_ERR of an average, in 1.5625 ps. -/
def ttErrWord (th : Int) : Word :=
  if -32768 ≤ th ∧ th ≤ 32767 then BitVec.ofInt 32 (th % 65536) else (Config.ttErr th).zeroExtend 32

/-- Initial alignment (R279). -/
def State.ttAlign (s : State) (th : Int) : State :=
  if !s.allStopped then s.ttSet F.klTtSts.stepRefused
  else
    let n := (128 - th) / 256
    let s1 := s.setDT (s.tm.dt + BitVec.ofInt 64 n)
    ((s1.setFld A.klTtTrim F.klTtTrim.trim (toW (-th - 256 * n)).toNat).setFld A.dtSts F.dtSts.aligned 1).setFld A.dtSts
      F.dtSts.source 2

/-- Plot `p` is STOPPED, or in a usable gap (R54). -/
def State.usable (s : State) (p : Nat) : Bool :=
  s.stopped p || (s.runState p != 1 && (s.current p).isNone)

/-- The follower tracks its offset: it is enabled and aligned, and its uplink is UP or DEGRADED (R280). -/
def State.ttTracks (s : State) : Bool :=
  s.on A.klTtCfg F.klTtCfg.en && !s.on A.klTtCfg F.klTtCfg.role && s.on A.dtSts F.dtSts.aligned &&
    s.klUp (s.fld A.klTtCfg F.klTtCfg.uplink)

/-- The TRIM step asked for is taken in a tick in which every plot is STOPPED or in a usable gap (R280). -/
def State.ttStep (s : State) : State :=
  if s.ttx.step = 0 ∨ !s.ttTracks ∨ !(List.range 8).all s.usable then s
  else
    let v := sext 9 (s.fld A.klTtTrim F.klTtTrim.trim) + s.ttx.step
    let s1 : State := { s with ttx := { s.ttx with step := 0 } }
    s1.setFld A.klTtTrim F.klTtTrim.trim (toW (clampI (-128) 127 v)).toNat

/-- Tracking after alignment (R280): θ is x ÷ 50n in units of 1.5625 ps; 200 ps are 128 units, 3.0 ps 1.92. -/
def State.ttTrack (s : State) (x : Int) (n : Nat) : State :=
  let ask := fun (i : Int) => ({ s with ttx := { s.ttx with step := i } } : State)
  if 6400 * n < x.natAbs then (((ask 0).ttSet F.klTtSts.alignLost).setFld A.dtSts F.dtSts.aligned 0).fire 1364
  else if x.natAbs ≤ 96 * n then ask 0
  else (ask (if 0 < x then -1 else 1)).ttStep

/-- An average of 2^AVG exchanges is complete (R278): θ in 1.5625 ps. -/
def State.ttAverage (s : State) : State :=
  let n := s.ttx.n
  let x := s.ttx.sum * 25 - n * (sext 16 (s.fld A.klTtAsym F.klTtAsym.asym) * 16)
  let th := roundDiv x (50 * n)
  let s1 : State := { s with ttx := { s.ttx with n := 0, sum := 0 } }
  let s2 := s1.setReg A.klTtErr (ttErrWord th)
  if s2.ttAligned then s2.ttTrack x n else s2.ttAlign th

/-- A response completes an exchange (R277, R278). -/
def State.ttResponse (s : State) (b0 b1 b2 : Block) (frac t1 : Nat) : State :=
  let s0 : State := { s with ttx := { s.ttx with out := none } }
  let depth := blkF b0 56 4
  if 3 ≤ depth && (depth != 7 || blkF b0 60 1 = 1) then (s0.ttSet F.klTtSts.uplinkRefused).fire 1364
  else if blkF b0 60 1 = 0 then s0.ttSet F.klTtSts.uplinkRefused
  else
    let x := stampDiff (stamp48 (blkF b1 0 48) (blkF b0 32 8)) t1
      - stampDiff (stamp48 s.DT frac) (stamp48 (blkF b2 0 48) (blkF b0 40 8))
    let s1 := s0.setFld A.klTtSts F.klTtSts.depth (depth + 1)
    let s2 : State := { s1 with ttx := { s1.ttx with n := s1.ttx.n + 1, sum := s1.ttx.sum + x } }
    if s2.ttx.n < 2 ^ s.fld A.klTtCfg F.klTtCfg.avg then s2 else s2.ttAverage

/-- TT_MSG_RECEIVE (R278): a request is answered with departure stamp t₃, 64 rows (330 ticks) ahead; a response
completes an exchange. -/
def execTtMsgReceive (k : Link) (b0 b1 b2 : Block) (frac frac3 : Byte) (s : State) : Res :=
  let r := s.receive k 1 (A.klDecCrcCnt k) b0 (blkF b0 0 8 == 0x33 && blkF b2 48 16 == crcTt b0 b1 b2)
  let s1 := if r.2 then r.1.ttEdge (18 + k) frac else r.1
  if !r.2 then done s1
  else if blkF b0 24 1 = 0 then
    let s2 : State := { s1 with ttx := { s1.ttx with edges := s1.ttx.edges ++ [(s1.tm.now + 330, k.val, frac3)] } }
    done (s2.post k (.tt 1 frac.toNat frac3.toNat (blkF b0 48 8) (s1.fld A.klTtSts F.klTtSts.depth) s1.ttAligned s1.DT
      (s1.DT + 330)))
  else
    match s1.ttx.out with
    | some (n, t1) =>
      onlyIf (s1.on A.klTtCfg F.klTtCfg.en && !s1.on A.klTtCfg F.klTtCfg.role &&
          s1.fld A.klTtCfg F.klTtCfg.uplink == k.val && n == blkF b0 48 8) s1 (s1.ttResponse b0 b1 b2 frac.toNat t1)
    | none => done s1

/-! ## Identity, routes and forwarding entries (R273, R289, R290) -/

/-- The plots whose exported slots name route `i`. -/
def State.routeUsed (s : State) (i p : Nat) : Bool :=
  (List.range 320).any fun n => s.on (A.exp n) F.exp.en && s.fld (A.exp n) F.exp.route == i && s.slotPlot n == some p

/-- The plots that use the forwarding entry of device `d`: over a route, or coordinated with it. -/
def State.fwdUsed (s : State) (d p : Nat) : Bool :=
  ((List.range 16).any fun i => (s.fld (A.klRouteA i) F.klRouteA.destMask).testBit d && s.routeUsed i p) ||
    (s.on (A.klCoord p) F.klCoord.en && (s.fld (A.klCoord p) F.klCoord.devMask).testBit d)

/-- The plots that use the device's identity: they export, import or are coordinated. -/
def State.idUsed (s : State) (p : Nat) : Bool :=
  ((List.range 320).any fun n => s.on (A.exp n) F.exp.en && s.slotPlot n == some p) ||
    ((List.range 192).any fun r => s.on (A.rmCfg r) F.rmCfg.en && s.fld (A.rmCfg r) F.rmCfg.plot == p) ||
    s.on (A.klCoord p) F.klCoord.en

/-- A write outside an image is discarded while a plot that uses the entry is not STOPPED (R290). -/
def State.useBusy (s : State) (src : Req) (used : Nat → Bool) : Option Refuse :=
  if src != .mgmt && (List.range 8).any fun p => used p && !s.stopped p then some .memBusy else none

/-- Captures the first refused entry (KL_CHK); VALID is W1C (R11). -/
def State.klChk (s : State) (kind cause index : Nat) : State :=
  if s.on A.klChk F.klChk.valid then s
  else (s.setReg A.klChk (BitVec.ofNat 32 (2 ^ 31 + kind * 2 ^ 20 + cause * 2 ^ 16 + index))).note A.klChk F.klChk.valid 1

/-- The cause for which route `i` is refused (R273, R289); 0 where it is not. -/
def State.routeCause (s : State) (i : Nat) : Nat :=
  let m := s.fld (A.klRouteA i) F.klRouteA.destMask
  if s.standbyPair then 4
  else if m = 0 then 1
  else if m.testBit s.devNum then 2
  else if (List.range 16).any fun d => m.testBit d && !s.on (A.klFwd d) F.klFwd.en then 3
  else 0

/-- A write of KL_ROUTE_A[i]. -/
def State.writeRouteA (s : State) (src : Req) (i : Nat) (w : Word) : WRes :=
  s.write src spec_klRouteA (A.klRouteA i) w (s.useBusy src (s.routeUsed i)) fun s1 => s1.checkSet (s.locked src) fun s1 =>
    if s1.on (A.klRouteA i) F.klRouteA.en && s1.routeCause i != 0 then
      (s1.setFld (A.klRouteA i) F.klRouteA.en 0).klChk 0 (s1.routeCause i) i
    else s1

/-- A write of KL_ROUTE_B[i]. -/
def State.writeRouteB (s : State) (src : Req) (i : Nat) (w : Word) : WRes :=
  s.write src spec_klRouteB (A.klRouteB i) w (s.useBusy src (s.routeUsed i)) id

/-- A write of KL_ID. -/
def State.writeKlId (s : State) (src : Req) (w : Word) : WRes :=
  s.write src spec_klId A.klId w (s.useBusy src s.idUsed) id

/-- ROUTE_WRITE (R273). -/
def execRouteWrite (i : Fin 16) (w : Word) (s : State) : Res :=
  done (State.hostWrite (s.writeRouteA .host i w) (A.klRouteA i))

/-- A write of KL_FWD[d]. -/
def State.writeFwd (s : State) (src : Req) (d : Nat) (w : Word) : WRes :=
  s.write src spec_klFwd (A.klFwd d) w (s.useBusy src (s.fwdUsed d)) fun s1 => s1.checkSet (s.locked src) fun s1 =>
    if s1.on (A.klFwd d) F.klFwd.en && s1.standbyPair then (s1.setFld (A.klFwd d) F.klFwd.en 0).klChk 1 4 d else s1

/-- FWD_WRITE (R289). -/
def execFwdWrite (d : Fin 16) (w : Word) (s : State) : Res :=
  done (State.hostWrite (s.writeFwd .host d w) (A.klFwd d))

/-! ## Pairs (R282–R288) -/

/-- The role that the strap gives (R282): 0 none, 1 A, 2 B. -/
def State.pairRole (s : State) : Nat :=
  let r := s.fld A.klPairSts F.klPairSts.role
  if r = 3 then 0 else r

/-- KL_PAIR_STS.ACTIVE. -/
def State.pairActive (s : State) : Bool := s.on A.klPairSts F.klPairSts.active

/-- A field of KL_PAIR_STS sets. -/
def State.pairSet (s : State) (f : Fld) : State := s.raise A.klPairSts f 1

/-- ACTIVE changes: KL_TAKEOVER and the event (R285, R287). -/
def State.becomeActive (s : State) (b : Bool) : State :=
  ((s.setFld A.klPairSts F.klPairSts.active (b2n b)).setPair A.klTakeoverLo A.klTakeoverHi s.DT).fire
    (if b then 1361 else 1362)

/-- B asks to become active, or not, at the next shot boundary (R287). -/
def State.pairAsk (s : State) (b : Bool) : State :=
  { s with pair2 := { s.pair2 with change := some (b, s.tm.now) } }

/-- The pair is set up as KL_PAIR_CTL now says (R284). -/
def State.pairStart (s : State) : State :=
  let s0 : State := { s with pair2 := { s.pair2 with hbAt := s.tm.now, hbSent := s.tm.now, hbGone := false, change := none } }
  if !s.standbyPair then { s0 with pair2 := { s0.pair2 with drive := none } }
  else if s.pairRole = 2 then
    let b := s.on A.klPairCtl F.klPairCtl.bStartActive
    { s0.setFld A.klPairSts F.klPairSts.active (b2n b) with pair2 := { s0.pair2 with drive := some b } }
  else s0.setFld A.klPairSts F.klPairSts.active (b2n (!s.on A.klPairSts F.klPairSts.actNet))

/-- The pair ends. -/
def State.pairStop (s : State) : State :=
  { s.setFld A.klPairSts F.klPairSts.active 0 with pair2 := { s.pair2 with drive := none, change := none, mirrors := [] } }

/-- Some route or forwarding entry is enabled (R289). -/
def State.anyRoute (s : State) : Bool :=
  (List.range 16).any fun i => s.on (A.klRouteA i) F.klRouteA.en || s.on (A.klFwd i) F.klFwd.en

/-- Shutdown and the hard thermal trip have released the PAIR_ACT ball: the device takes no part in a takeover (R284). -/
def State.pairReleased (s : State) : Bool := s.shutAt.isSome || s.aon.tripped || s.aon.off

/-- TAKE_OVER and STAND_DOWN of a write of KL_PAIR_CTL (R287). -/
def State.pairCommands (s : State) (w : Word) : State :=
  if !s.standbyPair || s.pairRole != 2 || s.pairReleased then s
  else
    let s1 := if getF w F.klPairCtl.takeOver = 1 && s.on A.klPairSts F.klPairSts.synced && !s.pairActive then s.pairAsk true
      else s
    if getF w F.klPairCtl.standDown = 1 && s.pairActive then s1.pairAsk false else s1

/-- A write of KL_PAIR_CTL (R282, R289). -/
def State.writePair (s : State) (src : Req) (w : Word) : WRes :=
  let sets := getF w F.klPairCtl.en = 1
  let deny := if sets && (s.pairRole = 0 || (getF w F.klPairCtl.mode = 1 && s.anyRoute)) then some Refuse.accessErr
    else none
  s.write src spec_klPairCtl A.klPairCtl w deny fun s1 =>
    let was := s.on A.klPairCtl F.klPairCtl.en
    let now := s1.on A.klPairCtl F.klPairCtl.en
    let moved := s.standbyPair != s1.standbyPair
    let s2 := if now && (!was || moved) then s1.pairStart else if was && !now then s1.pairStop else s1
    s2.pairCommands w

/-- PAIR_ENABLE (R282). -/
def execPairEnable (w : Word) (s : State) : Res := done (State.hostWrite (s.writePair .host w) A.klPairCtl)

/-- TAKE_OVER (R287). -/
def execTakeOver (w : Word) (s : State) : Res :=
  done (State.hostWrite (s.writePair .host (putF w F.klPairCtl.takeOver 1)) A.klPairCtl)

/-- STAND_DOWN (R287). -/
def execStandDown (w : Word) (s : State) : Res :=
  done (State.hostWrite (s.writePair .host (putF w F.klPairCtl.standDown 1)) A.klPairCtl)

/-- HB_LOST (R286): no heartbeat for 10 µs. -/
def execHbLost (s : State) : Res :=
  let s0 : State := { s with pair2 := { s.pair2 with hbGone := true } }
  let s1 := ((s0.pairSet F.klPairSts.hbLost).setFld A.klPairSts F.klPairSts.hbOk 0).fire 1360
  onlyIf (s.on A.klPairCtl F.klPairCtl.en && !s.pair2.hbGone && decide (s.pair2.hbAt + 10 * usTicks ≤ s.tm.now)) s
    (if s.isStandby && s.pairRole = 2 && !s.pairReleased then
      if s.on A.klPairSts F.klPairSts.synced then s1.pairAsk true else s1.fire 1363
     else s1)

/-- Sends a bulk message directly on a pair link (R289). -/
def State.pairPost (s : State) (kind k : Nat) (pl : List Block) : State :=
  if s.klUp k then s.post k (.bulk kind s.devNum (s.fld (A.klSts k) F.klSts.partnerDev) 1 pl) else s

/-- HEARTBEAT_SEND (R286): every 1 µs, on every pair link. -/
def execHeartbeatSend (s : State) : Res :=
  let s1 : State := { s with pair2 := { s.pair2 with hbSent := s.tm.now } }
  let pl := Config.bulkPayload 3 [b2n s.pairActive, s.fld A.klPairSts F.klPairSts.synced, s.DT % 2 ^ 48]
  onlyIf (s.on A.klPairCtl F.klPairCtl.en && decide (s.pair2.hbSent + usTicks ≤ s.tm.now)) s
    ((List.range 8).foldl (fun s k => if s.isPairLink k then s.pairPost 3 k pl else s) s1)

/-- HEARTBEAT_MSG (R286): the active device learns from it whether its standby is SYNCED. -/
def execHeartbeatMsg (k : Link) (h : Block) (payload : List Block) (tr : Block) (active synced : Bool) (_dt : BitVec 48)
    (s : State) : Res :=
  let r := s.receiveBulk k 3 h payload tr
  let s1 : State := { r.1 with pair2 := { r.1.pair2 with hbAt := s.tm.now, hbGone := false } }
  let s2 := s1.pairSet F.klPairSts.hbOk
  done (if r.2 && s.isPairLink k then
      if s.pairActive && !active then s2.setFld A.klPairSts F.klPairSts.synced (b2n synced) else s2
    else r.1)

/-- No shot of a plot is under way: every plot is STOPPED or in a shot gap (R54, R287). -/
def State.noShot (s : State) : Bool :=
  (List.range 8).all fun p => match s.current p with | some h => !h.started | none => true

/-- The change of B takes effect (R287). -/
def State.pairChange (s : State) (b : Bool) : State :=
  let s1 := s.becomeActive b
  { s1 with pair2 := { s1.pair2 with change := none, drive := some b } }

/-- PAIR_CHANGE_EFFECT (R287). -/
def execPairChangeEffect (s : State) : Res :=
  match s.pair2.change with
  | some (b, _) => onlyIf (s.noShot && !s.pairReleased) s (s.pairChange b)
  | none => done s

/-- PAIR_CHANGE_TIMEOUT (R287): no shot boundary within 1 ms. -/
def execPairChangeTimeout (s : State) : Res :=
  match s.pair2.change with
  | some (b, since) =>
    onlyIf (decide (since + msTicks ≤ s.tm.now) && !s.pairReleased) s
      ((List.range 8).foldl (fun s p => s.flagNow p Flag.taint) (s.pairChange b))
  | none => done s

/-- PAIR_ACT_SENSE (R284, R285): device A follows the net. -/
def execPairActSense (level boundary : Bool) (s : State) : Res :=
  let s1 := s.setFld A.klPairSts F.klPairSts.actNet (b2n level)
  if !s.standbyPair || s.pairRole != 1 then done s1
  else if level then done (if s.pairActive then s1.becomeActive false else s1)
  else if s.pairActive then done s1
  else
    let s2 := s1.becomeActive true
    let s3 := if boundary then s2 else (List.range 8).foldl (fun s p => s.flagNow p Flag.taint) s2
    done (if s.on A.klPairSts F.klPairSts.synced then s3 else (s3.pairSet F.klPairSts.unsyncActive).fire 1363)

/-! ## Coordination (R283) -/

/-- Sends a coordination message of plot `p` to every partner. -/
def State.coordSend (s : State) (p : Nat) (pl : List Block) : State :=
  if s.standbyPair then
    match (List.range 8).find? fun k => s.isPairLink k && s.klUp k with
    | some k => s.pairPost 2 k pl
    | none => s
  else
    (List.range 16).foldl (fun s d =>
      if (s.fld (A.klCoord p) F.klCoord.devMask).testBit d then s.sendBulk 2 s.devNum d 1 pl else s) s

/-- Plot `p` raises a pause request: for its next gap, or, coordinated, for the gap after shot n + 2 and for every
partner (R55, R283). -/
def State.pauseRequest (s : State) (p : Nat) (r : PauseReq) : State :=
  let c := s.sched p
  if s.on (A.klCoord p) F.klCoord.en then
    let gap := s.reg (A.shotNum p) + 2
    (s.setSched p { c with coord := c.coord ++ [(gap, r)] }).coordSend p
      (Config.bulkPayload 2 [p, gap.toNat, r.ticks, r.flags.toNat])
  else s.setSched p { c with pauses := c.pauses ++ [r] }

/-- A coordination bit of plot `p` sets and COORD_ALERT fires. -/
def State.coordAlert (s : State) (p : Nat) (f : Fld) : State := (s.raise (A.klCoordSts p) f 1).fire 1365

/-- Compares NEXT_START with a partner's (R283). -/
def State.coordCheck (s : State) (p next : Nat) : State :=
  if s.pair (A.nextStartLo p) (A.nextStartHi p) = next then s else s.coordAlert p F.klCoordSts.mismatch

/-- The start that follows shot `gap` of plot `p` is fixed or has passed. -/
def State.gapPast (s : State) (p : Nat) (gap : Word) : Bool :=
  let n := s.reg (A.shotNum p)
  decide (0 < (n - gap).toInt) ||
    (n == gap && ((s.sched p).fixed.isSome || (match s.current p with | some h => !h.started | none => false)))

/-- The shot after shot `gap` of plot `p` is announced. -/
def State.announcedAfter (s : State) (p : Nat) (gap : Word) : Bool :=
  let n := s.reg (A.shotNum p)
  match s.current p with
  | some h => if h.started then n == gap + 1 else n == gap
  | none => n == gap + 1

/-- COORD_MSG (R283). -/
def execCoordMsg (k : Link) (h : Block) (payload : List Block) (tr : Block) (p : Plot) (check : Bool) (gap : Word)
    (ticks : Nat) (cal thr : Bool) (next : BitVec 64) (s : State) : Res :=
  let r := s.receiveBulk k 2 h payload tr
  let s1 := r.1
  let c := s1.sched p
  if !r.2 || !s1.on (A.klCoord p) F.klCoord.en then done s1
  else if check then
    done (if s1.announcedAfter p gap then s1.coordCheck p next.toNat
      else s1.setSched p { c with peerNext := c.peerNext ++ [(gap, next.toNat)] })
  else if s1.gapPast p gap then done (s1.coordAlert p F.klCoordSts.late)
  else
    let fl := (if cal then Flag.calInserted else 0) ||| (if thr then Flag.throttled else 0)
    done (s1.setSched p { c with coord := c.coord ++ [(gap, { ticks := ticks, flags := fl })] })

/-- KL_GSTS as read (R257). -/
def State.klGstsView (s : State) : Word :=
  (List.range 8).foldl (fun v k =>
    let st := s.klState k
    v ||| BitVec.ofNat 32 (b2n (st == 6) * 2 ^ (24 + k) + b2n (st == 3) * 2 ^ (16 + k) + b2n (s.klUp k) * 2 ^ (8 + k)))
    (s.reg A.klGsts)

end Sys2Proof.Machine
end

