-- ==== Sys2Proof/Machine/Readout.lean ====
section
/-! DEFINITION. The read-out block (R192–R224): windows, accumulation, discrimination, the two loops, records. -/

namespace Sys2Proof.Machine

/-! ## State of lanes and banks -/

/-- Lane `p` of tile `t`. -/
def State.lane (s : State) (t p : Nat) : LaneX := KMap.get {} s.lanes (8 * t + p)
/-- Writes a lane. -/
def State.setLane (s : State) (t p : Nat) (x : LaneX) : State := { s with lanes := KMap.set {} s.lanes (8 * t + p) x }
/-- Applies `f` to a lane. -/
def State.modLane (s : State) (t p : Nat) (f : LaneX → LaneX) : State := s.setLane t p (f (s.lane t p))
/-- The threshold loop of bank `d` of lane `p`. -/
def State.bank (s : State) (t p d : Nat) : BankX := KMap.get {} s.banks (32 * t + 4 * p + d)
/-- Writes the threshold loop of a bank. -/
def State.setBank (s : State) (t p d : Nat) (x : BankX) : State :=
  { s with banks := KMap.set {} s.banks (32 * t + 4 * p + d) x }

/-- The open window on an accumulator set. -/
def LaneX.win (x : LaneX) (sh : Bool) : Option Win := if sh then x.sh else x.fg
/-- Writes the open window of an accumulator set. -/
def LaneX.setWin (x : LaneX) (sh : Bool) (w : Option Win) : LaneX := if sh then { x with sh := w } else { x with fg := w }
/-- The accumulator of a set. -/
def LaneX.acc (x : LaneX) (sh : Bool) : Accum := if sh then x.accSh else x.accFg
/-- Writes an accumulator. -/
def LaneX.setAcc (x : LaneX) (sh : Bool) (a : Accum) : LaneX :=
  if sh then { x with accSh := a } else { x with accFg := a }
/-- The averaging job of a set. -/
def LaneX.job (x : LaneX) (sh : Bool) : Option (Nat × Nat) := if sh then x.jobSh else x.jobFg
/-- Writes the averaging job of a set. -/
def LaneX.setJob (x : LaneX) (sh : Bool) (j : Option (Nat × Nat)) : LaneX :=
  if sh then { x with jobSh := j } else { x with jobFg := j }

/-- Sets a sticky bit of LN_STS. -/
def State.lnSet (s : State) (t p : Nat) (f : Fld) : State := s.raise (A.lnSts t p) f 1

/-- LN_STS as read: the open windows, and the windows taken by the current job; with a job on each accumulator set, the foreground one's
(DESIGN CHOICE, log entry 211). -/
def State.lnStsView (s : State) (t p : Nat) : Word :=
  let x := s.lane t p
  let n := match x.jobFg, x.jobSh with
    | some (_, n), _ => n
    | none, some (_, n) => n
    | none, none => 0
  putF (putF (putF (s.reg (A.lnSts t p)) F.lnSts.avgCount n) F.lnSts.shOpen (b2n x.sh.isSome)) F.lnSts.fgOpen
    (b2n x.fg.isSome)

/-! ## Read-out sets (R207) -/

/-- The cause for which read-out set `r` fails its check (RO_CHK); 0 where it passes. The weight range is judged where
weights are used, and the count where a job is defined. -/
def State.rsCause (s : State) (t p r : Nat) : Nat :=
  let a := s.reg (A.rsA t p r)
  let b := s.reg (A.rsB t p r)
  let table := getF a F.rsA.wmode == 1
  if 16 < getF a F.rsA.shift then 1
  else if getF a F.rsA.hold = 7 then 2
  else if table && getF b F.rsB.wlen == 0 then 3
  else if table && decide (1024 < getF b F.rsB.wbase + getF b F.rsB.wlen) then 4
  else if getF a F.rsA.acc = 1 && s.fld (A.rsC t p r) F.rsC.avgCount = 0 then 5
  else 0

/-- The averaging job of an accumulator set is discarded (R207). -/
def State.dropJob (s : State) (t p : Nat) (sh : Bool) : State :=
  if ((s.lane t p).job sh).isSome then
    (s.modLane t p fun x => (x.setJob sh none).setAcc sh {}).lnSet t p F.lnSts.avgLost
  else s

/-- The jobs of set `r` of a lane are discarded. -/
def State.dropJobsOf (s : State) (t p r : Nat) : State :=
  let one := fun (s : State) (sh : Bool) =>
    match (s.lane t p).job sh with
    | some (x, _) => if x = r then s.dropJob t p sh else s
    | none => s
  one (one s false) true

/-- The check of a set that is valid as written. -/
def State.rsCheck (s : State) (t p r : Nat) : State :=
  if s.rsCause t p r = 0 then s
  else
    let s1 := s.setFld (A.rsA t p r) F.rsA.valid 0
    if s1.on (A.roChk t) F.roChk.valid then s1
    else (s1.setReg (A.roChk t) (BitVec.ofNat 32 (2 ^ 31 + s.rsCause t p r * 2 ^ 16 + p * 2 ^ 4 + r))).note
      (A.roChk t) F.roChk.valid 1

/-- A write of word `k` (RS_A–RS_D) of set `r` of lane `p`. -/
def State.writeRs (s : State) (src : Req) (t p r k : Nat) (w : Word) : WRes :=
  let deny := s.busyTile src t
  let eff := fun (s1 : State) => s1.dropJobsOf t p r
  if k = 0 then s.write src spec_rsA (A.rsA t p r) w deny fun s1 =>
    let s2 := eff s1
    if s2.on (A.rsA t p r) F.rsA.valid then s2.rsCheck t p r else s2
  else if k = 1 then s.write src spec_rsB (A.rsB t p r) w deny eff
  else if k = 2 then s.write src spec_rsC (A.rsC t p r) w deny eff
  else s.write src spec_rsD (A.rsD t p r) w deny eff

/-- READOUT_SET_WRITE (R207). -/
def execReadoutSetWrite (t : Tile) (p : Lane) (r : Fin 16) (k : Fin 4) (w : Word) (s : State) : Res :=
  done (State.hostWrite (s.writeRs .host t p r k w) (A.rsA t p r + 4 * k))

/-- A write of RI_CFG: a change of BAND only while the tile is IDLE (R195). -/
def State.writeRi (s : State) (src : Req) (t : Nat) (w : Word) : WRes :=
  let deny := if getF w F.riCfg.band != s.fld (A.riCfg t) F.riCfg.band then s.busyTile src t else none
  s.write src spec_riCfg (A.riCfg t) w deny id

/-- RI_BAND_WRITE (R195). -/
def execRiBandWrite (t : Tile) (w : Word) (s : State) : Res := done (State.hostWrite (s.writeRi .host t w) (A.riCfg t))

/-! ## Windows (R204–R208) -/

/-- A MEAS is refused (R205). -/
def State.refuseMeas (s : State) (t p pl sid : Nat) : State :=
  (((s.lnSet t p F.lnSts.winRefused).bump (A.lnRefusedCnt t p)).fire (tileSrc t 17)).flagShot pl sid Flag.taint

/-- The first and the last ball tick (DT) that a window integrates (R204). -/
def Win.first (w : Win) : Nat := w.start + w.t + 32
/-- The last one: S + L. -/
def Win.last (w : Win) : Nat := w.start + w.t + 31 + w.len

/-- Window `v` takes the lane from window `w`: `w` loses the ticks from the first of `v` to one past its last (R206). -/
def Win.preempted (w v : Win) : Win :=
  if v.first ≤ w.last then { w with lost := w.lost ++ [(v.first, v.last + 1)] } else w

/-- The window that opens joins the other set's one: the one opened later takes the lane, in one tick the shadow one. -/
def State.takeLane (s : State) (t p : Nat) (sh : Bool) (w : Win) : State :=
  let x := s.lane t p
  match x.win (!sh) with
  | none => s.setLane t p (x.setWin sh (some w))
  | some o =>
    if o.start = w.start ∧ o.t = w.t ∧ sh = false then s.setLane t p (x.setWin sh (some (w.preempted o)))
    else s.setLane t p ((x.setWin sh (some w)).setWin (!sh) (some (o.preempted w)))

/-- The accumulator and the job at opening (R207). -/
def State.openAcc (s : State) (t p : Nat) (sh : Bool) (r : Nat) (avg : Bool) : State :=
  let s1 := match (s.lane t p).job sh with
    | some (x, _) => if avg && x == r then s else s.dropJob t p sh
    | none => s
  if !avg then s1.modLane t p fun x => x.setAcc sh {}
  else
    match (s1.lane t p).job sh with
    | some (_, n) => s1.modLane t p fun x => x.setJob sh (some (r, n + 1))
    | none => s1.modLane t p fun x => (x.setJob sh (some (r, 1))).setAcc sh {}

/-- Phase and frequency word of slot `k` of tone channel 8 + p at the present stamp (R141, R199). -/
def State.ncoNow (s : State) (t p k : Nat) : Nat × Nat := (s.phaseAt t (8 + p) k 0, (s.freqWord t (8 + p) k).toNat)

/-- The same at the ten stamps before the present one, newest first, as the slot stood then (R141, R142): the decimation filter reaches
back so far before a window's first sample (R198, R199). -/
def State.ncoBefore (s : State) (t p k : Nat) : List (Nat × Nat) :=
  (List.range 10).map fun m =>
    let x := s.slotAgo t (8 + p) k (m + 1)
    ((x.1 * (8 * (s.DT - (m + 1))) + x.2 * 2 ^ 16) % 2 ^ 48, x.1)

/-- A MEAS opens a window, or is refused (R204, R205). -/
def State.openWindow (s : State) (t p pl sid start c r len midx : Nat) (sh noRec noDec : Bool) (num : Word) : State :=
  let a := s.reg (A.rsA t p r)
  if getF a F.rsA.valid = 0 || ((s.lane t p).win sh).isSome then s.refuseMeas t p pl sid
  else
    let w : Win := { set := r, a := a, b := s.reg (A.rsB t p r), c := s.reg (A.rsC t p r), d := s.reg (A.rsD t p r),
                     t := c, len := len, start := start, plot := pl, sid := sid, num := num, midx := midx,
                     noRec := noRec, noDec := noDec, nco := s.ncoBefore t p (getF a F.rsA.slot) }
    (s.openAcc t p sh r (getF a F.rsA.acc == 1)).takeLane t p sh w

/-- WINDOW_OPEN (R204): the lane is that of the path which the sequencer feeds (R97, R314). -/
def execWindowOpen (t : Tile) (q : Seq) (s : State) : Res :=
  match s.due t q, s.plotOf t with
  | some e, some pl =>
    match e.cmd, s.startOf pl e.sid with
    | .meas len r midx sh noRec noDec, some h =>
      let s1 := s.pop t q
      done (match s.pathOf t q with
        | some n =>
          if 8 ≤ n && n < 16 && !s.haltedAt t q e.execAt then
            s1.openWindow t (n - 8) pl e.sid h.start e.execAt r len midx sh noRec noDec h.num
          else s1
        | none => s1)
    | _, _ => done s
  | _, _ => done s

/-! ## The input and the demodulation (R195, R196, R198–R200) -/

/-- ADC code `j` that stood at the read-out input `back` ticks ago. -/
def State.adcCode (s : State) (t back j : Nat) : Int :=
  (Config.adc (s.fld (A.riCfg t) F.riCfg.band) t (s.tm.now - back) j).toInt

/-- The tick `back` ticks ago was an overrange tick (R196). -/
def State.overrange (s : State) (t back : Nat) : Bool :=
  (List.range 4).any fun j => s.adcCode t back j == 2047 || s.adcCode t back j == -2048

/-- An overrange tick is counted as its codes reach the core die, 12 ticks after the ball; the first of a shot in progress fires
(R196, R198). -/
def State.adcTick (s : State) (t : Nat) : State :=
  if s.overrange t 12 then
    let s1 := (s.bump (A.riOvrCnt t)).raise (A.riSts t) F.riSts.ovr 1
    match s.plotOf t with
    | some p => (match s.current p with | some h => s1.fireOnceIn t 20 !h.started | none => s1)
    | none => s1
  else s

/-- The phase of a lane's oscillator for ADC sample `j` of the ball tick `back` ticks ago, in 2⁻⁴⁸ turn: that of the slot 32 ticks
before, at sample 2j, and DEMOD_PH (R199). -/
def Win.ncoPhase (w : Win) (back j : Nat) : Nat :=
  let x := w.nco.getD (back + 32) (0, 0)
  (x.1 + x.2 * (2 * j) + w.d.toNat * 2 ^ 16) % 2 ^ 48

/-- That ADC sample, multiplied by e^(−i2πφ) (R199). -/
def State.mixed (s : State) (t : Nat) (w : Win) (back j : Nat) : Int × Int :=
  let ph := BitVec.ofNat 48 (w.ncoPhase back j)
  let x := s.adcCode t back j
  (x * cosTab 1 ph, -(x * sinTab 1 ph))

/-- Tap `m` of the decimation filter, of 80: their sum is 1, so that a tone at the lane's frequency has the gain of R200. -/
def decTap (m : Nat) : Int :=
  if m < 79 then (Config.decTap m).toInt else 2 ^ 15 - ((List.range 79).map fun k => (Config.decTap k).toInt).sum

/-- The decimated sample of the ball tick 29 ticks ago, which reaches the accumulator in this tick (R198, R200): a tone of amplitude A
has A ÷ 2 after the oscillator and 8A here. -/
def State.decimated (s : State) (t : Nat) (w : Win) : BitVec 16 × BitVec 16 :=
  let zs := (List.range 80).map fun m =>
    let z := s.mixed t w (20 + m / 4) (3 - m % 4)
    (decTap m * z.1, decTap m * z.2)
  let out := fun (x : Int) => BitVec.ofInt 16 (clampI (-32768) 32767 (divOpen x (2 ^ 28)))
  (out (zs.map (·.1)).sum, out (zs.map (·.2)).sum)

/-! ## Accumulation (R201–R203) -/

/-- The weight of sample `i` of a window; none where it accumulates nothing in that tick (R201, R206). -/
def State.weightAt (s : State) (t p : Nat) (w : Win) (i : Nat) : Option (Int × Int) :=
  let d := w.first + i
  if w.lost.any fun r => decide (r.1 ≤ d) && decide (d ≤ r.2) then none
  else if getF w.a F.rsA.wmode = 0 then some (32767, 0)
  else
    let k := i / 2 ^ getF w.a F.rsA.hold
    if k < getF w.b F.rsB.wlen then
      let v := s.reg (A.roWeight t p ((getF w.b F.rsB.wbase + k) % 1024))
      some (sext 16 v.toNat, sext 16 (v.toNat / 2 ^ 16))
    else some (0, 0)

/-- Adds to one accumulator component: a clamp to ±(2⁴⁷ − 1) holds (R202). -/
def accAdd (a : Int) (clamped : Bool) (v : Int) : Int × Bool :=
  if clamped then (a, true)
  else
    let x := a + clampI (-2147483648) 2147483647 v
    let m : Int := 2 ^ 47 - 1
    (clampI (-m) m x, decide (x < -m) || decide (m < x))

/-- The product of a sample and a weight joins the accumulator (R202). -/
def Accum.add (a : Accum) (x : BitVec 16 × BitVec 16) (w : Int × Int) : Accum :=
  let i := accAdd a.i a.ci (x.1.toInt * w.1 - x.2.toInt * w.2)
  let q := accAdd a.q a.cq (x.1.toInt * w.2 + x.2.toInt * w.1)
  { i := i.1, q := q.1, ci := i.2, cq := q.2 }

/-- The value stored: rounded to nearest after the shift, saturated to 32 bits, and whether it saturated (R203). -/
def storeValue (a : Int) (shift : Nat) : Int × Bool :=
  let v := roundDiv a (2 ^ shift)
  let c := clampI (-2147483648) 2147483647 v
  (c, c != v)

/-! ## Discrimination (R209, R210) -/

/-- D_j without the threshold, of bank `d` (R209). -/
def State.disc (s : State) (t p d j : Nat) (i q : Int) : Int :=
  let w := s.reg (A.dbW t p d j)
  (sext 16 (getF w F.dbW.wi) * i + sext 16 (getF w F.dbW.wq) * q) / 16384

/-- Discriminant `j` of bank `d` is enabled. -/
def State.discOn (s : State) (t p d j : Nat) : Bool :=
  if j = 0 then s.on (A.dbCtl t p d) F.dbCtl.disc0En else s.on (A.dbCtl t p d) F.dbCtl.disc1En

/-- TH_j. -/
def State.th (s : State) (t p d j : Nat) : Int := (s.reg (A.dbTh t p d j)).toInt

/-- State and confidence class of a result. -/
def State.discriminate (s : State) (t p d : Nat) (i q : Int) : Nat × Nat :=
  if !s.discOn t p d 0 then (0, 0)
  else
    let m := fun j => s.disc t p d j i q - s.th t p d j
    let on1 := s.discOn t p d 1
    let b0 := b2n (decide (0 ≤ m 0))
    let b1 := if on1 then b2n (decide (0 ≤ m 1)) else 0
    let dist := if on1 then min (m 0).natAbs (m 1).natAbs else (m 0).natAbs
    let c := s.reg (A.dbCtl t p d)
    (getF c F.dbCtl.stateMap / 2 ^ (2 * (b0 + 2 * b1)) % 4, min 15 (dist / 2 ^ getF c F.dbCtl.confShift))

/-! ## Threshold loop (R213–R216) -/

/-- The index in DB_SPREAD of M_j,s, where the pair of discriminant `j` holds state `st`. -/
def spreadIx (j st : Nat) : Option Nat :=
  match j, st with
  | 0, 0 => some 0
  | 0, 1 => some 1
  | 1, 1 => some 2
  | 1, 2 => some 3
  | _, _ => none

/-- The centroid of a state. -/
def State.cent (s : State) (t p d st : Nat) : Int × Int :=
  ((s.reg (A.dbCentI t p d st)).toInt, (s.reg (A.dbCentQ t p d st)).toInt)

/-- D_j of the centroid of a state. -/
def State.discCent (s : State) (t p d j st : Nat) : Int := s.disc t p d j (s.cent t p d st).1 (s.cent t p d st).2

/-- `x + ((y − x) >> k)`, arithmetic. -/
def track (x y : Int) (k : Nat) : Int := x + (y - x) / (2 ^ k : Nat)

/-- The spread of one pair member, which is not negative, follows an input. -/
def State.trackSpread (s : State) (t p d j st k : Nat) (i q : Int) : State :=
  match spreadIx j st with
  | some n =>
    if s.discOn t p d j then
      let m : Int := (s.reg (A.dbSpread t p d n)).toNat
      s.setReg (A.dbSpread t p d n) (toW (track m ((s.disc t p d j i q - s.discCent t p d j st).natAbs : Nat) k))
    else s
  | none => s

/-- An input of state `st` to the loop of bank `d` (R213). -/
def State.loopInput (s : State) (t p d st : Nat) (i q : Int) : State :=
  if !s.on (A.dbLoop t p d) F.dbLoop.en then s
  else
    let k := s.fld (A.dbLoop t p d) F.dbLoop.k
    let c := s.cent t p d st
    let s1 := (s.setReg (A.dbCentI t p d st) (toW (track c.1 i k))).setReg (A.dbCentQ t p d st) (toW (track c.2 q k))
    let s2 := (s1.trackSpread t p d 0 st k i q).trackSpread t p d 1 st k i q
    let x := s2.bank t p d
    (s2.setBank t p d { x with n0 := x.n0 + b2n (st == 0), n1 := x.n1 + b2n (st == 1), n2 := x.n2 + b2n (st == 2) }).bump
      (A.dbUpdCnt t p d)

/-- SEP_j (R215). -/
def State.sepOne (s : State) (t p d j : Nat) : Nat :=
  let m := (s.reg (A.dbSpread t p d (2 * j))).toNat + (s.reg (A.dbSpread t p d (2 * j + 1))).toNat
  if m = 0 then 0xFFFF
  else min 0xFFFF ((s.discCent t p d j (j + 1) - s.discCent t p d j j).natAbs * 16 / m)

/-- SEP: the smallest over the enabled discriminants. -/
def State.sepFig (s : State) (t p d : Nat) : Nat :=
  let a := if s.discOn t p d 0 then s.sepOne t p d 0 else 0xFFFF
  if s.discOn t p d 1 then min a (s.sepOne t p d 1) else a

/-- Re-centres discriminant `j` (R214). -/
def State.recentre (s : State) (t p d j : Nat) : State :=
  let x := s.bank t p d
  let need := 2 ^ s.fld (A.dbLoop t p d) F.dbLoop.k
  let ok := if j = 0 then decide (need ≤ x.n0) && decide (need ≤ x.n1) else decide (need ≤ x.n1) && decide (need ≤ x.n2)
  if s.discOn t p d j && ok then
    let v := (s.discCent t p d j j + s.discCent t p d j (j + 1)) / 2
    let ref := (s.reg (A.dbRef t p d j)).toInt
    let dr : Int := (s.reg (A.dbDrift t p d)).toNat
    let c := clampI (ref - dr) (ref + dr) v
    let s1 := (s.setReg (A.dbTh t p d j) (toW (clampI (-2147483648) 2147483647 c))).bump (A.dbRecentreCnt t p d)
    if c != v then (s1.raise (A.dbSts t p d) F.dbSts.atLimit 1).fire (tileSrc t 18) else s1
  else s

/-- Enables or disables the loop of bank `d`: the counts of inputs restart and the spreads read 0 (R214, R216); enabling clears
FROZEN. -/
def State.loopSet (s : State) (t p d : Nat) (on : Bool) : State :=
  let s1 := s.setFld (A.dbLoop t p d) F.dbLoop.en (b2n on)
  let s2 := (List.range 4).foldl (fun s i => s.setReg (A.dbSpread t p d i) 0) s1
  (if on then s2.setFld (A.dbSts t p d) F.dbSts.frozen 0 else s2).setBank t p d {}

/-- UNFREEZE of a threshold loop (R215). -/
def State.loopUnfreeze (s : State) (t p d : Nat) : State :=
  let x := s.bank t p d
  (s.setFld (A.dbSts t p d) F.dbSts.frozen 0).setBank t p d { x with n0 := 0, n1 := 0, n2 := 0, pendUnf := false }

/-- What a shot end does to the loop of bank `d` (R214–R216): a pending change first, then SEP, freeze or re-centre. -/
def State.loopAtEnd (s : State) (t p d : Nat) : State :=
  let s1 := match (s.bank t p d).pendEn with | some b => s.loopSet t p d b | none => s
  let s2 := if (s.bank t p d).pendUnf then s1.loopUnfreeze t p d else s1
  if !s2.on (A.dbLoop t p d) F.dbLoop.en then s2
  else
    let sep := s2.sepFig t p d
    let s3 := s2.setFld (A.dbSts t p d) F.dbSts.sep sep
    if sep < s3.fld (A.dbLoop t p d) F.dbLoop.sepLim then
      (s3.setFld (A.dbSts t p d) F.dbSts.frozen 1).fire (tileSrc t 18)
    else if s3.on (A.dbSts t p d) F.dbSts.frozen then s3
    else (s3.recentre t p d 0).recentre t p d 1

/-! ## Tone tracking (R217–R220) -/

/-- An input to the tracker of lane `p` (R217). -/
def State.trackInput (s : State) (t p : Nat) (i q : Int) : State :=
  if !s.on (A.ttCtl t p) F.ttCtl.en then s
  else
    let k := s.fld (A.ttCtl t p) F.ttCtl.k
    s.modLane t p fun x => { x with vi := track x.vi i k, vq := track x.vq q k, inputs := x.inputs + 1, fresh := true }

/-- QUAL (R219). -/
def State.toneQual (s : State) (t p : Nat) : Nat :=
  let x := s.lane t p
  min 255 (Nat.sqrt (65536 * (x.vi * x.vi + x.vq * x.vq).toNat) / (s.reg (A.ttAmpRef t p)).toNat)

/-- The limit of TT_OFF at REF_IN = 100 MHz (R218). -/
def State.toneLim (s : State) (t p : Nat) : Int :=
  (s.fld (A.ttWin t p) F.ttWin.winKhz * 1000 * 2 ^ 44 / 20000000000 : Nat)

/-- Writes the frequency word of the tracked slot (R218, R220). -/
def State.setToneFw (s : State) (t p : Nat) (off : Int) : State :=
  let k := s.fld (A.ttCtl t p) F.ttCtl.slot
  let fw := (((s.pair (A.ttBaseLo t p) (A.ttBaseHi t p) : Nat) + 16 * off) % 2 ^ 48).toNat
  (s.setReg (A.rfsFwLo t p k) (BitVec.ofNat 32 fw)).setReg (A.rfsFwHi t p k) (BitVec.ofNat 32 (fw / 2 ^ 32))

/-- The angle of a vector in 2⁻¹⁶ turn (R218): exact to 2⁻⁴⁰ turn, then rounded to either side. -/
def angle (i q : Int) : BitVec 16 :=
  if i = 0 ∧ q = 0 then Config.zeroAngle
  else
    let half := i < 0
    let m : Int := if half then -(2 ^ 64) else 2 ^ 64
    let a := cordic atanTable 0 (i * m) (q * m) (if half then 2 ^ 59 else 0)
    BitVec.ofInt 16 (divOpen ((a + 2 ^ 19) / 2 ^ 20) (2 ^ 24))

/-- One step of the tracker (R218). A tie of the rounded step goes away from zero (DESIGN CHOICE, log entry 212). -/
def State.toneStep (s : State) (t p : Nat) : State :=
  let x := s.lane t p
  let e := (angle x.vi x.vq - BitVec.ofNat 16 (s.reg (A.ttPhRef t p)).toNat).toInt
  let stp := roundDiv (e * sext 16 (s.fld (A.ttCtl t p) F.ttCtl.gain)) 16
  let v := (s.reg (A.ttOff t p)).toInt - stp
  let c := clampI (-(s.toneLim t p)) (s.toneLim t p) v
  let s1 := ((s.setReg (A.ttOff t p) (toW c)).setToneFw t p c).bump (A.ttStepCnt t p)
  let s2 := s1.modLane t p fun x => { x with fresh := false }
  if c != v then (s2.raise (A.ttSts t p) F.ttSts.atLimit 1).fire (tileSrc t 19) else s2

/-- Enabling the tracker: TT_OFF becomes 0 and TT_BASE goes into the slot (R220). -/
def State.toneStart (s : State) (t p : Nat) : State :=
  (((s.setReg (A.ttOff t p) 0).setToneFw t p 0).setFld (A.ttSts t p) F.ttSts.frozen 0).modLane t p fun x =>
    { x with vi := 0, vq := 0, inputs := 0, fresh := false, pendEn := none }

/-- What a shot end does to the tracker of lane `p` (R218–R220). -/
def State.toneAtEnd (s : State) (t p : Nat) : State :=
  let s1 := if (s.lane t p).pendEn = some true then s.toneStart t p else s
  if !s1.on (A.ttCtl t p) F.ttCtl.en then s1
  else
    let q := s1.toneQual t p
    let s2 := s1.setFld (A.ttSts t p) F.ttSts.qual q
    let x := s2.lane t p
    if s2.on (A.ttSts t p) F.ttSts.frozen then s2
    else if q < s2.fld (A.ttQlim t p) F.ttQlim.qLim then
      (s2.setFld (A.ttSts t p) F.ttSts.frozen 1).fire (tileSrc t 19)
    else if decide (2 ^ s2.fld (A.ttCtl t p) F.ttCtl.k ≤ x.inputs) && x.fresh then s2.toneStep t p
    else s2

/-- The loops of every lane of plot `p`'s tiles at a shot end (R214, R218). -/
def State.loopsAtEnd (s : State) (pl : Nat) : State :=
  (s.tilesOf pl).foldl (fun s t => (List.range 8).foldl (fun s p =>
    ((List.range 4).foldl (fun s d => s.loopAtEnd t p d) s).toneAtEnd t p) s) s

/-! ## Loop and bank writes (R212, R215, R216, R219, R220) -/

/-- The plot of tile `t` is STOPPED, or it has none. -/
def State.tileStopped (s : State) (t : Nat) : Bool :=
  match s.plotOf t with
  | some p => s.stopped p
  | none => true

/-- DB_LOOP as read: EN shows a change that waits for the next shot end. -/
def State.dbLoopView (s : State) (t p d : Nat) : Word :=
  match (s.bank t p d).pendEn with
  | some b => putF (s.reg (A.dbLoop t p d)) F.dbLoop.en (b2n b)
  | none => s.reg (A.dbLoop t p d)

/-- The loop of bank `d` owns the thresholds and centroids (R216). -/
def State.loopOwns (s : State) (t p d : Nat) : Bool := getF (s.dbLoopView t p d) F.dbLoop.en == 1

/-- A change of DB_LOOP.EN (R216): refused unless STATE_MAP is 94h and DISC0_EN is 1. -/
def State.loopEnable (s : State) (t p d : Nat) (on : Bool) : State :=
  if on == s.loopOwns t p d then s
  else if on && (s.fld (A.dbCtl t p d) F.dbCtl.stateMap != 0x94 || !s.discOn t p d 0) then
    s.raise (A.dbSts t p d) F.dbSts.loopErr 1
  else if s.tileStopped t then s.loopSet t p d on
  else
    let now := s.on (A.dbLoop t p d) F.dbLoop.en
    s.setBank t p d { s.bank t p d with pendEn := if on == now then none else some on }

/-- A write of DB_LOOP: EN and UNFREEZE in every state, K and SEP_LIM while the tile is IDLE. -/
def State.writeDbLoop (s : State) (src : Req) (t p d : Nat) (w : Word) : WRes :=
  let a := A.dbLoop t p d
  let k := getF w F.dbLoop.k
  match s.blockRefuse src a with
  | some e => (s, some e)
  | none =>
    if k < 4 || 16 < k then (s, some .accessErr)
    else
      let idle := (s.busyTile src t).isNone
      let same := k == s.fld a F.dbLoop.k && getF w F.dbLoop.sepLim == s.fld a F.dbLoop.sepLim
      let s1 := if idle then (s.setFld a F.dbLoop.k k).setFld a F.dbLoop.sepLim (getF w F.dbLoop.sepLim) else s
      let s2 := s1.loopEnable t p d (getF w F.dbLoop.en == 1)
      let s3 := if getF w F.dbLoop.unfreeze = 0 then s2
        else if s2.tileStopped t then s2.loopUnfreeze t p d
        else s2.setBank t p d { s2.bank t p d with pendUnf := true }
      (s3, if idle || same then none else some .memBusy)

/-- THR_LOOP_ENABLE (R216). -/
def execThrLoopEnable (t : Tile) (p : Lane) (d : Fin 4) (w : Word) (s : State) : Res :=
  done (State.hostWrite (s.writeDbLoop .host t p d (putF w F.dbLoop.unfreeze 0)) (A.dbLoop t p d))

/-- DB_UNFREEZE (R215). -/
def execDbUnfreeze (t : Tile) (p : Lane) (d : Fin 4) (w : Word) (s : State) : Res :=
  done (State.hostWrite (s.writeDbLoop .host t p d (putF w F.dbLoop.unfreeze 1)) (A.dbLoop t p d))

/-- A write of another register of discriminator bank `d` (R212, R216). -/
def State.writeDb (s : State) (src : Req) (r : RegSpec) (t p d a : Nat) (w : Word) : WRes :=
  match r.reg with
  | .dbLoop => s.writeDbLoop src t p d w
  | .dbTh | .dbCentI | .dbCentQ =>
    s.write src r a w (if s.loopOwns t p d && src != .mgmt then some .accessErr else s.busyTile src t) id
  | .dbCtl | .dbW | .dbRef | .dbDrift => s.write src r a w (s.busyTile src t) id
  | _ => s.write src r a w none id

/-- A write of TT_CTL (R219, R220). -/
def State.writeTtCtl (s : State) (src : Req) (t p : Nat) (w : Word) : WRes :=
  let a := A.ttCtl t p
  let k := getF w F.ttCtl.k
  let was := s.on a F.ttCtl.en
  let w1 := if was then putF w F.ttCtl.slot (s.fld a F.ttCtl.slot) else w
  let deny := if k < 4 || 16 < k then some Refuse.accessErr else none
  s.write src spec_ttCtl a w1 deny fun s1 =>
    let s2 := if was || getF w F.ttCtl.en = 0 then s1
      else if s1.tileStopped t then s1.toneStart t p
      else s1.modLane t p fun x => { x with pendEn := some true }
    let s3 := if getF w F.ttCtl.en = 0 then s2.modLane t p fun x => { x with pendEn := none } else s2
    if getF w F.ttCtl.unfreeze = 1 then
      (s3.setFld (A.ttSts t p) F.ttSts.frozen 0).modLane t p fun x => { x with inputs := 0 }
    else s3

/-- TONE_TRACK_ENABLE (R220). -/
def execToneTrackEnable (t : Tile) (p : Lane) (w : Word) (s : State) : Res :=
  done (State.hostWrite (s.writeTtCtl .host t p (putF w F.ttCtl.unfreeze 0)) (A.ttCtl t p))

/-- TT_UNFREEZE (R219). -/
def execTtUnfreeze (t : Tile) (p : Lane) (w : Word) (s : State) : Res :=
  done (State.hostWrite (s.writeTtCtl .host t p (putF w F.ttCtl.unfreeze 1)) (A.ttCtl t p))

/-- A write of another register of a lane: TT_WIN of 0 or above 500 and TT_AMP_REF of 0 are discarded. -/
def State.writeLane (s : State) (src : Req) (r : RegSpec) (a : Nat) (w : Word) : WRes :=
  match r.reg with
  | .ttWin =>
    let v := getF w F.ttWin.winKhz
    s.write src r a w (if v = 0 || 500 < v then some .accessErr else none) id
  | .ttAmpRef => s.write src r a w (if w = 0 then some .accessErr else none) id
  | _ => s.write src r a w none id

/-! ## Closing (R204, R211, R221–R223) -/

/-- The bytes of a result record (R221). -/
def recordBytes (wend : Nat) (num : Word) (midx qubit : Nat) (i q : Int) (st conf plot flags : Nat) : List Byte :=
  let b := leBytes 8 wend ++ leBytes 4 num.toNat ++ leBytes 2 midx ++ leBytes 2 qubit ++ leBytes 4 (toW i).toNat
    ++ leBytes 4 (toW q).toNat ++ leBytes 1 (st + 16 * conf) ++ leBytes 1 plot ++ leBytes 2 flags
  b ++ leBytes 4 (crc32c b).toNat

/-- Enters a record in order of record tick and lane (R223). -/
def insertRec (r : Rec) : List Rec → List Rec
  | [] => [r]
  | x :: xs => if x.tick < r.tick ∨ (x.tick = r.tick ∧ x.lane ≤ r.lane) then x :: insertRec r xs else r :: x :: xs

/-- A record enters the record buffer of its tile, or finds it full (R223). -/
def State.pushRec (s : State) (t : Nat) (r : Rec) : State :=
  let rs := KMap.get [] s.recs t
  if rs.length < 256 then { s with recs := KMap.set [] s.recs t (insertRec r rs) }
  else
    let x : RingX := KMap.get {} s.rings r.plot
    let s1 : State := { s with rings := KMap.set {} s.rings r.plot { x with lost := x.lost ++ [r.sid] } }
    ((s1.bump (A.riDropCnt t)).raise (A.riSts t) F.riSts.drop 1).fireOnce t 21

/-- Flags of a result that keep it out of the loops (R213, R217): AVG, OVF, SAT, ADC_OVR, PREEMPTED, BRIDGE. -/
def noLoopFlags : BitVec 16 := 0x3688

/-- A clamp of an accumulator, `n` components (R202). -/
def State.noteOvf (s : State) (t p pl sid n : Nat) : State :=
  if n = 0 then s
  else (((s.lnSet t p F.lnSts.ovf).bumpBy (A.lnOvfCnt t p) n).fireOnce t 16).flagShot pl sid Flag.ovf

/-- Ticks of a window that it lost, by index (R206). -/
def Win.lostTicks (w : Win) : List Nat :=
  (List.range w.len).filter fun i =>
    w.lost.any fun r => decide (r.1 ≤ w.first + i) && decide (w.first + i ≤ r.2)

/-- A bridge parity error tick was integrated (R197). -/
def Win.bridge (w : Win) : Bool :=
  w.marks.any fun d => decide (w.first ≤ d) && decide (d ≤ w.last) && !w.lostTicks.contains (d - w.first)

/-- A flag bit. -/
def fbit (b : Bool) (n : Nat) : BitVec 16 := BitVec.ofNat 16 (b2n b * 2 ^ n)

/-- Stores the accumulator of a window and discriminates (R203, R207, R209). An averaging job, which delivers no decision anyway, carries
NO_DECIDE only where its MEAS does (DESIGN CHOICE, log entry 213). -/
def State.store (s : State) (t p : Nat) (sh : Bool) (w : Win) : Result :=
  let a := (s.lane t p).acc sh
  let shift := getF w.a F.rsA.shift
  let d := getF w.a F.rsA.bank
  let avg := getF w.a F.rsA.acc == 1
  let i := storeValue a.i shift
  let q := storeValue a.q shift
  let r := if avg then (0, 0) else s.discriminate t p d i.1 q.1
  { i := i.1, q := q.1, st := r.1, conf := r.2,
    flags := fbit (a.ci || a.cq) 3 ||| fbit (i.2 || q.2) 7 ||| fbit sh 8 ||| fbit avg 9 |||
      fbit (w.lostTicks != []) 10 ||| fbit (s.on (A.dbSts t p d) F.dbSts.frozen) 11 ||| fbit w.ovr 12 |||
      fbit w.bridge 13 ||| fbit w.noDec 14 }

/-- The shot flags that a result record carries (R222): bits 0–2 and 4–6. -/
def State.shotBits (s : State) (pl sid : Nat) : BitVec 16 :=
  match s.startOf pl sid with
  | some h => h.flags &&& 0x77
  | none => 0

/-- The lane's last result (R224). Its state and its confidence follow with discrimination, in tick L + 34 (R198); up to then the former
result's stand (DESIGN CHOICE, log entry 214). -/
def State.setResult (s : State) (t p : Nat) (w : Win) (r : Result) : State :=
  let mw := BitVec.ofNat 32 ((r.flags ||| s.shotBits w.plot w.sid).toNat * 2 ^ 16 + w.midx % 256 * 2 ^ 8 +
    (s.lane t p).resMeta.toNat % 256)
  let s1 := (s.setReg (A.lnResI t p) (toW r.i)).modLane t p fun x =>
    { x with resQ := toW r.q, resMeta := mw, disc := some (s.tm.now + 3, r.st, r.conf) }
  let s2 := if (s.lane t p).latched then s1.lnSet t p F.lnSts.resOverrun else s1
  if (r.flags &&& 0x80) != 0 then s2.lnSet t p F.lnSts.sat else s2

/-- A result feeds the loops that its set names (R213, R217). -/
def State.feedLoops (s : State) (t p : Nat) (w : Win) (r : Result) : State :=
  if (r.flags &&& noLoopFlags) != 0 then s
  else
    let s1 := if getF w.a F.rsA.thrSrc = 1 && r.st ≤ 2 then s.loopInput t p (getF w.a F.rsA.bank) r.st r.i r.q else s
    if getF w.a F.rsA.ttSrc = 1 && r.st = 0 then s1.trackInput t p r.i r.q else s1

/-- A state goes to the trellis (R211, R230, R234, R244). -/
def State.deliverState (s : State) (t p : Nat) (sh : Bool) (w : Win) (st : Nat) : State :=
  let n := 8 * t + p
  let tag := w.num.toNat % 256
  let d : Dec := { value := st, tag := tag, midx := w.midx, at_ := s.tm.now + 52, shadow := sh }
  let late : Dec := { d with at_ := s.tm.now + 92 }
  let s1 : State := { s with tileRels := addDec s.tileRels n d, devRels := addDec s.devRels n late }
  (s1.parLatches n st tag w.midx w.last).exportSlot n st tag w.midx w.last

/-- The record of a stored result is written, two ticks after the close (R204, R221, R222). -/
def State.recordResult (s : State) (t p : Nat) (x : Stored) : State :=
  let w := x.win
  let quiet := match s.startOf w.plot w.sid with | some h => h.quiet | none => false
  if quiet then s
  else
    let bytes := recordBytes w.last w.num w.midx (s.fld (A.lnCfg t p) F.lnCfg.qubit) x.res.i x.res.q x.res.st x.res.conf w.plot
      (x.res.flags ||| s.shotBits w.plot w.sid).toNat
    s.pushRec t { tick := s.DT, lane := p, plot := w.plot, sid := w.sid, bytes := bytes }

/-- Set `r` of the job on an accumulator set has windows of it still to come: the window closes with no store (R207). -/
def State.between (s : State) (t p : Nat) (sh : Bool) (w : Win) : Bool :=
  let taken := match (s.lane t p).job sh with | some (_, n) => n | none => 0
  getF w.a F.rsA.acc == 1 && decide (taken < getF w.c F.rsC.avgCount)

/-- The store of a window (R203, R204): its result stands in the lane's registers and feeds the loops in the next tick. -/
def State.storeWin (s : State) (t p : Nat) (sh : Bool) (w : Win) : State :=
  let r := s.store t p sh w
  (s.setResult t p w r).modLane t p fun x =>
    { x.setWin sh (some { w with stored := some r }) with feeds := x.feeds ++ [{ win := { w with nco := [] }, res := r }] }

/-- The ball tick 29 ticks ago reaches the accumulator of a window that integrates it (R198, R202); one lost to pre-emption is
counted (R206). -/
def State.accTick (s : State) (t p : Nat) (sh : Bool) (w : Win) : State :=
  if s.DT < w.first + 29 ∨ w.last + 29 < s.DT then s
  else
    match s.weightAt t p w (s.DT - 29 - w.first) with
    | none => (s.lnSet t p F.lnSts.preempted).bump (A.lnPreemptTicks t p)
    | some wt =>
      let a0 := (s.lane t p).acc sh
      let a := a0.add (s.decimated t w) wt
      (s.modLane t p fun x => (x.setAcc sh a).setWin sh (some { w with ovr := w.ovr || s.overrange t 29 })).noteOvf t p w.plot
        w.sid (b2n (a.ci && !a0.ci) + b2n (a.cq && !a0.cq))

/-- What a tick brings to the window of an accumulator set (R198, R204): the slot's phase, an accumulation, and in tick L + 31 the
store. -/
def State.winTick (s : State) (t p : Nat) (sh : Bool) : State :=
  match (s.lane t p).win sh with
  | none => s
  | some w =>
    let w1 : Win := { w with nco := (s.ncoNow t p (getF w.a F.rsA.slot) :: w.nco).take 72 }
    let s1 := (s.modLane t p fun x => x.setWin sh (some w1)).accTick t p sh w1
    if s.DT = w.last + 31 ∧ w.stored = none ∧ !s.between t p sh w then s1.storeWin t p sh w1 else s1

/-- Discrimination delivers state and confidence of the lane's last result, three ticks after the store (R198). -/
def State.discTick (s : State) (t p : Nat) : State :=
  match (s.lane t p).disc with
  | some (n, st, conf) =>
    if n ≤ s.tm.now then s.modLane t p fun x =>
      { x with disc := none, resMeta := BitVec.ofNat 32 (x.resMeta.toNat / 256 * 256 + conf * 16 + st) }
    else s
  | none => s

/-- The results of the last tick feed their loops (R213). An input stored in the tick before a cut's E, whose update falls in tick E, is
fed after the re-centre of E and counts toward the next one (DESIGN CHOICE, log entry 215). -/
def State.feedTick (s : State) (t p : Nat) : State :=
  ((s.lane t p).feeds.foldl (fun s x => s.feedLoops t p x.win x.res) s).modLane t p fun x => { x with feeds := [] }

/-- The records of tick L + 38 are written (R204). -/
def State.dueTick (s : State) (t p : Nat) : State :=
  let now := fun (x : Stored) => decide (x.win.last + 38 ≤ s.DT)
  ((s.lane t p).due.filter now).foldl (fun s x => s.recordResult t p x) (s.modLane t p fun x =>
    { x with due := x.due.filter fun y => !now y })

/-- What a tick brings to lane `p`. -/
def State.laneTick (s : State) (t p : Nat) : State :=
  let x := s.lane t p
  if x.fg = none ∧ x.sh = none ∧ x.feeds = [] ∧ x.due = [] ∧ x.disc = none then s
  else ((((s.feedTick t p).discTick t p).winTick t p false).winTick t p true).dueTick t p

/-- A record of shot `sid` of plot `pl` is still to be written (R69). -/
def State.recOwed (s : State) (pl sid : Nat) : Bool :=
  s.lanes.any fun e => e.2.due.any fun x => x.win.plot == pl && x.win.sid == sid

/-- The window of an accumulator set closes in tick L + 36 (R204, R207, R211): what it stored goes to the trellis and to a record. -/
def State.closeWindow (s : State) (t p : Nat) (sh : Bool) (w : Win) : State :=
  let avg := getF w.a F.rsA.acc == 1
  let s1 := (s.modLane t p fun x => x.setWin sh none).bump (A.lnWinCnt t p)
  let s2 := s1.setSched w.plot { s1.sched w.plot with endTick := s.DT }
  match w.stored with
  | none => s2
  | some r =>
    let s3 := if avg then s2.modLane t p fun x => x.setJob sh none else s2
    let s4 := if avg || w.noDec then s3 else s3.deliverState t p sh w r.st
    if w.noRec then s4
    else (s4.mapShots w.plot (fun h => h.sid == w.sid) fun h => { h with results := h.results + 1 }).modLane t p fun x =>
      { x with due := x.due ++ [{ win := { w with nco := [] }, res := r }] }

/-- WINDOW_CLOSE (R204): in tick L + 36. -/
def execWindowClose (t : Tile) (p : Lane) (sh : Bool) (s : State) : Res :=
  match (s.lane t p).win sh with
  | some w => onlyIf (s.DT == w.last + 36) s (s.closeWindow t p sh w)
  | none => done s

/-- A cut or abort closes an open window without store, record or decision, and discards its job (R207, R208). A window whose store
falls in this very tick is stored, as R214 counts it. -/
def State.cutWindow (s : State) (t p : Nat) (sh : Bool) : State :=
  match (s.lane t p).win sh with
  | some w =>
    let job := getF w.a F.rsA.acc = 1
    let s0 := if s.DT = w.last + 31 ∧ w.stored = none ∧ ¬job then s.storeWin t p sh w else s
    let s1 := (s0.modLane t p fun x => x.setWin sh none).bump (A.lnWinCnt t p)
    if job then s1.dropJob t p sh else s1
  | none => s

/-- Every open window of plot `pl` closes so. -/
def State.cutWindows (s : State) (pl : Nat) : State :=
  (s.tilesOf pl).foldl (fun s t => (List.range 8).foldl (fun s p => (s.cutWindow t p false).cutWindow t p true) s) s

/-- START discards the averaging jobs of plot `pl` (R207). -/
def State.dropJobs (s : State) (pl : Nat) : State :=
  (s.tilesOf pl).foldl (fun s t => (List.range 8).foldl (fun s p => (s.dropJob t p false).dropJob t p true) s) s

/-- A window of plot `pl` is open (R53). -/
def State.windowOpen (s : State) (pl : Nat) : Bool :=
  (s.tilesOf pl).any fun t => (List.range 8).any fun p => (s.lane t p).fg.isSome || (s.lane t p).sh.isSome

end Sys2Proof.Machine
end

