-- ==== Sys2Proof/Machine/Operands.lean ====
section
/-! DEFINITION. Operand forms: the fields of a sequencer instruction (R85, R87), the bits that each opcode assigns
(R86), the roles that may execute it (R88), and the operands read from registers and data memory (R93–R100). -/

namespace Sys2Proof.Machine

/-- The fields of an instruction (R85). -/
structure Ins where
  op : Nat
  ra : Nat
  rb : Nat
  rc : Nat
  flg : Nat
  sub : Nat
  imm : Nat
  deriving DecidableEq, Repr

/-- Splits the two words of an instruction (R79, R85). -/
def decodeIns (lo hi : Word) : Ins :=
  { op := getF hi ⟨31, 24⟩, ra := getF hi ⟨23, 20⟩, rb := getF hi ⟨19, 16⟩, rc := getF hi ⟨15, 12⟩,
    flg := getF hi ⟨11, 8⟩, sub := getF hi ⟨7, 0⟩, imm := lo.toNat }

/-- Bits hi:lo of a number. -/
def bits (n hi lo : Nat) : Nat := n / 2 ^ lo % 2 ^ (hi + 1 - lo)

/-- FLG[i] of an instruction. -/
def Ins.flag (x : Ins) (i : Nat) : Bool := x.flg.testBit i

/-- The operand table of R87: which of RA, RB, RC, the option bits, the sub-field bits and the immediate bits an
opcode assigns (1 in a mask bit: assigned); none for an unlisted opcode. -/
def opMask (op : Nat) : Option Ins :=
  let m (ra rb rc flg sub imm : Nat) : Option Ins := some ⟨0xFF, ra, rb, rc, flg, sub, imm⟩
  match op with
  | 0x00 => m 0 0 0 0 0 0
  | 0x01 => m 0 0 0 0 0 0
  | 0x02 => m 15 15 15 1 0 0xFFFF
  | 0x03 => m 0 15 0 3 0xFF 0x1FFFF
  | 0x04 => m 15 0 0 1 0 0xFFFFFFFF
  | 0x05 => m 0 0 0 1 0xF 0
  | 0x06 => m 0 0 0 0 3 0
  | 0x10 => m 15 0 0 1 0 0xFFFFFFFF
  | 0x11 => m 15 0 0 1 0 0xFFFFFFFF
  | 0x20 => m 15 15 0 3 0xF 0xFFFFCFFF
  | 0x21 => m 0 15 0 1 0xFF 0x1FFF7F
  | 0x22 => m 0 0 0 1 3 0xFFFF
  | 0x23 => m 0 0 0 1 3 0xFFFF
  | 0x24 => m 15 15 0 3 0xFF 0x7FFFFF
  | 0x25 => m 15 0 0 1 0xF 0xFFFFF
  | 0x30 => m 15 15 0 1 7 0x7F
  | 0x31 => m 15 0 0 3 7 0xFFFFFFFF
  | 0x40 | 0x41 | 0x42 | 0x43 | 0x44 | 0x45 | 0x46 | 0x47 | 0x48 => m 15 15 15 1 0 0xFFFFFFFF
  | 0x49 => m 15 0 0 0 0 0xFFFFFFFF
  | 0x4A => m 15 0 0 0 7 0
  | 0x50 => m 15 15 0 0 0 0xFFFFFFFF
  | 0x51 => m 15 15 0 0 0 0xFFFFFFFF
  | _ => none

/-- An instruction keeps every reserved bit of its opcode 0 (R86). -/
def Ins.reservedOk (x m : Ins) : Bool :=
  (x.ra &&& m.ra) == x.ra && (x.rb &&& m.rb) == x.rb && (x.rc &&& m.rc) == x.rc && (x.flg &&& m.flg) == x.flg &&
    (x.sub &&& m.sub) == x.sub && (x.imm &&& m.imm) == x.imm

/-- The role codes that may execute an opcode (R88). -/
def roleAllows (op role : Nat) : Bool :=
  match op with
  | 0x20 | 0x21 => role ≤ 3
  | 0x30 | 0x31 => role ≤ 1
  | 0x24 => role == 1
  | 0x22 | 0x23 | 0x25 => role == 4
  | _ => true

/-! ## Sequencer registers and data memory (R78) -/

/-- S[i] of sequencer (t, q). -/
def State.sreg (s : State) (t q i : Nat) : Word := s.reg (A.seqS t q i)

/-- Writes S[i]. -/
def State.setSreg (s : State) (t q i : Nat) (v : Word) : State := s.setReg (A.seqS t q i) v

/-- The time cursor. -/
def State.tc (s : State) (t q : Nat) : Nat := (s.reg (A.seqTc t q)).toNat

/-- Data-memory word `w`. -/
def State.dm (s : State) (t q w : Nat) : Word := s.word (dataAt t q w)

/-- The instruction at an address of the program memory. -/
def State.insAt (s : State) (t q pc : Nat) : Ins := decodeIns (s.word (progAt t q pc)) (s.word (progAt t q pc + 4))

/-- The program counter. -/
def State.pc (s : State) (t q : Nat) : Nat := s.fld (A.seqPc t q) F.seqPc.pc

/-- Depth of the loop stack. -/
def State.depth (s : State) (t q : Nat) : Nat := s.fld (A.seqSts t q) F.seqSts.loopDepth

/-! ## Operands (R93–R100) -/

/-- Operand 2 of an ALU instruction (R110). -/
def State.operand2 (s : State) (t q : Nat) (x : Ins) : Word :=
  if x.flag 0 then BitVec.ofNat 32 x.imm else s.sreg t q x.rc

/-- The operand of WAIT and WAITUNTIL (R91). -/
def State.tickOperand (s : State) (t q : Nat) (x : Ins) : Nat :=
  if x.flag 0 then (s.sreg t q x.ra).toNat else x.imm

/-- The operands of a PLAY (R94). -/
def State.playOperand (s : State) (t q : Nat) (x : Ins) : PlayArg :=
  { seg := if x.flag 1 then (s.sreg t q x.rb).toNat % 2 ^ 12 else bits x.imm 11 0
    amp := if x.flag 0 then (s.sreg t q x.ra).toNat % 2 ^ 18 else bits x.imm 31 14
    slot := bits x.sub 2 0
    jump := x.sub.testBit 3 }

/-- The measurement index of ARM and BRMW (R95, R106), which FLG[0] takes from S[RB]. -/
def State.midxOperand (s : State) (t q : Nat) (x : Ins) : Nat :=
  if x.flag 0 then (s.sreg t q x.rb).toNat % 256 else x.sub

/-- The window length of MEAS (R97): all 32 bits of S[RA] with FLG[0]. -/
def State.lenOperand (s : State) (t q : Nat) (x : Ins) : Nat :=
  if x.flag 0 then (s.sreg t q x.ra).toNat else bits x.imm 15 0

/-- The 48-bit frequency word of FREQ (R100). -/
def State.freqOperand (s : State) (t q : Nat) (x : Ins) : Nat :=
  if x.flag 0 then (s.sreg t q x.ra).toNat + 2 ^ 32 * ((s.sreg t q x.rb).toNat % 2 ^ 16)
  else (s.dm t q (2 * bits x.imm 6 0)).toNat + 2 ^ 32 * ((s.dm t q (2 * bits x.imm 6 0 + 1)).toNat % 2 ^ 16)

/-- A flux channel's role (R94: its slot must be 0). -/
def fluxRole (role : Nat) : Bool := role == 2 || role == 3

/-- Alternative `j` of an ARM table at doubleword `tab`: a NOP (the all-zero word), or a PLAY that the channel could
execute without fault; none where it is defective (R95). -/
def State.altAt (s : State) (t q role tab j : Nat) : Option (Option PlayArg) :=
  let lo := s.dm t q (2 * (tab + j))
  let hi := s.dm t q (2 * (tab + j) + 1)
  let x := decodeIns lo hi
  if lo = 0 ∧ hi = 0 then some none
  else if x.op = 0x20 then
    match opMask 0x20 with
    | some m => if x.reservedOk m && !(fluxRole role && bits x.sub 2 0 != 0) then some (some (s.playOperand t q x))
                else none
    | none => none
  else none

/-- The alternatives `j`, `j + 1`, … of an ARM: all of them, or the index of the lowest defective one. -/
def State.altsFrom (s : State) (t q role tab : Nat) : Nat → Nat → Except Nat (List (Option PlayArg))
  | 0, _ => .ok []
  | n + 1, j =>
    match s.altAt t q role tab j with
    | none => .error j
    | some a =>
      match s.altsFrom t q role tab n (j + 1) with
      | .ok as => .ok (a :: as)
      | .error e => .error e

end Sys2Proof.Machine
end

