-- ==== Sys2Proof/Machine/Micro.lean ====
section
/-! DEFINITION. The microcode machine (R116–R121): microwords and the ROM, the condition groups, the fetch through the match
registers, and the walk of a routine. Without a redirected fetch and without a parity error an instruction's routine is that of R89
and R485, whose cycles the spec states. -/

namespace Sys2Proof.Machine

/-! ## Microwords (R116, R117, R120) -/

/-- NANO of a microword (R117). -/
def mwNano (w : Word) : Nat := getF w ⟨31, 23⟩
/-- NEXT. -/
def mwNext (w : Word) : Nat := getF w ⟨22, 9⟩
/-- CSEL. -/
def mwCsel (w : Word) : Nat := getF w ⟨8, 5⟩
/-- CW. -/
def mwCw (w : Word) : Nat := getF w ⟨4, 2⟩
/-- DONE. -/
def mwDone (w : Word) : Bool := getF w ⟨1, 1⟩ == 1

/-- The parity of a word is odd (R117). -/
def oddParity (w : Word) : Bool := (List.range 32).foldl (fun b i => xor b (w.getLsbD i)) false

/-- A microword of its fields: PAR makes the parity odd (R117). -/
def mkMicro (nano next csel cw : Nat) (dn : Bool) : Word :=
  let w := BitVec.ofNat 32 (nano % 512 * 2 ^ 23 + next % 2 ^ 14 * 2 ^ 9 + csel % 16 * 2 ^ 5 + cw % 8 * 2 ^ 2 + b2n dn * 2)
  if oddParity w then w else w ||| 1

/-- NEXT, CSEL, CW and DONE of the BRMW routine (R120). -/
def brmwWord (a : Nat) : Option (Nat × Nat × Nat × Bool) :=
  match a with
  | 0x60 => some (0x68, 7, 2, false)
  | 0x68 => some (0x64, 0, 0, false)
  | 0x64 => some (0x64, 4, 2, false)
  | 0x65 | 0x67 => some (0, 0, 0, true)
  | 0x66 | 0x69 | 0x6A | 0x6B => some (0x1F00, 0, 0, false)
  | _ => none

/-- The microcode ROM (R116): the BRMW routine, the dispatch entries of unlisted opcodes, which lead to the ILLEGAL_OP routine, and that
routine, which leads to the fault routine (R120); elsewhere a constant of the part, whose fields are legal and whose parity is odd. -/
def romWord (a : Nat) : Word :=
  let w := Config.ucRom a
  match brmwWord a with
  | some (next, csel, cw, dn) => mkMicro (mwNano w) next csel cw dn
  | none =>
    if a = 0x1F40 then mkMicro (mwNano w) 0x1F00 0 0 false
    else if a % 0x20 = 0 ∧ a < 0x1F00 ∧ (opMask (a / 0x20)).isNone then mkMicro (mwNano w) 0x1F40 0 0 false
    else mkMicro (mwNano w) (mwNext w % 0x2000) (mwCsel w % 10) (mwCw w % 5) (mwDone w)

/-- Nano-word `i`, which drives the datapath for one cycle; bits 15:0 are 0 (R120). -/
def nanoWord (i : Nat) : BitVec 192 := Config.nanoStore (i % 512) &&& BitVec.ofNat 192 (2 ^ 192 - 2 ^ 16)

/-- What a microword faults with, if it does (R113, R117, SEQ_FAULT_INFO): 0 parity, 1 NEXT range, where it is not ignored, 2 CW,
3 CSEL; the first of them (DESIGN CHOICE, log entry 167). -/
def microFault (w : Word) : Option Nat :=
  if !oddParity w then some 0
  else if !mwDone w && 0x2100 ≤ mwNext w then some 1
  else if 5 ≤ mwCw w then some 2
  else if 10 ≤ mwCsel w then some 3
  else none

/-- The micro-address at which an instruction is dispatched (R120). -/
def dispatchAddr (op : Nat) : Nat := if op < 0xF8 then op * 0x20 else 0x1F40

/-! ## Fetch (R121) -/

/-- The enabled match register of lowest index that holds a micro-address (R121). -/
def State.ucMatch (s : State) (t a : Nat) : Option Nat :=
  (List.range 16).find? fun m => s.on (A.ucMatch t m) F.ucMatch.enable && s.fld (A.ucMatch t m) F.ucMatch.addr == a

/-- A match register of tile `t` is enabled. -/
def State.patched (s : State) (t : Nat) : Bool := (List.range 16).any fun m => s.on (A.ucMatch t m) F.ucMatch.enable

/-- A microword as fetched: where it lies, the word, and the match register that redirected the fetch. -/
structure Micro where
  addr : Nat
  word : Word
  hit : Option Nat

/-- The fetch of micro-address `a` (R121): below 2000h the match registers may redirect it to the patch RAM. -/
def State.microFetch (s : State) (t a : Nat) : Micro :=
  if a < 0x2000 then
    match s.ucMatch t a with
    | some m =>
      let r := s.fld (A.ucMatch t m) F.ucMatch.target
      ⟨0x2000 + r, s.reg (A.ucPatchRam t r), some m⟩
    | none => ⟨a, romWord a, none⟩
  else ⟨a, s.reg (A.ucPatchRam t (a - 0x2000)), none⟩

/-! ## Routines (R118, R119) -/

/-- How the walk of a routine ends. -/
inductive MicroEnd where
  | dn
  /-- the routine goes on to the fault routine (1F00h) or the preload routine (1F80h); bits 31:16 of the last nano-word -/
  | sys (a : Nat) (cause : BitVec 16)
  /-- a microword waits on its own address (R118); a routine that has not ended within the microwords looked at goes on from there -/
  | waits (a : Nat)
  /-- a UCODE fault (R113): the detail of SEQ_FAULT_INFO -/
  | fault (code addr : Nat)

/-- A routine as walked: the match registers hit, in order, the microwords fetched before the wait, the nano-words that are not those
of the ROM routine, the microwords from the end on to one with a parity error, and the end. -/
structure MicroRun where
  hits : List Nat
  words : Nat
  drive : List (BitVec 192)
  bad : Option Nat
  fin : MicroEnd

/-- The nano-word of a microword that the ROM routine does not have at address `a`. -/
def Micro.drive (m : Micro) (a : Nat) : List (BitVec 192) :=
  if m.addr = a ∧ a < 0x2000 then []
  else if a < 0x2000 ∧ mwNano m.word = mwNano (romWord a) then []
  else [nanoWord (mwNano m.word)]

/-- The walk of a routine from micro-address `a`: the next address is NEXT OR the low CW bits of the condition group (R118). A word
that goes back to its own address waits, and is fetched in each cycle of the wait. `bad`: the microword found with a parity error; a
word that waits counts once. The address in SEQ_FAULT_INFO is where the faulty word lies: of a redirected fetch, that in the patch RAM
(DESIGN CHOICE, log entry 167). -/
def microWalk (fetch : Nat → Micro) (cond : Nat → Nat) (bad : Option Nat) : Nat → Nat → MicroRun
  | 0, a => ⟨[], 0, [], bad, .waits a⟩
  | fuel + 1, a =>
    let m := fetch a
    let hits := match m.hit with | some i => [i] | none => []
    if bad = some 0 then ⟨hits, 1, [], none, .fault 0 m.addr⟩
    else
      match microFault m.word with
      | some c => ⟨hits, 1, [], bad, .fault c m.addr⟩
      | none =>
        let left := bad.map (· - 1)
        if mwDone m.word then ⟨hits, 1, m.drive a, left, .dn⟩
        else
          let next := mwNext m.word ||| cond (mwCsel m.word) % 2 ^ mwCw m.word
          if next = a ∨ next = m.addr then ⟨[], 0, [], bad, .waits a⟩
          else if next = 0x1F00 ∨ next = 0x1F80 then
            ⟨hits, 1, m.drive a, left, .sys next ((nanoWord (mwNano m.word)).extractLsb' 16 16)⟩
          else
            let r := microWalk fetch cond left fuel next
            ⟨hits ++ r.hits, r.words + 1, m.drive a ++ r.drive, r.bad, r.fin⟩

/-- The flags of the ALU (R119, group 2): zero, negative, carry, compare true. The carry is that of ADD, and for SUB set where no
borrow occurs (DESIGN CHOICE, log entry 167); the spec defines none for the others. -/
def State.aluFlags (s : State) (t q : Nat) (x : Ins) : Nat :=
  let a := s.sreg t q x.rb
  let b := s.operand2 t q x
  let r : Word := match x.op with
    | 0x40 => a + b
    | 0x41 => a - b
    | 0x42 => a &&& b
    | 0x43 => a ||| b
    | 0x44 => a ^^^ b
    | 0x45 => aluShl a b
    | 0x46 => aluShr a b
    | 0x47 => aluSra a b
    | 0x48 => a * b
    | _ => s.sreg t q x.ra - (if x.flag 0 then 0 else s.sreg t q x.rb)
  let c := match x.op with
    | 0x40 => decide (2 ^ 32 ≤ a.toNat + b.toNat)
    | 0x41 => decide (b.toNat ≤ a.toNat)
    | _ => Config.aluCarry x.op a b
  let cmp := brTaken x.rc (s.sreg t q x.ra) (if x.flag 0 then 0 else s.sreg t q x.rb) == some true
  b2n (r == 0) + 2 * b2n r.msb + 4 * b2n c + 8 * b2n cmp

/-- What a condition group needs beside the state (R119): the operand checks, the decision bits, the deadline, the release. -/
structure MicroCond where
  reserved : Bool := false
  range : Bool := false
  role : Bool := false
  value : Option Nat := none
  deadline : Bool := false
  released : Bool := false

/-- The bits of a condition group (R119). The data memory of the model is always ready: nothing in the spec makes it wait (DESIGN
CHOICE, log entry 167). -/
def State.microCond (s : State) (t q : Nat) (x : Ins) (full : Bool) (c : MicroCond) (csel : Nat) : Nat :=
  let d := s.depth t q
  let k := sk t q
  match csel with
  | 1 => x.flg
  | 2 => s.aluFlags t q x
  | 3 => b2n (!full) + 2 * b2n ((s.tq k).held.isEmpty && (s.tq k).flight.isEmpty)
  | 4 => b2n c.value.isSome + 2 * b2n c.deadline
  | 5 => b2n (d != 0 && s.fld (A.seqLoopSe t q (d - 1)) F.seqLoopSe.endPc == s.pc t q) +
      2 * b2n (d != 0 && s.reg (A.seqLoopRem t q (d - 1)) == 1) + 4 * b2n (8 ≤ d) + 8 * b2n (d == 0)
  | 6 => b2n c.released
  | 7 => b2n c.reserved + 2 * b2n c.range + 4 * b2n c.role
  | 8 => 1
  | 9 => c.value.getD 0
  | _ => 0

/-- Counts the hits of a walk (UC_HIT_CNT). -/
def State.countHits (s : State) (t : Nat) : List Nat → State
  | [] => s
  | m :: ms => (s.bump (A.ucHitCnt t m)).countHits t ms

/-- The queue has no room (R70, R71): 64 entries held or on their way. -/
def State.queueFull (s : State) (k : Nat) : Bool := 64 ≤ (s.tq k).held.length + (s.tq k).flight.length

/-- The error status of a microword that faults (R117, UC_STS, UC_PAR_CNT). -/
def State.microError (s : State) (t code : Nat) : State :=
  if code = 0 then (s.raise (A.ucSts t) F.ucSts.parErr 1).bump (A.ucParCnt t)
  else s.raise (A.ucSts t) F.ucSts.formatErr 1

/-- The fetches of a wait of `cyc` cycles at micro-address `a`, one in each cycle (R118, R121). -/
def State.waitHits (s : State) (t a cyc : Nat) : List Nat :=
  match s.ucMatch t a with | some m => List.replicate cyc m | none => []

/-- A system routine that an instruction or a state change enters (R120: 1F00h fault, 1F80h preload), where the tile is patched or one of
its microwords has a parity error: the hits of its fetches, and how it ends. -/
def State.sysRoutine (s : State) (t q a : Nat) (bad : Option Nat) : State × MicroEnd :=
  if s.patched t || bad.isSome then
    let r := microWalk (s.microFetch t) (s.microCond t q (s.insAt t q (s.pc t q)) (s.queueFull (sk t q)) {}) bad 512 a
    let s1 := s.countHits t r.hits
    match r.fin with
    | .fault c b => (s1.microError t c, .fault c b)
    | e => (s1, e)
  else (s, .dn)

end Sys2Proof.Machine
end

