-- ==== Sys2Proof/Machine/Sequencer.lean ====
section
/-! DEFINITION. The sequencer instruction set (R78–R125, R485): one definition per instruction, over a common step
that fetches, checks, counts cycles, moves the program counter and raises faults. -/

namespace Sys2Proof.Machine

/-! ## State changes (R81, R83, R114) -/

/-- Moves a sequencer to a state of R83. -/
def State.setSeqState (s : State) (t q code : Nat) : State := s.setFld (A.seqSts t q) F.seqSts.state code

/-- Writes the program counter. -/
def State.setPc (s : State) (t q pc : Nat) : State := s.setReg (A.seqPc t q) (BitVec.ofNat 32 (pc % 4096))

/-- Writes the time cursor. -/
def State.setTc (s : State) (t q tc : Nat) : State := s.setReg (A.seqTc t q) (BitVec.ofNat 32 tc)

/-- Writes the loop depth. -/
def State.setDepth (s : State) (t q d : Nat) : State := s.setFld (A.seqSts t q) F.seqSts.loopDepth d

/-- Loads S[i] from data-memory word 240 + i, for the registers of a list. -/
def State.loadRegs (s : State) (t q : Nat) : List Nat → State
  | [] => s
  | i :: is => (s.setSreg t q i (s.dm t q (240 + i))).loadRegs t q is

/-- Clears loop entries; entries at or above the depth read 0. -/
def State.clearLoops (s : State) (t q : Nat) : List Nat → State
  | [] => s
  | i :: is => ((s.setReg (A.seqLoopSe t q i) 0).setReg (A.seqLoopRem t q i) 0).clearLoops t q is

/-- Counts island cycles spent in RUN or a stall state (SEQ_CYC). -/
def State.addCycles (s : State) (t q n : Nat) : State :=
  s.setPair (A.seqCycLo t q) (A.seqCycHi t q) (s.pair (A.seqCycLo t q) (A.seqCycHi t q) + n)

/-- What the preload does (R81): the routine at 1F80h, whose 4 cycles execute microwords and so count (R83: RUN; DEDUCED, log entry
168). -/
def State.preload (s : State) (t q : Nat) : State :=
  ((((s.loadRegs t q (List.range 16)).clearLoops t q (List.range 8)).setDepth t q 0).setPc t q
    (s.fld (A.seqCtl t q) F.seqCtl.startPc)).addCycles t q 4

/-- The cycles of a wait that a cut or an abort ends (R109, R125), and the fetches of its microword: the sequencer stood in a stall state
up to then. -/
def State.stallCut (s : State) (t q : Nat) : State :=
  let st := s.seqState t q
  if st = 3 ∨ st = 4 ∨ st = 5 then
    let n := Config.stallCycles s.tm.now (sk t q)
    let s1 := s.addCycles t q n
    match (s.seq (sk t q)).micro with
    | some a => s1.countHits t (s.waitHits t a n)
    | none => s1
  else s

/-- Counts a completed instruction (SEQ_INSTR). -/
def State.addInstr (s : State) (t q : Nat) : State :=
  s.setPair (A.seqInstrLo t q) (A.seqInstrHi t q) (s.pair (A.seqInstrLo t q) (A.seqInstrHi t q) + 1)

/-- The serial number of the shot that the sequencers of tile `t` run: the one in progress. -/
def State.runSid (s : State) (t : Nat) : Nat :=
  match s.plotOf t with
  | some p => (match s.current p with | some h => h.sid | none => 0)
  | none => 0

/-- A command leaves the sequencer for its queue (R27). -/
def State.sendCmd (s : State) (t q : Nat) (cmd : TqCmd) (stamp : Nat) (since : Option Nat) : State :=
  let k := sk t q
  s.setTq k { s.tq k with flight := (s.tq k).flight ++
    [{ cmd := cmd, stamp := stamp, sid := s.runSid t, issued := s.tm.now, stalledAt := since }] }

/-- Step 5 of a fault (R114): the count and the event; UCODE and PM_ECC faults count toward FAIL_LIM (R316). -/
def State.countFault (s : State) (t q cause : Nat) : State :=
  let k := sk t q
  let s1 : State := if cause = 0x0D || cause = 0x0E then
      { s with cfg := { s.cfg with faults := KMap.set 0 s.cfg.faults k (KMap.get 0 s.cfg.faults k + 1) } } else s
  (s1.bump (A.seqFaultCnt t q)).fire (tileSrc t 2)

/-- Steps 3 to 5 of a fault (R114, R125): FAULTED, the capture, the count, the event, the taint of the shot in progress. VALID, which is
W1C, stays set against a write in the same tick (R11). -/
def State.enterFaulted (s : State) (t q : Nat) (f : FaultInfo) : State :=
  let k := sk t q
  let s1 := (s.setSeqState t q 6).setSeq k { s.seq k with stall := .none, done := true, micro := none }
  let s2 := if s1.on (A.seqFault t q) F.seqFault.valid then s1
    else ((s1.setReg (A.seqFault t q) (BitVec.ofNat 32 (2 ^ 31 + f.pc % 4096 * 2 ^ 16 + f.cause % 32))).note
      (A.seqFault t q) F.seqFault.valid 1).setReg (A.seqFaultInfo t q) f.info
  let s3 := s2.countFault t q f.cause
  match s3.plotOf t with
  | some p => (match s3.current p with | some h => s3.flagShot p h.sid Flag.taint | none => s3)
  | none => s3

/-- A UCODE fault at the instruction of PC (R113, R125). -/
def State.ucodeInfo (s : State) (t q : Nat) (c a : Nat) : FaultInfo :=
  { cause := 0xE, info := BitVec.ofNat 32 (a + c * 2 ^ 16), pc := s.pc t q }

/-- A preload (R81) that leaves the sequencer in state `code` with hidden state `x`. A UCODE fault in its routine leaves it FAULTED; no
end marker is written, since no command of the shot is under way (DESIGN CHOICE, log entry 209). -/
def State.preloadTo (s : State) (t q code : Nat) (x : SeqX) (bad : Option Nat := none) : State :=
  let r := (s.preload t q).sysRoutine t q 0x1F80 bad
  match r.2 with
  | .fault c a => (r.1.setSeq (sk t q) x).enterFaulted t q (r.1.ucodeInfo t q c a)
  | _ => (r.1.setSeqState t q code).setSeq (sk t q) x

/-! ## Completion, loops and faults (R104, R105, R113) -/

/-- The loop test at address `pc` (R105), for at most `fuel` entries: the new state, the START address where a pass
remains, and how many entries acted. -/
def State.loopTest (s : State) (t q pc : Nat) : Nat → State × Option Nat × Nat
  | 0 => (s, none, 0)
  | fuel + 1 =>
    let d := s.depth t q
    let i := d - 1
    if d = 0 then (s, none, 0)
    else if s.fld (A.seqLoopSe t q i) F.seqLoopSe.endPc ≠ pc then (s, none, 0)
    else
      let rem := s.reg (A.seqLoopRem t q i) - 1
      if rem ≠ 0 then (s.setReg (A.seqLoopRem t q i) rem, some (s.fld (A.seqLoopSe t q i) F.seqLoopSe.start), 1)
      else
        let r := ((s.clearLoops t q [i]).setDepth t q i).loopTest t q pc fuel
        (r.1, r.2.1, r.2.2 + 1)

/-- The issue of a command finds the queue full (R71, R114): the sequencer waits in STALL_Q. -/
def State.stallQ (s : State) (t q : Nat) (cmd : TqCmd) (a : After) : State :=
  let k := sk t q
  let s1 := (s.setSeqState t q 3).setSeq k { s.seq k with stall := .queue cmd (s.tc t q) a s.tm.now }
  let s2 := s1.raise (A.tqSts t q) F.tqSts.stalled 1
  if (s2.tq k).fullFired then s2
  else (s2.setTq k { s2.tq k with fullFired := true }).fire (tileSrc t 1)

/-- A fault: the end marker of R114 goes to the queue, behind a wait in STALL_Q where it is full; then FAULTED. A UCODE fault in the
fault routine counts as one more fault, which the capture of the first hides (R125), and does not enter the routine again (DESIGN
CHOICE, log entry 209). -/
def State.fault (s : State) (t q : Nat) (f : FaultInfo) (bad : Option Nat := none) : State :=
  let r := s.sysRoutine t q 0x1F00 bad
  let s1 := match r.2 with | .fault _ _ => r.1.countFault t q 0xE | _ => r.1
  if s1.queueFull (sk t q) then
    let s2 := s1.stallQ t q .endMarker (.fault f)
    match r.2 with | .waits a => s2.setSeq (sk t q) { s2.seq (sk t q) with micro := some a, redir := true } | _ => s2
  else (s1.sendCmd t q .endMarker (s1.tc t q) none).enterFaulted t q f

/-- Completion without a taken branch: the loop test, then the next PC, or PC_END past address 4,095 (R105, R113). -/
def State.complete (s : State) (t q : Nat) (bad : Option Nat := none) : State :=
  let pc := s.pc t q
  let r := (s.addInstr t q).loopTest t q pc 8
  let s1 := r.1.addCycles t q r.2.2
  match r.2.1 with
  | some start => s1.setPc t q start
  | none =>
    if pc = 4095 then (s1.addCycles t q 1).fault t q { cause := 4, info := 0, pc := pc } bad
    else s1.setPc t q (pc + 1)

/-- What follows once a command has entered the queue: completion, the preload of END (R102), or FAULTED (R114). -/
def State.after (s : State) (t q : Nat) (a : After) (bad : Option Nat := none) : State :=
  match a with
  | .next => s.complete t q bad
  | .preload => (s.addInstr t q).preloadTo t q 1 { s.seq (sk t q) with stall := .none, done := true } bad
  | .fault f => s.enterFaulted t q f

/-- A sequencer issues a command, or stalls on a full queue (R71). -/
def State.issue (s : State) (t q : Nat) (cmd : TqCmd) (a : After) (bad : Option Nat := none) : State :=
  if s.queueFull (sk t q) then s.stallQ t q cmd a
  else (s.sendCmd t q cmd (s.tc t q) none).after t q a bad

/-- What an instruction does once it has passed its checks. -/
inductive IRes where
  /-- it completes in the state given -/
  | next (s : State)
  /-- a taken branch: the new PC, with `refill` cycles -/
  | jump (s : State) (pc refill : Nat)
  /-- it issues a command -/
  | issue (cmd : TqCmd) (a : After)
  /-- it waits -/
  | wait (st : Stall) (code : Nat)
  /-- it completes, and no next PC exists (PC_END) -/
  | pcEnd
  /-- it faults while it executes, or one of its own checks fails: cause, detail, and cycles before FAULTED -/
  | fault (cause : Nat) (info : Word) (cyc : Nat)

/-- An operand out of range or misaligned, as the operand check of a routine finds it (R119, group 7). -/
def IRes.outOfRange : IRes → Bool
  | .fault c _ _ => c == 3 || c == 7 || c == 8
  | _ => false

/-- Carries out what an instruction of `cyc` cycles does. A LOOP with count 0 goes to its own END + 1 (R104), and no loop test is made
then, should it stand at the END address of the top entry itself (DESIGN CHOICE, log entry 169). -/
def State.finish (s : State) (t q cyc : Nat) (r : IRes) (bad : Option Nat := none) : State :=
  match r with
  | .next s1 => (s1.addCycles t q cyc).complete t q bad
  | .jump s1 pc refill => ((s1.addCycles t q (cyc + refill)).addInstr t q).setPc t q pc
  | .issue cmd a => (s.addCycles t q cyc).issue t q cmd a bad
  | .wait st code =>
    let s1 := (s.addCycles t q cyc).setSeqState t q code
    let z := s1.seq (sk t q)
    s1.setSeq (sk t q) { z with stall := st, port := match st with | .dec _ k ks midx _ => some (ks, midx, k) | _ => z.port }
  | .pcEnd => ((s.addCycles t q (cyc + 1)).addInstr t q).fault t q { cause := 4, info := 0, pc := s.pc t q } bad
  | .fault c info n => (s.addCycles t q n).fault t q { cause := c, info := info, pc := s.pc t q } bad

/-! ## Fetch and dispatch (R80, R86, R88, R120, R121, R485) -/

/-- A single-bit program-memory error is corrected and counted (R80). -/
def State.pmCorrected (s : State) (t q : Nat) (e : Ecc) : State :=
  match e with
  | .single => ((s.raise (A.seqSts t q) F.seqSts.pmCorr 1).bump (A.seqPmCorr t q)).fire (tileSrc t 3)
  | _ => s

/-- The role code by which a sequencer is judged (R88, R319). -/
def State.role (s : State) (t q : Nat) : Nat := roleCode (s.effIdx t q)

/-- Bits 63:32 of the instruction at PC, the detail of BAD_OPERAND. -/
def State.insHi (s : State) (t q : Nat) : Word := s.word (progAt t q (s.pc t q) + 4)

/-- A sequencer executes. -/
def State.running (s : State) (t q : Nat) : Bool := s.seqState t q == 2 && (s.seq (sk t q)).stall == .none

/-- The checks of R485 in order, and then what the instruction does. -/
def State.judged (s : State) (t q : Nat) (x : Ins) (body : Ins → State → IRes) : IRes :=
  match opMask x.op with
  | none => .fault 1 0 3
  | some m =>
    if !roleAllows x.op (s.role t q) then .fault 2 0 3
    else if !x.reservedOk m then .fault 3 (s.insHi t q) 3
    else body x s

/-- The serial number and the tag of the shot that sequencers of tile `t` run (R238). -/
def State.runTag (s : State) (t : Nat) : Nat :=
  match s.plotOf t with
  | some p => s.tagOf p (s.runSid t)
  | none => 0

/-- The DT deadline of a BRMW (R107): S + TC − 20. -/
def State.brmwDeadline (s : State) (t q : Nat) : Int :=
  match s.plotOf t with
  | some p => (match s.current p with | some h => (h.start : Int) + s.tc t q - 20 | none => 0)
  | none => 0

/-- The walk of an instruction's routine (R118–R121), where a patch or a parity error makes it matter: from its dispatch, or from the
microword at which it waits. Groups 4 and 9 show what the decision port last latched; a BRMW, which latches anew, waits at first. -/
def State.insWalk (s : State) (t q : Nat) (e : Ecc) (x : Ins) (body : Ins → State → IRes) : Option MicroRun :=
  let z := s.seq (sk t q)
  let c : MicroCond := {
    reserved := match opMask x.op with | some m => !x.reservedOk m | none => false
    range := (body x s).outOfRange
    role := !roleAllows x.op (s.role t q)
    value := if x.op = 3 then none else
      match z.port with | some (ks, midx, k) => keyValue (s.keyBits t ks midx (s.runTag t) k 0) | none => none
    deadline := x.op != 3 && z.port.isSome && decide (s.brmwDeadline t q ≤ s.DT) }
  let walk := fun bad => some (microWalk (s.microFetch t) (s.microCond t q x (s.queueFull (sk t q)) c) bad 512
    (z.micro.getD (dispatchAddr x.op)))
  match e with
  | .microParity n => walk (some n.val)
  | _ => if s.patched t then walk none else none

/-- An instruction's program-memory word. -/
def State.insWord (s : State) (t q : Nat) : BitVec 64 := s.insHi t q ++ s.word (progAt t q (s.pc t q))

/-- The registers of a sequencer as the nano-words of a changed routine leave them; `s1` as the instruction set has them. -/
def State.driveRegs (s s1 : State) (t q : Nat) (ds : List (BitVec 192)) : State :=
  let w := s.insWord t q
  let s2 := (List.range 16).foldl (fun z i => z.setSreg t q i (Config.nanoReg ds w i (s.sreg t q i) (s1.sreg t q i))) s1
  s2.setTc t q (Config.nanoReg ds w 16 (s.reg (A.seqTc t q)) (s1.reg (A.seqTc t q))).toNat

/-- What an instruction does whose routine a patch has changed (R120, R121; free, log entry 40): the nano-words `ds` are not those of its
ROM routine, and the coding of their bits is not described. -/
def State.driven (s : State) (t q : Nat) (ds : List (BitVec 192)) (r : IRes) : IRes :=
  if ds = [] then r
  else
    let w := s.insWord t q
    let acts := Config.nanoActs ds w
    match r with
    | .next s1 => .next (s.driveRegs (if acts then s1 else s) t q ds)
    | .jump s1 pc refill => .jump (s.driveRegs (if acts then s1 else s) t q ds)
        ((Config.nanoReg ds w 17 (s.reg (A.seqPc t q)) (BitVec.ofNat 32 pc)).toNat) refill
    | .issue cmd a => if acts then .issue cmd a else .next (s.driveRegs s t q ds)
    | .wait st code => if acts then .wait st code else .next (s.driveRegs s t q ds)
    | r => r

/-- A sequencer waits for its own instruction: in STALL_Q with a command, in STALL_DEC or in STALL_SYNC. -/
def SeqX.waiting (z : SeqX) : Bool :=
  match z.stall with
  | .none | .queue _ _ (.fault _) _ => false
  | _ => true

/-- The microword at which the routine of sequencer (t, q) waits, how its fetches went so far, and the parity error to come. -/
def State.holdMicro (s : State) (t q : Nat) (a : Option Nat) (redir : Bool) (bad : Option Nat) : State :=
  s.setSeq (sk t q) { s.seq (sk t q) with micro := a, redir := redir, bad := bad }

/-- An instruction whose routine a patch has redirected, once it is walked (R118–R121). It takes as many cycles as it has microwords
(R89). A routine that waits where the instruction set has no wait keeps the sequencer in RUN at its instruction, whose next row goes on
from there. An unlisted opcode that a patch gives a routine executes it. -/
def State.redirected (s : State) (t q : Nat) (x : Ins) (r : MicroRun) (body : Ins → State → IRes) : State :=
  let res := s.judged t q x body
  match r.fin with
  | .fault c a => (s.microError t c).finish t q 0 (.fault 0xE (BitVec.ofNat 32 (a + c * 2 ^ 16)) (r.words + 1)) r.bad
  | .waits a =>
    (match res with
     | .fault _ _ _ | .wait _ _ =>
       let s1 := s.finish t q r.words res r.bad
       if (s1.seq (sk t q)).waiting then s1.holdMicro t q (some a) true r.bad else s1
     | .issue cmd aft =>
       if s.queueFull (sk t q) then (s.finish t q r.words (.issue cmd aft)).holdMicro t q (some a) true r.bad
       else (s.addCycles t q r.words).holdMicro t q (some a) true r.bad
     | _ => (s.addCycles t q r.words).holdMicro t q (some a) true r.bad)
  | .sys n cause =>
    if n = 0x1F00 then
      match res with
      | .fault c i m => s.finish t q 0 (.fault c i m) r.bad
      | _ => s.finish t q 0 (.fault (Config.nanoCause cause).toNat 0 (r.words + 1)) r.bad
    else s.finish t q r.words (s.driven t q r.drive res) r.bad
  | .dn =>
    if (opMask x.op).isNone then s.finish t q r.words (s.driven t q r.drive (.next s)) r.bad
    else s.finish t q r.words (s.driven t q r.drive res) r.bad

/-- One instruction: fetch, its routine, the checks of R485 in order, then `body` with its cycle count. -/
def State.instr (s : State) (t q : Nat) (e : Ecc) (cyc : Ins → Nat) (body : Ins → State → IRes) : State :=
  let x := s.insAt t q (s.pc t q)
  if e = .double then s.finish t q 0 (.fault 0xD 0 1)
  else
    let s1 := s.pmCorrected t q e
    match s1.insWalk t q e x body with
    | none => s1.finish t q (cyc x) (s1.judged t q x body)
    | some r =>
      let z := s1.seq (sk t q)
      let s2 := (s1.countHits t r.hits).holdMicro t q none false none
      if z.redir && z.micro.isSome || r.hits != [] then s2.redirected t q x r body
      else
        match r.fin with
        | .fault c a => (s2.microError t c).finish t q 0 (.fault 0xE (BitVec.ofNat 32 (a + c * 2 ^ 16)) (r.words + 1)) r.bad
        | .waits a =>
          let s3 := s2.finish t q (cyc x) (s2.judged t q x body) r.bad
          if (s3.seq (sk t q)).waiting then s3.holdMicro t q (some a) false r.bad else s3
        | _ => s2.finish t q (cyc x) (s2.judged t q x body) r.bad

/-- The row of an instruction: it acts where the sequencer runs and `ops` admits the opcode at its PC. -/
def State.instrRow (s : State) (t q : Nat) (e : Ecc) (ops : Nat → Bool) (cyc : Ins → Nat)
    (body : Ins → State → IRes) : Res :=
  onlyIf (s.running t q && ops (s.insAt t q (s.pc t q)).op) s (s.instr t q e cyc body)

/-- BAD_OPERAND (R113, R485). -/
def State.badOperand (s : State) (t q : Nat) : IRes := .fault 3 (s.insHi t q) 3

/-! ## Instructions -/

/-- NOP; also every opcode that the operand table does not list (ILLEGAL_OP). -/
def execNop (t : Tile) (q : Seq) (e : Ecc) (s : State) : Res :=
  s.instrRow t q e (fun op => op == 0 || (opMask op).isNone) (fun _ => 1) fun _ s => .next s

/-- END (R102). -/
def execEnd (t : Tile) (q : Seq) (e : Ecc) (s : State) : Res :=
  s.instrRow t q e (· == 0x01) (fun _ => 2) fun _ _ => .issue .endMarker .preload

/-- BR (R103). -/
def execBr (t : Tile) (q : Seq) (e : Ecc) (s : State) : Res :=
  s.instrRow t q e (· == 0x02) (fun _ => 2) fun x s =>
    let pops := bits x.imm 15 12
    match brTaken x.rc (s.sreg t q x.ra) (if x.flag 0 then 0 else s.sreg t q x.rb) with
    | none => s.badOperand t q
    | some taken =>
      if 8 < pops then s.badOperand t q
      else if !taken then .next s
      else if s.depth t q < pops then .fault 6 0 3
      else
        let d := s.depth t q - pops
        .jump ((s.clearLoops t q ((List.range 8).filter (d ≤ ·))).setDepth t q d) (bits x.imm 11 0) 2

/-- BRMW (R106, R107): it latches its operands and waits in STALL_DEC. -/
def execBrmw (t : Tile) (q : Seq) (e : Ecc) (s : State) : Res :=
  s.instrRow t q e (· == 0x03) (fun _ => 2) fun x s =>
    let k := bits x.imm 13 12 + 1
    let base := bits x.imm 11 0
    if !s.keyDefined t (bits x.imm 16 14) k then s.badOperand t q
    else if base % 2 ^ k ≠ 0 then .fault 7 0 3
    else .wait (.dec base k (bits x.imm 16 14) (s.midxOperand t q x) (x.flag 1)) 4

/-- LOOP (R104). -/
def execLoop (t : Tile) (q : Seq) (e : Ecc) (s : State) : Res :=
  s.instrRow t q e (· == 0x04) (fun _ => 2) fun x s =>
    let pc := s.pc t q
    let endA := bits x.imm 11 0
    let c := if x.flag 0 then s.sreg t q x.ra else BitVec.ofNat 32 (bits x.imm 31 12)
    let d := s.depth t q
    if endA < pc + 1 then s.badOperand t q
    else if c = 0 then (if endA = 4095 then .pcEnd else .jump s (endA + 1) 0)
    else if 8 ≤ d then .fault 5 0 3
    else .next (((s.setReg (A.seqLoopSe t q d) (BitVec.ofNat 32 (endA * 2 ^ 16 + (pc + 1)))).setReg
      (A.seqLoopRem t q d) c).setDepth t q (d + 1))

/-- Sequencer `q` is named in barrier `b` of tile `t` (R315). -/
def State.inBarrier (s : State) (t q b : Nat) : Bool :=
  if q < 32 then (s.reg (A.tileBarLo t b)).toNat.testBit q else (s.reg (A.tileBarHi t b)).toNat.testBit (q - 32)

/-- SYNC (R108). -/
def execSync (t : Tile) (q : Seq) (e : Ecc) (s : State) : Res :=
  s.instrRow t q e (· == 0x05) (fun _ => 2) fun x s =>
    let b := bits x.sub 3 0
    if !s.inBarrier t q b then .fault 0xC 0 3
    else .wait (.sync b (x.flag 0)) 5

/-- EVT (R101). -/
def execEvt (t : Tile) (q : Seq) (e : Ecc) (s : State) : Res :=
  s.instrRow t q e (· == 0x06) (fun _ => 2) fun x _ => .issue (.evt (bits x.sub 1 0)) .next

/-- WAIT (R91, R92). -/
def execWait (t : Tile) (q : Seq) (e : Ecc) (s : State) : Res :=
  s.instrRow t q e (· == 0x10) (fun _ => 1) fun x s =>
    let v := s.tc t q + s.tickOperand t q x
    if 0xFFFFFFFF < v then .fault 0xB 0 2 else .next (s.setTc t q v)

/-- WAITUNTIL (R91). -/
def execWaituntil (t : Tile) (q : Seq) (e : Ecc) (s : State) : Res :=
  s.instrRow t q e (· == 0x11) (fun _ => 2) fun x s =>
    let v := s.tickOperand t q x
    if s.tc t q ≤ v then .next (s.setTc t q v)
    else .next (s.raise (A.seqSts t q) F.seqSts.tcClamp 1)

/-- PLAY (R94). -/
def execPlay (t : Tile) (q : Seq) (e : Ecc) (s : State) : Res :=
  s.instrRow t q e (· == 0x20) (fun _ => 2) fun x s =>
    if fluxRole (s.role t q) && bits x.sub 2 0 != 0 then s.badOperand t q
    else .issue (.play (s.playOperand t q x)) .next

/-- ARM (R95). -/
def execArm (t : Tile) (q : Seq) (e : Ecc) (s : State) : Res :=
  s.instrRow t q e (· == 0x21) (fun x => 2 + (bits x.imm 13 10 + 1)) fun x s =>
    let tab := bits x.imm 6 0
    let k := bits x.imm 9 8 + 1
    let n := bits x.imm 13 10 + 1
    let fb := bits x.imm 17 14
    let ks := bits x.imm 20 18
    if 2 ^ k < n || n ≤ fb || !s.keyDefined t ks k then s.badOperand t q
    else if 127 < tab + n - 1 then .fault 8 (BitVec.ofNat 32 (2 * (tab + n - 1))) 3
    else
      match s.altsFrom t q (s.role t q) tab n 0 with
      | .error j => .fault 0xA (BitVec.ofNat 32 j) (2 + n + 1)
      | .ok alts => .issue (.arm alts k fb ks (s.midxOperand t q x)) .next

/-- MARK (R98). -/
def execMark (t : Tile) (q : Seq) (e : Ecc) (s : State) : Res :=
  s.instrRow t q e (· == 0x22) (fun _ => 2) fun x _ =>
    .issue (.mark (x.flag 0) (bits x.sub 1 0) (if x.flag 0 then bits x.imm 1 0 else bits x.imm 15 0)) .next

/-- VEC (R98). -/
def execVec (t : Tile) (q : Seq) (e : Ecc) (s : State) : Res :=
  s.instrRow t q e (· == 0x23) (fun _ => 2) fun x _ =>
    .issue (.vec (x.flag 0) (bits x.sub 1 0) (if x.flag 0 then bits x.imm 1 0 else bits x.imm 15 0)) .next

/-- MEAS (R97). -/
def execMeas (t : Tile) (q : Seq) (e : Ecc) (s : State) : Res :=
  s.instrRow t q e (· == 0x24) (fun _ => 3) fun x s =>
    let len := s.lenOperand t q x
    let noRec := x.imm.testBit 21
    let noDec := x.imm.testBit 22
    if len = 0 || 65535 < len || (noRec && noDec) then s.badOperand t q
    else
      let midx := if x.flag 1 then (s.sreg t q x.rb).toNat % 256 else x.sub
      .issue (.meas len (bits x.imm 19 16) midx (x.imm.testBit 20) noRec noDec) .next

/-- BIASQ (R99). -/
def execBiasq (t : Tile) (q : Seq) (e : Ecc) (s : State) : Res :=
  s.instrRow t q e (· == 0x25) (fun _ => 2) fun x s =>
    .issue (.biasq (bits x.sub 3 0) (if x.flag 0 then (s.sreg t q x.ra).toNat % 2 ^ 20 else bits x.imm 19 0)) .next

/-- FREQ (R100). -/
def execFreq (t : Tile) (q : Seq) (e : Ecc) (s : State) : Res :=
  s.instrRow t q e (· == 0x30) (fun x => if x.flag 0 then 2 else 3) fun x s =>
    .issue (.freq (bits x.sub 2 0) (s.freqOperand t q x)) .next

/-- PHASE (R100). -/
def execPhase (t : Tile) (q : Seq) (e : Ecc) (s : State) : Res :=
  s.instrRow t q e (· == 0x31) (fun _ => 2) fun x s =>
    .issue (.phase (bits x.sub 2 0) (x.flag 1)
      (if x.flag 0 then s.sreg t q x.ra else BitVec.ofNat 32 x.imm)) .next

/-- An ALU instruction (R110): S[RA] takes the result. -/
def State.alu (s : State) (t q : Nat) (e : Ecc) (op cyc : Nat) (f : Word → Word → Word) : Res :=
  s.instrRow t q e (· == op) (fun _ => cyc) fun x s =>
    .next (s.setSreg t q x.ra (f (s.sreg t q x.rb) (s.operand2 t q x)))

/-- ADD. -/
def execAdd (t : Tile) (q : Seq) (e : Ecc) (s : State) : Res := s.alu t q e 0x40 1 (· + ·)
/-- SUB. -/
def execSub (t : Tile) (q : Seq) (e : Ecc) (s : State) : Res := s.alu t q e 0x41 1 (· - ·)
/-- AND. -/
def execAnd (t : Tile) (q : Seq) (e : Ecc) (s : State) : Res := s.alu t q e 0x42 1 (· &&& ·)
/-- OR. -/
def execOr (t : Tile) (q : Seq) (e : Ecc) (s : State) : Res := s.alu t q e 0x43 1 (· ||| ·)
/-- XOR. -/
def execXor (t : Tile) (q : Seq) (e : Ecc) (s : State) : Res := s.alu t q e 0x44 1 (· ^^^ ·)
/-- SHL. -/
def execShl (t : Tile) (q : Seq) (e : Ecc) (s : State) : Res := s.alu t q e 0x45 1 aluShl
/-- SHR. -/
def execShr (t : Tile) (q : Seq) (e : Ecc) (s : State) : Res := s.alu t q e 0x46 1 aluShr
/-- SRA. -/
def execSra (t : Tile) (q : Seq) (e : Ecc) (s : State) : Res := s.alu t q e 0x47 1 aluSra
/-- MUL: the low 32 bits of the product. -/
def execMul (t : Tile) (q : Seq) (e : Ecc) (s : State) : Res := s.alu t q e 0x48 3 (· * ·)

/-- MOVI (R87). -/
def execMovi (t : Tile) (q : Seq) (e : Ecc) (s : State) : Res :=
  s.instrRow t q e (· == 0x49) (fun _ => 1) fun x s => .next (s.setSreg t q x.ra (BitVec.ofNat 32 x.imm))

/-- RDSP (R111): a spare reads the index it stands in for (R319). -/
def execRdsp (t : Tile) (q : Seq) (e : Ecc) (s : State) : Res :=
  s.instrRow t q e (· == 0x4A) (fun _ => 1) fun x s =>
    let d := s.depth t q
    let v : Option Word := match bits x.sub 2 0 with
      | 0 => some (s.reg (A.seqTc t q))
      | 1 => some (match s.plotOf t with | some p => s.reg (A.shotNum p) | none => 0)
      | 2 => some (BitVec.ofNat 32 t)
      | 3 => some (BitVec.ofNat 32 (s.effIdx t q))
      | 4 => some (if d = 0 then 0 else s.reg (A.seqLoopRem t q (d - 1)))
      | 5 => some (BitVec.ofNat 32 d)
      | _ => none
    match v with
    | none => s.badOperand t q
    | some v => .next (s.setSreg t q x.ra v)

/-- LD (R112). -/
def execLd (t : Tile) (q : Seq) (e : Ecc) (s : State) : Res :=
  s.instrRow t q e (· == 0x50) (fun _ => 2) fun x s =>
    let a := s.sreg t q x.rb + BitVec.ofNat 32 x.imm
    if 255 < a.toNat then .fault 8 a 3 else .next (s.setSreg t q x.ra (s.dm t q a.toNat))

/-- ST (R112). -/
def execSt (t : Tile) (q : Seq) (e : Ecc) (s : State) : Res :=
  s.instrRow t q e (· == 0x51) (fun _ => 1) fun x s =>
    let a := s.sreg t q x.rb + BitVec.ofNat 32 x.imm
    if 255 < a.toNat then .fault 8 a 3 else .next (s.setWord (dataAt t q a.toNat) (s.sreg t q x.ra))

/-! ## Waits (R71, R107, R108) -/

/-- The rest of a routine from the microword at which it waits (R118, R120, R121): the hits of its fetches, with one in each of the `cyc`
cycles of the wait, how it ends, and its cycles, `std` where no fetch of the routine was redirected. -/
def State.tail (s : State) (t q cyc std : Nat) (c : MicroCond) : State × MicroEnd × Nat :=
  let z := s.seq (sk t q)
  match z.micro with
  | none => (s, .dn, std)
  | some a =>
    let r := microWalk (s.microFetch t) (s.microCond t q (s.insAt t q (s.pc t q)) (s.queueFull (sk t q)) c) z.bad 512 a
    let wait := s.waitHits t a cyc
    let hit := z.redir || wait != [] || r.hits != []
    let s1 := (s.countHits t (wait ++ r.hits)).holdMicro t q none false r.bad
    match r.fin with
    | .fault n b => (s1, .fault n b, r.words)
    | fin => if hit then (s1, fin, r.words) else (s1, .dn, std)

/-- How a sequencer whose wait has ended goes on with its routine: UCODE, another fault, another wait, or `k`. -/
def State.resume (s : State) (t q cyc : Nat) (r : MicroEnd × Nat) (k : State → State) : State :=
  match r.1 with
  | .fault c a => ((s.microError t c).addCycles t q (cyc + r.2 + 1)).fault t q (s.ucodeInfo t q c a) (s.seq (sk t q)).bad
  | .waits a => (s.addCycles t q (cyc + r.2)).holdMicro t q (some a) true (s.seq (sk t q)).bad
  | .sys n cause =>
    if n = 0x1F00 then (s.addCycles t q (cyc + r.2 + 1)).fault t q
      { cause := (Config.nanoCause cause).toNat, info := 0, pc := s.pc t q } (s.seq (sk t q)).bad
    else k s
  | .dn => k s

/-- The sequencer is in RUN and no longer stalled. -/
def State.unstall (s : State) (t q : Nat) : State :=
  (s.setSeqState t q 2).setSeq (sk t q) { s.seq (sk t q) with stall := .none }

/-- QUEUE_STALL_END (R71): an entry is freed, and the stalled command enters the queue. -/
def execQueueStallEnd (t : Tile) (q : Seq) (cyc : Nat) (s : State) : Res :=
  let k := sk t q
  match (s.seq k).stall with
  | .queue cmd stamp a since =>
    onlyIf (s.seqState t q == 3 && !s.queueFull k) s
      (match a with
       | .fault f =>
         let r := s.tail t q cyc 0 {}
         let s1 := match r.2.1 with | .fault c _ => (r.1.microError t c).countFault t q 0xE | _ => r.1
         (((s1.addCycles t q cyc).unstall t q).sendCmd t q cmd stamp (some since)).enterFaulted t q f
       | _ =>
         let r := s.tail t q cyc 0 {}
         r.1.resume t q cyc r.2 fun s1 =>
           (((s1.addCycles t q (cyc + r.2.2)).unstall t q).sendCmd t q cmd stamp (some since)).after t q a (s1.seq k).bad)
  | _ => done s

/-- BRMW_DECISION_VALID (R107, R243): all K key bits are valid, and have been for the island cycle in which they at the earliest reach the
island; PC becomes BASE OR v, with the wait and done microwords and 2 refill cycles. The bits win against a deadline of the same
cycle. The bits are those of the tick's views, its releases made (R226). -/
def execBrmwDecisionValid (t : Tile) (q : Seq) (cyc : Nat) (s : State) : Res :=
  match (s.seq (sk t q)).stall with
  | .dec base n ks midx _ =>
    match keyValue (s.keyBits t ks midx (s.runTag t) n 0) with
    | some v =>
      let r := s.tail t q cyc 2 { value := some v, deadline := decide (s.brmwDeadline t q ≤ s.DT) }
      onlyIf (s.seqState t q == 4 && s.islandPast t q 1 (s.keyAge t ks n)) s
        (r.1.resume t q cyc r.2 fun s1 =>
          (((s1.addCycles t q (cyc + r.2.2 + 2)).addInstr t q).setPc t q (base ||| v)).unstall t q)
    | none => done s
  | _ => done s

/-- BRMW_DEADLINE (R107): the deadline arrives first: DEC_TIMEOUT. Bits that have become valid at the port within the last 2 island cycles
need not have reached the island (R243). -/
def execBrmwDeadline (t : Tile) (q : Seq) (cyc : Nat) (s : State) : Res :=
  match (s.seq (sk t q)).stall with
  | .dec _ n ks midx false =>
    let r := s.tail t q cyc 2 { deadline := true }
    let late := (keyValue (s.keyBits t ks midx (s.runTag t) n 0)).isNone || !s.islandPast t q 2 (s.keyAge t ks n)
    onlyIf (s.seqState t q == 4 && decide (s.brmwDeadline t q ≤ s.DT) && late) s
      (match r.2.1 with
       | .sys _ _ | .dn => (r.1.addCycles t q (cyc + r.2.2 + 1)).fault t q
           { cause := 9, info := toW (s.brmwDeadline t q), pc := s.pc t q } (r.1.seq (sk t q)).bad
       | _ => r.1.resume t q cyc r.2 id)
  | _ => done s

/-- The participants of barrier `b` of plot `p` (R108, R84, R315), as keys. -/
def State.participants (s : State) (p b : Nat) : List Nat :=
  (s.seqsOf p).filter fun k => s.inBarrier (k / 34) (k % 34) b && s.seqState (k / 34) (k % 34) != 7

/-- Sequencer `k` waits at barrier `b`. -/
def State.waitsAt (s : State) (b k : Nat) : Bool :=
  s.seqState (k / 34) (k % 34) == 5 &&
    (match (s.seq k).stall with | .sync b' _ => b' == b | _ => false)

/-- The largest TC held at arrival (R108). -/
def State.syncTc (s : State) (b : Nat) (ks : List Nat) : Nat :=
  ks.foldl (fun m k => if s.waitsAt b k then max m (s.tc (k / 34) (k % 34)) else m) 0

/-- Releases one waiting participant. -/
def State.releaseOne (tc b : Nat) (s : State) (k : Nat) : State :=
  let t := k / 34
  let q := k % 34
  if s.waitsAt b k then
    let keep := match (s.seq k).stall with | .sync _ na => na | _ => false
    let cyc := Config.syncCycles s.tm.now k
    let s1 := if keep then s else s.setTc t q tc
    let r := s1.tail t q cyc 0 { released := true }
    r.1.resume t q cyc r.2 fun s2 => ((s2.addCycles t q (cyc + r.2.2)).unstall t q).complete t q (s2.seq k).bad
  else s

/-- SYNC_RELEASE (R108): every participant waits at the barrier, has executed END, or has faulted. -/
def execSyncRelease (p : Plot) (b : Fin 16) (s : State) : Res :=
  let ks := s.participants p b
  onlyIf (ks.any (s.waitsAt b) && ks.all fun k => s.waitsAt b k || (s.seq k).done) s
    (ks.foldl (State.releaseOne (s.syncTc b ks) b) s)

/-! ## Control writes (R115, R124) -/

/-- The checks of a write to a sequencer's control register (R124): START_PC and ENABLE stay while the sequencer is
neither IDLE nor OFF. -/
def State.seqCtlWord (s : State) (t q : Nat) (w : Word) : Word :=
  if s.seqIdle t q then w
  else putF (putF w F.seqCtl.startPc (s.fld (A.seqCtl t q) F.seqCtl.startPc)) F.seqCtl.enable
    (s.fld (A.seqCtl t q) F.seqCtl.enable)

/-- An OFF sequencer is enabled, or an idle one disabled (R124, R83). The preload of a late joiner takes no ticks in the model: it is in
WAIT_SHOT at once and begins with a shot announced within its 4 cycles (DESIGN CHOICE, log entry 168). -/
def State.seqEnable (s : State) (t q : Nat) (was now : Bool) : State :=
  let k := sk t q
  if was == now then s
  else if !now then (s.setSeqState t q 7).setSeq k { s.seq k with joinAtEnd := false }
  else if s.role t q = 5 then s
  else
    match s.plotOf t with
    | none => s.setSeqState t q 0
    | some p =>
      if s.stopped p then s.setSeqState t q 0
      else if (s.current p).isSome then s.setSeq k { s.seq k with joinAtEnd := true }
      else s.preloadTo t q 1 (s.seq k)

/-- The effect of CLR_FAULT (R115): a sequencer that is held goes back to no fault as the hold ends. A FAULTED sequencer whose VALID a W1C write cleared before counts as one of those that preload:
R115 names FAULTED without that condition (DESIGN CHOICE between its two sentences, log entry 170). -/
def State.clearFault (s : State) (t q : Nat) : State :=
  let had := s.on (A.seqFault t q) F.seqFault.valid
  let s1 := s.setFld (A.seqFault t q) F.seqFault.valid 0
  let st := s.seqState t q
  let s1 : State := { s1 with cfg := { s1.cfg with hold := s1.cfg.hold.map fun h => { h with faulted := h.faulted.erase (sk t q) } } }
  if st = 6 ∨ (st = 0 ∧ had) then
    let stoppedNow := match s.plotOf t with | some p => s.stopped p | none => true
    s1.preloadTo t q (if stoppedNow then 0 else 1) (s1.seq (sk t q))
  else s1

/-- A write of SEQ_CTL. Where the configuration is sealed, a write that would change START_PC or ENABLE is refused as a write of LK
fields and sets ACCESS_ERR; whatever the sequencer's state, WR_IGNORED stays (DESIGN CHOICE, log entry 171). The loader's writes, which
hold the sequencers concerned, are not bound by the limit (R295). -/
def State.writeSeqCtl (s : State) (src : Req) (t q : Nat) (w : Word) : WRes :=
  let w1 := if s.locked src || src == .mgmt then w else s.seqCtlWord t q w
  let was := s.on (A.seqCtl t q) F.seqCtl.enable
  s.write src spec_seqCtl (A.seqCtl t q) w1 none fun s1 =>
    let s2 := if w1 = w then s1 else s1.raise (A.seqSts t q) F.seqSts.wrIgnored 1
    let s3 := s2.seqEnable t q was (s2.on (A.seqCtl t q) F.seqCtl.enable)
    if getF w F.seqCtl.clrFault = 1 then s3.clearFault t q else s3

/-- CLR_FAULT (R115). -/
def execClrFault (t : Tile) (q : Seq) (w : Word) (s : State) : Res :=
  done (State.hostWrite (s.writeSeqCtl .host t q (w ||| 2)) (A.seqCtl t q))

/-- SEQ_CTL_WRITE (R124). -/
def execSeqCtlWrite (t : Tile) (q : Seq) (w : Word) (s : State) : Res :=
  done (State.hostWrite (s.writeSeqCtl .host t q (putF w F.seqCtl.clrFault 0)) (A.seqCtl t q))

end Sys2Proof.Machine
end

