-- ==== Sys2Proof/Machine/Timeline.lean ====
section
/-! DEFINITION. Device time and the shot schedulers (R45–R69, R486): DT loads, run control, triggers, the fixing,
announcement and start of shots, and what the end of a shot or run does. -/

namespace Sys2Proof.Machine

/-! ## DT loads (R46–R50) -/

/-- The conditions under which a DT load is refused (R47). -/
def State.loadRefused (s : State) : Bool := !s.allStopped || s.on A.dtSts F.dtSts.aligned

/-- A pending load is withdrawn. -/
def State.loadDrop (s : State) : State :=
  { s.setFld A.dtSts F.dtSts.loadPend 0 with tm := { s.tm with loadAt := none } }

/-- A load is armed for a tick, or for PPS_IN (none); the values are latched (R47, R50). -/
def State.loadArm (s : State) (due : Option Nat) : State :=
  let s1 := s.loadDrop
  if s.loadRefused then s1.raise A.dtSts F.dtSts.loadRefused 1
  else
    { s1.setFld A.dtSts F.dtSts.loadPend 1 with
        tm := { s1.tm with loadVal := BitVec.ofNat 64 (s.pair A.dtLoadLo A.dtLoadHi), loadAt := due } }

/-- What a write of DT_LOAD_CTL does (R47, R49). -/
def State.loadCtl (s : State) (w : Word) : State :=
  let now := getF w F.dtLoadCtl.armNow = 1
  let pps := getF w F.dtLoadCtl.armPps = 1
  if getF w F.dtLoadCtl.cancel = 1 then (if now || pps then s else s.loadDrop)
  else if now then s.loadArm (some (s.tm.now + 4))
  else if pps then s.loadArm none
  else s

/-- A write of DT_LOAD_CTL. -/
def State.writeLoadCtl (s : State) (src : Req) (w : Word) : WRes :=
  s.write src spec_dtLoadCtl A.dtLoadCtl w none fun s1 => s1.loadCtl w

/-- DT_ARM_NOW (R47). -/
def execDtArmNow (w : Word) (s : State) : Res :=
  done (State.hostWrite (s.writeLoadCtl .host (putF w F.dtLoadCtl.armNow 1)) A.dtLoadCtl)

/-- DT_ARM_PPS (R47). -/
def execDtArmPps (w : Word) (s : State) : Res :=
  done (State.hostWrite (s.writeLoadCtl .host (putF w F.dtLoadCtl.armPps 1)) A.dtLoadCtl)

/-- DT_LOAD_CANCEL (R47). -/
def execDtLoadCancel (w : Word) (s : State) : Res :=
  done (State.hostWrite (s.writeLoadCtl .host (putF w F.dtLoadCtl.cancel 1)) A.dtLoadCtl)

/-- The load tick (R47): DT takes the latched value, or the load is refused. -/
def State.loadNow (s : State) : State :=
  let s1 := s.loadDrop
  if s.loadRefused then s1.raise A.dtSts F.dtSts.loadRefused 1
  else (s1.setDT s.tm.loadVal).setFld A.dtSts F.dtSts.source 1

/-- DT_LOAD (R47). -/
def execDtLoad (s : State) : Res :=
  onlyIf (s.on A.dtSts F.dtSts.loadPend && s.tm.loadAt == some s.tm.now) s s.loadNow

/-! ## Run control (R55–R65) -/

/-- Event k of plot `p`'s scheduler (R66). -/
def shotSrc (p k : Nat) : Nat := 1288 + 4 * p + k

/-- A field of RUN_STS sets. -/
def State.runSet (s : State) (p : Nat) (f : Fld) (v : Nat) : State := (s.setFld (A.runSts p) f v).note (A.runSts p) f v

/-- A command or write is ignored (R64, R66). -/
def State.cmdIgnored (s : State) (p : Nat) : State := (s.runSet p F.runSts.cmdIgnored 1).fire (shotSrc p 3)

/-- An image is applied to plot `p`, or a placement made in it, while it is STOPPED (R310, R318). -/
def State.appliedTo (s : State) (p : Nat) : Bool :=
  match s.cfg.hold with
  | some h => (h.place.isSome && h.plot == some p) ||
      (match s.cfg.img with | some g => h.plot.isNone && g.plots.contains p | none => false)
  | none => false

/-- A START that is ignored (R310, R47, R56, R64, R283, R469; during a shutdown every start is refused, R440). -/
def State.startIgnored (s : State) (p : Nat) : Bool :=
  let mode := s.fld (A.shotCtl p) F.shotCtl.mode
  let period := (s.reg (A.shotPeriod p)).toNat
  !s.stopped p || s.on A.dtSts F.dtSts.loadPend || mode == 3 || (mode == 0 && period == 0) || s.refLost || s.shutAt.isSome ||
    s.appliedTo p ||
    (s.on (A.klCoord p) F.klCoord.en &&
      (mode != 0 || decide (period < 3000) || !s.on A.dtSts F.dtSts.aligned))

/-- SHOT_LEAD of plot `p`. -/
def State.lead (s : State) (p : Nat) : Nat := s.fld (A.shotLead p) F.shotLead.lead

/-- The sequencer states of tile `t` change by `f`. -/
def State.eachSeq (s : State) (_t : Nat) (f : State → Nat → State) : State := (List.range 34).foldl f s

/-- The tiles of plot `p` change by `f`. -/
def State.eachTile (s : State) (p : Nat) (f : State → Nat → State) : State := (s.tilesOf p).foldl f s

/-- A sequencer preloads and enters WAIT_SHOT (R81). -/
def State.rearm (s : State) (t q : Nat) : State := s.preloadTo t q 1 {}

/-- FAULT_RESTART of a sequencer (R115). -/
def State.faultRestart (s : State) (t q : Nat) : Bool := s.on (A.seqCtl t q) F.seqCtl.faultRestart

/-- START: sequencers preload (R81), but those OFF or kept FAULTED (R115). -/
def State.seqStart (s : State) (t q : Nat) : State :=
  let st := s.seqState t q
  if st = 7 || (st = 6 && !s.faultRestart t q) then s else s.rearm t q

/-- The plot enters STOPPED: sequencers enter IDLE, but those OFF or kept FAULTED (R84); one that was to join at the end of the shot
takes part from now on (R124). -/
def State.seqStop (s : State) (t q : Nat) : State :=
  let st := s.seqState t q
  if (st = 7 && !(s.seq (sk t q)).joinAtEnd) || (st = 6 && !s.faultRestart t q) then s.setSeq (sk t q) {}
  else ((s.stallCut t q).setSeqState t q 0).setSeq (sk t q) {}

/-- The newest shot whose record is not written is the last of its run (R67). -/
def markLast : List Shot → List Shot
  | [] => []
  | [h] => [{ h with flags := h.flags ||| Flag.last }]
  | h :: hs => h :: markLast hs

/-- Plot `p` enters STOPPED for a cause (R62, R84). -/
def State.stop (s : State) (p cause : Nat) : State :=
  let c := s.sched p
  let s1 := s.setSched p { c with shots := markLast c.shots, fixed := none, computeAt := none, trig := none, abortAt := none,
                                  firstEarliest := none, lastStart := none, coord := [], peerNext := [] }
  let s2 := ((s1.runSet p F.runSts.state 0).runSet p F.runSts.stopCause cause).runSet p F.runSts.trigPending 0
  let s3 := (s2.runSet p F.runSts.done 1).fire (shotSrc p 2)
  s3.eachTile p fun s t => (s.clearMarks t).eachSeq t fun s q => s.seqStop t q

/-- What START does in the tiles of plot `p` beside their sequencers: every enabled descriptor primes, and averaging jobs go (R152,
R207). -/
def State.startTiles (s : State) (p : Nat) : State := (s.eachTile p State.primeTile).dropJobs p

/-- START on plot `p` (R62): no shot to run, or ARMED. -/
def State.start (s : State) (p : Nat) : State :=
  let s1 := s.setReg (A.shotsDone p) 0
  if s.reg (A.runShots p) = 0 && !s.on (A.shotCtl p) F.shotCtl.runCont then (s1.startTiles p).stop p 1
  else
    let first := max (s.pair (A.runStartLo p) (A.runStartHi p)) (s.DT + s.lead p + 16)
    let s2 := (s1.runSet p F.runSts.state 1).setSched p { s1.sched p with
      fixed := none, computeAt := some s.DT, firstEarliest := some first, lastStart := none, trig := none, abortAt := none }
    (s2.eachTile p fun s t => s.eachSeq t fun s q => s.seqStart t q).startTiles p

/-- A start that a trigger of the present tick has fixed in it is not fixed, for that trigger is ignored (R58). -/
def State.unfix (s : State) (p : Nat) : State :=
  let c := s.sched p
  match c.undo with
  | some u =>
    if u.tick = s.DT then
      let s1 := ((s.setReg (A.pauseLast p) u.last).setReg (A.pauseTotal p) u.total).setReg (A.calInsCnt p) u.ins
      let s2 : State := if u.cal then { s1 with cal := { s1.cal with req := s1.cal.req ++ [p] } } else s1
      s2.setSched p { c with fixed := none, computeAt := some s.DT, pauses := u.pauses, coord := u.coord, undo := none }
    else s
  | none => s

/-- A drain or an abort reaches the scheduler: a trigger recognised in the same tick is ignored, whichever came first (R58). -/
def State.cmdReaches (s : State) (p : Nat) : State :=
  let s0 := s.unfix p
  let c := s0.sched p
  let now := match c.trig with | some (_, r) => r == s.DT | none => false
  let s1 := s0.setSched p { c with cmdTick := some s.DT, trig := if now then none else c.trig, trigOvf := false }
  if now then s1.runSet p F.runSts.trigPending 0 else s1

/-- DRAIN on plot `p` (R62). -/
def State.drain (s : State) (p : Nat) : State :=
  let s1 := s.cmdReaches p
  if s1.runState p = 1 || s1.runState p = 2 then
    if (s1.sched p).fixed.isSome || (s1.current p).isSome then s1.runSet p F.runSts.state 3 else s1.stop p 2
  else s1

/-- ABORT on plot `p` (R63): it takes effect in the eighth tick. -/
def State.abort (s : State) (p : Nat) : State :=
  let s1 := s.cmdReaches p
  if s.stopped p || (s.sched p).abortAt.isSome then s1
  else s1.setSched p { s1.sched p with abortAt := some (s.DT + 8, false) }

/-- The abort of a shutdown (R440): it takes effect in the present tick. -/
def State.abortSoon (s : State) (p : Nat) : State :=
  let c := s.sched p
  if s.stopped p then s
  else s.setSched p { c with abortAt := some (s.DT, match c.abortAt with | some (_, u) => u | none => false) }

/-- The strongest bit of a write of RUN_CMD acts, and the weaker ones are ignored (R64). -/
def State.runCmd (s : State) (p : Nat) (w : Word) : State :=
  let v := w.toNat % 16
  let abort := v.testBit 2
  let drain := v.testBit 1
  let start := v.testBit 0
  let clr := v.testBit 3
  let many := 2 ≤ b2n abort + b2n drain + b2n start + b2n clr
  let s1 := if many then s.cmdIgnored p else s
  if abort then s1.abort p
  else if drain then s1.drain p
  else if start then (if s1.startIgnored p then s1.cmdIgnored p else s1.start p)
  else if clr then (if s1.stopped p then s1.setReg (A.shotNum p) 0xFFFFFFFF else s1.cmdIgnored p)
  else s1

/-- The access checks of a plot's shot registers (R65); `cmd`: a write of DRAIN or ABORT only. -/
def State.shotDeny (s : State) (src : Req) (p : Nat) (cmd : Bool) : Option Refuse :=
  if !s.plotDefined p && src != .mgmt then some .accessErr
  else if src == .host && s.enforce && !cmd then some .plotDeny
  else none

/-- A write of RUN_CMD. -/
def State.writeRunCmd (s : State) (src : Req) (p : Nat) (w : Word) : WRes :=
  let cmd := getF w F.runCmd.start = 0 && getF w F.runCmd.clrCount = 0
  s.write src spec_runCmd (A.runCmd p) w (s.shotDeny src p cmd) fun s1 => s1.runCmd p w

/-- RUN_START (R62). -/
def execRunStart (p : Plot) (w : Word) (s : State) : Res :=
  done (State.hostWrite (s.writeRunCmd .host p (putF w F.runCmd.start 1)) (A.runCmd p))

/-- RUN_DRAIN (R62). -/
def execRunDrain (p : Plot) (w : Word) (s : State) : Res :=
  done (State.hostWrite (s.writeRunCmd .host p (putF w F.runCmd.drain 1)) (A.runCmd p))

/-- RUN_ABORT (R63). -/
def execRunAbort (p : Plot) (w : Word) (s : State) : Res :=
  done (State.hostWrite (s.writeRunCmd .host p (putF w F.runCmd.abort 1)) (A.runCmd p))

/-- CLR_COUNT (R64). -/
def execClrCount (p : Plot) (w : Word) (s : State) : Res :=
  done (State.hostWrite (s.writeRunCmd .host p (putF w F.runCmd.clrCount 1)) (A.runCmd p))

/-- The registers that accept writes only while the plot is STOPPED (R64). -/
def schedReg : Reg → Bool
  | .shotCtl | .shotPeriod | .shotGapMin | .shotLead | .trigDelay | .shotMax | .runStartLo | .runStartHi | .runShots => true
  | _ => false

/-- A write of a shot register of plot `p` other than RUN_CMD (R52, R60, R64, R65). -/
def State.writeShotReg (s : State) (src : Req) (r : RegSpec) (p a : Nat) (w : Word) : WRes :=
  match s.shotDeny src p false with
  | some e => (s, some e)
  | none =>
    if schedReg r.reg && !s.stopped p && src != .mgmt then (s.cmdIgnored p, some .ignored)
    else
      let deny := if r.reg == .shotMax && w = 0 then some Refuse.accessErr else none
      let w1 := if r.reg == .shotLead && decide (getF w F.shotLead.lead < 64) then putF w F.shotLead.lead 64 else w
      s.write src r a w1 deny id

/-- GLB_CTL (R42, R64, R68): MUTE_ALL taints the shots in progress; DRAIN_ALL drains every plot. -/
def State.writeGlbCtl (s : State) (src : Req) (w : Word) : WRes :=
  s.write src spec_glbCtl A.glbCtl w none fun s1 =>
    let s2 := if s1.on A.glbCtl F.glbCtl.muteAll then
        (List.range 8).foldl (fun s p => s.flagNow p Flag.taint) s1 else s1
    if getF w F.glbCtl.drainAll = 1 then (List.range 8).foldl State.drain s2 else s2

/-- MUTE_ALL (R42). -/
def execMuteAll (on : Bool) (s : State) : Res :=
  done (State.hostWrite (s.writeGlbCtl .host (BitVec.ofNat 32 (b2n on))) A.glbCtl)

/-- DRAIN_ALL (R64). -/
def execDrainAll (mute : Bool) (s : State) : Res :=
  done (State.hostWrite (s.writeGlbCtl .host (BitVec.ofNat 32 (2 + b2n mute))) A.glbCtl)

/-! ## Triggers and the next start (R55–R58) -/

/-- A trigger arrives at plot `p` (R58); `T` is the DT of the tick in which the edge was sampled. One that finds a trigger pending sets
SHOT_TRIG_OVF as the tick ends. -/
def State.trigger (s : State) (p : Nat) : State :=
  let c := s.sched p
  if s.fld (A.shotCtl p) F.shotCtl.mode ≠ 1 then s
  else if s.runState p = 0 || s.runState p = 3 || c.cmdTick == some s.DT then s
  else if c.trig.isSome then s.setSched p { c with trigOvf := true }
  else
    let at_ := c.computeAt.map fun d => max d s.DT
    (s.runSet p F.runSts.trigPending 1).setSched p { c with trig := some (s.DT - 10, s.DT), computeAt := at_ }

/-- The tick ends in which a trigger found one pending: it is discarded, SHOT_TRIG_OVF is set and RUN_ALERT fires (R58). -/
def State.trigLate (s : State) (p : Nat) : State :=
  if (s.sched p).trigOvf then
    (((s.setSched p { s.sched p with trigOvf := false }).runSet p F.runSts.shotTrigOvf 1).fire (shotSrc p 3))
  else s

/-- The edge reaches the scheduler of every plot that selects the ball and the edge (R58). -/
def State.triggerAll (s : State) (i : Nat) (rising : Bool) : State :=
  (List.range 8).foldl (fun s p =>
    if s.fld (A.shotCtl p) F.shotCtl.trigSel == i && s.on (A.shotCtl p) F.shotCtl.trigEdge == !rising then s.trigger p
    else s) s

/-- A conditioned transition of TRIG_IN[i] to the level was sampled 10 ticks ago and is not recognised yet (R58, R395). -/
def State.edgeDue (s : State) (i : Nat) (rising : Bool) : Bool :=
  decide (10 ≤ s.tm.now) && (s.tiu i).conds.contains (s.tm.now - 10, rising)

/-- SHOT_TRIGGER (R58): the schedulers recognise a conditioned edge 10 ticks after the tick in which it was sampled. -/
def execShotTrigger (i : Fin 16) (rising : Bool) (s : State) : Res :=
  let x := s.tiu i
  onlyIf (s.edgeDue i rising) s
    ((s.setTiu i { x with conds := x.conds.filter (· != (s.tm.now - 10, rising)) }).triggerAll i rising)

/-- What the loader requests of plot `p` while an image waits for its gap, during a hold, and for a placement that waits
(R309, R318). -/
def State.cfgPauses (s : State) (p : Nat) : List PauseReq :=
  let wait := s.fld A.cfgSts F.cfgSts.state == 3 &&
    (match s.cfg.img with | some g => !g.stopped && g.plots.contains p | none => false)
  let held := match s.cfg.hold with | some h => if h.plot = some p then some h.pause else none | none => none
  let place := s.cfg.waiting.any fun w => s.plotOf w.1 == some p && !s.on (A.tilePlaceCtl w.1) F.tilePlaceCtl.freeze
  (if wait then [⟨(s.reg A.cfgPartP).toNat, 0⟩] else []) ++ (match held with | some n => [⟨n, 0⟩] | none => []) ++
    (if place then [⟨13060, 0⟩] else [])

/-- The requests that apply to the gap that follows the present shot of plot `p` (R55, R283, R439): coordinated plots take
those tagged for it; else `extra`, those raised for one gap, and those that stand. -/
def State.gapReqs (s : State) (p : Nat) (extra : List PauseReq) : List PauseReq :=
  let c := s.sched p
  if s.on (A.klCoord p) F.klCoord.en then (c.coord.filter fun e => e.1 == s.reg (A.shotNum p)).map fun e => e.2
  else
    let l := s.fld A.thSts F.thSts.level
    extra ++ c.pauses ++ (if l = 0 then [] else [⟨l * 10000, Flag.throttled⟩]) ++ s.cfgPauses p

/-- The pause of a gap, and the flags of its causes. -/
def pauseOf (rs : List PauseReq) : Nat × BitVec 16 :=
  rs.foldl (fun a r => (max a.1 r.ticks, a.2 ||| r.flags)) (0, 0)

/-- The pause requests that the next gap does not take. -/
def State.takePauses (s : State) (p : Nat) (c : Sched) : Sched :=
  if s.on (A.klCoord p) F.klCoord.en then { c with coord := c.coord.filter fun e => e.1 != s.reg (A.shotNum p) }
  else { c with pauses := [] }

/-- The first grid point at or after `lo` (R56). -/
def gridPoint (start period lo : Nat) : Nat :=
  if lo ≤ start then start else start + (lo - start + period - 1) / period * period

/-- The start that the scheduler fixes: instant, flags, and grid points passed over (R56, R57). -/
def State.nextStart (s : State) (p earliest : Nat) : Nat × BitVec 16 × Nat :=
  let c := s.sched p
  let mode := s.fld (A.shotCtl p) F.shotCtl.mode
  if mode = 0 then
    let per := (s.reg (A.shotPeriod p)).toNat
    let rs := s.pair (A.runStartLo p) (A.runStartHi p)
    match c.lastStart with
    | none => (gridPoint rs per earliest, 0, 0)
    | some l =>
      let g := gridPoint rs per (max earliest (l + 1))
      let slips := (g - l) / per - 1
      (g, if 0 < slips then Flag.slipped else 0, slips)
  else if mode = 1 then
    match c.trig with
    | some (t, _) =>
      let base := t + max (s.reg (A.trigDelay p)).toNat (s.lead p + 10)
      if base < earliest then (earliest, Flag.triggered ||| Flag.trigDefer, 0) else (base, Flag.triggered, 0)
    | none => (earliest, 0, 0)
  else (earliest, 0, 0)

/-- The earliest start after a gap with pause `pause` (R55). -/
def State.earliest (s : State) (p pause : Nat) : Nat :=
  let e := (s.sched p).lastEnd
  max (e + s.lead p + max (s.reg (A.shotGapMin p)).toNat pause) (e + 1 + s.lead p)

/-- The start of plot `p` was not fixed at E + 1: the trigger came later (R55, R432). -/
def State.lateTrig (s : State) (p : Nat) : Bool :=
  match (s.sched p).trig with
  | some (_, n) => decide ((s.sched p).lastEnd + 1 < n)
  | none => false

/-- The gap of plot `p` that is under way holds a skim slot (R444). -/
def State.slotRan (s : State) (p : Nat) : Bool := KMap.get 0 s.cal.slotEnd p == (s.sched p).lastEnd + 3000

/-- The usable gap of plot `p` as it forms without any pause is long enough for a skim slot, and where the start was not fixed at E + 1 one
has run in it (R444, R445). -/
def State.gapHolds (s : State) (p : Nat) : Bool :=
  decide ((s.sched p).lastEnd + s.lead p + 3000 ≤ (s.nextStart p (s.earliest p 0)).1) && (!s.lateTrig p || s.slotRan p)

/-- The gap of plot `p` takes a calibration pause that is fixed now: at E + 1 the slot follows; later it has run under the guarantee of the
pause, or still fits before the start (R445; log entry 239). -/
def State.gapTakes (s : State) (p : Nat) : Bool :=
  !s.lateTrig p || s.slotRan p ||
    decide (s.DT + s.lead p + 2999 ≤ (s.nextStart p (s.earliest p (pauseOf (s.gapReqs p [⟨3000, Flag.calInserted⟩])).1)).1)

/-- What a start that is fixed with a trigger of the present tick replaces (R58). -/
def State.fixUndo (s : State) (p : Nat) (cal : Bool) : Option FixUndo :=
  let c := s.sched p
  match c.trig with
  | some (_, n) =>
    if n = s.DT then some { tick := s.DT, last := s.reg (A.pauseLast p), total := s.reg (A.pauseTotal p),
                            ins := s.reg (A.calInsCnt p), pauses := c.pauses, coord := c.coord, cal := cal }
    else none
  | none => none

/-- The scheduler computes and fixes the next start (R55); a calibration request is withdrawn where the gap holds a slot
already (R445). A coordinated plot takes the request with the gap for which it was tagged (R283). -/
def State.fixStart (s : State) (p : Nat) : State :=
  let c := s.sched p
  match c.firstEarliest with
  | some e =>
    let r := s.nextStart p e
    s.setSched p { c with computeAt := none, fixed := some { start := r.1, pause := 0, flags := r.2.1 }, undo := s.fixUndo p false }
  | none =>
    let coord := s.on (A.klCoord p) F.klCoord.en
    let tagged := (pauseOf (s.gapReqs p [])).2 &&& Flag.calInserted != 0
    let holds := s.gapHolds p
    let cal := s.cal.req.contains p && !coord && (holds || s.gapTakes p)
    let insert := if coord then tagged else cal && !holds
    let g := pauseOf (s.gapReqs p (if insert then [⟨3000, Flag.calInserted⟩] else []))
    let r := s.nextStart p (s.earliest p g.1)
    let s0 : State := if cal then { s with cal := { s.cal with req := s.cal.req.erase p } } else s
    let s0 := if insert then s0.bump (A.calInsCnt p) else s0
    let s1 := (s0.setReg (A.pauseLast p) (BitVec.ofNat 32 g.1)).bumpBy (A.pauseTotal p) g.1
    let s2 := if 0 < r.2.2 then (s1.bumpBy (A.slipCount p) r.2.2).fire (shotSrc p 3) else s1
    s2.setSched p { s.takePauses p c with
      computeAt := none, fixed := some { start := r.1, pause := g.1, flags := r.2.1 ||| g.2 }, undo := s.fixUndo p cal }

/-- NEXT_START_FIX (R55): in the computing tick; in TRIGGERED mode once a trigger is pending. -/
def execNextStartFix (p : Plot) (s : State) : Res :=
  let c := s.sched p
  let ready := s.fld (A.shotCtl p) F.shotCtl.mode != 1 || c.trig.isSome
  onlyIf (c.computeAt == some s.DT && ready && (s.runState p == 1 || s.runState p == 2)) s (s.fixStart p)

/-! ## Failed sequencers (R316–R320) -/

/-- Spare `x` (32 or 33) is free: it stands in for none and has not failed. -/
def State.spareFree (s : State) (t x : Nat) : Bool :=
  let f := if x = 32 then F.tilePlaceSts.spare0For else F.tilePlaceSts.spare1For
  s.fld (A.tilePlaceSts t) f == 0x3F && !(s.reg (A.tileFailHi t)).toNat.testBit (x - 32)

/-- The spares free in tile `t`. -/
def State.freeSpares (s : State) (t : Nat) : List Nat := [32, 33].filter (s.spareFree t)

/-- The spare that stands in for sequencer `q`. -/
def State.standIn (s : State) (t q : Nat) : Option Nat := [32, 33].find? fun x => q < 32 && s.effIdx t x == q

/-- Sequencer (t, q) has failed. -/
def State.failed (s : State) (t q : Nat) : Bool :=
  if q < 32 then (s.reg (A.tileFailLo t)).toNat.testBit q else (s.reg (A.tileFailHi t)).toNat.testBit (q - 32)

/-- Failed sequencer `f` enters OFF (R317): it waits for a spare, or stays OFF where none is free (R320). -/
def State.seqOff (s : State) (t : Nat) (f : Nat × Nat) : State :=
  let s1 := (s.setSeqState t f.2 7).setSeq (sk t f.2) {}
  let busy := (s.cfg.waiting.filter fun w => w.1 == t).length
  if busy < (s.freeSpares t).length then
    let s2 : State := { s1 with cfg := { s1.cfg with waiting := s1.cfg.waiting ++ [f] } }
    match s.plotOf t with
    | some p => if s.on (A.klCoord p) F.klCoord.en then s2.pauseRequest p ⟨13060, 0⟩ else s2
    | none => s2
  else (s1.raise (A.tilePlaceSts t) F.tilePlaceSts.noSpare 1).setFld (A.tileSts t) F.tileSts.degraded 1

/-- The failed sequencers of tile `t` enter OFF. -/
def State.failedOff (s : State) (t : Nat) : State :=
  (s.cfg.failing.filter fun f => f.1 == t).foldl (fun s f => s.seqOff t f)
    { s with cfg := { s.cfg with failing := s.cfg.failing.filter fun f => f.1 != t } }

/-- The position that sequencer (t, q) fills or filled: its own, or that for which a spare stands in or stood in before it failed
(R319, R320). -/
def State.position (s : State) (t q : Nat) : Nat :=
  if q < 32 then q else s.fld (A.tilePlaceSts t) (if q = 32 then F.tilePlaceSts.spare0For else F.tilePlaceSts.spare1For)

/-- Position `r` of tile `t` is filled by a spare that has not failed (R319, R320). -/
def State.filled (s : State) (t r : Nat) : Bool := [32, 33].any fun x => s.position t x == r && !s.failed t x

/-- A sequencer of plot `p` that the image enabled stands OFF, and no spare fills its position (R320). -/
def State.holed (s : State) (p : Nat) : Bool :=
  (s.tilesOf p).any fun t => (List.range 34).any fun q =>
    s.failed t q && s.on (A.seqCtl t q) F.seqCtl.enable && s.seqState t q == 7 && decide (s.position t q < 32) &&
      !s.filled t (s.position t q)

/-! ## Announcement and start (R59, R77, R82) -/

/-- A sequencer at the announcement (R59, R82, R115): one that waits begins; one kept FAULTED ends its channel at 0. It is RUN from the
announcement on, and its resynchronisation and first fetch count no cycle in SEQ_CYC (DESIGN CHOICE, log entry 172). -/
def State.seqAnnounce (s : State) (p sid t q : Nat) : State :=
  let k := sk t q
  let s0 := s.setTq k {}
  let st := s.seqState t q
  if st = 1 then
    (((s0.setTq k { owes := true }).setSeqState t q 2).setTc t q 0).setSeq k {}
  else if st = 6 then
    let s1 := ((s0.setTq k { owes := true }).setTc t q 0).setSeq k { done := true }
    (s1.sendCmd t q .endMarker 0 none).flagShot p sid Flag.taint
  else s0

/-- The bias and flux outputs of tile `t` at an announcement (R166, R173). -/
def State.outputsAnnounce (s : State) (t : Nat) : State :=
  let s1 := (List.range 14).foldl (fun s f => s.setFlux t f { s.flux t f with clipped := false }) s
  (List.range 16).foldl (fun s b => s.modBias (quadOf t) (biasCh t b) fun x => { x with halt := none }) s1

/-- NEXT_START goes to the partners of a coordinated plot, and theirs is compared (R283). -/
def State.coordAnnounce (s : State) (p start : Nat) : State :=
  if !s.on (A.klCoord p) F.klCoord.en then s
  else
    let n := s.reg (A.shotNum p)
    let c := s.sched p
    let due := c.peerNext.filter fun e => e.1 == n
    let s1 := s.setSched p { c with peerNext := c.peerNext.filter fun e => e.1 != n }
    due.foldl (fun s e => s.coordCheck p e.2) (s1.coordSend p (Config.bulkPayload 2 [p, n.toNat, start]))

/-- No source of tile `t` has fired yet in the shot announced now. -/
def State.onceAnnounce (s : State) (t : Nat) : State :=
  { s with once := KMap.set [] s.once t ((KMap.get [] s.once t).filter fun k => decide (k < 100)) }

/-- The shot of plot `p` is announced (R59, R77, R320, R432, R486). -/
def State.announce (s : State) (p : Nat) (f : Fixed) : State :=
  let c := s.sched p
  let waking := s.convs.any fun e => e.2.st != 0 && s.inPlot p (e.1 / 32)
  let dirty := s.on A.glbCtl F.glbCtl.muteAll || waking || s.holed p || (s.tilesOf p).any fun t => s.clrPin (quadOf t)
  let h : Shot := { sid := c.nextSid, start := f.start, flags := f.flags ||| (if dirty then Flag.taint else 0),
                    pause := f.pause }
  let s1 := s.setSched p { c with shots := c.shots ++ [h], nextSid := c.nextSid + 1, fixed := none, trig := none,
                                  endTick := f.start }
  let s2 := if s.runState p = 1 then s1.runSet p F.runSts.state 2 else s1
  let s3 := ((s2.runSet p F.runSts.inShot 1).runSet p F.runSts.trigPending 0).setPair (A.nextStartLo p) (A.nextStartHi p)
    f.start
  let s4 := s3.eachTile p fun s t => ((s.eachSeq t fun s q => s.seqAnnounce p h.sid t q).outputsAnnounce t).onceAnnounce t
  s4.coordAnnounce p f.start

/-- SHOT_ANNOUNCE (R59): at S′ − SHOT_LEAD. -/
def execShotAnnounce (p : Plot) (s : State) : Res :=
  match (s.sched p).fixed with
  | some f => onlyIf (f.start == s.DT + s.lead p) s (s.announce p f)
  | none => done s

/-- What starts anew in tile `t` with a shot (R137, R143, R148, R149, and the sources that fire once in a shot). -/
def State.tileStart (s : State) (t : Nat) : State :=
  let ahead := (KMap.get [] s.once t).filterMap fun k => if 100 ≤ k then some (k - 100) else none
  let s1 : State := { s with once := KMap.set [] s.once t ahead }
  ((s1.clearGrid t).clearMarks t).reloadTile t

/-- Shot `sid` of plot `p` starts (R59, R143, R227); a coordinated plot tags the throttle pause of a later gap (R283). -/
def State.startShot (s : State) (p sid : Nat) : State :=
  let num := s.reg (A.shotNum p) + 1
  let s1 := s.mapShots p (fun h => h.sid == sid) fun h => { h with started := true, num := num, quiet := s.isStandby }
  let s2 := s1.setSched p { s1.sched p with lastStart := some s.DT }
  let s3 := (s2.setReg (A.shotNum p) num).setReg (A.shotsDone p) (s.reg (A.shotsDone p) + 1)
  let s4 := ((((s3.clearSlots p).releaseSlots p).eachTile p State.tileStart)).fire (shotSrc p 0)
  let l := s.fld A.thSts F.thSts.level
  if s.on (A.klCoord p) F.klCoord.en && l != 0 then s4.pauseRequest p ⟨l * 10000, Flag.throttled⟩ else s4

/-- SHOT_START (R59): at S. -/
def execShotStart (p : Plot) (s : State) : Res :=
  match s.current p with
  | some h => onlyIf (!h.started && h.start == s.DT) s (s.startShot p h.sid)
  | none => done s

/-! ## The end of a shot (R52, R53, R62, R63) -/

/-- A queue of plot `p` has an end marker still to execute. -/
def State.owesMarker (s : State) (p : Nat) : Bool := (s.seqsOf p).any fun k => (s.tq k).owes

/-- A sequencer at the end of a shot (R115, R124): a restart after a fault, or a late joiner, preloads. -/
def State.seqShotEnd (s : State) (t q : Nat) : State :=
  if s.seqState t q = 6 && s.faultRestart t q then s.rearm t q
  else if (s.seq (sk t q)).joinAtEnd then s.rearm t q
  else s

/-- What ends in tile `t` with a shot: the mutes of R21, faults that restart (R115), failed sequencers (R317). -/
def State.tileEnd (s : State) (t : Nat) : State :=
  let s1 : State := { s with parity := KMap.set [] s.parity t [] }
  (s1.eachSeq t fun s q => s.seqShotEnd t q).failedOff t

/-- Shot `h` of plot `p` ends in the present tick (R53): its end instant, its length, its event, the loops. -/
def State.endShot (s : State) (p : Nat) (h : Shot) : State :=
  let s1 := s.mapShots p (fun x => x.sid == h.sid) fun x => { x with stop := some s.DT }
  let s2 := s1.setSched p { s1.sched p with lastEnd := s.DT, firstEarliest := none }
  let s3 := ((s2.runSet p F.runSts.inShot 0).setReg (A.lastLen p) (BitVec.ofNat 32 (s.DT - h.start))).fire (shotSrc p 1)
  (s3.eachTile p State.tileEnd).loopsAtEnd p

/-- What follows the end of a shot (R62): the run ends, or the next start is computed in the next tick. -/
def State.afterShot (s : State) (p : Nat) : State :=
  if s.runState p = 3 then s.stop p 2
  else if !s.on (A.shotCtl p) F.shotCtl.runCont && decide ((s.reg (A.runShots p)).toNat ≤ (s.reg (A.shotsDone p)).toNat) then
    s.stop p 1
  else s.setSched p { s.sched p with computeAt := some (s.DT + 1) }

/-- Every channel of plot `p` plays its idle state, its queues empty, its open windows close (R52, R63). A queue that is HALTED stays so
until the next announcement (R77). -/
def State.haltPlot (s : State) (p : Nat) : State :=
  let s1 := s.eachTile p fun s t =>
    (List.range 30).foldl (fun s n => s.idleChan t n)
      (s.eachSeq t fun s q => s.setTq (sk t q) { haltAt := (s.tq (sk t q)).haltAt })
  s1.cutWindows p

/-- A sequencer at a cut (R52, R109): one that has not reached END stops, preloads and waits; one that must still enter
FAULTED does so (R114). -/
def State.seqCut (s : State) (t q : Nat) : State :=
  let st := s.seqState t q
  let s0 := s.stallCut t q
  let s1 := match (s0.seq (sk t q)).stall with
    | .queue _ _ (.fault f) _ => s0.enterFaulted t q f
    | _ => s0
  if s1.seqState t q = 6 then s1
  else if st = 2 || st = 3 || st = 4 || st = 5 then s1.rearm t q
  else s1

/-- The shot in progress of plot `p` is cut (R52). -/
def State.cutShot (s : State) (p : Nat) (h : Shot) : State :=
  let s1 := s.eachTile p fun s t => s.eachSeq t fun s q => s.seqCut t q
  let s2 := (s1.haltPlot p).flagShot p h.sid (Flag.taint ||| Flag.cut)
  ((s2.runSet p F.runSts.shotCut 1).fire (shotSrc p 3)).endShot p h

/-- A sequencer whose fault waits for a full queue takes it when an abort empties the queue (R63, R113). -/
def State.queueFault (s : State) (t q : Nat) : State :=
  match (s.seq (sk t q)).stall with
  | .queue _ _ (.fault f) _ => (s.stallCut t q).enterFaulted t q f
  | _ => s

/-- An abort takes effect (R63). -/
def State.abortNow (s : State) (p : Nat) (underrun : Bool) : State :=
  let cause := if underrun then 4 else 3
  let s1 := s.eachTile p fun s t => s.eachSeq t fun s q => s.queueFault t q
  let s2 := s1.haltPlot p
  match s2.current p with
  | some h =>
    if h.started then
      let fl := Flag.taint ||| Flag.aborted ||| (if underrun then Flag.underrun else 0)
      (((s2.flagShot p h.sid fl).endShot p h)).stop p cause
    else
      let c := s2.sched p
      let s3 := s2.setSched p { c with shots := c.shots.filter fun x => x.sid != h.sid }
      ((s3.runSet p F.runSts.inShot 0).eachTile p fun s t =>
        { s with parity := KMap.set [] s.parity t [] }.failedOff t).stop p cause
  | none => s2.stop p cause

/-- Queue `k` of plot `p` holds an entry of the present tick that `c` describes. -/
def State.dueNow (s : State) (p k : Nat) (c : TqCmd → Bool) : Bool :=
  (s.tq k).held.any fun e => c e.cmd &&
    (match s.startOf p e.sid with | some h => h.started && h.start + e.execAt == s.DT | none => false)

/-- The events of the present tick, as far as they are still to come, end the shot in progress (R52): every end marker owed executes in
it, every open window closes in it, and no window opens. -/
def State.endsNow (s : State) (p : Nat) : Bool :=
  (s.seqsOf p).all (fun k => (!(s.tq k).owes || s.dueNow p k (· == .endMarker)) &&
    !s.dueNow p k fun c => match c with | .meas .. => true | _ => false) &&
  (s.tilesOf p).all fun t => (List.range 8).all fun l =>
    ((s.lane t l).fg.toList ++ (s.lane t l).sh.toList).all fun w => w.last + 36 == s.DT

/-- Both conditions of R53 for the end of the shot in progress. -/
def State.shotOver (s : State) (p : Nat) : Bool := !s.owesMarker p && !s.windowOpen p

end Sys2Proof.Machine
end

