-- ==== Sys2Proof/Machine/Rings.lean ====
section
/-! DEFINITION. The host interface (R354–R380): result rings, batches, responses, doorbells, capsule fetch and
authentication, MSI-X and the host-interface resets. -/

namespace Sys2Proof.Machine

/-- The rings of plot `p`. -/
def State.ring (s : State) (p : Nat) : RingX := KMap.get {} s.rings p

/-- Writes the rings of plot `p`. -/
def State.setRing (s : State) (p : Nat) (x : RingX) : State := { s with rings := KMap.set {} s.rings p x }

/-- Applies `f` to the rings of plot `p`. -/
def State.modRing (s : State) (p : Nat) (f : RingX → RingX) : State := s.setRing p (f (s.ring p))

/-! ## MSI-X (R378) -/

/-- Vector `v` is masked: by its table entry, by Function Mask, or while MSI-X is not enabled (R378; log entry 84). -/
def State.msixMasked (s : State) (v : Nat) : Bool :=
  (s.reg (A.msixTable (4 * v + 3))).toNat.testBit 0 || s.pcie.msixMask || !s.pcie.msixEn

/-- Sends the message of vector `v`, or sets its pending bit. -/
def State.msix (s : State) (v : Nat) : State :=
  if s.msixMasked v || !s.dmaOk then
    let a := A.msixPba (v / 32)
    s.setReg a (s.reg a ||| BitVec.ofNat 32 (2 ^ (v % 32)))
  else s.send (.msix v (s.pair (A.msixTable (4 * v)) (A.msixTable (4 * v + 1))) (s.reg (A.msixTable (4 * v + 2))).toNat)

/-- A vector of plot `p`; it never fires while the plot is undefined. -/
def State.plotIrq (s : State) (p v : Nat) : State := if s.plotDefined p then s.msix v else s

/-- Vector `v` of plot `p`, which reports an index, fires: behind the writeback that reports the same change, where one is due
(R361). Each response has a message of its own (R378). -/
def State.ringIrq (s : State) (p v : Nat) : State :=
  let x := s.ring p
  if s.on (A.wbLo p) F.wbLo.en && x.wbDirty then s.setRing p { x with irqWait := x.irqWait ++ [v] } else s.plotIrq p v

/-- The messages that waited for a writeback of plot `p` go out. -/
def State.irqRelease (s : State) (p : Nat) : State :=
  (s.ring p).irqWait.foldl (fun s v => s.plotIrq p v) (s.modRing p fun x => { x with irqWait := [] })

/-- A pending vector sends its message once it may (R379). -/
def State.msixRelease (s : State) (v : Nat) : State :=
  let a := A.msixPba (v / 32)
  if (s.reg a).toNat.testBit (v % 32) && !s.msixMasked v && s.dmaOk then
    (s.setReg a (BitVec.ofNat 32 ((s.reg a).toNat - 2 ^ (v % 32)))).msix v
  else s

/-- A write of the MSI-X table. -/
def State.writeMsix (s : State) (src : Req) (n : Nat) (w : Word) : WRes :=
  s.write src spec_msixTable (A.msixTable n) w none fun s1 => s1.msixRelease (n / 4)

/-- A bit of PG_ALERT sets; going from 0 to 1 it fires the plot's vector (R378). -/
def State.pgAlert (s : State) (p : Nat) (f : Fld) : State :=
  if s.on (A.pgAlert p) f then s else (s.raise (A.pgAlert p) f 1).plotIrq p (16 + p)

/-! ## Ring indices (R358–R360) -/

/-- Slots that a ring holds. -/
def ringUsed (prod cons : Word) : Nat := (prod - cons).toNat

/-- BASE of a ring of plot `p` (R358): 0 command, 1 response, 2 result. -/
def State.ringBase (s : State) (p ring : Nat) : Nat :=
  if ring = 0 then 4096 * s.fld (A.cmdBaseLo p) F.cmdBaseLo.addr + 2 ^ 32 * (s.reg (A.cmdBaseHi p)).toNat
  else if ring = 1 then 4096 * s.fld (A.rspBaseLo p) F.rspBaseLo.addr + 2 ^ 32 * (s.reg (A.rspBaseHi p)).toNat
  else 4096 * s.fld (A.rrBaseLo p) F.rrBaseLo.addr + 2 ^ 32 * (s.reg (A.rrBaseHi p)).toNat

/-- The spans of host memory that `len` bytes take from slot `i` on in a ring of `size` slots of `slot` bytes (R358): each by its address and
length; what runs past the last slot goes on at slot 0. -/
def ringSpans (base size slot i len : Nat) : List (Nat × Nat) :=
  let k := (size - i % size) * slot
  (base + i % size * slot, min len k) :: if k < len then [(base, len - k)] else []

/-- Bytes go to consecutive spans of a ring of plot `p`. -/
def State.ringSend (s : State) (p ring : Nat) : List (Nat × Nat) → List Byte → State
  | [], _ => s
  | (a, n) :: l, b => (s.send (.ringData p ring a (b.take n) s.pcie.relaxed)).ringSend p ring l (b.drop n)

/-- Free slots of the result ring of plot `p`; 0 while it is disabled. -/
def State.rrRoom (s : State) (p : Nat) : Nat :=
  if s.on (A.rrCfg p) F.rrCfg.en && s.dmaOk then
    2 ^ s.fld (A.rrCfg p) F.rrCfg.sizeLog2 - ringUsed (s.reg (A.rrProd p)) (s.reg (A.rrCons p))
  else 0

/-- Free slots of the response ring of plot `p`; 0 while it is disabled. -/
def State.rspRoom (s : State) (p : Nat) : Nat :=
  if s.on (A.rspCfg p) F.rspCfg.en then
    2 ^ s.fld (A.rspCfg p) F.rspCfg.sizeLog2 - ringUsed (s.reg (A.rspProd p)) (s.reg (A.rspCons p))
  else 0

/-! ## Responses (R366–R368) -/

/-- The 32-byte header of a response (R362). -/
def rspHeader (slots p gen cseq len kind flags tag : Nat) : List Byte :=
  let h := leBytes 2 slots ++ leBytes 1 p ++ leBytes 1 gen ++ leBytes 8 cseq ++ leBytes 4 len ++ leBytes 1 1 ++ leBytes 1 kind
    ++ leBytes 1 flags ++ leBytes 1 0 ++ leBytes 4 tag ++ leBytes 4 0
  h ++ leBytes 4 (crc32c h).toNat

/-- Plot `p` is keyed. -/
def State.keyed (s : State) (p : Nat) : Bool := s.on (A.wlPlotSts p) F.wlPlotSts.keyed

/-- The key generation in force of plot `p`. -/
def State.keyGen (s : State) (p : Nat) : Nat := s.fld (A.wlPlotSts p) F.wlPlotSts.keyGen

/-- Responses that wait go out, in order, while the response ring has room. -/
def State.rspFlush (s : State) (p : Nat) : Nat → State
  | 0 => s
  | n + 1 =>
    match (s.ring p).rspWait with
    | [] => s
    | b :: bs =>
      if !s.on (A.rspCfg p) F.rspCfg.en then s.modRing p fun x => { x with rspWait := [] }
      else
        let k := b.length / 64
        if !s.dmaOk || s.rspRoom p < k then s
        else
          let l := ringSpans (s.ringBase p 1) (2 ^ s.fld (A.rspCfg p) F.rspCfg.sizeLog2) 64 (s.reg (A.rspProd p)).toNat b.length
          let s1 := (s.setReg (A.rspProd p) (s.reg (A.rspProd p) + BitVec.ofNat 32 k)).ringSend p 1 l b
          let s2 := s1.modRing p fun x => { x with rspWait := bs, wbDirty := true }
          (s2.ringIrq p (8 + p)).rspFlush p n

/-- Seals a response, NACK or notice and writes it to the response ring (R367). -/
def State.respond (s : State) (p kind : Nat) (cseq : BitVec 64) (tag : Word) (status op detail : Nat) (data : List Byte) :
    State :=
  let body := leBytes 8 cseq.toNat ++ leBytes 4 tag.toNat ++ leBytes 1 status ++ leBytes 1 0 ++ leBytes 2 op ++ leBytes 4 detail
    ++ leBytes 4 data.length ++ data
  let seq := (s.ring p).rspSeq + 1
  let k := s.keyed p
  let n := if k then (48 + body.length + 63) / 64 else (32 + body.length + 63) / 64
  let h := if k then rspHeader n p (s.keyGen p) seq body.length kind 0 tag.toNat
    else rspHeader n p 0 0 body.length kind 2 tag.toNat
  let b := fixLen (64 * n) (h ++ if k then gcmSeal (s.plotKey p "FLR-RSP" 32) (capNonce p 1 (s.keyGen p) seq) h body else body)
  let s1 := s.modRing p fun x => { x with rspWait := x.rspWait ++ [b], rspSeq := if k then seq else x.rspSeq }
  s1.rspFlush p (s1.ring p).rspWait.length

/-- Requests may be issued again: messages that are pending and responses that wait go out (R357, R377). -/
def State.dmaResume (s : State) : State :=
  (List.range 8).foldl (fun s p => s.rspFlush p (s.ring p).rspWait.length) ((List.range 64).foldl State.msixRelease s)

/-- BUS_MASTER_ENABLE_WRITE (R38, R354, R376–R378). -/
def execBusMasterEnableWrite (c : PciCtl) (s : State) : Res :=
  let s1 : State := { s with pcie := { s.pcie with
    busMaster := c.busMaster, payload := 128 * 2 ^ c.mps.val, readReq := c.readReq, relaxed := c.relaxed, msixEn := c.msixEn, msixMask := c.msixMask } }
  done s1.dmaResume

/-- AER reports an error (R356), at its bit of the Uncorrectable Error Status (PRESUMED: the PCI Express Base Specification; log entry
230). -/
def State.aerNote (s : State) (bit : Nat) : State :=
  { s with pcie := { s.pcie with aer := s.pcie.aer ||| BitVec.ofNat 32 (2 ^ bit) } }

/-- The AER bit of a completion's fault: an error status is not one of the requester's. -/
def cplAer : CplFault → Option Nat
  | .error => none
  | .timeout => some 14
  | .poisoned => some 12
  | .ecrc => some 19

/-! ## Result rings and batches (R346–R349, R370–R373) -/

/-- Batching is on for plot `p` (R346). -/
def State.batching (s : State) (p : Nat) : Bool :=
  (s.keyed p && s.enforce) || s.on (A.wlBatchCfg p) F.wlBatchCfg.en

/-- The key generation to which the batch of plot `p` belongs, its root key, the number of its next batch (R346): one that is no longer in
force, until the last record of its shots is written. -/
def State.batchKey (s : State) (p : Nat) : OldKey :=
  (s.ring p).former.headD { sid := 0, gen := s.keyGen p, prk := s.prk p, num := s.reg (A.wlBatchNum p) }

/-- The number of the next batch moves on. -/
def State.batchNext (s : State) (p : Nat) : State :=
  match (s.ring p).former with
  | k :: ks => s.modRing p fun x => { x with former := { k with num := k.num + 1 } :: ks }
  | [] => s.setReg (A.wlBatchNum p) (s.reg (A.wlBatchNum p) + 1)

/-- Bytes 0–91 of a trailer (R347), and its reserved bytes. -/
def State.trailer (s : State) (p : Nat) (b : BatchX) (flags : Nat) : List Byte :=
  let k := s.batchKey p
  let h := leBytes 8 s.DT ++ leBytes 4 k.num.toNat ++ leBytes 2 b.slots.length ++ leBytes 2 0xFFFE
    ++ leBytes 4 b.firstNum.toNat ++ leBytes 4 b.lastNum.toNat ++ leBytes 1 k.gen ++ leBytes 1 p ++ leBytes 2 flags
  let mac := fixLen 48 (Config.hmac (hkdf k.prk serialBytes (ascii "FLR-RES") 48) (b.slots.flatten ++ h)) ++ s.aliasId
  h ++ leBytes 4 (crc32c h).toNat ++ mac ++ leBytes 4 (crc32c mac).toNat ++ leBytes 4 0

/-- Trailers of the device that wait for a signature. -/
def State.signWaiting (s : State) : Nat := ((List.range 8).map fun p => (s.ring p).signing.length).sum

/-- The batch of plot `p` closes (R346–R349). -/
def State.closeBatch (s : State) (p : Nat) (b : BatchX) (late : Bool) : State :=
  let x := s.ring p
  let lost := x.lost.any fun i => decide (i ≤ x.lastSid)
  let sign := s.on (A.wlBatchCfg p) F.wlBatchCfg.sign
  let skip := sign && decide (8 ≤ s.signWaiting)
  let fl := b2n (sign && !skip) + 2 * b2n late + 4 * b2n lost + 8 * b2n skip
  let t := s.trailer p b fl
  let s1 := s.batchNext p
  let x1 : RingX := { s1.ring p with batch := none, lost := x.lost.filter fun i => decide (x.lastSid < i) }
  if sign && !skip then s1.setRing p { x1 with signing := x1.signing ++ [t] }
  else
    let s2 := if skip then (s1.bump (A.wlSignSkipCnt p)).fire 1374 else s1
    s2.setRing p { x1 with queue := { sid := x1.lastSid, shot := false, bytes := t } :: x1.queue }

/-- The batch of plot `p` closes, if there is one. -/
def State.closeOpen (s : State) (p : Nat) : State :=
  match (s.ring p).batch with
  | some b => s.closeBatch p b false
  | none => s

/-- The last shot of plot `p` of which a record is still to be written. -/
def State.lastOwed (s : State) (p : Nat) : Option Nat :=
  let a := ((s.sched p).shots.filter fun h => !h.quiet).map fun h => h.sid
  let b := ((s.ring p).queue.filter fun q => q.shot).map fun q => q.sid
  let c := ((List.range 32).flatMap fun t => (KMap.get [] s.recs t).filter fun r => r.plot == p).map fun r => r.sid
  (a ++ b ++ c).max?

/-- A new key generation is about to come into force for plot `p` (R346): the batch closes before it, after its last shot record. Records of
shots under the generation in force that are still to be written stay in batches of that generation (DESIGN CHOICE, log entry 228). -/
def State.keyChange (s : State) (p : Nat) : State :=
  match s.lastOwed p with
  | none => s.closeOpen p
  | some n => s.modRing p fun x =>
      { x with former := x.former ++ [{ sid := n, gen := s.keyGen p, prk := s.prk p, num := s.reg (A.wlBatchNum p) }] }

/-- The keys of plot `p` are about to be erased: a batch of whole shots closes under its key, another is dropped with it (DESIGN CHOICE, log
entry 229). -/
def State.keyLast (s : State) (p : Nat) : State :=
  let s1 := match (s.ring p).batch with
    | some b => if b.whole then s.closeBatch p b false else s
    | none => s
  s1.modRing p fun x => { x with batch := none, former := [] }

/-- A record of shot `sid` comes: the batches of key generations whose shots lie before it end. -/
def State.formerEnd (s : State) (p sid : Nat) : List OldKey → State
  | [] => s
  | k :: ks =>
    if k.sid < sid then ((s.closeOpen p).modRing p fun x => { x with former := ks }).formerEnd p sid ks else s

/-- Slots enter the result ring of plot `p` (R370, R379, R400). `always`: the message does not wait for the count. -/
def State.rrPut (s : State) (p : Nat) (bytes : List Byte) (always : Bool) : State :=
  let k := bytes.length / 32
  let l := ringSpans (s.ringBase p 2) (2 ^ s.fld (A.rrCfg p) F.rrCfg.sizeLog2) 32 (s.reg (A.rrProd p)).toNat bytes.length
  let s0 := (s.setReg (A.rrProd p) (s.reg (A.rrProd p) + BitVec.ofNat 32 k)).ringSend p 2 l bytes
  let s1 := s0.exportItem p bytes
  let n := (s.ring p).irqSlots + k
  if always || decide (s.fld (A.rrIrq p) F.rrIrq.cnt ≤ n) then
    (s1.modRing p fun x => { x with irqSlots := 0, irqSince := none, wbDirty := true }).ringIrq p p
  else s1.modRing p fun x => { x with irqSlots := n, irqSince := some (x.irqSince.getD s.tm.now), wbDirty := true }

/-- A record slot of shot `sid` joins the batch of plot `p`. -/
def State.batchAdd (s0 : State) (p sid : Nat) (num : Word) (bytes : List Byte) (shot : Bool) : State :=
  let s := s0.formerEnd p sid (s0.ring p).former
  if !s.batching p then s
  else
    let b : BatchX := match (s.ring p).batch with
      | some b => { b with slots := b.slots ++ [bytes], lastNum := num, whole := shot }
      | none => { slots := [bytes], firstNum := num, lastNum := num, firstAt := s.tm.now, whole := shot }
    s.modRing p fun x => { x with batch := some b }

/-- After the record of shot `sid` the batch closes where R346 says so. -/
def State.batchEnd (s : State) (p sid : Nat) (last : Bool) : State :=
  match (s.ring p).batch with
  | none => s
  | some b =>
    let full := decide (s.fld (A.wlBatchCfg p) F.wlBatchCfg.batchSlots ≤ b.slots.length)
    let late := decide (b.firstAt + s.fld (A.wlBatchCfg p) F.wlBatchCfg.batchUs * usTicks ≤ s.tm.now)
    let key := match (s.ring p).former with | k :: _ => decide (k.sid ≤ sid) | [] => false
    let s1 := if full || last || late || key then s.closeBatch p b (late && !full && !last && !key) else s
    if key then s1.modRing p fun x => { x with former := x.former.drop 1 } else s1

/-- The first result record of plot `p` in the order of R371, with its tile: tiles `t`, `t + 1`, … (`n` of them). -/
def State.firstRec (s : State) (p : Nat) : Nat → Nat → Option (Nat × Rec)
  | 0, _ => none
  | n + 1, t =>
    let r := (KMap.get [] s.recs t).find? fun r => r.plot == p
    match r, s.firstRec p n (t + 1) with
    | none, o => o
    | some r, none => some (t, r)
    | some r, some (u, x) =>
      if x.sid < r.sid ∨ (x.sid = r.sid ∧ x.tick < r.tick) then some (u, x) else some (t, r)

/-- A result record may be written: its tick has come, and no earlier shot's record is outstanding (R371, R486). -/
def State.recReady (s : State) (p : Nat) (r : Rec) : Bool :=
  decide (r.tick ≤ s.DT) && !((s.sched p).shots.any fun h => h.started && !h.quiet && decide (h.sid < r.sid)) &&
    (match (s.ring p).queue with | q :: _ => decide (r.sid ≤ q.sid) | [] => true)

/-- Something waits for the result ring of plot `p`, and how many slots it takes. -/
def State.ringWants (s : State) (p : Nat) : Option Nat :=
  match s.firstRec p 32 0 with
  | some (_, r) =>
    if s.recReady p r then some 1
    else match (s.ring p).queue with
      | q :: _ => if q.sid < r.sid then some (q.bytes.length / 32) else none
      | [] => none
  | none => match (s.ring p).queue with
    | q :: _ => some (q.bytes.length / 32)
    | [] => none

/-- An item that waits for ring room sets BACKPRESS (R372). -/
def State.backpress (s : State) (p : Nat) : State :=
  match s.ringWants p with
  | some n => if s.rrRoom p < n then s.pgAlert p F.pgAlert.backpress else s
  | none => s

/-- The front of the per-plot queue goes to the ring. -/
def State.putQueued (s : State) (p : Nat) (q : RingItem) (qs : List RingItem) : State :=
  let s1 := s.modRing p fun x => { x with queue := qs, lastSid := q.sid }
  if q.shot then ((s1.rrPut p q.bytes q.last).batchAdd p q.sid q.num q.bytes true).batchEnd p q.sid q.last
  else s1.rrPut p q.bytes (s.on (A.rrIrq p) F.rrIrq.onBatch)

/-- A result record goes to the ring. -/
def State.putRecord (s : State) (p t : Nat) (r : Rec) : State :=
  let s1 : State := { s with recs := KMap.set [] s.recs t ((KMap.get [] s.recs t).erase r) }
  (s1.rrPut p r.bytes false).batchAdd p r.sid (BitVec.ofNat 32 (leAt r.bytes 8 4)) r.bytes false

/-- The first item that waits for the result ring of plot `p` goes to it. -/
def State.ringPut (s : State) (p : Nat) : State :=
  let queued := match (s.ring p).queue with
    | q :: qs => s.putQueued p q qs
    | [] => s
  match s.firstRec p 32 0 with
  | some (t, r) => if s.recReady p r then s.putRecord p t r else queued
  | none => queued

/-- An item of plot `p` could go to its result ring now. -/
def State.canPut (s : State) (p : Nat) : Bool := match s.ringWants p with | some n => decide (n ≤ s.rrRoom p) | none => false

/-- The plot whose turn it is among those with an item to write: the rings are written in round-robin order, one item at a time (R376). -/
def State.rrTurn (s : State) : Option Nat := ((List.range 8).map fun i => (s.pcie.turn + 1 + i) % 8).find? s.canPut

/-- RESULT_RING_WRITE (R371, R376): the item that waits first goes to the ring, if the ring has room and it is the plot's turn. -/
def execResultRingWrite (p : Plot) (s : State) : Res :=
  match s.ringWants p with
  | none => done s
  | some n =>
    if s.rrRoom p < n then done (s.pgAlert p F.pgAlert.backpress)
    else onlyIf (s.rrTurn == some p.val) s (({ s with pcie := { s.pcie with turn := p } } : State).ringPut p)

/-- The 32 bytes of a shot record (R69). -/
def State.shotRecord (_s : State) (p : Nat) (h : Shot) (stop : Nat) : List Byte :=
  let b := leBytes 8 h.start ++ leBytes 4 h.num.toNat ++ leBytes 2 h.results ++ leBytes 2 0xFFFF ++ leBytes 4 (stop - h.start)
    ++ leBytes 4 h.pause ++ leBytes 1 (min 255 h.lateQ.length) ++ leBytes 1 p ++ leBytes 2 (h.flags &&& 0x1FFF).toNat
  b ++ leBytes 4 (crc32c b).toNat

/-- The shot record of plot `p` is written (R67, R69, R372). FLAGS_ACC and FLAGGED_SHOTS take the shot's flags here: the rules give them no tick
(DESIGN CHOICE, log entry 216). -/
def State.writeShotRecord (s : State) (p : Nat) (h : Shot) (stop : Nat) : State :=
  let c := s.sched p
  let s1 := s.setSched p { c with shots := c.shots.filter fun x => x.sid != h.sid }
  let s2 := s1.raiseReg (A.flagsAcc p) (BitVec.ofNat 32 (h.flags &&& 0xFFF).toNat)
  let s3 := if (h.flags &&& 0x7F) != 0 then s2.bump (A.flaggedShots p) else s2
  if h.quiet then s3
  else if 32 ≤ (s3.ring p).queue.length then
    ((s3.bump (A.rrShotDropCnt p)).modRing p fun x => { x with lost := x.lost ++ [h.sid] }).pgAlert p F.pgAlert.shotDrop
  else
    let i : RingItem := { sid := h.sid, shot := true, num := h.num, last := (h.flags &&& Flag.last) != 0,
                          bytes := s.shotRecord p h stop }
    s3.modRing p fun x => { x with queue := x.queue ++ [i] }

/-- SHOT_RECORD_WRITE (R486): the oldest shot has ended, its records (record tick E + 2 at the latest) are complete, and
its bias entries have settled. -/
def execShotRecordWrite (p : Plot) (s : State) : Res :=
  match (s.sched p).shots with
  | h :: _ =>
    match h.stop with
    | some e => onlyIf (h.bias == 0 && decide (e + 2 ≤ s.DT) && !s.recOwed p h.sid) s (s.writeShotRecord p h e)
    | none => done s
  | [] => done s

/-- BATCH_SIGN_DONE (R349): the oldest trailer that waits is signed. -/
def execBatchSignDone (p : Plot) (s : State) : Res :=
  let x := s.ring p
  match x.signing with
  | t :: ts =>
    let sid := x.queue.foldl (fun m q => max m q.sid) x.lastSid
    let b := t ++ s.aliasSign (t.take 92)
    done (s.setRing p { x with signing := ts, queue := x.queue ++ [{ sid := sid, shot := false, bytes := b }] })
  | [] => done s

/-- RESULT_IRQ_TIMER (R379). -/
def execResultIrqTimer (p : Plot) (s : State) : Res :=
  let us := s.fld (A.rrIrq p) F.rrIrq.us
  match (s.ring p).irqSince with
  | some at_ =>
    onlyIf (us != 0 && decide (at_ + us * usTicks ≤ s.tm.now)) s
      ((s.modRing p fun x => { x with irqSlots := 0, irqSince := none }).ringIrq p p)
  | none => done s

/-! ## Doorbells and ring configuration (R358–R361) -/

/-- CMD_STS as read: a running ring reads WAIT_RSP while the response ring has less than 258 free slots (R368). -/
def State.cmdStsView (s : State) (p : Nat) : Word :=
  let v := s.reg (A.cmdSts p)
  if getF v F.cmdSts.state = 1 && decide (s.rspRoom p < 258) then putF v F.cmdSts.state 3 else v

/-- WRITEBACK (R361): at most once per 250 ns; the messages that report the same change follow it. -/
def execWriteback (p : Plot) (s : State) : Res :=
  let x := s.ring p
  let b := leBytes 4 (s.reg (A.cmdCons p)).toNat ++ leBytes 4 (s.reg (A.rspProd p)).toNat ++ leBytes 4 (s.reg (A.rrProd p)).toNat
    ++ leBytes 4 (s.cmdStsView p).toNat ++ leBytes 8 s.DT ++ List.replicate 36 0
  let ok := match x.wbAt with | some a => decide (a + 625 ≤ s.tm.now) | none => true
  let s1 := s.setRing p { x with wbDirty := false, wbAt := some s.tm.now }
  onlyIf (x.wbDirty && s.on (A.wbLo p) F.wbLo.en && s.dmaOk && ok) s
    ((s1.send (.writeback p (64 * s.fld (A.wbLo p) F.wbLo.addr + 2 ^ 32 * (s.reg (A.wbHi p)).toNat)
      (b ++ leBytes 4 (crc32c b).toNat))).irqRelease p)

/-- The refusal of an access to the page of an undefined plot (R40). -/
def State.pageDeny (s : State) (p : Nat) : Option Refuse := if s.plotDefined p then none else some .accessErr

/-- A write of an index register: discarded with PROD_ERR where the ring would not hold it (R359). -/
def State.writeIndex (s : State) (src : Req) (r : RegSpec) (p a : Nat) (w : Word) (used size : Nat) : WRes :=
  if (s.blockRefuse src a).isNone && (s.pageDeny p).isNone && decide (size < used) then (s.pgAlert p F.pgAlert.prodErr, none)
  else s.write src r a w (s.pageDeny p) fun s1 => s1.rspFlush p (s1.ring p).rspWait.length

/-- A write of CMD_PROD. -/
def State.writeCmdProd (s : State) (src : Req) (p : Nat) (w : Word) : WRes :=
  s.writeIndex src spec_cmdProd p (A.cmdProd p) w (ringUsed w (s.reg (A.cmdCons p))) (2 ^ s.fld (A.cmdCfg p) F.cmdCfg.sizeLog2)

/-- A write of RSP_CONS. -/
def State.writeRspCons (s : State) (src : Req) (p : Nat) (w : Word) : WRes :=
  s.writeIndex src spec_rspCons p (A.rspCons p) w (ringUsed (s.reg (A.rspProd p)) w) (2 ^ s.fld (A.rspCfg p) F.rspCfg.sizeLog2)

/-- A write of RR_CONS. -/
def State.writeRrCons (s : State) (src : Req) (p : Nat) (w : Word) : WRes :=
  s.writeIndex src spec_rrCons p (A.rrCons p) w (ringUsed (s.reg (A.rrProd p)) w) (2 ^ s.fld (A.rrCfg p) F.rrCfg.sizeLog2)

/-- Byte offset of a doorbell register in its window (R40). -/
def bellOff (a : Nat) : Nat := a - 0x10000000

/-- COMMAND_DOORBELL (R359). -/
def execCommandDoorbell (p : Plot) (w : Word) (s : State) : Res :=
  done (State.bellWrite (s.writeCmdProd .host p w) (bellOff (A.cmdProd p)))

/-- RSP_CONS_WRITE (R359). -/
def execRspConsWrite (p : Plot) (w : Word) (s : State) : Res :=
  done (State.bellWrite (s.writeRspCons .host p w) (bellOff (A.rspCons p)))

/-- RR_CONS_WRITE (R359). -/
def execRrConsWrite (p : Plot) (w : Word) (s : State) : Res :=
  done (State.bellWrite (s.writeRrCons .host p w) (bellOff (A.rrCons p)))

/-- The CFG register of a ring: its description, offset, least and greatest size. -/
def ringCfg (p ring : Nat) : RegSpec × Nat × Nat × Nat :=
  if ring = 0 then (spec_cmdCfg, A.cmdCfg p, 6, 16)
  else if ring = 1 then (spec_rspCfg, A.rspCfg p, 9, 16)
  else (spec_rrCfg, A.rrCfg p, 10, 20)

/-- A ring is enabled: both its indices go to 0 (R360). -/
def State.ringOn (s : State) (p ring : Nat) : State :=
  if ring = 0 then ((s.setReg (A.cmdProd p) 0).setReg (A.cmdCons p) 0).setFld (A.cmdSts p) F.cmdSts.state 1
  else if ring = 1 then (s.setReg (A.rspProd p) 0).setReg (A.rspCons p) 0
  else (s.setReg (A.rrProd p) 0).setReg (A.rrCons p) 0

/-- A ring is disabled: a capsule that is not yet accepted goes no further (R360). -/
def State.ringOff (s : State) (p ring : Nat) : State :=
  if ring = 0 then
    (if (s.ring p).cap.isSome then s else s.setFld (A.cmdSts p) F.cmdSts.state 0)
  else if ring = 1 then s.modRing p fun x => { x with rspWait := [] }
  else s

/-- A write of the CFG register of a ring (R360): while it is enabled, only a write that clears EN is accepted. -/
def State.writeRingCfg (s : State) (src : Req) (p ring : Nat) (w : Word) : WRes :=
  let c := ringCfg p ring
  let n := getF w F.cmdCfg.sizeLog2
  let was := s.on c.2.1 F.cmdCfg.en
  let now := getF w F.cmdCfg.en = 1
  let deny := match s.pageDeny p with
    | some e => some e
    | none => if (was && now) || n < c.2.2.1 || c.2.2.2 < n then some Refuse.accessErr else none
  s.write src c.1 c.2.1 w deny fun s1 =>
    if now && !was then s1.ringOn p ring else if was && !now then s1.ringOff p ring else s1

/-- RING_ENABLE (R360). -/
def execRingEnable (p : Plot) (ring : Fin 3) (w : Word) (s : State) : Res :=
  done (State.bellWrite (s.writeRingCfg .host p ring w) (bellOff (ringCfg p ring).2.1))

/-- A write of another register of the doorbell page: a BASE only while its ring is disabled; RR_IRQ.CNT is not 0. Without
writebacks no message waits for one. -/
def State.writePage (s : State) (src : Req) (r : RegSpec) (p a : Nat) (w : Word) : WRes :=
  let deny := match s.pageDeny p with
    | some e => some e
    | none =>
      let busy := match r.reg with
        | .cmdBaseLo | .cmdBaseHi => s.on (A.cmdCfg p) F.cmdCfg.en
        | .rspBaseLo | .rspBaseHi => s.on (A.rspCfg p) F.rspCfg.en
        | .rrBaseLo | .rrBaseHi => s.on (A.rrCfg p) F.rrCfg.en
        | .rrIrq => getF w F.rrIrq.cnt == 0
        | _ => false
      if busy then some Refuse.accessErr else none
  s.write src r a w deny fun s1 => if s1.on (A.wbLo p) F.wbLo.en then s1 else s1.irqRelease p

/-- A write of CMD_CTL (R363). -/
def State.writeCmdCtl (s : State) (src : Req) (p : Nat) (w : Word) : WRes :=
  s.write src spec_cmdCtl (A.cmdCtl p) w (s.pageDeny p) fun s1 =>
    if getF w F.cmdCtl.restart = 1 && s1.fld (A.cmdSts p) F.cmdSts.state = 2 then s1.setFld (A.cmdSts p) F.cmdSts.state 1
    else s1

/-- CMD_RING_RESTART (R363). -/
def execCmdRingRestart (p : Plot) (s : State) : Res :=
  done (State.bellWrite (s.writeCmdCtl .host p 1) (bellOff (A.cmdCtl p)))

/-! ## Capsules (R362–R369) -/

/-- The next capsule slot moves on. -/
def State.cmdAdvance (s : State) (p n : Nat) : State :=
  (s.setReg (A.cmdCons p) (s.reg (A.cmdCons p) + BitVec.ofNat 32 n)).modRing p fun x => { x with wbDirty := true }

/-- A NACK is counted and written (R344, R363): no operation of the capsule is completed, so the first that is not has index 0 (R367). -/
def State.nack (s : State) (p : Nat) (cseq : BitVec 64) (tag : Word) (status : Nat) : State :=
  let s1 := ((s.bump (A.capNackCnt p)).setFld (A.cmdSts p) F.cmdSts.nackLast status).pgAlert p F.pgAlert.nack
  let s2 := if 4 ≤ status then (s1.bump (A.wlAuthFailCnt p)).fire 1373 else s1
  s2.respond p 0x82 cseq tag status 0 0 []

/-- The command ring of plot `p` stops (R363, R377). -/
def State.ringStop (s : State) (p : Nat) : State := s.setFld (A.cmdSts p) F.cmdSts.state 2

/-- The ring ends its disabling, once no capsule is under way (R360). -/
def State.capEnd (s : State) (p : Nat) : State :=
  let s1 := s.modRing p fun x => { x with cap := none }
  if s1.on (A.cmdCfg p) F.cmdCfg.en then s1 else s1.setFld (A.cmdSts p) F.cmdSts.state 0

/-- WL_CSEQ_IN of plot `p`. -/
def State.cseqIn (s : State) (p : Nat) : Nat := s.pair (A.wlCseqInLo p) (A.wlCseqInHi p)

/-- Steps 2 to 7 of the header checks (R363): the status of the first that fails; 0 where none does. -/
def State.headerStatus (s : State) (p : Nat) (h : List Byte) : Nat :=
  let len := leAt h 0 2
  let bodyLen := leAt h 12 4
  let avail := ringUsed (s.reg (A.cmdProd p)) (s.reg (A.cmdCons p))
  if leAt h 16 1 ≠ 1 ∨ leAt h 17 1 ≠ 1 ∨ leAt h 18 1 ≥ 2 ∨ leAt h 19 1 ≠ 0 ∨ leAt h 24 4 ≠ 0 ∨ bodyLen > 65536 ∨
      len ≠ (48 + bodyLen + 63) / 64 ∨ len > 2 ^ s.fld (A.cmdCfg p) F.cmdCfg.sizeLog2 ∨ len > avail then 2
  else if leAt h 2 1 ≠ p then 3
  else if !s.plotDefined p then 4
  else if !s.keyed p then 5
  else if leAt h 3 1 ≠ s.keyGen p then 6
  else if leAt h 4 8 ≠ s.cseqIn p + 1 then 7
  else 0

/-- A read of the command ring meets a transfer error: the ring stops as for CRC (R377). -/
def State.ringError (s : State) (p : Nat) : State :=
  let s1 := (s.modRing p fun x => { x with cap := none }).ringStop p
  ((s1.setFld (A.cmdSts p) F.cmdSts.nackLast 1).pgAlert p F.pgAlert.nack).pgAlert p F.pgAlert.fetchErr

/-- The capsule of plot `p` has been fetched and waits to be authenticated. -/
def State.awaits (s : State) (p : Nat) : Bool := match (s.ring p).cap with | some c => c.body.isNone | none => false

/-- Welolyan authenticates one capsule at a time and takes the plots in round-robin order (R369): where it serves none, the next plot after
the one served last. -/
def State.serve (s : State) : State :=
  if (match s.wl.serving with | some p => s.awaits p | none => false) then s
  else { s with wl := { s.wl with serving := ((List.range 8).map fun i => (s.wl.served + 1 + i) % 8).find? s.awaits } }

/-- Reads of the `n` command-ring slots of plot `p` from CMD_CONS on (R358, R375). -/
def State.capReadsOut (s : State) (p n : Nat) : State :=
  { s with out := s.out ++
      ((ringSpans (s.ringBase p 0) (2 ^ s.fld (A.cmdCfg p) F.cmdCfg.sizeLog2) 64 (s.reg (A.cmdCons p)).toNat (64 * n)).flatMap fun r =>
        s.readParts r.1 r.2).map fun r => .ringRead p r.1 r.2 }

/-- A capsule is fetched and its header checked (R363): one slot is read, and the others of the capsule once the header passes (DESIGN
CHOICE, log entry 231). -/
def State.fetchCapsule (s0 : State) (p : Nat) (h : List Byte) : State :=
  let good := leAt h 28 4 == (crc32c (h.take 28)).toNat && s0.headerStatus p h == 0
  let s := s0.capReadsOut p (if good then leAt h 0 2 else 1)
  let cseq := BitVec.ofNat 64 (leAt h 4 8)
  let tag := BitVec.ofNat 32 (leAt h 20 4)
  if leAt h 28 4 ≠ (crc32c (h.take 28)).toNat then (s.ringStop p).nack p cseq tag 1
  else
    let st := s.headerStatus p h
    let len := leAt h 0 2
    if st ≠ 0 then
      (s.cmdAdvance p (max 1 (min len (ringUsed (s.reg (A.cmdProd p)) (s.reg (A.cmdCons p)))))).nack p cseq tag st
    else
      let c : CapX := { head := h, cseq := cseq, tag := tag, gen := leAt h 3 1, respReq := (leAt h 18 1).testBit 0, slots := len }
      (s.modRing p fun x => { x with cap := some c }).serve

/-- CAPSULE_FETCH (R363, R368): a read that Bus Master Enable forbids meets a transfer error (R377); in D3hot none is issued (R357). -/
def execCapsuleFetch (p : Plot) (header : List Byte) (s : State) : Res :=
  onlyIf (s.on (A.cmdCfg p) F.cmdCfg.en && s.fld (A.cmdSts p) F.cmdSts.state == 1 && (s.ring p).cap.isNone &&
      s.reg (A.cmdProd p) != s.reg (A.cmdCons p) && !s.pcie.d3 && !s.pcie.perst && decide (258 ≤ s.rspRoom p) && !s.isStandby &&
      s.henServes && header.length == 32) s
    (if s.dmaOk then s.fetchCapsule p header else s.ringError p)

/-- The bulk messages that carry a payload: of at most 32 blocks each (R268). -/
def bulkParts (l : List Block) : List (List Block) :=
  (List.range ((l.length + 31) / 32)).map fun i => (l.drop (32 * i)).take 32

/-- What the active device of a STANDBY pair applies is mirrored, with the SHOT_NUM at which it applied it (R288). -/
def State.mirrorOut (s : State) (p : Nat) (body : List Byte) : State :=
  if s.standbyPair && s.pairActive then
    match (List.range 8).find? fun k => s.isPairLink k && s.klUp k with
    | some k =>
      (bulkParts (Config.bulkPayload 1 (p :: (s.reg (A.shotNum p)).toNat :: body.map fun b => b.toNat))).foldl
        (fun s pl => s.pairPost 1 k pl) s
    | none => s
  else s

/-- The capsule's execution ends with a status (R366): the operation index not completed, the detail. It is mirrored now, when its
operations have been applied (R288). -/
def State.capDone (s : State) (p : Nat) (c : CapX) (status op detail : Nat) : State :=
  let s1 := (s.mirrorOut p (c.body.getD [])).capEnd p
  if status != 0 || c.respReq then s1.respond p 0x81 c.cseq c.tag status op detail c.data else s1

/-- The body of a capsule: AES-256-GCM under CK of its plot, with the header as additional data (R343); none where the tag fails. -/
def State.capBody (s : State) (p : Nat) (c : CapX) (cipher tag : List Byte) : Option (List Byte) :=
  gcmCheck (s.plotKey p "FLR-CMD" 32) (capNonce p 0 c.gen c.cseq.toNat) c.head cipher tag

/-- The authentication of a capsule completes (R344, R345). -/
def State.authDone (s : State) (p : Nat) (c : CapX) (body : Option (List Byte)) : State :=
  let refuse := fun st => ((s.capEnd p).cmdAdvance p c.slots).nack p c.cseq c.tag st
  if !s.keyed p then refuse 5
  else if c.gen ≠ s.keyGen p then refuse 6
  else
    match body with
    | none => refuse 8
    | some b =>
      let s1 := ((s.setPair (A.wlCseqInLo p) (A.wlCseqInHi p) (s.cseqIn p + 1)).bump (A.capOkCnt p)).cmdAdvance p c.slots
      if b = [] then s1.capDone p c 0 0xFFFF 0
      else s1.modRing p fun x => { x with cap := some { c with body := some b } }

/-- CAPSULE_AUTH_DONE (R344): of the plot that Welolyan serves (R369); not while the management cores restart (R323), nor while the device is
standby, whose rings are not served (R288). -/
def execCapsuleAuthDone (p : Plot) (cipher tag : List Byte) (s : State) : Res :=
  match (s.ring p).cap with
  | some c =>
    let s1 : State := { s with wl := { s.wl with serving := none, served := p } }
    onlyIf (s.henServes && !s.isStandby && c.body.isNone && s.wl.serving == some p.val) s
      (s1.authDone p c (s1.capBody p c cipher tag)).serve
  | none => done s

/-! ## Power states and resets of the interface (R357, R380, R466) -/

/-- D3HOT_ENTRY (R357): as DRAIN_ALL. -/
def execD3hotEntry (s : State) : Res :=
  let s1 : State := { s with pcie := { s.pcie with d3 := true } }
  done ((List.range 8).foldl State.drain s1)

/-- D0_RETURN (R357). -/
def execD0Return (s : State) : Res :=
  let s1 : State := { s with pcie := { s.pcie with d3 := false } }
  done s1.dmaResume

/-- The rings of plot `p` at a reset of the host interface (R377, R380): the fetch of a capsule that is not yet authenticated is abandoned,
which is a transfer error; what the rings hold is gone with their enables. -/
def State.pageReset (s0 : State) (p : Nat) : State :=
  let s := if s0.awaits p then s0.ringError p else s0
  let s1 := (((s.setFld (A.cmdCfg p) F.cmdCfg.en 0).setFld (A.rspCfg p) F.rspCfg.en 0).setFld (A.rrCfg p) F.rrCfg.en 0).setFld
    (A.wbLo p) F.wbLo.en 0
  let waiting := match (s.ring p).cap with | some c => c.body.isSome | none => false
  let s2 := s1.modRing p fun x => { x with rspWait := [], wbDirty := false, irqWait := [], cap := if waiting then x.cap else none }
  if waiting then s2 else s2.setFld (A.cmdSts p) F.cmdSts.state 0

/-- Decant fetches under way meet a transfer error (R156, R377, R380). -/
def State.fetchesFail (s : State) : State :=
  (List.range 512).foldl (fun s i => if (s.dec (i / 16) (i % 16)).fetching != [] then s.ddError (i / 16) (i % 16) 1 else s) s

/-- A reset of the host interface (R380): the configuration space goes back to its reset values. -/
def State.hostReset (s : State) : State :=
  let s1 := (List.range 8).foldl State.drain s
  let s2 := (List.range 8).foldl State.pageReset s1.fetchesFail
  let s3 := (List.range 256).foldl (fun s n => s.setReg (A.msixTable n) (regReset (A.msixTable n))) s2
  let s4 := (s3.setReg (A.msixPba 0) 0).setReg (A.msixPba 1) 0
  { s4 with pcie := { perst := s4.pcie.perst, turn := s4.pcie.turn }, wl := { s4.wl with serving := none } }

end Sys2Proof.Machine
end

