-- ==== Sys2Proof/Machine/Events.lean ====
section
/-! DEFINITION. The event fabric (R401–R412): channels, task inputs and their actions. -/

namespace Sys2Proof.Machine

/-- Channel `c` carries its source. -/
def State.chOn (s : State) (c : Nat) : Bool := s.on (A.evfCh c) F.evfCh.en

/-- The source of channel `c`. -/
def State.chSrc (s : State) (c : Nat) : Nat := s.fld (A.evfCh c) F.evfCh.src

/-- The event that channel `c` carries in a cycle in which the fabric takes the sources `srcs` and what EVF_FIRE has fired, and whether
events were merged in it (R407). -/
def State.chEvent (s : State) (srcs : List Nat) (c : Nat) : Option (Nat × Bool) :=
  let own := if srcs.contains (s.chSrc c) then (s.evq.filter fun e => e.1 == s.chSrc c).map fun e => e.2 else []
  let put := (s.evIn.filter fun e => e.1 == c).map fun e => e.2
  if !s.chOn c then none
  else
    match own ++ put with
    | [] => none
    | g :: gs => some (gs.foldl max g, gs != [])

/-- The channels that task input `k` subscribes to (R406). -/
def State.subs (s : State) (k : Nat) : List Nat :=
  let en := s.fld (A.taskCtl k) F.taskCtl.subEn
  ((List.range 4).filter fun n => en.testBit n).map fun n => (s.reg (A.taskSub k)).toNat / 2 ^ (8 * n) % 256

/-- The action of task `k` on an event of generation `g` (R403, R405). -/
def State.taskAct (s : State) (k g : Nat) : State :=
  if k < 40 then
    let a := if k < 32 then A.evfIrqStsLo else A.evfIrqStsHi
    (s.raiseReg a (BitVec.ofNat 32 (2 ^ (k % 32)))).msix (24 + k)
  else if k = 40 then s.raise A.evfAlertSts F.evfAlertSts.asserted 1
  else if k < 49 then s.hkTask k (g + 1)
  else if k < 53 then s.tmGo (k - 49) (g + 1)
  else if k = 53 then s.xtsLatch.fireG 1456 (g + 1)
  else if k < 58 then s.hkTask k (g + 1)
  else s.send (.mgmtIrq (k - 58))

/-- Task `k` fires on the events that reach it in a cycle (R406, R407). -/
def State.taskFire (s : State) (k : Nat) (gens : List Nat) : State :=
  match gens with
  | [] => s
  | g :: gs =>
    let s1 := (s.raise (A.taskCtl k) F.taskCtl.fired 1).bump (A.taskCnt k)
    let s2 := if gs = [] then s1
      else s1.setFld (A.taskCoal k) F.taskCoal.coal (min 255 (s1.fld (A.taskCoal k) F.taskCoal.coal + 1))
    s2.taskAct k (gs.foldl max g)

/-- One cycle of the fabric (R404–R407). -/
def State.fabric (s : State) (srcs : List Nat) : State :=
  let evs := (List.range 256).filterMap fun c => (s.chEvent srcs c).map fun e => (c, e)
  let s1 : State := { s with evq := s.evq.filter fun e => !srcs.contains e.1, evIn := [] }
  let s2 := evs.foldl (fun s e => s.bump (A.evfChCnt e.1)) s1
  let s3 := if evs.any fun e => e.2.2 then s2.raise A.evfSts F.evfSts.chCoal 1 else s2
  (List.range 64).foldl (fun t k =>
    t.taskFire k ((s.subs k).dedup.filterMap fun c => (evs.find? fun e => e.1 == c).map fun e => e.2.1)) s3

/-- EVENT_FIRE (R404): a cycle of the fabric, which takes the waiting events of the sources that reach it in the cycle, and what EVF_FIRE has
fired. -/
def execEventFire (srcs : List Nat) (s : State) : Res := done (s.fabric srcs)

/-- A write of EVF_FIRE (R407, R409): the channel fires through the fabric, whose next cycle takes it (log entry 232); GEN is honoured in writes
of the management cores. -/
def State.writeEvfFire (s : State) (src : Req) (w : Word) : WRes :=
  let c := getF w F.evfFire.ch
  let g := if src = .mgmt then getF w F.evfFire.gen else 0
  s.write src spec_evfFire A.evfFire w none fun s1 =>
    if s1.chOn c then { s1 with evIn := s1.evIn ++ [(c, g)] }
    else s1.raise A.evfSts F.evfSts.fireIgnored 1

/-- EVF_FIRE (R409). -/
def execEvfFire (w : Word) (mgmt : Bool) (s : State) : Res :=
  done (if mgmt then (s.writeEvfFire .mgmt w).1 else State.hostWrite (s.writeEvfFire .host w) A.evfFire)

/-- ALERT_RELEASE (R411): a write of EVF_ALERT_STS with ASSERTED set. -/
def execAlertRelease (s : State) : Res :=
  done (State.hostWrite (s.write .host spec_evfAlertSts A.evfAlertSts 1 none id) A.evfAlertSts)

/-- A write of EVF_CH. -/
def State.writeEvfCh (s : State) (src : Req) (c : Nat) (w : Word) : WRes :=
  s.write src spec_evfCh (A.evfCh c) w (if 1535 < getF w F.evfCh.src then some .accessErr else none) id

end Sys2Proof.Machine
end

