-- ==== Sys2Proof/Machine/Power.lean ====
section
/-! DEFINITION. Power meters, thermal control, shutdown, adaptive voltage and clocks, idle power-down and background
calibration (R428–R449). -/

namespace Sys2Proof.Machine

/-- Applies `f` to the hidden state of the power and thermal loops. -/
def State.modPower (s : State) (f : PowerX → PowerX) : State := { s with power := f s.power }

/-- A signed 16-bit field of a register. -/
def State.s16 (s : State) (a : Nat) : Int := sext 16 (s.reg a).toNat

/-- A 16-bit word of a signed number. -/
def w16 (x : Int) : Word := BitVec.ofNat 32 (BitVec.ofInt 16 x).toNat

/-! ## Shutdown and hard trip (R440–R442) -/

/-- The pair member drives PAIR_ACT no longer, and the loader holds nothing. -/
def State.letGo (s : State) : State :=
  let s1 : State := { s with pair2 := { s.pair2 with drive := none, change := none }, cfg := { s.cfg with img := none, hold := none } }
  (s1.setFld A.cfgSts F.cfgSts.state 0).setFld A.cfgSts F.cfgSts.holdTile 0xFF

/-- Shutdown begins, for cause 2 (thermal) or 3 (host): R440. -/
def State.shutdown (s : State) (cause : Nat) : State :=
  if s.shutAt.isSome || !s.live then s
  else
    let s1 := { s with shutAt := some s.tm.now }.fire 1464
    let s2 := (List.range 8).foldl State.abortSoon s1
    let s3 := (List.range 4).foldl (fun s q => s.eachBias q fun s j =>
      s.modBias q j fun x => { x with clearDue := if x.cfgd then some s.tm.now else none }) s2
    let s4 := (List.range 8).foldl (fun s k => s.linkOff k 0) s3.letGo
    let s5 := s4.log cause 255 (leBytes 2 (s.reg A.thTj).toNat ++ leBytes 1 (s.fld A.thSts F.thSts.hotNode) ++
      leBytes 1 (s.fld A.thSts F.thSts.level) ++ leBytes 4 (s.reg A.pmTotal).toNat)
    let s6 := (s5.cbAdd (if cause = 2 then 3 else 5) 1).cbSave
    { s6 with aon := { s6.aon with shut := true, open_ := false } }

/-- A write of PM_CTL (R440). -/
def State.writePmCtl (s : State) (src : Req) (w : Word) : WRes :=
  s.write src spec_pmCtl A.pmCtl w none fun s1 => if getF w F.pmCtl.shutdown = 1 then s1.shutdown 3 else s1

/-- HOST_SHUTDOWN (R440). -/
def execHostShutdown (s : State) : Res := done (State.hostWrite (s.writePmCtl .host 0x80000000) A.pmCtl)

/-- Every output stage of the bias dies goes high-impedance (R185). -/
def State.stagesOff (s : State) : State :=
  { s with biases := s.biases.map fun e => (e.1, { e.2 with on := false, cfgd := false }) }

/-- SHUTDOWN_POWER_OFF (R440): 250 µs after the beginning. -/
def execShutdownPowerOff (s : State) : Res :=
  match s.shutAt with
  | some a =>
    let s1 := (s.stagesOff.hostReset).setFld A.dtSts F.dtSts.running 0
    onlyIf (!s.aon.off && decide (a + 250 * usTicks ≤ s.tm.now)) s { s1 with aon := { s1.aon with off := true } }
  | none => done s

/-- HARD_TRIP (R442): every output stage goes high-impedance, those of the Kelair lanes among them. -/
def execHardTrip (diode : Fin 4) (s : State) : Res :=
  let s1 := (List.range 8).foldl (fun s k => s.linkOff k 0) s.stagesOff.letGo
  let s2 : State := { s1 with aon := { s1.aon with
    tripped := true, latch := some (s.rtc, diode.val), tripNew := true, open_ := false } }
  onlyIf (!s.aon.tripped && !s.aon.por) s s2

/-! ## Power meters (R429, R452) -/

/-- I_RATED of the rails in mA (R463). -/
def ratedMa : List Nat := [165000, 80000, 16000, 4000, 7000, 7000, 3000, 24000]

/-- e to the power x · 2⁻⁶⁴, in units of 2⁻⁶⁴, for x · 2⁻⁶⁴ between −17 and 3: the series of the 64th part, raised to the power 64. -/
def expFix (x : Int) : Nat :=
  let y := x / 64
  let r := (List.range 16).foldl (fun (z : Int × Int) k => (z.1 * y / (2 ^ 64 * (k + 1)), z.2 + z.1)) ((2 ^ 64 : Int), 0)
  (List.range 6).foldl (fun z _ => z * z / 2 ^ 64) r.2.toNat

/-- The rated life in µs that a rail consumes in 1 ms (R452), at a current in mA and a temperature in 1/16 °C: the Arrhenius term has
the exponent 0.85 ÷ 8.617 × 10⁻⁵ × (1 ÷ 378.15 − 1 ÷ T); its fraction of a µs is rounded freely. -/
def railStep (rated ma : Nat) (temp : Int) : Nat :=
  let x : Int := 2 ^ 64 * 85000000 * (20 * (5 * temp + 21852) - 80 * 7563) / (8617 * 7563 * (5 * temp + 21852))
  divFree (1000 * ma ^ 2 * expFix x) (rated ^ 2 * 2 ^ 64)

/-- The hottest of `n` nodes from node `i` on, in 1/16 °C. -/
def State.hottest (s : State) (i : Nat) : Nat → Int
  | 0 => s.s16 (A.thNode i)
  | n + 1 => max (s.s16 (A.thNode (i + n + 1))) (s.hottest i n)

/-- The hottest node of the die that rail `r` feeds. -/
def State.railTemp (s : State) (r : Nat) : Int :=
  if r = 1 ∨ r = 2 then s.hottest 24 3 else if 3 ≤ r ∧ r ≤ 5 then s.hottest 28 3 else s.hottest 0 23

/-- Rail `r` ages by 1 ms at a current (R452): EM_ALERT as it passes 80 % of rated life. -/
def State.railAge (s : State) (r ma : Nat) : State :=
  let old := s.cb (12 + r)
  let new := old + railStep (ratedMa.getD r 1) ma (s.railTemp r)
  let s1 := s.setCb (12 + r) new
  if old ≤ 252480000000000 ∧ 252480000000000 < new then s1.fire 1472 else s1

/-- Domain `d` has power: the domains of a disabled tile are off (R428). -/
def State.domOn (s : State) (d : Nat) : Bool := decide (128 ≤ d) || s.tileOn (d / 4)

/-- What the meter of domain `d` shows: 0 where the domain is off. -/
def State.metered (s : State) (l : List Nat) (d : Nat) : Nat := if s.domOn d then l.getD d 0 else 0

/-- The meters publish (R429): PM_LIMIT fires as PM_TOTAL comes to exceed it. -/
def State.meters (s : State) (mw mv ma : List Nat) : State :=
  let s1 := (List.range 168).foldl (fun s d =>
    s.setReg (A.pmDom d) (BitVec.ofNat 32 (s.metered mw d % 2 ^ 20 + 2 ^ 20 * (s.metered mv d % 2 ^ 12)))) s
  let total := min (((List.range 168).map (s.metered mw)).sum) 0xFFFFF
  let lim := (s.reg A.pmLimit).toNat
  let uj := s.power.uj + total
  let s2 := (s1.setReg A.pmTotal (BitVec.ofNat 32 total)).setPair A.pmEnergyLo A.pmEnergyHi
    (s.pair A.pmEnergyLo A.pmEnergyHi + uj / 1000)
  let s3 := if lim < total then
      let s3 := s2.raise A.pmSts F.pmSts.overLimit 1
      if s.power.overLim then s3 else s3.fire 1471
    else s2
  let s4 := (List.range 8).foldl (fun s r => s.railAge r (ma.getD r 0)) s3
  s4.modPower fun x => { x with uj := uj % 1000, meterAt := s.tm.now, overLim := decide (lim < total) }

/-- POWER_METER_UPDATE (R429): every 1 ms, until shutdown. -/
def execPowerMeterUpdate (mw mv ma : List Nat) (s : State) : Res :=
  onlyIf (!s.aon.por && !s.aon.off && s.shutAt.isNone && decide (s.power.meterAt + msTicks ≤ s.tm.now)) s
    (s.meters mw mv ma)

/-! ## The thermal model (R436–R439, R451) -/

/-- The highest of nodes 0–31 and its number. -/
def State.hotNode (s : State) : Int × Nat :=
  (List.range 32).foldl (fun b n => if b.1 < s.s16 (A.thNode n) then (s.s16 (A.thNode n), n) else b) (s.s16 (A.thNode 0), 0)

/-- The temperature that the thresholds compare (R437), in 1/16 °C. -/
def State.tjEff (s : State) : Int :=
  let tj := s.s16 A.thTj
  if s.on A.thSts F.thSts.anchorStale then tj + 160
  else if s.power.errAdds then tj + s.fld A.thAnchor F.thAnchor.err
  else tj

/-- The thermal-cycle tracker (R451). -/
def State.cycles (s : State) : State :=
  let tj := s.s16 A.thTj
  let x := s.power
  if x.cycHigh then
    if tj < x.cycRef - 640 then s.modPower fun x => { x with cycHigh := false, cycRef := tj }
    else s.modPower fun x => { x with cycRef := max x.cycRef tj }
  else if x.cycRef + 640 < tj then (s.modPower fun x => { x with cycHigh := true, cycRef := tj }).cbAdd 2 1
  else s.modPower fun x => { x with cycRef := min x.cycRef tj }

/-- The thresholds act: the model has been anchored, or no anchor has succeeded for 60 s (R437; log entry 238). -/
def State.thermActs (s : State) : Bool := s.power.anchorOk != 0 || s.on A.thSts F.thSts.anchorStale

/-- Tj follows the nodes, and the warn and shutdown thresholds act (R436–R438). -/
def State.thermal (s : State) : State :=
  let h := s.hotNode
  let s1 := (s.setReg A.thTj (w16 h.1)).setFld A.thSts F.thSts.hotNode h.2
  if !s1.thermActs then s1
  else
    let t := s1.tjEff
    let warn : Int := s1.fld A.thCtl F.thCtl.warn * 16
    let was := s1.on A.thSts F.thSts.warn
    let s2 := if !was && decide (warn ≤ t) then (s1.setFld A.thSts F.thSts.warn 1).fire 1460
      else if was && decide (t < warn - 32) then s1.setFld A.thSts F.thSts.warn 0
      else s1
    if (s1.fld A.thCtl F.thCtl.shut * 16 : Int) ≤ t then s2.shutdown 2 else s2

/-- The power domains whose heat arises at node `n` (R428, R436; log entry 237). -/
def nodeDomains (n : Nat) : List Nat :=
  if n < 16 then (List.range 8).map fun i => 8 * n + i
  else if n < 24 then [[152, 153], [154, 155], [159], [158], [156], [157], [160, 161, 162, 163], [164, 165, 166, 167]].getD (n - 16) []
  else if n < 28 then (List.range 4).map fun k => 128 + 6 * (n - 24) + k
  else if n < 32 then [132 + 6 * (n - 28), 133 + 6 * (n - 28)]
  else []

/-- The temperature of the cold plate: TH_COLD.REF + TH_COLD.OFS (R436). -/
def State.coldPlate (s : State) : Int := sext 16 (s.fld A.thCold F.thCold.ref) + sext 16 (s.fld A.thCold F.thCold.ofs)

/-- One step of the RC network (R436): what node `n` gains in 1 ms from the other nodes, from the power of its domains and, as a lid, from
the cold plate, in units of 2⁻²⁴ · 1/16 °C. -/
def State.rcFlow (s : State) (n : Nat) : Int :=
  let t := s.s16 (A.thNode n)
  let side := ((List.range 40).map fun m => (Config.rcNode n m).toInt * (s.s16 (A.thNode m) - t)).sum
  let heat := ((nodeDomains n).map fun d => (Config.rcPower n).toInt * (s.fld (A.pmDom d) F.pmDom.mw : Int)).sum
  side + heat + (if 36 ≤ n then (Config.rcCold (n - 36)).toInt * (s.coldPlate - t) else 0)

/-- The temperature that node `n` reaches, in 1/16 °C; `up`: its fraction is rounded up. -/
def State.rcNext (s : State) (n : Nat) (up : Bool) : Int :=
  clampI (-32768) 32767 (s.s16 (A.thNode n) + s.rcFlow n / 2 ^ 24 + b2n up)

/-- THERMAL_MODEL_UPDATE (R436): every 1 ms. The inner precision of the network is not given (log entry 237). -/
def execThermalModelUpdate (up : List Bool) (s : State) : Res :=
  let s1 := (List.range 40).foldl (fun t n => t.setReg (A.thNode n) (w16 (s.rcNext n (up.getD n false)))) s
  onlyIf (s.live && s.shutAt.isNone && decide (s.power.modelAt + msTicks ≤ s.tm.now)) s
    ((s1.thermal.cycles).modPower fun x => { x with modelAt := s.tm.now })

/-- The throttle level becomes `l` (R439, R454). -/
def State.setLevel (s : State) (l : Nat) : State :=
  let old := s.fld A.thSts F.thSts.level
  let s1 := (s.setFld A.thSts F.thSts.level l).setFld A.thSts F.thSts.throttling (b2n (l != 0))
  let data := leBytes 2 (s.reg A.thTj).toNat ++ leBytes 1 l
  if old = 0 ∧ l ≠ 0 then (s1.fire 1461).log 0x0F 255 data
  else if old ≠ 0 ∧ l = 0 then (s1.fire 1462).log 0x10 255 data
  else s1

/-- THROTTLE_EVAL (R439): every 1 ms. -/
def execThrottleEval (s : State) : Res :=
  let t := s.tjEff
  let th : Int := s.fld A.thCtl F.thCtl.throt * 16
  let en := s.on A.thCtl F.thCtl.thrEn
  let l := s.fld A.thSts F.thSts.level
  let hot := decide (th ≤ t) && s.thermActs
  let l' := if en && hot then min 16 (l + 1) else if !en || decide (t < th - 32) then l - 1 else l
  onlyIf (s.live && s.shutAt.isNone && decide (s.power.throttleAt + msTicks ≤ s.tm.now)) s
    ((s.setLevel l').modPower fun x => { x with throttleAt := s.tm.now })

/-- A write of TH_CTL (R438). -/
def State.writeThCtl (s : State) (src : Req) (w : Word) : WRes :=
  let v := mergeWord spec_thCtl.fields (s.locked src) (s.reg A.thCtl) w
  let a := getF v F.thCtl.warn
  let b := getF v F.thCtl.throt
  let c := getF v F.thCtl.shut
  let bad := a < 60 ∨ 95 < a ∨ 100 < b ∨ 115 < c ∨ b < a ∨ c < b
  s.write src spec_thCtl A.thCtl w (if bad then some .accessErr else none) id

/-- An anchor begins where it is due: 10 s after the last one, or once the bias links are up (R437). -/
def State.anchorTick (s : State) : State :=
  let due := match s.power.anchorAt with
    | some a => decide (a + 10 * secTicks ≤ s.tm.now)
    | none => true
  if due && s.live && s.shutAt.isNone && s.fld A.glbSts F.glbSts.bootStage != 0 &&
      (s.fld A.glbBridgeSts F.glbBridgeSts.blkUp != 0) then
    (List.range 4).foldl (fun s q => if s.blkUp q then s.hkThermal q else s)
      (s.modPower fun x => { x with anchorAt := some s.tm.now, anchoring := true })
  else s

/-- The anchored node of diode `i` (R437). -/
def diodeNode (i : Nat) : Nat := if i % 2 = 0 then 4 * (i / 2) + 1 else 24 + i / 2

/-- The reading of diode `i` since the anchor began (R437), in 1/16 °C: the code is in 2⁻¹⁴ °C (R415). -/
def State.diode (s : State) (i : Nat) : Option Int :=
  ((s.hk (i / 2)).diodes.find? fun x => x.1 == 32 + i % 2).map fun x => divOpen x.2 1024

/-- The diode readings anchor the model. -/
def State.anchor (s : State) (ds : List (Option Int)) : State :=
  let r := (List.range 8).filterMap fun i => (ds.getD i none).map fun d => d - s.s16 (A.thNode (diodeNode i))
  let s1 := (List.range 8).foldl (fun s i =>
    match ds.getD i none with
    | some d => (s.setReg (A.thNode (diodeNode i)) (w16 d)).setReg (A.thDiode i) (0x80000000 ||| w16 d)
    | none => s.setFld (A.thDiode i) F.thDiode.valid 0) s
  let s2 := s1.modPower fun x => { x with anchoring := false }
  if r = [] then s2
  else
    let sum := r.foldl (· + ·) 0
    let move : Int := if sum < 0 then -(divFree sum.natAbs (4 * r.length) : Int) else (divFree sum.natAbs (4 * r.length) : Int)
    let ofs := clampI (-32768) 32767 (sext 16 (s.fld A.thCold F.thCold.ofs) + move)
    let err := min (r.foldl (fun m x => max m x.natAbs) 0) 0xFFFF
    let s3 := (s2.setFld A.thCold F.thCold.ofs (w16 ofs).toNat).setReg A.thAnchor (BitVec.ofNat 32 err)
    let s4 := (s3.setFld A.thSts F.thSts.anchorStale 0).modPower fun x =>
      { x with anchorOk := s.tm.now + 1, errAdds := decide (128 < err) }
    (if 128 < err then (s4.raise A.thSts F.thSts.modelErr 1).fire 1463 else s4).thermal

/-- No conversion of the thermal slot is under way. -/
def State.thermalIdle (s : State) : Bool :=
  (List.range 4).all fun q => (s.hk q).therm == [] && (match (s.hk q).conv with | some c => c.kind != 1 | none => true)

/-- THERMAL_ANCHOR (R437). -/
def execThermalAnchor (s : State) : Res :=
  onlyIf (s.power.anchoring && s.thermalIdle && s.live) s (s.anchor ((List.range 8).map s.diode))

/-! ## Adaptive voltage (R434, R465) -/

/-- VMIN and VMAX of domain `d` in force: from a request that the regulator does not acknowledge until it acknowledges one, the rail's last acknowledged voltage − 25 mV
holds both (R465). -/
def State.vLimits (s : State) (d : Nat) : Nat × Nat :=
  let lo := s.fld (A.avsDom d) F.avsDom.vmin
  let hi := s.fld (A.avsDom d) F.avsDom.vmax
  let cap := (s.power.railAck - 650) / 5
  if s.power.railBad then (max lo cap, min hi cap) else (lo, hi)

/-- The core rail follows the highest domain voltage: + 25 mV, within 650–850 mV. -/
def State.railFollow (s : State) : State :=
  let v := (((List.range 168).filter fun d => adapted d && s.domOn d).map fun d => s.fld (A.avsDom d) F.avsDom.vset).foldl max 0
  let mv := max 650 (min 850 (650 + 5 * v))
  if mv = s.power.railReq then s
  else (s.modPower fun x => { x with railReq := mv, railAt := some s.tm.now }).send (.avs mv)

/-- Domain `d` rises by one step, or is held at its limit. -/
def State.domRaise (s : State) (d : Nat) : State :=
  let v := s.fld (A.avsDom d) F.avsDom.vset
  if v < (s.vLimits d).2 then s.setFld (A.avsDom d) F.avsDom.vset (v + 1)
  else if s.on (A.avsDom d) F.avsDom.atLimit then s
  else (s.raise (A.avsDom d) F.avsDom.atLimit 1).fire (if d < 128 then tileSrc (d / 4) 29 else 1474)

/-- Ticks that remain of a usable gap of plot `p` are enough for a voltage step (R434), or it is STOPPED. -/
def State.stepRoom (s : State) (p : Nat) : Bool :=
  s.stopped p || ((s.current p).isNone &&
    (match (s.sched p).fixed with
     | some f => decide (s.DT + s.lead p + 12500 ≤ f.start)
     | none => s.fld (A.shotCtl p) F.shotCtl.mode == 1 && (s.sched p).trig.isNone &&
         decide (s.lead p + 12510 ≤ (s.reg (A.trigDelay p)).toNat)))

/-- A step of domain `d` may start now. -/
def State.mayStep (s : State) (d : Nat) : Bool :=
  if d < 128 && d % 4 == 3 then (match s.plotOf (d / 4) with | some p => s.stepRoom p | none => true) else true

/-- Ticks since the last step of domain `d` are at least `n`, or it has made none. -/
def State.stepAfter (s : State) (d n : Nat) : Bool :=
  KMap.get 0 s.avsAt d == 0 || decide (KMap.get 0 s.avsAt d + n ≤ s.tm.now + 1)

/-- AVS_STEP (R434): every 10 µs, and at full slew, 5 mV in 5 µs, in an emergency. A domain held at VMAX below MARGIN_LO is at its limit
whether the loop may step it or not. -/
def execAvsStep (d : Fin 168) (margin : BitVec 6) (s : State) : Res :=
  let m := margin.toNat
  let lo := s.fld A.avsCtl F.avsCtl.marginLo
  let s1 := { s with avsAt := KMap.set 0 s.avsAt d (s.tm.now + 1) }.setFld (A.avsDom d) F.avsDom.margin m
  let v := s.fld (A.avsDom d) F.avsDom.vset
  let s2 :=
    if s.power.emerg.contains d.val then
      (if lo ≤ m then s1.modPower fun x => { x with emerg := x.emerg.erase d } else s1.domRaise d)
    else if !s.on A.avsCtl F.avsCtl.en || s.on A.avsCtl F.avsCtl.freeze || !s.mayStep d then
      (if m < lo ∧ (s.vLimits d).2 ≤ v then s1.domRaise d else s1)
    else if m < lo then s1.domRaise d
    else if s.fld A.avsCtl F.avsCtl.marginHi < m ∧ (s.vLimits d).1 < v then s1.setFld (A.avsDom d) F.avsDom.vset (v - 1)
    else s1
  onlyIf (adapted d && s.domOn d && s.live && s.stepAfter d (if s.power.emerg.contains d.val then 12500 else 25000)) s s2.railFollow

/-- An emergency raise of domain `d` (R434): in any tick, one step in 5 µs. -/
def State.emergency (s : State) (d : Nat) : State :=
  let s1 := if s.power.emerg.contains d then s
    else (s.modPower fun x => { x with emerg := d :: x.emerg }).bump A.avsEmergCnt
  if s.stepAfter d 12500 then (({ s1 with avsAt := KMap.set 0 s1.avsAt d (s.tm.now + 1) } : State).domRaise d).railFollow else s1

/-- AVS_EMERGENCY (R434). -/
def execAvsEmergency (d : Fin 168) (margin : BitVec 6) (s : State) : Res :=
  onlyIf (adapted d && s.domOn d && s.live && decide (margin.toNat < 2)) s
    ((s.setFld (A.avsDom d) F.avsDom.margin margin.toNat).emergency d)

/-- AVS_REQUEST_RETRY (R465): the regulator acknowledges the request that stands, or has not acknowledged it: then the domains are capped,
and it is repeated 1 ms after it was sent. -/
def execAvsRequestRetry (ack : Bool) (s : State) : Res :=
  match s.power.railAt with
  | some a =>
    let s1 :=
      if ack then s.modPower fun x => { x with railAck := x.railReq, railAt := none, railBad := false }
      else if a + msTicks ≤ s.tm.now then
        (s.send (.avs s.power.railReq)).modPower fun x => { x with railAt := some s.tm.now, railBad := true }
      else s.modPower fun x => { x with railBad := true }
    onlyIf s.live s s1
  | none => done s

/-- A write of AVS_DOM. -/
def State.writeAvsDom (s : State) (src : Req) (d : Nat) (w : Word) : WRes :=
  let v := mergeWord spec_avsDom.fields (s.locked src) (s.reg (A.avsDom d)) w
  let bad := 0x28 < getF v F.avsDom.vmax ∨ getF v F.avsDom.vmax < getF v F.avsDom.vmin
  s.write src spec_avsDom (A.avsDom d) w (if bad then some .accessErr else none) id

/-! ## Island clocks (R435) -/

/-- The domain of island `i` of tile `t` (R23, R428). -/
def islandDomain (t i : Nat) : Nat := 4 * t + i / 2

/-- ISLAND_CLOCK_STEP (R435): an island held at FMIN whose monitors allow less has not enough margin. -/
def execIslandClockStep (t : Tile) (i : Fin 6) (code : BitVec 7) (margin : BitVec 6) (s : State) : Res :=
  let lo := s.fld (A.islLim t i) F.islLim.fmin
  let hi := s.fld (A.islLim t i) F.islLim.fmax
  let s1 := s.setFld (A.islSts t i) F.islSts.margin margin.toNat
  let s2 := if s.on (A.islCtl t) F.islCtl.en && !s.on (A.islCtl t) F.islCtl.freeze then
      s1.setFld (A.islSts t i) F.islSts.freq (max lo (min hi code.toNat)) else s1
  let s3 := if code.toNat < lo ∧ s2.fld (A.islSts t i) F.islSts.freq = lo then
      let s3 := if s.on (A.islSts t i) F.islSts.atMin then s2
        else (s2.raise (A.islSts t i) F.islSts.atMin 1).fire (tileSrc t 28)
      s3.emergency (islandDomain t i)
    else s2
  onlyIf (s.tileOn t && s.live) s s3

/-- CLOCK_STRETCH (R435). -/
def execClockStretch (t : Tile) (i : Fin 6) (s : State) : Res :=
  onlyIf (s.tileOn t && s.live) s (s.send (.stretch t i))

/-- FREQ of island `i` comes within the limits in force (R435). -/
def State.islClamp (s : State) (t i : Nat) : State :=
  s.setFld (A.islSts t i) F.islSts.freq (max (s.fld (A.islLim t i) F.islLim.fmin) (min (s.fld (A.islLim t i) F.islLim.fmax)
    (s.fld (A.islSts t i) F.islSts.freq)))

/-- A write of ISL_LIM: FREQ follows new limits at once, under FREEZE too (DESIGN CHOICE, log entry 236). -/
def State.writeIslLim (s : State) (src : Req) (t i : Nat) (w : Word) : WRes :=
  let v := mergeWord spec_islLim.fields (s.locked src) (s.reg (A.islLim t i)) w
  let bad := 70 < getF v F.islLim.fmax ∨ getF v F.islLim.fmax < getF v F.islLim.fmin
  s.write src spec_islLim (A.islLim t i) w (if bad then some .accessErr else none) fun s1 => s1.islClamp t i

/-! ## Idle power-down (R432) -/

/-- The place of a converter in its tile; none where the tile has none of that number. -/
def convIdx : Converter → Nat → Option Nat
  | .xy, o => if o < 4 then some o else none
  | .probe, o => if o = 0 then some 4 else none
  | .flux, o => if o < 14 then some (5 + o) else none

/-- Wake time in ticks. -/
def wakeTicks : Converter → Nat
  | .flux => 12500
  | _ => 50000

/-- A converter. -/
def State.conv (s : State) (t i : Nat) : ConvX := KMap.get {} s.convs (32 * t + i)

/-- Writes a converter. -/
def State.setConv (s : State) (t i : Nat) (x : ConvX) : State := { s with convs := KMap.set {} s.convs (32 * t + i) x }

/-- The kind is enabled in TPW_CTL. -/
def State.pdOn (s : State) (t : Nat) : Converter → Bool
  | .xy => s.on (A.tpwCtl t) F.tpwCtl.xyPd
  | .probe => s.on (A.tpwCtl t) F.tpwCtl.probePd
  | .flux => s.on (A.tpwCtl t) F.tpwCtl.fluxPd

/-- The gap of plot `p` that is under way qualifies for a converter with wake time `w`, and its entry begins now. What qualifies it is how
the start stood at E + 1: a trigger that comes in between does not keep the converter from its entry (log entry 235). -/
def State.gapQualifies (s : State) (p w : Nat) : Bool :=
  let c := s.sched p
  let skim := if s.slotRan p then 3000 else 0
  (s.runState p == 2 || s.runState p == 3) && (s.current p).isNone && c.lastStart.isSome &&
    s.DT == c.lastEnd + 1 + skim &&
    (match c.fixed, s.lateTrig p with
     | some f, false => decide (c.lastEnd + s.lead p + skim + 2500 + w ≤ f.start)
     | _, _ => s.fld (A.shotCtl p) F.shotCtl.mode == 1 && decide (s.lead p + 2510 + w ≤ (s.reg (A.trigDelay p)).toNat))

/-- CONVERTER_POWER_DOWN (R432). -/
def execConverterPowerDown (t : Tile) (c : Converter) (o : Fin 14) (s : State) : Res :=
  match convIdx c o, s.plotOf t with
  | some i, some p =>
    let x := s.conv t i
    let rest := c != .flux || (x.zero == 1024 && s.fld (A.fxIdle t o) F.fxIdle.idleCode == 0)
    let s1 := s.setConv t i { x with st := 1, at_ := s.DT }
    let s2 := if s.on (A.tpwSts t) F.tpwSts.downNow then s1 else s1.bump (A.tpwPdCnt t)
    onlyIf (s.tileOn t && s.pdOn t c && x.st == 0 && rest && s.gapQualifies p (wakeTicks c)) s
      (s2.setFld (A.tpwSts t) F.tpwSts.downNow 1)
  | _, _ => done s

/-- CONVERTER_WAKE (R432): so as to settle by the announcement of a start that was fixed at E + 1; at the trigger where it was not; once
the plot has stopped. -/
def execConverterWake (t : Tile) (c : Converter) (o : Fin 14) (s : State) : Res :=
  match convIdx c o, s.plotOf t with
  | some i, some p =>
    let x := s.conv t i
    let k := s.sched p
    let due := s.lateTrig p || s.stopped p || s.runState p == 1 ||
      (match k.fixed with | some f => decide (f.start ≤ s.DT + s.lead p + wakeTicks c) | none => false)
    onlyIf (x.st == 1 && due && decide (x.at_ + 2500 ≤ s.DT)) s (s.setConv t i { x with st := 2, at_ := s.DT })
  | _, _ => done s

/-- CONVERTER_AWAKE (R432). -/
def execConverterAwake (t : Tile) (c : Converter) (o : Fin 14) (s : State) : Res :=
  match convIdx c o with
  | some i =>
    let x := s.conv t i
    let s1 := s.setConv t i { x with st := 0, at_ := 0 }
    let busy := (List.range 19).any fun n => (s1.conv t n).st != 0
    onlyIf (x.st == 2 && decide (x.at_ + wakeTicks c ≤ s.DT)) s (s1.setFld (A.tpwSts t) F.tpwSts.downNow (b2n busy))
  | none => done s

/-! ## Background calibration (R443–R449) -/

/-- Applies `f` to the calibration state. -/
def State.modCal (s : State) (f : CalX → CalX) : State := { s with cal := f s.cal }

/-- The quality figure of task `u` lies beyond CAL_QLIM (R443, R447): spurs in 0.1 dBc, offsets in 0.01 LSB. -/
def State.beyond (s : State) (t u : Nat) (q : Int) : Bool :=
  let spur : Int := s.fld (A.calQlim t) F.calQlim.spur
  let ofs := s.fld (A.calQlim t) F.calQlim.ofs
  if u < 5 ∨ u = 10 then decide (-(10 * spur) < q)
  else if 11 ≤ u ∧ u ≤ 26 then decide (100 * ofs < q.natAbs)
  else false

/-- TILE_FAIL records sequencer (t, q) (R316). -/
def State.markFailed (s : State) (t q : Nat) : State :=
  if q < 32 then s.setReg (A.tileFailLo t) (s.reg (A.tileFailLo t) ||| BitVec.ofNat 32 (2 ^ q))
  else s.setReg (A.tileFailHi t) (s.reg (A.tileFailHi t) ||| BitVec.ofNat 32 (2 ^ (q - 32)))

/-- A sequencer fails (R316, R317): with EN = 1 it enters OFF at the end of the shot in progress, or at once. -/
def State.seqFails (s : State) (t q : Nat) : State :=
  let s1 := (((s.markFailed t q).fire (tileSrc t 24)).log 0x0D t (leBytes 1 q ++ leBytes 1 0xFF))
  if !s.on (A.tilePlaceCtl t) F.tilePlaceCtl.en || s.effIdx t q = 34 then s1
  else
    let s2 : State := { s1 with cfg := { s1.cfg with failing := s1.cfg.failing ++ [(t, q)] } }
    let inShot := match s.plotOf t with | some p => (s.current p).isSome | none => false
    if inShot then s2 else s2.failedOff t

/-- Self-test task `u` tests sequencer `q` (R443): by islands, or the ROM and patch-RAM scans of all. -/
def selfTests (u q : Nat) : Bool :=
  match u, islandOf q with
  | 28, 0 | 28, 1 | 29, 2 | 29, 3 | 30, 4 | 30, 5 | 31, _ => true
  | _, _ => false

/-- A failed self-test marks its sequencer failed (R316, R447). -/
def State.selfTest (s : State) (t u : Nat) (r : CalResult) : State :=
  if r.quality != 0 && selfTests u r.seq && !s.failed t r.seq then s.seqFails t r.seq else s

/-- Task `u` of tile `t` has a result (R447). -/
def State.calTask (s0 : State) (t u : Nat) (r : CalResult) : State :=
  let s := s0.selfTest t u r
  let a := A.calQ t u
  let s1 := s.setFld a F.calQ.q r.quality.toNat
  let s2 := if r.within then
      (s1.setFld a F.calQ.rej 0).modCal fun c =>
        { c with trims := KMap.set 0 c.trims (32 * t + u) (BitVec.ofNat 32 (r.quality.toNat + 0x10000)) }
    else
      let n := min 255 (s.fld a F.calQ.rej + 1)
      let s2 := s1.setFld a F.calQ.rej n
      if n = 3 then (s2.raise a F.calQ.fail 1).fire (tileSrc t 26) else s2
  if s.beyond t u (sext 16 r.quality.toNat) then (s2.raise a F.calQ.qlim 1).fire (tileSrc t 27) else s2

/-- A device task has a result: task number 0–33 (TIU inputs) or 34 + 4k + i (lanes). -/
def State.calDevice (s : State) (n : Nat) (r : CalResult) : State :=
  let s1 := if n < 34 then s.setReg (A.calTiuQ n) (BitVec.ofNat 32 r.quality.toNat)
    else s.setFld (A.klLnSts ((n - 34) / 4) ((n - 34) % 4)) F.klLnSts.eyeW r.quality.toNat
  if r.within then
    s1.modCal fun c => { c with rej := KMap.set 0 c.rej n 0,
                                trims := KMap.set 0 c.trims (1024 + n) (BitVec.ofNat 32 (r.quality.toNat + 0x10000)) }
  else
    let k := KMap.get 0 s.cal.rej n + 1
    let s2 := s1.modCal fun c => { c with rej := KMap.set 0 c.rej n k }
    if k = 3 then (s2.raise A.calSts F.calSts.devFail 1).fire 1467 else s2

/-- CAL_AGE of plot `p` in ms. -/
def State.calAge (s : State) (p : Nat) : Nat := min ((s.tm.now - KMap.get 0 s.cal.slotAt p) / msTicks) 0xFFFFFFFF

/-- The usable gap of plot `p` is long enough for a slot that begins in the present tick (R444, R445): at E + 1 by its start, once the
scheduler has computed it, or by its guaranteed minimum; later only where the pause of the start fixed in this tick carries it (log entry
239). -/
def State.slotFits (s : State) (p : Nat) : Bool :=
  let c := s.sched p
  let cal : List PauseReq := if s.cal.req.contains p then [⟨3000, Flag.calInserted⟩] else []
  match c.fixed with
  | some f => decide (s.DT + s.lead p + 2999 ≤ f.start) && (s.DT == c.lastEnd + 1 || (s.lateTrig p && f.flags &&& Flag.calInserted != 0 &&
      !s.slotRan p && (match c.trig with | some (_, n) => n == s.DT | none => false)))
  | none => s.DT == c.lastEnd + 1 && s.fld (A.shotCtl p) F.shotCtl.mode == 1 && c.trig.isNone &&
      decide (3000 ≤ max (s.reg (A.shotGapMin p)).toNat (pauseOf (s.gapReqs p cal)).1)

/-- A skim slot may run on plot `p` now (R444). -/
def State.slotDue (s : State) (p : Nat) : Bool :=
  s.live && s.shutAt.isNone && s.plotDefined p && s.on A.calCtl F.calCtl.en &&
    decide (s.fld A.calCtl F.calCtl.minMs ≤ s.calAge p) &&
    (s.stopped p || ((s.current p).isNone && (s.sched p).lastStart.isSome && s.slotFits p))

/-- Tile `t` runs its next task; a flux output that it calibrates holds its level (R444). -/
def State.slotTaskRun (s : State) (t : Nat) (r : CalResult) : State :=
  let u := KMap.get 0 s.cal.next t
  (s.calTask t u r).modCal fun c => { c with
    next := KMap.set 0 c.next t ((u + 1) % 32)
    fluxHeld := if 11 ≤ u ∧ u ≤ 24 then KMap.set 0 c.fluxHeld (14 * t + (u - 11)) (s.fluxCode t (u - 11)) else c.fluxHeld }

/-- Every tile of plot `p` runs its next task (R444). -/
def State.slotTasks (s : State) (p : Nat) (results : List CalResult) : State :=
  (s.tilesOf p).foldl (fun s t => s.slotTaskRun t (results.getD t ⟨false, 0, 0⟩)) s

/-- SKIM_SLOT (R444): ticks E + 1 to E + 3,000 of the gap. -/
def execSkimSlot (p : Plot) (results : List CalResult) (s : State) : Res :=
  let s1 := s.modCal fun c => { c with slotAt := KMap.set 0 c.slotAt p s.tm.now,
                                       slotEnd := KMap.set 0 c.slotEnd p (s.DT + 2999) }
  onlyIf (s.slotDue p) s (s1.slotTasks p results)

/-- The plot task that tile `t` runs in a skim slot under way (R443, R444). -/
def State.slotTask (s : State) (t : Nat) : Option Nat :=
  match s.plotOf t with
  | some p =>
    if KMap.get 0 s.cal.slotEnd p != 0 && decide (s.tm.now < KMap.get 0 s.cal.slotAt p + 3000) then
      some ((KMap.get 0 s.cal.next t + 31) % 32)
    else none
  | none => none

/-- A calibration pause of plot `p` is requested and not taken yet. -/
def State.calAsked (s : State) (p : Nat) : Bool :=
  if s.on (A.klCoord p) F.klCoord.en then (s.sched p).coord.any fun e => e.2.flags &&& Flag.calInserted != 0 else s.cal.req.contains p

/-- CAL_TIMER_EXPIRY (R445): a coordinated plot tags its request for a later gap (R283). -/
def execCalTimerExpiry (p : Plot) (s : State) : Res :=
  let s1 := if s.on (A.klCoord p) F.klCoord.en then s.pauseRequest p ⟨3000, Flag.calInserted⟩
    else s.modCal fun c => { c with req := p.val :: c.req }
  onlyIf (s.live && s.on A.calCtl F.calCtl.en && !s.calAsked p && !s.stopped p &&
      decide (s.fld A.calCtl F.calCtl.maxS * 1000 ≤ s.calAge p)) s (s1.fire 1465)

/-- The number of a device task. -/
def devTaskNum : DevTask → Nat
  | .tiu i => i
  | .lane k i => 34 + 4 * k + i

/-- DEVICE_CAL_TASK (R446): each task every CAL_CTL.MIN_MS. -/
def execDeviceCalTask (task : DevTask) (r : CalResult) (s : State) : Res :=
  let n := devTaskNum task
  onlyIf (s.live && s.shutAt.isNone && decide (KMap.get 0 s.cal.devAt n + s.fld A.calCtl F.calCtl.minMs * msTicks ≤ s.tm.now)) s
    ((s.calDevice n r).modCal fun c => { c with devAt := KMap.set 0 c.devAt n s.tm.now })

/-- The trims as a copy with sequence number `n` holds them: sealed under the MRAM key (R329, R448). -/
def State.calCopy (s : State) (n : Nat) : MramCopy :=
  mkCopy n (gcmSeal s.mramKey (Config.calNonce n) (leBytes 8 n) (pairBytes (s.cal.trims.map fun e => (e.1, e.2.toNat))))

/-- The trims that a copy gives; none where its tag fails. -/
def State.calOpen (s : State) (c : MramCopy) : Option (KMap Word) :=
  (gcmOpen s.mramKey (Config.calNonce c.seq) (leBytes 8 c.seq) c.body).map fun b =>
    (pairsOf b).map fun e => (e.1, BitVec.ofNat 32 e.2)

/-- The accepted trims go to the older copy of the store (R448); none after a hard trip (R442). -/
def State.calSave (s : State) : State :=
  if s.aon.tripped then s
  else
  let n := max (copySeq s.cal.copyA) (copySeq s.cal.copyB) + 1
  let inA := copyInA s.cal.copyA s.cal.copyB
  (s.modCal fun c => { c with copyA := if inA then some (s.calCopy n) else c.copyA,
                              copyB := if inA then c.copyB else some (s.calCopy n), savedAt := s.tm.now }).mramWrite
    (if inA then 256 else 512)

/-- CAL_STORE_SAVE (R448): every 60 s. -/
def execCalStoreSave (s : State) : Res :=
  onlyIf (s.live && s.shutAt.isNone && decide (s.cal.savedAt + 60 * secTicks ≤ s.tm.now)) s s.calSave

/-- At start-up the newer valid copy is loaded, or the factory baseline where neither is valid (R448). -/
def State.calRestore (s : State) : State :=
  let ok := fun c => (s.calOpen c).isSome
  match (newerCopy ok s.cal.copyA s.cal.copyB).bind s.calOpen with
  | some m => s.modCal fun c => { c with trims := m }
  | none => ((s.raise A.calSts F.calSts.storeErr 1).fire 1466).log 0x0A 255
      (leBytes 1 (copyCause ok s.cal.copyA) ++ leBytes 1 (copyCause ok s.cal.copyB))

/-- The results of one tile's 32 tasks. -/
def State.bootTile (s : State) (t : Nat) : Nat → List CalResult → State
  | _, [] => s
  | u, r :: rs => (s.calTask t u r).bootTile t (u + 1) rs

/-- The results of the device tasks. -/
def State.bootDevices (s : State) : Nat → List CalResult → State
  | _, [] => s
  | n, r :: rs => (s.calDevice n r).bootDevices (n + 1) rs

/-- The tiles that an image header enables. -/
def maskTiles (m : Nat) : List Nat := (List.range 32).filter m.testBit

/-- BOOT_CALIBRATION (R449): before BOOT_STAGE becomes 011b. The enabled tiles are those that the image enables in quadrants whose bridge and
bias link have trained (R20). -/
def execBootCalibration (tiles : List (List CalResult)) (tiu lanes : List CalResult) (s : State) : Res :=
  let mask := match s.cfg.img with | some g => leAt g.header 32 4 | none => 0
  let ts := (maskTiles mask).filter fun t => s.cfg.trained.testBit (t / 8)
  let s1 := ts.foldl (fun s t => s.bootTile t 0 ((tiles.getD t []).take 32)) s
  let s2 := (s1.bootDevices 0 (tiu.take 34)).bootDevices 34 (lanes.take 32)
  onlyIf (s.live && s.fld A.glbSts F.glbSts.bootStage == 2 && !s.on A.calSts F.calSts.bootDone) s
    (s2.setFld A.calSts F.calSts.bootDone 1)

/-- A write of CAL_CTL. -/
def State.writeCalCtl (s : State) (src : Req) (w : Word) : WRes :=
  let v := mergeWord spec_calCtl.fields (s.locked src) (s.reg A.calCtl) w
  let ms := getF v F.calCtl.minMs
  let mx := getF v F.calCtl.maxS
  s.write src spec_calCtl A.calCtl w (if ms = 0 ∨ 1000 < ms ∨ mx = 0 ∨ 60 < mx then some .accessErr else none) id

/-! ## Once a second -/

/-- Converters powered in tile `t` and the counters of their on-time (R450). -/
def State.onTimes (s : State) (t : Nat) : State :=
  if !s.tileOn t then s
  else
    let s1 := (List.range 5).foldl (fun s o => if (s.conv t o).st = 1 then s else s.cbAdd (64 + 5 * t + o) 1) s
    let s2 := (List.range 14).foldl (fun s f => if (s.conv t (5 + f)).st = 1 then s else s.cbAdd (256 + 14 * t + f) 1)
      (s1.cbAdd (224 + t) 1)
    (List.range 16).foldl (fun s b => s.cbAdd (704 + 16 * t + b) 1) s2

/-- What happens once a second: the calendar, the powered seconds, the ages (R437, R450, R455). While SYS_RST_n holds the counters, the
powered seconds wait for their restoring. -/
def State.secondTick (s : State) : State :=
  if s.tm.now < s.power.secondAt + secTicks then s
  else
    let s1 := (s.setPair A.rtcSecLo A.rtcSecHi (s.rtc + 1)).modPower fun x => { x with secondAt := s.tm.now }
    if s.aon.por || s.aon.off || s.shutAt.isSome then s1
    else if !s.live then { s1 with book := { s1.book with secs := s1.book.secs + 1 } }
    else
      let s2 := (List.range 32).foldl State.onTimes (s1.cbAdd 0 1)
      let s3 := (s2.bump A.cbLastSave).setFld A.thAnchor F.thAnchor.ageS (min 0xFFFF (s.fld A.thAnchor F.thAnchor.ageS + 1))
      if max s.power.anchorOk s.power.upAt + 60 * secTicks ≤ s.tm.now then s3.setFld A.thSts F.thSts.anchorStale 1
      else s3

end Sys2Proof.Machine
end

