-- ==== Sys2Proof/Machine/Security.lean ====
section
/-! DEFINITION. Welolyan (R324–R353): the mailbox commands, fuses, plot keys, anti-rollback, and the SPDM responder. -/

namespace Sys2Proof.Machine

/-- Applies `f` to Welolyan's state. -/
def State.modWl (s : State) (f : WlX → WlX) : State := { s with wl := f s.wl }

/-- Sets a field of WL_STS. -/
def State.wlFlag (s : State) (f : Fld) (v : Nat) : State := (s.setFld A.wlSts f v).note A.wlSts f v

/-- The state after the next reset (R324). -/
def State.lcNext (s : State) : Nat := s.fld A.wlSts F.wlSts.lcNext

/-- A fuse reads back set after one of three attempts (R328). -/
def fuseTakes (bit : Nat) : Bool := (List.range 3).any fun k => Config.fuseTakes bit k

/-- One fuse is blown (R327, R353): it is counted, and logged with the command, its number and what remains. -/
def State.fuse (s : State) (op rem bit : Nat) : State :=
  (((s.fire 1375).cbAdd 6 1).log 0x05 255 (leBytes 1 op ++ leBytes 2 bit ++ leBytes 1 rem)).modWl fun x =>
    { x with blown := if x.blown.contains bit then x.blown else x.blown ++ [bit] }

/-- Fuses are programmed (R327, R328): those that read back are blown. -/
def State.blow (s : State) (op rem : Nat) (bits : List Nat) : State := (bits.filter fuseTakes).foldl (fun s b => s.fuse op rem b) s

/-- The intent record of a command is written to the MRAM (R328); none after a hard trip (R442). -/
def State.openIntent (s : State) (op : Nat) (bits : List Nat) : State :=
  if s.aon.tripped then s else (s.modWl fun x => { x with intent := some (op, bits) }).mramWrite 8

/-- The intent record is closed, once the fuses have been read back (R328). -/
def State.closeIntent (s : State) : State :=
  if s.wl.intent.isNone || s.aon.tripped then s else (s.modWl fun x => { x with intent := none }).mramWrite 8

/-- The change that fuses made is logged (R454). -/
def State.fuseLog (s : State) (code op rem bit : Nat) : State :=
  s.log code 255 (leBytes 1 op ++ leBytes 2 bit ++ leBytes 1 rem)

/-- A fuse does not read back (R328). -/
def State.fuseFail (s : State) : State := (s.wlFlag F.wlSts.fuseFail 1).fire 1375

/-! ## Plot keys (R332, R333) -/

/-- The sealed key of plot `p` in the MRAM (R333, R453); after a hard trip it stays (R442). -/
def State.storeKey (s : State) (p : Nat) (x : Option SealX) : State :=
  if s.aon.tripped then s else (s.modWl fun w => { w with sealed_ := KMap.set none w.sealed_ p x }).mramWrite p

/-- A plot root key of generation `g` comes into force, sealed in MRAM (R333, R343–R347, R350); none does while a debug unlock is active
(R340). -/
def State.installKey (s : State) (p g : Nat) (prk : List Byte) : State :=
  let s0 := (s.keyChange p).storeKey p (some (s.sealKey p g prk))
  if s.on A.wlSts F.wlSts.debug then s0
  else
    let s1 := ((s0.setFld (A.wlPlotSts p) F.wlPlotSts.keyed 1).setFld (A.wlPlotSts p) F.wlPlotSts.keyGen g).modWl fun x =>
      { x with prk := KMap.set [] x.prk p prk }
    let s2 := ((s1.setPair (A.wlCseqInLo p) (A.wlCseqInHi p) 0).setReg (A.wlBatchNum p) 0).modRing p fun x =>
      { x with rspSeq := 0 }
    s2.eachTile p fun s t => (List.range 16).foldl (fun s d => s.setReg (A.ddGen t d) 0) s

/-- The key of plot `p` is erased, with those that were in force before it: the plot is UNKEYED at once. A batch of whole shots closes
under it, and another batch is dropped (log entry 229). -/
def State.eraseKey (s : State) (p : Nat) : State :=
  let s1 := s.keyLast p
  let s2 := (s1.storeKey p none).modWl fun x => { x with prk := KMap.set [] x.prk p [] }
  (s2.setFld (A.wlPlotSts p) F.wlPlotSts.keyed 0).setFld (A.wlPlotSts p) F.wlPlotSts.keyGen 0

/-- The calibration sets that lie sealed in the MRAM are erased (R324, R339): both copies of the store. -/
def State.eraseCalSets (s : State) : State :=
  if s.aon.tripped then s else (({ s with cal := { s.cal with copyA := none, copyB := none } } : State).mramWrite 256).mramWrite 512

/-! ## The mailbox (R339) -/

/-- The first `n` bytes of the mailbox buffer. -/
def State.wlBytes (s : State) (n : Nat) : List Byte :=
  ((List.range ((n + 3) / 4)).flatMap fun i => wordBytes (s.reg (A.wlBuf i))).take n

/-- Opcodes of the mailbox. -/
def wlOpcodes : List Nat := [0x10, 0x11, 0x12, 0x20, 0x30]

/-- The payload length of a command. -/
def wlPayload (op : Nat) : Nat :=
  if op = 0x10 then (if Config.ownTicketReq then 193 else 97) else if op = 0x11 then 193 else if op = 0x30 then 1 else 0

/-- A command is permitted in a lifecycle state: 1 PROVISIONED, 2 OWNED. -/
def wlState (op lc : Nat) : Bool :=
  if op = 0x10 then lc == 1 else if op = 0x11 ∨ op = 0x30 then lc == 2 else lc == 1 || lc == 2

/-- The nonce as its 12 registers hold it. -/
def State.wlNonceBytes (s : State) : List Byte := (List.range 12).flatMap fun i => wordBytes (s.reg (A.wlNonce i))

/-- The bytes of a blob: those its signature covers, the signature, and the key of the signer that follows it, uncompressed
(DESIGN CHOICE, log entry 225: R331 has every command carry the full key, and the blob's layout names no place for it). -/
def State.wlSigned (s : State) (op : Nat) : List Byte := s.wlBytes (64 + wlPayload op)
/-- The signature. -/
def State.wlSig (s : State) (op : Nat) : List Byte := (s.wlBytes (160 + wlPayload op)).drop (64 + wlPayload op)
/-- The signer's key. -/
def State.wlKey (s : State) (op : Nat) : List Byte := (s.wlBytes (257 + wlPayload op)).drop (160 + wlPayload op)

/-- The key that a payload brings, and the 96 bytes behind it. -/
def State.wlNewKey (s : State) : List Byte := (s.wlBytes 161).drop 64
/-- The ticket of TAKE_OWNERSHIP, or the new key's own signature of ROTATE_OWNER. -/
def State.wlTicket (s : State) : List Byte := (s.wlBytes 257).drop 161

/-- What a ticket covers: SHA-384 of the serial number and the hash of the new key; the new key of a rotation signs the same (DESIGN CHOICE, log
entry 225). -/
def State.wlTicketHash (s : State) : List Byte := sha384 (serialBytes ++ sha384 s.wlNewKey)

/-- The lifecycle state in which a command is judged (R324): a lifecycle command in the state after the next reset, another in the state
in force. -/
def State.wlLc (s : State) (op : Nat) : Nat := if op = 0x10 ∨ op = 0x12 then s.lcNext else s.fld A.wlSts F.wlSts.lc

/-- The owner key slot whose key signs: the one in force; that of a pending TAKE_OWNERSHIP where the command is judged in its state. -/
def State.wlSlot (s : State) (op : Nat) : Option Nat :=
  if s.wlLc op ≠ s.fld A.wlSts F.wlSts.lc then topSlot s.wl.slots else s.wl.inForce

/-- The signatures of a blob verify under the keys that its command needs (R331, R339). -/
def State.wlSigOk (s : State) (op : Nat) : Bool :=
  let ok := fun k => Config.ecdsaVerify k (sha384 (s.wlSigned op)) (s.wlSig op)
  if op = 0x10 then
    ok s.wlNewKey && (!Config.ownTicketReq || Config.ecdsaVerify (Config.usdielKey 3) s.wlTicketHash s.wlTicket)
  else if (op = 0x12 ∨ op = 0x20) ∧ s.wlLc op = 1 then ok (Config.usdielKey 2)
  else s.keyFits (s.wlSlot op) (s.wlKey op) && ok (s.wlKey op) &&
    (op != 0x11 || Config.ecdsaVerify s.wlNewKey s.wlTicketHash s.wlTicket)

/-- A command needs a count of which none remains (R327): a rotation, an unlock, a free owner key slot. -/
def State.wlNoCount (s : State) (op : Nat) : Bool :=
  (op == 0x11 && s.fld A.wlFuseRem F.wlFuseRem.ownerRotRem == 0) || (op == 0x20 && s.fld A.wlFuseRem F.wlFuseRem.debugRem == 0) ||
    ((op == 0x10 || op == 0x11) && decide (9 ≤ s.wl.slots.length))

/-- The result with which the checks of a command end; 0: it is accepted. -/
def State.wlCheck (s : State) (op : Nat) : Nat :=
  let h := s.wlBytes 65
  if !wlOpcodes.contains op then 7
  else if !wlState op (s.wlLc op) then 1
  else if leAt h 0 8 ≠ Config.serial.toNat ∨ leAt h 8 1 ≠ op ∨ leAt h 9 3 ≠ 0 ∨ leAt h 12 4 ≠ wlPayload op ∨
      (op = 0x30 ∧ 8 ≤ leAt h 64 1) then 5
  else if (h.drop 16).take 48 ≠ s.wlNonceBytes then 3
  else if !s.wlSigOk op then 2
  else if s.wlNoCount op then 4
  else 0

/-- The fuses of the lifecycle pair that leads to state `lc`. -/
def pairFuses (lc : Nat) : List Nat := [fuseLc + 2 * (lc - 1), fuseLc + 2 * (lc - 1) + 1]

/-- The fuse of the next debug unlock. -/
def State.debugFuse (s : State) : Nat := fuseDebug + (4 - s.fld A.wlFuseRem F.wlFuseRem.debugRem)

/-- The fuses that a command blows (R339). -/
def State.wlFuses (s : State) (op : Nat) : List Nat :=
  if op = 0x10 then hashFuses s.wl.slots.length (sha384 s.wlNewKey) ++ pairFuses 2
  else if op = 0x11 then hashFuses s.wl.slots.length (sha384 s.wlNewKey)
  else if op = 0x12 then pairFuses 3
  else if op = 0x20 then [s.debugFuse]
  else []

/-- The lifecycle pair that leads to state `lc` is programmed: `lc` after the next reset (R324). One of the pair decides the state on its own
(R328). The second component: both read back. -/
def State.toLifecycle (s : State) (op lc : Nat) : State × Bool :=
  let bits := pairFuses lc
  let s1 := s.blow op (3 - lc) bits
  let s2 := if bits.any fuseTakes then
      ((s1.wlFlag F.wlSts.lcNext lc).wlFlag F.wlSts.lcPending 1).fuseLog 0x07 op (3 - lc) (fuseLc + 2 * (lc - 1))
    else s1
  (s2, bits.all fuseTakes)

/-- The hash of an owner key is programmed into the next slot (R331). A slot of which a fuse fails is used up, and comes not into force. -/
def State.toSlot (s : State) (op rem : Nat) (bits : List Nat) : State × Bool :=
  let ok := bits.all fuseTakes
  ((s.blow op rem bits).modWl fun x => { x with slots := x.slots ++ [ok] }, ok)

/-- The fuses that an intent record names are programmed and read back, for the command that it names (R328, R339); whether all of them
read back. -/
def State.fuseRun (s : State) (op : Nat) (bits : List Nat) : State × Bool :=
  if op = 0x10 then
    let r := s.toSlot op (s.fld A.wlFuseRem F.wlFuseRem.ownerRotRem) (bits.filter fun b => decide (fuseOwner 0 ≤ b))
    if r.2 then r.1.toLifecycle op 2 else r
  else if op = 0x11 then
    let rem := s.fld A.wlFuseRem F.wlFuseRem.ownerRotRem - 1
    let r := (s.setFld A.wlFuseRem F.wlFuseRem.ownerRotRem rem).toSlot op rem bits
    (if r.2 then (r.1.cbAdd 7 1).fuseLog 0x06 op rem (fuseOwner s.wl.slots.length) else r.1, r.2)
  else if op = 0x12 then s.toLifecycle op 3
  else
    let rem := s.fld A.wlFuseRem F.wlFuseRem.debugRem - 1
    let s1 := (s.setFld A.wlFuseRem F.wlFuseRem.debugRem rem).blow op rem bits
    let ok := bits.all fuseTakes
    (if ok then ((s1.modWl fun x => { x with debugNext := true }).cbAdd 8 1).fuseLog 0x08 op rem s.debugFuse else s1, ok)

/-- An open intent record: its fuses are programmed, FUSE_FAIL where one fails (R328). -/
def State.fuseDone (s : State) : State × Bool :=
  match s.wl.intent with
  | some (op, bits) =>
    let r := s.fuseRun op bits
    (if r.2 then r.1 else r.1.fuseFail, r.2)
  | none => (s, true)

/-- What an accepted command does at once (R339): keys and calibration sets are erased; the fuses are programmed behind their intent
record. -/
def State.wlEffect (s : State) (op : Nat) : State :=
  if op = 0x12 then (((List.range 8).foldl State.eraseKey s).eraseCalSets).openIntent op (s.wlFuses op)
  else if op = 0x30 then s.eraseKey (leAt (s.wlBytes 65) 64 1)
  else s.openIntent op (s.wlFuses op)

/-- GO with an opcode (R339): one command at a time. -/
def State.wlGo (s : State) (op : Nat) : State :=
  if s.on A.wlSts F.wlSts.busy then s.wlFlag F.wlSts.cmdErr 1
  else
    let c := s.wlCheck op
    ((if c = 0 then s.wlEffect op else s).modWl fun x => { x with result := some c }).wlFlag F.wlSts.busy 1

/-- A write of WL_CMD. -/
def State.writeWlCmd (s : State) (src : Req) (w : Word) : WRes :=
  s.write src spec_wlCmd A.wlCmd w none fun s1 => if getF w F.wlCmd.go = 1 then s1.wlGo (getF w F.wlCmd.opcode) else s1

/-- A mailbox command of the host. -/
def State.mailbox (s : State) (op : Nat) (w : Word) : Res :=
  done (State.hostWrite (s.writeWlCmd .host (putF (putF w F.wlCmd.go 1) F.wlCmd.opcode op)) A.wlCmd)

/-- TAKE_OWNERSHIP (R339). -/
def execTakeOwnership (w : Word) (s : State) : Res := s.mailbox 0x10 w

/-- ROTATE_OWNER (R339). -/
def execRotateOwner (w : Word) (s : State) : Res := s.mailbox 0x11 w

/-- RETIRE (R339). -/
def execRetire (w : Word) (s : State) : Res := s.mailbox 0x12 w

/-- DEBUG_UNLOCK (R340). -/
def execDebugUnlock (w : Word) (s : State) : Res := s.mailbox 0x20 w

/-- ZEROISE_PLOT (R339). -/
def execZeroisePlot (w : Word) (s : State) : Res := s.mailbox 0x30 w

/-- A fresh nonce (R339). -/
def State.newNonce (s : State) : State :=
  let n := s.wl.nonces + 1
  (List.range 12).foldl (fun s i => s.setReg (A.wlNonce i) (Config.nonce n i)) (s.modWl fun x => { x with nonces := n })

/-- The report of a mailbox command (R339). -/
def State.wlReport (s : State) (r : Nat) : State :=
  let s1 := (s.setFld A.wlCmdSts F.wlCmdSts.result r).wlFlag F.wlSts.busy 0
  ((s1.modWl fun x => { x with result := none }).newNonce).fire 1372

/-- MAILBOX_COMMAND_DONE (R339): the fuses of the intent record have been programmed and read back, and the record is closed (R328). After
a hard trip, which lets no record be written, no command comes to its end (R442). -/
def execMailboxCommandDone (s : State) : Res :=
  match s.wl.result with
  | some r =>
    let f := s.fuseDone
    onlyIf (!s.aon.tripped) s (f.1.closeIntent.wlReport (if f.2 then r else 6))
  | none => done s

/-- A write of WL_BUF: discarded with CMD_ERR while a command runs. -/
def State.writeWlBuf (s : State) (src : Req) (i : Nat) (w : Word) : WRes :=
  if s.on A.wlSts F.wlSts.busy then (s.wlFlag F.wlSts.cmdErr 1, none)
  else s.write src spec_wlBuf (A.wlBuf i) w none id

/-- A write of WL_BATCH_CFG. -/
def State.writeBatchCfg (s : State) (src : Req) (p : Nat) (w : Word) : WRes :=
  let zero := getF w F.wlBatchCfg.batchUs == 0 || getF w F.wlBatchCfg.batchSlots == 0
  let deny := if src == .host && s.enforce then some Refuse.plotDeny else if zero then some .accessErr else none
  s.write src spec_wlBatchCfg (A.wlBatchCfg p) w deny id

/-! ## Anti-rollback (R338) -/

/-- COMMIT: its fuses are programmed and read back in the row, between the writing and the closing of its intent record (log entry 226); after a
hard trip, which lets no record be written, none is (R442). -/
def State.arbCommit (s : State) (src : Req) : State :=
  let img := s.fld A.wlArb F.wlArb.image
  let cnt := s.fld A.wlArb F.wlArb.count
  let trial := s.on A.henSts F.henSts.trial && !s.on A.henSts F.henSts.confirmed
  let far := s.enforce && src != .capsule 0
  if img ≤ cnt ∨ s.fld A.glbSts F.glbSts.imgSrc = 2 ∨ trial ∨ far then s.wlFlag F.wlSts.cmdErr 1
  else if s.aon.tripped then s
  else
    let bits := (List.range (img - cnt)).map fun i => fuseArb + cnt + i
    let new := cnt + (bits.takeWhile fuseTakes).length
    let s1 := (((s.mramWrite 8).blow 0 (128 - img) bits)).mramWrite 8
    let s2 := (((s1.setFld A.wlArb F.wlArb.count new).setFld A.wlFuseRem F.wlFuseRem.arbRem (128 - new)).cbAdd 9 (new - cnt)).fuseLog
      0x09 0 (128 - new) (fuseArb + cnt)
    if bits.all fuseTakes then s2 else s2.fuseFail

/-- A write of WL_ARB. -/
def State.writeWlArb (s : State) (src : Req) (w : Word) : WRes :=
  s.write src spec_wlArb A.wlArb w none fun s1 => if getF w F.wlArb.commit = 1 then s1.arbCommit src else s1

/-- ARB_COMMIT (R338). -/
def execArbCommit (s : State) : Res := done (State.hostWrite (s.writeWlArb .host 0x80000000) A.wlArb)

/-! ## SPDM and IDE (R351, R352) -/

/-- An SPDM response: its code, its fields and its data. -/
def State.spdmSend (s : State) (code : Nat) (fields : List Nat) (data : List Byte) : State :=
  s.send (.spdm code fields data)

/-- An SPDM response that the alias key signs (R351). -/
def State.spdmSigned (s : State) (code : Nat) (fields : List Nat) (data : List Byte) : State :=
  let d := data ++ Config.spdmData code fields data
  s.spdmSend code fields (d ++ s.aliasSign d)

/-- The ERROR response. -/
def State.spdmErr (s : State) (e : Nat) : State := s.send (.spdm 0x7F [e] [])

/-- A response to a request that needs the algorithms negotiated; else UnexpectedRequest. -/
def State.spdmWhen (s : State) (stage : Nat) (t : State) : Res :=
  done (if stage ≤ s.spdm.stage then t else s.spdmErr 4)

/-- In RETIRED only attestation is served (R342). -/
def State.retired (s : State) : Bool := s.fld A.wlSts F.wlSts.lc == 3

/-- SPDM_GET_VERSION (R351): version 1.2; it begins the negotiation anew. -/
def execSpdmGetVersion (s : State) : Res :=
  let s1 := s.spdmSend 0x04 [0x12] []
  done { s1 with spdm := { s1.spdm with stage := 1, sess0 := none, sess1 := none } }

/-- SPDM_GET_CAPABILITIES (R351): CERT, CHAL, MEAS with signature, ENCRYPT, MAC, KEY_EX, HBEAT, KEY_UPD. -/
def execSpdmGetCapabilities (s : State) : Res :=
  let s1 := s.spdmSend 0x61 [1, 1, 2, 1, 1, 1, 1, 1] []
  s.spdmWhen 1 { s1 with spdm := { s1.spdm with stage := max 2 s1.spdm.stage } }

/-- SPDM_NEGOTIATE_ALGORITHMS (R351): ECDSA P-384, SHA-384, secp384r1, AES-256-GCM. -/
def execSpdmNegotiateAlgorithms (s : State) : Res :=
  let s1 := s.spdmSend 0x63 [384, 384, 384, 256] []
  s.spdmWhen 2 { s1 with spdm := { s1.spdm with stage := 3 } }

/-- The chain of slot 0, as bytes (R330). -/
def State.chainBytes (s : State) : List Byte := s.certChain.flatMap CertX.bytes

/-- SPDM_GET_DIGESTS (R351): slot 0, and slot 1 where it holds a chain. -/
def execSpdmGetDigests (s : State) : Res :=
  s.spdmWhen 3 (s.spdmSend 0x01 [0, b2n (s.spdm.slot1 != [])]
    (sha384 s.chainBytes ++ if s.spdm.slot1 = [] then [] else sha384 s.spdm.slot1))

/-- SPDM_GET_CERTIFICATE (R330, R351). -/
def execSpdmGetCertificate (slot : Fin 2) (s : State) : Res :=
  s.spdmWhen 3 (if slot = 1 ∧ s.spdm.slot1 = [] then s.spdmErr 1
    else s.spdmSend 0x02 [slot] (if slot = 1 then s.spdm.slot1 else s.chainBytes))

/-- SPDM_CHALLENGE (R351). -/
def execSpdmChallenge (slot : Fin 2) (nonce : List Byte) (s : State) : Res :=
  s.spdmWhen 3 (if slot = 1 ∧ s.spdm.slot1 = [] then s.spdmErr 1 else s.spdmSigned 0x03 [slot] nonce)

/-- The chain over the partial images applied since boot: each image's hash extends it (R351). -/
def State.partialChain (s : State) : List Byte := s.cfg.partials.foldl (fun h b => sha384 (h ++ sha384 b)) (List.replicate 48 0)

/-- The contents of a measurement (R351). -/
def State.measurement (s : State) (index : Nat) : List Nat × List Byte :=
  if index = 1 then ([], sha384 Config.welolyanRom)
  else if index = 2 then ([], s.henHash)
  else if index = 3 then ((List.range 32).map fun t => s.fld (A.ucPatchId t) F.ucPatchId.patchLevel, wordBytes Config.ucId)
  else if index = 4 then ([], sha384 (if s.cfg.image = [] then Config.primer else s.cfg.image))
  else if index = 5 then ([], s.partialChain)
  else if index = 6 then
    ([s.fld A.wlSts F.wlSts.lc, s.fld A.wlSts F.wlSts.lcPending, b2n s.enforce, s.fld A.wlSts F.wlSts.debug,
      s.fld A.wlFuseRem F.wlFuseRem.ownerSlot, s.fld A.wlArb F.wlArb.count], [])
  else ((List.range 8).flatMap fun p => [s.keyGen p, ((s.tilesOf p).map fun t => 2 ^ t).sum], [])

/-- SPDM_GET_MEASUREMENTS (R351): index 0 asks for the number of measurements. -/
def execSpdmGetMeasurements (index : Fin 8) (nonce : List Byte) (s : State) : Res :=
  let m := s.measurement index
  s.spdmWhen 3 (if index = 0 then s.spdmSigned 0x60 [0, 7] nonce else s.spdmSigned 0x60 (index.val :: m.1) (nonce ++ m.2))

/-- Session `i`. -/
def State.sess (s : State) (i : Fin 2) : Option SessX := if i = 0 then s.spdm.sess0 else s.spdm.sess1

/-- Writes session `i`. -/
def State.setSess (s : State) (i : Fin 2) (x : Option SessX) : State :=
  { s with spdm := if i = 0 then { s.spdm with sess0 := x } else { s.spdm with sess1 := x } }

/-- SPDM_KEY_EXCHANGE (R351): a free session begins its handshake; at most two at once. -/
def execSpdmKeyExchange (exchange : List Byte) (s : State) : Res :=
  s.spdmWhen 3 (
    if s.retired then s.spdmErr 7
    else if s.spdm.sess0.isNone then (s.setSess 0 (some { up := false })).spdmSigned 0x64 [0] exchange
    else if s.spdm.sess1.isNone then (s.setSess 1 (some { up := false })).spdmSigned 0x64 [1] exchange
    else s.spdmErr 0x0A)

/-- SPDM_FINISH (R351): the session is established, or ends. -/
def execSpdmFinish (sess : Fin 2) (ok : Bool) (s : State) : Res :=
  match s.sess sess with
  | some x =>
    if x.up then done (s.spdmErr 4)
    else if ok then done ((s.setSess sess (some { x with up := true })).spdmSend 0x65 [sess] [])
    else done ((s.setSess sess none).spdmErr 6)
  | none => done (s.spdmErr 2)

/-- A request inside an established session; else InvalidSession. -/
def State.inSession (s : State) (i : Fin 2) (f : SessX → State) : Res :=
  match s.sess i with
  | some x => done (if x.up then f x else s.spdmErr 4)
  | none => done (s.spdmErr 2)

/-- SPDM_KEY_UPDATE (R351). -/
def execSpdmKeyUpdate (sess : Fin 2) (s : State) : Res :=
  s.inSession sess fun x => (s.setSess sess (some { x with keys := x.keys + 1 })).spdmSend 0x69 [sess] []

/-- SPDM_HEARTBEAT (R351). -/
def execSpdmHeartbeat (sess : Fin 2) (s : State) : Res := s.inSession sess fun _ => s.spdmSend 0x68 [sess] []

/-- SPDM_END_SESSION (R351). -/
def execSpdmEndSession (sess : Fin 2) (s : State) : Res :=
  s.inSession sess fun _ => (s.setSess sess none).spdmSend 0x6C [sess] []

/-- SPDM_SET_CERTIFICATE (R351): slot 1, in OWNED only. -/
def execSpdmSetCertificate (slot : Fin 2) (chain : List Byte) (s : State) : Res :=
  let s1 := s.spdmSend 0x6E [slot] []
  s.spdmWhen 3 (if slot = 1 ∧ s.fld A.wlSts F.wlSts.lc = 2 ∧ chain.length ≤ 4096 then
      { s1 with spdm := { s1.spdm with slot1 := chain } }
    else s.spdmErr 7)

/-- IDE_KM_PROGRAM (R352): keys are programmed inside a session. -/
def execIdeKmProgram (sess : Fin 2) (stream : Fin 5) (key : List Byte) (s : State) : Res :=
  s.inSession sess fun _ =>
    if s.retired then s.spdmErr 7
    else
      let s1 := s.spdmSend 0xFE [stream] []
      { s1 with spdm := { s1.spdm with ide := KMap.set [] s1.spdm.ide stream key } }

end Sys2Proof.Machine
end

