-- ==== Sys2Proof/Machine/Views.lean ====
section
/-! DEFINITION. What registers read as: the fields that show hidden state, computed from it; the read of a register with
its effects (R8–R10, R13): 64-bit snapshots and sets, and fields cleared by reading. -/

namespace Sys2Proof.Machine

/-! ## Views -/

/-- A mute or a forced hold acts on output `o` of tile `t`, numbered as the converters (R146, R162). -/
def State.muted (s : State) (t o : Nat) : Bool :=
  s.on A.glbCtl F.glbCtl.muteAll || (KMap.get [] s.parity t).any (fun x => x.1 == o && decide (x.2 < s.tm.now)) || s.shutAt.isSome || s.refLost ||
    (o < 5 && (s.conv t o).st == 2 && (match s.relTile t with | some _ => true | none => false))

/-- A channel's status as read: PLAYING, JUMP_PEND and CUR_SEG (R136). -/
def State.chanView (s : State) (t n : Nat) : Word :=
  let c := s.chan t n
  let w := s.reg (chanSts t n)
  let w1 := putF (putF (putF w F.xcSts.playing (b2n c.playing.isSome)) F.xcSts.jumpPend (b2n c.jump.isSome)) F.xcSts.curSeg
    c.cur
  if n < 16 then w1 else putF w1 F.fxSts.held (b2n (s.muted t (n - 11)))

/-- TQ_STS as read (R71, R74): HIGH_WATER is at least the present LEVEL. -/
def State.tqView (s : State) (t q : Nat) : Word :=
  let x := s.tq (sk t q)
  let w := putF (s.reg (A.tqSts t q)) F.tqSts.highWater (max (s.fld (A.tqSts t q) F.tqSts.highWater) x.held.length)
  putF (putF w F.tqSts.level x.held.length) F.tqSts.halted (b2n x.haltAt.isSome)

/-- BQ_STS as read (R173, R176): HALTED until the announcement of the next shot. -/
def State.bqView (s : State) (t b : Nat) : Word :=
  let x := s.bias (quadOf t) (biasCh t b)
  putF (putF (s.reg (A.bqSts t b)) F.bqSts.halted (b2n x.halt.isSome)) F.bqSts.pending x.pending

/-- TILE_STS as read (R309). -/
def State.tileStsView (s : State) (t : Nat) : Word :=
  let held := match s.cfg.hold with | some h => h.tiles.contains t | none => false
  let p := s.plotOf t
  let w := putF (putF (s.reg (A.tileSts t)) F.tileSts.held (b2n held)) F.tileSts.enabled (b2n (s.tileOn t))
  putF (putF w F.tileSts.assigned (b2n p.isSome)) F.tileSts.plot (p.getD 0)

/-- TILE_PLACE_STS as read: PENDING, and QUAL, the spares free (R317). -/
def State.placeStsView (s : State) (t : Nat) : Word :=
  putF (putF (s.reg (A.tilePlaceSts t)) F.tilePlaceSts.pending (b2n (s.cfg.waiting.any fun w => w.1 == t)))
    F.tilePlaceSts.qual (s.freeSpares t).length

/-- STATE of a flash write: a verify, an erase and the programming (R322); the ends of the first two are free values. -/
def State.flashState (s : State) : Nat :=
  match s.cfg.flash with
  | some (_, a) =>
    if s.tm.now < a + Config.flashVerify a then 1
    else if s.tm.now < a + Config.flashVerify a + Config.flashErase a then 2
    else 3
  | none => s.fld A.cfgFlashSts F.cfgFlashSts.state

/-- What register `r` with indices `ix` at offset `a` reads as. -/
def State.view (s : State) (r : Reg) (ix : List Nat) (a : Nat) : Word :=
  match r, ix with
  | .dtLo, _ => BitVec.ofNat 32 s.DT
  | .dtHi, _ => BitVec.ofNat 32 (s.DT / 2 ^ 32)
  | .glbErrSts, _ =>
    putF (s.reg a) F.glbErrSts.bridgeErr (b2n (s.on A.glbBridgeSts F.glbBridgeSts.cbrErr ||
      s.on A.glbBridgeSts F.glbBridgeSts.blkDown))
  | .seqSts, [t, q] => putF (s.reg a) F.seqSts.fault (s.fld (A.seqFault t q) F.seqFault.valid)
  | .tqSts, [t, q] => s.tqView t q
  | .xoCfg, [t, o] =>
    putF (putF (s.reg a) F.xoCfg.frameA (s.fld (A.tileXb t (2 * o)) F.tileXb.src)) F.xoCfg.frameB
      (s.fld (A.tileXb t (2 * o + 1)) F.tileXb.src)
  | .xoSts, [t, o] => putF (s.reg a) F.xoSts.muted (b2n (s.muted t o))
  | .poSts, [t] => putF (s.reg a) F.poSts.muted (b2n (s.muted t 4))
  | .xcSts, [t, n] => s.chanView t n
  | .rcSts, [t, n] => s.chanView t (8 + n)
  | .fxSts, [t, n] => s.chanView t (16 + n)
  | .fxCfg, [t, f] => putF (s.reg a) F.fxCfg.src (s.fld (A.tileXb t (16 + f)) F.tileXb.src)
  | .bqSts, [t, b] => s.bqView t b
  | .ddCtl, [t, d] => putF (s.reg a) F.ddCtl.auth (b2n (s.ddAuth t d))
  | .bdCfg, [q, j] | .bdClrCode, [q, j] | .bdSlew, [q, j] | .bdOut, [q, j] | .bdTarget, [q, j] | .bdSts, [q, j]
  | .bdComp, [q, j] | .bdMon, [q, j] | .bdGenCtl, [q, j] | .bdGenLow, [q, j] | .bdGenHigh, [q, j] | .bdGenStep, [q, j]
  | .bdGenSeed, [q, j] => s.bdView q j (a - A.bdCfg q j)
  | .lnSts, [t, p] => s.lnStsView t p
  | .lnResQ, [t, p] => (s.lane t p).resQ
  | .lnResMeta, [t, p] => (s.lane t p).resMeta
  | .dbLoop, [t, p, d] => s.dbLoopView t p d
  | .puSts, [u] => s.puStsView u
  | .klGsts, _ => s.klGstsView
  | .klLnEq, [k, i] => s.klLnEqView k i
  | .klTtSts, _ => s.ttStsView
  | .tileSts, [t] => s.tileStsView t
  | .tilePlaceSts, [t] => s.placeStsView t
  | .cfgFlashSts, _ => putF (s.reg a) F.cfgFlashSts.state s.flashState
  | .wlSts, _ => putF (s.reg a) F.wlSts.enforce (b2n s.enforce)
  | .wlBatchCfg, _ => if s.enforce then putF (s.reg a) F.wlBatchCfg.en 1 else s.reg a
  | .cmdSts, [p] => s.cmdStsView p
  | .ptpNs, _ => BitVec.ofNat 32 s.ptpNs
  | .ptpNsFrac, _ => BitVec.ofNat 32 s.ptpFrac
  | .snSts, [q, k] => s.snStsView q k
  | .calAge, [p] => BitVec.ofNat 32 (s.calAge p)
  | _, _ => s.reg a

/-- What the register at an offset reads as; an offset that holds none reads all-ones. -/
def State.viewAt (s : State) (a : Nat) : Word :=
  match findReg a with
  | some (r, ix) => s.view r.reg ix a
  | none => 0xFFFFFFFF

/-- A word as read: write-only fields read 0 (R10). -/
def hideWO (fs : List FieldSpec) (w : Word) : Word :=
  fs.foldl (fun v f => if f.acc == .wo || f.acc == .w1s then putF v f.fld 0 else v) w

/-! ## Snapshots (R13, R224, R389, R397, R420) -/

/-- The registers that a read of a register latches. -/
def latches (r : Reg) (ix : List Nat) : List Nat :=
  match r, ix with
  | .glbSerialLo, _ => [A.glbSerialHi]
  | .dtLo, _ => [A.dtHi]
  | .nextStartLo, [p] => [A.nextStartHi p]
  | .seqInstrLo, [t, q] => [A.seqInstrHi t q]
  | .seqCycLo, [t, q] => [A.seqCycHi t q]
  | .lnResI, [t, p] => [A.lnResQ t p, A.lnResMeta t p]
  | .klTakeoverLo, _ => [A.klTakeoverHi]
  | .imgBuildLo, _ => [A.imgBuildHi]
  | .wlCseqInLo, [p] => [A.wlCseqInHi p]
  | .ptpNs, _ => [A.ptpNsFrac]
  | .xtsDtLo, _ => [A.xtsDtHi, A.xtsNs, A.xtsNsFrac]
  | .ptmDtLo, _ => [A.ptmDtHi]
  | .ptmMtLo, _ => [A.ptmMtHi]
  | .tmMeanLo, [m] =>
    [A.tmMeanHi m, A.tmDev m, A.tmMinLo m, A.tmMinHi m, A.tmMaxLo m, A.tmMaxHi m, A.tmFreqLo m, A.tmFreqHi m, A.tmCount m]
  | .tmMinLo, [m] => [A.tmMinHi m]
  | .tmMaxLo, [m] => [A.tmMaxHi m]
  | .tmFreqLo, [m] => [A.tmFreqHi m]
  | .hkUrgRes, [q] => [A.hkUrgFlg q]
  | .hkRes, [q, e] => [A.hkResFlg q e]
  | .pmEnergyLo, _ => [A.pmEnergyHi]
  | .rtcSecLo, _ => [A.rtcSecHi]
  | .cbCntLo, [i] => [A.cbCntHi i]
  | _, _ => []

/-- For a register that such a read latches: the register read first, and the block's overrun bit. -/
def latchedBy (r : Reg) (ix : List Nat) : Option (Nat × Option (Nat × Fld)) :=
  match r, ix with
  | .glbSerialHi, _ => some (A.glbSerialLo, none)
  | .dtHi, _ => some (A.dtLo, some (A.dtSts, F.dtSts.overrun))
  | .nextStartHi, [p] => some (A.nextStartLo p, some (A.runSts p, F.runSts.overrun))
  | .seqInstrHi, [t, q] => some (A.seqInstrLo t q, some (A.seqSts t q, F.seqSts.overrun))
  | .seqCycHi, [t, q] => some (A.seqCycLo t q, some (A.seqSts t q, F.seqSts.overrun))
  | .lnResQ, [t, p] | .lnResMeta, [t, p] => some (A.lnResI t p, none)
  | .klTakeoverHi, _ => some (A.klTakeoverLo, some (A.klPairSts, F.klPairSts.overrun))
  | .imgBuildHi, _ => some (A.imgBuildLo, none)
  | .wlCseqInHi, [p] => some (A.wlCseqInLo p, some (A.wlPlotSts p, F.wlPlotSts.overrun))
  | .ptpNsFrac, _ => some (A.ptpNs, some (A.ptpSts, F.ptpSts.overrun))
  | .xtsDtHi, _ | .xtsNs, _ | .xtsNsFrac, _ => some (A.xtsDtLo, some (A.xtsCtl, F.xtsCtl.overrun))
  | .ptmDtHi, _ => some (A.ptmDtLo, some (A.xtsCtl, F.xtsCtl.overrun))
  | .ptmMtHi, _ => some (A.ptmMtLo, some (A.xtsCtl, F.xtsCtl.overrun))
  | .tmMeanHi, [m] | .tmDev, [m] | .tmMinLo, [m] | .tmMinHi, [m] | .tmMaxLo, [m] | .tmMaxHi, [m] | .tmFreqLo, [m]
  | .tmFreqHi, [m] | .tmCount, [m] => some (A.tmMeanLo m, some (A.tmSts m, F.tmSts.overrun))
  | .hkUrgFlg, [q] => some (A.hkUrgRes q, some (A.hkSts q, F.hkSts.overrun))
  | .hkResFlg, [q, e] => some (A.hkRes q e, some (A.hkSts q, F.hkSts.overrun))
  | .pmEnergyHi, _ => some (A.pmEnergyLo, some (A.pmSts, F.pmSts.overrun))
  | .rtcSecHi, _ => some (A.rtcSecLo, some (A.rtcSts, F.rtcSts.overrun))
  | .cbCntHi, [i] => some (A.cbCntLo i, some (A.cbSts, F.cbSts.overrun))
  | _, _ => none

/-- A quantity that takes a new value in every tick (R48). -/
def everyTick (r : Reg) : Bool := r == .dtHi || r == .ptpNsFrac

/-- The low half of a pair that a wider latch covers too (R13, R397). -/
def ownPair (r : Reg) : Bool := r == .tmMinLo || r == .tmMaxLo || r == .tmFreqLo

/-- A read of a register that latches others; one that was latched itself has left its high half latched with it. -/
def State.latchFrom (s : State) (r : Reg) (ix : List Nat) (a : Nat) : State :=
  match latches r ix with
  | [] => s
  | hs =>
    let s1 := hs.foldl (fun st h => st.setHold h { st.hold h with active := true, hi := s.viewAt h, own := ownPair r }) s
    let s2 := s1.setHold a { s1.hold a with low := true, fresh := false, tick := s.tm.now }
    match r, ix with
    | .lnResI, [t, p] => s2.modLane t p fun x => { x with latched := true }
    | _, _ => s2

/-- A read of a register that may be latched: the word, and the state after it. -/
def State.latchedRead (s : State) (r : Reg) (ix : List Nat) (a : Nat) : State × Word :=
  match latchedBy r ix with
  | some (lo, ovr) =>
    if (s.hold a).active then
      let low := s.hold (if (s.hold a).own then a - 4 else lo)
      let late := low.fresh || (everyTick r && low.tick != s.tm.now)
      let s1 := s.setHold a { s.hold a with active := false, hi := 0, own := false }
      let s2 := match ovr with
        | some (st, f) => if late then s1.raise st f 1 else s1
        | none => s1
      let s3 := match r, ix with
        | .lnResQ, [t, p] => s2.modLane t p fun x => { x with latched := false }
        | _, _ => s2
      (s3, (s.hold a).hi)
    else (s, s.view r ix a)
  | none => (s, s.view r ix a)

/-! ## Reads (R8, R10, R41) -/

/-- What a read does to RC fields (R10): they clear; a smallest margin returns to 7FFFh (R73, R274). -/
def State.clearRC (s : State) (r : RegSpec) (a : Nat) : State :=
  match r.reg with
  | .tqMargin => s.setFld a F.tqMargin.minMargin 0x7FFF
  | .klMargin => s.setFld a F.klMargin.minMargin 0x7FFF
  | _ => r.fields.foldl (fun s f => if f.acc == .rc then s.setFld a f.fld 0 else s) s

/-- A read of a register, with its effects. -/
def State.regReadOk (s : State) (r : RegSpec) (ix : List Nat) (a : Nat) : State × Word :=
  match r.reg, ix with
  | .ethRxtsNs, [e] => let s1 := s.readStamp e false; (s1, s1.readData)
  | .ethTxtsNs, [e] => let s1 := s.readStamp e true; (s1, s1.readData)
  | _, _ =>
    let v := s.latchedRead r.reg ix a
    let wider := (s.hold a).active && (latchedBy r.reg ix).isSome
    (((if wider then v.1 else v.1.latchFrom r.reg ix a)).clearRC r a, hideWO r.fields v.2)

/-- The refusal of a read: that of any access, and the shot registers of a plot that is not defined (R65). -/
def State.readRefuse (s : State) (src : Req) (a : Nat) : Option Refuse :=
  if 0x301000 ≤ a ∧ a < 0x301800 ∧ src ≠ .mgmt ∧ !s.plotDefined ((a - 0x301000) / 0x100) then some .accessErr
  else s.accessRefuse src a

/-- A read at an offset of the control or doorbell window (doorbell offsets from 1000_0000h): the state after it, the word
(all-ones where it is refused) and the refusal. -/
def State.regRead (s : State) (src : Req) (a : Nat) : State × Word × Option Refuse :=
  match findReg a with
  | none => (s, 0xFFFFFFFF, some .accessErr)
  | some (r, ix) =>
    match s.readRefuse src a with
    | some e => (s, 0xFFFFFFFF, some e)
    | none => let v := s.regReadOk r ix a; (v.1, v.2, none)

/-- The key of an offset of the control window (64 MiB) or the doorbell window (64 KiB) (R34); an offset outside the
window names no register. -/
def winKey (win : Window) (off : Nat) : Nat :=
  match win with
  | .control => if off < 0x4000000 then off else 0xFFFFFFFF
  | .doorbell => if off < 0x10000 then 0x10000000 + off else 0xFFFFFFFF
  | .badWrite _ => 0xFFFFFFFF

/-- The code of a window (R43). -/
def winCode (win : Window) : Nat := match win with | .doorbell => 2 | _ => 0

/-- A host read of a register: the word it returns, and the refusal recorded. A size other than four bytes and a misaligned offset
are refused (R8). -/
def State.hostRead (s : State) (win : Window) (off size : Nat) : State :=
  let v : State × Word × Option Refuse :=
    if !s.live then (s, 0xFFFFFFFF, some .ignored)
    else if size ≠ 4 ∨ off % 4 ≠ 0 then (s, 0xFFFFFFFF, some .accessErr)
    else s.regRead .host (winKey win off)
  let s1 : State := { v.1 with readData := v.2.1 }
  match v.2.2 with
  | some e => s1.refuseHost e (winCode win) off
  | none => s1

/-- READ_TO_CLEAR (R10). -/
def execReadToClear (win : Window) (off size : Nat) (s : State) : Res :=
  done (s.hostRead win off size)

end Sys2Proof.Machine
end

