-- ==== Sys2Proof/Machine/Registers.lean ====
section
/-! DEFINITION. Writes of registers and of the memory window by offset (R8–R10, R35–R43): the dispatch to each block's
writes, and the rows of the bridges (R20, R21) that stand between the blocks. -/

namespace Sys2Proof.Machine

/-! ## Crossbar, placement and read-out weights (R133, R314, R316) -/

/-- The role that feeds path `n` (R314). -/
def pathRole (n : Nat) : Nat :=
  if n < 8 then 0 else if n < 16 then 1 else if n < 24 then 2 else if n < 30 then 3 else 4

/-- Source `q` may feed path `n` of tile `t`: of the path's role, and feeding no other path; 3Fh leaves it unfed. -/
def State.xbOk (s : State) (t n q : Nat) : Bool :=
  q == 0x3F || (decide (q < 34) && roleCode (s.effIdx t q) == pathRole n &&
    (List.range 32).all fun m => m == n || s.fld (A.tileXb t m) F.tileXb.src != q)

/-- A write of TILE_XB[n]. -/
def State.writeXb (s : State) (src : Req) (t n : Nat) (w : Word) : WRes :=
  let bad := src != .mgmt && !s.xbOk t n (getF w F.tileXb.src)
  s.write src spec_tileXb (A.tileXb t n) w (if bad then some .accessErr else s.busyTile src t) id

/-- A write of TILE_PLACE_CTL: a FAIL_LIM of 0 is discarded. FREEZE cleared in a coordinated plot raises the pause request of
a placement that waits (R283, R317). -/
def State.writePlace (s : State) (src : Req) (t : Nat) (w : Word) : WRes :=
  s.write src spec_tilePlaceCtl (A.tilePlaceCtl t) w
    (if getF w F.tilePlaceCtl.failLim = 0 then some .accessErr else none) fun s1 =>
      let thaw := s.on (A.tilePlaceCtl t) F.tilePlaceCtl.freeze && !s1.on (A.tilePlaceCtl t) F.tilePlaceCtl.freeze
      match s.plotOf t with
      | some p =>
        if thaw && s.on (A.klCoord p) F.klCoord.en && s.cfg.waiting.any (fun w => w.1 == t) then s1.pauseRequest p ⟨13060, 0⟩
        else s1
      | none => s1

/-- A write of GLB_ERR_ADDR: writing 1 to VALID arms the next capture; an access that was refused in the same tick while VALID
was 1 is captured then (R43). -/
def State.writeErrAddr (s : State) (src : Req) (w : Word) : WRes :=
  s.write src spec_glbErrAddr A.glbErrAddr w none fun s1 =>
    match s1.tie.refused with
    | some c => if s1.on A.glbErrAddr F.glbErrAddr.valid then s1 else s1.captureErr c
    | none => s1

/-! ## The dispatch -/

/-- A write to the registers of housekeeping, power and the cellar book; the others go on to the next block. -/
def State.powerWrite (s : State) (src : Req) (r : RegSpec) (ix : List Nat) (a : Nat) (w : Word) : WRes :=
  match r.reg, ix with
  | .hkCfg, _ | .hkCtl, _ | .hkUrgCfg, _ | .hkSeq, _ | .hkLimLo, _ | .hkLimHi, _ | .snCfg, _ | .snChkCtl, _ =>
    s.writeHk src r ix a w
  | .pmCtl, _ => s.writePmCtl src w
  | .thCtl, _ => s.writeThCtl src w
  | .avsDom, [d] => s.writeAvsDom src d w
  | .islLim, [t, i] => s.writeIslLim src t i w
  | .calCtl, _ => s.writeCalCtl src w
  | .rtcCtl, _ => s.writeRtcCtl src w
  | .cbCtl, _ => s.writeCbCtl src w
  | _, _ => s.write src r a w none id

/-- A write to the registers of time, TIU and events; the others go on to the next block. -/
def State.netWrite (s : State) (src : Req) (r : RegSpec) (ix : List Nat) (a : Nat) (w : Word) : WRes :=
  match r.reg, ix with
  | .ptpCtl, _ => s.writePtpCtl src w
  | .ptpRateLo, _ => s.writePtpRate src w
  | .ptpOffset, _ => s.writePtpOffset src w
  | .ptpEpochNs, _ => s.writePtpEpoch src w
  | .ptpJumpThr, _ | .ptpSlew, _ | .ppsOutCtl, _ | .ppsPeriod, _ => s.writePtpReg src r a w
  | .xtsCtl, _ => s.writeXtsCtl src w
  | .ethLqCtl, [e] => s.writeLqCtl src e w
  | .tmCtl, [m] => s.writeTmCtl src m w
  | .tiuInCfg, [i] => s.writeTiuCfg src i w
  | .expCfg, [p] => s.writeExpCfg src p w
  | .evfFire, _ => s.writeEvfFire src w
  | .evfCh, [c] => s.writeEvfCh src c w
  | _, _ => s.powerWrite src r ix a w

/-- A write to the registers of Welolyan and of the host interface; the others go on to the next block. -/
def State.hostWrites (s : State) (src : Req) (r : RegSpec) (ix : List Nat) (a : Nat) (w : Word) : WRes :=
  match r.reg, ix with
  | .wlCmd, _ => s.writeWlCmd src w
  | .wlArb, _ => s.writeWlArb src w
  | .wlBatchCfg, [p] => s.writeBatchCfg src p w
  | .wlBuf, [i] => s.writeWlBuf src i w
  | .cmdProd, [p] => s.writeCmdProd src p w
  | .rspCons, [p] => s.writeRspCons src p w
  | .rrCons, [p] => s.writeRrCons src p w
  | .cmdCfg, [p] => s.writeRingCfg src p 0 w
  | .rspCfg, [p] => s.writeRingCfg src p 1 w
  | .rrCfg, [p] => s.writeRingCfg src p 2 w
  | .cmdCtl, [p] => s.writeCmdCtl src p w
  | .cmdBaseLo, [p] | .cmdBaseHi, [p] | .rspBaseLo, [p] | .rspBaseHi, [p] | .rrBaseLo, [p] | .rrBaseHi, [p] | .rrIrq, [p]
  | .cmdCons, [p] | .cmdSts, [p] | .rspProd, [p] | .rrProd, [p] | .rrShotDropCnt, [p] | .wbLo, [p] | .wbHi, [p]
  | .pgAlert, [p] | .capOkCnt, [p] | .capNackCnt, [p] => s.writePage src r p a w
  | .msixTable, [n] => s.writeMsix src n w
  | _, _ => s.netWrite src r ix a w

/-- A write to the registers of trellis, Kelair and configuration; the others go on to the next block. -/
def State.linkWrite (s : State) (src : Req) (r : RegSpec) (ix : List Nat) (a : Nat) (w : Word) : WRes :=
  match r.reg, ix with
  | .puCfg, [u] => s.writePu src u 0 w
  | .puMaskLo, [u] => s.writePu src u 1 w
  | .puMaskHi, [u] => s.writePu src u 2 w
  | .kb, [t, ks, i] => s.writeKb src t ks i w
  | .rmCfg, [e] => s.writeRm src e w
  | .exp, [n] => s.writeExp src n w
  | .klId, _ => s.writeKlId src w
  | .klRouteA, [i] => s.writeRouteA src i w
  | .klRouteB, [i] => s.writeRouteB src i w
  | .klFwd, [d] => s.writeFwd src d w
  | .klTtCfg, _ => s.writeTtCfg src w
  | .klPairCtl, _ => s.writePair src w
  | .klCtl, [k] => s.writeKlCtl src k w
  | .klFill, [k] => s.writeKlFill src k w
  | .klLnCtl, [k, i] => s.writeKlLn src k i w
  | .tileXb, [t, n] => s.writeXb src t n w
  | .tilePlaceCtl, [t] => s.writePlace src t w
  | _, _ => s.hostWrites src r ix a w

/-- A write to the read-out registers; the others go on to the next block. -/
def State.readoutWrite (s : State) (src : Req) (r : RegSpec) (ix : List Nat) (a : Nat) (w : Word) : WRes :=
  match r.reg, ix with
  | .riCfg, [t] => s.writeRi src t w
  | .rsA, [t, p, k] => s.writeRs src t p k 0 w
  | .rsB, [t, p, k] => s.writeRs src t p k 1 w
  | .rsC, [t, p, k] => s.writeRs src t p k 2 w
  | .rsD, [t, p, k] => s.writeRs src t p k 3 w
  | .roWeight, t :: _ => s.write src r a w (s.busyTile src t) id
  | .dbCtl, t :: p :: d :: _ | .dbW, t :: p :: d :: _ | .dbTh, t :: p :: d :: _ | .dbRef, t :: p :: d :: _
  | .dbLoop, t :: p :: d :: _ | .dbDrift, t :: p :: d :: _ | .dbCentI, t :: p :: d :: _ | .dbCentQ, t :: p :: d :: _ =>
    s.writeDb src r t p d a w
  | .ttCtl, [t, p] => s.writeTtCtl src t p w
  | .ttWin, _ | .ttAmpRef, _ => s.writeLane src r a w
  | _, _ => s.linkWrite src r ix a w

/-- A write to the registers of the bias channels; the others go on to the next block. -/
def State.biasWrite (s : State) (src : Req) (r : RegSpec) (ix : List Nat) (a : Nat) (w : Word) : WRes :=
  match r.reg, ix with
  | .bqHost, [t, b] => s.writeBqHost src t b w
  | .bqdSts, [q] => s.writeBqd src r q a w
  | .bdCfg, [q, j] | .bdClrCode, [q, j] | .bdSlew, [q, j] | .bdOut, [q, j] | .bdTarget, [q, j] | .bdSts, [q, j]
  | .bdComp, [q, j] | .bdMon, [q, j] | .bdGenCtl, [q, j] | .bdGenLow, [q, j] | .bdGenHigh, [q, j] | .bdGenStep, [q, j]
  | .bdGenSeed, [q, j] => s.writeBd src q j (a - A.bdCfg q j) w
  | _, _ => s.readoutWrite src r ix a w

/-- A write to the registers of cellar, playout and flux; the others go on to the next block. -/
def State.playoutWrite (s : State) (src : Req) (r : RegSpec) (ix : List Nat) (a : Nat) (w : Word) : WRes :=
  match r.reg, ix with
  | .mkCfg, [t, m] => s.writeMarkCfg src t m false w
  | .vlCfg, [t, v] => s.writeMarkCfg src t v true w
  | .cp, [t, i] => s.writeCp src t i w
  | .segLo, [t, n] => s.writeSeg src t n false w
  | .segHi, [t, n] => s.writeSeg src t n true w
  | .ddCtl, [t, d] => s.writeDdCtl src t d w
  | .ddAddrLo, [t, d] => s.writeDdDesc src t d 0 w
  | .ddAddrHi, [t, d] => s.writeDdDesc src t d 1 w
  | .ddLen, [t, d] => s.writeDdDesc src t d 2 w
  | .fsFwLo, [t, n, k] => s.writeFrame src t n k 0 w
  | .fsFwHi, [t, n, k] => s.writeFrame src t n k 1 w
  | .fsPhInit, [t, n, k] => s.writeFrame src t n k 2 w
  | .rfsFwLo, [t, n, k] => s.writeFrame src t (8 + n) k 0 w
  | .rfsFwHi, [t, n, k] => s.writeFrame src t (8 + n) k 1 w
  | .rfsPhInit, [t, n, k] => s.writeFrame src t (8 + n) k 2 w
  | .fxCfg, t :: f :: _ | .fxIdle, t :: f :: _ | .fxIirB0, t :: f :: _ | .fxIirB1, t :: f :: _ | .fxIirA1, t :: f :: _
  | .fxFir, t :: f :: _ => s.writeFx src t f (a - A.fxCfg t f) w
  | _, _ => s.biasWrite src r ix a w

/-- A write to the global, timeline and sequencer-control registers; the others go on to the next block. -/
def State.timelineWrite (s : State) (src : Req) (r : RegSpec) (ix : List Nat) (a : Nat) (w : Word) : WRes :=
  match r.reg, ix with
  | .glbCtl, _ => s.writeGlbCtl src w
  | .glbErrAddr, _ => s.writeErrAddr src w
  | .dtLoadCtl, _ => s.writeLoadCtl src w
  | .runCmd, [p] => s.writeRunCmd src p w
  | .shotCtl, [p] | .shotPeriod, [p] | .shotGapMin, [p] | .shotLead, [p] | .trigDelay, [p] | .shotMax, [p]
  | .runStartLo, [p] | .runStartHi, [p] | .runShots, [p] | .runSts, [p] | .shotNum, [p] | .shotsDone, [p]
  | .nextStartLo, [p] | .nextStartHi, [p] | .lastLen, [p] | .flagsAcc, [p] | .flaggedShots, [p] | .slipCount, [p]
  | .pauseTotal, [p] | .pauseLast, [p] => s.writeShotReg src r p a w
  | .seqCtl, [t, q] => s.writeSeqCtl src t q w
  | _, _ => s.playoutWrite src r ix a w

/-- A write to register `r` with indices `ix` at offset `a`, by the block that holds it; the configuration block's command
registers have their own (Loader). -/
def State.blockWrite (s : State) (src : Req) (r : RegSpec) (ix : List Nat) (a : Nat) (w : Word) : WRes :=
  s.timelineWrite src r ix a w

/-! ## Small rows -/

/-- GLB_ERR_ADDR_CLEAR (R43): a host write that sets VALID's bit. -/
def execGlbErrAddrClear (s : State) : Res := done (State.hostWrite (s.writeErrAddr .host 0x80000000) A.glbErrAddr)

/-! ## The memory window (R37–R39, R41) -/

/-- The tile whose memory holds the word at an offset; none in a reserved range or outside the window. -/
def memTile (a : Nat) : Option Nat :=
  if a < 0x4000000 then some (a / 0x200000)
  else if a < 0x8000000 then
    let o := (a - 0x4000000) % 0x200000
    if o < 0x110000 ∨ (0x180000 ≤ o ∧ o < 0x188800) then some ((a - 0x4000000) / 0x200000) else none
  else none

/-- The word offsets of an access of `n` bytes at `a`. -/
def wordOffs (a n : Nat) : List Nat := (List.range (n / 4)).map fun i => a + 4 * i

/-- The refusal of an access to `n` bytes at `a`: alignment, the negotiated maximum payload of a host access, reserved ranges,
disabled tiles (R38), plot enforcement (R41). An access of length 0 is refused, and an access of which one word is refused
is refused whole (DESIGN CHOICE, log entries 164 and 165). -/
def State.memRefuse (s : State) (src : Req) (a n : Nat) : Option Refuse :=
  if src == .host && !s.live then some .ignored
  else if a % 4 ≠ 0 ∨ n % 4 ≠ 0 ∨ n = 0 then some .accessErr
  else if src == .host && decide (s.pcie.payload < n) then some .accessErr
  else if (wordOffs a n).any fun o => match memTile o with | some t => !s.tileOn t | none => true then some .accessErr
  else if src == .host && s.enforce then some .plotDeny
  else none

/-- Some tile of the access has a sequencer that is not IDLE (R39); the access is then refused whole (DESIGN CHOICE, log entry
165). -/
def State.memBusy (s : State) (a n : Nat) : Bool :=
  (wordOffs a n).any fun o => match memTile o with | some t => !s.tileIdle t | none => false

/-- A write to the memory window. -/
def State.memWrite (s : State) (src : Req) (a : Nat) (data : List Byte) : WRes :=
  match s.memRefuse src a data.length with
  | some e => (s, some e)
  | none => if s.memBusy a data.length then (s, some .memBusy) else (s.setBytes a data, none)

/-- A host read of `n` bytes at an offset of the memory window (R38, R39, R41): reads are served whatever the sequencers do; a
refused one returns all-ones. `readData` holds its first word. -/
def State.hostMemRead (s : State) (off n : Nat) : State :=
  match s.memRefuse .host off n with
  | some e => { s with readData := 0xFFFFFFFF, readMem := List.replicate n 0xFF }.refuseHost e 1 off
  | none => { s with readData := s.word off, readMem := s.bytes off n }

/-- A word of the configuration space (R354): identity, Command, class and header type where the Type 0 header has them (PRESUMED: the PCI
Express Base Specification; log entry 230); the place of the capabilities is not given. -/
def State.configRead (s : State) (off : Nat) : Word :=
  let x := s.pcie
  if off = 0 then BitVec.ofNat 32 (0x256 * 2 ^ 16 + Config.vendorId.toNat)
  else if off = 4 then BitVec.ofNat 32 (0x100000 + 2 + 4 * b2n x.busMaster)
  else if off = 8 then BitVec.ofNat 32 (0x12000000 + Config.stepping.toNat)
  else if off = 12 then 0
  else Config.configWord off [b2n x.busMaster, x.readReq, b2n x.relaxed, x.payload, b2n x.msixEn, b2n x.msixMask, x.aer.toNat, b2n x.d3,
    Config.serial.toNat]

/-- A host read of the configuration space: served while PE_PERST_n is high. -/
def State.hostConfigRead (s : State) (off : Nat) : State :=
  { s with readData := if s.pcie.perst then 0xFFFFFFFF else s.configRead (off / 4 * 4) }

/-- SNAPSHOT_READ (R13, R38, R39): a host read that no other row names. -/
def execSnapshotRead (win : ReadWin) (off size : Nat) (s : State) : Res :=
  done (match win with
    | .control => s.hostRead .control off size
    | .doorbell => s.hostRead .doorbell off size
    | .memory => s.hostMemRead off size
    | .config => s.hostConfigRead off)

/-- MEM_WINDOW_WRITE (R39). -/
def execMemWindowWrite (off : Nat) (data : List Byte) (s : State) : Res :=
  let r := s.memWrite .host off data
  done (match r.2 with | some e => r.1.refuseHost e 1 off | none => r.1)

/-! ## The bridges (R20–R22, R44, R46, R186) -/

/-- BRIDGE_PARITY_ERROR (R21, R197): the outputs are muted from the next tick on. -/
def execBridgeParityError (q : Quad) (outs : List (Fin 8 × Fin 19)) (adc : BitVec 8) (s : State) : Res :=
  let s1 := outs.foldl (fun s o =>
    let t := 8 * q.val + o.1.val
    let l := KMap.get [] s.parity t
    let inShot := match s.plotOf t with | some p => (s.current p).isSome | none => false
    if inShot && !l.any (fun x => x.1 == o.2.val) then { s with parity := KMap.set [] s.parity t (l ++ [(o.2.val, s.tm.now)]) }
    else s) s
  let s2 := (List.range 8).foldl (fun s i =>
    let t := 8 * q.val + i
    if adc.toNat.testBit i then
      (List.range 8).foldl (fun s p => s.modLane t p fun x =>
        let f := fun (w : Win) => { w with marks := w.marks ++ [s.DT] }
        { x with fg := x.fg.map f, sh := x.sh.map f }) s
    else s) s1
  let s3 := (List.range 8).foldl (fun s i =>
    if adc.toNat.testBit i || outs.any (fun o => o.1.val == i) then s.flagTile (8 * q.val + i) Flag.taint else s) s2
  done ((s3.raise A.glbBridgeSts F.glbBridgeSts.cbrErr (2 ^ q.val)).fire (1280 + q.val))

/-- BIAS_LINK_LOST (R22, R186). -/
def execBiasLinkLost (q : Quad) (s : State) : Res := onlyIf (s.blkUp q) s (s.biasLinkLost q)

/-- BIAS_LINK_RETRAIN (R186, R421): what was held is delivered, the housekeeping results last. -/
def execBiasLinkRetrain (q : Quad) (s : State) : Res :=
  onlyIf (!s.blkUp q && !s.refLost && s.fld A.glbSts F.glbSts.bootStage != 0) s ((s.biasLinkUp q).hkDeliver q)

end Sys2Proof.Machine
end

