-- ==== Sys2Proof/Machine/Loader.lean ====
section
/-! DEFINITION. The configuration loader (R293–R313): image headers and sections, the checks of an image, the application of
full and partial images, and its commands. -/

namespace Sys2Proof.Machine

/-! ## Header and section table (R293) -/

/-- KIND: 0 FULL, 1 TILE, 2 PLOT, 3 PROGRAM, 4 PATCH, 5 CALSET. -/
def imgKind (h : List Byte) : Nat := leAt h 6 1
/-- TILE_MASK, as tiles. -/
def imgTiles (h : List Byte) : List Nat := maskTiles (leAt h 32 4)
/-- PLOT. -/
def imgPlot (h : List Byte) : Nat := leAt h 36 1
/-- SEQ. -/
def imgSeq (h : List Byte) : Nat := leAt h 37 1

/-- Header and section table: the front of an image, as far as its bytes reach. -/
def imgFront (b : List Byte) : List Byte := b.take (256 + 16 * leAt b 16 2)

/-- An entry of the section table: type, tile, offset, length, CRC. -/
structure Sect where
  type : Nat
  tile : Nat
  off : Nat
  len : Nat
  crc : Nat
  deriving DecidableEq, Repr

/-- Entry `i` of the section table. -/
def sectAt (h : List Byte) (i : Nat) : Sect :=
  let a := 256 + 16 * i
  ⟨leAt h a 1, leAt h (a + 1) 1, leAt h (a + 4) 4, leAt h (a + 8) 4, leAt h (a + 12) 4⟩

/-- The section table. -/
def sectsOf (h : List Byte) : List Sect := (List.range (leAt h 16 2)).map (sectAt h)

/-- The signature block: the 256 bytes before the check word (R293). -/
def imgSig (b : List Byte) : List Byte := (b.drop (b.length - 260)).take 256

/-- Step 1 of R294: the check word is the CRC-32C of the bytes before it. -/
def checkWordOk (b : List Byte) : Bool :=
  let n := leAt b 12 4
  decide (4 ≤ n) && decide (n ≤ b.length) && leAt b (n - 4) 4 == (crc32c (b.take (n - 4))).toNat

/-- Two sections overlap. -/
def Sect.meets (a b : Sect) : Bool := a.off < b.off + b.len && b.off < a.off + a.len

/-- Bytes `i` to `i + n − 1` are 0. -/
def zeroAt (h : List Byte) (i n : Nat) : Bool := leAt h i n == 0

/-- Step 2 of R294: header and layout, with the reserved bytes of R334. `full`: the path takes FULL images (R302), else partial
ones (R306). -/
def headerOk (full : Bool) (b : List Byte) : Bool :=
  let n := leAt b 16 2
  let len := leAt b 12 4
  let k := imgKind b
  let ss := sectsOf b
  leAt b 0 4 == 0x46494C46 && leAt b 4 2 == 2 && k ≤ 5 && (k == 0) == full && leAt b 7 1 < 4 && leAt b 8 2 == 0x256 &&
    leAt b 10 1 ≤ Config.stepping.toNat && zeroAt b 11 1 && len % 4 == 0 && len ≤ 0x10000000 && 1 ≤ n && n ≤ 512 &&
    zeroAt b 18 2 && zeroAt b 38 26 && zeroAt b 66 2 && zeroAt b 177 3 && zeroAt b 228 28 && len == b.length &&
    decide (256 + 16 * n + 260 ≤ len) && zeroAt (imgSig b) 241 15 &&
    (if k = 2 ∨ k = 5 then decide (imgPlot b < 8) else imgPlot b == 0xFF) &&
    (if k = 3 then decide (imgSeq b < 34) else imgSeq b == 0xFF) &&
    ((List.range n).all fun i => zeroAt b (256 + 16 * i + 2) 2) &&
    (ss.all fun x => (decide (x.tile < 32) || x.tile == 0xFF) && x.off % 64 == 0 && decide (256 + 16 * n ≤ x.off) &&
      decide (x.off + x.len + 260 ≤ len)) &&
    ((List.range n).all fun i => (List.range n).all fun j => i == j || !(sectAt b i).meets (sectAt b j))

/-! ## Welolyan's part (R334–R337) -/

/-- FLAGS.ENCRYPTED. -/
def imgEncrypted (b : List Byte) : Bool := (leAt b 7 1).testBit 1

/-- The owner signature (R335, 1): under the key that the signature block carries, which must be the one that the lifecycle state
asks for. The slot in force holds the hash of the uncompressed key. -/
def State.ownerSigOk (s : State) (b : List Byte) : Bool :=
  let blk := imgSig b
  let key := (blk.drop 192).take 49
  let signed := Config.ecdsaVerify key (sha384 (b.take (b.length - 260))) (blk.take 96)
  let lc := s.fld A.glbSts F.glbSts.lifecycle
  if lc = 0 then signed && key == Config.usdielKey 0
  else if lc = 1 then (blk.all fun x => x == 0) || signed
  else if lc = 2 then
    signed && leAt b 64 1 == s.fld A.wlFuseRem F.wlFuseRem.ownerSlot &&
      s.keyFits s.wl.inForce (Config.sec1Expand key)
  else false

/-- The patch signature (R335, 2): over the plaintext PATCH sections, under the Usdiel patch key. -/
def patchSigOk (b : List Byte) (plain : List (List Byte)) : Bool :=
  let ps := ((sectsOf b).zip plain).filter fun x => x.1.type == 0x10
  ps.isEmpty || (leAt b 65 1 == 1 &&
    Config.ecdsaVerify (Config.usdielKey 1) (sha384 (ps.flatMap fun x => x.2)) (((imgSig b).drop 96).take 96))

/-- Anti-rollback (R335, 3). -/
def State.rollbackOk (s : State) (b : List Byte) : Bool :=
  decide (s.fld A.wlArb F.wlArb.count ≤ leAt b 20 4) && decide (leAt b 20 4 ≤ 128)

/-- A key wrapped to the wrap key (R335, R337): under HKDF of the ECDH secret, with a label, and GLB_SERIAL as salt. -/
def State.unwrap (s : State) (label : String) (eph nonce aad wrapped : List Byte) : Option (List Byte) :=
  gcmOpen (hkdf (Config.ecdh s.wrapKey eph) serialBytes (ascii label) 32) nonce aad wrapped

/-- The content key of an encrypted image (R335, 4): EPH_KEY, NONCE, WRAPPED_CEK, with header bytes 0–63 as additional data. -/
def State.contentKey (s : State) (b : List Byte) : Option (List Byte) :=
  s.unwrap "FLR-IMG" ((b.drop 80).take 97) ((b.drop 68).take 12) (b.take 64) ((b.drop 180).take 48)

/-- The nonce of section `i`: NONCE with bytes 8–11 XORed by `i` (R336). -/
def sectNonce (b : List Byte) (i : Nat) : List Byte :=
  (b.drop 68).take 8 ++ ((((b.drop 76).take 4).zip (leBytes 4 i)).map fun x => x.1 ^^^ x.2)

/-- The plaintext of section `i` (R336); none where its tag fails. -/
def State.plainOf (s : State) (b : List Byte) (i : Nat) : Option (List Byte) :=
  let x := sectAt b i
  let c := (b.drop x.off).take x.len
  if imgEncrypted b then
    match s.contentKey b with
    | some k => gcmOpen k (sectNonce b i) ((b.drop (256 + 16 * i)).take 16) c
    | none => none
  else some c

/-- The plaintexts of all sections, in table order; none where one cannot be had. -/
def State.plains (s : State) (b : List Byte) : Nat → Option (List (List Byte))
  | 0 => some []
  | n + 1 =>
    match s.plains b n, s.plainOf b n with
    | some l, some x => some (l ++ [x])
    | _, _ => none

/-- The plaintexts of the image's sections. -/
def State.imgPlain (s : State) (b : List Byte) : Option (List (List Byte)) := s.plains b (leAt b 16 2)

/-- Entry `e` of a KEYS section (R337): plot, generation and root key. -/
def State.keyEntry (s : State) (x : List Byte) (e : Nat) : Option (Nat × Nat × List Byte) :=
  let a := 64 + 192 * e
  let y := (x.drop a).take 192
  if y.length = 192 ∧ leAt y 0 1 < 8 ∧ zeroAt y 2 2 ∧ zeroAt y 113 3 ∧ zeroAt y 164 28 then
    (s.unwrap "FLR-PLOT" ((y.drop 16).take 97) ((y.drop 4).take 12) (y.take 16) ((y.drop 116).take 48)).map fun k =>
      (leAt y 0 1, leAt y 1 1, k)
  else none

/-- The entries of KEYS sections; none where one is malformed or fails to unwrap. -/
def State.keyEntries (s : State) : List (List Byte × Nat) → Option (List (Nat × Nat × List Byte))
  | [] => some []
  | x :: xs =>
    match s.keyEntry x.1 x.2, s.keyEntries xs with
    | some k, some l => some (k :: l)
    | _, _ => none

/-- The plaintexts of the KEYS sections of an image. -/
def keysOf (b : List Byte) (plain : List (List Byte)) : List (List Byte) :=
  (((sectsOf b).zip plain).filter fun x => x.1.type == 0x12).map fun x => x.2

/-- A KEYS section has an entry count of 1 to 8 and its reserved bits 0 (R337). -/
def keysHead (x : List Byte) : Bool :=
  decide (64 ≤ x.length) && decide (leAt x 0 1 < 2) && decide (1 ≤ leAt x 1 1 ∧ leAt x 1 1 ≤ 8) && zeroAt x 2 62

/-- The plot keys that an image brings; none where a KEYS section is malformed or an entry fails to unwrap. -/
def State.imgKeys (s : State) (b : List Byte) (plain : List (List Byte)) : Option (List (Nat × Nat × List Byte)) :=
  let ks := keysOf b plain
  if ks.all keysHead then s.keyEntries (ks.flatMap fun x => (List.range (leAt x 1 1)).map fun e => (x, e)) else none

/-- ENFORCE of a KEYS section. -/
def keysEnforce (b : List Byte) (plain : List (List Byte)) : Bool := (keysOf b plain).any fun x => (leAt x 0 1).testBit 0

/-- Step 3 of R294 (R335): Welolyan accepts the image, with the plaintexts and the keys that it then has. -/
def State.authImage (s : State) (b : List Byte) : Option (List (List Byte) × List (Nat × Nat × List Byte)) :=
  match s.imgPlain b with
  | some plain =>
    match s.imgKeys b plain with
    | some ks => if s.ownerSigOk b && patchSigOk b plain && s.rollbackOk b then some (plain, ks) else none
    | none => none
  | none => none

/-- Step 4 of R294: each section's CRC over its plaintext. -/
def sectCrcOk (b : List Byte) (plain : List (List Byte)) : Bool :=
  ((sectsOf b).zip plain).all fun x => x.1.crc == (crc32c x.2).toNat

/-! ## Sections (R296) -/

/-- The kinds that may carry a section type (R296). -/
def sectAllowed (kind type : Nat) : Bool :=
  match kind with
  | 0 => 1 ≤ type && type ≤ 0x12
  | 1 => [0x01, 0x03, 0x04, 0x05, 0x06, 0x07, 0x08, 0x09, 0x0A, 0x0B, 0x0C, 0x0D, 0x11].contains type
  | 2 => [0x01, 0x0C, 0x0D, 0x0E, 0x12].contains type
  | 3 => [0x06, 0x07, 0x08].contains type
  | 4 => type == 0x10
  | _ => [0x0A, 0x0B, 0x11].contains type

/-- The tile that a register offset belongs to, bias channels by their tile (R168). -/
def offTile (a : Nat) : Option Nat :=
  match tileOfOff a with
  | some t => some t
  | none =>
    if 0x2000000 ≤ a ∧ a < 0x2400000 ∧ (a - 0x2000000) % 0x100000 < 0x2000 then
      some (8 * ((a - 0x2000000) / 0x100000) + (a - 0x2000000) % 0x100000 / 0x400)
    else none

/-- The registers that a section type holds (R296). -/
def sectHolds (type : Nat) (r : Reg) : Bool :=
  match type with
  | 0x01 => r == .glbTileEn || r == .glbTilePlot
  | 0x02 => r == .islLim || r == .avsDom || r == .tpwCtl
  | 0x03 => r == .tileXb
  | 0x04 => [Reg.cp, .segLo, .segHi, .ddAddrLo, .ddAddrHi, .ddLen, .ddCtl].contains r
  | 0x08 => r == .seqCtl || r == .tqCtl
  | 0x09 => [Reg.xoCfg, .poCfg, .mkCfg, .vlCfg, .fxCfg, .fxIdle, .bqCtl, .bdCfg, .bdClrCode, .bdSlew, .bdComp].contains r
  | 0x0A => [Reg.riCfg, .lnCfg, .rsA, .rsB, .rsC, .rsD, .roWeight, .dbCtl, .dbW].contains r
  | 0x0B => [Reg.fsFwLo, .fsFwHi, .fsPhInit, .rfsFwLo, .rfsFwHi, .rfsPhInit, .fxIirB0, .fxIirB1, .fxIirA1, .fxFir, .rsD, .dbTh,
      .dbRef, .dbDrift, .dbCentI, .dbCentQ, .ttBaseLo, .ttBaseHi, .bqHost].contains r
  | 0x0C => [Reg.kb, .puCfg, .puMaskLo, .puMaskHi, .exp, .rmCfg].contains r
  | 0x0D => r == .tileBarLo || r == .tileBarHi
  | 0x0E => [Reg.shotCtl, .shotPeriod, .shotGapMin, .shotLead, .trigDelay, .shotMax, .runStartLo, .runStartHi,
      .runShots].contains r
  | 0x0F => [Reg.klId, .klRouteA, .klRouteB, .klFwd, .klTtCfg, .klTtAsym, .klPairCtl, .klCoord, .klCtl, .klFill,
      .klLnCtl].contains r
  | 0x10 => [Reg.ucPatchId, .ucMatch, .ucPatchRam].contains r
  | 0x11 => [Reg.dbLoop, .ttCtl, .ttWin, .ttPhRef, .ttAmpRef, .ttQlim, .tilePlaceCtl].contains r
  | _ => false

/-- In a PLOT image of plot `plot`, the shot registers and keys are that plot's (R304). -/
def plotFits (kind plot : Nat) (r : Reg) (ix : List Nat) : Bool :=
  kind != 2 || (match r, ix with
    | .shotCtl, [p] | .shotPeriod, [p] | .shotGapMin, [p] | .shotLead, [p] | .trigDelay, [p] | .shotMax, [p]
    | .runStartLo, [p] | .runStartHi, [p] | .runShots, [p] => p == plot
    | _, _ => true)

/-- A unit lies in what its section can name: its type's contents, and its tile where it has one (in a TILE image the
trellis section holds key sets only). TILES names the device's tile registers, whichever tile it stands under. -/
def unitFits (kind plot type tile : Nat) : UnitWrite → Bool
  | .mem a _ =>
    a % 4 == 0 && memTile a == some tile &&
      (match type with
       | 0x05 => a < 0x4000000
       | 0x06 => 0x4000000 ≤ a && (a - 0x4000000) % 0x200000 < 0x110000
       | 0x07 => 0x4000000 ≤ a && 0x180000 ≤ (a - 0x4000000) % 0x200000
       | _ => false)
  | .reg a _ =>
    match findReg a with
    | some (r, ix) =>
      sectHolds type r.reg && plotFits kind plot r.reg ix && (tile == 0xFF || type == 0x01 || offTile a == some tile) &&
        (kind != 1 || type != 0x0C || r.reg == .kb)
    | none => false

/-- The sections of an image as its table gives them, each with its units but those that it cannot name. -/
def fitUnits (b : List Byte) (us : List (List UnitWrite)) : List (Nat × Nat × List UnitWrite) :=
  (List.range (leAt b 16 2)).map fun i =>
    let x := sectAt b i
    (x.type, x.tile, (us.getD i []).filter (unitFits (imgKind b) (imgPlot b) x.type x.tile))

/-- The units of sections in the order of application: by type, then tile (R297). -/
def insertSect (x : Nat × Nat × List UnitWrite) : List (Nat × Nat × List UnitWrite) → List (Nat × Nat × List UnitWrite)
  | [] => [x]
  | y :: ys => if 256 * y.1 + y.2.1 ≤ 256 * x.1 + x.2.1 then y :: insertSect x ys else x :: y :: ys

/-- All units of an image, in that order. -/
def allUnits (ss : List (Nat × Nat × List UnitWrite)) : List UnitWrite :=
  (ss.foldl (fun acc x => insertSect x acc) []).flatMap fun x => x.2.2

/-! ## Placement (R316–R320) -/

/-- Spare `x` takes the place of sequencer `q` of tile `t` (R318, steps 2 to 4): its control words, its role, its path and
its barriers. -/
def State.takeRole (s : State) (t q x : Nat) : State :=
  let orig := s.effIdx t q
  let forF := fun y => if y = 32 then F.tilePlaceSts.spare0For else F.tilePlaceSts.spare1For
  let s1 := (s.setReg (A.seqCtl t x) (s.reg (A.seqCtl t q))).setReg (A.tqCtl t x) (s.reg (A.tqCtl t q))
  let s2 := s1.setFld (A.seqSts t x) F.seqSts.role (s.fld (A.seqSts t q) F.seqSts.role)
  let s3 := (List.range 32).foldl (fun s n =>
    if s.fld (A.tileXb t n) F.tileXb.src = q then s.setFld (A.tileXb t n) F.tileXb.src x else s) s2
  let move := fun (s : State) (b : Nat) =>
    let lo := s.reg (A.tileBarLo t b)
    let hi := s.reg (A.tileBarHi t b)
    let had := if q < 32 then lo.toNat.testBit q else hi.toNat.testBit (q - 32)
    if !had then s
    else
      let s1 := if q < 32 then s.setReg (A.tileBarLo t b) (lo &&& ~~~(BitVec.ofNat 32 (2 ^ q)))
        else s.setReg (A.tileBarHi t b) (hi &&& ~~~(BitVec.ofNat 32 (2 ^ (q - 32))))
      s1.setReg (A.tileBarHi t b) (s1.reg (A.tileBarHi t b) ||| BitVec.ofNat 32 (2 ^ (x - 32)))
  let s4 := (List.range 16).foldl move s3
  let s5 := if q < 32 then s4 else s4.setFld (A.tilePlaceSts t) (forF q) 0x3F
  s5.setFld (A.tilePlaceSts t) (forF x) orig

/-- Copies the program and data memories of sequencer `q` into `x` (R318, step 1). -/
def State.copyProg (s : State) (t q x : Nat) : State :=
  (s.setBytes (progAt t x 0) (s.bytes (progAt t q 0) 0x8000)).setBytes (dataAt t x 0) (s.bytes (dataAt t q 0) 0x400)

/-- A failed sequencer whose program could not be copied gets the next spare, for the PROGRAM image that follows. -/
def State.rescue (s : State) (t q : Nat) : State :=
  if s.cfg.lost.contains (t, q) then
    match s.freeSpares t with
    | x :: _ =>
      let s1 := s.takeRole t q x
      { s1 with cfg := { s1.cfg with lost := s1.cfg.lost.erase (t, q) } }
    | [] => s
  else s

/-- The sequencer that a PROGRAM image for `q` is written into (R305, R319). -/
def State.target (s : State) (t q : Nat) : Nat := (s.standIn t q).getD q

/-- Moves a unit of sequencer `q` of tile `t` to sequencer `x`. -/
def moveUnit (t q x : Nat) : UnitWrite → UnitWrite
  | .mem a v =>
    if progAt t q 0 ≤ a ∧ a < progAt t q 0 + 0x8000 then .mem (a - progAt t q 0 + progAt t x 0) v
    else if dataAt t q 0 ≤ a ∧ a < dataAt t q 0 + 0x400 then .mem (a - dataAt t q 0 + dataAt t x 0) v
    else .mem a v
  | .reg a v =>
    if A.seqCtl t q ≤ a ∧ a < A.seqCtl t q + 0x400 then .reg (a - A.seqCtl t q + A.seqCtl t x) v else .reg a v

/-- The state against which a PROGRAM image is checked and applied: a failed sequencer whose program was lost has its spare. -/
def State.base (s : State) (h : List Byte) : State := if imgKind h = 3 then s.rescue ((imgTiles h).headD 0) (imgSeq h) else s

/-- The units of an image where they will be written. -/
def State.movedUnits (s : State) (h : List Byte) (us : List UnitWrite) : List UnitWrite :=
  let t := (imgTiles h).headD 0
  if imgKind h = 3 then us.map (moveUnit t (imgSeq h) (s.target t (imgSeq h))) else us

/-- The sections with their units where they will be written. -/
def State.movedSects (s : State) (h : List Byte) (ss : List (Nat × Nat × List UnitWrite)) : List (Nat × Nat × List UnitWrite) :=
  ss.map fun x => (x.1, x.2.1, s.movedUnits h x.2.2)

/-! ## Staging and the structural checks (R295) -/

/-- Registers that only the loader writes. -/
def rawReg (r : Reg) : Bool := r == .ucPatchId || r == .ucMatch || r == .ucPatchRam || r == .glbTilePlot

/-- The tiles that configuration may enable: those of quadrants that trained (R20, R44). -/
def State.trainedMask (s : State) (m : Nat) : Nat :=
  ((maskTiles m).map fun t => if s.cfg.trained.testBit (t / 8) then 2 ^ t else 0).sum

/-- Tiles outside TILE_MASK of a FULL image stay disabled (R297). -/
def State.maskTilesOn (s : State) (m : Nat) : State :=
  s.setReg A.glbTileEn (s.reg A.glbTileEn &&& BitVec.ofNat 32 m)

/-- The assignment of tiles that are not enabled reads 0 (GLB_TILE_PLOT). -/
def State.tidyPlots (s : State) : State :=
  (List.range 32).foldl (fun s t =>
    if s.tileOn t then s else s.setFld (A.glbTilePlot (t / 8)) ⟨4 * (t % 8) + 3, 4 * (t % 8)⟩ 0) s

/-- A unit in staging: the word it leaves in its register or memory. -/
def State.stageUnit (s : State) : UnitWrite → State
  | .mem a v => s.setWord a v
  | .reg a v =>
    match findReg a with
    | some (r, ix) =>
      if r.reg == .glbTileEn then s.setReg a (BitVec.ofNat 32 (s.trainedMask v.toNat))
      else if rawReg r.reg then s.setReg a v
      else
        let s1 := s.setReg a (mergeWord r.fields false (s.reg a) v)
        match r.reg, ix with
        | .cp, [t, i] => s1.dropSegs t i
        | _, _ => s1
    | none => s

/-- The capture registers that a check of the register at `a` may fill. -/
def chkRegs (a : Nat) : List Nat :=
  match tileOfOff a with
  | some t => [A.celChk t, A.roChk t, A.tpChk t]
  | none => [A.trlChk, A.klChk]

/-- Every capture register. -/
def allChk : List Nat := A.trlChk :: A.klChk :: (List.range 32).flatMap fun t => [A.celChk t, A.roChk t, A.tpChk t]

/-- A sequencer that a barrier may name (R315): enabled, no spare without a role, and not OFF because it has failed. -/
def State.barOk (s : State) (t q : Nat) : Bool :=
  s.on (A.seqCtl t q) F.seqCtl.enable && s.effIdx t q < 34 && !(s.failed t q && s.seqState t q == 7)

/-- Some barrier of tile `t` names sequencer `q` (R315). -/
def State.inBar (s : State) (t q : Nat) : Bool :=
  (List.range 16).any fun b =>
    if q < 32 then (s.reg (A.tileBarLo t b)).toNat.testBit q else (s.reg (A.tileBarHi t b)).toNat.testBit (q - 32)

/-- The check of one unit against the staged result `s`; `live` is the state before the image. What a register's own write
refuses or captures fails it; the state holds the capture. -/
def State.unitCheck (s live : State) : UnitWrite → Bool × State
  | .mem _ _ => (true, s)
  | .reg a v =>
    match findReg a with
    | none => (true, s)
    | some (r, ix) =>
      let write := (s.blockWrite .mgmt r ix a (s.reg a))
      let byWrite := (write.2.isNone && (chkRegs a).all fun c => !(write.1.reg c).toNat.testBit 31, write.1)
      match r.reg, ix with
      | .glbTileEn, _ | .glbTilePlot, _ | .ucPatchId, _ | .ucMatch, _ | .ucPatchRam, _ => (true, s)
      | .tileXb, [t, n] => (s.xbOk t n (s.fld a F.tileXb.src), s)
      | .tileBarLo, [t, _] => ((List.range 32).all fun q => !(s.reg a).toNat.testBit q || s.barOk t q, s)
      | .tileBarHi, [t, _] => ((List.range 2).all fun q => !(s.reg a).toNat.testBit q || s.barOk t (32 + q), s)
      | .seqCtl, [t, q] => (byWrite.1 && (s.on a F.seqCtl.enable || !s.inBar t q), byWrite.2)
      | .fxIirA1, _ => (!unstableA1 v.toNat, s)
      | .rfsFwLo, [t, p, k] | .rfsFwHi, [t, p, k] =>
        (!(live.on (A.ttCtl t p) F.ttCtl.en && live.fld (A.ttCtl t p) F.ttCtl.slot == k), s)
      | _, _ => byWrite

/-- An enabled parity unit or key bit that connects plots (R32), with the capture that a write of it would leave. -/
def State.crossFail (s : State) : Option State :=
  match (List.range 64).find? fun u => s.on (A.puCfg u) F.puCfg.en && s.parCause u != 0 with
  | some u => some (s.parCheck u)
  | none =>
    let bits := (List.range 32).flatMap fun t => (List.range 8).flatMap fun ks => (List.range 4).map fun i => (t, ks, i)
    match bits.find? fun x => s.tileOn x.1 && s.on (A.kb x.1 x.2.1 x.2.2) F.kb.en && s.keyCause x.1 x.2.1 x.2.2 != 0 with
    | some x => some (s.keyCheck x.1 x.2.1 x.2.2)
    | none => none

/-- The first unit that fails, with the capture. -/
def State.firstFail (s live : State) : List UnitWrite → Option State
  | [] => none
  | u :: us => let r := s.unitCheck live u; if r.1 then s.firstFail live us else some r.2

/-- The sections enable or assign tiles. -/
def hasTiles (ss : List (Nat × Nat × List UnitWrite)) : Bool := ss.any fun x => x.1 == 1 && x.2.2 != []

/-- The sections may connect tiles: they assign them, or change the trellis (R32). -/
def hasLinks (ss : List (Nat × Nat × List UnitWrite)) : Bool := ss.any fun x => (x.1 == 1 || x.1 == 0x0C) && x.2.2 != []

/-- The sections define plots: they name the plot of some tile (R30). -/
def hasPlots (ss : List (Nat × Nat × List UnitWrite)) : Bool :=
  ss.any fun x => x.2.2.any fun u => match u with
    | .reg a _ => (match findReg a with | some (r, _) => r.reg == .glbTilePlot | none => false)
    | .mem _ _ => false

/-- The tiles of TILE_MASK of a FULL image are enabled; an image that defines no plots places them in plot 0 (R30). -/
def State.tilesOfFull (s : State) (h : List Byte) (ss : List (Nat × Nat × List UnitWrite)) : State :=
  let s1 := s.setReg A.glbTileEn (BitVec.ofNat 32 (s.trainedMask (leAt h 32 4)))
  if hasPlots ss then s1 else (List.range 4).foldl (fun s i => s.setReg (A.glbTilePlot i) 0x88888888) s1

/-- The complete result of an image in staging, with the capture registers free. -/
def State.staged (s : State) (h : List Byte) (ss : List (Nat × Nat × List UnitWrite)) : State :=
  let s0 := allChk.foldl (fun s a => s.setReg a 0) s
  let s1 := if imgKind h = 0 then s0.tilesOfFull h ss else s0
  let s2 := (allUnits ss).foldl State.stageUnit s1
  (if imgKind h = 0 then s2.maskTilesOn (leAt h 32 4) else s2).tidyPlots

/-- Some enabled tile belongs to no plot (R30). -/
def State.loneTile (s : State) : Bool := (List.range 32).any fun t => s.tileOn t && (s.plotOf t).isNone

/-- A key entry repeats the generation in force (R333). -/
def State.keyRepeats (s : State) (ks : List (Nat × Nat × List Byte)) : Bool := ks.any fun k => s.keyed k.1 && s.keyGen k.1 == k.2.1

/-- The structural check of an image: the state with the capture where it fails (R295). A PROGRAM image is checked in the sequencer
that it will be written into (R305). -/
def State.structure (s : State) (h : List Byte) (ss : List (Nat × Nat × List UnitWrite)) : Option State :=
  let s0 := s.base h
  let ms := s0.movedSects h ss
  let g := s0.staged h ms
  match g.firstFail s0 (allUnits ms) with
  | some c => some c
  | none =>
    if hasTiles ms && g.loneTile then some g
    else if hasLinks ms then g.crossFail else none

/-- Copies the captures of a refused image into the registers that are free. -/
def State.capture (s c : State) : State :=
  allChk.foldl (fun s a => if (c.reg a).toNat.testBit 31 && !(s.reg a).toNat.testBit 31 then (s.setReg a (c.reg a)).raise a ⟨31, 31⟩ 1 else s) s

/-! ## Scope and mode (R304, R305, R308) -/

/-- The tiles whose enable or plot differs between two states. -/
def tilesMoved (s g : State) : List Nat :=
  (List.range 32).filter fun t => s.tileOn t != g.tileOn t || s.plotOf t != g.plotOf t

/-- The tile that a unit writes. -/
def unitTile : UnitWrite → Option Nat
  | .mem a _ => memTile a
  | .reg a _ => offTile a

/-- A unit lies in sequencer `q` of tile `t`: its program memory, its data memory or its control registers. -/
def unitOfSeq (t q : Nat) : UnitWrite → Bool
  | .mem a _ => (progAt t q 0 ≤ a && a < progAt t q 0 + 0x8000) || (dataAt t q 0 ≤ a && a < dataAt t q 0 + 0x400)
  | .reg a _ => A.seqCtl t q ≤ a && a < A.seqCtl t q + 0x400

/-- Step 6 of R294: the scope of a partial image (R304, R305). A tile that the image's TILES section enables counts as enabled; no
section and no unit lies in a tile outside TILE_MASK, and none of a PROGRAM image in another sequencer. -/
def State.scopeOk (s : State) (h : List Byte) (ss : List (Nat × Nat × List UnitWrite)) : Bool :=
  let k := imgKind h
  let ts := imgTiles h
  let g := s.staged h ss
  let moved := tilesMoved s g
  if k = 0 then true
  else
    (ts.all fun t => s.tileOn t || g.tileOn t) &&
      (ss.all fun x => x.2.1 == 0xFF || ts.contains x.2.1) &&
      (ss.all fun x => x.2.2.all fun u => match unitTile u with | some t => ts.contains t | none => true) &&
      (match k with
       | 1 => ts.length == 1 && moved.all fun t => ts.contains t
       | 2 => (moved.all fun t => ((s.plotOf t).isNone || s.plotOf t == some (imgPlot h)) &&
             ((g.plotOf t).isNone || g.plotOf t == some (imgPlot h))) &&
           ts.all fun t => s.plotOf t == some (imgPlot h) || g.plotOf t == some (imgPlot h)
       | 3 => ts.length == 1 && s.effIdx (ts.headD 0) (imgSeq h) < 34 &&
           ss.all fun x => x.2.2.all (unitOfSeq (ts.headD 0) (imgSeq h))
       | 5 => ts.all fun t => s.plotOf t == some (imgPlot h)
       | _ => true)

/-- The plots concerned: those whose scheduler the image waits for. -/
def State.imgPlots (s : State) (h : List Byte) (ss : List (Nat × Nat × List UnitWrite)) : List Nat :=
  let g := s.staged h ss
  match imgKind h with
  | 2 => [imgPlot h]
  | 1 => ((imgTiles h).flatMap fun t => (s.plotOf t).toList ++ (g.plotOf t).toList).dedup
  | 4 => ((imgTiles h).take 1).flatMap fun t => (s.plotOf t).toList
  | _ => ((imgTiles h).flatMap fun t => (s.plotOf t).toList).dedup

/-- The units of the next hold: those of the next tile of a PATCH image, all of any other. -/
def ImgX.nextUnits (g : ImgX) : List UnitWrite :=
  if imgKind g.header = 4 then (allUnits g.units).filter fun u => unitTile u == g.tiles.head? else allUnits g.units

/-- P of R308. -/
def ImgX.pause (g : ImgX) : Nat := 2500 + (g.nextUnits.length * 40 + 31) / 32

/-- An image is applied in STOPPED mode (R304, R308). -/
def State.imgStopped (s : State) (g : ImgX) : Bool :=
  let k := imgKind g.header
  k == 2 || (k == 1 && tilesMoved s (s.staged g.header g.units) != []) || decide (2500000 < g.pause)

/-! ## Applying units (R312) -/

/-- The output of a bias register, by the register's indices, has been configured (R185). -/
def State.biasCfgd (s : State) : List Nat → Bool
  | q :: j :: _ => (s.bias q j).cfgd
  | _ => true

/-- A unit is applied. `boot`: as part of a FULL image. The bias registers of an output that is not configured yet are written before it
is loaded with its clear state (R185). -/
def State.applyUnit (boot : Bool) (s : State) (u : UnitWrite) : State :=
  match u with
  | .mem a v => s.setWord a v
  | .reg a v =>
    match findReg a with
    | none => s
    | some (r, ix) =>
      match r.reg, ix with
      | .glbTileEn, _ | .glbTilePlot, _ | .ucPatchId, _ | .ucMatch, _ | .ucPatchRam, _ | .cp, _ | .segLo, _ | .segHi, _
      | .tileXb, _ | .tileBarLo, _ | .tileBarHi, _ | .kb, _ | .puCfg, _ | .puMaskLo, _ | .puMaskHi, _ | .exp, _ | .rmCfg, _
      | .klRouteA, _ | .klFwd, _ => s.stageUnit u
      | .rsA, [t, p, k] | .rsB, [t, p, k] | .rsC, [t, p, k] | .rsD, [t, p, k] => (s.stageUnit u).dropJobsOf t p k
      | .dbTh, t :: p :: d :: _ | .dbCentI, t :: p :: d :: _ | .dbCentQ, t :: p :: d :: _ =>
        (s.stageUnit u).setBank t p d { s.bank t p d with n0 := 0, n1 := 0, n2 := 0 }
      | .bdCfg, _ | .bdClrCode, _ | .bdSlew, _ | .bdComp, _ =>
        if boot || !s.biasCfgd ix then s.stageUnit u else (s.blockWrite .mgmt r ix a v).1
      | _, _ => (s.blockWrite .mgmt r ix a v).1

/-- The descriptors whose settings units write, as 16 · tile + descriptor. -/
def unitDescs (us : List UnitWrite) : List Nat :=
  (us.flatMap fun u => match u with
    | .reg a _ =>
      (match findReg a with
       | some (r, ix) => (match r.reg, ix with
         | .ddAddrLo, [t, d] | .ddAddrHi, [t, d] | .ddLen, [t, d] | .ddCtl, [t, d] => [16 * t + d]
         | _, _ => [])
       | none => [])
    | .mem _ _ => []).dedup

/-- Units are applied, and descriptors whose settings they wrote prime again. -/
def State.applyUnits (s : State) (boot : Bool) (us : List UnitWrite) : State :=
  (unitDescs us).foldl (fun s i =>
    if s.on (A.ddCtl (i / 16) (i % 16)) F.ddCtl.enable then s.prime (i / 16) (i % 16) else s) ((us.foldl (State.applyUnit boot) s).tidyPlots)

/-! ## Holds (R309, R311) -/

/-- The tiles that a PLOT image holds: those of its plot, and those that it assigns to it (R304). -/
def State.plotTiles (s : State) (g : ImgX) : List Nat := (s.tilesOf (imgPlot g.header) ++ imgTiles g.header).dedup

/-- The sequencers that an image holds, as keys (R304). -/
def State.heldSeqs (s : State) (g : ImgX) : List Nat :=
  match imgKind g.header with
  | 3 => (imgTiles g.header).map fun t => sk t (s.target t (imgSeq g.header))
  | 2 => (s.plotTiles g).flatMap fun t => (List.range 34).map fun q => sk t q
  | 4 => (g.tiles.take 1).flatMap fun t => (List.range 34).map fun q => sk t q
  | _ => (imgTiles g.header).flatMap fun t => (List.range 34).map fun q => sk t q

/-- A sequencer stays FAULTED until CLR_FAULT (R115). -/
def State.stuck (s : State) (t q : Nat) : Bool := s.seqState t q == 6 && !s.faultRestart t q

/-- The sequencers of `ks` that stay FAULTED until CLR_FAULT. -/
def State.stuckOf (s : State) (ks : List Nat) : List Nat := ks.filter fun k => s.stuck (k / 34) (k % 34)

/-- Held sequencers are IDLE (R309), and so a patch may be applied (R123); those OFF stay so. -/
def State.idleSeqs (s : State) (ks : List Nat) : State :=
  ks.foldl (fun s k =>
    let t := k / 34
    let q := k % 34
    if s.seqState t q = 7 then s else (s.setSeqState t q 0).setSeq k {}) s

/-- Held sequencers preload and return to WAIT_SHOT, or stay IDLE where their plot is STOPPED; a disabled one is OFF. Those of `fs` were
FAULTED with FAULT_RESTART = 0: they never preload before CLR_FAULT, and are FAULTED again (R115, R309). -/
def State.backSeqs (s : State) (ks fs : List Nat) : State :=
  ks.foldl (fun s k =>
    let t := k / 34
    let q := k % 34
    if !s.on (A.seqCtl t q) F.seqCtl.enable || s.effIdx t q = 34 || (s.failed t q && s.seqState t q == 7) then
      (s.setSeqState t q 7).setSeq k {}
    else if fs.contains k then s.setSeqState t q 6
    else
      let stopped := match s.plotOf t with | some p => s.stopped p | none => true
      if stopped then s.preloadTo t q 0 (s.seq (sk t q)) else s.rearm t q) s

/-- A hold begins, in a gap of its plot: another hold does not share that gap (R318). -/
def State.beginHold (s : State) (h : HoldX) : State :=
  let s1 : State := { s with cfg := { s.cfg with hold := some { h with faulted := s.stuckOf h.seqs } } }
  let s2 := match h.plot with
    | some p => s1.setSched p { s1.sched p with heldGap := some (s1.sched p).lastEnd }
    | none => s1
  s2.idleSeqs h.seqs

/-- A hold ends. -/
def State.endHold (s : State) (h : HoldX) : State :=
  let s1 : State := { s with cfg := { s.cfg with hold := none } }
  s1.backSeqs h.seqs h.faulted

/-- The pause that a hold needs is that of the present gap: a start that is fixed leaves room for it, since the scheduler found the
request pending as it computed it (R309); in a coordinated plot, it is one tagged for the gap (R283). -/
def State.gapFits (s : State) (p pause : Nat) : Bool :=
  let c := s.sched p
  if !s.on (A.klCoord p) F.klCoord.en then
    match c.fixed with
    | some f => decide (c.lastEnd + s.lead p + pause ≤ f.start)
    | none => true
  else (c.fixed.isSome && decide (pause ≤ (s.reg A.cfgPartP).toNat ∧ pause ≤ (s.reg (A.pauseLast p)).toNat)) ||
    c.coord.any fun e => e.1 == s.reg (A.shotNum p) && decide (pause ≤ e.2.ticks)

/-- The present tick is E + 1 of a gap of plot `p` within a run that no hold has used. -/
def State.atGap (s : State) (p : Nat) : Bool :=
  let c := s.sched p
  !s.stopped p && (s.current p).isNone && c.lastStart.isSome && s.DT == c.lastEnd + 1 && c.heldGap != some c.lastEnd

/-- A placement of plot `p` waits and is not frozen (R317). -/
def State.placeWaits (s : State) (p : Nat) : Bool :=
  s.cfg.waiting.any fun w => s.plotOf w.1 == some p && !s.on (A.tilePlaceCtl w.1) F.tilePlaceCtl.freeze

/-- The loader's state (CFG_STS.STATE). -/
def State.ldState (s : State) : Nat := s.fld A.cfgSts F.cfgSts.state

/-- Moves the loader to a state. -/
def State.setLd (s : State) (n : Nat) : State := s.setFld A.cfgSts F.cfgSts.state n

/-- The image in the loader. -/
def State.setImg (s : State) (g : Option ImgX) : State := { s with cfg := { s.cfg with img := g } }

/-- The loader works: the part runs, no shutdown is under way. -/
def State.ldUp (s : State) : Bool := s.live && s.shutAt.isNone

/-- The match registers of a tile are disabled before its patch RAM is loaded (R123). -/
def State.patchClear (s : State) (t : Nat) : State := (List.range 16).foldl (fun s m => s.setReg (A.ucMatch t m) 0) s

/-- Outputs of enabled tiles that have no configuration yet take it: the bias outputs are loaded with their clear states (R185), and the
filter states of the flux outputs are cleared (R167). -/
def State.configTiles (s : State) : State :=
  (List.range 32).foldl (fun s t =>
    if s.tileOn t && !(s.bias (quadOf t) (biasCh t 0)).cfgd then
      (List.range 14).foldl (fun s f => s.clearFilter t f)
        ((List.range 16).foldl (fun s b => s.configBias (quadOf t) (biasCh t b)) s)
    else s) s

/-- Plot keys come into force (R333). -/
def State.installKeys (s : State) (ks : List (Nat × Nat × List Byte)) : State :=
  ks.foldl (fun s k => s.installKey k.1 k.2.1 k.2.2) s

/-- The image is written into its units in a hold of plot `p`, or of none. -/
def State.applyPartial (s : State) (g : ImgX) (p : Option Nat) : State :=
  let s0 := s.base g.header
  let us := s0.movedUnits g.header g.nextUnits
  let tiles := match imgKind g.header with
    | 2 => s0.plotTiles g
    | 4 => g.tiles.take 1
    | _ => imgTiles g.header
  let h : HoldX := { plot := p, tiles := tiles, seqs := s0.heldSeqs g, at_ := s.tm.now, pause := g.pause }
  let s1 := s0.beginHold h
  let s2 := if imgKind g.header = 4 then tiles.foldl State.patchClear s1 else s1
  let s3 := ((s2.applyUnits false us).installKeys g.keys).configTiles
  (s3.setLd 5).setFld A.cfgSts F.cfgSts.holdTile (tiles.foldl min 0xFF)

/-! ## Results (R307, R366) -/

/-- CFG_STS tells a refusal, and CFG_REFUSED fires. -/
def State.refuseSts (s : State) (reason : Nat) : State :=
  ((s.raise A.cfgSts F.cfgSts.refused 1).setFld A.cfgSts F.cfgSts.err reason).fire 1369

/-- The capsule that brought the image is still under way. -/
def State.capOf (s : State) (p : Nat) (g : ImgX) : Option CapX :=
  match (s.ring p).cap with
  | some c => if c.cseq = g.cseq ∧ c.fetching then some c else none
  | none => none

/-- The outcome of a capsule's image: the capsule's response, or a notice after it (R366). -/
def State.tellCapsule (s : State) (g : ImgX) (status detail : Nat) : State :=
  match g.src with
  | .capsule p =>
    match s.capOf p g with
    | some c =>
      let next := if status != 0 then g.op
        else match c.body with | some b => (if c.pos < b.length then g.op + 1 else 0xFFFF) | none => 0xFFFF
      s.capDone p { c with fetching := false } status next detail
    | none => s.respond p 0x83 g.cseq g.tag status (if status = 0 then 0xFFFF else g.op) detail []
  | _ => s

/-- The next slot of a flash boot, whose SFDP is read (R298), or the primer image (R300, R302). -/
def State.nextSlot (s : State) : State :=
  match s.cfg.order with
  | x :: xs =>
    (({ s with cfg := { s.cfg with order := xs } }.setImg (some { src := x })).setLd 1).send (.sfdpRead (b2n (x == ImgSrc.slotB)))
  | [] => ((s.setImg none).setLd 0).setFld A.glbSts F.glbSts.bootStage 2

/-- The image is refused with a reason (R300, R302, R307). -/
def State.refuseImg (s : State) (g : ImgX) (reason : Nat) : State :=
  match g.src with
  | .slotA => (s.setFld A.imgFallback F.imgFallback.aReason reason).nextSlot
  | .slotB => (s.setFld A.imgFallback F.imgFallback.bReason reason).nextSlot
  | .load => (((s.setFld A.imgFallback F.imgFallback.hostReason reason).setImg none).setLd 0).refuseSts reason
  | _ => (((s.setImg none).setLd 0).refuseSts reason).tellCapsule g 0x13 reason

/-- A partial image, or a tile of a PATCH image, is mirrored as it is applied (R288, R313). -/
def State.mirrorImage (s : State) (g : ImgX) : State :=
  s.mirrorOut (g.plots.headD 0) (leBytes 1 (if imgKind g.header = 4 then g.tiles.headD 0xFF else 0xFF) ++ g.bytes)

/-- The partial image is applied (R311, R313): its status, its event, its mirror, its answer. -/
def State.partialDone (s : State) (g : ImgX) : State :=
  let s1 : State := { s with cfg := { s.cfg with img := none, partials := s.cfg.partials ++ [g.bytes] } }
  let s2 := (((s1.setLd 0).raise A.cfgSts F.cfgSts.done 1).bump A.cfgPartCnt).fire 1368
  (s2.mirrorImage g).tellCapsule g 0 0

/-- The image waits for its gap, or for its plots to stop (R307–R309); in a coordinated plot the pause request is tagged and
sent (R283). -/
def State.waitImg (s : State) (g : ImgX) : State :=
  let g1 := { g with plots := s.imgPlots g.header g.units }
  let g2 := { g1 with plots := if imgKind g.header = 4 then (g.tiles.take 1).flatMap fun t => (s.plotOf t).toList else g1.plots,
                      stopped := s.imgStopped g }
  let s1 := ((s.setImg (some g2)).setReg A.cfgPartP (BitVec.ofNat 32 g2.pause)).setLd (if g2.stopped then 4 else 3)
  match g2.plots with
  | p :: _ =>
    if !g2.stopped && s.on (A.klCoord p) F.klCoord.en && !s.stopped p then s1.pauseRequest p ⟨g2.pause, 0⟩ else s1
  | [] => s1

/-- A verified FULL image goes on to calibration and application (R297, R449). -/
def State.fullVerified (s : State) (g : ImgX) : State :=
  let s1 := ((s.setImg (some g)).setLd 5).setFld A.glbSts F.glbSts.bootStage 2
  if g.src = .load then s1.setFld A.calSts F.calSts.bootDone 0 else s1

/-- The reason that the checks of R294 find, in its order; 0: none. A structural failure comes with its captures. -/
def State.verifyReason (s : State) (b : List Byte) (full : Bool) (ss : List (Nat × Nat × List UnitWrite)) : Nat × Option State :=
  if !checkWordOk b then (1, none)
  else if !headerOk full b then (3, none)
  else match s.authImage b with
    | none => (2, none)
    | some (plain, keys) =>
      if !sectCrcOk b plain then (1, none)
      else if (sectsOf b).any fun x => !sectAllowed (imgKind b) x.type then (4, none)
      else if !s.scopeOk b ss then (5, none)
      else if s.keyRepeats keys then (6, none)
      else match s.structure b ss with
        | some c => (6, some c)
        | none => (0, none)

/-- The source takes FULL images. -/
def ImgSrc.full : ImgSrc → Bool
  | .slotA | .slotB | .load => true
  | _ => false

/-- An image that has passed its checks, with what they gave: its units, its tiles, its keys (those of a PLOT image only for its own
plot, R304) and ENFORCE. -/
def State.verified (s : State) (g : ImgX) (ss : List (Nat × Nat × List UnitWrite)) : ImgX :=
  match s.authImage g.bytes with
  | some (plain, keys) =>
    { g with
      units := ss
      tiles := imgTiles g.header
      keys := keys.filter fun k => imgKind g.header == 0 || k.1 == imgPlot g.header
      enforce := keysEnforce g.bytes plain }
  | none => g

/-- The checks of the image complete (R294). -/
def State.verifyDone (s : State) (g : ImgX) (us : List (List UnitWrite)) : State :=
  let ss := fitUnits g.bytes us
  let r := s.verifyReason g.bytes g.src.full ss
  if r.1 != 0 then ((match r.2 with | some c => s.capture c | none => s).refuseImg g r.1)
  else
    let g1 := s.verified g ss
    if g.src.full then s.fullVerified g1
    else
      let s1 := s.waitImg g1
      match s1.cfg.img with
      | some g2 => if g2.plots.all s1.stopped then s1 else s1.tellCapsule g2 0x20 s1.ldState
      | none => s1

end Sys2Proof.Machine
end

