-- ==== Sys2Proof/Machine/Images.lean ====
section
/-! DEFINITION. The commands of the configuration loader and of Henone (R297–R323): loading and staging, the end of a boot,
holds, placement, restarts and flash writes. -/

namespace Sys2Proof.Machine

/-! ## CFG_CTL (R302, R303, R306, R307) -/

/-- The commands to the loader find it free: it is IDLE and no boot is under way. -/
def State.ldFree (s : State) : Bool := s.ldState == 0 && s.cfg.img.isNone && !s.cfg.booting

/-- LIFECYCLE is RETIRED: the loader accepts no image (R325). -/
def State.isRetired (s : State) : Bool := s.fld A.glbSts F.glbSts.lifecycle == 3

/-- The reason with which LOAD or APPLY is refused at once; 0: none. -/
def State.stageReason (s : State) : Nat :=
  if s.isRetired then 2 else if !s.ldFree then 7 else if s.fld A.cfgStageLen F.cfgStageLen.len = 0 then 3 else 0

/-- The image staged at CFG_STAGE is read. -/
def State.stageRead (s : State) : State :=
  s.hostFetch (64 * s.fld A.cfgStageLo F.cfgStageLo.addr + 2 ^ 32 * (s.reg A.cfgStageHi).toNat)
    (s.fld A.cfgStageLen F.cfgStageLen.len)

/-- The loader fetches what is staged: a read that may not be issued refuses the image with CHECK (R377). -/
def State.stageFetch (s : State) (g : ImgX) : State := if s.dmaOk then s.stageRead else s.refuseImg g 1

/-- LOAD (R302): ignored unless the primer image is in force. -/
def State.loadImage (s : State) : State :=
  let r := s.stageReason
  if s.fld A.glbSts F.glbSts.imgSrc ≠ 2 || s.cfg.booting then s
  else if r ≠ 0 then (s.setFld A.imgFallback F.imgFallback.hostReason r).refuseSts r
  else ((s.setImg (some { src := .load })).setLd 1).stageFetch { src := .load }

/-- APPLY (R306, R307). -/
def State.applyImage (s : State) : State :=
  let r := s.stageReason
  if r ≠ 0 then s.refuseSts r else ((s.setImg (some { src := .apply })).setLd 1).stageFetch { src := .apply }

/-- CANCEL (R307): of a partial image, before it is applied. -/
def State.cancelImage (s : State) : State :=
  match s.cfg.img with
  | some g => if !g.src.full && decide (1 ≤ s.ldState ∧ s.ldState ≤ 4) then s.refuseImg g 8 else s
  | none => s

/-- The commands of a write of CFG_CTL. -/
def State.cfgCmd (s : State) (w : Word) : State :=
  let s1 := if getF w F.cfgCtl.seal = 1 then s.setFld A.glbSts F.glbSts.sealed 1 else s
  let s2 := if getF w F.cfgCtl.cancel = 1 then s1.cancelImage else s1
  let s3 := if getF w F.cfgCtl.apply = 1 then s2.applyImage else s2
  if getF w F.cfgCtl.load = 1 then s3.loadImage else s3

/-- A write of CFG_CTL. -/
def State.writeCfgCtl (s : State) (src : Req) (w : Word) : WRes :=
  s.write src spec_cfgCtl A.cfgCtl w none fun s1 => s1.cfgCmd w

/-- IMAGE_LOAD (R302). -/
def execImageLoad (w : Word) (s : State) : Res :=
  done (State.hostWrite (s.writeCfgCtl .host (putF w F.cfgCtl.load 1)) A.cfgCtl)

/-- IMAGE_APPLY (R306). -/
def execImageApply (w : Word) (s : State) : Res :=
  done (State.hostWrite (s.writeCfgCtl .host (putF w F.cfgCtl.apply 1)) A.cfgCtl)

/-- IMAGE_CANCEL (R307). -/
def execImageCancel (w : Word) (s : State) : Res :=
  done (State.hostWrite (s.writeCfgCtl .host (putF w F.cfgCtl.cancel 1)) A.cfgCtl)

/-- CFG_SEAL (R303). -/
def execCfgSeal (w : Word) (s : State) : Res :=
  done (State.hostWrite (s.writeCfgCtl .host (putF w F.cfgCtl.seal 1)) A.cfgCtl)

/-! ## Fetch and checks (R294, R306, R307) -/

/-- The directory of a slot (R299): its MAGIC and CRC are right, and it names a configuration image. -/
def dirOk (b : List Byte) : Bool :=
  decide (64 ≤ b.length) && leAt b 0 4 == 0x53444C46 && leAt b 60 4 == (crc32c (b.take 60)).toNat && leAt b 8 4 != 0

/-- The configuration image that the directory of a slot names. -/
def slotImage (b : List Byte) : List Byte := (b.drop (leAt b 4 4)).take (leAt b 8 4)

/-- The Henone image that it names. -/
def slotHen (b : List Byte) : List Byte := (b.drop (leAt b 12 4)).take (leAt b 16 4)

/-- The slot of a source. -/
def ImgSrc.slot : ImgSrc → Option Nat
  | .slotA => some 0
  | .slotB => some 1
  | _ => none

/-- The image of the loader is there. -/
def State.imgThere (s : State) (g : ImgX) (b : List Byte) : State :=
  ((s.setFld A.cfgSts F.cfgSts.kind (imgKind b)).setImg (some { g with bytes := b, header := imgFront b })).setLd 2

/-- A slot has been read (R298, R299, R301): with the command and the dummy cycles that its SFDP gives, directory first. -/
def State.slotRead (s : State) (g : ImgX) (n : Nat) (bytes : List Byte) (sfdp : Option (Byte × Byte)) : State :=
  match sfdp with
  | none => s.refuseImg g 10
  | some (cmd, dummy) =>
    let b := (KMap.get none s.cfg.slots n).getD bytes
    let s1 : State := { s with cfg := { s.cfg with reads := KMap.set none s.cfg.reads n (some (cmd, dummy)) } }
    let s2 := s1.send (.flashRead n cmd dummy 0 64)
    if dirOk b then (s2.send (.flashRead n cmd dummy (leAt b 4 4) (leAt b 8 4))).imgThere g (slotImage b)
    else s2.refuseImg g 11

/-- The image has been fetched (R298, R306, R307). -/
def State.fetchDone (s : State) (g : ImgX) (bytes : List Byte) (sfdp : Option (Byte × Byte)) : State :=
  match g.src.slot with
  | some n => s.slotRead g n bytes sfdp
  | none =>
    if g.src == .apply && s.enforce && (imgKind bytes == 3 || imgKind bytes == 5) then
      (s.setFld A.cfgSts F.cfgSts.kind (imgKind bytes)).refuseImg g 9
    else s.imgThere g bytes

/-- IMAGE_FETCH_DONE (R307). -/
def execImageFetchDone (bytes : List Byte) (sfdp : Option (Byte × Byte)) (s : State) : Res :=
  match s.cfg.img with
  | some g => onlyIf (s.ldUp && s.ldState == 1) s (s.fetchDone g bytes sfdp)
  | none => done s

/-- IMAGE_VERIFY_DONE (R294). -/
def execImageVerifyDone (units : List (List UnitWrite)) (s : State) : Res :=
  match s.cfg.img with
  | some g => onlyIf (s.ldUp && s.ldState == 2) s (s.verifyDone g units)
  | none => done s

/-! ## The end of a boot (R297, R302) -/

/-- GLB_STS.IMG_SRC and IMG_FALLBACK.LOADED. -/
def State.setImgSrc (s : State) (n : Nat) : State :=
  (s.setFld A.glbSts F.glbSts.imgSrc n).setFld A.imgFallback F.imgFallback.loaded n

/-- Links that were enabled before the part was configured begin to train (R258, R292). -/
def State.linksStart (s : State) : State :=
  (List.range 8).foldl (fun s k =>
    if s.linksMay && s.on (A.klCtl k) F.klCtl.en && s.klState k == 0 then s.attempt k 1 false else s) s

/-- The boot ends: BOOT_STAGE 011b; a trial boot that is not confirmed counts its 30 s from here (R321). -/
def State.bootEnd (s : State) : State :=
  let s1 : State := { s with cfg := { s.cfg with
    img := none, booting := false
    trialAt := if s.cfg.booting && s.on A.henSts F.henSts.trial && !s.on A.henSts F.henSts.confirmed then some s.tm.now
      else s.cfg.trialAt } }
  ((s1.setLd 0).setFld A.glbSts F.glbSts.bootStage 3).linksStart

/-- The reason Fh for the source of a FULL image. -/
def State.markLoaded (s : State) : ImgSrc → State
  | .slotA => (s.setFld A.imgFallback F.imgFallback.aReason 15).setImgSrc 0
  | .slotB => (s.setFld A.imgFallback F.imgFallback.bReason 15).setImgSrc 1
  | _ => (s.setFld A.imgFallback F.imgFallback.hostReason 15).setImgSrc 3

/-- A FULL image is written into the units (R297, R303, R333, R341). -/
def State.applyFull (s : State) (g : ImgX) : State :=
  let h := g.header
  let s0 := (List.range 448).foldl (fun s i => s.clearFilter (i / 14) (i % 14)) s
  let s1 := ((((s0.tilesOfFull h g.units).applyUnits true (allUnits g.units)).maskTilesOn (leAt h 32 4)).tidyPlots).installKeys g.keys
  let enf := g.enforce && s.fld A.glbSts F.glbSts.lifecycle == 2 && !s.on A.wlSts F.wlSts.debug
  let s2 := (if enf then s1.setFld A.glbSts F.glbSts.plotEnf 1 else s1).configTiles
  let s3 := if (leAt h 7 1).testBit 0 || s2.enforce then s2.setFld A.glbSts F.glbSts.sealed 1 else s2
  let s4 := (s3.markLoaded g.src).setPair A.imgBuildLo A.imgBuildHi (leAt h 24 8)
  let s5 := s4.setFld A.wlArb F.wlArb.image (leAt h 20 4)
  let s6 : State := { s5 with cfg := { s5.cfg with
    rollback := leAt h 20 4, image := g.bytes, partials := [], failing := [], waiting := [], lost := [], faults := [] } }
  s6.bootEnd.log 0x11 255 (leBytes 8 (leAt h 24 8))

/-- BOOT_IMAGE_APPLY (R297, R302, R471): after the calibration of R449; with no image, the primer image comes into force. -/
def execBootImageApply (s : State) : Res :=
  let ready := s.ldUp && s.fld A.glbSts F.glbSts.bootStage == 2 && s.on A.calSts F.calSts.bootDone
  match s.cfg.img with
  | some g => onlyIf (ready && g.src.full && s.ldState == 5) s (s.applyFull g)
  | none => onlyIf (ready && s.cfg.booting) s ((s.setImgSrc 2).bootEnd)

/-! ## Holds (R309–R313) -/

/-- PARTIAL_HOLD (R309): in tick E + 1 of a gap that found the request pending. -/
def execPartialHold (s : State) : Res :=
  match s.cfg.img with
  | some g =>
    match g.plots with
    | [p] => onlyIf (s.ldUp && s.henServes && s.ldState == 3 && s.cfg.hold.isNone && s.atGap p && !s.placeWaits p &&
        s.gapFits p g.pause) s (s.applyPartial g (some p))
    | _ => done s
  | none => done s

/-- PARTIAL_STOPPED_APPLY (R310): every plot concerned is STOPPED, and no placement waits in one (R318). -/
def execPartialStoppedApply (s : State) : Res :=
  match s.cfg.img with
  | some g => onlyIf (s.ldUp && s.henServes && (s.ldState == 3 || s.ldState == 4) && s.cfg.hold.isNone &&
      g.plots.all fun p => s.stopped p && !s.placeWaits p) s (s.applyPartial g none)
  | none => done s

/-- A hold ends (R311): a PATCH image goes on with its next tile; another is applied. -/
def State.holdEnd (s : State) (h : HoldX) : State :=
  let s1 := (s.endHold h).setFld A.cfgSts F.cfgSts.holdTile 0xFF
  if h.place.isSome then s1
  else
    match s1.cfg.img with
    | none => s1
    | some g =>
      match imgKind g.header == 4, g.tiles with
      | true, _ :: t :: ts => (s1.mirrorImage g).waitImg { g with tiles := t :: ts }
      | _, _ => s1.partialDone g

/-- The last tick of a hold (R309, R318): it is over before the tick E + P, from which on the next shot may be announced. -/
def State.holdTick (s : State) : State :=
  match s.cfg.hold with
  | some h => if s.ldUp && decide (h.at_ + h.pause ≤ s.tm.now + 2) then s.holdEnd h else s
  | none => s

/-- PARTIAL_HOLD_END (R311). -/
def execPartialHoldEnd (s : State) : Res :=
  match s.cfg.hold with
  | some h => onlyIf s.ldUp s (s.holdEnd h)
  | none => done s

/-! ## Failed sequencers and placement (R316–R320) -/

/-- SEQ_FAILED (R316). -/
def execSeqFailed (t : Tile) (q : Seq) (selfTest : Bool) (s : State) : Res :=
  onlyIf (s.live && s.tileOn t && !s.failed t q &&
    (selfTest || decide (s.fld (A.tilePlaceCtl t) F.tilePlaceCtl.failLim ≤ KMap.get 0 s.cfg.faults (sk t q)))) s
    (s.seqFails t q)

/-- The placement of sequencer `q` of tile `t` begins (R318, R320). -/
def State.place (s : State) (p : Option Nat) (t q : Nat) (bad : Bool) : State :=
  let s1 : State := { s with cfg := { s.cfg with waiting := s.cfg.waiting.erase (t, q) } }
  if bad then
    { s1.raise (A.tilePlaceSts t) F.tilePlaceSts.copyErr 1 with
      cfg := { s1.cfg with lost := s1.cfg.lost ++ [(t, q)] } }
  else
    match s1.freeSpares t with
    | [] => (s1.raise (A.tilePlaceSts t) F.tilePlaceSts.noSpare 1).setFld (A.tileSts t) F.tileSts.degraded 1
    | x :: _ =>
      let s2 := (s1.copyProg t q x).takeRole t q x
      let s3 := ((s2.fire (tileSrc t 25)).bump (A.tilePlaceCnt t)).log 0x0E t (leBytes 1 q ++ leBytes 1 x)
      let h : HoldX := { plot := p, tiles := [t], seqs := [sk t q, sk t x], at_ := s.tm.now, pause := 13060, place := some (t, q, x) }
      (s3.beginHold h).setFld A.cfgSts F.cfgSts.holdTile t

/-- PLACEMENT (R317, R318): in a gap of the plot, or at once while it is STOPPED. -/
def execPlacement (t : Tile) (bad : Bool) (s : State) : Res :=
  let free := s.ldUp && s.henServes && s.cfg.hold.isNone && !s.on (A.tilePlaceCtl t) F.tilePlaceCtl.freeze
  match s.cfg.waiting.find? fun w => w.1 == t.val with
  | some w =>
    match s.plotOf t with
    | some p => onlyIf (free && (s.stopped p || (s.atGap p && s.gapFits p 13060))) s (s.place (some p) t w.2 bad)
    | none => onlyIf free s (s.place none t w.2 bad)
  | none => done s

/-! ## Henone and flash writes (R321–R323) -/

/-- A write of HEN_CTL. -/
def State.writeHenCtl (s : State) (src : Req) (w : Word) : WRes :=
  s.write src spec_henCtl A.henCtl w none fun s1 =>
    let s2 : State := if getF w F.henCtl.confirm = 1 then
        { s1.setFld A.henSts F.henSts.confirmed 1 with cfg := { s1.cfg with trialAt := none } } else s1
    if getF w F.henCtl.restart = 1 then { s2 with henRestart := some s2.tm.now } else s2

/-- HEN_CONFIRM (R321): Henone's own write. -/
def execHenConfirm (s : State) : Res :=
  onlyIf s.live s (s.writeHenCtl .mgmt 1).1

/-- HEN_RESTART (R323). -/
def execHenRestart (s : State) : Res := done (State.hostWrite (s.writeHenCtl .host 2) A.henCtl)

/-- The restart ends: housekeeping sequences go on, and a save that waited takes place. -/
def State.henBack (s : State) : State :=
  let s1 := (List.range 4).foldl State.hkGo { s with henRestart := none }
  if s.book.want then s1.cbSave else s1

/-- HENONE_RESTART_DONE (R323). -/
def execHenoneRestartDone (s : State) : Res := onlyIf (s.live && s.henRestart.isSome) s s.henBack

/-- A restart takes at most 200 ms (R323). -/
def State.henTick (s : State) : State :=
  match s.henRestart with
  | some a => if a + 200 * msTicks ≤ s.tm.now + 1 then s.henBack else s
  | none => s

/-- START of CFG_FLASH_CTL for a slot (R322): ignored while a write is under way. -/
def State.flashStart (s : State) (slot : Nat) : State :=
  let refuse := fun (n : Nat) =>
    (s.setFld A.cfgFlashSts F.cfgFlashSts.state 4).setFld A.cfgFlashSts F.cfgFlashSts.err n
  if s.cfg.flash.isSome then s
  else if s.fld A.henSts F.henSts.slot = slot then refuse 9
  else if s.fld A.cfgStageLen F.cfgStageLen.len = 0 then refuse 3
  else if !s.dmaOk then refuse 1
  else ({ s.setFld A.cfgFlashSts F.cfgFlashSts.state 1 with cfg := { s.cfg with flash := some (slot, s.tm.now) } } : State).stageRead

/-- A write of CFG_FLASH_CTL. -/
def State.writeFlashCtl (s : State) (src : Req) (w : Word) : WRes :=
  s.write src spec_cfgFlashCtl A.cfgFlashCtl w none fun s1 =>
    if getF w F.cfgFlashCtl.start = 1 then s1.flashStart (getF w F.cfgFlashCtl.slot) else s1

/-- FLASH_WRITE (R322). -/
def execFlashWrite (slot : Bool) (s : State) : Res :=
  done (State.hostWrite (s.writeFlashCtl .host (BitVec.ofNat 32 (1 + 2 * b2n slot))) A.cfgFlashCtl)

/-- The images are programmed, and then the directory (R322): what the slot holds is known from now on. -/
def State.flashProgram (s : State) (slot : Nat) (b : List Byte) : State :=
  let s1 := (s.send (.flashWrite slot 64 (b.drop 64))).send (.flashWrite slot 0 (b.take 64))
  { s1 with cfg := { s1.cfg with slots := KMap.set none s1.cfg.slots slot (some b) } }

/-- The reason that the checks of both images at their boot find in a slot's bytes (R322, R294, R321); 0: none. What the configuration
image's sections hold is the operand of the row, with the outcome of the checks that read it. -/
def State.flashReason (s : State) (b : List Byte) : Nat :=
  let c := slotImage b
  if !dirOk b then 11
  else
    let r := (s.verifyReason c true (fitUnits c [])).1
    if r != 0 then r else if Config.henPasses (slotHen b) then 0 else 2

/-- The reasons with which a write can end where the images' own bytes pass (R301): none, STRUCTURE, and a flash that does not
answer. -/
def flashEnds (reason : Nat) : Bool := reason == 15 || reason == 6 || reason == 10

/-- FLASH_WRITE_DONE (R322): the slot is written, or its images are refused before anything is erased. -/
def execFlashWriteDone (reason : BitVec 4) (bytes : List Byte) (s : State) : Res :=
  match s.cfg.flash with
  | some (slot, _) =>
    let s1 : State := { s with cfg := { s.cfg with flash := none } }
    let found := s.flashReason bytes
    let r := if found = 0 then reason.toNat else found
    onlyIf (s.ldUp && s.henUp && (found != 0 || flashEnds reason.toNat)) s
      (if r = 15 then
        ((s1.flashProgram slot bytes).setFld A.cfgFlashSts F.cfgFlashSts.state 0).raise A.cfgFlashSts F.cfgFlashSts.done 1
       else (s1.setFld A.cfgFlashSts F.cfgFlashSts.state 4).setFld A.cfgFlashSts F.cfgFlashSts.err r)
  | none => done s

end Sys2Proof.Machine
end

