-- ==== Sys2Proof/Machine/Access.lean ====
section
/-! DEFINITION. A write at any offset of the control and doorbell windows (R8, R34, R43). -/

namespace Sys2Proof.Machine

/-- A write at an offset of the control or doorbell window (doorbell offsets from 1000_0000h): an offset that names no register
is refused, then the checks of every access stand, then the register's block takes the write. -/
def State.regWrite (s : State) (src : Req) (a : Nat) (w : Word) : WRes :=
  match findReg a with
  | none => (s, some .accessErr)
  | some (r, ix) =>
    match s.blockRefuse src a with
    | some e => (s, some e)
    | none =>
      match r.reg with
      | .cfgCtl => s.writeCfgCtl src w
      | .henCtl => s.writeHenCtl src w
      | .cfgFlashCtl => s.writeFlashCtl src w
      | _ => s.blockWrite src r ix a w

/-- A host write: a size other than four bytes, a misaligned offset and an offset without a register are refused (R8). -/
def State.hostPut (s : State) (win : Window) (off size : Nat) (w : Word) : WRes :=
  if !s.live then (s, some .ignored)
  else if size ≠ 4 ∨ off % 4 ≠ 0 then (s, some .accessErr)
  else s.regWrite .host (winKey win off) w

/-- REGISTER_WRITE (R8). A write to a BAR that arrives poisoned or with a bad ECRC is discarded, and AER reports it (R356). -/
def execRegisterWrite (win : Window) (off size : Nat) (w : Word) (s : State) : Res :=
  let r := s.hostPut win off size w
  match win with
  | .badWrite ecrc => done (s.aerNote (if ecrc then 19 else 12))
  | _ => done (match r.2 with | some e => r.1.refuseHost e (winCode win) off | none => r.1)

end Sys2Proof.Machine
end

