-- ==== Sys2Proof/Machine/Capsules.lean ====
section
/-! DEFINITION. The operations of a capsule (R364–R366) and the transfer errors of the device's reads (R377). -/

namespace Sys2Proof.Machine

/-! ## The operation that is next (R364, R366) -/

/-- An operation of a capsule: OP, COUNT, LEN and its operand bytes. -/
structure CapOp where
  op : Nat
  count : Nat
  len : Nat
  arg : List Byte

/-- The operation at the capsule's position; none where its header or operands pass the end of the body. -/
def CapX.next (c : CapX) (b : List Byte) : Option CapOp :=
  let l := leAt b (c.pos + 4) 4
  if c.pos + 8 ≤ b.length ∧ c.pos + 8 + l ≤ b.length then
    some ⟨leAt b c.pos 1, leAt b (c.pos + 2) 2, l, (b.drop (c.pos + 8)).take l⟩
  else none

/-- LEN and COUNT are consistent, and the operands in range (R366). -/
def CapOp.ok (o : CapOp) (read : Nat) : Bool :=
  match o.op with
  | 0 => o.len == 0
  | 1 => o.len == 4 + 4 * o.count
  | 2 => o.len == 4 && decide (read + 4 * o.count ≤ 16384)
  | 3 => decide (4 ≤ o.len) && o.len % 4 == 0
  | 4 => o.len == 8 && decide (read + leAt o.arg 4 4 ≤ 16384)
  | 5 => decide (0 < o.len)
  | 6 => o.len == 64
  | 7 => o.len == 8 && decide (leAt o.arg 0 1 < 4) && decide (1 ≤ leAt o.arg 4 4 ∧ leAt o.arg 4 4 ≤ 1000000)
  | _ => false

/-- The capsule of plot `p` that executes, with its body: none waits and none is with the loader. -/
def State.capRuns (s : State) (p : Nat) : Option (CapX × List Byte) :=
  match (s.ring p).cap with
  | some c =>
    match c.body with
    | some b => if s.live && s.henServes && !s.isStandby && c.wait.isNone && !c.fetching then some (c, b) else none
    | none => none
  | none => none

/-- The capsule's record. -/
def State.setCap (s : State) (p : Nat) (c : CapX) : State := s.modRing p fun x => { x with cap := some c }

/-- An operation completes: the next one, at a multiple of 8 bytes, or the end of the body (R364, R366). -/
def State.capNext (s : State) (p : Nat) (c : CapX) (b : List Byte) (len : Nat) : State :=
  let pos := (c.pos + 8 + len + 7) / 8 * 8
  let c1 := { c with pos := pos, op := c.op + 1, wait := none, fetching := false }
  if b.length ≤ pos then s.capDone p c1 0 0xFFFF 0 else s.setCap p c1

/-- The capsule fails at its operation (R366). -/
def State.capFail (s : State) (p : Nat) (c : CapX) (status detail : Nat) : State := s.capDone p c status c.op detail

/-- The row of an operation: it acts where `code` is next and well-formed. -/
def State.capRow (s : State) (p : Nat) (code : Nat) (f : CapX → List Byte → CapOp → State) : Res :=
  match s.capRuns p with
  | some (c, b) =>
    match c.next b with
    | some o => onlyIf (o.op == code && o.ok c.data.length) s (f c b o)
    | none => done s
  | none => done s

/-- CAPSULE_NOP (R364); a malformed operation is met here (R366). -/
def execCapsuleNop (p : Plot) (s : State) : Res :=
  match s.capRuns p with
  | some (c, b) =>
    match c.next b with
    | some o =>
      if !o.ok c.data.length then done (s.capFail p c 0x10 c.pos)
      else onlyIf (o.op == 0) s (s.capNext p c b o.len)
    | none => done (s.capFail p c 0x10 c.pos)
  | none => done s

/-! ## Ownership (R365) -/

/-- The register at an offset belongs to plot `p`; `w`: the word of a write. -/
def State.capOwns (s : State) (p a : Nat) (w : Option Word) : Bool :=
  match tileOfOff a with
  | some t => s.plotOf t == some p
  | none =>
    (0x301000 + 0x100 * p ≤ a && a < 0x301100 + 0x100 * p) || a == A.wlBatchCfg p ||
      (a == A.wlArb && p == 0 && s.enforce && (match w with | some w => getF w F.wlArb.commit == 1 | none => false)) ||
      s.ownerOf a == some p

/-- The memory-window word at an offset belongs to plot `p`. -/
def State.capOwnsMem (s : State) (p a : Nat) : Bool := decide (a < 0x8000000) && s.plotOf (a % 0x4000000 / 0x200000) == some p

/-- DETAIL of a refusal (R366); none where the write is not discarded by its unit but noted there. -/
def refuseDetail : Refuse → Option Nat
  | .accessErr => some 1
  | .memBusy => some 2
  | .plotDeny => some 3
  | .ignored => none

/-! ## Register and memory operations -/

/-- Writes words at consecutive registers, until one is refused. -/
def State.capRegs (s : State) (src : Req) : Nat → List Word → State × Option Nat
  | _, [] => (s, none)
  | a, w :: ws =>
    let r := s.regWrite src a w
    match r.2 with
    | some e =>
      (match refuseDetail e with
       | some d => (r.1, some d)
       | none => r.1.capRegs src (a + 4) ws)
    | none => r.1.capRegs src (a + 4) ws

/-- The words of an operand. -/
def argWords (o : CapOp) (n : Nat) : List Word := wordsOf n (o.arg.drop 4)

/-- REG_WRITE (R364–R366): every target belongs to the plot before any is written. -/
def execRegWrite (p : Plot) (s : State) : Res :=
  s.capRow p 1 fun c b o =>
    let a := leAt o.arg 0 4
    let ws := argWords o o.count
    match (List.range o.count).find? fun k => !s.capOwns p (a + 4 * k) (ws[k]?) with
    | some k => s.capFail p c 0x11 (a + 4 * k)
    | none =>
      let r := s.capRegs (.capsule p) a ws
      match r.2 with
      | some d => r.1.capFail p c 0x12 d
      | none => r.1.capNext p c b o.len

/-- Reads `n` consecutive registers. -/
def State.capReads (s : State) (src : Req) (a : Nat) : Nat → State × List Byte
  | 0 => (s, [])
  | n + 1 =>
    let v := s.regRead src a
    let r := v.1.capReads src (a + 4) n
    (r.1, wordBytes v.2.1 ++ r.2)

/-- REG_READ (R364, R365): a register that may not be read gives all-ones. -/
def execRegRead (p : Plot) (s : State) : Res :=
  s.capRow p 2 fun c b o =>
    let a := leAt o.arg 0 4
    match (List.range o.count).find? fun k => !s.capOwns p (a + 4 * k) none with
    | some k => s.capFail p c 0x11 (a + 4 * k)
    | none =>
      let r := s.capReads (.capsule p) a o.count
      r.1.capNext p { c with data := c.data ++ r.2 } b o.len

/-- MEM_WRITE (R364–R366). -/
def execMemWrite (p : Plot) (s : State) : Res :=
  s.capRow p 3 fun c b o =>
    let a := leAt o.arg 0 4
    match (wordOffs a (o.len - 4)).find? fun x => !s.capOwnsMem p x with
    | some x => s.capFail p c 0x11 x
    | none =>
      if o.len = 4 then s.capNext p c b o.len
      else
        let r := s.memWrite (.capsule p) a (o.arg.drop 4)
        match r.2 with
        | some e =>
          (match refuseDetail e with
           | some d => r.1.capFail p c 0x12 d
           | none => r.1.capNext p c b o.len)
        | none => r.1.capNext p c b o.len

/-- MEM_READ (R364, R365, R39): a refused read gives all-ones. -/
def execMemRead (p : Plot) (s : State) : Res :=
  s.capRow p 4 fun c b o =>
    let a := leAt o.arg 0 4
    let n := leAt o.arg 4 4
    match (wordOffs a n).find? fun x => !s.capOwnsMem p x with
    | some x => s.capFail p c 0x11 x
    | none =>
      let bad := n != 0 && (s.memRefuse (.capsule p) a n).isSome
      let bs := if bad then List.replicate n 0xFF else s.bytes a n
      s.capNext p { c with data := c.data ++ bs } b o.len

/-! ## Images in capsules (R306, R364–R366) -/

/-- A tile of an image that plot `p` does not own. -/
def State.strayTile (s : State) (p : Nat) (h : List Byte) : Option Nat :=
  (imgTiles h).find? fun t => s.plotOf t != some p

/-- An image is handed to the loader: refused at once, or in VERIFY. -/
def State.handImage (s : State) (p : Nat) (c : CapX) (b : List Byte) : State :=
  let k := imgKind b
  if !s.ldFree then (s.refuseSts 7).capFail p c 0x14 0
  else if s.isRetired then (s.refuseSts 2).capFail p c 0x13 2
  else
    match s.strayTile p b with
    | some t => s.capFail p c 0x11 (0x1000000 + 0x80000 * t)
    | none =>
      if k == 2 && imgPlot b != p then s.capFail p c 0x11 (0x301000 + 0x100 * imgPlot b)
      else if s.enforce && (k == 1 || k == 2 || k == 4) then (s.refuseSts 9).capFail p c 0x13 9
      else
        let g : ImgX := { src := .capsule p, cseq := c.cseq, tag := c.tag, op := c.op, bytes := b, header := imgFront b }
        let len := match c.body with | some b => leAt b (c.pos + 4) 4 | none => 0
        (((s.setCap p { c with fetching := true, pos := (c.pos + 8 + len + 7) / 8 * 8 }).setFld A.cfgSts F.cfgSts.kind k).setImg (some g)).setLd 2

/-- IMAGE_INLINE (R364). -/
def execImageInline (p : Plot) (s : State) : Res :=
  s.capRow p 5 fun c _ o => s.handImage p c o.arg

/-- IMAGE_REF (R364): the fetch begins, or meets R377 while the device may issue no request. -/
def execImageRef (p : Plot) (s : State) : Res :=
  s.capRow p 6 fun c _ o =>
    if s.dmaOk then (s.setCap p { c with fetching := true }).hostFetch (leAt o.arg 0 8) (leAt o.arg 8 4)
    else s.capFail p c 0x16 1

/-- The IMAGE_REF whose bytes are being fetched, with its digest. -/
def State.refFetch (s : State) (p : Nat) : Option (CapX × List Byte) :=
  match (s.ring p).cap with
  | some c =>
    match c.body with
    | some b =>
      let given := match s.cfg.img with | some g => g.src == .capsule p && g.cseq == c.cseq | none => false
      if c.fetching && !given && leAt b c.pos 1 == 6 then some (c, (b.drop (c.pos + 24)).take 48) else none
    | none => none
  | none => none

/-- IMAGE_REF_FETCH_DONE (R364, R366): the SHA-384 of the image is compared with the operand's digest. -/
def execImageRefFetchDone (p : Plot) (bytes : List Byte) (s : State) : Res :=
  match s.refFetch p with
  | some (c, d) => onlyIf (s.live && s.henServes) s
      (if sha384 bytes = d then s.handImage p c bytes else s.capFail p c 0x16 2)
  | none => done s

/-! ## WAIT_STATE (R364, R366) -/

/-- WAIT_STATE (R364). -/
def execWaitState (p : Plot) (s : State) : Res :=
  s.capRow p 7 fun c _ o =>
    s.setCap p { c with wait := some (leAt o.arg 0 1, s.tm.now + leAt o.arg 4 4 * usTicks) }

/-- The capsule that waits, with its body, the state it waits for and the tick of its timeout. -/
def State.capWaits (s : State) (p : Nat) : Option (CapX × List Byte × Nat × Nat) :=
  match (s.ring p).cap with
  | some c =>
    match c.body, c.wait with
    | some b, some (st, due) => if s.live && s.henServes then some (c, b, st, due) else none
    | _, _ => none
  | none => none

/-- WAIT_STATE_REACHED (R364). -/
def execWaitStateReached (p : Plot) (s : State) : Res :=
  match s.capWaits p with
  | some (c, b, st, _) => onlyIf (s.runState p == st) s (s.capNext p c b 8)
  | none => done s

/-- WAIT_STATE_TIMEOUT (R366). -/
def execWaitStateTimeout (p : Plot) (s : State) : Res :=
  match s.capWaits p with
  | some (c, _, st, due) => onlyIf (s.runState p != st && decide (due ≤ s.tm.now)) s
      (s.capFail p { c with wait := none } 0x15 (s.runState p))
  | none => done s

/-! ## Transfer errors (R377) -/

/-- A command-ring fetch of plot `p` is under way: of a header, or of the body that is not authenticated. -/
def State.ringFetch (s : State) (p : Nat) : Bool :=
  s.fld (A.cmdSts p) F.cmdSts.state == 1 &&
    (match (s.ring p).cap with
     | some c => c.body.isNone
     | none => s.reg (A.cmdProd p) != s.reg (A.cmdCons p))

/-- The fetch of an IMAGE_REF of plot `p` fails. -/
def State.refAbort (s : State) (p : Nat) : State :=
  match s.refFetch p with
  | some (c, _) => s.capFail p c 0x16 1
  | none => s

/-- The fetch of a flash write from CFG_STAGE fails: refusal with CHECK. -/
def State.flashAbort (s : State) : State :=
  if s.cfg.flash.isSome then
    (({ s with cfg := { s.cfg with flash := none } } : State).setFld A.cfgFlashSts F.cfgFlashSts.state 4).setFld A.cfgFlashSts
      F.cfgFlashSts.err 1
  else s

/-- The loader's image is being fetched from CFG_STAGE. -/
def State.stageReading (s : State) : Bool :=
  match s.cfg.img with
  | some g => s.ldState == 1 && (g.src == .load || g.src == .apply)
  | none => false

/-- The fetch of the loader's image from CFG_STAGE fails: refusal with CHECK. -/
def State.stageAbort (s : State) : State :=
  match s.cfg.img with
  | some g => if s.stageReading then s.refuseImg g 1 else s
  | none => s

/-- A read of the device is under way. -/
def State.reading (s : State) (rd : DmaRead) : Bool :=
  match rd with
  | .decant t d => (s.dec t d).fetching != []
  | .ring p => s.ringFetch p
  | .imageRef p => (s.refFetch p).isSome
  | .stage => s.cfg.flash.isSome || s.stageReading

/-- The effect of a transfer error on a read (R377). -/
def State.readFails (s : State) (rd : DmaRead) : State :=
  match rd with
  | .decant t d => s.ddError t d 1
  | .ring p => (s.ringError p).serve
  | .imageRef p => s.refAbort p
  | .stage => if s.stageReading then s.stageAbort else s.flashAbort

/-- DMA_TRANSFER_ERROR (R356, R377): AER reports what befell the completion. -/
def execDmaTransferError (f : DmaFail) (s : State) : Res :=
  let s1 := match cplAer f.how with | some b => s.aerNote b | none => s
  onlyIf (s.reading f.read) s (s1.readFails f.read)

/-! ## Resets of the host interface (R380, R466, R470, R471) -/

/-- A reset of the host interface: the rings, the decant fetches and the fetches of images, those for a flash write among them (R377,
R380). -/
def State.interfaceReset (s : State) : State := (List.range 8).foldl State.refAbort s.hostReset.flashAbort.stageAbort

/-- FUNCTION_LEVEL_RESET (R380). -/
def execFunctionLevelReset (s : State) : Res := done s.interfaceReset

/-- HOT_RESET (R380). -/
def execHotReset (s : State) : Res := done s.interfaceReset

/-- PCIE_LINK_DOWN (R380). -/
def execPcieLinkDown (s : State) : Res := done s.interfaceReset

/-- PE_PERST_ASSERT (R466): the host interface only. -/
def execPePerstAssert (s : State) : Res :=
  let s1 := s.interfaceReset
  done { s1 with pcie := { s1.pcie with perst := true } }

/-- PE_PERST_RELEASE (R471): the link trains, and its enumeration settles the maximum payload: 128, 256 or 512 bytes (R38, R354). -/
def execPePerstRelease (mps : Fin 3) (s : State) : Res :=
  done { s with pcie := { s.pcie with perst := false, payload := 128 * 2 ^ mps.val } }

/-- PE_REFCLK_LOSS (R470): the link goes down. -/
def execPeRefclkLoss (s : State) : Res := done s.interfaceReset

end Sys2Proof.Machine
end

