-- ==== Sys2Proof/Machine/Shots.lean ====
section
/-! DEFINITION. The end of a shot, by its markers and windows, by SHOT_MAX and by an abort (R52, R53, R63), and the mirror
messages that a standby applies at a shot boundary (R288). -/

namespace Sys2Proof.Machine

/-! ## Mirror messages (R288) -/

/-- A unit where this device keeps it: units of a sequencer go to the one that stands in for it here (R313, R319). -/
def State.mirrorUnit (s : State) (u : UnitWrite) : UnitWrite :=
  match unitTile u with
  | some t =>
    match (List.range 34).find? fun q => unitOfSeq t q u with
    | some q => moveUnit t q (s.target t q) u
    | none => u
  | none => u

/-- A unit of the patch store. -/
def patchUnit : UnitWrite → Bool
  | .reg a _ => match findReg a with | some (r, _) => r.reg == .ucPatchId || r.reg == .ucMatch || r.reg == .ucPatchRam | none => false
  | .mem _ _ => false

/-- The tiles that units patch. -/
def patchedTiles (us : List UnitWrite) : List Nat := ((us.filter patchUnit).filterMap unitTile).dedup

/-- The sequencers that units hold: those they write, and every sequencer of a tile they patch (R123, R304). -/
def unitSeqs (us : List UnitWrite) : List Nat :=
  ((patchedTiles us).flatMap fun t => (List.range 34).map fun q => sk t q) ++
    (us.flatMap fun u => match unitTile u with
      | some t => ((List.range 34).filter fun q => unitOfSeq t q u).map fun q => sk t q
      | none => []).dedup

/-- Units that the active device applied are applied here, at the shot boundary: the sequencers concerned are held, and preload
(R309, R313). -/
def State.mirrorApply (s : State) (us : List UnitWrite) : State :=
  let ms := us.map s.mirrorUnit
  let ks := unitSeqs ms
  ((((patchedTiles ms).foldl State.patchClear (s.idleSeqs ks)).applyUnits false ms).configTiles).backSeqs ks (s.stuckOf ks)

/-- A mirrored partial image has been applied (R311, R313, R333, R351): its keys come into force, and it counts as applied here too; one
of kind PATCH with its last tile. -/
def State.mirrorCount (s : State) (tile : Byte) (b : List Byte) : State :=
  let g := s.verified { src := .apply, bytes := b, header := imgFront b } []
  if imgKind b = 4 ∧ (imgTiles b).getLast? ≠ some tile.toNat then s
  else
    let s1 := s.installKeys g.keys
    let s2 : State := { s1 with cfg := { s1.cfg with partials := s1.cfg.partials ++ [b] } }
    ((s2.raise A.cfgSts F.cfgSts.done 1).bump A.cfgPartCnt).fire 1368

/-- A mirrored message is applied. -/
def State.mirrorDo (s : State) (m : Mirror) : State :=
  let s1 := s.mirrorApply m.units
  match m.image with
  | some (t, b) => s1.mirrorCount t b
  | none => s1

/-- The mirrored units of the shot that has just ended are applied, oldest first. -/
def State.mirrorEnd (s : State) (p : Nat) : State :=
  let num := s.reg (A.shotNum p)
  let due := s.pair2.mirrors.filter fun m => m.plot == p && m.shot == num
  let s1 : State := { s with pair2 := { s.pair2 with mirrors := s.pair2.mirrors.filter fun m => !(m.plot == p && m.shot == num) } }
  due.foldl State.mirrorDo s1

/-- The shot of plot `p` that is numbered `shot` has ended, and a later one has started. -/
def State.mirrorPast (s : State) (p : Nat) (shot : Word) : Bool :=
  let d := (s.reg (A.shotNum p) - shot).toNat
  d != 0 && decide (d < 2 ^ 31)

/-- A mirror message for shot `shot` of plot `p` (R288): at once where its boundary is here, late where it has passed or the next shot is
announced. -/
def State.mirrorIn (s : State) (p : Nat) (shot : Word) (us : List UnitWrite) (img : Option (Byte × List Byte)) : State :=
  let m : Mirror := { plot := p, shot := shot, units := us, image := img }
  let started := match s.current p with | some h => h.started | none => false
  if s.mirrorPast p shot || (s.reg (A.shotNum p) == shot && (s.current p).isSome && !started) then
    ((s.raise A.klPairSts F.klPairSts.mirrorLate 1).setFld A.klPairSts F.klPairSts.synced 0).fire 1363
  else if s.reg (A.shotNum p) = shot ∧ !started then s.mirrorDo m
  else { s with pair2 := { s.pair2 with mirrors := s.pair2.mirrors ++ [m] } }

/-- MIRROR_MSG (R288). -/
def execMirrorMsg (k : Link) (h : Block) (payload : List Block) (tr : Block) (p : Plot) (shot : Word) (units : List UnitWrite)
    (s : State) : Res :=
  let r := s.receiveBulk k 1 h payload tr
  done (if r.2 && s.isStandby then r.1.mirrorIn p shot units (Config.mirrorImage payload) else r.1)

/-! ## The end of a shot -/

/-- SHOT_END (R53, R62): in the tick of the last end marker or window close. -/
def execShotEnd (p : Plot) (s : State) : Res :=
  match s.current p with
  | some h => onlyIf (h.started && s.shotOver p && s.DT == (s.sched p).endTick) s
      (((s.endShot p h).mirrorEnd p).afterShot p)
  | none => done s

/-- SHOT_CUT (R52): at S + SHOT_MAX, unless the events of that tick end the shot. -/
def execShotCut (p : Plot) (s : State) : Res :=
  match s.current p with
  | some h => onlyIf (h.started && !s.shotOver p && !s.endsNow p && s.DT == h.start + (s.reg (A.shotMax p)).toNat) s
      (((s.cutShot p h).mirrorEnd p).afterShot p)
  | none => done s

/-- ABORT_TAKES_EFFECT (R63). -/
def execAbortTakesEffect (p : Plot) (s : State) : Res :=
  match (s.sched p).abortAt with
  | some (t, u) => onlyIf (s.DT == t) s ((s.abortNow p u).mirrorEnd p)
  | none => done s

end Sys2Proof.Machine
end

