-- ==== Sys2Proof/Machine/Startup.lean ====
section
/-! DEFINITION. Resets, start-up, the clock inputs, the board-management bus and boundary scan (R20, R44, R46, R300, R321, R460–R484). -/

namespace Sys2Proof.Machine

/-! ## What a reset keeps (R313, R324, R326, R340, R466) -/

/-- Registers that every reset keeps whole: the calendar and the event log. -/
def keptRegs : List Nat := [A.rtcSecLo, A.rtcSecHi, A.cbLogHead, A.wlFuseRem]

/-- The words of the event log. -/
def State.keptLog (s : State) : KMap Word := s.regs.filter fun e => A.cbLog 0 ≤ e.1 && e.1 < A.cbLog 0 + 0x80000

/-- Copies a field from the state before a reset. -/
def State.keepFld (s old : State) (a : Nat) (f : Fld) : State := s.setFld a f (old.fld a f)

/-- The lifecycle state, the owner slot and the debug unlock of the next reset come into force (R324, R331, R340). -/
def State.fuseState (s old : State) (debug : Bool) : State :=
  let lc := old.fld A.wlSts F.wlSts.lcNext
  let slot := topSlot old.wl.slots
  let s1 := ((s.setFld A.wlSts F.wlSts.lc lc).setFld A.wlSts F.wlSts.lcNext lc).setFld A.glbSts F.glbSts.lifecycle lc
  let s2 := (s1.setFld A.wlSts F.wlSts.debug (b2n debug)).setFld A.wlFuseRem F.wlFuseRem.ownerSlot (slot.getD 15)
  (s2.keepFld old A.wlArb F.wlArb.count).modWl fun x => { x with inForce := slot, debugNext := false }

/-- The levels that come from outside and that a reset does not change (R184, R284, R395). -/
def State.keepPins (s old : State) : State :=
  let s1 := (List.range 4).foldl (fun s q => s.keepFld old (A.bqdSts q) F.bqdSts.clrPin) s
  { s1.keepFld old A.klPairSts F.klPairSts.actNet with
    pcie := { perst := old.pcie.perst }
    tius := (List.range 34).foldl (fun m i =>
      KMap.set {} m i ({ level := (KMap.get {} old.tius i).ball, ball := (KMap.get {} old.tius i).ball } : TiuX)) []
    refLost := old.refLost
    refx := { lostAt := old.refx.lostAt } }

/-- What the slots hold after a reset (R322): a write that is cut short before it erases leaves its slot, and one that has begun to
erase leaves it EMPTY or failing CHECK. -/
def State.slotsLeft (s : State) : KMap (Option (List Byte)) :=
  match s.cfg.flash with
  | some (slot, at_) =>
    if s.tm.now < at_ + Config.flashVerify at_ then s.cfg.slots
    else
      let b := Config.flashTorn s.tm.now slot
      KMap.set none s.cfg.slots slot (some (if dirOk b && checkWordOk (slotImage b) then [] else b))
  | none => s.cfg.slots

/-- What lies in fuses, in the MRAM and in the always-on domain (R466), and in the flash. -/
def State.keepAlways (s old : State) : State :=
  { s with
    tm := { now := old.tm.now }
    aon := old.aon
    wl := { old.wl with result := none, drk := [], prk := [], serving := none }
    cal := { copyA := old.cal.copyA, copyB := old.cal.copyB }
    book := { copyA := old.book.copyA, copyB := old.book.copyB, pages := old.book.pages, savedAt := old.book.savedAt }
    power := { secondAt := old.power.secondAt }
    jtag := old.jtag
    cfg := { slots := old.slotsLeft }
    out := old.out
    readData := old.readData
    pending := old.pending }

/-- What SYS_RST_n keeps beside it (R466): the sampled straps and RWS fields. -/
def State.keepWarm (s old : State) : State :=
  let s1 := (s.setReg A.glbScratch (old.reg A.glbScratch)).keepFld old A.cfgCtl F.cfgCtl.tryB
  let s2 := (s1.keepFld old A.henSts F.henSts.reverted).keepFld old A.glbSts F.glbSts.bootSel
  let s3 := (s2.keepFld old A.glbSts F.glbSts.pairRole).keepFld old A.klPairSts F.klPairSts.role
  s3.setFld A.klId F.klId.devNum (if old.fld A.klPairSts F.klPairSts.role = 2 then 1 else 0)

/-- Every block but the always-on domain is reset (R46, R466). `por`: by POR_n or a brown-out. -/
def State.resetBlocks (s : State) (por : Bool) : State :=
  let base := ({ State.reset with regs := s.keptLog } : State).keepAlways s
  let s1 := keptRegs.foldl (fun t a => t.setReg a (s.reg a)) base
  let s2 := (s1.keepFld s A.rtcSts F.rtcSts.invalid).keepPins s
  let debug := s.wl.debugNext || (!por && s.on A.wlSts F.wlSts.debug)
  let s3 := s2.fuseState s debug
  if por then s3 else s3.keepWarm s

/-- POR_n falls, or a rail leaves its tolerance (R464, R466). -/
def State.porOn (s : State) : State :=
  let s1 := s.resetBlocks true
  { s1 with aon := { s1.aon with por := true, porLow := none, off := false, tripped := false, powerUp := true,
                                 vddIo := Config.vddIo s.tm.now } }

/-- POR_ASSERT (R466, R467): POR_n falls; the reset acts once the glitch filter has passed the pulse. -/
def execPorAssert (s : State) : Res :=
  onlyIf (!s.aon.por && s.aon.porLow.isNone) s { s with aon := { s.aon with porLow := some s.tm.now } }

/-- BROWN_OUT (R464): acts as POR_n low. The next power-up logs a power loss, but after a shutdown whose record is written (R441). -/
def execBrownOut (s : State) : Res :=
  let s1 := s.porOn
  onlyIf (!s.aon.por) s { s1 with aon := { s1.aon with open_ := !s.aon.shut } }

/-- The reset of SYS_RST_n begins to act (R466, R467): the counters are saved, but under POR_n, in a shutdown or after a hard trip. -/
def State.sysOn (s : State) : State :=
  let a := if s.aon.sys then s.aon.sysAt else s.aon.sysLow.getD s.tm.now
  if s.aon.por || s.aon.sys then { s with aon := { s.aon with sys := true, sysAt := a, sysLow := none } }
  else
    let s1 := if s.aon.off || s.shutAt.isSome || s.aon.tripped then s else s.cbSave
    let s2 := s1.resetBlocks false
    { s2 with aon := { s2.aon with sys := true, sysAt := a, sysLow := none, off := false, open_ := false } }

/-- SYS_RST_ASSERT (R467): SYS_RST_n falls; the reset acts once the glitch filter has passed the pulse. -/
def execSysRstAssert (s : State) : Res :=
  onlyIf (!s.aon.sys && s.aon.sysLow.isNone) s { s with aon := { s.aon with sysLow := some s.tm.now } }

/-- A pulse that began in tick `a` has been low for 100 ns (R467). -/
def State.filtered (s : State) (a : Option Nat) : Bool :=
  match a with
  | some a => decide (a + 250 ≤ s.tm.now)
  | none => false

/-- The resets whose pulses pass the glitch filter in the present tick act, POR_n before SYS_RST_n (R467). -/
def State.resetPins (s : State) : State :=
  let s1 := if s.filtered s.aon.porLow then s.porOn else s
  if s1.filtered s1.aon.sysLow then s1.sysOn else s1

/-! ## Start-up (R300, R321, R328, R471) -/

/-- The plot keys sealed in the MRAM come into force (R333); none under a debug unlock (R340). -/
def State.keysRestore (s : State) : State :=
  if s.on A.wlSts F.wlSts.debug then s
  else
    (List.range 8).foldl (fun s p =>
      match KMap.get none s.wl.sealed_ p with
      | none => s
      | some x =>
        ((s.setFld (A.wlPlotSts p) F.wlPlotSts.keyed 1).setFld (A.wlPlotSts p) F.wlPlotSts.keyGen x.gen).modWl fun w =>
          { w with prk := KMap.set [] w.prk p (s.unsealKey p x) }) s

/-- An open intent record is completed before the loader runs, and closed (R328); what its fuses settle is in force from this start-up on
(log entry 226). -/
def State.intentDone (s : State) : State :=
  if s.wl.intent.isNone || s.aon.tripped then s
  else
    let s1 := s.fuseDone.1.closeIntent
    (s1.fuseState s1 (s1.wl.debugNext || s1.on A.wlSts F.wlSts.debug)).setFld A.wlSts F.wlSts.lcPending 0

/-- The device root key is formed (R329). -/
def State.rootKey (s : State) : State := s.modWl fun x => { x with drk := deviceRoot }

/-- The timers of the blocks begin. -/
def State.timersStart (s : State) : State :=
  let n := s.tm.now
  { s with
    power := { s.power with meterAt := n, modelAt := n, throttleAt := n, upAt := n }
    cal := { s.cal with slotAt := (List.range 8).foldl (fun m p => KMap.set 0 m p n) [], savedAt := n, devAt := (List.range 66).foldl (fun m i => KMap.set 0 m i n) [] }
    book := { s.book with savedAt := n }
    hks := (List.range 4).foldl (fun m q => KMap.set {} m q ({ refAt := n, perAt := n } : HkX)) []
    refx := { s.refx with bootAt := n } }

/-- What a power-up records of what was before it (R441, R442, R450, R454). -/
def State.powerUpLog (s : State) : State :=
  let age := (s.tm.now - s.book.savedAt) / secTicks
  let s1 := if s.aon.open_ then s.log 0x0C 255 (leBytes 8 age) else s
  let s2 := match s1.aon.tripNew, s1.aon.latch with
    | true, some (sec, d) =>
      let t := ((s1.logAt sec 0x04 255 (leBytes 1 d)).cbAdd 4 1).raise A.aonSts F.aonSts.tripSeen 1
      { t with aon := { t.aon with tripNew := false } }
    | _, _ => s1
  (s2.cbAdd 10 1).log 0x01 255 (leBytes 4 (s.reg A.imgFallback).toNat ++ leBytes 4 (s.reg A.glbSts).toNat)

/-- The slots of a flash boot in their order (R300). -/
def slotOrder (tryB : Bool) : List ImgSrc := if tryB then [.slotB, .slotA] else [.slotA, .slotB]

/-- The loader selects by BOOT_SEL (R300): flash 00b, host or primer. A boot that uses TRY_B is a trial (R321). -/
def State.bootSelect (s : State) : State :=
  let flash := s.fld A.glbSts F.glbSts.bootSel == 0
  let tryB := flash && s.on A.cfgCtl F.cfgCtl.tryB
  let s1 := if flash then ((s.setFld A.cfgCtl F.cfgCtl.tryB 0).setFld A.imgFallback F.imgFallback.tryBBoot (b2n tryB)).setFld
      A.henSts F.henSts.trial (b2n tryB)
    else s
  { s1 with cfg := { s1.cfg with booting := true, order := if flash then slotOrder tryB else [] } }

/-- The Henone image that the directory of a slot names (R299, R321); 2: that of the ROM. -/
def State.henImage (s : State) (n : Nat) : List Byte :=
  if n = 2 then Config.henRom
  else match KMap.get none s.cfg.slots n with
    | some b => if dirOk b then slotHen b else []
    | none => Config.henFlash s.tm.now n

/-- The slot from which Henone runs (R321): 0 A, 1 B, 2 ROM. -/
def State.henSlot (s : State) : Nat :=
  let order := if s.on A.henSts F.henSts.trial then [1, 0] else [0, 1]
  (order.find? fun n => Config.henPasses (s.henImage n)).getD 2

/-- Henone runs, and the alias key follows it (R321, R329, R330). -/
def State.henStart (s : State) : State :=
  let n := s.henSlot
  let s1 := (s.setFld A.henSts F.henSts.slot n).setFld A.henSts F.henSts.version (Config.henVersion (s.henImage n)).toNat
  ({ s1 with cfg := { s1.cfg with hen := s.henImage n } } : State).aliasIssue

/-- Both reset inputs are high: the device starts (R300, R321, R328, R329, R333, R448, R450, R471). -/
def State.startUp (s : State) : State :=
  let s1 := (s.rootKey.cbRestore.calRestore).intentDone.keysRestore.newNonce
  let s2 := if s.aon.powerUp then s1.powerUpLog else s1
  let s3 := if s.aon.shut then s2.raise A.aonSts F.aonSts.shutSeen 1 else s2
  let s4 := match s.aon.invalid with | some old => s3.rtcInvalid old | none => s3
  let s5 := s4.timersStart.bootSelect.henStart
  { s5 with aon := { s5.aon with powerUp := false, open_ := true, shut := false } }

/-- The straps are sampled (R282, R460). -/
def State.straps (s : State) (bootSel pairRole : Nat) : State :=
  let s1 := (s.setFld A.glbSts F.glbSts.bootSel bootSel).setFld A.glbSts F.glbSts.pairRole pairRole
  (s1.setFld A.klPairSts F.klPairSts.role (if pairRole = 3 then 0 else pairRole)).setFld A.klId F.klId.devNum
    (if pairRole = 2 then 1 else 0)

/-- POR_RELEASE (R460, R467): boot waits for SYS_RST_n; a pulse that the glitch filter has not passed is ignored. Every rail is within
tolerance by then (R464). -/
def execPorRelease (bootSel pairRole : BitVec 2) (sysHigh : Bool) (s : State) : Res :=
  let s1 := s.straps bootSel.toNat pairRole.toNat
  let s2 : State := { s1 with aon := { s1.aon with por := false, porLow := none, sys := !sysHigh, sysLow := none, vddIo := true } }
  if s.aon.por then done (if sysHigh then s2.startUp else s2) else done { s with aon := { s.aon with porLow := none } }

/-- SYS_RST_RELEASE (R466, R467): not before the stretched pulse ends; a pulse that the glitch filter has not passed is ignored. -/
def execSysRstRelease (s : State) : Res :=
  let s1 : State := { s with aon := { s.aon with sys := false } }
  if s.aon.sys then
    onlyIf (s.aon.por || decide (s.aon.sysAt + 250 * usTicks ≤ s.tm.now)) s (if s.aon.por then s1 else s1.startUp)
  else done { s with aon := { s.aon with sysLow := none } }

/-- The bridges and bias links have trained, or not (R20, R44, R46): DT counts, and the loader begins. -/
def State.trainDone (s : State) (cbr blk : Nat) : State :=
  let s1 := (s.setFld A.glbBridgeSts F.glbBridgeSts.cbrUp cbr).setFld A.glbBridgeSts F.glbBridgeSts.blkUp blk
  let s2 : State := { s1 with cfg := { s1.cfg with trained := cbr &&& blk, bridges := cbr, links := blk } }
  ((s2.setFld A.glbSts F.glbSts.bootStage 1).setFld A.dtSts F.dtSts.running 1).nextSlot

/-- BRIDGE_TRAINING (R20, R44). -/
def execBridgeTraining (cbr blk : BitVec 4) (s : State) : Res :=
  onlyIf (s.live && !s.refLost && s.fld A.glbSts F.glbSts.bootStage == 0) s (s.trainDone cbr.toNat blk.toNat)

/-- REF_IN_BOOT_TIMEOUT (R469): 100 ms after the release the device boots with every tile disabled. -/
def execRefInBootTimeout (s : State) : Res :=
  onlyIf (s.live && s.refLost && s.fld A.glbSts F.glbSts.bootStage == 0 &&
    decide (s.refx.bootAt + 100 * msTicks ≤ s.tm.now)) s (s.trainDone 0 0)

/-- TRIAL_TIMEOUT (R321): the trial is reverted, and SYS_RST_n applied. -/
def execTrialTimeout (s : State) : Res :=
  match s.cfg.trialAt with
  | some a => onlyIf (s.live && decide (a + 30 * secTicks ≤ s.tm.now)) s ((s.raise A.henSts F.henSts.reverted 1).sysOn)
  | none => done s

/-! ## Clock inputs (R469, R470) -/

/-- What the loss of REF_IN does to a device that runs (R469): plots are aborted as by ABORT, every bias link counts as lost. -/
def State.refGone (s : State) : State :=
  let s1 := (List.range 8).foldl (fun s p => if s.stopped p then s else s.abort p) s
  let s2 := (s1.raise A.glbBridgeSts F.glbBridgeSts.cbrErr 15).setFld A.glbBridgeSts F.glbBridgeSts.cbrUp 0
  let s3 := (List.range 4).foldl (fun s q => s.fire (1280 + q)) s2
  let s4 := (List.range 4).foldl State.biasLinkLost s3
  if s.on A.klTtCfg F.klTtCfg.en && !s.on A.klTtCfg F.klTtCfg.role then s4.setFld A.dtSts F.dtSts.aligned 0 else s4

/-- REF_IN_LOSS (R469). -/
def execRefInLoss (s : State) : Res :=
  let s1 := if s.live && s.fld A.glbSts F.glbSts.bootStage != 0 then s.refGone else s
  onlyIf (!s.refLost) s { s1 with refLost := true, refx := { s1.refx with lostAt := s.tm.now } }

/-- REF_IN_RECOVERY (R469): REF_IN has been present again for 10 ms, and bridges and bias links have retrained. -/
def execRefInRecovery (s : State) : Res :=
  let s1 : State := { s with refLost := false }
  let s2 := s1.setFld A.glbBridgeSts F.glbBridgeSts.cbrUp s.cfg.bridges
  let s3 := (List.range 4).foldl (fun s q => if s.cfg.links.testBit q then (s.biasLinkUp q).hkDeliver q else s) s2
  onlyIf (s.refLost && decide (s.refx.lostAt + 10 * msTicks ≤ s.tm.now)) s (if s.live && s.fld A.glbSts F.glbSts.bootStage != 0 then s3 else s1)

/-- Link `k` loses its lane reference (R470). -/
def State.laneRefGone (s : State) (k : Nat) : State :=
  let st := s.fld (A.klSts k) F.klSts.state
  if !s.on (A.klCtl k) F.klCtl.en || st = 6 then s else ((s.linkOff k 6).downCause k 7).linkDown k

/-- LANE_REF_LOSS (R470): LANE_REF_1 clocks the Ethernet ports too. -/
def execLaneRefLoss (k : Fin 2) (s : State) : Res :=
  let s1 := (List.range 4).foldl (fun s i => s.laneRefGone (4 * k.val + i)) s
  done (if k = 1 then
    (List.range 2).foldl (fun s e => s.setFld (A.ethTsSts e) F.ethTsSts.linkUp 0) s1 else s1)

/-! ## The board-management bus (R479) -/

/-- The packet error check of SMBus: CRC-8 of x⁸ + x² + x + 1. -/
def crc8 (bs : List Byte) : Nat :=
  bs.foldl (fun c b => (List.range 8).foldl (fun c _ => if 128 ≤ c then (2 * c % 256).xor 7 else 2 * c) (c.xor b.toNat)) 0

/-- The answer to a block read of a command: the byte count, the bytes, the check over the whole transfer; none without VDD_IO (R463). -/
def State.smb (s : State) (cmd : Nat) (bytes : List Byte) : Res :=
  let b := leBytes 1 bytes.length ++ bytes
  let all := [0x9C, BitVec.ofNat 8 cmd, 0x9D] ++ b
  onlyIf s.aon.vddIo s (s.send (.smbus (b ++ leBytes 1 (crc8 all))))

/-- SMB_READ_GLB_ID (R479). -/
def execSmbReadGlbId (s : State) : Res := s.smb 0x00 (wordBytes (s.viewAt A.glbId))
/-- SMB_READ_GLB_STS (R479). -/
def execSmbReadGlbSts (s : State) : Res := s.smb 0x04 (wordBytes (s.viewAt A.glbSts))
/-- SMB_READ_TJ (R479). -/
def execSmbReadTj (s : State) : Res := s.smb 0x08 (leBytes 2 (s.viewAt A.thTj).toNat)
/-- SMB_READ_PM_TOTAL (R479). -/
def execSmbReadPmTotal (s : State) : Res := s.smb 0x0A (wordBytes (s.viewAt A.pmTotal))
/-- SMB_READ_AON_STS (R479). -/
def execSmbReadAonSts (s : State) : Res := s.smb 0x0E (wordBytes (s.viewAt A.aonSts))
/-- SMB_READ_TRIP_LATCH (R479): the calendar second of the last hard trip. -/
def execSmbReadTripLatch (s : State) : Res :=
  s.smb 0x12 (leBytes 8 (match s.aon.latch with | some (sec, _) => sec | none => 0))
/-- SMB_READ_STATE (R479): 0 running, 1 shutdown, 2 in reset. -/
def execSmbReadState (s : State) : Res :=
  s.smb 0x1A (leBytes 1 (if s.aon.por || s.aon.sys then 2 else if s.aon.off || s.shutAt.isSome then 1 else 0))

/-! ## Boundary scan (R340, R484) -/

/-- Selects an instruction; under plot enforcement only BYPASS, IDCODE and SAMPLE (R340). -/
def State.jtagSelect (s : State) (ir : Nat) : State :=
  { s with jtag := { s.jtag with ir := if s.enforce && 3 ≤ ir then 0 else ir } }

/-- What the selected instruction puts between TDI and TDO. -/
def State.jtagOut (s : State) (bits : List Bool) : State :=
  ({ s with jtag := { s.jtag with capture := bits } } : State).send (.tap bits)

/-- The bits of a number, lowest first. -/
def bitList (n v : Nat) : List Bool := (List.range n).map v.testBit

/-- IDCODE: STEP[3:0], the part number, the manufacturer, 1 (R484). -/
def State.idcode (s : State) : Nat :=
  (s.fld A.glbId F.glbId.stepF) % 16 * 2 ^ 28 + 0x256 * 2 ^ 12 + Config.jtagMaker.toNat * 2 + 1

/-- JTAG_BYPASS (R484). -/
def execJtagBypass (s : State) : Res := done ((s.jtagSelect 0).jtagOut [false])
/-- JTAG_IDCODE (R484). -/
def execJtagIdcode (s : State) : Res := done ((s.jtagSelect 1).jtagOut (bitList 32 s.idcode))
/-- JTAG_SAMPLE (R484). -/
def execJtagSample (balls : List Bool) (s : State) : Res := done ((s.jtagSelect 2).jtagOut balls)

/-- An instruction that enforcement turns into BYPASS; else it acts on the boundary cells. -/
def State.jtagCells (s : State) (ir : Nat) (cells : List Bool) : State :=
  if s.enforce then (s.jtagSelect ir).jtagOut [false]
  else
    let s1 := s.jtagSelect ir
    ({ s1 with jtag := { s1.jtag with cells := cells } } : State).jtagOut (if ir = 5 ∨ ir = 6 then [false] else cells)

/-- JTAG_PRELOAD (R484). -/
def execJtagPreload (cells : List Bool) (s : State) : Res := done (s.jtagCells 3 cells)
/-- JTAG_EXTEST (R484). -/
def execJtagExtest (s : State) : Res := done (s.jtagCells 4 s.jtag.cells)
/-- JTAG_CLAMP (R484): the cells drive the balls, and the bypass register lies between TDI and TDO. -/
def execJtagClamp (s : State) : Res := done (s.jtagCells 5 s.jtag.cells)
/-- JTAG_HIGHZ (R484). -/
def execJtagHighz (s : State) : Res := done (s.jtagCells 6 s.jtag.cells)
/-- JTAG_EXTEST_PULSE (R484). -/
def execJtagExtestPulse (s : State) : Res := done (s.jtagCells 7 s.jtag.cells)
/-- JTAG_EXTEST_TRAIN (R484). -/
def execJtagExtestTrain (s : State) : Res := done (s.jtagCells 8 s.jtag.cells)

end Sys2Proof.Machine
end

