-- ==== Sys2Proof/Machine/Dispatch.lean ====
section
/-! DEFINITION. One arm for each command: the direct call of its meaning. -/

namespace Sys2Proof.Machine

def exec (i : Instr) (s : State) : Host.Outcome State Fault Refusal :=
  match i with
  | .registerWrite win off size w => Sys2Proof.Machine.execRegisterWrite win off size w s
  | .snapshotRead win off size => Sys2Proof.Machine.execSnapshotRead win off size s
  | .readToClear win off size => Sys2Proof.Machine.execReadToClear win off size s
  | .glbErrAddrClear => Sys2Proof.Machine.execGlbErrAddrClear s
  | .memWindowWrite off data => Sys2Proof.Machine.execMemWindowWrite off data s
  | .muteAll on => Sys2Proof.Machine.execMuteAll on s
  | .drainAll mute => Sys2Proof.Machine.execDrainAll mute s
  | .bridgeTraining cbr blk => Sys2Proof.Machine.execBridgeTraining cbr blk s
  | .bridgeParityError q outs adc => Sys2Proof.Machine.execBridgeParityError q outs adc s
  | .biasFrameCrcFail q f => Sys2Proof.Machine.execBiasFrameCrcFail q f s
  | .biasLinkLost q => Sys2Proof.Machine.execBiasLinkLost q s
  | .biasLinkRetrain q => Sys2Proof.Machine.execBiasLinkRetrain q s
  | .dtArmNow w => Sys2Proof.Machine.execDtArmNow w s
  | .dtArmPps w => Sys2Proof.Machine.execDtArmPps w s
  | .dtLoadCancel w => Sys2Proof.Machine.execDtLoadCancel w s
  | .dtLoad => Sys2Proof.Machine.execDtLoad s
  | .runStart p w => Sys2Proof.Machine.execRunStart p w s
  | .runDrain p w => Sys2Proof.Machine.execRunDrain p w s
  | .runAbort p w => Sys2Proof.Machine.execRunAbort p w s
  | .clrCount p w => Sys2Proof.Machine.execClrCount p w s
  | .abortTakesEffect p => Sys2Proof.Machine.execAbortTakesEffect p s
  | .shotTrigger j rising => Sys2Proof.Machine.execShotTrigger j rising s
  | .shotEnd p => Sys2Proof.Machine.execShotEnd p s
  | .nextStartFix p => Sys2Proof.Machine.execNextStartFix p s
  | .shotAnnounce p => Sys2Proof.Machine.execShotAnnounce p s
  | .shotStart p => Sys2Proof.Machine.execShotStart p s
  | .shotCut p => Sys2Proof.Machine.execShotCut p s
  | .shotRecordWrite p => Sys2Proof.Machine.execShotRecordWrite p s
  | .tqEntryArrival t q => Sys2Proof.Machine.execTqEntryArrival t q s
  | .queueStallEnd t q cyc => Sys2Proof.Machine.execQueueStallEnd t q cyc s
  | .endMarkerExecute t q => Sys2Proof.Machine.execEndMarkerExecute t q s
  | .nop t q e => Sys2Proof.Machine.execNop t q e s
  | .endI t q e => Sys2Proof.Machine.execEnd t q e s
  | .br t q e => Sys2Proof.Machine.execBr t q e s
  | .brmw t q e => Sys2Proof.Machine.execBrmw t q e s
  | .brmwDecisionValid t q cyc => Sys2Proof.Machine.execBrmwDecisionValid t q cyc s
  | .brmwDeadline t q cyc => Sys2Proof.Machine.execBrmwDeadline t q cyc s
  | .loop t q e => Sys2Proof.Machine.execLoop t q e s
  | .sync t q e => Sys2Proof.Machine.execSync t q e s
  | .syncRelease p b => Sys2Proof.Machine.execSyncRelease p b s
  | .evt t q e => Sys2Proof.Machine.execEvt t q e s
  | .wait t q e => Sys2Proof.Machine.execWait t q e s
  | .waituntil t q e => Sys2Proof.Machine.execWaituntil t q e s
  | .play t q e => Sys2Proof.Machine.execPlay t q e s
  | .arm t q e => Sys2Proof.Machine.execArm t q e s
  | .mark t q e => Sys2Proof.Machine.execMark t q e s
  | .vec t q e => Sys2Proof.Machine.execVec t q e s
  | .meas t q e => Sys2Proof.Machine.execMeas t q e s
  | .biasq t q e => Sys2Proof.Machine.execBiasq t q e s
  | .freq t q e => Sys2Proof.Machine.execFreq t q e s
  | .phase t q e => Sys2Proof.Machine.execPhase t q e s
  | .add t q e => Sys2Proof.Machine.execAdd t q e s
  | .sub t q e => Sys2Proof.Machine.execSub t q e s
  | .and t q e => Sys2Proof.Machine.execAnd t q e s
  | .or t q e => Sys2Proof.Machine.execOr t q e s
  | .xor t q e => Sys2Proof.Machine.execXor t q e s
  | .shl t q e => Sys2Proof.Machine.execShl t q e s
  | .shr t q e => Sys2Proof.Machine.execShr t q e s
  | .sra t q e => Sys2Proof.Machine.execSra t q e s
  | .mul t q e => Sys2Proof.Machine.execMul t q e s
  | .movi t q e => Sys2Proof.Machine.execMovi t q e s
  | .rdsp t q e => Sys2Proof.Machine.execRdsp t q e s
  | .ld t q e => Sys2Proof.Machine.execLd t q e s
  | .st t q e => Sys2Proof.Machine.execSt t q e s
  | .clrFault t q w => Sys2Proof.Machine.execClrFault t q w s
  | .seqCtlWrite t q w => Sys2Proof.Machine.execSeqCtlWrite t q w s
  | .playExecute t q => Sys2Proof.Machine.execPlayExecute t q s
  | .jumpRequest t q => Sys2Proof.Machine.execJumpRequest t q s
  | .jumpTakeEffect t q => Sys2Proof.Machine.execJumpTakeEffect t q s
  | .segmentEnd t q => Sys2Proof.Machine.execSegmentEnd t q s
  | .armSelect t q => Sys2Proof.Machine.execArmSelect t q s
  | .armExecute t q => Sys2Proof.Machine.execArmExecute t q s
  | .markExecute t q => Sys2Proof.Machine.execMarkExecute t q s
  | .markPulseEnd t m => Sys2Proof.Machine.execMarkPulseEnd t m s
  | .vecExecute t q => Sys2Proof.Machine.execVecExecute t q s
  | .vecPulseEnd t v => Sys2Proof.Machine.execVecPulseEnd t v s
  | .freqExecute t q => Sys2Proof.Machine.execFreqExecute t q s
  | .phaseExecute t q => Sys2Proof.Machine.execPhaseExecute t q s
  | .evtExecute t q => Sys2Proof.Machine.execEvtExecute t q s
  | .biasqExecute t q => Sys2Proof.Machine.execBiasqExecute t q s
  | .partitionWrite t j w => Sys2Proof.Machine.execPartitionWrite t j w s
  | .segEntryWrite t n hi w => Sys2Proof.Machine.execSegEntryWrite t n hi w s
  | .markerCfgWrite t m vl w => Sys2Proof.Machine.execMarkerCfgWrite t m vl w s
  | .decantEnable t d w => Sys2Proof.Machine.execDecantEnable t d w s
  | .decantReprime t d w => Sys2Proof.Machine.execDecantReprime t d w s
  | .ddDescWrite t d which w => Sys2Proof.Machine.execDdDescWrite t d which w s
  | .decantChunkArrival t d samples tag => Sys2Proof.Machine.execDecantChunkArrival t d samples tag s
  | .decantChunkRelease t d => Sys2Proof.Machine.execDecantChunkRelease t d s
  | .decantUnderrun t d => Sys2Proof.Machine.execDecantUnderrun t d s
  | .decantTransferError t d => Sys2Proof.Machine.execDecantTransferError t d s
  | .fluxCoefWrite t f off w => Sys2Proof.Machine.execFluxCoefWrite t f off w s
  | .biasUpdateInstant q j mon => Sys2Proof.Machine.execBiasUpdateInstant q j mon s
  | .biasEntryArrival q j n => Sys2Proof.Machine.execBiasEntryArrival q j n s
  | .bqHostWrite t b w => Sys2Proof.Machine.execBqHostWrite t b w s
  | .biasRegWrite q j off w => Sys2Proof.Machine.execBiasRegWrite q j off w s
  | .genRun q j w => Sys2Proof.Machine.execGenRun q j w s
  | .complianceTrip q j => Sys2Proof.Machine.execComplianceTrip q j s
  | .compClr q j w => Sys2Proof.Machine.execCompClr q j w s
  | .biasClrAssert q => Sys2Proof.Machine.execBiasClrAssert q s
  | .biasClrRelease q => Sys2Proof.Machine.execBiasClrRelease q s
  | .spanWrite q j w => Sys2Proof.Machine.execSpanWrite q j w s
  | .parkSettleEnd q j => Sys2Proof.Machine.execParkSettleEnd q j s
  | .riBandWrite t w => Sys2Proof.Machine.execRiBandWrite t w s
  | .readoutSetWrite t p r k w => Sys2Proof.Machine.execReadoutSetWrite t p r k w s
  | .windowOpen t q => Sys2Proof.Machine.execWindowOpen t q s
  | .windowClose t p sh => Sys2Proof.Machine.execWindowClose t p sh s
  | .thrLoopEnable t p d w => Sys2Proof.Machine.execThrLoopEnable t p d w s
  | .dbUnfreeze t p d w => Sys2Proof.Machine.execDbUnfreeze t p d w s
  | .toneTrackEnable t p w => Sys2Proof.Machine.execToneTrackEnable t p w s
  | .ttUnfreeze t p w => Sys2Proof.Machine.execTtUnfreeze t p w s
  | .resultRingWrite p => Sys2Proof.Machine.execResultRingWrite p s
  | .decisionReleaseTile n => Sys2Proof.Machine.execDecisionReleaseTile n s
  | .decisionReleaseDevice n => Sys2Proof.Machine.execDecisionReleaseDevice n s
  | .parityFire u => Sys2Proof.Machine.execParityFire u s
  | .remoteRelease r => Sys2Proof.Machine.execRemoteRelease r s
  | .parityUnitCfgWrite u which w => Sys2Proof.Machine.execParityUnitCfgWrite u which w s
  | .keyBitWrite t ks j w => Sys2Proof.Machine.execKeyBitWrite t ks j w s
  | .remoteMapWrite r w => Sys2Proof.Machine.execRemoteMapWrite r w s
  | .exportWrite n w => Sys2Proof.Machine.execExportWrite n w s
  | .linkEnable k w => Sys2Proof.Machine.execLinkEnable k w s
  | .linkRetrain k w => Sys2Proof.Machine.execLinkRetrain k w s
  | .trainPhaseDone k lanes pol array dev plink map => Sys2Proof.Machine.execTrainPhaseDone k lanes pol array dev plink map s
  | .trainAttemptTimeout k => Sys2Proof.Machine.execTrainAttemptTimeout k s
  | .backoffExpiry k => Sys2Proof.Machine.execBackoffExpiry k s
  | .autoretryAttempt k => Sys2Proof.Machine.execAutoretryAttempt k s
  | .laneLockLoss k j hdrs => Sys2Proof.Machine.execLaneLockLoss k j hdrs s
  | .laneRejoin k j pol => Sys2Proof.Machine.execLaneRejoin k j pol s
  | .fillerRowSend k => Sys2Proof.Machine.execFillerRowSend k s
  | .fillerRowReceive k depth => Sys2Proof.Machine.execFillerRowReceive k depth s
  | .decisionMsgReceive k b0 b1 => Sys2Proof.Machine.execDecisionMsgReceive k b0 b1 s
  | .ttRequestSend frac => Sys2Proof.Machine.execTtRequestSend frac s
  | .ttMsgReceive k b0 b1 b2 frac frac3 => Sys2Proof.Machine.execTtMsgReceive k b0 b1 b2 frac frac3 s
  | .mgmtMsg k h payload tr => Sys2Proof.Machine.execMgmtMsg k h payload tr s
  | .mirrorMsg k h payload tr p shot units => Sys2Proof.Machine.execMirrorMsg k h payload tr p shot units s
  | .coordMsg k h payload tr p check gap ticks cal thr next => Sys2Proof.Machine.execCoordMsg k h payload tr p check gap ticks cal thr next s
  | .heartbeatMsg k h payload tr active synced dt => Sys2Proof.Machine.execHeartbeatMsg k h payload tr active synced dt s
  | .linkAck k b => Sys2Proof.Machine.execLinkAck k b s
  | .linkNak k b => Sys2Proof.Machine.execLinkNak k b s
  | .replayFailure k => Sys2Proof.Machine.execReplayFailure k s
  | .laneMap k b => Sys2Proof.Machine.execLaneMap k b s
  | .idleReq k b => Sys2Proof.Machine.execIdleReq k b s
  | .idleAck k b => Sys2Proof.Machine.execIdleAck k b s
  | .idleLpExit k relocked burst => Sys2Proof.Machine.execIdleLpExit k relocked burst s
  | .prbsInject k j w => Sys2Proof.Machine.execPrbsInject k j w s
  | .bitSlip k j w => Sys2Proof.Machine.execBitSlip k j w s
  | .routeWrite j w => Sys2Proof.Machine.execRouteWrite j w s
  | .fwdWrite d w => Sys2Proof.Machine.execFwdWrite d w s
  | .pairEnable w => Sys2Proof.Machine.execPairEnable w s
  | .hbLost => Sys2Proof.Machine.execHbLost s
  | .takeOver w => Sys2Proof.Machine.execTakeOver w s
  | .standDown w => Sys2Proof.Machine.execStandDown w s
  | .pairChangeEffect => Sys2Proof.Machine.execPairChangeEffect s
  | .pairChangeTimeout => Sys2Proof.Machine.execPairChangeTimeout s
  | .pairActSense level boundary => Sys2Proof.Machine.execPairActSense level boundary s
  | .imageLoad w => Sys2Proof.Machine.execImageLoad w s
  | .imageApply w => Sys2Proof.Machine.execImageApply w s
  | .imageCancel w => Sys2Proof.Machine.execImageCancel w s
  | .cfgSeal w => Sys2Proof.Machine.execCfgSeal w s
  | .imageFetchDone bytes sfdp => Sys2Proof.Machine.execImageFetchDone bytes sfdp s
  | .imageVerifyDone units => Sys2Proof.Machine.execImageVerifyDone units s
  | .bootImageApply => Sys2Proof.Machine.execBootImageApply s
  | .partialHold => Sys2Proof.Machine.execPartialHold s
  | .partialStoppedApply => Sys2Proof.Machine.execPartialStoppedApply s
  | .partialHoldEnd => Sys2Proof.Machine.execPartialHoldEnd s
  | .seqFailed t q selfTest => Sys2Proof.Machine.execSeqFailed t q selfTest s
  | .placement t bad => Sys2Proof.Machine.execPlacement t bad s
  | .henConfirm => Sys2Proof.Machine.execHenConfirm s
  | .trialTimeout => Sys2Proof.Machine.execTrialTimeout s
  | .henRestart => Sys2Proof.Machine.execHenRestart s
  | .flashWrite slot => Sys2Proof.Machine.execFlashWrite slot s
  | .flashWriteDone reason bytes => Sys2Proof.Machine.execFlashWriteDone reason bytes s
  | .takeOwnership w => Sys2Proof.Machine.execTakeOwnership w s
  | .rotateOwner w => Sys2Proof.Machine.execRotateOwner w s
  | .retire w => Sys2Proof.Machine.execRetire w s
  | .debugUnlock w => Sys2Proof.Machine.execDebugUnlock w s
  | .zeroisePlot w => Sys2Proof.Machine.execZeroisePlot w s
  | .arbCommit => Sys2Proof.Machine.execArbCommit s
  | .commandDoorbell p w => Sys2Proof.Machine.execCommandDoorbell p w s
  | .rspConsWrite p w => Sys2Proof.Machine.execRspConsWrite p w s
  | .rrConsWrite p w => Sys2Proof.Machine.execRrConsWrite p w s
  | .ringEnable p ring w => Sys2Proof.Machine.execRingEnable p ring w s
  | .cmdRingRestart p => Sys2Proof.Machine.execCmdRingRestart p s
  | .capsuleFetch p header => Sys2Proof.Machine.execCapsuleFetch p header s
  | .capsuleAuthDone p cipher tag => Sys2Proof.Machine.execCapsuleAuthDone p cipher tag s
  | .capsuleNop p => Sys2Proof.Machine.execCapsuleNop p s
  | .regWrite p => Sys2Proof.Machine.execRegWrite p s
  | .regRead p => Sys2Proof.Machine.execRegRead p s
  | .memWrite p => Sys2Proof.Machine.execMemWrite p s
  | .memRead p => Sys2Proof.Machine.execMemRead p s
  | .imageInline p => Sys2Proof.Machine.execImageInline p s
  | .imageRef p => Sys2Proof.Machine.execImageRef p s
  | .imageRefFetchDone p bytes => Sys2Proof.Machine.execImageRefFetchDone p bytes s
  | .waitState p => Sys2Proof.Machine.execWaitState p s
  | .waitStateReached p => Sys2Proof.Machine.execWaitStateReached p s
  | .waitStateTimeout p => Sys2Proof.Machine.execWaitStateTimeout p s
  | .batchSignDone p => Sys2Proof.Machine.execBatchSignDone p s
  | .writeback p => Sys2Proof.Machine.execWriteback p s
  | .resultIrqTimer p => Sys2Proof.Machine.execResultIrqTimer p s
  | .dmaTransferError f => Sys2Proof.Machine.execDmaTransferError f s
  | .d3hotEntry => Sys2Proof.Machine.execD3hotEntry s
  | .d0Return => Sys2Proof.Machine.execD0Return s
  | .functionLevelReset => Sys2Proof.Machine.execFunctionLevelReset s
  | .hotReset => Sys2Proof.Machine.execHotReset s
  | .pcieLinkDown => Sys2Proof.Machine.execPcieLinkDown s
  | .pePerstAssert => Sys2Proof.Machine.execPePerstAssert s
  | .spdmGetVersion => Sys2Proof.Machine.execSpdmGetVersion s
  | .spdmGetCapabilities => Sys2Proof.Machine.execSpdmGetCapabilities s
  | .spdmNegotiateAlgorithms => Sys2Proof.Machine.execSpdmNegotiateAlgorithms s
  | .spdmGetDigests => Sys2Proof.Machine.execSpdmGetDigests s
  | .spdmGetCertificate slot => Sys2Proof.Machine.execSpdmGetCertificate slot s
  | .spdmChallenge slot nonce => Sys2Proof.Machine.execSpdmChallenge slot nonce s
  | .spdmGetMeasurements index nonce => Sys2Proof.Machine.execSpdmGetMeasurements index nonce s
  | .spdmKeyExchange exchange => Sys2Proof.Machine.execSpdmKeyExchange exchange s
  | .spdmFinish sess ok => Sys2Proof.Machine.execSpdmFinish sess ok s
  | .spdmKeyUpdate sess => Sys2Proof.Machine.execSpdmKeyUpdate sess s
  | .spdmHeartbeat sess => Sys2Proof.Machine.execSpdmHeartbeat sess s
  | .spdmEndSession sess => Sys2Proof.Machine.execSpdmEndSession sess s
  | .spdmSetCertificate slot chain => Sys2Proof.Machine.execSpdmSetCertificate slot chain s
  | .ideKmProgram sess stream key => Sys2Proof.Machine.execIdeKmProgram sess stream key s
  | .ptpRateCommit w => Sys2Proof.Machine.execPtpRateCommit w s
  | .ptpOffsetSubmit w => Sys2Proof.Machine.execPtpOffsetSubmit w s
  | .ptpCorrectionApply => Sys2Proof.Machine.execPtpCorrectionApply s
  | .slewEnd => Sys2Proof.Machine.execSlewEnd s
  | .ptpRearm => Sys2Proof.Machine.execPtpRearm s
  | .ptpEpochCommit w => Sys2Proof.Machine.execPtpEpochCommit w s
  | .ptpWrap => Sys2Proof.Machine.execPtpWrap s
  | .epochStale => Sys2Proof.Machine.execEpochStale s
  | .ptpFrameRx e m seqId port sub => Sys2Proof.Machine.execPtpFrameRx e m seqId port sub s
  | .ptpFrameTx e m seqId port sub => Sys2Proof.Machine.execPtpFrameTx e m seqId port sub s
  | .tsRead e tx => Sys2Proof.Machine.execTsRead e tx s
  | .launchPush e frame t => Sys2Proof.Machine.execLaunchPush e frame t s
  | .launch e busy => Sys2Proof.Machine.execLaunch e busy s
  | .clrHalt e w => Sys2Proof.Machine.execClrHalt e w s
  | .xtsGo w => Sys2Proof.Machine.execXtsGo w s
  | .ppsOutPulse => Sys2Proof.Machine.execPpsOutPulse s
  | .ppsInEdge ed => Sys2Proof.Machine.execPpsInEdge ed s
  | .ptmDialogue master => Sys2Proof.Machine.execPtmDialogue master s
  | .tiuEdge j ed => Sys2Proof.Machine.execTiuEdge j ed s
  | .holdoffExpiry j level => Sys2Proof.Machine.execHoldoffExpiry j level s
  | .tiuGo m w => Sys2Proof.Machine.execTiuGo m w s
  | .tiuStop m w => Sys2Proof.Machine.execTiuStop m w s
  | .tiuEngineDone m => Sys2Proof.Machine.execTiuEngineDone m s
  | .tiuTimeout m => Sys2Proof.Machine.execTiuTimeout m s
  | .tiuGateEnd m => Sys2Proof.Machine.execTiuGateEnd m s
  | .exportDatagramClose p full => Sys2Proof.Machine.execExportDatagramClose p full s
  | .eventFire srcs => Sys2Proof.Machine.execEventFire srcs s
  | .evfFire w mgmt => Sys2Proof.Machine.execEvfFire w mgmt s
  | .alertRelease => Sys2Proof.Machine.execAlertRelease s
  | .hkGo q w => Sys2Proof.Machine.execHkGo q w s
  | .hkStop q w => Sys2Proof.Machine.execHkStop q w s
  | .hkUrgGo q w => Sys2Proof.Machine.execHkUrgGo q w s
  | .hkCfgWrite q w => Sys2Proof.Machine.execHkCfgWrite q w s
  | .hkConversionDone q v => Sys2Proof.Machine.execHkConversionDone q v s
  | .hkPassGapExpiry q => Sys2Proof.Machine.execHkPassGapExpiry q s
  | .hkRefReady q => Sys2Proof.Machine.execHkRefReady q s
  | .hkRefFault q => Sys2Proof.Machine.execHkRefFault q s
  | .sensOpenDetect q => Sys2Proof.Machine.execSensOpenDetect q s
  | .sensCheckGo q w => Sys2Proof.Machine.execSensCheckGo q w s
  | .sensCheckPeriod q => Sys2Proof.Machine.execSensCheckPeriod q s
  | .sensCheckDone q k ohms ph => Sys2Proof.Machine.execSensCheckDone q k ohms ph s
  | .powerMeterUpdate mw mv ma => Sys2Proof.Machine.execPowerMeterUpdate mw mv ma s
  | .thermalModelUpdate up => Sys2Proof.Machine.execThermalModelUpdate up s
  | .throttleEval => Sys2Proof.Machine.execThrottleEval s
  | .thermalAnchor => Sys2Proof.Machine.execThermalAnchor s
  | .hostShutdown => Sys2Proof.Machine.execHostShutdown s
  | .shutdownPowerOff => Sys2Proof.Machine.execShutdownPowerOff s
  | .hardTrip diode => Sys2Proof.Machine.execHardTrip diode s
  | .avsStep d margin => Sys2Proof.Machine.execAvsStep d margin s
  | .avsEmergency d margin => Sys2Proof.Machine.execAvsEmergency d margin s
  | .avsRequestRetry ack => Sys2Proof.Machine.execAvsRequestRetry ack s
  | .islandClockStep t j code margin => Sys2Proof.Machine.execIslandClockStep t j code margin s
  | .clockStretch t j => Sys2Proof.Machine.execClockStretch t j s
  | .converterPowerDown t c o => Sys2Proof.Machine.execConverterPowerDown t c o s
  | .converterWake t c o => Sys2Proof.Machine.execConverterWake t c o s
  | .skimSlot p results => Sys2Proof.Machine.execSkimSlot p results s
  | .calTimerExpiry p => Sys2Proof.Machine.execCalTimerExpiry p s
  | .deviceCalTask task r => Sys2Proof.Machine.execDeviceCalTask task r s
  | .calStoreSave => Sys2Proof.Machine.execCalStoreSave s
  | .bootCalibration tiles tiu lanes => Sys2Proof.Machine.execBootCalibration tiles tiu lanes s
  | .cbSave => Sys2Proof.Machine.execCbSave s
  | .cbSaveRequest => Sys2Proof.Machine.execCbSaveRequest s
  | .rtcSet => Sys2Proof.Machine.execRtcSet s
  | .vbatLoss => Sys2Proof.Machine.execVbatLoss s
  | .porAssert => Sys2Proof.Machine.execPorAssert s
  | .porRelease bootSel pairRole sysHigh => Sys2Proof.Machine.execPorRelease bootSel pairRole sysHigh s
  | .sysRstAssert => Sys2Proof.Machine.execSysRstAssert s
  | .sysRstRelease => Sys2Proof.Machine.execSysRstRelease s
  | .brownOut => Sys2Proof.Machine.execBrownOut s
  | .refInLoss => Sys2Proof.Machine.execRefInLoss s
  | .refInRecovery => Sys2Proof.Machine.execRefInRecovery s
  | .refInBootTimeout => Sys2Proof.Machine.execRefInBootTimeout s
  | .laneRefLoss k => Sys2Proof.Machine.execLaneRefLoss k s
  | .peRefclkLoss => Sys2Proof.Machine.execPeRefclkLoss s
  | .smbReadGlbId => Sys2Proof.Machine.execSmbReadGlbId s
  | .smbReadGlbSts => Sys2Proof.Machine.execSmbReadGlbSts s
  | .smbReadTj => Sys2Proof.Machine.execSmbReadTj s
  | .smbReadPmTotal => Sys2Proof.Machine.execSmbReadPmTotal s
  | .smbReadAonSts => Sys2Proof.Machine.execSmbReadAonSts s
  | .smbReadTripLatch => Sys2Proof.Machine.execSmbReadTripLatch s
  | .smbReadState => Sys2Proof.Machine.execSmbReadState s
  | .jtagBypass => Sys2Proof.Machine.execJtagBypass s
  | .jtagIdcode => Sys2Proof.Machine.execJtagIdcode s
  | .jtagSample balls => Sys2Proof.Machine.execJtagSample balls s
  | .jtagPreload cells => Sys2Proof.Machine.execJtagPreload cells s
  | .jtagExtest => Sys2Proof.Machine.execJtagExtest s
  | .jtagClamp => Sys2Proof.Machine.execJtagClamp s
  | .jtagHighz => Sys2Proof.Machine.execJtagHighz s
  | .jtagExtestPulse => Sys2Proof.Machine.execJtagExtestPulse s
  | .jtagExtestTrain => Sys2Proof.Machine.execJtagExtestTrain s
  | .heartbeatSend => Sys2Proof.Machine.execHeartbeatSend s
  | .pePerstRelease mps => Sys2Proof.Machine.execPePerstRelease mps s
  | .busMasterEnableWrite c => Sys2Proof.Machine.execBusMasterEnableWrite c s
  | .ethLinkChange e up speed => Sys2Proof.Machine.execEthLinkChange e up speed s
  | .converterAwake t c o => Sys2Proof.Machine.execConverterAwake t c o s
  | .henoneRestartDone => Sys2Proof.Machine.execHenoneRestartDone s
  | .mailboxCommandDone => Sys2Proof.Machine.execMailboxCommandDone s

end Sys2Proof.Machine
end

