-- ==== Sys2Proof/Machine/Tick.lean ====
section
/-! DEFINITION. What every tick brings, whatever is commanded: the datapaths, the clocks and the periodic loops. It is what a step
does when no command waits. -/

namespace Sys2Proof.Machine

/-! ## The RF outputs (R126, R144, R145, R193) -/

/-- What path `n` of tile `t` hands to interpolation in the present tick: the scaled envelope, its phase and frequency word. -/
def State.envNow (s : State) (t n : Nat) : Int × Int × Nat × Nat :=
  let halted := match s.feeder t n, s.relTile t with
    | some q, some r => s.haltedAt t q r
    | _, _ => false
  match (s.chan t n).playing, s.sampleAt t n with
  | some pl, some w =>
    if halted then (0, 0, 0, 0)
    else
      let mk := s.on (A.segLo t pl.seg) F.segLo.mkEn
      let part := fun (v : Nat) => scaled (sext 16 (if mk then v / 2 * 2 else v)) pl.amp
      (part (w.toNat % 2 ^ 16), part (w.toNat / 2 ^ 16), s.phaseAt t n pl.slot 0, (s.freqWord t n pl.slot).toNat)
  | _, _ => (0, 0, 0, 0)

/-- The recent envelope of a path. -/
def State.env (s : State) (t n : Nat) : List (Int × Int × Nat × Nat) := KMap.get [] s.envs (16 * t + n)

/-- A tick without envelope. -/
def envZero (e : Int × Int × Nat × Nat) : Bool := e.1 == 0 && e.2.1 == 0

/-- The present tick enters the recent envelope of a path. -/
def State.envTick (s : State) (t n : Nat) : State :=
  let l := ((s.envNow t n :: s.env t n).take 23).reverse.dropWhile envZero
  { s with envs := KMap.set [] s.envs (16 * t + n) l.reverse }

/-- The frame contribution of interpolated components at a phase in units of 2⁻⁴⁸ turn (R144): I″ cos 2πθ − Q″ sin 2πθ with θ cut to 24
bits; a full-scale real envelope gives full DAC scale, 14 bits, or half of it with HALF (R145). -/
def mix (half : Bool) (i q : Int) (phase : Nat) : Int :=
  let th := BitVec.ofNat 48 (phase / 2 ^ 24 * 2 ^ 24)
  divOpen (i * cosTab 0 th - q * sinTab 0 th) (if half then 2 ^ 20 else 2 ^ 19)

/-- Tap `m` of the interpolation filter for RF DAC sample `j`: its taps have the sum 1, so that a constant envelope passes as it is
(R127; log entry 12). -/
def interpTap (j m : Nat) : Int :=
  if m = 18 then 2 ^ 16 - (((List.range 24).filter (· != 18)).map fun k => (Config.interpTap j k).toInt).sum
  else (Config.interpTap j m).toInt

/-- A component of the envelope at RF DAC sample `j` of the frame-sum stage (R126, R127): the filter over the last 24 ticks. -/
def interp (env : List Int) (j : Nat) : Int :=
  clampI (-32768) 32767 (divOpen ((env.zipIdx.map fun e => interpTap j e.2 * e.1).sum) (2 ^ 16))

/-- The contribution of a path to its output at RF DAC sample `j` of the frame-sum stage (R126, R144): that of the samples that entered
playout 18 ticks ago, none without an envelope. -/
def State.contribution (s : State) (half : Bool) (t n j : Nat) : Int :=
  let l := s.envNow t n :: s.env t n
  if l.all envZero then 0
  else
    let e := l.getD 18 (0, 0, 0, 0)
    mix half (interp (l.map fun e => e.1) j) (interp (l.map fun e => e.2.1) j) ((e.2.2.1 + e.2.2.2 * j) % 2 ^ 48)

/-- The sum of paths at sample `j`. -/
def State.frameSum (s : State) (half : Bool) (t j : Nat) (ns : List Nat) : Int :=
  (ns.map fun n => s.contribution half t n j).sum

/-- A sum that the clamp to the 14-bit range changes. -/
def clamps (x : Int) : Bool := x < -8192 || 8191 < x

/-- The sum of the two frames of XY output `o` at sample `j` (R145). -/
def State.xySum (s : State) (t o j : Nat) : Int := s.frameSum (s.on (A.xoCfg t o) F.xoCfg.half) t j [2 * o, 2 * o + 1]

/-- The sum of the eight tones of the probe output at sample `j`, shifted (R193). -/
def State.probeSum (s : State) (t j : Nat) : Int :=
  (s.frameSum false t j ((List.range 8).map fun p => 8 + p)) >>> (s.fld (A.poCfg t) F.poCfg.sumShift)

/-- RF output `o` of tile `t` carries zero code whatever plays: under a mute, while it is calibrated or while it is powered down (R146,
R432, R444). -/
def State.zeroed (s : State) (t o : Nat) : Bool :=
  s.muted t o || s.slotTask t == some o || s.slotTask t == some (5 + o) ||
    ((s.conv t o).st == 1 && decide ((s.conv t o).at_ + 2500 ≤ s.DT)) || (s.conv t o).st == 2

/-- The 14-bit codes that XY output `o` carries in a tick's eight RF DAC samples at the frame-sum stage: the clamped sum, or zero code
while it is zeroed (R126, R145, R146). -/
def State.xyCode (s : State) (t o j : Nat) : Int := if s.zeroed t o then 0 else clampI (-8192) 8191 (s.xySum t o j)

/-- The code of the probe output likewise (R193). -/
def State.probeCode (s : State) (t j : Nat) : Int := if s.zeroed t 4 then 0 else clampI (-8192) 8191 (s.probeSum t j)

/-- The clamp of XY output `o` (R145). -/
def State.xyClip (s : State) (t o : Nat) : State :=
  if (List.range 8).any fun j => clamps (s.xySum t o j) then
    ((s.raise (A.xoSts t o) F.xoSts.clip 1).bump (A.xoClipCnt t o)).fireOnce t 11
  else s

/-- The clamp of the probe output (R193). -/
def State.probeClip (s : State) (t : Nat) : State :=
  if (List.range 8).any fun j => clamps (s.probeSum t j) then
    ((s.raise (A.poSts t) F.poSts.clip 1).bump (A.poClipCnt t)).fireOnce t 22
  else s

/-! ## The flux outputs (R158–R166, R432) -/

/-- The code at the flux DAC of output `f`: IDLE_CODE under a forced hold, whatever plays (R162, R190); the level held while it is
calibrated (R444); zero while it is powered down or wakes (R432). -/
def State.fluxOut (s : State) (t f : Nat) : Int :=
  if s.muted t (5 + f) then sext 16 (s.fld (A.fxIdle t f) F.fxIdle.idleCode)
  else if s.slotTask t = some (11 + f) then KMap.get 0 s.cal.fluxHeld (14 * t + f)
  else if ((s.conv t (5 + f)).st = 1 ∧ (s.conv t (5 + f)).at_ + 2500 ≤ s.DT) ∨ (s.conv t (5 + f)).st = 2 then 0
  else s.fluxCode t f

/-- Ticks in which a flux DAC has held code 0, up to 1,024 (R432). -/
def State.zeroTick (s : State) (t f : Nat) : State :=
  let x := s.conv t (5 + f)
  s.setConv t (5 + f) { x with zero := if s.fluxOut t f = 0 then min 1024 (x.zero + 1) else 0 }

/-- The datapaths of tile `t`. -/
def State.tileTick (s : State) (t : Nat) : State :=
  let s1 := ((List.range 4).foldl (fun s o => s.xyClip t o) s).probeClip t
  let s2 := (List.range 16).foldl (fun s n => s.envTick t n) s1
  let s3 := (List.range 14).foldl (fun s f => (s.fluxTick t f).zeroTick t f) s2
  (List.range 8).foldl (fun s p => s.laneTick t p) (s3.adcTick t)

/-- The datapaths of the enabled tiles. -/
def State.tilesTick (s : State) : State :=
  (List.range 32).foldl (fun s t => if s.tileOn t then s.tileTick t else s) s

/-! ## The tick -/

/-- The clocks go on: real time, DT where it counts (R45, R46), and the PTP clock (R384). -/
def State.clocksTick (s : State) : State :=
  let run := s.live && s.on A.dtSts F.dtSts.running
  let s1 : State := { s with tm := { s.tm with now := s.tm.now + 1, dt := if run then s.tm.dt + 1 else s.tm.dt }, tie := {} }
  if s.live then s1.ptpTick else s1

/-- One tick of 0.4 ns: the datapaths of the present tick, then the next one begins. -/
def State.tick (s : State) : State :=
  let s0 := (List.range 8).foldl State.trigLate s
  let s1 := if s.live then (List.range 8).foldl State.backpress s0.tilesTick.stallTick.holdTick.henTick else s0
  let s2 := s1.clocksTick.secondTick.resetPins
  if s2.live then
    (List.range 8).foldl (fun s k => (s.idleAsk k).prbsTick k) ((((List.range 4).foldl State.hkTick s2).anchorTick).ttStep.ttEdgesTick)
  else s2

end Sys2Proof.Machine
end

