-- ==== Sys2Proof/Machine/Pins.lean ====
section
/-! DEFINITION. What the output balls carry (R461): high-impedance before configuration, in reset, after a shutdown and at a hard trip;
otherwise what their datapath hands to the output stage. A level reaches its ball after the fixed delay of that output (R29). -/

namespace Sys2Proof.Machine

/-- An output ball, or a pair of them. -/
inductive Ball where
  | xyOut (t o : Nat)
  | probe (t : Nat)
  | flux (t f : Nat)
  | bias (q j : Nat)
  | marker (t m : Nat)
  | vector (t v : Nat)
  | sensor (q k : Nat)
  | ppsOut
  | pairAct
  | alertN
  | thermTripN
  | xspiRstN
  | kelairTx (k i : Nat)
  | pcieTx (i : Nat)
  | ethTx (e : Nat)
  deriving DecidableEq, Repr

/-- What a ball carries: nothing, the codes of the eight RF DAC samples of a tick, the code of a slower DAC, a level, the excitation of a
sensor, what its boundary-scan cell drives; of a serial transmitter, electrical idle or its symbols. -/
inductive BallState where
  | highZ
  | rf (codes : List Int)
  | code (c : Int)
  | level (high : Bool)
  | scan
  | excited (on : Bool)
  | idle
  | symbols
  deriving DecidableEq, Repr

/-- The device is configured and drives its outputs: neither a reset nor a hard trip holds them, and the domains are on (R461). -/
def State.drives (s : State) : Bool :=
  s.live && !s.aon.tripped && s.fld A.glbSts F.glbSts.bootStage == 3

/-- Reset is released, nothing has tripped and the domains are on: the interface balls, whose configuration lies in ROM, are out of
high-impedance (R461). -/
def State.awake (s : State) : Bool := s.live && !s.aon.tripped

/-- Lane `i` of link `k` drives its pair (R254, R257): in training, UP, DEGRADED and TEST. -/
def State.laneDrives (s : State) (k i : Nat) : Bool :=
  let st := s.klState k
  (st == 1 || st == 2 || st == 3 || st == 7) && (s.fld (A.klCtl k) F.klCtl.laneEn).testBit i

/-- A digital ball or a serial pair, which has a boundary-scan cell (R484). -/
def Ball.digital : Ball → Bool
  | .marker _ _ | .vector _ _ | .ppsOut | .pairAct | .alertN | .thermTripN | .xspiRstN | .kelairTx _ _ | .pcieTx _ | .ethTx _ => true
  | .xyOut _ _ | .probe _ | .flux _ _ | .bias _ _ | .sensor _ _ => false

/-- What a ball carries in a state when no boundary-scan instruction acts on it (R461). A marker rests at its POL level while it is
calibrated (R444). ALERT_n is configured in ROM, from the release of reset on (R411, R461; log entry 241). -/
def State.ballOwn (s : State) (b : Ball) : BallState :=
  let when_ := fun (c : Bool) (x : BallState) => if s.drives && c then x else .highZ
  match b with
  | .xyOut t o => when_ (s.tileOn t) (.rf ((List.range 8).map (s.xyCode t o)))
  | .probe t => when_ (s.tileOn t) (.rf ((List.range 8).map (s.probeCode t)))
  | .flux t f => when_ (s.tileOn t) (.code (s.fluxOut t f))
  | .bias q j => when_ (s.bias q j).on (.code (s.bias q j).code)
  | .marker t m =>
    when_ (s.tileOn t) (.level (if s.slotTask t = some 27 then s.on (A.mkCfg t m) F.mkCfg.pol else s.markerLevel t m))
  | .vector t v => when_ (s.tileOn t) (.level (s.vectorLevel t v))
  | .sensor q k => when_ (s.snOn q k) (.excited ((s.snStsView q k).getLsbD 0))
  | .ppsOut =>
    when_ true (.level (s.ptp.pulses.any fun x => decide (x.1 ≤ s.tm.now) && decide (s.tm.now < x.2)))
  | .pairAct => when_ (s.pairRole == 2 && !s.pairReleased) (.level s.pairActive)
  | .alertN => if s.awake && s.on A.evfAlertSts F.evfAlertSts.asserted then .level false else .highZ
  | .thermTripN => if s.aon.tripped then .level false else .highZ
  | .xspiRstN => if s.awake then .level true else .highZ
  | .kelairTx k i => when_ true (if s.laneDrives k i then .symbols else .idle)
  | .pcieTx _ | .ethTx _ => if s.awake then .symbols else .highZ

/-- What a ball carries (R461, R484): EXTEST, CLAMP and the EXTEST instructions of IEEE 1149.6 let the cells drive the digital balls,
HIGHZ releases them; the analogue balls keep their state. -/
def State.ball (s : State) (b : Ball) : BallState :=
  if b.digital && s.jtag.ir == 6 then .highZ
  else if b.digital && (s.jtag.ir == 4 || s.jtag.ir == 5 || s.jtag.ir == 7 || s.jtag.ir == 8) then .scan
  else s.ballOwn b

end Sys2Proof.Machine
end

