-- ==== Sys2Proof/WellFormed.lean ====
section
/-! DEFINITION. Well-formed commands: the operands are of the size and within the range that the rule of each command gives them. A
command that is not well-formed spells nothing that can arrive at the block; `exec` is defined on it all the same. -/

namespace Sys2Proof

/-- Bytes of the memory window (R34). -/
def memBytes : Nat := 0x8000000

/-- An offset lies within its BAR window (R34). -/
def inWindow (win : Window) (off : Nat) : Bool :=
  match win with
  | .control => decide (off < 0x4000000)
  | .doorbell => decide (off < 0x10000)
  | .badWrite _ => true

/-- A bulk message carries 1 to 32 payload blocks (R268). -/
def bulkSize (payload : List Block) : Bool := decide (0 < payload.length) && decide (payload.length ≤ 32)

/-- A converter of a tile: XY 0–3, probe 0, flux 0–13 (R432). -/
def convOk (k : Converter) (o : Fin 14) : Bool :=
  match k with
  | .xy => decide (o.val < 4)
  | .probe => decide (o.val = 0)
  | .flux => true

/-- A command is well-formed. -/
def Instr.wf : Instr → Bool
  | .registerWrite win off size _ => inWindow win off && decide (0 < size)
  | .snapshotRead win off size => decide (0 < size) && (match win with
      | .control => inWindow .control off
      | .doorbell => inWindow .doorbell off
      | .memory => decide (off + size ≤ memBytes)
      | .config => decide (off + size ≤ 4096))
  | .readToClear win off size => inWindow win off && decide (0 < size) && (match win with | .badWrite _ => false | _ => true)
  | .memWindowWrite off data => decide (0 < data.length) && decide (off + data.length ≤ memBytes)
  | .decantChunkArrival _ _ samples tag => decide (0 < samples.length) && decide (samples.length ≤ 4096) &&
      (decide (tag.length = 16) || tag.isEmpty)
  | .fluxCoefWrite _ _ off _ => decide (off < 0x200) && decide (off % 4 = 0)
  | .biasRegWrite _ _ off _ => decide (off < 0x40) && decide (off % 4 = 0)
  | .windowClose _ _ _ => true
  | .laneLockLoss _ _ hdrs => decide (hdrs ≤ 64)
  | .mgmtMsg _ _ payload _ => bulkSize payload
  | .mirrorMsg _ _ payload _ _ _ _ => bulkSize payload
  | .coordMsg _ _ payload _ _ _ _ _ _ _ _ => bulkSize payload
  | .heartbeatMsg _ _ payload _ _ _ _ => bulkSize payload
  | .imageFetchDone bytes _ => decide (bytes.length ≤ 0x10000000)
  | .imageVerifyDone units => decide (units.length ≤ 512)
  | .capsuleFetch _ header => decide (header.length = 32)
  | .capsuleAuthDone _ cipher tag => decide (cipher.length ≤ 65536) && decide (tag.length = 16)
  | .imageRefFetchDone _ bytes => decide (bytes.length ≤ 0x10000000)
  | .flashWriteDone _ bytes => decide (bytes.length ≤ 0x10000000)
  | .spdmChallenge _ nonce => decide (nonce.length = 32)
  | .spdmGetMeasurements _ nonce => decide (nonce.length = 32)
  | .ideKmProgram _ _ key => decide (key.length = 32)
  | .eventFire srcs => srcs.all (fun x => decide (x < 1536)) && decide srcs.Nodup
  | .powerMeterUpdate mw mv ma => decide (mw.length = 168) && decide (mv.length = 168) && decide (ma.length = 8)
  | .thermalModelUpdate up => decide (up.length = 40)
  | .islandClockStep _ _ code _ => decide (code.toNat ≤ 70)
  | .converterPowerDown _ k o => convOk k o
  | .converterWake _ k o => convOk k o
  | .hkConversionDone _ v => decide (0 < v.vref)
  | .skimSlot _ results => decide (results.length = 32)
  | .bootCalibration tiles tiu lanes => tiles.all (fun l => decide (l.length = 32)) && decide (tiles.length = 32) && decide (tiu.length = 34) &&
      decide (lanes.length = 32)
  | .converterAwake _ k o => convOk k o
  | .glbErrAddrClear | .muteAll .. | .drainAll .. | .bridgeTraining .. | .bridgeParityError ..
  | .biasFrameCrcFail .. | .biasLinkLost .. | .biasLinkRetrain .. | .dtArmNow .. | .dtArmPps ..
  | .dtLoadCancel .. | .dtLoad | .runStart .. | .runDrain .. | .runAbort .. | .clrCount ..
  | .abortTakesEffect .. | .shotTrigger .. | .shotEnd .. | .nextStartFix .. | .shotAnnounce .. | .shotStart ..
  | .shotCut .. | .shotRecordWrite .. | .tqEntryArrival .. | .queueStallEnd .. | .endMarkerExecute .. | .nop ..
  | .endI .. | .br .. | .brmw .. | .brmwDecisionValid .. | .brmwDeadline .. | .loop .. | .sync ..
  | .syncRelease .. | .evt .. | .wait .. | .waituntil .. | .play .. | .arm .. | .mark .. | .vec .. | .meas ..
  | .biasq .. | .freq .. | .phase .. | .add .. | .sub .. | .and .. | .or .. | .xor .. | .shl .. | .shr ..
  | .sra .. | .mul .. | .movi .. | .rdsp .. | .ld .. | .st .. | .clrFault .. | .seqCtlWrite ..
  | .playExecute .. | .jumpRequest .. | .jumpTakeEffect .. | .segmentEnd .. | .armSelect .. | .armExecute ..
  | .markExecute .. | .markPulseEnd .. | .vecExecute .. | .vecPulseEnd .. | .freqExecute .. | .phaseExecute ..
  | .evtExecute .. | .biasqExecute .. | .partitionWrite .. | .segEntryWrite .. | .markerCfgWrite ..
  | .decantEnable .. | .decantReprime .. | .ddDescWrite .. | .decantChunkRelease .. | .decantUnderrun ..
  | .decantTransferError .. | .biasUpdateInstant .. | .biasEntryArrival .. | .bqHostWrite .. | .genRun ..
  | .complianceTrip .. | .compClr .. | .biasClrAssert .. | .biasClrRelease .. | .spanWrite ..
  | .parkSettleEnd .. | .riBandWrite .. | .readoutSetWrite .. | .windowOpen .. | .thrLoopEnable ..
  | .dbUnfreeze .. | .toneTrackEnable .. | .ttUnfreeze .. | .resultRingWrite .. | .decisionReleaseTile ..
  | .decisionReleaseDevice .. | .parityFire .. | .remoteRelease .. | .parityUnitCfgWrite .. | .keyBitWrite ..
  | .remoteMapWrite .. | .exportWrite .. | .linkEnable .. | .linkRetrain .. | .trainPhaseDone ..
  | .trainAttemptTimeout .. | .backoffExpiry .. | .autoretryAttempt .. | .laneRejoin ..
  | .fillerRowSend .. | .fillerRowReceive .. | .decisionMsgReceive .. | .ttRequestSend .. | .ttMsgReceive ..
  | .linkAck .. | .linkNak .. | .replayFailure .. | .laneMap .. | .idleReq .. | .idleAck .. | .idleLpExit ..
  | .prbsInject .. | .bitSlip .. | .routeWrite .. | .fwdWrite .. | .pairEnable .. | .hbLost | .takeOver ..
  | .standDown .. | .pairChangeEffect | .pairChangeTimeout | .pairActSense .. | .imageLoad .. | .imageApply ..
  | .imageCancel .. | .cfgSeal .. | .bootImageApply | .partialHold | .partialStoppedApply | .partialHoldEnd
  | .seqFailed .. | .placement .. | .henConfirm | .trialTimeout | .henRestart | .flashWrite ..
  | .takeOwnership .. | .rotateOwner .. | .retire .. | .debugUnlock .. | .zeroisePlot ..
  | .arbCommit | .commandDoorbell .. | .rspConsWrite .. | .rrConsWrite .. | .ringEnable .. | .cmdRingRestart ..
  | .capsuleNop .. | .regWrite .. | .regRead .. | .memWrite .. | .memRead .. | .imageInline .. | .imageRef ..
  | .waitState .. | .waitStateReached .. | .waitStateTimeout .. | .batchSignDone .. | .writeback ..
  | .resultIrqTimer .. | .dmaTransferError .. | .d3hotEntry | .d0Return | .functionLevelReset | .hotReset
  | .pcieLinkDown | .pePerstAssert | .spdmGetVersion | .spdmGetCapabilities | .spdmNegotiateAlgorithms
  | .spdmGetDigests | .spdmGetCertificate .. | .spdmKeyExchange .. | .spdmFinish .. | .spdmKeyUpdate ..
  | .spdmHeartbeat .. | .spdmEndSession .. | .spdmSetCertificate .. | .ptpRateCommit .. | .ptpOffsetSubmit ..
  | .ptpCorrectionApply | .slewEnd | .ptpRearm | .ptpEpochCommit .. | .ptpWrap | .epochStale | .tsRead ..
  | .launchPush .. | .launch .. | .clrHalt .. | .xtsGo .. | .ppsOutPulse | .ppsInEdge .. | .ptmDialogue ..
  | .tiuEdge .. | .holdoffExpiry .. | .tiuGo .. | .tiuStop .. | .tiuEngineDone .. | .tiuTimeout ..
  | .tiuGateEnd .. | .exportDatagramClose .. | .evfFire .. | .alertRelease | .hkGo .. | .hkStop ..
  | .hkUrgGo .. | .hkCfgWrite .. | .hkPassGapExpiry .. | .hkRefReady .. | .hkRefFault ..
  | .sensOpenDetect .. | .sensCheckGo .. | .sensCheckPeriod .. | .sensCheckDone .. | .thermalAnchor | .throttleEval
  | .hostShutdown | .shutdownPowerOff | .hardTrip .. | .avsStep .. | .avsEmergency .. | .avsRequestRetry ..
  | .clockStretch .. | .calTimerExpiry .. | .deviceCalTask .. | .calStoreSave | .cbSave | .cbSaveRequest
  | .rtcSet | .vbatLoss | .porAssert | .porRelease .. | .sysRstAssert | .sysRstRelease | .brownOut | .refInLoss
  | .refInRecovery | .refInBootTimeout | .laneRefLoss .. | .peRefclkLoss | .smbReadGlbId | .smbReadGlbSts
  | .smbReadTj | .smbReadPmTotal | .smbReadAonSts | .smbReadTripLatch | .smbReadState | .jtagBypass
  | .jtagIdcode | .jtagSample .. | .jtagPreload .. | .jtagExtest | .jtagClamp | .jtagHighz | .jtagExtestPulse
  | .jtagExtestTrain | .heartbeatSend | .pePerstRelease .. | .busMasterEnableWrite .. | .ethLinkChange ..
  | .henoneRestartDone | .mailboxCommandDone | .ptpFrameRx .. | .ptpFrameTx .. => true

end Sys2Proof
end

