-- ==== Sys2Proof/Safety.lean ====
section
/-! DEFINITION. The terms in which statements speak of runs: what it is for a command to complete, what a command leaves alone,
and what every state of a run keeps. -/

namespace Sys2Proof.Safety

open Sys2Proof.Machine

/-- Command `c` completes in state `s`, and `P` holds of the state that it leaves. -/
def Completes (c : Instr) (s : State) (P : State → Prop) : Prop := ∃ t, exec c s = .next t ∧ P t

/-- Every byte of the memory window reads as before. -/
def SameBytes (s t : State) : Prop := ∀ a, t.byte a = s.byte a

/-- Every byte of the memory window outside the `n` bytes at `a` reads as before. -/
def SameBytesBut (a n : Nat) (s t : State) : Prop := ∀ b, (b < a ∨ a + n ≤ b) → t.byte b = s.byte b

/-- Every register whose offset is not in the list reads as before. -/
def SameRegs (l : List Nat) (s t : State) : Prop := ∀ a, a ∉ l → t.reg a = s.reg a

/-- Only registers of the list changed: the memory window, every queue, channel and unit, and the commands that wait are as
they were. -/
def OnlyRegs (l : List Nat) (s t : State) : Prop := SameRegs l s t ∧ t = { s with regs := t.regs, tie := t.tie }

/-- A host write at an offset passes the checks that hold for every access (R8, R41, R44, R471). -/
def HostOpen (s : State) (a : Nat) : Prop := s.blockRefuse .host a = none

/-- A refused host access (R43): nothing changes but GLB_ERR_STS, which keeps its bits and takes the refusal's, and GLB_ERR_ADDR,
which captures the access (KIND, WINDOW, OFFSET) where VALID was 0 and keeps its capture where it was 1. -/
def Refused (kind win off : Nat) (s t : State) : Prop :=
  OnlyRegs [A.glbErrSts, A.glbErrAddr] s t ∧
  t.reg A.glbErrSts = s.reg A.glbErrSts ||| BitVec.ofNat 32 (2 ^ kind) ∧
  (s.on A.glbErrAddr F.glbErrAddr.valid = true → t.reg A.glbErrAddr = s.reg A.glbErrAddr) ∧
  (s.on A.glbErrAddr F.glbErrAddr.valid = false →
    t.fld A.glbErrAddr F.glbErrAddr.valid = 1 ∧ t.fld A.glbErrAddr F.glbErrAddr.kind = kind ∧
    t.fld A.glbErrAddr F.glbErrAddr.window = win ∧ t.fld A.glbErrAddr F.glbErrAddr.offset = off % 2 ^ 27)

/-- The event that fires source `src` with generation 0 is the newest one in the fabric's queue. -/
def Fires (src : Nat) (s t : State) : Prop := t.evq = s.evq ++ [(src, 0)]

/-- Register `r` at offset `a` has taken the host's write of `w` as its access codes say (R10, R303): a writable field holds the written
value, but keeps its own where it is LK and the configuration is sealed; a write-1-to-clear field has lost the written bits but those that an event has set in the same tick (R11);
every other field is as it was. -/
def Takes (r : RegSpec) (a : Nat) (w : Word) (s t : State) : Prop :=
  ∀ f ∈ r.fields, t.fld a f.fld = match f.acc with
    | .rw | .rws => if s.isSealed ∧ f.lk = true then s.fld a f.fld else getF w f.fld
    | .w1c => s.fld a f.fld - (s.fld a f.fld &&& (getF w f.fld - (getF w f.fld &&& getF (KMap.get 0 s.tie.set a) f.fld)))
    | _ => s.fld a f.fld

/-- The start of plot `p` was not fixed with a trigger of the present tick, so a drain or an abort leaves it fixed (R58). -/
def Settled (p : Nat) (s : State) : Prop := ∀ u, (s.sched p).undo = some u → u.tick ≠ s.DT

/-- An entry has left the front of timed queue `k`, and nothing else of it changed (R71). -/
def Popped (k : Nat) (s t : State) : Prop :=
  t.tq k = { s.tq k with held := (s.tq k).held.tail } ∧ ∀ j, j ≠ k → t.tq j = s.tq j

/-- Path `n` of tile `i` plays segment `a.seg` from shot-relative tick `c` on, which anchors its grid (R134, R137); no other channel
changed. -/
def Plays (i n c : Nat) (a : PlayArg) (s t : State) : Prop :=
  t.chan i n = { s.chan i n with
    playing := some { seg := a.seg, start := c, len := 16 * s.segLen i a.seg, amp := a.amp, slot := a.slot },
    cur := a.seg, g0 := c, jump := (t.chan i n).jump } ∧
  ∀ k, k ≠ 32 * i + n → KMap.get {} t.chans k = KMap.get {} s.chans k

/-- What path `n` of tile `i` plays, if it plays, is no decanted segment, and no playback that it began goes on behind a restart
(R155). -/
def Undecanted (s : State) (i n : Nat) : Prop :=
  (∀ pl, (s.chan i n).playing = some pl → s.segDecant i pl.seg = false) ∧
  ∀ d m pl, d < 16 → (s.dec i d).player = some (m, pl) → m ≠ n

/-- The reads of host memory for chunk `k` of descriptor `d` of tile `i` (R151): from its address on, the chunk's samples and, with tags,
its 64-byte trailer, split at 4 KiB boundaries and the maximum read request size (R375). -/
def chunkReads (s : State) (i d k : Nat) : List Out :=
  (s.readParts (s.fld (A.ddAddrLo i d) F.ddAddrLo.addr * 4096 + (s.reg (A.ddAddrHi i d)).toNat * 2 ^ 32 +
      (if s.ddAuth i d then 16448 else 16384) * k) (4 * min 4096 (s.ddLen i d - 4096 * k) + if s.ddAuth i d then 64 else 0)).map
    fun r => .decantRead i d k r.1 r.2 s.pcie.relaxed

/-- The shot with serial number `sid` of plot `p` carries the flags `fl`, and queue `k` counts as late for it (R67, R69, R486). -/
def LateIn (p sid k : Nat) (fl : BitVec 16) (t : State) : Prop :=
  ∀ h ∈ (t.sched p).shots, h.sid = sid → h.flags &&& fl = fl ∧ k ∈ h.lateQ

/-- Of the bias channels, only channel `j` of quadrant `q` may have changed. -/
def OnlyBias (q j : Nat) (s t : State) : Prop := ∀ k, k ≠ 128 * q + j → KMap.get {} t.biases k = KMap.get {} s.biases k

/-- New events have joined the fabric's queue, and one of them fires source `src` with generation 0. -/
def FiresAmong (src : Nat) (s t : State) : Prop := ∃ l, t.evq = s.evq ++ l ∧ (src, 0) ∈ l

/-! ## Kelair -/

/-- Link `k` has begun training attempt `n` on the lanes `good` (R258, R270): phase 0, no active lane, and the messages of the replay
buffer are gone. -/
def Attempts (k n good : Nat) (s t : State) : Prop :=
  t.klState k = 1 ∧ t.fld (A.klSts k) F.klSts.phase = 0 ∧ t.fld (A.klSts k) F.klSts.attempt = n ∧ t.klLanes k = 0 ∧
  (t.link k).good = good ∧ (t.link k).attemptAt = s.tm.now ∧ (t.link k).replay = [] ∧ t.out = s.out

/-- A message with header block `h` on stream `st` is accepted by link `k`, its check passing (R263, R265): the link is up, no NAK is
outstanding or it is the message asked for, and it is no repetition. -/
def Arrives (k st : Nat) (h : Block) (s : State) : Prop :=
  s.klUp k = true ∧ ((s.link k).naked = false ∨ blkF h 8 8 = (s.link k).rxSeq) ∧
  ((s.link k).freshRx.contains st = true ∨ (s.link k).rxAlive.getD st none ≠ some (blkF h 16 8))

/-- A bulk message of a kind for this device is accepted by link `k` (R268, R272). -/
def BulkFor (k kind : Nat) (h : Block) (payload : List Block) (tr : Block) (s : State) : Prop :=
  Arrives k (2 + kind) h s ∧ bulkOk h payload tr kind = true ∧ blkF h 44 4 = s.devNum

/-- A link-control block of a kind passes its check (R264, R269). -/
def ControlOk (kind : Nat) (b : Block) : Prop :=
  blkF b 0 8 = 0x66 ∧ blkF b 8 8 = kind ∧ blkF b 48 16 = crcControl b

/-- A saturating 32-bit counter has counted `n` (R10). -/
def CountsUp (a n : Nat) (s t : State) : Prop := (t.reg a).toNat = min ((s.reg a).toNat + n) 0xFFFFFFFF

/-! ## Sequencers -/

/-- Sequencer (i, q) runs, the instruction at its PC has opcode `op`, its tile has no patch, its role may execute it and it keeps its
reserved bits 0 (R86, R88, R121). -/
def Passes (s : State) (i q op : Nat) : Prop :=
  s.running i q = true ∧ (s.insAt i q (s.pc i q)).op = op ∧ s.patched i = false ∧
  roleAllows op (s.role i q) = true ∧ ∃ m, opMask op = some m ∧ (s.insAt i q (s.pc i q)).reservedOk m = true

/-- No loop ends at the PC, and a next address exists (R105, R113). -/
def FallsThrough (s : State) (i q : Nat) : Prop :=
  s.pc i q < 4095 ∧ (s.depth i q = 0 ∨ s.fld (A.seqLoopSe i q (s.depth i q - 1)) F.seqLoopSe.endPc ≠ s.pc i q)

/-- The registers that every completed instruction moves on: PC, SEQ_CYC and SEQ_INSTR. -/
def seqMoves (i q : Nat) : List Nat :=
  [A.seqPc i q, A.seqCycLo i q, A.seqCycHi i q, A.seqInstrLo i q, A.seqInstrHi i q]

/-- SEQ_CYC has counted `cyc` island cycles, and SEQ_INSTR one instruction. -/
def Counts (i q cyc : Nat) (s t : State) : Prop :=
  t.pair (A.seqCycLo i q) (A.seqCycHi i q) = (s.pair (A.seqCycLo i q) (A.seqCycHi i q) + cyc) % 2 ^ 64 ∧
  t.pair (A.seqInstrLo i q) (A.seqInstrHi i q) = (s.pair (A.seqInstrLo i q) (A.seqInstrHi i q) + 1) % 2 ^ 64

/-- An instruction of `cyc` cycles has completed and the next one follows: of the registers it changed at most those of the list and
those that every instruction moves on, and nothing else but the holding registers of the two counters and the ties of the tick. -/
def Steps (l : List Nat) (i q cyc : Nat) (s t : State) : Prop :=
  t.pc i q = s.pc i q + 1 ∧ Counts i q cyc s t ∧ SameRegs (l ++ seqMoves i q) s t ∧
  t = { s with regs := t.regs, holds := t.holds, tie := t.tie }

/-- A command stamped with TC has left for the timed queue of sequencer (i, q), and the next instruction follows (R27, R93). -/
def Issues (cmd : TqCmd) (i q cyc : Nat) (s t : State) : Prop :=
  t.tq (sk i q) = { s.tq (sk i q) with flight := (s.tq (sk i q)).flight ++
    [{ cmd := cmd, stamp := s.tc i q, sid := s.runSid i, issued := s.tm.now }] } ∧
  (∀ k, k ≠ sk i q → t.tq k = s.tq k) ∧ t.pc i q = s.pc i q + 1 ∧ Counts i q cyc s t ∧ SameRegs (seqMoves i q) s t ∧
  t = { s with regs := t.regs, holds := t.holds, tqs := t.tqs }

/-- Sequencer (i, q) has faulted (R114, R125): an end marker stamped with TC has left for its queue, it is FAULTED, the first fault
is captured with its cause, PC and detail, SEQ_FAULT_CNT has counted, SEQ_FAULT has fired, and PC, TC and S0–S15 are as they
were. -/
def Faults (cause : Nat) (info : Word) (i q : Nat) (s t : State) : Prop :=
  t.seqState i q = 6 ∧ t.pc i q = s.pc i q ∧ t.tc i q = s.tc i q ∧ (∀ k, k < 16 → t.sreg i q k = s.sreg i q k) ∧
  (t.tq (sk i q)).flight = (s.tq (sk i q)).flight ++
    [{ cmd := .endMarker, stamp := s.tc i q, sid := s.runSid i, issued := s.tm.now }] ∧
  (s.on (A.seqFault i q) F.seqFault.valid = false →
    t.fld (A.seqFault i q) F.seqFault.valid = 1 ∧ t.fld (A.seqFault i q) F.seqFault.cause = cause ∧
    t.fld (A.seqFault i q) F.seqFault.pc = s.pc i q ∧ t.reg (A.seqFaultInfo i q) = info) ∧
  (s.on (A.seqFault i q) F.seqFault.valid = true →
    t.reg (A.seqFault i q) = s.reg (A.seqFault i q) ∧ t.reg (A.seqFaultInfo i q) = s.reg (A.seqFaultInfo i q)) ∧
  (t.reg (A.seqFaultCnt i q)).toNat = min ((s.reg (A.seqFaultCnt i q)).toNat + 1) 0xFFFFFFFF ∧
  t.evq = s.evq ++ [(tileSrc i 2, 0)] ∧ SameBytes s t

/-- Sequencer (i, q) is preloaded (R81): S0–S15 from data-memory words 240–255, the loop stack empty, PC at START_PC. -/
def Preloaded (i q : Nat) (s t : State) : Prop :=
  (∀ k, k < 16 → t.sreg i q k = s.dm i q (240 + k)) ∧ t.depth i q = 0 ∧
  t.pc i q = s.fld (A.seqCtl i q) F.seqCtl.startPc

/-! ## Rings and capsules -/

/-- What an end of D3hot or a write of Bus Master Enable does beside its own bit (R357, R377): where requests may be issued (`may`), every
pending vector that is unmasked sends its message and the responses that wait go out; where they may not, nothing does. -/
def Resumes (may : Bool) (s t : State) : Prop :=
  t = { s with regs := t.regs, out := t.out, pcie := t.pcie, rings := t.rings } ∧
  SameRegs ([A.msixPba 0, A.msixPba 1] ++ (List.range 8).map A.rspProd) s t ∧
  (may = false → t.regs = s.regs ∧ t.out = s.out) ∧
  (may = true → ∀ v, v < 64 → s.msixMasked v = false → (t.reg (A.msixPba (v / 32))).toNat.testBit (v % 32) = false)

/-- The reads of `n` slots of the command ring of plot `p` from CMD_CONS on (R358): what runs past the last slot goes on at slot 0; each part
is split at 4 KiB boundaries and the maximum read request size (R375). -/
def slotReads (s : State) (p n : Nat) : List Out :=
  let size := 2 ^ s.fld (A.cmdCfg p) F.cmdCfg.sizeLog2
  let i := (s.reg (A.cmdCons p)).toNat % size
  ((s.readParts (s.ringBase p 0 + 64 * i) (64 * min n (size - i)) ++
    if size - i < n then s.readParts (s.ringBase p 0) (64 * (n - (size - i))) else []).map fun r => .ringRead p r.1 r.2)

/-- Welolyan has served plot `p` and goes on with the next plot, in round-robin order, whose capsule waits to be authenticated (R369). -/
def ServesNext (p : Nat) (t : State) : Prop :=
  t.wl.served = p ∧ t.wl.serving = ((List.range 8).map fun i => (p + 1 + i) % 8).find? t.awaits

/-- An item of whole slots is written to the result ring of plot `p` from slot RR_PROD on, and what runs past the last slot from slot 0 on
(R358, R371); what else goes out follows it. -/
def RingWritten (p : Nat) (bytes : List Byte) (s t : State) : Prop :=
  let size := 2 ^ s.fld (A.rrCfg p) F.rrCfg.sizeLog2
  let i := (s.reg (A.rrProd p)).toNat % size
  let n := 32 * (size - i)
  let write := fun (at_ : Nat) (b : List Byte) => Out.ringData p 2 at_ b s.pcie.relaxed
  ∃ l, t.out = s.out ++
    (if bytes.length ≤ n then [write (s.ringBase p 2 + 32 * i) bytes]
     else [write (s.ringBase p 2 + 32 * i) (bytes.take n), write (s.ringBase p 2) (bytes.drop n)]) ++ l

/-- The doorbell page of plot `p` takes writes: the part runs and the plot is defined (R40). -/
def PageOpen (s : State) (p : Nat) : Prop := s.live = true ∧ s.plotDefined p = true

/-- The registers that a response may change (R366–R368, R378): CMD_STS, RSP_PROD and the pending bits of the vectors. -/
def rspRegs (p : Nat) : List Nat := [A.cmdSts p, A.rspProd p, A.msixPba 0, A.msixPba 1]

/-- The capsule of plot `p` that executes is `c` with body `b`, and its next operation is `o`, with code `code` and well-formed
(R364, R366). -/
def NextOp (code p : Nat) (s : State) (c : CapX) (b : List Byte) (o : CapOp) : Prop :=
  s.capRuns p = some (c, b) ∧ c.next b = some o ∧ o.op = code ∧ o.ok c.data.length = true

/-- The capsule goes on with the operation after the one of `len` operand bytes, or ends with it (R364, R366); `d` is its response
data so far. -/
def GoesOn (p : Nat) (c : CapX) (b : List Byte) (len : Nat) (d : List Byte) (t : State) : Prop :=
  let pos := (c.pos + 8 + len + 7) / 8 * 8
  (b.length ≤ pos → (t.ring p).cap = none) ∧
  (pos < b.length →
    (t.ring p).cap = some { c with pos := pos, op := c.op + 1, wait := none, fetching := false, data := d })

/-- The capsule fails at its operation (R366): it is over, a keyed plot's next response has gone out, and beside the registers of
the response none has changed. -/
def OpFails (p : Nat) (s t : State) : Prop :=
  (t.ring p).cap = none ∧ SameRegs (rspRegs p) s t ∧ SameBytes s t ∧
  (s.keyed p = true → (t.ring p).rspSeq = (s.ring p).rspSeq + 1)

/-- A capsule is refused with a status (R344, R363): NACK_LAST, CAP_NACK_CNT and PG_ALERT.NACK tell it, a failed authentication
counts and fires source 1,373, WL_CSEQ_IN stays. -/
def Nacks (p status : Nat) (s t : State) : Prop :=
  (t.ring p).cap = none ∧ t.fld (A.cmdSts p) F.cmdSts.nackLast = status ∧ CountsUp (A.capNackCnt p) 1 s t ∧
  t.on (A.pgAlert p) F.pgAlert.nack = true ∧ t.cseqIn p = s.cseqIn p ∧ SameBytes s t ∧
  (4 ≤ status → CountsUp (A.wlAuthFailCnt p) 1 s t ∧ Fires 1373 s t) ∧ (status < 4 → t.evq = s.evq)

/-! ## Welolyan -/

/-- The mailbox command with an opcode, as the row that carries it (R339). -/
def mailboxRow (op : Nat) (w : Word) : Instr :=
  if op = 0x10 then .takeOwnership w
  else if op = 0x11 then .rotateOwner w
  else if op = 0x12 then .retire w
  else if op = 0x20 then .debugUnlock w
  else .zeroisePlot w

/-- An SPDM response with a code and its fields goes out, and of the state only the responder's own part changes (R351). -/
def Answers (code : Nat) (fields : List Nat) (s t : State) : Prop :=
  (∃ d, t.out = s.out ++ [.spdm code fields d]) ∧ t = { s with out := t.out, spdm := t.spdm }

/-! ## Network time -/

/-- A late launch entry of port `e` has been counted, flagged and reported, and the policy has acted on its frame (R388): HALT, drop, or
send it as soon as the line is free (`free`: it is now). -/
def LateLaunch (e : Port) (frame : Nat) (free : Bool) (s t : State) : Prop :=
  let pol := s.fld (A.ethLqCtl e) F.ethLqCtl.latePol
  t.fld (A.ethTsSts e) F.ethTsSts.late = 1 ∧ CountsUp (A.ethLateCnt e) 1 s t ∧ Fires (1380 + e) s t ∧
  ((t.eth e).late = if pol = 2 ∧ free = false then (s.eth e).late ++ [frame] else (s.eth e).late) ∧
  (pol = 0 → t.fld (A.ethTsSts e) F.ethTsSts.halted = 1 ∧ t.out = s.out) ∧
  (pol = 1 → t.fld (A.ethTsSts e) F.ethTsSts.halted = s.fld (A.ethTsSts e) F.ethTsSts.halted ∧ t.out = s.out) ∧
  (pol = 2 → t.fld (A.ethTsSts e) F.ethTsSts.halted = s.fld (A.ethTsSts e) F.ethTsSts.halted ∧
    t.out = if free then s.out ++ [.frame e frame] else s.out)

/-- `ticks` is a board term of `ps` picoseconds in 2⁻¹¹ ns (R382): the spec states no rounding, so within less than one of them. -/
def BoardTerm (ps ticks : Int) : Prop := (125 * ticks - 256 * ps).natAbs < 125

/-- `st` is the stamp, in 2⁻¹¹ ns modulo 2³² ns, of an instant `sub` · 2⁻¹¹ ns after the begin of the present tick, with a board term of
`ps` picoseconds (R382). -/
def StampedAt (sub : Nat) (ps : Int) (s : State) (st : Nat) : Prop :=
  ∃ term : Int, BoardTerm ps term ∧ (st : Int) = (((s.ptp.clock / (nsUnit / 2048) + sub : Nat) : Int) + term) % (2 ^ 43 : Int)

/-- A stamp queue of 32 places after stamp `st` of a message (R382): it is held with its sequenceId and messageType, and of 33 the oldest is
overwritten. -/
def Stamped (m : PtpMsg) (seqId : BitVec 16) (st : Nat) (old new : List (Word × Word)) : Prop :=
  let entry : Word × Word := (BitVec.ofNat 32 (st / 2048), BitVec.ofNat 32 (seqId.toNat * 65536 + ptpCode m * 4096 + 2048 + st % 2048))
  new = (if old.length < 32 then old else old.drop 1) ++ [entry]

/-- The run of engine `m` has ended with a result, or with 3h where too few results came (R397, R398). -/
def RunEnds (m : Engine) (result : Nat) (few : Bool) (s t : State) : Prop :=
  t.tmRun m = false ∧ t.fld (A.tmSts m) F.tmSts.done = 1 ∧
  t.fld (A.tmSts m) F.tmSts.result = (if few then 3 else result) ∧ t.tm' m = {} ∧
  t.evq = s.evq ++ [(1384 + m.val, (s.tm' m).gen)] ∧ SameBytes s t

/-- Input `i` has a conditioned transition to `level` in the present tick (R391, R393, R395): it is counted, and where EDGE selects it, its
source fires. -/
def Conditions (i : Nat) (level : Bool) (s t : State) : Prop :=
  (t.tiu i).level = level ∧ (t.tiu i).condAt = some s.tm.now ∧ CountsUp (A.tiuInEdgeCnt i) 1 s t ∧
  (s.edgeSel i level = true → (i < 16 → FiresAmong (1392 + i) s t) ∧ (i = 16 → FiresAmong 1379 s t)) ∧
  (s.edgeSel i level = false → t.tms = s.tms ∧ t.evq = s.evq) ∧
  (∀ j, j ≠ i → KMap.get {} t.tius j = KMap.get {} s.tius j) ∧ SameBytes s t

/-! ## Events and housekeeping -/

/-- In a cycle that takes the sources `srcs`, channel `c` carries an event of its source or one that EVF_FIRE has fired (R404, R406, R407). -/
def Carries (s : State) (srcs : List Nat) (c : Nat) : Prop :=
  c < 256 ∧ s.chOn c = true ∧ ((s.chSrc c ∈ srcs ∧ ∃ g, (s.chSrc c, g) ∈ s.evq) ∨ ∃ g, (c, g) ∈ s.evIn)

/-- Task input `k` subscribes to channel `c` (R406). -/
def Subscribes (s : State) (k c : Nat) : Prop := c ∈ s.subs k

/-- The converter of quadrant `q` is free, its reference settled, no urgent or thermal conversion waits, Henone serves the sequence (R321,
R323), and entry 0 of its table is no sensor and no bias input, so that it converts at once (R413, R418). -/
def Converts (q : Nat) (s : State) : Prop :=
  (s.hk q).conv = none ∧ (s.hk q).therm = [] ∧ (s.hk q).urg = false ∧ s.henServes = true ∧
  s.on (A.hkSts q) F.hkSts.refReady = true ∧ 24 ≤ hkIn (s.reg (A.hkSeq q 0))

/-- The converter of quadrant `q` has begun an entry of its table, in SETTLE or, without a settle time, in INTEGRATE (R413). -/
def Begun (q e : Nat) (s t : State) : Prop :=
  let entry := s.reg (A.hkSeq q e)
  let ph := if getF entry F.hkSeq.settle = 0 then 4 else 2
  (t.hk q).conv = some { kind := 0, entry := entry, e := e, phase := ph, at_ := s.tm.now } ∧
  t.fld (A.hkSts q) F.hkSts.state = ph ∧ t.fld (A.hkSts q) F.hkSts.entry = e

/-- A host write of a register of the housekeeping block of quadrant `q` reaches it: it is open, and the bias link is up (R421). -/
def HkOpen (q : Nat) (a : Nat) (s : State) : Prop := HostOpen s a ∧ s.blkUp q = true

/-- A copy of the calibration store holds the present trims, sealed under the MRAM key, and its CRC-32C agrees (R329, R448). -/
def SealedTrims (s : State) (c : MramCopy) : Prop :=
  c.valid = true ∧ c.body = gcmSeal s.mramKey (Config.calNonce c.seq) (leBytes 8 c.seq)
    (pairBytes (s.cal.trims.map fun e => (e.1, e.2.toNat)))

/-- The checks of quadrant `q` have begun (R425): every front end in use is in its check, but one that is being converted, whose check
is due. -/
def ChecksBegin (q : Nat) (s t : State) : Prop :=
  ∀ k, k < 8 → s.snOn q k = true →
    (s.converting q k = false → (t.sn q k).chk = 2 ∧ t.on (A.snSts q k) F.snSts.checking = true) ∧
    (s.converting q k = true → (t.sn q k).chk = 1)

/-! ## Runs -/

/-- What every state of a run keeps: the memory window is in its canonical form. -/
def Canonical (s : State) : Prop := Memory.wf s.mem = true

/-- A run is safe from `s` for `n` steps: none of them stops. -/
def SafeFor : Nat → State → Prop
  | 0, _ => True
  | n + 1, s => ∃ t, step s = .next t ∧ SafeFor n t

end Sys2Proof.Safety
end

