-- ==== Sys2Proof/Certificates/Slice0/Obligations.lean ====
section
/-! DEFINITION. The statements of this package for the provers. -/

open Sys2Proof Sys2Proof.Machine Sys2Proof.Safety

/-- The step takes the command at the front of the queue and runs it on the state with the queue's rest (the fixed form of a
block's step). Every command has an effect in every state: none stops with a fault or a refusal. -/
def Obligations.StepRunsTheFrontCommand : Prop :=
  (∀ (c : Instr) (cs : List Instr) (s : State),
    step { s with pending := c :: cs } = exec c { s with pending := cs }) ∧
  (∀ (c : Instr) (s : State), ∃ t, exec c s = .next t)

/-- With no command waiting, a step is one tick of 0.4 ns (the model's choice: assumption log, entry 1), unless a reset pulse
reaches its 100 ns in it (R467): real time advances by one, DT by one where it runs (R45, R46), the PTP clock by 0.4 ns and its
rate (R384), and neither the memory window nor the queue changes. -/
def Obligations.IdleStepIsOneTick : Prop :=
  ∀ s : State, s.pending = [] → (∀ a, s.aon.porLow = some a → s.tm.now + 1 < a + 250) →
    (∀ a, s.aon.sysLow = some a → s.tm.now + 1 < a + 250) →
    ∃ t, step s = .next t ∧ t.tm.now = s.tm.now + 1 ∧ SameBytes s t ∧ t.pending = [] ∧
      t.tm.dt = (if s.live = true ∧ s.on A.dtSts F.dtSts.running = true then s.tm.dt + 1 else s.tm.dt) ∧
      (s.live = true → s.ptp.rates = [] → s.ptp.slew = none → -rateLimit ≤ s.ptp.rate → s.ptp.rate ≤ rateLimit →
        t.ptp.clock = (s.ptp.clock + (2 ^ 48 + s.ptp.rate).toNat) % ptpMod)

/-- No command reads or writes the queue of waiting commands, so a step consumes exactly the front one. -/
def Obligations.StepConsumesOnlyTheFrontCommand : Prop :=
  (∀ (c : Instr) (s t : State), exec c s = .next t → t.pending = s.pending) ∧
  ∀ s t : State, step s = .next t → t.pending = s.pending.tail

/-- The memory window stays in its canonical form, whatever the command and whatever state it meets. -/
def Obligations.MemoryStaysCanonical : Prop :=
  ∀ s t : State, Canonical s → step s = .next t → Canonical t

/-- Only these commands may change a byte of the memory window: a host or capsule write of it, the sample arrival of a cellar
decant, ST, what applies an image or copies a program (configuration, placement, a mirrored update, the end of a shot that
applies one), and a loss of power or of a trial. After every other command every byte reads as before. -/
def Obligations.OnlyWritersChangeMemory : Prop :=
  ∀ (c : Instr) (s t : State), exec c s = .next t →
    (match c with
      | .memWindowWrite .. | .decantChunkArrival .. | .st .. | .memWrite .. | .bootImageApply | .partialHold
      | .partialStoppedApply | .placement .. | .mirrorMsg .. | .shotEnd .. | .shotCut .. | .abortTakesEffect ..
      | .brownOut | .trialTimeout => False
      | _ => True) →
    SameBytes s t

/-- The state after reset: POR_n is held, no byte of the memory window is listed, no command waits, nothing has been sent, and
the registers hold their reset values: every plot is STOPPED, every tile is disabled and assigned to no plot, DT does not run,
no error is recorded, and the outputs are not muted. -/
def Obligations.ResetLeavesThePartHeld : Prop :=
  State.reset.aon.por = true ∧ State.reset.live = false ∧ State.reset.mem = [] ∧ State.reset.pending = [] ∧
  State.reset.out = [] ∧ State.reset.tm.dt = 0 ∧ Canonical State.reset ∧
  (∀ p : Plot, State.reset.stopped p = true ∧ State.reset.plotDefined p = false) ∧
  (∀ t : Tile, State.reset.tileOn t = false ∧ State.reset.plotOf t = none) ∧
  State.reset.reg A.glbCtl = 0 ∧ State.reset.reg A.glbErrSts = 0 ∧ State.reset.reg A.glbErrAddr = 0 ∧
  State.reset.on A.dtSts F.dtSts.running = false ∧ State.reset.isSealed = false ∧ State.reset.enforce = false

/-! ## Host access (R8–R13, R34–R44) -/

/-- Which registers a host write reaches while the part runs: those of an enabled tile, unless plot enforcement is on in OWNED
(R8, R41, R44); those of a quadrant or of the trellis from the CONFIGURED stage on, unless configuration gives them to a plot
under enforcement (R41, R471), and never of a RETIRED part (R342); those of Kelair unless enforcement is on (R290); all others. -/
def Obligations.HostWritesReachOpenRegisters : Prop :=
  ∀ (s : State) (a : Nat), s.live = true → a < 0x4000000 →
    (0x1000000 ≤ a ∧ a < 0x2000000 →
      (HostOpen s a ↔ s.tileOn ((a - 0x1000000) / 0x80000) = true ∧ s.enforce = false)) ∧
    ((0x2000000 ≤ a ∧ a < 0x2400000) ∨ (0x3000000 ≤ a ∧ a < 0x3100000) →
      (HostOpen s a ↔ s.fld A.glbSts F.glbSts.bootStage = 3 ∧ s.fld A.glbSts F.glbSts.lifecycle ≠ 3 ∧
        (s.enforce = false ∨ s.ownerOf a = none))) ∧
    (0x500000 ≤ a ∧ a < 0x510000 → (HostOpen s a ↔ s.enforce = false)) ∧
    (a < 0x500000 ∨ (0x510000 ≤ a ∧ a < 0x1000000) → HostOpen s a)

/-- REGISTER_WRITE reaches a register with no effect of its own: GLB_SCRATCH takes the whole word, in every lifecycle state,
and nothing else changes. A write of another size, at an offset that is not a multiple of 4, or where no register is, is
discarded: ACCESS_ERR sets, and the first refusal is captured (R8, R35, R43). While the part is held in reset nothing happens
(the model's choice: assumption log, entry 2). In OWNED with plot enforcement on, the host neither writes nor reads a register
of an enabled tile: the write is discarded, the read returns all-ones, and PLOT_DENY sets with the capture of the access (R41,
R43). The same accesses to a disabled tile set ACCESS_ERR, whatever the lifecycle state (R8, R44). A write to a BAR that arrives
poisoned or with a bad ECRC is discarded, and AER reports it (R356). -/
def Obligations.RegisterWritesReachOrAreRefused : Prop :=
  ((∀ (s : State) (w : Word), s.live = true →
    Completes (.registerWrite .control A.glbScratch 4 w) s fun t =>
      t.reg A.glbScratch = w ∧ OnlyRegs [A.glbScratch] s t) ∧
  (∀ (s : State) (win : Window) (off size : Nat) (w : Word), s.live = true → (∀ b, win ≠ .badWrite b) → (size ≠ 4 ∨ off % 4 ≠ 0) →
    Completes (.registerWrite win off size w) s fun t => Refused 0 (winCode win) off s t) ∧
  (∀ (s : State) (win : Window) (off : Nat) (w : Word), s.live = true → (∀ b, win ≠ .badWrite b) → off % 4 = 0 →
    findReg (winKey win off) = none →
    Completes (.registerWrite win off 4 w) s fun t => Refused 0 (winCode win) off s t) ∧
  (∀ (s : State) (win : Window) (off size : Nat) (w : Word), s.live = false → (∀ b, win ≠ .badWrite b) →
    Completes (.registerWrite win off size w) s fun t => t = s) ∧
  (∀ (s : State) (ecrc : Bool) (off size : Nat) (w : Word),
    Completes (.registerWrite (.badWrite ecrc) off size w) s fun t =>
      t = { s with pcie := { s.pcie with aer := s.pcie.aer ||| BitVec.ofNat 32 (2 ^ (if ecrc then 19 else 12)) } })) ∧
  (∀ (s : State) (off : Nat) (w : Word) (k : Nat), s.live = true → 0x1000000 ≤ off → off < 0x2000000 → off % 4 = 0 →
    (findReg off).isSome = true →
    (k = 1 ∧ s.enforce = true ∧ s.tileOn ((off - 0x1000000) / 0x80000) = true) ∨
      (k = 0 ∧ s.tileOn ((off - 0x1000000) / 0x80000) = false) →
    Completes (.registerWrite .control off 4 w) s (fun t => Refused k 0 off s t) ∧
    Completes (.snapshotRead .control off 4) s (fun t => t.readData = 0xFFFFFFFF ∧ Refused k 0 off { s with readData := 0xFFFFFFFF } t) ∧
    Completes (.readToClear .control off 4) s
      (fun t => t.readData = 0xFFFFFFFF ∧ Refused k 0 off { s with readData := 0xFFFFFFFF } t))

/-- A 64-bit quantity read as two halves keeps its snapshot (R13, R48): a read of DT_LO returns DT[31:0] and holds DT[63:32];
the read of DT_HI that follows, in whatever later tick, returns what was held, sets DT_STS.OVERRUN if a tick has passed, and
ends the hold. The same holds for NEXT_START of a plot, whose OVERRUN is in RUN_STS and sets where a new value arrived between
the two reads. A read of another size or off a word boundary returns all-ones and sets ACCESS_ERR (R8). The memory window serves
aligned reads of up to the maximum payload, whatever the sequencers do, and refuses the others with all-ones (R38, R39, R41). A read to clear returns the smallest margin of a timed queue and sets the register back to 7FFFh, and nothing
else changes (R10, R73). The configuration space answers with its identity while PE_PERST_n is high, and changes nothing (R354; the
vendor's number is free: assumption log, entry 230). -/
def Obligations.ReadsLatchAndClear : Prop :=
  (∀ s : State, s.live = true →
    Completes (.snapshotRead .control A.dtLo 4) s fun t =>
      t.readData = BitVec.ofNat 32 s.tm.dt.toNat ∧
      (t.hold A.dtHi).active = true ∧ (t.hold A.dtHi).hi = BitVec.ofNat 32 (s.tm.dt.toNat / 2 ^ 32) ∧
      (t.hold A.dtLo).tick = s.tm.now ∧ SameRegs [] s t ∧ t.tm = s.tm) ∧
  (∀ s : State, s.live = true → (s.hold A.dtHi).active = true →
    Completes (.snapshotRead .control A.dtHi 4) s fun t =>
      t.readData = (s.hold A.dtHi).hi ∧ (t.hold A.dtHi).active = false ∧ SameRegs [A.dtSts] s t ∧
      ((s.hold A.dtLo).tick ≠ s.tm.now → t.fld A.dtSts F.dtSts.overrun = 1)) ∧
  (∀ (s : State) (p : Plot), s.live = true → s.plotDefined p = true →
    Completes (.snapshotRead .control (A.nextStartLo p) 4) s fun t =>
      t.readData = s.reg (A.nextStartLo p) ∧ (t.hold (A.nextStartHi p)).hi = s.reg (A.nextStartHi p) ∧
      (t.hold (A.nextStartLo p)).fresh = false ∧ SameRegs [] s t) ∧
  (∀ (s : State) (p : Plot), s.live = true → s.plotDefined p = true → (s.hold (A.nextStartHi p)).active = true →
    Completes (.snapshotRead .control (A.nextStartHi p) 4) s fun t =>
      t.readData = (s.hold (A.nextStartHi p)).hi ∧ SameRegs [A.runSts p] s t ∧
      t.fld (A.runSts p) F.runSts.overrun =
        (if (s.hold (A.nextStartLo p)).fresh then 1 else s.fld (A.runSts p) F.runSts.overrun)) ∧
  (∀ (s : State) (i : Tile) (q : Seq), HostOpen s (A.tqMargin i q) →
    Completes (.readToClear .control (A.tqMargin i q) 4) s fun t =>
      t.readData = s.reg (A.tqMargin i q) ∧ t.fld (A.tqMargin i q) F.tqMargin.minMargin = 0x7FFF ∧
      SameRegs [A.tqMargin i q] s t ∧ SameBytes s t) ∧
  (∀ (s : State) (win : Window) (off size : Nat), s.live = true → (∀ b, win ≠ .badWrite b) → size ≠ 4 ∨ off % 4 ≠ 0 →
    let refused := fun t : State => t.readData = 0xFFFFFFFF ∧ Refused 0 (winCode win) off { s with readData := 0xFFFFFFFF } t
    Completes (.readToClear win off size) s refused ∧
    Completes (.snapshotRead (match win with | .doorbell => .doorbell | _ => .control) off size) s refused) ∧
  (∀ (s : State) (size : Nat),
    (s.pcie.perst = false → Completes (.snapshotRead .config 0 size) s fun t =>
      t = { s with readData := BitVec.ofNat 32 (0x256 * 2 ^ 16 + Config.vendorId.toNat) }) ∧
    (s.pcie.perst = true → Completes (.snapshotRead .config 0 size) s fun t => t = { s with readData := 0xFFFFFFFF })) ∧
  (∀ (s : State) (off n : Nat),
    (s.memRefuse .host off n = none →
      Completes (.snapshotRead .memory off n) s fun t => t.readMem = s.bytes off n ∧ t.readData = s.word off ∧
        t = { s with readData := t.readData, readMem := t.readMem }) ∧
    (∀ e, s.memRefuse .host off n = some e → e ≠ .ignored →
      Completes (.snapshotRead .memory off n) s fun t => t.readMem = List.replicate n 0xFF ∧ t.readData = 0xFFFFFFFF ∧
        Refused e.code 1 off { s with readData := t.readData, readMem := t.readMem } t)) ∧
  (∀ (s : State) (off n : Nat), s.live = true → off % 4 = 0 → n % 4 = 0 → 0 < n → n ≤ s.pcie.payload →
    (∀ i < n / 4, ∃ k, memTile (off + 4 * i) = some k ∧ s.tileOn k = true) →
    s.memRefuse .host off n = if s.enforce then some .plotDeny else none)

/-- A host write to the memory window of tiles that are enabled and idle, aligned and outside the reserved ranges, stores its
bytes, and nothing else changes (R38, R39). While a sequencer of such a tile is not IDLE, the write is discarded and MEM_BUSY
is set; misaligned, beyond the negotiated maximum payload, in a reserved range, or to a disabled tile, ACCESS_ERR; under plot enforcement, PLOT_DENY (R8, R38, R41).
-/
def Obligations.MemoryWindowWrites : Prop :=
  (∀ (s : State) (off : Nat) (data : List Byte), s.memRefuse .host off data.length = none →
    s.memBusy off data.length = false →
    Completes (.memWindowWrite off data) s fun t =>
      t.bytes off data.length = data ∧ SameBytesBut off data.length s t ∧ t = { s with mem := t.mem }) ∧
  (∀ (s : State) (off : Nat) (data : List Byte), s.memRefuse .host off data.length = none →
    s.memBusy off data.length = true →
    Completes (.memWindowWrite off data) s fun t => Refused 2 1 off s t ∧ SameBytes s t) ∧
  (∀ (s : State) (off : Nat) (data : List Byte), s.live = true →
    off % 4 ≠ 0 ∨ data.length % 4 ≠ 0 ∨ s.pcie.payload < data.length ∨
      (0 < data.length ∧ ∃ i < data.length / 4, ∀ n, memTile (off + 4 * i) = some n → s.tileOn n = false) →
    Completes (.memWindowWrite off data) s fun t => Refused 0 1 off s t ∧ SameBytes s t) ∧
  (∀ (s : State) (off : Nat) (data : List Byte), s.live = true → off % 4 = 0 → data.length % 4 = 0 → 0 < data.length →
    data.length ≤ s.pcie.payload → (∀ i < data.length / 4, ∃ n, memTile (off + 4 * i) = some n ∧ s.tileOn n = true) →
    (s.enforce = true → Completes (.memWindowWrite off data) s fun t => Refused 1 1 off s t ∧ SameBytes s t) ∧
    (s.enforce = false → s.memRefuse .host off data.length = none))

/-! ## The bridges (R20–R22, R44, R46, R186) -/

/-- BRIDGE_TRAINING at start-up: CBR_UP and BLK_UP take what trained, a quadrant's tiles can be enabled only where both did,
the boot reaches BRIDGES TRAINED and DT counts from then on (R20, R44, R46). Where a boot image is still to try, its fetch
begins with its SFDP (R298). BRIDGE_PARITY_ERROR sets the quadrant's CBR_ERR bit, fires event source 1,280 + q, mutes every
output of the wire group whose tile has a shot in progress, from the next tick until the end of that shot, and leaves every other
output's mute as it was (R21). The bias link of a quadrant: a frame with a bad CRC, of an entry, of a register write or another, is
repeated, and after three failed repeats the link is lost (R22). A lost
link clears BLK_UP, sets BLK_DOWN and HK_STS.LINK_LOST, fires event source 1,284 + q, and discards the entries on their way;
it retrains with BLK_UP set again (R22, R186). -/
def Obligations.BridgesTrainFailAndRecover : Prop :=
  (∀ (s : State) (cbr blk : BitVec 4) (x : ImgSrc) (xs : List ImgSrc), s.live = true → s.refLost = false →
    s.fld A.glbSts F.glbSts.bootStage = 0 → s.cfg.order = x :: xs →
    Completes (.bridgeTraining cbr blk) s fun t =>
      t.fld A.glbBridgeSts F.glbBridgeSts.cbrUp = cbr.toNat ∧ t.fld A.glbBridgeSts F.glbBridgeSts.blkUp = blk.toNat ∧
      t.fld A.glbSts F.glbSts.bootStage = 1 ∧ t.on A.dtSts F.dtSts.running = true ∧ t.cfg.trained = (cbr &&& blk).toNat ∧
      t.cfg.order = xs ∧ t.out = s.out ++ [.sfdpRead (if x = .slotB then 1 else 0)] ∧
      t = { s with regs := t.regs, tie := t.tie, cfg := t.cfg, out := t.out }) ∧
  (∀ (s : State) (q : Quad) (outs : List (Fin 8 × Fin 19)) (adc : BitVec 8),
    Completes (.bridgeParityError q outs adc) s fun t =>
      t.fld A.glbBridgeSts F.glbBridgeSts.cbrErr = s.fld A.glbBridgeSts F.glbBridgeSts.cbrErr ||| 2 ^ q.val ∧
      t.evq = s.evq ++ [(1280 + q.val, 0)] ∧ SameRegs [A.glbBridgeSts, A.evfSrcSts 40] s t ∧
      (∀ (i : Tile) (o : Fin 19) (n : Nat), (o.val, n) ∈ KMap.get [] t.parity i ↔
        (o.val, n) ∈ KMap.get [] s.parity i ∨ (∀ m, (o.val, m) ∉ KMap.get [] s.parity i) ∧ n = s.tm.now ∧
          (∃ k : Fin 8, i.val = 8 * q.val + k.val ∧ (k, o) ∈ outs) ∧
          ∃ (p : Nat) (h : Shot), s.plotOf i = some p ∧ s.current p = some h)) ∧
  ((∀ (s : State) (q : Quad) (j : BiasCh) (n : Nat) (e : BiasEntry) (b a : List BiasEntry), s.blkUp q = true →
    (s.bias q j).flight = b ++ e :: a → b.length = n →
    (e.repeats < 3 → Completes (.biasFrameCrcFail q (.entry j n)) s fun t =>
      (t.bias q j) = { s.bias q j with flight := b ++ { e with repeats := e.repeats + 1 } :: a } ∧
      t = { s with biases := t.biases } ∧ OnlyBias q j s t) ∧
    (3 ≤ e.repeats → Completes (.biasFrameCrcFail q (.entry j n)) s fun t => exec (.biasLinkLost q) s = .next t)) ∧
  (∀ (s : State) (q : Quad) (j : BiasCh) (n off due k : Nat) (w : Word) (b a : List (Nat × Word × Nat × Nat)), s.blkUp q = true →
    (s.bias q j).writes = b ++ (off, w, due, k) :: a → b.length = n → s.tm.now < due →
    (k < 3 → Completes (.biasFrameCrcFail q (.write j n)) s fun t =>
      (t.bias q j) = { s.bias q j with writes := b ++ (off, w, due + 80, k + 1) :: a } ∧
      t = { s with biases := t.biases } ∧ OnlyBias q j s t) ∧
    (3 ≤ k → Completes (.biasFrameCrcFail q (.write j n)) s fun t => exec (.biasLinkLost q) s = .next t)) ∧
  (∀ (s : State) (q : Quad) (f : Fin 4), s.blkUp q = true →
    Completes (.biasFrameCrcFail q (.other f)) s fun t => (f = 3 → exec (.biasLinkLost q) s = .next t) ∧ (f ≠ 3 → t = s)) ∧
  (∀ (s : State) (q : Quad), s.blkUp q = true →
    Completes (.biasLinkLost q) s fun t =>
      t.blkUp q = false ∧ (t.fld A.glbBridgeSts F.glbBridgeSts.blkDown).testBit q = true ∧
      t.fld (A.hkSts q) F.hkSts.linkLost = 1 ∧ t.evq = s.evq ++ [(1284 + q.val, 0)] ∧
      (∀ q' : Quad, q' ≠ q → t.blkUp q' = s.blkUp q') ∧ ∀ j : BiasCh, (t.bias q j).flight = []) ∧
  (∀ (s : State) (q : Quad), s.blkUp q = false → s.refLost = false → s.fld A.glbSts F.glbSts.bootStage ≠ 0 →
    KMap.get [] s.heldWrites q = [] → (s.hk q).held = [] → (s.hk q).heldRes = [] →
    Completes (.biasLinkRetrain q) s fun t =>
      t.blkUp q = true ∧ SameRegs [A.glbBridgeSts] s t ∧ (∀ q' : Quad, q' ≠ q → t.blkUp q' = s.blkUp q') ∧
      ∀ j : BiasCh, (t.bias q j).shadow = []))

/-! ## Device time (R45–R50) -/

/-- DT loads: ARM_NOW arms a load for the fourth tick after the write and ARM_PPS one for the next PPS_IN edge, with the value
that DT_LOAD holds at the write; CANCEL withdraws the pending load. An arm while a plot is not STOPPED, or while DT is
aligned, is refused: LOAD_REFUSED sets, and an earlier load stays withdrawn. At its tick the load writes DT, unless it is
refused there (R47, R50). -/
def Obligations.DeviceTimeLoads : Prop :=
  (∀ (s : State) (w : Word), s.live = true → s.loadRefused = false → getF w F.dtLoadCtl.cancel = 0 →
    Completes (.dtArmNow w) s fun t =>
      t.tm.loadAt = some (s.tm.now + 4) ∧ t.tm.loadVal.toNat = s.pair A.dtLoadLo A.dtLoadHi ∧ t.tm.dt = s.tm.dt ∧
      t.fld A.dtSts F.dtSts.loadPend = 1 ∧ SameRegs [A.dtSts] s t ∧ t = { s with regs := t.regs, tie := t.tie, tm := t.tm }) ∧
  (∀ (s : State) (w : Word), s.live = true → s.loadRefused = false → getF w F.dtLoadCtl.cancel = 0 →
    getF w F.dtLoadCtl.armNow = 0 →
    Completes (.dtArmPps w) s fun t =>
      t.tm.loadAt = none ∧ t.tm.loadVal.toNat = s.pair A.dtLoadLo A.dtLoadHi ∧ t.tm.dt = s.tm.dt ∧
      t.fld A.dtSts F.dtSts.loadPend = 1 ∧ SameRegs [A.dtSts] s t ∧ t = { s with regs := t.regs, tie := t.tie, tm := t.tm }) ∧
  (∀ (s : State) (w : Word), s.live = true → s.loadRefused = true → getF w F.dtLoadCtl.cancel = 0 →
    Completes (.dtArmNow w) s fun t =>
      t.fld A.dtSts F.dtSts.loadPend = 0 ∧ t.fld A.dtSts F.dtSts.loadRefused = 1 ∧ t.tm.dt = s.tm.dt ∧
      SameRegs [A.dtSts] s t) ∧
  (∀ (s : State) (w : Word), s.live = true → getF w F.dtLoadCtl.armNow = 0 → getF w F.dtLoadCtl.armPps = 0 →
    Completes (.dtLoadCancel w) s fun t =>
      t.fld A.dtSts F.dtSts.loadPend = 0 ∧ t.tm.loadAt = none ∧ t.tm.dt = s.tm.dt ∧ SameRegs [A.dtSts] s t) ∧
  (∀ s : State, s.on A.dtSts F.dtSts.loadPend = true → s.tm.loadAt = some s.tm.now → s.loadRefused = false →
    Completes .dtLoad s fun t =>
      t.tm.dt = s.tm.loadVal ∧ t.fld A.dtSts F.dtSts.loadPend = 0 ∧ t.fld A.dtSts F.dtSts.source = 1 ∧
      SameRegs [A.dtSts] s t) ∧
  (∀ s : State, s.on A.dtSts F.dtSts.loadPend = true → s.tm.loadAt = some s.tm.now → s.loadRefused = true →
    Completes .dtLoad s fun t =>
      t.tm.dt = s.tm.dt ∧ t.fld A.dtSts F.dtSts.loadPend = 0 ∧ t.fld A.dtSts F.dtSts.loadRefused = 1 ∧
      SameRegs [A.dtSts] s t)

/-- A write of DT_LOAD_CTL that sets both ARM_NOW and ARM_PPS arms as ARM_NOW does; one that sets CANCEL together with either
arm bit has no effect (R49). -/
def Obligations.DeviceTimeArmBits : Prop :=
  (∀ (s : State) (w : Word), s.live = true → getF w F.dtLoadCtl.cancel = 0 →
    ∃ t, exec (.dtArmPps (putF w F.dtLoadCtl.armNow 1)) s = .next t ∧
      exec (.dtArmNow (putF w F.dtLoadCtl.armPps 0)) s = .next t) ∧
  (∀ (s : State) (w : Word), s.live = true → getF w F.dtLoadCtl.cancel = 1 →
    Completes (.dtArmNow w) s (fun t => OnlyRegs [] s t) ∧ Completes (.dtArmPps w) s (fun t => OnlyRegs [] s t)) ∧
  (∀ (s : State) (w : Word), s.live = true → (getF w F.dtLoadCtl.armNow = 1 ∨ getF w F.dtLoadCtl.armPps = 1) →
    Completes (.dtLoadCancel w) s fun t => OnlyRegs [] s t)

/-! ## Run control and shots (R52–R69, R486) -/

/-- Run control (R62–R64). START on a STOPPED plot with shots to run arms it: SHOTS_DONE is 0, the next start is computed from
the later of RUN_START and DT + SHOT_LEAD + 16, and the sequencers of its tiles wait for the shot. START with no shot to run
leaves it STOPPED with DONE and cause 001b. A START that is refused changes nothing but CMD_IGNORED, and RUN_ALERT fires.
DRAIN with a start fixed or a shot in progress enters DRAINING, and without one STOPPED with DONE and cause 010b. ABORT takes
effect in the eighth tick. CLR_COUNT on a STOPPED plot sets SHOT_NUM to FFFF_FFFFh. GLB_ERR_ADDR_CLEAR arms the next capture
(R43): VALID clears, the captured KIND, WINDOW and OFFSET stay, and nothing else changes. MUTE_ALL sets or clears
GLB_CTL.MUTE_ALL, in every lifecycle state; set, it flags every shot in progress TAINT (R42, R68). DRAIN_ALL drains every plot
(R62, R64): one that is ARMED or RUNNING enters DRAINING while a start is fixed or a shot is in progress. -/
def Obligations.RunAndGlobalCommands : Prop :=
  ((∀ (s : State) (p : Plot) (w : Word), s.live = true → s.plotDefined p = true → s.enforce = false → w.toNat % 16 < 2 →
    s.startIgnored p = false → (s.reg (A.runShots p) ≠ 0 ∨ s.on (A.shotCtl p) F.shotCtl.runCont = true) →
    (∀ i : Tile, s.inPlot p i = true → s.patched i = false) →
    Completes (.runStart p w) s fun t =>
      t.runState p = 1 ∧ t.reg (A.shotsDone p) = 0 ∧ (t.sched p).computeAt = some s.DT ∧
      (t.sched p).firstEarliest = some (max (s.pair (A.runStartLo p) (A.runStartHi p)) (s.DT + s.lead p + 16)) ∧
      (s.dmaOk = true → t.evq = s.evq) ∧
      ∀ (i : Tile) (q : Seq), s.inPlot p i = true →
        t.seqState i q = (if s.seqState i q = 7 ∨ (s.seqState i q = 6 ∧ s.faultRestart i q = false) then s.seqState i q else 1)) ∧
  (∀ (s : State) (p : Plot) (w : Word), s.live = true → s.plotDefined p = true → s.enforce = false → w.toNat % 16 < 2 →
    s.startIgnored p = false → s.reg (A.runShots p) = 0 → s.on (A.shotCtl p) F.shotCtl.runCont = false →
    Completes (.runStart p w) s fun t =>
      t.runState p = 0 ∧ t.fld (A.runSts p) F.runSts.done = 1 ∧ t.fld (A.runSts p) F.runSts.stopCause = 1 ∧
      (1290 + 4 * p.val, 0) ∈ t.evq ∧ (s.dmaOk = true → t.evq = s.evq ++ [(1290 + 4 * p.val, 0)])) ∧
  (∀ (s : State) (p : Plot) (w : Word), s.live = true → s.plotDefined p = true → s.enforce = false → w.toNat % 16 < 2 →
    s.startIgnored p = true →
    Completes (.runStart p w) s fun t =>
      t.fld (A.runSts p) F.runSts.cmdIgnored = 1 ∧ t.runState p = s.runState p ∧ t.evq = s.evq ++ [(1291 + 4 * p.val, 0)] ∧
      SameRegs [A.runSts p, A.evfSrcSts ((1291 + 4 * p.val) / 32)] s t) ∧
  (∀ (s : State) (p : Plot) (w : Word), s.live = true → s.plotDefined p = true → w.toNat % 16 / 4 = 0 → w.toNat % 2 = 0 →
    s.runState p = 1 ∨ s.runState p = 2 → Settled p s →
    Completes (.runDrain p w) s fun t =>
      if (s.sched p).fixed.isSome ∨ (s.current p).isSome then
        t.runState p = 3 ∧ t.evq = s.evq ∧ SameRegs [A.runSts p] s t
      else t.runState p = 0 ∧ t.fld (A.runSts p) F.runSts.done = 1 ∧ t.fld (A.runSts p) F.runSts.stopCause = 2 ∧
        t.evq = s.evq ++ [(1290 + 4 * p.val, 0)]) ∧
  (∀ (s : State) (p : Plot) (w : Word), s.live = true → s.plotDefined p = true → (s.enforce = false ∨ (w.toNat % 2 = 0 ∧ w.toNat / 8 % 2 = 0)) →
    s.stopped p = false → (s.sched p).abortAt = none → Settled p s →
    Completes (.runAbort p w) s fun t =>
      (t.sched p).abortAt = some (s.DT + 8, false) ∧ t.runState p = s.runState p ∧
      t = { s with regs := t.regs, tie := t.tie, scheds := t.scheds, evq := t.evq } ∧
      (w.toNat % 16 = 0 ∨ w.toNat % 16 = 4 → t.evq = s.evq) ∧
      (w.toNat % 16 ≠ 0 ∧ w.toNat % 16 ≠ 4 → t.fld (A.runSts p) F.runSts.cmdIgnored = 1)) ∧
  (∀ (s : State) (p : Plot) (w : Word), s.live = true → s.plotDefined p = true → s.enforce = false → w.toNat % 8 = 0 →
    (s.stopped p = true →
      Completes (.clrCount p w) s fun t => t.reg (A.shotNum p) = 0xFFFFFFFF ∧ OnlyRegs [A.shotNum p] s t) ∧
    (s.stopped p = false →
      Completes (.clrCount p w) s fun t => t.fld (A.runSts p) F.runSts.cmdIgnored = 1 ∧ t.reg (A.shotNum p) = s.reg (A.shotNum p)))) ∧
  ((∀ (s : State) (c : Word), s.live = true → s.on A.glbErrAddr F.glbErrAddr.valid = true →
    (getF (KMap.get 0 s.tie.set A.glbErrAddr) F.glbErrAddr.valid = 1 →
      Completes .glbErrAddrClear s fun t => t.reg A.glbErrAddr = s.reg A.glbErrAddr ∧ OnlyRegs [] s t) ∧
    (getF (KMap.get 0 s.tie.set A.glbErrAddr) F.glbErrAddr.valid = 0 → s.tie.refused = some c →
      Completes .glbErrAddrClear s fun t => t.reg A.glbErrAddr = c ∧ OnlyRegs [A.glbErrAddr] s t)) ∧
  (∀ s : State, s.live = true → getF (KMap.get 0 s.tie.set A.glbErrAddr) F.glbErrAddr.valid = 0 → s.tie.refused = none →
    Completes .glbErrAddrClear s fun t =>
      t.fld A.glbErrAddr F.glbErrAddr.valid = 0 ∧
      t.fld A.glbErrAddr F.glbErrAddr.kind = s.fld A.glbErrAddr F.glbErrAddr.kind ∧
      t.fld A.glbErrAddr F.glbErrAddr.window = s.fld A.glbErrAddr F.glbErrAddr.window ∧
      t.fld A.glbErrAddr F.glbErrAddr.offset = s.fld A.glbErrAddr F.glbErrAddr.offset ∧
      OnlyRegs [A.glbErrAddr] s t) ∧
  (∀ (s : State) (on : Bool), s.live = true →
    Completes (.muteAll on) s fun t =>
      t.fld A.glbCtl F.glbCtl.muteAll = b2n on ∧ SameRegs [A.glbCtl] s t ∧ SameBytes s t ∧
      t = { s with regs := t.regs, tie := t.tie, scheds := t.scheds } ∧
      ∀ (p : Plot), (t.sched p).shots =
        if on then (s.sched p).shots.map fun h => if h.stop.isNone then { h with flags := h.flags ||| Flag.taint } else h
        else (s.sched p).shots) ∧
  (∀ (s : State) (mute : Bool), s.live = true →
    (∀ p : Plot, ((s.sched p).fixed.isSome = true ∨ (s.current p).isSome = true) ∧ Settled p s) →
    Completes (.drainAll mute) s fun t =>
      t.fld A.glbCtl F.glbCtl.muteAll = b2n mute ∧
      t = { s with regs := t.regs, tie := t.tie, scheds := t.scheds } ∧
      ∀ p : Plot, t.runState p = (if s.runState p = 1 ∨ s.runState p = 2 then 3 else s.runState p) ∧
        (t.sched p).cmdTick = some s.DT))

/-- A conditioned edge that was sampled 10 ticks ago reaches every plot that selects its ball and edge: with TRIGGERED mode, neither STOPPED nor DRAINING, and
no trigger pending, it becomes the pending trigger, with T the tick in which the ball was sampled; with one pending it is
discarded, and as its tick ends SHOT_TRIG_OVF sets and RUN_ALERT fires; otherwise it is ignored. With no such edge nothing happens.
An abort that reaches the scheduler in the tick of a trigger ignores it, whether it was only pending or had fixed the start already,
and nothing of it is reported (R58). -/
def Obligations.TriggersReachTheirPlots : Prop :=
  (∀ (s : State) (i : Fin 16) (rising : Bool), s.edgeDue i rising = false →
    Completes (.shotTrigger i rising) s fun t => t = s) ∧
  (∀ (s : State) (i : Fin 16) (rising : Bool), s.edgeDue i rising = true → 10 ≤ s.DT →
    Completes (.shotTrigger i rising) s fun t =>
      t = { s with regs := t.regs, tie := t.tie, scheds := t.scheds, tius := t.tius } ∧ t.edgeDue i rising = false ∧
      (∀ j, j ≠ i.val → t.tiu j = s.tiu j) ∧
      ∀ p : Plot,
        if s.fld (A.shotCtl p) F.shotCtl.trigSel = i.val ∧ s.on (A.shotCtl p) F.shotCtl.trigEdge = !rising ∧
            s.fld (A.shotCtl p) F.shotCtl.mode = 1 ∧ s.runState p ≠ 0 ∧ s.runState p ≠ 3 ∧ (s.sched p).cmdTick ≠ some s.DT then
          if (s.sched p).trig.isSome then
            t.sched p = { s.sched p with trigOvf := true } ∧ t.reg (A.runSts p) = s.reg (A.runSts p)
          else t.fld (A.runSts p) F.runSts.trigPending = 1 ∧ (t.sched p).trig = some (s.DT - 10, s.DT)
        else t.sched p = s.sched p ∧ t.reg (A.runSts p) = s.reg (A.runSts p)) ∧
  (∀ (s : State) (p : Plot), (s.sched p).trigOvf = true →
    (s.trigLate p).fld (A.runSts p) F.runSts.shotTrigOvf = 1 ∧ (s.trigLate p).evq = s.evq ++ [(1291 + 4 * p.val, 0)] ∧
    ((s.trigLate p).sched p).trigOvf = false) ∧
  (∀ s : State, s.pending = [] → step s = step ((List.range 8).foldl State.trigLate s)) ∧
  ∀ (s : State) (p : Plot) (w : Word) (T : Nat), s.live = true → s.plotDefined p = true → s.enforce = false →
    s.stopped p = false → (s.sched p).trig = some (T, s.DT) →
    Completes (.runAbort p w) s fun t =>
      (t.sched p).trig = none ∧ (t.sched p).trigOvf = false ∧ t.fld (A.runSts p) F.runSts.trigPending = 0 ∧
      (∀ u, (s.sched p).undo = some u → u.tick = s.DT → (t.sched p).fixed = none) ∧ (t.sched p).abortAt.isSome = true

/-- The scheduler fixes the start in the computing tick (R55–R57). PERIODIC: the first grid point RUN_START + k · SHOT_PERIOD
at or after the earliest permitted start and after the previous start, each point passed over counting a slip. BACK_TO_BACK:
the earliest permitted start, E + SHOT_LEAD + max(SHOT_GAP_MIN, P), at least E + 1 + SHOT_LEAD. TRIGGERED: T + max(TRIG_DELAY,
SHOT_LEAD + 10), or the earliest permitted start where that is later. -/
def Obligations.NextStartIsFixed : Prop :=
  (∀ (s : State) (p : Plot) (e : Nat), (s.sched p).computeAt = some s.DT → s.runState p = 1 ∨ s.runState p = 2 →
    s.fld (A.shotCtl p) F.shotCtl.mode = 0 → s.reg (A.shotPeriod p) ≠ 0 → (s.sched p).lastStart = none →
    (s.sched p).firstEarliest = some e →
    Completes (.nextStartFix p) s fun t => ∃ f k : Nat, ∃ g : Fixed, (t.sched p).fixed = some g ∧ g.start = f ∧
      f = s.pair (A.runStartLo p) (A.runStartHi p) + k * (s.reg (A.shotPeriod p)).toNat ∧ e ≤ f ∧
      (∀ m : Nat, e ≤ s.pair (A.runStartLo p) (A.runStartHi p) + m * (s.reg (A.shotPeriod p)).toNat →
        f ≤ s.pair (A.runStartLo p) (A.runStartHi p) + m * (s.reg (A.shotPeriod p)).toNat) ∧
      (t.sched p).computeAt = none ∧ t = { s with scheds := t.scheds }) ∧
  (∀ (s : State) (p : Plot) (l k : Nat), (s.sched p).computeAt = some s.DT → s.runState p = 1 ∨ s.runState p = 2 →
    s.fld (A.shotCtl p) F.shotCtl.mode = 0 → s.reg (A.shotPeriod p) ≠ 0 → (s.sched p).firstEarliest = none →
    s.cal.req.contains p.val = false → (s.sched p).lastStart = some l →
    l = s.pair (A.runStartLo p) (A.runStartHi p) + k * (s.reg (A.shotPeriod p)).toNat →
    Completes (.nextStartFix p) s fun t => ∃ g : Fixed, ∃ n : Nat, (t.sched p).fixed = some g ∧
      g.start = l + (n + 1) * (s.reg (A.shotPeriod p)).toNat ∧ g.pause = (pauseOf (s.gapReqs p [])).1 ∧
      s.earliest p g.pause ≤ g.start ∧ (0 < n → g.start - (s.reg (A.shotPeriod p)).toNat < s.earliest p g.pause) ∧
      (t.reg (A.slipCount p)).toNat = min ((s.reg (A.slipCount p)).toNat + n) 0xFFFFFFFF ∧
      (g.flags &&& Flag.slipped ≠ 0 ↔ 0 < n ∨ (pauseOf (s.gapReqs p [])).2 &&& Flag.slipped ≠ 0)) ∧
  (∀ (s : State) (p : Plot), (s.sched p).computeAt = some s.DT → s.runState p = 1 ∨ s.runState p = 2 →
    s.fld (A.shotCtl p) F.shotCtl.mode = 2 → (s.sched p).firstEarliest = none → s.cal.req.contains p.val = false →
    Completes (.nextStartFix p) s fun t => ∃ g : Fixed, (t.sched p).fixed = some g ∧
      g.pause = (pauseOf (s.gapReqs p [])).1 ∧
      g.start = max ((s.sched p).lastEnd + s.lead p + max (s.reg (A.shotGapMin p)).toNat g.pause) ((s.sched p).lastEnd + 1 + s.lead p) ∧
      (t.reg (A.pauseLast p)).toNat = g.pause % 2 ^ 32) ∧
  (∀ (s : State) (p : Plot) (T r : Nat), (s.sched p).computeAt = some s.DT → s.runState p = 1 ∨ s.runState p = 2 →
    s.fld (A.shotCtl p) F.shotCtl.mode = 1 → (s.sched p).firstEarliest = none → s.cal.req.contains p.val = false →
    (s.sched p).trig = some (T, r) →
    Completes (.nextStartFix p) s fun t => ∃ g : Fixed, (t.sched p).fixed = some g ∧
      g.start = max (T + max (s.reg (A.trigDelay p)).toNat (s.lead p + 10)) (s.earliest p g.pause) ∧
      (g.flags &&& Flag.triggered ≠ 0))

/-- SHOT_ANNOUNCE at S − SHOT_LEAD: the fixed start becomes a shot in progress, NEXT_START takes it, an ARMED plot is RUNNING,
and every sequencer that waits begins with TC = 0 (R59, R77, R82, R486). SHOT_START at S: SHOT_NUM and SHOTS_DONE increment,
the shot takes the new number, SHOT_START fires (R59, R66), and the markers and vector lines of its tiles are at level 0
(R148, R149). How a shot ends (R52, R53, R62, R63). In the tick of the last end marker or window close, it ends: LAST_LEN is
its length, SHOT_END fires, and the run stops with cause 010b if it drains, with cause 001b after shot number RUN_SHOTS, or
goes on, its next start computed one tick later. At S + SHOT_MAX it is cut, unless the events of that tick end it, with SHOT_CUT set and its timed queues emptied but for their
HALTED marks (R77). An
abort that takes effect empties them too and leaves the plot STOPPED with cause 011b, or 100b after an UNDERRUN, with its
markers and vector lines at level 0 (R148, R149). -/
def Obligations.ShotsAreAnnouncedStartAndEnd : Prop :=
  ((∀ (s : State) (p : Plot) (f : Fixed), (s.sched p).fixed = some f → f.start = s.DT + s.lead p →
    s.on (A.klCoord p) F.klCoord.en = false →
    Completes (.shotAnnounce p) s fun t =>
      (∃ h ∈ (t.sched p).shots, h.sid = (s.sched p).nextSid ∧ h.start = f.start ∧ h.started = false ∧ h.stop = none) ∧
      (t.sched p).fixed = none ∧ (t.sched p).trig = none ∧ (t.sched p).nextSid = (s.sched p).nextSid + 1 ∧
      t.pair (A.nextStartLo p) (A.nextStartHi p) = f.start % 2 ^ 64 ∧ t.fld (A.runSts p) F.runSts.inShot = 1 ∧
      t.runState p = (if s.runState p = 1 then 2 else s.runState p) ∧
      ∀ (i : Tile) (q : Seq), s.inPlot p i = true → s.seqState i q = 1 →
        t.seqState i q = 2 ∧ t.tc i q = 0 ∧ (t.tq (sk i q)) = { owes := true }) ∧
  (∀ (s : State) (p : Plot) (h : Shot), s.current p = some h → h.started = false → h.start = s.DT →
    s.on (A.klCoord p) F.klCoord.en = false →
    Completes (.shotStart p) s fun t =>
      t.reg (A.shotNum p) = s.reg (A.shotNum p) + 1 ∧ t.reg (A.shotsDone p) = s.reg (A.shotsDone p) + 1 ∧
      (1288 + 4 * p.val, 0) ∈ t.evq ∧ (t.sched p).lastStart = some s.DT ∧
      (∀ x ∈ (t.sched p).shots, x.sid = h.sid → x.started = true ∧ x.num = s.reg (A.shotNum p) + 1) ∧
      ∀ (i : Tile) (m : Fin 4), s.inPlot p i = true → t.mark i m = {})) ∧
  ((∀ (s : State) (p : Plot) (h : Shot), s.current p = some h → h.started = true → s.shotOver p = true →
    s.DT = (s.sched p).endTick → s.pair2.mirrors = [] →
    Completes (.shotEnd p) s fun t =>
      t.fld (A.runSts p) F.runSts.inShot = 0 ∧ t.reg (A.lastLen p) = BitVec.ofNat 32 (s.DT - h.start) ∧
      (1289 + 4 * p.val, 0) ∈ t.evq ∧ (t.sched p).lastEnd = s.DT ∧ SameBytes s t ∧
      (s.runState p = 3 → t.runState p = 0 ∧ t.fld (A.runSts p) F.runSts.stopCause = 2 ∧ t.fld (A.runSts p) F.runSts.done = 1) ∧
      (s.runState p ≠ 3 → s.on (A.shotCtl p) F.shotCtl.runCont = false →
        (s.reg (A.runShots p)).toNat ≤ (s.reg (A.shotsDone p)).toNat →
        t.runState p = 0 ∧ t.fld (A.runSts p) F.runSts.stopCause = 1 ∧ t.fld (A.runSts p) F.runSts.done = 1) ∧
      (s.runState p ≠ 3 → s.on (A.shotCtl p) F.shotCtl.runCont = true →
        t.runState p = s.runState p ∧ (t.sched p).computeAt = some (s.DT + 1))) ∧
  (∀ (s : State) (p : Plot) (h : Shot), s.current p = some h → h.started = true → s.shotOver p = false → s.endsNow p = false →
    s.DT = h.start + (s.reg (A.shotMax p)).toNat → s.pair2.mirrors = [] →
    Completes (.shotCut p) s fun t =>
      t.fld (A.runSts p) F.runSts.shotCut = 1 ∧ t.fld (A.runSts p) F.runSts.inShot = 0 ∧
      t.reg (A.lastLen p) = s.reg (A.shotMax p) ∧ (1291 + 4 * p.val, 0) ∈ t.evq ∧ (1289 + 4 * p.val, 0) ∈ t.evq ∧ SameBytes s t ∧
      ∀ (i : Tile) (q : Seq), s.inPlot p i = true → t.tq (sk i q) = { haltAt := (s.tq (sk i q)).haltAt }) ∧
  (∀ (s : State) (p : Plot) (u : Bool), (s.sched p).abortAt = some (s.DT, u) → s.pair2.mirrors = [] →
    Completes (.abortTakesEffect p) s fun t =>
      t.runState p = 0 ∧ t.fld (A.runSts p) F.runSts.stopCause = (if u then 4 else 3) ∧ t.fld (A.runSts p) F.runSts.done = 1 ∧
      (t.sched p).abortAt = none ∧ (t.sched p).fixed = none ∧ SameBytes s t ∧
      ∀ (i : Tile), s.inPlot p i = true → (∀ q : Seq, t.tq (sk i q) = { haltAt := (s.tq (sk i q)).haltAt }) ∧
        ∀ m : Fin 4, t.mark i m = {}))

/-! ## Sequencer instructions (R78–R125, R485) -/

/-- The ALU instructions write S[RA] from S[RB] and operand 2, which is the immediate with FLG[0] and S[RC] otherwise; shifts
go by the low five bits of operand 2 and MUL keeps the low 32 bits. MOVI writes its immediate. Nothing else changes (R87,
R110). RDSP loads S[RA] with the value that SUB[2:0] names: TC, SHOT_NUM of the plot, the tile, the sequencer's index (for a
sequencer that is no spare), REMAIN of the top loop entry or 0, the loop depth; 6 and 7 fault with BAD_OPERAND (R111). -/
def Obligations.AluInstructionsAndRdsp : Prop :=
  (∀ (s : State) (i : Tile) (q : Seq), FallsThrough s i q →
    let x := s.insAt i q (s.pc i q)
    let a := s.sreg i q x.rb
    let b := if x.flag 0 then BitVec.ofNat 32 x.imm else s.sreg i q x.rc
    let W := fun (v : Word) (cyc : Nat) (t : State) => t.sreg i q x.ra = v ∧ Steps [A.seqS i q x.ra] i q cyc s t
    (Passes s i q 0x40 → Completes (.add i q .clean) s (W (a + b) 1)) ∧
    (Passes s i q 0x41 → Completes (.sub i q .clean) s (W (a - b) 1)) ∧
    (Passes s i q 0x42 → Completes (.and i q .clean) s (W (a &&& b) 1)) ∧
    (Passes s i q 0x43 → Completes (.or i q .clean) s (W (a ||| b) 1)) ∧
    (Passes s i q 0x44 → Completes (.xor i q .clean) s (W (a ^^^ b) 1)) ∧
    (Passes s i q 0x45 → Completes (.shl i q .clean) s (W (a <<< (b.toNat % 32)) 1)) ∧
    (Passes s i q 0x46 → Completes (.shr i q .clean) s (W (a >>> (b.toNat % 32)) 1)) ∧
    (Passes s i q 0x47 → Completes (.sra i q .clean) s (W (a.sshiftRight (b.toNat % 32)) 1)) ∧
    (Passes s i q 0x48 → Completes (.mul i q .clean) s (W (BitVec.ofNat 32 (a.toNat * b.toNat)) 3)) ∧
    (Passes s i q 0x49 → Completes (.movi i q .clean) s (W (BitVec.ofNat 32 x.imm) 1))) ∧
  (∀ (s : State) (i : Tile) (q : Seq), Passes s i q 0x4A →
    let x := s.insAt i q (s.pc i q)
    let n := bits x.sub 2 0
    let W := fun (v : Word) => Completes (.rdsp i q .clean) s fun t =>
      t.sreg i q x.ra = v ∧ Steps [A.seqS i q x.ra] i q 1 s t
    (FallsThrough s i q →
      (n = 0 → W (s.reg (A.seqTc i q))) ∧
      (∀ p, n = 1 → s.plotOf i = some p → W (s.reg (A.shotNum p))) ∧
      (n = 2 → W (BitVec.ofNat 32 i)) ∧
      (n = 3 → q.val < 32 → W (BitVec.ofNat 32 q)) ∧
      (n = 4 → s.depth i q = 0 → W 0) ∧
      (n = 4 → s.depth i q ≠ 0 → W (s.reg (A.seqLoopRem i q (s.depth i q - 1)))) ∧
      (n = 5 → W (BitVec.ofNat 32 (s.depth i q)))) ∧
    (6 ≤ n → s.queueFull (sk i q) = false →
      Completes (.rdsp i q .clean) s fun t => Faults 3 (s.insHi i q) i q s t))

/-- WAIT adds its operand to TC, unsigned; a sum above FFFF_FFFFh faults with TC_OVF and leaves TC unchanged. WAITUNTIL sets
TC to its target when the target is at least TC; a smaller target leaves TC unchanged and sets TC_CLAMP, without a fault (R91,
R92). -/
def Obligations.WaitMovesTheCursor : Prop :=
  ∀ (s : State) (i : Tile) (q : Seq),
    let x := s.insAt i q (s.pc i q)
    let n := if x.flag 0 then (s.sreg i q x.ra).toNat else x.imm
    (Passes s i q 0x10 → FallsThrough s i q → s.tc i q + n ≤ 0xFFFFFFFF →
      Completes (.wait i q .clean) s fun t => t.tc i q = s.tc i q + n ∧ Steps [A.seqTc i q] i q 1 s t) ∧
    (Passes s i q 0x10 → s.queueFull (sk i q) = false → 0xFFFFFFFF < s.tc i q + n →
      Completes (.wait i q .clean) s fun t => Faults 0xB 0 i q s t) ∧
    (Passes s i q 0x11 → FallsThrough s i q → s.tc i q ≤ n →
      Completes (.waituntil i q .clean) s fun t => t.tc i q = n ∧ Steps [A.seqTc i q] i q 2 s t) ∧
    (Passes s i q 0x11 → FallsThrough s i q → n < s.tc i q →
      Completes (.waituntil i q .clean) s fun t =>
        t.tc i q = s.tc i q ∧ t.fld (A.seqSts i q) F.seqSts.tcClamp = 1 ∧ t.seqState i q = 2 ∧
        Steps [A.seqSts i q] i q 2 s t)

/-- LD and ST use the word address S[RB] + IMM as an unsigned 32-bit sum, and an address above 255 faults with DM_RANGE. LD
loads the data-memory word; ST stores S[RA] there and changes no other byte; a later LD of that word returns what ST stored
(R112). -/
def Obligations.LoadAndStoreDataMemory : Prop :=
  ∀ (s : State) (i : Tile) (q : Seq),
    let x := s.insAt i q (s.pc i q)
    let a := s.sreg i q x.rb + BitVec.ofNat 32 x.imm
    (Passes s i q 0x50 → FallsThrough s i q → a.toNat ≤ 255 →
      Completes (.ld i q .clean) s fun t =>
        t.sreg i q x.ra = s.dm i q a.toNat ∧ Steps [A.seqS i q x.ra] i q 2 s t) ∧
    (Passes s i q 0x51 → FallsThrough s i q → a.toNat ≤ 255 →
      Completes (.st i q .clean) s fun t =>
        t.dm i q a.toNat = s.sreg i q x.ra ∧ SameBytesBut (dataAt i q a.toNat) 4 s t ∧ t.pc i q = s.pc i q + 1 ∧
        SameRegs (seqMoves i q) s t ∧ t = { s with regs := t.regs, tie := t.tie, holds := t.holds, mem := t.mem } ∧
        ∀ u : State, u.mem = t.mem → Passes u i q 0x50 → FallsThrough u i q →
          u.sreg i q (u.insAt i q (u.pc i q)).rb + BitVec.ofNat 32 (u.insAt i q (u.pc i q)).imm = a →
          Completes (.ld i q .clean) u fun v => v.sreg i q (u.insAt i q (u.pc i q)).ra = s.sreg i q x.ra) ∧
    (Passes s i q 0x50 → s.queueFull (sk i q) = false → 255 < a.toNat →
      Completes (.ld i q .clean) s fun t => Faults 8 a i q s t) ∧
    (Passes s i q 0x51 → s.queueFull (sk i q) = false → 255 < a.toNat →
      Completes (.st i q .clean) s fun t => Faults 8 a i q s t)

/-- BR is taken when the condition RC holds between S[RA] and S[RB], or 0 with FLG[0]; taken, it pops IMM[15:12] loop entries
and PC becomes IMM[11:0]; not taken, it pops nothing. A pop count above 8 and a reserved condition fault with BAD_OPERAND,
taken or not; a pop count above the stack depth faults with LOOP_UNF where the branch is taken (R103). -/
def Obligations.BranchesTakeTheirTarget : Prop :=
  ∀ (s : State) (i : Tile) (q : Seq), Passes s i q 0x02 →
    let x := s.insAt i q (s.pc i q)
    let a := s.sreg i q x.ra
    let b := if x.flag 0 then 0 else s.sreg i q x.rb
    let pops := bits x.imm 15 12
    let holds : Prop := match x.rc with
      | 0 => True
      | 1 => a = b
      | 2 => a ≠ b
      | 3 => a.toInt < b.toInt
      | 4 => b.toInt ≤ a.toInt
      | 5 => a.toNat < b.toNat
      | _ => b.toNat ≤ a.toNat
    (x.rc ≤ 6 → pops ≤ 8 → holds → pops ≤ s.depth i q → s.depth i q ≤ 8 →
      Completes (.br i q .clean) s fun t =>
        t.pc i q = bits x.imm 11 0 ∧ t.depth i q = s.depth i q - pops ∧ t.tc i q = s.tc i q ∧ Counts i q 4 s t ∧
        (∀ k, k < 16 → t.sreg i q k = s.sreg i q k) ∧
        (∀ k, k < s.depth i q - pops → t.reg (A.seqLoopRem i q k) = s.reg (A.seqLoopRem i q k)) ∧
        t = { s with regs := t.regs, tie := t.tie, holds := t.holds }) ∧
    (x.rc ≤ 6 → pops ≤ 8 → ¬ holds → FallsThrough s i q →
      Completes (.br i q .clean) s fun t => Steps [] i q 2 s t) ∧
    (s.queueFull (sk i q) = false → (7 ≤ x.rc ∨ 8 < pops) →
      Completes (.br i q .clean) s fun t => Faults 3 (s.insHi i q) i q s t) ∧
    (s.queueFull (sk i q) = false → x.rc ≤ 6 → pops ≤ 8 → holds → s.depth i q < pops →
      Completes (.br i q .clean) s fun t => Faults 6 0 i q s t)

/-- LOOP with a count pushes START = PC + 1, END and REMAIN; with count 0 it pushes nothing and PC becomes END + 1, or PC_END
faults where END is 4,095; an END below PC + 1 faults with BAD_OPERAND, a push onto a full stack with LOOP_OVF (R104). An
instruction that completes at the END address of the top entry decrements REMAIN and goes back to START, or pops the entry and
tests the next one in the same way (R105). BRMW waits in STALL_DEC with its operands latched, unless its key set is undefined
(BAD_OPERAND) or BASE is misaligned (MISALIGNED, before it waits). When all K decision bits are valid and have reached the island,
one to two of its cycles later, PC becomes BASE OR v; if the deadline S + TC − 20 arrives first it faults with DEC_TIMEOUT; with
NO_DEADLINE it never does. TC stays (R106, R107, R239, R243). -/
def Obligations.LoopsReturnAndBrmwDecides : Prop :=
  (∀ (s : State) (i : Tile) (q : Seq),
    let x := s.insAt i q (s.pc i q)
    let d := s.depth i q
    let endA := bits x.imm 11 0
    let c : Word := if x.flag 0 then s.sreg i q x.ra else BitVec.ofNat 32 (bits x.imm 31 12)
    (Passes s i q 0x04 → s.pc i q + 1 ≤ endA → c ≠ 0 → d < 8 →
      Completes (.loop i q .clean) s fun t =>
        t.pc i q = s.pc i q + 1 ∧ t.depth i q = d + 1 ∧ t.fld (A.seqLoopSe i q d) F.seqLoopSe.start = s.pc i q + 1 ∧
        t.fld (A.seqLoopSe i q d) F.seqLoopSe.endPc = endA ∧ t.reg (A.seqLoopRem i q d) = c ∧
        SameRegs (A.seqSts i q :: A.seqLoopSe i q d :: A.seqLoopRem i q d :: seqMoves i q) s t) ∧
    (Passes s i q 0x04 → s.pc i q + 1 ≤ endA → c = 0 → endA < 4095 →
      Completes (.loop i q .clean) s fun t =>
        t.pc i q = endA + 1 ∧ t.depth i q = d ∧ SameRegs (seqMoves i q) s t) ∧
    (Passes s i q 0x04 → s.queueFull (sk i q) = false → s.pc i q + 1 ≤ endA → c = 0 → endA = 4095 →
      Completes (.loop i q .clean) s fun t => Faults 4 0 i q s t ∧ Counts i q 3 s t) ∧
    (Passes s i q 0x04 → s.queueFull (sk i q) = false → endA < s.pc i q + 1 →
      Completes (.loop i q .clean) s fun t => Faults 3 (s.insHi i q) i q s t) ∧
    (Passes s i q 0x04 → s.queueFull (sk i q) = false → s.pc i q + 1 ≤ endA → c ≠ 0 → 8 ≤ d →
      Completes (.loop i q .clean) s fun t => Faults 5 0 i q s t) ∧
    (Passes s i q 0x00 → 0 < d → d ≤ 8 → s.fld (A.seqLoopSe i q (d - 1)) F.seqLoopSe.endPc = s.pc i q →
      s.reg (A.seqLoopRem i q (d - 1)) ≠ 0 → s.reg (A.seqLoopRem i q (d - 1)) ≠ 1 →
      Completes (.nop i q .clean) s fun t =>
        t.pc i q = s.fld (A.seqLoopSe i q (d - 1)) F.seqLoopSe.start ∧ t.depth i q = d ∧
        t.reg (A.seqLoopRem i q (d - 1)) = s.reg (A.seqLoopRem i q (d - 1)) - 1) ∧
    (Passes s i q 0x00 → s.pc i q < 4095 → 0 < d → d ≤ 8 → s.fld (A.seqLoopSe i q (d - 1)) F.seqLoopSe.endPc = s.pc i q →
      s.reg (A.seqLoopRem i q (d - 1)) = 1 →
      (d = 1 ∨ s.fld (A.seqLoopSe i q (d - 2)) F.seqLoopSe.endPc ≠ s.pc i q) →
      Completes (.nop i q .clean) s fun t =>
        t.pc i q = s.pc i q + 1 ∧ t.depth i q = d - 1 ∧ t.reg (A.seqLoopSe i q (d - 1)) = 0 ∧
        t.reg (A.seqLoopRem i q (d - 1)) = 0) ∧
    (Passes s i q 0x00 → 2 ≤ d → d ≤ 8 → s.fld (A.seqLoopSe i q (d - 1)) F.seqLoopSe.endPc = s.pc i q →
      s.reg (A.seqLoopRem i q (d - 1)) = 1 → s.fld (A.seqLoopSe i q (d - 2)) F.seqLoopSe.endPc = s.pc i q →
      s.reg (A.seqLoopRem i q (d - 2)) ≠ 0 → s.reg (A.seqLoopRem i q (d - 2)) ≠ 1 →
      Completes (.nop i q .clean) s fun t =>
        t.pc i q = s.fld (A.seqLoopSe i q (d - 2)) F.seqLoopSe.start ∧ t.depth i q = d - 1 ∧
        t.reg (A.seqLoopRem i q (d - 2)) = s.reg (A.seqLoopRem i q (d - 2)) - 1)) ∧
  ((∀ (s : State) (i : Tile) (q : Seq), Passes s i q 0x03 →
    let x := s.insAt i q (s.pc i q)
    let k := bits x.imm 13 12 + 1
    let base := bits x.imm 11 0
    let ks := bits x.imm 16 14
    (s.keyDefined i ks k = true → base % 2 ^ k = 0 →
      Completes (.brmw i q .clean) s fun t =>
        t.seqState i q = 4 ∧ (t.seq (sk i q)).stall = .dec base k ks (s.midxOperand i q x) (x.flag 1) ∧
        t.pc i q = s.pc i q ∧ t.tc i q = s.tc i q ∧ t.tq (sk i q) = s.tq (sk i q)) ∧
    (s.queueFull (sk i q) = false → s.keyDefined i ks k = false →
      Completes (.brmw i q .clean) s fun t => Faults 3 (s.insHi i q) i q s t) ∧
    (s.queueFull (sk i q) = false → s.keyDefined i ks k = true → base % 2 ^ k ≠ 0 →
      Completes (.brmw i q .clean) s fun t => Faults 7 0 i q s t)) ∧
  (∀ (s : State) (i : Tile) (q : Seq) (cyc base k ks midx v : Nat) (nd : Bool), s.seqState i q = 4 →
    (s.seq (sk i q)).micro = none → (s.seq (sk i q)).stall = .dec base k ks midx nd →
    keyValue (s.keyBits i ks midx (s.runTag i) k 0) = some v →
    (s.islandPast i q 1 (s.keyAge i ks k) = true →
      Completes (.brmwDecisionValid i q cyc) s fun t =>
        t.pc i q = (base ||| v) % 4096 ∧ t.seqState i q = 2 ∧ (t.seq (sk i q)).stall = .none ∧ t.tc i q = s.tc i q ∧
        SameRegs (A.seqSts i q :: seqMoves i q) s t) ∧
    (s.islandPast i q 1 (s.keyAge i ks k) = false → Completes (.brmwDecisionValid i q cyc) s fun t => t = s)) ∧
  (∀ (s : State) (i : Tile) (q : Seq) (cyc base k ks midx : Nat), s.seqState i q = 4 → s.queueFull (sk i q) = false →
    s.patched i = false → (s.seq (sk i q)).micro = none → (s.seq (sk i q)).bad = none →
    (s.seq (sk i q)).stall = .dec base k ks midx false →
    (keyValue (s.keyBits i ks midx (s.runTag i) k 0) = none ∨ s.islandPast i q 2 (s.keyAge i ks k) = false) →
    s.brmwDeadline i q ≤ s.DT →
    Completes (.brmwDeadline i q cyc) s fun t => Faults 9 (toW (s.brmwDeadline i q)) i q s t) ∧
  (∀ (s : State) (i : Tile) (q : Seq) (cyc base k ks midx : Nat),
    (s.seq (sk i q)).stall = .dec base k ks midx true →
    Completes (.brmwDeadline i q cyc) s fun t => t = s))

/-- The instructions that issue a command send one entry, stamped with TC and with its operands as read at issue, to the
channel's timed queue, and the program goes on (R93–R101): EVT, PLAY, MARK, VEC, MEAS, BIASQ, FREQ, PHASE and ARM. -/
def Obligations.IssuedCommandsReachTheQueue : Prop :=
  ∀ (s : State) (i : Tile) (q : Seq), FallsThrough s i q → s.queueFull (sk i q) = false →
    let x := s.insAt i q (s.pc i q)
    (Passes s i q 0x06 → Completes (.evt i q .clean) s (Issues (.evt (bits x.sub 1 0)) i q 2 s)) ∧
    (Passes s i q 0x20 → (fluxRole (s.role i q) = false ∨ bits x.sub 2 0 = 0) →
      Completes (.play i q .clean) s (Issues (.play
        { seg := if x.flag 1 then (s.sreg i q x.rb).toNat % 4096 else bits x.imm 11 0
          amp := if x.flag 0 then (s.sreg i q x.ra).toNat % 262144 else bits x.imm 31 14
          slot := bits x.sub 2 0
          jump := x.sub.testBit 3 }) i q 2 s)) ∧
    (Passes s i q 0x22 → Completes (.mark i q .clean) s
      (Issues (.mark (x.flag 0) (bits x.sub 1 0) (if x.flag 0 then bits x.imm 1 0 else bits x.imm 15 0)) i q 2 s)) ∧
    (Passes s i q 0x23 → Completes (.vec i q .clean) s
      (Issues (.vec (x.flag 0) (bits x.sub 1 0) (if x.flag 0 then bits x.imm 1 0 else bits x.imm 15 0)) i q 2 s)) ∧
    (Passes s i q 0x24 → s.lenOperand i q x ≠ 0 → s.lenOperand i q x ≤ 65535 →
      (x.imm.testBit 21 && x.imm.testBit 22) = false →
      Completes (.meas i q .clean) s (Issues (.meas (s.lenOperand i q x) (bits x.imm 19 16)
        (if x.flag 1 then (s.sreg i q x.rb).toNat % 256 else x.sub) (x.imm.testBit 20) (x.imm.testBit 21) (x.imm.testBit 22))
        i q 3 s)) ∧
    (Passes s i q 0x25 → Completes (.biasq i q .clean) s
      (Issues (.biasq (bits x.sub 3 0) (if x.flag 0 then (s.sreg i q x.ra).toNat % 1048576 else bits x.imm 19 0)) i q 2 s)) ∧
    (Passes s i q 0x30 → Completes (.freq i q .clean) s
      (Issues (.freq (bits x.sub 2 0) (s.freqOperand i q x)) i q (if x.flag 0 then 2 else 3) s)) ∧
    (Passes s i q 0x31 → Completes (.phase i q .clean) s
      (Issues (.phase (bits x.sub 2 0) (x.flag 1) (if x.flag 0 then s.sreg i q x.ra else BitVec.ofNat 32 x.imm)) i q 2 s)) ∧
    (∀ alts, Passes s i q 0x21 →
      bits x.imm 13 10 + 1 ≤ 2 ^ (bits x.imm 9 8 + 1) → bits x.imm 17 14 < bits x.imm 13 10 + 1 →
      s.keyDefined i (bits x.imm 20 18) (bits x.imm 9 8 + 1) = true → bits x.imm 6 0 + bits x.imm 13 10 ≤ 127 →
      s.altsFrom i q (s.role i q) (bits x.imm 6 0) (bits x.imm 13 10 + 1) 0 = .ok alts →
      Completes (.arm i q .clean) s (Issues (.arm alts (bits x.imm 9 8 + 1) (bits x.imm 17 14) (bits x.imm 20 18)
        (s.midxOperand i q x)) i q (3 + bits x.imm 13 10) s))

/-- A command issued to a full queue stalls its sequencer in STALL_Q: STALLED sets and QUEUE_FULL fires once in a shot; when
an entry is freed, the command enters the queue and the program goes on, END's preload follows, or the fault that waited is taken
(R71, R114). END sends an end marker stamped with TC, preloads and waits for the next shot (R81, R102): its 2 cycles and the 4 of
the preload count (assumption log, entry 168). SYNC on a barrier that does not list the sequencer faults with SYNC_ABSENT; else the
sequencer waits in STALL_SYNC. At the release, every waiting participant goes on with TC at the largest TC of the participants
that wait, or with its own under NOALIGN (R108). -/
def Obligations.StallsEndsAndBarriers : Prop :=
  ((∀ (s : State) (i : Tile) (q : Seq), Passes s i q 0x06 → s.queueFull (sk i q) = true →
    Completes (.evt i q .clean) s fun t =>
      t.seqState i q = 3 ∧ t.on (A.tqSts i q) F.tqSts.stalled = true ∧ (t.tq (sk i q)).fullFired = true ∧
      (t.seq (sk i q)).stall = .queue (.evt (bits (s.insAt i q (s.pc i q)).sub 1 0)) (s.tc i q) .next s.tm.now ∧
      t.pc i q = s.pc i q ∧ (t.tq (sk i q)).flight = (s.tq (sk i q)).flight ∧
      t.evq = (if (s.tq (sk i q)).fullFired then s.evq else s.evq ++ [(tileSrc i 1, 0)])) ∧
  (∀ (s : State) (i : Tile) (q : Seq) (cyc stamp since : Nat) (cmd : TqCmd), s.seqState i q = 3 →
    (s.seq (sk i q)).micro = none → (s.seq (sk i q)).stall = .queue cmd stamp .next since → s.queueFull (sk i q) = false → FallsThrough s i q →
    Completes (.queueStallEnd i q cyc) s fun t =>
      t.seqState i q = 2 ∧ (t.seq (sk i q)).stall = .none ∧ t.pc i q = s.pc i q + 1 ∧
      (t.tq (sk i q)).flight = (s.tq (sk i q)).flight ++
        [{ cmd := cmd, stamp := stamp, sid := s.runSid i, issued := s.tm.now, stalledAt := some since }] ∧
      SameRegs (A.seqSts i q :: seqMoves i q) s t) ∧
  (∀ (s : State) (i : Tile) (q : Seq) (cyc stamp since : Nat) (cmd : TqCmd) (f : FaultInfo), s.seqState i q = 3 →
    s.queueFull (sk i q) = false → (s.seq (sk i q)).micro = none → (s.seq (sk i q)).bad = none → s.patched i = false →
    let sent := (s.tq (sk i q)).flight ++
      [{ cmd := cmd, stamp := stamp, sid := s.runSid i, issued := s.tm.now, stalledAt := some since }]
    ((s.seq (sk i q)).stall = .queue cmd stamp .preload since →
      Completes (.queueStallEnd i q cyc) s fun t =>
        t.seqState i q = 1 ∧ (t.seq (sk i q)).stall = .none ∧ (t.seq (sk i q)).done = true ∧ Preloaded i q s t ∧
        (t.tq (sk i q)).flight = sent) ∧
    ((s.seq (sk i q)).stall = .queue cmd stamp (.fault f) since →
      Completes (.queueStallEnd i q cyc) s fun t =>
        t.seqState i q = 6 ∧ (t.seq (sk i q)).stall = .none ∧ (t.tq (sk i q)).flight = sent ∧ t.pc i q = s.pc i q ∧
        t.evq = s.evq ++ [(tileSrc i 2, 0)] ∧ CountsUp (A.seqFaultCnt i q) 1 s t ∧
        (s.on (A.seqFault i q) F.seqFault.valid = false →
          t.fld (A.seqFault i q) F.seqFault.cause = f.cause % 32 ∧ t.reg (A.seqFaultInfo i q) = f.info))) ∧
  (∀ (s : State) (i : Tile) (q : Seq), Passes s i q 0x01 → s.queueFull (sk i q) = false →
    Completes (.endI i q .clean) s fun t =>
      t.seqState i q = 1 ∧ Preloaded i q s t ∧ Counts i q 6 s t ∧ (t.seq (sk i q)).done = true ∧
      (t.tq (sk i q)).flight = (s.tq (sk i q)).flight ++
        [{ cmd := .endMarker, stamp := s.tc i q, sid := s.runSid i, issued := s.tm.now }])) ∧
  ((∀ (s : State) (i : Tile) (q : Seq), Passes s i q 0x05 →
    let b := bits (s.insAt i q (s.pc i q)).sub 3 0
    (s.inBarrier i q b = true →
      Completes (.sync i q .clean) s fun t =>
        t.seqState i q = 5 ∧ (t.seq (sk i q)).stall = .sync b ((s.insAt i q (s.pc i q)).flag 0) ∧
        t.pc i q = s.pc i q ∧ t.tc i q = s.tc i q) ∧
    (s.queueFull (sk i q) = false → s.inBarrier i q b = false →
      Completes (.sync i q .clean) s fun t => Faults 0xC 0 i q s t)) ∧
  (∀ (s : State) (p : Plot) (b : Fin 16), (∃ k ∈ s.participants p b, s.waitsAt b k = true) →
    (∀ k ∈ s.participants p b, s.waitsAt b k = true ∨ (s.seq k).done = true) →
    Completes (.syncRelease p b) s fun t => ∃ m : Nat,
      (∃ k ∈ s.participants p b, s.waitsAt b k = true ∧ s.tc (k / 34) (k % 34) = m) ∧
      (∀ k ∈ s.participants p b, s.waitsAt b k = true → s.tc (k / 34) (k % 34) ≤ m) ∧
      ∀ (i : Tile) (q : Seq) (na : Bool), sk i q ∈ s.participants p b → s.seqState i q = 5 →
        (s.seq (sk i q)).stall = .sync b na → (s.seq (sk i q)).micro = none → FallsThrough s i q →
        t.seqState i q = 2 ∧ (t.seq (sk i q)).stall = .none ∧ t.pc i q = s.pc i q + 1 ∧
        t.tc i q = if na then s.tc i q else m))

/-- The faults of an instruction's fetch and fields, in the order of R485: a double-bit program-memory error (PM_ECC) before
anything else, an unlisted opcode (ILLEGAL_OP), a role that may not execute it (ROLE), a reserved bit that is not 0
(BAD_OPERAND); and PC_END after an instruction at address 4,095 has completed. A single-bit error is corrected, counted, and
the instruction executes (R80, R86, R88, R113, R114). A parity error of the first microword faults with UCODE (R113, R117). Where a
match register redirects the first microword to the patch RAM, a word with wrong parity faults with UCODE at its address there, and
a word that ends the routine counts the hit and lets the instruction complete in one cycle, with the effect of its nano-word, which
may change S0–S15 and TC where it is not the ROM's (R117, R120, R121; the effect is free: assumption log, entry 40). CLR_FAULT clears SEQ_FAULT.VALID; a sequencer that is FAULTED, or IDLE with a recorded fault, then
preloads and waits, in IDLE while its plot is STOPPED and in WAIT_SHOT otherwise; one without a recorded fault keeps its registers
(R115). A write of SEQ_CTL sets START_PC and FAULT_RESTART of an idle sequencer; of one that is not, it leaves START_PC and ENABLE,
and WR_IGNORED tells so where they would have changed; ENABLE set on an OFF sequencer makes it IDLE in a STOPPED plot,
preloads it in one without a shot in progress, and lets it join at the end of the shot otherwise, but leaves a spare without a role
OFF; ENABLE cleared on an idle one makes it OFF (R83, R88, R124). After sealing, START_PC and ENABLE stay, and ACCESS_ERR tells so where
they would have changed (R303). -/
def Obligations.FaultsAndSequencerControl : Prop :=
  (∀ (s : State) (i : Tile) (q : Seq), s.running i q = true → s.queueFull (sk i q) = false →
    let x := s.insAt i q (s.pc i q)
    (x.op = 0 ∨ opMask x.op = none → s.patched i = false → Completes (.nop i q .double) s fun t => Faults 0xD 0 i q s t) ∧
    (x.op = 0x20 → s.patched i = false → Completes (.play i q .double) s fun t => Faults 0xD 0 i q s t) ∧
    (opMask x.op = none → s.patched i = false →
      Completes (.nop i q .clean) s fun t => Faults 1 0 i q s t) ∧
    (x.op = 0x20 → s.patched i = false → 3 < s.role i q →
      Completes (.play i q .clean) s fun t => Faults 2 0 i q s t) ∧
    (x.op = 0x40 → s.patched i = false → x.sub ≠ 0 →
      Completes (.add i q .clean) s fun t => Faults 3 (s.insHi i q) i q s t) ∧
    (x.op = 0x40 → s.patched i = false → (s.seq (sk i q)).micro = none →
      Completes (.add i q (.microParity 0)) s fun t => Faults 0xE 0x800 i q s t ∧ t.fld (A.ucSts i) F.ucSts.parErr = 1 ∧
        CountsUp (A.ucParCnt i) 1 s t) ∧
    (∀ m, x.op = 0 → s.ucMatch i 0 = some m → (s.seq (sk i q)).micro = none →
      let target := s.fld (A.ucMatch i m) F.ucMatch.target
      let w := s.reg (A.ucPatchRam i target)
      (oddParity w = false →
        Completes (.nop i q .clean) s fun t =>
          t.seqState i q = 6 ∧ t.pc i q = s.pc i q ∧ t.tc i q = s.tc i q ∧ SameBytes s t ∧
          (t.tq (sk i q)).flight = (s.tq (sk i q)).flight ++
            [{ cmd := .endMarker, stamp := s.tc i q, sid := s.runSid i, issued := s.tm.now }] ∧
          (s.on (A.seqFault i q) F.seqFault.valid = false →
            t.fld (A.seqFault i q) F.seqFault.valid = 1 ∧ t.fld (A.seqFault i q) F.seqFault.cause = 0xE ∧
            t.reg (A.seqFaultInfo i q) = BitVec.ofNat 32 (0x2000 + target)) ∧
          t.fld (A.ucSts i) F.ucSts.parErr = 1 ∧ min ((s.reg (A.ucParCnt i)).toNat + 1) 0xFFFFFFFF ≤ (t.reg (A.ucParCnt i)).toNat) ∧
      (microFault w = none → mwDone w = true → x = ⟨0, 0, 0, 0, 0, 0, 0⟩ → FallsThrough s i q →
        (mwNano w = mwNano (romWord 0) →
          Completes (.nop i q .clean) s fun t => CountsUp (A.ucHitCnt i m) 1 s t ∧ t.pc i q = s.pc i q + 1 ∧ Counts i q 1 s t ∧
            SameRegs (A.ucHitCnt i m :: seqMoves i q) s t ∧
            t = { s with regs := t.regs, holds := t.holds, tie := t.tie, seqs := t.seqs }) ∧
        (mwNano w ≠ mwNano (romWord 0) →
          Completes (.nop i q .clean) s fun t => CountsUp (A.ucHitCnt i m) 1 s t ∧ t.pc i q = s.pc i q + 1 ∧ Counts i q 1 s t ∧
            SameRegs (A.ucHitCnt i m :: A.seqTc i q :: (List.range 16).map (A.seqS i q) ++ seqMoves i q) s t ∧
            t = { s with regs := t.regs, holds := t.holds, tie := t.tie, seqs := t.seqs }))) ∧
    (Passes s i q 0 → s.pc i q = 4095 → s.depth i q = 0 →
      Completes (.nop i q .clean) s fun t => Faults 4 0 i q s t ∧ Counts i q 2 s t) ∧
    (Passes s i q 0 → FallsThrough s i q →
      Completes (.nop i q .clean) s (Steps [] i q 1 s) ∧
      Completes (.nop i q .single) s fun t =>
        t.pc i q = s.pc i q + 1 ∧ Counts i q 1 s t ∧ t.on (A.seqSts i q) F.seqSts.pmCorr = true ∧
        (t.reg (A.seqPmCorr i q)).toNat = min ((s.reg (A.seqPmCorr i q)).toNat + 1) 0xFFFFFFFF ∧
        t.evq = s.evq ++ [(tileSrc i 3, 0)])) ∧
  ((∀ (s : State) (i : Tile) (q : Seq) (w : Word), HostOpen s (A.seqCtl i q) → s.isSealed = false →
    getF w F.seqCtl.startPc = s.fld (A.seqCtl i q) F.seqCtl.startPc →
    getF w F.seqCtl.enable = s.fld (A.seqCtl i q) F.seqCtl.enable →
    (s.seqState i q = 6 ∨ (s.seqState i q = 0 ∧ s.on (A.seqFault i q) F.seqFault.valid = true) →
      s.patched i = false → Completes (.clrFault i q w) s fun t =>
        t.on (A.seqFault i q) F.seqFault.valid = false ∧ Preloaded i q s t ∧
        t.seqState i q = (match s.plotOf i with | some p => if s.stopped p then 0 else 1 | none => 0)) ∧
    (s.seqState i q ≠ 6 → s.on (A.seqFault i q) F.seqFault.valid = false → s.cfg.hold = none →
      Completes (.clrFault i q w) s fun t => OnlyRegs [A.seqCtl i q, A.seqFault i q] s t)) ∧
  (∀ (s : State) (i : Tile) (q : Seq) (w : Word), HostOpen s (A.seqCtl i q) → s.isSealed = false →
    (s.seqIdle i q = true → getF w F.seqCtl.enable = s.fld (A.seqCtl i q) F.seqCtl.enable →
      Completes (.seqCtlWrite i q w) s fun t =>
        t.fld (A.seqCtl i q) F.seqCtl.startPc = getF w F.seqCtl.startPc ∧
        t.fld (A.seqCtl i q) F.seqCtl.faultRestart = getF w F.seqCtl.faultRestart ∧ OnlyRegs [A.seqCtl i q] s t) ∧
    (s.seqIdle i q = false →
      Completes (.seqCtlWrite i q w) s fun t =>
        t.fld (A.seqCtl i q) F.seqCtl.startPc = s.fld (A.seqCtl i q) F.seqCtl.startPc ∧
        t.fld (A.seqCtl i q) F.seqCtl.enable = s.fld (A.seqCtl i q) F.seqCtl.enable ∧
        t.fld (A.seqCtl i q) F.seqCtl.faultRestart = getF w F.seqCtl.faultRestart ∧
        t.fld (A.seqSts i q) F.seqSts.wrIgnored =
          (if getF w F.seqCtl.startPc = s.fld (A.seqCtl i q) F.seqCtl.startPc ∧
              getF w F.seqCtl.enable = s.fld (A.seqCtl i q) F.seqCtl.enable then s.fld (A.seqSts i q) F.seqSts.wrIgnored
            else 1) ∧ OnlyRegs [A.seqCtl i q, A.seqSts i q] s t) ∧
    (∀ p, s.seqState i q = 7 → s.on (A.seqCtl i q) F.seqCtl.enable = false → getF w F.seqCtl.enable = 1 → s.plotOf i = some p →
      s.role i q ≠ 5 →
      (s.stopped p = true → Completes (.seqCtlWrite i q w) s fun t => t.seqState i q = 0) ∧
      (s.stopped p = false → s.current p = none → s.patched i = false →
        Completes (.seqCtlWrite i q w) s fun t => t.seqState i q = 1 ∧ t.pc i q = getF w F.seqCtl.startPc) ∧
      (s.stopped p = false → s.current p ≠ none →
        Completes (.seqCtlWrite i q w) s fun t => t.seqState i q = 7 ∧ (t.seq (sk i q)).joinAtEnd = true)) ∧
    (s.seqState i q = 7 → s.on (A.seqCtl i q) F.seqCtl.enable = false → getF w F.seqCtl.enable = 1 →
      (s.role i q = 5 → Completes (.seqCtlWrite i q w) s fun t =>
        t.seqState i q = 7 ∧ t.fld (A.seqCtl i q) F.seqCtl.enable = 1 ∧ OnlyRegs [A.seqCtl i q] s t) ∧
      (s.role i q ≠ 5 → s.plotOf i = none → Completes (.seqCtlWrite i q w) s fun t => t.seqState i q = 0)) ∧
    (s.seqIdle i q = true → s.on (A.seqCtl i q) F.seqCtl.enable = true → getF w F.seqCtl.enable = 0 →
      Completes (.seqCtlWrite i q w) s fun t => t.seqState i q = 7 ∧ (t.seq (sk i q)).joinAtEnd = false ∧
        t.fld (A.seqCtl i q) F.seqCtl.enable = 0 ∧ SameRegs [A.seqCtl i q, A.seqSts i q] s t)) ∧
  (∀ (s : State) (i : Tile) (q : Seq) (w : Word), HostOpen s (A.seqCtl i q) → s.isSealed = true →
    Completes (.seqCtlWrite i q w) s fun t =>
      t.fld (A.seqCtl i q) F.seqCtl.startPc = s.fld (A.seqCtl i q) F.seqCtl.startPc ∧
      t.fld (A.seqCtl i q) F.seqCtl.enable = s.fld (A.seqCtl i q) F.seqCtl.enable ∧
      t.fld (A.seqCtl i q) F.seqCtl.faultRestart = getF w F.seqCtl.faultRestart ∧
      if getF w F.seqCtl.startPc = s.fld (A.seqCtl i q) F.seqCtl.startPc ∧ getF w F.seqCtl.enable = s.fld (A.seqCtl i q) F.seqCtl.enable
      then OnlyRegs [A.seqCtl i q] s t
      else t.reg A.glbErrSts = s.reg A.glbErrSts ||| 1 ∧ OnlyRegs [A.seqCtl i q, A.glbErrSts, A.glbErrAddr] s t))

/-! ## Timed queues and playout (R70–R77, R96–R101, R134–R149, R241) -/

/-- The arrival of a command in its timed queue (R72–R75). At least 20 ticks before its stamp, it takes its place at that tick
and no event fires. Later than that it is late: LATE sets, TQ_LATE_CNT counts, TQ_LAST_LATE takes the stamp, the tile's LATE
source fires, and the shot is flagged; under DROP it does not enter, under EXECUTE_NOW it takes its place 20 ticks from now,
under HALT the channel halts at its stamp, or in the next tick where the stamp has passed. An end marker enters in every case. An
entry that is on time but has to wait behind one that EXECUTE_NOW moved is marked as it arrives and counts as late when it executes
(R74). -/
def Obligations.CommandsArriveInTheirQueue : Prop :=
  ∀ (s : State) (i : Tile) (q : Seq) (p : Nat) (h : Shot) (f : Flight) (fs : List Flight),
    s.plotOf i = some p → s.startOf p f.sid = some h → (s.tq (sk i q)).flight = f :: fs →
    f.issued + 2 = s.tm.now ∨ f.issued + 3 = s.tm.now → f.stalledAt = none → (s.tq (sk i q)).stamp ≠ some f.stamp →
    let k := sk i q
    let late := fun t : State => t.on (A.tqSts i q) F.tqSts.late = true ∧
      (t.reg (A.tqLateCnt i q)).toNat = min ((s.reg (A.tqLateCnt i q)).toNat + 1) 0xFFFFFFFF ∧
      t.reg (A.tqLastLate i q) = BitVec.ofNat 32 f.stamp ∧ Fires (tileSrc i 0) s t ∧
      LateIn p f.sid k (Flag.late ||| Flag.taint) t ∧ (t.tq k).flight = fs
    (f.cmd ≠ .endMarker → (s.tq k).haltAt = none → s.DT + 20 ≤ h.start + f.stamp → (s.tq k).ahead ≤ f.stamp →
      (s.tq k).countAt f.stamp < 4 →
      Completes (.tqEntryArrival i q) s fun t =>
        (t.tq k).held = (s.tq k).held ++ [{ cmd := f.cmd, stamp := f.stamp, sid := f.sid, execAt := f.stamp }] ∧
        (t.tq k).flight = fs ∧ (t.tq k).haltAt = none ∧ (∀ j, j ≠ k → t.tq j = s.tq j) ∧
        SameRegs [A.tqMargin i q, A.tqSts i q] s t ∧ t.on (A.tqSts i q) F.tqSts.late = s.on (A.tqSts i q) F.tqSts.late ∧
        t = { s with regs := t.regs, tie := t.tie, tqs := t.tqs }) ∧
    (f.cmd ≠ .endMarker → (s.tq k).haltAt = none → h.start + f.stamp < s.DT + 20 → s.fld (A.tqCtl i q) F.tqCtl.latePol = 1 →
      Completes (.tqEntryArrival i q) s fun t => late t ∧ (t.tq k).held = (s.tq k).held ∧ (t.tq k).haltAt = none) ∧
    (f.cmd ≠ .endMarker → (s.tq k).haltAt = none → h.start + f.stamp < s.DT + 20 → s.fld (A.tqCtl i q) F.tqCtl.latePol = 2 →
      h.start + (s.tq k).ahead ≤ s.DT + 20 → h.start ≤ s.DT + 20 → (s.tq k).countAt (s.DT + 20 - h.start) < 4 →
      Completes (.tqEntryArrival i q) s fun t => late t ∧ (t.tq k).haltAt = none ∧
        (t.tq k).held = (s.tq k).held ++
          [{ cmd := f.cmd, stamp := f.stamp, sid := f.sid, execAt := s.DT + 20 - h.start }]) ∧
    (f.cmd ≠ .endMarker → (s.tq k).haltAt = none → h.start + f.stamp < s.DT + 20 → s.fld (A.tqCtl i q) F.tqCtl.latePol = 0 →
      Completes (.tqEntryArrival i q) s fun t => late t ∧ (t.tq k).held = (s.tq k).held ∧
        (t.tq k).haltAt = some (max f.stamp (s.DT + 1 - h.start))) ∧
    (f.cmd = .endMarker →
      Completes (.tqEntryArrival i q) s fun t =>
        (t.tq k).held = (s.tq k).held ++
          [{ cmd := .endMarker, stamp := f.stamp, sid := f.sid, execAt := max (max f.stamp (s.DT + 1 - h.start)) (s.tq k).ahead }] ∧
        (t.tq k).flight = fs ∧ t = { s with regs := t.regs, tie := t.tie, tqs := t.tqs }) ∧
    (f.cmd ≠ .endMarker → (s.tq k).haltAt = none → s.DT + 20 ≤ h.start + f.stamp → f.stamp < (s.tq k).ahead →
      (s.tq k).countAt (s.tq k).ahead < 4 →
      Completes (.tqEntryArrival i q) s fun t =>
        (t.tq k).held = (s.tq k).held ++
          [{ cmd := f.cmd, stamp := f.stamp, sid := f.sid, execAt := (s.tq k).ahead, moved := true }] ∧
        t = { s with regs := t.regs, tie := t.tie, tqs := t.tqs }) ∧
    ∀ (e : Entry) (n : Nat), s.due i q = some e → e.moved = true → e.cmd = .evt n →
      Completes (.evtExecute i q) s fun t => t.on (A.tqSts i q) F.tqSts.late = true ∧ CountsUp (A.tqLateCnt i q) 1 s t ∧
        t.reg (A.tqLastLate i q) = BitVec.ofNat 32 e.stamp ∧ LateIn p e.sid k (Flag.late ||| Flag.taint) t ∧ Popped k s t ∧
        t.evq = s.evq ++ [(tileSrc i 0, 0), (tileSrc i (4 + n), 0)]

/-- What the front entry of a timed queue does at its tick on the path that its sequencer feeds (R134–R140). A PLAY starts its
segment at once; a segment that the sequencer may not play leaves the channel as it is, with BAD_SEG and the tile's source 10.
A jump request is held; it takes effect at the first grid boundary at least 8 ticks later and not at the anchor itself, and
the jump counter counts; a start or an end marker of the same tick goes first, and the jump then waits for it. After its last sample a segment is over. The end marker of a sequencer ends its channel's part in the
shot (R53, R75): what its path plays ends, a pending jump is dropped, and the shot cannot end before this tick. -/
def Obligations.PlayoutFollowsItsQueue : Prop :=
  ((∀ (s : State) (i : Tile) (q : Seq) (e : Entry) (a : PlayArg) (n : Nat), s.due i q = some e → e.moved = false → e.cmd = .play a → a.jump = false →
    s.pathOf i q = some n → s.haltedAt i q e.execAt = false →
    (s.playable i q a.seg = true → s.segDecant i a.seg = false → Undecanted s i n →
      Completes (.playExecute i q) s fun t => Plays i n e.execAt a s t ∧ (t.chan i n).jump = (s.chan i n).jump ∧
        Popped (sk i q) s t ∧ t = { s with chans := t.chans, tqs := t.tqs }) ∧
    (s.playable i q a.seg = true → s.segDecant i a.seg = true → s.ddState i (s.segDesc i a.seg) = 2 → Undecanted s i n →
      Completes (.playExecute i q) s fun t => Plays i n e.execAt a s t ∧ Popped (sk i q) s t ∧
        t.ddState i (s.segDesc i a.seg) = 3 ∧ t.reg (A.ddChunk i (s.segDesc i a.seg)) = 0 ∧
        t.dec i (s.segDesc i a.seg) = { s.dec i (s.segDesc i a.seg) with player := some (n,
          { seg := a.seg, start := e.execAt, len := 16 * s.segLen i a.seg, amp := a.amp, slot := a.slot }) } ∧
        t = { s with chans := t.chans, tqs := t.tqs, regs := t.regs, tie := t.tie, decs := t.decs }) ∧
    (s.playable i q a.seg = false →
      Completes (.playExecute i q) s fun t => t.on (chanSts i n) (chanBad n) = true ∧ Fires (tileSrc i 10) s t ∧
        Popped (sk i q) s t ∧ t = { s with tqs := t.tqs, regs := t.regs, tie := t.tie, evq := t.evq, scheds := t.scheds })) ∧
  (∀ (s : State) (i : Tile) (q : Seq) (e : Entry) (a : PlayArg) (n : Nat), s.due i q = some e → e.moved = false → e.cmd = .play a → a.jump = true →
    s.pathOf i q = some n → s.haltedAt i q e.execAt = false →
    Completes (.jumpRequest i q) s fun t =>
      t.chan i n = { s.chan i n with jump := some (a, e.execAt) } ∧ Popped (sk i q) s t ∧
      t.fld (chanSts i n) (chanRepl n) = (if (s.chan i n).jump.isSome then 1 else s.fld (chanSts i n) (chanRepl n)) ∧
      SameRegs [chanSts i n] s t ∧ t = { s with chans := t.chans, tqs := t.tqs, regs := t.regs, tie := t.tie }) ∧
  (∀ (s : State) (i : Tile) (q : Seq) (n r c k : Nat) (a : PlayArg), s.pathOf i q = some n → s.relTile i = some r →
    (s.chan i n).jump = some (a, c) →
    (s.beforeJump i q r = true → Completes (.jumpTakeEffect i q) s fun t => t = s) ∧
    (s.beforeJump i q r = false → s.haltedAt i q r = false → 1 ≤ k → r = (s.chan i n).g0 + 16 * k → c + 8 ≤ r →
    (k = 1 ∨ r < c + 24) → s.playable i q a.seg = true → s.segDecant i a.seg = false → Undecanted s i n →
    Completes (.jumpTakeEffect i q) s fun t => Plays i n r a s t ∧ (t.chan i n).jump = none ∧
      (t.reg (chanJumps i n)).toNat = min ((s.reg (chanJumps i n)).toNat + 1) 0xFFFFFFFF ∧
      SameRegs [chanJumps i n] s t ∧ t = { s with chans := t.chans, regs := t.regs, tie := t.tie })) ∧
  (∀ (s : State) (i : Tile) (q : Seq) (n r : Nat) (pl : Playing), s.pathOf i q = some n → s.relTile i = some r →
    (s.chan i n).playing = some pl → (s.tq (sk i q)).haltAt = none → r = pl.start + pl.len → Undecanted s i n →
    Completes (.segmentEnd i q) s fun t => t.chan i n = { s.chan i n with playing := none } ∧ t = { s with chans := t.chans })) ∧
  (∀ (s : State) (i : Tile) (q : Seq) (e : Entry) (p : Nat), s.due i q = some e → e.moved = false → e.cmd = .endMarker → s.plotOf i = some p →
    (∀ n, s.pathOf i q = some n → Undecanted s i n) →
    Completes (.endMarkerExecute i q) s fun t =>
      t.tq (sk i q) = { s.tq (sk i q) with held := (s.tq (sk i q)).held.tail, owes := false } ∧
      (∀ n, s.pathOf i q = some n → t.chan i n = { s.chan i n with playing := none, jump := none }) ∧
      t.sched p = { s.sched p with endTick := s.DT } ∧ t = { s with chans := t.chans, scheds := t.scheds, tqs := t.tqs })

/-- Selection at playout (R96, R241): 20 ticks before its tick an armed entry takes the alternative that its key value names,
or the fallback where the value names none; with a key bit that is not valid the decision is late: the fallback is taken,
LATE_DEC sets and counts. At its tick the alternative plays; a NOP leaves the channel as it is. -/
def Obligations.ArmedEntriesTakeTheirAlternative : Prop :=
  (∀ (s : State) (i : Tile) (q : Seq) (p k fb ks midx : Nat) (alts : List (Option PlayArg)) (e : Entry) (h : Shot),
    s.unresolved i q = some e → s.plotOf i = some p → e.cmd = .arm alts k fb ks midx → s.startOf p e.sid = some h →
    s.DT + 20 = h.start + e.execAt →
    let key := keyValue (s.keyBits i ks midx (s.tagOf p e.sid) k 0)
    let counts := fun (a : Nat) (n : Nat) (t : State) => (t.reg a).toNat = min ((s.reg a).toNat + n) 0xFFFFFFFF
    (∀ v, key = some v →
      Completes (.armSelect i q) s fun t =>
        (t.tq (sk i q)).held = setSel (alts.getD (if v < alts.length then v else fb) none) (s.tq (sk i q)).held ∧
        counts (A.tpSelectCnt i) 1 t ∧ counts (A.tpFallbackCnt i) (if v < alts.length then 0 else 1) t ∧
        counts (A.tpLateDecCnt i) 0 t ∧ t = { s with regs := t.regs, tie := t.tie, tqs := t.tqs }) ∧
    (key = none →
      Completes (.armSelect i q) s fun t =>
        (t.tq (sk i q)).held = setSel (alts.getD fb none) (s.tq (sk i q)).held ∧
        counts (A.tpSelectCnt i) 1 t ∧ counts (A.tpLateDecCnt i) 1 t ∧ counts (A.tpFallbackCnt i) 0 t ∧
        t.on (A.tpSts i) F.tpSts.lateDec = true ∧
        (∀ g ∈ (t.sched p).shots, g.sid = e.sid → g.flags &&& Flag.lateDec = Flag.lateDec) ∧
        ((KMap.get [] s.once i).contains (if s.beforeStart p e.sid then 123 else 23) = false → Fires (tileSrc i 23) s t))) ∧
  (∀ (s : State) (i : Tile) (q : Seq) (k fb ks midx : Nat) (alts : List (Option PlayArg)) (e : Entry), s.due i q = some e → e.moved = false →
    e.cmd = .arm alts k fb ks midx →
    (e.sel = some none → Completes (.armExecute i q) s fun t => Popped (sk i q) s t ∧ t = { s with tqs := t.tqs }) ∧
    (∀ (a : PlayArg) (n : Nat), e.sel = some (some a) → a.jump = false → s.pathOf i q = some n → s.haltedAt i q e.execAt = false →
      s.playable i q a.seg = true → s.segDecant i a.seg = false → Undecanted s i n →
      Completes (.armExecute i q) s fun t => Plays i n e.execAt a s t ∧ Popped (sk i q) s t ∧
        t = { s with chans := t.chans, tqs := t.tqs }))

/-- MARK and VEC at their tick (R98, R149): each output of the mask takes its level bit, or goes high for the width in ticks
(a width of 0 does nothing), and returns low when the width is over. FREQ and PHASE replace or move the working word of their
frame slot (R100, R142); EVT fires the tile's event (R101). Each leaves its queue, and nothing else changes. -/
def Obligations.MarkersFramesAndEventsExecute : Prop :=
  (∀ (s : State) (i : Tile) (q : Seq) (e : Entry) (level : Bool) (mask v : Nat), s.due i q = some e → e.moved = false → s.auxPort i q e.execAt = true →
    let out := fun (m off : Nat) (t : State) => t.mark i (off + m) =
      if mask.testBit m then
        if level then { level := v.testBit m, pulseEnd := none }
        else if v = 0 then s.mark i (off + m) else { level := true, pulseEnd := some (s.DT + v) }
      else s.mark i (off + m)
    (e.cmd = .mark level mask v →
      Completes (.markExecute i q) s fun t => out 0 0 t ∧ out 1 0 t ∧ t.mark i 2 = s.mark i 2 ∧ t.mark i 3 = s.mark i 3 ∧
        Popped (sk i q) s t ∧ t = { s with marks := t.marks, tqs := t.tqs }) ∧
    (e.cmd = .vec level mask v →
      Completes (.vecExecute i q) s fun t => out 0 2 t ∧ out 1 2 t ∧ t.mark i 0 = s.mark i 0 ∧ t.mark i 1 = s.mark i 1 ∧
        Popped (sk i q) s t ∧ t = { s with marks := t.marks, tqs := t.tqs })) ∧
  (∀ (s : State) (i : Tile) (m : Fin 2),
    ((s.mark i m).pulseEnd = some s.DT →
      Completes (.markPulseEnd i m) s fun t => t.mark i m = {} ∧ t = { s with marks := t.marks } ∧
        ∀ k, k ≠ 4 * i.val + m.val → KMap.get {} t.marks k = KMap.get {} s.marks k) ∧
    ((s.mark i (2 + m)).pulseEnd = some s.DT →
      Completes (.vecPulseEnd i m) s fun t => t.mark i (2 + m) = {} ∧ t = { s with marks := t.marks } ∧
        ∀ k, k ≠ 4 * i.val + (2 + m.val) → KMap.get {} t.marks k = KMap.get {} s.marks k)) ∧
  (∀ (s : State) (i : Tile) (q : Seq) (e : Entry) (n k : Nat), s.due i q = some e → e.moved = false → s.pathOf i q = some n → n < 16 →
    (∀ fw, e.cmd = .freq k fw →
      Completes (.freqExecute i q) s fun t => t.freqWord i n k = BitVec.ofNat 48 fw ∧ Popped (sk i q) s t ∧
        (∀ j, j ≠ 128 * i.val + 8 * n + k → KMap.get 0 t.freqs j = KMap.get 0 s.freqs j) ∧
        t = { s with freqs := t.freqs, tqs := t.tqs, slotLog := t.slotLog }) ∧
    (∀ (set : Bool) (ph : Word), e.cmd = .phase k set ph →
      Completes (.phaseExecute i q) s fun t =>
        t.reg (phWorkAt i n k) = (if set then ph else s.reg (phWorkAt i n k) + ph) ∧ Popped (sk i q) s t ∧
        SameRegs [phWorkAt i n k] s t ∧ t = { s with regs := t.regs, tie := t.tie, tqs := t.tqs, slotLog := t.slotLog })) ∧
  (∀ (s : State) (i : Tile) (q : Seq) (e : Entry) (k : Nat), s.due i q = some e → e.moved = false → e.cmd = .evt k →
    Completes (.evtExecute i q) s fun t => Fires (tileSrc i (4 + k)) s t ∧ Popped (sk i q) s t ∧
      SameRegs [A.evfSrcSts (tileSrc i (4 + k) / 32)] s t ∧ t = { s with regs := t.regs, tie := t.tie, tqs := t.tqs, evq := t.evq })

/-! ## The cellar (R129–R133, R148–R157, R164–R167) -/

/-- Writes of the cellar's tables. While a sequencer of the tile is not idle they are discarded with MEM_BUSY (R39, R133). A
partition or segment entry takes the word, and its VALID bit holds only where the entry passes its check, whose first failure
CEL_CHK keeps; a partition write clears VALID of every segment that names the partition (R130, R132). A write of a decant
descriptor increments its generation, and is discarded with ACCESS_ERR where that would pass FFFF_FFFFh (R350). The output
registers of the marker stage take the word (R148). Writes of a flux output's registers (R164, R167): a coefficient or bypass
write clears the filter's state; a feedback coefficient of magnitude 1.0 or more is refused with COEF_REFUSED; the idle code
is no filter write. While a sequencer of the tile is not idle each is discarded with MEM_BUSY (R133). -/
def Obligations.CellarAndFluxTableWrites : Prop :=
  ((∀ (s : State) (i : Tile) (j : Fin 32) (w : Word), HostOpen s (A.cp i j) →
    (s.tileIdle i = false → Completes (.partitionWrite i j w) s fun t => Refused 2 0 (A.cp i j) s t) ∧
    (s.tileIdle i = true → s.isSealed = false →
      Completes (.partitionWrite i j w) s fun t =>
        t.on (A.cp i j) F.cp.valid = (getF w F.cp.valid == 1 && t.partCause i j == 0) ∧
        t.fld (A.cp i j) F.cp.base = getF w F.cp.base ∧ t.fld (A.cp i j) F.cp.banks = getF w F.cp.banks ∧
        t.fld (A.cp i j) F.cp.ownerA = getF w F.cp.ownerA ∧ t.fld (A.cp i j) F.cp.ownerB = getF w F.cp.ownerB ∧
        (∀ n, n < 4096 → t.segValid i n = (s.segValid i n && s.segPart i n != j)) ∧
        (getF w F.cp.valid = 1 → t.partCause i j ≠ 0 → s.on (A.celChk i) F.celChk.valid = false →
          t.fld (A.celChk i) F.celChk.valid = 1 ∧ t.fld (A.celChk i) F.celChk.kind = 1 ∧
          t.fld (A.celChk i) F.celChk.cause = t.partCause i j ∧ t.fld (A.celChk i) F.celChk.index = j) ∧
        t = { s with regs := t.regs, tie := t.tie })) ∧
  (∀ (s : State) (i : Tile) (n : Fin 4096) (w : Word),
    (HostOpen s (A.segLo i n) → s.tileIdle i = false →
      Completes (.segEntryWrite i n false w) s fun t => Refused 2 0 (A.segLo i n) s t) ∧
    (HostOpen s (A.segLo i n) → s.tileIdle i = true →
      Completes (.segEntryWrite i n false w) s fun t =>
        t.segValid i n = (getF w F.segLo.valid == 1 && t.segCause i n == 0) ∧
        t.segDecant i n = (getF w F.segLo.decant == 1) ∧ t.segPart i n = getF w F.segLo.part ∧
        t.segStart i n = getF w F.segLo.startG ∧ OnlyRegs [A.segLo i n, A.celChk i] s t) ∧
    (HostOpen s (A.segHi i n) → s.tileIdle i = true →
      Completes (.segEntryWrite i n true w) s fun t =>
        t.segLen i n = getF w F.segHi.lenG ∧ t.segDesc i n = getF w F.segHi.desc ∧
        t.segValid i n = (s.segValid i n && t.segCause i n == 0) ∧
        OnlyRegs [A.segHi i n, A.segLo i n, A.celChk i] s t)) ∧
  (∀ (s : State) (i : Tile) (d : Fin 16) (which : Fin 3) (w : Word),
    let r := if which = 0 then spec_ddAddrLo else if which = 1 then spec_ddAddrHi else spec_ddLen
    let a := if which = 0 then A.ddAddrLo i d else if which = 1 then A.ddAddrHi i d else A.ddLen i d
    HostOpen s a →
    (s.tileIdle i = false → Completes (.ddDescWrite i d which w) s fun t => Refused 2 0 a s t) ∧
    (s.tileIdle i = true → s.reg (A.ddGen i d) = 0xFFFFFFFF →
      Completes (.ddDescWrite i d which w) s fun t => Refused 0 0 a s t) ∧
    (s.tileIdle i = true → s.reg (A.ddGen i d) ≠ 0xFFFFFFFF →
      Completes (.ddDescWrite i d which w) s fun t => Takes r a w s t ∧ t.reg (A.ddGen i d) = s.reg (A.ddGen i d) + 1 ∧
        OnlyRegs [a, A.ddGen i d] s t)) ∧
  (∀ (s : State) (i : Tile) (m : Fin 2) (vl : Bool) (w : Word),
    let r := if vl then spec_vlCfg else spec_mkCfg
    let a := if vl then A.vlCfg i m else A.mkCfg i m
    HostOpen s a →
    Completes (.markerCfgWrite i m vl w) s fun t => Takes r a w s t ∧
      (s.isSealed = false → OnlyRegs [a] s t) ∧
      ((∃ f ∈ r.fields, f.lk = true ∧ getF w f.fld ≠ s.fld a f.fld) → s.isSealed = true →
        t.on A.glbErrSts F.glbErrSts.accessErr = true))) ∧
  (∀ (s : State) (i : Tile) (f : Fin 14) (off : Nat) (w : Word) (r : RegSpec) (ix : List Nat), off < 0x200 →
    findReg (A.fxCfg i f + off) = some (r, ix) → HostOpen s (A.fxCfg i f + off) →
    let a := A.fxCfg i f + off
    let coef := r = spec_fxCfg ∨ r = spec_fxIirB0 ∨ r = spec_fxIirB1 ∨ r = spec_fxFir
    (coef ∨ r = spec_fxIirA1 ∨ r = spec_fxIdle → s.tileIdle i = false →
      Completes (.fluxCoefWrite i f off w) s fun t => Refused 2 0 a s t) ∧
    (coef ∨ (r = spec_fxIirA1 ∧ -262144 < sext 20 w.toNat ∧ sext 20 w.toNat < 262144) → s.tileIdle i = true →
      Completes (.fluxCoefWrite i f off w) s fun t => Takes r a w s t ∧ SameRegs [a] s t ∧
        t.flux i f = { s.flux i f with iir := [], fir := [] } ∧
        (∀ k, k ≠ 14 * i.val + f.val → KMap.get {} t.fluxes k = KMap.get {} s.fluxes k) ∧
        t = { s with regs := t.regs, tie := t.tie, fluxes := t.fluxes }) ∧
    (r = spec_fxIirA1 → sext 20 w.toNat ≤ -262144 ∨ 262144 ≤ sext 20 w.toNat → s.tileIdle i = true →
      Completes (.fluxCoefWrite i f off w) s fun t => t.fld (A.fxSts i f) F.fxSts.coefRefused = 1 ∧
        OnlyRegs [A.fxSts i f] s t) ∧
    (r = spec_fxIdle → s.tileIdle i = true →
      Completes (.fluxCoefWrite i f off w) s fun t => Takes r a w s t ∧ OnlyRegs [a] s t))

/-- The decant engine (R151–R156). A descriptor that is enabled or reprimed fetches chunks 0 and 1 as far as its length
reaches, each from its own address, and is PRIMED when they have arrived; its samples stand in the cellar from then on. A tag that
fails, or a transfer that fails or may not be issued (R377), puts it in ERROR with its cause, and the tile's source 9 fires. A playback
that has passed a chunk releases it and fetches the second next; a sample that is due and not resident is an underrun. -/
def Obligations.DecantFetchesChunks : Prop :=
  (∀ (s : State) (i : Tile) (d : Fin 16) (w : Word), HostOpen s (A.ddCtl i d) →
    let primes := fun t : State =>
      let ks := if s.ddLen i d ≤ 4096 then [0] else [0, 1]
      let quiet := SameRegs [A.ddCtl i d, A.ddSts i d, A.ddChunk i d] s t ∧
        t = { s with regs := t.regs, tie := t.tie, decs := t.decs, out := t.out }
      (s.ddBadLen i d = true → t.ddState i d = 4 ∧ t.fld (A.ddSts i d) F.ddSts.errCause = 3 ∧
        t.dec i d = { player := (s.dec i d).player } ∧ t.out = s.out ∧ quiet) ∧
      (s.ddBadLen i d = false → s.ddLen i d = 0 → t.ddState i d = 2 ∧ t.fld (A.ddSts i d) F.ddSts.done = 1 ∧
        t.dec i d = { player := (s.dec i d).player } ∧ t.out = s.out ∧ quiet) ∧
      (s.ddBadLen i d = false → s.ddLen i d ≠ 0 → s.dmaOk = true → t.ddState i d = 1 ∧
        t.dec i d = { fetching := ks, priming := true, reqAt := s.tm.now, player := (s.dec i d).player } ∧
        t.out = s.out ++ ks.flatMap (chunkReads t i d) ∧ quiet) ∧
      (s.ddBadLen i d = false → s.ddLen i d ≠ 0 → s.dmaOk = false → t.ddState i d = 4 ∧
        t.fld (A.ddSts i d) F.ddSts.errCause = 1 ∧ Fires (tileSrc i 9) s t ∧
        t.dec i d = { reqAt := s.tm.now, player := (s.dec i d).player } ∧ t.out = s.out)
    (s.on (A.ddCtl i d) F.ddCtl.enable = false →
      Completes (.decantEnable i d w) s fun t => primes t ∧ t.on (A.ddCtl i d) F.ddCtl.enable = true) ∧
    (s.on (A.ddCtl i d) F.ddCtl.enable = true →
      Completes (.decantEnable i d w) s fun t => OnlyRegs [A.ddCtl i d] s t) ∧
    Completes (.decantReprime i d w) s primes) ∧
  (∀ (s : State) (i : Tile) (d : Fin 16) (samples : List Word) (tag : List Byte) (k : Nat) (ks : List Nat),
    (s.dec i d).fetching = k :: ks → s.fetchFirst i d = true → samples.length = s.chunkLen i d k →
    (s.ddAuth i d = true → tag ≠ s.chunkTag i d k samples →
      Completes (.decantChunkArrival i d samples tag) s fun t => t.ddState i d = 4 ∧
        t.fld (A.ddSts i d) F.ddSts.errCause = 2 ∧ Fires (tileSrc i 9) s t ∧ (t.dec i d).fetching = [] ∧ SameBytes s t) ∧
    (∀ n, s.ddAuth i d = false ∨ tag = s.chunkTag i d k samples → s.segOfDesc i d none = some n →
      Completes (.decantChunkArrival i d samples tag) s fun t =>
        (∀ j w, samples[j]? = some w → t.word (cellarAt i (16 * s.segStart i n + 4096 * (k % 2) + j)) = w) ∧
        SameBytesBut (cellarAt i (16 * s.segStart i n + 4096 * (k % 2))) (4 * samples.length) s t ∧
        t.dec i d = { s.dec i d with fetching := ks, resident := (s.dec i d).resident ++ [k],
                                     priming := (s.dec i d).priming && !ks.isEmpty } ∧
        ((s.dec i d).priming = true → ks = [] → t.ddState i d = 2 ∧ t.fld (A.ddSts i d) F.ddSts.done = 1) ∧
        t.evq = s.evq)) ∧
  (∀ (s : State) (i : Tile) (d : Fin 16), (s.dec i d).fetching ≠ [] →
    Completes (.decantTransferError i d) s fun t => t.ddState i d = 4 ∧ t.fld (A.ddSts i d) F.ddSts.errCause = 1 ∧
      Fires (tileSrc i 9) s t ∧ t.dec i d = { s.dec i d with fetching := [], priming := false }) ∧
  (∀ (s : State) (i : Tile) (d : Fin 16) (n : Nat) (pl : Playing), s.ddState i d = 3 →
    s.playback i d = some (n, pl, 4096 * (s.fld (A.ddChunk i d) F.ddChunk.chunk + 1)) →
    let k := s.fld (A.ddChunk i d) F.ddChunk.chunk
    (s.dmaOk = true ∨ s.ddLen i d ≤ 4096 * (k + 2) →
      Completes (.decantChunkRelease i d) s fun t =>
        t.dec i d = { s.dec i d with
          resident := (s.dec i d).resident.filter (· != k)
          fetching := if 4096 * (k + 2) < s.ddLen i d then (s.dec i d).fetching ++ [k + 2] else (s.dec i d).fetching } ∧
        t.fld (A.ddChunk i d) F.ddChunk.chunk = (k + 1) % 32 ∧
        t.out = s.out ++ (if 4096 * (k + 2) < s.ddLen i d then chunkReads s i d (k + 2) else []) ∧
        t = { s with regs := t.regs, tie := t.tie, decs := t.decs, out := t.out }) ∧
    (s.dmaOk = false → 4096 * (k + 2) < s.ddLen i d →
      Completes (.decantChunkRelease i d) s fun t => t.ddState i d = 4 ∧ t.fld (A.ddSts i d) F.ddSts.errCause = 1 ∧
        Fires (tileSrc i 9) s t ∧ (t.dec i d).fetching = [])) ∧
  (∀ (s : State) (i : Tile) (d : Fin 16) (n x : Nat) (pl : Playing), n < 32 → s.playback i d = some (n, pl, x) → pl.missing = none →
    x < pl.len → x < s.ddLen i d → (s.dec i d).resident.contains (x / 4096) = false →
    Completes (.decantUnderrun i d) s fun t =>
      (if (s.chan i n).playing = some pl then (t.chan i n).playing = some { pl with missing := some x } else t.chans = s.chans) ∧
      t.on (chanSts i n) (chanUnd n) = true ∧ FiresAmong (tileSrc i 8) s t ∧
      (t.reg (A.ddStarveCnt i d)).toNat = min ((s.reg (A.ddStarveCnt i d)).toNat + 1) 0xFFFFFFFF ∧
      (∀ p, s.plotOf i = some p → ∀ h ∈ (t.sched p).shots, h.stop = none →
        h.flags &&& (Flag.underrun ||| Flag.taint) = (Flag.underrun ||| Flag.taint)))

/-! ## Bias outputs (R168–R191) -/

/-- The way of a bias entry (R172–R176, R182, R184, R486). BIASQ hands it to the output's queue for the first update instant
at or after its tick, and a host write hands one over at once; while the link is lost the first is discarded and counted, the
second is held. On arrival, in any order, an entry takes its place for its instant; one that is more than 250 ticks behind its
instant is late, and HALT, which takes the later entries of its shot with it, DROP or EXECUTE_NOW says what becomes of it; one that
finds no place, the clear pin, a shutdown or a compliance hold is lost. Its shot waits for it no longer. A host entry takes the first instant it reaches in time and is never late. -/
def Obligations.BiasEntriesReachTheirChannel : Prop :=
  (∀ (s : State) (i : Tile) (q : Seq) (e : Entry) (p b code : Nat), s.due i q = some e → e.moved = false → s.plotOf i = some p →
    e.cmd = .biasq b code → b < 16 → s.auxPort i q e.execAt = true → (s.bias (quadOf i) (biasCh i b)).halt ≠ some (p, e.sid) →
    (s.blkUp (quadOf i) = true →
      Completes (.biasqExecute i q) s fun t => Popped (sk i q) s t ∧
        (∃ u, 2500 ∣ u ∧ s.DT ≤ u ∧ u < s.DT + 2500 ∧
          t.bias (quadOf i) (biasCh i b) = { s.bias (quadOf i) (biasCh i b) with
            flight := (s.bias (quadOf i) (biasCh i b)).flight ++
              [⟨code % 2 ^ 20, false, some u, some (p, e.sid), s.tm.now, (s.bias (quadOf i) (biasCh i b)).handed, 0⟩]
            handed := (s.bias (quadOf i) (biasCh i b)).handed + 1 }) ∧
        (t.sched p).shots = (s.sched p).shots.map (fun h => if h.sid = e.sid then { h with bias := h.bias + 1 } else h) ∧
        OnlyBias (quadOf i) (biasCh i b) s t ∧ t = { s with tqs := t.tqs, biases := t.biases, scheds := t.scheds }) ∧
    (s.blkUp (quadOf i) = false →
      Completes (.biasqExecute i q) s fun t => Popped (sk i q) s t ∧ t.on (A.bqSts i b) F.bqSts.lost = true ∧
        (t.reg (A.bqLostCnt i b)).toNat = min ((s.reg (A.bqLostCnt i b)).toNat + 1) 0xFFFFFFFF ∧
        (∀ h ∈ (t.sched p).shots, h.sid = e.sid → h.flags &&& Flag.taint = Flag.taint) ∧
        SameRegs [A.bqSts i b, A.bqLostCnt i b] s t ∧ t = { s with tqs := t.tqs, regs := t.regs, tie := t.tie, scheds := t.scheds })) ∧
  (∀ (s : State) (i : Tile) (b : Fin 16) (w : Word), HostOpen s (A.bqHost i b) →
    (s.blkUp (quadOf i) = true →
      Completes (.bqHostWrite i b w) s fun t =>
        t.bias (quadOf i) (biasCh i b) = { s.bias (quadOf i) (biasCh i b) with
          flight := (s.bias (quadOf i) (biasCh i b)).flight ++
            [⟨getF w F.bqHost.code, true, none, none, s.tm.now, (s.bias (quadOf i) (biasCh i b)).handed, 0⟩]
          handed := (s.bias (quadOf i) (biasCh i b)).handed + 1 } ∧
        SameRegs [A.bqHost i b] s t ∧ OnlyBias (quadOf i) (biasCh i b) s t ∧ t = { s with regs := t.regs, tie := t.tie, biases := t.biases }) ∧
    (s.blkUp (quadOf i) = false →
      Completes (.bqHostWrite i b w) s fun t =>
        KMap.get [] t.heldWrites (quadOf i) = KMap.get [] s.heldWrites (quadOf i) ++ [.bq i b (getF w F.bqHost.code)] ∧
        SameRegs [A.bqHost i b] s t ∧ t = { s with regs := t.regs, tie := t.tie, heldWrites := t.heldWrites })) ∧
  (∀ (s : State) (q : Quad) (j : BiasCh) (n : Nat) (e : BiasEntry) (before after : List BiasEntry) (u p sid : Nat),
    (s.bias q j).flight = before ++ e :: after → before.length = n → s.tm.now ≤ e.handed + 100 + 80 * e.repeats →
    e.host = false → e.u = some u → e.shot = some (p, sid) →
    let i := 8 * q.val + j.val / 16
    let b := j.val % 16
    let lost := fun t : State => t.on (A.bqSts i b) F.bqSts.lost = true ∧
      (t.reg (A.bqLostCnt i b)).toNat = min ((s.reg (A.bqLostCnt i b)).toNat + 1) 0xFFFFFFFF ∧ t.evq = s.evq ∧
      (t.bias q j) = { s.bias q j with flight := before ++ after } ∧
      ∀ h ∈ (t.sched p).shots, h.sid = sid → h.flags &&& Flag.taint = Flag.taint
    let late := fun t : State => t.on (A.bqSts i b) F.bqSts.late = true ∧
      (t.reg (A.bqLateCnt i b)).toNat = min ((s.reg (A.bqLateCnt i b)).toNat + 1) 0xFFFFFFFF ∧ Fires (tileSrc i 13) s t ∧
      LateIn p sid (2000 + 16 * i + b) (Flag.late ||| Flag.taint) t
    ((s.bias q j).hold = true ∨ s.clrOn q = true → Completes (.biasEntryArrival q j n) s lost) ∧
    ((s.bias q j).hold = false → s.clrOn q = false → s.DT ≤ u + 250 → (∀ m, (s.bias q j).mark ≠ some (m, u)) →
      (s.bias q j).places < 4 →
      Completes (.biasEntryArrival q j n) s fun t =>
        t.bias q j = { s.bias q j with flight := before ++ after, queue := (s.bias q j).queue ++ [{ code := e.code, u := u, shot := e.shot, ser := e.ser }] } ∧
        (t.sched p).shots = (s.sched p).shots.map (fun h => if h.sid = sid then { h with bias := h.bias - 1 } else h) ∧
        OnlyBias q j s t ∧ t = { s with biases := t.biases, scheds := t.scheds }) ∧
    ((s.bias q j).hold = false → s.clrOn q = false → s.DT ≤ u + 250 → (∀ m, (s.bias q j).mark ≠ some (m, u)) →
      (s.bias q j).places = 4 → ((s.bias q j).waits.any fun x => x.u == u) = false →
      Completes (.biasEntryArrival q j n) s lost) ∧
    ((s.bias q j).hold = false → s.clrOn q = false → u + 250 < s.DT → s.fld (A.bqCtl i b) F.bqCtl.latePol = 1 →
      Completes (.biasEntryArrival q j n) s fun t => late t ∧ t.bias q j = { s.bias q j with flight := before ++ after }) ∧
    ((s.bias q j).hold = false → s.clrOn q = false → u + 250 < s.DT → s.fld (A.bqCtl i b) F.bqCtl.latePol = 0 →
      Completes (.biasEntryArrival q j n) s fun t => late t ∧
        let stays := fun (shot : Option (Nat × Nat)) (ser : Nat) => shot != e.shot || decide (ser ≤ e.ser)
        t.bias q j = { s.bias q j with
          flight := (before ++ after).filter (fun x => stays x.shot x.ser)
          queue := (s.bias q j).queue.filter (fun x => stays x.shot x.ser)
          halt := some (p, sid) }) ∧
    (∀ u', (s.bias q j).hold = false → s.clrOn q = false → u + 250 < s.DT → 2 ≤ s.fld (A.bqCtl i b) F.bqCtl.latePol →
      2500 ∣ u' → s.DT ≤ u' + 250 → u' < s.DT + 2250 → (∀ m, (s.bias q j).mark ≠ some (m, u')) → (s.bias q j).places < 4 →
      Completes (.biasEntryArrival q j n) s fun t => late t ∧
        t.bias q j = { s.bias q j with
          flight := before ++ after, queue := (s.bias q j).queue ++ [{ code := e.code, u := u', shot := e.shot, ser := e.ser }] })) ∧
  (∀ (s : State) (q : Quad) (j : BiasCh) (n : Nat) (e : BiasEntry) (before after : List BiasEntry) (u : Nat),
    (s.bias q j).flight = before ++ e :: after → before.length = n → s.tm.now ≤ e.handed + 100 + 80 * e.repeats →
    e.host = true → (s.bias q j).hold = false → s.clrOn q = false → 2500 ∣ u → s.DT ≤ u + 250 → u < s.DT + 2250 →
    (∀ m, (s.bias q j).mark ≠ some (m, u)) → (s.bias q j).places < 4 →
    Completes (.biasEntryArrival q j n) s fun t =>
      t.bias q j = { s.bias q j with
        flight := before ++ after, queue := (s.bias q j).queue ++ [{ code := e.code, u := u, shot := e.shot, ser := e.ser }] } ∧
      OnlyBias q j s t ∧ t = { s with biases := t.biases, scheds := t.scheds })

/-- An update instant of a configured output whose link is up, that is in no park, clear, shutdown or compliance hold and runs no
generator (R170, R175, R178, R182): the entry due that arrived last becomes the target, those it passed over are counted, and
the code moves to the target at once, or by at most STEP in a limiter instant under SLEW_EN; a code that changes latches 400
ticks later. BD_MON takes the monitor's sample. A write of a bias output's register crosses the link and is on the die at most
100 ticks later (R191); a value that the register does not allow is refused with ACCESS_ERR (R169, R178, R182); while the link
is lost the write is held (R186). In a sealed configuration a write that would change a locked field is refused with ACCESS_ERR and
leaves that field (R10, R303). BD_STS takes its write at once. A generator start, a trip clearing and a span change are
such writes (R180, R182, R187). -/
def Obligations.BiasUpdatesAndRegistersCrossTheLink : Prop :=
  (∀ (s : State) (q : Quad) (j : BiasCh) (mon : BitVec 16), s.on A.dtSts F.dtSts.running = true → s.DT % 2500 = 0 →
    (s.bias q j).cfgd = true → (∀ m, (s.bias q j).mark ≠ some (s.tm.now, m)) → (s.bias q j).writes = [] →
    (s.bias q j).clearDue = none → (s.bias q j).phase = 0 → (s.bias q j).hold = false → (s.bias q j).clear = 0 →
    (s.bias q j).holds = false → s.clrOn q = false → s.blkUp q = true → s.genOn q j = false →
    s.fld (A.bdCfg q j) F.bdCfg.span = (s.bias q j).span →
    let due := (s.bias q j).queue.filter (·.u ≤ s.DT)
    let i := 8 * q.val + j.val / 16
    let target := match due.getLast? with | some e => e.code % 2 ^ 20 | none => s.bdTarget q j
    let code := if s.slewEn q j then
        if s.limiterAt q j s.DT then toward (s.bias q j).code target (s.fld (A.bdSlew q j) F.bdSlew.stepF) else (s.bias q j).code
      else target
    Completes (.biasUpdateInstant q j mon) s fun t =>
      t.bdTarget q j = target ∧ (t.bias q j).code = code ∧ (code ≠ (s.bias q j).code → (t.bias q j).latchAt = s.tm.now + 400) ∧
      (t.bias q j).queue = (s.bias q j).queue.filter (s.DT < ·.u) ∧ t.reg (A.bdMon q j) = mon.zeroExtend 32 ∧
      (t.reg (A.bqSuperCnt i (j.val % 16))).toNat =
        min ((s.reg (A.bqSuperCnt i (j.val % 16))).toNat + (due.length - 1)) 0xFFFFFFFF ∧
      SameRegs [A.bdTarget q j, A.bdMon q j, A.bdOut q j, A.bqSuperCnt i (j.val % 16)] s t ∧
      OnlyBias q j s t ∧ t = { s with regs := t.regs, tie := t.tie, biases := t.biases }) ∧
  ((∀ (s : State) (q : Quad) (j : BiasCh) (off : Nat) (w : Word) (r : RegSpec) (ix : List Nat), off < 0x40 →
    findReg (A.bdCfg q j + off) = some (r, ix) → HostOpen s (A.bdCfg q j + off) → s.isSealed = false →
    (bdBad off w = true → Completes (.biasRegWrite q j off w) s fun t => Refused 0 0 (A.bdCfg q j + off) s t) ∧
    (bdBad off w = false → s.blkUp q = true → bdStaged off = true →
      Completes (.biasRegWrite q j off w) s fun t => ∃ (v : Word) (tick : Nat),
        (t.bias q j) = { s.bias q j with writes := (s.bias q j).writes ++ [(off, v, tick, 0)] } ∧
        s.tm.now ≤ tick ∧ tick ≤ s.tm.now + 100 ∧
        (∀ f ∈ r.fields, f.acc = .rw → off ≠ 0x30 → getF v f.fld = getF w f.fld) ∧ (off = 0x30 → v ≠ 0) ∧
        OnlyBias q j s t ∧ t = { s with biases := t.biases }) ∧
    (bdBad off w = false → s.blkUp q = true → bdStaged off = false →
      Completes (.biasRegWrite q j off w) s fun t => Takes r (A.bdCfg q j + off) w s t ∧ OnlyRegs [A.bdCfg q j + off] s t) ∧
    (bdBad off w = false → s.blkUp q = false →
      Completes (.biasRegWrite q j off w) s fun t => (∃ v, KMap.get [] t.heldWrites q = KMap.get [] s.heldWrites q ++ [.bd j off v]) ∧
        t = { s with heldWrites := t.heldWrites })) ∧
  (∀ (s : State) (q : Quad) (j : BiasCh) (off : Nat) (w : Word) (r : RegSpec) (ix : List Nat), off < 0x40 →
    findReg (A.bdCfg q j + off) = some (r, ix) → HostOpen s (A.bdCfg q j + off) → s.isSealed = true → bdBad off w = false →
    bdStaged off = true → lockHit r.fields true (s.bdNewest q j off) w = true →
      Completes (.biasRegWrite q j off w) s fun t => Refused 0 0 (A.bdCfg q j + off) s { t with biases := s.biases, heldWrites := s.heldWrites } ∧
        ∃ v : Word, (∀ f ∈ r.fields, f.acc = .rw → f.lk = true → off ≠ 0x30 → getF v f.fld = getF (s.bdNewest q j off) f.fld) ∧
          (s.blkUp q = true → ∃ tick, (t.bias q j).writes = (s.bias q j).writes ++ [(off, v, tick, 0)]) ∧
          (s.blkUp q = false → KMap.get [] t.heldWrites q = KMap.get [] s.heldWrites q ++ [.bd j off v])) ∧
  (∀ (s : State) (q : Quad) (j : BiasCh) (w : Word),
    Completes (.genRun q j w) s (fun t => exec (.biasRegWrite q j 0x20 w) s = .next t) ∧
    Completes (.compClr q j w) s (fun t => exec (.biasRegWrite q j 0x18 (putF w F.bdComp.compClr 1)) s = .next t) ∧
    Completes (.spanWrite q j w) s (fun t => exec (.biasRegWrite q j 0x00 w) s = .next t)))

/-- The protections of the bias outputs. A compliance trip sets COMP_TRIP and fires the tile's source 12; HOLD keeps the code
where it is, CLEAR takes the output to its clear state (R182). BIAS_CLR_n is sampled at update instants, and a level that
the instant before showed too is accepted: its assertion flags the shots of the quadrant's plots and has every configured output go to
its clear state, also where the core die is in reset and nothing is counted; its release leaves the outputs where they are (R184).
At the end of SETTLE a park takes the voltage it had, converted to the new span, as its target, clamped with PARK_CLAMP where
the span does not hold it, or the zero code with KIND_CHANGE (R187, R188). -/
def Obligations.BiasProtection : Prop :=
  (∀ (s : State) (q : Quad) (j : BiasCh), (s.bias q j).trip = true →
    let trips := fun t : State => t.fld (A.bdSts q j) F.bdSts.compTrip = 1 ∧ Fires (tileSrc (8 * q.val + j.val / 16) 12) s t ∧
      (t.bias q j).trip = false ∧ (t.bias q j).code = (s.bias q j).code ∧
      OnlyBias q j s t ∧ t = { s with regs := t.regs, tie := t.tie, biases := t.biases, evq := t.evq }
    (s.fld (A.bdComp q j) F.bdComp.action = 0 →
      Completes (.complianceTrip q j) s fun t => trips t ∧ t.bias q j = { s.bias q j with trip := false } ∧
        t.bdTarget q j = s.bdTarget q j ∧ t.genOn q j = s.genOn q j) ∧
    (s.fld (A.bdComp q j) F.bdComp.action = 1 → s.clrOn q = false → (s.bias q j).phase = 0 →
      Completes (.complianceTrip q j) s fun t => trips t ∧ (t.bias q j).hold = true ∧
        t.bdTarget q j = (s.bias q j).code % 2 ^ 20 ∧ t.genOn q j = false) ∧
    (s.fld (A.bdComp q j) F.bdComp.action = 2 → s.clrOn q = false →
      Completes (.complianceTrip q j) s fun t => trips t ∧ (t.bias q j).hold = true ∧ (t.bias q j).clear = 2 ∧
        (t.bias q j).phase = 0 ∧ t.bdTarget q j = s.clearCode q j % 2 ^ 20 ∧ t.genOn q j = false)) ∧
  (∀ (s : State) (q : Quad), (s.on A.dtSts F.dtSts.running = true → s.DT % 2500 = 0) →
    let samples := fun (low : Bool) (t : State) => KMap.get none t.clrSamp q = some (s.tm.now, low)
    (s.clrPin q = true ∨ s.clrBefore q true = false →
      Completes (.biasClrAssert q) s fun t => samples true t ∧ t = { s with clrSamp := t.clrSamp }) ∧
    (s.clrPin q = false ∨ s.clrBefore q false = false →
      Completes (.biasClrRelease q) s fun t => samples false t ∧ t = { s with clrSamp := t.clrSamp }) ∧
    (s.clrPin q = false → s.clrBefore q true = true →
      Completes (.biasClrAssert q) s fun t => t.clrPin q = true ∧ t.on (A.bqdSts q) F.bqdSts.clrSeen = true ∧ samples true t ∧
        (s.live = true → (t.reg (A.bqdClrCnt q)).toNat = min ((s.reg (A.bqdClrCnt q)).toNat + 1) 0xFFFFFFFF ∧
          t.evq = s.evq ++ [(1320 + q.val, 0)] ∧
          ∀ (p : Plot) (k : Fin 8), s.inPlot p (8 * q + k) = true → ∀ h ∈ (t.sched p).shots, h.stop = none →
            h.flags &&& Flag.taint = Flag.taint) ∧
        (s.live = false → SameRegs [A.bqdSts q] s t ∧ t.evq = s.evq ∧ t.scheds = s.scheds) ∧
        (∀ j : BiasCh, t.bias q j = { s.bias q j with clearDue := if (s.bias q j).cfgd then some s.tm.now else none }) ∧
        (∀ (q' : Quad) (j : BiasCh), q' ≠ q → t.bias q' j = s.bias q' j) ∧
        t = { s with regs := t.regs, tie := t.tie, biases := t.biases, evq := t.evq, scheds := t.scheds, clrSamp := t.clrSamp }) ∧
    (s.clrPin q = true → s.clrBefore q false = true →
      Completes (.biasClrRelease q) s fun t => t.clrPin q = false ∧ samples false t ∧
        OnlyRegs [A.bqdSts q] { s with clrSamp := t.clrSamp } t)) ∧
  (∀ (s : State) (q : Quad) (j : BiasCh) (u : Nat), (s.bias q j).mark = some (s.tm.now, u) → (s.bias q j).phase = 3 →
    (s.bias q j).settle = 0 → s.blkUp q = true → s.slewEn q j = false →
    let x := s.bias q j
    let v := convertSpan x.span0 x.span x.from0
    let ends := fun (c : Nat) (t : State) => t.bdTarget q j = c ∧ (t.bias q j).code = toward x.code c 65535 ∧
      (t.bias q j).phase = (if toward x.code c 65535 = c then 0 else 4) ∧
      t.evq = s.evq ++ (if toward x.code c 65535 = c then [(tileSrc (8 * q.val + j.val / 16) 14, 0)] else [])
    ((spanOf x.span0).2.2 = (spanOf x.span).2.2 →
      Completes (.parkSettleEnd q j) s fun t => ends (clampI 0 0xFFFFF v).toNat t ∧
        (v < 0 ∨ 0xFFFFF < v → t.fld (A.bdSts q j) F.bdSts.parkClamp = 1)) ∧
    ((spanOf x.span0).2.2 ≠ (spanOf x.span).2.2 →
      Completes (.parkSettleEnd q j) s fun t => ends (zeroCode x.span) t ∧ t.fld (A.bdSts q j) F.bdSts.kindChange = 1))

/-! ## Read-out (R192–R224) -/

/-- A MEAS opens a window on the lane of its path (R97, R204–R208). It is refused where its set is not valid or its
accumulator set has a window open: WIN_REFUSED, the count, the tile's source 17, and TAINT for its shot. Else the window takes
the lane with the set's words as they stand; it goes on with an averaging job of the same set, or discards the job with AVG_LOST, and
else its accumulator starts at 0; a window of the other set that was open loses the ticks that the new one integrates. In each tick
from its first sample's 29th on, a window with rectangular weights that lost none adds 32,767 times the decimated sample's I (R198,
R201, R202); in tick L + 31 the sum is stored, shifted with rounding and saturated to 32 bits (R203, R204). A window closes in tick
L + 36 (R204, R207, R211, R230): the shot cannot end before this tick, a decision of the stored state sets out for the tile view (16 ticks
later than the record tick) and the device view, and a record joins the shot's count, unless the MEAS turned them off. -/
def Obligations.WindowsOpenAndClose : Prop :=
  (∀ (s : State) (i : Tile) (q : Seq) (e : Entry) (pl len r midx : Nat) (sh noRec noDec : Bool) (h : Shot),
    s.due i q = some e → e.moved = false → s.plotOf i = some pl → e.cmd = .meas len r midx sh noRec noDec → s.startOf pl e.sid = some h →
    ((∀ n, s.pathOf i q = some n → n < 8 ∨ 16 ≤ n ∨ s.haltedAt i q e.execAt = true) →
      Completes (.windowOpen i q) s fun t => Popped (sk i q) s t ∧ t = { s with tqs := t.tqs }) ∧
    (∀ n, s.pathOf i q = some n → 8 ≤ n → n < 16 → s.haltedAt i q e.execAt = false →
      let p := n - 8
      let avg := s.fld (A.rsA i p r) F.rsA.acc
      let goes := avg = 1 ∧ ∃ m, (s.lane i p).job sh = some (r, m)
      let w : Win :=
        { set := r, a := s.reg (A.rsA i p r), b := s.reg (A.rsB i p r), c := s.reg (A.rsC i p r), d := s.reg (A.rsD i p r),
          t := e.execAt, len := len, start := h.start, plot := pl, sid := e.sid, num := h.num, midx := midx,
          noRec := noRec, noDec := noDec, nco := s.ncoBefore i p (s.fld (A.rsA i p r) F.rsA.slot) }
      let opens := fun t : State =>
        (goes → (t.lane i p).acc sh = (s.lane i p).acc sh) ∧ (¬goes → (t.lane i p).acc sh = {}) ∧
        (∀ m, avg = 1 → (s.lane i p).job sh = some (r, m) → (t.lane i p).job sh = some (r, m + 1)) ∧
        (avg = 1 → ¬goes → (t.lane i p).job sh = some (r, 1)) ∧ (avg = 0 → (t.lane i p).job sh = none) ∧
        (((s.lane i p).job sh).isSome = true → ¬goes → t.on (A.lnSts i p) F.lnSts.avgLost = true) ∧
        (t.lane i p).acc (!sh) = (s.lane i p).acc (!sh) ∧ (t.lane i p).job (!sh) = (s.lane i p).job (!sh) ∧
        (∀ k, k ≠ 8 * i.val + p → KMap.get {} t.lanes k = KMap.get {} s.lanes k) ∧ SameRegs [A.lnSts i p] s t ∧
        Popped (sk i q) s t ∧ t = { s with lanes := t.lanes, tqs := t.tqs, regs := t.regs, tie := t.tie }
      (s.fld (A.rsA i p r) F.rsA.valid = 0 ∨ ((s.lane i p).win sh).isSome = true →
        Completes (.windowOpen i q) s fun t => t.on (A.lnSts i p) F.lnSts.winRefused = true ∧
          (t.reg (A.lnRefusedCnt i p)).toNat = min ((s.reg (A.lnRefusedCnt i p)).toNat + 1) 0xFFFFFFFF ∧
          Fires (tileSrc i 17) s t ∧ Popped (sk i q) s t ∧
          (∀ g ∈ (t.sched pl).shots, g.sid = e.sid → g.flags &&& Flag.taint = Flag.taint) ∧
          t = { s with regs := t.regs, tie := t.tie, evq := t.evq, tqs := t.tqs, scheds := t.scheds }) ∧
      (s.fld (A.rsA i p r) F.rsA.valid = 1 → (s.lane i p).win sh = none →
        ((s.lane i p).win (!sh) = none →
          Completes (.windowOpen i q) s fun t => opens t ∧ (t.lane i p).win sh = some w ∧ (t.lane i p).win (!sh) = none) ∧
        (∀ o, (s.lane i p).win (!sh) = some o → (¬(o.start = h.start ∧ o.t = e.execAt) ∨ sh = true) →
          Completes (.windowOpen i q) s fun t => opens t ∧ (t.lane i p).win sh = some w ∧
            (t.lane i p).win (!sh) =
              (if w.first ≤ o.last then some { o with lost := o.lost ++ [(w.first, w.last + 1)] } else some o)) ∧
        (∀ o, (s.lane i p).win (!sh) = some o → o.start = h.start → o.t = e.execAt → sh = false →
          Completes (.windowOpen i q) s fun t => opens t ∧ (t.lane i p).win (!sh) = some o ∧
            (t.lane i p).win sh =
              (if o.first ≤ w.last then some { w with lost := [(o.first, o.last + 1)] } else some w))))) ∧
  (∀ (s : State) (i : Tile) (p : Lane) (sh : Bool) (w : Win), (s.lane i p).win sh = some w →
    (w.first + 29 ≤ s.DT → s.DT ≤ w.last + 29 → w.lost = [] → getF w.a F.rsA.wmode = 0 → ((s.lane i p).acc sh).ci = false →
      (((s.winTick i p sh).lane i p).acc sh).i =
        clampI (-(2 ^ 47 - 1)) (2 ^ 47 - 1) (((s.lane i p).acc sh).i +
          32767 * (s.decimated i { w with nco := (s.ncoNow i p (getF w.a F.rsA.slot) :: w.nco).take 72 }).1.toInt)) ∧
    (s.DT = w.last + 31 → w.stored = none → getF w.a F.rsA.acc = 0 →
      let v := clampI (-2147483648) 2147483647 (roundDiv ((s.lane i p).acc sh).i (2 ^ getF w.a F.rsA.shift))
      (s.winTick i p sh).reg (A.lnResI i p) = toW v ∧
      ∃ x r, ((s.winTick i p sh).lane i p).win sh = some x ∧ x.stored = some r ∧ r.i = v)) ∧
  (∀ (s : State) (i : Tile) (p : Lane) (sh : Bool) (w : Win), (s.lane i p).win sh = some w → s.DT = w.last + 36 →
    let k := 8 * i.val + p.val
    Completes (.windowClose i p sh) s fun t =>
      (t.lane i p).win sh = none ∧ (t.lane i p).win (!sh) = (s.lane i p).win (!sh) ∧
      (t.reg (A.lnWinCnt i p)).toNat = min ((s.reg (A.lnWinCnt i p)).toNat + 1) 0xFFFFFFFF ∧
      (t.sched w.plot).endTick = s.DT ∧ SameBytes s t ∧
      (w.stored = none ∨ getF w.a F.rsA.acc = 1 ∨ w.noDec = true → t.tileRels = s.tileRels ∧ t.devRels = s.devRels) ∧
      (∀ r, w.stored = some r → getF w.a F.rsA.acc = 0 → w.noDec = false →
        KMap.get [] t.tileRels k = KMap.get [] s.tileRels k ++
          [{ value := r.st, tag := w.num.toNat % 256, midx := w.midx, at_ := s.tm.now + 52, shadow := sh }] ∧
        KMap.get [] t.devRels k = KMap.get [] s.devRels k ++
          [{ value := r.st, tag := w.num.toNat % 256, midx := w.midx, at_ := s.tm.now + 92, shadow := sh }]) ∧
      (∀ r, w.stored = some r → getF w.a F.rsA.acc = 1 → (t.lane i p).job sh = none) ∧
      (∀ r, w.stored = some r → w.noRec = false →
        (t.lane i p).due = (s.lane i p).due ++ [{ win := { w with nco := [] }, res := r }] ∧
        (t.sched w.plot).shots.map (fun h => (h.sid, h.results)) =
          (s.sched w.plot).shots.map (fun h => (h.sid, if h.sid = w.sid then h.results + 1 else h.results))) ∧
      (w.stored = none ∨ w.noRec = true → (t.lane i p).due = (s.lane i p).due ∧
        (t.sched w.plot).shots = (s.sched w.plot).shots))

/-- Read-out configuration (R195, R207, R215–R220). BAND changes only while every sequencer of the tile is idle. A read-out
set takes its words while the tile is idle, is VALID only where it passes its check, and its averaging job is discarded with
AVG_LOST. The threshold loop starts with cleared spreads and counts, at once in a STOPPED plot and at the next shot end
otherwise; with STATE_MAP other than 94h or without discriminant 0 it does not, and LOOP_ERR sets. The tone tracker starts
with TT_OFF = 0 and TT_BASE in its slot. UNFREEZE clears FROZEN and restarts the count of inputs. -/
def Obligations.ReadoutConfiguration : Prop :=
  (∀ (s : State) (i : Tile) (w : Word), HostOpen s (A.riCfg i) →
    (s.tileIdle i = true ∨ getF w F.riCfg.band = s.fld (A.riCfg i) F.riCfg.band → s.isSealed = false →
      Completes (.riBandWrite i w) s fun t => t.fld (A.riCfg i) F.riCfg.band = getF w F.riCfg.band ∧ OnlyRegs [A.riCfg i] s t) ∧
    (s.tileIdle i = false → getF w F.riCfg.band ≠ s.fld (A.riCfg i) F.riCfg.band →
      Completes (.riBandWrite i w) s fun t => Refused 2 0 (A.riCfg i) s t)) ∧
  (∀ (s : State) (i : Tile) (p : Lane) (r : Fin 16) (k : Fin 4) (w : Word), HostOpen s (A.rsA i p r + 4 * k) →
    (s.tileIdle i = false → Completes (.readoutSetWrite i p r k w) s fun t => Refused 2 0 (A.rsA i p r + 4 * k) s t) ∧
    (s.tileIdle i = true →
      Completes (.readoutSetWrite i p r k w) s fun t =>
        (k = 0 → t.on (A.rsA i p r) F.rsA.valid = (getF w F.rsA.valid == 1 && t.rsCause i p r == 0) ∧
          ∀ f ∈ spec_rsA.fields, f.fld ≠ F.rsA.valid → t.fld (A.rsA i p r) f.fld = getF w f.fld) ∧
        (k = 1 → Takes spec_rsB (A.rsB i p r) w s t) ∧ (k = 2 → Takes spec_rsC (A.rsC i p r) w s t) ∧
        (k = 3 → Takes spec_rsD (A.rsD i p r) w s t) ∧
        (∀ sh, (t.lane i p).job sh = ((s.lane i p).job sh).filter fun x => x.1 != r.val) ∧
        (∀ sh n, (s.lane i p).job sh = some (r.val, n) → t.on (A.lnSts i p) F.lnSts.avgLost = true) ∧
        SameRegs [A.rsA i p r + 4 * k, A.roChk i, A.lnSts i p] s t ∧ t = { s with regs := t.regs, tie := t.tie, lanes := t.lanes })) ∧
  (∀ (s : State) (i : Tile) (p : Lane) (d : Fin 4) (w : Word), HostOpen s (A.dbLoop i p d) →
    let k := getF w F.dbLoop.k
    (k < 4 ∨ 16 < k →
      Completes (.thrLoopEnable i p d w) s (fun t => Refused 0 0 (A.dbLoop i p d) s t) ∧
      Completes (.dbUnfreeze i p d w) s (fun t => Refused 0 0 (A.dbLoop i p d) s t)) ∧
    (4 ≤ k → k ≤ 16 → getF w F.dbLoop.en = 1 → s.on (A.dbLoop i p d) F.dbLoop.en = false → (s.bank i p d).pendEn = none →
      (s.fld (A.dbCtl i p d) F.dbCtl.stateMap = 0x94 → s.discOn i p d 0 = true →
        (s.tileStopped i = true → s.tileIdle i = true →
          Completes (.thrLoopEnable i p d w) s fun t => t.on (A.dbLoop i p d) F.dbLoop.en = true ∧
            t.fld (A.dbLoop i p d) F.dbLoop.k = k ∧ t.fld (A.dbLoop i p d) F.dbLoop.sepLim = getF w F.dbLoop.sepLim ∧
            (∀ n, n < 4 → t.reg (A.dbSpread i p d n) = 0) ∧ t.fld (A.dbSts i p d) F.dbSts.frozen = 0 ∧ t.bank i p d = {} ∧
            t = { s with regs := t.regs, tie := t.tie, banks := t.banks }) ∧
        (s.tileStopped i = false → s.tileIdle i = false → k = s.fld (A.dbLoop i p d) F.dbLoop.k →
          getF w F.dbLoop.sepLim = s.fld (A.dbLoop i p d) F.dbLoop.sepLim →
          Completes (.thrLoopEnable i p d w) s fun t => t.bank i p d = { s.bank i p d with pendEn := some true } ∧
            t = { s with banks := t.banks })) ∧
      (s.fld (A.dbCtl i p d) F.dbCtl.stateMap ≠ 0x94 ∨ s.discOn i p d 0 = false → s.tileIdle i = true →
        Completes (.thrLoopEnable i p d w) s fun t => t.fld (A.dbSts i p d) F.dbSts.loopErr = 1 ∧
          t.on (A.dbLoop i p d) F.dbLoop.en = false ∧ OnlyRegs [A.dbLoop i p d, A.dbSts i p d] s t)) ∧
    (4 ≤ k → k ≤ 16 → (getF w F.dbLoop.en == 1) = s.loopOwns i p d → s.tileStopped i = true → s.tileIdle i = true →
      Completes (.dbUnfreeze i p d w) s fun t => t.fld (A.dbSts i p d) F.dbSts.frozen = 0 ∧
        t.bank i p d = { s.bank i p d with n0 := 0, n1 := 0, n2 := 0, pendUnf := false } ∧
        SameRegs [A.dbLoop i p d, A.dbSts i p d] s t ∧ t = { s with regs := t.regs, tie := t.tie, banks := t.banks })) ∧
  (∀ (s : State) (i : Tile) (p : Lane) (w : Word), HostOpen s (A.ttCtl i p) → 4 ≤ getF w F.ttCtl.k → getF w F.ttCtl.k ≤ 16 →
    (getF w F.ttCtl.en = 1 → s.on (A.ttCtl i p) F.ttCtl.en = false → s.tileStopped i = true →
      Completes (.toneTrackEnable i p w) s fun t => t.on (A.ttCtl i p) F.ttCtl.en = true ∧ t.reg (A.ttOff i p) = 0 ∧
        t.reg (A.rfsFwLo i p (getF w F.ttCtl.slot)) = s.reg (A.ttBaseLo i p) ∧
        (t.reg (A.rfsFwHi i p (getF w F.ttCtl.slot))).toNat = (s.reg (A.ttBaseHi i p)).toNat % 65536 ∧
        t.fld (A.ttSts i p) F.ttSts.frozen = 0 ∧
        t.lane i p = { s.lane i p with vi := 0, vq := 0, inputs := 0, fresh := false, pendEn := none } ∧
        t = { s with regs := t.regs, tie := t.tie, lanes := t.lanes }) ∧
    (getF w F.ttCtl.en = 1 → s.on (A.ttCtl i p) F.ttCtl.en = false → s.tileStopped i = false →
      Completes (.toneTrackEnable i p w) s fun t => t.lane i p = { s.lane i p with pendEn := some true } ∧
        SameRegs [A.ttCtl i p] s t ∧ t = { s with regs := t.regs, tie := t.tie, lanes := t.lanes }) ∧
    (getF w F.ttCtl.en = 1 → s.on (A.ttCtl i p) F.ttCtl.en = true →
      Completes (.ttUnfreeze i p w) s fun t => t.fld (A.ttSts i p) F.ttSts.frozen = 0 ∧
        t.lane i p = { s.lane i p with inputs := 0 } ∧ SameRegs [A.ttCtl i p, A.ttSts i p] s t ∧
        t = { s with regs := t.regs, tie := t.tie, lanes := t.lanes }))

/-! ## The trellis (R225–R247) -/

/-- Decisions reach the trellis (R227–R230, R234, R235, R245). A release in its tick writes the view of its slot, if its tag
is that of the slot's plot; else it is discarded as stale, counted, and source 1,324 fires. Of two due in one tick the shadow
one is written, with COLLIDE. In the tick in which the plot's shot starts the releases wait for the clearing of its slots (R227). A parity unit with every input latched fires once in a shot, and its parity goes to its slot. A
remote decision shows the plot's tag plus the entry's offset, and its view the plot's tag. Writes of the trellis configuration
before sealing (R236, R240, R246): a parity unit, key bit, remote map or export entry takes the word and is enabled only where
it passes its check. A parity unit's write is discarded with MEM_BUSY while a tile of its mask is not idle, a key bit's while
its tile is not idle, a remote map entry's unless the plots it names, before and after, are STOPPED. -/
def Obligations.TrellisDecidesAndIsConfigured : Prop :=
  ((∀ (s : State) (n : Fin 320) (r : Fin 192),
    (s.startFirst n = true → Completes (.decisionReleaseDevice n) s (· = s) ∧
      ∀ k : Fin 256, k.val = n.val → Completes (.decisionReleaseTile k) s (· = s)) ∧
    (s.startFirst (320 + r) = true → Completes (.remoteRelease r) s (· = s))) ∧
  (∀ (s : State) (n : Fin 256) (d : Dec), s.startFirst n = false → ((KMap.get [] s.tileRels n).filter fun x => x.at_ == s.tm.now) = [d] →
    (s.slotTag n = some d.tag →
      Completes (.decisionReleaseTile n) s fun t => t.tileView n = viewWord d.value d.tag d.midx ∧
        KMap.get [] t.tileRels n = ((KMap.get [] s.tileRels n).filter fun x => s.tm.now < x.at_) ∧
        (∀ m, m ≠ n.val → t.tileView m = s.tileView m) ∧ KMap.get 0 t.viewAts n = s.tm.now ∧
        t = { s with tileRels := t.tileRels, tileViews := t.tileViews, viewAts := t.viewAts }) ∧
    (s.slotTag n ≠ some d.tag →
      Completes (.decisionReleaseTile n) s fun t => t.on A.trlSts F.trlSts.stale = true ∧ Fires 1324 s t ∧
        (t.reg A.trlStaleCnt).toNat = min ((s.reg A.trlStaleCnt).toNat + 1) 0xFFFFFFFF ∧
        t = { s with tileRels := t.tileRels, regs := t.regs, tie := t.tie, evq := t.evq })) ∧
  (∀ (s : State) (n : Fin 256) (d e : Dec), s.startFirst n = false → ((KMap.get [] s.tileRels n).filter fun x => x.at_ == s.tm.now) = [d, e] →
    d.shadow = false → e.shadow = true → s.slotTag n = some e.tag →
    Completes (.decisionReleaseTile n) s fun t => t.tileView n = viewWord e.value e.tag e.midx ∧
      t.on A.trlSts F.trlSts.collide = true ∧ (t.reg A.trlCollideCnt).toNat = min ((s.reg A.trlCollideCnt).toNat + 1) 0xFFFFFFFF) ∧
  (∀ (s : State) (n : Fin 320) (d : Dec), s.startFirst n = false → ((KMap.get [] s.devRels n).filter fun x => x.at_ == s.tm.now) = [d] →
    (s.slotTag n = some d.tag →
      Completes (.decisionReleaseDevice n) s fun t => t.reg (A.trlSlot n) = viewWord d.value d.tag d.midx ∧
        SameRegs [A.trlSlot n] s t ∧ t = { s with devRels := t.devRels, regs := t.regs, tie := t.tie, viewAts := t.viewAts }) ∧
    (s.slotTag n ≠ some d.tag →
      Completes (.decisionReleaseDevice n) s fun t => t.reg (A.trlSlot n) = s.reg (A.trlSlot n) ∧
        t.on A.trlSts F.trlSts.stale = true ∧ Fires 1324 s t)) ∧
  (∀ (s : State) (u : Fin 64), s.on (A.puCfg u) F.puCfg.en = true → s.on (A.puSts u) F.puSts.fired = false →
    s.parTick u = some s.tm.now →
    Completes (.parityFire u) s fun t => t.on (A.puSts u) F.puSts.fired = true ∧
      ∃ d, KMap.get [] t.devRels (256 + u.val) = KMap.get [] s.devRels (256 + u.val) ++ [d] ∧
        d.value = ((s.parHas u).filter fun x => x.value.testBit (s.fld (A.puCfg u) F.puCfg.bitSel)).length % 2 +
          2 * b2n ((s.parHas u).any fun x => x.value.testBit 1) ∧
        d.midx = s.fld (A.puCfg u) F.puCfg.outMidx ∧ d.shadow = false) ∧
  (∀ (s : State) (r : Fin 192) (d : Dec), s.startFirst (320 + r) = false → ((KMap.get [] s.remRels r).filter fun x => x.at_ == s.DT).getLast? = some d →
    let tag := s.plotTag (s.fld (A.rmCfg r) F.rmCfg.plot)
    (d.tag = (tag + s.fld (A.rmCfg r) F.rmCfg.tagOfs) % 256 →
      Completes (.remoteRelease r) s fun t => t.reg (A.trlSlot (320 + r.val)) = viewWord d.value tag d.midx ∧
        SameRegs [A.trlSlot (320 + r.val)] s t ∧
        t = { s with remRels := t.remRels, regs := t.regs, tie := t.tie, viewAts := t.viewAts }) ∧
    (d.tag ≠ (tag + s.fld (A.rmCfg r) F.rmCfg.tagOfs) % 256 →
      Completes (.remoteRelease r) s fun t => t.on (A.rmSts r) F.rmSts.stale = true ∧ t.on A.trlSts F.trlSts.stale = true ∧
        Fires 1324 s t ∧ t.reg (A.trlSlot (320 + r.val)) = s.reg (A.trlSlot (320 + r.val))))) ∧
  (∀ (s : State) (w : Word), s.isSealed = false →
    (∀ (u : Fin 64) (which : Fin 3), HostOpen s (A.puCfg u + 4 * which) →
      ((∃ n ∈ s.parMask u, s.tileIdle (n / 8) = false) →
        Completes (.parityUnitCfgWrite u which w) s fun t => Refused 2 0 (A.puCfg u + 4 * which) s t) ∧
      ((∀ n ∈ s.parMask u, s.tileIdle (n / 8) = true) →
        Completes (.parityUnitCfgWrite u which w) s fun t =>
          t.on (A.puCfg u) F.puCfg.en =
            ((if which = 0 then getF w F.puCfg.en == 1 else s.on (A.puCfg u) F.puCfg.en) && t.parCause u == 0) ∧
          (which = 0 → t.fld (A.puCfg u) F.puCfg.bitSel = getF w F.puCfg.bitSel ∧
            t.fld (A.puCfg u) F.puCfg.inMidx = getF w F.puCfg.inMidx ∧ t.fld (A.puCfg u) F.puCfg.outMidx = getF w F.puCfg.outMidx) ∧
          (which = 1 → t.reg (A.puMaskLo u) = w) ∧ (which = 2 → t.reg (A.puMaskHi u) = w) ∧
          OnlyRegs [A.puCfg u, A.puCfg u + 4 * which, A.trlChk] s t)) ∧
    (∀ (i : Tile) (ks : Fin 8) (j : Fin 4), HostOpen s (A.kb i ks j) →
      (s.tileIdle i = false → Completes (.keyBitWrite i ks j w) s fun t => Refused 2 0 (A.kb i ks j) s t) ∧
      (s.tileIdle i = true →
        Completes (.keyBitWrite i ks j w) s fun t =>
          t.on (A.kb i ks j) F.kb.en = (getF w F.kb.en == 1 && t.keyCause i ks j == 0) ∧
          t.fld (A.kb i ks j) F.kb.slot = getF w F.kb.slot ∧ t.fld (A.kb i ks j) F.kb.bit = getF w F.kb.bit ∧
          t.fld (A.kb i ks j) F.kb.msrc = getF w F.kb.msrc ∧ t.fld (A.kb i ks j) F.kb.fixMidx = getF w F.kb.fixMidx ∧
          OnlyRegs [A.kb i ks j, A.tpChk i] s t)) ∧
    (∀ (r : Fin 192), HostOpen s (A.rmCfg r) →
      (s.stopped (s.fld (A.rmCfg r) F.rmCfg.plot) = false ∨ s.stopped (getF w F.rmCfg.plot) = false →
        Completes (.remoteMapWrite r w) s fun t => Refused 2 0 (A.rmCfg r) s t) ∧
      (s.stopped (s.fld (A.rmCfg r) F.rmCfg.plot) = true → s.stopped (getF w F.rmCfg.plot) = true →
        Completes (.remoteMapWrite r w) s fun t =>
          t.on (A.rmCfg r) F.rmCfg.en = (getF w F.rmCfg.en == 1 && t.rmCause r == 0) ∧
          t.fld (A.rmCfg r) F.rmCfg.srcDev = getF w F.rmCfg.srcDev ∧ t.fld (A.rmCfg r) F.rmCfg.srcSlot = getF w F.rmCfg.srcSlot ∧
          t.fld (A.rmCfg r) F.rmCfg.plot = getF w F.rmCfg.plot ∧ t.fld (A.rmCfg r) F.rmCfg.tagOfs = getF w F.rmCfg.tagOfs ∧
          OnlyRegs [A.rmCfg r, A.trlChk] s t)) ∧
    (∀ (n : Fin 320), HostOpen s (A.exp n) →
      Completes (.exportWrite n w) s fun t =>
        t.on (A.exp n) F.exp.en = (getF w F.exp.en == 1 && s.slotInUse n) ∧
        t.fld (A.exp n) F.exp.route = getF w F.exp.route ∧ OnlyRegs [A.exp n, A.trlChk] s t))

/-! ## Kelair (R248–R292) -/

/-- Training of a link (R254, R257–R260, R276, R292). An enabled or retrained link of a configured part, which no shutdown has begun in,
begins its first attempt, and is OFF in another part; a link switched off goes OFF with cause 9. A phase ends with the lanes that passed it, if at least two did. After the last one the link is UP on four lanes
and DEGRADED on fewer, unless the partner's array number or lane map differs (cause 5) or it bears this device's own number
(cause 6). An attempt that fails backs off 1 ms · 2^(n−1), after the eighth the link is DOWN; the back-off ends in the next
attempt, AUTORETRY begins anew every second. -/
def Obligations.LinksTrain : Prop :=
  (∀ (s : State) (k : Link) (w : Word), HostOpen s (A.klCtl k) → s.isSealed = false →
    (s.linksMay = true → s.on (A.klCtl k) F.klCtl.en = false →
      Completes (.linkEnable k w) s fun t => Attempts k 1 (getF w F.klCtl.laneEn) s t ∧ t.on (A.klCtl k) F.klCtl.en = true) ∧
    (s.linksMay = true → s.on (A.klCtl k) F.klCtl.en = true → Completes (.linkEnable k w) s fun t => OnlyRegs [A.klCtl k] s t) ∧
    (s.linksMay = true → getF w F.klCtl.en = 1 →
      Completes (.linkRetrain k w) s fun t => Attempts k 1 (getF w F.klCtl.laneEn) s t) ∧
    (s.linksMay = false →
      (Completes (.linkEnable k w) s fun t => t.klState k = 0 ∧ t.klLanes k = 0 ∧ t.on (A.klCtl k) F.klCtl.en = true) ∧
      (getF w F.klCtl.en = 1 → Completes (.linkRetrain k w) s fun t => t.klState k = 0 ∧ t.klLanes k = 0)) ∧
    (getF w F.klCtl.en = 0 → s.on (A.klCtl k) F.klCtl.en = true → s.shutAt = none →
      Completes (.linkRetrain k w) s fun t => t.klState k = (if getF w F.klCtl.test = 1 then 7 else 0) ∧ t.klLanes k = 0 ∧
        t.fld (A.klSts k) F.klSts.downCause = 9 ∧ (t.link k).wait = [] ∧ (t.link k).replay = [])) ∧
  (∀ (s : State) (k : Link) (lanes pol : BitVec 4) (array : Byte) (dev : BitVec 4) (plink : BitVec 3) (map : BitVec 4),
    s.klState k = 1 → 2 ≤ laneCount ((s.link k).good &&& lanes.toNat) →
    let good := (s.link k).good &&& lanes.toNat
    let n := s.fld (A.klSts k) F.klSts.attempt
    (s.fld (A.klSts k) F.klSts.phase < 4 →
      Completes (.trainPhaseDone k lanes pol array dev plink map) s fun t =>
        t.fld (A.klSts k) F.klSts.phase = s.fld (A.klSts k) F.klSts.phase + 1 ∧ t.klState k = 1 ∧
        t.link k = { s.link k with good := good } ∧
        (s.fld (A.klSts k) F.klSts.phase = 1 → ∀ i : KLane, good.testBit i = true → t.on (A.klLnSts k i) F.klLnSts.cdrLock = true ∧
          t.on (A.klLnSts k i) F.klLnSts.rxPol = pol.getLsbD i) ∧
        (s.fld (A.klSts k) F.klSts.phase = 2 → ∀ i : KLane, good.testBit i = true →
          t.on (A.klLnSts k i) F.klLnSts.blockLock = true) ∧
        t = { s with regs := t.regs, tie := t.tie, links := t.links }) ∧
    (s.fld (A.klSts k) F.klSts.phase = 4 → array.toNat = s.fld A.klId F.klId.arrayId → map.toNat = good → dev.toNat ≠ s.devNum →
      Completes (.trainPhaseDone k lanes pol array dev plink map) s fun t =>
        t.klState k = (if good = 15 then 2 else 3) ∧ t.klLanes k = good ∧ Fires (klSrc k 0) s t ∧
        t.fld (A.klSts k) F.klSts.partnerDev = dev.toNat ∧ t.fld (A.klSts k) F.klSts.partnerLink = plink.toNat ∧
        t.fld (A.klSts k) F.klSts.attempt = 0) ∧
    (s.fld (A.klSts k) F.klSts.phase = 4 → array.toNat ≠ s.fld A.klId F.klId.arrayId ∨ map.toNat ≠ good ∨ dev.toNat = s.devNum →
      1 ≤ n → n < 8 → (s.link k).retry = false →
      Completes (.trainPhaseDone k lanes pol array dev plink map) s fun t => t.klState k = 5 ∧ CountsUp (A.klTrainFailCnt k) 1 s t ∧
        t.fld (A.klSts k) F.klSts.downCause =
          (if array.toNat ≠ s.fld A.klId F.klId.arrayId ∨ map.toNat ≠ good then 5 else 6))) ∧
  (∀ (s : State) (k : Link), s.klState k = 1 → (s.link k).attemptAt + 25000000 ≤ s.tm.now →
    let n := s.fld (A.klSts k) F.klSts.attempt
    let c := min 5 (s.fld (A.klSts k) F.klSts.phase + 1)
    (1 ≤ n → n < 8 → (s.link k).retry = false →
      Completes (.trainAttemptTimeout k) s fun t => t.klState k = 5 ∧ t.fld (A.klSts k) F.klSts.downCause = c ∧
        CountsUp (A.klTrainFailCnt k) 1 s t ∧ (t.link k).backoffAt = s.tm.now + 2 ^ (n - 1) * 2500000 ∧ t.evq = s.evq) ∧
    (8 ≤ n ∨ (s.link k).retry = true →
      Completes (.trainAttemptTimeout k) s fun t => t.klState k = 6 ∧ t.fld (A.klSts k) F.klSts.downCause = c ∧
        CountsUp (A.klTrainFailCnt k) 1 s t ∧ (t.link k).downAt = s.tm.now ∧ Fires (klSrc k 2) s t)) ∧
  (∀ (s : State) (k : Link),
    (s.klState k = 5 → (s.link k).backoffAt ≤ s.tm.now → s.fld (A.klSts k) F.klSts.attempt < 8 →
      Completes (.backoffExpiry k) s fun t =>
        Attempts k (s.fld (A.klSts k) F.klSts.attempt + 1) (s.fld (A.klCtl k) F.klCtl.laneEn) s t ∧ (t.link k).retry = false) ∧
    (s.klState k = 6 → s.on (A.klCtl k) F.klCtl.autoretry = true → (s.link k).downAt + 2500000000 ≤ s.tm.now →
      Completes (.autoretryAttempt k) s fun t =>
        Attempts k 1 (s.fld (A.klCtl k) F.klCtl.laneEn) s t ∧ (t.link k).retry = true))

/-- The lanes of a link that is up (R253, R256, R261, R270, R276). Invalid headers are counted, and 32 of them within 64 blocks cost a
lane its block lock. A lane that loses its lock is given up: with two lanes or more
left the link goes on DEGRADED and says so, with fewer it trains anew with cause 7. A rejoined lane is used again. A lane map
from the partner is followed. Four failures of one message end in a training attempt with cause 8. Filler rows leave at their
period and keep the elastic buffer's depth. The link sleeps when both sides agree, its lanes without lock, and wakes on what it has to
send, on a burst of the partner, for a time transfer and for a start that is near. -/
def Obligations.LanesOfALink : Prop :=
  (∀ (s : State) (k : Link) (i : KLane) (hdrs : Nat), s.klUp k = true → (s.klLanes k).testBit i = true → 0 < hdrs → hdrs < 32 →
    (s.link k).badHdr = [] →
    Completes (.laneLockLoss k i hdrs) s fun t => CountsUp (A.klLnHdrErr k i) hdrs s t ∧ SameRegs [A.klLnHdrErr k i] s t ∧
      (t.link k).badHdr = List.replicate hdrs (i.val, s.tm.now) ∧ t = { s with regs := t.regs, tie := t.tie, links := t.links }) ∧
  (∀ (s : State) (k : Link) (i : KLane) (hdrs : Nat), s.klUp k = true → (s.klLanes k).testBit i = true →
    hdrs = 0 ∨ (32 ≤ hdrs ∧ s.on (A.klLnSts k i) F.klLnSts.blockLock = true) →
    let m := s.klLanes k - 2 ^ i.val
    (2 ≤ laneCount m → (s.link k).replay = [] → (s.link k).inject = [] →
      Completes (.laneLockLoss k i hdrs) s fun t => t.klState k = 3 ∧ t.klLanes k = m ∧ CountsUp (A.klDegradeCnt k) 1 s t ∧
        CountsUp (A.klLnHdrErr k i) hdrs s t ∧
        t.on (A.klLnSts k i) F.klLnSts.retraining = true ∧ Fires (klSrc k 1) s t ∧
        t.out = s.out ++ [.blocks k [controlBlock 3 0 m]]) ∧
    (laneCount m < 2 →
      Completes (.laneLockLoss k i hdrs) s fun t => Attempts k 1 (s.fld (A.klCtl k) F.klCtl.laneEn) s t ∧
        t.fld (A.klSts k) F.klSts.downCause = 7 ∧ Fires (klSrc k 3) s t)) ∧
  (∀ (s : State) (k : Link) (i : KLane) (pol : Bool), s.klUp k = true → s.on (A.klLnSts k i) F.klLnSts.retraining = true →
    (s.klLanes k).testBit i = false → (s.link k).inject = [] →
    Completes (.laneRejoin k i pol) s fun t => t.on (A.klLnSts k i) F.klLnSts.cdrLock = true ∧
      t.on (A.klLnSts k i) F.klLnSts.blockLock = true ∧ t.on (A.klLnSts k i) F.klLnSts.rxPol = pol ∧ t.klLanes k = s.klLanes k + 2 ^ i.val ∧
      t.klState k = (if s.klLanes k + 2 ^ i.val = 15 then 2 else 3) ∧ t.on (A.klLnSts k i) F.klLnSts.retraining = false ∧
      t.out = s.out ++ [.blocks k [controlBlock 3 0 (s.klLanes k + 2 ^ i.val)]] ∧ t.evq = s.evq) ∧
  (∀ (s : State) (k : Link) (b : Block), s.klUp k = true → ControlOk 3 b →
    let m := blkF b 24 4
    ((∀ i, i < 4 → (s.klLanes k).testBit i = true → m.testBit i = true) →
      Completes (.laneMap k b) s fun t => t.klLanes k = m ∧ t.klState k = (if m = 15 then 2 else 3) ∧
        (∀ i : KLane, m.testBit i = true → (s.klLanes k).testBit i = false → t.on (A.klLnSts k i) F.klLnSts.retraining = false ∧
          t.on (A.klLnSts k i) F.klLnSts.cdrLock = true ∧ t.on (A.klLnSts k i) F.klLnSts.blockLock = true) ∧
        t = { s with regs := t.regs, tie := t.tie }) ∧
    ((∃ i, i < 4 ∧ (s.klLanes k).testBit i = true ∧ m.testBit i = false) →
      (2 ≤ laneCount m → (s.link k).replay = [] →
        Completes (.laneMap k b) s fun t => t.klLanes k = m ∧ t.klState k = 3 ∧ Fires (klSrc k 1) s t ∧ t.out = s.out ∧
          ∀ i : KLane, (s.klLanes k).testBit i = true → m.testBit i = false → t.on (A.klLnSts k i) F.klLnSts.retraining = true) ∧
      (laneCount m < 2 →
        Completes (.laneMap k b) s fun t => Attempts k 1 (s.fld (A.klCtl k) F.klCtl.laneEn) s t ∧
          t.fld (A.klSts k) F.klSts.downCause = 7 ∧ Fires (klSrc k 3) s t))) ∧
  (∀ (s : State) (k : Link), s.klUp k = true → 4 ≤ (s.link k).rxFails ∨ 4 ≤ (s.link k).txFails →
    Completes (.replayFailure k) s fun t => Attempts k 1 (s.fld (A.klCtl k) F.klCtl.laneEn) s t ∧
      t.fld (A.klSts k) F.klSts.downCause = 8 ∧ Fires (klSrc k 3) s t) ∧
  (∀ (s : State) (k : Link), s.klUp k = true →
    (s.fld (A.klFill k) F.klFill.period * 165 ≤ (s.tm.now - (s.link k).fillAt) * 32 →
      Completes (.fillerRowSend k) s fun t => t.out = s.out ++ [.filler k (s.klLanes k)] ∧
        t.link k = { s.link k with fillAt := s.tm.now } ∧ t = { s with out := t.out, links := t.links }) ∧
    (∀ depth, (s.link k).actAt + 10560 ≤ s.tm.now →
      Completes (.fillerRowReceive k depth) s fun t =>
        (4 ≤ depth → CountsUp (A.klFillDelCnt k) 1 s t ∧ SameRegs [A.klFillDelCnt k] s t) ∧
        (depth ≤ 2 → CountsUp (A.klFillInsCnt k) 1 s t ∧ SameRegs [A.klFillInsCnt k] s t) ∧
        (depth = 3 → t = s) ∧ t = { s with regs := t.regs, tie := t.tie, links := t.links })) ∧
  (∀ (s : State) (k : Link) (b : Block), s.klUp k = true →
    let sleeps := fun t : State => t.klState k = 4 ∧ t.klLanes k = 0 ∧ (t.link k).good = s.klLanes k ∧
      (∀ i : KLane, t.on (A.klLnSts k i) F.klLnSts.cdrLock = false ∧ t.on (A.klLnSts k i) F.klLnSts.blockLock = false) ∧
      SameRegs (A.klSts k :: (List.range 4).map (A.klLnSts k)) s t
    (ControlOk 4 b → s.idleOk k = true → (s.link k).inject = [] →
      Completes (.idleReq k b) s fun t => sleeps t ∧ t.out = s.out ++ [.blocks k [controlBlock 5 0 (s.klLanes k)]]) ∧
    (ControlOk 5 b → s.idleOk k = true → Completes (.idleAck k b) s fun t => sleeps t ∧
      t = { s with regs := t.regs, tie := t.tie, links := t.links }) ∧
    (s.idleOk k = false → (ControlOk 4 b → Completes (.idleReq k b) s (· = s)) ∧
      (ControlOk 5 b → Completes (.idleAck k b) s (· = s)))) ∧
  (∀ (s : State) (k : Link) (relocked : BitVec 4) (burst : Bool), s.klState k = 4 →
    (s.link k).wait ≠ [] ∨ burst = true ∨ (s.ttDue = true ∧ s.fld A.klTtCfg F.klTtCfg.uplink = k) ∨
      (∃ p : Plot, s.startNear p = true) →
    let m := (s.link k).good &&& relocked.toNat
    (2 ≤ laneCount m →
      Completes (.idleLpExit k relocked burst) s fun t => t.klState k = (if m = 15 then 2 else 3) ∧ t.klLanes k = m ∧
        Fires (klSrc k 0) s t) ∧
    (laneCount m < 2 →
      Completes (.idleLpExit k relocked burst) s fun t => Attempts k 1 (s.fld (A.klCtl k) F.klCtl.laneEn) s t))

/-- Messages on a link (R245, R263–R272, R277–R280). A decision message for this device is acknowledged and, at least 60 ticks
ahead of its USE_DT, waits for it; later it is counted late; without a map entry it is dropped. A message whose check fails is
counted and asked for again. An acknowledgement frees the messages up to its own; a NAK has them sent again from its own on. A
time-transfer request leaves at its period; one that arrives is answered with the stamps of its arrival and departure, and each is an
edge at its time-tag input (R393); a
response completes an exchange, the first average sets DT, and later ones step the trim in a usable gap or lose the alignment. Management traffic that completes a re-mirror sets SYNCED.
INJECT and BIT_SLIP act on their lane. -/
def Obligations.LinkMessages : Prop :=
  (∀ (s : State) (k : Link) (b0 b1 : Block), s.klUp k = true →
    (blkF b0 0 8 = 0x1E → blkF b1 48 16 = crcDecision b0 b1 → Arrives k 0 b0 s → blkF b1 32 16 = 2 ^ s.devNum →
      (s.link k).inject = [] →
      let use := s.wholeDT (blkF b1 0 32)
      let got := fun t : State => t.out = s.out ++ [.blocks k [controlBlock 1 (blkF b0 8 8) (s.klLanes k)]] ∧
        (t.link k).rxSeq = (blkF b0 8 8 + 1) % 256 ∧ CountsUp (A.klRxDecCnt k) 1 s t
      (∀ r, s.rmFind (blkF b0 24 4) (blkF b0 32 9) = some r →
        (s.DT + 60 ≤ use →
          Completes (.decisionMsgReceive k b0 b1) s fun t => got t ∧ t.evq = s.evq ∧
            KMap.get [] t.remRels r = KMap.get [] s.remRels r ++ [{ value := blkF b0 41 2, tag := blkF b0 48 8,
                                                                    midx := blkF b0 56 8, at_ := use, shadow := false }]) ∧
        (use < s.DT + 60 →
          Completes (.decisionMsgReceive k b0 b1) s fun t => got t ∧ t.remRels = s.remRels ∧ Fires 1324 s t ∧
            t.on (A.rmSts r) F.rmSts.late = true ∧ CountsUp A.trlRemLateCnt 1 s t)) ∧
      (s.rmFind (blkF b0 24 4) (blkF b0 32 9) = none →
        Completes (.decisionMsgReceive k b0 b1) s fun t => got t ∧ t.remRels = s.remRels ∧ Fires 1324 s t ∧
          CountsUp A.trlRemDropCnt 1 s t)) ∧
    (blkF b0 0 8 ≠ 0x1E ∨ blkF b1 48 16 ≠ crcDecision b0 b1 → (s.link k).inject = [] → (s.link k).badHdr.length < 31 →
      Completes (.decisionMsgReceive k b0 b1) s fun t => CountsUp (A.klDecCrcCnt k) 1 s t ∧
        t.out = s.out ++ [.blocks k [controlBlock 2 (s.link k).rxSeq (s.klLanes k)]] ∧ t.remRels = s.remRels ∧
        t.link k = { s.link k with naked := true, badHdr := (t.link k).badHdr, rxFails :=
          if (s.link k).naked = true ∧ blkF b0 8 8 ≠ (s.link k).rxSeq then (s.link k).rxFails else (s.link k).rxFails + 1 } ∧
        (blockType (blkF b0 0 8) = true → (t.link k).badHdr = (s.link k).badHdr) ∧
        (blockType (blkF b0 0 8) = false → CountsUp (A.klLnHdrErr k (s.rxLane k)) 1 s t))) ∧
  (∀ (s : State) (k : Link) (b : Block) (l r : List (Nat × List Block)) (e : Nat × List Block), s.klUp k = true →
    (s.link k).replay = l ++ e :: r → (∀ x ∈ l, x.1 ≠ e.1) → e.1 = blkF b 16 8 →
    (ControlOk 1 b → (s.link k).wait = [] →
      Completes (.linkAck k b) s fun t => (t.link k).replay = r ∧ (t.link k).txFails = 0 ∧ t = { s with links := t.links }) ∧
    (ControlOk 2 b → (s.link k).inject = [] →
      Completes (.linkNak k b) s fun t => t.out = s.out ++ (e :: r).map (fun x => .blocks k x.2) ∧
        (t.link k).replay = (s.link k).replay ∧ CountsUp (A.klReplayCnt k) (r.length + 1) s t ∧ SameRegs [A.klReplayCnt k] s t)) ∧
  (∀ (s : State) (frac : Byte), s.ttDue = true → s.klUp (s.fld A.klTtCfg F.klTtCfg.uplink) = true →
    Completes (.ttRequestSend frac) s fun t => t.ttx = { s.ttx with
      tseq := (s.ttx.tseq + 1) % 256, sentAt := s.tm.now,
      out := some ((s.ttx.tseq + 1) % 256, s.DT % 2 ^ 48 * 256 + frac.toNat) } ∧ t.tm = s.tm ∧
      let i := 26 + s.fld A.klTtCfg F.klTtCfg.uplink
      (s.inHold i = true → CountsUp (A.tiuInHoldCnt i) 1 s t) ∧
      (s.inHold i = false → CountsUp (A.tiuInEdgeCnt i) 1 s t ∧ (t.tiu i).condAt = some s.tm.now)) ∧
  (∀ (s : State) (k : Link) (b0 b1 b2 : Block) (frac frac3 : Byte), blkF b0 0 8 = 0x33 → blkF b2 48 16 = crcTt b0 b1 b2 →
    Arrives k 1 b0 s →
    (blkF b0 24 1 = 0 → (s.link k).wait = [] → (s.link k).replay = [] → (s.link k).inject = [] →
      Completes (.ttMsgReceive k b0 b1 b2 frac frac3) s fun t => ∃ alive,
        t.out = s.out ++ [.blocks k [controlBlock 1 (blkF b0 8 8) (s.klLanes k)],
          .blocks k (KMsg.encode (s.link k).txSeq alive (.tt 1 frac.toNat frac3.toNat (blkF b0 48 8)
            (s.fld A.klTtSts F.klTtSts.depth) s.ttAligned s.DT (s.DT + 330)))] ∧
        t.ttx = { s.ttx with edges := s.ttx.edges ++ [(s.tm.now + 330, k.val, frac3)] } ∧
        (s.inHold (18 + k) = false → CountsUp (A.tiuInEdgeCnt (18 + k)) 1 s t ∧ (t.tiu (18 + k)).condAt = some s.tm.now)) ∧
    (∀ t1, blkF b0 24 1 = 1 → s.ttx.out = some (blkF b0 48 8, t1) → s.on A.klTtCfg F.klTtCfg.en = true →
      s.on A.klTtCfg F.klTtCfg.role = false → s.fld A.klTtCfg F.klTtCfg.uplink = k.val →
      let x := stampDiff (stamp48 (blkF b1 0 48) (blkF b0 32 8)) t1 -
        stampDiff (stamp48 s.DT frac.toNat) (stamp48 (blkF b2 0 48) (blkF b0 40 8))
      let th := roundDiv ((s.ttx.sum + x) * 25 - sext 16 (s.fld A.klTtAsym F.klTtAsym.asym) * 16) 50
      (3 ≤ blkF b0 56 4 → blkF b0 60 1 = 1 →
        Completes (.ttMsgReceive k b0 b1 b2 frac frac3) s fun t => t.fld A.klTtSts F.klTtSts.uplinkRefused = 1 ∧ FiresAmong 1364 s t ∧
          t.tm = s.tm ∧ t.ttx = { s.ttx with out := none }) ∧
      (blkF b0 56 4 < 3 → blkF b0 60 1 = 1 → s.ttx.n + 1 < 2 ^ s.fld A.klTtCfg F.klTtCfg.avg →
        Completes (.ttMsgReceive k b0 b1 b2 frac frac3) s fun t =>
          t.ttx = { s.ttx with out := none, n := s.ttx.n + 1, sum := s.ttx.sum + x } ∧ t.tm = s.tm ∧
          t.fld A.klTtSts F.klTtSts.depth = blkF b0 56 4 + 1) ∧
      (blkF b0 56 4 < 3 → blkF b0 60 1 = 1 → s.ttx.n = 0 → s.fld A.klTtCfg F.klTtCfg.avg = 0 → s.ttAligned = false →
        (s.allStopped = true →
          Completes (.ttMsgReceive k b0 b1 b2 frac frac3) s fun t =>
            t.tm.dt = s.tm.dt + BitVec.ofInt 64 ((128 - th) / 256) ∧ t.ttAligned = true ∧
            t.fld A.dtSts F.dtSts.source = 2 ∧ t.ttx = { s.ttx with out := none, n := 0, sum := 0 }) ∧
        (s.allStopped = false →
          Completes (.ttMsgReceive k b0 b1 b2 frac frac3) s fun t =>
            t.fld A.klTtSts F.klTtSts.stepRefused = 1 ∧ t.tm = s.tm ∧ t.ttAligned = false)) ∧
      (blkF b0 56 4 < 3 → blkF b0 60 1 = 1 → s.ttx.n = 0 → s.fld A.klTtCfg F.klTtCfg.avg = 0 → s.ttAligned = true →
        let y := (s.ttx.sum + x) * 25 - sext 16 (s.fld A.klTtAsym F.klTtAsym.asym) * 16
        (6400 < y.natAbs →
          Completes (.ttMsgReceive k b0 b1 b2 frac frac3) s fun t => t.fld A.klTtSts F.klTtSts.alignLost = 1 ∧
            t.ttAligned = false ∧ FiresAmong 1364 s t ∧ t.tm = s.tm) ∧
        (y.natAbs ≤ 96 →
          Completes (.ttMsgReceive k b0 b1 b2 frac frac3) s fun t => t.reg A.klTtTrim = s.reg A.klTtTrim ∧ t.ttx.step = 0 ∧
            t.tm = s.tm ∧ t.ttAligned = true) ∧
        (96 < y.natAbs → y.natAbs ≤ 6400 → (∃ p : Plot, s.usable p = false) →
          Completes (.ttMsgReceive k b0 b1 b2 frac frac3) s fun t => t.reg A.klTtTrim = s.reg A.klTtTrim ∧
            t.ttx.step = (if 0 < y then -1 else 1) ∧ t.tm = s.tm ∧ t.ttAligned = true) ∧
        (96 < y.natAbs → y.natAbs ≤ 6400 → (∀ p : Plot, s.usable p = true) →
          Completes (.ttMsgReceive k b0 b1 b2 frac frac3) s fun t => t.ttx.step = 0 ∧ t.tm = s.tm ∧ t.ttAligned = true ∧
            sext 9 (t.fld A.klTtTrim F.klTtTrim.trim) =
              clampI (-128) 127 (sext 9 (s.fld A.klTtTrim F.klTtTrim.trim) + (if 0 < y then -1 else 1)))))) ∧
  (∀ (s : State) (k : Link) (h tr : Block) (payload : List Block), BulkFor k 0 h payload tr s →
    Completes (.mgmtMsg k h payload tr) s fun t => (t.link k).rxSeq = (blkF h 8 8 + 1) % 256 ∧
      t.fld A.klPairSts F.klPairSts.synced = (if s.isStandby && s.allStopped && Config.remirrorDone payload then 1
        else s.fld A.klPairSts F.klPairSts.synced) ∧ t = { s with regs := t.regs, tie := t.tie, links := t.links, out := t.out }) ∧
  (∀ (s : State) (k : Link) (i : KLane) (w : Word), HostOpen s (A.klLnCtl k i) → s.isSealed = false →
    let writes := fun t : State => Takes spec_klLnCtl (A.klLnCtl k i) w s t ∧
      SameRegs [A.klLnCtl k i, A.klLnSts k i, A.klLnEq k i] s t ∧ t = { s with regs := t.regs, tie := t.tie, links := t.links }
    (s.klState k = 7 → Completes (.prbsInject k i w) s fun t => writes t ∧ (t.link k).inject = (s.link k).inject ∧
      (t.laneTest k i).inj = (s.laneTest k i).inj + 1) ∧
    (s.klState k ≠ 7 → s.testWrite k i (putF w F.klLnCtl.inject 1) = false →
      Completes (.prbsInject k i w) s fun t => writes t ∧ (t.link k).tests = (s.link k).tests ∧
        (t.link k).inject = (if s.klUp k = true ∧ (s.klLanes k).testBit i = true then (s.link k).inject ++ [i.val]
          else (s.link k).inject)) ∧
    (s.klState k = 7 → Completes (.bitSlip k i w) s fun t => writes t ∧
      (getF w F.klLnCtl.swLock = 1 → (t.link k).slips.getD i 0 = ((s.link k).slips.getD i 0 + 1) % 66))) ∧
  (∀ (s : State) (k : Link) (i : KLane) (w : Word), HostOpen s (A.klLnCtl k i) → s.klState k ≠ 7 →
    Completes (.bitSlip k i w) s fun t => Refused 0 0 (A.klLnCtl k i) s t)

/-- Routes, pairs and coordination (R273, R282–R290). A route or forwarding entry is enabled only where it passes its check,
and not written while a plot that uses it runs. A STANDBY pair takes its activity from the strap's role: B from
B_START_ACTIVE, A from the PAIR_ACT net. A missing heartbeat sets HB_LOST, and a synchronised standby asks to take over; the
change takes effect when no shot runs, or after 1 ms with TAINT, and never once a shutdown or a trip has released the PAIR_ACT ball.
A pause that a partner asks for is kept for the gap it names,
or sets LATE where that gap has passed. -/
def Obligations.RoutesAndPairs : Prop :=
  (∀ (s : State) (w : Word), s.isSealed = false →
    (∀ (i : Fin 16), HostOpen s (A.klRouteA i) →
      ((∃ p, p < 8 ∧ s.routeUsed i p = true ∧ s.stopped p = false) →
        Completes (.routeWrite i w) s fun t => Refused 2 0 (A.klRouteA i) s t) ∧
      ((∀ p, p < 8 → s.routeUsed i p = true → s.stopped p = true) →
        Completes (.routeWrite i w) s fun t =>
          t.on (A.klRouteA i) F.klRouteA.en = (getF w F.klRouteA.en == 1 && t.routeCause i == 0) ∧
          t.fld (A.klRouteA i) F.klRouteA.destMask = getF w F.klRouteA.destMask ∧
          (getF w F.klRouteA.en = 1 → t.routeCause i ≠ 0 → s.on A.klChk F.klChk.valid = false →
            t.fld A.klChk F.klChk.cause = (if s.standbyPair = true then 4 else t.routeCause i) ∧
            t.fld A.klChk F.klChk.index = i) ∧ OnlyRegs [A.klRouteA i, A.klChk] s t)) ∧
    (∀ (d : Fin 16), HostOpen s (A.klFwd d) → (∀ p, p < 8 → s.fwdUsed d p = true → s.stopped p = true) →
      Completes (.fwdWrite d w) s fun t =>
        t.on (A.klFwd d) F.klFwd.en = (getF w F.klFwd.en == 1 && !s.standbyPair) ∧
        t.fld (A.klFwd d) F.klFwd.link = getF w F.klFwd.link ∧ OnlyRegs [A.klFwd d, A.klChk] s t)) ∧
  (∀ (s : State) (w : Word), s.isSealed = false → HostOpen s A.klPairCtl →
    (getF w F.klPairCtl.en = 1 → s.pairRole = 0 ∨ (getF w F.klPairCtl.mode = 1 ∧ s.anyRoute = true) →
      Completes (.pairEnable w) s fun t => Refused 0 0 A.klPairCtl s t) ∧
    (getF w F.klPairCtl.en = 1 → getF w F.klPairCtl.mode = 1 → s.anyRoute = false → s.on A.klPairCtl F.klPairCtl.en = false →
      getF w F.klPairCtl.takeOver = 0 → getF w F.klPairCtl.standDown = 0 →
      (s.pairRole = 1 → Completes (.pairEnable w) s fun t => t.pairActive = !s.on A.klPairSts F.klPairSts.actNet ∧
        t.pair2.hbAt = s.tm.now ∧ SameRegs [A.klPairCtl, A.klPairSts] s t) ∧
      (s.pairRole = 2 → Completes (.pairEnable w) s fun t => t.pairActive = (getF w F.klPairCtl.bStartActive == 1) ∧
        t.pair2.drive = some (getF w F.klPairCtl.bStartActive == 1) ∧ SameRegs [A.klPairCtl, A.klPairSts] s t)) ∧
    (getF w F.klPairCtl.en = 1 → getF w F.klPairCtl.mode = 1 → s.anyRoute = false → s.standbyPair = true → s.pairRole = 2 →
      (s.pairReleased = true →
        Completes (.takeOver w) s (fun t => OnlyRegs [A.klPairCtl] s t) ∧ Completes (.standDown w) s (fun t => OnlyRegs [A.klPairCtl] s t)) ∧
      (s.pairReleased = false → s.pairActive = false → s.on A.klPairSts F.klPairSts.synced = true →
        Completes (.takeOver w) s fun t => t.pair2 = { s.pair2 with change := some (true, s.tm.now) } ∧ SameRegs [A.klPairCtl] s t) ∧
      (s.pairActive = false → s.on A.klPairSts F.klPairSts.synced = false →
        Completes (.takeOver w) s fun t => OnlyRegs [A.klPairCtl] s t) ∧
      (s.pairReleased = false → s.pairActive = true →
        Completes (.standDown w) s fun t => t.pair2 = { s.pair2 with change := some (false, s.tm.now) } ∧
          SameRegs [A.klPairCtl] s t))) ∧
  (∀ s : State, s.on A.klPairCtl F.klPairCtl.en = true → s.pair2.hbGone = false → s.pair2.hbAt + 25000 ≤ s.tm.now →
    Completes .hbLost s fun t => t.fld A.klPairSts F.klPairSts.hbLost = 1 ∧ t.fld A.klPairSts F.klPairSts.hbOk = 0 ∧
      t.pair2.hbGone = true ∧
      (s.isStandby = false ∨ s.pairRole ≠ 2 ∨ s.pairReleased = true → t.pair2.change = s.pair2.change ∧ Fires 1360 s t) ∧
      (s.isStandby = true → s.pairRole = 2 → s.pairReleased = false → s.on A.klPairSts F.klPairSts.synced = true →
        t.pair2.change = some (true, s.tm.now) ∧ Fires 1360 s t) ∧
      (s.isStandby = true → s.pairRole = 2 → s.pairReleased = false → s.on A.klPairSts F.klPairSts.synced = false →
        t.pair2.change = s.pair2.change ∧ t.evq = s.evq ++ [(1360, 0), (1363, 0)])) ∧
  (∀ s : State, s.on A.klPairCtl F.klPairCtl.en = true → s.pair2.hbSent + 2500 ≤ s.tm.now →
    Completes .heartbeatSend s fun t => t.pair2 = { s.pair2 with hbSent := s.tm.now } ∧
      (∀ k : Link, s.isPairLink k = false ∨ s.klUp k = false → t.link k = s.link k) ∧
      ∀ k : Link, s.isPairLink k = true → s.klUp k = true → (s.link k).wait = [] → (s.link k).replay = [] → ∃ (m : KMsg) (pl : List Block),
        m = .bulk 3 s.devNum (s.fld (A.klSts k) F.klSts.partnerDev) 1 pl ∧
        ((t.link k).wait = [m] ∨ ∃ alive, (t.link k).replay = [((s.link k).txSeq, m.encode (s.link k).txSeq alive)])) ∧
  (∀ (s : State) (k : Link) (h tr : Block) (payload : List Block) (active synced : Bool) (dt : BitVec 48),
    BulkFor k 3 h payload tr s → s.isPairLink k = true →
    Completes (.heartbeatMsg k h payload tr active synced dt) s fun t => t.fld A.klPairSts F.klPairSts.hbOk = 1 ∧
      t.pair2 = { s.pair2 with hbAt := s.tm.now, hbGone := false } ∧
      t.fld A.klPairSts F.klPairSts.synced =
        (if s.pairActive = true ∧ active = false then b2n synced else s.fld A.klPairSts F.klPairSts.synced)) ∧
  (∀ (s : State) (b : Bool) (since : Nat), s.pair2.change = some (b, since) →
    let changed := fun t : State => t.pairActive = b ∧ t.pair A.klTakeoverLo A.klTakeoverHi = s.DT ∧
      t.pair2 = { s.pair2 with change := none, drive := some b } ∧ Fires (if b then 1361 else 1362) s t
    (s.pairReleased = true → Completes .pairChangeEffect s (· = s) ∧ Completes .pairChangeTimeout s (· = s)) ∧
    (s.pairReleased = false → s.noShot = true → Completes .pairChangeEffect s changed) ∧
    (s.pairReleased = false → since + 2500000 ≤ s.tm.now →
      Completes .pairChangeTimeout s fun t => changed t ∧
        ∀ (p : Plot), ∀ h ∈ (t.sched p).shots, h.stop = none → h.flags &&& Flag.taint = Flag.taint)) ∧
  (∀ (s : State) (boundary : Bool),
    (s.standbyPair = true → s.pairRole = 1 → s.pairActive = false → s.on A.klPairSts F.klPairSts.synced = true →
      Completes (.pairActSense false boundary) s fun t => t.pairActive = true ∧ t.on A.klPairSts F.klPairSts.actNet = false ∧
        Fires 1361 s t ∧ (boundary = false → ∀ (p : Plot), ∀ h ∈ (t.sched p).shots, h.stop = none →
          h.flags &&& Flag.taint = Flag.taint)) ∧
    (s.standbyPair = true → s.pairRole = 1 → s.pairActive = true →
      Completes (.pairActSense true boundary) s fun t => t.pairActive = false ∧ t.on A.klPairSts F.klPairSts.actNet = true ∧
        Fires 1362 s t) ∧
    (s.standbyPair = false → ∀ level, Completes (.pairActSense level boundary) s fun t =>
      t.on A.klPairSts F.klPairSts.actNet = level ∧ OnlyRegs [A.klPairSts] s t)) ∧
  (∀ (s : State) (k : Link) (h tr : Block) (payload : List Block) (p : Plot) (gap : Word) (ticks : Nat) (cal thr : Bool)
    (next : BitVec 64), BulkFor k 2 h payload tr s → s.on (A.klCoord p) F.klCoord.en = true →
    let c := s.sched p
    (s.gapPast p gap = false →
      Completes (.coordMsg k h payload tr p false gap ticks cal thr next) s fun t => t.sched p = { c with
        coord := c.coord ++ [(gap, ⟨ticks, (if cal then Flag.calInserted else 0) ||| (if thr then Flag.throttled else 0)⟩)] } ∧
        t.evq = s.evq) ∧
    (s.gapPast p gap = true →
      Completes (.coordMsg k h payload tr p false gap ticks cal thr next) s fun t =>
        t.fld (A.klCoordSts p) F.klCoordSts.late = 1 ∧ Fires 1365 s t ∧ t.sched p = c) ∧
    (s.announcedAfter p gap = true → s.pair (A.nextStartLo p) (A.nextStartHi p) ≠ next.toNat →
      Completes (.coordMsg k h payload tr p true gap ticks cal thr next) s fun t =>
        t.fld (A.klCoordSts p) F.klCoordSts.mismatch = 1 ∧ Fires 1365 s t))

/-! ## Configuration (R293–R323) -/

/-- The commands to the loader (R302, R303, R306, R307, R325). LOAD stages a FULL image while the primer image is in force,
APPLY a partial one; both are refused while the loader is busy (7), with nothing staged (3) or in RETIRED (2), with
CFG_REFUSED. CANCEL refuses the partial image under way (8). SEAL seals the configuration. Henone and the flash (R321–R323).
The confirmation of a trial boot ends its 30 s. A restart of the management cores is recorded and ends. A flash write is
ignored while one is under way, refused for the slot that runs (9), with nothing staged (3) and where the bundle cannot be read (1); it
ends IDLE with DONE, the slot's bytes written, images first and directory last, or in ERROR with the reason that the checks of its
directory and its two images give (R298, R322), or that of the flash itself (assumption log, entry 224). -/
def Obligations.LoaderAndManagementCommands : Prop :=
  (∀ (s : State) (w : Word), HostOpen s A.cfgCtl →
    let bit := fun (f : Fld) => getF w f
    let refused := fun (r : Nat) (t : State) => t.fld A.cfgSts F.cfgSts.refused = 1 ∧ t.fld A.cfgSts F.cfgSts.err = r ∧
      Fires 1369 s t ∧ t.cfg = s.cfg ∧ t.ldState = s.ldState ∧ t.out = s.out
    let fetches := fun (src : ImgSrc) (t : State) => t.ldState = 1 ∧ t.cfg = { s.cfg with img := some { src := src } } ∧
      t.out = s.out ++ (s.readParts (64 * s.fld A.cfgStageLo F.cfgStageLo.addr + 2 ^ 32 * (s.reg A.cfgStageHi).toNat)
        (s.fld A.cfgStageLen F.cfgStageLen.len)).map (fun r => .hostRead r.1 r.2) ∧
      SameRegs [A.cfgCtl, A.cfgSts] s t ∧ t = { s with regs := t.regs, tie := t.tie, cfg := t.cfg, out := t.out }
    (bit F.cfgCtl.cancel = 0 → bit F.cfgCtl.apply = 0 → bit F.cfgCtl.load = 0 →
      Completes (.cfgSeal w) s fun t => t.isSealed = true ∧ OnlyRegs [A.cfgCtl, A.glbSts] s t) ∧
    (bit F.cfgCtl.seal = 0 → bit F.cfgCtl.cancel = 0 → bit F.cfgCtl.load = 0 →
      (s.isRetired = false → s.ldFree = true → s.fld A.cfgStageLen F.cfgStageLen.len ≠ 0 →
        (s.dmaOk = true → Completes (.imageApply w) s (fetches .apply)) ∧
        (s.dmaOk = false → Completes (.imageApply w) s (refused 1))) ∧
      (s.isRetired = true → Completes (.imageApply w) s (refused 2)) ∧
      (s.isRetired = false → s.ldFree = false → Completes (.imageApply w) s (refused 7)) ∧
      (s.isRetired = false → s.ldFree = true → s.fld A.cfgStageLen F.cfgStageLen.len = 0 →
        Completes (.imageApply w) s (refused 3))) ∧
    (bit F.cfgCtl.seal = 0 → bit F.cfgCtl.cancel = 0 → bit F.cfgCtl.apply = 0 →
      (s.fld A.glbSts F.glbSts.imgSrc ≠ 2 → Completes (.imageLoad w) s fun t => OnlyRegs [A.cfgCtl] s t) ∧
      (s.fld A.glbSts F.glbSts.imgSrc = 2 → s.cfg.booting = false → s.isRetired = false → s.ldFree = true →
        (s.fld A.cfgStageLen F.cfgStageLen.len ≠ 0 → s.dmaOk = true → Completes (.imageLoad w) s (fetches .load)) ∧
        (s.fld A.cfgStageLen F.cfgStageLen.len ≠ 0 → s.dmaOk = false →
          Completes (.imageLoad w) s fun t => refused 1 t ∧ t.fld A.imgFallback F.imgFallback.hostReason = 1) ∧
        (s.fld A.cfgStageLen F.cfgStageLen.len = 0 →
          Completes (.imageLoad w) s fun t => refused 3 t ∧ t.fld A.imgFallback F.imgFallback.hostReason = 3)) ∧
      (s.fld A.glbSts F.glbSts.imgSrc = 2 → s.cfg.booting = false → s.isRetired = true →
        Completes (.imageLoad w) s fun t => refused 2 t ∧ t.fld A.imgFallback F.imgFallback.hostReason = 2) ∧
      (s.fld A.glbSts F.glbSts.imgSrc = 2 → s.cfg.booting = false → s.isRetired = false → s.ldFree = false →
        Completes (.imageLoad w) s fun t => refused 7 t ∧ t.fld A.imgFallback F.imgFallback.hostReason = 7)) ∧
    (bit F.cfgCtl.seal = 0 → bit F.cfgCtl.apply = 0 → bit F.cfgCtl.load = 0 →
      (∀ g, s.cfg.img = some g → g.src = .apply → 1 ≤ s.ldState → s.ldState ≤ 4 →
        Completes (.imageCancel w) s fun t => t.cfg.img = none ∧ t.ldState = 0 ∧ t.fld A.cfgSts F.cfgSts.refused = 1 ∧
          t.fld A.cfgSts F.cfgSts.err = 8 ∧ Fires 1369 s t) ∧
      (s.cfg.img = none ∨ (∃ g, s.cfg.img = some g ∧ g.src.full = true) → Completes (.imageCancel w) s fun t => OnlyRegs [A.cfgCtl] s t))) ∧
  ((∀ s : State, s.live = true →
    (Completes .henConfirm s fun t => t.fld A.henSts F.henSts.confirmed = 1 ∧ t.cfg = { s.cfg with trialAt := none } ∧
      SameRegs [A.henCtl, A.henSts] s t ∧ t = { s with regs := t.regs, tie := t.tie, cfg := t.cfg }) ∧
    (Completes .henRestart s fun t => t.henRestart = some s.tm.now ∧ SameRegs [A.henCtl] s t ∧
      t = { s with regs := t.regs, tie := t.tie, henRestart := t.henRestart }) ∧
    (s.henRestart.isSome = true →
      Completes .henoneRestartDone s fun t => t.henRestart = none ∧ (s.book.want = false → t.book = s.book) ∧
        (s.book.want = true → s.aon.tripped = false → t.book.savedAt = s.tm.now ∧ t.book.want = false))) ∧
  (∀ (s : State) (slot : Bool), s.live = true →
    (s.cfg.flash.isSome = true → Completes (.flashWrite slot) s fun t => OnlyRegs [A.cfgFlashCtl] s t) ∧
    (s.cfg.flash = none →
      (s.fld A.henSts F.henSts.slot = b2n slot →
        Completes (.flashWrite slot) s fun t => t.fld A.cfgFlashSts F.cfgFlashSts.state = 4 ∧
          t.fld A.cfgFlashSts F.cfgFlashSts.err = 9 ∧ OnlyRegs [A.cfgFlashCtl, A.cfgFlashSts] s t) ∧
      (s.fld A.henSts F.henSts.slot ≠ b2n slot → s.fld A.cfgStageLen F.cfgStageLen.len = 0 →
        Completes (.flashWrite slot) s fun t => t.fld A.cfgFlashSts F.cfgFlashSts.state = 4 ∧
          t.fld A.cfgFlashSts F.cfgFlashSts.err = 3 ∧ OnlyRegs [A.cfgFlashCtl, A.cfgFlashSts] s t) ∧
      (s.fld A.henSts F.henSts.slot ≠ b2n slot → s.fld A.cfgStageLen F.cfgStageLen.len ≠ 0 → s.dmaOk = false →
        Completes (.flashWrite slot) s fun t => t.fld A.cfgFlashSts F.cfgFlashSts.state = 4 ∧
          t.fld A.cfgFlashSts F.cfgFlashSts.err = 1 ∧ OnlyRegs [A.cfgFlashCtl, A.cfgFlashSts] s t) ∧
      (s.fld A.henSts F.henSts.slot ≠ b2n slot → s.fld A.cfgStageLen F.cfgStageLen.len ≠ 0 → s.dmaOk = true →
        Completes (.flashWrite slot) s fun t => t.fld A.cfgFlashSts F.cfgFlashSts.state = 1 ∧
          t.cfg = { s.cfg with flash := some (b2n slot, s.tm.now) } ∧ SameRegs [A.cfgFlashCtl, A.cfgFlashSts] s t ∧
          t.out = s.out ++ (s.readParts (64 * s.fld A.cfgStageLo F.cfgStageLo.addr + 2 ^ 32 * (s.reg A.cfgStageHi).toNat)
            (s.fld A.cfgStageLen F.cfgStageLen.len)).map fun r => .hostRead r.1 r.2))) ∧
  (∀ (s : State) (reason : BitVec 4) (bytes : List Byte) (slot since : Nat), s.ldUp = true → s.henUp = true →
    s.cfg.flash = some (slot, since) →
    let keeps := fun t : State => SameRegs [A.cfgFlashSts] s t ∧ t = { s with regs := t.regs, tie := t.tie, cfg := t.cfg, out := t.out }
    let fails := fun (n : Nat) (t : State) => keeps t ∧ t.fld A.cfgFlashSts F.cfgFlashSts.state = 4 ∧
      t.fld A.cfgFlashSts F.cfgFlashSts.err = n ∧ t.cfg = { s.cfg with flash := none } ∧ t.out = s.out
    let cfg := slotImage bytes
    (dirOk bytes = false → Completes (.flashWriteDone reason bytes) s (fails 11)) ∧
    (dirOk bytes = true → checkWordOk cfg = false → Completes (.flashWriteDone reason bytes) s (fails 1)) ∧
    (dirOk bytes = true → checkWordOk cfg = true → headerOk true cfg = true → s.authImage cfg = none →
      Completes (.flashWriteDone reason bytes) s (fails 2)) ∧
    (s.flashReason bytes = 0 →
      (reason = 15 → Completes (.flashWriteDone reason bytes) s fun t => keeps t ∧
        t.fld A.cfgFlashSts F.cfgFlashSts.state = 0 ∧ t.fld A.cfgFlashSts F.cfgFlashSts.done = 1 ∧
        t.cfg = { s.cfg with flash := none, slots := KMap.set none s.cfg.slots slot (some bytes) } ∧
        t.out = s.out ++ [.flashWrite slot 64 (bytes.drop 64), .flashWrite slot 0 (bytes.take 64)]) ∧
      (reason = 6 ∨ reason = 10 → Completes (.flashWriteDone reason bytes) s (fails reason.toNat)))))

/-- The way of an image through the loader (R293–R308, R334–R337, R449, R471). A slot is read with the command that its SFDP gives,
directory first; without a usable SFDP it is refused with 10, without a directory with 11, and the boot goes on to the next slot. The
image's bytes are kept; the checks come in the order of R294 — the check word, header and layout, Welolyan's authentication, the
sections' CRCs, their types, the scope, the structure — and the first that fails refuses the image with its reason; a FULL image that
passes waits for the calibration, a partial one for its gap or for its plots to stop. At the end of a boot the FULL image is in force:
its tiles alone are enabled, its build and rollback numbers are recorded, and BOOT_STAGE is 011b; without an image the primer image is. -/
def Obligations.ImagesPassTheLoader : Prop :=
  (∀ (s : State) (g : ImgX) (bytes : List Byte) (sfdp : Option (Byte × Byte)), s.cfg.img = some g → s.ldUp = true → s.ldState = 1 →
    (g.src.slot = none → ¬(g.src = .apply ∧ s.enforce = true ∧ (imgKind bytes = 3 ∨ imgKind bytes = 5)) →
      Completes (.imageFetchDone bytes sfdp) s fun t => t.ldState = 2 ∧
        t.cfg = { s.cfg with img := some { g with bytes := bytes, header := imgFront bytes } } ∧
        t.fld A.cfgSts F.cfgSts.kind = imgKind bytes % 16 ∧ OnlyRegs [A.cfgSts] { s with cfg := t.cfg } t) ∧
    (g.src = .apply → s.enforce = true → imgKind bytes = 3 ∨ imgKind bytes = 5 →
      Completes (.imageFetchDone bytes sfdp) s fun t => t.ldState = 0 ∧ t.cfg.img = none ∧
        t.fld A.cfgSts F.cfgSts.err = 9 ∧ Fires 1369 s t) ∧
    (∀ n, g.src.slot = some n →
      let b := (KMap.get none s.cfg.slots n).getD bytes
      let next := fun (reason : Nat) (out : List Out) (t : State) =>
        (n = 0 → t.fld A.imgFallback F.imgFallback.aReason = reason) ∧ (n = 1 → t.fld A.imgFallback F.imgFallback.bReason = reason) ∧
        (∀ x xs, s.cfg.order = x :: xs → t.ldState = 1 ∧ t.cfg.img = some { src := x } ∧ t.cfg.order = xs ∧
          t.out = s.out ++ out ++ [.sfdpRead (b2n (x == ImgSrc.slotB))]) ∧
        (s.cfg.order = [] → t.ldState = 0 ∧ t.cfg.img = none ∧ t.fld A.glbSts F.glbSts.bootStage = 2 ∧ t.out = s.out ++ out)
      Completes (.imageFetchDone bytes none) s (next 10 []) ∧
      ∀ cmd dummy,
        (dirOk b = false → Completes (.imageFetchDone bytes (some (cmd, dummy))) s (next 11 [.flashRead n cmd dummy 0 64])) ∧
        (dirOk b = true → Completes (.imageFetchDone bytes (some (cmd, dummy))) s fun t => t.ldState = 2 ∧
          t.cfg.img = some { g with bytes := slotImage b, header := imgFront (slotImage b) } ∧
          t.out = s.out ++ [.flashRead n cmd dummy 0 64, .flashRead n cmd dummy (leAt b 4 4) (leAt b 8 4)]))) ∧
  (∀ (s : State) (g : ImgX) (us : List (List UnitWrite)), s.cfg.img = some g → s.ldUp = true → s.ldState = 2 →
    g.src = .apply ∨ g.src = .load →
    let full := g.src.full
    let refused := fun (r : Nat) => Completes (.imageVerifyDone us) s fun t => t.ldState = 0 ∧ t.cfg.img = none ∧
      t.fld A.cfgSts F.cfgSts.refused = 1 ∧ t.fld A.cfgSts F.cfgSts.err = r ∧ Fires 1369 s t ∧ SameBytes s t ∧
      (g.src = .load → t.fld A.imgFallback F.imgFallback.hostReason = r)
    let ss := fitUnits g.bytes us
    (checkWordOk g.bytes = false → refused 1) ∧
    (checkWordOk g.bytes = true → headerOk full g.bytes = false → refused 3) ∧
    (checkWordOk g.bytes = true → headerOk full g.bytes = true → s.authImage g.bytes = none → refused 2) ∧
    (checkWordOk g.bytes = true → headerOk full g.bytes = true → ∀ plain keys, s.authImage g.bytes = some (plain, keys) →
      (sectCrcOk g.bytes plain = false → refused 1) ∧
      (sectCrcOk g.bytes plain = true →
        ((∃ x ∈ sectsOf g.bytes, sectAllowed (imgKind g.bytes) x.type = false) → refused 4) ∧
        ((∀ x ∈ sectsOf g.bytes, sectAllowed (imgKind g.bytes) x.type = true) →
          (s.scopeOk g.bytes ss = false → refused 5) ∧
          (s.scopeOk g.bytes ss = true →
            (s.keyRepeats keys = true ∨ s.structure g.bytes ss ≠ none → refused 6) ∧
            (s.keyRepeats keys = false → s.structure g.bytes ss = none →
              (g.src = .apply → Completes (.imageVerifyDone us) s fun t => ∃ g' : ImgX, t.cfg.img = some g' ∧ g'.units = ss ∧
                g'.header = g.header ∧ g'.bytes = g.bytes ∧ g'.tiles = imgTiles g.header ∧
                g'.keys = keys.filter (fun k => imgKind g.header == 0 || k.1 == imgPlot g.header) ∧
                g'.stopped = s.imgStopped (s.verified g ss) ∧ t.ldState = (if g'.stopped then 4 else 3) ∧
                t.reg A.cfgPartP = BitVec.ofNat 32 g'.pause) ∧
              (g.src = .load → Completes (.imageVerifyDone us) s fun t => t.ldState = 5 ∧ t.fld A.glbSts F.glbSts.bootStage = 2 ∧
                t.on A.calSts F.calSts.bootDone = false ∧ t.cfg.img = some (s.verified g ss) ∧
                t = { s with regs := t.regs, tie := t.tie, cfg := t.cfg }))))))) ∧
  (∀ s : State, s.ldUp = true → s.fld A.glbSts F.glbSts.bootStage = 2 → s.on A.calSts F.calSts.bootDone = true →
    (s.cfg.img = none → s.cfg.booting = true →
      Completes .bootImageApply s fun t => t.fld A.glbSts F.glbSts.bootStage = 3 ∧ t.fld A.glbSts F.glbSts.imgSrc = 2 ∧
        t.fld A.imgFallback F.imgFallback.loaded = 2 ∧ t.cfg.booting = false ∧ SameRegs [A.glbSts, A.imgFallback, A.cfgSts] s t ∧
        t = { s with regs := t.regs, tie := t.tie, cfg := t.cfg }) ∧
    (∀ g, s.cfg.img = some g → g.src = .slotA ∨ g.src = .slotB ∨ g.src = .load → s.ldState = 5 →
      Completes .bootImageApply s fun t => t.fld A.glbSts F.glbSts.bootStage = 3 ∧ t.ldState = 0 ∧ t.cfg.img = none ∧
        t.fld A.glbSts F.glbSts.imgSrc = (match g.src with | .slotA => 0 | .slotB => 1 | _ => 3) ∧
        t.pair A.imgBuildLo A.imgBuildHi = leAt g.header 24 8 ∧ t.fld A.wlArb F.wlArb.image = leAt g.header 20 4 % 256 ∧
        (∀ i, i < 32 → t.tileOn i = true → (leAt g.header 32 4).testBit i = true) ∧
        ((leAt g.header 7 1).testBit 0 = true → t.isSealed = true) ∧
        (g.enforce = true → s.fld A.glbSts F.glbSts.lifecycle = 2 → s.on A.wlSts F.wlSts.debug = false →
          t.enforce = true ∧ t.isSealed = true)))

/-- Partial images and placement (R308–R320, R288). A hold, of which a gap takes one (R318), takes the tiles' sequencers to IDLE, writes the image's units and
ends with DONE, the count and source 1,368; the sequencers preload and wait, but one that stays FAULTED (R115), and a PATCH image goes
on with its next tile, whose match registers it clears first (R123). A failed sequencer is recorded and its tile's
source 24 fires. Placement gives a spare the programs, the path and the role of the failed one; without a spare NO_SPARE and
DEGRADED set, with a bad word COPY_ERR. A mirrored update takes effect at the boundary that it names, in the stand-in of a failed
sequencer where its units name one, and a mirrored image counts and reports as the active device's does (assumption log, entry 221); one
that comes too late sets MIRROR_LATE. -/
def Obligations.PartialImagesAndPlacement : Prop :=
  (∀ (s : State) (g : ImgX), s.cfg.img = some g → s.ldUp = true → s.henServes = true → s.cfg.hold = none →
    let b := s.base g.header
    let us := b.movedUnits g.header g.nextUnits
    (∀ u ∈ us, ∃ a v, u = .mem a v ∧ a % 4 = 0) → (us.map fun u => match u with | .mem a _ => a | .reg a _ => a).Nodup →
    let applied := fun (p : Option Nat) (t : State) => t.ldState = 5 ∧
      (∃ h, t.cfg.hold = some h ∧ h.plot = p ∧ h.seqs = b.heldSeqs g ∧ h.pause = g.pause ∧ h.place = none) ∧
      (∀ (i : Tile) (q : Seq), sk i q ∈ b.heldSeqs g → b.seqState i q ≠ 7 → t.seqState i q = 0) ∧
      (imgKind g.header = 4 → ∀ i, g.tiles.head? = some i → ∀ m, m < 16 → t.reg (A.ucMatch i m) = 0) ∧
      (∀ a v, .mem a v ∈ us → t.word a = v)
    (∀ p, g.plots = [p] → s.ldState = 3 → s.atGap p = true → s.placeWaits p = false → s.gapFits p g.pause = true →
      Completes .partialHold s (applied (some p))) ∧
    (s.ldState = 3 ∨ s.ldState = 4 → (∀ p ∈ g.plots, s.stopped p = true ∧ s.placeWaits p = false) →
      Completes .partialStoppedApply s (applied none))) ∧
  (∀ (s : State) (h : HoldX), s.cfg.hold = some h → s.ldUp = true → (∀ k ∈ h.seqs, s.patched (k / 34) = false) →
    (h.place ≠ none → Completes .partialHoldEnd s fun t => t.cfg = { s.cfg with hold := none } ∧ t.ldState = s.ldState ∧
      t.fld A.cfgSts F.cfgSts.holdTile = 0xFF ∧ SameBytes s t) ∧
    (∀ (g : ImgX) (i j : Nat) (l : List Nat), h.place = none → s.cfg.img = some g → imgKind g.header = 4 → g.tiles = i :: j :: l →
      Completes .partialHoldEnd s fun t => t.cfg.hold = none ∧ t.ldState ∈ [3, 4] ∧ SameBytes s t ∧
        ∃ g', t.cfg.img = some g' ∧ g'.tiles = j :: l ∧ g'.units = g.units)) ∧
  (∀ (s : State) (h : HoldX) (g : ImgX), s.cfg.hold = some h → s.ldUp = true →
    (∀ k ∈ h.seqs, s.patched (k / 34) = false) → h.place = none → s.cfg.img = some g →
    g.src = .apply → imgKind g.header ≠ 4 ∨ g.tiles.length ≤ 1 →
    Completes .partialHoldEnd s fun t => t.cfg.hold = none ∧ t.cfg.img = none ∧ t.ldState = 0 ∧
      t.fld A.cfgSts F.cfgSts.done = 1 ∧ t.fld A.cfgSts F.cfgSts.holdTile = 0xFF ∧ CountsUp A.cfgPartCnt 1 s t ∧ Fires 1368 s t ∧
      SameBytes s t ∧
      ∀ (i : Tile) (q : Fin 32), h.seqs = [sk i q] → s.on (A.seqCtl i q) F.seqCtl.enable = true → s.failed i q = false →
        sk i q ∉ h.faulted →
        Preloaded i q s t ∧
        t.seqState i q = (if (match s.plotOf i with | some p => s.stopped p | none => true) then 0 else 1)) ∧
  (∀ (s : State) (i : Tile) (q : Seq), s.live = true → s.tileOn i = true → s.failed i q = false →
    Completes (.seqFailed i q true) s fun t => t.failed i q = true ∧ FiresAmong (tileSrc i 24) s t ∧
      (s.on (A.tilePlaceCtl i) F.tilePlaceCtl.en = false → t.seqState i q = s.seqState i q ∧ t.cfg = s.cfg)) ∧
  (∀ (s : State) (i : Tile) (q p : Nat), s.ldUp = true → s.henServes = true → s.cfg.hold = none →
    s.on (A.tilePlaceCtl i) F.tilePlaceCtl.freeze = false → q < 34 → (s.cfg.waiting.find? fun w => w.1 == i.val) = some (i.val, q) →
    s.plotOf i = some p → s.stopped p = true →
    (Completes (.placement i true) s fun t => t.on (A.tilePlaceSts i) F.tilePlaceSts.copyErr = true ∧
      t.cfg = { s.cfg with waiting := s.cfg.waiting.erase (i.val, q), lost := s.cfg.lost ++ [(i.val, q)] } ∧
      OnlyRegs [A.tilePlaceSts i] { s with cfg := t.cfg } t) ∧
    (s.freeSpares i = [] →
      Completes (.placement i false) s fun t => t.on (A.tilePlaceSts i) F.tilePlaceSts.noSpare = true ∧
        t.on (A.tileSts i) F.tileSts.degraded = true ∧ SameRegs [A.tilePlaceSts i, A.tileSts i] s t ∧ SameBytes s t) ∧
    (∀ x xs, s.freeSpares i = x :: xs → q ≠ x →
      Completes (.placement i false) s fun t =>
        (∀ n, n < 0x8000 → t.byte (progAt i x 0 + n) = s.byte (progAt i q 0 + n)) ∧
        (∀ n, n < 0x400 → t.byte (dataAt i x 0 + n) = s.byte (dataAt i q 0 + n)) ∧
        t.effIdx i x = s.effIdx i q % 64 ∧ CountsUp (A.tilePlaceCnt i) 1 s t ∧ FiresAmong (tileSrc i 25) s t ∧
        (∀ n, n < 32 → s.feeder i n = some q → t.feeder i n = some x) ∧
        (∃ h, t.cfg.hold = some h ∧ h.place = some (i.val, q, x) ∧ h.pause = 13060) ∧
        (t.sched p).heldGap = some (s.sched p).lastEnd)) ∧
  (∀ (s : State) (k : Link) (h tr : Block) (payload : List Block) (p : Plot) (shot : Word) (units : List UnitWrite),
    BulkFor k 1 h payload tr s → s.isStandby = true →
    (s.mirrorPast p shot = true ∨ (s.reg (A.shotNum p) = shot ∧ ∃ x, s.current p = some x ∧ x.started = false) →
      Completes (.mirrorMsg k h payload tr p shot units) s fun t => t.fld A.klPairSts F.klPairSts.mirrorLate = 1 ∧
        t.fld A.klPairSts F.klPairSts.synced = 0 ∧ Fires 1363 s t ∧ SameBytes s t) ∧
    (s.mirrorPast p shot = false → s.reg (A.shotNum p) ≠ shot ∨ (∃ x, s.current p = some x ∧ x.started = true) →
      Completes (.mirrorMsg k h payload tr p shot units) s fun t =>
        t.pair2 = { s.pair2 with mirrors := s.pair2.mirrors ++ [⟨p, shot, units, Config.mirrorImage payload⟩] } ∧ SameBytes s t) ∧
    (s.reg (A.shotNum p) = shot → s.current p = none → ∀ a b v, units = [.mem a v] → s.mirrorUnit (.mem a v) = .mem b v →
      b % 4 = 0 → Completes (.mirrorMsg k h payload tr p shot units) s fun t => t.word b = v ∧ SameBytesBut b 4 s t) ∧
    (s.reg (A.shotNum p) = shot → s.current p = none → units = [] → ∀ tile b, Config.mirrorImage payload = some (tile, b) → imgKind b ≠ 4 →
      Completes (.mirrorMsg k h payload tr p shot units) s fun t => CountsUp A.cfgPartCnt 1 s t ∧
        t.fld A.cfgSts F.cfgSts.done = 1 ∧ t.cfg.partials = s.cfg.partials ++ [b] ∧ FiresAmong 1368 s t))

/-! ## Rings and capsules (R346–R380) -/

/-- What a plot's result ring receives (R67, R69, R346–R349, R370–R372, R379, R361). The record of the oldest shot that has
ended joins the queue, and its flags accumulate; with 32 items waiting it is discarded and counted. RESULT_RING_WRITE puts the
first item on the ring, in the slots from RR_PROD on, and advances RR_PROD by them; without room BACKPRESS sets; the rings take turns, one
item at a time (R376). A signed trailer joins the queue with
its 96 bytes. The timer sends the vector's message, or sets its pending bit, behind the writeback that reports the same change where one
is due. WRITEBACK posts the indices, 64 bytes, and the messages that waited for it follow. -/
def Obligations.ResultsReachTheirRing : Prop :=
  (∀ (s : State) (p : Plot) (h : Shot) (hs : List Shot) (e : Nat), (s.sched p).shots = h :: hs → h.stop = some e → h.bias = 0 →
    e + 2 ≤ s.DT → s.recOwed p h.sid = false →
    (h.quiet = true → Completes (.shotRecordWrite p) s fun t => (t.ring p).queue = (s.ring p).queue ∧
      (t.sched p).shots = (s.sched p).shots.filter (fun x => x.sid != h.sid) ∧ SameBytes s t) ∧
    (h.quiet = false → (s.ring p).queue.length < 32 →
      Completes (.shotRecordWrite p) s fun t =>
        (∃ i : RingItem, (t.ring p).queue = (s.ring p).queue ++ [i] ∧ i.shot = true ∧ i.sid = h.sid ∧ i.bytes.length = 32 ∧
          leAt i.bytes 0 8 = h.start % 2 ^ 64 ∧ leAt i.bytes 8 4 = h.num.toNat ∧ leAt i.bytes 14 2 = 0xFFFF ∧
          leAt i.bytes 16 4 = (e - h.start) % 2 ^ 32 ∧ leAt i.bytes 26 2 = (h.flags &&& 0x1FFF).toNat) ∧
        (t.sched p).shots = (s.sched p).shots.filter (fun x => x.sid != h.sid) ∧
        t.reg (A.flagsAcc p) = s.reg (A.flagsAcc p) ||| BitVec.ofNat 32 (h.flags &&& 0xFFF).toNat ∧
        (h.flags &&& 0x7F ≠ 0 → CountsUp (A.flaggedShots p) 1 s t) ∧
        SameRegs [A.flagsAcc p, A.flaggedShots p] s t ∧ SameBytes s t) ∧
    (h.quiet = false → 32 ≤ (s.ring p).queue.length →
      Completes (.shotRecordWrite p) s fun t => (t.ring p).queue = (s.ring p).queue ∧
        (t.ring p).lost = (s.ring p).lost ++ [h.sid] ∧ CountsUp (A.rrShotDropCnt p) 1 s t ∧
        t.on (A.pgAlert p) F.pgAlert.shotDrop = true)) ∧
  (∀ (s : State) (p : Plot),
    (s.ringWants p = none → Completes (.resultRingWrite p) s fun t => t = s) ∧
    (∀ n, s.ringWants p = some n → s.rrRoom p < n →
      Completes (.resultRingWrite p) s fun t => t.on (A.pgAlert p) F.pgAlert.backpress = true ∧
        SameRegs [A.pgAlert p, A.msixPba 0, A.msixPba 1] s t ∧ t = { s with regs := t.regs, tie := t.tie, out := t.out }) ∧
    (∀ n, s.ringWants p = some n → n ≤ s.rrRoom p → s.rrTurn ≠ some p.val → Completes (.resultRingWrite p) s fun t => t = s) ∧
    (∀ i r, s.firstRec p 32 0 = some (i, r) → s.recReady p r = true → s.rrTurn = some p.val → r.bytes.length = 32 →
      (s.ring p).former = [] → Completes (.resultRingWrite p) s fun t => KMap.get [] t.recs i = (KMap.get [] s.recs i).erase r ∧
        t.reg (A.rrProd p) = s.reg (A.rrProd p) + 1 ∧
        RingWritten p r.bytes s t ∧ t.pcie = { s.pcie with turn := p } ∧
        SameRegs [A.rrProd p, A.msixPba 0, A.msixPba 1] s t ∧ (t.ring p).queue = (s.ring p).queue) ∧
    (∀ q qs, s.firstRec p 32 0 = none → (s.ring p).queue = q :: qs → s.rrTurn = some p.val → (s.ring p).former = [] →
      (q.shot = false ∨ (s.batching p = false ∧ (s.ring p).batch = none) →
        Completes (.resultRingWrite p) s fun t => (t.ring p).queue = qs ∧ (t.ring p).lastSid = q.sid ∧
          t.reg (A.rrProd p) = s.reg (A.rrProd p) + BitVec.ofNat 32 (q.bytes.length / 32) ∧
          RingWritten p q.bytes s t ∧ t.pcie = { s.pcie with turn := p } ∧
          SameRegs [A.rrProd p, A.msixPba 0, A.msixPba 1] s t) ∧
      (q.shot = true → s.batching p = true → (s.ring p).batch = none →
        s.fld (A.wlBatchCfg p) F.wlBatchCfg.batchSlots ≤ 1 → s.on (A.wlBatchCfg p) F.wlBatchCfg.sign = false →
        Completes (.resultRingWrite p) s fun t => t.reg (A.wlBatchNum p) = s.reg (A.wlBatchNum p) + 1 ∧ (t.ring p).batch = none ∧
          ∃ i : RingItem, (t.ring p).queue = i :: qs ∧ i.shot = false ∧ i.sid = q.sid ∧ leAt i.bytes 0 8 = s.DT ∧
            leAt i.bytes 8 4 = (s.reg (A.wlBatchNum p)).toNat ∧ leAt i.bytes 12 2 = 1 ∧ leAt i.bytes 14 2 = 0xFFFE ∧
            i.bytes.length = 96))) ∧
  (∀ (s : State) (p : Plot) (tr : List Byte) (ts : List (List Byte)), (s.ring p).signing = tr :: ts →
    Completes (.batchSignDone p) s fun t => (t.ring p).signing = ts ∧
      (∃ (i : RingItem) (sig : List Byte), (t.ring p).queue = (s.ring p).queue ++ [i] ∧ i.shot = false ∧ i.bytes = tr ++ sig ∧
        sig.length = 96) ∧
      t = { s with rings := t.rings }) ∧
  (∀ (s : State) (p : Plot) (since : Nat), (s.ring p).irqSince = some since → s.fld (A.rrIrq p) F.rrIrq.us ≠ 0 →
    since + s.fld (A.rrIrq p) F.rrIrq.us * 2500 ≤ s.tm.now → s.plotDefined p = true →
    let waits := s.on (A.wbLo p) F.wbLo.en = true ∧ (s.ring p).wbDirty = true
    Completes (.resultIrqTimer p) s fun t => (t.ring p).irqSlots = 0 ∧ (t.ring p).irqSince = none ∧
      (waits → p.val ∈ (t.ring p).irqWait ∧ t.out = s.out ∧ t.regs = s.regs) ∧
      (¬waits → s.msixMasked p = true ∨ s.dmaOk = false →
        t.out = s.out ∧ t.reg (A.msixPba 0) = s.reg (A.msixPba 0) ||| BitVec.ofNat 32 (2 ^ p.val)) ∧
      (¬waits → s.msixMasked p = false → s.dmaOk = true → SameRegs [] s t ∧ t.out = s.out ++
        [.msix p (s.pair (A.msixTable (4 * p)) (A.msixTable (4 * p + 1))) (s.reg (A.msixTable (4 * p + 2))).toNat])) ∧
  (∀ (s : State) (p : Plot), (s.ring p).wbDirty = true → s.on (A.wbLo p) F.wbLo.en = true → s.dmaOk = true →
    (∀ a, (s.ring p).wbAt = some a → a + 625 ≤ s.tm.now) →
    Completes (.writeback p) s fun t => (t.ring p).wbDirty = false ∧ (t.ring p).wbAt = some s.tm.now ∧ (t.ring p).irqWait = [] ∧
      SameRegs [A.msixPba 0, A.msixPba 1] s t ∧ t = { s with rings := t.rings, out := t.out, regs := t.regs } ∧
      ∃ bs l, t.out = s.out ++ .writeback p (64 * s.fld (A.wbLo p) F.wbLo.addr + 2 ^ 32 * (s.reg (A.wbHi p)).toNat) bs :: l ∧
        ((s.ring p).irqWait = [] → l = [] ∧ t.regs = s.regs) ∧ bs.length = 64 ∧ leAt bs 0 4 = (s.reg (A.cmdCons p)).toNat ∧ leAt bs 4 4 = (s.reg (A.rspProd p)).toNat ∧
        leAt bs 8 4 = (s.reg (A.rrProd p)).toNat ∧ leAt bs 16 8 = s.DT)

/-- The doorbell page (R40, R358–R360, R363). CMD_PROD, RSP_CONS and RR_CONS take an index that the ring can hold; another is
discarded with PROD_ERR; so is, as a refusal, any write of the page of an undefined plot. Enabling a ring sets its indices to
0 and, for the command ring, CMD_STS to RUN; a size out of range, or a second enable, is refused. A stopped command ring runs
again after a restart. A capsule from its fetch to its acceptance (R344, R363). A header whose CRC fails stops the ring with
status 1 and CMD_CONS stays; a header that fails a later check is skipped with that check's status; a good one is taken. An
authenticated capsule advances WL_CSEQ_IN and CMD_CONS and counts; one that fails under the plot's command key (R343) is refused with
status 8, and WL_CSEQ_IN stays; it waits while the management cores restart (R323), in a standby device (R288) and while Welolyan serves
another plot, whose turn is then the next one's (R369). The slots are read at their place in the ring (R358, R375). A fetch that Bus Master Enable forbids meets a
transfer error (R377). -/
def Obligations.DoorbellsRingsAndCapsuleFetch : Prop :=
  ((∀ (s : State) (p : Plot) (w : Word), s.live = true → s.plotDefined p = false →
    Completes (.commandDoorbell p w) s (fun t => Refused 0 2 (0xC + 0x2000 * p) s t) ∧
    Completes (.cmdRingRestart p) s (fun t => Refused 0 2 (0x18 + 0x2000 * p) s t)) ∧
  (∀ (s : State) (p : Plot) (w : Word), PageOpen s p → (s.ring p).rspWait = [] →
    let cmd := (w - s.reg (A.cmdCons p)).toNat
    let rsp := (s.reg (A.rspProd p) - w).toNat
    let rr := (s.reg (A.rrProd p) - w).toNat
    let bad := fun (t : State) => t.on (A.pgAlert p) F.pgAlert.prodErr = true ∧
      SameRegs [A.pgAlert p, A.msixPba 0, A.msixPba 1] s t ∧ t = { s with regs := t.regs, tie := t.tie, out := t.out }
    (cmd ≤ 2 ^ s.fld (A.cmdCfg p) F.cmdCfg.sizeLog2 →
      Completes (.commandDoorbell p w) s fun t => t.reg (A.cmdProd p) = w ∧ OnlyRegs [A.cmdProd p] s t) ∧
    (2 ^ s.fld (A.cmdCfg p) F.cmdCfg.sizeLog2 < cmd → Completes (.commandDoorbell p w) s bad) ∧
    (rsp ≤ 2 ^ s.fld (A.rspCfg p) F.rspCfg.sizeLog2 →
      Completes (.rspConsWrite p w) s fun t => t.reg (A.rspCons p) = w ∧ OnlyRegs [A.rspCons p] s t) ∧
    (2 ^ s.fld (A.rspCfg p) F.rspCfg.sizeLog2 < rsp → Completes (.rspConsWrite p w) s bad) ∧
    (rr ≤ 2 ^ s.fld (A.rrCfg p) F.rrCfg.sizeLog2 →
      Completes (.rrConsWrite p w) s fun t => t.reg (A.rrCons p) = w ∧ OnlyRegs [A.rrCons p] s t) ∧
    (2 ^ s.fld (A.rrCfg p) F.rrCfg.sizeLog2 < rr → Completes (.rrConsWrite p w) s bad)) ∧
  (∀ (s : State) (p : Plot) (ring : Fin 3) (w : Word), PageOpen s p →
    let cfg := if ring = 0 then A.cmdCfg p else if ring = 1 then A.rspCfg p else A.rrCfg p
    let least := if ring = 0 then 6 else if ring = 1 then 9 else 10
    let greatest := if ring = 2 then 20 else 16
    let n := getF w F.cmdCfg.sizeLog2
    (s.on cfg F.cmdCfg.en = false → getF w F.cmdCfg.en = 1 → least ≤ n → n ≤ greatest →
      Completes (.ringEnable p ring w) s fun t => t.on cfg F.cmdCfg.en = true ∧ t.fld cfg F.cmdCfg.sizeLog2 = n ∧
        (ring = 0 → t.reg (A.cmdProd p) = 0 ∧ t.reg (A.cmdCons p) = 0 ∧ t.fld (A.cmdSts p) F.cmdSts.state = 1 ∧
          OnlyRegs [cfg, A.cmdProd p, A.cmdCons p, A.cmdSts p] s t) ∧
        (ring = 1 → t.reg (A.rspProd p) = 0 ∧ t.reg (A.rspCons p) = 0 ∧ OnlyRegs [cfg, A.rspProd p, A.rspCons p] s t) ∧
        (ring = 2 → t.reg (A.rrProd p) = 0 ∧ t.reg (A.rrCons p) = 0 ∧ OnlyRegs [cfg, A.rrProd p, A.rrCons p] s t)) ∧
    (n < least ∨ greatest < n ∨ (s.on cfg F.cmdCfg.en = true ∧ getF w F.cmdCfg.en = 1) →
      Completes (.ringEnable p ring w) s fun t => Refused 0 2 (cfg - 0x10000000) s t)) ∧
  (∀ (s : State) (p : Plot), PageOpen s p →
    (s.fld (A.cmdSts p) F.cmdSts.state = 2 →
      Completes (.cmdRingRestart p) s fun t => t.fld (A.cmdSts p) F.cmdSts.state = 1 ∧
        OnlyRegs [A.cmdCtl p, A.cmdSts p] s t) ∧
    (s.fld (A.cmdSts p) F.cmdSts.state ≠ 2 → Completes (.cmdRingRestart p) s fun t => OnlyRegs [A.cmdCtl p] s t))) ∧
  ((∀ (s : State) (p : Plot) (h : List Byte), s.on (A.cmdCfg p) F.cmdCfg.en = true → s.fld (A.cmdSts p) F.cmdSts.state = 1 →
    (s.ring p).cap = none → s.reg (A.cmdProd p) ≠ s.reg (A.cmdCons p) → s.dmaOk = true → 258 ≤ s.rspRoom p →
    s.isStandby = false → s.henServes = true → h.length = 32 →
    (leAt h 28 4 ≠ (crc32c (h.take 28)).toNat →
      Completes (.capsuleFetch p h) s fun t => Nacks p 1 s t ∧ t.fld (A.cmdSts p) F.cmdSts.state = 2 ∧
        t.reg (A.cmdCons p) = s.reg (A.cmdCons p) ∧ ∃ l, t.out = s.out ++ slotReads s p 1 ++ l) ∧
    (leAt h 28 4 = (crc32c (h.take 28)).toNat →
      (s.headerStatus p h ≠ 0 →
        Completes (.capsuleFetch p h) s fun t => Nacks p (s.headerStatus p h) s t ∧
          t.fld (A.cmdSts p) F.cmdSts.state = 1 ∧ t.reg (A.cmdCons p) ≠ s.reg (A.cmdCons p) ∧ ∃ l, t.out = s.out ++ slotReads s p 1 ++ l) ∧
      (s.headerStatus p h = 0 →
        Completes (.capsuleFetch p h) s fun t =>
          (∃ c, (t.ring p).cap = some c ∧ c.cseq.toNat = leAt h 4 8 ∧ c.tag.toNat = leAt h 20 4 ∧ c.gen = leAt h 3 1 ∧
            c.slots = leAt h 0 2 ∧ c.head = h ∧ c.body = none) ∧ t.out = s.out ++ slotReads s p (leAt h 0 2) ∧
          (∀ q, s.wl.serving = some q → s.awaits q = true → t.wl = s.wl) ∧
          ((∀ q, s.awaits q = false) → t.wl = { s.wl with serving := some p.val }) ∧
          t = { s with rings := t.rings, out := t.out, wl := { s.wl with serving := t.wl.serving } }))) ∧
  (∀ (s : State) (p : Plot) (h : List Byte), s.on (A.cmdCfg p) F.cmdCfg.en = true → s.fld (A.cmdSts p) F.cmdSts.state = 1 →
    (s.ring p).cap = none → s.reg (A.cmdProd p) ≠ s.reg (A.cmdCons p) → s.pcie.busMaster = false → s.pcie.d3 = false →
    s.pcie.perst = false → 258 ≤ s.rspRoom p → s.isStandby = false → s.henServes = true → h.length = 32 →
    Completes (.capsuleFetch p h) s fun t => (t.ring p).cap = none ∧ t.fld (A.cmdSts p) F.cmdSts.state = 2 ∧
      t.fld (A.cmdSts p) F.cmdSts.nackLast = 1 ∧ t.on (A.pgAlert p) F.pgAlert.fetchErr = true ∧ t.cseqIn p = s.cseqIn p ∧
      t.reg (A.cmdCons p) = s.reg (A.cmdCons p)) ∧
  (∀ (s : State) (p : Plot) (c : CapX) (cipher tag : List Byte), (s.ring p).cap = some c → c.body = none →
    let serves := s.henServes = true ∧ s.isStandby = false ∧ s.wl.serving = some p.val
    let refused := fun (status : Nat) (t : State) => Nacks p status s t ∧ ServesNext p t ∧
      t.reg (A.cmdCons p) = s.reg (A.cmdCons p) + BitVec.ofNat 32 c.slots
    (¬serves → Completes (.capsuleAuthDone p cipher tag) s (· = s)) ∧
    (serves → s.keyed p = false → Completes (.capsuleAuthDone p cipher tag) s (refused 5)) ∧
    (serves → s.keyed p = true → c.gen ≠ s.keyGen p → Completes (.capsuleAuthDone p cipher tag) s (refused 6)) ∧
    (serves → s.keyed p = true → c.gen = s.keyGen p →
      (s.capBody p c cipher tag = none → Completes (.capsuleAuthDone p cipher tag) s (refused 8)) ∧
      (∀ b, s.capBody p c cipher tag = some b →
        Completes (.capsuleAuthDone p cipher tag) s fun t =>
          (b ≠ [] → (t.ring p).cap = some { c with body := some b }) ∧ (b = [] → (t.ring p).cap = none) ∧
          t.cseqIn p = (s.cseqIn p + 1) % 2 ^ 64 ∧ CountsUp (A.capOkCnt p) 1 s t ∧
          t.reg (A.cmdCons p) = s.reg (A.cmdCons p) + BitVec.ofNat 32 c.slots ∧ ServesNext p t ∧ SameBytes s t))))

/-- The operations of a capsule (R364–R366, R377). NOP, REG_WRITE, REG_READ, MEM_WRITE, MEM_READ, the image operations and
WAIT_STATE act on the registers and memory of the capsule's plot alone; a target of another plot, or a malformed operation,
ends the capsule with its status, and nothing is written. An image of the plot's own tiles goes to the loader, which is then in VERIFY,
a referenced one where its SHA-384 is the operand's digest; while the loader is busy (7), in RETIRED (2) and where plot enforcement
forbids its kind (9) the capsule fails. WAIT_STATE goes on in the state awaited or fails at its timeout. A transfer error ends what
was being fetched, and AER reports what befell the completion (R356; the places of its bits are the model's, log entry 230). -/
def Obligations.CapsuleOperations : Prop :=
  (∀ (s : State) (p : Plot) (c : CapX) (b : List Byte),
    (s.capRuns p = some (c, b) → (∀ o, c.next b = some o → o.ok c.data.length = false) →
      Completes (.capsuleNop p) s (OpFails p s)) ∧
    (∀ o, NextOp 0 p s c b o → Completes (.capsuleNop p) s fun t => GoesOn p c b 0 c.data t ∧ SameRegs (rspRegs p) s t ∧ SameBytes s t) ∧
    (∀ o, NextOp 1 p s c b o → o.count = 1 → leAt o.arg 0 4 = A.runShots p → s.stopped p = true → s.plotDefined p = true →
      Completes (.regWrite p) s fun t => t.reg (A.runShots p) = BitVec.ofNat 32 (leAt o.arg 4 4) ∧
        SameRegs (A.runShots p :: rspRegs p) s t ∧ SameBytes s t ∧ GoesOn p c b 8 c.data t) ∧
    (∀ o k, NextOp 1 p s c b o → k < o.count →
      s.capOwns p (leAt o.arg 0 4 + 4 * k) ((argWords o o.count)[k]?) = false → Completes (.regWrite p) s (OpFails p s)) ∧
    (∀ o, NextOp 2 p s c b o → o.count = 1 → leAt o.arg 0 4 = A.runShots p → s.plotDefined p = true →
      Completes (.regRead p) s fun t => GoesOn p c b 4 (c.data ++ wordBytes (s.reg (A.runShots p))) t ∧
        SameRegs (rspRegs p) s t ∧ SameBytes s t) ∧
    (∀ o, NextOp 3 p s c b o → (∀ x ∈ wordOffs (leAt o.arg 0 4) (o.len - 4), s.capOwnsMem p x = true) →
      s.memRefuse (.capsule p) (leAt o.arg 0 4) (o.len - 4) = none →
      (s.memBusy (leAt o.arg 0 4) (o.len - 4) = false →
        Completes (.memWrite p) s fun t => t.bytes (leAt o.arg 0 4) (o.len - 4) = o.arg.drop 4 ∧
          SameBytesBut (leAt o.arg 0 4) (o.len - 4) s t ∧ SameRegs (rspRegs p) s t ∧ GoesOn p c b o.len c.data t) ∧
      (s.memBusy (leAt o.arg 0 4) (o.len - 4) = true → Completes (.memWrite p) s (OpFails p s))) ∧
    (∀ o, NextOp 3 p s c b o → o.len = 4 →
      Completes (.memWrite p) s fun t => GoesOn p c b 4 c.data t ∧ SameRegs (rspRegs p) s t ∧ SameBytes s t) ∧
    (∀ o, NextOp 3 p s c b o → o.len ≠ 4 → (∃ x ∈ wordOffs (leAt o.arg 0 4) (o.len - 4), s.capOwnsMem p x = false) ∨
      s.memRefuse (.capsule p) (leAt o.arg 0 4) (o.len - 4) = some .accessErr → Completes (.memWrite p) s (OpFails p s)) ∧
    (∀ o, NextOp 4 p s c b o → (∀ x ∈ wordOffs (leAt o.arg 0 4) (leAt o.arg 4 4), s.capOwnsMem p x = true) →
      s.memRefuse (.capsule p) (leAt o.arg 0 4) (leAt o.arg 4 4) = none →
      Completes (.memRead p) s fun t => GoesOn p c b 8 (c.data ++ s.bytes (leAt o.arg 0 4) (leAt o.arg 4 4)) t ∧
        SameRegs (rspRegs p) s t ∧ SameBytes s t) ∧
    (∀ o, NextOp 4 p s c b o → (∀ x ∈ wordOffs (leAt o.arg 0 4) (leAt o.arg 4 4), s.capOwnsMem p x = true) →
      s.memRefuse (.capsule p) (leAt o.arg 0 4) (leAt o.arg 4 4) ≠ none →
      Completes (.memRead p) s fun t => GoesOn p c b 8 (c.data ++ List.replicate (leAt o.arg 4 4) 0xFF) t ∧
        SameRegs (rspRegs p) s t ∧ SameBytes s t) ∧
    (∀ o x, NextOp 4 p s c b o → x ∈ wordOffs (leAt o.arg 0 4) (leAt o.arg 4 4) → s.capOwnsMem p x = false →
      Completes (.memRead p) s (OpFails p s))) ∧
  (∀ (s : State) (p : Plot) (c : CapX) (b : List Byte) (o : CapOp) (bytes digest : List Byte),
    let row := fun (i : Instr) (g : List Byte) =>
      (s.ldFree = false →
        Completes i s fun t => (t.ring p).cap = none ∧ t.fld A.cfgSts F.cfgSts.err = 7 ∧ Fires 1369 s t ∧ t.cfg = s.cfg) ∧
      (s.ldFree = true → s.isRetired = true →
        Completes i s fun t => (t.ring p).cap = none ∧ t.fld A.cfgSts F.cfgSts.err = 2 ∧ Fires 1369 s t ∧ t.cfg = s.cfg) ∧
      (s.ldFree = true → s.isRetired = false →
        ((∃ k ∈ imgTiles g, s.plotOf k ≠ some p.val) ∨ (imgKind g = 2 ∧ imgPlot g ≠ p) → Completes i s (OpFails p s)) ∧
        ((∀ k ∈ imgTiles g, s.plotOf k = some p.val) → (imgKind g = 2 → imgPlot g = p) →
          (s.enforce = true → imgKind g = 1 ∨ imgKind g = 2 ∨ imgKind g = 4 →
            Completes i s fun t => (t.ring p).cap = none ∧ t.fld A.cfgSts F.cfgSts.err = 9 ∧ Fires 1369 s t ∧ t.cfg = s.cfg) ∧
          (s.enforce = false ∨ (imgKind g ≠ 1 ∧ imgKind g ≠ 2 ∧ imgKind g ≠ 4) →
            Completes i s fun t => t.ldState = 2 ∧ (∃ x, t.cfg.img = some x ∧ x.src = .capsule p ∧ x.cseq = c.cseq ∧
              x.tag = c.tag ∧ x.op = c.op ∧ x.bytes = g ∧ x.header = imgFront g) ∧ SameRegs [A.cfgSts] s t ∧ SameBytes s t)))
    (NextOp 5 p s c b o → row (.imageInline p) o.arg) ∧
    (NextOp 6 p s c b o → s.dmaOk = true →
      Completes (.imageRef p) s fun t => (t.ring p).cap = some { c with fetching := true } ∧
        t = { s with rings := t.rings, out := t.out } ∧
        t.out = s.out ++ (s.readParts (leAt o.arg 0 8) (leAt o.arg 8 4)).map fun r => .hostRead r.1 r.2) ∧
    (NextOp 6 p s c b o → s.dmaOk = false → Completes (.imageRef p) s (OpFails p s)) ∧
    (s.refFetch p = some (c, digest) → (∀ how, Completes (.dmaTransferError ⟨.imageRef p, how⟩) s (OpFails p s)) ∧
      (s.live = true → s.henServes = true →
        (sha384 bytes ≠ digest → Completes (.imageRefFetchDone p bytes) s (OpFails p s)) ∧
        (sha384 bytes = digest → row (.imageRefFetchDone p bytes) bytes)))) ∧
  (∀ (s : State) (p : Plot) (c : CapX) (b : List Byte) (o : CapOp) (st due : Nat),
    (NextOp 7 p s c b o →
      Completes (.waitState p) s fun t => (t.ring p).cap = some { c with
          wait := some (leAt o.arg 0 1, s.tm.now + leAt o.arg 4 4 * 2500) } ∧ t = { s with rings := t.rings }) ∧
    (s.capWaits p = some (c, b, st, due) →
      (s.runState p = st →
        Completes (.waitStateReached p) s fun t => GoesOn p c b 8 c.data t ∧ SameRegs (rspRegs p) s t) ∧
      (s.runState p ≠ st → Completes (.waitStateReached p) s fun t => t = s) ∧
      (s.runState p ≠ st → due ≤ s.tm.now → Completes (.waitStateTimeout p) s (OpFails p s)) ∧
      (s.runState p ≠ st → s.tm.now < due → Completes (.waitStateTimeout p) s fun t => t = s))) ∧
  (∀ (s : State) (f : DmaFail),
    (s.reading f.read = false → Completes (.dmaTransferError f) s fun t => t = s) ∧
    (s.reading f.read = true → Completes (.dmaTransferError f) s fun t => t.pcie = { s.pcie with aer :=
      match f.how with
      | .error => s.pcie.aer
      | .timeout => s.pcie.aer ||| 0x4000#32
      | .poisoned => s.pcie.aer ||| 0x1000#32
      | .ecrc => s.pcie.aer ||| 0x80000#32 })) ∧
  (∀ (s : State) (p : Plot) (how : CplFault), s.ringFetch p = true →
    Completes (.dmaTransferError ⟨.ring p, how⟩) s fun t => (t.ring p).cap = none ∧ t.fld (A.cmdSts p) F.cmdSts.state = 2 ∧
      t.fld (A.cmdSts p) F.cmdSts.nackLast = 1 ∧ t.on (A.pgAlert p) F.pgAlert.fetchErr = true ∧ t.cseqIn p = s.cseqIn p ∧
      t.reg (A.cmdCons p) = s.reg (A.cmdCons p)) ∧
  (∀ (s : State) (g : ImgX) (how : CplFault), s.cfg.img = some g → s.ldState = 1 → g.src = .apply →
    Completes (.dmaTransferError ⟨.stage, how⟩) s fun t => t.cfg.img = none ∧ t.ldState = 0 ∧ t.fld A.cfgSts F.cfgSts.err = 1 ∧
      Fires 1369 s t)

/-- Power states and resets of the host interface (R357, R377, R380, R466, R470). D3hot drains every plot; D0 and bus
mastering let pending messages and waiting responses go; without bus mastering none goes. A reset drains every plot, disables every ring and writeback, returns the MSI-X table to
its reset values, clears its pending bits and bus mastering; PE_PERST_n also holds the interface until its release, from which the negotiated maximum payload is known (R354). Resets and
start-up (R46, R324, R464, R466, R467, R300, R460, R321, R469, R470). POR_n low or a brown-out resets everything but the
always-on domain, the fuses and the MRAM; SYS_RST_n low also keeps the scratch register and the straps. A reset input acts once it has
been low for 100 ns; a shorter pulse is ignored. LC_NEXT comes into force. The release samples the straps; the loader boots once both
inputs are high. The loss of REF_IN aborts every run as by ABORT and takes every bias link down, its return, 10 ms after the loss at the
earliest, takes the trained bridges and links back; the loss of a lane reference takes its links down. -/
def Obligations.ResetsAndStartUp : Prop :=
  ((∀ s : State, (∀ p : Plot, ((s.sched p).fixed.isSome = true ∨ (s.current p).isSome = true) ∧ Settled p s) →
    Completes .d3hotEntry s fun t => t.pcie = { s.pcie with d3 := true } ∧ SameBytes s t ∧
      ∀ p : Plot, t.runState p = if s.runState p = 1 ∨ s.runState p = 2 then 3 else s.runState p) ∧
  (∀ s : State, Completes .d0Return s fun t => t.pcie = { s.pcie with d3 := false } ∧
    Resumes (s.pcie.busMaster && !s.pcie.perst) s t) ∧
  (∀ (s : State) (c : PciCtl), Completes (.busMasterEnableWrite c) s fun t =>
    t.pcie = { s.pcie with busMaster := c.busMaster, payload := 128 * 2 ^ c.mps.val, readReq := c.readReq, relaxed := c.relaxed,
                           msixEn := c.msixEn, msixMask := c.msixMask } ∧
    Resumes (c.busMaster && !s.pcie.d3 && !s.pcie.perst) s t) ∧
  (∀ (s : State) (c : Instr), c = .functionLevelReset ∨ c = .hotReset ∨ c = .pcieLinkDown ∨ c = .peRefclkLoss ∨ c = .pePerstAssert →
    Completes c s fun t => t.pcie = { perst := s.pcie.perst || decide (c = .pePerstAssert), turn := s.pcie.turn } ∧
      t.wl.serving = none ∧ SameBytes s t ∧
      (∀ n, n < 256 → t.reg (A.msixTable n) = regReset (A.msixTable n)) ∧ t.reg (A.msixPba 0) = 0 ∧ t.reg (A.msixPba 1) = 0 ∧
      ∀ p : Plot, t.on (A.cmdCfg p) F.cmdCfg.en = false ∧ t.on (A.rspCfg p) F.rspCfg.en = false ∧
        t.on (A.rrCfg p) F.rrCfg.en = false ∧ t.on (A.wbLo p) F.wbLo.en = false ∧ (t.ring p).rspWait = [] ∧
        (s.awaits p = true → (t.ring p).cap = none ∧ t.fld (A.cmdSts p) F.cmdSts.nackLast = 1 ∧
          t.on (A.pgAlert p) F.pgAlert.fetchErr = true) ∧ t.runState p ≠ 2) ∧
  (∀ (s : State) (mps : Fin 3), Completes (.pePerstRelease mps) s fun t =>
    t = { s with pcie := { s.pcie with perst := false, payload := 128 * 2 ^ mps.val } })) ∧
  (let held := fun (t : State) => t.live = false ∧ t.mem = [] ∧ t.isSealed = false ∧
      (∀ p : Plot, t.stopped p = true ∧ t.plotDefined p = false) ∧ ∀ i : Tile, t.tileOn i = false
  (∀ s : State,
    (s.aon.por = false → s.aon.porLow = none →
      Completes .porAssert s fun t => t = { s with aon := { s.aon with porLow := some s.tm.now } }) ∧
    (s.aon.por = true ∨ s.aon.porLow ≠ none → Completes .porAssert s fun t => t = s) ∧
    (s.aon.sys = false → s.aon.sysLow = none →
      Completes .sysRstAssert s fun t => t = { s with aon := { s.aon with sysLow := some s.tm.now } }) ∧
    (s.aon.sys = true ∨ s.aon.sysLow ≠ none → Completes .sysRstAssert s fun t => t = s)) ∧
  (∀ (s : State) (a : Nat), s.pending = [] → a + 250 ≤ s.tm.now + 1 →
    (s.aon.porLow = some a → ∃ t, step s = .next t ∧ held t ∧ t.aon.por = true ∧ t.tm = { now := s.tm.now + 1 } ∧
      t.reg A.glbScratch = 0) ∧
    (s.aon.sysLow = some a → s.aon.sys = false → s.aon.por = false → s.aon.porLow = none →
      ∃ t, step s = .next t ∧ held t ∧ t.aon.por = false ∧ t.aon.sys = true ∧ t.aon.sysAt = a ∧ t.tm = { now := s.tm.now + 1 } ∧
        t.reg A.glbScratch = s.reg A.glbScratch ∧ t.fld A.glbSts F.glbSts.bootSel = s.fld A.glbSts F.glbSts.bootSel)) ∧
  (∀ s : State,
    (s.aon.por = true → Completes .brownOut s fun t => t = s) ∧
    (s.aon.por = false →
      Completes .brownOut s fun t => held t ∧ t.aon.por = true ∧ t.aon.open_ = !s.aon.shut ∧ t.tm = { now := s.tm.now } ∧
        t.pending = s.pending ∧ t.fld A.glbSts F.glbSts.lifecycle = s.lcNext ∧ t.lcNext = s.lcNext ∧
        t.pair A.rtcSecLo A.rtcSecHi = s.pair A.rtcSecLo A.rtcSecHi ∧ t.reg A.cbLogHead = s.reg A.cbLogHead ∧
        (∀ i, i < 0x20000 → t.reg (A.cbLog i) = s.reg (A.cbLog i)) ∧ t.reg A.glbScratch = 0)) ∧
  (∀ (s : State) (bootSel pairRole : BitVec 2) (sysHigh : Bool),
    (s.aon.por = false → Completes (.porRelease bootSel pairRole sysHigh) s fun t =>
      t = { s with aon := { s.aon with porLow := none } }) ∧
    (s.aon.por = true → Completes (.porRelease bootSel pairRole sysHigh) s fun t => t.aon.por = false ∧ t.aon.sys = !sysHigh ∧
      t.fld A.glbSts F.glbSts.bootSel = bootSel.toNat ∧ t.fld A.glbSts F.glbSts.pairRole = pairRole.toNat ∧ SameBytes s t ∧
      (sysHigh = false → OnlyRegs [A.glbSts, A.klPairSts, A.klId] { s with aon := t.aon } t) ∧
      (sysHigh = true → t.cfg.booting = true ∧
        t.cfg.order = (if bootSel = 0 then slotOrder (s.on A.cfgCtl F.cfgCtl.tryB) else [])))) ∧
  (∀ s : State, s.aon.por = false →
    (s.aon.sys = false → Completes .sysRstRelease s fun t => t = { s with aon := { s.aon with sysLow := none } }) ∧
    (s.aon.sys = true → s.tm.now < s.aon.sysAt + 625000 → Completes .sysRstRelease s fun t => t = s) ∧
    (s.aon.sys = true → s.aon.sysAt + 625000 ≤ s.tm.now → Completes .sysRstRelease s fun t => t.aon.sys = false ∧
      t.cfg.booting = true ∧ t.power.modelAt = s.tm.now ∧ SameBytes s t)) ∧
  (∀ (s : State) (at_ : Nat), s.cfg.trialAt = some at_ →
    (s.tm.now < at_ + 75000000000 → Completes .trialTimeout s fun t => t = s) ∧
    (s.live = true → at_ + 75000000000 ≤ s.tm.now → Completes .trialTimeout s fun t => t.aon.sys = true ∧ t.mem = [] ∧
      t.on A.henSts F.henSts.reverted = true)) ∧
  (∀ s : State,
    (s.refLost = true → Completes .refInLoss s fun t => t = s) ∧
    (s.refLost = false → s.live = true → s.fld A.glbSts F.glbSts.bootStage ≠ 0 →
      Completes .refInLoss s fun t => t.refLost = true ∧ t.fld A.glbBridgeSts F.glbBridgeSts.cbrUp = 0 ∧
        t.fld A.glbBridgeSts F.glbBridgeSts.cbrErr = 15 ∧ t.refx.lostAt = s.tm.now ∧
        (∀ q : Quad, FiresAmong (1280 + q) s t ∧ FiresAmong (1284 + q) s t ∧ t.blkUp q = false) ∧ SameBytes s t ∧
        ∀ p : Plot, s.stopped p = false → (s.sched p).abortAt = none → (t.sched p).abortAt = some (s.DT + 8, false)) ∧
    (s.refLost = false ∨ s.tm.now < s.refx.lostAt + 25000000 → Completes .refInRecovery s fun t => t = s) ∧
    (s.refLost = true → s.refx.lostAt + 25000000 ≤ s.tm.now → s.live = true → s.fld A.glbSts F.glbSts.bootStage ≠ 0 →
      s.cfg.bridges < 16 → (∀ q : Quad, (s.hk q).held = [] ∧ (s.hk q).heldRes = []) →
      Completes .refInRecovery s fun t => t.refLost = false ∧ t.fld A.glbBridgeSts F.glbBridgeSts.cbrUp = s.cfg.bridges ∧
        ∀ q : Quad, s.cfg.links.testBit q = true → t.blkUp q = true) ∧
    (s.live = true → s.refLost = true → s.fld A.glbSts F.glbSts.bootStage = 0 → s.refx.bootAt + 250000000 ≤ s.tm.now →
      Completes .refInBootTimeout s fun t => t.cfg.trained = 0 ∧ t.on A.dtSts F.dtSts.running = true ∧
        t.fld A.glbBridgeSts F.glbBridgeSts.cbrUp = 0 ∧
        (∀ x xs, s.cfg.order = x :: xs → t.fld A.glbSts F.glbSts.bootStage = 1 ∧ t.ldState = 1 ∧ t.cfg.img = some { src := x }) ∧
        (s.cfg.order = [] → t.fld A.glbSts F.glbSts.bootStage = 2 ∧ t.cfg.img = none))) ∧
  (∀ (s : State) (k : Fin 2), Completes (.laneRefLoss k) s fun t =>
    (∀ i, i < 4 → s.on (A.klCtl (4 * k + i)) F.klCtl.en = true → t.klState (4 * k + i) = 6) ∧
    (∀ i, i < 4 → s.on (A.klCtl (4 * k + i)) F.klCtl.en = true → s.klState (4 * k + i) ≠ 6 →
      t.fld (A.klSts (4 * k + i)) F.klSts.downCause = 7 ∧ t.klLanes (4 * k + i) = 0) ∧
    (k = 1 → ∀ e : Port, t.fld (A.ethTsSts e) F.ethTsSts.linkUp = 0) ∧ SameBytes s t))

/-! ## Welolyan (R324–R353) -/

/-- The mailbox (R324, R327, R328, R331–R333, R338–R340, R442). One command at a time. Its checks come in an order (the model's, log entry
225), and the first that fails gives the result: the lifecycle state, the blob's form, the nonce, the signatures, what is left. An accepted
command writes its intent record, RETIRE and ZEROISE_PLOT erase keys at once. At its end the fuses of the record are programmed, and every
one that reads back fires 1,375: a new owner, a rotation, retirement, a debug unlock after the next reset; where one does not read back in
three attempts, FUSE_FAIL sets and the result is 6 (R328). A key's slot holds its SHA-384 (R331); either fuse of a lifecycle pair decides
the state. The report sets RESULT, ends BUSY, closes the intent record, loads a fresh nonce and fires source 1,372. After a hard trip no
record is written, and no fuse (R442). COMMIT raises the anti-rollback count to the image's number, fuse by fuse, and never otherwise. -/
def Obligations.MailboxCommands : Prop :=
  let pair := fun (lc : Nat) => [fuseLc + 2 * (lc - 1), fuseLc + 2 * (lc - 1) + 1]
  (∀ (s : State) (op : Nat) (w : Word), s.live = true → op ∈ wlOpcodes →
    let row := mailboxRow op w
    let h := s.wlBytes 65
    let stateOk := wlState op (s.wlLc op) = true
    let formed := leAt h 0 8 = Config.serial.toNat ∧ leAt h 8 1 = op ∧ leAt h 9 3 = 0 ∧ leAt h 12 4 = wlPayload op ∧
      (op = 0x30 → leAt h 64 1 < 8)
    let nonceOk := (h.drop 16).take 48 = s.wlNonceBytes
    let ends := fun (r : Nat) (t : State) => t.wl = { s.wl with result := some r } ∧ t.on A.wlSts F.wlSts.busy = true ∧
      OnlyRegs [A.wlCmd, A.wlSts] { s with wl := t.wl } t ∧ t.lcNext = s.lcNext
    (s.on A.wlSts F.wlSts.busy = true → Completes row s fun t => t.fld A.wlSts F.wlSts.cmdErr = 1 ∧ OnlyRegs [A.wlCmd, A.wlSts] s t) ∧
    (s.on A.wlSts F.wlSts.busy = false →
      (¬stateOk → Completes row s (ends 1)) ∧
      (stateOk → ¬formed → Completes row s (ends 5)) ∧
      (stateOk → formed → ¬nonceOk → Completes row s (ends 3)) ∧
      (stateOk → formed → nonceOk → s.wlSigOk op = false → Completes row s (ends 2)) ∧
      (stateOk → formed → nonceOk → s.wlSigOk op = true → s.wlNoCount op = true → Completes row s (ends 4)) ∧
      (stateOk → formed → nonceOk → s.wlSigOk op = true → s.wlNoCount op = false →
        let key := hashFuses s.wl.slots.length (sha384 ((s.wlBytes 161).drop 64))
        let fuses := if op = 0x10 then key ++ pair 2 else if op = 0x11 then key else if op = 0x12 then pair 3
          else [fuseDebug + (4 - s.fld A.wlFuseRem F.wlFuseRem.debugRem)]
        let erased := fun (p : Plot) (t : State) => t.keyed p = false ∧ t.keyGen p = 0 ∧ KMap.get [] t.wl.prk p = [] ∧
          (s.aon.tripped = false → KMap.get none t.wl.sealed_ p = none)
        Completes row s fun t => t.wl.result = some 0 ∧ t.on A.wlSts F.wlSts.busy = true ∧ t.lcNext = s.lcNext ∧
          t.wl.blown = s.wl.blown ∧ t.wl.slots = s.wl.slots ∧ t.reg A.wlFuseRem = s.reg A.wlFuseRem ∧ SameBytes s t ∧
          (op ≠ 0x30 → s.aon.tripped = false → t.wl.intent = some (op, fuses)) ∧
          (op = 0x30 ∨ s.aon.tripped = true → t.wl.intent = s.wl.intent) ∧
          (op = 0x12 → (∀ p : Plot, erased p t) ∧ (s.aon.tripped = false → t.cal.copyA = none ∧ t.cal.copyB = none)) ∧
          (op = 0x30 → ∀ p : Plot, (p.val = leAt h 64 1 → erased p t) ∧
            (p.val ≠ leAt h 64 1 → t.reg (A.wlPlotSts p) = s.reg (A.wlPlotSts p))) ∧
          (op ≠ 0x12 → op ≠ 0x30 → ∀ p : Plot, t.reg (A.wlPlotSts p) = s.reg (A.wlPlotSts p) ∧
            KMap.get [] t.wl.prk p = KMap.get [] s.wl.prk p)))) ∧
  (∀ (s : State) (r : Nat), s.live = true → s.wl.result = some r → r < 256 → s.aon.tripped = false →
    let report := fun (ok : Bool) (wl : List Nat → WlX) (bits : List Nat) (t : State) =>
      t.fld A.wlCmdSts F.wlCmdSts.result = (if ok then r else 6) ∧ t.on A.wlSts F.wlSts.busy = false ∧
      (ok = false → t.on A.wlSts F.wlSts.fuseFail = true ∧ FiresAmong 1375 s t) ∧ FiresAmong 1372 s t ∧
      t.wl = { wl t.wl.blown with result := none, intent := none, nonces := s.wl.nonces + 1 } ∧
      (∀ b, b ∈ t.wl.blown ↔ b ∈ s.wl.blown ∨ (b ∈ bits ∧ fuseTakes b = true)) ∧ (bits.any fuseTakes = true → FiresAmong 1375 s t) ∧
      (∀ i, i < 12 → t.reg (A.wlNonce i) = Config.nonce (s.wl.nonces + 1) i) ∧
      t.fld A.glbSts F.glbSts.lifecycle = s.fld A.glbSts F.glbSts.lifecycle ∧ SameBytes s t
    let leads := fun (may : Bool) (lc : Nat) (t : State) =>
      ((may && (pair lc).any fuseTakes) = true → t.lcNext = lc ∧ t.on A.wlSts F.wlSts.lcPending = true) ∧
      ((may && (pair lc).any fuseTakes) = false → t.lcNext = s.lcNext)
    (s.wl.intent = none →
      Completes .mailboxCommandDone s fun t => report true (fun _ => s.wl) [] t ∧ t.lcNext = s.lcNext ∧ Fires 1372 s t) ∧
    (∀ hash, s.wl.intent = some (0x10, hashFuses s.wl.slots.length hash ++ pair 2) →
      let key := hashFuses s.wl.slots.length hash
      let ok := key.all fuseTakes
      Completes .mailboxCommandDone s fun t => leads ok 2 t ∧
        report (ok && (pair 2).all fuseTakes) (fun b => { s.wl with slots := s.wl.slots ++ [ok], blown := b })
          (key ++ if ok then pair 2 else []) t) ∧
    (∀ hash, s.wl.intent = some (0x11, hashFuses s.wl.slots.length hash) →
      let key := hashFuses s.wl.slots.length hash
      let ok := key.all fuseTakes
      Completes .mailboxCommandDone s fun t => t.lcNext = s.lcNext ∧
        report ok (fun b => { s.wl with slots := s.wl.slots ++ [ok], blown := b }) key t ∧
        t.fld A.wlFuseRem F.wlFuseRem.ownerRotRem = s.fld A.wlFuseRem F.wlFuseRem.ownerRotRem - 1) ∧
    (s.wl.intent = some (0x12, pair 3) →
      Completes .mailboxCommandDone s fun t => leads true 3 t ∧
        report ((pair 3).all fuseTakes) (fun b => { s.wl with blown := b }) (pair 3) t) ∧
    (∀ bit, s.wl.intent = some (0x20, [bit]) →
      Completes .mailboxCommandDone s fun t => t.lcNext = s.lcNext ∧
        report (fuseTakes bit) (fun b => { s.wl with blown := b, debugNext := s.wl.debugNext || fuseTakes bit }) [bit] t ∧
        t.on A.wlSts F.wlSts.debug = s.on A.wlSts F.wlSts.debug ∧
        t.fld A.wlFuseRem F.wlFuseRem.debugRem = s.fld A.wlFuseRem F.wlFuseRem.debugRem - 1)) ∧
  (∀ s : State, s.wl.result = none ∨ s.aon.tripped = true → Completes .mailboxCommandDone s fun t => t = s) ∧
  (∀ s : State, s.live = true →
    let img := s.fld A.wlArb F.wlArb.image
    let cnt := s.fld A.wlArb F.wlArb.count
    let may := cnt < img ∧ s.fld A.glbSts F.glbSts.imgSrc ≠ 2 ∧ s.enforce = false ∧
      (s.on A.henSts F.henSts.trial = false ∨ s.on A.henSts F.henSts.confirmed = true)
    (may → s.aon.tripped = false →
      Completes .arbCommit s fun t => t.fld A.wlArb F.wlArb.image = img ∧ SameBytes s t ∧ t.wl.intent = s.wl.intent ∧
        (fuseTakes (fuseArb + cnt) = true → fuseArb + cnt ∈ t.wl.blown) ∧ FiresAmong 1375 s t ∧
        (∀ n, n ≤ img - cnt → (∀ i, i < n → fuseTakes (fuseArb + cnt + i) = true) →
          (n = img - cnt ∨ fuseTakes (fuseArb + cnt + n) = false) →
          t.fld A.wlArb F.wlArb.count = cnt + n ∧ t.fld A.wlFuseRem F.wlFuseRem.arbRem = 128 - (cnt + n) ∧
          (n < img - cnt → t.on A.wlSts F.wlSts.fuseFail = true))) ∧
    (may → s.aon.tripped = true → Completes .arbCommit s fun t => t.fld A.wlArb F.wlArb.count = cnt ∧ OnlyRegs [A.wlArb] s t) ∧
    (¬may → Completes .arbCommit s fun t => t.fld A.wlArb F.wlArb.count = cnt ∧ t.fld A.wlSts F.wlSts.cmdErr = 1 ∧
      OnlyRegs [A.wlArb, A.wlSts] s t))

/-- SPDM and IDE (R342, R351, R352). GET_VERSION begins the negotiation anew; CAPABILITIES and NEGOTIATE_ALGORITHMS go on with
it; the others answer once the algorithms are negotiated, before that with UnexpectedRequest. Slot 1 answers once it holds a
chain, which only an OWNED device takes. At most two sessions stand; a session's requests are answered inside it alone. -/
def Obligations.AttestationAnswers : Prop :=
  ∀ s : State,
    Completes .spdmGetVersion s (fun t => Answers 0x04 [0x12] s t ∧
      t.spdm = { s.spdm with stage := 1, sess0 := none, sess1 := none }) ∧
    (1 ≤ s.spdm.stage → Completes .spdmGetCapabilities s fun t => Answers 0x61 [1, 1, 2, 1, 1, 1, 1, 1] s t ∧
      t.spdm = { s.spdm with stage := max 2 s.spdm.stage }) ∧
    (2 ≤ s.spdm.stage → Completes .spdmNegotiateAlgorithms s fun t => Answers 0x63 [384, 384, 384, 256] s t ∧
      t.spdm = { s.spdm with stage := 3 }) ∧
    (s.spdm.stage < 3 → ∀ (slot : Fin 2) (index : Fin 8) (bs : List Byte) (c : Instr),
      c = .spdmGetDigests ∨ c = .spdmGetCertificate slot ∨ c = .spdmChallenge slot bs ∨ c = .spdmGetMeasurements index bs ∨
        c = .spdmKeyExchange bs ∨ c = .spdmSetCertificate slot bs →
      Completes c s fun t => t = { s with out := s.out ++ [.spdm 0x7F [4] []] }) ∧
    (3 ≤ s.spdm.stage →
      Completes .spdmGetDigests s (fun t => Answers 0x01 [0, b2n (s.spdm.slot1 != [])] s t ∧ t.spdm = s.spdm) ∧
      (∀ slot : Fin 2, slot = 0 ∨ s.spdm.slot1 ≠ [] →
        Completes (.spdmGetCertificate slot) s (fun t => Answers 0x02 [slot] s t ∧ t.spdm = s.spdm) ∧
        ∀ nonce, Completes (.spdmChallenge slot nonce) s fun t => Answers 0x03 [slot] s t ∧ t.spdm = s.spdm) ∧
      (s.spdm.slot1 = [] →
        Completes (.spdmGetCertificate 1) s fun t => t = { s with out := s.out ++ [.spdm 0x7F [1] []] }) ∧
      (∀ nonce, Completes (.spdmGetMeasurements 0 nonce) s fun t => Answers 0x60 [0, 7] s t ∧ t.spdm = s.spdm) ∧
      (∀ nonce, Completes (.spdmGetMeasurements 6 nonce) s fun t => t.spdm = s.spdm ∧
        Answers 0x60 [6, s.fld A.wlSts F.wlSts.lc, s.fld A.wlSts F.wlSts.lcPending, b2n s.enforce, s.fld A.wlSts F.wlSts.debug,
          s.fld A.wlFuseRem F.wlFuseRem.ownerSlot, s.fld A.wlArb F.wlArb.count] s t) ∧
      (∀ exch, s.fld A.wlSts F.wlSts.lc ≠ 3 →
        (s.spdm.sess0 = none → Completes (.spdmKeyExchange exch) s fun t => Answers 0x64 [0] s t ∧
          t.spdm = { s.spdm with sess0 := some { up := false } }) ∧
        (∀ x, s.spdm.sess0 = some x → s.spdm.sess1 = none → Completes (.spdmKeyExchange exch) s fun t => Answers 0x64 [1] s t ∧
          t.spdm = { s.spdm with sess1 := some { up := false } }) ∧
        (∀ x y, s.spdm.sess0 = some x → s.spdm.sess1 = some y →
          Completes (.spdmKeyExchange exch) s fun t => t = { s with out := s.out ++ [.spdm 0x7F [0x0A] []] })) ∧
      (∀ exch, s.fld A.wlSts F.wlSts.lc = 3 →
        Completes (.spdmKeyExchange exch) s fun t => t = { s with out := s.out ++ [.spdm 0x7F [7] []] }) ∧
      (∀ chain : List Byte, chain.length ≤ 4096 → s.fld A.wlSts F.wlSts.lc = 2 →
        Completes (.spdmSetCertificate 1 chain) s fun t => Answers 0x6E [1] s t ∧ t.spdm = { s.spdm with slot1 := chain }) ∧
      (∀ (slot : Fin 2) (chain : List Byte), slot = 0 ∨ s.fld A.wlSts F.wlSts.lc ≠ 2 ∨ 4096 < chain.length →
        Completes (.spdmSetCertificate slot chain) s fun t => t = { s with out := s.out ++ [.spdm 0x7F [7] []] })) ∧
    (∀ (i : Fin 2) (x : SessX), s.sess i = some x →
      (x.up = false →
        Completes (.spdmFinish i true) s (fun t => Answers 0x65 [i] s t ∧ t.sess i = some { x with up := true }) ∧
        Completes (.spdmFinish i false) s (fun t => Answers 0x7F [6] s t ∧ t.sess i = none)) ∧
      (x.up = true →
        (∀ ok, Completes (.spdmFinish i ok) s fun t => t = { s with out := s.out ++ [.spdm 0x7F [4] []] }) ∧
        Completes (.spdmKeyUpdate i) s (fun t => Answers 0x69 [i] s t ∧ t.sess i = some { x with keys := x.keys + 1 }) ∧
        Completes (.spdmHeartbeat i) s (fun t => Answers 0x68 [i] s t ∧ t.spdm = s.spdm) ∧
        Completes (.spdmEndSession i) s (fun t => Answers 0x6C [i] s t ∧ t.sess i = none) ∧
        ∀ (stream : Fin 5) (key : List Byte),
          (s.fld A.wlSts F.wlSts.lc ≠ 3 → Completes (.ideKmProgram i stream key) s fun t => Answers 0xFE [stream] s t ∧
            t.spdm = { s.spdm with ide := KMap.set [] s.spdm.ide stream key }) ∧
          (s.fld A.wlSts F.wlSts.lc = 3 → Completes (.ideKmProgram i stream key) s fun t =>
            t = { s with out := s.out ++ [.spdm 0x7F [7] []] }))) ∧
    (∀ (i : Fin 2) (c : Instr) (stream : Fin 5) (key : List Byte) (ok : Bool), s.sess i = none →
      c = .spdmKeyUpdate i ∨ c = .spdmHeartbeat i ∨ c = .spdmEndSession i ∨ c = .ideKmProgram i stream key ∨ c = .spdmFinish i ok →
      Completes c s fun t => t = { s with out := s.out ++ [.spdm 0x7F [2] []] })

/-! ## Network time and intervals (R381–R400) -/

/-- The PTP clock (R384–R386, R389–R392). A rate within ±500 ppm takes effect four ticks after its commit, a greater one is
refused. A correction acts four ticks after its write: with STEP_PEND as a step, up to the jump threshold as a slew, beyond it
not at all, with source 1,376. The commit of an epoch ends EPOCH_STALE while the count lies less than 4 s beyond it. A
cross-timestamp latches DT and the clock in one tick. -/
def Obligations.TheClockIsDisciplined : Prop :=
  (∀ (s : State) (w : Word), s.live = true →
    let v := sext 40 (w.toNat + 2 ^ 32 * s.fld A.ptpRateHi F.ptpRateHi.rate)
    (-rateLimit ≤ v → v ≤ rateLimit →
      Completes (.ptpRateCommit w) s fun t => t.ptp = { s.ptp with rates := s.ptp.rates ++ [(s.tm.now + 4, v)] } ∧
        t.reg A.ptpRateLo = w ∧ SameRegs [A.ptpRateLo] s t ∧ t = { s with regs := t.regs, tie := t.tie, ptp := t.ptp }) ∧
    (v < -rateLimit ∨ rateLimit < v → Completes (.ptpRateCommit w) s fun t => Refused 0 0 A.ptpRateLo s t) ∧
    Completes (.ptpOffsetSubmit w) s (fun t =>
      t.ptp = { s.ptp with corrs := s.ptp.corrs ++
        [(s.tm.now + 4, sext 32 w.toNat * 65536 + s.fld A.ptpOffsetFrac F.ptpOffsetFrac.frac)] } ∧
      SameRegs [A.ptpOffset] s t ∧ t = { s with regs := t.regs, tie := t.tie, ptp := t.ptp }) ∧
    Completes .ptpRearm s (fun t => t.fld A.ptpSts F.ptpSts.stepPend = 1 ∧ OnlyRegs [A.ptpCtl, A.ptpSts] s t) ∧
    Completes (.ptpEpochCommit w) s (fun t =>
      t.ptp = { s.ptp with epoch := some ((s.reg A.ptpEpochSecLo).toNat + 2 ^ 32 * s.fld A.ptpEpochSecHi F.ptpEpochSecHi.sec, w.toNat) } ∧
      SameRegs [A.ptpEpochNs, A.ptpSts] s t ∧
      t.fld A.ptpSts F.ptpSts.epochStale =
        (if (s.ptpNs + 2 ^ 32 - w.toNat) % 2 ^ 32 < 4000000000 then 0 else s.fld A.ptpSts F.ptpSts.epochStale))) ∧
  (∀ (s : State) (due : Nat) (c : Int) (cs : List (Nat × Int)), s.ptp.corrs = (due, c) :: cs →
    (s.tm.now < due → Completes .ptpCorrectionApply s fun t => t = s) ∧
    (due ≤ s.tm.now → s.on A.ptpSts F.ptpSts.stepPend = true →
      Completes .ptpCorrectionApply s fun t => SameRegs [A.ptpSts] s t ∧ t.fld A.ptpSts F.ptpSts.stepPend = 0 ∧
        t.ptp = { s.ptp with corrs := cs, clock := ((s.ptp.clock + c * fracUnit) % (ptpMod : Int)).toNat } ∧ t.evq = s.evq) ∧
    (due ≤ s.tm.now → s.on A.ptpSts F.ptpSts.stepPend = false →
      (c.natAbs ≤ s.fld A.ptpJumpThr F.ptpJumpThr.thr * 65536 →
        Completes .ptpCorrectionApply s fun t => t.fld A.ptpSts F.ptpSts.slewing = 1 ∧ SameRegs [A.ptpSts] s t ∧
          t.ptp = { s.ptp with corrs := cs, slew := some { c := c * fracUnit, left := c * fracUnit,
                                                           n := s.fld A.ptpSlew F.ptpSlew.ms * 2500000 } }) ∧
      (s.fld A.ptpJumpThr F.ptpJumpThr.thr * 65536 < c.natAbs →
        Completes .ptpCorrectionApply s fun t => t.fld A.ptpSts F.ptpSts.ptpJump = 1 ∧ CountsUp A.ptpJumpCnt 1 s t ∧
          t.reg A.ptpLastRefused = toW (c / 65536) ∧ Fires 1376 s t ∧ t.ptp = { s.ptp with corrs := cs }))) ∧
  (∀ (s : State) (w : SlewX), s.ptp.slew = some w →
    (w.left = 0 → Completes .slewEnd s fun t => t.fld A.ptpSts F.ptpSts.slewing = 0 ∧ t.ptp = { s.ptp with slew := none } ∧
      SameRegs [A.ptpSts] s t) ∧
    (w.left ≠ 0 → Completes .slewEnd s fun t => t = s)) ∧
  (∀ s : State,
    (s.ptp.wrapped = true → Completes .ptpWrap s fun t => Fires 1378 s t ∧ t.ptp = { s.ptp with wrapped := false }) ∧
    (s.ptp.wrapped = false → Completes .ptpWrap s fun t => t = s) ∧
    (∀ sec ns, s.ptp.epoch = some (sec, ns) → s.on A.ptpSts F.ptpSts.epochStale = false →
      4000000000 ≤ sinceEpoch s.ptpNs ns →
      Completes .epochStale s fun t => t.fld A.ptpSts F.ptpSts.epochStale = 1 ∧ Fires 1377 s t ∧ t.ptp = s.ptp)) ∧
  (∀ (s : State) (w : Word) (master : BitVec 64),
    let latched := fun (t : State) => t.pair A.xtsDtLo A.xtsDtHi = s.DT ∧ t.reg A.xtsNs = BitVec.ofNat 32 s.ptpNs ∧
      t.reg A.xtsNsFrac = BitVec.ofNat 32 s.ptpFrac
    (s.live = true → Completes (.xtsGo w) s fun t => latched t ∧ t.ptp = s.ptp ∧
      SameRegs [A.xtsCtl, A.xtsDtLo, A.xtsDtHi, A.xtsNs, A.xtsNsFrac] s t) ∧
    (s.ppsEdge = true → Completes .ppsOutPulse s fun t => t.out = s.out ++ [.pps] ∧
      t.ptp = { s.ptp with ppsAt := some s.tm.now, pulses := t.ptp.pulses } ∧
      (s.tm.now + 32, s.tm.now + 32 + s.fld A.ppsOutCtl F.ppsOutCtl.width * 2500) ∈ t.ptp.pulses ∧
      (∀ x ∈ s.ptp.pulses, s.tm.now < x.2 → x ∈ t.ptp.pulses) ∧
      (s.on A.xtsCtl F.xtsCtl.autoPps = true → latched t) ∧ (s.on A.xtsCtl F.xtsCtl.autoPps = false → t.regs = s.regs)) ∧
    Completes (.ptmDialogue master) s (fun t => t.pair A.ptmDtLo A.ptmDtHi = s.DT ∧ t.pair A.ptmMtLo A.ptmMtHi = master.toNat ∧
      SameRegs [A.ptmDtLo, A.ptmDtHi, A.ptmMtLo, A.ptmMtHi] s t))

/-- The Ethernet ports (R382, R383, R387, R388, R400). Stamps of received and sent frames, the PTP clock at the ball with the board term,
queue, 32 deep, and are read oldest first; one-step insertion needs a current epoch, and a response tells the turnaround of its own
request. A launch entry that is at least 2.0 µs ahead queues; a late one, or one that meets a busy line, follows LATE_POL; its frame
leaves when the count reaches its time less ETH_ASYM_OUT, a late one under EXECUTE_NOW once the line is free. Export sends a plot's items in
datagrams, or counts what it discards. -/
def Obligations.PortsStampLaunchAndExport : Prop :=
  (∀ (s : State) (e : Port) (m : PtpMsg) (seqId : BitVec 16) (port : BitVec 80) (sub : Fin 820),
    let others := (s.eth e).reqs.filter fun r => r.1 != port.toNat || r.2.1 != seqId.toNat
    let ovf := fun (l : List (Word × Word)) (t : State) =>
      t.fld (A.ethTsSts e) F.ethTsSts.tsOvf = (if l.length < 32 then s.fld (A.ethTsSts e) F.ethTsSts.tsOvf else 1) ∧
      SameRegs [A.ethTsSts e] s t
    let one := s.on (A.ethTsCtl e) F.ethTsCtl.onestep
    (Completes (.ptpFrameRx e m seqId port sub) s fun t => ovf (s.eth e).rx t ∧ t.out = s.out ∧
      ∃ st, StampedAt sub (-(sext 20 (s.fld (A.ethAsymIn e) F.ethAsymIn.ps))) s st ∧ Stamped m seqId st (s.eth e).rx (t.eth e).rx ∧
        t.eth e = { s.eth e with
          rx := (t.eth e).rx, reqs := if m = .pdelayReq then (port.toNat, seqId.toNat, st) :: others else (s.eth e).reqs }) ∧
    (one = false ∨ (m ≠ .sync ∧ m ≠ .pdelayResp) ∨ s.on A.ptpSts F.ptpSts.epochStale = false →
      Completes (.ptpFrameTx e m seqId port sub) s fun t => ovf (s.eth e).tx t ∧
        ∃ st, StampedAt sub (sext 20 (s.fld (A.ethAsymOut e) F.ethAsymOut.ps)) s st ∧ Stamped m seqId st (s.eth e).tx (t.eth e).tx ∧
          t.eth e = { s.eth e with tx := (t.eth e).tx, reqs := if m = .pdelayResp then others else (s.eth e).reqs } ∧
          (one = true → m = .sync →
            t.out = s.out ++ [.oneStep e 0 seqId.toNat (s.fullTime (st / 2048)).1 (s.fullTime (st / 2048)).2]) ∧
          (one = true → m = .pdelayResp → ∀ r, (s.eth e).reqs.find? (fun r => r.1 == port.toNat && r.2.1 == seqId.toNat) = some r →
            t.out = s.out ++ [.oneStep e 3 seqId.toNat 0 ((st + 2 ^ 43 - r.2.2) % 2 ^ 43)]) ∧
          (one = false ∨ (m ≠ .sync ∧ m ≠ .pdelayResp) → t.out = s.out)) ∧
    (one = true → s.on A.ptpSts F.ptpSts.epochStale = true → m = .sync ∨ m = .pdelayResp →
      Completes (.ptpFrameTx e m seqId port sub) s fun t => CountsUp (A.ethTsStaleCnt e) 1 s t ∧ OnlyRegs [A.ethTsStaleCnt e] s t)) ∧
  (∀ (s : State) (e : Port) (tx : Bool) (ns info : Word) (rest : List (Word × Word)),
    let infoReg := if tx then A.ethTxtsInfo e else A.ethRxtsInfo e
    ((if tx then (s.eth e).tx else (s.eth e).rx) = (ns, info) :: rest →
      Completes (.tsRead e tx) s fun t => t.readData = ns ∧ t.reg infoReg = info ∧ SameRegs [infoReg] s t ∧
        t.eth e = (if tx then { s.eth e with tx := rest } else { s.eth e with rx := rest })) ∧
    ((if tx then (s.eth e).tx else (s.eth e).rx) = [] →
      Completes (.tsRead e tx) s fun t => t.readData = 0 ∧ t.fld infoReg F.ethRxtsInfo.valid = 0 ∧ SameRegs [infoReg] s t ∧
        t.eths = s.eths)) ∧
  (∀ (s : State) (e : Port) (frame : Nat) (at_ : Word),
    let l := (s.eth e).lq
    let left := (at_ - BitVec.ofNat 32 s.ptpNs).toNat
    let halted := s.on (A.ethTsSts e) F.ethTsSts.halted
    (halted = true ∨ 16 ≤ l.length → Completes (.launchPush e frame at_) s fun t => t = s) ∧
    (halted = false → l.length < 16 → left < 2 ^ 31 → 2000 * nsUnit + s.ptp.clock % nsUnit ≤ left * nsUnit →
      Completes (.launchPush e frame at_) s fun t => t.eth e = { s.eth e with lq := l ++ [(frame, at_)] } ∧
        t.fld (A.ethTsSts e) F.ethTsSts.lqLevel = l.length + 1 ∧ SameRegs [A.ethTsSts e] s t ∧ t.out = s.out) ∧
    (halted = false → l.length < 16 → 2 ^ 31 ≤ left ∨ left * nsUnit < 2000 * nsUnit + s.ptp.clock % nsUnit →
      Completes (.launchPush e frame at_) s fun t => LateLaunch e frame false s t ∧ (t.eth e).lq = l)) ∧
  (∀ (s : State) (e : Port) (at_ : Word), ∃ term : Int, BoardTerm (sext 20 (s.fld (A.ethAsymOut e) F.ethAsymOut.ps)) term ∧
    (s.launchAt e at_).toNat = (((at_.toNat * 2048 : Nat) - term) % (2 ^ 43 : Int)).toNat / 2048) ∧
  (∀ (s : State) (e : Port) (frame : Nat) (at_ : Word) (rest : List (Nat × Word)) (busy : Bool),
    (s.eth e).lq = (frame, at_) :: rest → rest.length < 32 → (s.eth e).late = [] ∨ busy = true →
    let up := s.on (A.ethTsSts e) F.ethTsSts.linkUp
    let leaves := s.launchAt e at_
    let left := (leaves - BitVec.ofNat 32 s.ptpNs).toNat
    (leaves.toNat = s.ptpNs → up = true → busy = false →
      Completes (.launch e busy) s fun t => t.out = s.out ++ [.frame e frame] ∧ CountsUp (A.ethLaunchCnt e) 1 s t ∧
        (t.eth e).lq = rest ∧ t.fld (A.ethTsSts e) F.ethTsSts.lqLevel = rest.length ∧ t.evq = s.evq) ∧
    ((leaves.toNat = s.ptpNs ∧ busy = true) ∨ 2 ^ 31 ≤ left → up = true →
      Completes (.launch e busy) s fun t => LateLaunch e frame (!busy) s t ∧ (t.eth e).lq = rest) ∧
    (leaves.toNat = s.ptpNs ∨ 2 ^ 31 ≤ left → up = false → Completes (.launch e busy) s fun t => t.out = s.out ∧ (t.eth e).lq = rest ∧
      CountsUp (A.ethLateCnt e) 1 s t ∧ Fires (1380 + e) s t) ∧
    (leaves.toNat ≠ s.ptpNs → left < 2 ^ 31 → Completes (.launch e busy) s fun t => t = s)) ∧
  (∀ (s : State) (e : Port) (frame : Nat) (rest : List Nat), (s.eth e).late = frame :: rest →
    Completes (.launch e false) s fun t => t.eth e = { s.eth e with late := rest } ∧ t.regs = s.regs ∧
      t.out = if s.on (A.ethTsSts e) F.ethTsSts.linkUp then s.out ++ [.frame e frame] else s.out) ∧
  (∀ (s : State) (e : Port) (w : Word) (up : Bool) (speed : BitVec 2),
    (s.live = true → Completes (.clrHalt e w) s fun t => t.fld (A.ethTsSts e) F.ethTsSts.halted = 0 ∧
      t.fld (A.ethLqCtl e) F.ethLqCtl.latePol = getF w F.ethLqCtl.latePol ∧ OnlyRegs [A.ethLqCtl e, A.ethTsSts e] s t) ∧
    (s.live = true → Completes (.ethLinkChange e up speed) s fun t => t.fld (A.ethTsSts e) F.ethTsSts.linkUp = b2n up ∧
      t.fld (A.ethTsSts e) F.ethTsSts.speed = (if up then speed.toNat else 0) ∧ OnlyRegs [A.ethTsSts e] s t) ∧
    (s.live = false → Completes (.ethLinkChange e up speed) s fun t => t = s)) ∧
  (∀ (s : State) (p : Plot) (full : Bool) (i : Nat × List Byte) (is : List (Nat × List Byte)), (s.exp p).items = i :: is →
    i.1 + 250000 ≤ s.tm.now →
    let port := s.fld (A.expCfg p) F.expCfg.port
    let up := s.on (A.ethTsSts port) F.ethTsSts.linkUp
    let d := s.datagramOf p
    d.1 ++ d.2 = i :: is ∧ d.1 ≠ [] ∧
    (full = true ∨ up = false → Completes (.exportDatagramClose p full) s fun t => CountsUp (A.expDropCnt p) 1 s t ∧
      t.exp p = { items := d.2, seq := (s.exp p).seq + 1 } ∧ t.out = s.out) ∧
    (full = false → up = true → Completes (.exportDatagramClose p full) s fun t =>
      t.exp p = { items := d.2, seq := (s.exp p).seq + 1 } ∧ t.regs = s.regs ∧
      ∃ head : List Byte, head.length = 16 ∧ leAt head 0 4 = (s.exp p).seq % 2 ^ 32 ∧ leAt head 8 8 = s.DT ∧
        t.out = s.out ++ [.datagram port p (head ++ (d.1.map fun x => x.2).flatten)]))

/-- The time-interval unit (R391, R393–R399, R412). No edge counts in a reset. A transition within the hold-off is counted and nothing more; the next one is
conditioned, and so is the level that stands when the hold-off ends; where EDGE selects it its source fires and the engines
take its stamp. GO latches an engine's settings; a run ends with its count, its timeout, its gate or STOP. A rising PPS edge
sets the tick of an armed load. -/
def Obligations.IntervalsAreMeasured : Prop :=
  (∀ (s : State) (i : Fin 34) (ed : Edge),
    (17 < i.val → Completes (.tiuEdge i ed) s fun t => t = s) ∧
    (s.live = false → i.val ≤ 17 → Completes (.tiuEdge i ed) s fun t => (t.tiu i).level = ed.level ∧ (t.tiu i).ball = ed.level ∧
      t = { s with tius := t.tius })) ∧
  (∀ (s : State) (i : Fin 34) (ed : Edge), ((s.tiu i).recent.filter fun x => decide (s.tm.now ≤ x + 1)).length < 2 →
    s.live = true → i.val ≤ 17 →
    (s.inHold i = true → Completes (.tiuEdge i ed) s fun t => CountsUp (A.tiuInHoldCnt i) 1 s t ∧
      (t.tiu i).level = (s.tiu i).level ∧ (t.tiu i).ball = ed.level ∧ t.evq = s.evq ∧ t.tms = s.tms) ∧
    (s.inHold i = false → i.val ≤ 16 → ed.level ≠ (s.tiu i).level →
      Completes (.tiuEdge i ed) s fun t => Conditions i ed.level s t ∧ (t.tiu i).ball = ed.level) ∧
    (s.inHold i = false → i.val ≤ 16 → ed.level = (s.tiu i).level →
      Completes (.tiuEdge i ed) s fun t => (t.tiu i).level = ed.level ∧ (t.tiu i).ball = ed.level ∧ t.evq = s.evq ∧ t.tms = s.tms ∧
        t.regs = s.regs) ∧
    (s.inHold i = false → i.val = 17 → Completes (.tiuEdge i ed) s (Conditions i true s)) ∧
    (∀ (m : Engine) (from_ : Nat), s.inHold i = false → i.val ≤ 16 → ed.level ≠ (s.tiu i).level → s.edgeSel i ed.level = true →
      let x := s.tm' m
      let d : Int := ((s.DT * 256 + ed.frac.toNat : Nat) : Int) - from_
      s.tmRun m = true → x.mode = 0 → x.a ≠ x.b → x.b = i.val → x.count < x.n → x.last = some from_ →
      -(2 ^ 47 : Int) ≤ d → d < 2 ^ 47 →
      Completes (.tiuEdge i ed) s fun t => (t.tm' m).count = x.count + 1 ∧ (t.tm' m).sum = x.sum + d ∧ (t.tm' m).last = none ∧
        (t.tm' m).min = (if x.count = 0 then d else min x.min d) ∧ (t.tm' m).max = (if x.count = 0 then d else max x.max d))) ∧
  (∀ (s : State) (i : Fin 34) (level : Bool) (since : Nat), i.val ≤ 16 → (s.tiu i).condAt = some since →
    s.tm.now = since + s.fld (A.tiuInCfg i) F.tiuInCfg.holdoff + 1 → level ≠ (s.tiu i).level → s.live = true →
    Completes (.holdoffExpiry i level) s (Conditions i level s)) ∧
  (∀ (s : State) (ed : Edge), ed.level ≠ (s.tiu 16).level → s.inHold 16 = false → s.live = true →
    Completes (.ppsInEdge ed) s fun t => Conditions 16 ed.level s t ∧
      (ed.level = true → s.on A.dtSts F.dtSts.loadPend = true → s.tm.loadAt = none → t.tm.loadAt = some (s.tm.now + 1))) ∧
  (∀ (s : State) (m : Engine) (w : Word), s.live = true → getF w F.tmCtl.stop = 0 →
    let mode := getF w F.tmCtl.mode
    let a := getF w F.tmCtl.srcA
    let b := getF w F.tmCtl.srcB
    let n := s.fld (A.tmN m) F.tmN.n
    let good := mode ≤ 3 ∧ a ≤ 33 ∧ b ≤ 33 ∧ (mode = 3 ∨ (1 ≤ n ∧ n ≤ 16777216))
    (s.tmRun m = false → good →
      Completes (.tiuGo m w) s fun t => t.tmRun m = true ∧ SameRegs [A.tmCtl m, A.tmSts m] s t ∧
        t.tm' m = { mode := mode, a := a, b := b, n := n, gate := s.fld (A.tmGate m) F.tmGate.us,
                    timeout := (s.reg (A.tmTimeout m)).toNat, startAt := s.tm.now }) ∧
    (s.tmRun m = false → ¬good →
      Completes (.tiuGo m w) s fun t => t.fld (A.tmSts m) F.tmSts.result = 4 ∧ OnlyRegs [A.tmCtl m, A.tmSts m] s t) ∧
    (s.tmRun m = true →
      Completes (.tiuGo m w) s fun t => t.fld (A.tmSts m) F.tmSts.startMissed = 1 ∧ OnlyRegs [A.tmCtl m, A.tmSts m] s t)) ∧
  (∀ (s : State) (m : Engine) (w : Word), (s.tm' m).gen < 8 →
    let x := s.tm' m
    let few := if x.mode = 3 then decide (x.count < 3) else decide (x.count = 0)
    (s.live = true → getF w F.tmCtl.go = 0 →
      (s.tmRun m = true → Completes (.tiuStop m w) s (RunEnds m 2 few s)) ∧
      (s.tmRun m = false → Completes (.tiuStop m w) s (OnlyRegs [A.tmCtl m] s))) ∧
    (s.tmRun m = true → x.mode ≠ 3 → x.n ≤ x.count →
      Completes (.tiuEngineDone m) s fun t => RunEnds m 0 few s t ∧
        (0 < x.count → t.reg (A.tmCount m) = BitVec.ofNat 32 x.count ∧
          t.pair (A.tmMinLo m) (A.tmMinHi m) = (BitVec.ofInt 64 x.min).toNat ∧
          t.pair (A.tmMaxLo m) (A.tmMaxHi m) = (BitVec.ofInt 64 x.max).toNat ∧
          t.pair (A.tmMeanLo m) (A.tmMeanHi m) = (BitVec.ofInt 64 (roundDiv (256 * x.sum) x.count)).toNat)) ∧
    (s.tmRun m = true → x.timeout ≠ 0 → x.startAt + x.timeout * 2500000 ≤ s.tm.now →
      Completes (.tiuTimeout m) s (RunEnds m 1 few s)) ∧
    (s.tmRun m = true → x.mode = 3 → x.startAt + x.gate * 2500 ≤ s.tm.now →
      Completes (.tiuGateEnd m) s (RunEnds m 0 few s)))

/-! ## Events and housekeeping (R401–R427) -/

/-- One cycle of the event fabric (R403–R407, R409, R411). It takes the waiting events of the sources named; a channel that
carries one counts it, and every task input that subscribes to the channel fires once: an interrupt task sets its status bit,
the alert task asserts; events of several channels that reach one task in a cycle are merged and counted (R407). Without a channel the
events go nowhere. EVF_FIRE fires a channel for the next cycle (log entry 232), or sets FIRE_IGNORED where that is off. The alert is
released by a write. -/
def Obligations.EventsReachTheirTasks : Prop :=
  (∀ (s : State) (srcs : List Nat),
    Completes (.eventFire srcs) s (fun t => (∃ l, t.evq = s.evq.filter (fun e => !srcs.contains e.1) ++ l) ∧ SameBytes s t ∧
      (∀ c, Carries s srcs c → CountsUp (A.evfChCnt c) 1 s t) ∧
      (∀ c k, Carries s srcs c → k < 64 → Subscribes s k c → CountsUp (A.taskCnt k) 1 s t ∧
        t.fld (A.taskCtl k) F.taskCtl.fired = 1 ∧
        (k < 32 → (t.reg A.evfIrqStsLo).toNat.testBit k = true) ∧
        (32 ≤ k → k < 40 → (t.reg A.evfIrqStsHi).toNat.testBit (k - 32) = true) ∧
        (k = 40 → t.fld A.evfAlertSts F.evfAlertSts.asserted = 1)) ∧
      (∀ c c' k, c ≠ c' → Carries s srcs c → Carries s srcs c' → k < 64 → Subscribes s k c → Subscribes s k c' →
        t.fld (A.taskCoal k) F.taskCoal.coal = min 255 (s.fld (A.taskCoal k) F.taskCoal.coal + 1))) ∧
    ((∀ c, c < 256 → s.chOn c = true → s.chSrc c ∉ srcs ∧ ∀ g, (c, g) ∉ s.evIn) →
      Completes (.eventFire srcs) s fun t => t = { s with evq := s.evq.filter fun e => !srcs.contains e.1, evIn := [] })) ∧
  (∀ (s : State) (w : Word), s.live = true →
    let c := getF w F.evfFire.ch
    (s.chOn c = false → ∀ mgmt, Completes (.evfFire w mgmt) s fun t => t.fld A.evfSts F.evfSts.fireIgnored = 1 ∧
      OnlyRegs [A.evfFire, A.evfSts] s t) ∧
    (s.chOn c = true → ∀ mgmt, Completes (.evfFire w mgmt) s fun t =>
      t.evIn = s.evIn ++ [(c, if mgmt then getF w F.evfFire.gen else 0)] ∧ OnlyRegs [A.evfFire] { s with evIn := t.evIn } t) ∧
    Completes .alertRelease s fun t => t.fld A.evfAlertSts F.evfAlertSts.asserted = 0 ∧ OnlyRegs [A.evfAlertSts] s t)

/-- The housekeeping converter (R413, R415–R419, R421). GO begins a pass with entry 0; while a sequence runs it is counted as
missed, and with LEN 0 the pass ends at once. STOP ends the sequence and counts the conversion it discards, URG_GO puts the host's entry
before it. A conversion that ends stores its code, 2²³ of the full scale, of R_F over R_S or in 2⁻¹⁴ °C, rounded (R414, R415, R423), and
its flags, checks its limits and goes on; after the last entry the pass ends. A reference is ready when it has settled, or its fault
cancels what waits; an entry that waited for it is denied where its tile is assigned under enforcement (R422). -/
def Obligations.HousekeepingConverts : Prop :=
  (∀ (s : State) (q : Quad) (w : Word), HkOpen q (A.hkCtl q) s → getF w F.hkCtl.stop = 0 → getF w F.hkCtl.urgGo = 0 →
    (s.hkBusy q = true → getF w F.hkCtl.len = s.fld (A.hkCtl q) F.hkCtl.len → getF w F.hkCtl.len ≤ 64 →
      getF w F.hkCtl.cont = s.fld (A.hkCtl q) F.hkCtl.cont →
      Completes (.hkGo q w) s fun t => t.fld (A.hkSts q) F.hkSts.hkGoMissed = 1 ∧ CountsUp (A.hkMissCnt q) 1 s t ∧
        Fires (1416 + q) s t ∧ t.hks = s.hks) ∧
    (s.hkBusy q = false → getF w F.hkCtl.len = 0 →
      Completes (.hkGo q w) s fun t => t.fld (A.hkSts q) F.hkSts.done = 1 ∧ t.hkBusy q = false ∧ Fires (1408 + q) s t ∧
        t.hks = s.hks) ∧
    (s.hkBusy q = false → 1 ≤ getF w F.hkCtl.len → getF w F.hkCtl.len ≤ 64 → Converts q s →
      Completes (.hkGo q w) s fun t => t.hkBusy q = true ∧ Begun q 0 s t ∧ t.evq = s.evq ∧
        SameRegs [A.hkCtl q, A.hkSts q] s t)) ∧
  (∀ (s : State) (q : Quad) (w : Word), HkOpen q (A.hkCtl q) s → getF w F.hkCtl.go = 0 → getF w F.hkCtl.urgGo = 0 →
    getF w F.hkCtl.len = s.fld (A.hkCtl q) F.hkCtl.len → getF w F.hkCtl.len ≤ 64 →
    getF w F.hkCtl.cont = s.fld (A.hkCtl q) F.hkCtl.cont →
    (s.hkBusy q = true → (s.hk q).therm = [] → (s.hk q).urg = false →
      Completes (.hkStop q w) s fun t => t.hkBusy q = false ∧ t.fld (A.hkSts q) F.hkSts.stopped = 1 ∧
        (∀ c, (t.hk q).conv = some c → c.kind ≠ 0) ∧
        (∀ c, (s.hk q).conv = some c → c.kind = 0 → c.phase ≠ 1 → c.phase ≠ 6 → CountsUp (A.hkAbortCnt q) 1 s t) ∧
        ((∀ c, (s.hk q).conv = some c → 8 ≤ hkIn c.entry) → t.evq = s.evq)) ∧
    (s.hkBusy q = false → Completes (.hkStop q w) s fun t => OnlyRegs [A.hkCtl q] s t)) ∧
  (∀ (s : State) (q : Quad) (w : Word), HkOpen q (A.hkCtl q) s → getF w F.hkCtl.stop = 0 → getF w F.hkCtl.go = 0 →
    getF w F.hkCtl.len = s.fld (A.hkCtl q) F.hkCtl.len → getF w F.hkCtl.len ≤ 64 →
    getF w F.hkCtl.cont = s.fld (A.hkCtl q) F.hkCtl.cont →
    (s.on (A.hkSts q) F.hkSts.urgBusy = true →
      Completes (.hkUrgGo q w) s fun t => t.fld (A.hkSts q) F.hkSts.urgMissed = 1 ∧ CountsUp (A.hkMissCnt q) 1 s t ∧
        Fires (1416 + q) s t) ∧
    (∀ c, s.on (A.hkSts q) F.hkSts.urgBusy = false → (s.hk q).conv = some c → c.kind = 0 → c.phase = 4 → 8 ≤ hkIn c.entry →
      (s.hk q).therm = [] → s.on (A.hkSts q) F.hkSts.refReady = true → 24 ≤ hkIn (s.reg (A.hkUrgCfg q)) →
      Completes (.hkUrgGo q w) s fun t => t.on (A.hkSts q) F.hkSts.urgBusy = true ∧ CountsUp (A.hkAbortCnt q) 1 s t ∧
        (∃ d, (t.hk q).conv = some d ∧ d.kind = 2 ∧ d.entry = s.reg (A.hkUrgCfg q) ∧ d.at_ = s.tm.now) ∧
        t.fld (A.hkSts q) F.hkSts.state = 5 ∧ (t.hk q).idx = (s.hk q).idx)) ∧
  (∀ (s : State) (q : Quad) (w : Word), HkOpen q (A.hkCfg q) s →
    (s.hkBusy q = true ∨ s.on (A.hkSts q) F.hkSts.urgBusy = true ∨ getF w F.hkCfg.ref = 3 →
      Completes (.hkCfgWrite q w) s fun t => Refused 0 0 (A.hkCfg q) s t) ∧
    (s.hkBusy q = false → s.on (A.hkSts q) F.hkSts.urgBusy = false → getF w F.hkCfg.ref ≠ 3 →
      (getF w F.hkCfg.ref ≠ s.fld (A.hkCfg q) F.hkCfg.ref →
        Completes (.hkCfgWrite q w) s fun t => Takes spec_hkCfg (A.hkCfg q) w s t ∧
          t.fld (A.hkSts q) F.hkSts.refReady = 0 ∧ t.hk q = { s.hk q with refAt := s.tm.now, refBad := false } ∧
          SameRegs [A.hkCfg q, A.hkSts q] s t) ∧
      (getF w F.hkCfg.ref = s.fld (A.hkCfg q) F.hkCfg.ref →
        Completes (.hkCfgWrite q w) s fun t => Takes spec_hkCfg (A.hkCfg q) w s t ∧ OnlyRegs [A.hkCfg q] s t))) ∧
  (∀ (s : State) (q : Quad) (entry : Word) (m : HkSample),
    let i := hkIn entry
    let code := s.hkCode q entry m
    let vref := if s.fld (A.hkCfg q) F.hkCfg.ref = 0 then 2500000000 else m.vref
    (i < 8 → 0 < m.x → 2 * (code * m.x - 2 ^ 23 * rfOhms (s.sn q i).cfg).natAbs ≤ m.x.toNat) ∧
    (8 ≤ i → i < 31 → 0 < vref →
      2 * (code * (hkFs i * vref : Nat) - 2 ^ 23 * m.x * 2500000000).natAbs ≤ hkFs i * vref) ∧
    (32 ≤ i → i ≤ 34 → 2 * (1000000 * code - 2 ^ 14 * m.x).natAbs ≤ 1000000)) ∧
  (∀ (s : State) (q : Quad) (c : HkConv) (m : HkSample), (s.hk q).conv = some c → c.phase = 4 → c.kind = 0 → c.e < 64 →
    8 ≤ hkIn c.entry → hkIn c.entry ≠ 31 →
    (s.tm.now < c.at_ + s.hkLen q c.entry → Completes (.hkConversionDone q m) s fun t => t = s) ∧
    (c.at_ + s.hkLen q c.entry ≤ s.tm.now → s.blkUp q = true → (s.hk q).heldRes = [] → (s.hk q).idx = c.e →
      s.fld (A.hkCtl q) F.hkCtl.len = c.e + 1 →
      s.hkBusy q = true → (s.hk q).gap = none → (s.hk q).therm = [] → (s.hk q).urg = false →
      (s.hk q).gen < 8 →
      let code := s.hkCode q c.entry m
      let v := clampI (-8388607) 8388607 code
      let lim := getF c.entry F.hkSeq.limEn = 1 ∧ (v ≠ code ∨ v < sext 24 (s.reg (A.hkLimLo q c.e)).toNat ∨
        sext 24 (s.reg (A.hkLimHi q c.e)).toNat < v)
      Completes (.hkConversionDone q m) s fun t => t.reg (A.hkRes q c.e) = toW v ∧
        t.fld (A.hkResFlg q c.e) F.hkResFlg.valid = 1 ∧ t.fld (A.hkResFlg q c.e) F.hkResFlg.input = hkIn c.entry ∧
        t.fld (A.hkResFlg q c.e) F.hkResFlg.ovr = (if v = code then 0 else 1) ∧
        (lim → t.fld (A.hkResFlg q c.e) F.hkResFlg.lim = 1 ∧ (1416 + q.val, (s.hk q).gen) ∈ t.evq) ∧
        (¬lim → t.fld (A.hkResFlg q c.e) F.hkResFlg.lim = 0) ∧
        t.fld (A.hkSts q) F.hkSts.done = 1 ∧ CountsUp (A.hkPassCnt q) 1 s t ∧ (1408 + q.val, (s.hk q).gen) ∈ t.evq ∧
        (t.hk q).conv = none ∧
        (s.on (A.hkCtl q) F.hkCtl.cont = false → t.hkBusy q = false) ∧
        (s.on (A.hkCtl q) F.hkCtl.cont = true → t.hkBusy q = true ∧ (t.hk q).gap = some s.tm.now))) ∧
  (∀ (s : State) (q : Quad) (g : Nat), (s.hk q).gap = some g →
    (s.tm.now < g + s.fld (A.hkCtl q) F.hkCtl.gapMs * 2500000 → Completes (.hkPassGapExpiry q) s fun t => t = s) ∧
    (g + s.fld (A.hkCtl q) F.hkCtl.gapMs * 2500000 ≤ s.tm.now → s.hkBusy q = true → 1 ≤ s.fld (A.hkCtl q) F.hkCtl.len → Converts q s →
      Completes (.hkPassGapExpiry q) s fun t => Begun q 0 s t ∧ (t.hk q).gap = none ∧ SameRegs [A.hkSts q] s t)) ∧
  (∀ (s : State) (q : Quad), s.live = false ∨ s.on (A.hkSts q) F.hkSts.refReady = true →
    (Completes (.hkRefReady q) s fun t => t = s) ∧ Completes (.hkRefFault q) s fun t => t = s) ∧
  (∀ (s : State) (q : Quad), s.live = true → s.on (A.hkSts q) F.hkSts.refReady = false →
    ((s.hk q).refAt + s.refSettle q ≤ s.tm.now → (s.hk q).conv = none →
      Completes (.hkRefReady q) s fun t => t.on (A.hkSts q) F.hkSts.refReady = true ∧ OnlyRegs [A.hkSts q] s t) ∧
    (∀ c, (s.hk q).refAt + s.refSettle q ≤ s.tm.now → (s.hk q).conv = some c → c.phase = 1 → 8 ≤ hkIn c.entry →
      let denied := hkIn c.entry < 24 ∧ s.enforce = true ∧ s.plotOf (8 * q + (hkIn c.entry - 8) % 8) ≠ none
      (¬denied → Completes (.hkRefReady q) s fun t => t.on (A.hkSts q) F.hkSts.refReady = true ∧
        (t.hk q).conv = some { c with phase := if getF c.entry F.hkSeq.settle = 0 then 4 else 2, at_ := s.tm.now }) ∧
      (denied → c.kind = 0 → c.e < 64 → (s.hk q).idx = c.e → s.blkUp q = true → (s.hk q).heldRes = [] →
        Completes (.hkRefReady q) s fun t => t.on (A.hkSts q) F.hkSts.refReady = true ∧ t.reg (A.hkRes q c.e) = 0 ∧
          t.fld (A.hkResFlg q c.e) F.hkResFlg.denied = 1 ∧ t.fld (A.hkResFlg q c.e) F.hkResFlg.valid = 1)) ∧
    (let gen := if s.hkBusy q then (s.hk q).gen else if s.on (A.hkSts q) F.hkSts.urgBusy then (s.hk q).urgGen else 0;
      (s.hk q).refAt + s.refSettle q + 25000000 ≤ s.tm.now → (s.hk q).refBad = false → gen < 8 →
      Completes (.hkRefFault q) s fun t => t.hkBusy q = false ∧ t.on (A.hkSts q) F.hkSts.urgBusy = false ∧
        t.fld (A.hkSts q) F.hkSts.refFault = 1 ∧ (t.hk q).conv = none ∧ (t.hk q).refBad = true ∧ t.evq = s.evq ++ [(1416 + q.val, gen)]))

/-- The sensor front ends (R424–R427). The four commands complete: an open circuit is found while the channel is converted (R424); GO and
the period check a front end in use that no conversion holds, unless checks run (R425, R426); a check ends after 100 ms (R425). An open circuit found in a conversion ends it with OPEN, counts and fires the channel's
source. GO and the period begin the checks of all front ends in use, unless checks run. A check ends after 100 ms with its
impedance; above 100 MΩ it is open, below 10 Ω a short. -/
def Obligations.SensorsAreChecked : Prop :=
  (∀ (s : State) (q : Quad) (c : HkConv), (s.hk q).conv = some c → hkIn c.entry < 8 → c.phase = 3 ∨ c.phase = 4 →
    ∃ t, exec (.sensOpenDetect q) s = .next t ∧ t.on (A.snSts q (hkIn c.entry)) F.snSts.openF = true ∧
      CountsUp (A.snOpenCnt q (hkIn c.entry)) 1 s t) ∧
  (∀ (s : State) (q : Quad) (w : Word) (k : Fin 8), HkOpen q (A.snChkCtl q) s → getF w F.snChkCtl.periodS ≠ 0 →
    s.snRunning q = false → s.snOn q k = true → s.converting q k = false →
    ∃ t, exec (.sensCheckGo q w) s = .next t ∧ (t.sn q k).chk = 2 ∧ t.on (A.snSts q k) F.snSts.checking = true) ∧
  (∀ (s : State) (q : Quad) (k : Fin 8), s.on (A.snChkCtl q) F.snChkCtl.en = true → s.fld A.glbSts F.glbSts.bootStage = 3 →
    (s.hk q).perAt + s.fld (A.snChkCtl q) F.snChkCtl.periodS * 2500000000 ≤ s.tm.now →
    s.snRunning q = false → s.snOn q k = true → s.converting q k = false →
    ∃ t, exec (.sensCheckPeriod q) s = .next t ∧ (t.hk q).perAt = s.tm.now ∧ (t.sn q k).chk = 2 ∧
      t.on (A.snSts q k) F.snSts.checking = true) ∧
  (∀ (s : State) (q : Quad) (k : Fin 8) (ohms : Nat) (ph : BitVec 16), (s.sn q k).chk = 2 →
    (s.sn q k).at_ + 250000000 ≤ s.tm.now →
    ∃ t, exec (.sensCheckDone q k ohms ph) s = .next t ∧ (t.sn q k).chk = 0 ∧ t.on (A.snSts q k) F.snSts.checking = false ∧
      (t.reg (A.snImpMag q k)).toNat = min ohms 0xFFFFFFFF ∧ t.fld (A.snImpPh q k) F.snImpPh.ph = ph.toNat) ∧
  (∀ (s : State) (q : Quad) (c : HkConv), (s.hk q).conv = some c → hkIn c.entry < 8 →
    let gen := if c.kind = 0 then (s.hk q).gen else (s.hk q).urgGen
    (c.phase = 3 ∨ c.phase = 4 → gen < 8 →
      Completes (.sensOpenDetect q) s fun t => t.on (A.snSts q (hkIn c.entry)) F.snSts.openF = true ∧
        t.on (A.snSts q (hkIn c.entry)) F.snSts.openNow = true ∧ CountsUp (A.snOpenCnt q (hkIn c.entry)) 1 s t ∧
        (1420 + 8 * q.val + hkIn c.entry, gen) ∈ t.evq ∧ SameBytes s t) ∧
    (c.phase ≠ 3 → c.phase ≠ 4 → Completes (.sensOpenDetect q) s fun t => t = s)) ∧
  (∀ (s : State) (q : Quad) (w : Word), HkOpen q (A.snChkCtl q) s → getF w F.snChkCtl.periodS ≠ 0 →
    (s.snRunning q = true →
      Completes (.sensCheckGo q w) s fun t => t.fld (A.snChkCtl q) F.snChkCtl.missed = 1 ∧ t.sns = s.sns ∧ t.evq = s.evq ∧
        SameRegs [A.snChkCtl q] s t) ∧
    (s.snRunning q = false → (∀ k, k < 8 → s.snOn q k = false) →
      Completes (.sensCheckGo q w) s fun t => Fires (1452 + q) s t ∧ t.sns = s.sns) ∧
    (s.snRunning q = false → (∃ k, k < 8 ∧ s.snOn q k = true) →
      Completes (.sensCheckGo q w) s fun t => ChecksBegin q s t ∧ t.evq = s.evq)) ∧
  (∀ (s : State) (q : Quad), s.on (A.snChkCtl q) F.snChkCtl.en = true → s.fld A.glbSts F.glbSts.bootStage = 3 →
    let due := (s.hk q).perAt + s.fld (A.snChkCtl q) F.snChkCtl.periodS * 2500000000
    (s.tm.now < due → Completes (.sensCheckPeriod q) s fun t => t = s) ∧
    (due ≤ s.tm.now →
      Completes (.sensCheckPeriod q) s fun t => (t.hk q).perAt = s.tm.now ∧ (s.snRunning q = false → ChecksBegin q s t) ∧
        (s.snRunning q = true → t.sns = s.sns ∧ t.regs = s.regs))) ∧
  (∀ (s : State) (q : Quad) (k : Fin 8) (ohms : Nat) (ph : BitVec 16), (s.sn q k).chk = 2 →
    (s.tm.now < (s.sn q k).at_ + 250000000 → Completes (.sensCheckDone q k ohms ph) s fun t => t = s) ∧
    ((s.sn q k).at_ + 250000000 ≤ s.tm.now → (s.hk q).chkGen < 8 →
      Completes (.sensCheckDone q k ohms ph) s fun t => (t.reg (A.snImpMag q k)).toNat = min ohms 0xFFFFFFFF ∧
        t.fld (A.snImpPh q k) F.snImpPh.ph = ph.toNat ∧ (t.sn q k).chk = 0 ∧
        t.on (A.snSts q k) F.snSts.checking = false ∧
        (100000000 < ohms → t.on (A.snSts q k) F.snSts.openF = true ∧ CountsUp (A.snOpenCnt q k) 1 s t ∧
          (1420 + 8 * q.val + k.val, (s.hk q).chkGen) ∈ t.evq) ∧
        (ohms < 10 → t.on (A.snSts q k) F.snSts.short = true ∧ (1420 + 8 * q.val + k.val, (s.hk q).chkGen) ∈ t.evq) ∧
        (10 ≤ ohms → ohms ≤ 100000000 →
          t.on (A.snSts q k) F.snSts.short = s.on (A.snSts q k) F.snSts.short ∧
          t.on (A.snSts q k) F.snSts.openF = s.on (A.snSts q k) F.snSts.openF)))

/-! ## Power, calibration, records (R428–R455) -/

/-- Power and heat (R429, R436–R442). Shutdown begins once: source 1,464, an abort on every plot, links OFF, the loader let
go; 250 µs later every domain but always-on is off. A hard trip latches its time and diode and switches every output stage
off, the Kelair lanes among them. The meters publish every 1 ms, 0 for the domains of a disabled tile (R428), and coming to exceed the limit
fires source 1,471. Each node moves by what flows to it, which is nothing in equilibrium; Tj is the hottest of nodes 0–31; warning,
throttling and shutdown follow its thresholds, with what R437 adds to it, once an anchor has been taken or missed for 60 s (log entry 238;
the network's coefficients and its rounding are free, log entry 237). -/
def Obligations.PowerAndHeat : Prop :=
  (∀ s : State, s.live = true →
    (s.shutAt = none → Completes .hostShutdown s fun t => t.shutAt = some s.tm.now ∧ FiresAmong 1464 s t ∧ t.cfg.img = none ∧
      t.ldState = 0 ∧ t.aon = { s.aon with shut := true, open_ := false } ∧ (s.aon.tripped = false → t.book.savedAt = s.tm.now) ∧ SameBytes s t ∧
      (∀ k : Link, t.klState k = 0) ∧
      ∀ p : Plot, s.stopped p = false → (s.sched p).abortAt = none → (t.sched p).abortAt = some (s.DT, false)) ∧
    (∀ at_, s.shutAt = some at_ → Completes .hostShutdown s fun t => OnlyRegs [A.pmCtl] s t)) ∧
  (∀ (s : State) (at_ : Nat), s.shutAt = some at_ →
    (s.tm.now < at_ + 625000 → Completes .shutdownPowerOff s fun t => t = s) ∧
    (s.aon.off = false → at_ + 625000 ≤ s.tm.now → Completes .shutdownPowerOff s fun t => t.aon.off = true ∧ t.live = false ∧
      t.on A.dtSts F.dtSts.running = false ∧ SameBytes s t ∧ ∀ k, (KMap.get {} t.biases k).on = false)) ∧
  (∀ (s : State) (d : Fin 4),
    (s.aon.tripped = true ∨ s.aon.por = true → Completes (.hardTrip d) s fun t => t = s) ∧
    (s.aon.tripped = false → s.aon.por = false → Completes (.hardTrip d) s fun t =>
      t.aon = { s.aon with tripped := true, latch := some (s.rtc, d.val), tripNew := true, open_ := false } ∧
      (∀ k, (KMap.get {} t.biases k).on = false) ∧ t.cfg = { s.cfg with img := none, hold := none } ∧
      (∀ k : Link, t.klState k = 0 ∧ t.klLanes k = 0) ∧ (∀ k i, t.ballOwn (.kelairTx k i) = .highZ) ∧
      t = { s with regs := t.regs, tie := t.tie, biases := t.biases, pair2 := t.pair2, cfg := t.cfg, aon := t.aon, links := t.links } ∧
      SameRegs ([A.cfgSts] ++ (List.range 8).map A.klSts ++ (List.range 32).map fun n => A.klLnSts (n / 4) (n % 4)) s t)) ∧
  (∀ (s : State) (mw mv ma : List Nat), s.aon.por = false → s.aon.off = false → s.shutAt = none →
    (s.tm.now < s.power.meterAt + 2500000 → Completes (.powerMeterUpdate mw mv ma) s fun t => t = s) ∧
    (s.power.meterAt + 2500000 ≤ s.tm.now →
      let on := fun (d : Nat) => 128 ≤ d ∨ s.tileOn (d / 4) = true
      let total := min (((List.range 168).map fun d => if on d then mw.getD d 0 else 0).sum) 0xFFFFF
      Completes (.powerMeterUpdate mw mv ma) s fun t => (t.reg A.pmTotal).toNat = total ∧ t.power.meterAt = s.tm.now ∧
        (∀ d, d < 168 → on d →
          t.fld (A.pmDom d) F.pmDom.mw = mw.getD d 0 % 2 ^ 20 ∧ t.fld (A.pmDom d) F.pmDom.mv = mv.getD d 0 % 2 ^ 12) ∧
        (∀ d, d < 168 → ¬on d → t.reg (A.pmDom d) = 0) ∧
        t.pair A.pmEnergyLo A.pmEnergyHi = (s.pair A.pmEnergyLo A.pmEnergyHi + (s.power.uj + total) / 1000) % 2 ^ 64 ∧
        ((s.reg A.pmLimit).toNat < total → t.fld A.pmSts F.pmSts.overLimit = 1) ∧
        t.power.overLim = decide ((s.reg A.pmLimit).toNat < total) ∧
        ((s.reg A.pmLimit).toNat < total → s.power.overLim = false → FiresAmong 1471 s t))) ∧
  (∀ (s : State) (T : Int), (∀ m, m < 40 → s.s16 (A.thNode m) = T) → (∀ d, d < 168 → s.fld (A.pmDom d) F.pmDom.mw = 0) →
    s.coldPlate = T → ∀ n, n < 40 → s.rcFlow n = 0) ∧
  (∀ (s : State) (up : List Bool), s.live = true → s.shutAt = none →
    (s.tm.now < s.power.modelAt + 2500000 → Completes (.thermalModelUpdate up) s fun t => t = s) ∧
    (s.power.modelAt + 2500000 ≤ s.tm.now →
      Completes (.thermalModelUpdate up) s fun t => t.power.modelAt = s.tm.now ∧
        (∀ n, n < 40 → t.s16 (A.thNode n) =
          clampI (-32768) 32767 (s.s16 (A.thNode n) + s.rcFlow n / 2 ^ 24 + if up.getD n false then 1 else 0)) ∧
        (∀ n, n < 32 → t.s16 (A.thNode n) ≤ t.s16 A.thTj) ∧
        t.fld A.thSts F.thSts.hotNode < 32 ∧ t.s16 (A.thNode (t.fld A.thSts F.thSts.hotNode)) = t.s16 A.thTj ∧
        let stale := s.on A.thSts F.thSts.anchorStale
        let above : Int := if stale then 160 else if s.power.errAdds then s.fld A.thAnchor F.thAnchor.err else 0
        (s.power.anchorOk = 0 → stale = false → t.evq = s.evq ∧ t.shutAt = none) ∧
        (s.power.anchorOk ≠ 0 ∨ stale = true →
          (((s.fld A.thCtl F.thCtl.warn * 16 : Nat) : Int) ≤ t.s16 A.thTj + above → t.on A.thSts F.thSts.warn = true ∧
            (s.on A.thSts F.thSts.warn = false → FiresAmong 1460 s t)) ∧
          (t.s16 A.thTj + above < (s.fld A.thCtl F.thCtl.warn : Int) * 16 - 32 → t.on A.thSts F.thSts.warn = false) ∧
          ((t.shutAt).isSome = true ↔ ((s.fld A.thCtl F.thCtl.shut * 16 : Nat) : Int) ≤ t.s16 A.thTj + above)))) ∧
  (∀ s : State, s.live = true → s.shutAt = none → s.power.throttleAt + 2500000 ≤ s.tm.now →
    s.power.anchorOk ≠ 0 ∨ s.on A.thSts F.thSts.anchorStale = true →
    let th : Int := (s.fld A.thCtl F.thCtl.throt : Int) * 16
    let l := s.fld A.thSts F.thSts.level
    let level := fun (n : Nat) (t : State) => t.fld A.thSts F.thSts.level = n ∧
      t.fld A.thSts F.thSts.throttling = (if n = 0 then 0 else 1) ∧ t.power.throttleAt = s.tm.now
    (s.on A.thCtl F.thCtl.thrEn = true → th ≤ s.tjEff →
      Completes .throttleEval s fun t => level (min 16 (l + 1)) t ∧ (l = 0 → FiresAmong 1461 s t)) ∧
    (s.on A.thCtl F.thCtl.thrEn = true → s.tjEff < th → th - 32 ≤ s.tjEff → Completes .throttleEval s (level l)) ∧
    (s.on A.thCtl F.thCtl.thrEn = false ∨ s.tjEff < th - 32 →
      Completes .throttleEval s fun t => level (l - 1) t ∧ (l = 1 → FiresAmong 1462 s t))) ∧
  (∀ s : State, s.power.anchoring = true → s.thermalIdle = true → s.live = true →
    Completes .thermalAnchor s fun t => t.power.anchoring = false ∧
      (∀ i, i < 8 → s.diode i = none → t.on (A.thDiode i) F.thDiode.valid = false) ∧
      (∀ i d, i < 8 → s.diode i = some d → t.reg (A.thDiode i) = 0x80000000 ||| w16 d ∧
        t.reg (A.thNode (diodeNode i)) = w16 d ∧ t.power.anchorOk = s.tm.now + 1 ∧ t.on A.thSts F.thSts.anchorStale = false) ∧
      ((∀ i, i < 8 → s.diode i = none) → t.power.anchorOk = s.power.anchorOk ∧ t.evq = s.evq))

/-- Voltage, clocks and idle converters (R432, R434, R435, R465). Every 10 µs a domain moves one step towards its margin band,
within its limits; below the limit of the band it is held and reported. An emergency raises it at once, by one step in 5 µs until the margin is back, and counts. Requests to
the regulator repeat until acknowledged, at any time, and hold the domains below the last acknowledged one meanwhile. A domain that is off is left alone (R428). An island clock follows the code that its monitors allow, from FMIN to FMAX; below
FMIN it raises its domain. A converter enters power-down in a gap long enough, wakes before the announcement and is back after
its wake time. -/
def Obligations.VoltageClocksAndConverters : Prop :=
  (∀ (s : State) (d : Fin 168) (margin : BitVec 6), s.domOn d = false →
    (Completes (.avsStep d margin) s fun t => t = s) ∧ Completes (.avsEmergency d margin) s fun t => t = s) ∧
  (∀ (s : State) (d : Fin 168) (margin : BitVec 6), adapted d = true → s.live = true → s.domOn d = true →
    let m := margin.toNat
    let v := s.fld (A.avsDom d) F.avsDom.vset
    let lo := s.fld A.avsCtl F.avsCtl.marginLo
    let hi := s.fld A.avsCtl F.avsCtl.marginHi
    let src := if d.val < 128 then tileSrc (d / 4) 29 else 1474
    let moved := fun (n : Nat) (t : State) => t.fld (A.avsDom d) F.avsDom.vset = n ∧ t.fld (A.avsDom d) F.avsDom.margin = m ∧
      KMap.get 0 t.avsAt d = s.tm.now + 1
    let moves := fun (n : Nat) (t : State) => moved n t ∧ SameRegs [A.avsDom d] s t ∧ t.evq = s.evq
    (s.stepAfter d (if d.val ∈ s.power.emerg then 12500 else 25000) = false → Completes (.avsStep d margin) s fun t => t = s) ∧
    (s.stepAfter d 12500 = true → d.val ∈ s.power.emerg →
      (lo ≤ m → Completes (.avsStep d margin) s fun t => moves v t ∧ t.power.emerg = s.power.emerg.erase d.val) ∧
      (m < lo → v < (s.vLimits d).2 → v < 63 → Completes (.avsStep d margin) s fun t => moves (v + 1) t ∧ t.power.emerg = s.power.emerg)) ∧
    (s.stepAfter d 25000 = true → d.val ∉ s.power.emerg →
      (m < lo → (s.vLimits d).2 ≤ v → s.on (A.avsDom d) F.avsDom.atLimit = false →
        Completes (.avsStep d margin) s fun t => moved v t ∧ t.on (A.avsDom d) F.avsDom.atLimit = true ∧
          Fires src s t ∧ SameRegs [A.avsDom d, A.evfSrcSts (src / 32)] s t) ∧
      (s.on A.avsCtl F.avsCtl.en = false ∨ s.on A.avsCtl F.avsCtl.freeze = true ∨ s.mayStep d = false → lo ≤ m ∨ v < (s.vLimits d).2 →
        Completes (.avsStep d margin) s (moves v)) ∧
      (s.on A.avsCtl F.avsCtl.en = true → s.on A.avsCtl F.avsCtl.freeze = false → s.mayStep d = true →
        (m < lo → v < (s.vLimits d).2 → v < 63 → Completes (.avsStep d margin) s (moves (v + 1))) ∧
        (lo ≤ m → hi < m → (s.vLimits d).1 < v → Completes (.avsStep d margin) s (moves (v - 1))) ∧
        (lo ≤ m → m ≤ hi → Completes (.avsStep d margin) s (moves v)))) ∧
    (2 ≤ m → Completes (.avsEmergency d margin) s fun t => t = s) ∧
    (m < 2 → Completes (.avsEmergency d margin) s fun t => d.val ∈ t.power.emerg ∧ t.fld (A.avsDom d) F.avsDom.margin = m ∧
      (d.val ∉ s.power.emerg → CountsUp A.avsEmergCnt 1 s t) ∧ (d.val ∈ s.power.emerg → t.reg A.avsEmergCnt = s.reg A.avsEmergCnt) ∧
      (s.stepAfter d 12500 = true → v < (s.vLimits d).2 → v < 63 → t.fld (A.avsDom d) F.avsDom.vset = v + 1) ∧
      (s.stepAfter d 12500 = false → t.fld (A.avsDom d) F.avsDom.vset = v))) ∧
  (∀ (s : State) (since : Nat), s.power.railAt = some since → s.live = true →
    (Completes (.avsRequestRetry true) s fun t =>
      t = { s with power := { s.power with railAck := s.power.railReq, railAt := none, railBad := false } }) ∧
    (s.tm.now < since + 2500000 → Completes (.avsRequestRetry false) s fun t => t = { s with power := { s.power with railBad := true } }) ∧
    (since + 2500000 ≤ s.tm.now → Completes (.avsRequestRetry false) s fun t =>
      t = { s with out := s.out ++ [.avs s.power.railReq], power := { s.power with railAt := some s.tm.now, railBad := true } })) ∧
  (∀ s : State, s.power.railAt = none ∨ s.live = false → ∀ ack, Completes (.avsRequestRetry ack) s fun t => t = s) ∧
  (∀ (s : State) (i : Tile) (k : Fin 6) (code : BitVec 7) (margin : BitVec 6), s.tileOn i = true → s.live = true →
    let lo := s.fld (A.islLim i k) F.islLim.fmin
    let hi := s.fld (A.islLim i k) F.islLim.fmax
    let free := s.on (A.islCtl i) F.islCtl.en && !s.on (A.islCtl i) F.islCtl.freeze
    let freq := if free then max lo (min hi code.toNat) else s.fld (A.islSts i k) F.islSts.freq
    Completes (.islandClockStep i k code margin) s (fun t => t.fld (A.islSts i k) F.islSts.margin = margin.toNat ∧
      t.fld (A.islSts i k) F.islSts.freq = freq ∧
      (lo ≤ code.toNat ∨ freq ≠ lo → OnlyRegs [A.islSts i k] s t) ∧
      (code.toNat < lo → freq = lo → t.on (A.islSts i k) F.islSts.atMin = true ∧ 4 * i.val + k.val / 2 ∈ t.power.emerg ∧
        (s.on (A.islSts i k) F.islSts.atMin = false → FiresAmong (tileSrc i 28) s t))) ∧
    Completes (.clockStretch i k) s fun t => t = { s with out := s.out ++ [.stretch i k] }) ∧
  (∀ (s : State) (i : Tile) (c : Converter) (o : Fin 14) (n : Nat), convIdx c o = some n →
    let x := s.conv i n
    (∀ p, s.plotOf i = some p → s.tileOn i = true → s.pdOn i c = true → x.st = 0 →
      (c = .flux → x.zero = 1024 ∧ s.fld (A.fxIdle i o) F.fxIdle.idleCode = 0) → s.gapQualifies p (wakeTicks c) = true →
      Completes (.converterPowerDown i c o) s fun t => t.conv i n = { x with st := 1, at_ := s.DT } ∧
        t.on (A.tpwSts i) F.tpwSts.downNow = true ∧
        (s.on (A.tpwSts i) F.tpwSts.downNow = false → CountsUp (A.tpwPdCnt i) 1 s t) ∧
        SameRegs [A.tpwSts i, A.tpwPdCnt i] s t) ∧
    (∀ p f, s.plotOf i = some p → x.st = 1 → (s.sched p).fixed = some f → f.start ≤ s.DT + s.lead p + wakeTicks c →
      x.at_ + 2500 ≤ s.DT →
      Completes (.converterWake i c o) s fun t => t.conv i n = { x with st := 2, at_ := s.DT } ∧ t = { s with convs := t.convs }) ∧
    (x.st = 2 →
      (s.DT < x.at_ + wakeTicks c → Completes (.converterAwake i c o) s fun t => t = s) ∧
      (x.at_ + wakeTicks c ≤ s.DT → Completes (.converterAwake i c o) s fun t => t.conv i n = { x with st := 0, at_ := 0 } ∧
        SameRegs [A.tpwSts i] s t ∧
        t.on (A.tpwSts i) F.tpwSts.downNow = ((List.range 19).any fun m => (t.conv i m).st != 0))))

/-- Calibration (R443–R449). A slot runs the next task of every tile of its plot: an accepted result ends the rejections, the
third rejection in a row fails the task; a failed self-test marks its sequencer. A plot whose slot is overdue asks for one and fires source
1,465. Device tasks run every MIN_MS, the store is saved, sealed and with its CRC-32C, every 60 s to its older copy, and where no copy is
valid source 1,466 fires. The calibration of a boot runs every task of the enabled tiles and ends with BOOT_DONE. The cellar
book and the calendar (R450, R455, R323). The counters are saved every 60 s and on request, to the older of their two copies,
with source 1,468; a request during a restart of the management cores waits; where no copy is valid ERR sets and source 1,469 fires.
RTC_CTL.SET loads the calendar and ends INVALID; the loss of VBAT while VDD_IO is down (R463) sets it to 0 and sets INVALID, and a device
that runs reports it. After a hard trip nothing is written to the
MRAM (R442). -/
def Obligations.CalibrationCountersAndCalendar : Prop :=
  ((∀ (s : State) (p : Plot) (i : Tile) (results : List CalResult), s.slotDue p = true → s.tilesOf p = [i.val] →
    KMap.get 0 s.cal.next i < 32 →
    let r := results.getD i ⟨false, 0, 0⟩
    let u := KMap.get 0 s.cal.next i
    let rej := s.fld (A.calQ i u) F.calQ.rej
    let fails := r.quality ≠ 0 ∧ selfTests u r.seq = true ∧ s.failed i r.seq = false
    Completes (.skimSlot p results) s fun t => KMap.get 0 t.cal.slotAt p = s.tm.now ∧ KMap.get 0 t.cal.slotEnd p = s.DT + 2999 ∧
      KMap.get 0 t.cal.next i = (u + 1) % 32 ∧ t.fld (A.calQ i u) F.calQ.q = r.quality.toNat ∧
      (¬fails → SameRegs (A.calQ i u :: (List.range 48).map A.evfSrcSts) s t) ∧
      (fails → t.failed i r.seq = true ∧ FiresAmong (tileSrc i 24) s t) ∧
      (r.within = true → t.fld (A.calQ i u) F.calQ.rej = 0 ∧
        KMap.get 0 t.cal.trims (32 * i + u) = BitVec.ofNat 32 (r.quality.toNat + 0x10000)) ∧
      (r.within = false → t.fld (A.calQ i u) F.calQ.rej = min 255 (rej + 1) ∧ t.cal.trims = s.cal.trims ∧
        (rej = 2 → t.on (A.calQ i u) F.calQ.fail = true ∧ FiresAmong (tileSrc i 26) s t)) ∧
      (s.beyond i u (sext 16 r.quality.toNat) = true → t.on (A.calQ i u) F.calQ.qlim = true ∧ FiresAmong (tileSrc i 27) s t)) ∧
  (∀ (s : State) (p : Plot), s.live = true → s.on A.calCtl F.calCtl.en = true → s.stopped p = false → p.val ∉ s.cal.req →
    s.on (A.klCoord p) F.klCoord.en = false → s.fld A.calCtl F.calCtl.maxS * 1000 ≤ s.calAge p →
    Completes (.calTimerExpiry p) s fun t => t.cal = { s.cal with req := p.val :: s.cal.req } ∧ Fires 1465 s t) ∧
  (∀ (s : State) (p : Plot), s.calAsked p = true → Completes (.calTimerExpiry p) s fun t => t = s) ∧
  (∀ (s : State) (i : Fin 34) (r : CalResult), s.live = true → s.shutAt = none →
    (s.tm.now < KMap.get 0 s.cal.devAt i + s.fld A.calCtl F.calCtl.minMs * 2500000 →
      Completes (.deviceCalTask (.tiu i) r) s fun t => t = s) ∧
    (KMap.get 0 s.cal.devAt i + s.fld A.calCtl F.calCtl.minMs * 2500000 ≤ s.tm.now →
      Completes (.deviceCalTask (.tiu i) r) s fun t => t.reg (A.calTiuQ i) = BitVec.ofNat 32 r.quality.toNat ∧
        t.cal.devAt = KMap.set 0 s.cal.devAt i s.tm.now ∧ (r.within = true → KMap.get 0 t.cal.rej i = 0 ∧ t.evq = s.evq) ∧
        (r.within = false → KMap.get 0 t.cal.rej i = KMap.get 0 s.cal.rej i + 1 ∧ t.cal.trims = s.cal.trims ∧
          (KMap.get 0 s.cal.rej i = 2 → t.on A.calSts F.calSts.devFail = true ∧ Fires 1467 s t)))) ∧
  (∀ s : State, s.live = true → s.shutAt = none →
    (s.tm.now < s.cal.savedAt + 150000000000 → Completes .calStoreSave s fun t => t = s) ∧
    (s.aon.tripped = true → Completes .calStoreSave s fun t => t = s) ∧
    (s.aon.tripped = false → s.cal.savedAt + 150000000000 ≤ s.tm.now →
      Completes .calStoreSave s fun t => t.cal.savedAt = s.tm.now ∧ t.cal.trims = s.cal.trims ∧
        (s.cal.copyA = none → (∃ c, t.cal.copyA = some c ∧ SealedTrims s c) ∧ t.cal.copyB = s.cal.copyB) ∧
        ∀ a b, s.cal.copyA = some a → s.cal.copyB = some b →
          (a.seq < b.seq → (∃ c, t.cal.copyA = some c ∧ c.seq = b.seq + 1 ∧ SealedTrims s c) ∧ t.cal.copyB = s.cal.copyB) ∧
          (b.seq ≤ a.seq → (∃ c, t.cal.copyB = some c ∧ c.seq = a.seq + 1 ∧ SealedTrims s c) ∧ t.cal.copyA = s.cal.copyA))) ∧
  (∀ s : State, (∀ c, s.cal.copyA = some c ∨ s.cal.copyB = some c → c.valid = false) →
    (s.calRestore).on A.calSts F.calSts.storeErr = true ∧ FiresAmong 1466 s s.calRestore ∧ (s.calRestore).cal = s.cal) ∧
  (∀ (s : State) (tiles : List (List CalResult)) (tiu lanes : List CalResult), s.live = true →
    (s.fld A.glbSts F.glbSts.bootStage = 2 → s.on A.calSts F.calSts.bootDone = false →
      Completes (.bootCalibration tiles tiu lanes) s fun t => t.on A.calSts F.calSts.bootDone = true ∧ SameBytes s t ∧
        t.fld A.glbSts F.glbSts.bootStage = 2 ∧
        ∀ (g : ImgX) (i : Tile) (rs : List CalResult), s.cfg.img = some g → (leAt g.header 32 4).testBit i = true →
          s.cfg.trained.testBit (i / 8) = true → tiles.getD i [] = rs → ∀ u r, u < 32 → rs[u]? = some r →
          t.fld (A.calQ i u) F.calQ.q = r.quality.toNat) ∧
    (s.fld A.glbSts F.glbSts.bootStage ≠ 2 ∨ s.on A.calSts F.calSts.bootDone = true →
      Completes (.bootCalibration tiles tiu lanes) s fun t => t = s))) ∧
  ((∀ s : State, s.live = true →
    let saved := fun (t : State) => t.book.savedAt = s.tm.now ∧ t.book.want = false ∧ FiresAmong 1468 s t ∧
      t.reg A.cbLastSave = 0 ∧ SameBytes s t ∧
      (s.book.copyA = none → (∃ c, t.book.copyA = some c ∧ c.valid = true) ∧ t.book.copyB = s.book.copyB) ∧
      ∀ a b, s.book.copyA = some a → s.book.copyB = some b →
        (a.seq < b.seq → (∃ c, t.book.copyA = some c ∧ c.seq = b.seq + 1 ∧ c.valid = true) ∧ t.book.copyB = s.book.copyB) ∧
        (b.seq ≤ a.seq → (∃ c, t.book.copyB = some c ∧ c.seq = a.seq + 1 ∧ c.valid = true) ∧ t.book.copyA = s.book.copyA)
    (s.aon.tripped = true → Completes .cbSave s fun t => t = s) ∧
    (s.aon.tripped = false → s.henRestart = none → s.shutAt = none → s.book.want = true ∨ s.book.savedAt + 150000000000 ≤ s.tm.now →
      Completes .cbSave s saved) ∧
    (s.book.want = false → s.tm.now < s.book.savedAt + 150000000000 → Completes .cbSave s fun t => t = s) ∧
    (s.aon.tripped = false → s.henRestart = none → Completes .cbSaveRequest s saved) ∧
    (s.henRestart.isSome = true → Completes .cbSaveRequest s fun t => t.book = { s.book with want := true } ∧
      t = { s with regs := t.regs, tie := t.tie, book := t.book } ∧ SameRegs [A.cbCtl] s t) ∧
    Completes .rtcSet s (fun t => t.pair A.rtcSecLo A.rtcSecHi = s.pair A.rtcSetLo A.rtcSetHi ∧
      t.on A.rtcSts F.rtcSts.invalid = false ∧
      t.reg A.cbLogHead = (if s.aon.tripped then s.reg A.cbLogHead else s.reg A.cbLogHead + 1))) ∧
  (∀ s : State, (∀ c, s.book.copyA = some c ∨ s.book.copyB = some c → c.valid = false) →
    (s.cbRestore).on A.cbSts F.cbSts.err = true ∧ FiresAmong 1469 s s.cbRestore) ∧
  (∀ s : State, s.aon.vddIo = true → Completes .vbatLoss s fun t => t = s) ∧
  (∀ s : State, s.aon.vddIo = false → Completes .vbatLoss s fun t =>
    t.pair A.rtcSecLo A.rtcSecHi = 0 ∧ t.on A.rtcSts F.rtcSts.invalid = true ∧
    (s.live = true → FiresAmong 1470 s t ∧
      t.reg A.cbLogHead = (if s.aon.tripped then s.reg A.cbLogHead else s.reg A.cbLogHead + 1)) ∧
    (s.live = false → t.aon.invalid = some s.rtc ∧ t.evq = s.evq)))

/-! ## Start-up, clocks and service ports (R20, R300, R321, R340, R460–R484) -/

/-- The board-management bus and boundary scan (R340, R479, R484). Each read answers with the byte count, the register's bytes
and a check; it changes nothing else, and without VDD_IO none answers (R463). Under plot enforcement the scan port offers only BYPASS, IDCODE and SAMPLE. The output balls
(R146, R149, R162, R254, R411, R427, R461): high-impedance before configuration, in reset and after a hard trip, but those of the PCI
Express and Ethernet links and ALERT_n, which come out of it with the reset; then an RF output carries codes
of its DAC, zero code under a mute, and a flux output IDLE_CODE under a forced hold. HIGHZ releases the digital balls, EXTEST
and CLAMP drive them. -/
def Obligations.ServicePortsAnswer : Prop :=
  (∀ (s : State) (c : Instr), s.aon.vddIo = false → c = .smbReadGlbId ∨ c = .smbReadGlbSts ∨ c = .smbReadTj ∨ c = .smbReadPmTotal ∨
    c = .smbReadAonSts ∨ c = .smbReadTripLatch ∨ c = .smbReadState → Completes c s fun t => t = s) ∧
  (∀ (s : State) (sec d : Nat), s.aon.vddIo = true →
    let answers := fun (bs : List Byte) (t : State) =>
      ∃ pec : Byte, t = { s with out := s.out ++ [.smbus (leBytes 1 bs.length ++ bs ++ [pec])] }
    Completes .smbReadGlbId s (answers (wordBytes (s.viewAt A.glbId))) ∧
    Completes .smbReadGlbSts s (answers (wordBytes (s.viewAt A.glbSts))) ∧
    Completes .smbReadTj s (answers (leBytes 2 (s.viewAt A.thTj).toNat)) ∧
    Completes .smbReadPmTotal s (answers (wordBytes (s.viewAt A.pmTotal))) ∧
    Completes .smbReadAonSts s (answers (wordBytes (s.viewAt A.aonSts))) ∧
    (s.aon.latch = some (sec, d) → Completes .smbReadTripLatch s (answers (leBytes 8 sec))) ∧
    (s.aon.latch = none → Completes .smbReadTripLatch s (answers (leBytes 8 0))) ∧
    (s.aon.por = true ∨ s.aon.sys = true → Completes .smbReadState s (answers [2])) ∧
    (s.live = true → s.shutAt = none → Completes .smbReadState s (answers [0])) ∧
    (s.aon.por = false → s.aon.sys = false → s.aon.off = true ∨ s.shutAt.isSome = true → Completes .smbReadState s (answers [1]))) ∧
  (∀ (s : State) (balls cells : List Bool),
    let scans := fun (ir : Nat) (cs bits : List Bool) (t : State) =>
      t = { s with jtag := { ir := ir, cells := cs, capture := bits }, out := s.out ++ [.tap bits] }
    Completes .jtagBypass s (scans 0 s.jtag.cells [false]) ∧
    Completes .jtagIdcode s (fun t => t.jtag.ir = 1 ∧ (∃ bits, t.out = s.out ++ [.tap bits] ∧ bits.length = 32 ∧ bits[0]? = some true) ∧
      t = { s with jtag := t.jtag, out := t.out }) ∧
    Completes (.jtagSample balls) s (scans 2 s.jtag.cells balls) ∧
    (s.enforce = false →
      Completes (.jtagPreload cells) s (scans 3 cells cells) ∧
      Completes .jtagExtest s (scans 4 s.jtag.cells s.jtag.cells) ∧
      Completes .jtagClamp s (scans 5 s.jtag.cells [false]) ∧
      Completes .jtagHighz s (scans 6 s.jtag.cells [false]) ∧
      Completes .jtagExtestPulse s (scans 7 s.jtag.cells s.jtag.cells) ∧
      Completes .jtagExtestTrain s (scans 8 s.jtag.cells s.jtag.cells)) ∧
    (s.enforce = true → ∀ c, c = .jtagPreload cells ∨ c = .jtagExtest ∨ c = .jtagClamp ∨ c = .jtagHighz ∨ c = .jtagExtestPulse ∨
      c = .jtagExtestTrain → Completes c s (scans 0 s.jtag.cells [false]))) ∧
  (∀ (s : State) (i o f n q k : Nat),
    (s.drives = false → ∀ b, b = .xyOut i o ∨ b = .probe i ∨ b = .flux i f ∨ b = .bias q k ∨ b = .marker i n ∨ b = .vector i n ∨
      b = .ppsOut ∨ b = .pairAct ∨ b = .kelairTx n k → s.ballOwn b = .highZ) ∧
    (s.live = false ∨ s.aon.tripped = true → ∀ b, b = .pcieTx n ∨ b = .ethTx n ∨ b = .alertN ∨ b = .xspiRstN → s.ballOwn b = .highZ) ∧
    (s.live = true → s.aon.tripped = false → s.ballOwn (.pcieTx n) = .symbols ∧ s.ballOwn (.ethTx n) = .symbols ∧
      (s.on A.evfAlertSts F.evfAlertSts.asserted = true → s.ballOwn .alertN = .level false)) ∧
    (s.drives = true → s.klState n = 0 ∨ 4 ≤ s.klState n → s.klState n ≠ 7 → s.ballOwn (.kelairTx n k) = .idle) ∧
    (s.fld A.glbSts F.glbSts.bootStage ≠ 3 → s.ball (.sensor q k) = .highZ) ∧
    (s.drives = true → s.tileOn i = true →
      (s.ball (.xyOut i o) = .rf ((List.range 8).map (s.xyCode i o)) ∧ ∀ j, -8192 ≤ s.xyCode i o j ∧ s.xyCode i o j ≤ 8191) ∧
      (s.muted i o = true → s.ball (.xyOut i o) = .rf (List.replicate 8 0)) ∧
      (s.muted i 4 = true → s.ball (.probe i) = .rf (List.replicate 8 0)) ∧
      (s.muted i (5 + f) = true → s.ball (.flux i f) = .code (sext 16 (s.fld (A.fxIdle i f) F.fxIdle.idleCode))) ∧
      s.ballOwn (.vector i n) = .level (s.vectorLevel i n)) ∧
    (s.jtag.ir = 6 → s.ball (.marker i n) = .highZ ∧ s.ball (.vector i n) = .highZ) ∧
    (s.jtag.ir = 4 ∨ s.jtag.ir = 5 → s.ball (.marker i n) = .scan ∧ s.ball (.vector i n) = .scan))
end

