-- ==== Sys2Proof/Laws/Exec.lean ====
section
/-! SUPPORT. What `exec` runs for each command: its meaning. -/

namespace Sys2Proof.Machine

@[simp] theorem exec_registerWrite (win : Window) (off size : Nat) (w : Word) (s : State) :
    exec (.registerWrite win off size w) s = execRegisterWrite win off size w s := rfl
@[simp] theorem exec_snapshotRead (win : ReadWin) (off size : Nat) (s : State) :
    exec (.snapshotRead win off size) s = execSnapshotRead win off size s := rfl
@[simp] theorem exec_readToClear (win : Window) (off size : Nat) (s : State) :
    exec (.readToClear win off size) s = execReadToClear win off size s := rfl
@[simp] theorem exec_glbErrAddrClear (s : State) : exec (.glbErrAddrClear) s = execGlbErrAddrClear s := rfl
@[simp] theorem exec_memWindowWrite (off : Nat) (data : List Byte) (s : State) :
    exec (.memWindowWrite off data) s = execMemWindowWrite off data s := rfl
@[simp] theorem exec_muteAll (on : Bool) (s : State) : exec (.muteAll on) s = execMuteAll on s := rfl
@[simp] theorem exec_drainAll (mute : Bool) (s : State) : exec (.drainAll mute) s = execDrainAll mute s := rfl
@[simp] theorem exec_bridgeTraining (cbr blk : BitVec 4) (s : State) :
    exec (.bridgeTraining cbr blk) s = execBridgeTraining cbr blk s := rfl
@[simp] theorem exec_bridgeParityError (q : Quad) (outs : List (Fin 8 × Fin 19)) (adc : BitVec 8) (s : State) :
    exec (.bridgeParityError q outs adc) s = execBridgeParityError q outs adc s := rfl
@[simp] theorem exec_biasFrameCrcFail (q : Quad) (f : BiasFrame) (s : State) :
    exec (.biasFrameCrcFail q f) s = execBiasFrameCrcFail q f s := rfl
@[simp] theorem exec_biasLinkLost (q : Quad) (s : State) : exec (.biasLinkLost q) s = execBiasLinkLost q s := rfl
@[simp] theorem exec_biasLinkRetrain (q : Quad) (s : State) : exec (.biasLinkRetrain q) s = execBiasLinkRetrain q s := rfl
@[simp] theorem exec_dtArmNow (w : Word) (s : State) : exec (.dtArmNow w) s = execDtArmNow w s := rfl
@[simp] theorem exec_dtArmPps (w : Word) (s : State) : exec (.dtArmPps w) s = execDtArmPps w s := rfl
@[simp] theorem exec_dtLoadCancel (w : Word) (s : State) : exec (.dtLoadCancel w) s = execDtLoadCancel w s := rfl
@[simp] theorem exec_dtLoad (s : State) : exec (.dtLoad) s = execDtLoad s := rfl
@[simp] theorem exec_runStart (p : Plot) (w : Word) (s : State) : exec (.runStart p w) s = execRunStart p w s := rfl
@[simp] theorem exec_runDrain (p : Plot) (w : Word) (s : State) : exec (.runDrain p w) s = execRunDrain p w s := rfl
@[simp] theorem exec_runAbort (p : Plot) (w : Word) (s : State) : exec (.runAbort p w) s = execRunAbort p w s := rfl
@[simp] theorem exec_clrCount (p : Plot) (w : Word) (s : State) : exec (.clrCount p w) s = execClrCount p w s := rfl
@[simp] theorem exec_abortTakesEffect (p : Plot) (s : State) : exec (.abortTakesEffect p) s = execAbortTakesEffect p s := rfl
@[simp] theorem exec_shotTrigger (i : Fin 16) (rising : Bool) (s : State) :
    exec (.shotTrigger i rising) s = execShotTrigger i rising s := rfl
@[simp] theorem exec_shotEnd (p : Plot) (s : State) : exec (.shotEnd p) s = execShotEnd p s := rfl
@[simp] theorem exec_nextStartFix (p : Plot) (s : State) : exec (.nextStartFix p) s = execNextStartFix p s := rfl
@[simp] theorem exec_shotAnnounce (p : Plot) (s : State) : exec (.shotAnnounce p) s = execShotAnnounce p s := rfl
@[simp] theorem exec_shotStart (p : Plot) (s : State) : exec (.shotStart p) s = execShotStart p s := rfl
@[simp] theorem exec_shotCut (p : Plot) (s : State) : exec (.shotCut p) s = execShotCut p s := rfl
@[simp] theorem exec_shotRecordWrite (p : Plot) (s : State) : exec (.shotRecordWrite p) s = execShotRecordWrite p s := rfl
@[simp] theorem exec_tqEntryArrival (t : Tile) (q : Seq) (s : State) :
    exec (.tqEntryArrival t q) s = execTqEntryArrival t q s := rfl
@[simp] theorem exec_queueStallEnd (t : Tile) (q : Seq) (cyc : Nat) (s : State) :
    exec (.queueStallEnd t q cyc) s = execQueueStallEnd t q cyc s := rfl
@[simp] theorem exec_endMarkerExecute (t : Tile) (q : Seq) (s : State) :
    exec (.endMarkerExecute t q) s = execEndMarkerExecute t q s := rfl
@[simp] theorem exec_nop (t : Tile) (q : Seq) (e : Ecc) (s : State) : exec (.nop t q e) s = execNop t q e s := rfl
@[simp] theorem exec_endI (t : Tile) (q : Seq) (e : Ecc) (s : State) : exec (.endI t q e) s = execEnd t q e s := rfl
@[simp] theorem exec_br (t : Tile) (q : Seq) (e : Ecc) (s : State) : exec (.br t q e) s = execBr t q e s := rfl
@[simp] theorem exec_brmw (t : Tile) (q : Seq) (e : Ecc) (s : State) : exec (.brmw t q e) s = execBrmw t q e s := rfl
@[simp] theorem exec_brmwDecisionValid (t : Tile) (q : Seq) (cyc : Nat) (s : State) :
    exec (.brmwDecisionValid t q cyc) s = execBrmwDecisionValid t q cyc s := rfl
@[simp] theorem exec_brmwDeadline (t : Tile) (q : Seq) (cyc : Nat) (s : State) :
    exec (.brmwDeadline t q cyc) s = execBrmwDeadline t q cyc s := rfl
@[simp] theorem exec_loop (t : Tile) (q : Seq) (e : Ecc) (s : State) : exec (.loop t q e) s = execLoop t q e s := rfl
@[simp] theorem exec_sync (t : Tile) (q : Seq) (e : Ecc) (s : State) : exec (.sync t q e) s = execSync t q e s := rfl
@[simp] theorem exec_syncRelease (p : Plot) (b : Fin 16) (s : State) :
    exec (.syncRelease p b) s = execSyncRelease p b s := rfl
@[simp] theorem exec_evt (t : Tile) (q : Seq) (e : Ecc) (s : State) : exec (.evt t q e) s = execEvt t q e s := rfl
@[simp] theorem exec_wait (t : Tile) (q : Seq) (e : Ecc) (s : State) : exec (.wait t q e) s = execWait t q e s := rfl
@[simp] theorem exec_waituntil (t : Tile) (q : Seq) (e : Ecc) (s : State) :
    exec (.waituntil t q e) s = execWaituntil t q e s := rfl
@[simp] theorem exec_play (t : Tile) (q : Seq) (e : Ecc) (s : State) : exec (.play t q e) s = execPlay t q e s := rfl
@[simp] theorem exec_arm (t : Tile) (q : Seq) (e : Ecc) (s : State) : exec (.arm t q e) s = execArm t q e s := rfl
@[simp] theorem exec_mark (t : Tile) (q : Seq) (e : Ecc) (s : State) : exec (.mark t q e) s = execMark t q e s := rfl
@[simp] theorem exec_vec (t : Tile) (q : Seq) (e : Ecc) (s : State) : exec (.vec t q e) s = execVec t q e s := rfl
@[simp] theorem exec_meas (t : Tile) (q : Seq) (e : Ecc) (s : State) : exec (.meas t q e) s = execMeas t q e s := rfl
@[simp] theorem exec_biasq (t : Tile) (q : Seq) (e : Ecc) (s : State) : exec (.biasq t q e) s = execBiasq t q e s := rfl
@[simp] theorem exec_freq (t : Tile) (q : Seq) (e : Ecc) (s : State) : exec (.freq t q e) s = execFreq t q e s := rfl
@[simp] theorem exec_phase (t : Tile) (q : Seq) (e : Ecc) (s : State) : exec (.phase t q e) s = execPhase t q e s := rfl
@[simp] theorem exec_add (t : Tile) (q : Seq) (e : Ecc) (s : State) : exec (.add t q e) s = execAdd t q e s := rfl
@[simp] theorem exec_sub (t : Tile) (q : Seq) (e : Ecc) (s : State) : exec (.sub t q e) s = execSub t q e s := rfl
@[simp] theorem exec_and (t : Tile) (q : Seq) (e : Ecc) (s : State) : exec (.and t q e) s = execAnd t q e s := rfl
@[simp] theorem exec_or (t : Tile) (q : Seq) (e : Ecc) (s : State) : exec (.or t q e) s = execOr t q e s := rfl
@[simp] theorem exec_xor (t : Tile) (q : Seq) (e : Ecc) (s : State) : exec (.xor t q e) s = execXor t q e s := rfl
@[simp] theorem exec_shl (t : Tile) (q : Seq) (e : Ecc) (s : State) : exec (.shl t q e) s = execShl t q e s := rfl
@[simp] theorem exec_shr (t : Tile) (q : Seq) (e : Ecc) (s : State) : exec (.shr t q e) s = execShr t q e s := rfl
@[simp] theorem exec_sra (t : Tile) (q : Seq) (e : Ecc) (s : State) : exec (.sra t q e) s = execSra t q e s := rfl
@[simp] theorem exec_mul (t : Tile) (q : Seq) (e : Ecc) (s : State) : exec (.mul t q e) s = execMul t q e s := rfl
@[simp] theorem exec_movi (t : Tile) (q : Seq) (e : Ecc) (s : State) : exec (.movi t q e) s = execMovi t q e s := rfl
@[simp] theorem exec_rdsp (t : Tile) (q : Seq) (e : Ecc) (s : State) : exec (.rdsp t q e) s = execRdsp t q e s := rfl
@[simp] theorem exec_ld (t : Tile) (q : Seq) (e : Ecc) (s : State) : exec (.ld t q e) s = execLd t q e s := rfl
@[simp] theorem exec_st (t : Tile) (q : Seq) (e : Ecc) (s : State) : exec (.st t q e) s = execSt t q e s := rfl
@[simp] theorem exec_clrFault (t : Tile) (q : Seq) (w : Word) (s : State) :
    exec (.clrFault t q w) s = execClrFault t q w s := rfl
@[simp] theorem exec_seqCtlWrite (t : Tile) (q : Seq) (w : Word) (s : State) :
    exec (.seqCtlWrite t q w) s = execSeqCtlWrite t q w s := rfl
@[simp] theorem exec_playExecute (t : Tile) (q : Seq) (s : State) : exec (.playExecute t q) s = execPlayExecute t q s := rfl
@[simp] theorem exec_jumpRequest (t : Tile) (q : Seq) (s : State) : exec (.jumpRequest t q) s = execJumpRequest t q s := rfl
@[simp] theorem exec_jumpTakeEffect (t : Tile) (q : Seq) (s : State) :
    exec (.jumpTakeEffect t q) s = execJumpTakeEffect t q s := rfl
@[simp] theorem exec_segmentEnd (t : Tile) (q : Seq) (s : State) : exec (.segmentEnd t q) s = execSegmentEnd t q s := rfl
@[simp] theorem exec_armSelect (t : Tile) (q : Seq) (s : State) : exec (.armSelect t q) s = execArmSelect t q s := rfl
@[simp] theorem exec_armExecute (t : Tile) (q : Seq) (s : State) : exec (.armExecute t q) s = execArmExecute t q s := rfl
@[simp] theorem exec_markExecute (t : Tile) (q : Seq) (s : State) : exec (.markExecute t q) s = execMarkExecute t q s := rfl
@[simp] theorem exec_markPulseEnd (t : Tile) (m : Fin 2) (s : State) :
    exec (.markPulseEnd t m) s = execMarkPulseEnd t m s := rfl
@[simp] theorem exec_vecExecute (t : Tile) (q : Seq) (s : State) : exec (.vecExecute t q) s = execVecExecute t q s := rfl
@[simp] theorem exec_vecPulseEnd (t : Tile) (v : Fin 2) (s : State) :
    exec (.vecPulseEnd t v) s = execVecPulseEnd t v s := rfl
@[simp] theorem exec_freqExecute (t : Tile) (q : Seq) (s : State) : exec (.freqExecute t q) s = execFreqExecute t q s := rfl
@[simp] theorem exec_phaseExecute (t : Tile) (q : Seq) (s : State) :
    exec (.phaseExecute t q) s = execPhaseExecute t q s := rfl
@[simp] theorem exec_evtExecute (t : Tile) (q : Seq) (s : State) : exec (.evtExecute t q) s = execEvtExecute t q s := rfl
@[simp] theorem exec_biasqExecute (t : Tile) (q : Seq) (s : State) :
    exec (.biasqExecute t q) s = execBiasqExecute t q s := rfl
@[simp] theorem exec_partitionWrite (t : Tile) (i : Fin 32) (w : Word) (s : State) :
    exec (.partitionWrite t i w) s = execPartitionWrite t i w s := rfl
@[simp] theorem exec_segEntryWrite (t : Tile) (n : Fin 4096) (hi : Bool) (w : Word) (s : State) :
    exec (.segEntryWrite t n hi w) s = execSegEntryWrite t n hi w s := rfl
@[simp] theorem exec_markerCfgWrite (t : Tile) (m : Fin 2) (vl : Bool) (w : Word) (s : State) :
    exec (.markerCfgWrite t m vl w) s = execMarkerCfgWrite t m vl w s := rfl
@[simp] theorem exec_decantEnable (t : Tile) (d : Fin 16) (w : Word) (s : State) :
    exec (.decantEnable t d w) s = execDecantEnable t d w s := rfl
@[simp] theorem exec_decantReprime (t : Tile) (d : Fin 16) (w : Word) (s : State) :
    exec (.decantReprime t d w) s = execDecantReprime t d w s := rfl
@[simp] theorem exec_ddDescWrite (t : Tile) (d : Fin 16) (which : Fin 3) (w : Word) (s : State) :
    exec (.ddDescWrite t d which w) s = execDdDescWrite t d which w s := rfl
@[simp] theorem exec_decantChunkArrival (t : Tile) (d : Fin 16) (samples : List Word) (tag : List Byte) (s : State) :
    exec (.decantChunkArrival t d samples tag) s = execDecantChunkArrival t d samples tag s := rfl
@[simp] theorem exec_decantChunkRelease (t : Tile) (d : Fin 16) (s : State) :
    exec (.decantChunkRelease t d) s = execDecantChunkRelease t d s := rfl
@[simp] theorem exec_decantUnderrun (t : Tile) (d : Fin 16) (s : State) :
    exec (.decantUnderrun t d) s = execDecantUnderrun t d s := rfl
@[simp] theorem exec_decantTransferError (t : Tile) (d : Fin 16) (s : State) :
    exec (.decantTransferError t d) s = execDecantTransferError t d s := rfl
@[simp] theorem exec_fluxCoefWrite (t : Tile) (f : Fin 14) (off : Nat) (w : Word) (s : State) :
    exec (.fluxCoefWrite t f off w) s = execFluxCoefWrite t f off w s := rfl
@[simp] theorem exec_biasUpdateInstant (q : Quad) (j : BiasCh) (mon : BitVec 16) (s : State) :
    exec (.biasUpdateInstant q j mon) s = execBiasUpdateInstant q j mon s := rfl
@[simp] theorem exec_biasEntryArrival (q : Quad) (j : BiasCh) (n : Nat) (s : State) :
    exec (.biasEntryArrival q j n) s = execBiasEntryArrival q j n s := rfl
@[simp] theorem exec_bqHostWrite (t : Tile) (b : Fin 16) (w : Word) (s : State) :
    exec (.bqHostWrite t b w) s = execBqHostWrite t b w s := rfl
@[simp] theorem exec_biasRegWrite (q : Quad) (j : BiasCh) (off : Nat) (w : Word) (s : State) :
    exec (.biasRegWrite q j off w) s = execBiasRegWrite q j off w s := rfl
@[simp] theorem exec_genRun (q : Quad) (j : BiasCh) (w : Word) (s : State) :
    exec (.genRun q j w) s = execGenRun q j w s := rfl
@[simp] theorem exec_complianceTrip (q : Quad) (j : BiasCh) (s : State) :
    exec (.complianceTrip q j) s = execComplianceTrip q j s := rfl
@[simp] theorem exec_compClr (q : Quad) (j : BiasCh) (w : Word) (s : State) :
    exec (.compClr q j w) s = execCompClr q j w s := rfl
@[simp] theorem exec_biasClrAssert (q : Quad) (s : State) : exec (.biasClrAssert q) s = execBiasClrAssert q s := rfl
@[simp] theorem exec_biasClrRelease (q : Quad) (s : State) : exec (.biasClrRelease q) s = execBiasClrRelease q s := rfl
@[simp] theorem exec_spanWrite (q : Quad) (j : BiasCh) (w : Word) (s : State) :
    exec (.spanWrite q j w) s = execSpanWrite q j w s := rfl
@[simp] theorem exec_parkSettleEnd (q : Quad) (j : BiasCh) (s : State) :
    exec (.parkSettleEnd q j) s = execParkSettleEnd q j s := rfl
@[simp] theorem exec_riBandWrite (t : Tile) (w : Word) (s : State) : exec (.riBandWrite t w) s = execRiBandWrite t w s := rfl
@[simp] theorem exec_readoutSetWrite (t : Tile) (p : Lane) (r : Fin 16) (k : Fin 4) (w : Word) (s : State) :
    exec (.readoutSetWrite t p r k w) s = execReadoutSetWrite t p r k w s := rfl
@[simp] theorem exec_windowOpen (t : Tile) (q : Seq) (s : State) : exec (.windowOpen t q) s = execWindowOpen t q s := rfl
@[simp] theorem exec_windowClose (t : Tile) (p : Lane) (sh : Bool) (s : State) :
    exec (.windowClose t p sh) s = execWindowClose t p sh s := rfl
@[simp] theorem exec_thrLoopEnable (t : Tile) (p : Lane) (d : Fin 4) (w : Word) (s : State) :
    exec (.thrLoopEnable t p d w) s = execThrLoopEnable t p d w s := rfl
@[simp] theorem exec_dbUnfreeze (t : Tile) (p : Lane) (d : Fin 4) (w : Word) (s : State) :
    exec (.dbUnfreeze t p d w) s = execDbUnfreeze t p d w s := rfl
@[simp] theorem exec_toneTrackEnable (t : Tile) (p : Lane) (w : Word) (s : State) :
    exec (.toneTrackEnable t p w) s = execToneTrackEnable t p w s := rfl
@[simp] theorem exec_ttUnfreeze (t : Tile) (p : Lane) (w : Word) (s : State) :
    exec (.ttUnfreeze t p w) s = execTtUnfreeze t p w s := rfl
@[simp] theorem exec_resultRingWrite (p : Plot) (s : State) : exec (.resultRingWrite p) s = execResultRingWrite p s := rfl
@[simp] theorem exec_decisionReleaseTile (n : Fin 256) (s : State) :
    exec (.decisionReleaseTile n) s = execDecisionReleaseTile n s := rfl
@[simp] theorem exec_decisionReleaseDevice (n : Fin 320) (s : State) :
    exec (.decisionReleaseDevice n) s = execDecisionReleaseDevice n s := rfl
@[simp] theorem exec_parityFire (u : Fin 64) (s : State) : exec (.parityFire u) s = execParityFire u s := rfl
@[simp] theorem exec_remoteRelease (r : Fin 192) (s : State) : exec (.remoteRelease r) s = execRemoteRelease r s := rfl
@[simp] theorem exec_parityUnitCfgWrite (u : Fin 64) (which : Fin 3) (w : Word) (s : State) :
    exec (.parityUnitCfgWrite u which w) s = execParityUnitCfgWrite u which w s := rfl
@[simp] theorem exec_keyBitWrite (t : Tile) (ks : Fin 8) (i : Fin 4) (w : Word) (s : State) :
    exec (.keyBitWrite t ks i w) s = execKeyBitWrite t ks i w s := rfl
@[simp] theorem exec_remoteMapWrite (r : Fin 192) (w : Word) (s : State) :
    exec (.remoteMapWrite r w) s = execRemoteMapWrite r w s := rfl
@[simp] theorem exec_exportWrite (n : Fin 320) (w : Word) (s : State) :
    exec (.exportWrite n w) s = execExportWrite n w s := rfl
@[simp] theorem exec_linkEnable (k : Link) (w : Word) (s : State) : exec (.linkEnable k w) s = execLinkEnable k w s := rfl
@[simp] theorem exec_linkRetrain (k : Link) (w : Word) (s : State) : exec (.linkRetrain k w) s = execLinkRetrain k w s := rfl
@[simp] theorem exec_trainPhaseDone (k : Link) (lanes pol : BitVec 4) (array : Byte) (dev : BitVec 4) (plink : BitVec 3) (map : BitVec 4) (s : State) :
    exec (.trainPhaseDone k lanes pol array dev plink map) s = execTrainPhaseDone k lanes pol array dev plink map s := rfl
@[simp] theorem exec_trainAttemptTimeout (k : Link) (s : State) :
    exec (.trainAttemptTimeout k) s = execTrainAttemptTimeout k s := rfl
@[simp] theorem exec_backoffExpiry (k : Link) (s : State) : exec (.backoffExpiry k) s = execBackoffExpiry k s := rfl
@[simp] theorem exec_autoretryAttempt (k : Link) (s : State) : exec (.autoretryAttempt k) s = execAutoretryAttempt k s := rfl
@[simp] theorem exec_laneLockLoss (k : Link) (i : KLane) (hdrs : Nat) (s : State) :
    exec (.laneLockLoss k i hdrs) s = execLaneLockLoss k i hdrs s := rfl
@[simp] theorem exec_laneRejoin (k : Link) (i : KLane) (pol : Bool) (s : State) :
    exec (.laneRejoin k i pol) s = execLaneRejoin k i pol s := rfl
@[simp] theorem exec_fillerRowSend (k : Link) (s : State) : exec (.fillerRowSend k) s = execFillerRowSend k s := rfl
@[simp] theorem exec_fillerRowReceive (k : Link) (depth : Nat) (s : State) :
    exec (.fillerRowReceive k depth) s = execFillerRowReceive k depth s := rfl
@[simp] theorem exec_decisionMsgReceive (k : Link) (b0 b1 : Block) (s : State) :
    exec (.decisionMsgReceive k b0 b1) s = execDecisionMsgReceive k b0 b1 s := rfl
@[simp] theorem exec_ttRequestSend (frac : Byte) (s : State) : exec (.ttRequestSend frac) s = execTtRequestSend frac s := rfl
@[simp] theorem exec_ttMsgReceive (k : Link) (b0 b1 b2 : Block) (frac frac3 : Byte) (s : State) :
    exec (.ttMsgReceive k b0 b1 b2 frac frac3) s = execTtMsgReceive k b0 b1 b2 frac frac3 s := rfl
@[simp] theorem exec_mgmtMsg (k : Link) (h : Block) (payload : List Block) (tr : Block) (s : State) :
    exec (.mgmtMsg k h payload tr) s = execMgmtMsg k h payload tr s := rfl
@[simp] theorem exec_mirrorMsg (k : Link) (h : Block) (payload : List Block) (tr : Block) (p : Plot) (shot : Word) (units : List UnitWrite) (s : State) :
    exec (.mirrorMsg k h payload tr p shot units) s = execMirrorMsg k h payload tr p shot units s := rfl
@[simp] theorem exec_coordMsg (k : Link) (h : Block) (payload : List Block) (tr : Block) (p : Plot) (check : Bool) (gap : Word) (ticks : Nat) (cal thr : Bool) (next : BitVec 64) (s : State) :
    exec (.coordMsg k h payload tr p check gap ticks cal thr next) s = execCoordMsg k h payload tr p check gap ticks cal thr next s := rfl
@[simp] theorem exec_heartbeatMsg (k : Link) (h : Block) (payload : List Block) (tr : Block) (active synced : Bool) (dt : BitVec 48) (s : State) :
    exec (.heartbeatMsg k h payload tr active synced dt) s = execHeartbeatMsg k h payload tr active synced dt s := rfl
@[simp] theorem exec_linkAck (k : Link) (b : Block) (s : State) : exec (.linkAck k b) s = execLinkAck k b s := rfl
@[simp] theorem exec_linkNak (k : Link) (b : Block) (s : State) : exec (.linkNak k b) s = execLinkNak k b s := rfl
@[simp] theorem exec_replayFailure (k : Link) (s : State) : exec (.replayFailure k) s = execReplayFailure k s := rfl
@[simp] theorem exec_laneMap (k : Link) (b : Block) (s : State) : exec (.laneMap k b) s = execLaneMap k b s := rfl
@[simp] theorem exec_idleReq (k : Link) (b : Block) (s : State) : exec (.idleReq k b) s = execIdleReq k b s := rfl
@[simp] theorem exec_idleAck (k : Link) (b : Block) (s : State) : exec (.idleAck k b) s = execIdleAck k b s := rfl
@[simp] theorem exec_idleLpExit (k : Link) (relocked : BitVec 4) (burst : Bool) (s : State) :
    exec (.idleLpExit k relocked burst) s = execIdleLpExit k relocked burst s := rfl
@[simp] theorem exec_prbsInject (k : Link) (i : KLane) (w : Word) (s : State) :
    exec (.prbsInject k i w) s = execPrbsInject k i w s := rfl
@[simp] theorem exec_bitSlip (k : Link) (i : KLane) (w : Word) (s : State) :
    exec (.bitSlip k i w) s = execBitSlip k i w s := rfl
@[simp] theorem exec_routeWrite (i : Fin 16) (w : Word) (s : State) : exec (.routeWrite i w) s = execRouteWrite i w s := rfl
@[simp] theorem exec_fwdWrite (d : Fin 16) (w : Word) (s : State) : exec (.fwdWrite d w) s = execFwdWrite d w s := rfl
@[simp] theorem exec_pairEnable (w : Word) (s : State) : exec (.pairEnable w) s = execPairEnable w s := rfl
@[simp] theorem exec_hbLost (s : State) : exec (.hbLost) s = execHbLost s := rfl
@[simp] theorem exec_takeOver (w : Word) (s : State) : exec (.takeOver w) s = execTakeOver w s := rfl
@[simp] theorem exec_standDown (w : Word) (s : State) : exec (.standDown w) s = execStandDown w s := rfl
@[simp] theorem exec_pairChangeEffect (s : State) : exec (.pairChangeEffect) s = execPairChangeEffect s := rfl
@[simp] theorem exec_pairChangeTimeout (s : State) : exec (.pairChangeTimeout) s = execPairChangeTimeout s := rfl
@[simp] theorem exec_pairActSense (level boundary : Bool) (s : State) :
    exec (.pairActSense level boundary) s = execPairActSense level boundary s := rfl
@[simp] theorem exec_imageLoad (w : Word) (s : State) : exec (.imageLoad w) s = execImageLoad w s := rfl
@[simp] theorem exec_imageApply (w : Word) (s : State) : exec (.imageApply w) s = execImageApply w s := rfl
@[simp] theorem exec_imageCancel (w : Word) (s : State) : exec (.imageCancel w) s = execImageCancel w s := rfl
@[simp] theorem exec_cfgSeal (w : Word) (s : State) : exec (.cfgSeal w) s = execCfgSeal w s := rfl
@[simp] theorem exec_imageFetchDone (bytes : List Byte) (sfdp : Option (Byte × Byte)) (s : State) :
    exec (.imageFetchDone bytes sfdp) s = execImageFetchDone bytes sfdp s := rfl
@[simp] theorem exec_imageVerifyDone (units : List (List UnitWrite)) (s : State) :
    exec (.imageVerifyDone units) s = execImageVerifyDone units s := rfl
@[simp] theorem exec_bootImageApply (s : State) : exec (.bootImageApply) s = execBootImageApply s := rfl
@[simp] theorem exec_partialHold (s : State) : exec (.partialHold) s = execPartialHold s := rfl
@[simp] theorem exec_partialStoppedApply (s : State) : exec (.partialStoppedApply) s = execPartialStoppedApply s := rfl
@[simp] theorem exec_partialHoldEnd (s : State) : exec (.partialHoldEnd) s = execPartialHoldEnd s := rfl
@[simp] theorem exec_seqFailed (t : Tile) (q : Seq) (selfTest : Bool) (s : State) :
    exec (.seqFailed t q selfTest) s = execSeqFailed t q selfTest s := rfl
@[simp] theorem exec_placement (t : Tile) (bad : Bool) (s : State) : exec (.placement t bad) s = execPlacement t bad s := rfl
@[simp] theorem exec_henConfirm (s : State) : exec (.henConfirm) s = execHenConfirm s := rfl
@[simp] theorem exec_trialTimeout (s : State) : exec (.trialTimeout) s = execTrialTimeout s := rfl
@[simp] theorem exec_henRestart (s : State) : exec (.henRestart) s = execHenRestart s := rfl
@[simp] theorem exec_flashWrite (slot : Bool) (s : State) : exec (.flashWrite slot) s = execFlashWrite slot s := rfl
@[simp] theorem exec_flashWriteDone (reason : BitVec 4) (bytes : List Byte) (s : State) :
    exec (.flashWriteDone reason bytes) s = execFlashWriteDone reason bytes s := rfl
@[simp] theorem exec_takeOwnership (w : Word) (s : State) : exec (.takeOwnership w) s = execTakeOwnership w s := rfl
@[simp] theorem exec_rotateOwner (w : Word) (s : State) : exec (.rotateOwner w) s = execRotateOwner w s := rfl
@[simp] theorem exec_retire (w : Word) (s : State) : exec (.retire w) s = execRetire w s := rfl
@[simp] theorem exec_debugUnlock (w : Word) (s : State) : exec (.debugUnlock w) s = execDebugUnlock w s := rfl
@[simp] theorem exec_zeroisePlot (w : Word) (s : State) : exec (.zeroisePlot w) s = execZeroisePlot w s := rfl
@[simp] theorem exec_arbCommit (s : State) : exec (.arbCommit) s = execArbCommit s := rfl
@[simp] theorem exec_commandDoorbell (p : Plot) (w : Word) (s : State) :
    exec (.commandDoorbell p w) s = execCommandDoorbell p w s := rfl
@[simp] theorem exec_rspConsWrite (p : Plot) (w : Word) (s : State) :
    exec (.rspConsWrite p w) s = execRspConsWrite p w s := rfl
@[simp] theorem exec_rrConsWrite (p : Plot) (w : Word) (s : State) : exec (.rrConsWrite p w) s = execRrConsWrite p w s := rfl
@[simp] theorem exec_ringEnable (p : Plot) (ring : Fin 3) (w : Word) (s : State) :
    exec (.ringEnable p ring w) s = execRingEnable p ring w s := rfl
@[simp] theorem exec_cmdRingRestart (p : Plot) (s : State) : exec (.cmdRingRestart p) s = execCmdRingRestart p s := rfl
@[simp] theorem exec_capsuleFetch (p : Plot) (header : List Byte) (s : State) :
    exec (.capsuleFetch p header) s = execCapsuleFetch p header s := rfl
@[simp] theorem exec_capsuleAuthDone (p : Plot) (cipher tag : List Byte) (s : State) :
    exec (.capsuleAuthDone p cipher tag) s = execCapsuleAuthDone p cipher tag s := rfl
@[simp] theorem exec_capsuleNop (p : Plot) (s : State) : exec (.capsuleNop p) s = execCapsuleNop p s := rfl
@[simp] theorem exec_regWrite (p : Plot) (s : State) : exec (.regWrite p) s = execRegWrite p s := rfl
@[simp] theorem exec_regRead (p : Plot) (s : State) : exec (.regRead p) s = execRegRead p s := rfl
@[simp] theorem exec_memWrite (p : Plot) (s : State) : exec (.memWrite p) s = execMemWrite p s := rfl
@[simp] theorem exec_memRead (p : Plot) (s : State) : exec (.memRead p) s = execMemRead p s := rfl
@[simp] theorem exec_imageInline (p : Plot) (s : State) : exec (.imageInline p) s = execImageInline p s := rfl
@[simp] theorem exec_imageRef (p : Plot) (s : State) : exec (.imageRef p) s = execImageRef p s := rfl
@[simp] theorem exec_imageRefFetchDone (p : Plot) (bytes : List Byte) (s : State) :
    exec (.imageRefFetchDone p bytes) s = execImageRefFetchDone p bytes s := rfl
@[simp] theorem exec_waitState (p : Plot) (s : State) : exec (.waitState p) s = execWaitState p s := rfl
@[simp] theorem exec_waitStateReached (p : Plot) (s : State) : exec (.waitStateReached p) s = execWaitStateReached p s := rfl
@[simp] theorem exec_waitStateTimeout (p : Plot) (s : State) : exec (.waitStateTimeout p) s = execWaitStateTimeout p s := rfl
@[simp] theorem exec_batchSignDone (p : Plot) (s : State) : exec (.batchSignDone p) s = execBatchSignDone p s := rfl
@[simp] theorem exec_writeback (p : Plot) (s : State) : exec (.writeback p) s = execWriteback p s := rfl
@[simp] theorem exec_resultIrqTimer (p : Plot) (s : State) : exec (.resultIrqTimer p) s = execResultIrqTimer p s := rfl
@[simp] theorem exec_dmaTransferError (f : DmaFail) (s : State) :
    exec (.dmaTransferError f) s = execDmaTransferError f s := rfl
@[simp] theorem exec_d3hotEntry (s : State) : exec (.d3hotEntry) s = execD3hotEntry s := rfl
@[simp] theorem exec_d0Return (s : State) : exec (.d0Return) s = execD0Return s := rfl
@[simp] theorem exec_functionLevelReset (s : State) : exec (.functionLevelReset) s = execFunctionLevelReset s := rfl
@[simp] theorem exec_hotReset (s : State) : exec (.hotReset) s = execHotReset s := rfl
@[simp] theorem exec_pcieLinkDown (s : State) : exec (.pcieLinkDown) s = execPcieLinkDown s := rfl
@[simp] theorem exec_pePerstAssert (s : State) : exec (.pePerstAssert) s = execPePerstAssert s := rfl
@[simp] theorem exec_spdmGetVersion (s : State) : exec (.spdmGetVersion) s = execSpdmGetVersion s := rfl
@[simp] theorem exec_spdmGetCapabilities (s : State) : exec (.spdmGetCapabilities) s = execSpdmGetCapabilities s := rfl
@[simp] theorem exec_spdmNegotiateAlgorithms (s : State) :
    exec (.spdmNegotiateAlgorithms) s = execSpdmNegotiateAlgorithms s := rfl
@[simp] theorem exec_spdmGetDigests (s : State) : exec (.spdmGetDigests) s = execSpdmGetDigests s := rfl
@[simp] theorem exec_spdmGetCertificate (slot : Fin 2) (s : State) :
    exec (.spdmGetCertificate slot) s = execSpdmGetCertificate slot s := rfl
@[simp] theorem exec_spdmChallenge (slot : Fin 2) (nonce : List Byte) (s : State) :
    exec (.spdmChallenge slot nonce) s = execSpdmChallenge slot nonce s := rfl
@[simp] theorem exec_spdmGetMeasurements (index : Fin 8) (nonce : List Byte) (s : State) :
    exec (.spdmGetMeasurements index nonce) s = execSpdmGetMeasurements index nonce s := rfl
@[simp] theorem exec_spdmKeyExchange (exchange : List Byte) (s : State) :
    exec (.spdmKeyExchange exchange) s = execSpdmKeyExchange exchange s := rfl
@[simp] theorem exec_spdmFinish (sess : Fin 2) (ok : Bool) (s : State) :
    exec (.spdmFinish sess ok) s = execSpdmFinish sess ok s := rfl
@[simp] theorem exec_spdmKeyUpdate (sess : Fin 2) (s : State) :
    exec (.spdmKeyUpdate sess) s = execSpdmKeyUpdate sess s := rfl
@[simp] theorem exec_spdmHeartbeat (sess : Fin 2) (s : State) :
    exec (.spdmHeartbeat sess) s = execSpdmHeartbeat sess s := rfl
@[simp] theorem exec_spdmEndSession (sess : Fin 2) (s : State) :
    exec (.spdmEndSession sess) s = execSpdmEndSession sess s := rfl
@[simp] theorem exec_spdmSetCertificate (slot : Fin 2) (chain : List Byte) (s : State) :
    exec (.spdmSetCertificate slot chain) s = execSpdmSetCertificate slot chain s := rfl
@[simp] theorem exec_ideKmProgram (sess : Fin 2) (stream : Fin 5) (key : List Byte) (s : State) :
    exec (.ideKmProgram sess stream key) s = execIdeKmProgram sess stream key s := rfl
@[simp] theorem exec_ptpRateCommit (w : Word) (s : State) : exec (.ptpRateCommit w) s = execPtpRateCommit w s := rfl
@[simp] theorem exec_ptpOffsetSubmit (w : Word) (s : State) : exec (.ptpOffsetSubmit w) s = execPtpOffsetSubmit w s := rfl
@[simp] theorem exec_ptpCorrectionApply (s : State) : exec (.ptpCorrectionApply) s = execPtpCorrectionApply s := rfl
@[simp] theorem exec_slewEnd (s : State) : exec (.slewEnd) s = execSlewEnd s := rfl
@[simp] theorem exec_ptpRearm (s : State) : exec (.ptpRearm) s = execPtpRearm s := rfl
@[simp] theorem exec_ptpEpochCommit (w : Word) (s : State) : exec (.ptpEpochCommit w) s = execPtpEpochCommit w s := rfl
@[simp] theorem exec_ptpWrap (s : State) : exec (.ptpWrap) s = execPtpWrap s := rfl
@[simp] theorem exec_epochStale (s : State) : exec (.epochStale) s = execEpochStale s := rfl
@[simp] theorem exec_ptpFrameRx (e : Port) (m : PtpMsg) (seqId : BitVec 16) (port : BitVec 80) (sub : Fin 820) (s : State) :
    exec (.ptpFrameRx e m seqId port sub) s = execPtpFrameRx e m seqId port sub s := rfl
@[simp] theorem exec_ptpFrameTx (e : Port) (m : PtpMsg) (seqId : BitVec 16) (port : BitVec 80) (sub : Fin 820) (s : State) :
    exec (.ptpFrameTx e m seqId port sub) s = execPtpFrameTx e m seqId port sub s := rfl
@[simp] theorem exec_tsRead (e : Port) (tx : Bool) (s : State) : exec (.tsRead e tx) s = execTsRead e tx s := rfl
@[simp] theorem exec_launchPush (e : Port) (frame : Nat) (t : Word) (s : State) :
    exec (.launchPush e frame t) s = execLaunchPush e frame t s := rfl
@[simp] theorem exec_launch (e : Port) (busy : Bool) (s : State) : exec (.launch e busy) s = execLaunch e busy s := rfl
@[simp] theorem exec_clrHalt (e : Port) (w : Word) (s : State) : exec (.clrHalt e w) s = execClrHalt e w s := rfl
@[simp] theorem exec_xtsGo (w : Word) (s : State) : exec (.xtsGo w) s = execXtsGo w s := rfl
@[simp] theorem exec_ppsOutPulse (s : State) : exec (.ppsOutPulse) s = execPpsOutPulse s := rfl
@[simp] theorem exec_ppsInEdge (ed : Edge) (s : State) : exec (.ppsInEdge ed) s = execPpsInEdge ed s := rfl
@[simp] theorem exec_ptmDialogue (master : BitVec 64) (s : State) :
    exec (.ptmDialogue master) s = execPtmDialogue master s := rfl
@[simp] theorem exec_tiuEdge (i : Fin 34) (ed : Edge) (s : State) : exec (.tiuEdge i ed) s = execTiuEdge i ed s := rfl
@[simp] theorem exec_holdoffExpiry (i : Fin 34) (level : Bool) (s : State) :
    exec (.holdoffExpiry i level) s = execHoldoffExpiry i level s := rfl
@[simp] theorem exec_tiuGo (m : Engine) (w : Word) (s : State) : exec (.tiuGo m w) s = execTiuGo m w s := rfl
@[simp] theorem exec_tiuStop (m : Engine) (w : Word) (s : State) : exec (.tiuStop m w) s = execTiuStop m w s := rfl
@[simp] theorem exec_tiuEngineDone (m : Engine) (s : State) : exec (.tiuEngineDone m) s = execTiuEngineDone m s := rfl
@[simp] theorem exec_tiuTimeout (m : Engine) (s : State) : exec (.tiuTimeout m) s = execTiuTimeout m s := rfl
@[simp] theorem exec_tiuGateEnd (m : Engine) (s : State) : exec (.tiuGateEnd m) s = execTiuGateEnd m s := rfl
@[simp] theorem exec_exportDatagramClose (p : Plot) (full : Bool) (s : State) :
    exec (.exportDatagramClose p full) s = execExportDatagramClose p full s := rfl
@[simp] theorem exec_eventFire (srcs : List Nat) (s : State) : exec (.eventFire srcs) s = execEventFire srcs s := rfl
@[simp] theorem exec_evfFire (w : Word) (mgmt : Bool) (s : State) : exec (.evfFire w mgmt) s = execEvfFire w mgmt s := rfl
@[simp] theorem exec_alertRelease (s : State) : exec (.alertRelease) s = execAlertRelease s := rfl
@[simp] theorem exec_hkGo (q : Quad) (w : Word) (s : State) : exec (.hkGo q w) s = execHkGo q w s := rfl
@[simp] theorem exec_hkStop (q : Quad) (w : Word) (s : State) : exec (.hkStop q w) s = execHkStop q w s := rfl
@[simp] theorem exec_hkUrgGo (q : Quad) (w : Word) (s : State) : exec (.hkUrgGo q w) s = execHkUrgGo q w s := rfl
@[simp] theorem exec_hkCfgWrite (q : Quad) (w : Word) (s : State) : exec (.hkCfgWrite q w) s = execHkCfgWrite q w s := rfl
@[simp] theorem exec_hkConversionDone (q : Quad) (v : HkSample) (s : State) :
    exec (.hkConversionDone q v) s = execHkConversionDone q v s := rfl
@[simp] theorem exec_hkPassGapExpiry (q : Quad) (s : State) : exec (.hkPassGapExpiry q) s = execHkPassGapExpiry q s := rfl
@[simp] theorem exec_hkRefReady (q : Quad) (s : State) : exec (.hkRefReady q) s = execHkRefReady q s := rfl
@[simp] theorem exec_hkRefFault (q : Quad) (s : State) : exec (.hkRefFault q) s = execHkRefFault q s := rfl
@[simp] theorem exec_sensOpenDetect (q : Quad) (s : State) : exec (.sensOpenDetect q) s = execSensOpenDetect q s := rfl
@[simp] theorem exec_sensCheckGo (q : Quad) (w : Word) (s : State) : exec (.sensCheckGo q w) s = execSensCheckGo q w s := rfl
@[simp] theorem exec_sensCheckPeriod (q : Quad) (s : State) : exec (.sensCheckPeriod q) s = execSensCheckPeriod q s := rfl
@[simp] theorem exec_sensCheckDone (q : Quad) (k : Fin 8) (ohms : Nat) (ph : BitVec 16) (s : State) :
    exec (.sensCheckDone q k ohms ph) s = execSensCheckDone q k ohms ph s := rfl
@[simp] theorem exec_powerMeterUpdate (mw mv : List Nat) (ma : List Nat) (s : State) :
    exec (.powerMeterUpdate mw mv ma) s = execPowerMeterUpdate mw mv ma s := rfl
@[simp] theorem exec_thermalModelUpdate (up : List Bool) (s : State) :
    exec (.thermalModelUpdate up) s = execThermalModelUpdate up s := rfl
@[simp] theorem exec_throttleEval (s : State) : exec (.throttleEval) s = execThrottleEval s := rfl
@[simp] theorem exec_thermalAnchor (s : State) : exec (.thermalAnchor) s = execThermalAnchor s := rfl
@[simp] theorem exec_hostShutdown (s : State) : exec (.hostShutdown) s = execHostShutdown s := rfl
@[simp] theorem exec_shutdownPowerOff (s : State) : exec (.shutdownPowerOff) s = execShutdownPowerOff s := rfl
@[simp] theorem exec_hardTrip (diode : Fin 4) (s : State) : exec (.hardTrip diode) s = execHardTrip diode s := rfl
@[simp] theorem exec_avsStep (d : Fin 168) (margin : BitVec 6) (s : State) :
    exec (.avsStep d margin) s = execAvsStep d margin s := rfl
@[simp] theorem exec_avsEmergency (d : Fin 168) (margin : BitVec 6) (s : State) :
    exec (.avsEmergency d margin) s = execAvsEmergency d margin s := rfl
@[simp] theorem exec_avsRequestRetry (ack : Bool) (s : State) :
    exec (.avsRequestRetry ack) s = execAvsRequestRetry ack s := rfl
@[simp] theorem exec_islandClockStep (t : Tile) (i : Fin 6) (code : BitVec 7) (margin : BitVec 6) (s : State) :
    exec (.islandClockStep t i code margin) s = execIslandClockStep t i code margin s := rfl
@[simp] theorem exec_clockStretch (t : Tile) (i : Fin 6) (s : State) :
    exec (.clockStretch t i) s = execClockStretch t i s := rfl
@[simp] theorem exec_converterPowerDown (t : Tile) (c : Converter) (o : Fin 14) (s : State) :
    exec (.converterPowerDown t c o) s = execConverterPowerDown t c o s := rfl
@[simp] theorem exec_converterWake (t : Tile) (c : Converter) (o : Fin 14) (s : State) :
    exec (.converterWake t c o) s = execConverterWake t c o s := rfl
@[simp] theorem exec_skimSlot (p : Plot) (results : List CalResult) (s : State) :
    exec (.skimSlot p results) s = execSkimSlot p results s := rfl
@[simp] theorem exec_calTimerExpiry (p : Plot) (s : State) : exec (.calTimerExpiry p) s = execCalTimerExpiry p s := rfl
@[simp] theorem exec_deviceCalTask (task : DevTask) (r : CalResult) (s : State) :
    exec (.deviceCalTask task r) s = execDeviceCalTask task r s := rfl
@[simp] theorem exec_calStoreSave (s : State) : exec (.calStoreSave) s = execCalStoreSave s := rfl
@[simp] theorem exec_bootCalibration (tiles : List (List CalResult)) (tiu : List CalResult) (lanes : List CalResult) (s : State) :
    exec (.bootCalibration tiles tiu lanes) s = execBootCalibration tiles tiu lanes s := rfl
@[simp] theorem exec_cbSave (s : State) : exec (.cbSave) s = execCbSave s := rfl
@[simp] theorem exec_cbSaveRequest (s : State) : exec (.cbSaveRequest) s = execCbSaveRequest s := rfl
@[simp] theorem exec_rtcSet (s : State) : exec (.rtcSet) s = execRtcSet s := rfl
@[simp] theorem exec_vbatLoss (s : State) : exec (.vbatLoss) s = execVbatLoss s := rfl
@[simp] theorem exec_porAssert (s : State) : exec (.porAssert) s = execPorAssert s := rfl
@[simp] theorem exec_porRelease (bootSel pairRole : BitVec 2) (sysHigh : Bool) (s : State) :
    exec (.porRelease bootSel pairRole sysHigh) s = execPorRelease bootSel pairRole sysHigh s := rfl
@[simp] theorem exec_sysRstAssert (s : State) : exec (.sysRstAssert) s = execSysRstAssert s := rfl
@[simp] theorem exec_sysRstRelease (s : State) : exec (.sysRstRelease) s = execSysRstRelease s := rfl
@[simp] theorem exec_brownOut (s : State) : exec (.brownOut) s = execBrownOut s := rfl
@[simp] theorem exec_refInLoss (s : State) : exec (.refInLoss) s = execRefInLoss s := rfl
@[simp] theorem exec_refInRecovery (s : State) : exec (.refInRecovery) s = execRefInRecovery s := rfl
@[simp] theorem exec_refInBootTimeout (s : State) : exec (.refInBootTimeout) s = execRefInBootTimeout s := rfl
@[simp] theorem exec_laneRefLoss (k : Fin 2) (s : State) : exec (.laneRefLoss k) s = execLaneRefLoss k s := rfl
@[simp] theorem exec_peRefclkLoss (s : State) : exec (.peRefclkLoss) s = execPeRefclkLoss s := rfl
@[simp] theorem exec_smbReadGlbId (s : State) : exec (.smbReadGlbId) s = execSmbReadGlbId s := rfl
@[simp] theorem exec_smbReadGlbSts (s : State) : exec (.smbReadGlbSts) s = execSmbReadGlbSts s := rfl
@[simp] theorem exec_smbReadTj (s : State) : exec (.smbReadTj) s = execSmbReadTj s := rfl
@[simp] theorem exec_smbReadPmTotal (s : State) : exec (.smbReadPmTotal) s = execSmbReadPmTotal s := rfl
@[simp] theorem exec_smbReadAonSts (s : State) : exec (.smbReadAonSts) s = execSmbReadAonSts s := rfl
@[simp] theorem exec_smbReadTripLatch (s : State) : exec (.smbReadTripLatch) s = execSmbReadTripLatch s := rfl
@[simp] theorem exec_smbReadState (s : State) : exec (.smbReadState) s = execSmbReadState s := rfl
@[simp] theorem exec_jtagBypass (s : State) : exec (.jtagBypass) s = execJtagBypass s := rfl
@[simp] theorem exec_jtagIdcode (s : State) : exec (.jtagIdcode) s = execJtagIdcode s := rfl
@[simp] theorem exec_jtagSample (balls : List Bool) (s : State) : exec (.jtagSample balls) s = execJtagSample balls s := rfl
@[simp] theorem exec_jtagPreload (cells : List Bool) (s : State) :
    exec (.jtagPreload cells) s = execJtagPreload cells s := rfl
@[simp] theorem exec_jtagExtest (s : State) : exec (.jtagExtest) s = execJtagExtest s := rfl
@[simp] theorem exec_jtagClamp (s : State) : exec (.jtagClamp) s = execJtagClamp s := rfl
@[simp] theorem exec_jtagHighz (s : State) : exec (.jtagHighz) s = execJtagHighz s := rfl
@[simp] theorem exec_jtagExtestPulse (s : State) : exec (.jtagExtestPulse) s = execJtagExtestPulse s := rfl
@[simp] theorem exec_jtagExtestTrain (s : State) : exec (.jtagExtestTrain) s = execJtagExtestTrain s := rfl
@[simp] theorem exec_heartbeatSend (s : State) : exec (.heartbeatSend) s = execHeartbeatSend s := rfl
@[simp] theorem exec_pePerstRelease (mps : Fin 3) (s : State) :
    exec (.pePerstRelease mps) s = execPePerstRelease mps s := rfl
@[simp] theorem exec_busMasterEnableWrite (c : PciCtl) (s : State) :
    exec (.busMasterEnableWrite c) s = execBusMasterEnableWrite c s := rfl
@[simp] theorem exec_ethLinkChange (e : Port) (up : Bool) (speed : BitVec 2) (s : State) :
    exec (.ethLinkChange e up speed) s = execEthLinkChange e up speed s := rfl
@[simp] theorem exec_converterAwake (t : Tile) (c : Converter) (o : Fin 14) (s : State) :
    exec (.converterAwake t c o) s = execConverterAwake t c o s := rfl
@[simp] theorem exec_henoneRestartDone (s : State) : exec (.henoneRestartDone) s = execHenoneRestartDone s := rfl
@[simp] theorem exec_mailboxCommandDone (s : State) : exec (.mailboxCommandDone) s = execMailboxCommandDone s := rfl

end Sys2Proof.Machine
end

