-- ==== Sys2Proof/Laws/KMap.lean ====
section
/-! SUPPORT. The laws of sparse maps: a read after a write, and that the writes keep the canonical form. -/

namespace Sys2Proof.Machine

variable {α : Type}

theorem KMap.get_ins_same (d : α) (m : KMap α) (k : Nat) (v : α) : KMap.get d (KMap.ins k v m) k = v := by
  induction m with
  | nil => simp [KMap.ins, KMap.get]
  | cons e m ih =>
    obtain ⟨a, w⟩ := e
    unfold KMap.ins
    split
    · simp [KMap.get]
    · split
      · simp [KMap.get]
      · rename_i h1 h2
        simp [KMap.get, Ne.symm h2, ih]

theorem KMap.get_ins_ne (d : α) (m : KMap α) {k j : Nat} (v : α) (h : j ≠ k) :
    KMap.get d (KMap.ins k v m) j = KMap.get d m j := by
  induction m with
  | nil => simp [KMap.ins, KMap.get, Ne.symm h]
  | cons e m ih =>
    obtain ⟨a, w⟩ := e
    unfold KMap.ins
    split
    · simp [KMap.get, Ne.symm h]
    · split
      · rename_i h1 h2
        subst h2
        simp [KMap.get, Ne.symm h]
      · simp [KMap.get, ih]

theorem KMap.get_del_same (d : α) (m : KMap α) (k : Nat) : KMap.get d (KMap.del k m) k = d := by
  induction m with
  | nil => rfl
  | cons e m ih =>
    obtain ⟨a, w⟩ := e
    unfold KMap.del
    split
    · exact ih
    · rename_i h; simp [KMap.get, h, ih]

theorem KMap.get_del_ne (d : α) (m : KMap α) {k j : Nat} (h : j ≠ k) :
    KMap.get d (KMap.del k m) j = KMap.get d m j := by
  induction m with
  | nil => rfl
  | cons e m ih =>
    obtain ⟨a, w⟩ := e
    unfold KMap.del
    split
    · rename_i h1; subst h1; simp [KMap.get, Ne.symm h, ih]
    · simp [KMap.get, ih]

@[simp] theorem KMap.get_set_same [DecidableEq α] (d : α) (m : KMap α) (k : Nat) (v : α) :
    KMap.get d (KMap.set d m k v) k = v := by
  unfold KMap.set
  split
  · rename_i h; rw [KMap.get_del_same, h]
  · exact KMap.get_ins_same d m k v

theorem KMap.get_set_ne [DecidableEq α] (d d' : α) (m : KMap α) {k j : Nat} (v : α) (h : j ≠ k) :
    KMap.get d (KMap.set d' m k v) j = KMap.get d m j := by
  unfold KMap.set
  split
  · exact KMap.get_del_ne d m h
  · exact KMap.get_ins_ne d m v h

theorem KMap.get_set [DecidableEq α] (d : α) (m : KMap α) (k j : Nat) (v : α) :
    KMap.get d (KMap.set d m k v) j = if j = k then v else KMap.get d m j := by
  split
  · rename_i h; rw [h, KMap.get_set_same]
  · rename_i h; exact KMap.get_set_ne d d m v h

theorem KMap.rising_mono {m : KMap α} : ∀ {lo lo' : Nat}, lo' ≤ lo → KMap.rising lo m = true → KMap.rising lo' m = true := by
  intro lo lo' h hm
  cases m with
  | nil => rfl
  | cons e m =>
    obtain ⟨a, w⟩ := e
    simp only [KMap.rising, Bool.and_eq_true, decide_eq_true_eq] at *
    exact ⟨le_trans h hm.1, hm.2⟩

theorem KMap.rising_ins (k : Nat) (v : α) : ∀ (m : KMap α) (lo : Nat), lo ≤ k → KMap.rising lo m = true →
    KMap.rising lo (KMap.ins k v m) = true
  | [], lo, h, _ => by simp [KMap.ins, KMap.rising, h]
  | (a, w) :: m, lo, h, hm => by
    simp only [KMap.rising, Bool.and_eq_true, decide_eq_true_eq] at hm
    unfold KMap.ins
    split
    · rename_i h1
      simp only [KMap.rising, Bool.and_eq_true, decide_eq_true_eq]
      exact ⟨h, by omega, hm.2⟩
    · split
      · rename_i h1 h2
        subst h2
        simp only [KMap.rising, Bool.and_eq_true, decide_eq_true_eq]
        exact ⟨h, hm.2⟩
      · simp only [KMap.rising, Bool.and_eq_true, decide_eq_true_eq]
        exact ⟨hm.1, KMap.rising_ins k v m (a + 1) (by omega) hm.2⟩

theorem KMap.rising_del (k : Nat) : ∀ (m : KMap α) (lo : Nat), KMap.rising lo m = true →
    KMap.rising lo (KMap.del k m) = true
  | [], _, _ => rfl
  | (a, w) :: m, lo, hm => by
    simp only [KMap.rising, Bool.and_eq_true, decide_eq_true_eq] at hm
    unfold KMap.del
    split
    · exact KMap.rising_mono (by omega) (KMap.rising_del k m (a + 1) hm.2)
    · simp only [KMap.rising, Bool.and_eq_true, decide_eq_true_eq]
      exact ⟨hm.1, KMap.rising_del k m (a + 1) hm.2⟩

theorem KMap.all_ins (p : Nat × α → Bool) (k : Nat) (v : α) (hp : p (k, v) = true) :
    ∀ m : KMap α, m.all p = true → (KMap.ins k v m).all p = true
  | [], _ => by simp [KMap.ins, hp]
  | (a, w) :: m, hm => by
    simp only [List.all_cons, Bool.and_eq_true] at hm
    unfold KMap.ins
    split
    · simp only [List.all_cons, hp, hm.1, hm.2, Bool.and_self]
    · split
      · simp only [List.all_cons, hp, hm.2, Bool.and_self]
      · simp only [List.all_cons, hm.1, KMap.all_ins p k v hp m hm.2, Bool.and_self]

theorem KMap.all_del (p : Nat × α → Bool) (k : Nat) :
    ∀ m : KMap α, m.all p = true → (KMap.del k m).all p = true
  | [], _ => rfl
  | (a, w) :: m, hm => by
    simp only [List.all_cons, Bool.and_eq_true] at hm
    unfold KMap.del
    split
    · exact KMap.all_del p k m hm.2
    · simp only [List.all_cons, hm.1, KMap.all_del p k m hm.2, Bool.and_self]

/-- A write keeps the canonical form. -/
theorem KMap.wf_set [DecidableEq α] (d : Nat → α) (m : KMap α) (k : Nat) (v : α) (h : KMap.wf d m = true) :
    KMap.wf d (KMap.set (d k) m k v) = true := by
  simp only [KMap.wf, Bool.and_eq_true] at *
  unfold KMap.set
  split
  · exact ⟨KMap.rising_del k m 0 h.1, KMap.all_del _ k m h.2⟩
  · rename_i hv
    exact ⟨KMap.rising_ins k v m 0 (Nat.zero_le k) h.1, KMap.all_ins _ k v (by simpa using hv) m h.2⟩

theorem KMap.get_of_rising (d : α) : ∀ (m : KMap α) (lo k : Nat), KMap.rising lo m = true → k < lo →
    KMap.get d m k = d
  | [], _, _, _, _ => rfl
  | (a, w) :: m, lo, k, hm, hk => by
    simp only [KMap.rising, Bool.and_eq_true, decide_eq_true_eq] at hm
    unfold KMap.get
    rw [if_neg (by omega)]
    exact KMap.get_of_rising d m (a + 1) k hm.2 (by omega)

/-- Maps in canonical form, over one unlisted value, that read alike are equal data. -/
theorem KMap.ext_of_get [DecidableEq α] (d : α) (m n : KMap α) (hm : KMap.wf (fun _ => d) m = true)
    (hn : KMap.wf (fun _ => d) n = true) (h : ∀ k, KMap.get d m k = KMap.get d n k) : m = n := by
  simp only [KMap.wf, Bool.and_eq_true] at hm hn
  suffices ∀ (m n : KMap α) (lo : Nat), KMap.rising lo m = true → KMap.rising lo n = true →
      (m.all fun e => decide (e.2 ≠ d)) = true → (n.all fun e => decide (e.2 ≠ d)) = true →
      (∀ k, KMap.get d m k = KMap.get d n k) → m = n from this m n 0 hm.1 hn.1 hm.2 hn.2 h
  intro m
  induction m with
  | nil =>
    intro n lo _ _ _ hd h
    cases n with
    | nil => rfl
    | cons e n =>
      have := h e.1
      simp only [KMap.get, if_true] at this
      simp only [List.all_cons, Bool.and_eq_true, decide_eq_true_eq] at hd
      exact absurd this.symm hd.1
  | cons e m ih =>
    intro n lo rm rn dm dn h
    obtain ⟨a, v⟩ := e
    simp only [KMap.rising, List.all_cons, Bool.and_eq_true, decide_eq_true_eq] at rm dm
    cases n with
    | nil => have := h a; simp only [KMap.get, if_true] at this; exact absurd this dm.1
    | cons e n =>
      obtain ⟨b, w⟩ := e
      simp only [KMap.rising, List.all_cons, Bool.and_eq_true, decide_eq_true_eq] at rn dn
      have hab : a = b := by
        rcases Nat.lt_trichotomy a b with hlt | heq | hgt
        · have := h a
          simp only [KMap.get, if_true, if_neg (Nat.ne_of_gt hlt)] at this
          rw [KMap.get_of_rising d n (b + 1) a rn.2 (by omega)] at this
          exact absurd this dm.1
        · exact heq
        · have := h b
          simp only [KMap.get, if_true, if_neg (Nat.ne_of_gt hgt)] at this
          rw [KMap.get_of_rising d m (a + 1) b rm.2 (by omega)] at this
          exact absurd this.symm dn.1
      subst hab
      have hv : v = w := by have := h a; simpa only [KMap.get, if_true] using this
      subst hv
      congr 1
      refine ih n (a + 1) rm.2 rn.2 dm.2 dn.2 fun k => ?_
      by_cases hk : a = k
      · subst hk
        rw [KMap.get_of_rising d m (a + 1) a rm.2 (by omega), KMap.get_of_rising d n (a + 1) a rn.2 (by omega)]
      · have := h k
        simpa only [KMap.get, if_neg hk] using this

end Sys2Proof.Machine
end

