-- ==== Sys2Proof/Laws/Ops.lean ====
section
/-! SUPPORT. The laws of registers, fields and the memory window: a read after a write, what a write leaves alone, and the
canonical form of the memory. -/

namespace Sys2Proof.Machine

/-! ## Fields -/

/-- A field of a register word: bits hi:lo of 32. -/
def Fld.ok (f : Fld) : Bool := decide (f.lo ≤ f.hi) && decide (f.hi < 32)

theorem getF_lt (v : Word) (f : Fld) : getF v f < 2 ^ (f.hi + 1 - f.lo) := Nat.mod_lt _ (Nat.two_pow_pos _)

/-- The number that `putF` makes fits a word. -/
theorem putF_toNat (v : Word) (f : Fld) (x : Nat) (h : f.ok) :
    (putF v f x).toNat = v.toNat / 2 ^ (f.hi + 1) * 2 ^ (f.hi + 1) + x % 2 ^ (f.hi + 1 - f.lo) * 2 ^ f.lo
      + v.toNat % 2 ^ f.lo := by
  simp only [Fld.ok, Bool.and_eq_true, decide_eq_true_eq] at h
  obtain ⟨h1, h2⟩ := h
  have e : 2 ^ (f.hi + 1) = 2 ^ (f.hi + 1 - f.lo) * 2 ^ f.lo := by rw [← Nat.pow_add]; congr 1; omega
  have a1 := Nat.mod_lt x (Nat.two_pow_pos (f.hi + 1 - f.lo))
  have a2 := Nat.mod_lt v.toNat (Nat.two_pow_pos f.lo)
  have lowpart : x % 2 ^ (f.hi + 1 - f.lo) * 2 ^ f.lo + v.toNat % 2 ^ f.lo < 2 ^ (f.hi + 1) := by
    rw [e]
    calc _ < x % 2 ^ (f.hi + 1 - f.lo) * 2 ^ f.lo + 2 ^ f.lo := by omega
      _ = (x % 2 ^ (f.hi + 1 - f.lo) + 1) * 2 ^ f.lo := by ring
      _ ≤ _ := Nat.mul_le_mul_right _ a1
  have e32 : (2 : Nat) ^ 32 = 2 ^ (32 - (f.hi + 1)) * 2 ^ (f.hi + 1) := by rw [← Nat.pow_add]; congr 1; omega
  have hi : v.toNat / 2 ^ (f.hi + 1) < 2 ^ (32 - (f.hi + 1)) := by
    rw [Nat.div_lt_iff_lt_mul (Nat.two_pow_pos _), ← e32]; exact v.isLt
  have : v.toNat / 2 ^ (f.hi + 1) * 2 ^ (f.hi + 1) + 2 ^ (f.hi + 1) ≤ 2 ^ 32 := by
    rw [e32]
    calc _ = (v.toNat / 2 ^ (f.hi + 1) + 1) * 2 ^ (f.hi + 1) := by ring
      _ ≤ _ := Nat.mul_le_mul_right _ hi
  unfold putF
  rw [BitVec.toNat_ofNat, Nat.mod_eq_of_lt (by omega)]

/-- A field reads as it was written. -/
theorem getF_putF_same (v : Word) (f : Fld) (x : Nat) (h : f.ok) :
    getF (putF v f x) f = x % 2 ^ (f.hi + 1 - f.lo) := by
  unfold getF
  rw [putF_toNat v f x h]
  simp only [Fld.ok, Bool.and_eq_true, decide_eq_true_eq] at h
  have e : 2 ^ (f.hi + 1) = 2 ^ (f.hi + 1 - f.lo) * 2 ^ f.lo := by rw [← Nat.pow_add]; congr 1; omega
  have a2 := Nat.mod_lt v.toNat (Nat.two_pow_pos f.lo)
  have : v.toNat / 2 ^ (f.hi + 1) * 2 ^ (f.hi + 1) + x % 2 ^ (f.hi + 1 - f.lo) * 2 ^ f.lo + v.toNat % 2 ^ f.lo
      = v.toNat % 2 ^ f.lo + (v.toNat / 2 ^ (f.hi + 1) * 2 ^ (f.hi + 1 - f.lo) + x % 2 ^ (f.hi + 1 - f.lo)) * 2 ^ f.lo := by
    rw [e]; ring
  rw [this, Nat.add_mul_div_right _ _ (Nat.two_pow_pos _), Nat.div_eq_of_lt a2, Nat.zero_add, Nat.add_comm,
    Nat.add_mul_mod_self_right, Nat.mod_mod]

/-- A field above the one written is unchanged. -/
theorem getF_putF_above (v : Word) (f g : Fld) (x : Nat) (h : f.ok) (hg : f.hi < g.lo) :
    getF (putF v f x) g = getF v g := by
  have hk := h
  simp only [Fld.ok, Bool.and_eq_true, decide_eq_true_eq] at h
  have e : 2 ^ (f.hi + 1) = 2 ^ (f.hi + 1 - f.lo) * 2 ^ f.lo := by rw [← Nat.pow_add]; congr 1; omega
  have a1 := Nat.mod_lt x (Nat.two_pow_pos (f.hi + 1 - f.lo))
  have a2 := Nat.mod_lt v.toNat (Nat.two_pow_pos f.lo)
  have low : x % 2 ^ (f.hi + 1 - f.lo) * 2 ^ f.lo + v.toNat % 2 ^ f.lo < 2 ^ (f.hi + 1) := by
    rw [e]
    calc _ < x % 2 ^ (f.hi + 1 - f.lo) * 2 ^ f.lo + 2 ^ f.lo := by omega
      _ = (x % 2 ^ (f.hi + 1 - f.lo) + 1) * 2 ^ f.lo := by ring
      _ ≤ _ := Nat.mul_le_mul_right _ a1
  have d : (putF v f x).toNat / 2 ^ (f.hi + 1) = v.toNat / 2 ^ (f.hi + 1) := by
    rw [putF_toNat v f x hk, Nat.add_assoc, Nat.add_comm, Nat.add_mul_div_right _ _ (Nat.two_pow_pos _),
      Nat.div_eq_of_lt low, Nat.zero_add]
  have s : ∀ n : Nat, n / 2 ^ g.lo = n / 2 ^ (f.hi + 1) / 2 ^ (g.lo - (f.hi + 1)) := by
    intro n; rw [Nat.div_div_eq_div_mul, ← Nat.pow_add]; congr 2; omega
  unfold getF
  rw [s, d, ← s]

/-- A field below the one written is unchanged. -/
theorem getF_putF_below (v : Word) (f g : Fld) (x : Nat) (h : f.ok) (hg : g.hi < f.lo) :
    getF (putF v f x) g = getF v g := by
  have hk := h
  simp only [Fld.ok, Bool.and_eq_true, decide_eq_true_eq] at h
  have m : (putF v f x).toNat % 2 ^ f.lo = v.toNat % 2 ^ f.lo := by
    have e : 2 ^ (f.hi + 1) = 2 ^ (f.hi + 1 - f.lo) * 2 ^ f.lo := by rw [← Nat.pow_add]; congr 1; omega
    have : (putF v f x).toNat = v.toNat % 2 ^ f.lo
        + (v.toNat / 2 ^ (f.hi + 1) * 2 ^ (f.hi + 1 - f.lo) + x % 2 ^ (f.hi + 1 - f.lo)) * 2 ^ f.lo := by
      rw [putF_toNat v f x hk, e]; ring
    rw [this, Nat.add_mul_mod_self_right, Nat.mod_mod]
  have s : ∀ n : Nat, n / 2 ^ g.lo % 2 ^ (g.hi + 1 - g.lo) = n % 2 ^ f.lo / 2 ^ g.lo % 2 ^ (g.hi + 1 - g.lo) := by
    intro n
    by_cases hle : g.lo ≤ g.hi
    · have e2 : 2 ^ f.lo = 2 ^ g.lo * 2 ^ (f.lo - g.lo) := by rw [← Nat.pow_add]; congr 1; omega
      rw [e2, Nat.mod_mul_right_div_self, Nat.mod_mod_of_dvd]
      exact Nat.pow_dvd_pow 2 (by omega)
    · have : g.hi + 1 - g.lo = 0 := by omega
      rw [this]; simp [Nat.mod_one]
  unfold getF
  rw [s, m, ← s]

/-! ## Registers -/

@[simp] theorem State.reg_setReg_same (s : State) (a : Nat) (v : Word) : (s.setReg a v).reg a = v :=
  KMap.get_set_same _ _ _ _

theorem State.reg_setReg_ne (s : State) {a b : Nat} (v : Word) (h : b ≠ a) : (s.setReg a v).reg b = s.reg b := by
  unfold State.reg State.setReg
  exact KMap.get_set_ne _ _ _ _ h

theorem State.reg_setReg (s : State) (a b : Nat) (v : Word) :
    (s.setReg a v).reg b = if b = a then v else s.reg b := by
  split
  · next h => subst h; simp
  · next h => exact s.reg_setReg_ne v h

@[simp] theorem State.setReg_mem (s : State) (a : Nat) (v : Word) : (s.setReg a v).mem = s.mem := by
  simp only [State.setReg]

@[simp] theorem State.reg_setFld_same (s : State) (a : Nat) (f : Fld) (x : Nat) :
    (s.setFld a f x).reg a = putF (s.reg a) f x := s.reg_setReg_same a _

theorem State.reg_setFld_ne (s : State) {a b : Nat} (f : Fld) (x : Nat) (h : b ≠ a) :
    (s.setFld a f x).reg b = s.reg b := s.reg_setReg_ne _ h

/-- A field reads as it was written. -/
theorem State.fld_setFld_same (s : State) (a : Nat) (f : Fld) (x : Nat) (h : f.ok) :
    (s.setFld a f x).fld a f = x % 2 ^ (f.hi + 1 - f.lo) := by
  unfold State.fld; rw [s.reg_setFld_same]; exact getF_putF_same _ f x h

/-- Another field of the same register keeps its value. -/
theorem State.fld_setFld_disjoint (s : State) (a : Nat) (f g : Fld) (x : Nat) (h : f.ok)
    (d : f.hi < g.lo ∨ g.hi < f.lo) : (s.setFld a f x).fld a g = s.fld a g := by
  unfold State.fld
  rw [s.reg_setFld_same]
  exact d.elim (getF_putF_above _ f g x h) (getF_putF_below _ f g x h)

theorem State.fld_setFld_ne (s : State) {a b : Nat} (f g : Fld) (x : Nat) (h : b ≠ a) :
    (s.setFld a f x).fld b g = s.fld b g := by unfold State.fld; rw [s.reg_setFld_ne f x h]

/-! ## The memory window -/

@[simp] theorem State.byte_setByte_same (s : State) (a : Nat) (v : Byte) : (s.setByte a v).byte a = v :=
  KMap.get_set_same _ _ _ _

theorem State.byte_setByte_ne (s : State) {a b : Nat} (v : Byte) (h : b ≠ a) : (s.setByte a v).byte b = s.byte b := by
  unfold State.byte State.setByte
  exact KMap.get_set_ne _ _ _ _ h

/-- Bytes outside the range written are unchanged. -/
theorem State.byte_setBytes_out (s : State) (a : Nat) (bs : List Byte) (b : Nat) (h : b < a ∨ a + bs.length ≤ b) :
    (s.setBytes a bs).byte b = s.byte b := by
  induction bs generalizing s a with
  | nil => rfl
  | cons x bs ih =>
    simp only [List.length_cons] at h
    unfold State.setBytes
    rw [ih _ _ (by omega), s.byte_setByte_ne _ (by omega)]

/-- Bytes in the range written read as written. -/
theorem State.byte_setBytes_in (s : State) (a : Nat) (bs : List Byte) (i : Nat) (h : i < bs.length) :
    (s.setBytes a bs).byte (a + i) = bs[i] := by
  induction bs generalizing s a i with
  | nil => simp at h
  | cons x bs ih =>
    unfold State.setBytes
    cases i with
    | zero => rw [State.byte_setBytes_out _ _ _ _ (by omega)]; simp
    | succ i =>
      have := ih (s.setByte a x) (a + 1) i (by simpa using h)
      rw [show a + (i + 1) = a + 1 + i by omega, this]; rfl

/-- The memory stays in its canonical form. -/
theorem State.wf_setByte (s : State) (a : Nat) (v : Byte) (h : Memory.wf s.mem) : Memory.wf (s.setByte a v).mem :=
  KMap.wf_set _ _ _ _ h

theorem State.wf_setBytes (s : State) (a : Nat) (bs : List Byte) (h : Memory.wf s.mem) :
    Memory.wf (s.setBytes a bs).mem := by
  induction bs generalizing s a with
  | nil => exact h
  | cons x bs ih => exact ih _ _ (s.wf_setByte a x h)

theorem State.wf_setWord (s : State) (a : Nat) (w : Word) (h : Memory.wf s.mem) : Memory.wf (s.setWord a w).mem :=
  s.wf_setBytes a _ h

/-- Two memories in canonical form that read alike are equal data. -/
theorem Memory.ext (m n : List Host.Cell) (hm : Memory.wf m) (hn : Memory.wf n)
    (h : ∀ a, KMap.get 0 m a = KMap.get 0 n a) : m = n := KMap.ext_of_get 0 m n hm hn h

/-! ## Checked writes -/

/-- A write that no check refuses: the merged word, then the register's effect. -/
theorem State.write_ok (s : State) (src : Req) (r : RegSpec) (a : Nat) (w : Word) (eff : State → State)
    (h : s.blockRefuse src a = none) :
    s.write src r a w none eff = (eff (s.setReg a (mergeWord r.fields (s.locked src) (s.reg a) (s.tied r.fields a w))),
      if lockHit r.fields (s.locked src) (s.reg a) w then some .accessErr else none) := by
  simp [State.write, h]

/-- A write that a check refuses changes nothing. -/
theorem State.write_refused (s : State) (src : Req) (r : RegSpec) (a : Nat) (w : Word) (deny : Option Refuse)
    (eff : State → State) (e : Refuse) (h : s.blockRefuse src a = some e ∨ (s.blockRefuse src a = none ∧ deny = some e)) :
    s.write src r a w deny eff = (s, some e) := by
  rcases h with h | ⟨h, rfl⟩ <;> simp [State.write, h]

end Sys2Proof.Machine
end

