-- ==== Sys2Proof/Laws/State.lean ====
section
/-! SUPPORT. What each elementary update of the state leaves alone: one theorem for each update, whose parts say for every other
field that it is unchanged. All hold by `rfl`, and `simp` uses each part as a rewrite rule. -/

namespace Sys2Proof.Machine

@[simp] theorem State.setReg_fields (s : State) (a : Nat) (v : Word) :
    (s.setReg a v).mem = s.mem ∧ (s.setReg a v).holds = s.holds ∧ (s.setReg a v).tm = s.tm ∧ (s.setReg a v).tie = s.tie ∧
    (s.setReg a v).evq = s.evq ∧ (s.setReg a v).evIn = s.evIn ∧ (s.setReg a v).scheds = s.scheds ∧
    (s.setReg a v).seqs = s.seqs ∧ (s.setReg a v).tqs = s.tqs ∧ (s.setReg a v).chans = s.chans ∧
    (s.setReg a v).freqs = s.freqs ∧ (s.setReg a v).slotLog = s.slotLog ∧ (s.setReg a v).envs = s.envs ∧
    (s.setReg a v).marks = s.marks ∧ (s.setReg a v).once = s.once ∧ (s.setReg a v).parity = s.parity ∧
    (s.setReg a v).decs = s.decs ∧ (s.setReg a v).tileViews = s.tileViews ∧ (s.setReg a v).viewAts = s.viewAts ∧
    (s.setReg a v).fluxes = s.fluxes ∧ (s.setReg a v).biases = s.biases ∧ (s.setReg a v).clrSamp = s.clrSamp ∧
    (s.setReg a v).heldWrites = s.heldWrites ∧ (s.setReg a v).lanes = s.lanes ∧ (s.setReg a v).banks = s.banks ∧
    (s.setReg a v).recs = s.recs ∧ (s.setReg a v).tileRels = s.tileRels ∧ (s.setReg a v).devRels = s.devRels ∧
    (s.setReg a v).remRels = s.remRels ∧ (s.setReg a v).parIns = s.parIns ∧ (s.setReg a v).links = s.links ∧
    (s.setReg a v).pair2 = s.pair2 ∧ (s.setReg a v).ttx = s.ttx ∧ (s.setReg a v).rings = s.rings ∧
    (s.setReg a v).pcie = s.pcie ∧ (s.setReg a v).henRestart = s.henRestart ∧ (s.setReg a v).refLost = s.refLost ∧
    (s.setReg a v).shutAt = s.shutAt ∧ (s.setReg a v).ptp = s.ptp ∧ (s.setReg a v).eths = s.eths ∧
    (s.setReg a v).tius = s.tius ∧ (s.setReg a v).tms = s.tms ∧ (s.setReg a v).exps = s.exps ∧ (s.setReg a v).hks = s.hks ∧
    (s.setReg a v).sns = s.sns ∧ (s.setReg a v).power = s.power ∧ (s.setReg a v).avsAt = s.avsAt ∧
    (s.setReg a v).convs = s.convs ∧ (s.setReg a v).cal = s.cal ∧ (s.setReg a v).book = s.book ∧
    (s.setReg a v).aon = s.aon ∧ (s.setReg a v).refx = s.refx ∧ (s.setReg a v).cfg = s.cfg ∧ (s.setReg a v).wl = s.wl ∧
    (s.setReg a v).spdm = s.spdm ∧ (s.setReg a v).jtag = s.jtag ∧ (s.setReg a v).out = s.out ∧
    (s.setReg a v).readData = s.readData ∧ (s.setReg a v).readMem = s.readMem ∧ (s.setReg a v).pending = s.pending := by
  and_intros <;> rfl

@[simp] theorem State.raiseReg_fields (s : State) (a : Nat) (m : Word) :
    (s.raiseReg a m).mem = s.mem ∧ (s.raiseReg a m).holds = s.holds ∧ (s.raiseReg a m).tm = s.tm ∧
    (s.raiseReg a m).evq = s.evq ∧ (s.raiseReg a m).evIn = s.evIn ∧ (s.raiseReg a m).scheds = s.scheds ∧
    (s.raiseReg a m).seqs = s.seqs ∧ (s.raiseReg a m).tqs = s.tqs ∧ (s.raiseReg a m).chans = s.chans ∧
    (s.raiseReg a m).freqs = s.freqs ∧ (s.raiseReg a m).slotLog = s.slotLog ∧ (s.raiseReg a m).envs = s.envs ∧
    (s.raiseReg a m).marks = s.marks ∧ (s.raiseReg a m).once = s.once ∧ (s.raiseReg a m).parity = s.parity ∧
    (s.raiseReg a m).decs = s.decs ∧ (s.raiseReg a m).tileViews = s.tileViews ∧ (s.raiseReg a m).viewAts = s.viewAts ∧
    (s.raiseReg a m).fluxes = s.fluxes ∧ (s.raiseReg a m).biases = s.biases ∧ (s.raiseReg a m).clrSamp = s.clrSamp ∧
    (s.raiseReg a m).heldWrites = s.heldWrites ∧ (s.raiseReg a m).lanes = s.lanes ∧ (s.raiseReg a m).banks = s.banks ∧
    (s.raiseReg a m).recs = s.recs ∧ (s.raiseReg a m).tileRels = s.tileRels ∧ (s.raiseReg a m).devRels = s.devRels ∧
    (s.raiseReg a m).remRels = s.remRels ∧ (s.raiseReg a m).parIns = s.parIns ∧ (s.raiseReg a m).links = s.links ∧
    (s.raiseReg a m).pair2 = s.pair2 ∧ (s.raiseReg a m).ttx = s.ttx ∧ (s.raiseReg a m).rings = s.rings ∧
    (s.raiseReg a m).pcie = s.pcie ∧ (s.raiseReg a m).henRestart = s.henRestart ∧ (s.raiseReg a m).refLost = s.refLost ∧
    (s.raiseReg a m).shutAt = s.shutAt ∧ (s.raiseReg a m).ptp = s.ptp ∧ (s.raiseReg a m).eths = s.eths ∧
    (s.raiseReg a m).tius = s.tius ∧ (s.raiseReg a m).tms = s.tms ∧ (s.raiseReg a m).exps = s.exps ∧
    (s.raiseReg a m).hks = s.hks ∧ (s.raiseReg a m).sns = s.sns ∧ (s.raiseReg a m).power = s.power ∧
    (s.raiseReg a m).avsAt = s.avsAt ∧ (s.raiseReg a m).convs = s.convs ∧ (s.raiseReg a m).cal = s.cal ∧
    (s.raiseReg a m).book = s.book ∧ (s.raiseReg a m).aon = s.aon ∧ (s.raiseReg a m).refx = s.refx ∧
    (s.raiseReg a m).cfg = s.cfg ∧ (s.raiseReg a m).wl = s.wl ∧ (s.raiseReg a m).spdm = s.spdm ∧
    (s.raiseReg a m).jtag = s.jtag ∧ (s.raiseReg a m).out = s.out ∧ (s.raiseReg a m).readData = s.readData ∧
    (s.raiseReg a m).readMem = s.readMem ∧ (s.raiseReg a m).pending = s.pending := by
  and_intros <;> rfl

@[simp] theorem State.note_fields (s : State) (a : Nat) (f : Fld) (x : Nat) :
    (s.note a f x).regs = s.regs ∧ (s.note a f x).mem = s.mem ∧ (s.note a f x).holds = s.holds ∧ (s.note a f x).tm = s.tm ∧
    (s.note a f x).evq = s.evq ∧ (s.note a f x).evIn = s.evIn ∧ (s.note a f x).scheds = s.scheds ∧
    (s.note a f x).seqs = s.seqs ∧ (s.note a f x).tqs = s.tqs ∧ (s.note a f x).chans = s.chans ∧
    (s.note a f x).freqs = s.freqs ∧ (s.note a f x).slotLog = s.slotLog ∧ (s.note a f x).envs = s.envs ∧
    (s.note a f x).marks = s.marks ∧ (s.note a f x).once = s.once ∧ (s.note a f x).parity = s.parity ∧
    (s.note a f x).decs = s.decs ∧ (s.note a f x).tileViews = s.tileViews ∧ (s.note a f x).viewAts = s.viewAts ∧
    (s.note a f x).fluxes = s.fluxes ∧ (s.note a f x).biases = s.biases ∧ (s.note a f x).clrSamp = s.clrSamp ∧
    (s.note a f x).heldWrites = s.heldWrites ∧ (s.note a f x).lanes = s.lanes ∧ (s.note a f x).banks = s.banks ∧
    (s.note a f x).recs = s.recs ∧ (s.note a f x).tileRels = s.tileRels ∧ (s.note a f x).devRels = s.devRels ∧
    (s.note a f x).remRels = s.remRels ∧ (s.note a f x).parIns = s.parIns ∧ (s.note a f x).links = s.links ∧
    (s.note a f x).pair2 = s.pair2 ∧ (s.note a f x).ttx = s.ttx ∧ (s.note a f x).rings = s.rings ∧
    (s.note a f x).pcie = s.pcie ∧ (s.note a f x).henRestart = s.henRestart ∧ (s.note a f x).refLost = s.refLost ∧
    (s.note a f x).shutAt = s.shutAt ∧ (s.note a f x).ptp = s.ptp ∧ (s.note a f x).eths = s.eths ∧
    (s.note a f x).tius = s.tius ∧ (s.note a f x).tms = s.tms ∧ (s.note a f x).exps = s.exps ∧ (s.note a f x).hks = s.hks ∧
    (s.note a f x).sns = s.sns ∧ (s.note a f x).power = s.power ∧ (s.note a f x).avsAt = s.avsAt ∧
    (s.note a f x).convs = s.convs ∧ (s.note a f x).cal = s.cal ∧ (s.note a f x).book = s.book ∧
    (s.note a f x).aon = s.aon ∧ (s.note a f x).refx = s.refx ∧ (s.note a f x).cfg = s.cfg ∧ (s.note a f x).wl = s.wl ∧
    (s.note a f x).spdm = s.spdm ∧ (s.note a f x).jtag = s.jtag ∧ (s.note a f x).out = s.out ∧
    (s.note a f x).readData = s.readData ∧ (s.note a f x).readMem = s.readMem ∧ (s.note a f x).pending = s.pending := by
  and_intros <;> rfl

@[simp] theorem State.raise_fields (s : State) (a : Nat) (f : Fld) (x : Nat) :
    (s.raise a f x).mem = s.mem ∧ (s.raise a f x).holds = s.holds ∧ (s.raise a f x).tm = s.tm ∧
    (s.raise a f x).evq = s.evq ∧ (s.raise a f x).evIn = s.evIn ∧ (s.raise a f x).scheds = s.scheds ∧
    (s.raise a f x).seqs = s.seqs ∧ (s.raise a f x).tqs = s.tqs ∧ (s.raise a f x).chans = s.chans ∧
    (s.raise a f x).freqs = s.freqs ∧ (s.raise a f x).slotLog = s.slotLog ∧ (s.raise a f x).envs = s.envs ∧
    (s.raise a f x).marks = s.marks ∧ (s.raise a f x).once = s.once ∧ (s.raise a f x).parity = s.parity ∧
    (s.raise a f x).decs = s.decs ∧ (s.raise a f x).tileViews = s.tileViews ∧ (s.raise a f x).viewAts = s.viewAts ∧
    (s.raise a f x).fluxes = s.fluxes ∧ (s.raise a f x).biases = s.biases ∧ (s.raise a f x).clrSamp = s.clrSamp ∧
    (s.raise a f x).heldWrites = s.heldWrites ∧ (s.raise a f x).lanes = s.lanes ∧ (s.raise a f x).banks = s.banks ∧
    (s.raise a f x).recs = s.recs ∧ (s.raise a f x).tileRels = s.tileRels ∧ (s.raise a f x).devRels = s.devRels ∧
    (s.raise a f x).remRels = s.remRels ∧ (s.raise a f x).parIns = s.parIns ∧ (s.raise a f x).links = s.links ∧
    (s.raise a f x).pair2 = s.pair2 ∧ (s.raise a f x).ttx = s.ttx ∧ (s.raise a f x).rings = s.rings ∧
    (s.raise a f x).pcie = s.pcie ∧ (s.raise a f x).henRestart = s.henRestart ∧ (s.raise a f x).refLost = s.refLost ∧
    (s.raise a f x).shutAt = s.shutAt ∧ (s.raise a f x).ptp = s.ptp ∧ (s.raise a f x).eths = s.eths ∧
    (s.raise a f x).tius = s.tius ∧ (s.raise a f x).tms = s.tms ∧ (s.raise a f x).exps = s.exps ∧
    (s.raise a f x).hks = s.hks ∧ (s.raise a f x).sns = s.sns ∧ (s.raise a f x).power = s.power ∧
    (s.raise a f x).avsAt = s.avsAt ∧ (s.raise a f x).convs = s.convs ∧ (s.raise a f x).cal = s.cal ∧
    (s.raise a f x).book = s.book ∧ (s.raise a f x).aon = s.aon ∧ (s.raise a f x).refx = s.refx ∧
    (s.raise a f x).cfg = s.cfg ∧ (s.raise a f x).wl = s.wl ∧ (s.raise a f x).spdm = s.spdm ∧
    (s.raise a f x).jtag = s.jtag ∧ (s.raise a f x).out = s.out ∧ (s.raise a f x).readData = s.readData ∧
    (s.raise a f x).readMem = s.readMem ∧ (s.raise a f x).pending = s.pending := by
  and_intros <;> rfl

@[simp] theorem State.setSreg_fields (s : State) (t q i : Nat) (v : Word) :
    (s.setSreg t q i v).mem = s.mem ∧ (s.setSreg t q i v).holds = s.holds ∧ (s.setSreg t q i v).tm = s.tm ∧
    (s.setSreg t q i v).tie = s.tie ∧ (s.setSreg t q i v).evq = s.evq ∧ (s.setSreg t q i v).evIn = s.evIn ∧
    (s.setSreg t q i v).scheds = s.scheds ∧ (s.setSreg t q i v).seqs = s.seqs ∧ (s.setSreg t q i v).tqs = s.tqs ∧
    (s.setSreg t q i v).chans = s.chans ∧ (s.setSreg t q i v).freqs = s.freqs ∧ (s.setSreg t q i v).slotLog = s.slotLog ∧
    (s.setSreg t q i v).envs = s.envs ∧ (s.setSreg t q i v).marks = s.marks ∧ (s.setSreg t q i v).once = s.once ∧
    (s.setSreg t q i v).parity = s.parity ∧ (s.setSreg t q i v).decs = s.decs ∧
    (s.setSreg t q i v).tileViews = s.tileViews ∧ (s.setSreg t q i v).viewAts = s.viewAts ∧
    (s.setSreg t q i v).fluxes = s.fluxes ∧ (s.setSreg t q i v).biases = s.biases ∧
    (s.setSreg t q i v).clrSamp = s.clrSamp ∧ (s.setSreg t q i v).heldWrites = s.heldWrites ∧
    (s.setSreg t q i v).lanes = s.lanes ∧ (s.setSreg t q i v).banks = s.banks ∧ (s.setSreg t q i v).recs = s.recs ∧
    (s.setSreg t q i v).tileRels = s.tileRels ∧ (s.setSreg t q i v).devRels = s.devRels ∧
    (s.setSreg t q i v).remRels = s.remRels ∧ (s.setSreg t q i v).parIns = s.parIns ∧ (s.setSreg t q i v).links = s.links ∧
    (s.setSreg t q i v).pair2 = s.pair2 ∧ (s.setSreg t q i v).ttx = s.ttx ∧ (s.setSreg t q i v).rings = s.rings ∧
    (s.setSreg t q i v).pcie = s.pcie ∧ (s.setSreg t q i v).henRestart = s.henRestart ∧
    (s.setSreg t q i v).refLost = s.refLost ∧ (s.setSreg t q i v).shutAt = s.shutAt ∧ (s.setSreg t q i v).ptp = s.ptp ∧
    (s.setSreg t q i v).eths = s.eths ∧ (s.setSreg t q i v).tius = s.tius ∧ (s.setSreg t q i v).tms = s.tms ∧
    (s.setSreg t q i v).exps = s.exps ∧ (s.setSreg t q i v).hks = s.hks ∧ (s.setSreg t q i v).sns = s.sns ∧
    (s.setSreg t q i v).power = s.power ∧ (s.setSreg t q i v).avsAt = s.avsAt ∧ (s.setSreg t q i v).convs = s.convs ∧
    (s.setSreg t q i v).cal = s.cal ∧ (s.setSreg t q i v).book = s.book ∧ (s.setSreg t q i v).aon = s.aon ∧
    (s.setSreg t q i v).refx = s.refx ∧ (s.setSreg t q i v).cfg = s.cfg ∧ (s.setSreg t q i v).wl = s.wl ∧
    (s.setSreg t q i v).spdm = s.spdm ∧ (s.setSreg t q i v).jtag = s.jtag ∧ (s.setSreg t q i v).out = s.out ∧
    (s.setSreg t q i v).readData = s.readData ∧ (s.setSreg t q i v).readMem = s.readMem ∧
    (s.setSreg t q i v).pending = s.pending := by
  and_intros <;> rfl

@[simp] theorem State.bump_fields (s : State) (a : Nat) :
    (s.bump a).mem = s.mem ∧ (s.bump a).holds = s.holds ∧ (s.bump a).tm = s.tm ∧ (s.bump a).tie = s.tie ∧
    (s.bump a).evq = s.evq ∧ (s.bump a).evIn = s.evIn ∧ (s.bump a).scheds = s.scheds ∧ (s.bump a).seqs = s.seqs ∧
    (s.bump a).tqs = s.tqs ∧ (s.bump a).chans = s.chans ∧ (s.bump a).freqs = s.freqs ∧ (s.bump a).slotLog = s.slotLog ∧
    (s.bump a).envs = s.envs ∧ (s.bump a).marks = s.marks ∧ (s.bump a).once = s.once ∧ (s.bump a).parity = s.parity ∧
    (s.bump a).decs = s.decs ∧ (s.bump a).tileViews = s.tileViews ∧ (s.bump a).viewAts = s.viewAts ∧
    (s.bump a).fluxes = s.fluxes ∧ (s.bump a).biases = s.biases ∧ (s.bump a).clrSamp = s.clrSamp ∧
    (s.bump a).heldWrites = s.heldWrites ∧ (s.bump a).lanes = s.lanes ∧ (s.bump a).banks = s.banks ∧
    (s.bump a).recs = s.recs ∧ (s.bump a).tileRels = s.tileRels ∧ (s.bump a).devRels = s.devRels ∧
    (s.bump a).remRels = s.remRels ∧ (s.bump a).parIns = s.parIns ∧ (s.bump a).links = s.links ∧
    (s.bump a).pair2 = s.pair2 ∧ (s.bump a).ttx = s.ttx ∧ (s.bump a).rings = s.rings ∧ (s.bump a).pcie = s.pcie ∧
    (s.bump a).henRestart = s.henRestart ∧ (s.bump a).refLost = s.refLost ∧ (s.bump a).shutAt = s.shutAt ∧
    (s.bump a).ptp = s.ptp ∧ (s.bump a).eths = s.eths ∧ (s.bump a).tius = s.tius ∧ (s.bump a).tms = s.tms ∧
    (s.bump a).exps = s.exps ∧ (s.bump a).hks = s.hks ∧ (s.bump a).sns = s.sns ∧ (s.bump a).power = s.power ∧
    (s.bump a).avsAt = s.avsAt ∧ (s.bump a).convs = s.convs ∧ (s.bump a).cal = s.cal ∧ (s.bump a).book = s.book ∧
    (s.bump a).aon = s.aon ∧ (s.bump a).refx = s.refx ∧ (s.bump a).cfg = s.cfg ∧ (s.bump a).wl = s.wl ∧
    (s.bump a).spdm = s.spdm ∧ (s.bump a).jtag = s.jtag ∧ (s.bump a).out = s.out ∧ (s.bump a).readData = s.readData ∧
    (s.bump a).readMem = s.readMem ∧ (s.bump a).pending = s.pending := by
  and_intros <;> rfl

@[simp] theorem State.bumpBy_fields (s : State) (a n : Nat) :
    (s.bumpBy a n).mem = s.mem ∧ (s.bumpBy a n).holds = s.holds ∧ (s.bumpBy a n).tm = s.tm ∧ (s.bumpBy a n).tie = s.tie ∧
    (s.bumpBy a n).evq = s.evq ∧ (s.bumpBy a n).evIn = s.evIn ∧ (s.bumpBy a n).scheds = s.scheds ∧
    (s.bumpBy a n).seqs = s.seqs ∧ (s.bumpBy a n).tqs = s.tqs ∧ (s.bumpBy a n).chans = s.chans ∧
    (s.bumpBy a n).freqs = s.freqs ∧ (s.bumpBy a n).slotLog = s.slotLog ∧ (s.bumpBy a n).envs = s.envs ∧
    (s.bumpBy a n).marks = s.marks ∧ (s.bumpBy a n).once = s.once ∧ (s.bumpBy a n).parity = s.parity ∧
    (s.bumpBy a n).decs = s.decs ∧ (s.bumpBy a n).tileViews = s.tileViews ∧ (s.bumpBy a n).viewAts = s.viewAts ∧
    (s.bumpBy a n).fluxes = s.fluxes ∧ (s.bumpBy a n).biases = s.biases ∧ (s.bumpBy a n).clrSamp = s.clrSamp ∧
    (s.bumpBy a n).heldWrites = s.heldWrites ∧ (s.bumpBy a n).lanes = s.lanes ∧ (s.bumpBy a n).banks = s.banks ∧
    (s.bumpBy a n).recs = s.recs ∧ (s.bumpBy a n).tileRels = s.tileRels ∧ (s.bumpBy a n).devRels = s.devRels ∧
    (s.bumpBy a n).remRels = s.remRels ∧ (s.bumpBy a n).parIns = s.parIns ∧ (s.bumpBy a n).links = s.links ∧
    (s.bumpBy a n).pair2 = s.pair2 ∧ (s.bumpBy a n).ttx = s.ttx ∧ (s.bumpBy a n).rings = s.rings ∧
    (s.bumpBy a n).pcie = s.pcie ∧ (s.bumpBy a n).henRestart = s.henRestart ∧ (s.bumpBy a n).refLost = s.refLost ∧
    (s.bumpBy a n).shutAt = s.shutAt ∧ (s.bumpBy a n).ptp = s.ptp ∧ (s.bumpBy a n).eths = s.eths ∧
    (s.bumpBy a n).tius = s.tius ∧ (s.bumpBy a n).tms = s.tms ∧ (s.bumpBy a n).exps = s.exps ∧ (s.bumpBy a n).hks = s.hks ∧
    (s.bumpBy a n).sns = s.sns ∧ (s.bumpBy a n).power = s.power ∧ (s.bumpBy a n).avsAt = s.avsAt ∧
    (s.bumpBy a n).convs = s.convs ∧ (s.bumpBy a n).cal = s.cal ∧ (s.bumpBy a n).book = s.book ∧
    (s.bumpBy a n).aon = s.aon ∧ (s.bumpBy a n).refx = s.refx ∧ (s.bumpBy a n).cfg = s.cfg ∧ (s.bumpBy a n).wl = s.wl ∧
    (s.bumpBy a n).spdm = s.spdm ∧ (s.bumpBy a n).jtag = s.jtag ∧ (s.bumpBy a n).out = s.out ∧
    (s.bumpBy a n).readData = s.readData ∧ (s.bumpBy a n).readMem = s.readMem ∧ (s.bumpBy a n).pending = s.pending := by
  and_intros <;> rfl

@[simp] theorem State.setFld_fields (s : State) (a : Nat) (f : Fld) (x : Nat) :
    (s.setFld a f x).mem = s.mem ∧ (s.setFld a f x).holds = s.holds ∧ (s.setFld a f x).tm = s.tm ∧
    (s.setFld a f x).tie = s.tie ∧ (s.setFld a f x).evq = s.evq ∧ (s.setFld a f x).evIn = s.evIn ∧
    (s.setFld a f x).scheds = s.scheds ∧ (s.setFld a f x).seqs = s.seqs ∧ (s.setFld a f x).tqs = s.tqs ∧
    (s.setFld a f x).chans = s.chans ∧ (s.setFld a f x).freqs = s.freqs ∧ (s.setFld a f x).slotLog = s.slotLog ∧
    (s.setFld a f x).envs = s.envs ∧ (s.setFld a f x).marks = s.marks ∧ (s.setFld a f x).once = s.once ∧
    (s.setFld a f x).parity = s.parity ∧ (s.setFld a f x).decs = s.decs ∧ (s.setFld a f x).tileViews = s.tileViews ∧
    (s.setFld a f x).viewAts = s.viewAts ∧ (s.setFld a f x).fluxes = s.fluxes ∧ (s.setFld a f x).biases = s.biases ∧
    (s.setFld a f x).clrSamp = s.clrSamp ∧ (s.setFld a f x).heldWrites = s.heldWrites ∧ (s.setFld a f x).lanes = s.lanes ∧
    (s.setFld a f x).banks = s.banks ∧ (s.setFld a f x).recs = s.recs ∧ (s.setFld a f x).tileRels = s.tileRels ∧
    (s.setFld a f x).devRels = s.devRels ∧ (s.setFld a f x).remRels = s.remRels ∧ (s.setFld a f x).parIns = s.parIns ∧
    (s.setFld a f x).links = s.links ∧ (s.setFld a f x).pair2 = s.pair2 ∧ (s.setFld a f x).ttx = s.ttx ∧
    (s.setFld a f x).rings = s.rings ∧ (s.setFld a f x).pcie = s.pcie ∧ (s.setFld a f x).henRestart = s.henRestart ∧
    (s.setFld a f x).refLost = s.refLost ∧ (s.setFld a f x).shutAt = s.shutAt ∧ (s.setFld a f x).ptp = s.ptp ∧
    (s.setFld a f x).eths = s.eths ∧ (s.setFld a f x).tius = s.tius ∧ (s.setFld a f x).tms = s.tms ∧
    (s.setFld a f x).exps = s.exps ∧ (s.setFld a f x).hks = s.hks ∧ (s.setFld a f x).sns = s.sns ∧
    (s.setFld a f x).power = s.power ∧ (s.setFld a f x).avsAt = s.avsAt ∧ (s.setFld a f x).convs = s.convs ∧
    (s.setFld a f x).cal = s.cal ∧ (s.setFld a f x).book = s.book ∧ (s.setFld a f x).aon = s.aon ∧
    (s.setFld a f x).refx = s.refx ∧ (s.setFld a f x).cfg = s.cfg ∧ (s.setFld a f x).wl = s.wl ∧
    (s.setFld a f x).spdm = s.spdm ∧ (s.setFld a f x).jtag = s.jtag ∧ (s.setFld a f x).out = s.out ∧
    (s.setFld a f x).readData = s.readData ∧ (s.setFld a f x).readMem = s.readMem ∧
    (s.setFld a f x).pending = s.pending := by
  and_intros <;> rfl

@[simp] theorem State.setHold_fields (s : State) (lo : Nat) (h : Hold) :
    (s.setHold lo h).regs = s.regs ∧ (s.setHold lo h).mem = s.mem ∧ (s.setHold lo h).tm = s.tm ∧
    (s.setHold lo h).tie = s.tie ∧ (s.setHold lo h).evq = s.evq ∧ (s.setHold lo h).evIn = s.evIn ∧
    (s.setHold lo h).scheds = s.scheds ∧ (s.setHold lo h).seqs = s.seqs ∧ (s.setHold lo h).tqs = s.tqs ∧
    (s.setHold lo h).chans = s.chans ∧ (s.setHold lo h).freqs = s.freqs ∧ (s.setHold lo h).slotLog = s.slotLog ∧
    (s.setHold lo h).envs = s.envs ∧ (s.setHold lo h).marks = s.marks ∧ (s.setHold lo h).once = s.once ∧
    (s.setHold lo h).parity = s.parity ∧ (s.setHold lo h).decs = s.decs ∧ (s.setHold lo h).tileViews = s.tileViews ∧
    (s.setHold lo h).viewAts = s.viewAts ∧ (s.setHold lo h).fluxes = s.fluxes ∧ (s.setHold lo h).biases = s.biases ∧
    (s.setHold lo h).clrSamp = s.clrSamp ∧ (s.setHold lo h).heldWrites = s.heldWrites ∧ (s.setHold lo h).lanes = s.lanes ∧
    (s.setHold lo h).banks = s.banks ∧ (s.setHold lo h).recs = s.recs ∧ (s.setHold lo h).tileRels = s.tileRels ∧
    (s.setHold lo h).devRels = s.devRels ∧ (s.setHold lo h).remRels = s.remRels ∧ (s.setHold lo h).parIns = s.parIns ∧
    (s.setHold lo h).links = s.links ∧ (s.setHold lo h).pair2 = s.pair2 ∧ (s.setHold lo h).ttx = s.ttx ∧
    (s.setHold lo h).rings = s.rings ∧ (s.setHold lo h).pcie = s.pcie ∧ (s.setHold lo h).henRestart = s.henRestart ∧
    (s.setHold lo h).refLost = s.refLost ∧ (s.setHold lo h).shutAt = s.shutAt ∧ (s.setHold lo h).ptp = s.ptp ∧
    (s.setHold lo h).eths = s.eths ∧ (s.setHold lo h).tius = s.tius ∧ (s.setHold lo h).tms = s.tms ∧
    (s.setHold lo h).exps = s.exps ∧ (s.setHold lo h).hks = s.hks ∧ (s.setHold lo h).sns = s.sns ∧
    (s.setHold lo h).power = s.power ∧ (s.setHold lo h).avsAt = s.avsAt ∧ (s.setHold lo h).convs = s.convs ∧
    (s.setHold lo h).cal = s.cal ∧ (s.setHold lo h).book = s.book ∧ (s.setHold lo h).aon = s.aon ∧
    (s.setHold lo h).refx = s.refx ∧ (s.setHold lo h).cfg = s.cfg ∧ (s.setHold lo h).wl = s.wl ∧
    (s.setHold lo h).spdm = s.spdm ∧ (s.setHold lo h).jtag = s.jtag ∧ (s.setHold lo h).out = s.out ∧
    (s.setHold lo h).readData = s.readData ∧ (s.setHold lo h).readMem = s.readMem ∧
    (s.setHold lo h).pending = s.pending := by
  and_intros <;> rfl

@[simp] theorem State.send_fields (s : State) (o : Out) :
    (s.send o).regs = s.regs ∧ (s.send o).mem = s.mem ∧ (s.send o).holds = s.holds ∧ (s.send o).tm = s.tm ∧
    (s.send o).tie = s.tie ∧ (s.send o).evq = s.evq ∧ (s.send o).evIn = s.evIn ∧ (s.send o).scheds = s.scheds ∧
    (s.send o).seqs = s.seqs ∧ (s.send o).tqs = s.tqs ∧ (s.send o).chans = s.chans ∧ (s.send o).freqs = s.freqs ∧
    (s.send o).slotLog = s.slotLog ∧ (s.send o).envs = s.envs ∧ (s.send o).marks = s.marks ∧ (s.send o).once = s.once ∧
    (s.send o).parity = s.parity ∧ (s.send o).decs = s.decs ∧ (s.send o).tileViews = s.tileViews ∧
    (s.send o).viewAts = s.viewAts ∧ (s.send o).fluxes = s.fluxes ∧ (s.send o).biases = s.biases ∧
    (s.send o).clrSamp = s.clrSamp ∧ (s.send o).heldWrites = s.heldWrites ∧ (s.send o).lanes = s.lanes ∧
    (s.send o).banks = s.banks ∧ (s.send o).recs = s.recs ∧ (s.send o).tileRels = s.tileRels ∧
    (s.send o).devRels = s.devRels ∧ (s.send o).remRels = s.remRels ∧ (s.send o).parIns = s.parIns ∧
    (s.send o).links = s.links ∧ (s.send o).pair2 = s.pair2 ∧ (s.send o).ttx = s.ttx ∧ (s.send o).rings = s.rings ∧
    (s.send o).pcie = s.pcie ∧ (s.send o).henRestart = s.henRestart ∧ (s.send o).refLost = s.refLost ∧
    (s.send o).shutAt = s.shutAt ∧ (s.send o).ptp = s.ptp ∧ (s.send o).eths = s.eths ∧ (s.send o).tius = s.tius ∧
    (s.send o).tms = s.tms ∧ (s.send o).exps = s.exps ∧ (s.send o).hks = s.hks ∧ (s.send o).sns = s.sns ∧
    (s.send o).power = s.power ∧ (s.send o).avsAt = s.avsAt ∧ (s.send o).convs = s.convs ∧ (s.send o).cal = s.cal ∧
    (s.send o).book = s.book ∧ (s.send o).aon = s.aon ∧ (s.send o).refx = s.refx ∧ (s.send o).cfg = s.cfg ∧
    (s.send o).wl = s.wl ∧ (s.send o).spdm = s.spdm ∧ (s.send o).jtag = s.jtag ∧ (s.send o).readData = s.readData ∧
    (s.send o).readMem = s.readMem ∧ (s.send o).pending = s.pending := by
  and_intros <;> rfl

@[simp] theorem State.setSched_fields (s : State) (p : Nat) (c : Sched) :
    (s.setSched p c).regs = s.regs ∧ (s.setSched p c).mem = s.mem ∧ (s.setSched p c).holds = s.holds ∧
    (s.setSched p c).tm = s.tm ∧ (s.setSched p c).tie = s.tie ∧ (s.setSched p c).evq = s.evq ∧
    (s.setSched p c).evIn = s.evIn ∧ (s.setSched p c).seqs = s.seqs ∧ (s.setSched p c).tqs = s.tqs ∧
    (s.setSched p c).chans = s.chans ∧ (s.setSched p c).freqs = s.freqs ∧ (s.setSched p c).slotLog = s.slotLog ∧
    (s.setSched p c).envs = s.envs ∧ (s.setSched p c).marks = s.marks ∧ (s.setSched p c).once = s.once ∧
    (s.setSched p c).parity = s.parity ∧ (s.setSched p c).decs = s.decs ∧ (s.setSched p c).tileViews = s.tileViews ∧
    (s.setSched p c).viewAts = s.viewAts ∧ (s.setSched p c).fluxes = s.fluxes ∧ (s.setSched p c).biases = s.biases ∧
    (s.setSched p c).clrSamp = s.clrSamp ∧ (s.setSched p c).heldWrites = s.heldWrites ∧ (s.setSched p c).lanes = s.lanes ∧
    (s.setSched p c).banks = s.banks ∧ (s.setSched p c).recs = s.recs ∧ (s.setSched p c).tileRels = s.tileRels ∧
    (s.setSched p c).devRels = s.devRels ∧ (s.setSched p c).remRels = s.remRels ∧ (s.setSched p c).parIns = s.parIns ∧
    (s.setSched p c).links = s.links ∧ (s.setSched p c).pair2 = s.pair2 ∧ (s.setSched p c).ttx = s.ttx ∧
    (s.setSched p c).rings = s.rings ∧ (s.setSched p c).pcie = s.pcie ∧ (s.setSched p c).henRestart = s.henRestart ∧
    (s.setSched p c).refLost = s.refLost ∧ (s.setSched p c).shutAt = s.shutAt ∧ (s.setSched p c).ptp = s.ptp ∧
    (s.setSched p c).eths = s.eths ∧ (s.setSched p c).tius = s.tius ∧ (s.setSched p c).tms = s.tms ∧
    (s.setSched p c).exps = s.exps ∧ (s.setSched p c).hks = s.hks ∧ (s.setSched p c).sns = s.sns ∧
    (s.setSched p c).power = s.power ∧ (s.setSched p c).avsAt = s.avsAt ∧ (s.setSched p c).convs = s.convs ∧
    (s.setSched p c).cal = s.cal ∧ (s.setSched p c).book = s.book ∧ (s.setSched p c).aon = s.aon ∧
    (s.setSched p c).refx = s.refx ∧ (s.setSched p c).cfg = s.cfg ∧ (s.setSched p c).wl = s.wl ∧
    (s.setSched p c).spdm = s.spdm ∧ (s.setSched p c).jtag = s.jtag ∧ (s.setSched p c).out = s.out ∧
    (s.setSched p c).readData = s.readData ∧ (s.setSched p c).readMem = s.readMem ∧
    (s.setSched p c).pending = s.pending := by
  and_intros <;> rfl

@[simp] theorem State.setSeq_fields (s : State) (k : Nat) (x : SeqX) :
    (s.setSeq k x).regs = s.regs ∧ (s.setSeq k x).mem = s.mem ∧ (s.setSeq k x).holds = s.holds ∧ (s.setSeq k x).tm = s.tm ∧
    (s.setSeq k x).tie = s.tie ∧ (s.setSeq k x).evq = s.evq ∧ (s.setSeq k x).evIn = s.evIn ∧
    (s.setSeq k x).scheds = s.scheds ∧ (s.setSeq k x).tqs = s.tqs ∧ (s.setSeq k x).chans = s.chans ∧
    (s.setSeq k x).freqs = s.freqs ∧ (s.setSeq k x).slotLog = s.slotLog ∧ (s.setSeq k x).envs = s.envs ∧
    (s.setSeq k x).marks = s.marks ∧ (s.setSeq k x).once = s.once ∧ (s.setSeq k x).parity = s.parity ∧
    (s.setSeq k x).decs = s.decs ∧ (s.setSeq k x).tileViews = s.tileViews ∧ (s.setSeq k x).viewAts = s.viewAts ∧
    (s.setSeq k x).fluxes = s.fluxes ∧ (s.setSeq k x).biases = s.biases ∧ (s.setSeq k x).clrSamp = s.clrSamp ∧
    (s.setSeq k x).heldWrites = s.heldWrites ∧ (s.setSeq k x).lanes = s.lanes ∧ (s.setSeq k x).banks = s.banks ∧
    (s.setSeq k x).recs = s.recs ∧ (s.setSeq k x).tileRels = s.tileRels ∧ (s.setSeq k x).devRels = s.devRels ∧
    (s.setSeq k x).remRels = s.remRels ∧ (s.setSeq k x).parIns = s.parIns ∧ (s.setSeq k x).links = s.links ∧
    (s.setSeq k x).pair2 = s.pair2 ∧ (s.setSeq k x).ttx = s.ttx ∧ (s.setSeq k x).rings = s.rings ∧
    (s.setSeq k x).pcie = s.pcie ∧ (s.setSeq k x).henRestart = s.henRestart ∧ (s.setSeq k x).refLost = s.refLost ∧
    (s.setSeq k x).shutAt = s.shutAt ∧ (s.setSeq k x).ptp = s.ptp ∧ (s.setSeq k x).eths = s.eths ∧
    (s.setSeq k x).tius = s.tius ∧ (s.setSeq k x).tms = s.tms ∧ (s.setSeq k x).exps = s.exps ∧ (s.setSeq k x).hks = s.hks ∧
    (s.setSeq k x).sns = s.sns ∧ (s.setSeq k x).power = s.power ∧ (s.setSeq k x).avsAt = s.avsAt ∧
    (s.setSeq k x).convs = s.convs ∧ (s.setSeq k x).cal = s.cal ∧ (s.setSeq k x).book = s.book ∧
    (s.setSeq k x).aon = s.aon ∧ (s.setSeq k x).refx = s.refx ∧ (s.setSeq k x).cfg = s.cfg ∧ (s.setSeq k x).wl = s.wl ∧
    (s.setSeq k x).spdm = s.spdm ∧ (s.setSeq k x).jtag = s.jtag ∧ (s.setSeq k x).out = s.out ∧
    (s.setSeq k x).readData = s.readData ∧ (s.setSeq k x).readMem = s.readMem ∧ (s.setSeq k x).pending = s.pending := by
  and_intros <;> rfl

@[simp] theorem State.setTq_fields (s : State) (k : Nat) (x : Tq) :
    (s.setTq k x).regs = s.regs ∧ (s.setTq k x).mem = s.mem ∧ (s.setTq k x).holds = s.holds ∧ (s.setTq k x).tm = s.tm ∧
    (s.setTq k x).tie = s.tie ∧ (s.setTq k x).evq = s.evq ∧ (s.setTq k x).evIn = s.evIn ∧ (s.setTq k x).scheds = s.scheds ∧
    (s.setTq k x).seqs = s.seqs ∧ (s.setTq k x).chans = s.chans ∧ (s.setTq k x).freqs = s.freqs ∧
    (s.setTq k x).slotLog = s.slotLog ∧ (s.setTq k x).envs = s.envs ∧ (s.setTq k x).marks = s.marks ∧
    (s.setTq k x).once = s.once ∧ (s.setTq k x).parity = s.parity ∧ (s.setTq k x).decs = s.decs ∧
    (s.setTq k x).tileViews = s.tileViews ∧ (s.setTq k x).viewAts = s.viewAts ∧ (s.setTq k x).fluxes = s.fluxes ∧
    (s.setTq k x).biases = s.biases ∧ (s.setTq k x).clrSamp = s.clrSamp ∧ (s.setTq k x).heldWrites = s.heldWrites ∧
    (s.setTq k x).lanes = s.lanes ∧ (s.setTq k x).banks = s.banks ∧ (s.setTq k x).recs = s.recs ∧
    (s.setTq k x).tileRels = s.tileRels ∧ (s.setTq k x).devRels = s.devRels ∧ (s.setTq k x).remRels = s.remRels ∧
    (s.setTq k x).parIns = s.parIns ∧ (s.setTq k x).links = s.links ∧ (s.setTq k x).pair2 = s.pair2 ∧
    (s.setTq k x).ttx = s.ttx ∧ (s.setTq k x).rings = s.rings ∧ (s.setTq k x).pcie = s.pcie ∧
    (s.setTq k x).henRestart = s.henRestart ∧ (s.setTq k x).refLost = s.refLost ∧ (s.setTq k x).shutAt = s.shutAt ∧
    (s.setTq k x).ptp = s.ptp ∧ (s.setTq k x).eths = s.eths ∧ (s.setTq k x).tius = s.tius ∧ (s.setTq k x).tms = s.tms ∧
    (s.setTq k x).exps = s.exps ∧ (s.setTq k x).hks = s.hks ∧ (s.setTq k x).sns = s.sns ∧ (s.setTq k x).power = s.power ∧
    (s.setTq k x).avsAt = s.avsAt ∧ (s.setTq k x).convs = s.convs ∧ (s.setTq k x).cal = s.cal ∧
    (s.setTq k x).book = s.book ∧ (s.setTq k x).aon = s.aon ∧ (s.setTq k x).refx = s.refx ∧ (s.setTq k x).cfg = s.cfg ∧
    (s.setTq k x).wl = s.wl ∧ (s.setTq k x).spdm = s.spdm ∧ (s.setTq k x).jtag = s.jtag ∧ (s.setTq k x).out = s.out ∧
    (s.setTq k x).readData = s.readData ∧ (s.setTq k x).readMem = s.readMem ∧ (s.setTq k x).pending = s.pending := by
  and_intros <;> rfl

@[simp] theorem State.setChan_fields (s : State) (t n : Nat) (x : Chan) :
    (s.setChan t n x).regs = s.regs ∧ (s.setChan t n x).mem = s.mem ∧ (s.setChan t n x).holds = s.holds ∧
    (s.setChan t n x).tm = s.tm ∧ (s.setChan t n x).tie = s.tie ∧ (s.setChan t n x).evq = s.evq ∧
    (s.setChan t n x).evIn = s.evIn ∧ (s.setChan t n x).scheds = s.scheds ∧ (s.setChan t n x).seqs = s.seqs ∧
    (s.setChan t n x).tqs = s.tqs ∧ (s.setChan t n x).freqs = s.freqs ∧ (s.setChan t n x).slotLog = s.slotLog ∧
    (s.setChan t n x).envs = s.envs ∧ (s.setChan t n x).marks = s.marks ∧ (s.setChan t n x).once = s.once ∧
    (s.setChan t n x).parity = s.parity ∧ (s.setChan t n x).decs = s.decs ∧ (s.setChan t n x).tileViews = s.tileViews ∧
    (s.setChan t n x).viewAts = s.viewAts ∧ (s.setChan t n x).fluxes = s.fluxes ∧ (s.setChan t n x).biases = s.biases ∧
    (s.setChan t n x).clrSamp = s.clrSamp ∧ (s.setChan t n x).heldWrites = s.heldWrites ∧
    (s.setChan t n x).lanes = s.lanes ∧ (s.setChan t n x).banks = s.banks ∧ (s.setChan t n x).recs = s.recs ∧
    (s.setChan t n x).tileRels = s.tileRels ∧ (s.setChan t n x).devRels = s.devRels ∧
    (s.setChan t n x).remRels = s.remRels ∧ (s.setChan t n x).parIns = s.parIns ∧ (s.setChan t n x).links = s.links ∧
    (s.setChan t n x).pair2 = s.pair2 ∧ (s.setChan t n x).ttx = s.ttx ∧ (s.setChan t n x).rings = s.rings ∧
    (s.setChan t n x).pcie = s.pcie ∧ (s.setChan t n x).henRestart = s.henRestart ∧ (s.setChan t n x).refLost = s.refLost ∧
    (s.setChan t n x).shutAt = s.shutAt ∧ (s.setChan t n x).ptp = s.ptp ∧ (s.setChan t n x).eths = s.eths ∧
    (s.setChan t n x).tius = s.tius ∧ (s.setChan t n x).tms = s.tms ∧ (s.setChan t n x).exps = s.exps ∧
    (s.setChan t n x).hks = s.hks ∧ (s.setChan t n x).sns = s.sns ∧ (s.setChan t n x).power = s.power ∧
    (s.setChan t n x).avsAt = s.avsAt ∧ (s.setChan t n x).convs = s.convs ∧ (s.setChan t n x).cal = s.cal ∧
    (s.setChan t n x).book = s.book ∧ (s.setChan t n x).aon = s.aon ∧ (s.setChan t n x).refx = s.refx ∧
    (s.setChan t n x).cfg = s.cfg ∧ (s.setChan t n x).wl = s.wl ∧ (s.setChan t n x).spdm = s.spdm ∧
    (s.setChan t n x).jtag = s.jtag ∧ (s.setChan t n x).out = s.out ∧ (s.setChan t n x).readData = s.readData ∧
    (s.setChan t n x).readMem = s.readMem ∧ (s.setChan t n x).pending = s.pending := by
  and_intros <;> rfl

@[simp] theorem State.setByte_fields (s : State) (a : Nat) (v : Byte) :
    (s.setByte a v).regs = s.regs ∧ (s.setByte a v).holds = s.holds ∧ (s.setByte a v).tm = s.tm ∧
    (s.setByte a v).tie = s.tie ∧ (s.setByte a v).evq = s.evq ∧ (s.setByte a v).evIn = s.evIn ∧
    (s.setByte a v).scheds = s.scheds ∧ (s.setByte a v).seqs = s.seqs ∧ (s.setByte a v).tqs = s.tqs ∧
    (s.setByte a v).chans = s.chans ∧ (s.setByte a v).freqs = s.freqs ∧ (s.setByte a v).slotLog = s.slotLog ∧
    (s.setByte a v).envs = s.envs ∧ (s.setByte a v).marks = s.marks ∧ (s.setByte a v).once = s.once ∧
    (s.setByte a v).parity = s.parity ∧ (s.setByte a v).decs = s.decs ∧ (s.setByte a v).tileViews = s.tileViews ∧
    (s.setByte a v).viewAts = s.viewAts ∧ (s.setByte a v).fluxes = s.fluxes ∧ (s.setByte a v).biases = s.biases ∧
    (s.setByte a v).clrSamp = s.clrSamp ∧ (s.setByte a v).heldWrites = s.heldWrites ∧ (s.setByte a v).lanes = s.lanes ∧
    (s.setByte a v).banks = s.banks ∧ (s.setByte a v).recs = s.recs ∧ (s.setByte a v).tileRels = s.tileRels ∧
    (s.setByte a v).devRels = s.devRels ∧ (s.setByte a v).remRels = s.remRels ∧ (s.setByte a v).parIns = s.parIns ∧
    (s.setByte a v).links = s.links ∧ (s.setByte a v).pair2 = s.pair2 ∧ (s.setByte a v).ttx = s.ttx ∧
    (s.setByte a v).rings = s.rings ∧ (s.setByte a v).pcie = s.pcie ∧ (s.setByte a v).henRestart = s.henRestart ∧
    (s.setByte a v).refLost = s.refLost ∧ (s.setByte a v).shutAt = s.shutAt ∧ (s.setByte a v).ptp = s.ptp ∧
    (s.setByte a v).eths = s.eths ∧ (s.setByte a v).tius = s.tius ∧ (s.setByte a v).tms = s.tms ∧
    (s.setByte a v).exps = s.exps ∧ (s.setByte a v).hks = s.hks ∧ (s.setByte a v).sns = s.sns ∧
    (s.setByte a v).power = s.power ∧ (s.setByte a v).avsAt = s.avsAt ∧ (s.setByte a v).convs = s.convs ∧
    (s.setByte a v).cal = s.cal ∧ (s.setByte a v).book = s.book ∧ (s.setByte a v).aon = s.aon ∧
    (s.setByte a v).refx = s.refx ∧ (s.setByte a v).cfg = s.cfg ∧ (s.setByte a v).wl = s.wl ∧
    (s.setByte a v).spdm = s.spdm ∧ (s.setByte a v).jtag = s.jtag ∧ (s.setByte a v).out = s.out ∧
    (s.setByte a v).readData = s.readData ∧ (s.setByte a v).readMem = s.readMem ∧ (s.setByte a v).pending = s.pending := by
  and_intros <;> rfl

@[simp] theorem State.setLink_fields (s : State) (k : Nat) (x : KLink) :
    (s.setLink k x).regs = s.regs ∧ (s.setLink k x).mem = s.mem ∧ (s.setLink k x).holds = s.holds ∧
    (s.setLink k x).tm = s.tm ∧ (s.setLink k x).tie = s.tie ∧ (s.setLink k x).evq = s.evq ∧ (s.setLink k x).evIn = s.evIn ∧
    (s.setLink k x).scheds = s.scheds ∧ (s.setLink k x).seqs = s.seqs ∧ (s.setLink k x).tqs = s.tqs ∧
    (s.setLink k x).chans = s.chans ∧ (s.setLink k x).freqs = s.freqs ∧ (s.setLink k x).slotLog = s.slotLog ∧
    (s.setLink k x).envs = s.envs ∧ (s.setLink k x).marks = s.marks ∧ (s.setLink k x).once = s.once ∧
    (s.setLink k x).parity = s.parity ∧ (s.setLink k x).decs = s.decs ∧ (s.setLink k x).tileViews = s.tileViews ∧
    (s.setLink k x).viewAts = s.viewAts ∧ (s.setLink k x).fluxes = s.fluxes ∧ (s.setLink k x).biases = s.biases ∧
    (s.setLink k x).clrSamp = s.clrSamp ∧ (s.setLink k x).heldWrites = s.heldWrites ∧ (s.setLink k x).lanes = s.lanes ∧
    (s.setLink k x).banks = s.banks ∧ (s.setLink k x).recs = s.recs ∧ (s.setLink k x).tileRels = s.tileRels ∧
    (s.setLink k x).devRels = s.devRels ∧ (s.setLink k x).remRels = s.remRels ∧ (s.setLink k x).parIns = s.parIns ∧
    (s.setLink k x).pair2 = s.pair2 ∧ (s.setLink k x).ttx = s.ttx ∧ (s.setLink k x).rings = s.rings ∧
    (s.setLink k x).pcie = s.pcie ∧ (s.setLink k x).henRestart = s.henRestart ∧ (s.setLink k x).refLost = s.refLost ∧
    (s.setLink k x).shutAt = s.shutAt ∧ (s.setLink k x).ptp = s.ptp ∧ (s.setLink k x).eths = s.eths ∧
    (s.setLink k x).tius = s.tius ∧ (s.setLink k x).tms = s.tms ∧ (s.setLink k x).exps = s.exps ∧
    (s.setLink k x).hks = s.hks ∧ (s.setLink k x).sns = s.sns ∧ (s.setLink k x).power = s.power ∧
    (s.setLink k x).avsAt = s.avsAt ∧ (s.setLink k x).convs = s.convs ∧ (s.setLink k x).cal = s.cal ∧
    (s.setLink k x).book = s.book ∧ (s.setLink k x).aon = s.aon ∧ (s.setLink k x).refx = s.refx ∧
    (s.setLink k x).cfg = s.cfg ∧ (s.setLink k x).wl = s.wl ∧ (s.setLink k x).spdm = s.spdm ∧
    (s.setLink k x).jtag = s.jtag ∧ (s.setLink k x).out = s.out ∧ (s.setLink k x).readData = s.readData ∧
    (s.setLink k x).readMem = s.readMem ∧ (s.setLink k x).pending = s.pending := by
  and_intros <;> rfl

@[simp] theorem State.setTileView_fields (s : State) (n : Nat) (v : Word) :
    (s.setTileView n v).regs = s.regs ∧ (s.setTileView n v).mem = s.mem ∧ (s.setTileView n v).holds = s.holds ∧
    (s.setTileView n v).tm = s.tm ∧ (s.setTileView n v).tie = s.tie ∧ (s.setTileView n v).evq = s.evq ∧
    (s.setTileView n v).evIn = s.evIn ∧ (s.setTileView n v).scheds = s.scheds ∧ (s.setTileView n v).seqs = s.seqs ∧
    (s.setTileView n v).tqs = s.tqs ∧ (s.setTileView n v).chans = s.chans ∧ (s.setTileView n v).freqs = s.freqs ∧
    (s.setTileView n v).slotLog = s.slotLog ∧ (s.setTileView n v).envs = s.envs ∧ (s.setTileView n v).marks = s.marks ∧
    (s.setTileView n v).once = s.once ∧ (s.setTileView n v).parity = s.parity ∧ (s.setTileView n v).decs = s.decs ∧
    (s.setTileView n v).viewAts = s.viewAts ∧ (s.setTileView n v).fluxes = s.fluxes ∧
    (s.setTileView n v).biases = s.biases ∧ (s.setTileView n v).clrSamp = s.clrSamp ∧
    (s.setTileView n v).heldWrites = s.heldWrites ∧ (s.setTileView n v).lanes = s.lanes ∧
    (s.setTileView n v).banks = s.banks ∧ (s.setTileView n v).recs = s.recs ∧ (s.setTileView n v).tileRels = s.tileRels ∧
    (s.setTileView n v).devRels = s.devRels ∧ (s.setTileView n v).remRels = s.remRels ∧
    (s.setTileView n v).parIns = s.parIns ∧ (s.setTileView n v).links = s.links ∧ (s.setTileView n v).pair2 = s.pair2 ∧
    (s.setTileView n v).ttx = s.ttx ∧ (s.setTileView n v).rings = s.rings ∧ (s.setTileView n v).pcie = s.pcie ∧
    (s.setTileView n v).henRestart = s.henRestart ∧ (s.setTileView n v).refLost = s.refLost ∧
    (s.setTileView n v).shutAt = s.shutAt ∧ (s.setTileView n v).ptp = s.ptp ∧ (s.setTileView n v).eths = s.eths ∧
    (s.setTileView n v).tius = s.tius ∧ (s.setTileView n v).tms = s.tms ∧ (s.setTileView n v).exps = s.exps ∧
    (s.setTileView n v).hks = s.hks ∧ (s.setTileView n v).sns = s.sns ∧ (s.setTileView n v).power = s.power ∧
    (s.setTileView n v).avsAt = s.avsAt ∧ (s.setTileView n v).convs = s.convs ∧ (s.setTileView n v).cal = s.cal ∧
    (s.setTileView n v).book = s.book ∧ (s.setTileView n v).aon = s.aon ∧ (s.setTileView n v).refx = s.refx ∧
    (s.setTileView n v).cfg = s.cfg ∧ (s.setTileView n v).wl = s.wl ∧ (s.setTileView n v).spdm = s.spdm ∧
    (s.setTileView n v).jtag = s.jtag ∧ (s.setTileView n v).out = s.out ∧ (s.setTileView n v).readData = s.readData ∧
    (s.setTileView n v).readMem = s.readMem ∧ (s.setTileView n v).pending = s.pending := by
  and_intros <;> rfl

@[simp] theorem State.setDec_fields (s : State) (t d : Nat) (x : DdX) :
    (s.setDec t d x).regs = s.regs ∧ (s.setDec t d x).mem = s.mem ∧ (s.setDec t d x).holds = s.holds ∧
    (s.setDec t d x).tm = s.tm ∧ (s.setDec t d x).tie = s.tie ∧ (s.setDec t d x).evq = s.evq ∧
    (s.setDec t d x).evIn = s.evIn ∧ (s.setDec t d x).scheds = s.scheds ∧ (s.setDec t d x).seqs = s.seqs ∧
    (s.setDec t d x).tqs = s.tqs ∧ (s.setDec t d x).chans = s.chans ∧ (s.setDec t d x).freqs = s.freqs ∧
    (s.setDec t d x).slotLog = s.slotLog ∧ (s.setDec t d x).envs = s.envs ∧ (s.setDec t d x).marks = s.marks ∧
    (s.setDec t d x).once = s.once ∧ (s.setDec t d x).parity = s.parity ∧ (s.setDec t d x).tileViews = s.tileViews ∧
    (s.setDec t d x).viewAts = s.viewAts ∧ (s.setDec t d x).fluxes = s.fluxes ∧ (s.setDec t d x).biases = s.biases ∧
    (s.setDec t d x).clrSamp = s.clrSamp ∧ (s.setDec t d x).heldWrites = s.heldWrites ∧ (s.setDec t d x).lanes = s.lanes ∧
    (s.setDec t d x).banks = s.banks ∧ (s.setDec t d x).recs = s.recs ∧ (s.setDec t d x).tileRels = s.tileRels ∧
    (s.setDec t d x).devRels = s.devRels ∧ (s.setDec t d x).remRels = s.remRels ∧ (s.setDec t d x).parIns = s.parIns ∧
    (s.setDec t d x).links = s.links ∧ (s.setDec t d x).pair2 = s.pair2 ∧ (s.setDec t d x).ttx = s.ttx ∧
    (s.setDec t d x).rings = s.rings ∧ (s.setDec t d x).pcie = s.pcie ∧ (s.setDec t d x).henRestart = s.henRestart ∧
    (s.setDec t d x).refLost = s.refLost ∧ (s.setDec t d x).shutAt = s.shutAt ∧ (s.setDec t d x).ptp = s.ptp ∧
    (s.setDec t d x).eths = s.eths ∧ (s.setDec t d x).tius = s.tius ∧ (s.setDec t d x).tms = s.tms ∧
    (s.setDec t d x).exps = s.exps ∧ (s.setDec t d x).hks = s.hks ∧ (s.setDec t d x).sns = s.sns ∧
    (s.setDec t d x).power = s.power ∧ (s.setDec t d x).avsAt = s.avsAt ∧ (s.setDec t d x).convs = s.convs ∧
    (s.setDec t d x).cal = s.cal ∧ (s.setDec t d x).book = s.book ∧ (s.setDec t d x).aon = s.aon ∧
    (s.setDec t d x).refx = s.refx ∧ (s.setDec t d x).cfg = s.cfg ∧ (s.setDec t d x).wl = s.wl ∧
    (s.setDec t d x).spdm = s.spdm ∧ (s.setDec t d x).jtag = s.jtag ∧ (s.setDec t d x).out = s.out ∧
    (s.setDec t d x).readData = s.readData ∧ (s.setDec t d x).readMem = s.readMem ∧
    (s.setDec t d x).pending = s.pending := by
  and_intros <;> rfl

@[simp] theorem State.setMark_fields (s : State) (t m : Nat) (x : Mark) :
    (s.setMark t m x).regs = s.regs ∧ (s.setMark t m x).mem = s.mem ∧ (s.setMark t m x).holds = s.holds ∧
    (s.setMark t m x).tm = s.tm ∧ (s.setMark t m x).tie = s.tie ∧ (s.setMark t m x).evq = s.evq ∧
    (s.setMark t m x).evIn = s.evIn ∧ (s.setMark t m x).scheds = s.scheds ∧ (s.setMark t m x).seqs = s.seqs ∧
    (s.setMark t m x).tqs = s.tqs ∧ (s.setMark t m x).chans = s.chans ∧ (s.setMark t m x).freqs = s.freqs ∧
    (s.setMark t m x).slotLog = s.slotLog ∧ (s.setMark t m x).envs = s.envs ∧ (s.setMark t m x).once = s.once ∧
    (s.setMark t m x).parity = s.parity ∧ (s.setMark t m x).decs = s.decs ∧ (s.setMark t m x).tileViews = s.tileViews ∧
    (s.setMark t m x).viewAts = s.viewAts ∧ (s.setMark t m x).fluxes = s.fluxes ∧ (s.setMark t m x).biases = s.biases ∧
    (s.setMark t m x).clrSamp = s.clrSamp ∧ (s.setMark t m x).heldWrites = s.heldWrites ∧
    (s.setMark t m x).lanes = s.lanes ∧ (s.setMark t m x).banks = s.banks ∧ (s.setMark t m x).recs = s.recs ∧
    (s.setMark t m x).tileRels = s.tileRels ∧ (s.setMark t m x).devRels = s.devRels ∧
    (s.setMark t m x).remRels = s.remRels ∧ (s.setMark t m x).parIns = s.parIns ∧ (s.setMark t m x).links = s.links ∧
    (s.setMark t m x).pair2 = s.pair2 ∧ (s.setMark t m x).ttx = s.ttx ∧ (s.setMark t m x).rings = s.rings ∧
    (s.setMark t m x).pcie = s.pcie ∧ (s.setMark t m x).henRestart = s.henRestart ∧ (s.setMark t m x).refLost = s.refLost ∧
    (s.setMark t m x).shutAt = s.shutAt ∧ (s.setMark t m x).ptp = s.ptp ∧ (s.setMark t m x).eths = s.eths ∧
    (s.setMark t m x).tius = s.tius ∧ (s.setMark t m x).tms = s.tms ∧ (s.setMark t m x).exps = s.exps ∧
    (s.setMark t m x).hks = s.hks ∧ (s.setMark t m x).sns = s.sns ∧ (s.setMark t m x).power = s.power ∧
    (s.setMark t m x).avsAt = s.avsAt ∧ (s.setMark t m x).convs = s.convs ∧ (s.setMark t m x).cal = s.cal ∧
    (s.setMark t m x).book = s.book ∧ (s.setMark t m x).aon = s.aon ∧ (s.setMark t m x).refx = s.refx ∧
    (s.setMark t m x).cfg = s.cfg ∧ (s.setMark t m x).wl = s.wl ∧ (s.setMark t m x).spdm = s.spdm ∧
    (s.setMark t m x).jtag = s.jtag ∧ (s.setMark t m x).out = s.out ∧ (s.setMark t m x).readData = s.readData ∧
    (s.setMark t m x).readMem = s.readMem ∧ (s.setMark t m x).pending = s.pending := by
  and_intros <;> rfl

@[simp] theorem State.setFreqWord_fields (s : State) (t n k : Nat) (v : BitVec 48) :
    (s.setFreqWord t n k v).regs = s.regs ∧ (s.setFreqWord t n k v).mem = s.mem ∧ (s.setFreqWord t n k v).holds = s.holds ∧
    (s.setFreqWord t n k v).tm = s.tm ∧ (s.setFreqWord t n k v).tie = s.tie ∧ (s.setFreqWord t n k v).evq = s.evq ∧
    (s.setFreqWord t n k v).evIn = s.evIn ∧ (s.setFreqWord t n k v).scheds = s.scheds ∧
    (s.setFreqWord t n k v).seqs = s.seqs ∧ (s.setFreqWord t n k v).tqs = s.tqs ∧ (s.setFreqWord t n k v).chans = s.chans ∧
    (s.setFreqWord t n k v).slotLog = s.slotLog ∧ (s.setFreqWord t n k v).envs = s.envs ∧
    (s.setFreqWord t n k v).marks = s.marks ∧ (s.setFreqWord t n k v).once = s.once ∧
    (s.setFreqWord t n k v).parity = s.parity ∧ (s.setFreqWord t n k v).decs = s.decs ∧
    (s.setFreqWord t n k v).tileViews = s.tileViews ∧ (s.setFreqWord t n k v).viewAts = s.viewAts ∧
    (s.setFreqWord t n k v).fluxes = s.fluxes ∧ (s.setFreqWord t n k v).biases = s.biases ∧
    (s.setFreqWord t n k v).clrSamp = s.clrSamp ∧ (s.setFreqWord t n k v).heldWrites = s.heldWrites ∧
    (s.setFreqWord t n k v).lanes = s.lanes ∧ (s.setFreqWord t n k v).banks = s.banks ∧
    (s.setFreqWord t n k v).recs = s.recs ∧ (s.setFreqWord t n k v).tileRels = s.tileRels ∧
    (s.setFreqWord t n k v).devRels = s.devRels ∧ (s.setFreqWord t n k v).remRels = s.remRels ∧
    (s.setFreqWord t n k v).parIns = s.parIns ∧ (s.setFreqWord t n k v).links = s.links ∧
    (s.setFreqWord t n k v).pair2 = s.pair2 ∧ (s.setFreqWord t n k v).ttx = s.ttx ∧
    (s.setFreqWord t n k v).rings = s.rings ∧ (s.setFreqWord t n k v).pcie = s.pcie ∧
    (s.setFreqWord t n k v).henRestart = s.henRestart ∧ (s.setFreqWord t n k v).refLost = s.refLost ∧
    (s.setFreqWord t n k v).shutAt = s.shutAt ∧ (s.setFreqWord t n k v).ptp = s.ptp ∧
    (s.setFreqWord t n k v).eths = s.eths ∧ (s.setFreqWord t n k v).tius = s.tius ∧ (s.setFreqWord t n k v).tms = s.tms ∧
    (s.setFreqWord t n k v).exps = s.exps ∧ (s.setFreqWord t n k v).hks = s.hks ∧ (s.setFreqWord t n k v).sns = s.sns ∧
    (s.setFreqWord t n k v).power = s.power ∧ (s.setFreqWord t n k v).avsAt = s.avsAt ∧
    (s.setFreqWord t n k v).convs = s.convs ∧ (s.setFreqWord t n k v).cal = s.cal ∧ (s.setFreqWord t n k v).book = s.book ∧
    (s.setFreqWord t n k v).aon = s.aon ∧ (s.setFreqWord t n k v).refx = s.refx ∧ (s.setFreqWord t n k v).cfg = s.cfg ∧
    (s.setFreqWord t n k v).wl = s.wl ∧ (s.setFreqWord t n k v).spdm = s.spdm ∧ (s.setFreqWord t n k v).jtag = s.jtag ∧
    (s.setFreqWord t n k v).out = s.out ∧ (s.setFreqWord t n k v).readData = s.readData ∧
    (s.setFreqWord t n k v).readMem = s.readMem ∧ (s.setFreqWord t n k v).pending = s.pending := by
  and_intros <;> rfl

@[simp] theorem State.setBias_fields (s : State) (q j : Nat) (x : BiasX) :
    (s.setBias q j x).regs = s.regs ∧ (s.setBias q j x).mem = s.mem ∧ (s.setBias q j x).holds = s.holds ∧
    (s.setBias q j x).tm = s.tm ∧ (s.setBias q j x).tie = s.tie ∧ (s.setBias q j x).evq = s.evq ∧
    (s.setBias q j x).evIn = s.evIn ∧ (s.setBias q j x).scheds = s.scheds ∧ (s.setBias q j x).seqs = s.seqs ∧
    (s.setBias q j x).tqs = s.tqs ∧ (s.setBias q j x).chans = s.chans ∧ (s.setBias q j x).freqs = s.freqs ∧
    (s.setBias q j x).slotLog = s.slotLog ∧ (s.setBias q j x).envs = s.envs ∧ (s.setBias q j x).marks = s.marks ∧
    (s.setBias q j x).once = s.once ∧ (s.setBias q j x).parity = s.parity ∧ (s.setBias q j x).decs = s.decs ∧
    (s.setBias q j x).tileViews = s.tileViews ∧ (s.setBias q j x).viewAts = s.viewAts ∧
    (s.setBias q j x).fluxes = s.fluxes ∧ (s.setBias q j x).clrSamp = s.clrSamp ∧
    (s.setBias q j x).heldWrites = s.heldWrites ∧ (s.setBias q j x).lanes = s.lanes ∧ (s.setBias q j x).banks = s.banks ∧
    (s.setBias q j x).recs = s.recs ∧ (s.setBias q j x).tileRels = s.tileRels ∧ (s.setBias q j x).devRels = s.devRels ∧
    (s.setBias q j x).remRels = s.remRels ∧ (s.setBias q j x).parIns = s.parIns ∧ (s.setBias q j x).links = s.links ∧
    (s.setBias q j x).pair2 = s.pair2 ∧ (s.setBias q j x).ttx = s.ttx ∧ (s.setBias q j x).rings = s.rings ∧
    (s.setBias q j x).pcie = s.pcie ∧ (s.setBias q j x).henRestart = s.henRestart ∧ (s.setBias q j x).refLost = s.refLost ∧
    (s.setBias q j x).shutAt = s.shutAt ∧ (s.setBias q j x).ptp = s.ptp ∧ (s.setBias q j x).eths = s.eths ∧
    (s.setBias q j x).tius = s.tius ∧ (s.setBias q j x).tms = s.tms ∧ (s.setBias q j x).exps = s.exps ∧
    (s.setBias q j x).hks = s.hks ∧ (s.setBias q j x).sns = s.sns ∧ (s.setBias q j x).power = s.power ∧
    (s.setBias q j x).avsAt = s.avsAt ∧ (s.setBias q j x).convs = s.convs ∧ (s.setBias q j x).cal = s.cal ∧
    (s.setBias q j x).book = s.book ∧ (s.setBias q j x).aon = s.aon ∧ (s.setBias q j x).refx = s.refx ∧
    (s.setBias q j x).cfg = s.cfg ∧ (s.setBias q j x).wl = s.wl ∧ (s.setBias q j x).spdm = s.spdm ∧
    (s.setBias q j x).jtag = s.jtag ∧ (s.setBias q j x).out = s.out ∧ (s.setBias q j x).readData = s.readData ∧
    (s.setBias q j x).readMem = s.readMem ∧ (s.setBias q j x).pending = s.pending := by
  and_intros <;> rfl

@[simp] theorem State.holdWrite_fields (s : State) (q : Nat) (h : HeldWrite) :
    (s.holdWrite q h).regs = s.regs ∧ (s.holdWrite q h).mem = s.mem ∧ (s.holdWrite q h).holds = s.holds ∧
    (s.holdWrite q h).tm = s.tm ∧ (s.holdWrite q h).tie = s.tie ∧ (s.holdWrite q h).evq = s.evq ∧
    (s.holdWrite q h).evIn = s.evIn ∧ (s.holdWrite q h).scheds = s.scheds ∧ (s.holdWrite q h).seqs = s.seqs ∧
    (s.holdWrite q h).tqs = s.tqs ∧ (s.holdWrite q h).chans = s.chans ∧ (s.holdWrite q h).freqs = s.freqs ∧
    (s.holdWrite q h).slotLog = s.slotLog ∧ (s.holdWrite q h).envs = s.envs ∧ (s.holdWrite q h).marks = s.marks ∧
    (s.holdWrite q h).once = s.once ∧ (s.holdWrite q h).parity = s.parity ∧ (s.holdWrite q h).decs = s.decs ∧
    (s.holdWrite q h).tileViews = s.tileViews ∧ (s.holdWrite q h).viewAts = s.viewAts ∧
    (s.holdWrite q h).fluxes = s.fluxes ∧ (s.holdWrite q h).biases = s.biases ∧ (s.holdWrite q h).clrSamp = s.clrSamp ∧
    (s.holdWrite q h).lanes = s.lanes ∧ (s.holdWrite q h).banks = s.banks ∧ (s.holdWrite q h).recs = s.recs ∧
    (s.holdWrite q h).tileRels = s.tileRels ∧ (s.holdWrite q h).devRels = s.devRels ∧
    (s.holdWrite q h).remRels = s.remRels ∧ (s.holdWrite q h).parIns = s.parIns ∧ (s.holdWrite q h).links = s.links ∧
    (s.holdWrite q h).pair2 = s.pair2 ∧ (s.holdWrite q h).ttx = s.ttx ∧ (s.holdWrite q h).rings = s.rings ∧
    (s.holdWrite q h).pcie = s.pcie ∧ (s.holdWrite q h).henRestart = s.henRestart ∧ (s.holdWrite q h).refLost = s.refLost ∧
    (s.holdWrite q h).shutAt = s.shutAt ∧ (s.holdWrite q h).ptp = s.ptp ∧ (s.holdWrite q h).eths = s.eths ∧
    (s.holdWrite q h).tius = s.tius ∧ (s.holdWrite q h).tms = s.tms ∧ (s.holdWrite q h).exps = s.exps ∧
    (s.holdWrite q h).hks = s.hks ∧ (s.holdWrite q h).sns = s.sns ∧ (s.holdWrite q h).power = s.power ∧
    (s.holdWrite q h).avsAt = s.avsAt ∧ (s.holdWrite q h).convs = s.convs ∧ (s.holdWrite q h).cal = s.cal ∧
    (s.holdWrite q h).book = s.book ∧ (s.holdWrite q h).aon = s.aon ∧ (s.holdWrite q h).refx = s.refx ∧
    (s.holdWrite q h).cfg = s.cfg ∧ (s.holdWrite q h).wl = s.wl ∧ (s.holdWrite q h).spdm = s.spdm ∧
    (s.holdWrite q h).jtag = s.jtag ∧ (s.holdWrite q h).out = s.out ∧ (s.holdWrite q h).readData = s.readData ∧
    (s.holdWrite q h).readMem = s.readMem ∧ (s.holdWrite q h).pending = s.pending := by
  and_intros <;> rfl

@[simp] theorem State.carryBias_fields (s : State) :
    (s.carryBias).regs = s.regs ∧ (s.carryBias).mem = s.mem ∧ (s.carryBias).holds = s.holds ∧ (s.carryBias).tm = s.tm ∧
    (s.carryBias).tie = s.tie ∧ (s.carryBias).evq = s.evq ∧ (s.carryBias).evIn = s.evIn ∧ (s.carryBias).scheds = s.scheds ∧
    (s.carryBias).seqs = s.seqs ∧ (s.carryBias).tqs = s.tqs ∧ (s.carryBias).chans = s.chans ∧
    (s.carryBias).freqs = s.freqs ∧ (s.carryBias).slotLog = s.slotLog ∧ (s.carryBias).envs = s.envs ∧
    (s.carryBias).marks = s.marks ∧ (s.carryBias).once = s.once ∧ (s.carryBias).parity = s.parity ∧
    (s.carryBias).decs = s.decs ∧ (s.carryBias).tileViews = s.tileViews ∧ (s.carryBias).viewAts = s.viewAts ∧
    (s.carryBias).fluxes = s.fluxes ∧ (s.carryBias).clrSamp = s.clrSamp ∧ (s.carryBias).heldWrites = s.heldWrites ∧
    (s.carryBias).lanes = s.lanes ∧ (s.carryBias).banks = s.banks ∧ (s.carryBias).recs = s.recs ∧
    (s.carryBias).tileRels = s.tileRels ∧ (s.carryBias).devRels = s.devRels ∧ (s.carryBias).remRels = s.remRels ∧
    (s.carryBias).parIns = s.parIns ∧ (s.carryBias).links = s.links ∧ (s.carryBias).pair2 = s.pair2 ∧
    (s.carryBias).ttx = s.ttx ∧ (s.carryBias).rings = s.rings ∧ (s.carryBias).pcie = s.pcie ∧
    (s.carryBias).henRestart = s.henRestart ∧ (s.carryBias).refLost = s.refLost ∧ (s.carryBias).shutAt = s.shutAt ∧
    (s.carryBias).ptp = s.ptp ∧ (s.carryBias).eths = s.eths ∧ (s.carryBias).tius = s.tius ∧ (s.carryBias).tms = s.tms ∧
    (s.carryBias).exps = s.exps ∧ (s.carryBias).hks = s.hks ∧ (s.carryBias).sns = s.sns ∧ (s.carryBias).power = s.power ∧
    (s.carryBias).avsAt = s.avsAt ∧ (s.carryBias).convs = s.convs ∧ (s.carryBias).cal = s.cal ∧
    (s.carryBias).book = s.book ∧ (s.carryBias).aon = s.aon ∧ (s.carryBias).refx = s.refx ∧ (s.carryBias).cfg = s.cfg ∧
    (s.carryBias).wl = s.wl ∧ (s.carryBias).spdm = s.spdm ∧ (s.carryBias).jtag = s.jtag ∧ (s.carryBias).out = s.out ∧
    (s.carryBias).readData = s.readData ∧ (s.carryBias).readMem = s.readMem ∧ (s.carryBias).pending = s.pending := by
  and_intros <;> rfl

@[simp] theorem State.pairAsk_fields (s : State) (b : Bool) :
    (s.pairAsk b).regs = s.regs ∧ (s.pairAsk b).mem = s.mem ∧ (s.pairAsk b).holds = s.holds ∧ (s.pairAsk b).tm = s.tm ∧
    (s.pairAsk b).tie = s.tie ∧ (s.pairAsk b).evq = s.evq ∧ (s.pairAsk b).evIn = s.evIn ∧ (s.pairAsk b).scheds = s.scheds ∧
    (s.pairAsk b).seqs = s.seqs ∧ (s.pairAsk b).tqs = s.tqs ∧ (s.pairAsk b).chans = s.chans ∧
    (s.pairAsk b).freqs = s.freqs ∧ (s.pairAsk b).slotLog = s.slotLog ∧ (s.pairAsk b).envs = s.envs ∧
    (s.pairAsk b).marks = s.marks ∧ (s.pairAsk b).once = s.once ∧ (s.pairAsk b).parity = s.parity ∧
    (s.pairAsk b).decs = s.decs ∧ (s.pairAsk b).tileViews = s.tileViews ∧ (s.pairAsk b).viewAts = s.viewAts ∧
    (s.pairAsk b).fluxes = s.fluxes ∧ (s.pairAsk b).biases = s.biases ∧ (s.pairAsk b).clrSamp = s.clrSamp ∧
    (s.pairAsk b).heldWrites = s.heldWrites ∧ (s.pairAsk b).lanes = s.lanes ∧ (s.pairAsk b).banks = s.banks ∧
    (s.pairAsk b).recs = s.recs ∧ (s.pairAsk b).tileRels = s.tileRels ∧ (s.pairAsk b).devRels = s.devRels ∧
    (s.pairAsk b).remRels = s.remRels ∧ (s.pairAsk b).parIns = s.parIns ∧ (s.pairAsk b).links = s.links ∧
    (s.pairAsk b).ttx = s.ttx ∧ (s.pairAsk b).rings = s.rings ∧ (s.pairAsk b).pcie = s.pcie ∧
    (s.pairAsk b).henRestart = s.henRestart ∧ (s.pairAsk b).refLost = s.refLost ∧ (s.pairAsk b).shutAt = s.shutAt ∧
    (s.pairAsk b).ptp = s.ptp ∧ (s.pairAsk b).eths = s.eths ∧ (s.pairAsk b).tius = s.tius ∧ (s.pairAsk b).tms = s.tms ∧
    (s.pairAsk b).exps = s.exps ∧ (s.pairAsk b).hks = s.hks ∧ (s.pairAsk b).sns = s.sns ∧ (s.pairAsk b).power = s.power ∧
    (s.pairAsk b).avsAt = s.avsAt ∧ (s.pairAsk b).convs = s.convs ∧ (s.pairAsk b).cal = s.cal ∧
    (s.pairAsk b).book = s.book ∧ (s.pairAsk b).aon = s.aon ∧ (s.pairAsk b).refx = s.refx ∧ (s.pairAsk b).cfg = s.cfg ∧
    (s.pairAsk b).wl = s.wl ∧ (s.pairAsk b).spdm = s.spdm ∧ (s.pairAsk b).jtag = s.jtag ∧ (s.pairAsk b).out = s.out ∧
    (s.pairAsk b).readData = s.readData ∧ (s.pairAsk b).readMem = s.readMem ∧ (s.pairAsk b).pending = s.pending := by
  and_intros <;> rfl

@[simp] theorem State.setLane_fields (s : State) (t p : Nat) (x : LaneX) :
    (s.setLane t p x).regs = s.regs ∧ (s.setLane t p x).mem = s.mem ∧ (s.setLane t p x).holds = s.holds ∧
    (s.setLane t p x).tm = s.tm ∧ (s.setLane t p x).tie = s.tie ∧ (s.setLane t p x).evq = s.evq ∧
    (s.setLane t p x).evIn = s.evIn ∧ (s.setLane t p x).scheds = s.scheds ∧ (s.setLane t p x).seqs = s.seqs ∧
    (s.setLane t p x).tqs = s.tqs ∧ (s.setLane t p x).chans = s.chans ∧ (s.setLane t p x).freqs = s.freqs ∧
    (s.setLane t p x).slotLog = s.slotLog ∧ (s.setLane t p x).envs = s.envs ∧ (s.setLane t p x).marks = s.marks ∧
    (s.setLane t p x).once = s.once ∧ (s.setLane t p x).parity = s.parity ∧ (s.setLane t p x).decs = s.decs ∧
    (s.setLane t p x).tileViews = s.tileViews ∧ (s.setLane t p x).viewAts = s.viewAts ∧
    (s.setLane t p x).fluxes = s.fluxes ∧ (s.setLane t p x).biases = s.biases ∧ (s.setLane t p x).clrSamp = s.clrSamp ∧
    (s.setLane t p x).heldWrites = s.heldWrites ∧ (s.setLane t p x).banks = s.banks ∧ (s.setLane t p x).recs = s.recs ∧
    (s.setLane t p x).tileRels = s.tileRels ∧ (s.setLane t p x).devRels = s.devRels ∧
    (s.setLane t p x).remRels = s.remRels ∧ (s.setLane t p x).parIns = s.parIns ∧ (s.setLane t p x).links = s.links ∧
    (s.setLane t p x).pair2 = s.pair2 ∧ (s.setLane t p x).ttx = s.ttx ∧ (s.setLane t p x).rings = s.rings ∧
    (s.setLane t p x).pcie = s.pcie ∧ (s.setLane t p x).henRestart = s.henRestart ∧ (s.setLane t p x).refLost = s.refLost ∧
    (s.setLane t p x).shutAt = s.shutAt ∧ (s.setLane t p x).ptp = s.ptp ∧ (s.setLane t p x).eths = s.eths ∧
    (s.setLane t p x).tius = s.tius ∧ (s.setLane t p x).tms = s.tms ∧ (s.setLane t p x).exps = s.exps ∧
    (s.setLane t p x).hks = s.hks ∧ (s.setLane t p x).sns = s.sns ∧ (s.setLane t p x).power = s.power ∧
    (s.setLane t p x).avsAt = s.avsAt ∧ (s.setLane t p x).convs = s.convs ∧ (s.setLane t p x).cal = s.cal ∧
    (s.setLane t p x).book = s.book ∧ (s.setLane t p x).aon = s.aon ∧ (s.setLane t p x).refx = s.refx ∧
    (s.setLane t p x).cfg = s.cfg ∧ (s.setLane t p x).wl = s.wl ∧ (s.setLane t p x).spdm = s.spdm ∧
    (s.setLane t p x).jtag = s.jtag ∧ (s.setLane t p x).out = s.out ∧ (s.setLane t p x).readData = s.readData ∧
    (s.setLane t p x).readMem = s.readMem ∧ (s.setLane t p x).pending = s.pending := by
  and_intros <;> rfl

@[simp] theorem State.setBank_fields (s : State) (t p d : Nat) (x : BankX) :
    (s.setBank t p d x).regs = s.regs ∧ (s.setBank t p d x).mem = s.mem ∧ (s.setBank t p d x).holds = s.holds ∧
    (s.setBank t p d x).tm = s.tm ∧ (s.setBank t p d x).tie = s.tie ∧ (s.setBank t p d x).evq = s.evq ∧
    (s.setBank t p d x).evIn = s.evIn ∧ (s.setBank t p d x).scheds = s.scheds ∧ (s.setBank t p d x).seqs = s.seqs ∧
    (s.setBank t p d x).tqs = s.tqs ∧ (s.setBank t p d x).chans = s.chans ∧ (s.setBank t p d x).freqs = s.freqs ∧
    (s.setBank t p d x).slotLog = s.slotLog ∧ (s.setBank t p d x).envs = s.envs ∧ (s.setBank t p d x).marks = s.marks ∧
    (s.setBank t p d x).once = s.once ∧ (s.setBank t p d x).parity = s.parity ∧ (s.setBank t p d x).decs = s.decs ∧
    (s.setBank t p d x).tileViews = s.tileViews ∧ (s.setBank t p d x).viewAts = s.viewAts ∧
    (s.setBank t p d x).fluxes = s.fluxes ∧ (s.setBank t p d x).biases = s.biases ∧
    (s.setBank t p d x).clrSamp = s.clrSamp ∧ (s.setBank t p d x).heldWrites = s.heldWrites ∧
    (s.setBank t p d x).lanes = s.lanes ∧ (s.setBank t p d x).recs = s.recs ∧ (s.setBank t p d x).tileRels = s.tileRels ∧
    (s.setBank t p d x).devRels = s.devRels ∧ (s.setBank t p d x).remRels = s.remRels ∧
    (s.setBank t p d x).parIns = s.parIns ∧ (s.setBank t p d x).links = s.links ∧ (s.setBank t p d x).pair2 = s.pair2 ∧
    (s.setBank t p d x).ttx = s.ttx ∧ (s.setBank t p d x).rings = s.rings ∧ (s.setBank t p d x).pcie = s.pcie ∧
    (s.setBank t p d x).henRestart = s.henRestart ∧ (s.setBank t p d x).refLost = s.refLost ∧
    (s.setBank t p d x).shutAt = s.shutAt ∧ (s.setBank t p d x).ptp = s.ptp ∧ (s.setBank t p d x).eths = s.eths ∧
    (s.setBank t p d x).tius = s.tius ∧ (s.setBank t p d x).tms = s.tms ∧ (s.setBank t p d x).exps = s.exps ∧
    (s.setBank t p d x).hks = s.hks ∧ (s.setBank t p d x).sns = s.sns ∧ (s.setBank t p d x).power = s.power ∧
    (s.setBank t p d x).avsAt = s.avsAt ∧ (s.setBank t p d x).convs = s.convs ∧ (s.setBank t p d x).cal = s.cal ∧
    (s.setBank t p d x).book = s.book ∧ (s.setBank t p d x).aon = s.aon ∧ (s.setBank t p d x).refx = s.refx ∧
    (s.setBank t p d x).cfg = s.cfg ∧ (s.setBank t p d x).wl = s.wl ∧ (s.setBank t p d x).spdm = s.spdm ∧
    (s.setBank t p d x).jtag = s.jtag ∧ (s.setBank t p d x).out = s.out ∧ (s.setBank t p d x).readData = s.readData ∧
    (s.setBank t p d x).readMem = s.readMem ∧ (s.setBank t p d x).pending = s.pending := by
  and_intros <;> rfl

@[simp] theorem State.setFlux_fields (s : State) (t f : Nat) (x : FluxX) :
    (s.setFlux t f x).regs = s.regs ∧ (s.setFlux t f x).mem = s.mem ∧ (s.setFlux t f x).holds = s.holds ∧
    (s.setFlux t f x).tm = s.tm ∧ (s.setFlux t f x).tie = s.tie ∧ (s.setFlux t f x).evq = s.evq ∧
    (s.setFlux t f x).evIn = s.evIn ∧ (s.setFlux t f x).scheds = s.scheds ∧ (s.setFlux t f x).seqs = s.seqs ∧
    (s.setFlux t f x).tqs = s.tqs ∧ (s.setFlux t f x).chans = s.chans ∧ (s.setFlux t f x).freqs = s.freqs ∧
    (s.setFlux t f x).slotLog = s.slotLog ∧ (s.setFlux t f x).envs = s.envs ∧ (s.setFlux t f x).marks = s.marks ∧
    (s.setFlux t f x).once = s.once ∧ (s.setFlux t f x).parity = s.parity ∧ (s.setFlux t f x).decs = s.decs ∧
    (s.setFlux t f x).tileViews = s.tileViews ∧ (s.setFlux t f x).viewAts = s.viewAts ∧
    (s.setFlux t f x).biases = s.biases ∧ (s.setFlux t f x).clrSamp = s.clrSamp ∧
    (s.setFlux t f x).heldWrites = s.heldWrites ∧ (s.setFlux t f x).lanes = s.lanes ∧ (s.setFlux t f x).banks = s.banks ∧
    (s.setFlux t f x).recs = s.recs ∧ (s.setFlux t f x).tileRels = s.tileRels ∧ (s.setFlux t f x).devRels = s.devRels ∧
    (s.setFlux t f x).remRels = s.remRels ∧ (s.setFlux t f x).parIns = s.parIns ∧ (s.setFlux t f x).links = s.links ∧
    (s.setFlux t f x).pair2 = s.pair2 ∧ (s.setFlux t f x).ttx = s.ttx ∧ (s.setFlux t f x).rings = s.rings ∧
    (s.setFlux t f x).pcie = s.pcie ∧ (s.setFlux t f x).henRestart = s.henRestart ∧ (s.setFlux t f x).refLost = s.refLost ∧
    (s.setFlux t f x).shutAt = s.shutAt ∧ (s.setFlux t f x).ptp = s.ptp ∧ (s.setFlux t f x).eths = s.eths ∧
    (s.setFlux t f x).tius = s.tius ∧ (s.setFlux t f x).tms = s.tms ∧ (s.setFlux t f x).exps = s.exps ∧
    (s.setFlux t f x).hks = s.hks ∧ (s.setFlux t f x).sns = s.sns ∧ (s.setFlux t f x).power = s.power ∧
    (s.setFlux t f x).avsAt = s.avsAt ∧ (s.setFlux t f x).convs = s.convs ∧ (s.setFlux t f x).cal = s.cal ∧
    (s.setFlux t f x).book = s.book ∧ (s.setFlux t f x).aon = s.aon ∧ (s.setFlux t f x).refx = s.refx ∧
    (s.setFlux t f x).cfg = s.cfg ∧ (s.setFlux t f x).wl = s.wl ∧ (s.setFlux t f x).spdm = s.spdm ∧
    (s.setFlux t f x).jtag = s.jtag ∧ (s.setFlux t f x).out = s.out ∧ (s.setFlux t f x).readData = s.readData ∧
    (s.setFlux t f x).readMem = s.readMem ∧ (s.setFlux t f x).pending = s.pending := by
  and_intros <;> rfl

@[simp] theorem State.setEth_fields (s : State) (e : Nat) (x : EthX) :
    (s.setEth e x).regs = s.regs ∧ (s.setEth e x).mem = s.mem ∧ (s.setEth e x).holds = s.holds ∧ (s.setEth e x).tm = s.tm ∧
    (s.setEth e x).tie = s.tie ∧ (s.setEth e x).evq = s.evq ∧ (s.setEth e x).evIn = s.evIn ∧
    (s.setEth e x).scheds = s.scheds ∧ (s.setEth e x).seqs = s.seqs ∧ (s.setEth e x).tqs = s.tqs ∧
    (s.setEth e x).chans = s.chans ∧ (s.setEth e x).freqs = s.freqs ∧ (s.setEth e x).slotLog = s.slotLog ∧
    (s.setEth e x).envs = s.envs ∧ (s.setEth e x).marks = s.marks ∧ (s.setEth e x).once = s.once ∧
    (s.setEth e x).parity = s.parity ∧ (s.setEth e x).decs = s.decs ∧ (s.setEth e x).tileViews = s.tileViews ∧
    (s.setEth e x).viewAts = s.viewAts ∧ (s.setEth e x).fluxes = s.fluxes ∧ (s.setEth e x).biases = s.biases ∧
    (s.setEth e x).clrSamp = s.clrSamp ∧ (s.setEth e x).heldWrites = s.heldWrites ∧ (s.setEth e x).lanes = s.lanes ∧
    (s.setEth e x).banks = s.banks ∧ (s.setEth e x).recs = s.recs ∧ (s.setEth e x).tileRels = s.tileRels ∧
    (s.setEth e x).devRels = s.devRels ∧ (s.setEth e x).remRels = s.remRels ∧ (s.setEth e x).parIns = s.parIns ∧
    (s.setEth e x).links = s.links ∧ (s.setEth e x).pair2 = s.pair2 ∧ (s.setEth e x).ttx = s.ttx ∧
    (s.setEth e x).rings = s.rings ∧ (s.setEth e x).pcie = s.pcie ∧ (s.setEth e x).henRestart = s.henRestart ∧
    (s.setEth e x).refLost = s.refLost ∧ (s.setEth e x).shutAt = s.shutAt ∧ (s.setEth e x).ptp = s.ptp ∧
    (s.setEth e x).tius = s.tius ∧ (s.setEth e x).tms = s.tms ∧ (s.setEth e x).exps = s.exps ∧ (s.setEth e x).hks = s.hks ∧
    (s.setEth e x).sns = s.sns ∧ (s.setEth e x).power = s.power ∧ (s.setEth e x).avsAt = s.avsAt ∧
    (s.setEth e x).convs = s.convs ∧ (s.setEth e x).cal = s.cal ∧ (s.setEth e x).book = s.book ∧
    (s.setEth e x).aon = s.aon ∧ (s.setEth e x).refx = s.refx ∧ (s.setEth e x).cfg = s.cfg ∧ (s.setEth e x).wl = s.wl ∧
    (s.setEth e x).spdm = s.spdm ∧ (s.setEth e x).jtag = s.jtag ∧ (s.setEth e x).out = s.out ∧
    (s.setEth e x).readData = s.readData ∧ (s.setEth e x).readMem = s.readMem ∧ (s.setEth e x).pending = s.pending := by
  and_intros <;> rfl

@[simp] theorem State.setTm_fields (s : State) (m : Nat) (x : TmX) :
    (s.setTm m x).regs = s.regs ∧ (s.setTm m x).mem = s.mem ∧ (s.setTm m x).holds = s.holds ∧ (s.setTm m x).tm = s.tm ∧
    (s.setTm m x).tie = s.tie ∧ (s.setTm m x).evq = s.evq ∧ (s.setTm m x).evIn = s.evIn ∧ (s.setTm m x).scheds = s.scheds ∧
    (s.setTm m x).seqs = s.seqs ∧ (s.setTm m x).tqs = s.tqs ∧ (s.setTm m x).chans = s.chans ∧
    (s.setTm m x).freqs = s.freqs ∧ (s.setTm m x).slotLog = s.slotLog ∧ (s.setTm m x).envs = s.envs ∧
    (s.setTm m x).marks = s.marks ∧ (s.setTm m x).once = s.once ∧ (s.setTm m x).parity = s.parity ∧
    (s.setTm m x).decs = s.decs ∧ (s.setTm m x).tileViews = s.tileViews ∧ (s.setTm m x).viewAts = s.viewAts ∧
    (s.setTm m x).fluxes = s.fluxes ∧ (s.setTm m x).biases = s.biases ∧ (s.setTm m x).clrSamp = s.clrSamp ∧
    (s.setTm m x).heldWrites = s.heldWrites ∧ (s.setTm m x).lanes = s.lanes ∧ (s.setTm m x).banks = s.banks ∧
    (s.setTm m x).recs = s.recs ∧ (s.setTm m x).tileRels = s.tileRels ∧ (s.setTm m x).devRels = s.devRels ∧
    (s.setTm m x).remRels = s.remRels ∧ (s.setTm m x).parIns = s.parIns ∧ (s.setTm m x).links = s.links ∧
    (s.setTm m x).pair2 = s.pair2 ∧ (s.setTm m x).ttx = s.ttx ∧ (s.setTm m x).rings = s.rings ∧
    (s.setTm m x).pcie = s.pcie ∧ (s.setTm m x).henRestart = s.henRestart ∧ (s.setTm m x).refLost = s.refLost ∧
    (s.setTm m x).shutAt = s.shutAt ∧ (s.setTm m x).ptp = s.ptp ∧ (s.setTm m x).eths = s.eths ∧
    (s.setTm m x).tius = s.tius ∧ (s.setTm m x).exps = s.exps ∧ (s.setTm m x).hks = s.hks ∧ (s.setTm m x).sns = s.sns ∧
    (s.setTm m x).power = s.power ∧ (s.setTm m x).avsAt = s.avsAt ∧ (s.setTm m x).convs = s.convs ∧
    (s.setTm m x).cal = s.cal ∧ (s.setTm m x).book = s.book ∧ (s.setTm m x).aon = s.aon ∧ (s.setTm m x).refx = s.refx ∧
    (s.setTm m x).cfg = s.cfg ∧ (s.setTm m x).wl = s.wl ∧ (s.setTm m x).spdm = s.spdm ∧ (s.setTm m x).jtag = s.jtag ∧
    (s.setTm m x).out = s.out ∧ (s.setTm m x).readData = s.readData ∧ (s.setTm m x).readMem = s.readMem ∧
    (s.setTm m x).pending = s.pending := by
  and_intros <;> rfl

@[simp] theorem State.setTiu_fields (s : State) (i : Nat) (x : TiuX) :
    (s.setTiu i x).regs = s.regs ∧ (s.setTiu i x).mem = s.mem ∧ (s.setTiu i x).holds = s.holds ∧ (s.setTiu i x).tm = s.tm ∧
    (s.setTiu i x).tie = s.tie ∧ (s.setTiu i x).evq = s.evq ∧ (s.setTiu i x).evIn = s.evIn ∧
    (s.setTiu i x).scheds = s.scheds ∧ (s.setTiu i x).seqs = s.seqs ∧ (s.setTiu i x).tqs = s.tqs ∧
    (s.setTiu i x).chans = s.chans ∧ (s.setTiu i x).freqs = s.freqs ∧ (s.setTiu i x).slotLog = s.slotLog ∧
    (s.setTiu i x).envs = s.envs ∧ (s.setTiu i x).marks = s.marks ∧ (s.setTiu i x).once = s.once ∧
    (s.setTiu i x).parity = s.parity ∧ (s.setTiu i x).decs = s.decs ∧ (s.setTiu i x).tileViews = s.tileViews ∧
    (s.setTiu i x).viewAts = s.viewAts ∧ (s.setTiu i x).fluxes = s.fluxes ∧ (s.setTiu i x).biases = s.biases ∧
    (s.setTiu i x).clrSamp = s.clrSamp ∧ (s.setTiu i x).heldWrites = s.heldWrites ∧ (s.setTiu i x).lanes = s.lanes ∧
    (s.setTiu i x).banks = s.banks ∧ (s.setTiu i x).recs = s.recs ∧ (s.setTiu i x).tileRels = s.tileRels ∧
    (s.setTiu i x).devRels = s.devRels ∧ (s.setTiu i x).remRels = s.remRels ∧ (s.setTiu i x).parIns = s.parIns ∧
    (s.setTiu i x).links = s.links ∧ (s.setTiu i x).pair2 = s.pair2 ∧ (s.setTiu i x).ttx = s.ttx ∧
    (s.setTiu i x).rings = s.rings ∧ (s.setTiu i x).pcie = s.pcie ∧ (s.setTiu i x).henRestart = s.henRestart ∧
    (s.setTiu i x).refLost = s.refLost ∧ (s.setTiu i x).shutAt = s.shutAt ∧ (s.setTiu i x).ptp = s.ptp ∧
    (s.setTiu i x).eths = s.eths ∧ (s.setTiu i x).tms = s.tms ∧ (s.setTiu i x).exps = s.exps ∧ (s.setTiu i x).hks = s.hks ∧
    (s.setTiu i x).sns = s.sns ∧ (s.setTiu i x).power = s.power ∧ (s.setTiu i x).avsAt = s.avsAt ∧
    (s.setTiu i x).convs = s.convs ∧ (s.setTiu i x).cal = s.cal ∧ (s.setTiu i x).book = s.book ∧
    (s.setTiu i x).aon = s.aon ∧ (s.setTiu i x).refx = s.refx ∧ (s.setTiu i x).cfg = s.cfg ∧ (s.setTiu i x).wl = s.wl ∧
    (s.setTiu i x).spdm = s.spdm ∧ (s.setTiu i x).jtag = s.jtag ∧ (s.setTiu i x).out = s.out ∧
    (s.setTiu i x).readData = s.readData ∧ (s.setTiu i x).readMem = s.readMem ∧ (s.setTiu i x).pending = s.pending := by
  and_intros <;> rfl

@[simp] theorem State.setExp_fields (s : State) (p : Nat) (x : ExpX) :
    (s.setExp p x).regs = s.regs ∧ (s.setExp p x).mem = s.mem ∧ (s.setExp p x).holds = s.holds ∧ (s.setExp p x).tm = s.tm ∧
    (s.setExp p x).tie = s.tie ∧ (s.setExp p x).evq = s.evq ∧ (s.setExp p x).evIn = s.evIn ∧
    (s.setExp p x).scheds = s.scheds ∧ (s.setExp p x).seqs = s.seqs ∧ (s.setExp p x).tqs = s.tqs ∧
    (s.setExp p x).chans = s.chans ∧ (s.setExp p x).freqs = s.freqs ∧ (s.setExp p x).slotLog = s.slotLog ∧
    (s.setExp p x).envs = s.envs ∧ (s.setExp p x).marks = s.marks ∧ (s.setExp p x).once = s.once ∧
    (s.setExp p x).parity = s.parity ∧ (s.setExp p x).decs = s.decs ∧ (s.setExp p x).tileViews = s.tileViews ∧
    (s.setExp p x).viewAts = s.viewAts ∧ (s.setExp p x).fluxes = s.fluxes ∧ (s.setExp p x).biases = s.biases ∧
    (s.setExp p x).clrSamp = s.clrSamp ∧ (s.setExp p x).heldWrites = s.heldWrites ∧ (s.setExp p x).lanes = s.lanes ∧
    (s.setExp p x).banks = s.banks ∧ (s.setExp p x).recs = s.recs ∧ (s.setExp p x).tileRels = s.tileRels ∧
    (s.setExp p x).devRels = s.devRels ∧ (s.setExp p x).remRels = s.remRels ∧ (s.setExp p x).parIns = s.parIns ∧
    (s.setExp p x).links = s.links ∧ (s.setExp p x).pair2 = s.pair2 ∧ (s.setExp p x).ttx = s.ttx ∧
    (s.setExp p x).rings = s.rings ∧ (s.setExp p x).pcie = s.pcie ∧ (s.setExp p x).henRestart = s.henRestart ∧
    (s.setExp p x).refLost = s.refLost ∧ (s.setExp p x).shutAt = s.shutAt ∧ (s.setExp p x).ptp = s.ptp ∧
    (s.setExp p x).eths = s.eths ∧ (s.setExp p x).tius = s.tius ∧ (s.setExp p x).tms = s.tms ∧ (s.setExp p x).hks = s.hks ∧
    (s.setExp p x).sns = s.sns ∧ (s.setExp p x).power = s.power ∧ (s.setExp p x).avsAt = s.avsAt ∧
    (s.setExp p x).convs = s.convs ∧ (s.setExp p x).cal = s.cal ∧ (s.setExp p x).book = s.book ∧
    (s.setExp p x).aon = s.aon ∧ (s.setExp p x).refx = s.refx ∧ (s.setExp p x).cfg = s.cfg ∧ (s.setExp p x).wl = s.wl ∧
    (s.setExp p x).spdm = s.spdm ∧ (s.setExp p x).jtag = s.jtag ∧ (s.setExp p x).out = s.out ∧
    (s.setExp p x).readData = s.readData ∧ (s.setExp p x).readMem = s.readMem ∧ (s.setExp p x).pending = s.pending := by
  and_intros <;> rfl

@[simp] theorem State.setRing_fields (s : State) (p : Nat) (x : RingX) :
    (s.setRing p x).regs = s.regs ∧ (s.setRing p x).mem = s.mem ∧ (s.setRing p x).holds = s.holds ∧
    (s.setRing p x).tm = s.tm ∧ (s.setRing p x).tie = s.tie ∧ (s.setRing p x).evq = s.evq ∧ (s.setRing p x).evIn = s.evIn ∧
    (s.setRing p x).scheds = s.scheds ∧ (s.setRing p x).seqs = s.seqs ∧ (s.setRing p x).tqs = s.tqs ∧
    (s.setRing p x).chans = s.chans ∧ (s.setRing p x).freqs = s.freqs ∧ (s.setRing p x).slotLog = s.slotLog ∧
    (s.setRing p x).envs = s.envs ∧ (s.setRing p x).marks = s.marks ∧ (s.setRing p x).once = s.once ∧
    (s.setRing p x).parity = s.parity ∧ (s.setRing p x).decs = s.decs ∧ (s.setRing p x).tileViews = s.tileViews ∧
    (s.setRing p x).viewAts = s.viewAts ∧ (s.setRing p x).fluxes = s.fluxes ∧ (s.setRing p x).biases = s.biases ∧
    (s.setRing p x).clrSamp = s.clrSamp ∧ (s.setRing p x).heldWrites = s.heldWrites ∧ (s.setRing p x).lanes = s.lanes ∧
    (s.setRing p x).banks = s.banks ∧ (s.setRing p x).recs = s.recs ∧ (s.setRing p x).tileRels = s.tileRels ∧
    (s.setRing p x).devRels = s.devRels ∧ (s.setRing p x).remRels = s.remRels ∧ (s.setRing p x).parIns = s.parIns ∧
    (s.setRing p x).links = s.links ∧ (s.setRing p x).pair2 = s.pair2 ∧ (s.setRing p x).ttx = s.ttx ∧
    (s.setRing p x).pcie = s.pcie ∧ (s.setRing p x).henRestart = s.henRestart ∧ (s.setRing p x).refLost = s.refLost ∧
    (s.setRing p x).shutAt = s.shutAt ∧ (s.setRing p x).ptp = s.ptp ∧ (s.setRing p x).eths = s.eths ∧
    (s.setRing p x).tius = s.tius ∧ (s.setRing p x).tms = s.tms ∧ (s.setRing p x).exps = s.exps ∧
    (s.setRing p x).hks = s.hks ∧ (s.setRing p x).sns = s.sns ∧ (s.setRing p x).power = s.power ∧
    (s.setRing p x).avsAt = s.avsAt ∧ (s.setRing p x).convs = s.convs ∧ (s.setRing p x).cal = s.cal ∧
    (s.setRing p x).book = s.book ∧ (s.setRing p x).aon = s.aon ∧ (s.setRing p x).refx = s.refx ∧
    (s.setRing p x).cfg = s.cfg ∧ (s.setRing p x).wl = s.wl ∧ (s.setRing p x).spdm = s.spdm ∧
    (s.setRing p x).jtag = s.jtag ∧ (s.setRing p x).out = s.out ∧ (s.setRing p x).readData = s.readData ∧
    (s.setRing p x).readMem = s.readMem ∧ (s.setRing p x).pending = s.pending := by
  and_intros <;> rfl

@[simp] theorem State.modWl_fields (s : State) (f : WlX → WlX) :
    (s.modWl f).regs = s.regs ∧ (s.modWl f).mem = s.mem ∧ (s.modWl f).holds = s.holds ∧ (s.modWl f).tm = s.tm ∧
    (s.modWl f).tie = s.tie ∧ (s.modWl f).evq = s.evq ∧ (s.modWl f).evIn = s.evIn ∧ (s.modWl f).scheds = s.scheds ∧
    (s.modWl f).seqs = s.seqs ∧ (s.modWl f).tqs = s.tqs ∧ (s.modWl f).chans = s.chans ∧ (s.modWl f).freqs = s.freqs ∧
    (s.modWl f).slotLog = s.slotLog ∧ (s.modWl f).envs = s.envs ∧ (s.modWl f).marks = s.marks ∧ (s.modWl f).once = s.once ∧
    (s.modWl f).parity = s.parity ∧ (s.modWl f).decs = s.decs ∧ (s.modWl f).tileViews = s.tileViews ∧
    (s.modWl f).viewAts = s.viewAts ∧ (s.modWl f).fluxes = s.fluxes ∧ (s.modWl f).biases = s.biases ∧
    (s.modWl f).clrSamp = s.clrSamp ∧ (s.modWl f).heldWrites = s.heldWrites ∧ (s.modWl f).lanes = s.lanes ∧
    (s.modWl f).banks = s.banks ∧ (s.modWl f).recs = s.recs ∧ (s.modWl f).tileRels = s.tileRels ∧
    (s.modWl f).devRels = s.devRels ∧ (s.modWl f).remRels = s.remRels ∧ (s.modWl f).parIns = s.parIns ∧
    (s.modWl f).links = s.links ∧ (s.modWl f).pair2 = s.pair2 ∧ (s.modWl f).ttx = s.ttx ∧ (s.modWl f).rings = s.rings ∧
    (s.modWl f).pcie = s.pcie ∧ (s.modWl f).henRestart = s.henRestart ∧ (s.modWl f).refLost = s.refLost ∧
    (s.modWl f).shutAt = s.shutAt ∧ (s.modWl f).ptp = s.ptp ∧ (s.modWl f).eths = s.eths ∧ (s.modWl f).tius = s.tius ∧
    (s.modWl f).tms = s.tms ∧ (s.modWl f).exps = s.exps ∧ (s.modWl f).hks = s.hks ∧ (s.modWl f).sns = s.sns ∧
    (s.modWl f).power = s.power ∧ (s.modWl f).avsAt = s.avsAt ∧ (s.modWl f).convs = s.convs ∧ (s.modWl f).cal = s.cal ∧
    (s.modWl f).book = s.book ∧ (s.modWl f).aon = s.aon ∧ (s.modWl f).refx = s.refx ∧ (s.modWl f).cfg = s.cfg ∧
    (s.modWl f).spdm = s.spdm ∧ (s.modWl f).jtag = s.jtag ∧ (s.modWl f).out = s.out ∧ (s.modWl f).readData = s.readData ∧
    (s.modWl f).readMem = s.readMem ∧ (s.modWl f).pending = s.pending := by
  and_intros <;> rfl

@[simp] theorem State.setSess_fields (s : State) (i : Fin 2) (x : Option SessX) :
    (s.setSess i x).regs = s.regs ∧ (s.setSess i x).mem = s.mem ∧ (s.setSess i x).holds = s.holds ∧
    (s.setSess i x).tm = s.tm ∧ (s.setSess i x).tie = s.tie ∧ (s.setSess i x).evq = s.evq ∧ (s.setSess i x).evIn = s.evIn ∧
    (s.setSess i x).scheds = s.scheds ∧ (s.setSess i x).seqs = s.seqs ∧ (s.setSess i x).tqs = s.tqs ∧
    (s.setSess i x).chans = s.chans ∧ (s.setSess i x).freqs = s.freqs ∧ (s.setSess i x).slotLog = s.slotLog ∧
    (s.setSess i x).envs = s.envs ∧ (s.setSess i x).marks = s.marks ∧ (s.setSess i x).once = s.once ∧
    (s.setSess i x).parity = s.parity ∧ (s.setSess i x).decs = s.decs ∧ (s.setSess i x).tileViews = s.tileViews ∧
    (s.setSess i x).viewAts = s.viewAts ∧ (s.setSess i x).fluxes = s.fluxes ∧ (s.setSess i x).biases = s.biases ∧
    (s.setSess i x).clrSamp = s.clrSamp ∧ (s.setSess i x).heldWrites = s.heldWrites ∧ (s.setSess i x).lanes = s.lanes ∧
    (s.setSess i x).banks = s.banks ∧ (s.setSess i x).recs = s.recs ∧ (s.setSess i x).tileRels = s.tileRels ∧
    (s.setSess i x).devRels = s.devRels ∧ (s.setSess i x).remRels = s.remRels ∧ (s.setSess i x).parIns = s.parIns ∧
    (s.setSess i x).links = s.links ∧ (s.setSess i x).pair2 = s.pair2 ∧ (s.setSess i x).ttx = s.ttx ∧
    (s.setSess i x).rings = s.rings ∧ (s.setSess i x).pcie = s.pcie ∧ (s.setSess i x).henRestart = s.henRestart ∧
    (s.setSess i x).refLost = s.refLost ∧ (s.setSess i x).shutAt = s.shutAt ∧ (s.setSess i x).ptp = s.ptp ∧
    (s.setSess i x).eths = s.eths ∧ (s.setSess i x).tius = s.tius ∧ (s.setSess i x).tms = s.tms ∧
    (s.setSess i x).exps = s.exps ∧ (s.setSess i x).hks = s.hks ∧ (s.setSess i x).sns = s.sns ∧
    (s.setSess i x).power = s.power ∧ (s.setSess i x).avsAt = s.avsAt ∧ (s.setSess i x).convs = s.convs ∧
    (s.setSess i x).cal = s.cal ∧ (s.setSess i x).book = s.book ∧ (s.setSess i x).aon = s.aon ∧
    (s.setSess i x).refx = s.refx ∧ (s.setSess i x).cfg = s.cfg ∧ (s.setSess i x).wl = s.wl ∧
    (s.setSess i x).jtag = s.jtag ∧ (s.setSess i x).out = s.out ∧ (s.setSess i x).readData = s.readData ∧
    (s.setSess i x).readMem = s.readMem ∧ (s.setSess i x).pending = s.pending := by
  and_intros <;> rfl

@[simp] theorem State.setHk_fields (s : State) (q : Nat) (x : HkX) :
    (s.setHk q x).regs = s.regs ∧ (s.setHk q x).mem = s.mem ∧ (s.setHk q x).holds = s.holds ∧ (s.setHk q x).tm = s.tm ∧
    (s.setHk q x).tie = s.tie ∧ (s.setHk q x).evq = s.evq ∧ (s.setHk q x).evIn = s.evIn ∧ (s.setHk q x).scheds = s.scheds ∧
    (s.setHk q x).seqs = s.seqs ∧ (s.setHk q x).tqs = s.tqs ∧ (s.setHk q x).chans = s.chans ∧
    (s.setHk q x).freqs = s.freqs ∧ (s.setHk q x).slotLog = s.slotLog ∧ (s.setHk q x).envs = s.envs ∧
    (s.setHk q x).marks = s.marks ∧ (s.setHk q x).once = s.once ∧ (s.setHk q x).parity = s.parity ∧
    (s.setHk q x).decs = s.decs ∧ (s.setHk q x).tileViews = s.tileViews ∧ (s.setHk q x).viewAts = s.viewAts ∧
    (s.setHk q x).fluxes = s.fluxes ∧ (s.setHk q x).biases = s.biases ∧ (s.setHk q x).clrSamp = s.clrSamp ∧
    (s.setHk q x).heldWrites = s.heldWrites ∧ (s.setHk q x).lanes = s.lanes ∧ (s.setHk q x).banks = s.banks ∧
    (s.setHk q x).recs = s.recs ∧ (s.setHk q x).tileRels = s.tileRels ∧ (s.setHk q x).devRels = s.devRels ∧
    (s.setHk q x).remRels = s.remRels ∧ (s.setHk q x).parIns = s.parIns ∧ (s.setHk q x).links = s.links ∧
    (s.setHk q x).pair2 = s.pair2 ∧ (s.setHk q x).ttx = s.ttx ∧ (s.setHk q x).rings = s.rings ∧
    (s.setHk q x).pcie = s.pcie ∧ (s.setHk q x).henRestart = s.henRestart ∧ (s.setHk q x).refLost = s.refLost ∧
    (s.setHk q x).shutAt = s.shutAt ∧ (s.setHk q x).ptp = s.ptp ∧ (s.setHk q x).eths = s.eths ∧
    (s.setHk q x).tius = s.tius ∧ (s.setHk q x).tms = s.tms ∧ (s.setHk q x).exps = s.exps ∧ (s.setHk q x).sns = s.sns ∧
    (s.setHk q x).power = s.power ∧ (s.setHk q x).avsAt = s.avsAt ∧ (s.setHk q x).convs = s.convs ∧
    (s.setHk q x).cal = s.cal ∧ (s.setHk q x).book = s.book ∧ (s.setHk q x).aon = s.aon ∧ (s.setHk q x).refx = s.refx ∧
    (s.setHk q x).cfg = s.cfg ∧ (s.setHk q x).wl = s.wl ∧ (s.setHk q x).spdm = s.spdm ∧ (s.setHk q x).jtag = s.jtag ∧
    (s.setHk q x).out = s.out ∧ (s.setHk q x).readData = s.readData ∧ (s.setHk q x).readMem = s.readMem ∧
    (s.setHk q x).pending = s.pending := by
  and_intros <;> rfl

@[simp] theorem State.setSn_fields (s : State) (q k : Nat) (x : SnX) :
    (s.setSn q k x).regs = s.regs ∧ (s.setSn q k x).mem = s.mem ∧ (s.setSn q k x).holds = s.holds ∧
    (s.setSn q k x).tm = s.tm ∧ (s.setSn q k x).tie = s.tie ∧ (s.setSn q k x).evq = s.evq ∧ (s.setSn q k x).evIn = s.evIn ∧
    (s.setSn q k x).scheds = s.scheds ∧ (s.setSn q k x).seqs = s.seqs ∧ (s.setSn q k x).tqs = s.tqs ∧
    (s.setSn q k x).chans = s.chans ∧ (s.setSn q k x).freqs = s.freqs ∧ (s.setSn q k x).slotLog = s.slotLog ∧
    (s.setSn q k x).envs = s.envs ∧ (s.setSn q k x).marks = s.marks ∧ (s.setSn q k x).once = s.once ∧
    (s.setSn q k x).parity = s.parity ∧ (s.setSn q k x).decs = s.decs ∧ (s.setSn q k x).tileViews = s.tileViews ∧
    (s.setSn q k x).viewAts = s.viewAts ∧ (s.setSn q k x).fluxes = s.fluxes ∧ (s.setSn q k x).biases = s.biases ∧
    (s.setSn q k x).clrSamp = s.clrSamp ∧ (s.setSn q k x).heldWrites = s.heldWrites ∧ (s.setSn q k x).lanes = s.lanes ∧
    (s.setSn q k x).banks = s.banks ∧ (s.setSn q k x).recs = s.recs ∧ (s.setSn q k x).tileRels = s.tileRels ∧
    (s.setSn q k x).devRels = s.devRels ∧ (s.setSn q k x).remRels = s.remRels ∧ (s.setSn q k x).parIns = s.parIns ∧
    (s.setSn q k x).links = s.links ∧ (s.setSn q k x).pair2 = s.pair2 ∧ (s.setSn q k x).ttx = s.ttx ∧
    (s.setSn q k x).rings = s.rings ∧ (s.setSn q k x).pcie = s.pcie ∧ (s.setSn q k x).henRestart = s.henRestart ∧
    (s.setSn q k x).refLost = s.refLost ∧ (s.setSn q k x).shutAt = s.shutAt ∧ (s.setSn q k x).ptp = s.ptp ∧
    (s.setSn q k x).eths = s.eths ∧ (s.setSn q k x).tius = s.tius ∧ (s.setSn q k x).tms = s.tms ∧
    (s.setSn q k x).exps = s.exps ∧ (s.setSn q k x).hks = s.hks ∧ (s.setSn q k x).power = s.power ∧
    (s.setSn q k x).avsAt = s.avsAt ∧ (s.setSn q k x).convs = s.convs ∧ (s.setSn q k x).cal = s.cal ∧
    (s.setSn q k x).book = s.book ∧ (s.setSn q k x).aon = s.aon ∧ (s.setSn q k x).refx = s.refx ∧
    (s.setSn q k x).cfg = s.cfg ∧ (s.setSn q k x).wl = s.wl ∧ (s.setSn q k x).spdm = s.spdm ∧
    (s.setSn q k x).jtag = s.jtag ∧ (s.setSn q k x).out = s.out ∧ (s.setSn q k x).readData = s.readData ∧
    (s.setSn q k x).readMem = s.readMem ∧ (s.setSn q k x).pending = s.pending := by
  and_intros <;> rfl

@[simp] theorem State.modPower_fields (s : State) (f : PowerX → PowerX) :
    (s.modPower f).regs = s.regs ∧ (s.modPower f).mem = s.mem ∧ (s.modPower f).holds = s.holds ∧ (s.modPower f).tm = s.tm ∧
    (s.modPower f).tie = s.tie ∧ (s.modPower f).evq = s.evq ∧ (s.modPower f).evIn = s.evIn ∧
    (s.modPower f).scheds = s.scheds ∧ (s.modPower f).seqs = s.seqs ∧ (s.modPower f).tqs = s.tqs ∧
    (s.modPower f).chans = s.chans ∧ (s.modPower f).freqs = s.freqs ∧ (s.modPower f).slotLog = s.slotLog ∧
    (s.modPower f).envs = s.envs ∧ (s.modPower f).marks = s.marks ∧ (s.modPower f).once = s.once ∧
    (s.modPower f).parity = s.parity ∧ (s.modPower f).decs = s.decs ∧ (s.modPower f).tileViews = s.tileViews ∧
    (s.modPower f).viewAts = s.viewAts ∧ (s.modPower f).fluxes = s.fluxes ∧ (s.modPower f).biases = s.biases ∧
    (s.modPower f).clrSamp = s.clrSamp ∧ (s.modPower f).heldWrites = s.heldWrites ∧ (s.modPower f).lanes = s.lanes ∧
    (s.modPower f).banks = s.banks ∧ (s.modPower f).recs = s.recs ∧ (s.modPower f).tileRels = s.tileRels ∧
    (s.modPower f).devRels = s.devRels ∧ (s.modPower f).remRels = s.remRels ∧ (s.modPower f).parIns = s.parIns ∧
    (s.modPower f).links = s.links ∧ (s.modPower f).pair2 = s.pair2 ∧ (s.modPower f).ttx = s.ttx ∧
    (s.modPower f).rings = s.rings ∧ (s.modPower f).pcie = s.pcie ∧ (s.modPower f).henRestart = s.henRestart ∧
    (s.modPower f).refLost = s.refLost ∧ (s.modPower f).shutAt = s.shutAt ∧ (s.modPower f).ptp = s.ptp ∧
    (s.modPower f).eths = s.eths ∧ (s.modPower f).tius = s.tius ∧ (s.modPower f).tms = s.tms ∧
    (s.modPower f).exps = s.exps ∧ (s.modPower f).hks = s.hks ∧ (s.modPower f).sns = s.sns ∧
    (s.modPower f).avsAt = s.avsAt ∧ (s.modPower f).convs = s.convs ∧ (s.modPower f).cal = s.cal ∧
    (s.modPower f).book = s.book ∧ (s.modPower f).aon = s.aon ∧ (s.modPower f).refx = s.refx ∧ (s.modPower f).cfg = s.cfg ∧
    (s.modPower f).wl = s.wl ∧ (s.modPower f).spdm = s.spdm ∧ (s.modPower f).jtag = s.jtag ∧ (s.modPower f).out = s.out ∧
    (s.modPower f).readData = s.readData ∧ (s.modPower f).readMem = s.readMem ∧ (s.modPower f).pending = s.pending := by
  and_intros <;> rfl

@[simp] theorem State.stagesOff_fields (s : State) :
    (s.stagesOff).regs = s.regs ∧ (s.stagesOff).mem = s.mem ∧ (s.stagesOff).holds = s.holds ∧ (s.stagesOff).tm = s.tm ∧
    (s.stagesOff).tie = s.tie ∧ (s.stagesOff).evq = s.evq ∧ (s.stagesOff).evIn = s.evIn ∧ (s.stagesOff).scheds = s.scheds ∧
    (s.stagesOff).seqs = s.seqs ∧ (s.stagesOff).tqs = s.tqs ∧ (s.stagesOff).chans = s.chans ∧
    (s.stagesOff).freqs = s.freqs ∧ (s.stagesOff).slotLog = s.slotLog ∧ (s.stagesOff).envs = s.envs ∧
    (s.stagesOff).marks = s.marks ∧ (s.stagesOff).once = s.once ∧ (s.stagesOff).parity = s.parity ∧
    (s.stagesOff).decs = s.decs ∧ (s.stagesOff).tileViews = s.tileViews ∧ (s.stagesOff).viewAts = s.viewAts ∧
    (s.stagesOff).fluxes = s.fluxes ∧ (s.stagesOff).clrSamp = s.clrSamp ∧ (s.stagesOff).heldWrites = s.heldWrites ∧
    (s.stagesOff).lanes = s.lanes ∧ (s.stagesOff).banks = s.banks ∧ (s.stagesOff).recs = s.recs ∧
    (s.stagesOff).tileRels = s.tileRels ∧ (s.stagesOff).devRels = s.devRels ∧ (s.stagesOff).remRels = s.remRels ∧
    (s.stagesOff).parIns = s.parIns ∧ (s.stagesOff).links = s.links ∧ (s.stagesOff).pair2 = s.pair2 ∧
    (s.stagesOff).ttx = s.ttx ∧ (s.stagesOff).rings = s.rings ∧ (s.stagesOff).pcie = s.pcie ∧
    (s.stagesOff).henRestart = s.henRestart ∧ (s.stagesOff).refLost = s.refLost ∧ (s.stagesOff).shutAt = s.shutAt ∧
    (s.stagesOff).ptp = s.ptp ∧ (s.stagesOff).eths = s.eths ∧ (s.stagesOff).tius = s.tius ∧ (s.stagesOff).tms = s.tms ∧
    (s.stagesOff).exps = s.exps ∧ (s.stagesOff).hks = s.hks ∧ (s.stagesOff).sns = s.sns ∧ (s.stagesOff).power = s.power ∧
    (s.stagesOff).avsAt = s.avsAt ∧ (s.stagesOff).convs = s.convs ∧ (s.stagesOff).cal = s.cal ∧
    (s.stagesOff).book = s.book ∧ (s.stagesOff).aon = s.aon ∧ (s.stagesOff).refx = s.refx ∧ (s.stagesOff).cfg = s.cfg ∧
    (s.stagesOff).wl = s.wl ∧ (s.stagesOff).spdm = s.spdm ∧ (s.stagesOff).jtag = s.jtag ∧ (s.stagesOff).out = s.out ∧
    (s.stagesOff).readData = s.readData ∧ (s.stagesOff).readMem = s.readMem ∧ (s.stagesOff).pending = s.pending := by
  and_intros <;> rfl

@[simp] theorem State.setConv_fields (s : State) (t i : Nat) (x : ConvX) :
    (s.setConv t i x).regs = s.regs ∧ (s.setConv t i x).mem = s.mem ∧ (s.setConv t i x).holds = s.holds ∧
    (s.setConv t i x).tm = s.tm ∧ (s.setConv t i x).tie = s.tie ∧ (s.setConv t i x).evq = s.evq ∧
    (s.setConv t i x).evIn = s.evIn ∧ (s.setConv t i x).scheds = s.scheds ∧ (s.setConv t i x).seqs = s.seqs ∧
    (s.setConv t i x).tqs = s.tqs ∧ (s.setConv t i x).chans = s.chans ∧ (s.setConv t i x).freqs = s.freqs ∧
    (s.setConv t i x).slotLog = s.slotLog ∧ (s.setConv t i x).envs = s.envs ∧ (s.setConv t i x).marks = s.marks ∧
    (s.setConv t i x).once = s.once ∧ (s.setConv t i x).parity = s.parity ∧ (s.setConv t i x).decs = s.decs ∧
    (s.setConv t i x).tileViews = s.tileViews ∧ (s.setConv t i x).viewAts = s.viewAts ∧
    (s.setConv t i x).fluxes = s.fluxes ∧ (s.setConv t i x).biases = s.biases ∧ (s.setConv t i x).clrSamp = s.clrSamp ∧
    (s.setConv t i x).heldWrites = s.heldWrites ∧ (s.setConv t i x).lanes = s.lanes ∧ (s.setConv t i x).banks = s.banks ∧
    (s.setConv t i x).recs = s.recs ∧ (s.setConv t i x).tileRels = s.tileRels ∧ (s.setConv t i x).devRels = s.devRels ∧
    (s.setConv t i x).remRels = s.remRels ∧ (s.setConv t i x).parIns = s.parIns ∧ (s.setConv t i x).links = s.links ∧
    (s.setConv t i x).pair2 = s.pair2 ∧ (s.setConv t i x).ttx = s.ttx ∧ (s.setConv t i x).rings = s.rings ∧
    (s.setConv t i x).pcie = s.pcie ∧ (s.setConv t i x).henRestart = s.henRestart ∧ (s.setConv t i x).refLost = s.refLost ∧
    (s.setConv t i x).shutAt = s.shutAt ∧ (s.setConv t i x).ptp = s.ptp ∧ (s.setConv t i x).eths = s.eths ∧
    (s.setConv t i x).tius = s.tius ∧ (s.setConv t i x).tms = s.tms ∧ (s.setConv t i x).exps = s.exps ∧
    (s.setConv t i x).hks = s.hks ∧ (s.setConv t i x).sns = s.sns ∧ (s.setConv t i x).power = s.power ∧
    (s.setConv t i x).avsAt = s.avsAt ∧ (s.setConv t i x).cal = s.cal ∧ (s.setConv t i x).book = s.book ∧
    (s.setConv t i x).aon = s.aon ∧ (s.setConv t i x).refx = s.refx ∧ (s.setConv t i x).cfg = s.cfg ∧
    (s.setConv t i x).wl = s.wl ∧ (s.setConv t i x).spdm = s.spdm ∧ (s.setConv t i x).jtag = s.jtag ∧
    (s.setConv t i x).out = s.out ∧ (s.setConv t i x).readData = s.readData ∧ (s.setConv t i x).readMem = s.readMem ∧
    (s.setConv t i x).pending = s.pending := by
  and_intros <;> rfl

@[simp] theorem State.modCal_fields (s : State) (f : CalX → CalX) :
    (s.modCal f).regs = s.regs ∧ (s.modCal f).mem = s.mem ∧ (s.modCal f).holds = s.holds ∧ (s.modCal f).tm = s.tm ∧
    (s.modCal f).tie = s.tie ∧ (s.modCal f).evq = s.evq ∧ (s.modCal f).evIn = s.evIn ∧ (s.modCal f).scheds = s.scheds ∧
    (s.modCal f).seqs = s.seqs ∧ (s.modCal f).tqs = s.tqs ∧ (s.modCal f).chans = s.chans ∧ (s.modCal f).freqs = s.freqs ∧
    (s.modCal f).slotLog = s.slotLog ∧ (s.modCal f).envs = s.envs ∧ (s.modCal f).marks = s.marks ∧
    (s.modCal f).once = s.once ∧ (s.modCal f).parity = s.parity ∧ (s.modCal f).decs = s.decs ∧
    (s.modCal f).tileViews = s.tileViews ∧ (s.modCal f).viewAts = s.viewAts ∧ (s.modCal f).fluxes = s.fluxes ∧
    (s.modCal f).biases = s.biases ∧ (s.modCal f).clrSamp = s.clrSamp ∧ (s.modCal f).heldWrites = s.heldWrites ∧
    (s.modCal f).lanes = s.lanes ∧ (s.modCal f).banks = s.banks ∧ (s.modCal f).recs = s.recs ∧
    (s.modCal f).tileRels = s.tileRels ∧ (s.modCal f).devRels = s.devRels ∧ (s.modCal f).remRels = s.remRels ∧
    (s.modCal f).parIns = s.parIns ∧ (s.modCal f).links = s.links ∧ (s.modCal f).pair2 = s.pair2 ∧
    (s.modCal f).ttx = s.ttx ∧ (s.modCal f).rings = s.rings ∧ (s.modCal f).pcie = s.pcie ∧
    (s.modCal f).henRestart = s.henRestart ∧ (s.modCal f).refLost = s.refLost ∧ (s.modCal f).shutAt = s.shutAt ∧
    (s.modCal f).ptp = s.ptp ∧ (s.modCal f).eths = s.eths ∧ (s.modCal f).tius = s.tius ∧ (s.modCal f).tms = s.tms ∧
    (s.modCal f).exps = s.exps ∧ (s.modCal f).hks = s.hks ∧ (s.modCal f).sns = s.sns ∧ (s.modCal f).power = s.power ∧
    (s.modCal f).avsAt = s.avsAt ∧ (s.modCal f).convs = s.convs ∧ (s.modCal f).book = s.book ∧ (s.modCal f).aon = s.aon ∧
    (s.modCal f).refx = s.refx ∧ (s.modCal f).cfg = s.cfg ∧ (s.modCal f).wl = s.wl ∧ (s.modCal f).spdm = s.spdm ∧
    (s.modCal f).jtag = s.jtag ∧ (s.modCal f).out = s.out ∧ (s.modCal f).readData = s.readData ∧
    (s.modCal f).readMem = s.readMem ∧ (s.modCal f).pending = s.pending := by
  and_intros <;> rfl

@[simp] theorem State.setImg_fields (s : State) (g : Option ImgX) :
    (s.setImg g).regs = s.regs ∧ (s.setImg g).mem = s.mem ∧ (s.setImg g).holds = s.holds ∧ (s.setImg g).tm = s.tm ∧
    (s.setImg g).tie = s.tie ∧ (s.setImg g).evq = s.evq ∧ (s.setImg g).evIn = s.evIn ∧ (s.setImg g).scheds = s.scheds ∧
    (s.setImg g).seqs = s.seqs ∧ (s.setImg g).tqs = s.tqs ∧ (s.setImg g).chans = s.chans ∧ (s.setImg g).freqs = s.freqs ∧
    (s.setImg g).slotLog = s.slotLog ∧ (s.setImg g).envs = s.envs ∧ (s.setImg g).marks = s.marks ∧
    (s.setImg g).once = s.once ∧ (s.setImg g).parity = s.parity ∧ (s.setImg g).decs = s.decs ∧
    (s.setImg g).tileViews = s.tileViews ∧ (s.setImg g).viewAts = s.viewAts ∧ (s.setImg g).fluxes = s.fluxes ∧
    (s.setImg g).biases = s.biases ∧ (s.setImg g).clrSamp = s.clrSamp ∧ (s.setImg g).heldWrites = s.heldWrites ∧
    (s.setImg g).lanes = s.lanes ∧ (s.setImg g).banks = s.banks ∧ (s.setImg g).recs = s.recs ∧
    (s.setImg g).tileRels = s.tileRels ∧ (s.setImg g).devRels = s.devRels ∧ (s.setImg g).remRels = s.remRels ∧
    (s.setImg g).parIns = s.parIns ∧ (s.setImg g).links = s.links ∧ (s.setImg g).pair2 = s.pair2 ∧
    (s.setImg g).ttx = s.ttx ∧ (s.setImg g).rings = s.rings ∧ (s.setImg g).pcie = s.pcie ∧
    (s.setImg g).henRestart = s.henRestart ∧ (s.setImg g).refLost = s.refLost ∧ (s.setImg g).shutAt = s.shutAt ∧
    (s.setImg g).ptp = s.ptp ∧ (s.setImg g).eths = s.eths ∧ (s.setImg g).tius = s.tius ∧ (s.setImg g).tms = s.tms ∧
    (s.setImg g).exps = s.exps ∧ (s.setImg g).hks = s.hks ∧ (s.setImg g).sns = s.sns ∧ (s.setImg g).power = s.power ∧
    (s.setImg g).avsAt = s.avsAt ∧ (s.setImg g).convs = s.convs ∧ (s.setImg g).cal = s.cal ∧ (s.setImg g).book = s.book ∧
    (s.setImg g).aon = s.aon ∧ (s.setImg g).refx = s.refx ∧ (s.setImg g).wl = s.wl ∧ (s.setImg g).spdm = s.spdm ∧
    (s.setImg g).jtag = s.jtag ∧ (s.setImg g).out = s.out ∧ (s.setImg g).readData = s.readData ∧
    (s.setImg g).readMem = s.readMem ∧ (s.setImg g).pending = s.pending := by
  and_intros <;> rfl

@[simp] theorem State.jtagSelect_fields (s : State) (ir : Nat) :
    (s.jtagSelect ir).regs = s.regs ∧ (s.jtagSelect ir).mem = s.mem ∧ (s.jtagSelect ir).holds = s.holds ∧
    (s.jtagSelect ir).tm = s.tm ∧ (s.jtagSelect ir).tie = s.tie ∧ (s.jtagSelect ir).evq = s.evq ∧
    (s.jtagSelect ir).evIn = s.evIn ∧ (s.jtagSelect ir).scheds = s.scheds ∧ (s.jtagSelect ir).seqs = s.seqs ∧
    (s.jtagSelect ir).tqs = s.tqs ∧ (s.jtagSelect ir).chans = s.chans ∧ (s.jtagSelect ir).freqs = s.freqs ∧
    (s.jtagSelect ir).slotLog = s.slotLog ∧ (s.jtagSelect ir).envs = s.envs ∧ (s.jtagSelect ir).marks = s.marks ∧
    (s.jtagSelect ir).once = s.once ∧ (s.jtagSelect ir).parity = s.parity ∧ (s.jtagSelect ir).decs = s.decs ∧
    (s.jtagSelect ir).tileViews = s.tileViews ∧ (s.jtagSelect ir).viewAts = s.viewAts ∧
    (s.jtagSelect ir).fluxes = s.fluxes ∧ (s.jtagSelect ir).biases = s.biases ∧ (s.jtagSelect ir).clrSamp = s.clrSamp ∧
    (s.jtagSelect ir).heldWrites = s.heldWrites ∧ (s.jtagSelect ir).lanes = s.lanes ∧ (s.jtagSelect ir).banks = s.banks ∧
    (s.jtagSelect ir).recs = s.recs ∧ (s.jtagSelect ir).tileRels = s.tileRels ∧ (s.jtagSelect ir).devRels = s.devRels ∧
    (s.jtagSelect ir).remRels = s.remRels ∧ (s.jtagSelect ir).parIns = s.parIns ∧ (s.jtagSelect ir).links = s.links ∧
    (s.jtagSelect ir).pair2 = s.pair2 ∧ (s.jtagSelect ir).ttx = s.ttx ∧ (s.jtagSelect ir).rings = s.rings ∧
    (s.jtagSelect ir).pcie = s.pcie ∧ (s.jtagSelect ir).henRestart = s.henRestart ∧ (s.jtagSelect ir).refLost = s.refLost ∧
    (s.jtagSelect ir).shutAt = s.shutAt ∧ (s.jtagSelect ir).ptp = s.ptp ∧ (s.jtagSelect ir).eths = s.eths ∧
    (s.jtagSelect ir).tius = s.tius ∧ (s.jtagSelect ir).tms = s.tms ∧ (s.jtagSelect ir).exps = s.exps ∧
    (s.jtagSelect ir).hks = s.hks ∧ (s.jtagSelect ir).sns = s.sns ∧ (s.jtagSelect ir).power = s.power ∧
    (s.jtagSelect ir).avsAt = s.avsAt ∧ (s.jtagSelect ir).convs = s.convs ∧ (s.jtagSelect ir).cal = s.cal ∧
    (s.jtagSelect ir).book = s.book ∧ (s.jtagSelect ir).aon = s.aon ∧ (s.jtagSelect ir).refx = s.refx ∧
    (s.jtagSelect ir).cfg = s.cfg ∧ (s.jtagSelect ir).wl = s.wl ∧ (s.jtagSelect ir).spdm = s.spdm ∧
    (s.jtagSelect ir).out = s.out ∧ (s.jtagSelect ir).readData = s.readData ∧ (s.jtagSelect ir).readMem = s.readMem ∧
    (s.jtagSelect ir).pending = s.pending := by
  and_intros <;> rfl

@[simp] theorem State.envTick_fields (s : State) (t n : Nat) :
    (s.envTick t n).regs = s.regs ∧ (s.envTick t n).mem = s.mem ∧ (s.envTick t n).holds = s.holds ∧
    (s.envTick t n).tm = s.tm ∧ (s.envTick t n).tie = s.tie ∧ (s.envTick t n).evq = s.evq ∧ (s.envTick t n).evIn = s.evIn ∧
    (s.envTick t n).scheds = s.scheds ∧ (s.envTick t n).seqs = s.seqs ∧ (s.envTick t n).tqs = s.tqs ∧
    (s.envTick t n).chans = s.chans ∧ (s.envTick t n).freqs = s.freqs ∧ (s.envTick t n).slotLog = s.slotLog ∧
    (s.envTick t n).marks = s.marks ∧ (s.envTick t n).once = s.once ∧ (s.envTick t n).parity = s.parity ∧
    (s.envTick t n).decs = s.decs ∧ (s.envTick t n).tileViews = s.tileViews ∧ (s.envTick t n).viewAts = s.viewAts ∧
    (s.envTick t n).fluxes = s.fluxes ∧ (s.envTick t n).biases = s.biases ∧ (s.envTick t n).clrSamp = s.clrSamp ∧
    (s.envTick t n).heldWrites = s.heldWrites ∧ (s.envTick t n).lanes = s.lanes ∧ (s.envTick t n).banks = s.banks ∧
    (s.envTick t n).recs = s.recs ∧ (s.envTick t n).tileRels = s.tileRels ∧ (s.envTick t n).devRels = s.devRels ∧
    (s.envTick t n).remRels = s.remRels ∧ (s.envTick t n).parIns = s.parIns ∧ (s.envTick t n).links = s.links ∧
    (s.envTick t n).pair2 = s.pair2 ∧ (s.envTick t n).ttx = s.ttx ∧ (s.envTick t n).rings = s.rings ∧
    (s.envTick t n).pcie = s.pcie ∧ (s.envTick t n).henRestart = s.henRestart ∧ (s.envTick t n).refLost = s.refLost ∧
    (s.envTick t n).shutAt = s.shutAt ∧ (s.envTick t n).ptp = s.ptp ∧ (s.envTick t n).eths = s.eths ∧
    (s.envTick t n).tius = s.tius ∧ (s.envTick t n).tms = s.tms ∧ (s.envTick t n).exps = s.exps ∧
    (s.envTick t n).hks = s.hks ∧ (s.envTick t n).sns = s.sns ∧ (s.envTick t n).power = s.power ∧
    (s.envTick t n).avsAt = s.avsAt ∧ (s.envTick t n).convs = s.convs ∧ (s.envTick t n).cal = s.cal ∧
    (s.envTick t n).book = s.book ∧ (s.envTick t n).aon = s.aon ∧ (s.envTick t n).refx = s.refx ∧
    (s.envTick t n).cfg = s.cfg ∧ (s.envTick t n).wl = s.wl ∧ (s.envTick t n).spdm = s.spdm ∧
    (s.envTick t n).jtag = s.jtag ∧ (s.envTick t n).out = s.out ∧ (s.envTick t n).readData = s.readData ∧
    (s.envTick t n).readMem = s.readMem ∧ (s.envTick t n).pending = s.pending := by
  and_intros <;> rfl

end Sys2Proof.Machine
end

