-- ==== Sys2Proof/Laws/Access.lean ====
section
/-! SUPPORT. What a host access comes to: where it is open, what a refusal changes, and what a write that is accepted does. -/

namespace Sys2Proof.Machine

open Sys2Proof.Safety

/-! ## Register frames -/

theorem onlyRegs_refl (l : List Nat) (s : State) : OnlyRegs l s s := ⟨fun _ _ => rfl, rfl⟩

theorem onlyRegs_setReg (s : State) (l : List Nat) (a : Nat) (v : Word) (h : a ∈ l) : OnlyRegs l s (s.setReg a v) :=
  ⟨fun _ hb => s.reg_setReg_ne v fun e => hb (e ▸ h), rfl⟩

theorem onlyRegs_raiseReg (s : State) (l : List Nat) (a : Nat) (m : Word) (h : a ∈ l) : OnlyRegs l s (s.raiseReg a m) :=
  ⟨(onlyRegs_setReg s l a _ h).1, rfl⟩

theorem onlyRegs_setFld (s : State) (l : List Nat) (a : Nat) (f : Fld) (x : Nat) (h : a ∈ l) :
    OnlyRegs l s (s.setFld a f x) := onlyRegs_setReg s l a _ h

theorem onlyRegs_trans {s t u : State} {l : List Nat} (h : OnlyRegs l s t) (k : OnlyRegs l t u) : OnlyRegs l s u := by
  obtain ⟨h1, h2⟩ := h
  obtain ⟨k1, k2⟩ := k
  exact ⟨fun a ha => (k1 a ha).trans (h1 a ha), by rw [k2, h2]⟩

theorem onlyRegs_mono {s t : State} {l m : List Nat} (h : OnlyRegs l s t) (k : ∀ a ∈ l, a ∈ m) : OnlyRegs m s t :=
  ⟨fun a ha => h.1 a fun e => ha (k a e), h.2⟩

theorem sameRegs_refl (l : List Nat) (s : State) : SameRegs l s s := fun _ _ => rfl

theorem sameRegs_trans {s t u : State} {l : List Nat} (h : SameRegs l s t) (k : SameRegs l t u) : SameRegs l s u :=
  fun a ha => (k a ha).trans (h a ha)

/-- A state whose register map is the same reads the same registers. -/
theorem sameRegs_of_regs {s t : State} (l : List Nat) (h : t.regs = s.regs) : SameRegs l s t := fun a _ => by
  unfold State.reg; rw [h]

theorem State.reg_of_regs {s t : State} (h : t.regs = s.regs) (a : Nat) : t.reg a = s.reg a := by
  unfold State.reg; rw [h]

/-! ## Refused accesses (R43) -/

theorem State.refuseHost_ignored (s : State) (w off : Nat) : s.refuseHost .ignored w off = s := rfl

/-- The captured access, by its fields. -/
theorem captureWord_fields (k w off : Nat) (hk : k < 3) (hw : w < 4) :
    getF (captureWord k w off) F.glbErrAddr.valid = 1 ∧ getF (captureWord k w off) F.glbErrAddr.kind = k ∧
    getF (captureWord k w off) F.glbErrAddr.window = w ∧ getF (captureWord k w off) F.glbErrAddr.offset = off % 2 ^ 27 := by
  have hlt : off % 2 ^ 27 < 2 ^ 27 := Nat.mod_lt _ (by decide)
  simp only [captureWord, getF, F.glbErrAddr.valid, F.glbErrAddr.kind, F.glbErrAddr.window, F.glbErrAddr.offset,
    BitVec.toNat_ofNat]
  generalize off % 2 ^ 27 = o at *
  norm_num at *
  omega

/-- A recorded refusal changes nothing but the error status and the capture. -/
theorem State.refuseHost_refused (s : State) (e : Refuse) (w off : Nat) (h : e ≠ .ignored) (hw : w < 4) :
    Refused e.code w off s (s.refuseHost e w off) := by
  have hk : e.code < 3 := by cases e <;> first | exact absurd rfl h | decide
  unfold State.refuseHost
  rw [if_neg h]
  cases hv : s.on A.glbErrAddr F.glbErrAddr.valid
  · simp only [Bool.false_eq_true, if_false]
    refine ⟨onlyRegs_trans (onlyRegs_raiseReg _ _ A.glbErrSts _ (by simp)) ⟨(onlyRegs_setReg _ _ A.glbErrAddr _ (by simp)).1, rfl⟩,
      ?_, fun h => absurd h (by rw [hv]; decide), fun _ => ?_⟩
    · exact (State.reg_setReg_ne _ _ (by decide)).trans (State.reg_setReg_same _ _ _)
    · have hr : ((s.raiseReg A.glbErrSts (BitVec.ofNat 32 (2 ^ e.code))).captureErr (captureWord e.code w off)).reg A.glbErrAddr =
          captureWord e.code w off := State.reg_setReg_same _ _ _
      simp only [State.fld, hr]
      exact captureWord_fields e.code w off hk hw
  · simp only [if_true]
    refine ⟨⟨(onlyRegs_setReg _ _ A.glbErrSts _ (by simp)).1, rfl⟩, State.reg_setReg_same _ _ _, fun _ => ?_, fun h => absurd h (by rw [hv]; decide)⟩
    exact State.reg_setReg_ne _ _ (by decide)

theorem winCode_lt (w : Window) : winCode w < 4 := by cases w <;> simp [winCode]

/-! ## Open registers -/

/-- An access to a register that is open was made while the part runs. -/
theorem HostOpen.live {s : State} {a : Nat} (h : HostOpen s a) : s.live = true := by
  cases hl : s.live with
  | true => rfl
  | false => simp [HostOpen, State.blockRefuse, State.accessRefuse, hl] at h

/-- A host write that is accepted and meets no lock: the merged word, then the register's effect. -/
theorem State.hostWrite_write (s : State) (r : RegSpec) (a : Nat) (w : Word) (eff : State → State) (off : Nat)
    (h : HostOpen s a) (hl : lockHit r.fields (s.locked .host) (s.reg a) w = false) :
    State.hostWrite (s.write .host r a w none eff) off =
      eff (s.setReg a (mergeWord r.fields (s.locked .host) (s.reg a) (s.tied r.fields a w))) := by
  rw [s.write_ok _ _ _ _ _ h]
  simp [State.hostWrite, hl]

/-- A host write that the register itself refuses changes nothing but the error record. -/
theorem State.hostWrite_denied (s : State) (r : RegSpec) (a : Nat) (w : Word) (eff : State → State) (off : Nat)
    (h : HostOpen s a) (e : Refuse) : State.hostWrite (s.write .host r a w (some e) eff) off = s.refuseHost e 0 off := by
  rw [s.write_refused _ _ _ _ _ _ e (.inr ⟨h, rfl⟩)]
  rfl

/-- A register without LK fields meets no lock. -/
theorem lockHit_none (fs : List FieldSpec) (lock : Bool) (old w : Word) (h : fs.all (fun f => !f.lk) = true) :
    lockHit fs lock old w = false := by
  simp only [lockHit, Bool.and_eq_false_imp]
  intro _
  simp only [List.all_eq_true, Bool.not_eq_true'] at h
  simp only [List.any_eq_false, Bool.and_eq_true, not_and]
  intro f hf hlk
  simp [h f hf] at hlk

/-- A register without write-1-to-clear fields, and one of which no event of the tick has set a bit, takes a write as it stands
(R11). -/
theorem State.tied_none (s : State) (fs : List FieldSpec) (a : Nat) (w : Word)
    (h : KMap.get 0 s.tie.set a = 0 ∨ fs.all (fun f => f.acc != .w1c) = true) : s.tied fs a w = w := by
  unfold State.tied
  dsimp only
  split
  · rfl
  · rename_i hm
    rcases h with h | h
    · exact absurd h hm
    · induction fs with
      | nil => rfl
      | cons f fs ih =>
        simp only [List.all_cons, Bool.and_eq_true] at h
        have hf : (f.acc == Acc.w1c) = false := by have := h.1; revert this; cases f.acc <;> decide
        rw [List.foldl_cons, hf]
        exact ih h.2

/-- Before sealing no field is locked. -/
theorem lockHit_unlocked (fs : List FieldSpec) (old w : Word) : lockHit fs false old w = false := rfl

end Sys2Proof.Machine
end

