-- ==== Sys2Proof/Laws/KeepsA.lean ====
section
/-! SUPPORT. What each shared operation leaves alone: the memory window and the queue of commands that wait. Every operation but
the writers of the memory window (Laws/Memory.lean) and a reset has a theorem here, which simp uses. -/

namespace Sys2Proof.Machine

@[simp] theorem foldl_mem {α : Type} (g : State → α → State) (h : ∀ s x, (g s x).mem = s.mem) (l : List α) (s : State) :
    (l.foldl g s).mem = s.mem := by
  induction l generalizing s with
  | nil => rfl
  | cons x l ih => rw [List.foldl_cons, ih, h]
@[simp] theorem foldl_pending {α : Type} (g : State → α → State) (h : ∀ s x, (g s x).pending = s.pending) (l : List α) (s : State) :
    (l.foldl g s).pending = s.pending := by
  induction l generalizing s with
  | nil => rfl
  | cons x l ih => rw [List.foldl_cons, ih, h]
@[simp] theorem mem_ite (c : Prop) [Decidable c] (s t : State) : (if c then s else t).mem =
       if c then s.mem else t.mem := by
  split <;> rfl
@[simp] theorem pending_ite (c : Prop) [Decidable c] (s t : State) : (if c then s else t).pending =
       if c then s.pending else t.pending := by
  split <;> rfl
@[simp] theorem fst_ite {α : Type} (c : Prop) [Decidable c] (s t : State × α) : (if c then s else t).1 =
       if c then s.1 else t.1 := by
  split <;> rfl

/-! ### Ops -/

@[simp] theorem State.setReg_keeps (s : State) (a : Nat) (v : Word) :
    (s.setReg a v).mem = s.mem ∧ (s.setReg a v).pending = s.pending := by
  simp [State.setReg]

@[simp] theorem State.setFld_keeps (s : State) (a : Nat) (f : Fld) (x : Nat) :
    (s.setFld a f x).mem = s.mem ∧ (s.setFld a f x).pending = s.pending := by
  simp [State.setFld]

@[simp] theorem State.raiseReg_keeps (s : State) (a : Nat) (m : Word) :
    (s.raiseReg a m).mem = s.mem ∧ (s.raiseReg a m).pending = s.pending := by
  simp [State.raiseReg]

@[simp] theorem State.note_keeps (s : State) (a : Nat) (f : Fld) (x : Nat) :
    (s.note a f x).mem = s.mem ∧ (s.note a f x).pending = s.pending := ⟨rfl, rfl⟩

@[simp] theorem State.checkSet_mem (s : State) (lock : Bool) (f : State → State) (h : (f s).mem = s.mem) :
    (s.checkSet lock f).mem = s.mem := by
  unfold State.checkSet
  split <;> simp [h]

@[simp] theorem State.checkSet_pending (s : State) (lock : Bool) (f : State → State) (h : (f s).pending = s.pending) :
    (s.checkSet lock f).pending = s.pending := by
  unfold State.checkSet
  split <;> simp [h]

@[simp] theorem State.raise_keeps (s : State) (a : Nat) (f : Fld) (x : Nat) :
    (s.raise a f x).mem = s.mem ∧ (s.raise a f x).pending = s.pending := by
  simp [State.raise]

@[simp] theorem State.bumpBy_keeps (s : State) (a n : Nat) :
    (s.bumpBy a n).mem = s.mem ∧ (s.bumpBy a n).pending = s.pending := by
  simp [State.bumpBy]

@[simp] theorem State.bump_keeps (s : State) (a : Nat) :
    (s.bump a).mem = s.mem ∧ (s.bump a).pending = s.pending := by
  simp [State.bump]

@[simp] theorem State.setHold_keeps (s : State) (lo : Nat) (h : Hold) :
    (s.setHold lo h).mem = s.mem ∧ (s.setHold lo h).pending = s.pending := by
  simp [State.setHold]

@[simp] theorem State.arrived_keeps (s : State) (lo : Nat) :
    (s.arrived lo).mem = s.mem ∧ (s.arrived lo).pending = s.pending := by
  simp [State.arrived]

@[simp] theorem State.setPair_keeps (s : State) (lo hi v : Nat) :
    (s.setPair lo hi v).mem = s.mem ∧ (s.setPair lo hi v).pending = s.pending := by
  simp [State.setPair]

@[simp] theorem State.fireRaw_keeps (s : State) (src g : Nat) :
    (s.fireRaw src g).mem = s.mem ∧ (s.fireRaw src g).pending = s.pending := by
  simp [State.fireRaw]

@[simp] theorem State.fireG_keeps (s : State) (src g : Nat) :
    (s.fireG src g).mem = s.mem ∧ (s.fireG src g).pending = s.pending := by
  simp [State.fireG]

@[simp] theorem State.fire_keeps (s : State) (src : Nat) :
    (s.fire src).mem = s.mem ∧ (s.fire src).pending = s.pending := by
  simp [State.fire]

@[simp] theorem State.send_keeps (s : State) (o : Out) :
    (s.send o).mem = s.mem ∧ (s.send o).pending = s.pending := by
  simp [State.send]

@[simp] theorem State.hostFetch_keeps (s : State) (a n : Nat) :
    (s.hostFetch a n).mem = s.mem ∧ (s.hostFetch a n).pending = s.pending := by
  simp [State.hostFetch]

@[simp] theorem State.setSched_keeps (s : State) (p : Nat) (c : Sched) :
    (s.setSched p c).mem = s.mem ∧ (s.setSched p c).pending = s.pending := by
  simp [State.setSched]

@[simp] theorem State.mapShots_keeps (s : State) (p : Nat) (which : Shot → Bool) (f : Shot → Shot) :
    (s.mapShots p which f).mem = s.mem ∧ (s.mapShots p which f).pending = s.pending := by
  simp [State.mapShots]

@[simp] theorem State.flagShot_keeps (s : State) (p sid : Nat) (fl : BitVec 16) :
    (s.flagShot p sid fl).mem = s.mem ∧ (s.flagShot p sid fl).pending = s.pending := by
  simp [State.flagShot]

@[simp] theorem State.flagNow_keeps (s : State) (p : Nat) (fl : BitVec 16) :
    (s.flagNow p fl).mem = s.mem ∧ (s.flagNow p fl).pending = s.pending := by
  simp [State.flagNow]

@[simp] theorem State.flagTile_keeps (s : State) (t : Nat) (fl : BitVec 16) :
    (s.flagTile t fl).mem = s.mem ∧ (s.flagTile t fl).pending = s.pending := by
  unfold State.flagTile
  split <;> simp

@[simp] theorem State.lateShot_keeps (s : State) (p sid key : Nat) :
    (s.lateShot p sid key).mem = s.mem ∧ (s.lateShot p sid key).pending = s.pending := by
  simp [State.lateShot]

@[simp] theorem State.setSeq_keeps (s : State) (k : Nat) (x : SeqX) :
    (s.setSeq k x).mem = s.mem ∧ (s.setSeq k x).pending = s.pending := by
  simp [State.setSeq]

@[simp] theorem State.setTq_keeps (s : State) (k : Nat) (x : Tq) :
    (s.setTq k x).mem = s.mem ∧ (s.setTq k x).pending = s.pending := by
  simp [State.setTq]

@[simp] theorem State.setChan_keeps (s : State) (t n : Nat) (x : Chan) :
    (s.setChan t n x).mem = s.mem ∧ (s.setChan t n x).pending = s.pending := by
  simp [State.setChan]

@[simp] theorem State.fireOnceIn_keeps (s : State) (t k : Nat) (ahead : Bool) :
    (s.fireOnceIn t k ahead).mem = s.mem ∧ (s.fireOnceIn t k ahead).pending = s.pending := by
  simp [State.fireOnceIn]

@[simp] theorem State.fireOnce_keeps (s : State) (t k : Nat) :
    (s.fireOnce t k).mem = s.mem ∧ (s.fireOnce t k).pending = s.pending := by
  simp [State.fireOnce]

@[simp] theorem State.captureErr_keeps (s : State) (c : Word) :
    (s.captureErr c).mem = s.mem ∧ (s.captureErr c).pending = s.pending := by
  simp [State.captureErr]

@[simp] theorem State.refuseHost_keeps (s : State) (e : Refuse) (window off : Nat) :
    (s.refuseHost e window off).mem = s.mem ∧ (s.refuseHost e window off).pending = s.pending := by
  simp [State.refuseHost]

@[simp] theorem State.write_mem (s : State) (src : Req) (r : RegSpec) (a : Nat) (w : Word) (deny : Option Refuse)
    (eff : State → State) (h : ∀ x y, eff x = y → y.mem = x.mem) : (s.write src r a w deny eff).1.mem = s.mem := by
  unfold State.write
  split
  · rfl
  · split
    · rfl
    · simp [h _ _ rfl]
@[simp] theorem State.write_pending (s : State) (src : Req) (r : RegSpec) (a : Nat) (w : Word) (deny : Option Refuse)
    (eff : State → State) (h : ∀ x y, eff x = y → y.pending = x.pending) : (s.write src r a w deny eff).1.pending = s.pending := by
  unfold State.write
  split
  · rfl
  · split
    · rfl
    · simp [h _ _ rfl]

@[simp] theorem State.hostWrite_keeps (r : WRes) (off : Nat) :
    (State.hostWrite r off).mem = r.1.mem ∧ (State.hostWrite r off).pending = r.1.pending := by
  unfold State.hostWrite
  split <;> simp

@[simp] theorem State.bellWrite_keeps (r : WRes) (off : Nat) :
    (State.bellWrite r off).mem = r.1.mem ∧ (State.bellWrite r off).pending = r.1.pending := by
  unfold State.bellWrite
  split <;> simp

@[simp] theorem State.setTiu_keeps (s : State) (i : Nat) (x : TiuX) :
    (s.setTiu i x).mem = s.mem ∧ (s.setTiu i x).pending = s.pending := by
  simp [State.setTiu]

/-! ### KelairTx -/

@[simp] theorem State.setLink_keeps (s : State) (k : Nat) (x : KLink) :
    (s.setLink k x).mem = s.mem ∧ (s.setLink k x).pending = s.pending := by
  simp [State.setLink]

@[simp] theorem State.modLink_keeps (s : State) (k : Nat) (f : KLink → KLink) :
    (s.modLink k f).mem = s.mem ∧ (s.modLink k f).pending = s.pending := by
  simp [State.modLink]

@[simp] theorem State.setKlState_keeps (s : State) (k c : Nat) :
    (s.setKlState k c).mem = s.mem ∧ (s.setKlState k c).pending = s.pending := by
  simp [State.setKlState]

@[simp] theorem State.emitBlocks_keeps (s : State) (k : Nat) (bs : List Block) :
    (s.emitBlocks k bs).mem = s.mem ∧ (s.emitBlocks k bs).pending = s.pending := by
  unfold State.emitBlocks
  split <;> simp

@[simp] theorem State.notIdle_keeps (s : State) (k : Nat) :
    (s.notIdle k).mem = s.mem ∧ (s.notIdle k).pending = s.pending := by
  simp [State.notIdle]

@[simp] theorem State.emit_keeps (s : State) (k : Nat) (bs : List Block) :
    (s.emit k bs).mem = s.mem ∧ (s.emit k bs).pending = s.pending := by
  simp [State.emit]

@[simp] theorem State.control_keeps (s : State) (k kind lseq : Nat) :
    (s.control k kind lseq).mem = s.mem ∧ (s.control k kind lseq).pending = s.pending := by
  simp [State.control]

@[simp] theorem State.pump_keeps (s : State) (k x2 : Nat) :
    (s.pump k x2).mem = s.mem ∧ (s.pump k x2).pending = s.pending := by
  induction x2 generalizing s k <;> unfold State.pump <;> (try dsimp only) <;> (repeat' split) <;> simp [*]

@[simp] theorem State.post_keeps (s : State) (k : Nat) (m : KMsg) :
    (s.post k m).mem = s.mem ∧ (s.post k m).pending = s.pending := by
  simp [State.post]

@[simp] theorem State.replayFrom_keeps (s : State) (k : Nat) (x2 : List (Nat × List Block)) :
    (s.replayFrom k x2).mem = s.mem ∧ (s.replayFrom k x2).pending = s.pending := by
  induction x2 generalizing s k <;> simp [State.replayFrom, *]

@[simp] theorem State.dropDest_keeps (s : State) :
    (s.dropDest).mem = s.mem ∧ (s.dropDest).pending = s.pending := by
  simp [State.dropDest]

@[simp] theorem State.sendDecision_keeps (s : State) (src hops slot value tag midx useDt mask : Nat) :
    (s.sendDecision src hops slot value tag midx useDt mask).mem = s.mem ∧ (s.sendDecision src hops slot value tag midx useDt mask).pending = s.pending := by
  simp [State.sendDecision]

@[simp] theorem State.exportSlot_keeps (s : State) (n value tag midx wend : Nat) :
    (s.exportSlot n value tag midx wend).mem = s.mem ∧ (s.exportSlot n value tag midx wend).pending = s.pending := by
  simp [State.exportSlot]

@[simp] theorem State.sendBulk_keeps (s : State) (kind src d hops : Nat) (pl : List Block) :
    (s.sendBulk kind src d hops pl).mem = s.mem ∧ (s.sendBulk kind src d hops pl).pending = s.pending := by
  constructor <;> unfold State.sendBulk <;>
    repeat' (first | simp | (refine foldl_mem _ (fun _ _ => ?_) _ _) | (refine foldl_pending _ (fun _ _ => ?_) _ _) | split)

/-! ### Port -/

@[simp] theorem State.setTileView_keeps (s : State) (n : Nat) (v : Word) :
    (s.setTileView n v).mem = s.mem ∧ (s.setTileView n v).pending = s.pending := by
  simp [State.setTileView]

@[simp] theorem State.seen_keeps (s : State) (k : Nat) :
    (s.seen k).mem = s.mem ∧ (s.seen k).pending = s.pending := by
  unfold State.seen
  dsimp only
  simp

/-! ### Book -/

@[simp] theorem State.setCb_keeps (s : State) (i v : Nat) :
    (s.setCb i v).mem = s.mem ∧ (s.setCb i v).pending = s.pending := by
  simp [State.setCb]

@[simp] theorem State.cbAdd_keeps (s : State) (i n : Nat) :
    (s.cbAdd i n).mem = s.mem ∧ (s.cbAdd i n).pending = s.pending := by
  simp [State.cbAdd]

@[simp] theorem State.mramWrite_keeps (s : State) (page : Nat) :
    (s.mramWrite page).mem = s.mem ∧ (s.mramWrite page).pending = s.pending := by
  simp [State.mramWrite]

@[simp] theorem State.setRegs_keeps (s : State) (a : Nat) (x2 : List Word) :
    (s.setRegs a x2).mem = s.mem ∧ (s.setRegs a x2).pending = s.pending := by
  induction x2 generalizing s a <;> simp [State.setRegs, *]

@[simp] theorem State.logAt_keeps (s : State) (sec code tile : Nat) (data : List Byte) :
    (s.logAt sec code tile data).mem = s.mem ∧ (s.logAt sec code tile data).pending = s.pending := by
  unfold State.logAt
  dsimp only
  (repeat' split) <;> simp

@[simp] theorem State.log_keeps (s : State) (code tile : Nat) (data : List Byte) :
    (s.log code tile data).mem = s.mem ∧ (s.log code tile data).pending = s.pending := by
  simp [State.log]

@[simp] theorem State.cbSave_keeps (s : State) :
    (s.cbSave).mem = s.mem ∧ (s.cbSave).pending = s.pending := by
  simp [State.cbSave]

@[simp] theorem State.cbRestore_keeps (s : State) :
    (s.cbRestore).mem = s.mem ∧ (s.cbRestore).pending = s.pending := by
  unfold State.cbRestore
  dsimp only
  repeat' split
  all_goals simp

@[simp] theorem State.writeCbCtl_keeps (s : State) (src : Req) (w : Word) :
    (s.writeCbCtl src w).1.mem = s.mem ∧ (s.writeCbCtl src w).1.pending = s.pending := by
  simp [State.writeCbCtl]

@[simp] theorem State.writeRtcCtl_keeps (s : State) (src : Req) (w : Word) :
    (s.writeRtcCtl src w).1.mem = s.mem ∧ (s.writeRtcCtl src w).1.pending = s.pending := by
  simp [State.writeRtcCtl]

@[simp] theorem State.rtcInvalid_keeps (s : State) (old : Nat) :
    (s.rtcInvalid old).mem = s.mem ∧ (s.rtcInvalid old).pending = s.pending := by
  unfold State.rtcInvalid
  dsimp only
  simp

/-! ### Keys -/

@[simp] theorem State.aliasIssue_keeps (s : State) :
    (s.aliasIssue).mem = s.mem ∧ (s.aliasIssue).pending = s.pending := by
  unfold State.aliasIssue
  dsimp only
  (repeat' split) <;> simp

/-! ### Cellar -/

@[simp] theorem State.celChk_keeps (s : State) (t kind cause index : Nat) :
    (s.celChk t kind cause index).mem = s.mem ∧ (s.celChk t kind cause index).pending = s.pending := by
  simp [State.celChk]

@[simp] theorem State.segCheck_keeps (s : State) (t n : Nat) :
    (s.segCheck t n).mem = s.mem ∧ (s.segCheck t n).pending = s.pending := by
  simp [State.segCheck]

@[simp] theorem State.writeSeg_keeps (s : State) (src : Req) (t n : Nat) (hi : Bool) (w : Word) :
    (s.writeSeg src t n hi w).1.mem = s.mem ∧ (s.writeSeg src t n hi w).1.pending = s.pending := by
  simp [State.writeSeg]

@[simp] theorem State.dropSegs_keeps (s : State) (t i : Nat) :
    (s.dropSegs t i).mem = s.mem ∧ (s.dropSegs t i).pending = s.pending := by
  simp [State.dropSegs]

@[simp] theorem State.writeCp_keeps (s : State) (src : Req) (t i : Nat) (w : Word) :
    (s.writeCp src t i w).1.mem = s.mem ∧ (s.writeCp src t i w).1.pending = s.pending := by
  simp [State.writeCp]

@[simp] theorem State.setDec_keeps (s : State) (t d : Nat) (x : DdX) :
    (s.setDec t d x).mem = s.mem ∧ (s.setDec t d x).pending = s.pending := by
  simp [State.setDec]

@[simp] theorem State.setDd_keeps (s : State) (t d code : Nat) :
    (s.setDd t d code).mem = s.mem ∧ (s.setDd t d code).pending = s.pending := by
  simp [State.setDd]

@[simp] theorem State.ddError_keeps (s : State) (t d cause : Nat) :
    (s.ddError t d cause).mem = s.mem ∧ (s.ddError t d cause).pending = s.pending := by
  simp [State.ddError]

@[simp] theorem State.askChunks_keeps (s : State) (t d : Nat) (ks : List Nat) :
    (s.askChunks t d ks).mem = s.mem ∧ (s.askChunks t d ks).pending = s.pending := by
  simp [State.askChunks]

@[simp] theorem State.prime_keeps (s : State) (t d : Nat) :
    (s.prime t d).mem = s.mem ∧ (s.prime t d).pending = s.pending := by
  simp [State.prime]

@[simp] theorem State.reprimeAfter_keeps (s : State) (t d : Nat) :
    (s.reprimeAfter t d).mem = s.mem ∧ (s.reprimeAfter t d).pending = s.pending := by
  simp [State.reprimeAfter]

@[simp] theorem State.primeTile_keeps (s : State) (t : Nat) :
    (s.primeTile t).mem = s.mem ∧ (s.primeTile t).pending = s.pending := by
  simp [State.primeTile]

@[simp] theorem State.writeDdCtl_keeps (s : State) (src : Req) (t d : Nat) (w : Word) :
    (s.writeDdCtl src t d w).1.mem = s.mem ∧ (s.writeDdCtl src t d w).1.pending = s.pending := by
  simp [State.writeDdCtl]

@[simp] theorem State.writeDdDesc_keeps (s : State) (src : Req) (t d which : Nat) (w : Word) :
    (s.writeDdDesc src t d which w).1.mem = s.mem ∧ (s.writeDdDesc src t d which w).1.pending = s.pending := by
  simp [State.writeDdDesc]

/-! ### Trellis -/

@[simp] theorem State.staleDec_keeps (s : State) :
    (s.staleDec).mem = s.mem ∧ (s.staleDec).pending = s.pending := by
  simp [State.staleDec]

@[simp] theorem State.collide_keeps (s : State) :
    (s.collide).mem = s.mem ∧ (s.collide).pending = s.pending := by
  simp [State.collide]

@[simp] theorem State.release_mem (s : State) (n : Nat) (d : Dec) (put : State → Word → State)
    (h : ∀ w, (put s w).mem = s.mem) : (s.release n d put).mem = s.mem := by
  unfold State.release; split <;> simp [h]
@[simp] theorem State.release_pending (s : State) (n : Nat) (d : Dec) (put : State → Word → State)
    (h : ∀ w, (put s w).pending = s.pending) : (s.release n d put).pending = s.pending := by
  unfold State.release; split <;> simp [h]

@[simp] theorem State.releaseTile_keeps (s : State) (n : Nat) :
    (s.releaseTile n).mem = s.mem ∧ (s.releaseTile n).pending = s.pending := by
  unfold State.releaseTile
  dsimp only
  split <;> simp

@[simp] theorem State.releaseDevice_keeps (s : State) (n : Nat) :
    (s.releaseDevice n).mem = s.mem ∧ (s.releaseDevice n).pending = s.pending := by
  unfold State.releaseDevice
  dsimp only
  split <;> simp

@[simp] theorem State.parLatch_keeps (s : State) (n value tag midx wend : Nat) (u : Nat) :
    (s.parLatch n value tag midx wend u).mem = s.mem ∧ (s.parLatch n value tag midx wend u).pending = s.pending := by
  simp [State.parLatch]

@[simp] theorem State.parLatches_keeps (s : State) (n value tag midx wend : Nat) :
    (s.parLatches n value tag midx wend).mem = s.mem ∧ (s.parLatches n value tag midx wend).pending = s.pending := by
  simp [State.parLatches]

@[simp] theorem State.parFire_keeps (s : State) (u : Nat) :
    (s.parFire u).mem = s.mem ∧ (s.parFire u).pending = s.pending := by
  simp [State.parFire]

@[simp] theorem State.trlChk_keeps (s : State) (kind cause index : Nat) :
    (s.trlChk kind cause index).mem = s.mem ∧ (s.trlChk kind cause index).pending = s.pending := by
  simp [State.trlChk]

@[simp] theorem State.parCheck_keeps (s : State) (u : Nat) :
    (s.parCheck u).mem = s.mem ∧ (s.parCheck u).pending = s.pending := by
  simp [State.parCheck]

@[simp] theorem State.writePu_keeps (s : State) (src : Req) (u which : Nat) (w : Word) :
    (s.writePu src u which w).1.mem = s.mem ∧ (s.writePu src u which w).1.pending = s.pending := by
  simp [State.writePu]

@[simp] theorem State.keyCheck_keeps (s : State) (t ks i : Nat) :
    (s.keyCheck t ks i).mem = s.mem ∧ (s.keyCheck t ks i).pending = s.pending := by
  simp [State.keyCheck]

@[simp] theorem State.writeKb_keeps (s : State) (src : Req) (t ks i : Nat) (w : Word) :
    (s.writeKb src t ks i w).1.mem = s.mem ∧ (s.writeKb src t ks i w).1.pending = s.pending := by
  simp [State.writeKb]

@[simp] theorem State.writeRm_keeps (s : State) (src : Req) (r : Nat) (w : Word) :
    (s.writeRm src r w).1.mem = s.mem ∧ (s.writeRm src r w).1.pending = s.pending := by
  simp [State.writeRm]

@[simp] theorem State.writeExp_keeps (s : State) (src : Req) (n : Nat) (w : Word) :
    (s.writeExp src n w).1.mem = s.mem ∧ (s.writeExp src n w).1.pending = s.pending := by
  simp [State.writeExp]

@[simp] theorem State.remoteArrive_keeps (s : State) (dev slot value tag midx use : Nat) :
    (s.remoteArrive dev slot value tag midx use).mem = s.mem ∧ (s.remoteArrive dev slot value tag midx use).pending = s.pending := by
  unfold State.remoteArrive
  split <;> simp

@[simp] theorem State.releaseRemote_keeps (s : State) (r : Nat) :
    (s.releaseRemote r).mem = s.mem ∧ (s.releaseRemote r).pending = s.pending := by
  unfold State.releaseRemote
  dsimp only
  split <;> simp

@[simp] theorem State.clearSlot_keeps (s : State) (n : Nat) :
    (s.clearSlot n).mem = s.mem ∧ (s.clearSlot n).pending = s.pending := by
  simp [State.clearSlot]

@[simp] theorem State.clearSlots_keeps (s : State) (p : Nat) :
    (s.clearSlots p).mem = s.mem ∧ (s.clearSlots p).pending = s.pending := by
  unfold State.clearSlots
  exact ⟨foldl_mem _ (fun s n => by (repeat' split) <;> simp) _ _,
    foldl_pending _ (fun s n => by (repeat' split) <;> simp) _ _⟩

@[simp] theorem State.releaseSlots_keeps (s : State) (p : Nat) :
    (s.releaseSlots p).mem = s.mem ∧ (s.releaseSlots p).pending = s.pending := by
  simp [State.releaseSlots]

/-! ### Playout -/

@[simp] theorem State.noteMargin_keeps (s : State) (t q : Nat) (m : Int) :
    (s.noteMargin t q m).mem = s.mem ∧ (s.noteMargin t q m).pending = s.pending := by
  simp [State.noteMargin]

@[simp] theorem State.lateAction_keeps (s : State) (t q p sid stamp : Nat) :
    (s.lateAction t q p sid stamp).mem = s.mem ∧ (s.lateAction t q p sid stamp).pending = s.pending := by
  simp [State.lateAction]

@[simp] theorem State.enqueue_keeps (s : State) (t q : Nat) (e : Entry) :
    (s.enqueue t q e).mem = s.mem ∧ (s.enqueue t q e).pending = s.pending := by
  simp [State.enqueue]

@[simp] theorem State.arrive_keeps (s : State) (t q p start : Nat) (f : Flight) :
    (s.arrive t q p start f).mem = s.mem ∧ (s.arrive t q p start f).pending = s.pending := by
  unfold State.arrive
  split <;> simp

@[simp] theorem State.stallTick_keeps (s : State) :
    (s.stallTick).mem = s.mem ∧ (s.stallTick).pending = s.pending := by
  simp [State.stallTick]

@[simp] theorem State.pop_keeps (s : State) (t q : Nat) :
    (s.pop t q).mem = s.mem ∧ (s.pop t q).pending = s.pending := by
  unfold State.pop
  dsimp only
  (repeat' split) <;> simp

@[simp] theorem State.badSeg_keeps (s : State) (t n : Nat) :
    (s.badSeg t n).mem = s.mem ∧ (s.badSeg t n).pending = s.pending := by
  simp [State.badSeg]

@[simp] theorem State.stopPlay_keeps (s : State) (t n : Nat) :
    (s.stopPlay t n).mem = s.mem ∧ (s.stopPlay t n).pending = s.pending := by
  unfold State.stopPlay
  split <;> simp

@[simp] theorem State.playbacksEnd_keeps (s : State) (t n : Nat) (c : Playing → Bool) :
    (s.playbacksEnd t n c).mem = s.mem ∧ (s.playbacksEnd t n c).pending = s.pending := by
  unfold State.playbacksEnd
  exact ⟨foldl_mem _ (fun s n => by (repeat' split) <;> simp) _ _,
    foldl_pending _ (fun s n => by (repeat' split) <;> simp) _ _⟩

@[simp] theorem State.underrunAbort_keeps (s : State) (t : Nat) :
    (s.underrunAbort t).mem = s.mem ∧ (s.underrunAbort t).pending = s.pending := by
  unfold State.underrunAbort
  dsimp only
  (repeat' split) <;> simp

@[simp] theorem State.underrun_keeps (s : State) (t n d : Nat) :
    (s.underrun t n d).mem = s.mem ∧ (s.underrun t n d).pending = s.pending := by
  simp [State.underrun]

@[simp] theorem State.startSeg_keeps (s : State) (t n c : Nat) (a : PlayArg) :
    (s.startSeg t n c a).mem = s.mem ∧ (s.startSeg t n c a).pending = s.pending := by
  simp [State.startSeg]

@[simp] theorem State.play_keeps (s : State) (t q n c : Nat) (a : PlayArg) :
    (s.play t q n c a).mem = s.mem ∧ (s.play t q n c a).pending = s.pending := by
  simp [State.play]

@[simp] theorem State.requestJump_keeps (s : State) (t n c : Nat) (a : PlayArg) :
    (s.requestJump t n c a).mem = s.mem ∧ (s.requestJump t n c a).pending = s.pending := by
  simp [State.requestJump]

@[simp] theorem State.playOn_keeps (s : State) (t q c : Nat) (a : PlayArg) :
    (s.playOn t q c a).mem = s.mem ∧ (s.playOn t q c a).pending = s.pending := by
  unfold State.playOn
  split <;> simp

@[simp] theorem State.idleChan_keeps (s : State) (t n : Nat) :
    (s.idleChan t n).mem = s.mem ∧ (s.idleChan t n).pending = s.pending := by
  simp [State.idleChan]

@[simp] theorem State.clearGrid_keeps (s : State) (t : Nat) :
    (s.clearGrid t).mem = s.mem ∧ (s.clearGrid t).pending = s.pending := by
  simp [State.clearGrid]

@[simp] theorem State.resolve_keeps (s : State) (t q p : Nat) (e : Entry) (alts : List (Option PlayArg)) (k fb ks midx : Nat) :
    (s.resolve t q p e alts k fb ks midx).mem = s.mem ∧ (s.resolve t q p e alts k fb ks midx).pending = s.pending := by
  unfold State.resolve
  dsimp only
  repeat' split
  all_goals simp

@[simp] theorem State.setMark_keeps (s : State) (t m : Nat) (x : Mark) :
    (s.setMark t m x).mem = s.mem ∧ (s.setMark t m x).pending = s.pending := by
  simp [State.setMark]

@[simp] theorem State.clearMarks_keeps (s : State) (t : Nat) :
    (s.clearMarks t).mem = s.mem ∧ (s.clearMarks t).pending = s.pending := by
  simp [State.clearMarks]

@[simp] theorem State.markOne_keeps (s : State) (t m : Nat) (level : Bool) (bit : Nat) (v : Nat) :
    (s.markOne t m level bit v).mem = s.mem ∧ (s.markOne t m level bit v).pending = s.pending := by
  simp [State.markOne]

@[simp] theorem State.markAll_keeps (s : State) (t off : Nat) (level : Bool) (mask v : Nat) :
    (s.markAll t off level mask v).mem = s.mem ∧ (s.markAll t off level mask v).pending = s.pending := by
  simp [State.markAll]

@[simp] theorem State.writeMarkCfg_keeps (s : State) (src : Req) (t m : Nat) (vl : Bool) (w : Word) :
    (s.writeMarkCfg src t m vl w).1.mem = s.mem ∧ (s.writeMarkCfg src t m vl w).1.pending = s.pending := by
  simp [State.writeMarkCfg]

@[simp] theorem State.setFreqWord_keeps (s : State) (t n k : Nat) (v : BitVec 48) :
    (s.setFreqWord t n k v).mem = s.mem ∧ (s.setFreqWord t n k v).pending = s.pending := by
  simp [State.setFreqWord]

@[simp] theorem State.logSlot_keeps (s : State) (t n k : Nat) :
    (s.logSlot t n k).mem = s.mem ∧ (s.logSlot t n k).pending = s.pending := by
  unfold State.logSlot
  dsimp only
  (repeat' split) <;> simp

@[simp] theorem State.reloadSlot_keeps (s : State) (t n k : Nat) :
    (s.reloadSlot t n k).mem = s.mem ∧ (s.reloadSlot t n k).pending = s.pending := by
  simp [State.reloadSlot]

@[simp] theorem State.reloadTile_keeps (s : State) (t : Nat) :
    (s.reloadTile t).mem = s.mem ∧ (s.reloadTile t).pending = s.pending := by
  simp [State.reloadTile]

@[simp] theorem State.writeFrame_keeps (s : State) (src : Req) (t n k which : Nat) (w : Word) :
    (s.writeFrame src t n k which w).1.mem = s.mem ∧ (s.writeFrame src t n k which w).1.pending = s.pending := by
  simp [State.writeFrame]

/-! ### Bias -/

@[simp] theorem State.setBias_keeps (s : State) (q j : Nat) (x : BiasX) :
    (s.setBias q j x).mem = s.mem ∧ (s.setBias q j x).pending = s.pending := by
  simp [State.setBias]

@[simp] theorem State.modBias_keeps (s : State) (q j : Nat) (f : BiasX → BiasX) :
    (s.modBias q j f).mem = s.mem ∧ (s.modBias q j f).pending = s.pending := by
  simp [State.modBias]

@[simp] theorem State.setTarget_keeps (s : State) (q j c : Nat) :
    (s.setTarget q j c).mem = s.mem ∧ (s.setTarget q j c).pending = s.pending := by
  simp [State.setTarget]

@[simp] theorem State.setCode_keeps (s : State) (q j c : Nat) :
    (s.setCode q j c).mem = s.mem ∧ (s.setCode q j c).pending = s.pending := by
  simp [State.setCode]

@[simp] theorem State.flagIssuer_keeps (s : State) (sh : Option (Nat × Nat)) (fl : BitVec 16) :
    (s.flagIssuer sh fl).mem = s.mem ∧ (s.flagIssuer sh fl).pending = s.pending := by
  unfold State.flagIssuer
  split <;> simp

@[simp] theorem State.biasLost_keeps (s : State) (t b : Nat) (sh : Option (Nat × Nat)) :
    (s.biasLost t b sh).mem = s.mem ∧ (s.biasLost t b sh).pending = s.pending := by
  simp [State.biasLost]

@[simp] theorem State.biasSettled_keeps (s : State) (sh : Option (Nat × Nat)) :
    (s.biasSettled sh).mem = s.mem ∧ (s.biasSettled sh).pending = s.pending := by
  unfold State.biasSettled
  split <;> simp

@[simp] theorem State.biasLate_keeps (s : State) (t b : Nat) (sh : Option (Nat × Nat)) :
    (s.biasLate t b sh).mem = s.mem ∧ (s.biasLate t b sh).pending = s.pending := by
  unfold State.biasLate
  split <;> simp

@[simp] theorem State.genStop_keeps (s : State) (q j : Nat) :
    (s.genStop q j).mem = s.mem ∧ (s.genStop q j).pending = s.pending := by
  simp [State.genStop]

@[simp] theorem State.genCtl_keeps (s : State) (q j : Nat) (w : Word) :
    (s.genCtl q j w).mem = s.mem ∧ (s.genCtl q j w).pending = s.pending := by
  simp [State.genCtl]

@[simp] theorem State.stageBd_keeps (s : State) (q j off : Nat) (w : Word) :
    (s.stageBd q j off w).mem = s.mem ∧ (s.stageBd q j off w).pending = s.pending := by
  simp [State.stageBd]

@[simp] theorem State.holdWrite_keeps (s : State) (q : Nat) (h : HeldWrite) :
    (s.holdWrite q h).mem = s.mem ∧ (s.holdWrite q h).pending = s.pending := by
  simp [State.holdWrite]

@[simp] theorem State.writeBd_keeps (s : State) (src : Req) (q j off : Nat) (w : Word) :
    (s.writeBd src q j off w).1.mem = s.mem ∧ (s.writeBd src q j off w).1.pending = s.pending := by
  unfold State.writeBd
  dsimp only
  repeat' split
  all_goals simp

@[simp] theorem State.writeBqd_keeps (s : State) (src : Req) (r : RegSpec) (q a : Nat) (w : Word) :
    (s.writeBqd src r q a w).1.mem = s.mem ∧ (s.writeBqd src r q a w).1.pending = s.pending := by
  unfold State.writeBqd
  split <;> simp

@[simp] theorem State.compClear_keeps (s : State) (q j : Nat) :
    (s.compClear q j).mem = s.mem ∧ (s.compClear q j).pending = s.pending := by
  simp [State.compClear]

@[simp] theorem State.applyBd_keeps (s : State) (q j off : Nat) (w : Word) :
    (s.applyBd q j off w).mem = s.mem ∧ (s.applyBd q j off w).pending = s.pending := by
  simp [State.applyBd]

@[simp] theorem State.applyWrites_keeps (s : State) (q j : Nat) :
    (s.applyWrites q j).mem = s.mem ∧ (s.applyWrites q j).pending = s.pending := by
  simp [State.applyWrites]

@[simp] theorem State.toClear_keeps (s : State) (q j kind : Nat) :
    (s.toClear q j kind).mem = s.mem ∧ (s.toClear q j kind).pending = s.pending := by
  simp [State.toClear]

@[simp] theorem State.applyEntry_keeps (s : State) (q j code : Nat) :
    (s.applyEntry q j code).mem = s.mem ∧ (s.applyEntry q j code).pending = s.pending := by
  simp [State.applyEntry]

@[simp] theorem State.loseAll_keeps (s : State) (t b : Nat) (x3 : List BiasWait) :
    (s.loseAll t b x3).mem = s.mem ∧ (s.loseAll t b x3).pending = s.pending := by
  induction x3 generalizing s t b <;> simp [State.loseAll, *]

@[simp] theorem State.takeDue_keeps (s : State) (q j u : Nat) :
    (s.takeDue q j u).mem = s.mem ∧ (s.takeDue q j u).pending = s.pending := by
  unfold State.takeDue
  dsimp only
  repeat' split
  all_goals simp

@[simp] theorem State.holdDue_keeps (s : State) (q j u : Nat) :
    (s.holdDue q j u).mem = s.mem ∧ (s.holdDue q j u).pending = s.pending := by
  simp [State.holdDue]

@[simp] theorem State.applyNow_keeps (s : State) (q j u : Nat) (e : BiasWait) :
    (s.applyNow q j u e).mem = s.mem ∧ (s.applyNow q j u e).pending = s.pending := by
  simp [State.applyNow]

@[simp] theorem State.placeEntry_keeps (s : State) (q j u : Nat) (e : BiasEntry) :
    (s.placeEntry q j u e).mem = s.mem ∧ (s.placeEntry q j u e).pending = s.pending := by
  simp [State.placeEntry]

@[simp] theorem State.haltBias_keeps (s : State) (q j n : Nat) (sh : Option (Nat × Nat)) :
    (s.haltBias q j n sh).mem = s.mem ∧ (s.haltBias q j n sh).pending = s.pending := by
  simp [State.haltBias]

@[simp] theorem State.judgeEntry_keeps (s : State) (q j : Nat) (e : BiasEntry) :
    (s.judgeEntry q j e).mem = s.mem ∧ (s.judgeEntry q j e).pending = s.pending := by
  unfold State.judgeEntry
  dsimp only
  (repeat' split) <;> simp

@[simp] theorem State.handOver_keeps (s : State) (q j : Nat) (e : BiasEntry) :
    (s.handOver q j e).mem = s.mem ∧ (s.handOver q j e).pending = s.pending := by
  unfold State.handOver
  simp

@[simp] theorem State.handHost_keeps (s : State) (t b code : Nat) :
    (s.handHost t b code).mem = s.mem ∧ (s.handHost t b code).pending = s.pending := by
  simp [State.handHost]

@[simp] theorem State.writeBqHost_keeps (s : State) (src : Req) (t b : Nat) (w : Word) :
    (s.writeBqHost src t b w).1.mem = s.mem ∧ (s.writeBqHost src t b w).1.pending = s.pending := by
  simp [State.writeBqHost]

@[simp] theorem State.parkEnd_keeps (s : State) (q j : Nat) :
    (s.parkEnd q j).mem = s.mem ∧ (s.parkEnd q j).pending = s.pending := by
  simp [State.parkEnd]

@[simp] theorem State.parkUp_keeps (s : State) (q j u : Nat) :
    (s.parkUp q j u).mem = s.mem ∧ (s.parkUp q j u).pending = s.pending := by
  simp [State.parkUp]

@[simp] theorem State.parkStep_keeps (s : State) (q j u : Nat) :
    (s.parkStep q j u).mem = s.mem ∧ (s.parkStep q j u).pending = s.pending := by
  unfold State.parkStep
  dsimp only
  repeat' split
  all_goals simp

@[simp] theorem State.parkTarget_keeps (s : State) (q j : Nat) :
    (s.parkTarget q j).mem = s.mem ∧ (s.parkTarget q j).pending = s.pending := by
  simp [State.parkTarget]

@[simp] theorem State.monitor_keeps (s : State) (q j : Nat) (mon : BitVec 16) :
    (s.monitor q j mon).mem = s.mem ∧ (s.monitor q j mon).pending = s.pending := by
  simp [State.monitor]

@[simp] theorem State.genStep_keeps (s : State) (q j u : Nat) :
    (s.genStep q j u).mem = s.mem ∧ (s.genStep q j u).pending = s.pending := by
  simp [State.genStep]

@[simp] theorem State.parkStart_keeps (s : State) (q j : Nat) :
    (s.parkStart q j).mem = s.mem ∧ (s.parkStart q j).pending = s.pending := by
  simp [State.parkStart]

@[simp] theorem State.stepFree_keeps (s : State) (q j u : Nat) :
    (s.stepFree q j u).mem = s.mem ∧ (s.stepFree q j u).pending = s.pending := by
  simp [State.stepFree]

@[simp] theorem State.updateInstant_keeps (s : State) (q j u : Nat) (mon : BitVec 16) :
    (s.updateInstant q j u mon).mem = s.mem ∧ (s.updateInstant q j u mon).pending = s.pending := by
  simp [State.updateInstant]

@[simp] theorem State.eachBias_mem (s : State) (q : Nat) (f : State → Nat → State)
    (h : ∀ s j, (f s j).mem = s.mem) : (s.eachBias q f).mem = s.mem := foldl_mem f h _ s
@[simp] theorem State.eachBias_pending (s : State) (q : Nat) (f : State → Nat → State)
    (h : ∀ s j, (f s j).pending = s.pending) : (s.eachBias q f).pending = s.pending := foldl_pending f h _ s

@[simp] theorem State.clrSample_keeps (s : State) (q : Nat) (low : Bool) :
    (s.clrSample q low).mem = s.mem ∧ (s.clrSample q low).pending = s.pending := by
  simp [State.clrSample]

@[simp] theorem State.clrAssert_keeps (s : State) (q : Nat) :
    (s.clrAssert q).mem = s.mem ∧ (s.clrAssert q).pending = s.pending := by
  simp [State.clrAssert]

@[simp] theorem State.loseFlight_keeps (s : State) (t b : Nat) (x3 : List BiasEntry) :
    (s.loseFlight t b x3).mem = s.mem ∧ (s.loseFlight t b x3).pending = s.pending := by
  induction x3 generalizing s t b <;> simp [State.loseFlight, *]

@[simp] theorem State.biasChLost_keeps (s : State) (q j : Nat) :
    (s.biasChLost q j).mem = s.mem ∧ (s.biasChLost q j).pending = s.pending := by
  simp [State.biasChLost]

@[simp] theorem State.biasLinkLost_keeps (s : State) (q : Nat) :
    (s.biasLinkLost q).mem = s.mem ∧ (s.biasLinkLost q).pending = s.pending := by
  simp [State.biasLinkLost]

@[simp] theorem State.merge_keeps (s : State) (r : RegSpec) (a : Nat) (w : Word) :
    (s.merge r a w).mem = s.mem ∧ (s.merge r a w).pending = s.pending := by
  simp [State.merge]

@[simp] theorem State.deliver_keeps (s : State) (q : Nat) (x2 : HeldWrite) :
    (s.deliver q x2).mem = s.mem ∧ (s.deliver q x2).pending = s.pending := by
  constructor <;> unfold State.deliver <;>
    repeat' (first | simp | (refine foldl_mem _ (fun _ _ => ?_) _ _) | (refine foldl_pending _ (fun _ _ => ?_) _ _) | split)

@[simp] theorem State.biasLinkUp_keeps (s : State) (q : Nat) :
    (s.biasLinkUp q).mem = s.mem ∧ (s.biasLinkUp q).pending = s.pending := by
  simp [State.biasLinkUp]

@[simp] theorem State.carryBias_keeps (s : State) :
    (s.carryBias).mem = s.mem ∧ (s.carryBias).pending = s.pending := by
  simp [State.carryBias]

@[simp] theorem State.setDT_keeps (s : State) (v : BitVec 64) :
    (s.setDT v).mem = s.mem ∧ (s.setDT v).pending = s.pending := by
  simp [State.setDT]

@[simp] theorem State.configBias_keeps (s : State) (q j : Nat) :
    (s.configBias q j).mem = s.mem ∧ (s.configBias q j).pending = s.pending := by
  simp [State.configBias]

@[simp] theorem State.biasOff_keeps (s : State) (q : Nat) :
    (s.biasOff q).mem = s.mem ∧ (s.biasOff q).pending = s.pending := by
  simp [State.biasOff]

/-! ### Net -/

@[simp] theorem State.freshEpoch_keeps (s : State) :
    (s.freshEpoch).mem = s.mem ∧ (s.freshEpoch).pending = s.pending := by
  simp [State.freshEpoch]

@[simp] theorem State.ptpTick_keeps (s : State) :
    (s.ptpTick).mem = s.mem ∧ (s.ptpTick).pending = s.pending := by
  simp [State.ptpTick]

@[simp] theorem State.writePtpRate_keeps (s : State) (src : Req) (w : Word) :
    (s.writePtpRate src w).1.mem = s.mem ∧ (s.writePtpRate src w).1.pending = s.pending := by
  simp [State.writePtpRate]

@[simp] theorem State.writePtpOffset_keeps (s : State) (src : Req) (w : Word) :
    (s.writePtpOffset src w).1.mem = s.mem ∧ (s.writePtpOffset src w).1.pending = s.pending := by
  simp [State.writePtpOffset]

@[simp] theorem State.correct_keeps (s : State) (c : Int) :
    (s.correct c).mem = s.mem ∧ (s.correct c).pending = s.pending := by
  simp [State.correct]

@[simp] theorem State.writePtpCtl_keeps (s : State) (src : Req) (w : Word) :
    (s.writePtpCtl src w).1.mem = s.mem ∧ (s.writePtpCtl src w).1.pending = s.pending := by
  simp [State.writePtpCtl]

@[simp] theorem State.writePtpEpoch_keeps (s : State) (src : Req) (w : Word) :
    (s.writePtpEpoch src w).1.mem = s.mem ∧ (s.writePtpEpoch src w).1.pending = s.pending := by
  simp [State.writePtpEpoch]

@[simp] theorem State.writePtpReg_keeps (s : State) (src : Req) (r : RegSpec) (a : Nat) (w : Word) :
    (s.writePtpReg src r a w).1.mem = s.mem ∧ (s.writePtpReg src r a w).1.pending = s.pending := by
  simp [State.writePtpReg]

@[simp] theorem State.xtsLatch_keeps (s : State) :
    (s.xtsLatch).mem = s.mem ∧ (s.xtsLatch).pending = s.pending := by
  simp [State.xtsLatch]

@[simp] theorem State.writeXtsCtl_keeps (s : State) (src : Req) (w : Word) :
    (s.writeXtsCtl src w).1.mem = s.mem ∧ (s.writeXtsCtl src w).1.pending = s.pending := by
  simp [State.writeXtsCtl]

@[simp] theorem State.setEth_keeps (s : State) (e : Nat) (x : EthX) :
    (s.setEth e x).mem = s.mem ∧ (s.setEth e x).pending = s.pending := by
  simp [State.setEth]

@[simp] theorem State.tsOvf_keeps (s : State) (e n : Nat) :
    (s.tsOvf e n).mem = s.mem ∧ (s.tsOvf e n).pending = s.pending := by
  simp [State.tsOvf]

@[simp] theorem State.oneStep_keeps (s : State) (e : Nat) (m : PtpMsg) (seqId : BitVec 16) (port st : Nat) :
    (s.oneStep e m seqId port st).mem = s.mem ∧ (s.oneStep e m seqId port st).pending = s.pending := by
  unfold State.oneStep
  (repeat' split) <;> simp

@[simp] theorem State.readStamp_keeps (s : State) (e : Nat) (tx : Bool) :
    (s.readStamp e tx).mem = s.mem ∧ (s.readStamp e tx).pending = s.pending := by
  unfold State.readStamp
  dsimp only
  repeat' split
  all_goals simp

@[simp] theorem State.setLq_keeps (s : State) (e : Nat) (l : List (Nat × Word)) :
    (s.setLq e l).mem = s.mem ∧ (s.setLq e l).pending = s.pending := by
  simp [State.setLq]

@[simp] theorem State.launchLate_keeps (s : State) (e : Nat) :
    (s.launchLate e).mem = s.mem ∧ (s.launchLate e).pending = s.pending := by
  simp [State.launchLate]

@[simp] theorem State.latePolicy_keeps (s : State) (e frame : Nat) (free : Bool) :
    (s.latePolicy e frame free).mem = s.mem ∧ (s.latePolicy e frame free).pending = s.pending := by
  unfold State.latePolicy
  dsimp only
  (repeat' split) <;> simp

@[simp] theorem State.launchFront_keeps (s : State) (e : Nat) (busy : Bool) :
    (s.launchFront e busy).mem = s.mem ∧ (s.launchFront e busy).pending = s.pending := by
  unfold State.launchFront
  dsimp only
  (repeat' split) <;> simp

@[simp] theorem State.writeLqCtl_keeps (s : State) (src : Req) (e : Nat) (w : Word) :
    (s.writeLqCtl src e w).1.mem = s.mem ∧ (s.writeLqCtl src e w).1.pending = s.pending := by
  simp [State.writeLqCtl]

@[simp] theorem State.setTm_keeps (s : State) (m : Nat) (x : TmX) :
    (s.setTm m x).mem = s.mem ∧ (s.setTm m x).pending = s.pending := by
  simp [State.setTm]

@[simp] theorem State.tmTake_keeps (s : State) (m : Nat) (x : Int) :
    (s.tmTake m x).mem = s.mem ∧ (s.tmTake m x).pending = s.pending := by
  simp [State.tmTake]

@[simp] theorem State.tmEdge_keeps (s : State) (m i st : Nat) :
    (s.tmEdge m i st).mem = s.mem ∧ (s.tmEdge m i st).pending = s.pending := by
  unfold State.tmEdge
  dsimp only
  repeat' split
  all_goals simp

@[simp] theorem State.tmStats_keeps (s : State) (m : Nat) :
    (s.tmStats m).mem = s.mem ∧ (s.tmStats m).pending = s.pending := by
  simp [State.tmStats]

@[simp] theorem State.tmFit_keeps (s : State) (m : Nat) :
    (s.tmFit m).mem = s.mem ∧ (s.tmFit m).pending = s.pending := by
  simp [State.tmFit]

@[simp] theorem State.tmEnd_keeps (s : State) (m result : Nat) :
    (s.tmEnd m result).mem = s.mem ∧ (s.tmEnd m result).pending = s.pending := by
  simp [State.tmEnd]

@[simp] theorem State.tmGo_keeps (s : State) (m gen : Nat) :
    (s.tmGo m gen).mem = s.mem ∧ (s.tmGo m gen).pending = s.pending := by
  simp [State.tmGo]

@[simp] theorem State.writeTmCtl_keeps (s : State) (src : Req) (m : Nat) (w : Word) :
    (s.writeTmCtl src m w).1.mem = s.mem ∧ (s.writeTmCtl src m w).1.pending = s.pending := by
  simp [State.writeTmCtl]

@[simp] theorem State.condEdge_keeps (s : State) (i : Nat) (ed : Edge) :
    (s.condEdge i ed).mem = s.mem ∧ (s.condEdge i ed).pending = s.pending := by
  simp [State.condEdge]

@[simp] theorem State.ballRate_keeps (s : State) (i : Nat) (level : Bool) :
    (s.ballRate i level).mem = s.mem ∧ (s.ballRate i level).pending = s.pending := by
  simp [State.ballRate]

@[simp] theorem State.tiuIn_keeps (s : State) (i : Nat) (ed : Edge) :
    (s.tiuIn i ed).mem = s.mem ∧ (s.tiuIn i ed).pending = s.pending := by
  unfold State.tiuIn
  dsimp only
  (repeat' split) <;> simp

@[simp] theorem State.tiuQuiet_keeps (s : State) (i : Nat) (level : Bool) :
    (s.tiuQuiet i level).mem = s.mem ∧ (s.tiuQuiet i level).pending = s.pending := by
  unfold State.tiuQuiet
  dsimp only
  simp

@[simp] theorem State.writeTiuCfg_keeps (s : State) (src : Req) (i : Nat) (w : Word) :
    (s.writeTiuCfg src i w).1.mem = s.mem ∧ (s.writeTiuCfg src i w).1.pending = s.pending := by
  simp [State.writeTiuCfg]

@[simp] theorem State.setExp_keeps (s : State) (p : Nat) (x : ExpX) :
    (s.setExp p x).mem = s.mem ∧ (s.setExp p x).pending = s.pending := by
  simp [State.setExp]

@[simp] theorem State.exportItem_keeps (s : State) (p : Nat) (bytes : List Byte) :
    (s.exportItem p bytes).mem = s.mem ∧ (s.exportItem p bytes).pending = s.pending := by
  simp [State.exportItem]

@[simp] theorem State.writeExpCfg_keeps (s : State) (src : Req) (p : Nat) (w : Word) :
    (s.writeExpCfg src p w).1.mem = s.mem ∧ (s.writeExpCfg src p w).1.pending = s.pending :=
  ⟨State.write_mem _ _ _ _ _ _ _ fun _ _ e => e ▸ rfl, State.write_pending _ _ _ _ _ _ _ fun _ _ e => e ▸ rfl⟩

/-! ### Kelair -/

@[simp] theorem State.setLanes_keeps (s : State) (k m : Nat) :
    (s.setLanes k m).mem = s.mem ∧ (s.setLanes k m).pending = s.pending := by
  simp [State.setLanes]

@[simp] theorem State.lanesOff_keeps (s : State) (k : Nat) :
    (s.lanesOff k).mem = s.mem ∧ (s.lanesOff k).pending = s.pending := by
  simp [State.lanesOff]

@[simp] theorem State.attempt_keeps (s : State) (k n : Nat) (retry : Bool) :
    (s.attempt k n retry).mem = s.mem ∧ (s.attempt k n retry).pending = s.pending := by
  simp [State.attempt]

@[simp] theorem State.downCause_keeps (s : State) (k c : Nat) :
    (s.downCause k c).mem = s.mem ∧ (s.downCause k c).pending = s.pending := by
  simp [State.downCause]

@[simp] theorem State.linkFails_keeps (s : State) (k c : Nat) :
    (s.linkFails k c).mem = s.mem ∧ (s.linkFails k c).pending = s.pending := by
  simp [State.linkFails]

@[simp] theorem State.linkDown_keeps (s : State) (k : Nat) :
    (s.linkDown k).mem = s.mem ∧ (s.linkDown k).pending = s.pending := by
  simp [State.linkDown]

@[simp] theorem State.attemptFails_keeps (s : State) (k c : Nat) :
    (s.attemptFails k c).mem = s.mem ∧ (s.attemptFails k c).pending = s.pending := by
  simp [State.attemptFails]

@[simp] theorem State.linkUp_keeps (s : State) (k m : Nat) :
    (s.linkUp k m).mem = s.mem ∧ (s.linkUp k m).pending = s.pending := by
  simp [State.linkUp]

@[simp] theorem State.lockLanes_keeps (s : State) (k m : Nat) (f : Fld) :
    (s.lockLanes k m f).mem = s.mem ∧ (s.lockLanes k m f).pending = s.pending := by
  simp [State.lockLanes]

@[simp] theorem State.lanesAdapt_keeps (s : State) (k m pol : Nat) :
    (s.lanesAdapt k m pol).mem = s.mem ∧ (s.lanesAdapt k m pol).pending = s.pending := by
  simp [State.lanesAdapt]

@[simp] theorem State.lanesLock_keeps (s : State) (k m : Nat) :
    (s.lanesLock k m).mem = s.mem ∧ (s.lanesLock k m).pending = s.pending := by
  simp [State.lanesLock]

@[simp] theorem State.laneRetrains_keeps (s : State) (k i : Nat) :
    (s.laneRetrains k i).mem = s.mem ∧ (s.laneRetrains k i).pending = s.pending := by
  simp [State.laneRetrains]

@[simp] theorem State.restRetrain_keeps (s : State) (k m : Nat) :
    (s.restRetrain k m).mem = s.mem ∧ (s.restRetrain k m).pending = s.pending := by
  simp [State.restRetrain]

@[simp] theorem State.configDone_keeps (s : State) (k good array dev plink map : Nat) :
    (s.configDone k good array dev plink map).mem = s.mem ∧ (s.configDone k good array dev plink map).pending = s.pending := by
  simp [State.configDone]

@[simp] theorem State.linkOff_keeps (s : State) (k code : Nat) :
    (s.linkOff k code).mem = s.mem ∧ (s.linkOff k code).pending = s.pending := by
  simp [State.linkOff]

@[simp] theorem State.klCtlEffect_keeps (s : State) (k : Nat) (w : Word) (s1 : State) :
    (s.klCtlEffect k w s1).mem = s1.mem ∧ (s.klCtlEffect k w s1).pending = s1.pending := by
  simp [State.klCtlEffect]

@[simp] theorem State.writeKlCtl_keeps (s : State) (src : Req) (k : Nat) (w : Word) :
    (s.writeKlCtl src k w).1.mem = s.mem ∧ (s.writeKlCtl src k w).1.pending = s.pending := by
  simp [State.writeKlCtl]

@[simp] theorem State.lanesLost_keeps (s : State) (k m n : Nat) (announce : Bool) :
    (s.lanesLost k m n announce).mem = s.mem ∧ (s.lanesLost k m n announce).pending = s.pending := by
  simp [State.lanesLost]

@[simp] theorem State.laneGone_keeps (s : State) (k i : Nat) :
    (s.laneGone k i).mem = s.mem ∧ (s.laneGone k i).pending = s.pending := by
  unfold State.laneGone
  dsimp only
  (repeat' split) <;> simp

@[simp] theorem State.hdrErrs_keeps (s : State) (k i n : Nat) :
    (s.hdrErrs k i n).mem = s.mem ∧ (s.hdrErrs k i n).pending = s.pending := by
  unfold State.hdrErrs
  dsimp only
  (repeat' split) <;> simp

@[simp] theorem State.writeKlFill_keeps (s : State) (src : Req) (k : Nat) (w : Word) :
    (s.writeKlFill src k w).1.mem = s.mem ∧ (s.writeKlFill src k w).1.pending = s.pending := by
  simp [State.writeKlFill]

@[simp] theorem State.modTest_keeps (s : State) (k i : Nat) (f : LaneTest → LaneTest) :
    (s.modTest k i f).mem = s.mem ∧ (s.modTest k i f).pending = s.pending := by
  simp [State.modTest]

@[simp] theorem State.testModes_keeps (s : State) (k i : Nat) (v eq : Word) :
    (s.testModes k i v eq).mem = s.mem ∧ (s.testModes k i v eq).pending = s.pending := by
  simp [State.testModes]

@[simp] theorem State.prbsSend_keeps (s : State) (k i : Nat) :
    (s.prbsSend k i).mem = s.mem ∧ (s.prbsSend k i).pending = s.pending := by
  simp [State.prbsSend]

@[simp] theorem State.prbsTake_keeps (s : State) (k i : Nat) :
    (s.prbsTake k i).mem = s.mem ∧ (s.prbsTake k i).pending = s.pending := by
  simp [State.prbsTake]

@[simp] theorem State.prbsTick_keeps (s : State) (k : Nat) :
    (s.prbsTick k).mem = s.mem ∧ (s.prbsTick k).pending = s.pending := by
  simp [State.prbsTick]

@[simp] theorem State.writeKlLn_keeps (s : State) (src : Req) (k i : Nat) (w : Word) :
    (s.writeKlLn src k i w).1.mem = s.mem ∧ (s.writeKlLn src k i w).1.pending = s.pending := by
  simp [State.writeKlLn]

@[simp] theorem State.badBlock_keeps (s : State) (k : Nat) (b : Block) :
    (s.badBlock k b).mem = s.mem ∧ (s.badBlock k b).pending = s.pending := by
  simp [State.badBlock]

@[simp] theorem State.rxBad_keeps (s : State) (k cnt : Nat) (h : Block) :
    (s.rxBad k cnt h).mem = s.mem ∧ (s.rxBad k cnt h).pending = s.pending := by
  simp [State.rxBad]

@[simp] theorem State.rxGood_keeps (s : State) (k st : Nat) (h : Block) :
    (s.rxGood k st h).1.mem = s.mem ∧ (s.rxGood k st h).1.pending = s.pending := by
  simp [State.rxGood]

@[simp] theorem State.receive_keeps (s : State) (k st cnt : Nat) (h : Block) (ok : Bool) :
    (s.receive k st cnt h ok).1.mem = s.mem ∧ (s.receive k st cnt h ok).1.pending = s.pending := by
  simp [State.receive]

@[simp] theorem State.klMargin_keeps (s : State) (k : Nat) (m : Int) :
    (s.klMargin k m).mem = s.mem ∧ (s.klMargin k m).pending = s.pending := by
  simp [State.klMargin]

@[simp] theorem State.takeDecision_keeps (s : State) (k : Nat) (b0 b1 : Block) :
    (s.takeDecision k b0 b1).mem = s.mem ∧ (s.takeDecision k b0 b1).pending = s.pending := by
  simp [State.takeDecision]

@[simp] theorem State.receiveBulk_keeps (s : State) (k kind : Nat) (h : Block) (payload : List Block) (tr : Block) :
    (s.receiveBulk k kind h payload tr).1.mem = s.mem ∧ (s.receiveBulk k kind h payload tr).1.pending = s.pending := by
  simp [State.receiveBulk]

@[simp] theorem State.controlIn_mem (s : State) (k kind : Nat) (b : Block) (f : State → State)
    (h : ∀ s, (f s).mem = s.mem) : (s.controlIn k kind b f).mem = s.mem := by
  unfold State.controlIn; split <;> simp [h]
@[simp] theorem State.controlIn_pending (s : State) (k kind : Nat) (b : Block) (f : State → State)
    (h : ∀ s, (f s).pending = s.pending) : (s.controlIn k kind b f).pending = s.pending := by
  unfold State.controlIn; split <;> simp [h]

@[simp] theorem State.enterIdle_keeps (s : State) (k : Nat) :
    (s.enterIdle k).mem = s.mem ∧ (s.enterIdle k).pending = s.pending := by
  simp [State.enterIdle]

@[simp] theorem State.idleAsk_keeps (s : State) (k : Nat) :
    (s.idleAsk k).mem = s.mem ∧ (s.idleAsk k).pending = s.pending := by
  simp [State.idleAsk]

@[simp] theorem State.ttSet_keeps (s : State) (f : Fld) :
    (s.ttSet f).mem = s.mem ∧ (s.ttSet f).pending = s.pending := by
  simp [State.ttSet]

@[simp] theorem State.writeTtCfg_keeps (s : State) (src : Req) (w : Word) :
    (s.writeTtCfg src w).1.mem = s.mem ∧ (s.writeTtCfg src w).1.pending = s.pending := by
  simp [State.writeTtCfg]

@[simp] theorem State.ttEdge_keeps (s : State) (i : Nat) (frac : Byte) :
    (s.ttEdge i frac).mem = s.mem ∧ (s.ttEdge i frac).pending = s.pending := by
  unfold State.ttEdge
  simp

@[simp] theorem State.ttEdgesTick_keeps (s : State) :
    (s.ttEdgesTick).mem = s.mem ∧ (s.ttEdgesTick).pending = s.pending := by
  unfold State.ttEdgesTick
  dsimp only
  simp

@[simp] theorem State.ttAlign_keeps (s : State) (th : Int) :
    (s.ttAlign th).mem = s.mem ∧ (s.ttAlign th).pending = s.pending := by
  simp [State.ttAlign]

@[simp] theorem State.ttStep_keeps (s : State) :
    (s.ttStep).mem = s.mem ∧ (s.ttStep).pending = s.pending := by
  simp [State.ttStep]

@[simp] theorem State.ttTrack_keeps (s : State) (x : Int) (n : Nat) :
    (s.ttTrack x n).mem = s.mem ∧ (s.ttTrack x n).pending = s.pending := by
  simp [State.ttTrack]

@[simp] theorem State.ttAverage_keeps (s : State) :
    (s.ttAverage).mem = s.mem ∧ (s.ttAverage).pending = s.pending := by
  simp [State.ttAverage]

@[simp] theorem State.ttResponse_keeps (s : State) (b0 b1 b2 : Block) (frac t1 : Nat) :
    (s.ttResponse b0 b1 b2 frac t1).mem = s.mem ∧ (s.ttResponse b0 b1 b2 frac t1).pending = s.pending := by
  simp [State.ttResponse]

@[simp] theorem State.klChk_keeps (s : State) (kind cause index : Nat) :
    (s.klChk kind cause index).mem = s.mem ∧ (s.klChk kind cause index).pending = s.pending := by
  simp [State.klChk]

@[simp] theorem State.writeRouteA_keeps (s : State) (src : Req) (i : Nat) (w : Word) :
    (s.writeRouteA src i w).1.mem = s.mem ∧ (s.writeRouteA src i w).1.pending = s.pending := by
  simp [State.writeRouteA]

@[simp] theorem State.writeRouteB_keeps (s : State) (src : Req) (i : Nat) (w : Word) :
    (s.writeRouteB src i w).1.mem = s.mem ∧ (s.writeRouteB src i w).1.pending = s.pending := by
  simp [State.writeRouteB]

@[simp] theorem State.writeKlId_keeps (s : State) (src : Req) (w : Word) :
    (s.writeKlId src w).1.mem = s.mem ∧ (s.writeKlId src w).1.pending = s.pending := by
  simp [State.writeKlId]

@[simp] theorem State.writeFwd_keeps (s : State) (src : Req) (d : Nat) (w : Word) :
    (s.writeFwd src d w).1.mem = s.mem ∧ (s.writeFwd src d w).1.pending = s.pending := by
  simp [State.writeFwd]

@[simp] theorem State.pairSet_keeps (s : State) (f : Fld) :
    (s.pairSet f).mem = s.mem ∧ (s.pairSet f).pending = s.pending := by
  simp [State.pairSet]

@[simp] theorem State.becomeActive_keeps (s : State) (b : Bool) :
    (s.becomeActive b).mem = s.mem ∧ (s.becomeActive b).pending = s.pending := by
  simp [State.becomeActive]

@[simp] theorem State.pairAsk_keeps (s : State) (b : Bool) :
    (s.pairAsk b).mem = s.mem ∧ (s.pairAsk b).pending = s.pending := by
  simp [State.pairAsk]

@[simp] theorem State.pairStart_keeps (s : State) :
    (s.pairStart).mem = s.mem ∧ (s.pairStart).pending = s.pending := by
  simp [State.pairStart]

@[simp] theorem State.pairStop_keeps (s : State) :
    (s.pairStop).mem = s.mem ∧ (s.pairStop).pending = s.pending := by
  simp [State.pairStop]

@[simp] theorem State.pairCommands_keeps (s : State) (w : Word) :
    (s.pairCommands w).mem = s.mem ∧ (s.pairCommands w).pending = s.pending := by
  simp [State.pairCommands]

@[simp] theorem State.writePair_keeps (s : State) (src : Req) (w : Word) :
    (s.writePair src w).1.mem = s.mem ∧ (s.writePair src w).1.pending = s.pending := by
  simp [State.writePair]

@[simp] theorem State.pairPost_keeps (s : State) (kind k : Nat) (pl : List Block) :
    (s.pairPost kind k pl).mem = s.mem ∧ (s.pairPost kind k pl).pending = s.pending := by
  simp [State.pairPost]

@[simp] theorem State.pairChange_keeps (s : State) (b : Bool) :
    (s.pairChange b).mem = s.mem ∧ (s.pairChange b).pending = s.pending := by
  simp [State.pairChange]

@[simp] theorem State.coordSend_keeps (s : State) (p : Nat) (pl : List Block) :
    (s.coordSend p pl).mem = s.mem ∧ (s.coordSend p pl).pending = s.pending := by
  constructor <;> unfold State.coordSend <;>
    repeat' (first | simp | (refine foldl_mem _ (fun _ _ => ?_) _ _) | (refine foldl_pending _ (fun _ _ => ?_) _ _) | split)

@[simp] theorem State.pauseRequest_keeps (s : State) (p : Nat) (r : PauseReq) :
    (s.pauseRequest p r).mem = s.mem ∧ (s.pauseRequest p r).pending = s.pending := by
  simp [State.pauseRequest]

@[simp] theorem State.coordAlert_keeps (s : State) (p : Nat) (f : Fld) :
    (s.coordAlert p f).mem = s.mem ∧ (s.coordAlert p f).pending = s.pending := by
  simp [State.coordAlert]

@[simp] theorem State.coordCheck_keeps (s : State) (p next : Nat) :
    (s.coordCheck p next).mem = s.mem ∧ (s.coordCheck p next).pending = s.pending := by
  simp [State.coordCheck]

/-! ### Readout -/

@[simp] theorem State.setLane_keeps (s : State) (t p : Nat) (x : LaneX) :
    (s.setLane t p x).mem = s.mem ∧ (s.setLane t p x).pending = s.pending := by
  simp [State.setLane]

@[simp] theorem State.modLane_keeps (s : State) (t p : Nat) (f : LaneX → LaneX) :
    (s.modLane t p f).mem = s.mem ∧ (s.modLane t p f).pending = s.pending := by
  simp [State.modLane]

@[simp] theorem State.setBank_keeps (s : State) (t p d : Nat) (x : BankX) :
    (s.setBank t p d x).mem = s.mem ∧ (s.setBank t p d x).pending = s.pending := by
  simp [State.setBank]

@[simp] theorem State.lnSet_keeps (s : State) (t p : Nat) (f : Fld) :
    (s.lnSet t p f).mem = s.mem ∧ (s.lnSet t p f).pending = s.pending := by
  simp [State.lnSet]

@[simp] theorem State.dropJob_keeps (s : State) (t p : Nat) (sh : Bool) :
    (s.dropJob t p sh).mem = s.mem ∧ (s.dropJob t p sh).pending = s.pending := by
  simp [State.dropJob]

@[simp] theorem State.dropJobsOf_keeps (s : State) (t p r : Nat) :
    (s.dropJobsOf t p r).mem = s.mem ∧ (s.dropJobsOf t p r).pending = s.pending := by
  unfold State.dropJobsOf
  dsimp only
  repeat' split
  all_goals simp

@[simp] theorem State.rsCheck_keeps (s : State) (t p r : Nat) :
    (s.rsCheck t p r).mem = s.mem ∧ (s.rsCheck t p r).pending = s.pending := by
  simp [State.rsCheck]

@[simp] theorem State.writeRs_keeps (s : State) (src : Req) (t p r k : Nat) (w : Word) :
    (s.writeRs src t p r k w).1.mem = s.mem ∧ (s.writeRs src t p r k w).1.pending = s.pending := by
  simp [State.writeRs]

@[simp] theorem State.writeRi_keeps (s : State) (src : Req) (t : Nat) (w : Word) :
    (s.writeRi src t w).1.mem = s.mem ∧ (s.writeRi src t w).1.pending = s.pending := by
  simp [State.writeRi]

@[simp] theorem State.refuseMeas_keeps (s : State) (t p pl sid : Nat) :
    (s.refuseMeas t p pl sid).mem = s.mem ∧ (s.refuseMeas t p pl sid).pending = s.pending := by
  simp [State.refuseMeas]

@[simp] theorem State.takeLane_keeps (s : State) (t p : Nat) (sh : Bool) (w : Win) :
    (s.takeLane t p sh w).mem = s.mem ∧ (s.takeLane t p sh w).pending = s.pending := by
  unfold State.takeLane
  dsimp only
  repeat' split
  all_goals simp

@[simp] theorem State.openAcc_keeps (s : State) (t p : Nat) (sh : Bool) (r : Nat) (avg : Bool) :
    (s.openAcc t p sh r avg).mem = s.mem ∧ (s.openAcc t p sh r avg).pending = s.pending := by
  unfold State.openAcc
  dsimp only
  repeat' split
  all_goals simp

@[simp] theorem State.openWindow_keeps (s : State) (t p pl sid start c r len midx : Nat) (sh noRec noDec : Bool) (num : Word) :
    (s.openWindow t p pl sid start c r len midx sh noRec noDec num).mem = s.mem ∧ (s.openWindow t p pl sid start c r len midx sh noRec noDec num).pending = s.pending := by
  simp [State.openWindow]

@[simp] theorem State.adcTick_keeps (s : State) (t : Nat) :
    (s.adcTick t).mem = s.mem ∧ (s.adcTick t).pending = s.pending := by
  unfold State.adcTick
  dsimp only
  (repeat' split) <;> simp

@[simp] theorem State.trackSpread_keeps (s : State) (t p d j st k : Nat) (i q : Int) :
    (s.trackSpread t p d j st k i q).mem = s.mem ∧ (s.trackSpread t p d j st k i q).pending = s.pending := by
  unfold State.trackSpread
  split <;> simp

@[simp] theorem State.loopInput_keeps (s : State) (t p d st : Nat) (i q : Int) :
    (s.loopInput t p d st i q).mem = s.mem ∧ (s.loopInput t p d st i q).pending = s.pending := by
  simp [State.loopInput]

@[simp] theorem State.recentre_keeps (s : State) (t p d j : Nat) :
    (s.recentre t p d j).mem = s.mem ∧ (s.recentre t p d j).pending = s.pending := by
  simp [State.recentre]

@[simp] theorem State.loopSet_keeps (s : State) (t p d : Nat) (on : Bool) :
    (s.loopSet t p d on).mem = s.mem ∧ (s.loopSet t p d on).pending = s.pending := by
  simp [State.loopSet]

@[simp] theorem State.loopUnfreeze_keeps (s : State) (t p d : Nat) :
    (s.loopUnfreeze t p d).mem = s.mem ∧ (s.loopUnfreeze t p d).pending = s.pending := by
  simp [State.loopUnfreeze]

@[simp] theorem State.loopAtEnd_keeps (s : State) (t p d : Nat) :
    (s.loopAtEnd t p d).mem = s.mem ∧ (s.loopAtEnd t p d).pending = s.pending := by
  unfold State.loopAtEnd
  split <;> simp

@[simp] theorem State.trackInput_keeps (s : State) (t p : Nat) (i q : Int) :
    (s.trackInput t p i q).mem = s.mem ∧ (s.trackInput t p i q).pending = s.pending := by
  simp [State.trackInput]

@[simp] theorem State.setToneFw_keeps (s : State) (t p : Nat) (off : Int) :
    (s.setToneFw t p off).mem = s.mem ∧ (s.setToneFw t p off).pending = s.pending := by
  simp [State.setToneFw]

@[simp] theorem State.toneStep_keeps (s : State) (t p : Nat) :
    (s.toneStep t p).mem = s.mem ∧ (s.toneStep t p).pending = s.pending := by
  simp [State.toneStep]

@[simp] theorem State.toneStart_keeps (s : State) (t p : Nat) :
    (s.toneStart t p).mem = s.mem ∧ (s.toneStart t p).pending = s.pending := by
  simp [State.toneStart]

@[simp] theorem State.toneAtEnd_keeps (s : State) (t p : Nat) :
    (s.toneAtEnd t p).mem = s.mem ∧ (s.toneAtEnd t p).pending = s.pending := by
  simp [State.toneAtEnd]

@[simp] theorem State.loopsAtEnd_keeps (s : State) (pl : Nat) :
    (s.loopsAtEnd pl).mem = s.mem ∧ (s.loopsAtEnd pl).pending = s.pending := by
  constructor <;> unfold State.loopsAtEnd <;>
    repeat' (first | simp | (refine foldl_mem _ (fun _ _ => ?_) _ _) | (refine foldl_pending _ (fun _ _ => ?_) _ _))

@[simp] theorem State.loopEnable_keeps (s : State) (t p d : Nat) (on : Bool) :
    (s.loopEnable t p d on).mem = s.mem ∧ (s.loopEnable t p d on).pending = s.pending := by
  simp [State.loopEnable]

@[simp] theorem State.writeDbLoop_keeps (s : State) (src : Req) (t p d : Nat) (w : Word) :
    (s.writeDbLoop src t p d w).1.mem = s.mem ∧ (s.writeDbLoop src t p d w).1.pending = s.pending := by
  unfold State.writeDbLoop
  dsimp only
  repeat' split
  all_goals simp

@[simp] theorem State.writeDb_keeps (s : State) (src : Req) (r : RegSpec) (t p d a : Nat) (w : Word) :
    (s.writeDb src r t p d a w).1.mem = s.mem ∧ (s.writeDb src r t p d a w).1.pending = s.pending := by
  unfold State.writeDb
  split <;> simp

@[simp] theorem State.writeTtCtl_keeps (s : State) (src : Req) (t p : Nat) (w : Word) :
    (s.writeTtCtl src t p w).1.mem = s.mem ∧ (s.writeTtCtl src t p w).1.pending = s.pending := by
  simp [State.writeTtCtl]

@[simp] theorem State.writeLane_keeps (s : State) (src : Req) (r : RegSpec) (a : Nat) (w : Word) :
    (s.writeLane src r a w).1.mem = s.mem ∧ (s.writeLane src r a w).1.pending = s.pending := by
  unfold State.writeLane
  split <;> simp

@[simp] theorem State.pushRec_keeps (s : State) (t : Nat) (r : Rec) :
    (s.pushRec t r).mem = s.mem ∧ (s.pushRec t r).pending = s.pending := by
  simp [State.pushRec]

@[simp] theorem State.noteOvf_keeps (s : State) (t p pl sid n : Nat) :
    (s.noteOvf t p pl sid n).mem = s.mem ∧ (s.noteOvf t p pl sid n).pending = s.pending := by
  simp [State.noteOvf]

@[simp] theorem State.setResult_keeps (s : State) (t p : Nat) (w : Win) (r : Result) :
    (s.setResult t p w r).mem = s.mem ∧ (s.setResult t p w r).pending = s.pending := by
  simp [State.setResult]

@[simp] theorem State.feedLoops_keeps (s : State) (t p : Nat) (w : Win) (r : Result) :
    (s.feedLoops t p w r).mem = s.mem ∧ (s.feedLoops t p w r).pending = s.pending := by
  simp [State.feedLoops]

@[simp] theorem State.deliverState_keeps (s : State) (t p : Nat) (sh : Bool) (w : Win) (st : Nat) :
    (s.deliverState t p sh w st).mem = s.mem ∧ (s.deliverState t p sh w st).pending = s.pending := by
  simp [State.deliverState]

@[simp] theorem State.recordResult_keeps (s : State) (t p : Nat) (x : Stored) :
    (s.recordResult t p x).mem = s.mem ∧ (s.recordResult t p x).pending = s.pending := by
  simp [State.recordResult]

@[simp] theorem State.storeWin_keeps (s : State) (t p : Nat) (sh : Bool) (w : Win) :
    (s.storeWin t p sh w).mem = s.mem ∧ (s.storeWin t p sh w).pending = s.pending := by
  simp [State.storeWin]

@[simp] theorem State.accTick_keeps (s : State) (t p : Nat) (sh : Bool) (w : Win) :
    (s.accTick t p sh w).mem = s.mem ∧ (s.accTick t p sh w).pending = s.pending := by
  unfold State.accTick
  dsimp only
  repeat' split
  all_goals simp

@[simp] theorem State.winTick_keeps (s : State) (t p : Nat) (sh : Bool) :
    (s.winTick t p sh).mem = s.mem ∧ (s.winTick t p sh).pending = s.pending := by
  unfold State.winTick
  split <;> simp

@[simp] theorem State.discTick_keeps (s : State) (t p : Nat) :
    (s.discTick t p).mem = s.mem ∧ (s.discTick t p).pending = s.pending := by
  unfold State.discTick
  (repeat' split) <;> simp

@[simp] theorem State.feedTick_keeps (s : State) (t p : Nat) :
    (s.feedTick t p).mem = s.mem ∧ (s.feedTick t p).pending = s.pending := by
  simp [State.feedTick]

@[simp] theorem State.dueTick_keeps (s : State) (t p : Nat) :
    (s.dueTick t p).mem = s.mem ∧ (s.dueTick t p).pending = s.pending := by
  simp [State.dueTick]

@[simp] theorem State.laneTick_keeps (s : State) (t p : Nat) :
    (s.laneTick t p).mem = s.mem ∧ (s.laneTick t p).pending = s.pending := by
  simp [State.laneTick]

@[simp] theorem State.closeWindow_keeps (s : State) (t p : Nat) (sh : Bool) (w : Win) :
    (s.closeWindow t p sh w).mem = s.mem ∧ (s.closeWindow t p sh w).pending = s.pending := by
  unfold State.closeWindow
  split <;> simp

@[simp] theorem State.cutWindow_keeps (s : State) (t p : Nat) (sh : Bool) :
    (s.cutWindow t p sh).mem = s.mem ∧ (s.cutWindow t p sh).pending = s.pending := by
  unfold State.cutWindow
  split <;> simp

@[simp] theorem State.cutWindows_keeps (s : State) (pl : Nat) :
    (s.cutWindows pl).mem = s.mem ∧ (s.cutWindows pl).pending = s.pending := by
  simp [State.cutWindows]

@[simp] theorem State.dropJobs_keeps (s : State) (pl : Nat) :
    (s.dropJobs pl).mem = s.mem ∧ (s.dropJobs pl).pending = s.pending := by
  simp [State.dropJobs]

/-! ### Flux -/

@[simp] theorem State.setFlux_keeps (s : State) (t f : Nat) (x : FluxX) :
    (s.setFlux t f x).mem = s.mem ∧ (s.setFlux t f x).pending = s.pending := by
  simp [State.setFlux]

@[simp] theorem State.clearFilter_keeps (s : State) (t f : Nat) :
    (s.clearFilter t f).mem = s.mem ∧ (s.clearFilter t f).pending = s.pending := by
  simp [State.clearFilter]

@[simp] theorem State.writeFx_keeps (s : State) (src : Req) (t f off : Nat) (w : Word) :
    (s.writeFx src t f off w).1.mem = s.mem ∧ (s.writeFx src t f off w).1.pending = s.pending := by
  unfold State.writeFx
  dsimp only
  repeat' split
  all_goals simp

@[simp] theorem State.fluxTick_keeps (s : State) (t f : Nat) :
    (s.fluxTick t f).mem = s.mem ∧ (s.fluxTick t f).pending = s.pending := by
  simp [State.fluxTick]

/-! ### Operands -/

@[simp] theorem State.setSreg_keeps (s : State) (t q i : Nat) (v : Word) :
    (s.setSreg t q i v).mem = s.mem ∧ (s.setSreg t q i v).pending = s.pending := by
  simp [State.setSreg]

/-! ### Micro -/

@[simp] theorem State.countHits_keeps (s : State) (t : Nat) (l : List Nat) :
    (s.countHits t l).mem = s.mem ∧ (s.countHits t l).pending = s.pending := by
  induction l generalizing s <;> simp [State.countHits, *]

@[simp] theorem State.microError_keeps (s : State) (t code : Nat) :
    (s.microError t code).mem = s.mem ∧ (s.microError t code).pending = s.pending := by
  simp [State.microError]

@[simp] theorem State.sysRoutine_keeps (s : State) (t q a : Nat) (bad : Option Nat) :
    (s.sysRoutine t q a bad).1.mem = s.mem ∧ (s.sysRoutine t q a bad).1.pending = s.pending := by
  unfold State.sysRoutine
  dsimp only
  (repeat' split) <;> simp

/-! ### Sequencer -/

@[simp] theorem State.setSeqState_keeps (s : State) (t q code : Nat) :
    (s.setSeqState t q code).mem = s.mem ∧ (s.setSeqState t q code).pending = s.pending := by
  simp [State.setSeqState]

@[simp] theorem State.setPc_keeps (s : State) (t q pc : Nat) :
    (s.setPc t q pc).mem = s.mem ∧ (s.setPc t q pc).pending = s.pending := by
  simp [State.setPc]

@[simp] theorem State.setTc_keeps (s : State) (t q tc : Nat) :
    (s.setTc t q tc).mem = s.mem ∧ (s.setTc t q tc).pending = s.pending := by
  simp [State.setTc]

@[simp] theorem State.setDepth_keeps (s : State) (t q d : Nat) :
    (s.setDepth t q d).mem = s.mem ∧ (s.setDepth t q d).pending = s.pending := by
  simp [State.setDepth]

@[simp] theorem State.loadRegs_keeps (s : State) (t q : Nat) (x3 : List Nat) :
    (s.loadRegs t q x3).mem = s.mem ∧ (s.loadRegs t q x3).pending = s.pending := by
  induction x3 generalizing s t q <;> simp [State.loadRegs, *]

@[simp] theorem State.clearLoops_keeps (s : State) (t q : Nat) (x3 : List Nat) :
    (s.clearLoops t q x3).mem = s.mem ∧ (s.clearLoops t q x3).pending = s.pending := by
  induction x3 generalizing s t q <;> simp [State.clearLoops, *]

@[simp] theorem State.addCycles_keeps (s : State) (t q n : Nat) :
    (s.addCycles t q n).mem = s.mem ∧ (s.addCycles t q n).pending = s.pending := by
  simp [State.addCycles]

@[simp] theorem State.preload_keeps (s : State) (t q : Nat) :
    (s.preload t q).mem = s.mem ∧ (s.preload t q).pending = s.pending := by
  simp [State.preload]

@[simp] theorem State.stallCut_keeps (s : State) (t q : Nat) :
    (s.stallCut t q).mem = s.mem ∧ (s.stallCut t q).pending = s.pending := by
  unfold State.stallCut
  dsimp only
  (repeat' split) <;> simp

@[simp] theorem State.addInstr_keeps (s : State) (t q : Nat) :
    (s.addInstr t q).mem = s.mem ∧ (s.addInstr t q).pending = s.pending := by
  simp [State.addInstr]

@[simp] theorem State.sendCmd_keeps (s : State) (t q : Nat) (cmd : TqCmd) (stamp : Nat) (since : Option Nat) :
    (s.sendCmd t q cmd stamp since).mem = s.mem ∧ (s.sendCmd t q cmd stamp since).pending = s.pending := by
  simp [State.sendCmd]

@[simp] theorem State.countFault_keeps (s : State) (t q cause : Nat) :
    (s.countFault t q cause).mem = s.mem ∧ (s.countFault t q cause).pending = s.pending := by
  unfold State.countFault
  dsimp only
  (repeat' split) <;> simp

@[simp] theorem State.enterFaulted_keeps (s : State) (t q : Nat) (f : FaultInfo) :
    (s.enterFaulted t q f).mem = s.mem ∧ (s.enterFaulted t q f).pending = s.pending := by
  unfold State.enterFaulted
  dsimp only
  repeat' split
  all_goals simp

@[simp] theorem State.preloadTo_keeps (s : State) (t q code : Nat) (x : SeqX) (bad : Option Nat) :
    (s.preloadTo t q code x bad).mem = s.mem ∧ (s.preloadTo t q code x bad).pending = s.pending := by
  unfold State.preloadTo
  dsimp only
  (repeat' split) <;> simp

@[simp] theorem State.loopTest_keeps (s : State) (t q pc x4 : Nat) :
    (s.loopTest t q pc x4).1.mem = s.mem ∧ (s.loopTest t q pc x4).1.pending = s.pending := by
  induction x4 generalizing s t q pc <;> simp [State.loopTest, *]

@[simp] theorem State.stallQ_keeps (s : State) (t q : Nat) (cmd : TqCmd) (a : After) :
    (s.stallQ t q cmd a).mem = s.mem ∧ (s.stallQ t q cmd a).pending = s.pending := by
  simp [State.stallQ]

@[simp] theorem State.fault_keeps (s : State) (t q : Nat) (f : FaultInfo) (bad : Option Nat) :
    (s.fault t q f bad).mem = s.mem ∧ (s.fault t q f bad).pending = s.pending := by
  unfold State.fault
  dsimp only
  (repeat' split) <;> simp

@[simp] theorem State.complete_keeps (s : State) (t q : Nat) (bad : Option Nat) :
    (s.complete t q bad).mem = s.mem ∧ (s.complete t q bad).pending = s.pending := by
  unfold State.complete
  dsimp only
  split
  · simp
  · split <;> simp

@[simp] theorem State.after_keeps (s : State) (t q : Nat) (a : After) (bad : Option Nat) :
    (s.after t q a bad).mem = s.mem ∧ (s.after t q a bad).pending = s.pending := by
  unfold State.after
  split <;> simp

@[simp] theorem State.issue_keeps (s : State) (t q : Nat) (cmd : TqCmd) (a : After) (bad : Option Nat) :
    (s.issue t q cmd a bad).mem = s.mem ∧ (s.issue t q cmd a bad).pending = s.pending := by
  unfold State.issue
  split <;> simp

/-- The state that an instruction's result carries; `d` where it carries none. -/
def IRes.after (d : State) : IRes → State
  | .next s => s
  | .jump s _ _ => s
  | _ => d

@[simp] theorem IRes.after_next (d s : State) : (IRes.next s).after d = s := rfl
@[simp] theorem IRes.after_jump (d s : State) (pc refill : Nat) : (IRes.jump s pc refill).after d = s := rfl
@[simp] theorem IRes.after_issue (d : State) (cmd : TqCmd) (a : After) : (IRes.issue cmd a).after d = d := rfl
@[simp] theorem IRes.after_wait (d : State) (st : Stall) (code : Nat) : (IRes.wait st code).after d = d := rfl
@[simp] theorem IRes.after_pcEnd (d : State) : IRes.pcEnd.after d = d := rfl
@[simp] theorem IRes.after_fault (d : State) (c n : Nat) (info : Word) : (IRes.fault c info n).after d = d := rfl

@[simp] theorem IRes.after_ite (d : State) (c : Prop) [Decidable c] (r r' : IRes) :
    (if c then r else r').after d = if c then r.after d else r'.after d := by split <;> rfl

@[simp] theorem State.finish_keeps (s : State) (t q cyc : Nat) (r : IRes) (bad : Option Nat) :
    (s.finish t q cyc r bad).mem = (r.after s).mem ∧
      (s.finish t q cyc r bad).pending = (r.after s).pending := by
  cases r <;> simp [State.finish, IRes.after]

@[simp] theorem State.pmCorrected_keeps (s : State) (t q : Nat) (e : Ecc) :
    (s.pmCorrected t q e).mem = s.mem ∧ (s.pmCorrected t q e).pending = s.pending := by
  unfold State.pmCorrected
  split <;> simp

@[simp] theorem State.driveRegs_keeps (s s1 : State) (t q : Nat) (ds : List (BitVec 192)) :
    (s.driveRegs s1 t q ds).mem = s1.mem ∧ (s.driveRegs s1 t q ds).pending = s1.pending := by
  simp [State.driveRegs]

@[simp] theorem State.holdMicro_keeps (s : State) (t q : Nat) (a : Option Nat) (redir : Bool) (bad : Option Nat) :
    (s.holdMicro t q a redir bad).mem = s.mem ∧ (s.holdMicro t q a redir bad).pending = s.pending := by
  unfold State.holdMicro
  dsimp only
  simp

/-- What an instruction's result carries, driven by changed nano-words or not, keeps the memory and the queue where the result does. -/
theorem State.driven_after (s : State) (t q : Nat) (ds : List (BitVec 192)) (r : IRes) (h : (r.after s).mem = s.mem)
    (k : (r.after s).pending = s.pending) :
    ((s.driven t q ds r).after s).mem = s.mem ∧ ((s.driven t q ds r).after s).pending = s.pending := by
  unfold State.driven
  dsimp only
  split
  · exact ⟨h, k⟩
  · cases r <;> simp only [IRes.after] at h k <;> dsimp only <;> (repeat' split) <;> simp_all

theorem State.judged_after (s : State) (t q : Nat) (x : Ins) (body : Ins → State → IRes) (h : ((body x s).after s).mem = s.mem)
    (k : ((body x s).after s).pending = s.pending) :
    ((s.judged t q x body).after s).mem = s.mem ∧ ((s.judged t q x body).after s).pending = s.pending := by
  unfold State.judged
  (repeat' split) <;> first | exact ⟨h, k⟩ | simp

theorem State.redirected_keeps (s : State) (t q : Nat) (x : Ins) (r : MicroRun) (body : Ins → State → IRes)
    (h : ((body x s).after s).mem = s.mem) (k : ((body x s).after s).pending = s.pending) :
    (s.redirected t q x r body).mem = s.mem ∧ (s.redirected t q x r body).pending = s.pending := by
  have j := s.judged_after t q x body h k
  have d := fun ds => s.driven_after t q ds _ j.1 j.2
  have n := fun ds => s.driven_after t q ds (.next s) rfl rfl
  unfold State.redirected
  dsimp only
  (repeat' split) <;> simp_all

theorem State.instr_keeps (s : State) (t q : Nat) (e : Ecc) (cyc : Ins → Nat) (body : Ins → State → IRes)
    (h : ∀ x s, ((body x s).after s).mem = s.mem ∧ ((body x s).after s).pending = s.pending) :
    (s.instr t q e cyc body).mem = s.mem ∧ (s.instr t q e cyc body).pending = s.pending := by
  have j := fun (u : State) x => u.judged_after t q x body (h x u).1 (h x u).2
  have r := fun (u : State) x y => u.redirected_keeps t q x y body (h x u).1 (h x u).2
  unfold State.instr
  dsimp only
  split
  · simp
  · split
    · simp [j]
    · split
      · simp [r]
      · (repeat' split) <;> simp [j]

@[simp] theorem State.tail_keeps (s : State) (t q cyc std : Nat) (c : MicroCond) :
    (s.tail t q cyc std c).1.mem = s.mem ∧ (s.tail t q cyc std c).1.pending = s.pending := by
  unfold State.tail
  dsimp only
  (repeat' split) <;> simp

@[simp] theorem State.resume_keeps (s : State) (t q cyc : Nat) (r : MicroEnd × Nat) (k : State → State)
    (h : (k s).mem = s.mem ∧ (k s).pending = s.pending) :
    (s.resume t q cyc r k).mem = s.mem ∧ (s.resume t q cyc r k).pending = s.pending := by
  unfold State.resume
  (repeat' split) <;> simp [h]

@[simp] theorem State.unstall_keeps (s : State) (t q : Nat) :
    (s.unstall t q).mem = s.mem ∧ (s.unstall t q).pending = s.pending := by
  unfold State.unstall
  dsimp only
  simp

@[simp] theorem State.releaseOne_keeps (tc b : Nat) (s : State) (k : Nat) :
    (State.releaseOne tc b s k).mem = s.mem ∧ (State.releaseOne tc b s k).pending = s.pending := by
  simp [State.releaseOne]

@[simp] theorem State.seqEnable_keeps (s : State) (t q : Nat) (was now : Bool) :
    (s.seqEnable t q was now).mem = s.mem ∧ (s.seqEnable t q was now).pending = s.pending := by
  unfold State.seqEnable
  dsimp only
  (repeat' split) <;> first | exact ⟨rfl, rfl⟩ | simp

@[simp] theorem State.clearFault_keeps (s : State) (t q : Nat) :
    (s.clearFault t q).mem = s.mem ∧ (s.clearFault t q).pending = s.pending := by
  unfold State.clearFault
  dsimp only
  split
  · exact ⟨(State.preloadTo_keeps _ _ _ _ _ _).1.trans (by simp), (State.preloadTo_keeps _ _ _ _ _ _).2.trans (by simp)⟩
  · simp

@[simp] theorem State.writeSeqCtl_keeps (s : State) (src : Req) (t q : Nat) (w : Word) :
    (s.writeSeqCtl src t q w).1.mem = s.mem ∧ (s.writeSeqCtl src t q w).1.pending = s.pending := by
  simp [State.writeSeqCtl]

/-! ### Timeline -/

@[simp] theorem State.loadDrop_keeps (s : State) :
    (s.loadDrop).mem = s.mem ∧ (s.loadDrop).pending = s.pending := by
  simp [State.loadDrop]

@[simp] theorem State.loadArm_keeps (s : State) (due : Option Nat) :
    (s.loadArm due).mem = s.mem ∧ (s.loadArm due).pending = s.pending := by
  simp [State.loadArm]

@[simp] theorem State.loadCtl_keeps (s : State) (w : Word) :
    (s.loadCtl w).mem = s.mem ∧ (s.loadCtl w).pending = s.pending := by
  simp [State.loadCtl]

@[simp] theorem State.writeLoadCtl_keeps (s : State) (src : Req) (w : Word) :
    (s.writeLoadCtl src w).1.mem = s.mem ∧ (s.writeLoadCtl src w).1.pending = s.pending := by
  simp [State.writeLoadCtl]

@[simp] theorem State.loadNow_keeps (s : State) :
    (s.loadNow).mem = s.mem ∧ (s.loadNow).pending = s.pending := by
  simp [State.loadNow]

@[simp] theorem State.runSet_keeps (s : State) (p : Nat) (f : Fld) (v : Nat) :
    (s.runSet p f v).mem = s.mem ∧ (s.runSet p f v).pending = s.pending := by
  simp [State.runSet]

@[simp] theorem State.cmdIgnored_keeps (s : State) (p : Nat) :
    (s.cmdIgnored p).mem = s.mem ∧ (s.cmdIgnored p).pending = s.pending := by
  simp [State.cmdIgnored]

@[simp] theorem State.eachSeq_mem (s : State) (q : Nat) (f : State → Nat → State)
    (h : ∀ s j, (f s j).mem = s.mem) : (s.eachSeq q f).mem = s.mem := foldl_mem f h _ s
@[simp] theorem State.eachSeq_pending (s : State) (q : Nat) (f : State → Nat → State)
    (h : ∀ s j, (f s j).pending = s.pending) : (s.eachSeq q f).pending = s.pending := foldl_pending f h _ s

@[simp] theorem State.eachTile_mem (s : State) (q : Nat) (f : State → Nat → State)
    (h : ∀ s j, (f s j).mem = s.mem) : (s.eachTile q f).mem = s.mem := foldl_mem f h _ s
@[simp] theorem State.eachTile_pending (s : State) (q : Nat) (f : State → Nat → State)
    (h : ∀ s j, (f s j).pending = s.pending) : (s.eachTile q f).pending = s.pending := foldl_pending f h _ s

@[simp] theorem State.rearm_keeps (s : State) (t q : Nat) :
    (s.rearm t q).mem = s.mem ∧ (s.rearm t q).pending = s.pending := by
  simp [State.rearm]

@[simp] theorem State.seqStart_keeps (s : State) (t q : Nat) :
    (s.seqStart t q).mem = s.mem ∧ (s.seqStart t q).pending = s.pending := by
  simp [State.seqStart]

@[simp] theorem State.seqStop_keeps (s : State) (t q : Nat) :
    (s.seqStop t q).mem = s.mem ∧ (s.seqStop t q).pending = s.pending := by
  simp [State.seqStop]

@[simp] theorem State.stop_keeps (s : State) (p cause : Nat) :
    (s.stop p cause).mem = s.mem ∧ (s.stop p cause).pending = s.pending := by
  simp [State.stop]

@[simp] theorem State.startTiles_keeps (s : State) (p : Nat) :
    (s.startTiles p).mem = s.mem ∧ (s.startTiles p).pending = s.pending := by
  simp [State.startTiles]

@[simp] theorem State.start_keeps (s : State) (p : Nat) :
    (s.start p).mem = s.mem ∧ (s.start p).pending = s.pending := by
  simp [State.start]

@[simp] theorem State.unfix_keeps (s : State) (p : Nat) :
    (s.unfix p).mem = s.mem ∧ (s.unfix p).pending = s.pending := by
  unfold State.unfix
  dsimp only
  (repeat' split) <;> simp

@[simp] theorem State.cmdReaches_keeps (s : State) (p : Nat) :
    (s.cmdReaches p).mem = s.mem ∧ (s.cmdReaches p).pending = s.pending := by
  simp [State.cmdReaches]

@[simp] theorem State.drain_keeps (s : State) (p : Nat) :
    (s.drain p).mem = s.mem ∧ (s.drain p).pending = s.pending := by
  simp [State.drain]

@[simp] theorem State.abort_keeps (s : State) (p : Nat) :
    (s.abort p).mem = s.mem ∧ (s.abort p).pending = s.pending := by
  simp [State.abort]

@[simp] theorem State.abortSoon_keeps (s : State) (p : Nat) :
    (s.abortSoon p).mem = s.mem ∧ (s.abortSoon p).pending = s.pending := by
  simp [State.abortSoon]

@[simp] theorem State.runCmd_keeps (s : State) (p : Nat) (w : Word) :
    (s.runCmd p w).mem = s.mem ∧ (s.runCmd p w).pending = s.pending := by
  simp [State.runCmd]

@[simp] theorem State.writeRunCmd_keeps (s : State) (src : Req) (p : Nat) (w : Word) :
    (s.writeRunCmd src p w).1.mem = s.mem ∧ (s.writeRunCmd src p w).1.pending = s.pending := by
  simp [State.writeRunCmd]

@[simp] theorem State.writeShotReg_keeps (s : State) (src : Req) (r : RegSpec) (p a : Nat) (w : Word) :
    (s.writeShotReg src r p a w).1.mem = s.mem ∧ (s.writeShotReg src r p a w).1.pending = s.pending := by
  unfold State.writeShotReg
  split <;> simp

@[simp] theorem State.writeGlbCtl_keeps (s : State) (src : Req) (w : Word) :
    (s.writeGlbCtl src w).1.mem = s.mem ∧ (s.writeGlbCtl src w).1.pending = s.pending := by
  simp [State.writeGlbCtl]

@[simp] theorem State.trigger_keeps (s : State) (p : Nat) :
    (s.trigger p).mem = s.mem ∧ (s.trigger p).pending = s.pending := by
  simp [State.trigger]

@[simp] theorem State.trigLate_keeps (s : State) (p : Nat) :
    (s.trigLate p).mem = s.mem ∧ (s.trigLate p).pending = s.pending := by
  unfold State.trigLate
  dsimp only
  (repeat' split) <;> simp

@[simp] theorem State.triggerAll_keeps (s : State) (i : Nat) (rising : Bool) :
    (s.triggerAll i rising).mem = s.mem ∧ (s.triggerAll i rising).pending = s.pending := by
  simp [State.triggerAll]

@[simp] theorem State.fixStart_keeps (s : State) (p : Nat) :
    (s.fixStart p).mem = s.mem ∧ (s.fixStart p).pending = s.pending := by
  unfold State.fixStart
  dsimp only
  repeat' split
  all_goals simp

@[simp] theorem State.seqOff_keeps (s : State) (t : Nat) (f : Nat × Nat) :
    (s.seqOff t f).mem = s.mem ∧ (s.seqOff t f).pending = s.pending := by
  unfold State.seqOff
  split <;> simp

@[simp] theorem State.failedOff_keeps (s : State) (t : Nat) :
    (s.failedOff t).mem = s.mem ∧ (s.failedOff t).pending = s.pending := by
  simp [State.failedOff]

@[simp] theorem State.seqAnnounce_keeps (s : State) (p sid t q : Nat) :
    (s.seqAnnounce p sid t q).mem = s.mem ∧ (s.seqAnnounce p sid t q).pending = s.pending := by
  simp [State.seqAnnounce]

@[simp] theorem State.outputsAnnounce_keeps (s : State) (t : Nat) :
    (s.outputsAnnounce t).mem = s.mem ∧ (s.outputsAnnounce t).pending = s.pending := by
  simp [State.outputsAnnounce]

@[simp] theorem State.coordAnnounce_keeps (s : State) (p start : Nat) :
    (s.coordAnnounce p start).mem = s.mem ∧ (s.coordAnnounce p start).pending = s.pending := by
  simp [State.coordAnnounce]

@[simp] theorem State.onceAnnounce_keeps (s : State) (t : Nat) :
    (s.onceAnnounce t).mem = s.mem ∧ (s.onceAnnounce t).pending = s.pending := by
  simp [State.onceAnnounce]

@[simp] theorem State.announce_keeps (s : State) (p : Nat) (f : Fixed) :
    (s.announce p f).mem = s.mem ∧ (s.announce p f).pending = s.pending := by
  simp [State.announce]

@[simp] theorem State.tileStart_keeps (s : State) (t : Nat) :
    (s.tileStart t).mem = s.mem ∧ (s.tileStart t).pending = s.pending := by
  simp [State.tileStart]

@[simp] theorem State.startShot_keeps (s : State) (p sid : Nat) :
    (s.startShot p sid).mem = s.mem ∧ (s.startShot p sid).pending = s.pending := by
  simp [State.startShot]

@[simp] theorem State.seqShotEnd_keeps (s : State) (t q : Nat) :
    (s.seqShotEnd t q).mem = s.mem ∧ (s.seqShotEnd t q).pending = s.pending := by
  simp [State.seqShotEnd]

@[simp] theorem State.tileEnd_keeps (s : State) (t : Nat) :
    (s.tileEnd t).mem = s.mem ∧ (s.tileEnd t).pending = s.pending := by
  simp [State.tileEnd]

@[simp] theorem State.endShot_keeps (s : State) (p : Nat) (h : Shot) :
    (s.endShot p h).mem = s.mem ∧ (s.endShot p h).pending = s.pending := by
  simp [State.endShot]

@[simp] theorem State.afterShot_keeps (s : State) (p : Nat) :
    (s.afterShot p).mem = s.mem ∧ (s.afterShot p).pending = s.pending := by
  simp [State.afterShot]

@[simp] theorem State.haltPlot_keeps (s : State) (p : Nat) :
    (s.haltPlot p).mem = s.mem ∧ (s.haltPlot p).pending = s.pending := by
  simp [State.haltPlot]

@[simp] theorem State.seqCut_keeps (s : State) (t q : Nat) :
    (s.seqCut t q).mem = s.mem ∧ (s.seqCut t q).pending = s.pending := by
  unfold State.seqCut
  dsimp only
  repeat' split
  all_goals simp

@[simp] theorem State.cutShot_keeps (s : State) (p : Nat) (h : Shot) :
    (s.cutShot p h).mem = s.mem ∧ (s.cutShot p h).pending = s.pending := by
  simp [State.cutShot]

@[simp] theorem State.queueFault_keeps (s : State) (t q : Nat) :
    (s.queueFault t q).mem = s.mem ∧ (s.queueFault t q).pending = s.pending := by
  unfold State.queueFault
  split <;> simp

@[simp] theorem State.abortNow_keeps (s : State) (p : Nat) (underrun : Bool) :
    (s.abortNow p underrun).mem = s.mem ∧ (s.abortNow p underrun).pending = s.pending := by
  unfold State.abortNow
  dsimp only
  repeat' split
  all_goals simp

end Sys2Proof.Machine
end

