-- ==== Sys2Proof/Laws/KeepsB.lean ====
section
/-! SUPPORT. What each shared operation leaves alone: the memory window and the queue of commands that wait. Every operation but
the writers of the memory window (Laws/Memory.lean) and a reset has a theorem here, which simp uses. -/

namespace Sys2Proof.Machine

/-! ### Rings -/

@[simp] theorem State.setRing_keeps (s : State) (p : Nat) (x : RingX) :
    (s.setRing p x).mem = s.mem ∧ (s.setRing p x).pending = s.pending := by
  simp [State.setRing]

@[simp] theorem State.modRing_keeps (s : State) (p : Nat) (f : RingX → RingX) :
    (s.modRing p f).mem = s.mem ∧ (s.modRing p f).pending = s.pending := by
  simp [State.modRing]

@[simp] theorem State.msix_keeps (s : State) (v : Nat) :
    (s.msix v).mem = s.mem ∧ (s.msix v).pending = s.pending := by
  simp [State.msix]

@[simp] theorem State.plotIrq_keeps (s : State) (p v : Nat) :
    (s.plotIrq p v).mem = s.mem ∧ (s.plotIrq p v).pending = s.pending := by
  simp [State.plotIrq]

@[simp] theorem State.ringIrq_keeps (s : State) (p v : Nat) :
    (s.ringIrq p v).mem = s.mem ∧ (s.ringIrq p v).pending = s.pending := by
  unfold State.ringIrq
  dsimp only
  repeat' split
  all_goals simp

@[simp] theorem State.irqRelease_keeps (s : State) (p : Nat) :
    (s.irqRelease p).mem = s.mem ∧ (s.irqRelease p).pending = s.pending := by
  simp [State.irqRelease]

@[simp] theorem State.msixRelease_keeps (s : State) (v : Nat) :
    (s.msixRelease v).mem = s.mem ∧ (s.msixRelease v).pending = s.pending := by
  simp [State.msixRelease]

@[simp] theorem State.writeMsix_keeps (s : State) (src : Req) (n : Nat) (w : Word) :
    (s.writeMsix src n w).1.mem = s.mem ∧ (s.writeMsix src n w).1.pending = s.pending := by
  simp [State.writeMsix]

@[simp] theorem State.pgAlert_keeps (s : State) (p : Nat) (f : Fld) :
    (s.pgAlert p f).mem = s.mem ∧ (s.pgAlert p f).pending = s.pending := by
  simp [State.pgAlert]

@[simp] theorem State.ringSend_keeps (s : State) (p ring : Nat) (l : List (Nat × Nat)) (b : List Byte) :
    (s.ringSend p ring l b).mem = s.mem ∧ (s.ringSend p ring l b).pending = s.pending := by
  induction l generalizing s b with
  | nil => exact ⟨rfl, rfl⟩
  | cons x l ih => simp [State.ringSend, ih]

@[simp] theorem State.rspFlush_keeps (s : State) (p x2 : Nat) :
    (s.rspFlush p x2).mem = s.mem ∧ (s.rspFlush p x2).pending = s.pending := by
  induction x2 generalizing s p <;> unfold State.rspFlush <;> (try dsimp only) <;> (repeat' split) <;> simp [*]

@[simp] theorem State.respond_keeps (s : State) (p kind : Nat) (cseq : BitVec 64) (tag : Word) (status op detail : Nat) (data : List Byte) :
    (s.respond p kind cseq tag status op detail data).mem = s.mem ∧ (s.respond p kind cseq tag status op detail data).pending = s.pending := by
  simp [State.respond]

@[simp] theorem State.dmaResume_keeps (s : State) :
    (s.dmaResume).mem = s.mem ∧ (s.dmaResume).pending = s.pending := by
  simp [State.dmaResume]

@[simp] theorem State.aerNote_keeps (s : State) (bit : Nat) :
    (s.aerNote bit).mem = s.mem ∧ (s.aerNote bit).pending = s.pending := by
  unfold State.aerNote
  dsimp only
  simp

@[simp] theorem State.batchNext_keeps (s : State) (p : Nat) :
    (s.batchNext p).mem = s.mem ∧ (s.batchNext p).pending = s.pending := by
  unfold State.batchNext
  (repeat' split) <;> simp

@[simp] theorem State.closeBatch_keeps (s : State) (p : Nat) (b : BatchX) (late : Bool) :
    (s.closeBatch p b late).mem = s.mem ∧ (s.closeBatch p b late).pending = s.pending := by
  simp [State.closeBatch]

@[simp] theorem State.closeOpen_keeps (s : State) (p : Nat) :
    (s.closeOpen p).mem = s.mem ∧ (s.closeOpen p).pending = s.pending := by
  unfold State.closeOpen
  (repeat' split) <;> simp

@[simp] theorem State.keyChange_keeps (s : State) (p : Nat) :
    (s.keyChange p).mem = s.mem ∧ (s.keyChange p).pending = s.pending := by
  unfold State.keyChange
  (repeat' split) <;> simp

@[simp] theorem State.keyLast_keeps (s : State) (p : Nat) :
    (s.keyLast p).mem = s.mem ∧ (s.keyLast p).pending = s.pending := by
  unfold State.keyLast
  dsimp only
  (repeat' split) <;> simp

@[simp] theorem State.rrPut_keeps (s : State) (p : Nat) (bytes : List Byte) (always : Bool) :
    (s.rrPut p bytes always).mem = s.mem ∧ (s.rrPut p bytes always).pending = s.pending := by
  simp [State.rrPut]

@[simp] theorem State.formerEnd_keeps (s : State) (p sid : Nat) (l : List OldKey) :
    (s.formerEnd p sid l).mem = s.mem ∧ (s.formerEnd p sid l).pending = s.pending := by
  induction l generalizing s with
  | nil => exact ⟨rfl, rfl⟩
  | cons k l ih => unfold State.formerEnd; split <;> simp [ih]

@[simp] theorem State.batchAdd_keeps (s : State) (p sid : Nat) (num : Word) (bytes : List Byte) (shot : Bool) :
    (s.batchAdd p sid num bytes shot).mem = s.mem ∧ (s.batchAdd p sid num bytes shot).pending = s.pending := by
  unfold State.batchAdd
  dsimp only
  (repeat' split) <;> simp

@[simp] theorem State.batchEnd_keeps (s : State) (p sid : Nat) (last : Bool) :
    (s.batchEnd p sid last).mem = s.mem ∧ (s.batchEnd p sid last).pending = s.pending := by
  unfold State.batchEnd
  dsimp only
  (repeat' split) <;> simp

@[simp] theorem State.backpress_keeps (s : State) (p : Nat) :
    (s.backpress p).mem = s.mem ∧ (s.backpress p).pending = s.pending := by
  unfold State.backpress
  split <;> simp

@[simp] theorem State.putQueued_keeps (s : State) (p : Nat) (q : RingItem) (qs : List RingItem) :
    (s.putQueued p q qs).mem = s.mem ∧ (s.putQueued p q qs).pending = s.pending := by
  simp [State.putQueued]

@[simp] theorem State.putRecord_keeps (s : State) (p t : Nat) (r : Rec) :
    (s.putRecord p t r).mem = s.mem ∧ (s.putRecord p t r).pending = s.pending := by
  simp [State.putRecord]

@[simp] theorem State.ringPut_keeps (s : State) (p : Nat) :
    (s.ringPut p).mem = s.mem ∧ (s.ringPut p).pending = s.pending := by
  unfold State.ringPut
  dsimp only
  (repeat' split) <;> simp

@[simp] theorem State.writeShotRecord_keeps (s : State) (p : Nat) (h : Shot) (stop : Nat) :
    (s.writeShotRecord p h stop).mem = s.mem ∧ (s.writeShotRecord p h stop).pending = s.pending := by
  simp [State.writeShotRecord]

@[simp] theorem State.writeIndex_keeps (s : State) (src : Req) (r : RegSpec) (p a : Nat) (w : Word) (used size : Nat) :
    (s.writeIndex src r p a w used size).1.mem = s.mem ∧ (s.writeIndex src r p a w used size).1.pending = s.pending := by
  simp [State.writeIndex]

@[simp] theorem State.writeCmdProd_keeps (s : State) (src : Req) (p : Nat) (w : Word) :
    (s.writeCmdProd src p w).1.mem = s.mem ∧ (s.writeCmdProd src p w).1.pending = s.pending := by
  simp [State.writeCmdProd]

@[simp] theorem State.writeRspCons_keeps (s : State) (src : Req) (p : Nat) (w : Word) :
    (s.writeRspCons src p w).1.mem = s.mem ∧ (s.writeRspCons src p w).1.pending = s.pending := by
  simp [State.writeRspCons]

@[simp] theorem State.writeRrCons_keeps (s : State) (src : Req) (p : Nat) (w : Word) :
    (s.writeRrCons src p w).1.mem = s.mem ∧ (s.writeRrCons src p w).1.pending = s.pending := by
  simp [State.writeRrCons]

@[simp] theorem State.ringOn_keeps (s : State) (p ring : Nat) :
    (s.ringOn p ring).mem = s.mem ∧ (s.ringOn p ring).pending = s.pending := by
  simp [State.ringOn]

@[simp] theorem State.ringOff_keeps (s : State) (p ring : Nat) :
    (s.ringOff p ring).mem = s.mem ∧ (s.ringOff p ring).pending = s.pending := by
  simp [State.ringOff]

@[simp] theorem State.writeRingCfg_keeps (s : State) (src : Req) (p ring : Nat) (w : Word) :
    (s.writeRingCfg src p ring w).1.mem = s.mem ∧ (s.writeRingCfg src p ring w).1.pending = s.pending := by
  simp [State.writeRingCfg]

@[simp] theorem State.writePage_keeps (s : State) (src : Req) (r : RegSpec) (p a : Nat) (w : Word) :
    (s.writePage src r p a w).1.mem = s.mem ∧ (s.writePage src r p a w).1.pending = s.pending := by
  simp [State.writePage]

@[simp] theorem State.writeCmdCtl_keeps (s : State) (src : Req) (p : Nat) (w : Word) :
    (s.writeCmdCtl src p w).1.mem = s.mem ∧ (s.writeCmdCtl src p w).1.pending = s.pending := by
  simp [State.writeCmdCtl]

@[simp] theorem State.cmdAdvance_keeps (s : State) (p n : Nat) :
    (s.cmdAdvance p n).mem = s.mem ∧ (s.cmdAdvance p n).pending = s.pending := by
  simp [State.cmdAdvance]

@[simp] theorem State.nack_keeps (s : State) (p : Nat) (cseq : BitVec 64) (tag : Word) (status : Nat) :
    (s.nack p cseq tag status).mem = s.mem ∧ (s.nack p cseq tag status).pending = s.pending := by
  simp [State.nack]

@[simp] theorem State.ringStop_keeps (s : State) (p : Nat) :
    (s.ringStop p).mem = s.mem ∧ (s.ringStop p).pending = s.pending := by
  simp [State.ringStop]

@[simp] theorem State.capEnd_keeps (s : State) (p : Nat) :
    (s.capEnd p).mem = s.mem ∧ (s.capEnd p).pending = s.pending := by
  simp [State.capEnd]

@[simp] theorem State.ringError_keeps (s : State) (p : Nat) :
    (s.ringError p).mem = s.mem ∧ (s.ringError p).pending = s.pending := by
  simp [State.ringError]

@[simp] theorem State.serve_keeps (s : State) :
    (s.serve).mem = s.mem ∧ (s.serve).pending = s.pending := by
  unfold State.serve
  dsimp only
  (repeat' split) <;> simp

@[simp] theorem State.capReadsOut_keeps (s : State) (p n : Nat) :
    (s.capReadsOut p n).mem = s.mem ∧ (s.capReadsOut p n).pending = s.pending := by
  unfold State.capReadsOut
  dsimp only
  simp

@[simp] theorem State.fetchCapsule_keeps (s : State) (p : Nat) (h : List Byte) :
    (s.fetchCapsule p h).mem = s.mem ∧ (s.fetchCapsule p h).pending = s.pending := by
  simp [State.fetchCapsule]

@[simp] theorem State.mirrorOut_keeps (s : State) (p : Nat) (body : List Byte) :
    (s.mirrorOut p body).mem = s.mem ∧ (s.mirrorOut p body).pending = s.pending := by
  unfold State.mirrorOut
  repeat' split
  all_goals simp

@[simp] theorem State.capDone_keeps (s : State) (p : Nat) (c : CapX) (status op detail : Nat) :
    (s.capDone p c status op detail).mem = s.mem ∧ (s.capDone p c status op detail).pending = s.pending := by
  simp [State.capDone]

@[simp] theorem State.authDone_keeps (s : State) (p : Nat) (c : CapX) (body : Option (List Byte)) :
    (s.authDone p c body).mem = s.mem ∧ (s.authDone p c body).pending = s.pending := by
  unfold State.authDone
  dsimp only
  repeat' split
  all_goals simp

@[simp] theorem State.pageReset_keeps (s : State) (p : Nat) :
    (s.pageReset p).mem = s.mem ∧ (s.pageReset p).pending = s.pending := by
  simp [State.pageReset]

@[simp] theorem State.fetchesFail_keeps (s : State) :
    (s.fetchesFail).mem = s.mem ∧ (s.fetchesFail).pending = s.pending := by
  simp [State.fetchesFail]

@[simp] theorem State.hostReset_keeps (s : State) :
    (s.hostReset).mem = s.mem ∧ (s.hostReset).pending = s.pending := by
  simp [State.hostReset]

/-! ### Security -/

@[simp] theorem State.modWl_keeps (s : State) (f : WlX → WlX) :
    (s.modWl f).mem = s.mem ∧ (s.modWl f).pending = s.pending := by
  simp [State.modWl]

@[simp] theorem State.wlFlag_keeps (s : State) (f : Fld) (v : Nat) :
    (s.wlFlag f v).mem = s.mem ∧ (s.wlFlag f v).pending = s.pending := by
  simp [State.wlFlag]

@[simp] theorem State.fuse_keeps (s : State) (op rem bit : Nat) :
    (s.fuse op rem bit).mem = s.mem ∧ (s.fuse op rem bit).pending = s.pending := by
  simp [State.fuse]

@[simp] theorem State.blow_keeps (s : State) (op rem : Nat) (bits : List Nat) :
    (s.blow op rem bits).mem = s.mem ∧ (s.blow op rem bits).pending = s.pending := by
  unfold State.blow
  simp

@[simp] theorem State.openIntent_keeps (s : State) (op : Nat) (bits : List Nat) :
    (s.openIntent op bits).mem = s.mem ∧ (s.openIntent op bits).pending = s.pending := by
  unfold State.openIntent
  (repeat' split) <;> simp

@[simp] theorem State.closeIntent_keeps (s : State) :
    (s.closeIntent).mem = s.mem ∧ (s.closeIntent).pending = s.pending := by
  simp [State.closeIntent]

@[simp] theorem State.fuseLog_keeps (s : State) (code op rem bit : Nat) :
    (s.fuseLog code op rem bit).mem = s.mem ∧ (s.fuseLog code op rem bit).pending = s.pending := by
  simp [State.fuseLog]

@[simp] theorem State.fuseFail_keeps (s : State) :
    (s.fuseFail).mem = s.mem ∧ (s.fuseFail).pending = s.pending := by
  simp [State.fuseFail]

@[simp] theorem State.storeKey_keeps (s : State) (p : Nat) (x : Option SealX) :
    (s.storeKey p x).mem = s.mem ∧ (s.storeKey p x).pending = s.pending := by
  unfold State.storeKey
  (repeat' split) <;> simp

@[simp] theorem State.installKey_keeps (s : State) (p g : Nat) (prk : List Byte) :
    (s.installKey p g prk).mem = s.mem ∧ (s.installKey p g prk).pending = s.pending := by
  simp [State.installKey]

@[simp] theorem State.eraseKey_keeps (s : State) (p : Nat) :
    (s.eraseKey p).mem = s.mem ∧ (s.eraseKey p).pending = s.pending := by
  simp [State.eraseKey]

@[simp] theorem State.eraseCalSets_keeps (s : State) :
    s.eraseCalSets.mem = s.mem ∧ s.eraseCalSets.pending = s.pending := by
  simp [State.eraseCalSets]

@[simp] theorem State.toLifecycle_keeps (s : State) (op lc : Nat) :
    (s.toLifecycle op lc).1.mem = s.mem ∧ (s.toLifecycle op lc).1.pending = s.pending := by
  simp [State.toLifecycle]

@[simp] theorem State.toSlot_keeps (s : State) (op rem : Nat) (bits : List Nat) :
    (s.toSlot op rem bits).1.mem = s.mem ∧ (s.toSlot op rem bits).1.pending = s.pending := by
  unfold State.toSlot
  dsimp only
  simp

@[simp] theorem State.fuseRun_keeps (s : State) (op : Nat) (bits : List Nat) :
    (s.fuseRun op bits).1.mem = s.mem ∧ (s.fuseRun op bits).1.pending = s.pending := by
  unfold State.fuseRun
  dsimp only
  (repeat' split) <;> simp

@[simp] theorem State.fuseDone_keeps (s : State) :
    (s.fuseDone).1.mem = s.mem ∧ (s.fuseDone).1.pending = s.pending := by
  unfold State.fuseDone
  dsimp only
  (repeat' split) <;> simp

@[simp] theorem State.wlEffect_keeps (s : State) (op : Nat) :
    (s.wlEffect op).mem = s.mem ∧ (s.wlEffect op).pending = s.pending := by
  unfold State.wlEffect
  (repeat' split) <;> simp

@[simp] theorem State.wlGo_keeps (s : State) (op : Nat) :
    (s.wlGo op).mem = s.mem ∧ (s.wlGo op).pending = s.pending := by
  unfold State.wlGo
  dsimp only
  (repeat' split) <;> simp

@[simp] theorem State.writeWlCmd_keeps (s : State) (src : Req) (w : Word) :
    (s.writeWlCmd src w).1.mem = s.mem ∧ (s.writeWlCmd src w).1.pending = s.pending := by
  unfold State.writeWlCmd
  (repeat' split) <;> simp

@[simp] theorem State.newNonce_keeps (s : State) :
    (s.newNonce).mem = s.mem ∧ (s.newNonce).pending = s.pending := by
  simp [State.newNonce]

@[simp] theorem State.wlReport_keeps (s : State) (r : Nat) :
    (s.wlReport r).mem = s.mem ∧ (s.wlReport r).pending = s.pending := by
  unfold State.wlReport
  dsimp only
  simp

@[simp] theorem State.writeWlBuf_keeps (s : State) (src : Req) (i : Nat) (w : Word) :
    (s.writeWlBuf src i w).1.mem = s.mem ∧ (s.writeWlBuf src i w).1.pending = s.pending := by
  simp [State.writeWlBuf]

@[simp] theorem State.writeBatchCfg_keeps (s : State) (src : Req) (p : Nat) (w : Word) :
    (s.writeBatchCfg src p w).1.mem = s.mem ∧ (s.writeBatchCfg src p w).1.pending = s.pending := by
  simp [State.writeBatchCfg]

@[simp] theorem State.arbCommit_keeps (s : State) (src : Req) :
    (s.arbCommit src).mem = s.mem ∧ (s.arbCommit src).pending = s.pending := by
  simp [State.arbCommit]

@[simp] theorem State.writeWlArb_keeps (s : State) (src : Req) (w : Word) :
    (s.writeWlArb src w).1.mem = s.mem ∧ (s.writeWlArb src w).1.pending = s.pending := by
  simp [State.writeWlArb]

@[simp] theorem State.spdmSend_keeps (s : State) (code : Nat) (fields : List Nat) (data : List Byte) :
    (s.spdmSend code fields data).mem = s.mem ∧ (s.spdmSend code fields data).pending = s.pending := by
  simp [State.spdmSend]

@[simp] theorem State.spdmSigned_keeps (s : State) (code : Nat) (fields : List Nat) (data : List Byte) :
    (s.spdmSigned code fields data).mem = s.mem ∧ (s.spdmSigned code fields data).pending = s.pending := by
  simp [State.spdmSigned]

@[simp] theorem State.spdmErr_keeps (s : State) (e : Nat) :
    (s.spdmErr e).mem = s.mem ∧ (s.spdmErr e).pending = s.pending := by
  simp [State.spdmErr]

@[simp] theorem State.setSess_keeps (s : State) (i : Fin 2) (x : Option SessX) :
    (s.setSess i x).mem = s.mem ∧ (s.setSess i x).pending = s.pending := by
  simp [State.setSess]

/-! ### Housekeeping -/

@[simp] theorem State.setHk_keeps (s : State) (q : Nat) (x : HkX) :
    (s.setHk q x).mem = s.mem ∧ (s.setHk q x).pending = s.pending := by
  simp [State.setHk]

@[simp] theorem State.setSn_keeps (s : State) (q k : Nat) (x : SnX) :
    (s.setSn q k x).mem = s.mem ∧ (s.setSn q k x).pending = s.pending := by
  simp [State.setSn]

@[simp] theorem State.hkFlag_keeps (s : State) (q : Nat) (f : Fld) (v : Nat) :
    (s.hkFlag q f v).mem = s.mem ∧ (s.hkFlag q f v).pending = s.pending := by
  simp [State.hkFlag]

@[simp] theorem State.hkStore_keeps (s : State) (q : Nat) (r : Nat × Word × Int × Nat × Nat) :
    (s.hkStore q r).mem = s.mem ∧ (s.hkStore q r).pending = s.pending := by
  unfold State.hkStore
  dsimp only
  (repeat' split) <;> simp

@[simp] theorem State.hkResult_keeps (s : State) (q : Nat) (c : HkConv) (code : Int) (fl : Nat) :
    (s.hkResult q c code fl).mem = s.mem ∧ (s.hkResult q c code fl).pending = s.pending := by
  simp [State.hkResult]

@[simp] theorem State.snOpen_keeps (s : State) (q k gen : Nat) :
    (s.snOpen q k gen).mem = s.mem ∧ (s.snOpen q k gen).pending = s.pending := by
  simp [State.snOpen]

@[simp] theorem State.snBegin_keeps (s : State) (q k : Nat) :
    (s.snBegin q k).mem = s.mem ∧ (s.snBegin q k).pending = s.pending := by
  simp [State.snBegin]

@[simp] theorem State.snChecked_keeps (s : State) (q : Nat) :
    (s.snChecked q).mem = s.mem ∧ (s.snChecked q).pending = s.pending := by
  unfold State.snChecked
  (repeat' split) <;> simp

@[simp] theorem State.snFree_keeps (s : State) (q k : Nat) :
    (s.snFree q k).mem = s.mem ∧ (s.snFree q k).pending = s.pending := by
  simp [State.snFree]

@[simp] theorem State.hkShow_keeps (s : State) (q : Nat) :
    (s.hkShow q).mem = s.mem ∧ (s.hkShow q).pending = s.pending := by
  unfold State.hkShow
  split <;> simp

@[simp] theorem State.hkStart_keeps (s : State) (q : Nat) (c : HkConv) :
    (s.hkStart q c).mem = s.mem ∧ (s.hkStart q c).pending = s.pending := by
  simp [State.hkStart]

@[simp] theorem State.hkEnded_keeps (s : State) (q : Nat) (c : HkConv) :
    (s.hkEnded q c).mem = s.mem ∧ (s.hkEnded q c).pending = s.pending := by
  simp [State.hkEnded]

@[simp] theorem State.hkPassEnd_keeps (s : State) (q : Nat) :
    (s.hkPassEnd q).mem = s.mem ∧ (s.hkPassEnd q).pending = s.pending := by
  simp [State.hkPassEnd]

@[simp] theorem State.hkNext_keeps (s : State) (q x2 : Nat) :
    (s.hkNext q x2).mem = s.mem ∧ (s.hkNext q x2).pending = s.pending := by
  induction x2 generalizing s q <;> unfold State.hkNext <;> (try dsimp only) <;> (repeat' split) <;> simp [*]

@[simp] theorem State.hkGo_keeps (s : State) (q : Nat) :
    (s.hkGo q).mem = s.mem ∧ (s.hkGo q).pending = s.pending := by
  simp [State.hkGo]

@[simp] theorem State.hkResume_keeps (s : State) (q : Nat) (c : HkConv) :
    (s.hkResume q c).mem = s.mem ∧ (s.hkResume q c).pending = s.pending := by
  unfold State.hkResume
  dsimp only
  (repeat' split) <;> simp

@[simp] theorem State.hkDiscard_keeps (s : State) (q : Nat) (c : HkConv) :
    (s.hkDiscard q c).mem = s.mem ∧ (s.hkDiscard q c).pending = s.pending := by
  unfold State.hkDiscard
  dsimp only
  (repeat' split) <;> simp

@[simp] theorem State.hkPreempt_keeps (s : State) (q : Nat) :
    (s.hkPreempt q).mem = s.mem ∧ (s.hkPreempt q).pending = s.pending := by
  unfold State.hkPreempt
  split <;> simp

@[simp] theorem State.hkThermal_keeps (s : State) (q : Nat) :
    (s.hkThermal q).mem = s.mem ∧ (s.hkThermal q).pending = s.pending := by
  simp [State.hkThermal]

@[simp] theorem State.hkMiss_keeps (s : State) (q : Nat) (f : Fld) (gen : Nat) :
    (s.hkMiss q f gen).mem = s.mem ∧ (s.hkMiss q f gen).pending = s.pending := by
  simp [State.hkMiss]

@[simp] theorem State.hkBegin_keeps (s : State) (q gen : Nat) :
    (s.hkBegin q gen).mem = s.mem ∧ (s.hkBegin q gen).pending = s.pending := by
  simp [State.hkBegin]

@[simp] theorem State.hkStop_keeps (s : State) (q : Nat) :
    (s.hkStop q).mem = s.mem ∧ (s.hkStop q).pending = s.pending := by
  unfold State.hkStop
  dsimp only
  repeat' split
  all_goals simp

@[simp] theorem State.hkUrgent_keeps (s : State) (q gen : Nat) :
    (s.hkUrgent q gen).mem = s.mem ∧ (s.hkUrgent q gen).pending = s.pending := by
  simp [State.hkUrgent]

@[simp] theorem State.snChecks_keeps (s : State) (q gen : Nat) :
    (s.snChecks q gen).mem = s.mem ∧ (s.snChecks q gen).pending = s.pending := by
  simp [State.snChecks]

@[simp] theorem State.snGo_keeps (s : State) (q gen : Nat) :
    (s.snGo q gen).mem = s.mem ∧ (s.snGo q gen).pending = s.pending := by
  simp [State.snGo]

@[simp] theorem State.writeHkCtl_keeps (s : State) (src : Req) (q : Nat) (w : Word) :
    (s.writeHkCtl src q w).1.mem = s.mem ∧ (s.writeHkCtl src q w).1.pending = s.pending := by
  simp [State.writeHkCtl]

@[simp] theorem State.writeHkCfg_keeps (s : State) (src : Req) (q : Nat) (w : Word) :
    (s.writeHkCfg src q w).1.mem = s.mem ∧ (s.writeHkCfg src q w).1.pending = s.pending := by
  simp [State.writeHkCfg]

@[simp] theorem State.writeHkSeq_keeps (s : State) (src : Req) (q e : Nat) (w : Word) :
    (s.writeHkSeq src q e w).1.mem = s.mem ∧ (s.writeHkSeq src q e w).1.pending = s.pending := by
  simp [State.writeHkSeq]

@[simp] theorem State.writeHkUrg_keeps (s : State) (src : Req) (q : Nat) (w : Word) :
    (s.writeHkUrg src q w).1.mem = s.mem ∧ (s.writeHkUrg src q w).1.pending = s.pending := by
  simp [State.writeHkUrg]

@[simp] theorem State.writeSnCfg_keeps (s : State) (src : Req) (q k : Nat) (w : Word) :
    (s.writeSnCfg src q k w).1.mem = s.mem ∧ (s.writeSnCfg src q k w).1.pending = s.pending := by
  simp [State.writeSnCfg]

@[simp] theorem State.writeSnChk_keeps (s : State) (src : Req) (q : Nat) (w : Word) :
    (s.writeSnChk src q w).1.mem = s.mem ∧ (s.writeSnChk src q w).1.pending = s.pending := by
  simp [State.writeSnChk]

@[simp] theorem State.writeHkNow_keeps (s : State) (src : Req) (r : RegSpec) (ix : List Nat) (a : Nat) (w : Word) :
    (s.writeHkNow src r ix a w).1.mem = s.mem ∧ (s.writeHkNow src r ix a w).1.pending = s.pending := by
  unfold State.writeHkNow
  split <;> simp

@[simp] theorem State.writeHk_keeps (s : State) (src : Req) (r : RegSpec) (ix : List Nat) (a : Nat) (w : Word) :
    (s.writeHk src r ix a w).1.mem = s.mem ∧ (s.writeHk src r ix a w).1.pending = s.pending := by
  simp [State.writeHk]

@[simp] theorem State.hkTaskNow_keeps (s : State) (k gen : Nat) :
    (s.hkTaskNow k gen).mem = s.mem ∧ (s.hkTaskNow k gen).pending = s.pending := by
  simp [State.hkTaskNow]

@[simp] theorem State.hkTask_keeps (s : State) (k gen : Nat) :
    (s.hkTask k gen).mem = s.mem ∧ (s.hkTask k gen).pending = s.pending := by
  simp [State.hkTask]

@[simp] theorem State.hkDeliver_keeps (s : State) (q : Nat) :
    (s.hkDeliver q).mem = s.mem ∧ (s.hkDeliver q).pending = s.pending := by
  constructor <;> unfold State.hkDeliver <;>
    repeat' (first | simp | (refine foldl_mem _ (fun _ _ => ?_) _ _) | (refine foldl_pending _ (fun _ _ => ?_) _ _) | split)

@[simp] theorem State.hkTick_keeps (s : State) (q : Nat) :
    (s.hkTick q).mem = s.mem ∧ (s.hkTick q).pending = s.pending := by
  unfold State.hkTick
  split <;> simp

@[simp] theorem State.hkFinish_keeps (s : State) (q : Nat) (c : HkConv) (code : Int) (fl : Nat) :
    (s.hkFinish q c code fl).mem = s.mem ∧ (s.hkFinish q c code fl).pending = s.pending := by
  simp [State.hkFinish]

/-! ### Events -/

@[simp] theorem State.taskAct_keeps (s : State) (k g : Nat) :
    (s.taskAct k g).mem = s.mem ∧ (s.taskAct k g).pending = s.pending := by
  simp [State.taskAct]

@[simp] theorem State.taskFire_keeps (s : State) (k : Nat) (gens : List Nat) :
    (s.taskFire k gens).mem = s.mem ∧ (s.taskFire k gens).pending = s.pending := by
  unfold State.taskFire
  split <;> simp

@[simp] theorem State.fabric_keeps (s : State) (srcs : List Nat) :
    (s.fabric srcs).mem = s.mem ∧ (s.fabric srcs).pending = s.pending := by
  unfold State.fabric
  dsimp only
  (repeat' split) <;> simp

@[simp] theorem State.writeEvfFire_keeps (s : State) (src : Req) (w : Word) :
    (s.writeEvfFire src w).1.mem = s.mem ∧ (s.writeEvfFire src w).1.pending = s.pending := by
  simp [State.writeEvfFire]

@[simp] theorem State.writeEvfCh_keeps (s : State) (src : Req) (c : Nat) (w : Word) :
    (s.writeEvfCh src c w).1.mem = s.mem ∧ (s.writeEvfCh src c w).1.pending = s.pending := by
  simp [State.writeEvfCh]

/-! ### Power -/

@[simp] theorem State.modPower_keeps (s : State) (f : PowerX → PowerX) :
    (s.modPower f).mem = s.mem ∧ (s.modPower f).pending = s.pending := by
  simp [State.modPower]

@[simp] theorem State.letGo_keeps (s : State) :
    (s.letGo).mem = s.mem ∧ (s.letGo).pending = s.pending := by
  simp [State.letGo]

@[simp] theorem State.shutdown_keeps (s : State) (cause : Nat) :
    (s.shutdown cause).mem = s.mem ∧ (s.shutdown cause).pending = s.pending := by
  simp [State.shutdown]

@[simp] theorem State.writePmCtl_keeps (s : State) (src : Req) (w : Word) :
    (s.writePmCtl src w).1.mem = s.mem ∧ (s.writePmCtl src w).1.pending = s.pending := by
  simp [State.writePmCtl]

@[simp] theorem State.stagesOff_keeps (s : State) :
    (s.stagesOff).mem = s.mem ∧ (s.stagesOff).pending = s.pending := by
  simp [State.stagesOff]

@[simp] theorem State.railAge_keeps (s : State) (r ma : Nat) :
    (s.railAge r ma).mem = s.mem ∧ (s.railAge r ma).pending = s.pending := by
  simp [State.railAge]

@[simp] theorem State.meters_keeps (s : State) (mw mv ma : List Nat) :
    (s.meters mw mv ma).mem = s.mem ∧ (s.meters mw mv ma).pending = s.pending := by
  simp [State.meters]

@[simp] theorem State.cycles_keeps (s : State) :
    (s.cycles).mem = s.mem ∧ (s.cycles).pending = s.pending := by
  simp [State.cycles]

@[simp] theorem State.thermal_keeps (s : State) :
    (s.thermal).mem = s.mem ∧ (s.thermal).pending = s.pending := by
  simp [State.thermal]

@[simp] theorem State.setLevel_keeps (s : State) (l : Nat) :
    (s.setLevel l).mem = s.mem ∧ (s.setLevel l).pending = s.pending := by
  simp [State.setLevel]

@[simp] theorem State.writeThCtl_keeps (s : State) (src : Req) (w : Word) :
    (s.writeThCtl src w).1.mem = s.mem ∧ (s.writeThCtl src w).1.pending = s.pending := by
  simp [State.writeThCtl]

@[simp] theorem State.anchorTick_keeps (s : State) :
    (s.anchorTick).mem = s.mem ∧ (s.anchorTick).pending = s.pending := by
  simp [State.anchorTick]

@[simp] theorem State.anchor_keeps (s : State) (ds : List (Option Int)) :
    (s.anchor ds).mem = s.mem ∧ (s.anchor ds).pending = s.pending := by
  constructor <;> unfold State.anchor <;>
    repeat' (first | simp | (refine foldl_mem _ (fun _ _ => ?_) _ _) | (refine foldl_pending _ (fun _ _ => ?_) _ _) | split)

@[simp] theorem State.railFollow_keeps (s : State) :
    (s.railFollow).mem = s.mem ∧ (s.railFollow).pending = s.pending := by
  simp [State.railFollow]

@[simp] theorem State.domRaise_keeps (s : State) (d : Nat) :
    (s.domRaise d).mem = s.mem ∧ (s.domRaise d).pending = s.pending := by
  simp [State.domRaise]

@[simp] theorem State.emergency_keeps (s : State) (d : Nat) :
    (s.emergency d).mem = s.mem ∧ (s.emergency d).pending = s.pending := by
  simp [State.emergency]

@[simp] theorem State.writeAvsDom_keeps (s : State) (src : Req) (d : Nat) (w : Word) :
    (s.writeAvsDom src d w).1.mem = s.mem ∧ (s.writeAvsDom src d w).1.pending = s.pending := by
  simp [State.writeAvsDom]

@[simp] theorem State.islClamp_keeps (s : State) (t i : Nat) :
    (s.islClamp t i).mem = s.mem ∧ (s.islClamp t i).pending = s.pending := by
  unfold State.islClamp
  simp

@[simp] theorem State.writeIslLim_keeps (s : State) (src : Req) (t i : Nat) (w : Word) :
    (s.writeIslLim src t i w).1.mem = s.mem ∧ (s.writeIslLim src t i w).1.pending = s.pending := by
  simp [State.writeIslLim]

@[simp] theorem State.setConv_keeps (s : State) (t i : Nat) (x : ConvX) :
    (s.setConv t i x).mem = s.mem ∧ (s.setConv t i x).pending = s.pending := by
  simp [State.setConv]

@[simp] theorem State.modCal_keeps (s : State) (f : CalX → CalX) :
    (s.modCal f).mem = s.mem ∧ (s.modCal f).pending = s.pending := by
  simp [State.modCal]

@[simp] theorem State.markFailed_keeps (s : State) (t q : Nat) :
    (s.markFailed t q).mem = s.mem ∧ (s.markFailed t q).pending = s.pending := by
  simp [State.markFailed]

@[simp] theorem State.seqFails_keeps (s : State) (t q : Nat) :
    (s.seqFails t q).mem = s.mem ∧ (s.seqFails t q).pending = s.pending := by
  simp [State.seqFails]

@[simp] theorem State.selfTest_keeps (s : State) (t u : Nat) (r : CalResult) :
    (s.selfTest t u r).mem = s.mem ∧ (s.selfTest t u r).pending = s.pending := by
  unfold State.selfTest
  (repeat' split) <;> simp

@[simp] theorem State.calTask_keeps (s : State) (t u : Nat) (r : CalResult) :
    (s.calTask t u r).mem = s.mem ∧ (s.calTask t u r).pending = s.pending := by
  simp [State.calTask]

@[simp] theorem State.calDevice_keeps (s : State) (n : Nat) (r : CalResult) :
    (s.calDevice n r).mem = s.mem ∧ (s.calDevice n r).pending = s.pending := by
  simp [State.calDevice]

@[simp] theorem State.slotTaskRun_keeps (s : State) (t : Nat) (r : CalResult) :
    (s.slotTaskRun t r).mem = s.mem ∧ (s.slotTaskRun t r).pending = s.pending := by
  unfold State.slotTaskRun
  dsimp only
  (repeat' split) <;> simp

@[simp] theorem State.slotTasks_keeps (s : State) (p : Nat) (results : List CalResult) :
    (s.slotTasks p results).mem = s.mem ∧ (s.slotTasks p results).pending = s.pending := by
  unfold State.slotTasks
  simp

@[simp] theorem State.calSave_keeps (s : State) :
    (s.calSave).mem = s.mem ∧ (s.calSave).pending = s.pending := by
  simp [State.calSave]

@[simp] theorem State.calRestore_keeps (s : State) :
    (s.calRestore).mem = s.mem ∧ (s.calRestore).pending = s.pending := by
  unfold State.calRestore
  dsimp only
  repeat' split
  all_goals simp

@[simp] theorem State.bootTile_keeps (s : State) (t u : Nat) (rs : List CalResult) :
    (s.bootTile t u rs).mem = s.mem ∧ (s.bootTile t u rs).pending = s.pending := by
  induction rs generalizing s u <;> simp [State.bootTile, *]

@[simp] theorem State.bootDevices_keeps (s : State) (u : Nat) (rs : List CalResult) :
    (s.bootDevices u rs).mem = s.mem ∧ (s.bootDevices u rs).pending = s.pending := by
  induction rs generalizing s u <;> simp [State.bootDevices, *]

@[simp] theorem State.writeCalCtl_keeps (s : State) (src : Req) (w : Word) :
    (s.writeCalCtl src w).1.mem = s.mem ∧ (s.writeCalCtl src w).1.pending = s.pending := by
  simp [State.writeCalCtl]

@[simp] theorem State.onTimes_keeps (s : State) (t : Nat) :
    (s.onTimes t).mem = s.mem ∧ (s.onTimes t).pending = s.pending := by
  simp [State.onTimes]

@[simp] theorem State.secondTick_keeps (s : State) :
    (s.secondTick).mem = s.mem ∧ (s.secondTick).pending = s.pending := by
  simp [State.secondTick]

/-! ### Views -/

@[simp] theorem State.latchFrom_keeps (s : State) (r : Reg) (ix : List Nat) (a : Nat) :
    (s.latchFrom r ix a).mem = s.mem ∧ (s.latchFrom r ix a).pending = s.pending := by
  unfold State.latchFrom
  dsimp only
  repeat' split
  all_goals simp

@[simp] theorem State.latchedRead_keeps (s : State) (r : Reg) (ix : List Nat) (a : Nat) :
    (s.latchedRead r ix a).1.mem = s.mem ∧ (s.latchedRead r ix a).1.pending = s.pending := by
  unfold State.latchedRead
  dsimp only
  repeat' split
  all_goals simp

@[simp] theorem State.clearRC_keeps (s : State) (r : RegSpec) (a : Nat) :
    (s.clearRC r a).mem = s.mem ∧ (s.clearRC r a).pending = s.pending := by
  unfold State.clearRC
  split <;> simp

@[simp] theorem State.regReadOk_keeps (s : State) (r : RegSpec) (ix : List Nat) (a : Nat) :
    (s.regReadOk r ix a).1.mem = s.mem ∧ (s.regReadOk r ix a).1.pending = s.pending := by
  unfold State.regReadOk
  split <;> simp

@[simp] theorem State.regRead_keeps (s : State) (src : Req) (a : Nat) :
    (s.regRead src a).1.mem = s.mem ∧ (s.regRead src a).1.pending = s.pending := by
  unfold State.regRead
  dsimp only
  repeat' split
  all_goals simp

@[simp] theorem State.hostRead_keeps (s : State) (win : Window) (off size : Nat) :
    (s.hostRead win off size).mem = s.mem ∧ (s.hostRead win off size).pending = s.pending := by
  unfold State.hostRead
  dsimp only
  split <;> simp

/-! ### Registers -/

@[simp] theorem State.writeXb_keeps (s : State) (src : Req) (t n : Nat) (w : Word) :
    (s.writeXb src t n w).1.mem = s.mem ∧ (s.writeXb src t n w).1.pending = s.pending := by
  simp [State.writeXb]

@[simp] theorem State.writePlace_keeps (s : State) (src : Req) (t : Nat) (w : Word) :
    (s.writePlace src t w).1.mem = s.mem ∧ (s.writePlace src t w).1.pending = s.pending := by
  unfold State.writePlace
  dsimp only
  repeat' split
  all_goals simp

@[simp] theorem State.writeErrAddr_keeps (s : State) (src : Req) (w : Word) :
    (s.writeErrAddr src w).1.mem = s.mem ∧ (s.writeErrAddr src w).1.pending = s.pending := by
  exact ⟨State.write_mem _ _ _ _ _ _ _ fun x y h => by subst h; (repeat' split) <;> simp,
    State.write_pending _ _ _ _ _ _ _ fun x y h => by subst h; (repeat' split) <;> simp⟩

@[simp] theorem State.powerWrite_keeps (s : State) (src : Req) (r : RegSpec) (ix : List Nat) (a : Nat) (w : Word) :
    (s.powerWrite src r ix a w).1.mem = s.mem ∧ (s.powerWrite src r ix a w).1.pending = s.pending := by
  unfold State.powerWrite
  split <;> simp

@[simp] theorem State.netWrite_keeps (s : State) (src : Req) (r : RegSpec) (ix : List Nat) (a : Nat) (w : Word) :
    (s.netWrite src r ix a w).1.mem = s.mem ∧ (s.netWrite src r ix a w).1.pending = s.pending := by
  unfold State.netWrite
  split <;> simp

@[simp] theorem State.hostWrites_keeps (s : State) (src : Req) (r : RegSpec) (ix : List Nat) (a : Nat) (w : Word) :
    (s.hostWrites src r ix a w).1.mem = s.mem ∧ (s.hostWrites src r ix a w).1.pending = s.pending := by
  unfold State.hostWrites
  split <;> simp

@[simp] theorem State.linkWrite_keeps (s : State) (src : Req) (r : RegSpec) (ix : List Nat) (a : Nat) (w : Word) :
    (s.linkWrite src r ix a w).1.mem = s.mem ∧ (s.linkWrite src r ix a w).1.pending = s.pending := by
  unfold State.linkWrite
  split <;> simp

@[simp] theorem State.readoutWrite_keeps (s : State) (src : Req) (r : RegSpec) (ix : List Nat) (a : Nat) (w : Word) :
    (s.readoutWrite src r ix a w).1.mem = s.mem ∧ (s.readoutWrite src r ix a w).1.pending = s.pending := by
  unfold State.readoutWrite
  split <;> simp

@[simp] theorem State.biasWrite_keeps (s : State) (src : Req) (r : RegSpec) (ix : List Nat) (a : Nat) (w : Word) :
    (s.biasWrite src r ix a w).1.mem = s.mem ∧ (s.biasWrite src r ix a w).1.pending = s.pending := by
  unfold State.biasWrite
  split <;> simp

@[simp] theorem State.playoutWrite_keeps (s : State) (src : Req) (r : RegSpec) (ix : List Nat) (a : Nat) (w : Word) :
    (s.playoutWrite src r ix a w).1.mem = s.mem ∧ (s.playoutWrite src r ix a w).1.pending = s.pending := by
  unfold State.playoutWrite
  split <;> simp

@[simp] theorem State.timelineWrite_keeps (s : State) (src : Req) (r : RegSpec) (ix : List Nat) (a : Nat) (w : Word) :
    (s.timelineWrite src r ix a w).1.mem = s.mem ∧ (s.timelineWrite src r ix a w).1.pending = s.pending := by
  unfold State.timelineWrite
  split <;> simp

@[simp] theorem State.blockWrite_keeps (s : State) (src : Req) (r : RegSpec) (ix : List Nat) (a : Nat) (w : Word) :
    (s.blockWrite src r ix a w).1.mem = s.mem ∧ (s.blockWrite src r ix a w).1.pending = s.pending := by
  simp [State.blockWrite]

@[simp] theorem State.hostMemRead_keeps (s : State) (off n : Nat) :
    (s.hostMemRead off n).mem = s.mem ∧ (s.hostMemRead off n).pending = s.pending := by
  unfold State.hostMemRead
  split <;> simp

@[simp] theorem State.hostConfigRead_keeps (s : State) (off : Nat) :
    (s.hostConfigRead off).mem = s.mem ∧ (s.hostConfigRead off).pending = s.pending := by
  unfold State.hostConfigRead
  dsimp only
  simp

/-! ### Loader -/

@[simp] theorem State.takeRole_keeps (s : State) (t q x : Nat) :
    (s.takeRole t q x).mem = s.mem ∧ (s.takeRole t q x).pending = s.pending := by
  simp [State.takeRole]

@[simp] theorem State.rescue_keeps (s : State) (t q : Nat) :
    (s.rescue t q).mem = s.mem ∧ (s.rescue t q).pending = s.pending := by
  unfold State.rescue
  dsimp only
  repeat' split
  all_goals simp

@[simp] theorem State.maskTilesOn_keeps (s : State) (m : Nat) :
    (s.maskTilesOn m).mem = s.mem ∧ (s.maskTilesOn m).pending = s.pending := by
  simp [State.maskTilesOn]

@[simp] theorem State.tidyPlots_keeps (s : State) :
    (s.tidyPlots).mem = s.mem ∧ (s.tidyPlots).pending = s.pending := by
  simp [State.tidyPlots]

@[simp] theorem State.capture_keeps (s c : State) :
    (s.capture c).mem = s.mem ∧ (s.capture c).pending = s.pending := by
  simp [State.capture]

@[simp] theorem State.idleSeqs_keeps (s : State) (ks : List Nat) :
    (s.idleSeqs ks).mem = s.mem ∧ (s.idleSeqs ks).pending = s.pending := by
  simp [State.idleSeqs]

@[simp] theorem State.backSeqs_keeps (s : State) (ks fs : List Nat) :
    (s.backSeqs ks fs).mem = s.mem ∧ (s.backSeqs ks fs).pending = s.pending := by
  unfold State.backSeqs
  dsimp only
  simp

@[simp] theorem State.beginHold_keeps (s : State) (h : HoldX) :
    (s.beginHold h).mem = s.mem ∧ (s.beginHold h).pending = s.pending := by
  unfold State.beginHold
  dsimp only
  split <;> simp

@[simp] theorem State.endHold_keeps (s : State) (h : HoldX) :
    (s.endHold h).mem = s.mem ∧ (s.endHold h).pending = s.pending := by
  simp [State.endHold]

@[simp] theorem State.setLd_keeps (s : State) (n : Nat) :
    (s.setLd n).mem = s.mem ∧ (s.setLd n).pending = s.pending := by
  simp [State.setLd]

@[simp] theorem State.setImg_keeps (s : State) (g : Option ImgX) :
    (s.setImg g).mem = s.mem ∧ (s.setImg g).pending = s.pending := by
  simp [State.setImg]

@[simp] theorem State.patchClear_keeps (s : State) (t : Nat) :
    (s.patchClear t).mem = s.mem ∧ (s.patchClear t).pending = s.pending := by
  simp [State.patchClear]

@[simp] theorem State.configTiles_keeps (s : State) :
    (s.configTiles).mem = s.mem ∧ (s.configTiles).pending = s.pending := by
  simp [State.configTiles]

@[simp] theorem State.installKeys_keeps (s : State) (ks : List (Nat × Nat × List Byte)) :
    (s.installKeys ks).mem = s.mem ∧ (s.installKeys ks).pending = s.pending := by
  simp [State.installKeys]

@[simp] theorem State.refuseSts_keeps (s : State) (reason : Nat) :
    (s.refuseSts reason).mem = s.mem ∧ (s.refuseSts reason).pending = s.pending := by
  simp [State.refuseSts]

@[simp] theorem State.tellCapsule_keeps (s : State) (g : ImgX) (status detail : Nat) :
    (s.tellCapsule g status detail).mem = s.mem ∧ (s.tellCapsule g status detail).pending = s.pending := by
  unfold State.tellCapsule
  dsimp only
  repeat' split
  all_goals simp

@[simp] theorem State.nextSlot_keeps (s : State) :
    (s.nextSlot).mem = s.mem ∧ (s.nextSlot).pending = s.pending := by
  unfold State.nextSlot
  split <;> simp

@[simp] theorem State.refuseImg_keeps (s : State) (g : ImgX) (reason : Nat) :
    (s.refuseImg g reason).mem = s.mem ∧ (s.refuseImg g reason).pending = s.pending := by
  unfold State.refuseImg
  split <;> simp

@[simp] theorem State.mirrorImage_keeps (s : State) (g : ImgX) :
    (s.mirrorImage g).mem = s.mem ∧ (s.mirrorImage g).pending = s.pending := by
  simp [State.mirrorImage]

@[simp] theorem State.partialDone_keeps (s : State) (g : ImgX) :
    (s.partialDone g).mem = s.mem ∧ (s.partialDone g).pending = s.pending := by
  simp [State.partialDone]

@[simp] theorem State.waitImg_keeps (s : State) (g : ImgX) :
    (s.waitImg g).mem = s.mem ∧ (s.waitImg g).pending = s.pending := by
  unfold State.waitImg
  dsimp only
  split <;> simp

@[simp] theorem State.fullVerified_keeps (s : State) (g : ImgX) :
    (s.fullVerified g).mem = s.mem ∧ (s.fullVerified g).pending = s.pending := by
  simp [State.fullVerified]

/-! ### Images -/

@[simp] theorem State.stageRead_keeps (s : State) :
    (s.stageRead).mem = s.mem ∧ (s.stageRead).pending = s.pending := by
  simp [State.stageRead]

@[simp] theorem State.stageFetch_keeps (s : State) (g : ImgX) :
    (s.stageFetch g).mem = s.mem ∧ (s.stageFetch g).pending = s.pending := by
  simp [State.stageFetch]

@[simp] theorem State.loadImage_keeps (s : State) :
    (s.loadImage).mem = s.mem ∧ (s.loadImage).pending = s.pending := by
  simp [State.loadImage]

@[simp] theorem State.applyImage_keeps (s : State) :
    (s.applyImage).mem = s.mem ∧ (s.applyImage).pending = s.pending := by
  simp [State.applyImage]

@[simp] theorem State.cancelImage_keeps (s : State) :
    (s.cancelImage).mem = s.mem ∧ (s.cancelImage).pending = s.pending := by
  unfold State.cancelImage
  split <;> simp

@[simp] theorem State.cfgCmd_keeps (s : State) (w : Word) :
    (s.cfgCmd w).mem = s.mem ∧ (s.cfgCmd w).pending = s.pending := by
  simp [State.cfgCmd]

@[simp] theorem State.writeCfgCtl_keeps (s : State) (src : Req) (w : Word) :
    (s.writeCfgCtl src w).1.mem = s.mem ∧ (s.writeCfgCtl src w).1.pending = s.pending := by
  simp [State.writeCfgCtl]

@[simp] theorem State.imgThere_keeps (s : State) (g : ImgX) (b : List Byte) :
    (s.imgThere g b).mem = s.mem ∧ (s.imgThere g b).pending = s.pending := by
  simp [State.imgThere]

@[simp] theorem State.slotRead_keeps (s : State) (g : ImgX) (n : Nat) (bytes : List Byte) (sfdp : Option (Byte × Byte)) :
    (s.slotRead g n bytes sfdp).mem = s.mem ∧ (s.slotRead g n bytes sfdp).pending = s.pending := by
  unfold State.slotRead
  split <;> simp

@[simp] theorem State.fetchDone_keeps (s : State) (g : ImgX) (bytes : List Byte) (sfdp : Option (Byte × Byte)) :
    (s.fetchDone g bytes sfdp).mem = s.mem ∧ (s.fetchDone g bytes sfdp).pending = s.pending := by
  unfold State.fetchDone
  split <;> simp

@[simp] theorem State.setImgSrc_keeps (s : State) (n : Nat) :
    (s.setImgSrc n).mem = s.mem ∧ (s.setImgSrc n).pending = s.pending := by
  simp [State.setImgSrc]

@[simp] theorem State.linksStart_keeps (s : State) :
    (s.linksStart).mem = s.mem ∧ (s.linksStart).pending = s.pending := by
  unfold State.linksStart
  simp

@[simp] theorem State.bootEnd_keeps (s : State) :
    (s.bootEnd).mem = s.mem ∧ (s.bootEnd).pending = s.pending := by
  simp [State.bootEnd]

@[simp] theorem State.markLoaded_keeps (s : State) (x1 : ImgSrc) :
    (s.markLoaded x1).mem = s.mem ∧ (s.markLoaded x1).pending = s.pending := by
  unfold State.markLoaded
  split <;> simp

@[simp] theorem State.holdEnd_keeps (s : State) (h : HoldX) :
    (s.holdEnd h).mem = s.mem ∧ (s.holdEnd h).pending = s.pending := by
  unfold State.holdEnd
  dsimp only
  repeat' split
  all_goals simp

@[simp] theorem State.holdTick_keeps (s : State) :
    (s.holdTick).mem = s.mem ∧ (s.holdTick).pending = s.pending := by
  unfold State.holdTick
  split <;> simp

@[simp] theorem State.writeHenCtl_keeps (s : State) (src : Req) (w : Word) :
    (s.writeHenCtl src w).1.mem = s.mem ∧ (s.writeHenCtl src w).1.pending = s.pending := by
  simp [State.writeHenCtl]

@[simp] theorem State.henBack_keeps (s : State) :
    (s.henBack).mem = s.mem ∧ (s.henBack).pending = s.pending := by
  simp [State.henBack]

@[simp] theorem State.henTick_keeps (s : State) :
    (s.henTick).mem = s.mem ∧ (s.henTick).pending = s.pending := by
  unfold State.henTick
  split <;> simp

@[simp] theorem State.flashStart_keeps (s : State) (slot : Nat) :
    (s.flashStart slot).mem = s.mem ∧ (s.flashStart slot).pending = s.pending := by
  simp [State.flashStart]

@[simp] theorem State.writeFlashCtl_keeps (s : State) (src : Req) (w : Word) :
    (s.writeFlashCtl src w).1.mem = s.mem ∧ (s.writeFlashCtl src w).1.pending = s.pending := by
  simp [State.writeFlashCtl]

@[simp] theorem State.flashProgram_keeps (s : State) (slot : Nat) (b : List Byte) :
    (s.flashProgram slot b).mem = s.mem ∧ (s.flashProgram slot b).pending = s.pending := by
  simp [State.flashProgram]

/-! ### Access -/

@[simp] theorem State.regWrite_keeps (s : State) (src : Req) (a : Nat) (w : Word) :
    (s.regWrite src a w).1.mem = s.mem ∧ (s.regWrite src a w).1.pending = s.pending := by
  constructor <;> unfold State.regWrite <;>
    repeat' (first | simp | (refine foldl_mem _ (fun _ _ => ?_) _ _) | (refine foldl_pending _ (fun _ _ => ?_) _ _) | split)

@[simp] theorem State.hostPut_keeps (s : State) (win : Window) (off size : Nat) (w : Word) :
    (s.hostPut win off size w).1.mem = s.mem ∧ (s.hostPut win off size w).1.pending = s.pending := by
  simp [State.hostPut]

/-! ### Capsules -/

@[simp] theorem State.setCap_keeps (s : State) (p : Nat) (c : CapX) :
    (s.setCap p c).mem = s.mem ∧ (s.setCap p c).pending = s.pending := by
  simp [State.setCap]

@[simp] theorem State.capNext_keeps (s : State) (p : Nat) (c : CapX) (b : List Byte) (len : Nat) :
    (s.capNext p c b len).mem = s.mem ∧ (s.capNext p c b len).pending = s.pending := by
  simp [State.capNext]

@[simp] theorem State.capFail_keeps (s : State) (p : Nat) (c : CapX) (status detail : Nat) :
    (s.capFail p c status detail).mem = s.mem ∧ (s.capFail p c status detail).pending = s.pending := by
  simp [State.capFail]

@[simp] theorem State.capRegs_keeps (s : State) (src : Req) (a : Nat) (ws : List Word) :
    (s.capRegs src a ws).1.mem = s.mem ∧ (s.capRegs src a ws).1.pending = s.pending := by
  induction ws generalizing s a with
  | nil => simp [State.capRegs]
  | cons w ws ih =>
    unfold State.capRegs
    dsimp only
    repeat' split
    all_goals simp [ih]

@[simp] theorem State.capReads_keeps (s : State) (src : Req) (a x3 : Nat) :
    (s.capReads src a x3).1.mem = s.mem ∧ (s.capReads src a x3).1.pending = s.pending := by
  induction x3 generalizing s src a <;> simp [State.capReads, *]

@[simp] theorem State.handImage_keeps (s : State) (p : Nat) (c : CapX) (header : List Byte) :
    (s.handImage p c header).mem = s.mem ∧ (s.handImage p c header).pending = s.pending := by
  unfold State.handImage
  dsimp only
  repeat' split
  all_goals simp

@[simp] theorem State.refAbort_keeps (s : State) (p : Nat) :
    (s.refAbort p).mem = s.mem ∧ (s.refAbort p).pending = s.pending := by
  unfold State.refAbort
  split <;> simp

@[simp] theorem State.flashAbort_keeps (s : State) :
    (s.flashAbort).mem = s.mem ∧ (s.flashAbort).pending = s.pending := by
  unfold State.flashAbort
  split <;> simp

@[simp] theorem State.stageAbort_keeps (s : State) :
    (s.stageAbort).mem = s.mem ∧ (s.stageAbort).pending = s.pending := by
  unfold State.stageAbort
  repeat' split
  all_goals simp

@[simp] theorem State.readFails_keeps (s : State) (rd : DmaRead) :
    (s.readFails rd).mem = s.mem ∧ (s.readFails rd).pending = s.pending := by
  unfold State.readFails
  (repeat' split) <;> simp

@[simp] theorem State.interfaceReset_keeps (s : State) :
    (s.interfaceReset).mem = s.mem ∧ (s.interfaceReset).pending = s.pending := by
  simp [State.interfaceReset]

/-! ### Startup -/

@[simp] theorem State.keepFld_keeps (s old : State) (a : Nat) (f : Fld) :
    (s.keepFld old a f).mem = s.mem ∧ (s.keepFld old a f).pending = s.pending := by
  simp [State.keepFld]

@[simp] theorem State.fuseState_keeps (s old : State) (debug : Bool) :
    (s.fuseState old debug).mem = s.mem ∧ (s.fuseState old debug).pending = s.pending := by
  simp [State.fuseState]

@[simp] theorem State.keepPins_keeps (s old : State) :
    (s.keepPins old).mem = s.mem ∧ (s.keepPins old).pending = s.pending := by
  simp [State.keepPins]

@[simp] theorem State.keepAlways_keeps (s old : State) :
    (s.keepAlways old).mem = s.mem ∧ (s.keepAlways old).pending = old.pending := ⟨rfl, rfl⟩

@[simp] theorem State.keepWarm_keeps (s old : State) :
    (s.keepWarm old).mem = s.mem ∧ (s.keepWarm old).pending = s.pending := by
  simp [State.keepWarm]

@[simp] theorem State.keysRestore_keeps (s : State) :
    (s.keysRestore).mem = s.mem ∧ (s.keysRestore).pending = s.pending := by
  unfold State.keysRestore
  split
  · simp
  · exact ⟨foldl_mem _ (fun s p => by (repeat' split) <;> simp) _ _, foldl_pending _ (fun s p => by (repeat' split) <;> simp) _ _⟩

@[simp] theorem State.intentDone_keeps (s : State) :
    (s.intentDone).mem = s.mem ∧ (s.intentDone).pending = s.pending := by
  simp [State.intentDone]

@[simp] theorem State.rootKey_keeps (s : State) :
    (s.rootKey).mem = s.mem ∧ (s.rootKey).pending = s.pending := by
  simp [State.rootKey]

@[simp] theorem State.timersStart_keeps (s : State) :
    (s.timersStart).mem = s.mem ∧ (s.timersStart).pending = s.pending := by
  simp [State.timersStart]

@[simp] theorem State.powerUpLog_keeps (s : State) :
    (s.powerUpLog).mem = s.mem ∧ (s.powerUpLog).pending = s.pending := by
  unfold State.powerUpLog
  dsimp only
  repeat' split
  all_goals simp

@[simp] theorem State.bootSelect_keeps (s : State) :
    (s.bootSelect).mem = s.mem ∧ (s.bootSelect).pending = s.pending := by
  simp [State.bootSelect]

@[simp] theorem State.henStart_keeps (s : State) :
    (s.henStart).mem = s.mem ∧ (s.henStart).pending = s.pending := by
  simp [State.henStart]

@[simp] theorem State.startUp_keeps (s : State) :
    (s.startUp).mem = s.mem ∧ (s.startUp).pending = s.pending := by
  unfold State.startUp
  dsimp only
  (repeat' split) <;> simp

@[simp] theorem State.straps_keeps (s : State) (bootSel pairRole : Nat) :
    (s.straps bootSel pairRole).mem = s.mem ∧ (s.straps bootSel pairRole).pending = s.pending := by
  simp [State.straps]

@[simp] theorem State.trainDone_keeps (s : State) (cbr blk : Nat) :
    (s.trainDone cbr blk).mem = s.mem ∧ (s.trainDone cbr blk).pending = s.pending := by
  simp [State.trainDone]

@[simp] theorem State.refGone_keeps (s : State) :
    (s.refGone).mem = s.mem ∧ (s.refGone).pending = s.pending := by
  simp [State.refGone]

@[simp] theorem State.laneRefGone_keeps (s : State) (k : Nat) :
    (s.laneRefGone k).mem = s.mem ∧ (s.laneRefGone k).pending = s.pending := by
  simp [State.laneRefGone]

@[simp] theorem State.jtagSelect_keeps (s : State) (ir : Nat) :
    (s.jtagSelect ir).mem = s.mem ∧ (s.jtagSelect ir).pending = s.pending := by
  simp [State.jtagSelect]

@[simp] theorem State.jtagOut_keeps (s : State) (bits : List Bool) :
    (s.jtagOut bits).mem = s.mem ∧ (s.jtagOut bits).pending = s.pending := by
  simp [State.jtagOut]

@[simp] theorem State.jtagCells_keeps (s : State) (ir : Nat) (cells : List Bool) :
    (s.jtagCells ir cells).mem = s.mem ∧ (s.jtagCells ir cells).pending = s.pending := by
  simp [State.jtagCells]

/-! ### Tick -/

@[simp] theorem State.envTick_keeps (s : State) (t n : Nat) :
    (s.envTick t n).mem = s.mem ∧ (s.envTick t n).pending = s.pending := by
  simp [State.envTick]

@[simp] theorem State.xyClip_keeps (s : State) (t o : Nat) :
    (s.xyClip t o).mem = s.mem ∧ (s.xyClip t o).pending = s.pending := by
  simp [State.xyClip]

@[simp] theorem State.probeClip_keeps (s : State) (t : Nat) :
    (s.probeClip t).mem = s.mem ∧ (s.probeClip t).pending = s.pending := by
  simp [State.probeClip]

@[simp] theorem State.zeroTick_keeps (s : State) (t f : Nat) :
    (s.zeroTick t f).mem = s.mem ∧ (s.zeroTick t f).pending = s.pending := by
  simp [State.zeroTick]

@[simp] theorem State.tileTick_keeps (s : State) (t : Nat) :
    (s.tileTick t).mem = s.mem ∧ (s.tileTick t).pending = s.pending := by
  simp [State.tileTick]

@[simp] theorem State.tilesTick_keeps (s : State) :
    (s.tilesTick).mem = s.mem ∧ (s.tilesTick).pending = s.pending := by
  simp [State.tilesTick]

@[simp] theorem State.clocksTick_keeps (s : State) :
    (s.clocksTick).mem = s.mem ∧ (s.clocksTick).pending = s.pending := by
  simp [State.clocksTick]

/-! ### Step -/

@[simp] theorem State.withFetchWord_mem (s : State) (nbits w : Nat) : (s.withFetchWord nbits w).mem = s.mem := by
  unfold State.withFetchWord; split <;> rfl

end Sys2Proof.Machine
end

