-- ==== Sys2Proof/Laws/Rows.lean ====
section
/-! SUPPORT. What the shared forms of a row come to: the outcome is a next state that satisfies a property. -/

namespace Sys2Proof.Machine

/-- A command's outcome is a next state that satisfies `P`. -/
def Sat (P : State → Prop) : Res → Prop
  | .next t => P t
  | _ => False

theorem sat_iff (P : State → Prop) (r : Res) : Sat P r ↔ ∃ t, r = .next t ∧ P t := by
  cases r <;> simp [Sat]

@[simp] theorem sat_next (P : State → Prop) (t : State) : Sat P (.next t) ↔ P t := Iff.rfl

@[simp] theorem sat_ite (P : State → Prop) (c : Prop) [Decidable c] (r r' : Res) :
    Sat P (if c then r else r') ↔ if c then Sat P r else Sat P r' := by split <;> rfl

@[simp] theorem sat_onlyIf (P : State → Prop) (c : Bool) (s t : State) :
    Sat P (onlyIf c s t) ↔ if c then P t else P s := by cases c <;> rfl

theorem onlyIf_true (c : Bool) (s t : State) (h : c = true) : onlyIf c s t = .next t := by simp [onlyIf, h]

theorem onlyIf_false (c : Bool) (s t : State) (h : c = false) : onlyIf c s t = .next s := by simp [onlyIf, h]

/-- What every command but those that write the memory window leaves alone. -/
def Keeps (s t : State) : Prop := t.mem = s.mem ∧ t.pending = s.pending

theorem keeps_iff (s t : State) : Keeps s t ↔ t.mem = s.mem ∧ t.pending = s.pending := Iff.rfl

end Sys2Proof.Machine
end

