-- ==== Sys2Proof/Laws/Memory.lean ====
section
/-! SUPPORT. The operations that write the memory window keep its canonical form, and the queue. -/

namespace Sys2Proof.Machine

/-- What every command leaves right: the memory stays canonical, and the queue is as it was. -/
def Stays (s t : State) : Prop := (Memory.wf s.mem = true → Memory.wf t.mem = true) ∧ t.pending = s.pending

theorem Stays.refl (s : State) : Stays s s := ⟨id, rfl⟩

theorem Stays.trans {s t u : State} (h : Stays s t) (k : Stays t u) : Stays s u :=
  ⟨fun w => k.1 (h.1 w), k.2.trans h.2⟩

/-- What leaves the memory alone leaves it right. -/
theorem Stays.of_keeps {s t : State} (h : t.mem = s.mem ∧ t.pending = s.pending) : Stays s t :=
  ⟨fun w => by rw [h.1]; exact w, h.2⟩

theorem Stays.then {s t u : State} (h : Stays s t) (k : u.mem = t.mem ∧ u.pending = t.pending) : Stays s u :=
  h.trans (.of_keeps k)

theorem Stays.foldl {α : Type} (g : State → α → State) (h : ∀ s x, Stays s (g s x)) (l : List α) (s : State) :
    Stays s (l.foldl g s) := by
  induction l generalizing s with
  | nil => exact Stays.refl s
  | cons x l ih => exact (h s x).trans (ih _)

theorem State.stays_setBytes (s : State) (a : Nat) (bs : List Byte) : Stays s (s.setBytes a bs) := by
  refine ⟨s.wf_setBytes a bs, ?_⟩
  induction bs generalizing s a with
  | nil => rfl
  | cons x bs ih => exact ih _ _

theorem State.stays_setWord (s : State) (a : Nat) (w : Word) : Stays s (s.setWord a w) := s.stays_setBytes a _

theorem State.stays_putSamples (s : State) (t i : Nat) (ws : List Word) : Stays s (s.putSamples t i ws) := by
  induction ws generalizing s i with
  | nil => exact Stays.refl s
  | cons w ws ih => exact (s.stays_setWord _ w).trans (ih _ _)

theorem State.stays_memWrite (s : State) (src : Req) (a : Nat) (data : List Byte) :
    Stays s (s.memWrite src a data).1 := by
  unfold State.memWrite
  split
  · exact Stays.refl s
  · split
    · exact Stays.refl s
    · exact s.stays_setBytes a data

theorem State.stays_stageUnit (s : State) (u : UnitWrite) : Stays s (s.stageUnit u) := by
  cases u with
  | mem a v => exact s.stays_setWord a v
  | reg a v =>
    unfold State.stageUnit
    dsimp only
    repeat' split
    all_goals exact .of_keeps (by simp)

theorem State.stays_applyUnit (boot : Bool) (s : State) (u : UnitWrite) : Stays s (s.applyUnit boot u) := by
  cases u with
  | mem a v => exact s.stays_setWord a v
  | reg a v =>
    unfold State.applyUnit
    dsimp only
    split
    · exact Stays.refl s
    · split
      all_goals
        first
        | exact s.stays_stageUnit _
        | (refine .of_keeps ?_; simp; done)
        | (refine (s.stays_stageUnit (.reg a v)).then ?_; simp; done)
        | (split <;> first | exact s.stays_stageUnit _ | (refine .of_keeps ?_; simp))

theorem State.stays_applyUnits (s : State) (boot : Bool) (us : List UnitWrite) : Stays s (s.applyUnits boot us) := by
  unfold State.applyUnits
  refine ((Stays.foldl _ (State.stays_applyUnit boot) us s).trans
    (.of_keeps (by simp))).trans (Stays.foldl _ (fun s i => ?_) _ _)
  split
  · exact .of_keeps (by simp)
  · exact Stays.refl s

theorem State.stays_copyProg (s : State) (t q x : Nat) : Stays s (s.copyProg t q x) :=
  (s.stays_setBytes _ _).trans (State.stays_setBytes _ _ _)

theorem State.stays_applyPartial (s : State) (g : ImgX) (p : Option Nat) : Stays s (s.applyPartial g p) := by
  unfold State.applyPartial
  extract_lets s0 us tiles h s1 s2 s3
  have hx : s2.mem = s.mem ∧ s2.pending = s.pending := by
    simp only [s2]
    split <;> simp [s1, s0, State.base]
  exact ((Stays.of_keeps hx).trans (s2.stays_applyUnits false us)).then (by simp [s3])

theorem State.keeps_verifyDone (s : State) (g : ImgX) (us : List (List UnitWrite)) :
    (s.verifyDone g us).mem = s.mem ∧ (s.verifyDone g us).pending = s.pending := by
  unfold State.verifyDone
  dsimp only
  repeat' split
  all_goals simp

theorem State.tilesOfFull_keeps (s : State) (h : List Byte) (us : List (Nat × Nat × List UnitWrite)) :
    (s.tilesOfFull h us).mem = s.mem ∧ (s.tilesOfFull h us).pending = s.pending := by
  unfold State.tilesOfFull
  dsimp only
  (repeat' split) <;> simp

theorem State.stays_applyFull (s : State) (g : ImgX) : Stays s (s.applyFull g) := by
  unfold State.applyFull
  extract_lets h s0 s1 enf s2 s3 s4 s5 c s6
  have h0 : s0.mem = s.mem ∧ s0.pending = s.pending := by simp [s0]
  have h1 : Stays s s1 :=
    (((Stays.of_keeps h0).then (s0.tilesOfFull_keeps h g.units)).trans (State.stays_applyUnits _ true (allUnits g.units))).then
      (by simp [s1])
  have h2 : s2.mem = s1.mem ∧ s2.pending = s1.pending := by
    simp only [s2]; split <;> simp
  have h3 : s3.mem = s2.mem ∧ s3.pending = s2.pending := by
    simp only [s3]; split <;> simp
  exact ((h1.then h2).then h3).then (by simp [s6, s5, s4])

theorem State.stays_holdEnd (s : State) (h : HoldX) : Stays s (s.holdEnd h) := by
  unfold State.holdEnd
  dsimp only
  repeat' split
  all_goals exact .of_keeps (by simp)

theorem State.stays_place (s : State) (p : Option Nat) (t q : Nat) (bad : Bool) : Stays s (s.place p t q bad) := by
  unfold State.place
  dsimp only
  split
  · exact .of_keeps (by simp)
  · split
    · exact .of_keeps (by simp)
    · next x _ _ =>
      have key : ∀ (y u : State), u.mem = (y.copyProg t q x).mem ∧ u.pending = (y.copyProg t q x).pending →
          y.mem = s.mem ∧ y.pending = s.pending → Stays s u :=
        fun y u h k => (Stays.of_keeps k).trans ((y.stays_copyProg t q x).then h)
      exact key { s with cfg := { s.cfg with waiting := s.cfg.waiting.erase (t, q) } } _ (by simp) ⟨rfl, rfl⟩

theorem State.stays_mirrorApply (s : State) (us : List UnitWrite) : Stays s (s.mirrorApply us) := by
  unfold State.mirrorApply
  extract_lets ms ks
  exact ((Stays.of_keeps (by simp)).trans (State.stays_applyUnits ((patchedTiles ms).foldl State.patchClear (s.idleSeqs ks)) false
    ms)).then (by simp)

theorem State.keeps_mirrorCount (s : State) (tile : Byte) (b : List Byte) :
    (s.mirrorCount tile b).mem = s.mem ∧ (s.mirrorCount tile b).pending = s.pending := by
  unfold State.mirrorCount
  dsimp only
  split <;> simp

theorem State.stays_mirrorDo (s : State) (m : Mirror) : Stays s (s.mirrorDo m) := by
  unfold State.mirrorDo
  dsimp only
  split
  · exact (s.stays_mirrorApply m.units).then (State.keeps_mirrorCount _ _ _)
  · exact s.stays_mirrorApply m.units

theorem State.stays_mirrorEnd (s : State) (p : Nat) : Stays s (s.mirrorEnd p) := by
  unfold State.mirrorEnd
  dsimp only
  have upd : ∀ x : PairX, Stays s { s with pair2 := x } := fun _ => .of_keeps ⟨rfl, rfl⟩
  exact (upd _).trans (Stays.foldl _ State.stays_mirrorDo _ _)

theorem State.stays_mirrorIn (s : State) (p : Nat) (shot : Word) (us : List UnitWrite) (img : Option (Byte × List Byte)) :
    Stays s (s.mirrorIn p shot us img) := by
  unfold State.mirrorIn
  dsimp only
  repeat' split
  all_goals
    first
    | (refine .of_keeps ?_; simp; done)
    | exact s.stays_mirrorDo _

@[simp] theorem State.reset_mem : State.reset.mem = [] := rfl

theorem Memory.wf_nil : Memory.wf [] = true := rfl

/-- A reset leaves no byte of the memory window listed. -/
theorem State.resetBlocks_mem (s : State) (por : Bool) : (s.resetBlocks por).mem = [] := by
  unfold State.resetBlocks
  cases por <;> simp

theorem State.resetBlocks_pending (s : State) (por : Bool) : (s.resetBlocks por).pending = s.pending := by
  unfold State.resetBlocks
  cases por <;> simp

theorem State.stays_porOn (s : State) : Stays s s.porOn := by
  unfold State.porOn
  exact ⟨fun _ => by simp only [State.resetBlocks_mem, Memory.wf_nil], by simp only [State.resetBlocks_pending]⟩

theorem State.stays_sysOn (s : State) : Stays s s.sysOn := by
  unfold State.sysOn
  extract_lets a x s1 s2
  have h1 : s1.pending = s.pending := by simp only [s1]; split <;> simp
  split
  · exact .of_keeps ⟨rfl, rfl⟩
  · exact ⟨fun _ => by simp only [s2, State.resetBlocks_mem, Memory.wf_nil], by simp only [s2, State.resetBlocks_pending, h1]⟩

/-- The resets that pass the glitch filter leave the memory canonical and the queue as it is. -/
theorem State.stays_resetPins (s : State) : Stays s s.resetPins := by
  unfold State.resetPins
  extract_lets s1
  have h1 : Stays s s1 := by
    simp only [s1]
    split
    · exact s.stays_porOn
    · exact Stays.refl s
  split
  · exact h1.trans s1.stays_sysOn
  · exact h1

/-- So does a tick. -/
theorem State.stays_tick (s : State) : Stays s s.tick := by
  unfold State.tick
  extract_lets s0 s1 s2
  have h0 : Stays s s1 := by
    simp only [s1]
    split <;> exact .of_keeps (by simp [s0])
  have h2 : Stays s s2 :=
    (h0.then (u := s1.clocksTick.secondTick) (by simp)).trans (State.stays_resetPins _)
  split
  · exact h2.then (by simp)
  · exact h2

end Sys2Proof.Machine
end

