-- ==== Sys2Proof/Tests/Slice0.lean ====
section
/-! SUPPORT. Tests: an ill-formed command for each check of well-formedness; words of the sequencer's instruction set; and for every
statement states and operands that meet the hypotheses of its clauses. -/

namespace Sys2Proof.Tests

set_option Elab.async false

open Sys2Proof.Machine Sys2Proof.Safety

/-! ## States -/

/-- A state with words written into registers. -/
def lay (s : State) (l : List (Nat × Word)) : State := l.foldl (fun s x => s.setReg x.1 x.2) s

/-- A state with fields written. -/
def put (s : State) (l : List (Nat × Fld × Nat)) : State := l.foldl (fun s x => s.setFld x.1 x.2.1 x.2.2) s

/-- The part runs: both reset inputs are high. -/
def live0 : State := { State.reset with aon := { por := false }, pcie := { perst := false, busMaster := true, msixEn := true } }

/-- After a boot: Henone runs from slot A, configured, bridges and bias links up, tile 0 enabled and in plot 0. -/
def up : State := put { live0 with regs := (A.henSts, 0) :: live0.regs }
  [(A.glbSts, F.glbSts.bootStage, 3), (A.glbSts, F.glbSts.imgSrc, 0), (A.glbBridgeSts, F.glbBridgeSts.cbrUp, 15), (A.glbBridgeSts, F.glbBridgeSts.blkUp, 15),
   (A.glbTileEn, ⟨31, 0⟩, 1), (A.glbTilePlot 0, ⟨3, 0⟩, 8)]

/-- The same in OWNED with plot enforcement on. -/
def owned : State := put up [(A.glbSts, F.glbSts.lifecycle, 2), (A.glbSts, F.glbSts.plotEnf, 1)]

/-- `s` with sequencer q of tile 0 RUNNING at PC 0, where program memory holds the instruction hi:lo. -/
def runs (s : State) (q : Nat) (hi lo : Word) : State :=
  ((put s [(A.seqSts 0 q, F.seqSts.state, 2)]).setWord (progAt 0 q 0) lo).setWord (progAt 0 q 0 + 4) hi

/-- The checks of `Passes`, as a Bool. -/
def passesB (s : State) (i q op : Nat) : Bool :=
  s.running i q && (s.insAt i q (s.pc i q)).op == op && !s.patched i && roleAllows op (s.role i q) &&
  match opMask op with | some m => (s.insAt i q (s.pc i q)).reservedOk m | none => false

theorem passes_of (s : State) (i q op : Nat) (h : passesB s i q op = true) : Passes s i q op := by
  unfold passesB at h
  simp only [Bool.and_eq_true, beq_iff_eq, Bool.not_eq_true'] at h
  obtain ⟨⟨⟨⟨h1, h2⟩, h3⟩, h4⟩, h5⟩ := h
  split at h5
  · exact ⟨h1, h2, h3, h4, _, by assumption, h5⟩
  · exact absurd h5 Bool.false_ne_true

/-! ## Well-formed commands -/

/-- One ill-formed command for each check, and none passes. -/
theorem test_ill_formed_refused :
    Instr.wf (.registerWrite .control 0x4000000 4 0) = false ∧ Instr.wf (.registerWrite .doorbell 0x10000 4 0) = false ∧
    Instr.wf (.registerWrite .control 0 0 0) = false ∧ Instr.wf (.snapshotRead .control 0x4000000 4) = false ∧ Instr.wf (.snapshotRead .memory 0x7FFFFFE 4) = false ∧
    Instr.wf (.readToClear .doorbell 0x10000 4) = false ∧ Instr.wf (.readToClear .control 0 0) = false ∧
    Instr.wf (.memWindowWrite 0 []) = false ∧ Instr.wf (.memWindowWrite 0x7FFFFFF [0, 0]) = false ∧
    Instr.wf (.decantChunkArrival 0 0 [] []) = false ∧ Instr.wf (.decantChunkArrival 0 0 (List.replicate 4097 0) []) = false ∧
    Instr.wf (.decantChunkArrival 0 0 [0] [0]) = false ∧ Instr.wf (.laneLockLoss 0 0 65) = false ∧
    Instr.wf (.fluxCoefWrite 0 0 0x200 0) = false ∧ Instr.wf (.fluxCoefWrite 0 0 2 0) = false ∧
    Instr.wf (.biasRegWrite 0 0 0x40 0) = false ∧ Instr.wf (.biasRegWrite 0 0 6 0) = false ∧
    Instr.wf (.mgmtMsg 0 0 [] 0) = false ∧ Instr.wf (.mirrorMsg 0 0 (List.replicate 33 0) 0 0 0 []) = false ∧
    Instr.wf (.coordMsg 0 0 [] 0 0 false 0 0 0 false 0) = false ∧ Instr.wf (.heartbeatMsg 0 0 [] 0 false false 0) = false := by
  decide +kernel

theorem test_ill_formed_refused' :
    Instr.wf (.imageVerifyDone (List.replicate 513 [])) = false ∧
    Instr.wf (.capsuleFetch 0 []) = false ∧ Instr.wf (.spdmChallenge 0 []) = false ∧ Instr.wf (.spdmGetMeasurements 1 []) = false ∧
    Instr.wf (.ideKmProgram 0 0 []) = false ∧ Instr.wf (.eventFire [1536]) = false ∧ Instr.wf (.eventFire [3, 3]) = false ∧
    Instr.wf (.powerMeterUpdate [] [] []) = false ∧ Instr.wf (.thermalModelUpdate []) = false ∧
    Instr.wf (.islandClockStep 0 0 71 0) = false ∧ Instr.wf (.converterPowerDown 0 .xy 4) = false ∧
    Instr.wf (.converterWake 0 .probe 1) = false ∧ Instr.wf (.converterAwake 0 .xy 13) = false ∧
    Instr.wf (.skimSlot 0 (List.replicate 31 ⟨true, 0, 0⟩)) = false ∧ Instr.wf (.bootCalibration [[]] [] []) = false ∧
    Instr.wf (.hkConversionDone 0 ⟨0, 0⟩) = false ∧ Instr.wf (.snapshotRead .config 4092 8) = false ∧
    Instr.wf (.readToClear (.badWrite true) 0 4) = false := by
  decide +kernel

theorem test_ill_formed_lengths (bs cs : List Byte) (h : 65536 < bs.length) (g : 0x10000000 < cs.length) (p : Plot) (o : Option (Byte × Byte)) :
    Instr.wf (.capsuleAuthDone p bs (List.replicate 16 0)) = false ∧ Instr.wf (.capsuleAuthDone p [] []) = false ∧
    Instr.wf (.imageFetchDone cs o) = false ∧ Instr.wf (.imageRefFetchDone p cs) = false ∧
    Instr.wf (.flashWriteDone 0 cs) = false := by
  refine ⟨?_, rfl, ?_, ?_, ?_⟩ <;> simp only [Instr.wf, Bool.and_eq_false_iff, decide_eq_false_iff_not] <;> omega

/-- Well-formed commands of each of those rows. -/
theorem test_well_formed :
    Instr.wf (.registerWrite .control 0x3FFFFFC 4 0) = true ∧ Instr.wf (.snapshotRead .memory 0 128) = true ∧ Instr.wf (.readToClear .doorbell 8 4) = true ∧
    Instr.wf (.memWindowWrite 0x7FFFFFF [0]) = true ∧ Instr.wf (.biasRegWrite 0 0 0x3C 0) = true ∧ Instr.wf (.mgmtMsg 0 0 [0] 0) = true ∧
    Instr.wf (.imageFetchDone (List.replicate 272 0) none) = true ∧ Instr.wf (.decantChunkArrival 0 0 [0] (List.replicate 16 0)) = true ∧
    Instr.wf (.laneLockLoss 0 0 64) = true ∧ Instr.wf (.windowClose 0 0 false) = true ∧ Instr.wf (.eventFire [0, 1535]) = true ∧
    Instr.wf (.converterAwake 0 .flux 13) = true ∧ Instr.wf (.hotReset) = true ∧
    Instr.wf (.skimSlot 0 (List.replicate 32 ⟨true, 0, 0⟩)) = true ∧ Instr.wf (.thermalModelUpdate (List.replicate 40 true)) = true ∧
    Instr.wf (.bootCalibration (List.replicate 32 (List.replicate 32 ⟨true, 0, 0⟩)) (List.replicate 34 ⟨true, 0, 0⟩)
      (List.replicate 32 ⟨true, 0, 0⟩)) = true ∧
    Instr.wf (.hkConversionDone 0 ⟨-1, 1⟩) = true ∧ Instr.wf (.registerWrite (.badWrite false) 0 4 0) = true ∧
    Instr.wf (.snapshotRead .config 0 4) = true := by
  decide +kernel

/-! ## Words of the sequencer's instruction set (R79, R85, R87), written out bit by bit -/

/-- BR SGN (02h): RA 3, RB 4, FLG 1 on an immediate 12; RDSP (4Ah) into register 2, source 5; LD (50h) RA 1, RB 2, immediate 7; PLAY (20h)
RA 1, RB 2, FLG 2, SUB 3, immediate 5; END (01h). -/
theorem test_words :
    decodeIns 0b00000000000000000000000000001100 0b00000010_0011_0100_0000_0001_00000000 = ⟨0x02, 3, 4, 0, 1, 0, 12⟩ ∧
    decodeIns 0 0b01001010_0010_0000_0000_0000_00000101 = ⟨0x4A, 2, 0, 0, 0, 5, 0⟩ ∧
    decodeIns 7 0b01010000_0001_0010_0000_0000_00000000 = ⟨0x50, 1, 2, 0, 0, 0, 7⟩ ∧
    decodeIns 5 0b00100000_0001_0010_0000_0010_00000011 = ⟨0x20, 1, 2, 0, 2, 3, 5⟩ ∧
    decodeIns 0 0b00000001_0000_0000_0000_0000_00000000 = ⟨0x01, 0, 0, 0, 0, 0, 0⟩ := by
  decide +kernel

/-- No word spells a command of the block. -/
theorem test_no_word (n w : Nat) : decodeTableWord n w = none := rfl

/-! ## States and operands that meet the hypotheses, statement by statement -/

theorem test_hyps_IdleStepIsOneTick :
    up.pending = [] ∧ up.aon.porLow = none ∧ up.aon.sysLow = none ∧
    (let s := { up with aon := { up.aon with porLow := some 0, sysLow := some 0 }, tm := { now := 248 } }
     s.aon.porLow = some 0 ∧ s.aon.sysLow = some 0 ∧ s.tm.now + 1 < 0 + 250 ∧ s.pending = []) ∧
    up.live = true ∧ up.ptp.rates = [] ∧ up.ptp.slew = none ∧ -rateLimit ≤ up.ptp.rate ∧
    up.ptp.rate ≤ rateLimit := by
  decide +kernel

theorem test_hyps_MemoryStaysCanonical : Canonical (runs up 0 0x49000000 0) := by unfold Canonical; decide +kernel

theorem test_hyps_OnlyWritersChangeMemory : ∃ t, exec .henConfirm up = .next t := ⟨_, rfl⟩

theorem test_hyps_HostWritesReachOpenRegisters :
    up.live = true ∧ A.tqMargin 31 33 < 0x2000000 ∧ 0x1000000 ≤ A.tqMargin 0 0 ∧ 0x2000000 ≤ A.bdSts 0 0 ∧ A.bdSts 3 127 < 0x2400000 ∧
    A.trlSlot 0 ≥ 0x3000000 ∧ A.klSts 0 ≥ 0x500000 ∧ A.klSts 7 < 0x510000 ∧ A.glbScratch < 0x500000 := by
  decide +kernel

theorem test_hyps_RegisterWritesReachOrAreRefused :
    up.live = true ∧ (∀ b, Window.control ≠ .badWrite b) ∧ (3 ≠ 4 ∧ A.glbScratch % 4 = 0) ∧ ((A.glbScratch + 1) % 4 ≠ 0) ∧
    ((0x3FFFFFC % 4 = 0) ∧ findReg (winKey .control 0x3FFFFFC) = none) ∧ State.reset.live = false ∧
    (owned.live = true ∧ (findReg (A.tqMargin 0 0)).isSome = true ∧ A.tqMargin 0 0 % 4 = 0 ∧ owned.enforce = true ∧
      owned.tileOn ((A.tqMargin 0 0 - 0x1000000) / 0x80000) = true) ∧
    ((findReg (A.tqMargin 31 33)).isSome = true ∧ A.tqMargin 31 33 % 4 = 0 ∧
      owned.tileOn ((A.tqMargin 31 33 - 0x1000000) / 0x80000) = false ∧
      up.tileOn ((A.tqMargin 31 33 - 0x1000000) / 0x80000) = false) := by
  decide +kernel

theorem test_hyps_ReadsLatchAndClear :
    up.live = true ∧ (up.setHold A.dtHi { active := true }).live = true ∧
    ((up.setHold A.dtHi { active := true }).hold A.dtHi).active = true ∧ up.plotDefined 0 = true ∧
    ((up.setHold (A.nextStartHi 0) { active := true }).hold (A.nextStartHi 0)).active = true ∧
    ({ up.setHold A.dtHi { active := true } with tm := { now := 1 } }.hold A.dtLo).tick ≠ 1 ∧
    up.blockRefuse .host (A.tqMargin 0 33) = none ∧ (3 ≠ 4 ∨ 4 % 4 ≠ 0) ∧ (4 ≠ 4 ∨ 2 % 4 ≠ 0) ∧
    up.memRefuse .host 0x4000000 8 = none ∧ up.memRefuse .host 0x4000002 8 = some .accessErr ∧
    owned.memRefuse .host 0x4000000 8 = some .plotDeny ∧ (Refuse.accessErr ≠ .ignored) ∧
    (∀ b, Window.doorbell ≠ .badWrite b) ∧ up.pcie.perst = false ∧ State.reset.pcie.perst = true ∧
    (0x4000000 % 4 = 0 ∧ 128 % 4 = 0 ∧ 0 < 128 ∧ 128 ≤ up.pcie.payload ∧ owned.live = true ∧ 128 ≤ owned.pcie.payload ∧
      ∀ i < 32, memTile (0x4000000 + 4 * i) = some 0 ∧ up.tileOn 0 = true ∧ owned.tileOn 0 = true) := by
  decide +kernel

theorem test_hyps_MemoryWindowWrites :
    (up.memRefuse .host 0x4000000 4 = none ∧ up.memBusy 0x4000000 4 = false) ∧
    ((runs up 0 0 0).memRefuse .host 0x4000000 8 = none ∧ (runs up 0 0 0).memBusy 0x4000000 8 = true) ∧
    (up.live = true ∧ 2 % 4 ≠ 0 ∧ 6 % 4 ≠ 0 ∧ up.pcie.payload < 132) ∧
    (0 < 4 ∧ ∀ i < 1, memTile (0x4200000 + 4 * i) = some 1 ∧ up.tileOn 1 = false) ∧
    (owned.live = true ∧ owned.enforce = true ∧ up.enforce = false ∧ 8 ≤ up.pcie.payload ∧ 8 ≤ owned.pcie.payload ∧
      ∀ i < 2, memTile (0x4000000 + 4 * i) = some 0 ∧ up.tileOn 0 = true ∧ owned.tileOn 0 = true) := by
  decide +kernel

/-- `s` with a state of bias channel (0, 0). -/
def bias0 (s : State) (x : BiasX) : State := { s with biases := KMap.set {} s.biases 0 x }

theorem test_hyps_BridgesTrainFailAndRecover :
    (live0.live = true ∧ live0.refLost = false ∧ live0.fld A.glbSts F.glbSts.bootStage = 0 ∧
      ({ live0 with cfg := { live0.cfg with order := [.slotA, .slotB] } }).cfg.order = [.slotA, .slotB]) ∧
    (∀ k ∈ [2, 3], let s := bias0 up { flight := [⟨0, true, none, none, 9, 0, 0⟩, ⟨0, true, none, none, 5, 1, k⟩] }
      s.blkUp 0 = true ∧ (s.bias 0 0).flight = [⟨0, true, none, none, 9, 0, 0⟩] ++ ⟨0, true, none, none, 5, 1, k⟩ :: [] ∧
      [(⟨0, true, none, none, 9, 0, 0⟩ : BiasEntry)].length = 1) ∧
    (∀ k ∈ [2, 3], let s := bias0 up { writes := [(0, 5, 3, 0), (4, 6, 9, k)] }
      s.blkUp 0 = true ∧ (s.bias 0 0).writes = [(0, 5, 3, 0)] ++ (4, 6, 9, k) :: [] ∧ [((0 : Nat), (5 : Word), 3, 0)].length = 1 ∧
      s.tm.now < 9) ∧
    up.blkUp 3 = true ∧
    ((put up [(A.glbBridgeSts, F.glbBridgeSts.blkUp, 7)]).blkUp 3 = false ∧ up.refLost = false ∧
      up.fld A.glbSts F.glbSts.bootStage ≠ 0 ∧ KMap.get [] up.heldWrites 3 = [] ∧ (up.hk 3).held = [] ∧
      (up.hk 3).heldRes = []) := by
  decide +kernel

theorem test_hyps_DeviceTimeLoads :
    (up.live = true ∧ up.loadRefused = false ∧ getF 1 F.dtLoadCtl.cancel = 0 ∧ getF 2 F.dtLoadCtl.cancel = 0 ∧
      getF 2 F.dtLoadCtl.armNow = 0) ∧
    ((put up [(A.runSts 0, F.runSts.state, 2)]).live = true ∧ (put up [(A.runSts 0, F.runSts.state, 2)]).loadRefused = true) ∧
    (getF 4 F.dtLoadCtl.armNow = 0 ∧ getF 4 F.dtLoadCtl.armPps = 0 ∧ getF 4 F.dtLoadCtl.cancel = 1) ∧
    (let s := { put up [(A.dtSts, F.dtSts.loadPend, 1)] with tm := { loadAt := some 0 } }
     s.on A.dtSts F.dtSts.loadPend = true ∧ s.tm.loadAt = some s.tm.now ∧ s.loadRefused = false) ∧
    (let s := { put up [(A.dtSts, F.dtSts.loadPend, 1), (A.runSts 0, F.runSts.state, 2)] with tm := { loadAt := some 0 } }
     s.on A.dtSts F.dtSts.loadPend = true ∧ s.tm.loadAt = some s.tm.now ∧ s.loadRefused = true) := by
  decide +kernel

theorem test_hyps_DeviceTimeArmBits :
    up.live = true ∧ getF 0 F.dtLoadCtl.cancel = 0 ∧ (getF 5 F.dtLoadCtl.cancel = 1 ∧ getF 5 F.dtLoadCtl.armNow = 1) ∧
    (getF 6 F.dtLoadCtl.cancel = 1 ∧ getF 6 F.dtLoadCtl.armPps = 1) := by
  decide +kernel

/-- `s` with a scheduler of plot 0. -/
def sch0 (s : State) (c : Sched) : State := s.setSched 0 c

theorem test_hyps_RunAndGlobalCommands :
    (let s := lay up [(A.shotPeriod 0, 1000), (A.runShots 0, 1)]
     s.live = true ∧ s.plotDefined 0 = true ∧ s.enforce = false ∧ (1 : Word).toNat % 16 < 2 ∧ s.startIgnored 0 = false ∧
     s.reg (A.runShots 0) ≠ 0 ∧ s.patched 0 = false) ∧
    (let s := lay (put up [(A.shotCtl 0, F.shotCtl.runCont, 1)]) [(A.shotPeriod 0, 1000)]
     s.startIgnored 0 = false ∧ s.on (A.shotCtl 0) F.shotCtl.runCont = true) ∧
    (let s := lay up [(A.shotPeriod 0, 1000)]
     s.startIgnored 0 = false ∧ s.reg (A.runShots 0) = 0 ∧ s.on (A.shotCtl 0) F.shotCtl.runCont = false) ∧
    up.startIgnored 0 = true ∧
    (let s := put up [(A.runSts 0, F.runSts.state, 1)]
     s.live = true ∧ s.plotDefined 0 = true ∧ (2 : Word).toNat % 16 / 4 = 0 ∧ (2 : Word).toNat % 2 = 0 ∧ s.runState 0 = 1 ∧
     s.enforce = false ∧ s.stopped 0 = false ∧ (s.sched 0).abortAt = none ∧ (s.sched 0).undo = none ∧
     (let u := { sch0 s { undo := some ⟨9, 0, 0, 0, [], [], false⟩ } with tm := { dt := 10 } }
      (u.sched 0).undo = some ⟨9, 0, 0, 0, [], [], false⟩ ∧ 9 ≠ u.DT ∧ u.runState 0 = 1 ∧ (u.sched 0).abortAt = none)) ∧
    ((8 : Word).toNat % 8 = 0 ∧ up.stopped 0 = true) ∧
    (let s := (List.finRange 8).foldl (fun s p => s.setSched p { fixed := some ⟨0, 0, 0⟩ }) up
     s.live = true ∧ ∀ p : Plot, (s.sched p).fixed.isSome = true ∧ (s.sched p).undo = none) ∧
    (let s := { put up [(A.glbErrAddr, F.glbErrAddr.valid, 1)] with tie := { set := [(A.glbErrAddr, 0x80000000)] } }
     s.live = true ∧ s.on A.glbErrAddr F.glbErrAddr.valid = true ∧
     getF (KMap.get 0 s.tie.set A.glbErrAddr) F.glbErrAddr.valid = 1) ∧
    (let s := { put up [(A.glbErrAddr, F.glbErrAddr.valid, 1)] with tie := { refused := some 0x80000004 } }
     s.on A.glbErrAddr F.glbErrAddr.valid = true ∧ getF (KMap.get 0 s.tie.set A.glbErrAddr) F.glbErrAddr.valid = 0 ∧
     s.tie.refused = some 0x80000004) ∧
    (getF (KMap.get 0 up.tie.set A.glbErrAddr) F.glbErrAddr.valid = 0 ∧ up.tie.refused = none) := by
  decide +kernel

/-- `s` with a conditioned rising edge of input 0 sampled at tick 0, at tick 10. -/
def edge0 (s : State) : State := { s with tm := { dt := 10, now := 10 }, tius := [(0, { conds := [(0, true)] })] }

theorem test_hyps_TriggersReachTheirPlots :
    up.edgeDue 0 true = false ∧
    (let s := edge0 (put up [(A.runSts 0, F.runSts.state, 2), (A.shotCtl 0, F.shotCtl.mode, 1)])
     s.edgeDue 0 true = true ∧ 10 ≤ s.DT ∧ s.fld (A.shotCtl 0) F.shotCtl.trigSel = 0 ∧ s.on (A.shotCtl 0) F.shotCtl.trigEdge = false ∧
     s.fld (A.shotCtl 0) F.shotCtl.mode = 1 ∧ s.runState 0 ≠ 0 ∧ s.runState 0 ≠ 3 ∧ (s.sched 0).cmdTick ≠ some s.DT ∧
     (s.sched 0).trig.isSome = false ∧ ((sch0 s { trig := some (0, 9) }).sched 0).trig.isSome = true) ∧
    (edge0 up).edgeDue 0 true = true ∧ (edge0 up).runState 0 = 0 ∧
    ((sch0 up { trigOvf := true }).sched 0).trigOvf = true ∧ (sch0 up { trigOvf := true }).pending = [] ∧
    (let s := sch0 (put up [(A.runSts 0, F.runSts.state, 1)]) { trig := some (0, 0), fixed := some ⟨9000, 0, 0⟩, undo := some ⟨0, 0, 0, 0, [], [], false⟩ }
     s.live = true ∧ s.plotDefined 0 = true ∧ s.enforce = false ∧ s.stopped 0 = false ∧ (s.sched 0).trig = some (0, s.DT) ∧
     (s.sched 0).undo = some ⟨0, 0, 0, 0, [], [], false⟩ ∧ 0 = s.DT) := by
  decide +kernel

theorem test_hyps_NextStartIsFixed :
    (let s := sch0 (lay (put up [(A.runSts 0, F.runSts.state, 1)]) [(A.shotPeriod 0, 1000)])
       { computeAt := some 0, firstEarliest := some 5000 }
     (s.sched 0).computeAt = some s.DT ∧ s.runState 0 = 1 ∧ s.fld (A.shotCtl 0) F.shotCtl.mode = 0 ∧ s.reg (A.shotPeriod 0) ≠ 0 ∧
     (s.sched 0).lastStart = none ∧ (s.sched 0).firstEarliest = some 5000) ∧
    (let s := sch0 (lay (put up [(A.runSts 0, F.runSts.state, 2)]) [(A.shotPeriod 0, 1000)])
       { computeAt := some 0, lastStart := some 3000 }
     (s.sched 0).computeAt = some s.DT ∧ s.runState 0 = 2 ∧ s.fld (A.shotCtl 0) F.shotCtl.mode = 0 ∧ s.reg (A.shotPeriod 0) ≠ 0 ∧
     (s.sched 0).firstEarliest = none ∧ s.cal.req.contains 0 = false ∧
     3000 = s.pair (A.runStartLo 0) (A.runStartHi 0) + 3 * (s.reg (A.shotPeriod 0)).toNat) ∧
    (let s := sch0 (put up [(A.runSts 0, F.runSts.state, 2), (A.shotCtl 0, F.shotCtl.mode, 2)]) { computeAt := some 0 }
     (s.sched 0).computeAt = some s.DT ∧ s.runState 0 = 2 ∧ s.fld (A.shotCtl 0) F.shotCtl.mode = 2 ∧
     (s.sched 0).firstEarliest = none ∧ s.cal.req.contains 0 = false) ∧
    (let s := sch0 (put up [(A.runSts 0, F.runSts.state, 1), (A.shotCtl 0, F.shotCtl.mode, 1)])
       { computeAt := some 0, trig := some (0, 10) }
     (s.sched 0).computeAt = some s.DT ∧ s.runState 0 = 1 ∧ s.fld (A.shotCtl 0) F.shotCtl.mode = 1 ∧
     (s.sched 0).trig = some (0, 10)) := by
  decide +kernel

theorem test_hyps_ShotsAreAnnouncedStartAndEnd :
    (let s := sch0 up { fixed := some ⟨up.lead 0, 0, 0⟩ }
     (s.sched 0).fixed = some ⟨up.lead 0, 0, 0⟩ ∧ up.lead 0 = s.DT + s.lead 0 ∧ s.on (A.klCoord 0) F.klCoord.en = false) ∧
    (let s := sch0 up { shots := [{ sid := 0, start := 0 }] }
     s.current 0 = some { sid := 0, start := 0 } ∧ (0 : Nat) = s.DT ∧ s.on (A.klCoord 0) F.klCoord.en = false) ∧
    (let s := sch0 (put up [(A.runSts 0, F.runSts.state, 3)]) { shots := [{ sid := 0, start := 0, started := true }] }
     s.current 0 = some { sid := 0, start := 0, started := true } ∧ s.shotOver 0 = true ∧ s.DT = (s.sched 0).endTick ∧
     s.pair2.mirrors = [] ∧ s.runState 0 = 3) ∧
    (let s := { sch0 (lay up [(A.shotMax 0, 100)]) { shots := [{ sid := 0, start := 0, started := true }] } with
       tm := { dt := 100 }, tqs := [(sk 0 0, { owes := true })] }
     s.current 0 = some { sid := 0, start := 0, started := true } ∧ s.shotOver 0 = false ∧ s.endsNow 0 = false ∧
     s.DT = 0 + (s.reg (A.shotMax 0)).toNat ∧ s.pair2.mirrors = []) ∧
    (let s := sch0 up { abortAt := some (0, true) }
     (s.sched 0).abortAt = some (s.DT, true) ∧ s.pair2.mirrors = []) := by
  decide +kernel

/-- Sequencer 0 of tile 0 runs the instruction hi:lo, and its checks pass for opcode `op`. -/
abbrev Ok (hi lo : Word) (op : Nat) : Prop := passesB (runs up 0 hi lo) 0 0 op = true

/-- `FallsThrough`, as a Bool. -/
def fallsB (s : State) (i q : Nat) : Bool :=
  decide (s.pc i q < 4095) &&
    (s.depth i q == 0 || s.fld (A.seqLoopSe i q (s.depth i q - 1)) F.seqLoopSe.endPc != s.pc i q)

theorem falls_of (s : State) (i q : Nat) (h : fallsB s i q = true) : FallsThrough s i q := by
  simp only [fallsB, Bool.and_eq_true, Bool.or_eq_true, beq_iff_eq, bne_iff_ne, decide_eq_true_eq] at h
  exact h

theorem test_hyps_AluInstructionsAndRdsp :
    (fallsB (runs up 0 0x40123000 0) 0 0 = true ∧ Ok 0x40123000 0 0x40 ∧ Ok 0x41120100 7 0x41 ∧ Ok 0x42123000 0 0x42 ∧
      Ok 0x43123000 0 0x43 ∧ Ok 0x44123000 0 0x44 ∧ Ok 0x45120100 31 0x45 ∧ Ok 0x46120100 32 0x46 ∧ Ok 0x47120100 33 0x47 ∧
      Ok 0x48120100 0xFFFFFFFF 0x48 ∧ Ok 0x49F00000 0x12345678 0x49) ∧
    (Ok 0x4A100000 0 0x4A ∧ Ok 0x4A100001 0 0x4A ∧ up.plotOf 0 = some 0 ∧ Ok 0x4A100002 0 0x4A ∧ Ok 0x4A100003 0 0x4A ∧
      Ok 0x4A100004 0 0x4A ∧ (runs up 0 0x4A100004 0).depth 0 0 = 0 ∧
      (put (runs up 0 0x4A100004 0) [(A.seqSts 0 0, F.seqSts.loopDepth, 8), (A.seqLoopSe 0 0 7, F.seqLoopSe.endPc, 9)]).depth 0 0 = 8 ∧
      fallsB (put (runs up 0 0x4A100004 0) [(A.seqSts 0 0, F.seqSts.loopDepth, 8), (A.seqLoopSe 0 0 7, F.seqLoopSe.endPc, 9)]) 0 0
        = true ∧
      Ok 0x4A100005 0 0x4A ∧ Ok 0x4A100006 0 0x4A ∧ 6 ≤ bits 0x06 2 0 ∧ (runs up 0 0x4A100006 0).queueFull (sk 0 0) = false) := by
  decide +kernel

theorem test_hyps_WaitMovesTheCursor :
    Ok 0x10000000 0xFFFFFFFF 0x10 ∧ fallsB (runs up 0 0x10000000 0xFFFFFFFF) 0 0 = true ∧
    (runs up 0 0x10000000 0xFFFFFFFF).tc 0 0 + 0xFFFFFFFF ≤ 0xFFFFFFFF ∧
    (0xFFFFFFFF < (lay (runs up 0 0x10000000 0xFFFFFFFF) [(A.seqTc 0 0, 1)]).tc 0 0 + 0xFFFFFFFF ∧
      (lay (runs up 0 0x10000000 0xFFFFFFFF) [(A.seqTc 0 0, 1)]).queueFull (sk 0 0) = false) ∧
    (Ok 0x11000000 0 0x11 ∧ (runs up 0 0x11000000 0).tc 0 0 ≤ 0) ∧
    5 < (lay (runs up 0 0x11000000 5) [(A.seqTc 0 0, 6)]).tc 0 0 := by
  decide +kernel

theorem test_hyps_LoadAndStoreDataMemory :
    (Ok 0x50120000 255 0x50 ∧ (runs up 0 0x50120000 255).sreg 0 0 2 = 0 ∧ fallsB (runs up 0 0x50120000 255) 0 0 = true) ∧
    Ok 0x51120000 0 0x51 ∧
    (Ok 0x50120000 256 0x50 ∧ Ok 0x51120000 0xFFFFFFFF 0x51 ∧ (runs up 0 0x50120000 256).queueFull (sk 0 0) = false) := by
  decide +kernel

theorem test_hyps_BranchesTakeTheirTarget :
    (Ok 0x02120000 0x0FFF 0x02 ∧ (runs up 0 0x02120000 0x0FFF).depth 0 0 = 0) ∧
    (Ok 0x02121000 0x0003 0x02 ∧ (runs up 0 0x02121000 3).sreg 0 0 1 = (runs up 0 0x02121000 3).sreg 0 0 2) ∧
    (Ok 0x02122000 0x0003 0x02 ∧ (lay (runs up 0 0x02122000 3) [(A.seqS 0 0 1, 1)]).sreg 0 0 1 ≠ 0) ∧
    (Ok 0x02103100 3 0x02 ∧ (0x80000000 : Word).toInt < (0 : Word).toInt) ∧ (Ok 0x02104100 3 0x02) ∧ (Ok 0x02105100 3 0x02) ∧
    (Ok 0x02106100 3 0x02 ∧ fallsB (runs up 0 0x02105100 3) 0 0 = true) ∧
    (Ok 0x02107000 0 0x02 ∧ 7 ≤ (runs up 0 0x02107000 0 |>.insAt 0 0 0).rc) ∧
    (Ok 0x02000000 0x9000 0x02 ∧ 8 < bits 0x9000 15 12 ∧ (runs up 0 0x02000000 0x9000).queueFull (sk 0 0) = false) ∧
    (Ok 0x02000000 0x8000 0x02 ∧ bits 0x8000 15 12 ≤ 8 ∧ (runs up 0 0x02000000 0x8000).depth 0 0 < bits 0x8000 15 12) := by
  decide +kernel

/-- The top entries of the loop stack of sequencer (0, 0): END, REMAIN. -/
def loops (s : State) (l : List (Nat × Word)) : State :=
  (List.range l.length).foldl (fun s k => lay (put s [(A.seqLoopSe 0 0 k, F.seqLoopSe.endPc, (l.getD k (0, 0)).1)])
    [(A.seqLoopRem 0 0 k, (l.getD k (0, 0)).2)]) (put s [(A.seqSts 0 0, F.seqSts.loopDepth, l.length)])

/-- Key bit (ks, 0) of tile 0 names slot 0 and takes its index from the operand; slot 0 holds value 1 with a tag and index 0. -/
def keyed0 (s : State) (ks tag : Nat) : State :=
  { put s [(A.kb 0 ks 0, F.kb.en, 1)] with
    tileViews := [(0, putF (putF (putF 0 F.trlSlot.valid 1) F.trlSlot.value 1) F.trlSlot.tag tag)] }

theorem test_hyps_LoopsReturnAndBrmwDecides :
    (Ok 0x04000000 0x00003001 0x04 ∧ bits 0x3001 11 0 = 1 ∧ bits 0x3001 31 12 = 3) ∧
    (Ok 0x04000000 0x00000FFE 0x04 ∧ bits 0xFFE 11 0 < 4095 ∧ bits 0xFFE 31 12 = 0) ∧
    (Ok 0x04000000 0x00000FFF 0x04 ∧ bits 0xFFF 11 0 = 4095) ∧
    (Ok 0x04000000 0x00001000 0x04 ∧ bits 0x1000 11 0 < (runs up 0 0x04000000 0x1000).pc 0 0 + 1) ∧
    (let s := loops (runs up 0 0x04000000 0x3001) [(1, 1), (1, 1), (1, 1), (1, 1), (1, 1), (1, 1), (1, 1), (1, 1)]
     passesB s 0 0 0x04 = true ∧ 8 ≤ s.depth 0 0 ∧ s.queueFull (sk 0 0) = false) ∧
    (let s := loops (runs up 0 0 0) [(0, 2)]
     passesB s 0 0 0 = true ∧ 0 < s.depth 0 0 ∧ s.fld (A.seqLoopSe 0 0 0) F.seqLoopSe.endPc = s.pc 0 0 ∧
     s.reg (A.seqLoopRem 0 0 0) = 2) ∧
    (let s := loops (runs up 0 0 0) [(0, 1)]
     passesB s 0 0 0 = true ∧ s.pc 0 0 < 4095 ∧ s.depth 0 0 = 1 ∧ s.fld (A.seqLoopSe 0 0 0) F.seqLoopSe.endPc = s.pc 0 0 ∧
     s.reg (A.seqLoopRem 0 0 0) = 1) ∧
    (let s := loops (runs up 0 0 0) [(0, 3), (0, 1)]
     passesB s 0 0 0 = true ∧ s.depth 0 0 = 2 ∧ s.fld (A.seqLoopSe 0 0 1) F.seqLoopSe.endPc = s.pc 0 0 ∧
     s.reg (A.seqLoopRem 0 0 1) = 1 ∧ s.fld (A.seqLoopSe 0 0 0) F.seqLoopSe.endPc = s.pc 0 0 ∧ s.reg (A.seqLoopRem 0 0 0) = 3) ∧
    (let s := keyed0 (runs up 0 0x03000000 0x00004002) 1 0
     passesB s 0 0 0x03 = true ∧ s.keyDefined 0 (bits 0x4002 16 14) (bits 0x4002 13 12 + 1) = true ∧
     bits 0x4002 11 0 % 2 ^ (bits 0x4002 13 12 + 1) = 0) ∧
    (let s := runs up 0 0x03000000 0x00000002
     passesB s 0 0 0x03 = true ∧ s.keyDefined 0 0 1 = false ∧ s.queueFull (sk 0 0) = false) ∧
    (let s := keyed0 (runs up 0 0x03000000 0x00004003) 1 0
     passesB s 0 0 0x03 = true ∧ s.keyDefined 0 1 1 = true ∧ bits 0x4003 11 0 % 2 ^ 1 ≠ 0) ∧
    (let s := { keyed0 (sch0 (put up [(A.seqSts 0 0, F.seqSts.state, 4)])
        { shots := [{ sid := 0, start := 0, started := true, num := 5 }] }) 0 5 with seqs := [(0, { stall := .dec 4 1 0 0 false })] }
     s.seqState 0 0 = 4 ∧ (s.seq (sk 0 0)).micro = none ∧ (s.seq (sk 0 0)).stall = .dec 4 1 0 0 false ∧
     keyValue (s.keyBits 0 0 0 (s.runTag 0) 1 0) = some 1 ∧ s.islandPast 0 0 1 (s.keyAge 0 0 1) = false ∧
     (let u := { s with tm := { now := 2 } }
      u.seqState 0 0 = 4 ∧ (u.seq (sk 0 0)).stall = .dec 4 1 0 0 false ∧ keyValue (u.keyBits 0 0 0 (u.runTag 0) 1 0) = some 1 ∧
      u.islandPast 0 0 1 (u.keyAge 0 0 1) = true) ∧
     (let u := { s with tm := { now := 2, dt := 4 } }
      s.queueFull (sk 0 0) = false ∧ u.patched 0 = false ∧ (u.seq (sk 0 0)).bad = none ∧
      u.islandPast 0 0 2 (u.keyAge 0 0 1) = false ∧ u.brmwDeadline 0 0 ≤ u.DT)) ∧
    (let s := { keyed0 (sch0 (put up [(A.seqSts 0 0, F.seqSts.state, 4)])
        { shots := [{ sid := 0, start := 0, started := true, num := 5 }] }) 0 4 with seqs := [(0, { stall := .dec 4 1 0 0 false })] }
     s.seqState 0 0 = 4 ∧ s.queueFull (sk 0 0) = false ∧ s.patched 0 = false ∧ (s.seq (sk 0 0)).stall = .dec 4 1 0 0 false ∧
     (s.seq (sk 0 0)).micro = none ∧ (s.seq (sk 0 0)).bad = none ∧
     keyValue (s.keyBits 0 0 0 (s.runTag 0) 1 0) = none ∧ s.brmwDeadline 0 0 ≤ s.DT) ∧
    ({ up with seqs := [(0, { stall := .dec 4 1 0 0 true })] }.seq (sk 0 0)).stall = .dec 4 1 0 0 true := by
  decide +kernel

/-- An instruction that passes its checks on sequencer `q`, and is issued to a queue with room. -/
def issuesB (q : Nat) (hi lo : Word) (op : Nat) : Bool :=
  let s := runs up q hi lo
  passesB s 0 q op && fallsB s 0 q && !s.queueFull (sk 0 q)

theorem test_hyps_IssuedCommandsReachTheQueue :
    issuesB 0 0x06000003 0 0x06 = true ∧ (issuesB 0 0x2012030F 0 0x20 = true ∧ fluxRole (up.role 0 0) = false) ∧
    (issuesB 16 0x20000000 0x0000C005 0x20 = true ∧ bits 0x00 2 0 = 0) ∧ issuesB 30 0x22000103 3 0x22 = true ∧
    issuesB 31 0x23000001 0xFFFF 0x23 = true ∧
    (issuesB 8 0x24000000 0x0000FFFF 0x24 = true ∧
      (runs up 8 0x24000000 0x0000FFFF).lenOperand 0 8 ((runs up 8 0x24000000 0x0000FFFF).insAt 0 8 0) = 65535) ∧
    issuesB 30 0x2500000F 0xFFFFF 0x25 = true ∧ issuesB 0 0x30000007 0x7F 0x30 = true ∧
    issuesB 8 0x31100307 0 0x31 = true ∧
    (let s := keyed0 (runs up 0 0x21000000 (0x7F ||| 1 <<< 18)) 1 0
     passesB s 0 0 0x21 = true ∧ bits 0x4007F 13 10 + 1 ≤ 2 ^ (bits 0x4007F 9 8 + 1) ∧
     bits 0x4007F 17 14 < bits 0x4007F 13 10 + 1 ∧ s.keyDefined 0 (bits 0x4007F 20 18) (bits 0x4007F 9 8 + 1) = true ∧
     bits 0x4007F 6 0 + bits 0x4007F 13 10 ≤ 127 ∧ s.altsFrom 0 0 (s.role 0 0) 127 1 0 = .ok [none]) := by
  decide +kernel

/-- A full queue of sequencer (0, 0). -/
def full0 (s : State) : State :=
  { s with tqs := [(0, { held := List.replicate 64 { cmd := .endMarker, stamp := 0, sid := 0, execAt := 0 } })] }

theorem test_hyps_StallsEndsAndBarriers :
    (passesB (full0 (runs up 0 0x06000000 0)) 0 0 0x06 = true ∧ (full0 (runs up 0 0x06000000 0)).queueFull (sk 0 0) = true) ∧
    (let s := { put up [(A.seqSts 0 0, F.seqSts.state, 3)] with seqs := [(0, { stall := .queue (.evt 0) 0 .next 0 })] }
     s.seqState 0 0 = 3 ∧ (s.seq (sk 0 0)).stall = .queue (.evt 0) 0 .next 0 ∧ s.queueFull (sk 0 0) = false ∧
     (s.seq (sk 0 0)).micro = none ∧ fallsB s 0 0 = true) ∧
    (let s := { put up [(A.seqSts 0 0, F.seqSts.state, 3)] with seqs := [(0, { stall := .queue .endMarker 9 .preload 0 })] }
     s.seqState 0 0 = 3 ∧ s.queueFull (sk 0 0) = false ∧ (s.seq (sk 0 0)).stall = .queue .endMarker 9 .preload 0 ∧
     (s.seq (sk 0 0)).micro = none ∧ (s.seq (sk 0 0)).bad = none ∧ s.patched 0 = false) ∧
    (let s := { put up [(A.seqSts 0 0, F.seqSts.state, 3)] with seqs := [(0, { stall := .queue .endMarker 9 (.fault ⟨31, 0, 0⟩) 0 })] }
     s.seqState 0 0 = 3 ∧ s.queueFull (sk 0 0) = false ∧ (s.seq (sk 0 0)).stall = .queue .endMarker 9 (.fault ⟨31, 0, 0⟩) 0 ∧
     (s.seq (sk 0 0)).micro = none ∧ (s.seq (sk 0 0)).bad = none ∧ s.patched 0 = false ∧
     s.on (A.seqFault 0 0) F.seqFault.valid = false) ∧
    issuesB 0 0x01000000 0 0x01 = true ∧
    (let s := lay (runs up 0 0x0500000F 0) [(A.tileBarLo 0 15, 1)]
     passesB s 0 0 0x05 = true ∧ s.inBarrier 0 0 15 = true) ∧
    (Ok 0x0500010F 0 0x05 ∧ (runs up 0 0x0500010F 0).inBarrier 0 0 15 = false) ∧
    (let s := { lay (put up [(A.seqSts 0 0, F.seqSts.state, 5), (A.seqSts 0 1, F.seqSts.state, 5)]) [(A.tileBarLo 0 15, 7)] with
       seqs := [(0, { stall := .sync 15 false }), (1, { stall := .sync 15 true }), (2, { done := true })] }
     (∃ k ∈ s.participants 0 15, s.waitsAt 15 k = true) ∧
     (∀ k ∈ s.participants 0 15, s.waitsAt 15 k = true ∨ (s.seq k).done = true) ∧ sk 0 0 ∈ s.participants 0 15 ∧
     s.seqState 0 0 = 5 ∧ (s.seq (sk 0 0)).stall = .sync 15 false ∧ (s.seq (sk 0 0)).micro = none ∧
     fallsB s 0 0 = true) := by
  decide +kernel

/-- Sequencer (0, 0) runs a NOP, whose first microword match register 3 of its tile redirects to word 255 of the patch RAM. -/
def redirected (w : Word) : State :=
  lay (put (runs up 0 0 0) [(A.ucMatch 0 3, F.ucMatch.enable, 1), (A.ucMatch 0 3, F.ucMatch.target, 255)]) [(A.ucPatchRam 0 255, w)]

theorem test_hyps_FaultsAndSequencerControl_patch :
    ((redirected 2).ucMatch 0 0 = some 3 ∧ (redirected 2).running 0 0 = true ∧ (redirected 2).queueFull (sk 0 0) = false ∧
      ((redirected 2).seq (sk 0 0)).micro = none ∧ (redirected 2).reg (A.ucPatchRam 0 ((redirected 2).fld (A.ucMatch 0 3) F.ucMatch.target)) = 2 ∧
      (redirected 2).insAt 0 0 ((redirected 2).pc 0 0) = ⟨0, 0, 0, 0, 0, 0, 0⟩ ∧ fallsB (redirected 2) 0 0 = true ∧
      microFault 2 = none ∧ mwDone 2 = true) ∧
    ((redirected 0).ucMatch 0 0 = some 3 ∧ (redirected 0).running 0 0 = true ∧ (redirected 0).queueFull (sk 0 0) = false ∧
      ((redirected 0).seq (sk 0 0)).micro = none ∧ ((redirected 0).insAt 0 0 0).op = 0 ∧ oddParity ((redirected 0).reg (A.ucPatchRam 0 255)) = false) := by
  decide +kernel

theorem test_hyps_FaultsAndSequencerControl :
    ((runs up 0 0 0).running 0 0 = true ∧ (runs up 0 0 0).queueFull (sk 0 0) = false ∧ ((runs up 0 0 0).insAt 0 0 0).op = 0) ∧
    opMask 0xFF = none ∧ (runs up 0 0xFF000000 0).patched 0 = false ∧ ((runs up 0 0x40000000 0).seq (sk 0 0)).micro = none ∧
    (runs up 0 0x40000000 0).patched 0 = false ∧ ((runs up 0 0x40000000 0).insAt 0 0 0).op = 0x40 ∧
    (((runs up 30 0x20000000 0).insAt 0 30 0).op = 0x20 ∧ 3 < (runs up 30 0x20000000 0).role 0 30) ∧
    ((runs up 0 0x40000001 0).insAt 0 0 0).sub ≠ 0 ∧
    (let s := ((put up [(A.seqSts 0 0, F.seqSts.state, 2), (A.seqPc 0 0, F.seqPc.pc, 4095)]))
     passesB s 0 0 0 = true ∧ s.pc 0 0 = 4095 ∧ s.depth 0 0 = 0) ∧
    issuesB 0 0 0 0 = true ∧
    (let s := put up [(A.seqSts 0 0, F.seqSts.state, 6), (A.seqFault 0 0, F.seqFault.valid, 1)]
     s.blockRefuse .host (A.seqCtl 0 0) = none ∧ s.isSealed = false ∧
     getF (s.reg (A.seqCtl 0 0)) F.seqCtl.startPc = s.fld (A.seqCtl 0 0) F.seqCtl.startPc ∧ s.seqState 0 0 = 6 ∧ s.patched 0 = false) ∧
    (up.seqState 0 0 ≠ 6 ∧ up.cfg.hold = none ∧ up.on (A.seqFault 0 0) F.seqFault.valid = false) ∧
    (up.seqIdle 0 33 = true ∧ up.blockRefuse .host (A.seqCtl 0 33) = none) ∧
    (runs up 0 0 0).seqIdle 0 0 = false ∧
    (let s := put up [(A.seqSts 0 0, F.seqSts.state, 7), (A.seqCtl 0 0, F.seqCtl.enable, 0)]
     s.seqState 0 0 = 7 ∧ s.on (A.seqCtl 0 0) F.seqCtl.enable = false ∧ s.plotOf 0 = some 0 ∧ s.role 0 0 ≠ 5 ∧
     s.stopped 0 = true ∧
     (put s [(A.runSts 0, F.runSts.state, 1)]).stopped 0 = false ∧ s.current 0 = none ∧ s.patched 0 = false ∧
     (sch0 (put s [(A.runSts 0, F.runSts.state, 2)]) { shots := [{ sid := 0, start := 0 }] }).current 0 ≠ none) ∧
    (let s := put up [(A.seqSts 0 33, F.seqSts.state, 7), (A.seqCtl 0 33, F.seqCtl.enable, 0)]
     s.seqState 0 33 = 7 ∧ s.on (A.seqCtl 0 33) F.seqCtl.enable = false ∧ s.role 0 33 = 5) ∧
    (let s := put up [(A.glbTileEn, ⟨31, 0⟩, 3), (A.seqSts 1 0, F.seqSts.state, 7), (A.seqCtl 1 0, F.seqCtl.enable, 0)]
     s.blockRefuse .host (A.seqCtl 1 0) = none ∧ s.seqState 1 0 = 7 ∧ s.on (A.seqCtl 1 0) F.seqCtl.enable = false ∧
     s.role 1 0 ≠ 5 ∧ s.plotOf 1 = none) ∧
    (let s := put up [(A.seqCtl 0 0, F.seqCtl.enable, 1)]
     s.seqIdle 0 0 = true ∧ s.on (A.seqCtl 0 0) F.seqCtl.enable = true) ∧
    (let s := put up [(A.glbSts, F.glbSts.sealed, 1)]
     s.blockRefuse .host (A.seqCtl 0 0) = none ∧ s.isSealed = true) := by
  decide +kernel

/-- A shot of plot 0 that started at DT 0 with serial number 0, at DT `dt`; tick 100 of real time. -/
def shot (s : State) (dt : Nat) : State :=
  { sch0 s { shots := [{ sid := 0, start := 0, started := true }] } with tm := { dt := BitVec.ofNat 64 dt, now := 100 } }

/-- Sequencer (0, 0) has a command on its way that was issued at tick 98 of real time. -/
def flies (s : State) (cmd : TqCmd) (stamp : Nat) : State :=
  { s with tqs := [(0, { flight := [{ cmd := cmd, stamp := stamp, sid := 0, issued := 98 }] })] }

theorem test_hyps_CommandsArriveInTheirQueue :
    (let s := flies (shot up 0) (.evt 0) 20
     s.plotOf 0 = some 0 ∧ s.startOf 0 0 = some { sid := 0, start := 0, started := true } ∧
     (s.tq (sk 0 0)).flight = [{ cmd := .evt 0, stamp := 20, sid := 0, issued := 98 }] ∧ 98 + 2 = s.tm.now ∧
     (s.tq (sk 0 0)).stamp ≠ some 20 ∧ (s.tq 0).haltAt = none ∧ s.DT + 20 ≤ 0 + 20 ∧ (s.tq 0).ahead ≤ 20 ∧
     (s.tq 0).countAt 20 < 4) ∧
    (let s := put (flies (shot up 1) (.evt 0) 20) [(A.tqCtl 0 0, F.tqCtl.latePol, 1)]
     0 + 20 < s.DT + 20 ∧ s.fld (A.tqCtl 0 0) F.tqCtl.latePol = 1) ∧
    (let s := put (flies (shot up 1) (.evt 0) 20) [(A.tqCtl 0 0, F.tqCtl.latePol, 2)]
     0 + 20 < s.DT + 20 ∧ s.fld (A.tqCtl 0 0) F.tqCtl.latePol = 2 ∧ 0 + (s.tq 0).ahead ≤ s.DT + 20 ∧
     (s.tq 0).countAt (s.DT + 20 - 0) < 4) ∧
    (let s := put (flies (shot up 1) (.evt 0) 20) [(A.tqCtl 0 0, F.tqCtl.latePol, 0)]
     s.fld (A.tqCtl 0 0) F.tqCtl.latePol = 0) ∧
    (let s := { shot up 0 with tqs := [(0, { flight := [{ cmd := .evt 0, stamp := 20, sid := 0, issued := 98 }], ahead := 30 })] }
     s.plotOf 0 = some 0 ∧ s.startOf 0 0 = some { sid := 0, start := 0, started := true } ∧ s.DT + 20 ≤ 0 + 20 ∧ 20 < (s.tq 0).ahead ∧
     (s.tq (sk 0 0)).flight = [{ cmd := .evt 0, stamp := 20, sid := 0, issued := 98 }] ∧ 98 + 2 = s.tm.now ∧
     (s.tq (sk 0 0)).stamp ≠ some 20 ∧ (s.tq 0).haltAt = none ∧ (s.tq 0).countAt (s.tq 0).ahead < 4) ∧
    (let e : Entry := { cmd := .evt 1, stamp := 20, sid := 0, execAt := 30, moved := true }
     let s := { shot up 30 with tqs := [(0, { flight := [{ cmd := .evt 0, stamp := 90, sid := 0, issued := 98 }], held := [e] })] }
     s.due 0 0 = some e ∧ s.plotOf 0 = some 0 ∧ s.startOf 0 0 = some { sid := 0, start := 0, started := true } ∧
     (s.tq (sk 0 0)).flight = [{ cmd := .evt 0, stamp := 90, sid := 0, issued := 98 }] ∧ 98 + 2 = s.tm.now) ∧
    ((flies (shot up 1) .endMarker 20).tq 0).flight = [{ cmd := .endMarker, stamp := 20, sid := 0, issued := 98 }] := by
  decide +kernel

/-- Sequencer (0, q) has an entry at the front of its queue that executes at shot tick `at_`. -/
def holds0 (s : State) (q : Nat) (cmd : TqCmd) (at_ : Nat) : State :=
  { s with tqs := [(q, { held := [{ cmd := cmd, stamp := at_, sid := 0, execAt := at_ }] })] }

/-- Segment 0 of tile 0 is valid, 4 granules long, in partition 0, which sequencer 0 may play. -/
def seg0 (s : State) (decant : Nat) : State :=
  put s [(A.segLo 0 0, F.segLo.valid, 1), (A.segLo 0 0, F.segLo.decant, decant), (A.segHi 0 0, F.segHi.lenG, 4),
    (A.cp 0 0, F.cp.valid, 1), (A.cp 0 0, F.cp.banks, 1), (A.cp 0 0, F.cp.ownerA, 0), (A.cp 0 0, F.cp.ownerB, 0x3F)]

/-- `Undecanted`, as a Bool. -/
def undecB (s : State) (i n : Nat) : Bool :=
  (match (s.chan i n).playing with | some pl => !s.segDecant i pl.seg | none => true) &&
    (List.range 16).all fun d => match (s.dec i d).player with | some (m, _) => m != n | none => true

theorem undec_of (s : State) (i n : Nat) (h : undecB s i n = true) : Undecanted s i n := by
  simp only [undecB, Bool.and_eq_true, List.all_eq_true, List.mem_range] at h
  refine ⟨fun pl hp => ?_, fun d m pl hd hp => ?_⟩
  · have := h.1
    rw [hp] at this
    simpa using this
  · have := h.2 d hd
    rw [hp] at this
    simpa using this

theorem test_hyps_PlayoutFollowsItsQueue :
    (let s := holds0 (seg0 (shot up 50) 0) 0 (.play ⟨0, 1, 0, false⟩) 50
     s.due 0 0 = some { cmd := .play ⟨0, 1, 0, false⟩, stamp := 50, sid := 0, execAt := 50 } ∧ s.pathOf 0 0 = some 0 ∧
     s.haltedAt 0 0 50 = false ∧ s.playable 0 0 0 = true ∧ s.segDecant 0 0 = false ∧ undecB s 0 0 = true) ∧
    (let s := put (holds0 (seg0 (shot up 50) 1) 0 (.play ⟨0, 1, 0, false⟩) 50) [(A.ddSts 0 0, F.ddSts.state, 2)]
     s.playable 0 0 0 = true ∧ s.segDecant 0 0 = true ∧ s.ddState 0 (s.segDesc 0 0) = 2 ∧ undecB s 0 0 = true) ∧
    (holds0 (shot up 50) 0 (.play ⟨0, 1, 0, false⟩) 50).playable 0 0 0 = false ∧
    (let s := holds0 (shot up 50) 0 (.play ⟨0, 1, 0, true⟩) 50
     s.due 0 0 = some { cmd := .play ⟨0, 1, 0, true⟩, stamp := 50, sid := 0, execAt := 50 }) ∧
    (let s := { seg0 (shot up 66) 0 with chans := [(0, { g0 := 50, jump := some (⟨0, 1, 0, true⟩, 58) })] }
     s.pathOf 0 0 = some 0 ∧ s.relTile 0 = some 66 ∧ (s.chan 0 0).jump = some (⟨0, 1, 0, true⟩, 58) ∧
     s.beforeJump 0 0 66 = false ∧ s.haltedAt 0 0 66 = false ∧ 66 = (s.chan 0 0).g0 + 16 * 1 ∧ 58 + 8 ≤ 66 ∧ s.playable 0 0 0 = true ∧
     s.segDecant 0 0 = false ∧ undecB s 0 0 = true ∧ (holds0 s 0 .endMarker 66).beforeJump 0 0 66 = true) ∧
    (let s := { shot up 114 with chans := [(0, { playing := some ⟨0, 50, 64, 1, 0, none⟩ })] }
     s.pathOf 0 0 = some 0 ∧ s.relTile 0 = some 114 ∧ (s.chan 0 0).playing = some ⟨0, 50, 64, 1, 0, none⟩ ∧
     (s.tq (sk 0 0)).haltAt = none ∧ 114 = 50 + 64 ∧ undecB s 0 0 = true) ∧
    (let s := holds0 (shot up 50) 0 .endMarker 50
     s.due 0 0 = some { cmd := .endMarker, stamp := 50, sid := 0, execAt := 50 } ∧ s.plotOf 0 = some 0 ∧ s.pathOf 0 0 = some 0 ∧
     undecB s 0 0 = true) := by
  decide +kernel

theorem test_hyps_ArmedEntriesTakeTheirAlternative :
    (let cmd := TqCmd.arm [none, none] 1 0 0 0
     let s := keyed0 (holds0 (shot up 30) 0 cmd 50) 0 0
     s.unresolved 0 0 = some { cmd := cmd, stamp := 50, sid := 0, execAt := 50 } ∧ s.plotOf 0 = some 0 ∧
     s.startOf 0 0 = some { sid := 0, start := 0, started := true } ∧ s.DT + 20 = 0 + 50 ∧
     keyValue (s.keyBits 0 0 0 (s.tagOf 0 0) 1 0) = some 1 ∧
     keyValue ((keyed0 s 0 1).keyBits 0 0 0 ((keyed0 s 0 1).tagOf 0 0) 1 0) = none) ∧
    (let cmd := TqCmd.arm [none, none] 1 0 0 0
     let e : Entry := { cmd := cmd, stamp := 50, sid := 0, execAt := 50, sel := some none }
     ({ shot up 50 with tqs := [(0, { held := [e] })] }).due 0 0 = some e) ∧
    (let cmd := TqCmd.arm [none, some ⟨0, 1, 0, false⟩] 1 0 0 0
     let e : Entry := { cmd := cmd, stamp := 50, sid := 0, execAt := 50, sel := some (some ⟨0, 1, 0, false⟩) }
     let s := { seg0 (shot up 50) 0 with tqs := [(0, { held := [e] })] }
     s.due 0 0 = some e ∧ s.pathOf 0 0 = some 0 ∧ s.haltedAt 0 0 50 = false ∧ s.playable 0 0 0 = true ∧
     s.segDecant 0 0 = false ∧ undecB s 0 0 = true) := by
  decide +kernel

theorem test_hyps_MarkersFramesAndEventsExecute :
    (let s := holds0 (shot up 50) 30 (.mark false 3 0) 50
     s.due 0 30 = some { cmd := .mark false 3 0, stamp := 50, sid := 0, execAt := 50 } ∧ s.auxPort 0 30 50 = true) ∧
    (let s := holds0 (shot up 50) 31 (.vec true 3 1) 50
     s.due 0 31 = some { cmd := .vec true 3 1, stamp := 50, sid := 0, execAt := 50 } ∧ s.auxPort 0 31 50 = true) ∧
    (let s := { shot up 50 with marks := [(0, { level := true, pulseEnd := some 50 }), (3, { level := true, pulseEnd := some 50 })] }
     (s.mark 0 0).pulseEnd = some s.DT ∧ (s.mark 0 (2 + 1)).pulseEnd = some s.DT) ∧
    (let s := holds0 (shot up 50) 15 (.freq 7 5) 50
     s.due 0 15 = some { cmd := .freq 7 5, stamp := 50, sid := 0, execAt := 50 } ∧ s.pathOf 0 15 = some 15) ∧
    (holds0 (shot up 50) 0 (.phase 7 true 5) 50).due 0 0 = some { cmd := .phase 7 true 5, stamp := 50, sid := 0, execAt := 50 } ∧
    (holds0 (shot up 50) 0 (.evt 3) 50).due 0 0 = some { cmd := .evt 3, stamp := 50, sid := 0, execAt := 50 } := by
  decide +kernel

theorem test_hyps_CellarAndFluxTableWrites :
    (up.blockRefuse .host (A.cp 0 31) = none ∧ up.tileIdle 0 = true ∧ up.isSealed = false ∧ (runs up 0 0 0).tileIdle 0 = false ∧
      (runs up 0 0 0).blockRefuse .host (A.cp 0 31) = none) ∧
    (up.blockRefuse .host (A.segLo 0 4095) = none ∧ up.blockRefuse .host (A.segHi 0 4095) = none ∧
      (runs up 0 0 0).blockRefuse .host (A.segLo 0 0) = none) ∧
    (up.blockRefuse .host (A.ddAddrLo 0 0) = none ∧ up.blockRefuse .host (A.ddAddrHi 0 0) = none ∧
      up.blockRefuse .host (A.ddLen 0 15) = none ∧ (runs up 0 0 0).blockRefuse .host (A.ddLen 0 15) = none ∧
      up.reg (A.ddGen 0 0) ≠ 0xFFFFFFFF ∧ (lay up [(A.ddGen 0 15, 0xFFFFFFFF)]).reg (A.ddGen 0 15) = 0xFFFFFFFF ∧
      (lay up [(A.ddGen 0 15, 0xFFFFFFFF)]).tileIdle 0 = true ∧
      (lay up [(A.ddGen 0 15, 0xFFFFFFFF)]).blockRefuse .host (A.ddLen 0 15) = none) ∧
    (up.blockRefuse .host (A.mkCfg 0 1) = none ∧ up.blockRefuse .host (A.vlCfg 0 1) = none ∧
      (put up [(A.glbSts, F.glbSts.sealed, 1)]).isSealed = true ∧ (∃ f ∈ spec_mkCfg.fields, f.lk = true ∧ getF 0xFFFFFFFF f.fld ≠ up.fld (A.mkCfg 0 1) f.fld)) ∧
    (0 < 0x200 ∧ (findReg (A.fxCfg 0 13 + 0)) = some (spec_fxCfg, [0, 13]) ∧ up.blockRefuse .host (A.fxCfg 0 13) = none) ∧
    (findReg (A.fxIirA1 0 13 2)).map (·.1) = some spec_fxIirA1 ∧
    A.fxIirA1 0 13 2 - A.fxCfg 0 13 < 0x200 ∧
    (-262144 < sext 20 (0x3FFFF : Word).toNat ∧ sext 20 (0x3FFFF : Word).toNat < 262144 ∧ 262144 ≤ sext 20 (0x40000 : Word).toNat ∧
      sext 20 (0xC0000 : Word).toNat ≤ -262144) ∧
    findReg (A.fxIdle 0 0) = some (spec_fxIdle, [0, 0]) := by
  decide +kernel

/-- Descriptor 0 of tile 0 fetches the chunks `l`, for a segment of 4 granules with 64 samples. -/
def fetches (s : State) (l : List Nat) : State :=
  { lay (seg0 s 1) [(A.ddLen 0 0, 64)] with decs := [(0, { fetching := l, priming := true })] }

/-- Path 0 plays the decanted segment 0 of tile 0 from shot tick 0 on, 8,192 samples; descriptor 0 plays. -/
def plays0 (s : State) (len : Nat) (resident : List Nat) : State :=
  { lay (put (seg0 s 1) [(A.ddSts 0 0, F.ddSts.state, 3)]) [(A.ddLen 0 0, 8192)] with
    decs := [(0, { player := some (0, ⟨0, 0, len, 1, 0, none⟩), resident := resident })], chans := [(0, { playing := some ⟨0, 0, len, 1, 0, none⟩ })] }

theorem test_hyps_DecantFetchesChunks :
    (up.blockRefuse .host (A.ddCtl 0 15) = none ∧ up.on (A.ddCtl 0 15) F.ddCtl.enable = false ∧
      (put up [(A.ddCtl 0 15, F.ddCtl.enable, 1)]).on (A.ddCtl 0 15) F.ddCtl.enable = true ∧
      (lay up [(A.ddLen 0 0, 1)]).ddBadLen 0 0 = true ∧ up.ddBadLen 0 0 = false ∧ up.ddLen 0 0 = 0 ∧
      (fetches up []).ddBadLen 0 0 = false ∧ (fetches up []).ddLen 0 0 ≠ 0 ∧ up.dmaOk = true ∧
      ({ fetches up [] with pcie := {} }).dmaOk = false) ∧
    (let s := put (fetches up [0]) [(A.ddCtl 0 0, F.ddCtl.auth, 1)]
     (s.dec 0 0).fetching = [0] ∧ s.fetchFirst 0 0 = true ∧ (List.replicate 64 (0 : Word)).length = s.chunkLen 0 0 0 ∧
     s.ddAuth 0 0 = true ∧ s.segOfDesc 0 0 none = some 0) ∧
    (let s := fetches up [0]
     s.ddAuth 0 0 = false ∧ s.segOfDesc 0 0 none = some 0) ∧
    ((fetches up [0, 1]).dec 0 0).fetching ≠ [] ∧
    (let s := plays0 (shot up 4096) 8192 [0, 1]
     s.ddState 0 0 = 3 ∧ s.playback 0 0 = some (0, ⟨0, 0, 8192, 1, 0, none⟩, 4096 * (s.fld (A.ddChunk 0 0) F.ddChunk.chunk + 1)) ∧
     s.dmaOk = true ∧ s.ddLen 0 0 ≤ 4096 * (0 + 2)) ∧
    (let s := { lay (plays0 (shot up 4096) 12288 [0, 1]) [(A.ddLen 0 0, 12288)] with pcie := {} }
     s.ddState 0 0 = 3 ∧ s.playback 0 0 = some (0, ⟨0, 0, 12288, 1, 0, none⟩, 4096 * (s.fld (A.ddChunk 0 0) F.ddChunk.chunk + 1)) ∧
     s.dmaOk = false ∧ 4096 * (0 + 2) < s.ddLen 0 0) ∧
    (let s := plays0 (shot up 4096) 8192 []
     s.playback 0 0 = some (0, ⟨0, 0, 8192, 1, 0, none⟩, 4096) ∧ 4096 < s.ddLen 0 0 ∧
     (s.dec 0 0).resident.contains (4096 / 4096) = false) := by
  decide +kernel

/-- An entry on its way to bias output (0, 0) for instant `u`, of shot 0 of plot 0. -/
def entry0 (u : Nat) : BiasEntry := { code := 5, host := false, u := some u, shot := some (0, 0), handed := 100, ser := 0 }

theorem test_hyps_BiasEntriesReachTheirChannel :
    (let s := holds0 (shot up 50) 30 (.biasq 15 5) 50
     s.due 0 30 = some { cmd := .biasq 15 5, stamp := 50, sid := 0, execAt := 50 } ∧ s.plotOf 0 = some 0 ∧
     s.auxPort 0 30 50 = true ∧ (s.bias (quadOf 0) (biasCh 0 15)).halt ≠ some (0, 0) ∧ s.blkUp (quadOf 0) = true) ∧
    (put (holds0 (shot up 50) 30 (.biasq 15 5) 50) [(A.glbBridgeSts, F.glbBridgeSts.blkUp, 14)]).blkUp (quadOf 0) = false ∧
    (up.blockRefuse .host (A.bqHost 0 15) = none ∧ up.blkUp (quadOf 0) = true ∧
      (put up [(A.glbBridgeSts, F.glbBridgeSts.blkUp, 14)]).blockRefuse .host (A.bqHost 0 15) = none) ∧
    (let s := bias0 (shot up 2499) { flight := [entry0 2500] }
     (s.bias 0 0).flight = [] ++ entry0 2500 :: [] ∧ s.tm.now ≤ (entry0 2500).handed + 100 + 80 * (entry0 2500).repeats ∧
     (entry0 2500).host = false ∧ (entry0 2500).u = some 2500 ∧ (entry0 2500).shot = some (0, 0) ∧ (s.bias 0 0).mark = none ∧
     (s.bias 0 0).hold = false ∧ s.clrOn 0 = false ∧ s.DT ≤ 2500 + 250 ∧ (s.bias 0 0).places < 4 ∧
     ({ s with shutAt := some 0 }).clrOn 0 = true) ∧
    ((bias0 (shot up 2499) { flight := [entry0 2500], hold := true }).bias 0 0).hold = true ∧
    (let s := bias0 (shot up 2499) { flight := [entry0 2500], queue := [⟨1, 5000, none, 0, false⟩, ⟨1, 7500, none, 1, false⟩, ⟨1, 10000, none, 2, false⟩, ⟨1, 12500, none, 3, false⟩] }
     (s.bias 0 0).places = 4 ∧ ((s.bias 0 0).waits.any fun x => x.u == 2500) = false) ∧
    (let s := put (bias0 (shot up 2751) { flight := [entry0 2500] }) [(A.bqCtl 0 0, F.bqCtl.latePol, 1)]
     2500 + 250 < s.DT ∧ s.fld (A.bqCtl 0 0) F.bqCtl.latePol = 1) ∧
    (put (bias0 (shot up 2751) { flight := [entry0 2500] }) [(A.bqCtl 0 0, F.bqCtl.latePol, 0)]).fld (A.bqCtl 0 0) F.bqCtl.latePol = 0 ∧
    (let s := put (bias0 (shot up 2751) { flight := [entry0 2500] }) [(A.bqCtl 0 0, F.bqCtl.latePol, 3)]
     2500 + 250 < s.DT ∧ 2 ≤ s.fld (A.bqCtl 0 0) F.bqCtl.latePol ∧ 2500 ∣ 5000 ∧ s.DT ≤ 5000 + 250 ∧ 5000 < s.DT + 2250 ∧
     (s.bias 0 0).mark = none ∧ (s.bias 0 0).places < 4) ∧
    (let e : BiasEntry := { code := 5, host := true, u := none, shot := none, handed := 100, ser := 1 }
     let s := bias0 (shot up 2750) { flight := [entry0 5000, e] }
     (s.bias 0 0).flight = [entry0 5000] ++ e :: [] ∧ [entry0 5000].length = 1 ∧ s.tm.now ≤ e.handed + 100 + 80 * e.repeats ∧
     e.host = true ∧ (s.bias 0 0).hold = false ∧ s.clrOn 0 = false ∧ 2500 ∣ 2500 ∧ s.DT ≤ 2500 + 250 ∧ 2500 < s.DT + 2250 ∧
     (s.bias 0 0).mark = none ∧ (s.bias 0 0).places < 4) := by
  decide +kernel

/-- Device time runs and stands at an update instant. -/
def inst (s : State) : State := { put s [(A.dtSts, F.dtSts.running, 1)] with tm := { dt := 2500, now := 100 } }

theorem test_hyps_BiasUpdatesAndRegistersCrossTheLink :
    (let s := bias0 (inst up) { cfgd := true, span := (up.fld (A.bdCfg 0 0) F.bdCfg.span), queue := [⟨1, 2500, none, 0, false⟩, ⟨2, 2500, none, 1, false⟩] }
     s.on A.dtSts F.dtSts.running = true ∧ s.DT % 2500 = 0 ∧ (s.bias 0 0).cfgd = true ∧ (s.bias 0 0).mark = none ∧
     (s.bias 0 0).writes = [] ∧ (s.bias 0 0).clearDue = none ∧ (s.bias 0 0).phase = 0 ∧ (s.bias 0 0).hold = false ∧
     (s.bias 0 0).clear = 0 ∧ (s.bias 0 0).holds = false ∧ s.clrOn 0 = false ∧ s.blkUp 0 = true ∧ s.genOn 0 0 = false ∧
     s.fld (A.bdCfg 0 0) F.bdCfg.span = (s.bias 0 0).span) ∧
    (findReg (A.bdCfg 0 0 + 0) = some (spec_bdCfg, [0, 0]) ∧ up.blockRefuse .host (A.bdCfg 0 0 + 0) = none ∧ up.isSealed = false ∧
      bdBad 0 0xFFFFFFFF = true ∧ bdBad 0 0 = false ∧ bdStaged 0 = true ∧ up.blkUp 0 = true) ∧
    (findReg (A.bdSts 3 127)).map (·.1) = some spec_bdSts ∧
    (bdBad (A.bdSts 3 127 - A.bdCfg 3 127) 0 = false ∧ bdStaged (A.bdSts 3 127 - A.bdCfg 3 127) = false) ∧
    (put up [(A.glbBridgeSts, F.glbBridgeSts.blkUp, 14)]).blkUp 0 = false ∧
    (let s := put up [(A.glbSts, F.glbSts.sealed, 1)]
     s.isSealed = true ∧ s.blockRefuse .host (A.bdCfg 0 0 + 0) = none ∧ s.blkUp 0 = true ∧
     (put s [(A.glbBridgeSts, F.glbBridgeSts.blkUp, 14)]).blkUp 0 = false ∧
     lockHit spec_bdCfg.fields true (s.bdNewest 0 0 0) (s.bdNewest 0 0 0 ^^^ putF 0 F.bdCfg.clrSel 1) = true ∧
     bdBad 0 (s.bdNewest 0 0 0 ^^^ putF 0 F.bdCfg.clrSel 1) = false) := by
  decide +kernel

theorem test_hyps_BiasProtection :
    (let s := bias0 up { trip := true }
     (s.bias 0 0).trip = true ∧ (put s [(A.bdComp 0 0, F.bdComp.action, 0)]).fld (A.bdComp 0 0) F.bdComp.action = 0 ∧
     (put s [(A.bdComp 0 0, F.bdComp.action, 1)]).fld (A.bdComp 0 0) F.bdComp.action = 1 ∧ s.clrOn 0 = false ∧
     (s.bias 0 0).phase = 0 ∧ (put s [(A.bdComp 0 0, F.bdComp.action, 2)]).fld (A.bdComp 0 0) F.bdComp.action = 2) ∧
    ((inst up).on A.dtSts F.dtSts.running = true ∧ (inst up).DT % 2500 = 0 ∧ (inst up).clrPin 0 = false ∧
      (put (inst up) [(A.bqdSts 0, F.bqdSts.clrPin, 1)]).clrPin 0 = true ∧ (inst up).clrBefore 0 true = false ∧
      (inst up).clrBefore 0 false = false) ∧
    (let s := { inst up with clrSamp := [(0, some (99, true))] }
     s.clrPin 0 = false ∧ s.clrBefore 0 true = true ∧ s.live = true) ∧
    (let s : State := { State.reset with tm := { now := 2500 }, clrSamp := [(0, some (0, true))] }
     s.clrPin 0 = false ∧ s.clrBefore 0 true = true ∧ s.live = false ∧ s.on A.dtSts F.dtSts.running = false) ∧
    (let s := { put (inst up) [(A.bqdSts 0, F.bqdSts.clrPin, 1)] with clrSamp := [(0, some (99, false))] }
     s.clrPin 0 = true ∧ s.clrBefore 0 false = true) ∧
    (let s := put (bias0 (inst up) { mark := some (100, 2500), phase := 3, span0 := 3, span := 0 }) [(A.bdCfg 0 0, F.bdCfg.slewEn, 0)]
     (s.bias 0 0).mark = some (s.tm.now, 2500) ∧ (s.bias 0 0).phase = 3 ∧ (s.bias 0 0).settle = 0 ∧ s.blkUp 0 = true ∧
     s.slewEn 0 0 = false ∧ (spanOf 3).2.2 = (spanOf 0).2.2 ∧ (spanOf 3).2.2 ≠ (spanOf 4).2.2) := by
  decide +kernel

/-- An open window of set 0 on lane (0, 0), of plot 0 and shot 0. -/
def win0 (t len : Nat) (a : Word) : Win :=
  { set := 0, a := a, b := 0, c := 0, d := 0, t := t, len := len, start := 0, plot := 0, sid := 0, num := 0, midx := 0,
    noRec := false, noDec := false }

theorem test_hyps_WindowsOpenAndClose :
    (let cmd := TqCmd.meas 100 0 0 false false false
     let s := holds0 (shot up 50) 8 cmd 50
     s.due 0 8 = some { cmd := cmd, stamp := 50, sid := 0, execAt := 50 } ∧ s.plotOf 0 = some 0 ∧
     s.startOf 0 0 = some { sid := 0, start := 0, started := true } ∧ s.pathOf 0 8 = some 8 ∧ s.haltedAt 0 8 50 = false ∧
     s.fld (A.rsA 0 0 0) F.rsA.valid = 0 ∧
     (put s [(A.rsA 0 0 0, F.rsA.valid, 1)]).fld (A.rsA 0 0 0) F.rsA.valid = 1 ∧ (s.lane 0 0).win false = none ∧
     s.fld (A.rsA 0 0 0) F.rsA.acc = 0 ∧ (s.lane 0 0).job false = none ∧ (s.lane 0 0).win (!false) = none ∧
     (let u := { s with lanes := [(0, { sh := some (win0 40 100 0) })] }
      (u.lane 0 0).win (!false) = some (win0 40 100 0) ∧ ¬((win0 40 100 0).start = 0 ∧ (win0 40 100 0).t = 50)) ∧
     (let u := { s with lanes := [(0, { sh := some (win0 50 100 0) })] }
      (u.lane 0 0).win (!false) = some (win0 50 100 0) ∧ (win0 50 100 0).start = 0 ∧ (win0 50 100 0).t = 50) ∧
     (let u := put { s with lanes := [(0, { jobFg := some (0, 1) })] } [(A.rsA 0 0 0, F.rsA.acc, 1)]
      u.fld (A.rsA 0 0 0) F.rsA.acc = 1 ∧ (u.lane 0 0).job false = some (0, 1)) ∧
     (holds0 (shot up 50) 0 cmd 50).pathOf 0 0 = some 0) ∧
    (let s := { shot up (0 + 40 + 32 + 29) with lanes := [(0, { fg := some (win0 40 2 0) })] }
     (s.lane 0 0).win false = some (win0 40 2 0) ∧ (win0 40 2 0).first + 29 ≤ s.DT ∧ s.DT ≤ (win0 40 2 0).last + 29 ∧
     (win0 40 2 0).lost = [] ∧ getF (win0 40 2 0).a F.rsA.wmode = 0 ∧ ((s.lane 0 0).acc false).ci = false) ∧
    (let s := { shot up (0 + 40 + 31 + 2 + 31) with lanes := [(0, { fg := some (win0 40 2 0) })] }
     s.DT = (win0 40 2 0).last + 31 ∧ (win0 40 2 0).stored = none ∧ getF (win0 40 2 0).a F.rsA.acc = 0) ∧
    (let s := { shot up (0 + 40 + 31 + 2 + 36) with lanes := [(0, { fg := some (win0 40 2 0) })] }
     (s.lane 0 0).win false = some (win0 40 2 0) ∧ s.DT = (win0 40 2 0).last + 36 ∧ (win0 40 2 0).stored = none ∧
     (let w := { win0 40 2 0 with stored := some ⟨1, 2, 0, 0, 0⟩ }
      w.stored = some ⟨1, 2, 0, 0, 0⟩ ∧ getF w.a F.rsA.acc = 0 ∧ w.noDec = false ∧ w.noRec = false) ∧
     getF (putF 0 F.rsA.acc 1) F.rsA.acc = 1) := by
  decide +kernel

theorem test_hyps_ReadoutConfiguration :
    (up.blockRefuse .host (A.riCfg 0) = none ∧ up.tileIdle 0 = true ∧ up.isSealed = false ∧ (runs up 0 0 0).tileIdle 0 = false ∧
      (runs up 0 0 0).blockRefuse .host (A.riCfg 0) = none ∧
      getF 0 F.riCfg.band = up.fld (A.riCfg 0) F.riCfg.band ∧
      getF 0xFFFFFFFF F.riCfg.band ≠ (runs up 0 0 0).fld (A.riCfg 0) F.riCfg.band) ∧
    (up.blockRefuse .host (A.rsA 0 7 15 + 4 * 3) = none ∧ (runs up 0 0 0).blockRefuse .host (A.rsA 0 7 15 + 4 * 3) = none) ∧
    (let w : Word := putF (putF 0 F.dbLoop.k 4) F.dbLoop.en 1
     up.blockRefuse .host (A.dbLoop 0 7 3) = none ∧ getF (0 : Word) F.dbLoop.k < 4 ∧ 16 < getF (0xFFFFFFFF : Word) F.dbLoop.k ∧
     4 ≤ getF w F.dbLoop.k ∧ getF w F.dbLoop.en = 1 ∧ up.on (A.dbLoop 0 7 3) F.dbLoop.en = false ∧ (up.bank 0 7 3).pendEn = none ∧
     (let s := put up [(A.dbCtl 0 7 3, F.dbCtl.stateMap, 0x94), (A.dbCtl 0 7 3, F.dbCtl.disc0En, 1)]
      s.fld (A.dbCtl 0 7 3) F.dbCtl.stateMap = 0x94 ∧ s.discOn 0 7 3 0 = true ∧ s.tileStopped 0 = true ∧ s.tileIdle 0 = true) ∧
     (let s := put (runs up 0 0 0) [(A.dbCtl 0 7 3, F.dbCtl.stateMap, 0x94), (A.dbCtl 0 7 3, F.dbCtl.disc0En, 1),
        (A.runSts 0, F.runSts.state, 2), (A.dbLoop 0 7 3, F.dbLoop.k, 4)]
      s.tileStopped 0 = false ∧ s.tileIdle 0 = false ∧ getF w F.dbLoop.k = s.fld (A.dbLoop 0 7 3) F.dbLoop.k ∧
      getF (putF w F.dbLoop.sepLim (s.fld (A.dbLoop 0 7 3) F.dbLoop.sepLim)) F.dbLoop.sepLim = s.fld (A.dbLoop 0 7 3) F.dbLoop.sepLim) ∧
     up.discOn 0 7 3 0 = false ∧
     (getF (putF (0 : Word) F.dbLoop.k 16) F.dbLoop.en == 1) = up.loopOwns 0 7 3) ∧
    (let w : Word := putF (putF 0 F.ttCtl.k 16) F.ttCtl.en 1
     up.blockRefuse .host (A.ttCtl 0 7) = none ∧ 4 ≤ getF w F.ttCtl.k ∧ getF w F.ttCtl.k ≤ 16 ∧ getF w F.ttCtl.en = 1 ∧
     up.on (A.ttCtl 0 7) F.ttCtl.en = false ∧ up.tileStopped 0 = true ∧
     (put up [(A.runSts 0, F.runSts.state, 1)]).tileStopped 0 = false ∧
     (put up [(A.ttCtl 0 7, F.ttCtl.en, 1)]).on (A.ttCtl 0 7) F.ttCtl.en = true) := by
  decide +kernel

/-- A decision of slot 0 with tag FFh (the tag before the first shot), due at tick 0 of real time. -/
def dec0 (tag : Nat) (sh : Bool) : Dec := { value := 1, tag := tag, midx := 0, at_ := 0, shadow := sh }

theorem test_hyps_TrellisDecidesAndIsConfigured :
    (let s := { up with tileRels := [(0, [dec0 255 false])], devRels := [(0, [dec0 255 false])] }
     ((KMap.get [] s.tileRels 0).filter fun x => x.at_ == s.tm.now) = [dec0 255 false] ∧ s.slotTag 0 = some (dec0 255 false).tag ∧
     ((KMap.get [] s.devRels 0).filter fun x => x.at_ == s.tm.now) = [dec0 255 false] ∧
     s.startFirst 0 = false ∧ s.startFirst (320 + 191) = false) ∧
    (let s := sch0 up { shots := [{ sid := 0, start := 0 }] }
     s.startFirst 0 = true ∧ s.startFirst (320 + 191) = true) ∧
    (let s := { up with tileRels := [(0, [dec0 1 false])], devRels := [(0, [dec0 1 false])] }
     s.slotTag 0 ≠ some (dec0 1 false).tag ∧
     ((KMap.get [] s.devRels 0).filter fun x => x.at_ == s.tm.now) = [dec0 1 false]) ∧
    (let s := { up with tileRels := [(0, [dec0 255 false, dec0 255 true])] }
     ((KMap.get [] s.tileRels 0).filter fun x => x.at_ == s.tm.now) = [dec0 255 false, dec0 255 true]) ∧
    (let s := { lay (put up [(A.puCfg 0, F.puCfg.en, 1)]) [(A.puMaskLo 0, 1)] with
       parIns := [(0, [⟨0, 1, 99, 0⟩])], tm := { now := 100 } }
     s.on (A.puCfg 0) F.puCfg.en = true ∧ s.on (A.puSts 0) F.puSts.fired = false ∧ s.parTick 0 = some s.tm.now) ∧
    (let s := { up with remRels := [(191, [dec0 255 false])] }
     ((KMap.get [] s.remRels 191).filter fun x => x.at_ == s.DT).getLast? = some (dec0 255 false) ∧
     (dec0 255 false).tag = (s.plotTag (s.fld (A.rmCfg 191) F.rmCfg.plot) + s.fld (A.rmCfg 191) F.rmCfg.tagOfs) % 256 ∧
     (dec0 0 false).tag ≠ (s.plotTag (s.fld (A.rmCfg 191) F.rmCfg.plot) + s.fld (A.rmCfg 191) F.rmCfg.tagOfs) % 256) ∧
    (up.isSealed = false ∧ up.blockRefuse .host (A.puCfg 63 + 4 * 2) = none ∧ up.parMask 63 = [] ∧
      (let s := lay (runs up 0 0 0) [(A.puMaskLo 0, 1)]
       s.blockRefuse .host (A.puCfg 0) = none ∧ 0 ∈ s.parMask 0 ∧ s.tileIdle (0 / 8) = false) ∧
      up.blockRefuse .host (A.kb 0 7 3) = none ∧ up.tileIdle 0 = true ∧ (runs up 0 0 0).tileIdle 0 = false ∧
      up.blockRefuse .host (A.rmCfg 191) = none ∧ up.stopped (up.fld (A.rmCfg 191) F.rmCfg.plot) = true ∧
      up.stopped (getF 0 F.rmCfg.plot) = true ∧
      (put up [(A.runSts 7, F.runSts.state, 1)]).stopped (getF (putF 0 F.rmCfg.plot 7) F.rmCfg.plot) = false ∧
      up.blockRefuse .host (A.exp 319) = none) := by
  decide +kernel

/-- Link 0 in a state with active lanes. -/
def kl0 (s : State) (st lanes : Nat) (x : KLink) : State :=
  { put s [(A.klSts 0, F.klSts.state, st), (A.klSts 0, F.klSts.activeLanes, lanes)] with links := [(0, x)] }

theorem test_hyps_LinksTrain :
    (up.blockRefuse .host (A.klCtl 7) = none ∧ up.isSealed = false ∧ up.on (A.klCtl 7) F.klCtl.en = false ∧
      (put up [(A.klCtl 7, F.klCtl.en, 1)]).on (A.klCtl 7) F.klCtl.en = true ∧ getF (putF 0 F.klCtl.en 1) F.klCtl.en = 1 ∧
      getF 0 F.klCtl.en = 0 ∧ up.linksMay = true ∧ up.shutAt = none ∧ ({ up with shutAt := some 0 }).linksMay = false ∧
      (put up [(A.glbSts, F.glbSts.bootStage, 2)]).linksMay = false ∧
      (put up [(A.glbSts, F.glbSts.bootStage, 2)]).blockRefuse .host (A.klCtl 7) = none) ∧
    (let s := kl0 up 1 0 { good := 15 }
     s.klState 0 = 1 ∧ 2 ≤ laneCount ((s.link 0).good &&& (3 : BitVec 4).toNat) ∧ s.fld (A.klSts 0) F.klSts.phase < 4) ∧
    (let s := put (kl0 up 1 0 { good := 15 }) [(A.klSts 0, F.klSts.phase, 4), (A.klSts 0, F.klSts.attempt, 7)]
     s.fld (A.klSts 0) F.klSts.phase = 4 ∧ (15 : BitVec 4).toNat = (s.link 0).good &&& (15 : BitVec 4).toNat ∧ s.devNum ≠ 5 ∧
     s.fld (A.klSts 0) F.klSts.attempt < 8 ∧ 1 ≤ s.fld (A.klSts 0) F.klSts.attempt ∧ (s.link 0).retry = false ∧
     (14 : BitVec 4).toNat ≠ (s.link 0).good) ∧
    (let s := { put (kl0 up 1 0 { attemptAt := 0 }) [(A.klSts 0, F.klSts.attempt, 1)] with tm := { now := 25000000 } }
     s.klState 0 = 1 ∧ (s.link 0).attemptAt + 25000000 ≤ s.tm.now ∧ 1 ≤ s.fld (A.klSts 0) F.klSts.attempt ∧
     s.fld (A.klSts 0) F.klSts.attempt < 8 ∧ (s.link 0).retry = false) ∧
    (let s := { put (kl0 up 1 0 { attemptAt := 0 }) [(A.klSts 0, F.klSts.attempt, 8)] with tm := { now := 25000000 } }
     8 ≤ s.fld (A.klSts 0) F.klSts.attempt) ∧
    (let s := put (kl0 up 5 0 { backoffAt := 0 }) [(A.klSts 0, F.klSts.attempt, 7)]
     s.klState 0 = 5 ∧ (s.link 0).backoffAt ≤ s.tm.now ∧ s.fld (A.klSts 0) F.klSts.attempt < 8) ∧
    (let s := { put (kl0 up 6 0 {}) [(A.klCtl 0, F.klCtl.autoretry, 1)] with tm := { now := 2500000000 } }
     s.klState 0 = 6 ∧ s.on (A.klCtl 0) F.klCtl.autoretry = true ∧ (s.link 0).downAt + 2500000000 ≤ s.tm.now) := by
  decide +kernel

theorem test_hyps_LanesOfALink :
    (let s := kl0 up 2 15 {}
     s.klUp 0 = true ∧ (s.klLanes 0).testBit 3 = true ∧ 2 ≤ laneCount (s.klLanes 0 - 2 ^ 3) ∧ (s.link 0).replay = [] ∧
     (s.link 0).inject = [] ∧ (s.link 0).badHdr = [] ∧ 0 < 31 ∧
     (put s [(A.klLnSts 0 3, F.klLnSts.blockLock, 1)]).on (A.klLnSts 0 3) F.klLnSts.blockLock = true) ∧
    (let s := kl0 up 3 3 {}
     s.klUp 0 = true ∧ (s.klLanes 0).testBit 1 = true ∧ laneCount (s.klLanes 0 - 2 ^ 1) < 2) ∧
    (let s := put (kl0 up 3 7 {}) [(A.klLnSts 0 3, F.klLnSts.retraining, 1)]
     s.klUp 0 = true ∧ s.on (A.klLnSts 0 3) F.klLnSts.retraining = true ∧ (s.klLanes 0).testBit 3 = false) ∧
    (let s := kl0 up 3 3 {}
     let b := controlBlock 3 0 15
     s.klUp 0 = true ∧ blkF b 0 8 = 0x66 ∧ blkF b 8 8 = 3 ∧ blkF b 48 16 = crcControl b ∧ blkF b 24 4 = 15 ∧
     ∀ i, i < 4 → (s.klLanes 0).testBit i = true → (15 : Nat).testBit i = true) ∧
    (let s := kl0 up 2 15 {}
     blkF (controlBlock 3 0 3) 24 4 = 3 ∧ (∃ i, i < 4 ∧ (s.klLanes 0).testBit i = true ∧ (3 : Nat).testBit i = false) ∧
     2 ≤ laneCount 3) ∧
    (4 ≤ ((kl0 up 2 15 { rxFails := 4 }).link 0).rxFails ∧ 4 ≤ ((kl0 up 2 15 { txFails := 4 }).link 0).txFails) ∧
    (let s := { kl0 up 2 15 {} with tm := { now := 1000000 } }
     s.fld (A.klFill 0) F.klFill.period * 165 ≤ (s.tm.now - (s.link 0).fillAt) * 32 ∧ (s.link 0).actAt + 10560 ≤ s.tm.now) ∧
    (let s := { put (kl0 up 2 15 {}) [(A.klCtl 0, F.klCtl.idleEn, 1), (A.glbTilePlot 0, ⟨3, 0⟩, 0)] with tm := { now := 1000000 } }
     let b := controlBlock 4 0 15
     s.idleOk 0 = true ∧ (s.link 0).inject = [] ∧ (kl0 up 2 15 {}).idleOk 0 = false ∧ blkF b 0 8 = 0x66 ∧ blkF b 8 8 = 4 ∧ blkF b 48 16 = crcControl b ∧
     blkF (controlBlock 5 0 15) 8 8 = 5 ∧ blkF (controlBlock 5 0 15) 48 16 = crcControl (controlBlock 5 0 15)) ∧
    (let s := kl0 up 4 0 { wait := [.bulk 0 0 1 0 [0]], good := 15 }
     s.klState 0 = 4 ∧ (s.link 0).wait ≠ [] ∧ 2 ≤ laneCount ((s.link 0).good &&& (15 : BitVec 4).toNat) ∧
     laneCount ((s.link 0).good &&& (1 : BitVec 4).toNat) < 2) ∧
    (let s := { put up [(A.klTtCfg, F.klTtCfg.en, 1)] with tm := { now := 1000000000 } }
     s.ttDue = true ∧ s.fld A.klTtCfg F.klTtCfg.uplink = 0 ∧
     (sch0 up { shots := [{ sid := 0, start := 1000 }] }).startNear 0 = true) := by
  decide +kernel

/-- Block 0 of a decision message: LSEQ 0, alive 1, source device 1, slot 0. -/
def decB0 : Block := BitVec.ofNat 64 (0x1E + 1 * 2 ^ 16 + 1 * 2 ^ 24)

/-- Its block 1: USE_DT `use`, for device 0, with its check. -/
def decB1 (use : Nat) : Block :=
  let b := BitVec.ofNat 64 (use + 1 * 2 ^ 32)
  b ||| BitVec.ofNat 64 (crcDecision decB0 b * 2 ^ 48)

/-- Blocks of a time-transfer message of a kind with depth 0, from an aligned partner, with its check. -/
def ttB0 (kind depth : Nat) : Block := BitVec.ofNat 64 (0x33 + 1 * 2 ^ 16 + kind * 2 ^ 24 + depth * 2 ^ 56 + 1 * 2 ^ 60)
def ttB2 (kind depth : Nat) : Block := BitVec.ofNat 64 (crcTt (ttB0 kind depth) 0 0 * 2 ^ 48)

/-- Header and trailer of a bulk message of a kind with one payload block of zeros, for device 0. -/
def bulkH (kind : Nat) : Block := BitVec.ofNat 64 (0x2D + 1 * 2 ^ 16 + kind * 2 ^ 24 + 1 * 2 ^ 32)
def bulkT (kind : Nat) : Block := BitVec.ofNat 64 (crcBulk (bulkH kind) [0])

/-- Links up to here have heard nothing since training. -/
def fresh0 (s : State) : State := kl0 s 2 15 { freshRx := [0, 1, 2, 3, 4, 5] }

/-- `Arrives`, as a Bool. -/
def arrivesB (k st : Nat) (h : Block) (s : State) : Bool :=
  s.klUp k && (!(s.link k).naked || blkF h 8 8 == (s.link k).rxSeq) &&
    ((s.link k).freshRx.contains st || (s.link k).rxAlive.getD st none != some (blkF h 16 8))

theorem arrives_of (k st : Nat) (h : Block) (s : State) (e : arrivesB k st h s = true) : Arrives k st h s := by
  simp only [arrivesB, Bool.and_eq_true, Bool.or_eq_true, Bool.not_eq_true', beq_iff_eq, bne_iff_ne] at e
  exact ⟨e.1.1, e.1.2, e.2⟩

theorem test_hyps_LinkMessages :
    (let s := fresh0 (put up [(A.rmCfg 0, F.rmCfg.en, 1), (A.rmCfg 0, F.rmCfg.srcDev, 1)])
     s.klUp 0 = true ∧ blkF decB0 0 8 = 0x1E ∧ blkF (decB1 60) 48 16 = crcDecision decB0 (decB1 60) ∧ arrivesB 0 0 decB0 s = true ∧
     blkF (decB1 60) 32 16 = 2 ^ s.devNum ∧ (s.link 0).inject = [] ∧ s.rmFind (blkF decB0 24 4) (blkF decB0 32 9) = some 0 ∧
     s.DT + 60 ≤ s.wholeDT (blkF (decB1 60) 0 32) ∧ blkF (decB1 59) 48 16 = crcDecision decB0 (decB1 59) ∧
     s.wholeDT (blkF (decB1 59) 0 32) < s.DT + 60 ∧ (fresh0 up).rmFind (blkF decB0 24 4) (blkF decB0 32 9) = none) ∧
    (blkF (0 : Block) 0 8 ≠ 0x1E ∧ blockType (blkF (0 : Block) 0 8) = false ∧ blockType (blkF decB0 0 8) = true ∧ ((fresh0 up).link 0).badHdr.length < 31 ∧
      blkF (0 : Block) 48 16 ≠ crcDecision decB0 0) ∧
    (let s := kl0 up 2 15 { replay := [(0, [0]), (1, [0]), (2, [0])] }
     let b := controlBlock 1 1 15
     let b' := controlBlock 2 1 15
     (s.link 0).replay = [(0, [0])] ++ (1, [0]) :: [(2, [0])] ∧ (∀ x ∈ [((0 : Nat), ([0] : List Block))], x.1 ≠ 1) ∧ 1 = blkF b 16 8 ∧
     blkF b 8 8 = 1 ∧ blkF b 48 16 = crcControl b ∧ (s.link 0).wait = [] ∧ blkF b' 8 8 = 2 ∧ blkF b' 48 16 = crcControl b' ∧
     1 = blkF b' 16 8 ∧ (s.link 0).inject = [] ∧ blkF b 0 8 = 0x66 ∧ blkF b' 0 8 = 0x66) := by
  decide +kernel

theorem test_hyps_LinkMessages_transfer :
    (let s := { fresh0 (put up [(A.klTtCfg, F.klTtCfg.en, 1)]) with tm := { now := 1000000000 } }
     s.ttDue = true ∧ s.klUp (s.fld A.klTtCfg F.klTtCfg.uplink) = true ∧ s.inHold (26 + s.fld A.klTtCfg F.klTtCfg.uplink) = false ∧
     (let u := { lay s [(A.tiuInCfg 26, 0xFFFFFFFF)] with tius := [(26, { condAt := some 999999999 })] }
      u.ttDue = true ∧ u.klUp (u.fld A.klTtCfg F.klTtCfg.uplink) = true ∧ u.inHold (26 + u.fld A.klTtCfg F.klTtCfg.uplink) = true)) ∧
    ((fresh0 up).inHold (18 + 0) = false ∧ ((fresh0 up).link 0).wait = [] ∧ ((fresh0 up).link 0).replay = [] ∧
      ((fresh0 up).link 0).inject = []) ∧
    (blkF (ttB0 0 0) 0 8 = 0x33 ∧ blkF (ttB2 0 0) 48 16 = crcTt (ttB0 0 0) 0 (ttB2 0 0) ∧ arrivesB 0 1 (ttB0 0 0) (fresh0 up) = true ∧
      blkF (ttB0 0 0) 24 1 = 0) ∧
    (let s := { fresh0 (put up [(A.klTtCfg, F.klTtCfg.en, 1)]) with ttx := { out := some (0, 0) } }
     blkF (ttB0 1 3) 24 1 = 1 ∧ blkF (ttB2 1 3) 48 16 = crcTt (ttB0 1 3) 0 (ttB2 1 3) ∧ s.ttx.out = some (blkF (ttB0 1 3) 48 8, 0) ∧
     s.on A.klTtCfg F.klTtCfg.en = true ∧ s.on A.klTtCfg F.klTtCfg.role = false ∧ s.fld A.klTtCfg F.klTtCfg.uplink = 0 ∧
     3 ≤ blkF (ttB0 1 3) 56 4 ∧ blkF (ttB0 1 3) 60 1 = 1 ∧ blkF (ttB0 1 2) 56 4 < 3 ∧
     s.ttx.n = 0 ∧ (put s [(A.klTtCfg, F.klTtCfg.avg, 1)]).ttx.n + 1 < 2 ^ (put s [(A.klTtCfg, F.klTtCfg.avg, 1)]).fld A.klTtCfg F.klTtCfg.avg ∧
     (put s [(A.klTtCfg, F.klTtCfg.avg, 0)]).fld A.klTtCfg F.klTtCfg.avg = 0 ∧ s.ttAligned = false ∧ s.allStopped = true ∧
     (put s [(A.runSts 0, F.runSts.state, 2)]).allStopped = false ∧ arrivesB 0 1 (ttB0 1 3) s = true) ∧
    (arrivesB 0 2 (bulkH 0) (fresh0 up) = true ∧ bulkOk (bulkH 0) [0] (bulkT 0) 0 = true ∧ blkF (bulkH 0) 44 4 = up.devNum) ∧
    (let s := kl0 up 7 0 {}
     s.blockRefuse .host (A.klLnCtl 0 3) = none ∧ s.isSealed = false ∧ s.klState 0 = 7 ∧ (kl0 up 2 15 {}).klState 0 ≠ 7 ∧
     (kl0 up 2 15 {}).testWrite 0 3 (putF 0 F.klLnCtl.inject 1) = false) := by
  decide +kernel

theorem test_hyps_LinkMessages_aligned :
    let s := { fresh0 (put up [(A.klTtCfg, F.klTtCfg.en, 1), (A.klTtCfg, F.klTtCfg.avg, 0), (A.dtSts, F.dtSts.aligned, 1)]) with
      ttx := { out := some (0, 0) } }
    let y := fun t1 : Nat => (stampDiff (stamp48 (blkF (0 : Block) 0 48) (blkF (ttB0 1 2) 32 8)) t1 -
      stampDiff (stamp48 s.DT 0) (stamp48 (blkF (ttB2 1 2) 0 48) (blkF (ttB0 1 2) 40 8))) * 25
    s.ttAligned = true ∧ s.ttx.sum = 0 ∧ sext 16 (s.fld A.klTtAsym F.klTtAsym.asym) = 0 ∧ (y 0).natAbs ≤ 96 ∧
    96 < (y 10).natAbs ∧ (y 10).natAbs ≤ 6400 ∧ 6400 < (y 1000).natAbs ∧ (∀ p : Plot, s.usable p = true) ∧
    (put s [(A.runSts 0, F.runSts.state, 1)]).usable 0 = false := by
  decide +kernel

/-- A STANDBY pair of role 1 (A) or 2 (B), enabled. -/
def pair0 (role active synced : Nat) : State :=
  put up [(A.klPairSts, F.klPairSts.role, role), (A.klPairCtl, F.klPairCtl.en, 1), (A.klPairCtl, F.klPairCtl.mode, 1),
    (A.klPairSts, F.klPairSts.active, active), (A.klPairSts, F.klPairSts.synced, synced)]

theorem test_hyps_RoutesAndPairs :
    (up.isSealed = false ∧ up.blockRefuse .host (A.klRouteA 15) = none ∧ up.blockRefuse .host (A.klFwd 15) = none ∧
      (∀ p, p < 8 → up.routeUsed 15 p = true → up.stopped p = true) ∧ (∀ p, p < 8 → up.fwdUsed 15 p = true → up.stopped p = true)) ∧
    (let s := put up [(A.exp 0, F.exp.en, 1), (A.exp 0, F.exp.route, 15), (A.runSts 0, F.runSts.state, 2)]
     s.blockRefuse .host (A.klRouteA 15) = none ∧ ∃ p, p < 8 ∧ s.routeUsed 15 p = true ∧ s.stopped p = false) := by
  decide +kernel

theorem test_hyps_RoutesAndPairs_enable :
    (let w : Word := putF (putF 0 F.klPairCtl.en 1) F.klPairCtl.mode 1
     up.blockRefuse .host A.klPairCtl = none ∧ getF w F.klPairCtl.en = 1 ∧ getF w F.klPairCtl.mode = 1 ∧
     (put up [(A.klPairSts, F.klPairSts.role, 3)]).pairRole = 0 ∧
     (let s := put up [(A.klPairSts, F.klPairSts.role, 1)]
      s.pairRole = 1 ∧ s.anyRoute = false ∧ s.on A.klPairCtl F.klPairCtl.en = false ∧ getF w F.klPairCtl.takeOver = 0 ∧
      getF w F.klPairCtl.standDown = 0) ∧
     (put up [(A.klPairSts, F.klPairSts.role, 2)]).pairRole = 2 ∧
     (put up [(A.klRouteA 0, F.klRouteA.en, 1)]).anyRoute = true ∧
     ((pair0 2 0 1).anyRoute = false ∧ (pair0 2 0 1).standbyPair = true ∧ (pair0 2 0 1).pairRole = 2 ∧ (pair0 2 0 1).pairActive = false ∧
       (pair0 2 0 1).on A.klPairSts F.klPairSts.synced = true ∧ (pair0 2 0 0).on A.klPairSts F.klPairSts.synced = false ∧
       (pair0 2 1 0).pairActive = true ∧ (pair0 2 0 1).blockRefuse .host A.klPairCtl = none ∧
       (pair0 2 0 1).pairReleased = false ∧ (pair0 2 1 0).pairReleased = false ∧
       ({ pair0 2 0 1 with shutAt := some 0 }).pairReleased = true)) := by
  decide +kernel

theorem test_hyps_RoutesAndPairs_change :
    (let s := { pair0 2 0 1 with tm := { now := 25000 } }
     s.on A.klPairCtl F.klPairCtl.en = true ∧ s.pair2.hbGone = false ∧ s.pair2.hbAt + 25000 ≤ s.tm.now ∧ s.isStandby = true ∧
     s.pair2.hbSent + 2500 ≤ s.tm.now ∧ s.pairRole = 2 ∧ s.pairReleased = false ∧ s.on A.klPairSts F.klPairSts.synced = true ∧
     (pair0 2 0 0).on A.klPairSts F.klPairSts.synced = false ∧ ({ s with shutAt := some 0 }).pairReleased = true) ∧
    (let s := fresh0 (put (pair0 2 0 1) [(A.klPairCtl, F.klPairCtl.pairLinks, 1)])
     s.isPairLink 0 = true ∧ s.klUp 0 = true ∧ (s.link 0).wait = [] ∧ (s.link 0).replay = [] ∧
     arrivesB 0 (2 + 3) (bulkH 3) s = true ∧ bulkOk (bulkH 3) [0] (bulkT 3) 3 = true ∧ blkF (bulkH 3) 44 4 = s.devNum) ∧
    (let s := { pair0 2 0 1 with pair2 := { change := some (true, 0) }, tm := { now := 2500000 } }
     s.pair2.change = some (true, 0) ∧ s.noShot = true ∧ 0 + 2500000 ≤ s.tm.now ∧ s.pairReleased = false ∧
     ({ s with shutAt := some 0 }).pairReleased = true) ∧
    ((pair0 1 0 1).standbyPair = true ∧ (pair0 1 0 1).pairRole = 1 ∧ (pair0 1 0 1).pairActive = false ∧
      (pair0 1 0 1).on A.klPairSts F.klPairSts.synced = true ∧ (pair0 1 1 0).pairActive = true ∧ up.standbyPair = false) ∧
    (let s := fresh0 (put up [(A.klCoord 0, F.klCoord.en, 1)])
     arrivesB 0 (2 + 2) (bulkH 2) s = true ∧ bulkOk (bulkH 2) [0] (bulkT 2) 2 = true ∧ blkF (bulkH 2) 44 4 = s.devNum ∧
     s.on (A.klCoord 0) F.klCoord.en = true ∧ s.gapPast 0 0 = false ∧
     (let u := lay s [(A.shotNum 0, 5), (A.nextStartLo 0, 7)]
      u.gapPast 0 4 = true ∧ u.announcedAfter 0 4 = true ∧ u.pair (A.nextStartLo 0) (A.nextStartHi 0) ≠ 6)) := by
  decide +kernel

theorem test_hyps_LoaderAndManagementCommands :
    (up.blockRefuse .host A.cfgCtl = none ∧ getF 0 F.cfgCtl.cancel = 0 ∧ getF 0 F.cfgCtl.apply = 0 ∧ getF 0 F.cfgCtl.load = 0 ∧
      getF 0 F.cfgCtl.seal = 0 ∧ up.isRetired = false ∧ up.ldFree = true ∧ up.fld A.cfgStageLen F.cfgStageLen.len = 0 ∧
      (lay up [(A.cfgStageLen, 4096)]).fld A.cfgStageLen F.cfgStageLen.len ≠ 0 ∧ up.dmaOk = true ∧
      ({ up with pcie := { perst := false, busMaster := false } }).dmaOk = false ∧
      (put up [(A.glbSts, F.glbSts.lifecycle, 3)]).isRetired = true ∧ (put up [(A.glbSts, F.glbSts.imgSrc, 0)]).fld A.glbSts F.glbSts.imgSrc ≠ 2 ∧
      (let s := put up [(A.glbSts, F.glbSts.imgSrc, 2)]
       s.fld A.glbSts F.glbSts.imgSrc = 2 ∧ s.cfg.booting = false ∧ s.isRetired = false ∧ s.ldFree = true) ∧
      (let s := { put up [(A.cfgSts, F.cfgSts.state, 4)] with cfg := { img := some { src := .apply } } }
       s.cfg.img = some { src := .apply } ∧ 1 ≤ s.ldState ∧ s.ldState ≤ 4 ∧ s.ldFree = false) ∧ up.cfg.img = none ∧
      ImgSrc.load.full = true) ∧
    (up.live = true ∧ ({ up with henRestart := some 0 }).henRestart.isSome = true ∧ up.book.want = false ∧ up.aon.tripped = false ∧
      ({ up with book := { want := true } }).book.want = true) ∧
    (let s := { up with regs := (A.henSts, 1) :: up.regs }
     s.cfg.flash = none ∧ s.fld A.cfgFlashSts F.cfgFlashSts.state = 0 ∧ s.fld A.henSts F.henSts.slot = b2n true ∧
     s.fld A.henSts F.henSts.slot ≠ b2n false) ∧
    (let s := { up with cfg := { flash := some (1, 0) } }
     s.cfg.flash = some (1, 0) ∧ s.ldUp = true ∧ s.henUp = true) := by
  decide +kernel

/-- The first 256 bytes of an image of 584 bytes with one section, for the tiles of a mask, a plot and a sequencer. -/
def imgHdr (kind mask plot seq : Nat) : List Byte :=
  leBytes 4 0x46494C46 ++ leBytes 2 2 ++ leBytes 1 kind ++ leBytes 1 0 ++ leBytes 2 0x256 ++ leBytes 2 0 ++ leBytes 4 584 ++
    leBytes 2 1 ++ leBytes 2 0 ++ leBytes 4 0 ++ leBytes 8 0 ++ leBytes 4 mask ++ leBytes 1 plot ++ leBytes 1 seq ++
    List.replicate 218 0

/-- An image with one section (type, tile, CRC) of four zero bytes, an all-zero signature block, and its check word. -/
def imgOf (kind mask plot seq typ tile crc : Nat) : List Byte :=
  let b := imgHdr kind mask plot seq ++ leBytes 1 typ ++ leBytes 1 tile ++ leBytes 2 0 ++ leBytes 4 320 ++ leBytes 4 4 ++
    leBytes 4 crc ++ List.replicate (48 + 4 + 256) 0
  b ++ leBytes 4 (crc32c b).toNat

/-- The CRC-32C of four zero bytes. -/
def crc4 : Nat := (crc32c (List.replicate 4 0)).toNat

/-- The loader holds an image in a state. -/
def loads (s : State) (st : Nat) (g : ImgX) : State := { put s [(A.cfgSts, F.cfgSts.state, st)] with cfg := { s.cfg with img := some g } }

/-- The same in PROVISIONED, where an all-zero signature block passes. -/
def prov (b : List Byte) (src : ImgSrc) : State :=
  loads (put up [(A.glbSts, F.glbSts.lifecycle, 1)]) 2 { src := src, bytes := b, header := imgFront b }

/-- A slot's first 64 bytes: its directory, which names an image of 0 bytes less than it says, or none. -/
def dirOf (len : Nat) : List Byte :=
  let b := leBytes 4 0x53444C46 ++ leBytes 4 64 ++ leBytes 4 len ++ List.replicate 48 0
  b ++ leBytes 4 (crc32c b).toNat

/-- A bundle: a directory and, behind it, the configuration image that it names; its Henone image is empty. -/
def bundle (img : List Byte) : List Byte := dirOf img.length ++ img

/-- A flash write of slot 1 is under way, in a lifecycle state. -/
def flashes (lc : Nat) : State :=
  { put up [(A.glbSts, F.glbSts.lifecycle, lc)] with cfg := { flash := some (1, 0) } }

set_option maxRecDepth 100000 in
theorem test_hyps_LoaderAndManagementCommands_flash :
    dirOk [] = false ∧ dirOk (bundle [1, 0, 0, 0]) = true ∧ checkWordOk (slotImage (bundle [1, 0, 0, 0])) = false ∧
    (let b := bundle (imgOf 0 1 0xFF 0xFF 5 0 crc4)
     dirOk b = true ∧ checkWordOk (slotImage b) = true ∧ headerOk true (slotImage b) = true ∧
     (flashes 3).authImage (slotImage b) = none ∧ (flashes 3).cfg.flash = some (1, 0) ∧ (flashes 3).ldUp = true ∧
     (flashes 3).henUp = true) := by
  decide +kernel

set_option maxRecDepth 100000 in
/-- A bundle that passes, if Henone's image does. -/
theorem test_hyps_LoaderAndManagementCommands_good (h : Config.henPasses [] = true) :
    (flashes 1).flashReason (bundle (imgOf 0 1 0xFF 0xFF 5 0 crc4)) = 0 ∧ (flashes 1).cfg.flash = some (1, 0) ∧
    (flashes 1).ldUp = true ∧ (flashes 1).henUp = true := by
  have hd : dirOk (bundle (imgOf 0 1 0xFF 0xFF 5 0 crc4)) = true ∧ slotHen (bundle (imgOf 0 1 0xFF 0xFF 5 0 crc4)) = [] ∧
      ((flashes 1).verifyReason (slotImage (bundle (imgOf 0 1 0xFF 0xFF 5 0 crc4))) true
        (fitUnits (slotImage (bundle (imgOf 0 1 0xFF 0xFF 5 0 crc4))) [])).1 = 0 := by
    decide +kernel
  refine ⟨?_, by decide +kernel, by decide +kernel, by decide +kernel⟩
  simp only [State.flashReason, hd.1, hd.2.1, hd.2.2, h]
  decide

theorem test_hyps_ImagesPassTheLoader_fetch :
    (let s := loads up 1 { src := .slotA }
     s.cfg.order = [] ∧ ({ s with cfg := { s.cfg with order := [.slotB] } }).cfg.order = [.slotB]) ∧
    (let s := loads up 1 { src := .load }
     s.cfg.img = some { src := .load } ∧ s.ldUp = true ∧ s.ldState = 1 ∧ ImgSrc.load.slot = none ∧ ImgSrc.load ≠ .apply) ∧
    ((loads up 1 { src := .slotA }).cfg.img = some { src := .slotA } ∧ ImgSrc.slotA.slot = some 0 ∧ ImgSrc.slotB.slot = some 1 ∧
      dirOk (dirOf 64) = true ∧ dirOk (dirOf 0) = false ∧ (KMap.get none up.cfg.slots 0).isNone = true) ∧
    (let s := loads owned 1 { src := .apply }
     s.ldUp = true ∧ s.ldState = 1 ∧ s.enforce = true ∧ imgKind (imgHdr 3 1 0xFF 0) = 3) ∧
    (let s := put up [(A.glbSts, F.glbSts.bootStage, 2), (A.calSts, F.calSts.bootDone, 1)]
     s.ldUp = true ∧ s.fld A.glbSts F.glbSts.bootStage = 2 ∧ s.on A.calSts F.calSts.bootDone = true ∧ s.cfg.img = none ∧
     ({ s with cfg := { booting := true } }).cfg.booting = true ∧ (loads s 5 { src := .slotB }).ldState = 5 ∧
     (loads s 5 { src := .slotB, header := imgHdr 0 1 0xFF 0xFF }).cfg.img = some { src := .slotB, header := imgHdr 0 1 0xFF 0xFF }) := by
  decide +kernel

/-- The operand of a command that reads a PROGRAM image: the one word of its section. -/
def us0 : List (List UnitWrite) := [[.mem 0x4000000 7]]

/-- The first check that an image fails, as the loader takes them: 0 none, else the reason of R301. -/
def firstBad (full : Bool) (b : List Byte) (us : List (List UnitWrite)) : Nat :=
  let s := prov b .apply
  if !checkWordOk b then 1 else if !headerOk full b then 3
  else match s.authImage b with
    | none => 2
    | some (plain, keys) =>
      if !sectCrcOk b plain then 1 else if !(sectsOf b).all (fun x => sectAllowed (imgKind b) x.type) then 4
      else if !s.scopeOk b (fitUnits b us) then 5 else if s.keyRepeats keys || (s.structure b (fitUnits b us)).isSome then 6 else 0

set_option maxRecDepth 100000 in
theorem test_hyps_ImagesPassTheLoader_passes :
    firstBad false (imgOf 3 1 0xFF 0 6 0 crc4) us0 = 0 := by
  decide +kernel

set_option maxRecDepth 100000 in
theorem test_hyps_ImagesPassTheLoader_full :
    firstBad true (imgOf 0 1 0xFF 0xFF 5 0 crc4) [[]] = 0 := by
  decide +kernel

set_option maxRecDepth 100000 in
/-- Images that fail the check word, the header, a section's CRC, its type, the scope and the structure. -/
theorem test_hyps_ImagesPassTheLoader_fails :
    firstBad false [] us0 = 1 ∧ firstBad true (imgOf 3 1 0xFF 0 6 0 crc4) us0 = 3 ∧
    firstBad false (imgOf 3 1 0xFF 0 6 0 0) us0 = 1 ∧ firstBad false (imgOf 3 1 0xFF 0 1 0 crc4) us0 = 4 ∧
    firstBad false (imgOf 3 1 0xFF 0 6 1 crc4) us0 = 5 ∧
    firstBad false (imgOf 1 1 0xFF 0xFF 0x0D 0 crc4) [[.reg (A.tileBarLo 0 0) 1]] = 6 := by
  decide +kernel

set_option maxRecDepth 100000 in
/-- In RETIRED no signature passes, and a key that repeats the generation in force fails. -/
theorem test_hyps_ImagesPassTheLoader_keys :
    ((put up [(A.glbSts, F.glbSts.lifecycle, 3)]).authImage (imgOf 3 1 0xFF 0 6 0 crc4)).isNone = true ∧
    (up.installKey 0 1 []).keyRepeats [(0, 1, [])] = true := by
  decide +kernel

/-- A PROGRAM image of sequencer (0, 0) with one word. -/
def prog0 : ImgX := { src := .apply, header := imgHdr 3 1 0xFF 0, units := [(6, 0, [.mem 0x4000000 7])], plots := [0] }

theorem test_hyps_PartialImagesAndPlacement :
    (let s := sch0 (put (loads up 3 prog0) [(A.runSts 0, F.runSts.state, 2)]) { lastStart := some 0, lastEnd := 0 }
     let s := { s with tm := { dt := 1 } }
     s.cfg.img = some prog0 ∧ s.ldUp = true ∧ s.henServes = true ∧ s.cfg.hold = none ∧ s.ldState = 3 ∧ s.atGap 0 = true ∧
     s.placeWaits 0 = false ∧ s.gapFits 0 prog0.pause = true ∧ prog0.plots = [0] ∧
     (let u := sch0 s { fixed := some ⟨100000, 0, 0⟩ }
      u.gapFits 0 prog0.pause = true ∧ (u.sched 0).fixed.isSome = true) ∧
     (s.base prog0.header).movedUnits prog0.header prog0.nextUnits = [.mem 0x4000000 7] ∧ 0x4000000 % 4 = 0 ∧
     (s.base prog0.header).heldSeqs prog0 = [sk 0 0] ∧ (s.base prog0.header).stuck 0 0 = false) ∧
    (prog0.nextUnits = [.mem 0x4000000 7] ∧ imgKind (imgHdr 1 1 0xFF 0xFF) = 1 ∧
      (loads up 4 { prog0 with header := imgHdr 1 1 0xFF 0xFF }).ldState = 4 ∧ ∀ p ∈ prog0.plots, up.stopped p = true ∧ up.placeWaits p = false) ∧
    (let h : HoldX := { plot := some 0, tiles := [0], seqs := [sk 0 31], at_ := 0, pause := 0 }
     let s := { put up [(A.seqCtl 0 31, F.seqCtl.enable, 1)] with cfg := { img := some prog0, hold := some h } }
     s.cfg.hold = some h ∧ s.ldUp = true ∧ h.place = none ∧ s.cfg.img = some prog0 ∧ s.on (A.seqCtl 0 31) F.seqCtl.enable = true ∧
     s.failed 0 31 = false ∧ sk 0 31 ∉ h.faulted ∧ imgKind prog0.header ≠ 4 ∧ prog0.src = .apply ∧ s.patched (sk 0 31 / 34) = false ∧
     imgKind (imgHdr 4 3 0xFF 0xFF) = 4 ∧ ({ h with place := some (0, 1, 32) }).place ≠ none ∧
     ({ prog0 with tiles := [0, 1] }).tiles = 0 :: 1 :: []) ∧
    (up.live = true ∧ up.tileOn 0 = true ∧ up.failed 0 33 = false ∧ up.on (A.tilePlaceCtl 0) F.tilePlaceCtl.en = false) ∧
    (let s := { up with cfg := { waiting := [(0, 31)] } }
     s.ldUp = true ∧ s.henServes = true ∧ s.cfg.hold = none ∧ s.on (A.tilePlaceCtl 0) F.tilePlaceCtl.freeze = false ∧
     (s.cfg.waiting.find? fun w => w.1 == 0) = some (0, 31) ∧ s.plotOf 0 = some 0 ∧ s.stopped 0 = true ∧ s.freeSpares 0 = [32, 33] ∧ 31 ≠ 32 ∧
     (put s [(A.tilePlaceSts 0, F.tilePlaceSts.spare0For, 1), (A.tilePlaceSts 0, F.tilePlaceSts.spare1For, 2)]).freeSpares 0 = []) := by
  decide +kernel

/-- Beside what an image of the payload is (Config.mirrorImage, free). -/
theorem test_hyps_PartialImagesAndPlacement_mirror :
    (let s := lay (fresh0 (pair0 2 0 1)) [(A.shotNum 0, 5)]
     arrivesB 0 (2 + 1) (bulkH 1) s = true ∧ bulkOk (bulkH 1) [0] (bulkT 1) 1 = true ∧ blkF (bulkH 1) 44 4 = s.devNum ∧
     s.isStandby = true ∧ s.mirrorPast 0 4 = true ∧ s.mirrorPast 0 6 = false ∧ s.reg (A.shotNum 0) ≠ 6 ∧ s.reg (A.shotNum 0) = 5 ∧
     s.current 0 = none ∧ imgKind (imgHdr 3 1 0xFF 0) ≠ 4 ∧ s.mirrorUnit (.mem 0x4000000 7) = .mem 0x4000000 7 ∧
     (let u := sch0 s { shots := [{ sid := 0, start := 9 }] }
      u.reg (A.shotNum 0) = 5 ∧ u.current 0 = some { sid := 0, start := 9 })) := by
  decide +kernel

/-- The result ring of plot 0 is enabled, with 1,024 slots. -/
def rr0 (s : State) (x : RingX) : State :=
  { put s [(A.rrCfg 0, F.rrCfg.en, 1), (A.rrCfg 0, F.rrCfg.sizeLog2, 10)] with rings := [(0, x)] }

/-- A result record of shot 0 of plot 0, and a shot record that waits. -/
def rec0 : Rec := ⟨0, 0, 0, 0, List.replicate 32 0⟩
def item0 (shot : Bool) (n : Nat) : RingItem := { sid := 0, shot := shot, bytes := List.replicate n 0 }

theorem test_hyps_ResultsReachTheirRing :
    (let h : Shot := { sid := 0, start := 0, started := true, stop := some 10 }
     let s := { sch0 up { shots := [h] } with tm := { dt := 12 } }
     (s.sched 0).shots = [h] ∧ h.bias = 0 ∧ 10 + 2 ≤ s.DT ∧ s.recOwed 0 0 = false ∧ h.quiet = false ∧ (s.ring 0).queue.length < 32 ∧
     32 ≤ ((rr0 s { queue := List.replicate 32 (item0 true 32) }).ring 0).queue.length ∧
     ({ h with quiet := true }).quiet = true ∧ (sch0 s { shots := [{ h with quiet := true }] }).recOwed 0 0 = false) ∧
    up.ringWants 0 = none ∧
    (let s := { rr0 (put up [(A.glbTilePlot 1, ⟨3, 0⟩, 9), (A.rrCfg 1, F.rrCfg.en, 1), (A.rrCfg 1, F.rrCfg.sizeLog2, 10)]) {} with
       rings := [(0, { queue := [item0 true 32] }), (1, { queue := [item0 true 32] })], pcie := { up.pcie with turn := 0 } }
     s.ringWants 0 = some 1 ∧ 1 ≤ s.rrRoom 0 ∧ s.rrTurn = some 1) ∧
    (let s := { up with rings := [(0, { queue := [item0 true 32] })] }
     s.ringWants 0 = some 1 ∧ s.rrRoom 0 < 1) ∧
    (let s := { rr0 up {} with recs := [(0, [rec0])] }
     s.firstRec 0 32 0 = some (0, rec0) ∧ s.recReady 0 rec0 = true ∧ s.rrTurn = some 0 ∧ rec0.bytes.length = 32 ∧
     (s.ring 0).former = []) ∧
    (let s := rr0 up { queue := [item0 true 32] }
     s.firstRec 0 32 0 = none ∧ (s.ring 0).queue = [item0 true 32] ∧ s.rrTurn = some 0 ∧ (s.ring 0).former = [] ∧
     s.batching 0 = false ∧ (s.ring 0).batch = none) ∧
    (let s := put (rr0 up { queue := [item0 true 32] }) [(A.wlBatchCfg 0, F.wlBatchCfg.en, 1), (A.wlBatchCfg 0, F.wlBatchCfg.batchSlots, 1)]
     s.batching 0 = true ∧ s.fld (A.wlBatchCfg 0) F.wlBatchCfg.batchSlots ≤ 1 ∧ s.on (A.wlBatchCfg 0) F.wlBatchCfg.sign = false ∧
     s.firstRec 0 32 0 = none ∧ s.rrTurn = some 0 ∧ (s.ring 0).former = [] ∧ (s.ring 0).batch = none ∧ (item0 true 32).shot = true) ∧
    ((rr0 up { signing := [List.replicate 96 0] }).ring 0).signing = [List.replicate 96 0] ∧
    (let s := { put (rr0 up { irqSince := some 0 }) [(A.rrIrq 0, F.rrIrq.us, 1)] with tm := { now := 2500 } }
     (s.ring 0).irqSince = some 0 ∧ s.fld (A.rrIrq 0) F.rrIrq.us ≠ 0 ∧ 0 + s.fld (A.rrIrq 0) F.rrIrq.us * 2500 ≤ s.tm.now ∧
     s.plotDefined 0 = true ∧ s.msixMasked 0 = true ∧ (lay s [(A.msixTable 3, 0)]).msixMasked 0 = false ∧ s.dmaOk = true ∧ s.on (A.wbLo 0) F.wbLo.en = false ∧
     (let u := { put s [(A.wbLo 0, F.wbLo.en, 1)] with rings := [(0, { irqSince := some 0, wbDirty := true })] }
      u.on (A.wbLo 0) F.wbLo.en = true ∧ (u.ring 0).wbDirty = true ∧ (u.ring 0).irqSince = some 0)) ∧
    (let s := { put (rr0 up { wbDirty := true, wbAt := some 0 }) [(A.wbLo 0, F.wbLo.en, 1)] with tm := { now := 625 } }
     (s.ring 0).wbDirty = true ∧ s.on (A.wbLo 0) F.wbLo.en = true ∧ s.dmaOk = true ∧ (s.ring 0).wbAt = some 0 ∧
     0 + 625 ≤ s.tm.now) := by
  decide +kernel

/-- The command and response rings of plot 0 are enabled, a header waits, and plot 0 holds a key of generation 1. -/
def cmd0 (s : State) : State :=
  lay (put s [(A.cmdCfg 0, F.cmdCfg.en, 1), (A.cmdCfg 0, F.cmdCfg.sizeLog2, 6), (A.rspCfg 0, F.rspCfg.en, 1),
    (A.rspCfg 0, F.rspCfg.sizeLog2, 16), (A.cmdSts 0, F.cmdSts.state, 1), (A.wlPlotSts 0, F.wlPlotSts.keyed, 1),
    (A.wlPlotSts 0, F.wlPlotSts.keyGen, 1)]) [(A.cmdProd 0, 1)]

/-- A capsule header for plot 0 with generation `g` and sequence number 1, for a body of 16 bytes, with its CRC. -/
def capHdr (g : Nat) : List Byte :=
  let h := leBytes 2 1 ++ [0] ++ leBytes 1 g ++ leBytes 8 1 ++ leBytes 4 16 ++ [1, 1, 0, 0] ++ leBytes 4 9 ++ leBytes 4 0
  h ++ leBytes 4 (crc32c h).toNat

/-- A capsule of generation 1 that has been fetched. -/
def cap1 : CapX := { cseq := 1, tag := 9, gen := 1, respReq := true, slots := 1 }

theorem test_hyps_DoorbellsRingsAndCapsuleFetch :
    (up.live = true ∧ up.plotDefined 7 = false ∧ up.plotDefined 0 = true ∧ (up.ring 0).rspWait = []) ∧
    ((64 - (0 : Word)).toNat ≤ 2 ^ 6 ∧ (put up [(A.cmdCfg 0, F.cmdCfg.sizeLog2, 6)]).fld (A.cmdCfg 0) F.cmdCfg.sizeLog2 = 6 ∧
      2 ^ 6 < (65 - (0 : Word)).toNat) ∧
    (2 ^ 9 < ((up.reg (A.rspProd 0)) - 1).toNat ∧ 2 ^ 10 < ((up.reg (A.rrProd 0)) - 1).toNat) ∧
    (let w : Word := putF (putF 0 F.cmdCfg.en 1) F.cmdCfg.sizeLog2 10
     up.on (A.cmdCfg 0) F.cmdCfg.en = false ∧ up.on (A.rspCfg 0) F.cmdCfg.en = false ∧ up.on (A.rrCfg 0) F.cmdCfg.en = false ∧
     getF w F.cmdCfg.en = 1 ∧ getF w F.cmdCfg.sizeLog2 = 10 ∧ getF (0 : Word) F.cmdCfg.sizeLog2 < 6 ∧
     (put up [(A.cmdCfg 0, F.cmdCfg.en, 1)]).on (A.cmdCfg 0) F.cmdCfg.en = true) ∧
    ((put up [(A.cmdSts 0, F.cmdSts.state, 2)]).fld (A.cmdSts 0) F.cmdSts.state = 2 ∧ up.fld (A.cmdSts 0) F.cmdSts.state ≠ 2) ∧
    (let s := cmd0 up
     s.on (A.cmdCfg 0) F.cmdCfg.en = true ∧ s.fld (A.cmdSts 0) F.cmdSts.state = 1 ∧ (s.ring 0).cap = none ∧
     s.reg (A.cmdProd 0) ≠ s.reg (A.cmdCons 0) ∧ s.dmaOk = true ∧ 258 ≤ s.rspRoom 0 ∧ s.isStandby = false ∧ s.henServes = true ∧
     (capHdr 1).length = 32 ∧ leAt (List.replicate 32 (0 : Byte)) 28 4 ≠ (crc32c ((List.replicate 32 (0 : Byte)).take 28)).toNat ∧
     leAt (capHdr 1) 28 4 = (crc32c ((capHdr 1).take 28)).toNat ∧ s.headerStatus 0 (capHdr 1) = 0 ∧ s.headerStatus 0 (capHdr 2) ≠ 0 ∧
     (∀ q < 8, s.awaits q = false) ∧
     (let u := { s with wl := { serving := some 1 }, rings := [(1, { cap := some cap1 })] }
      u.wl.serving = some 1 ∧ u.awaits 1 = true ∧ (u.ring 0).cap = none)) ∧
    (let s := { cmd0 up with rings := [(0, { cap := some cap1 })], wl := { serving := some 0 } }
     (s.ring 0).cap = some cap1 ∧ cap1.body = none ∧ s.keyed 0 = true ∧ cap1.gen = s.keyGen 0 ∧
     (put s [(A.wlPlotSts 0, F.wlPlotSts.keyGen, 2)]).keyGen 0 ≠ cap1.gen ∧
     (put s [(A.wlPlotSts 0, F.wlPlotSts.keyed, 0)]).keyed 0 = false ∧ s.henServes = true ∧ s.isStandby = false ∧
     s.wl.serving = some 0 ∧ ({ s with henRestart := some 0 }).henServes = false) ∧
    (let s := { cmd0 up with pcie := { perst := false, busMaster := false } }
     s.pcie.busMaster = false ∧ s.pcie.d3 = false ∧ s.pcie.perst = false ∧ s.on (A.cmdCfg 0) F.cmdCfg.en = true ∧
     258 ≤ s.rspRoom 0 ∧ s.reg (A.cmdProd 0) ≠ s.reg (A.cmdCons 0) ∧ s.fld (A.cmdSts 0) F.cmdSts.state = 1) := by
  decide +kernel

/-- A body passes with the tag that the key gives it, and no tag of another length does. -/
theorem test_hyps_DoorbellsRingsAndCapsuleFetch_body (s : State) (p : Plot) (c : CapX) (cipher : List Byte) :
    let tag := gcmTag (s.plotKey p "FLR-CMD" 32) (capNonce p 0 c.gen c.cseq.toNat) c.head cipher
    (∃ b, s.capBody p c cipher tag = some b) ∧ s.capBody p c cipher (0 :: tag) = none := by
  refine ⟨⟨_, if_pos rfl⟩, if_neg fun h => ?_⟩
  simpa using congrArg List.length h

/-- The body of one operation. -/
def opBody (op count : Nat) (arg : List Byte) : List Byte := leBytes 2 op ++ leBytes 2 count ++ leBytes 4 arg.length ++ arg

/-- Plot 0 executes a capsule with a body. -/
def capRun (s : State) (b : List Byte) : State := { cmd0 s with rings := [(0, { cap := some { cap1 with body := some b } })] }

/-- The next operation of plot 0 has code `op` and is well-formed. -/
def nextB (s : State) (op : Nat) : Bool :=
  match s.capRuns 0 with
  | some (c, b) => (match c.next b with | some o => o.op == op && o.ok c.data.length | none => false)
  | none => false

theorem next_of (s : State) (op : Nat) (h : nextB s op = true) : ∃ c b o, NextOp op 0 s c b o := by
  unfold nextB at h
  split at h
  · split at h
    · rename_i c b hr _ o hn
      simp only [Bool.and_eq_true, beq_iff_eq] at h
      exact ⟨c, b, o, hr, hn, h.1, h.2⟩
    · exact absurd h Bool.false_ne_true
  · exact absurd h Bool.false_ne_true

theorem test_hyps_CapsuleOperations :
    ((capRun up []).capRuns 0 = some ({ cap1 with body := some [] }, []) ∧ (({ cap1 with body := some [] } : CapX).next []).isNone = true) ∧
    nextB (capRun up (opBody 0 0 [])) 0 = true ∧
    (nextB (capRun up (opBody 1 1 (leBytes 4 (A.runShots 0) ++ leBytes 4 7))) 1 = true ∧ up.stopped 0 = true ∧ up.plotDefined 0 = true) ∧
    (nextB (capRun up (opBody 1 1 (leBytes 4 (A.runShots 1) ++ leBytes 4 7))) 1 = true ∧
      (capRun up []).capOwns 0 (A.runShots 1) (some 7) = false) ∧
    nextB (capRun up (opBody 2 1 (leBytes 4 (A.runShots 0)))) 2 = true ∧
    (let s := capRun up (opBody 3 1 (leBytes 4 0x4000000 ++ leBytes 4 7))
     nextB s 3 = true ∧ (∀ x ∈ wordOffs 0x4000000 4, s.capOwnsMem 0 x = true) ∧ s.memRefuse (.capsule 0) 0x4000000 4 = none ∧
     s.memBusy 0x4000000 4 = false ∧ (capRun (runs up 0 0 0) []).memBusy 0x4000000 4 = true) ∧
    nextB (capRun up (opBody 3 1 (leBytes 4 0x4000000))) 3 = true ∧
    (let s := capRun up (opBody 3 1 (leBytes 4 0x4200000 ++ leBytes 4 7))
     nextB s 3 = true ∧ s.capOwnsMem 0 0x4200000 = false ∧ 0x4200000 ∈ wordOffs 0x4200000 4 ∧
     s.memRefuse (.capsule 0) 0x4000002 4 = some .accessErr) ∧
    (let s := capRun up (opBody 4 1 (leBytes 4 0x4000000 ++ leBytes 4 4))
     nextB s 4 = true ∧ s.memRefuse (.capsule 0) 0x4000000 4 = none ∧ (∀ x ∈ wordOffs 0x4000000 4, s.capOwnsMem 0 x = true) ∧
     (∀ x ∈ wordOffs 0x4000001 4, s.capOwnsMem 0 x = true) ∧ s.memRefuse (.capsule 0) 0x4000001 4 ≠ none) ∧
    (nextB (capRun up (opBody 4 1 (leBytes 4 0x4200000 ++ leBytes 4 4))) 4 = true ∧ 0x4200000 ∈ wordOffs 0x4200000 4 ∧
      (capRun up []).capOwnsMem 0 0x4200000 = false) := by
  decide +kernel

theorem test_hyps_CapsuleOperations_more :
    (let s := capRun up (opBody 5 1 (imgHdr 3 1 0xFF 0))
     nextB s 5 = true ∧ s.ldFree = true ∧ s.isRetired = false ∧ s.enforce = false ∧ s.plotOf 0 = some 0 ∧
     (loads s 2 { src := .apply }).ldFree = false ∧ imgTiles (imgHdr 3 1 0xFF 0) = [0] ∧ imgKind (imgHdr 3 1 0xFF 0) = 3 ∧
     imgKind (imgHdr 1 1 0xFF 0xFF) = 1 ∧ (capRun owned []).enforce = true ∧ s.plotOf 1 ≠ some 0 ∧
     (put s [(A.glbSts, F.glbSts.lifecycle, 3)]).isRetired = true ∧ (put s [(A.glbSts, F.glbSts.lifecycle, 3)]).ldFree = true) ∧
    (let s := capRun up (opBody 6 1 (List.replicate 64 0))
     nextB s 6 = true ∧ s.dmaOk = true ∧ ({ s with pcie := {} }).dmaOk = false) ∧
    (let s := { up with rings := [(0, { cap := some { cap1 with body := some (opBody 6 1 (List.replicate 64 0)), fetching := true } })] }
     s.live = true ∧ s.henServes = true ∧ (s.refFetch 0).isSome = true) ∧
    (let s := capRun up (opBody 7 1 (leBytes 4 3 ++ leBytes 4 1000000))
     nextB s 7 = true) ∧
    (let s := { up with rings := [(0, { cap := some { cap1 with body := some [], wait := some (0, 5) } })] }
     s.capWaits 0 = some ({ cap1 with body := some [], wait := some (0, 5) }, [], 0, 5) ∧ s.runState 0 = 0 ∧
     (put s [(A.runSts 0, F.runSts.state, 1)]).runState 0 ≠ 0 ∧ s.tm.now < 5) ∧
    ((cmd0 up).ringFetch 0 = true ∧ (cmd0 up).reading (.ring 0) = true ∧ up.reading (.ring 0) = false ∧ up.reading .stage = false ∧
      (fetches up [0]).reading (.decant 0 0) = true) ∧
    ((loads up 1 { src := .apply }).ldState = 1 ∧ (loads up 1 { src := .apply }).reading .stage = true ∧
      (loads up 1 { src := .apply }).cfg.img = some { src := .apply }) := by
  decide +kernel

theorem test_hyps_ResetsAndStartUp :
    (up.pcie.busMaster = true ∧ up.pcie.perst = false ∧ (lay up [(A.msixTable 3, 0)]).msixMasked 0 = false) ∧
    (let s := { up with scheds := (List.range 8).map fun p => (p, { fixed := some ⟨5000, 0, 0⟩ }) }
     ∀ p : Plot, (s.sched p).fixed.isSome = true ∧ (s.sched p).undo = none) ∧
    (up.aon.por = false ∧ up.aon.sys = false ∧ up.aon.porLow = none ∧ up.aon.sysLow = none ∧ State.reset.aon.por = true) ∧
    (let s := { up with aon := { por := false, porLow := some 0, sysLow := some 0 }, tm := { now := 249 } }
     s.aon.porLow = some 0 ∧ s.aon.sysLow ≠ none ∧ s.pending = [] ∧ 0 + 250 ≤ s.tm.now + 1 ∧
     (let u := { s with aon := { por := false, sysLow := some 0 } }
      u.aon.sysLow = some 0 ∧ u.aon.sys = false ∧ u.aon.por = false ∧ u.aon.porLow = none ∧ u.pending = [])) ∧
    (let s := { up with aon := { por := false, sys := true, sysAt := 0 }, tm := { now := 625000 } }
     s.aon.por = false ∧ s.aon.sys = true ∧ s.aon.sysAt + 625000 ≤ s.tm.now ∧
     ({ s with tm := { now := 624999 } }).tm.now < s.aon.sysAt + 625000) ∧
    (let s := { up with cfg := { trialAt := some 0 }, tm := { now := 75000000000 } }
     s.cfg.trialAt = some 0 ∧ s.live = true ∧ 0 + 75000000000 ≤ s.tm.now ∧ up.tm.now < 0 + 75000000000) ∧
    (({ up with refLost := true }).refLost = true ∧ up.refLost = false ∧ up.live = true ∧ up.fld A.glbSts F.glbSts.bootStage ≠ 0 ∧
      up.cfg.bridges < 16 ∧ (∀ p : Plot, (up.sched p).abortAt = none) ∧ (put up [(A.runSts 0, F.runSts.state, 2)]).stopped 0 = false ∧
      (let s := { up with refLost := true, tm := { now := 25000000 }, cfg := { up.cfg with links := 15, bridges := 15 } }
       s.refLost = true ∧ s.refx.lostAt + 25000000 ≤ s.tm.now ∧ s.live = true ∧ s.fld A.glbSts F.glbSts.bootStage ≠ 0 ∧
       s.cfg.bridges < 16 ∧ s.cfg.links.testBit 3 = true ∧ ({ s with tm := { now := 24999999 } }).tm.now < s.refx.lostAt + 25000000) ∧
      ∀ q : Quad, (up.hk q).held = [] ∧ (up.hk q).heldRes = []) ∧
    (let s := { live0 with refLost := true, tm := { now := 250000000 }, cfg := { order := [.slotA] } }
     s.live = true ∧ s.fld A.glbSts F.glbSts.bootStage = 0 ∧ s.refx.bootAt + 250000000 ≤ s.tm.now ∧ s.cfg.order = [.slotA]) ∧
    (put up [(A.klCtl 4, F.klCtl.en, 1)]).on (A.klCtl 4) F.klCtl.en = true := by
  decide +kernel

/-! ## Security -/

/-- The mailbox holds a well-formed blob of command op for a device of serial number x in lifecycle lc, with the nonce 0. -/
def mail (x : BitVec 64) (op n lc : Nat) : State :=
  { up with
    regs := [(A.wlBuf 0, x.setWidth 32), (A.wlBuf 1, (x >>> 32).setWidth 32), (A.wlBuf 2, BitVec.ofNat 32 op), (A.wlBuf 3, BitVec.ofNat 32 n),
      (A.wlSts, putF (putF 0 F.wlSts.lc lc) F.wlSts.lcNext lc), (A.wlFuseRem, putF (putF 0 F.wlFuseRem.ownerRotRem 3) F.wlFuseRem.debugRem 3)] ++
      ((List.range 12).map fun i => (A.wlNonce i, (0 : Word))) ++ ((List.range 13).map fun i => (A.wlBuf (4 + i), (0 : Word))) ++ up.regs }

/-- Its first 65 bytes. -/
def mailBytes (x : BitVec 64) (op n : Nat) : List Byte :=
  (([x.setWidth 32, (x >>> 32).setWidth 32, BitVec.ofNat 32 op, BitVec.ofNat 32 n] ++ List.replicate 13 0).flatMap wordBytes).take 65

theorem mail_bytes (x : BitVec 64) (op n lc : Nat) : (mail x op n lc).wlBytes 65 = mailBytes x op n := by
  simp [State.wlBytes, State.reg, mail, mailBytes, KMap.get, A.wlNonce, A.wlBuf, A.wlSts, A.wlFuseRem, List.range, List.range.loop,
    List.replicate]

theorem mail_nonce (x : BitVec 64) (op n lc : Nat) : (mail x op n lc).wlNonceBytes = List.replicate 48 0 := by
  simp [State.wlNonceBytes, State.reg, mail, KMap.get, A.wlNonce, A.wlBuf, A.wlSts, A.wlFuseRem, List.range, List.range.loop, wordBytes]

theorem mail_serial (x : BitVec 64) (op n : Nat) : leAt (mailBytes x op n) 0 8 = x.toNat := by
  have h : leAt (mailBytes x op n) 0 8 = leNat (wordBytes (x.setWidth 32) ++ wordBytes ((x >>> 32).setWidth 32)) := by rfl
  rw [h]
  have hx := x.isLt
  simp only [wordBytes, leNat, List.cons_append, List.nil_append, BitVec.toNat_ofNat, BitVec.toNat_setWidth, BitVec.toNat_ushiftRight,
    Nat.shiftRight_eq_div_pow]
  omega

/-- What is left of the check of a well-formed blob. -/
theorem mail_check (op n lc : Nat) (h1 : wlOpcodes.contains op = true) (h2 : wlState op lc = true)
    (h3 : leAt (mailBytes 0 op n) 8 1 = op) (h4 : leAt (mailBytes 0 op n) 9 3 = 0) (h5 : leAt (mailBytes 0 op n) 12 4 = wlPayload op)
    (h6 : (mail 0 op n lc).wlLc op = lc) (h7 : (mail 0 op n lc).wlNoCount op = false) :
    (mail Config.serial op n lc).wlCheck op = (if (mail Config.serial op n lc).wlSigOk op then 0 else 2) := by
  have e1 : (mail Config.serial op n lc).wlLc op = lc := h6
  have e3 : leAt (mailBytes Config.serial op n) 8 1 = op := h3
  have e4 : leAt (mailBytes Config.serial op n) 9 3 = 0 := h4
  have e5 : leAt (mailBytes Config.serial op n) 12 4 = wlPayload op := h5
  have e6 : leAt (mailBytes Config.serial op n) 64 1 = 0 := rfl
  have e7 : ((mailBytes Config.serial op n).drop 16).take 48 = List.replicate 48 0 := rfl
  have e8 : (mail Config.serial op n lc).wlNoCount op = false := h7
  unfold State.wlCheck
  simp only [mail_bytes, mail_nonce, mail_serial, h1, e1, h2, e3, e4, e5, e6, e7, e8]
  cases (mail Config.serial op n lc).wlSigOk op <;> simp

/-- A blob of `mail` passes the check of its command where its signatures verify, and fails it with result 2 where they do not. -/
theorem test_mail_accepted :
    let r := fun (s : State) (op : Nat) => s.wlCheck op = (if s.wlSigOk op then 0 else 2)
    r (mail Config.serial 0x10 (wlPayload 0x10) 1) 0x10 ∧ r (mail Config.serial 0x11 193 2) 0x11 ∧
    r (mail Config.serial 0x12 0 2) 0x12 ∧ r (mail Config.serial 0x20 0 1) 0x20 ∧ r (mail Config.serial 0x30 1 2) 0x30 := by
  have hp : leAt (mailBytes 0 0x10 (wlPayload 0x10)) 12 4 = wlPayload 0x10 := by
    unfold wlPayload; cases Config.ownTicketReq <;> decide +kernel
  have hq : leAt (mailBytes 0 0x10 (wlPayload 0x10)) 8 1 = 0x10 ∧ leAt (mailBytes 0 0x10 (wlPayload 0x10)) 9 3 = 0 := by
    unfold wlPayload; cases Config.ownTicketReq <;> decide +kernel
  have hl : (mail 0 0x10 (wlPayload 0x10) 1).wlLc 0x10 = 1 ∧ (mail 0 0x10 (wlPayload 0x10) 1).wlNoCount 0x10 = false := by
    unfold wlPayload; cases Config.ownTicketReq <;> decide +kernel
  refine ⟨mail_check _ _ _ (by decide) (by decide) hq.1 hq.2 hp hl.1 hl.2,
    mail_check _ _ _ ?_ ?_ ?_ ?_ ?_ ?_ ?_, mail_check _ _ _ ?_ ?_ ?_ ?_ ?_ ?_ ?_, mail_check _ _ _ ?_ ?_ ?_ ?_ ?_ ?_ ?_,
    mail_check _ _ _ ?_ ?_ ?_ ?_ ?_ ?_ ?_⟩ <;> decide +kernel

/-- No owner rotation is left. -/
def spent (x : BitVec 64) : State := { mail x 0x11 193 2 with regs := (A.wlFuseRem, 0) :: (mail x 0x11 193 2).regs }

theorem spent_bytes (x : BitVec 64) : (spent x).wlBytes 65 = mailBytes x 0x11 193 := by
  simp [State.wlBytes, State.reg, spent, mail, mailBytes, KMap.get, A.wlNonce, A.wlBuf, A.wlSts, A.wlFuseRem, List.range, List.range.loop,
    List.replicate]

theorem spent_nonce (x : BitVec 64) : (spent x).wlNonceBytes = List.replicate 48 0 := by
  simp [State.wlNonceBytes, State.reg, spent, mail, KMap.get, A.wlNonce, A.wlBuf, A.wlSts, A.wlFuseRem, List.range, List.range.loop, wordBytes]

theorem test_mail_spent (h : (spent Config.serial).wlSigOk 0x11 = true) : (spent Config.serial).wlCheck 0x11 = 4 := by
  have e0 : (spent Config.serial).wlNoCount 0x11 = true := rfl
  have e1 : (spent Config.serial).wlLc 0x11 = 2 := rfl
  have e3 : leAt (mailBytes Config.serial 0x11 193) 8 1 = 0x11 := rfl
  have e4 : leAt (mailBytes Config.serial 0x11 193) 9 3 = 0 := rfl
  have e5 : leAt (mailBytes Config.serial 0x11 193) 12 4 = wlPayload 0x11 := rfl
  have e6 : wlState 0x11 2 = true := rfl
  have e7 : ((mailBytes Config.serial 0x11 193).drop 16).take 48 = List.replicate 48 0 := rfl
  have e8 : wlOpcodes.contains 0x11 = true := rfl
  unfold State.wlCheck
  simp only [spent_bytes, spent_nonce, mail_serial, e0, e1, e3, e4, e5, e6, e7, e8, h]
  simp

/-- A register laid over those of a state. -/
def onTop (s : State) (l : KMap Word) : State := { s with regs := l ++ s.regs }

theorem test_hyps_MailboxCommands :
    ((mail 0 0x20 0 1).live = true ∧ 0x20 ∈ wlOpcodes ∧ (put (mail 0 0x20 0 1) [(A.wlSts, F.wlSts.busy, 1)]).on A.wlSts F.wlSts.busy = true) ∧
    ((mail 0 0x20 0 1).on A.wlSts F.wlSts.busy = false ∧ wlState 0x11 ((mail 0 0x11 193 1).wlLc 0x11) = false ∧
      wlState 0x20 ((mail 0 0x20 0 1).wlLc 0x20) = true ∧ (mail 0 0x20 0 1).aon.tripped = false) ∧
    (leAt ((mail 0 0x20 1 1).wlBytes 65) 12 4 ≠ wlPayload 0x20) ∧
    (let h := mailBytes 0 0x20 0
     leAt h 8 1 = 0x20 ∧ leAt h 9 3 = 0 ∧ leAt h 12 4 = wlPayload 0x20 ∧
     ((onTop (mail 0 0x20 0 1) [(A.wlNonce 3, 5)]).wlBytes 65) = h ∧ (h.drop 16).take 48 ≠ (onTop (mail 0 0x20 0 1) [(A.wlNonce 3, 5)]).wlNonceBytes ∧
     (h.drop 16).take 48 = (mail 0 0x20 0 1).wlNonceBytes) ∧
    (let s := { up with wl := { result := some 6 } }
     s.wl.result = some 6 ∧ s.wl.intent = none ∧ s.live = true ∧ s.aon.tripped = false ∧ up.wl.result = none ∧
     (({ s with aon := { s.aon with tripped := true } }).aon.tripped = true) ∧
     ({ s with wl := { result := some 0, intent := some (0x10, hashFuses s.wl.slots.length [1] ++ [fuseLc + 2, fuseLc + 3]) } }).wl.intent =
       some (0x10, hashFuses 0 [1] ++ [fuseLc + 2 * (2 - 1), fuseLc + 2 * (2 - 1) + 1]) ∧
     ({ s with wl := { result := some 0, intent := some (0x20, [fuseDebug]) } }).wl.intent = some (0x20, [fuseDebug])) ∧
    (let s := onTop (put up [(A.wlArb, F.wlArb.image, 9)]) [(A.henSts, 0)]
     s.live = true ∧ s.aon.tripped = false ∧ s.fld A.wlArb F.wlArb.count < s.fld A.wlArb F.wlArb.image ∧ s.enforce = false ∧ s.on A.henSts F.henSts.trial = false ∧
     (put s [(A.glbSts, F.glbSts.imgSrc, 2)]).fld A.glbSts F.glbSts.imgSrc = 2 ∧ s.fld A.glbSts F.glbSts.imgSrc ≠ 2) := by
  decide +kernel

/-- A part after the negotiation, with a session in its handshake and one that is established. -/
def spdm3 : State := { up with spdm := { stage := 3, sess0 := some { up := false }, sess1 := some { up := true } } }

theorem test_hyps_AttestationAnswers :
    (1 ≤ spdm3.spdm.stage ∧ 2 ≤ spdm3.spdm.stage ∧ 3 ≤ spdm3.spdm.stage ∧ up.spdm.stage < 3) ∧
    (spdm3.spdm.slot1 = [] ∧ ({ spdm3 with spdm := { slot1 := [1] } }).spdm.slot1 ≠ []) ∧
    (spdm3.fld A.wlSts F.wlSts.lc ≠ 3 ∧ (put spdm3 [(A.wlSts, F.wlSts.lc, 3)]).fld A.wlSts F.wlSts.lc = 3 ∧
      (put spdm3 [(A.wlSts, F.wlSts.lc, 2)]).fld A.wlSts F.wlSts.lc = 2 ∧ spdm3.fld A.wlSts F.wlSts.lc ≠ 2 ∧ ([7] : List Byte).length ≤ 4096) ∧
    (up.spdm.sess0 = none ∧ spdm3.spdm.sess0 = some { up := false } ∧ spdm3.spdm.sess1 = some { up := true } ∧
      ({ spdm3 with spdm := { stage := 3, sess0 := some { up := false } } }).spdm.sess1 = none) ∧
    (spdm3.sess 0 = some { up := false } ∧ spdm3.sess 1 = some { up := true } ∧ up.sess 0 = none) := by
  decide +kernel

/-! ## Network time, intervals, events -/

/-- The PTP clock of a state, and its present tick. -/
def ptp0 (s : State) (n : Nat) (x : PtpX) : State := { s with ptp := x, tm := { s.tm with now := n } }

theorem test_hyps_TheClockIsDisciplined :
    (up.live = true ∧ (let v := sext 40 ((5 : Word).toNat + 2 ^ 32 * up.fld A.ptpRateHi F.ptpRateHi.rate); -rateLimit ≤ v ∧ v ≤ rateLimit) ∧
      rateLimit < sext 40 ((5 : Word).toNat + 2 ^ 32 * (put up [(A.ptpRateHi, F.ptpRateHi.rate, 0x7F)]).fld A.ptpRateHi F.ptpRateHi.rate) ∧
      sext 40 ((5 : Word).toNat + 2 ^ 32 * (put up [(A.ptpRateHi, F.ptpRateHi.rate, 0x80)]).fld A.ptpRateHi F.ptpRateHi.rate) < -rateLimit) ∧
    (let s := put (ptp0 up 4 { corrs := [(4, 65536)] }) [(A.ptpJumpThr, F.ptpJumpThr.thr, 1), (A.ptpSts, F.ptpSts.stepPend, 0)]
     s.ptp.corrs = [(4, 65536)] ∧ 4 ≤ s.tm.now ∧ (ptp0 up 3 { corrs := [(4, 65536)] }).tm.now < 4 ∧
     s.on A.ptpSts F.ptpSts.stepPend = false ∧ (put s [(A.ptpSts, F.ptpSts.stepPend, 1)]).on A.ptpSts F.ptpSts.stepPend = true ∧
     (65536 : Int).natAbs ≤ s.fld A.ptpJumpThr F.ptpJumpThr.thr * 65536 ∧
     s.fld A.ptpJumpThr F.ptpJumpThr.thr * 65536 < (-65537 : Int).natAbs) ∧
    (let w : SlewX := { c := 5, n := 10, left := 0 }
     (ptp0 up 0 { slew := some w }).ptp.slew = some w ∧ w.left = 0 ∧ ({ w with left := 3 }).left ≠ 0) ∧
    ((ptp0 up 0 { wrapped := true }).ptp.wrapped = true ∧ up.ptp.wrapped = false) ∧
    (let s := put (ptp0 up 0 { clock := 4000000000 * nsUnit, epoch := some (7, 0) }) [(A.ptpSts, F.ptpSts.epochStale, 0)]
     s.ptp.epoch = some (7, 0) ∧ s.on A.ptpSts F.ptpSts.epochStale = false ∧ 4000000000 ≤ sinceEpoch s.ptpNs 0) ∧
    (let s := put (lay up [(A.ppsPeriod, 100)]) [(A.ppsOutCtl, F.ppsOutCtl.en, 1), (A.ppsOutCtl, F.ppsOutCtl.mode, 1), (A.dtSts, F.dtSts.running, 1)]
     s.ppsEdge = true ∧ s.on A.xtsCtl F.xtsCtl.autoPps = false ∧
     (let u := { s with ptp := { s.ptp with pulses := [(5, 2505)] }, tm := { s.tm with now := 2504 } }
      (5, 2505) ∈ u.ptp.pulses ∧ u.tm.now < 2505) ∧
     (put s [(A.xtsCtl, F.xtsCtl.autoPps, 1)]).on A.xtsCtl F.xtsCtl.autoPps = true ∧
     (put s [(A.xtsCtl, F.xtsCtl.autoPps, 1)]).ppsEdge = true) := by
  decide +kernel

/-- Port 0 with its queues. -/
def eth0 (s : State) (x : EthX) : State := { s with eths := [(0, x)] }

theorem test_hyps_PortsStampLaunchAndExport :
    (up.fld (A.ethAsymIn 0) F.ethAsymIn.ps = 0 ∧ up.fld (A.ethAsymOut 0) F.ethAsymOut.ps = 0) ∧
    (let s := put up [(A.ethTsCtl 0, F.ethTsCtl.onestep, 1), (A.ptpSts, F.ptpSts.epochStale, 0)]
     up.on (A.ethTsCtl 0) F.ethTsCtl.onestep = false ∧ s.on (A.ethTsCtl 0) F.ethTsCtl.onestep = true ∧
     s.on A.ptpSts F.ptpSts.epochStale = false ∧ s.fld (A.ethAsymOut 0) F.ethAsymOut.ps = 0 ∧
     (put s [(A.ptpSts, F.ptpSts.epochStale, 1)]).on A.ptpSts F.ptpSts.epochStale = true ∧
     (let u := eth0 s { reqs := [(7, 9, 100)] }
      u.on (A.ethTsCtl 0) F.ethTsCtl.onestep = true ∧
      (u.eth 0).reqs.find? (fun r => r.1 == (7 : BitVec 80).toNat && r.2.1 == (9 : BitVec 16).toNat) = some (7, 9, 100))) ∧
    ((eth0 up { rx := [(1, 2)] }).eth 0).rx = [(1, 2)] ∧ ((eth0 up { tx := [(1, 2)] }).eth 0).tx = [(1, 2)] ∧
    ((up.eth 0).rx = [] ∧ (up.eth 0).tx = []) ∧
    (let s := put up [(A.ethTsSts 0, F.ethTsSts.halted, 1)]
     s.on (A.ethTsSts 0) F.ethTsSts.halted = true ∧ 16 ≤ ((eth0 up { lq := List.replicate 16 (0, 5) }).eth 0).lq.length) ∧
    (up.on (A.ethTsSts 0) F.ethTsSts.halted = false ∧ (up.eth 0).lq.length < 16 ∧
      (let left := ((2000 : Word) - BitVec.ofNat 32 up.ptpNs).toNat
       left < 2 ^ 31 ∧ 2000 * nsUnit + up.ptp.clock % nsUnit ≤ left * nsUnit) ∧
      (let left := ((1999 : Word) - BitVec.ofNat 32 up.ptpNs).toNat
       left * nsUnit < 2000 * nsUnit + up.ptp.clock % nsUnit) ∧
      2 ^ 31 ≤ ((0xFFFFFFFF : Word) - BitVec.ofNat 32 up.ptpNs).toNat) ∧
    (let s := put (eth0 up { lq := [(3, 0)] }) [(A.ethTsSts 0, F.ethTsSts.linkUp, 1)]
     (s.eth 0).lq = [(3, 0)] ∧ (s.launchAt 0 0).toNat = s.ptpNs ∧ (s.eth 0).late = [] ∧ s.on (A.ethTsSts 0) F.ethTsSts.linkUp = true ∧
     up.on (A.ethTsSts 0) F.ethTsSts.linkUp = false ∧ (s.launchAt 0 1).toNat ≠ s.ptpNs ∧
     (s.launchAt 0 1 - BitVec.ofNat 32 s.ptpNs).toNat < 2 ^ 31 ∧
     2 ^ 31 ≤ (s.launchAt 0 0xFFFFFFFF - BitVec.ofNat 32 s.ptpNs).toNat ∧ ((eth0 s { late := [4] }).eth 0).late = [4]) ∧
    (let s := { put up [(A.expCfg 0, F.expCfg.slots, 1)] with exps := [(0, { items := [(0, List.replicate 32 1)] })], tm := { now := 250000 } }
     (s.exp 0).items = [(0, List.replicate 32 1)] ∧ 0 + 250000 ≤ s.tm.now ∧ s.on (A.ethTsSts 0) F.ethTsSts.linkUp = false ∧
     s.fld (A.expCfg 0) F.expCfg.port = 0) := by
  decide +kernel

/-- Engine 0 runs. -/
def tm0 (s : State) (x : TmX) : State := { put s [(A.tmSts 0, F.tmSts.running, 1)] with tms := [(0, x)] }

theorem test_hyps_IntervalsAreMeasured :
    (let s := { up with tius := [(3, { condAt := some 0 })] }
     s.inHold 3 = true ∧ ((s.tiu 3).recent.filter fun x => decide (s.tm.now ≤ x + 1)).length < 2 ∧ up.inHold 3 = false ∧ up.inHold 17 = false ∧ s.live = true ∧
     State.reset.live = false ∧ 17 < (18 : Fin 34).val ∧
     (⟨true, 7⟩ : Edge).level ≠ (up.tiu 3).level ∧ (⟨false, 7⟩ : Edge).level = (up.tiu 3).level) ∧
    (let s := tm0 up { a := 2, b := 3, n := 1, last := some 1 }
     let x := s.tm' 0
     let d : Int := ((s.DT * 256 + 7 : Nat) : Int) - 1
     s.inHold 3 = false ∧ s.edgeSel 3 true = true ∧ s.tmRun 0 = true ∧ x.mode = 0 ∧ x.a ≠ x.b ∧ x.b = 3 ∧ x.count < x.n ∧ x.last = some 1 ∧
     -(2 ^ 47 : Int) ≤ d ∧ d < 2 ^ 47) ∧
    (let s := { put up [(A.tiuInCfg 3, F.tiuInCfg.holdoff, 4)] with tius := [(3, { condAt := some 0 })], tm := { now := 5 } }
     (s.tiu 3).condAt = some 0 ∧ s.tm.now = 0 + s.fld (A.tiuInCfg 3) F.tiuInCfg.holdoff + 1 ∧ true ≠ (s.tiu 3).level ∧ s.live = true) ∧
    (let s := put up [(A.dtSts, F.dtSts.loadPend, 1)]
     (⟨true, 0⟩ : Edge).level ≠ (s.tiu 16).level ∧ s.inHold 16 = false ∧ s.live = true ∧ s.on A.dtSts F.dtSts.loadPend = true ∧ s.tm.loadAt = none) ∧
    (let s := put up [(A.tmN 0, F.tmN.n, 5)]
     getF (0 : Word) F.tmCtl.stop = 0 ∧ s.tmRun 0 = false ∧ s.fld (A.tmN 0) F.tmN.n = 5 ∧ getF (0 : Word) F.tmCtl.mode ≤ 3 ∧
     getF (0 : Word) F.tmCtl.srcA ≤ 33 ∧ 33 < getF (putF 0 F.tmCtl.srcA 34) F.tmCtl.srcA ∧ getF (putF 0 F.tmCtl.srcA 34) F.tmCtl.stop = 0 ∧
     (tm0 up {}).tmRun 0 = true) ∧
    (let s := tm0 up { n := 1, count := 1, timeout := 1 }
     let s := { s with tm := { now := 2500000 } }
     let x := s.tm' 0
     x.gen < 8 ∧ s.live = true ∧ getF (0 : Word) F.tmCtl.go = 0 ∧ up.tmRun 0 = false ∧ s.tmRun 0 = true ∧ x.mode ≠ 3 ∧ x.n ≤ x.count ∧ 0 < x.count ∧
     x.timeout ≠ 0 ∧ x.startAt + x.timeout * 2500000 ≤ s.tm.now) ∧
    (let s := { tm0 up { mode := 3, gate := 1000 } with tm := { now := 2500000 } }
     let x := s.tm' 0
     s.tmRun 0 = true ∧ x.mode = 3 ∧ x.startAt + x.gate * 2500 ≤ s.tm.now) := by
  decide +kernel

/-- Channel 7 carries source 1376; the task inputs 5, 33 and 40 subscribe to it. -/
def ev7 : State :=
  { put (lay up [(A.taskSub 5, 7), (A.taskSub 33, 7), (A.taskSub 40, 7)])
      [(A.evfCh 7, F.evfCh.en, 1), (A.evfCh 7, F.evfCh.src, 1376), (A.taskCtl 5, F.taskCtl.subEn, 1), (A.taskCtl 33, F.taskCtl.subEn, 1),
       (A.taskCtl 40, F.taskCtl.subEn, 1)] with evq := [(1376, 0)] }

theorem test_carries : Carries ev7 [1376] 7 :=
  ⟨by decide, by decide +kernel, .inl ⟨by decide +kernel, 0, by decide +kernel⟩⟩

/-- Channel 8 carries an event that EVF_FIRE has fired; task input 5 subscribes to it too. -/
def ev8 : State :=
  { put (lay ev7 [(A.taskSub 5, 7 + 8 * 256)]) [(A.evfCh 8, F.evfCh.en, 1), (A.evfCh 8, F.evfCh.src, 1377), (A.taskCtl 5, F.taskCtl.subEn, 3)] with
    evIn := [(8, 0)] }

theorem test_carries_two : Carries ev8 [1376] 7 ∧ Carries ev8 [1376] 8 ∧ Subscribes ev8 5 7 ∧ Subscribes ev8 5 8 :=
  ⟨⟨by decide, by decide +kernel, .inl ⟨by decide +kernel, 0, by decide +kernel⟩⟩, ⟨by decide, by decide +kernel, .inr ⟨0, by decide +kernel⟩⟩,
    by unfold Subscribes; decide +kernel, by unfold Subscribes; decide +kernel⟩

theorem test_hyps_EventsReachTheirTasks :
    (7 ∈ ev7.subs 5 ∧ 7 ∈ ev7.subs 33 ∧ 7 ∈ ev7.subs 40) ∧
    (∀ c, c < 256 → up.chOn c = true → up.chSrc c ∉ [1376]) ∧ up.evIn = [] ∧
    (ev7.live = true ∧ ev7.chOn (getF (putF 0 F.evfFire.ch 7) F.evfFire.ch) = true ∧ ev7.chOn (getF 0 F.evfFire.ch) = false) := by
  decide +kernel

/-! ## Housekeeping, power, records, service ports -/

/-- Quadrant 0's housekeeping: its reference is settled, and it is in the state x; entry 0 reads input 24. -/
def hk0 (s : State) (x : HkX) : State :=
  { put s [(A.hkSts 0, F.hkSts.refReady, 1), (A.hkSeq 0 0, F.hkSeq.input, 24), (A.hkUrgCfg 0, F.hkSeq.input, 24)] with hks := [(0, x)] }

/-- A conversion of entry 0. -/
def cv0 : HkConv := { kind := 0, entry := putF 0 F.hkSeq.input 24, phase := 4, at_ := 0 }

theorem test_hyps_HousekeepingConverts :
    (up.blkUp 0 = true ∧ up.blockRefuse .host (A.hkCtl 0) = none ∧ up.blockRefuse .host (A.hkCfg 0) = none) ∧
    (let w := putF (0 : Word) F.hkCtl.len 1
     let s := hk0 up {}
     getF w F.hkCtl.stop = 0 ∧ getF w F.hkCtl.urgGo = 0 ∧ getF w F.hkCtl.go = 0 ∧ s.hkBusy 0 = false ∧ getF w F.hkCtl.len = 1 ∧
     getF (0 : Word) F.hkCtl.len = 0 ∧
     (s.hk 0).conv = none ∧ (s.hk 0).therm = [] ∧ (s.hk 0).urg = false ∧ s.henServes = true ∧ s.on (A.hkSts 0) F.hkSts.refReady = true ∧
     24 ≤ hkIn (s.reg (A.hkSeq 0 0)) ∧
     (put s [(A.hkSts 0, F.hkSts.busy, 1), (A.hkCtl 0, F.hkCtl.len, 1)]).hkBusy 0 = true ∧
     getF w F.hkCtl.len = (put s [(A.hkCtl 0, F.hkCtl.len, 1)]).fld (A.hkCtl 0) F.hkCtl.len ∧
     getF w F.hkCtl.cont = s.fld (A.hkCtl 0) F.hkCtl.cont) ∧
    (let s := put (hk0 up { conv := some cv0 }) [(A.hkSts 0, F.hkSts.busy, 1)]
     s.hkBusy 0 = true ∧ (s.hk 0).conv = some cv0 ∧ cv0.kind = 0 ∧ cv0.phase = 4 ∧ 8 ≤ hkIn cv0.entry ∧ hkIn cv0.entry ≠ 31 ∧
     s.on (A.hkSts 0) F.hkSts.urgBusy = false ∧ s.on (A.hkSts 0) F.hkSts.refReady = true ∧ 24 ≤ hkIn (s.reg (A.hkUrgCfg 0)) ∧
     (put s [(A.hkSts 0, F.hkSts.urgBusy, 1)]).on (A.hkSts 0) F.hkSts.urgBusy = true) ∧
    (getF (putF (0 : Word) F.hkCfg.ref 3) F.hkCfg.ref = 3 ∧ getF (putF (0 : Word) F.hkCfg.ref 1) F.hkCfg.ref ≠ up.fld (A.hkCfg 0) F.hkCfg.ref ∧
      getF (0 : Word) F.hkCfg.ref = up.fld (A.hkCfg 0) F.hkCfg.ref) := by
  decide +kernel

theorem test_hyps_HousekeepingConverts_results :
    (let s := hk0 up {}
     (2 * ((2 ^ 23 : Int) * 2500000000 - 2 ^ 23 * 2500000000).natAbs ≤ 1) ∧ hkIn (putF 0 F.hkSeq.input 34) = 34 ∧
     s.fld (A.hkCfg 0) F.hkCfg.ref = 0 ∧ 0 < (⟨5, 1⟩ : HkSample).x) ∧
    (let s := put (hk0 up { conv := some cv0 }) [(A.hkSts 0, F.hkSts.busy, 1), (A.hkCtl 0, F.hkCtl.len, 1)]
     let s := { s with tm := { now := 50000000 } }
     cv0.at_ + s.hkLen 0 cv0.entry ≤ s.tm.now ∧ s.blkUp 0 = true ∧ (s.hk 0).heldRes = [] ∧ cv0.e < 64 ∧ (s.hk 0).idx = cv0.e ∧ s.fld (A.hkCtl 0) F.hkCtl.len = cv0.e + 1 ∧
     s.hkBusy 0 = true ∧ (s.hk 0).gap = none ∧ (s.hk 0).gen < 8 ∧ s.on (A.hkCtl 0) F.hkCtl.cont = false) ∧
    (let s := put (hk0 up { gap := some 0 }) [(A.hkSts 0, F.hkSts.busy, 1), (A.hkCtl 0, F.hkCtl.len, 1), (A.hkCtl 0, F.hkCtl.gapMs, 0)]
     (s.hk 0).gap = some 0 ∧ 0 + s.fld (A.hkCtl 0) F.hkCtl.gapMs * 2500000 ≤ s.tm.now ∧ s.hkBusy 0 = true ∧
     1 ≤ s.fld (A.hkCtl 0) F.hkCtl.len ∧ (s.hk 0).conv = none ∧ s.henServes = true ∧
     s.tm.now < 0 + (put s [(A.hkCtl 0, F.hkCtl.gapMs, 1)]).fld (A.hkCtl 0) F.hkCtl.gapMs * 2500000) := by
  decide +kernel

theorem test_hyps_HousekeepingConverts_reference :
    (let s := put { hk0 up {} with tm := { now := 500000000 } } [(A.hkSts 0, F.hkSts.refReady, 0)]
     s.on (A.hkSts 0) F.hkSts.refReady = false ∧ (s.hk 0).refAt + s.refSettle 0 + 25000000 ≤ s.tm.now ∧ (s.hk 0).conv = none ∧
     (s.hk 0).refBad = false ∧ (s.hk 0).gen = 0 ∧ s.live = true ∧ State.reset.live = false ∧
     (hk0 up {}).on (A.hkSts 0) F.hkSts.refReady = true) ∧
    (let c : HkConv := { cv0 with entry := putF 0 F.hkSeq.input 8, phase := 1 }
     let s := put { hk0 owned { conv := some c } with tm := { now := 500000000 } } [(A.hkSts 0, F.hkSts.refReady, 0)]
     s.live = true ∧ s.on (A.hkSts 0) F.hkSts.refReady = false ∧ (s.hk 0).refAt + s.refSettle 0 ≤ s.tm.now ∧ (s.hk 0).conv = some c ∧
     c.phase = 1 ∧ 8 ≤ hkIn c.entry ∧ hkIn c.entry < 24 ∧ s.enforce = true ∧ s.plotOf (8 * 0 + (hkIn c.entry - 8) % 8) ≠ none ∧
     c.kind = 0 ∧ c.e < 64 ∧ (s.hk 0).idx = c.e ∧ s.blkUp 0 = true ∧ (s.hk 0).heldRes = []) ∧
    (({ cv0 with phase := 1 }).phase = 1 ∧ ((hk0 up { conv := some { cv0 with phase := 1 } }).hk 0).conv = some { cv0 with phase := 1 }) := by
  decide +kernel

theorem test_hyps_SensorsAreChecked :
    (let c : HkConv := { cv0 with entry := putF 0 F.hkSeq.input 5 }
     let s := hk0 up { conv := some c }
     (s.hk 0).conv = some c ∧ hkIn c.entry < 8 ∧ c.phase = 4 ∧ (s.hk 0).gen < 8 ∧ ({ c with phase := 1 }).phase ≠ 3) ∧
    (let s := { up with sns := [(2, { chk := 2 })] }
     up.blockRefuse .host (A.snChkCtl 0) = none ∧ getF (putF (0 : Word) F.snChkCtl.periodS 1) F.snChkCtl.periodS ≠ 0 ∧ s.snRunning 0 = true ∧
     (s.sn 0 2).chk = 2 ∧ up.snRunning 0 = false) ∧
    ((∀ k, k < 8 → up.snOn 0 k = false) ∧ ({ up with sns := [(2, { cfg := putF 0 F.snCfg.en 1 })] }).snOn 0 2 = true ∧
      ({ up with sns := [(2, { cfg := putF 0 F.snCfg.en 1 })] }).snRunning 0 = false ∧
      ({ up with sns := [(2, { cfg := putF 0 F.snCfg.en 1 })] }).converting 0 2 = false) ∧
    (let s := put up [(A.snChkCtl 0, F.snChkCtl.en, 1), (A.snChkCtl 0, F.snChkCtl.periodS, 1)]
     s.on (A.snChkCtl 0) F.snChkCtl.en = true ∧ s.fld A.glbSts F.glbSts.bootStage = 3 ∧
     s.tm.now < (s.hk 0).perAt + s.fld (A.snChkCtl 0) F.snChkCtl.periodS * 2500000000 ∧
     (let s := { s with tm := { now := 2500000000 }, sns := [(2, { cfg := putF 0 F.snCfg.en 1 })] }
      (s.hk 0).perAt + s.fld (A.snChkCtl 0) F.snChkCtl.periodS * 2500000000 ≤ s.tm.now ∧ s.on (A.snChkCtl 0) F.snChkCtl.en = true ∧
      s.fld A.glbSts F.glbSts.bootStage = 3 ∧ s.snRunning 0 = false ∧ s.snOn 0 2 = true ∧ s.converting 0 2 = false)) ∧
    (let s := { up with sns := [(2, { chk := 2 })], tm := { now := 250000000 } }
     (s.sn 0 2).chk = 2 ∧ (s.sn 0 2).at_ + 250000000 ≤ s.tm.now ∧ (s.hk 0).chkGen < 8 ∧ up.tm.now < (up.sn 0 2).at_ + 250000000) := by
  decide +kernel

/-- A part whose model is anchored, at a tick. -/
def heat (s : State) (n : Nat) (x : PowerX) : State := { s with power := x, tm := { now := n } }

theorem test_hyps_PowerAndHeat :
    (up.live = true ∧ up.shutAt = none ∧ (put up [(A.runSts 0, F.runSts.state, 2)]).stopped 0 = false ∧ (up.sched 0).abortAt = none) ∧
    (let s := { up with shutAt := some 0, tm := { now := 625000 } }
     s.live = true ∧ s.shutAt = some 0 ∧ s.aon.off = false ∧ 0 + 625000 ≤ s.tm.now) ∧
    (({ up with aon := { por := false, tripped := true } }).aon.tripped = true ∧ State.reset.aon.por = true ∧ up.aon.tripped = false ∧
      up.aon.por = false) ∧
    (let s := { put up [(A.pmLimit, ⟨31, 0⟩, 5)] with tm := { now := 2500000 } }
     s.power.meterAt + 2500000 ≤ s.tm.now ∧ s.aon.off = false ∧ s.aon.por = false ∧ s.shutAt = none ∧ (s.reg A.pmLimit).toNat < 6 ∧
     s.power.overLim = false ∧ s.tileOn (0 / 4) = true ∧ s.tileOn (4 / 4) = false ∧ (4 : Nat) < 128 ∧ (128 : Nat) ≤ 167 ∧
     up.tm.now < up.power.meterAt + 2500000) ∧
    (let s := put up [(A.thCold, F.thCold.ref, 0), (A.thCold, F.thCold.ofs, 0)]
     (∀ m, m < 40 → s.s16 (A.thNode m) = 0) ∧ (∀ d, d < 168 → s.fld (A.pmDom d) F.pmDom.mw = 0) ∧ s.coldPlate = 0) ∧
    (let s := heat (put up [(A.thSts, F.thSts.anchorStale, 0)]) 2500000 { anchorOk := 1 }
     s.live = true ∧ s.shutAt = none ∧ s.power.modelAt + 2500000 ≤ s.tm.now ∧ s.power.anchorOk ≠ 0 ∧
     s.on A.thSts F.thSts.anchorStale = false ∧ s.power.errAdds = false ∧ s.on A.thSts F.thSts.warn = false ∧ up.power.anchorOk = 0 ∧
     (put up [(A.thSts, F.thSts.anchorStale, 0)]).on A.thSts F.thSts.anchorStale = false ∧
     (put up [(A.thSts, F.thSts.anchorStale, 1)]).on A.thSts F.thSts.anchorStale = true) ∧
    (let s := heat (put up [(A.thSts, F.thSts.anchorStale, 0), (A.thCtl, F.thCtl.throt, 100), (A.thCtl, F.thCtl.thrEn, 1), (A.thTj, ⟨15, 0⟩, 1600)])
        2500000 { anchorOk := 1 }
     s.power.throttleAt + 2500000 ≤ s.tm.now ∧ s.on A.thCtl F.thCtl.thrEn = true ∧ (s.fld A.thCtl F.thCtl.throt : Int) * 16 ≤ s.tjEff ∧
     (let s := put s [(A.thTj, ⟨15, 0⟩, 1599)]
      s.tjEff < (s.fld A.thCtl F.thCtl.throt : Int) * 16 ∧ (s.fld A.thCtl F.thCtl.throt : Int) * 16 - 32 ≤ s.tjEff) ∧
     (let s := put s [(A.thTj, ⟨15, 0⟩, 1567), (A.thSts, F.thSts.level, 1)]
      s.tjEff < (s.fld A.thCtl F.thCtl.throt : Int) * 16 - 32 ∧ s.fld A.thSts F.thSts.level = 1) ∧
     (let s := { put s [(A.thSts, F.thSts.anchorStale, 1), (A.thCtl, F.thCtl.thrEn, 0)] with power := {} }
      s.power.anchorOk = 0 ∧ s.on A.thSts F.thSts.anchorStale = true ∧ s.on A.thCtl F.thCtl.thrEn = false ∧ s.live = true ∧ s.shutAt = none ∧
      s.power.throttleAt + 2500000 ≤ s.tm.now)) ∧
    (let s := heat up 0 { anchoring := true }
     s.power.anchoring = true ∧ s.thermalIdle = true ∧ s.live = true ∧ (∀ i, i < 8 → s.diode i = none) ∧
     (let u := { s with hks := [(3, { diodes := [(33, 819200)] })] }
      u.diode 7 = some 800 ∧ u.diode 6 = none ∧ u.thermalIdle = true)) := by
  decide +kernel

theorem test_hyps_VoltageClocksAndConverters :
    (let s := { put up [(A.avsCtl, F.avsCtl.en, 1), (A.avsCtl, F.avsCtl.marginLo, 4), (A.avsCtl, F.avsCtl.marginHi, 8),
          (A.avsDom 0, F.avsDom.vset, 10), (A.avsDom 0, F.avsDom.vmin, 5), (A.avsDom 0, F.avsDom.vmax, 20)] with tm := { now := 25000 } }
     adapted 0 = true ∧ s.live = true ∧ s.domOn 0 = true ∧ s.domOn 4 = false ∧ s.domOn 167 = true ∧ KMap.get 0 s.avsAt 0 + 25000 ≤ s.tm.now + 1 ∧ up.tm.now + 1 < KMap.get 0 up.avsAt 0 + 25000 ∧
     (0 : Nat) ∉ s.power.emerg ∧ s.stepAfter 0 25000 = true ∧ s.stepAfter 0 12500 = true ∧
     ({ up with avsAt := [(0, 1)] }).stepAfter 0 25000 = false ∧ ({ up with avsAt := [(0, 1)] }).stepAfter 0 12500 = false ∧ (10 : Nat) < (s.vLimits 0).2 ∧ (5 : Nat) < 10 ∧ s.on A.avsCtl F.avsCtl.en = true ∧ s.on A.avsCtl F.avsCtl.freeze = false ∧ s.mayStep 0 = true ∧
     s.fld A.avsCtl F.avsCtl.marginLo = 4 ∧ s.fld A.avsCtl F.avsCtl.marginHi = 8 ∧ s.vLimits 0 = (5, 20) ∧ s.fld (A.avsDom 0) F.avsDom.vset = 10 ∧
     s.on (A.avsDom 0) F.avsDom.atLimit = false ∧ (put s [(A.avsDom 0, F.avsDom.vset, 20)]).fld (A.avsDom 0) F.avsDom.vset = 20 ∧
     (put s [(A.avsCtl, F.avsCtl.freeze, 1)]).on A.avsCtl F.avsCtl.freeze = true) := by
  decide +kernel

theorem test_hyps_VoltageClocksAndConverters_others :
    (let s := { put up [(A.avsCtl, F.avsCtl.en, 1)] with tm := { now := 25000 } }
     (put s [(A.avsCtl, F.avsCtl.en, 0)]).on A.avsCtl F.avsCtl.en = false ∧
     (heat s 25000 { emerg := [0] }).power.emerg = [0] ∧ (heat s 25000 { emerg := [0] }).stepAfter 0 12500 = true) ∧
    (let s := heat up 2500000 { railAt := some 0 }
     s.power.railAt = some 0 ∧ s.live = true ∧ 0 + 2500000 ≤ s.tm.now ∧ (heat up 2499999 { railAt := some 0 }).tm.now < 0 + 2500000 ∧
     up.power.railAt = none ∧ State.reset.live = false) ∧
    (let s := put up [(A.islLim 0 2, F.islLim.fmin, 10), (A.islLim 0 2, F.islLim.fmax, 60)]
     s.tileOn 0 = true ∧ s.live = true ∧ s.fld (A.islLim 0 2) F.islLim.fmin = 10 ∧ s.on (A.islSts 0 2) F.islSts.atMin = false ∧
     (let u := put s [(A.islCtl 0, F.islCtl.en, 1)]
      (u.on (A.islCtl 0) F.islCtl.en && !u.on (A.islCtl 0) F.islCtl.freeze) = true ∧ (9 : BitVec 7).toNat < 10 ∧
      max 10 (min 60 (9 : BitVec 7).toNat) = 10) ∧
     (let u := put s [(A.islCtl 0, F.islCtl.en, 1), (A.islCtl 0, F.islCtl.freeze, 1), (A.islSts 0 2, F.islSts.freq, 30)]
      (u.on (A.islCtl 0) F.islCtl.en && !u.on (A.islCtl 0) F.islCtl.freeze) = false ∧ u.fld (A.islSts 0 2) F.islSts.freq ≠ 10)) ∧
    (convIdx .xy (2 : Fin 14).val = some 2 ∧ convIdx .probe (0 : Fin 14).val = some 4 ∧ convIdx .flux (13 : Fin 14).val = some 18) ∧
    (let s := sch0 (put up [(A.runSts 0, F.runSts.state, 2), (A.tpwCtl 0, F.tpwCtl.xyPd, 1), (A.tpwCtl 0, F.tpwCtl.fluxPd, 1)])
        { lastStart := some 0, lastEnd := 0, fixed := some ⟨1000000, 0, 0⟩ }
     let s := { s with tm := { dt := 1 }, convs := [(18, { zero := 1024 })] }
     s.plotOf 0 = some 0 ∧ s.tileOn 0 = true ∧ s.pdOn 0 .xy = true ∧ s.pdOn 0 .flux = true ∧ (s.conv 0 2).st = 0 ∧ (s.conv 0 18).zero = 1024 ∧
     s.fld (A.fxIdle 0 13) F.fxIdle.idleCode = 0 ∧ s.gapQualifies 0 (wakeTicks .xy) = true ∧ s.gapQualifies 0 (wakeTicks .flux) = true ∧
     s.on (A.tpwSts 0) F.tpwSts.downNow = false) ∧
    (let f : Fixed := ⟨60000, 0, 0⟩
     let s := { sch0 up { fixed := some f } with tm := { dt := 10000 }, convs := [(2, { st := 1, at_ := 1 })] }
     (s.conv 0 2).st = 1 ∧ (s.sched 0).fixed = some f ∧ f.start ≤ s.DT + s.lead 0 + wakeTicks .xy ∧ (s.conv 0 2).at_ + 2500 ≤ s.DT) ∧
    (let s := { up with tm := { dt := 50001 }, convs := [(2, { st := 2, at_ := 1 })] }
     (s.conv 0 2).st = 2 ∧ (s.conv 0 2).at_ + wakeTicks .xy ≤ s.DT ∧
     ({ s with tm := { dt := 50000 } }).DT < (s.conv 0 2).at_ + wakeTicks .xy) := by
  decide +kernel

/-- A copy whose CRC does not agree with it. -/
def badCopy : MramCopy := { mkCopy 3 [] with crc := (mkCopy 3 []).crc ^^^ 1 }

theorem test_hyps_CalibrationCountersAndCalendar :
    (let s := { put up [(A.calCtl, F.calCtl.en, 1), (A.calCtl, F.calCtl.minMs, 0)] with tm := { now := 2500000 } }
     s.slotDue 0 = true ∧ s.tilesOf 0 = [(0 : Tile).val] ∧ KMap.get 0 s.cal.next 0 < 32 ∧
     (put s [(A.calQ 0 0, F.calQ.rej, 2)]).fld (A.calQ 0 0) F.calQ.rej = 2 ∧
     (put s [(A.calQlim 0, F.calQlim.spur, 1)]).beyond 0 0 (sext 16 (10 : BitVec 16).toNat) = true ∧
     selfTests 0 0 = false ∧ (0 : BitVec 16) = 0 ∧
     (let u := { s with cal := { s.cal with next := [(0, 28)] } }
      u.slotDue 0 = true ∧ u.tilesOf 0 = [0] ∧ KMap.get 0 u.cal.next 0 = 28 ∧ (1 : BitVec 16) ≠ 0 ∧ selfTests 28 5 = true ∧ u.failed 0 5 = false)) ∧
    (let s := { put up [(A.calCtl, F.calCtl.en, 1), (A.calCtl, F.calCtl.maxS, 1), (A.runSts 0, F.runSts.state, 2)] with tm := { now := 2500000000 } }
     s.live = true ∧ s.on A.calCtl F.calCtl.en = true ∧ s.stopped 0 = false ∧ (0 : Plot).val ∉ s.cal.req ∧
     s.on (A.klCoord 0) F.klCoord.en = false ∧ s.fld A.calCtl F.calCtl.maxS * 1000 ≤ s.calAge 0 ∧
     ({ s with cal := { req := [0] } }).calAsked 0 = true) ∧
    (let s := { put up [(A.calCtl, F.calCtl.minMs, 1)] with tm := { now := 2500000 } }
     KMap.get 0 s.cal.devAt 33 + s.fld A.calCtl F.calCtl.minMs * 2500000 ≤ s.tm.now ∧ s.shutAt = none ∧ up.aon.tripped = false ∧
     up.tm.now < KMap.get 0 up.cal.devAt 33 + s.fld A.calCtl F.calCtl.minMs * 2500000 ∧
     KMap.get 0 ({ s with cal := { rej := [(0, 2)] } }).cal.rej 0 = 2) ∧
    (let s := { up with cal := { copyA := some (mkCopy 3 []), copyB := some (mkCopy 4 []) }, tm := { now := 150000000000 } }
     s.live = true ∧ s.shutAt = none ∧ s.aon.tripped = false ∧ s.cal.savedAt + 150000000000 ≤ s.tm.now ∧ s.cal.copyA = some (mkCopy 3 []) ∧
     s.cal.copyB = some (mkCopy 4 []) ∧ (mkCopy 3 []).seq < (mkCopy 4 []).seq ∧ ¬(mkCopy 5 []).seq < (mkCopy 4 []).seq ∧ up.cal.copyA = none ∧
     up.tm.now < up.cal.savedAt + 150000000000 ∧ ({ up with aon := { por := false, tripped := true } }).aon.tripped = true) ∧
    (let s := { up with cal := { copyA := some badCopy } }
     s.cal.copyA = some badCopy ∧ s.cal.copyB = none ∧ badCopy.valid = false ∧ (mkCopy 3 []).valid = true) := by
  decide +kernel

theorem test_hyps_CalibrationCountersAndCalendar' :
    (let s := put up [(A.glbSts, F.glbSts.bootStage, 2)]
     s.fld A.glbSts F.glbSts.bootStage = 2 ∧ s.on A.calSts F.calSts.bootDone = false ∧ up.fld A.glbSts F.glbSts.bootStage ≠ 2 ∧
     (put s [(A.calSts, F.calSts.bootDone, 1)]).on A.calSts F.calSts.bootDone = true ∧
     (let g : ImgX := { src := .load, header := List.replicate 32 0 ++ [1, 0, 0, 0] }
      let u := { s with cfg := { img := some g, trained := 1 } }
      u.cfg.img = some g ∧ (leAt g.header 32 4).testBit (0 : Tile).val = true ∧ u.cfg.trained.testBit ((0 : Tile).val / 8) = true ∧
      [[(⟨true, 7, 0⟩ : CalResult)]].getD (0 : Tile).val [] = [⟨true, 7, 0⟩] ∧ ([⟨true, 7, 0⟩] : List CalResult)[0]? = some ⟨true, 7, 0⟩)) ∧
    (let s := { up with book := { copyA := some (mkCopy 3 []), copyB := some (mkCopy 4 []), want := true } }
     s.henRestart = none ∧ s.shutAt = none ∧ s.book.want = true ∧ s.book.copyA = some (mkCopy 3 []) ∧ s.book.copyB = some (mkCopy 4 []) ∧
     s.aon.tripped = false ∧ up.book.copyA = none ∧ ({ up with book := { copyB := some badCopy } }).book.copyB = some badCopy ∧
     up.book.want = false ∧ up.tm.now < up.book.savedAt + 150000000000 ∧ ({ up with henRestart := some 0 }).henRestart.isSome = true) ∧
    (up.live = true ∧ State.reset.live = false ∧ up.aon.vddIo = true ∧
     ({ up with aon := { por := false, vddIo := false } }).aon.vddIo = false ∧ ({ up with aon := { por := false, vddIo := false } }).live = true) := by
  decide +kernel

theorem test_hyps_ServicePortsAnswer :
    (({ up with aon := { por := false, latch := some (9, 2) } }).aon.latch = some (9, 2) ∧ up.aon.latch = none) ∧
    (State.reset.aon.por = true ∧ ({ up with aon := { por := false, sys := true } }).aon.sys = true) ∧
    (up.live = true ∧ up.shutAt = none ∧ up.aon.vddIo = true ∧ ({ up with aon := { por := false, vddIo := false } }).aon.vddIo = false) ∧
    (let s := { up with aon := { por := false, tripped := true } }
     s.aon.tripped = true ∧ up.aon.tripped = false ∧ (put up [(A.evfAlertSts, F.evfAlertSts.asserted, 1)]).on A.evfAlertSts F.evfAlertSts.asserted = true ∧
     State.reset.live = false) ∧
    (up.drives = true ∧ up.klState 0 = 0 ∧ 4 ≤ (put up [(A.klSts 0, F.klSts.state, 4)]).klState 0 ∧ (put up [(A.klSts 0, F.klSts.state, 4)]).klState 0 ≠ 7 ∧
     (put up [(A.klSts 0, F.klSts.state, 4)]).drives = true) ∧
    (let s := { up with aon := { por := false, off := true } }
     s.aon.por = false ∧ s.aon.sys = false ∧ s.aon.off = true ∧ ({ up with shutAt := some 3 }).shutAt.isSome = true) ∧
    (up.enforce = false ∧ owned.enforce = true) ∧
    (up.drives = true ∧ State.reset.drives = false ∧ up.tileOn 0 = true ∧ State.reset.fld A.glbSts F.glbSts.bootStage ≠ 3 ∧
      (let s := put up [(A.glbCtl, F.glbCtl.muteAll, 1)]
       s.drives = true ∧ s.muted 0 3 = true ∧ s.muted 0 4 = true ∧ s.muted 0 18 = true) ∧
      ({ up with jtag := { ir := 6 } }).jtag.ir = 6 ∧ ({ up with jtag := { ir := 4 } }).jtag.ir = 4) := by
  decide +kernel

end Sys2Proof.Tests
end

section
/-! ## The register map: a register is found at its own offsets (R8, R35) -/

namespace Sys2Proof.Machine

/-- The distance from a register's base to the end of its last offset, for the counts and strides of its indices. -/
def dimSpan : List (Nat × Nat) → Nat
  | [] => 1
  | (n, st) :: ds => (n - 1) * st + dimSpan ds

/-- Each stride holds all offsets of the indices behind it. -/
def dimsNested : List (Nat × Nat) → Bool
  | [] => true
  | (_, st) :: ds => decide (dimSpan ds ≤ st) && dimsNested ds

/-- Two registers, of dims `ds` at base `b` and of dims `es` at base `c`, share no offset: they end before each other, or they
repeat with one stride and share none within it. -/
def dimsApart : List (Nat × Nat) → List (Nat × Nat) → Nat → Nat → Bool
  | ds, es, b, c =>
    Nat.ble (b + dimSpan ds) c || Nat.ble (c + dimSpan es) b ||
      match ds, es with
      | (_, st) :: ds, (_, st') :: es =>
        st == st' && Nat.ble (b - min b c + dimSpan ds) st && Nat.ble (c - min b c + dimSpan es) st &&
          dimsApart ds es (b - min b c) (c - min b c)
      | _, _ => false

/-- Register `r` stands in the list, behind registers that share no offset with it. -/
def RegSpec.leads (r : RegSpec) : List RegSpec → Bool
  | [] => false
  | q :: qs => decide (q = r) || (dimsApart q.dims r.dims q.base r.base && r.leads qs)

/-- Register `r` is of the map, and no register before it hides its offsets. -/
def RegSpec.mapped (r : RegSpec) : Bool := dimsNested r.dims && r.leads regTable

/-- The indices lie within the counts of the dims. -/
def idxFits : List (Nat × Nat) → List Nat → Bool
  | [], [] => true
  | (n, _) :: ds, i :: ix => decide (i < n) && idxFits ds ix
  | _, _ => false

/-- The distance from the base to the register with the indices `ix`. -/
def idxOffset : List (Nat × Nat) → List Nat → Nat
  | (_, st) :: ds, i :: ix => st * i + idxOffset ds ix
  | _, _ => 0

theorem dimSpan_pos (ds : List (Nat × Nat)) : 0 < dimSpan ds := by
  induction ds with
  | nil => exact Nat.one_pos
  | cons d ds ih => exact Nat.lt_of_lt_of_le ih (Nat.le_add_left _ _)

theorem idxOffset_lt_dimSpan : ∀ (ds : List (Nat × Nat)) (ix : List Nat), idxFits ds ix = true → idxOffset ds ix < dimSpan ds
  | [], [], _ => Nat.one_pos
  | (n, st) :: ds, i :: ix, h => by
    simp only [idxFits, Bool.and_eq_true, decide_eq_true_eq] at h
    have hrest := idxOffset_lt_dimSpan ds ix h.2
    have hi : st * i ≤ (n - 1) * st := by
      rw [Nat.mul_comm]; exact Nat.mul_le_mul_right _ (by omega)
    simp only [idxOffset, dimSpan]
    omega

/-- An offset that decodes to indices lies within the register's span. -/
theorem decodeIdx_lt_dimSpan : ∀ (ds : List (Nat × Nat)) (r : Nat) (ix : List Nat), decodeIdx ds r = some ix → r < dimSpan ds
  | [], r, ix, h => by
    simp only [decodeIdx, Option.ite_none_right_eq_some] at h
    simp only [dimSpan]
    omega
  | (n, st) :: ds, r, ix, h => by
    simp only [decodeIdx, Option.ite_none_right_eq_some, Option.map_eq_some_iff] at h
    obtain ⟨hn, jx, hj, -⟩ := h
    have hrest := decodeIdx_lt_dimSpan ds (r % st) jx hj
    have hi : st * (r / st) ≤ (n - 1) * st := by
      rw [Nat.mul_comm]; exact Nat.mul_le_mul_right _ (by omega)
    have hr := Nat.div_add_mod r st
    simp only [dimSpan]
    omega

/-- The offset of indices decodes to them. -/
theorem decodeIdx_idxOffset : ∀ (ds : List (Nat × Nat)) (ix : List Nat), dimsNested ds = true → idxFits ds ix = true →
    decodeIdx ds (idxOffset ds ix) = some ix
  | [], [], _, _ => rfl
  | (n, st) :: ds, i :: ix, hn, hf => by
    simp only [dimsNested, idxFits, Bool.and_eq_true, decide_eq_true_eq] at hn hf
    have hlt : idxOffset ds ix < st := Nat.lt_of_lt_of_le (idxOffset_lt_dimSpan ds ix hf.2) hn.1
    have hdiv : (st * i + idxOffset ds ix) / st = i := by
      rw [Nat.mul_add_div (by omega), Nat.div_eq_of_lt hlt, Nat.add_zero]
    have hmod : (st * i + idxOffset ds ix) % st = idxOffset ds ix := by
      rw [Nat.mul_add_mod, Nat.mod_eq_of_lt hlt]
    simp only [decodeIdx, idxOffset, hdiv, hmod, if_pos hf.1, decodeIdx_idxOffset ds ix hn.2 hf.2, Option.map_some]

/-- Where the indices behind the first span less than a stride, the place within the stride at which an offset falls. -/
theorem mod_eq_of_decode {ds : List (Nat × Nat)} {x d st : Nat} {ix : List Nat} (hx : d ≤ x) (hd : d + dimSpan ds ≤ st)
    (h : decodeIdx ds ((x - d) % st) = some ix) : x % st = d + (x - d) % st := by
  have hlt := decodeIdx_lt_dimSpan ds _ ix h
  calc x % st = (st * ((x - d) / st) + (d + (x - d) % st)) % st := by
        congr 1
        have := Nat.div_add_mod (x - d) st
        omega
    _ = d + (x - d) % st := by rw [Nat.mul_add_mod, Nat.mod_eq_of_lt (by omega)]

/-- Registers that are apart: no offset decodes in both. -/
theorem decodeIdx_none_of_dimsApart : ∀ (ds es : List (Nat × Nat)) (b c off : Nat) (ix : List Nat),
    dimsApart ds es b c = true → b ≤ off → c ≤ off → decodeIdx es (off - c) = some ix → decodeIdx ds (off - b) = none := by
  intro ds
  induction ds with
  | nil =>
    intro es b c off ix ha hb hc he
    have := decodeIdx_lt_dimSpan es _ ix he
    have hends : b + 1 ≤ c ∨ c + dimSpan es ≤ b := by simpa [dimsApart, dimSpan] using ha
    simp only [decodeIdx, ite_eq_right_iff, reduceCtorEq]
    omega
  | cons d ds ih =>
    intro es b c off ix ha hb hc he
    obtain ⟨n, st⟩ := d
    have hspan := decodeIdx_lt_dimSpan es _ ix he
    cases hd : decodeIdx ((n, st) :: ds) (off - b) with
    | none => rfl
    | some jx =>
      exfalso
      have hspan' := decodeIdx_lt_dimSpan _ _ jx hd
      cases es with
      | nil =>
        have hends : b + dimSpan ((n, st) :: ds) ≤ c ∨ c + dimSpan [] ≤ b := by simpa [dimsApart] using ha
        omega
      | cons e es =>
        obtain ⟨m, st'⟩ := e
        rw [dimsApart] at ha
        simp only [Bool.or_eq_true, Bool.and_eq_true, Nat.ble_eq, beq_iff_eq] at ha
        rcases ha with hends | ⟨⟨⟨rfl, hb'⟩, hc'⟩, hin⟩
        · omega
        · simp only [decodeIdx, Option.ite_none_right_eq_some, Option.map_eq_some_iff] at hd he
          obtain ⟨-, jx', hd, -⟩ := hd
          obtain ⟨-, ix', he, -⟩ := he
          -- both fall at one place within the stride, counted from the lower base
          have eb : off - b = off - min b c - (b - min b c) := by omega
          have ec : off - c = off - min b c - (c - min b c) := by omega
          rw [eb] at hd
          rw [ec] at he
          have pb := mod_eq_of_decode (by omega) hb' hd
          have pc := mod_eq_of_decode (by omega) hc' he
          have := ih es _ _ ((off - min b c) % st) ix' hin (by omega) (by omega) (by rw [pc, Nat.add_sub_cancel_left]; exact he)
          rw [pb, Nat.add_sub_cancel_left, hd] at this
          exact absurd this (by simp)

/-- A search finds the register that leads the list at its own offsets. -/
theorem findIn_of_leads (r : RegSpec) (ix : List Nat) (off : Nat) (hb : r.base ≤ off)
    (hd : decodeIdx r.dims (off - r.base) = some ix) (rs : List RegSpec) (h : r.leads rs = true) :
    findIn rs off = some (r, ix) := by
  induction rs with
  | nil => simp [RegSpec.leads] at h
  | cons q qs ih =>
    simp only [RegSpec.leads, Bool.or_eq_true, Bool.and_eq_true, decide_eq_true_eq] at h
    unfold findIn
    rcases h with rfl | ⟨ha, hl⟩
    · simp [hb, hd]
    · split
      · next hq => rw [decodeIdx_none_of_dimsApart _ _ _ _ off ix ha hq hb hd]; exact ih hl
      · exact ih hl

/-- A register of the map is found at the offset of each of its indices. -/
theorem findReg_of_mapped (r : RegSpec) (ix : List Nat) (h : r.mapped = true) (hf : idxFits r.dims ix = true) :
    findReg (r.base + idxOffset r.dims ix) = some (r, ix) := by
  simp only [RegSpec.mapped, Bool.and_eq_true] at h
  refine findIn_of_leads r ix _ (Nat.le_add_right _ _) ?_ _ h.2
  rw [Nat.add_sub_cancel_left]
  exact decodeIdx_idxOffset _ _ h.1 hf

/-! ### Registers at their offsets -/

theorem findReg_glbScratch : findReg A.glbScratch = some (spec_glbScratch, []) :=
  findReg_of_mapped spec_glbScratch [] (by decide +kernel) rfl

theorem findReg_dtLo : findReg A.dtLo = some (spec_dtLo, []) :=
  findReg_of_mapped spec_dtLo [] (by decide +kernel) rfl

theorem findReg_dtHi : findReg A.dtHi = some (spec_dtHi, []) :=
  findReg_of_mapped spec_dtHi [] (by decide +kernel) rfl

theorem findReg_nextStartLo (p : Plot) : findReg (A.nextStartLo p) = some (spec_nextStartLo, [p.val]) :=
  findReg_of_mapped spec_nextStartLo [p.val] (by decide +kernel) (by simp [idxFits, spec_nextStartLo])

theorem findReg_nextStartHi (p : Plot) : findReg (A.nextStartHi p) = some (spec_nextStartHi, [p.val]) :=
  findReg_of_mapped spec_nextStartHi [p.val] (by decide +kernel) (by simp [idxFits, spec_nextStartHi])

theorem findReg_tqMargin (i : Tile) (q : Seq) : findReg (A.tqMargin i q) = some (spec_tqMargin, [i.val, q.val]) := by
  have h := findReg_of_mapped spec_tqMargin [i.val, q.val] (by decide +kernel) (by simp [idxFits, spec_tqMargin])
  simpa [spec_tqMargin, idxOffset, A.tqMargin, Nat.add_assoc] using h

end Sys2Proof.Machine
end

section
/-! ## The checks of a host access, by window (R8, R41, R44, R290, R342, R471) -/

namespace Sys2Proof.Machine

open Sys2Proof.Safety

/-- Plot enforcement holds in OWNED only, so never in a RETIRED part. -/
theorem State.lifecycle_of_enforce {s : State} (h : s.enforce = true) : s.fld A.glbSts F.glbSts.lifecycle = 2 := by
  simp only [State.enforce, Bool.and_eq_true, beq_iff_eq] at h
  exact h.1

theorem tileOfOff_of_tile {a : Nat} (h : 0x1000000 ≤ a ∧ a < 0x2000000) : tileOfOff a = some ((a - 0x1000000) / 0x80000) :=
  if_pos h

theorem tileOfOff_of_not_tile {a : Nat} (h : a < 0x1000000 ∨ 0x2000000 ≤ a) : tileOfOff a = none :=
  if_neg (by omega)

theorem bootBlock_iff (a : Nat) :
    bootBlock a = true ↔ (0x2000000 ≤ a ∧ a < 0x2400000) ∨ (0x3000000 ≤ a ∧ a < 0x3100000) := by
  simp [bootBlock]

theorem bootBlock_of_lt {a : Nat} (h : a < 0x2000000) : bootBlock a = false := by
  rw [← Bool.not_eq_true, bootBlock_iff]; omega

/-- Registers below the quadrant blocks belong to no plot. -/
theorem State.ownerOf_of_lt (s : State) {a : Nat} (h : a < 0x2000000) : s.ownerOf a = none := by
  unfold State.ownerOf
  rw [if_neg (by omega), if_neg (by omega), if_neg (by omega), if_neg (by omega), if_neg (by omega)]

/-- A host access to a tile: to a disabled one it is refused, and to an enabled one under plot enforcement. -/
theorem State.accessRefuse_tile (s : State) {a : Nat} (hl : s.live = true) (ha : 0x1000000 ≤ a ∧ a < 0x2000000) :
    s.accessRefuse .host a =
      if s.tileOn ((a - 0x1000000) / 0x80000) = false then some .accessErr
      else if s.enforce = true then some .plotDeny else none := by
  simp [State.accessRefuse, hl, tileOfOff_of_tile ha]

/-- A host access outside the tiles, the quadrants and the trellis is not refused. -/
theorem State.accessRefuse_low (s : State) {a : Nat} (hl : s.live = true) (ha : a < 0x1000000) :
    s.accessRefuse .host a = none := by
  simp [State.accessRefuse, hl, tileOfOff_of_not_tile (.inl ha), bootBlock_of_lt (a := a) (by omega),
    s.ownerOf_of_lt (a := a) (by omega)]

/-- A host access to a quadrant or the trellis. -/
theorem State.accessRefuse_boot (s : State) {a : Nat} (hl : s.live = true) (ha : bootBlock a = true) :
    s.accessRefuse .host a =
      if s.fld A.glbSts F.glbSts.bootStage ≠ 3 then some .accessErr
      else if s.enforce = true ∧ (s.ownerOf a).isSome = true then some .plotDeny else none := by
  have hr := (bootBlock_iff a).1 ha
  simp [State.accessRefuse, hl, tileOfOff_of_not_tile (a := a) (by omega), ha]

/-- A host write below the quadrants is refused as any access is, and in the Kelair block under plot enforcement. -/
theorem State.blockRefuse_of_lt (s : State) {a : Nat} (ha : a < 0x2000000) :
    s.blockRefuse .host a = (s.accessRefuse .host a).or
      (if s.enforce = true ∧ 0x500000 ≤ a ∧ a < 0x510000 then some .plotDeny else none) := by
  unfold State.blockRefuse
  cases s.accessRefuse .host a <;> simp [bootBlock_of_lt ha, and_assoc]

/-- A host write to a quadrant or the trellis is refused as any access is, and in a RETIRED part. -/
theorem State.blockRefuse_boot (s : State) {a : Nat} (ha : bootBlock a = true) :
    s.blockRefuse .host a = (s.accessRefuse .host a).or
      (if s.fld A.glbSts F.glbSts.lifecycle = 3 then some .accessErr else none) := by
  have hk : ¬ (0x500000 ≤ a ∧ a < 0x510000) := by have := (bootBlock_iff a).1 ha; omega
  unfold State.blockRefuse
  cases s.accessRefuse .host a <;> simp [ha, and_assoc, hk]

theorem hostOpen_tile_iff (s : State) (a : Nat) (hl : s.live = true) (ha : 0x1000000 ≤ a ∧ a < 0x2000000) :
    HostOpen s a ↔ s.tileOn ((a - 0x1000000) / 0x80000) = true ∧ s.enforce = false := by
  unfold HostOpen
  rw [s.blockRefuse_of_lt ha.2, s.accessRefuse_tile hl ha]
  cases s.tileOn ((a - 0x1000000) / 0x80000) <;> cases s.enforce <;> simp

theorem hostOpen_boot_iff (s : State) (a : Nat) (hl : s.live = true) (ha : bootBlock a = true) :
    HostOpen s a ↔ s.fld A.glbSts F.glbSts.bootStage = 3 ∧ s.fld A.glbSts F.glbSts.lifecycle ≠ 3 ∧
      (s.enforce = false ∨ s.ownerOf a = none) := by
  unfold HostOpen
  rw [s.blockRefuse_boot ha, s.accessRefuse_boot hl ha]
  by_cases hb : s.fld A.glbSts F.glbSts.bootStage = 3
  · cases s.enforce <;> cases s.ownerOf a <;> simp [hb]
  · simp [hb]

theorem hostOpen_low_iff (s : State) (a : Nat) (hl : s.live = true) (ha : a < 0x1000000) :
    HostOpen s a ↔ ¬ (s.enforce = true ∧ 0x500000 ≤ a ∧ a < 0x510000) := by
  unfold HostOpen
  rw [s.blockRefuse_of_lt (by omega), s.accessRefuse_low hl ha]
  simp

/-- Settles O7: one rule for the tiles, one for the quadrants and the trellis, and one for all registers below them. -/
theorem hostWritesReachOpenRegisters : Obligations.HostWritesReachOpenRegisters := by
  intro s a hl _
  refine ⟨hostOpen_tile_iff s a hl, fun ha => hostOpen_boot_iff s a hl ((bootBlock_iff a).2 ha), fun ha => ?_, fun ha => ?_⟩
  · rw [hostOpen_low_iff s a hl (by omega)]
    simp [ha.1, ha.2]
  · rw [hostOpen_low_iff s a hl (by omega)]
    omega

end Sys2Proof.Machine
end

section
/-! ## Host accesses that are refused (R8, R35, R43) -/

namespace Sys2Proof.Machine

open Sys2Proof.Safety

theorem completes_of_exec {c : Instr} {s t : State} {P : State → Prop} (h : exec c s = .next t) (hp : P t) :
    Completes c s P := ⟨t, h, hp⟩

/-- The record of a refusal leaves what the read has returned. -/
theorem State.refuseHost_reads (s : State) (e : Refuse) (w off : Nat) :
    (s.refuseHost e w off).readData = s.readData ∧ (s.refuseHost e w off).readMem = s.readMem := by
  unfold State.refuseHost State.captureErr
  split
  · exact ⟨rfl, rfl⟩
  · dsimp only
    split <;> simp

/-! ### Writes -/

theorem State.hostPut_dead (s : State) (win : Window) (off size : Nat) (w : Word) (h : s.live = false) :
    s.hostPut win off size w = (s, some .ignored) := by
  simp [State.hostPut, h]

theorem State.hostPut_misplaced (s : State) (win : Window) (off size : Nat) (w : Word) (hl : s.live = true)
    (h : size ≠ 4 ∨ off % 4 ≠ 0) : s.hostPut win off size w = (s, some .accessErr) := by
  simp only [State.hostPut, hl, Bool.not_true, Bool.false_eq_true, if_false, if_pos h]

theorem State.hostPut_word (s : State) (win : Window) (off : Nat) (w : Word) (hl : s.live = true) (h : off % 4 = 0) :
    s.hostPut win off 4 w = s.regWrite .host (winKey win off) w := by
  simp [State.hostPut, hl, h]

theorem State.regWrite_unmapped (s : State) (src : Req) (a : Nat) (w : Word) (h : findReg a = none) :
    s.regWrite src a w = (s, some .accessErr) := by
  simp [State.regWrite, h]

theorem State.regWrite_refused (s : State) (src : Req) (a : Nat) (w : Word) (e : Refuse) (h : (findReg a).isSome = true)
    (he : s.blockRefuse src a = some e) : s.regWrite src a w = (s, some e) := by
  obtain ⟨⟨r, ix⟩, hr⟩ := Option.isSome_iff_exists.1 h
  simp [State.regWrite, hr, he]

/-- A write that is refused leaves the state but for the record of the refusal. -/
theorem execRegisterWrite_refused (s : State) (win : Window) (off size : Nat) (w : Word) (e : Refuse)
    (hw : ∀ b, win ≠ .badWrite b) (h : s.hostPut win off size w = (s, some e)) :
    execRegisterWrite win off size w s = .next (s.refuseHost e (winCode win) off) := by
  cases win with
  | badWrite b => exact absurd rfl (hw b)
  | control => simp [execRegisterWrite, h]
  | doorbell => simp [execRegisterWrite, h]

theorem completes_registerWrite_refused (s : State) (win : Window) (off size : Nat) (w : Word) (e : Refuse)
    (hw : ∀ b, win ≠ .badWrite b) (he : e ≠ .ignored) (h : s.hostPut win off size w = (s, some e)) :
    Completes (.registerWrite win off size w) s fun t => Refused e.code (winCode win) off s t :=
  completes_of_exec (execRegisterWrite_refused s win off size w e hw h) (s.refuseHost_refused e _ off he (winCode_lt win))

/-! ### Reads -/

/-- What a refused read leaves: all-ones, and the record of the refusal. -/
def ReadRefused (k : Nat) (win : Window) (off : Nat) (s t : State) : Prop :=
  t.readData = 0xFFFFFFFF ∧ Refused k (winCode win) off { s with readData := 0xFFFFFFFF } t

theorem readRefused_refuseHost (s : State) (win : Window) (off : Nat) (e : Refuse) (he : e ≠ .ignored) :
    ReadRefused e.code win off s (State.refuseHost { s with readData := 0xFFFFFFFF } e (winCode win) off) :=
  ⟨(State.refuseHost_reads _ _ _ _).1, State.refuseHost_refused _ e _ off he (winCode_lt win)⟩

theorem State.hostRead_misplaced (s : State) (win : Window) (off size : Nat) (hl : s.live = true)
    (h : size ≠ 4 ∨ off % 4 ≠ 0) :
    s.hostRead win off size = State.refuseHost { s with readData := 0xFFFFFFFF } .accessErr (winCode win) off := by
  simp only [State.hostRead, hl, Bool.not_true, Bool.false_eq_true, if_false, if_pos h]

theorem State.readRefuse_of_ne (s : State) (src : Req) {a : Nat} (h : a < 0x301000 ∨ 0x301800 ≤ a) :
    s.readRefuse src a = s.accessRefuse src a := if_neg (by omega)

theorem State.hostRead_refused (s : State) (win : Window) (off : Nat) (e : Refuse) (hl : s.live = true) (h4 : off % 4 = 0)
    (h : (findReg (winKey win off)).isSome = true) (he : s.readRefuse .host (winKey win off) = some e) :
    s.hostRead win off 4 = State.refuseHost { s with readData := 0xFFFFFFFF } e (winCode win) off := by
  obtain ⟨⟨r, ix⟩, hr⟩ := Option.isSome_iff_exists.1 h
  simp [State.hostRead, hl, h4, State.regRead, hr, he]

theorem winKey_control {off : Nat} (h : off < 0x4000000) : winKey .control off = off := if_pos h

/-! ### A write that is taken -/

theorem getF_word (w : Word) : getF w ⟨31, 0⟩ = w.toNat := by
  have := w.isLt
  simp only [getF]
  omega

theorem putF_word (v w : Word) : putF v ⟨31, 0⟩ w.toNat = w := by
  apply BitVec.eq_of_toNat_eq
  rw [putF_toNat _ _ _ rfl]
  have := w.isLt
  have := v.isLt
  simp only
  omega

/-- GLB_SCRATCH takes a host write whole (R8). -/
theorem State.regWrite_glbScratch (s : State) (w : Word) (hl : s.live = true) :
    s.regWrite .host A.glbScratch w = (s.setReg A.glbScratch w, none) := by
  have ho : s.blockRefuse .host A.glbScratch = none := (hostOpen_low_iff s _ hl (by decide)).2 (by simp [A.glbScratch])
  have hm : ∀ old, mergeWord spec_glbScratch.fields (s.locked .host) old w = w := fun old => by
    simp [mergeWord, spec_glbScratch, fieldWrite, getF_word, putF_word]
  calc s.regWrite .host A.glbScratch w = s.write .host spec_glbScratch A.glbScratch w none id := by
        simp only [State.regWrite, findReg_glbScratch, ho]
        rfl
    _ = (s.setReg A.glbScratch w, none) := by
        rw [s.write_ok _ _ _ _ _ ho, s.tied_none _ _ _ (.inr rfl), hm, lockHit_none _ _ _ _ rfl]
        rfl

theorem completes_write_glbScratch (s : State) (w : Word) (hl : s.live = true) :
    Completes (.registerWrite .control A.glbScratch 4 w) s fun t =>
      t.reg A.glbScratch = w ∧ OnlyRegs [A.glbScratch] s t := by
  have h : s.hostPut .control A.glbScratch 4 w = (s.setReg A.glbScratch w, none) := by
    rw [s.hostPut_word _ _ _ hl rfl]; exact s.regWrite_glbScratch w hl
  refine completes_of_exec (t := s.setReg A.glbScratch w) ?_
    ⟨s.reg_setReg_same _ w, onlyRegs_setReg s _ _ w (List.mem_singleton_self _)⟩
  simp only [exec_registerWrite, execRegisterWrite, h]

/-- Host accesses to a tile's register that every access check refuses: the write is discarded, and both reads return all-ones. -/
theorem completes_accesses_refused (s : State) (off : Nat) (w : Word) (e : Refuse) (hl : s.live = true)
    (ha : 0x1000000 ≤ off ∧ off < 0x2000000) (h4 : off % 4 = 0) (hr : (findReg off).isSome = true)
    (he : e ≠ .ignored) (h : s.accessRefuse .host off = some e) :
    Completes (.registerWrite .control off 4 w) s (fun t => Refused e.code 0 off s t) ∧
    Completes (.snapshotRead .control off 4) s (ReadRefused e.code .control off s) ∧
    Completes (.readToClear .control off 4) s (ReadRefused e.code .control off s) := by
  have hk : winKey .control off = off := winKey_control (by omega)
  have hb : s.blockRefuse .host off = some e := by rw [s.blockRefuse_of_lt ha.2, h]; rfl
  have hput : s.hostPut .control off 4 w = (s, some e) := by
    rw [s.hostPut_word _ _ _ hl h4, hk]; exact s.regWrite_refused _ _ _ e hr hb
  have hread := s.hostRead_refused .control off e hl h4 (by rw [hk]; exact hr)
    (by rw [hk, s.readRefuse_of_ne _ (by omega)]; exact h)
  exact ⟨completes_registerWrite_refused s .control off 4 w e (by simp) he hput,
    completes_of_exec (congrArg Host.Outcome.next hread) (readRefused_refuseHost s .control off e he),
    completes_of_exec (congrArg Host.Outcome.next hread) (readRefused_refuseHost s .control off e he)⟩

/-- Settles O8: every refusal is decided before the register's block is asked, so one lemma on refused writes and one on refused
reads serve all clauses but that of GLB_SCRATCH. -/
theorem registerWritesReachOrAreRefused : Obligations.RegisterWritesReachOrAreRefused := by
  refine ⟨⟨completes_write_glbScratch, fun s win off size w hl hw h => ?_, fun s win off w hl hw h4 hr => ?_,
    fun s win off size w hl hw => ?_, fun s ecrc off size w => completes_of_exec rfl rfl⟩,
    fun s off w k hl hlo hhi h4 hr hk => ?_⟩
  · exact completes_registerWrite_refused s win off size w .accessErr hw (by decide) (s.hostPut_misplaced win off size w hl h)
  · refine completes_registerWrite_refused s win off 4 w .accessErr hw (by decide) ?_
    rw [s.hostPut_word _ _ _ hl h4, s.regWrite_unmapped _ _ _ hr]
  · exact completes_of_exec (execRegisterWrite_refused s win off size w .ignored hw (s.hostPut_dead win off size w hl))
      (s.refuseHost_ignored _ _)
  · have hacc := s.accessRefuse_tile hl ⟨hlo, hhi⟩
    rcases hk with ⟨rfl, henf, hon⟩ | ⟨rfl, hoff⟩
    · exact completes_accesses_refused s off w .plotDeny hl ⟨hlo, hhi⟩ h4 hr (by decide) (by simp [hacc, henf, hon])
    · exact completes_accesses_refused s off w .accessErr hl ⟨hlo, hhi⟩ h4 hr (by decide) (by simp [hacc, hoff])

end Sys2Proof.Machine
end

section
/-! ## Reads of registers: snapshots, and reads to clear (R10, R13, R48, R73) -/

namespace Sys2Proof.Machine

open Sys2Proof.Safety

/-! ### Fields and holding registers -/

theorem getF_or (v w : Word) (f : Fld) : getF (v ||| w) f = getF v f ||| getF w f := by
  simp only [getF, BitVec.toNat_or, Nat.or_div_two_pow, Nat.or_mod_two_pow]

theorem State.reg_raise_ne (s : State) {a b : Nat} (f : Fld) (x : Nat) (h : b ≠ a) : (s.raise a f x).reg b = s.reg b :=
  s.reg_setReg_ne _ h

/-- A hardware event sets the bits of its field (R10, R11). -/
theorem State.fld_raise_same (s : State) (a : Nat) (f : Fld) (x : Nat) (h : f.ok) :
    (s.raise a f x).fld a f = s.fld a f ||| x % 2 ^ (f.hi + 1 - f.lo) := by
  have hr : (s.raise a f x).reg a = s.reg a ||| putF 0 f x := s.reg_setReg_same a _
  unfold State.fld
  rw [hr, getF_or, getF_putF_same 0 f x h]

/-- A one-bit field that is raised reads 1. -/
theorem State.fld_raise_bit (s : State) (a : Nat) (f : Fld) (h : f.ok) (hb : f.hi = f.lo) : (s.raise a f 1).fld a f = 1 := by
  have hw : 2 ^ (f.hi + 1 - f.lo) = 2 := by rw [hb, Nat.add_sub_cancel_left]; rfl
  have hlt := getF_lt (s.reg a) f
  rw [s.fld_raise_same a f 1 h, State.fld]
  rw [hw] at hlt ⊢
  generalize getF (s.reg a) f = x at hlt ⊢
  interval_cases x <;> rfl

theorem sameRegs_raise (s : State) (a : Nat) (f : Fld) (x : Nat) : SameRegs [a] s (s.raise a f x) :=
  fun _ hb => s.reg_raise_ne f x (List.ne_of_not_mem_cons hb)

@[simp] theorem State.hold_setHold_same (s : State) (a : Nat) (h : Hold) : (s.setHold a h).hold a = h :=
  KMap.get_set_same _ _ _ _

theorem State.hold_setHold_ne (s : State) {a b : Nat} (h : Hold) (hb : b ≠ a) : (s.setHold a h).hold b = s.hold b :=
  KMap.get_set_ne _ _ _ _ hb

theorem State.hold_raise (s : State) (a : Nat) (f : Fld) (x b : Nat) : (s.raise a f x).hold b = s.hold b := rfl

/-! ### The effect of a read -/

/-- A read of the register has no effect but on holding registers, and shows all fields: none is write-only or clears, and the
register is no queue of time stamps. -/
def RegSpec.plainRead (r : RegSpec) : Bool :=
  r.fields.all (fun f => f.acc != .rc && f.acc != .wo && f.acc != .w1s) &&
    !([.ethRxtsNs, .ethTxtsNs, .tqMargin, .klMargin].contains r.reg)

theorem RegSpec.plainRead_fields {r : RegSpec} (h : r.plainRead = true) :
    ∀ f ∈ r.fields, f.acc ≠ .rc ∧ f.acc ≠ .wo ∧ f.acc ≠ .w1s := by
  simp only [RegSpec.plainRead, Bool.and_eq_true, List.all_eq_true, bne_iff_ne, and_assoc] at h
  exact h.1

theorem RegSpec.plainRead_reg {r : RegSpec} (h : r.plainRead = true) :
    r.reg ≠ .ethRxtsNs ∧ r.reg ≠ .ethTxtsNs ∧ r.reg ≠ .tqMargin ∧ r.reg ≠ .klMargin := by
  simp only [RegSpec.plainRead, Bool.and_eq_true] at h
  simpa using h.2

theorem hideWO_eq_self (fs : List FieldSpec) (w : Word) (h : ∀ f ∈ fs, f.acc ≠ .wo ∧ f.acc ≠ .w1s) : hideWO fs w = w := by
  unfold hideWO
  rw [List.foldl_ext _ (fun v _ => v) w fun v f hf => by simp [h f hf]]
  exact List.foldl_fixed _

theorem State.clearRC_eq_self (s : State) (r : RegSpec) (a : Nat) (h : r.plainRead = true) : s.clearRC r a = s := by
  obtain ⟨-, -, htq, hkl⟩ := RegSpec.plainRead_reg h
  unfold State.clearRC
  split
  · contradiction
  · contradiction
  · rw [List.foldl_ext _ (fun v _ => v) s fun v f hm => by simp [RegSpec.plainRead_fields h f hm]]
    exact List.foldl_fixed _

/-- A read of a register that is no queue of time stamps: the word, the latches that it sets, and the fields that it clears. -/
theorem State.regReadOk_eq (s : State) (r : RegSpec) (ix : List Nat) (a : Nat) (hrx : r.reg ≠ .ethRxtsNs)
    (htx : r.reg ≠ .ethTxtsNs) :
    s.regReadOk r ix a =
      ((if ((s.hold a).active && (latchedBy r.reg ix).isSome) = true then (s.latchedRead r.reg ix a).1
        else (s.latchedRead r.reg ix a).1.latchFrom r.reg ix a).clearRC r a, hideWO r.fields (s.latchedRead r.reg ix a).2) := by
  unfold State.regReadOk
  split
  · contradiction
  · contradiction
  · rfl

/-- A plain read changes nothing but what its latches do. -/
theorem State.regReadOk_plain (s : State) (r : RegSpec) (ix : List Nat) (a : Nat) (hp : r.plainRead = true) :
    s.regReadOk r ix a =
      (if ((s.hold a).active && (latchedBy r.reg ix).isSome) = true then (s.latchedRead r.reg ix a).1
        else (s.latchedRead r.reg ix a).1.latchFrom r.reg ix a, (s.latchedRead r.reg ix a).2) := by
  obtain ⟨hrx, htx, -, -⟩ := RegSpec.plainRead_reg hp
  rw [s.regReadOk_eq r ix a hrx htx, State.clearRC_eq_self _ r a hp,
    hideWO_eq_self _ _ fun f hm => (RegSpec.plainRead_fields hp f hm).2]

theorem State.latchedRead_of_none (s : State) (r : Reg) (ix : List Nat) (a : Nat) (h : latchedBy r ix = none) :
    s.latchedRead r ix a = (s, s.view r ix a) := by
  simp only [State.latchedRead, h]

/-- A read of a register that no other latches: what it shows, and the latches that it sets. -/
theorem State.regReadOk_unlatched (s : State) (r : RegSpec) (ix : List Nat) (a : Nat) (hp : r.plainRead = true)
    (h : latchedBy r.reg ix = none) : s.regReadOk r ix a = (s.latchFrom r.reg ix a, s.view r.reg ix a) := by
  rw [s.regReadOk_plain r ix a hp, s.latchedRead_of_none _ _ _ h, h]
  simp

/-- A read of the low half `a` of a pair holds the high half `b` (R13). -/
theorem State.latchFrom_pair (s : State) (r : Reg) (ix : List Nat) (a b : Nat) (h : latches r ix = [b]) (hab : a ≠ b)
    (hr : r ≠ .lnResI) :
    s.latchFrom r ix a =
      (s.setHold b { s.hold b with active := true, hi := s.viewAt b, own := ownPair r }).setHold a
        { s.hold a with low := true, fresh := false, tick := s.tm.now } := by
  unfold State.latchFrom
  rw [h]
  dsimp only [List.foldl]
  rw [State.hold_setHold_ne _ _ hab]
  split
  · contradiction
  · rfl

/-- What the read of a held high half leaves: the hold ends, and the overrun bit is set where a new value came between the reads
(R13, step 3). -/
def State.unlatched (s : State) (r : Reg) (a lo st : Nat) (f : Fld) : State :=
  let s1 := s.setHold a { s.hold a with active := false, hi := 0, own := false }
  if (s.hold lo).fresh || (everyTick r && (s.hold lo).tick != s.tm.now) then s1.raise st f 1 else s1

/-- A read of a high half that is held returns what is held (R13). -/
theorem State.regReadOk_latched (s : State) (r : RegSpec) (ix : List Nat) (a lo st : Nat) (f : Fld) (hp : r.plainRead = true)
    (hr : r.reg ≠ .lnResQ) (h : latchedBy r.reg ix = some (lo, some (st, f))) (hlo : a - 4 = lo)
    (ha : (s.hold a).active = true) :
    s.regReadOk r ix a = (s.unlatched r.reg a lo st f, (s.hold a).hi) := by
  have hread : s.latchedRead r.reg ix a = (s.unlatched r.reg a lo st f, (s.hold a).hi) := by
    unfold State.latchedRead State.unlatched
    rw [h]
    dsimp only
    rw [if_pos ha, hlo, ite_self]
    split
    · contradiction
    · rfl
  rw [s.regReadOk_plain r ix a hp, hread, h, ha]
  rfl

theorem State.unlatched_sameRegs (s : State) (r : Reg) (a lo st : Nat) (f : Fld) :
    SameRegs [st] s (s.unlatched r a lo st f) := by
  unfold State.unlatched
  dsimp only
  split
  · exact sameRegs_trans (sameRegs_of_regs _ rfl) (sameRegs_raise _ _ _ _)
  · exact sameRegs_of_regs _ rfl

theorem State.unlatched_hold (s : State) (r : Reg) (a lo st : Nat) (f : Fld) :
    ((s.unlatched r a lo st f).hold a).active = false := by
  unfold State.unlatched
  dsimp only
  split <;> simp [State.hold_raise]

/-- The overrun bit after the read of a held high half. -/
theorem State.unlatched_overrun (s : State) (r : Reg) (a lo st : Nat) (f : Fld) (h : f.ok) (hb : f.hi = f.lo) :
    (s.unlatched r a lo st f).fld st f =
      if (s.hold lo).fresh || (everyTick r && (s.hold lo).tick != s.tm.now) then 1 else s.fld st f := by
  unfold State.unlatched
  dsimp only
  split
  · exact State.fld_raise_bit _ _ _ h hb
  · rfl

/-! ### Host reads that are served -/

/-- The state in which a read has returned `v`. -/
def State.returning (s : State) (v : Word) : State := { s with readData := v }

@[simp] theorem State.returning_hold (s : State) (v : Word) (a : Nat) : (s.returning v).hold a = s.hold a := rfl
@[simp] theorem State.returning_fld (s : State) (v : Word) (a : Nat) (f : Fld) : (s.returning v).fld a f = s.fld a f := rfl

theorem State.returning_sameBytes (s t : State) (v : Word) (h : t.mem = s.mem) : SameBytes s (t.returning v) := fun a =>
  congrArg (fun m => KMap.get 0 m a) h

theorem State.returning_sameRegs {l : List Nat} {s t : State} (v : Word) (h : SameRegs l s t) : SameRegs l s (t.returning v) :=
  fun a ha => h a ha

/-- A host read that no check refuses returns the register's word, with its effects. -/
theorem State.hostRead_served (s : State) (off : Nat) (r : RegSpec) (ix : List Nat) (hw : off < 0x4000000)
    (h4 : off % 4 = 0) (hl : s.live = true) (hr : findReg off = some (r, ix)) (hn : s.readRefuse .host off = none) :
    s.hostRead .control off 4 = (s.regReadOk r ix off).1.returning (s.regReadOk r ix off).2 := by
  simp [State.returning, State.hostRead, hl, h4, winKey_control hw, State.regRead, hr, hn]

/-- The shot registers of a plot that is defined may be read (R65). -/
theorem State.readRefuse_shot (s : State) (p : Plot) (d : Nat) (hl : s.live = true) (hp : s.plotDefined p = true)
    (hd : d < 0x100) : s.readRefuse .host (0x301000 + d + 0x100 * p) = none := by
  have hplot : (0x301000 + d + 0x100 * p.val - 0x301000) / 0x100 = p := by omega
  unfold State.readRefuse
  rw [hplot, hp, s.accessRefuse_low hl (by omega)]
  simp

end Sys2Proof.Machine
end

section
/-! ## Host reads: DT, the next start, a queue's margin, the configuration space and the memory window -/

namespace Sys2Proof.Machine

open Sys2Proof.Safety

/-- Below the shot registers a live part refuses no host read. -/
theorem State.readRefuse_below_shots (s : State) {a : Nat} (hl : s.live = true) (ha : a < 0x301000) :
    s.readRefuse .host a = none := by
  rw [s.readRefuse_of_ne _ (.inl ha), s.accessRefuse_low hl (by omega)]

/-! ### Pairs (R13, R48) -/

/-- A read of DT_LO returns the low half of DT and holds the high half (R48). -/
theorem completes_read_dtLo (s : State) (hl : s.live = true) :
    Completes (.snapshotRead .control A.dtLo 4) s fun t =>
      t.readData = BitVec.ofNat 32 s.tm.dt.toNat ∧
      (t.hold A.dtHi).active = true ∧ (t.hold A.dtHi).hi = BitVec.ofNat 32 (s.tm.dt.toNat / 2 ^ 32) ∧
      (t.hold A.dtLo).tick = s.tm.now ∧ SameRegs [] s t ∧ t.tm = s.tm := by
  have hne : A.dtHi ≠ A.dtLo := by decide
  have hread := s.hostRead_served A.dtLo spec_dtLo [] (by decide) rfl hl findReg_dtLo (s.readRefuse_below_shots hl (by decide))
  rw [s.regReadOk_unlatched spec_dtLo [] _ rfl rfl,
    s.latchFrom_pair spec_dtLo.reg [] A.dtLo A.dtHi rfl hne.symm (by decide)] at hread
  have hview : s.viewAt A.dtHi = BitVec.ofNat 32 (s.tm.dt.toNat / 2 ^ 32) := by
    simp only [State.viewAt, findReg_dtHi]; rfl
  refine completes_of_exec (congrArg Host.Outcome.next hread)
    ⟨rfl, ?_, ?_, ?_, State.returning_sameRegs _ (sameRegs_of_regs _ rfl), rfl⟩
  · rw [State.returning_hold, State.hold_setHold_ne _ _ hne, State.hold_setHold_same]
  · rw [State.returning_hold, State.hold_setHold_ne _ _ hne, State.hold_setHold_same, hview]
  · rw [State.returning_hold, State.hold_setHold_same]

/-- A read of DT_HI after one of DT_LO returns what was held and ends the hold (R48). -/
theorem completes_read_dtHi (s : State) (hl : s.live = true) (ha : (s.hold A.dtHi).active = true) :
    Completes (.snapshotRead .control A.dtHi 4) s fun t =>
      t.readData = (s.hold A.dtHi).hi ∧ (t.hold A.dtHi).active = false ∧ SameRegs [A.dtSts] s t ∧
      ((s.hold A.dtLo).tick ≠ s.tm.now → t.fld A.dtSts F.dtSts.overrun = 1) := by
  have hread := s.hostRead_served A.dtHi spec_dtHi [] (by decide) rfl hl findReg_dtHi (s.readRefuse_below_shots hl (by decide))
  rw [s.regReadOk_latched spec_dtHi [] A.dtHi A.dtLo A.dtSts F.dtSts.overrun rfl (by decide) rfl rfl ha] at hread
  refine completes_of_exec (congrArg Host.Outcome.next hread)
    ⟨rfl, s.unlatched_hold .dtHi A.dtHi A.dtLo A.dtSts F.dtSts.overrun,
      State.returning_sameRegs _ (s.unlatched_sameRegs .dtHi A.dtHi A.dtLo A.dtSts F.dtSts.overrun), fun hne => ?_⟩
  refine (s.unlatched_overrun .dtHi A.dtHi A.dtLo A.dtSts F.dtSts.overrun rfl rfl).trans (if_pos ?_)
  simp [everyTick, hne]

theorem completes_read_nextStartLo (s : State) (p : Plot) (hl : s.live = true) (hp : s.plotDefined p = true) :
    Completes (.snapshotRead .control (A.nextStartLo p) 4) s fun t =>
      t.readData = s.reg (A.nextStartLo p) ∧ (t.hold (A.nextStartHi p)).hi = s.reg (A.nextStartHi p) ∧
      (t.hold (A.nextStartLo p)).fresh = false ∧ SameRegs [] s t := by
  have hne : A.nextStartHi p ≠ A.nextStartLo p := by simp only [A.nextStartHi, A.nextStartLo]; omega
  have hread := s.hostRead_served (A.nextStartLo p) spec_nextStartLo [p.val] (by simp only [A.nextStartLo]; omega)
    (by simp only [A.nextStartLo]; omega) hl (findReg_nextStartLo p) (s.readRefuse_shot p 0x34 hl hp (by decide))
  rw [s.regReadOk_unlatched spec_nextStartLo [p.val] _ rfl rfl,
    s.latchFrom_pair spec_nextStartLo.reg [p.val] _ (A.nextStartHi p) rfl hne.symm (by decide)] at hread
  have hview : s.viewAt (A.nextStartHi p) = s.reg (A.nextStartHi p) := by
    simp only [State.viewAt, findReg_nextStartHi]; rfl
  refine completes_of_exec (congrArg Host.Outcome.next hread) ⟨rfl, ?_, ?_, State.returning_sameRegs _ (sameRegs_of_regs _ rfl)⟩
  · rw [State.returning_hold, State.hold_setHold_ne _ _ hne, State.hold_setHold_same, hview]
  · rw [State.returning_hold, State.hold_setHold_same]

theorem completes_read_nextStartHi (s : State) (p : Plot) (hl : s.live = true) (hp : s.plotDefined p = true)
    (ha : (s.hold (A.nextStartHi p)).active = true) :
    Completes (.snapshotRead .control (A.nextStartHi p) 4) s fun t =>
      t.readData = (s.hold (A.nextStartHi p)).hi ∧ SameRegs [A.runSts p] s t ∧
      t.fld (A.runSts p) F.runSts.overrun =
        (if (s.hold (A.nextStartLo p)).fresh then 1 else s.fld (A.runSts p) F.runSts.overrun) := by
  have hlo : A.nextStartHi p - 4 = A.nextStartLo p := by simp only [A.nextStartHi, A.nextStartLo]; omega
  have hread := s.hostRead_served (A.nextStartHi p) spec_nextStartHi [p.val] (by simp only [A.nextStartHi]; omega)
    (by simp only [A.nextStartHi]; omega) hl (findReg_nextStartHi p) (s.readRefuse_shot p 0x38 hl hp (by decide))
  rw [s.regReadOk_latched spec_nextStartHi [p.val] _ (A.nextStartLo p) (A.runSts p) F.runSts.overrun rfl (by decide) rfl hlo ha]
    at hread
  refine completes_of_exec (congrArg Host.Outcome.next hread)
    ⟨rfl, State.returning_sameRegs _
      (s.unlatched_sameRegs .nextStartHi (A.nextStartHi p) (A.nextStartLo p) (A.runSts p) F.runSts.overrun), ?_⟩
  refine (s.unlatched_overrun .nextStartHi (A.nextStartHi p) (A.nextStartLo p) (A.runSts p) F.runSts.overrun rfl rfl).trans ?_
  simp [everyTick]

/-! ### Reads to clear (R10, R73) -/

/-- A read of TQ_MARGIN returns it and sets it back to 7FFFh (R73). -/
theorem State.regReadOk_tqMargin (s : State) (i : Tile) (q : Seq) :
    s.regReadOk spec_tqMargin [i.val, q.val] (A.tqMargin i q) =
      (s.setFld (A.tqMargin i q) F.tqMargin.minMargin 0x7FFF, s.reg (A.tqMargin i q)) := by
  rw [s.regReadOk_eq _ _ _ (by decide) (by decide), s.latchedRead_of_none _ _ _ rfl,
    show latchedBy spec_tqMargin.reg [i.val, q.val] = none from rfl, hideWO_eq_self _ _ (by decide)]
  simp only [Option.isSome_none, Bool.and_false, Bool.false_eq_true, if_false]
  rfl

theorem completes_read_tqMargin (s : State) (i : Tile) (q : Seq) (ho : HostOpen s (A.tqMargin i q)) :
    Completes (.readToClear .control (A.tqMargin i q) 4) s fun t =>
      t.readData = s.reg (A.tqMargin i q) ∧ t.fld (A.tqMargin i q) F.tqMargin.minMargin = 0x7FFF ∧
      SameRegs [A.tqMargin i q] s t ∧ SameBytes s t := by
  have ha : 0x1000000 ≤ A.tqMargin i q ∧ A.tqMargin i q < 0x2000000 := by simp only [A.tqMargin]; omega
  have hn : s.readRefuse .host (A.tqMargin i q) = none := by
    rw [s.readRefuse_of_ne _ (by omega)]
    have hacc := ho
    rw [HostOpen, s.blockRefuse_of_lt ha.2] at hacc
    exact (Option.or_eq_none_iff.1 hacc).1
  have hread := s.hostRead_served (A.tqMargin i q) spec_tqMargin [i.val, q.val] (by omega)
    (by simp only [A.tqMargin]; omega) (HostOpen.live ho) (findReg_tqMargin i q) hn
  rw [s.regReadOk_tqMargin] at hread
  exact completes_of_exec (congrArg Host.Outcome.next hread)
    ⟨rfl, (State.returning_fld _ _ _ _).trans (s.fld_setFld_same _ _ _ rfl),
      State.returning_sameRegs _ fun _ hb => s.reg_setFld_ne _ _ (List.ne_of_not_mem_cons hb),
      State.returning_sameBytes _ _ _ (s.setFld_keeps _ _ _).1⟩

/-! ### The memory window (R38, R39, R41) -/

theorem completes_read_memory (s : State) (off n : Nat) (h : s.memRefuse .host off n = none) :
    Completes (.snapshotRead .memory off n) s fun t => t.readMem = s.bytes off n ∧ t.readData = s.word off ∧
      t = { s with readData := t.readData, readMem := t.readMem } := by
  have hread : s.hostMemRead off n = { s with readData := s.word off, readMem := s.bytes off n } := by
    simp only [State.hostMemRead, h]
  exact completes_of_exec (congrArg Host.Outcome.next hread) ⟨rfl, rfl, rfl⟩

theorem completes_read_memory_refused (s : State) (off n : Nat) (e : Refuse) (h : s.memRefuse .host off n = some e)
    (he : e ≠ .ignored) :
    Completes (.snapshotRead .memory off n) s fun t => t.readMem = List.replicate n 0xFF ∧ t.readData = 0xFFFFFFFF ∧
      Refused e.code 1 off { s with readData := t.readData, readMem := t.readMem } t := by
  have hread : s.hostMemRead off n =
      State.refuseHost { s with readData := 0xFFFFFFFF, readMem := List.replicate n 0xFF } e 1 off := by
    simp only [State.hostMemRead, h]
  obtain ⟨hdata, hmem⟩ :=
    State.refuseHost_reads { s with readData := 0xFFFFFFFF, readMem := List.replicate n 0xFF } e 1 off
  refine completes_of_exec (congrArg Host.Outcome.next hread) ⟨hmem, hdata, ?_⟩
  rw [hmem, hdata]
  exact State.refuseHost_refused _ e 1 off he (by decide)

/-- An aligned access within the payload, to words of enabled tiles, is refused under plot enforcement only. -/
theorem State.memRefuse_of_enabled (s : State) (off n : Nat) (hl : s.live = true) (ho : off % 4 = 0) (h4 : n % 4 = 0)
    (hn : 0 < n) (hp : n ≤ s.pcie.payload) (ht : ∀ i < n / 4, ∃ k, memTile (off + 4 * i) = some k ∧ s.tileOn k = true) :
    s.memRefuse .host off n = if s.enforce then some .plotDeny else none := by
  unfold State.memRefuse
  rw [if_neg (by simp [hl]), if_neg (by omega), if_neg (by simpa using hp), if_neg ?_]
  · simp
  · simp only [wordOffs, List.any_map, List.any_eq_true, List.mem_range]
    rintro ⟨i, hi, hoff⟩
    obtain ⟨k, hk, hon⟩ := ht i hi
    simp [hk, hon] at hoff

/-- A command that reads a register, of another size or off a word boundary, is refused (R8). -/
theorem completes_hostRead_misplaced {c : Instr} {s : State} {win : Window} {off size : Nat}
    (hc : exec c s = .next (s.hostRead win off size)) (hl : s.live = true) (h : size ≠ 4 ∨ off % 4 ≠ 0) :
    Completes c s (ReadRefused 0 win off s) := by
  rw [s.hostRead_misplaced win off size hl h] at hc
  exact completes_of_exec hc (readRefused_refuseHost s win off .accessErr (by decide))

theorem completes_read_identity (s : State) (size : Nat) :
    (s.pcie.perst = false → Completes (.snapshotRead .config 0 size) s fun t =>
      t = { s with readData := BitVec.ofNat 32 (0x256 * 2 ^ 16 + Config.vendorId.toNat) }) ∧
    (s.pcie.perst = true → Completes (.snapshotRead .config 0 size) s fun t => t = { s with readData := 0xFFFFFFFF }) := by
  refine ⟨fun h => completes_of_exec rfl ?_, fun h => completes_of_exec rfl ?_⟩
  · simp [State.hostConfigRead, State.configRead, h]
  · simp [State.hostConfigRead, h]

/-- Settles O9: one lemma for each kind of read; the two pairs share the laws of latched registers. -/
theorem readsLatchAndClear : Obligations.ReadsLatchAndClear := by
  refine ⟨completes_read_dtLo, completes_read_dtHi, completes_read_nextStartLo, completes_read_nextStartHi,
    completes_read_tqMargin, fun s win off size hl hw h => ⟨completes_hostRead_misplaced rfl hl h, ?_⟩, completes_read_identity,
    fun s off n => ⟨completes_read_memory s off n, completes_read_memory_refused s off n⟩, State.memRefuse_of_enabled⟩
  cases win with
  | control => exact completes_hostRead_misplaced rfl hl h
  | doorbell => exact completes_hostRead_misplaced rfl hl h
  | badWrite b => exact absurd rfl (hw b)

end Sys2Proof.Machine
end

section
/-! ## Commands that leave the memory window and the queue alone -/

namespace Sys2Proof.Machine

open Sys2Proof.Safety

/-! ### Forms that rows share -/

/-- An instruction whose body keeps the memory window and the queue keeps them as a row. -/
theorem State.sat_instrRow_keeps (s : State) (t q : Nat) (e : Ecc) (ops : Nat → Bool) (cyc : Ins → Nat) (body : Ins → State → IRes)
    (h : ∀ x s, ((body x s).after s).mem = s.mem ∧ ((body x s).after s).pending = s.pending) :
    Sat (Keeps s) (s.instrRow t q e ops cyc body) := by
  simp [State.instrRow, keeps_iff, s.instr_keeps t q e cyc body h]

theorem State.sat_alu_keeps (s : State) (t q : Nat) (e : Ecc) (op cyc : Nat) (f : Word → Word → Word) :
    Sat (Keeps s) (s.alu t q e op cyc f) :=
  s.sat_instrRow_keeps t q e _ _ _ fun _ _ => by simp

/-- The row of a capsule's operation either does nothing or carries the operation out. -/
theorem State.sat_capRow (s : State) (P : State → Prop) (p code : Nat) (f : CapX → List Byte → CapOp → State) (hs : P s)
    (h : ∀ c b o, P (f c b o)) : Sat P (s.capRow p code f) := by
  unfold State.capRow
  split
  · split
    · rw [sat_onlyIf]
      split
      · exact h _ _ _
      · exact hs
    · exact hs
  · exact hs

@[simp] theorem State.sat_spdmWhen (s : State) (P : State → Prop) (n : Nat) (t : State) :
    Sat P (s.spdmWhen n t) ↔ if n ≤ s.spdm.stage then P t else P (s.spdmErr 4) := by
  unfold State.spdmWhen
  split <;> rfl

@[simp] theorem State.sat_inSession (s : State) (P : State → Prop) (i : Fin 2) (f : SessX → State) :
    Sat P (s.inSession i f) ↔ (∀ x, s.sess i = some x → if x.up then P (f x) else P (s.spdmErr 4)) ∧
      (s.sess i = none → P (s.spdmErr 2)) := by
  unfold State.inSession
  cases s.sess i with
  | none => simp
  | some x => cases hx : x.up <;> simp [hx]

/-! ### The rows -/

/-- The commands that may change a byte of the memory window. -/
def writesMemory : Instr → Bool
  | .memWindowWrite .. | .decantChunkArrival .. | .st .. | .memWrite .. | .bootImageApply | .partialHold | .partialStoppedApply
  | .placement .. | .mirrorMsg .. | .shotEnd .. | .shotCut .. | .abortTakesEffect .. | .brownOut | .trialTimeout => true
  | _ => false

/-- Every other command keeps the memory window and the queue, since each operation that its row calls does (Laws/KeepsA,
Laws/KeepsB). -/
theorem exec_keeps (c : Instr) (s : State) (h : writesMemory c = false) : Sat (Keeps s) (exec c s) := by
  cases c with
  | memWindowWrite | decantChunkArrival | st | memWrite | bootImageApply | partialHold | partialStoppedApply | placement | mirrorMsg
  | shotEnd | shotCut | abortTakesEffect | brownOut | trialTimeout => cases h
  -- Host access, bridges
  | registerWrite | snapshotRead | biasFrameCrcFail =>
    simp only [exec_registerWrite, exec_snapshotRead, exec_biasFrameCrcFail, execRegisterWrite, execSnapshotRead,
      execBiasFrameCrcFail]
    repeat' split
    all_goals simp [keeps_iff]
  | readToClear | glbErrAddrClear | muteAll | drainAll | bridgeTraining | bridgeParityError | biasLinkLost | biasLinkRetrain =>
    simp [keeps_iff, execReadToClear, execGlbErrAddrClear, execMuteAll, execDrainAll, execBridgeTraining,
      execBridgeParityError, execBiasLinkLost, execBiasLinkRetrain]
  -- Device time, runs and shots
  | dtArmNow | dtArmPps | dtLoadCancel | dtLoad | runStart | runDrain | runAbort | clrCount | shotTrigger | nextStartFix =>
    simp [keeps_iff, execDtArmNow, execDtArmPps, execDtLoadCancel, execDtLoad, execRunStart, execRunDrain, execRunAbort,
      execClrCount, execShotTrigger, execNextStartFix]
  | shotAnnounce | shotStart | shotRecordWrite | tqEntryArrival =>
    simp only [exec_shotAnnounce, exec_shotStart, exec_shotRecordWrite, exec_tqEntryArrival, execShotAnnounce, execShotStart,
      execShotRecordWrite, execTqEntryArrival]
    repeat' split
    all_goals simp [keeps_iff]
  -- Sequencers
  | queueStallEnd | endMarkerExecute | brmwDecisionValid | brmwDeadline =>
    simp only [exec_queueStallEnd, exec_endMarkerExecute, exec_brmwDecisionValid, exec_brmwDeadline, execQueueStallEnd,
      execEndMarkerExecute, execBrmwDecisionValid, execBrmwDeadline]
    repeat' split
    all_goals simp [keeps_iff]
  | nop | endI | br | brmw | loop | sync | evt | wait | waituntil | play | arm | mark | vec | meas | biasq | freq | phase
  | movi | rdsp | ld =>
    simp only [exec_nop, exec_endI, exec_br, exec_brmw, exec_loop, exec_sync, exec_evt, exec_wait, exec_waituntil, exec_play,
      exec_arm, exec_mark, exec_vec, exec_meas, exec_biasq, exec_freq, exec_phase, exec_movi, exec_rdsp, exec_ld, execNop,
      execEnd, execBr, execBrmw, execLoop, execSync, execEvt, execWait, execWaituntil, execPlay, execArm, execMark, execVec,
      execMeas, execBiasq, execFreq, execPhase, execMovi, execRdsp, execLd]
    refine State.sat_instrRow_keeps _ _ _ _ _ _ _ fun x s => ?_
    repeat' split
    all_goals simp [State.badOperand]
  | syncRelease | clrFault | seqCtlWrite =>
    simp [keeps_iff, execSyncRelease, execClrFault, execSeqCtlWrite]
  | add | sub | and | or | xor | shl | shr | sra | mul =>
    simp only [exec_add, exec_sub, exec_and, exec_or, exec_xor, exec_shl, exec_shr, exec_sra, exec_mul, execAdd, execSub,
      execAnd, execOr, execXor, execShl, execShr, execSra, execMul]
    exact State.sat_alu_keeps ..
  -- Playout and the cellar
  | playExecute | jumpRequest | jumpTakeEffect | segmentEnd | armSelect | armExecute | markExecute | vecExecute | freqExecute
  | phaseExecute | evtExecute | biasqExecute | decantChunkRelease | decantUnderrun =>
    simp only [exec_playExecute, exec_jumpRequest, exec_jumpTakeEffect, exec_segmentEnd, exec_armSelect, exec_armExecute,
      exec_markExecute, exec_vecExecute, exec_freqExecute, exec_phaseExecute, exec_evtExecute, exec_biasqExecute,
      exec_decantChunkRelease, exec_decantUnderrun, execPlayExecute, execJumpRequest, execJumpTakeEffect, execSegmentEnd,
      execArmSelect, execArmExecute, execMarkExecute, execVecExecute, execFreqExecute, execPhaseExecute, execEvtExecute,
      execBiasqExecute, execDecantChunkRelease, execDecantUnderrun]
    repeat' split
    all_goals simp [keeps_iff]
  | markPulseEnd | vecPulseEnd =>
    simp [keeps_iff, execMarkPulseEnd, execVecPulseEnd, State.pulseEnds]
  | partitionWrite | segEntryWrite | markerCfgWrite | decantEnable | decantReprime | ddDescWrite | decantTransferError =>
    simp [keeps_iff, execPartitionWrite, execSegEntryWrite, execMarkerCfgWrite, execDecantEnable, execDecantReprime,
      execDdDescWrite, execDecantTransferError]
  -- Flux and bias outputs
  | fluxCoefWrite | biasUpdateInstant | bqHostWrite | biasRegWrite | genRun | compClr | biasClrAssert | biasClrRelease
  | spanWrite =>
    simp [keeps_iff, execFluxCoefWrite, execBiasUpdateInstant, execBqHostWrite, execBiasRegWrite, execGenRun, execCompClr,
      execBiasClrAssert, execBiasClrRelease, execSpanWrite]
  | biasEntryArrival | complianceTrip | parkSettleEnd =>
    simp only [exec_biasEntryArrival, exec_complianceTrip, exec_parkSettleEnd, execBiasEntryArrival, execComplianceTrip,
      execParkSettleEnd]
    repeat' split
    all_goals simp [keeps_iff]
  -- Read-out and trellis
  | riBandWrite | readoutSetWrite | thrLoopEnable | dbUnfreeze | toneTrackEnable | ttUnfreeze | decisionReleaseTile
  | decisionReleaseDevice | parityFire | remoteRelease | parityUnitCfgWrite | keyBitWrite | remoteMapWrite | exportWrite =>
    simp [keeps_iff, execRiBandWrite, execReadoutSetWrite, execThrLoopEnable, execDbUnfreeze, execToneTrackEnable,
      execTtUnfreeze, execDecisionReleaseTile, execDecisionReleaseDevice, execParityFire, execRemoteRelease,
      execParityUnitCfgWrite, execKeyBitWrite, execRemoteMapWrite, execExportWrite]
  | windowOpen | windowClose | resultRingWrite =>
    simp only [exec_windowOpen, exec_windowClose, exec_resultRingWrite, execWindowOpen, execWindowClose, execResultRingWrite]
    repeat' split
    all_goals simp [keeps_iff]
  -- Kelair
  | linkEnable | linkRetrain | trainPhaseDone | trainAttemptTimeout | backoffExpiry | autoretryAttempt | laneLockLoss
  | laneRejoin | fillerRowSend | fillerRowReceive | decisionMsgReceive | ttRequestSend | mgmtMsg | coordMsg | heartbeatMsg
  | linkAck | linkNak | replayFailure | laneMap | idleReq | idleAck | idleLpExit | prbsInject | bitSlip | routeWrite | fwdWrite
  | pairEnable | hbLost | takeOver | standDown | pairActSense =>
    simp [keeps_iff, execLinkEnable, execLinkRetrain, execTrainPhaseDone, execTrainAttemptTimeout, execBackoffExpiry,
      execAutoretryAttempt, execLaneLockLoss, execLaneRejoin, execFillerRowSend, execFillerRowReceive, execDecisionMsgReceive,
      execTtRequestSend, execMgmtMsg, execCoordMsg, execHeartbeatMsg, execLinkAck, execLinkNak, execReplayFailure, execLaneMap,
      execIdleReq, execIdleAck, execIdleLpExit, execPrbsInject, execBitSlip, execRouteWrite, execFwdWrite, execPairEnable,
      execHbLost, execTakeOver, execStandDown, execPairActSense]
  | ttMsgReceive | pairChangeEffect | pairChangeTimeout =>
    simp only [exec_ttMsgReceive, exec_pairChangeEffect, exec_pairChangeTimeout, execTtMsgReceive, execPairChangeEffect,
      execPairChangeTimeout]
    repeat' split
    all_goals simp [keeps_iff]
  -- Configuration
  | imageLoad | imageApply | imageCancel | cfgSeal | seqFailed | henConfirm | henRestart | flashWrite =>
    simp [keeps_iff, execImageLoad, execImageApply, execImageCancel, execCfgSeal, execSeqFailed, execHenConfirm,
      execHenRestart, execFlashWrite]
  | imageFetchDone | partialHoldEnd | flashWriteDone =>
    simp only [exec_imageFetchDone, exec_partialHoldEnd, exec_flashWriteDone, execImageFetchDone, execPartialHoldEnd,
      execFlashWriteDone]
    repeat' split
    all_goals simp [keeps_iff]
  | imageVerifyDone =>
    simp only [exec_imageVerifyDone, execImageVerifyDone]
    split
    all_goals simp [keeps_iff, State.keeps_verifyDone]
  -- Security and host interface
  | takeOwnership | rotateOwner | retire | debugUnlock | zeroisePlot =>
    simp [keeps_iff, execTakeOwnership, execRotateOwner, execRetire, execDebugUnlock, execZeroisePlot, State.mailbox]
  | arbCommit | commandDoorbell | rspConsWrite | rrConsWrite | ringEnable | cmdRingRestart | capsuleFetch | writeback
  | d3hotEntry | d0Return | functionLevelReset | hotReset | pcieLinkDown | pePerstAssert =>
    simp [keeps_iff, execArbCommit, execCommandDoorbell, execRspConsWrite, execRrConsWrite, execRingEnable, execCmdRingRestart,
      execCapsuleFetch, execWriteback, execD3hotEntry, execD0Return, execFunctionLevelReset, execHotReset, execPcieLinkDown,
      execPePerstAssert]
  | capsuleAuthDone | capsuleNop | imageRefFetchDone | waitStateReached | waitStateTimeout | batchSignDone | resultIrqTimer
  | dmaTransferError =>
    simp only [exec_capsuleAuthDone, exec_capsuleNop, exec_imageRefFetchDone, exec_waitStateReached, exec_waitStateTimeout,
      exec_batchSignDone, exec_resultIrqTimer, exec_dmaTransferError, execCapsuleAuthDone, execCapsuleNop,
      execImageRefFetchDone, execWaitStateReached, execWaitStateTimeout, execBatchSignDone, execResultIrqTimer,
      execDmaTransferError]
    repeat' split
    all_goals simp [keeps_iff]
  | regWrite | regRead | memRead | imageInline | imageRef | waitState =>
    simp only [exec_regWrite, exec_regRead, exec_memRead, exec_imageInline, exec_imageRef, exec_waitState, execRegWrite,
      execRegRead, execMemRead, execImageInline, execImageRef, execWaitState]
    refine State.sat_capRow _ _ _ _ _ ⟨rfl, rfl⟩ fun c b o => ?_
    repeat' split
    all_goals simp [keeps_iff]
  -- Attestation
  | spdmGetVersion =>
    simp [keeps_iff, execSpdmGetVersion]
  | spdmGetCapabilities | spdmNegotiateAlgorithms | spdmGetDigests | spdmGetCertificate | spdmChallenge | spdmGetMeasurements
  | spdmKeyExchange | spdmSetCertificate =>
    simp [keeps_iff, execSpdmGetCapabilities, execSpdmNegotiateAlgorithms, execSpdmGetDigests, execSpdmGetCertificate,
      execSpdmChallenge, execSpdmGetMeasurements, execSpdmKeyExchange, execSpdmSetCertificate]
  | spdmFinish =>
    simp only [exec_spdmFinish, execSpdmFinish]
    repeat' split
    all_goals simp [keeps_iff]
  | spdmKeyUpdate | spdmHeartbeat | spdmEndSession | ideKmProgram =>
    simp [keeps_iff, execSpdmKeyUpdate, execSpdmHeartbeat, execSpdmEndSession, execIdeKmProgram]
  -- Network time, intervals, events
  | ptpRateCommit | ptpOffsetSubmit | ptpRearm | ptpEpochCommit | ptpWrap | epochStale | ptpFrameRx | ptpFrameTx | tsRead
  | launchPush | clrHalt | xtsGo | ppsOutPulse | ppsInEdge | ptmDialogue | tiuEdge | holdoffExpiry | tiuGo | tiuStop
  | tiuEngineDone | tiuTimeout | tiuGateEnd | exportDatagramClose | eventFire | evfFire | alertRelease =>
    simp [keeps_iff, execPtpRateCommit, execPtpOffsetSubmit, execPtpRearm, execPtpEpochCommit, execPtpWrap, execEpochStale,
      execPtpFrameRx, execPtpFrameTx, execTsRead, execLaunchPush, execClrHalt, execXtsGo, execPpsOutPulse, execPpsInEdge,
      execPtmDialogue, execTiuEdge, execHoldoffExpiry, execTiuGo, execTiuStop, execTiuEngineDone, execTiuTimeout,
      execTiuGateEnd, execExportDatagramClose, execEventFire, execEvfFire, execAlertRelease]
  | ptpCorrectionApply | slewEnd | launch =>
    simp only [exec_ptpCorrectionApply, exec_slewEnd, exec_launch, execPtpCorrectionApply, execSlewEnd, execLaunch]
    repeat' split
    all_goals simp [keeps_iff]
  -- Housekeeping
  | hkGo | hkStop | hkUrgGo | hkCfgWrite | sensCheckGo =>
    simp [keeps_iff, execHkGo, execHkStop, execHkUrgGo, execHkCfgWrite, execSensCheckGo, State.hkHost]
  | hkConversionDone | hkPassGapExpiry | hkRefReady | sensOpenDetect | sensCheckDone =>
    simp only [exec_hkConversionDone, exec_hkPassGapExpiry, exec_hkRefReady, exec_sensOpenDetect, exec_sensCheckDone,
      execHkConversionDone, execHkPassGapExpiry, execHkRefReady, execSensOpenDetect, execSensCheckDone]
    repeat' split
    all_goals simp [keeps_iff]
  | hkRefFault | sensCheckPeriod =>
    simp [keeps_iff, execHkRefFault, execSensCheckPeriod]
  -- Power, heat, voltage, calibration, the cellar book
  | powerMeterUpdate | thermalModelUpdate | throttleEval | thermalAnchor | hostShutdown | hardTrip | avsStep | avsEmergency
  | islandClockStep | clockStretch | skimSlot | calTimerExpiry | deviceCalTask | calStoreSave | bootCalibration | cbSave
  | cbSaveRequest | rtcSet | vbatLoss =>
    simp [keeps_iff, execPowerMeterUpdate, execThermalModelUpdate, execThrottleEval, execThermalAnchor, execHostShutdown,
      execHardTrip, execAvsStep, execAvsEmergency, execIslandClockStep, execClockStretch, execSkimSlot, execCalTimerExpiry,
      execDeviceCalTask, execCalStoreSave, execBootCalibration, execCbSave, execCbSaveRequest, execRtcSet, execVbatLoss]
  | shutdownPowerOff | avsRequestRetry | converterPowerDown | converterWake =>
    simp only [exec_shutdownPowerOff, exec_avsRequestRetry, exec_converterPowerDown, exec_converterWake, execShutdownPowerOff,
      execAvsRequestRetry, execConverterPowerDown, execConverterWake]
    repeat' split
    all_goals simp [keeps_iff]
  -- Resets, clocks, service ports
  | porAssert | porRelease | sysRstAssert | sysRstRelease | refInLoss | refInRecovery | refInBootTimeout | laneRefLoss
  | peRefclkLoss | jtagBypass | jtagIdcode | jtagSample | jtagPreload | jtagExtest | jtagClamp | jtagHighz | jtagExtestPulse
  | jtagExtestTrain | heartbeatSend | pePerstRelease | busMasterEnableWrite | ethLinkChange | henoneRestartDone =>
    simp [keeps_iff, execPorAssert, execPorRelease, execSysRstAssert, execSysRstRelease, execRefInLoss, execRefInRecovery,
      execRefInBootTimeout, execLaneRefLoss, execPeRefclkLoss, execJtagBypass, execJtagIdcode, execJtagSample, execJtagPreload,
      execJtagExtest, execJtagClamp, execJtagHighz, execJtagExtestPulse, execJtagExtestTrain, execHeartbeatSend,
      execPePerstRelease, execBusMasterEnableWrite, execEthLinkChange, execHenoneRestartDone]
  | smbReadGlbId | smbReadGlbSts | smbReadTj | smbReadPmTotal | smbReadAonSts | smbReadTripLatch | smbReadState =>
    simp [keeps_iff, execSmbReadGlbId, execSmbReadGlbSts, execSmbReadTj, execSmbReadPmTotal, execSmbReadAonSts,
      execSmbReadTripLatch, execSmbReadState, State.smb]
  | converterAwake | mailboxCommandDone =>
    simp only [exec_converterAwake, exec_mailboxCommandDone, execConverterAwake, execMailboxCommandDone]
    repeat' split
    all_goals simp [keeps_iff]

end Sys2Proof.Machine
end

section
/-! ## Commands that write the memory window, and the invariants of every step (R38, R39) -/

namespace Sys2Proof.Machine

open Sys2Proof.Safety

/-! ### Instructions -/

/-- What an instruction's result carries, driven by changed nano-words or not. -/
theorem State.driven_stays (s : State) (t q : Nat) (ds : List (BitVec 192)) (r : IRes) (h : Stays s (r.after s)) :
    Stays s ((s.driven t q ds r).after s) := by
  by_cases hds : ds = []
  · simpa only [State.driven, if_pos hds] using h
  · cases r with
    | next s1 | jump s1 pc refill =>
      simp only [State.driven, if_neg hds]
      split
      · exact h.then (by simp)
      · exact .of_keeps (by simp)
    | issue | wait =>
      simp only [State.driven, if_neg hds]
      split <;> exact .of_keeps (by simp)
    | pcEnd | fault => simpa only [State.driven, if_neg hds] using h

theorem State.judged_stays (s : State) (t q : Nat) (x : Ins) (body : Ins → State → IRes) (h : Stays s ((body x s).after s)) :
    Stays s ((s.judged t q x body).after s) := by
  unfold State.judged
  split
  · exact Stays.refl s
  · split
    · exact Stays.refl s
    · split
      · exact Stays.refl s
      · exact h

theorem State.redirected_stays (s : State) (t q : Nat) (x : Ins) (r : MicroRun) (body : Ins → State → IRes)
    (h : Stays s ((body x s).after s)) : Stays s (s.redirected t q x r body) := by
  have hjudged := s.judged_stays t q x body h
  have hdriven := s.driven_stays t q r.drive _ hjudged
  unfold State.redirected
  dsimp only
  split
  · exact .of_keeps (by simp)
  · split
    · split <;> exact hjudged.then (by simp)
    · split <;> exact hjudged.then (by simp)
    · split <;> exact .of_keeps (by simp)
    · exact .of_keeps (by simp)
  · split
    · split <;> exact .of_keeps (by simp)
    · exact hdriven.then (by simp)
  · split
    · exact (s.driven_stays t q r.drive (.next s) (Stays.refl s)).then (by simp)
    · exact hdriven.then (by simp)

/-- An instruction whose body leaves the memory window and the queue right leaves them right. -/
theorem State.instr_stays (s : State) (t q : Nat) (e : Ecc) (cyc : Ins → Nat) (body : Ins → State → IRes)
    (h : ∀ x s, Stays s ((body x s).after s)) : Stays s (s.instr t q e cyc body) := by
  have hfinish (u : State) (x : Ins) (bad : Option Nat) (hu : u.mem = s.mem ∧ u.pending = s.pending) :
      Stays s (u.finish t q (cyc x) (u.judged t q x body) bad) :=
    (Stays.of_keeps hu).trans ((u.judged_stays t q x body (h x u)).then (u.finish_keeps ..))
  unfold State.instr
  dsimp only
  split
  · exact .of_keeps (by simp)
  · split
    · exact hfinish _ _ _ (by simp)
    · split
      · exact (Stays.of_keeps (by simp)).trans (State.redirected_stays _ _ _ _ _ _ (h _ _))
      · split
        · exact .of_keeps (by simp)
        · split
          · exact (hfinish _ _ _ (by simp)).then (State.holdMicro_keeps ..)
          · exact hfinish _ _ _ (by simp)
        · exact hfinish _ _ _ (by simp)

/-! ### Rows that write the memory window -/

/-- ST writes a data-memory word, or faults. -/
theorem execSt_stays (i : Tile) (q : Seq) (e : Ecc) (s : State) : Sat (Stays s) (execSt i q e s) := by
  unfold execSt State.instrRow
  rw [sat_onlyIf]
  split
  · refine s.instr_stays _ _ _ _ _ fun x u => ?_
    dsimp only
    split
    · exact Stays.refl u
    · exact u.stays_setWord _ _
  · exact Stays.refl s

theorem execMemWindowWrite_stays (off : Nat) (data : List Byte) (s : State) : Sat (Stays s) (execMemWindowWrite off data s) := by
  unfold execMemWindowWrite
  rw [sat_next]
  split
  · exact (s.stays_memWrite .host off data).then (by simp)
  · exact s.stays_memWrite .host off data

theorem execDecantChunkArrival_stays (i : Tile) (d : Fin 16) (samples : List Word) (tag : List Byte) (s : State) :
    Sat (Stays s) (execDecantChunkArrival i d samples tag s) := by
  unfold execDecantChunkArrival
  extract_lets x auth s0
  split
  · exact Stays.refl s
  · rw [sat_onlyIf]
    extract_lets base s1 res s2 s3
    have hsamples : Stays s s1 := by
      have h0 : Stays s s0 := .of_keeps (by simp [s0])
      simp only [s1]
      split
      · exact h0.trans (s0.stays_putSamples _ _ _)
      · exact h0
    split
    · split
      · exact .of_keeps (by simp [s0])
      · have hs3 : Stays s s3 := hsamples.then (by simp [s3, s2])
        split
        · exact hs3.then (by simp)
        · exact hs3
    · exact Stays.refl s

theorem execMemWrite_stays (p : Plot) (s : State) : Sat (Stays s) (execMemWrite p s) := by
  unfold execMemWrite
  refine s.sat_capRow _ _ _ _ (Stays.refl s) fun c b o => ?_
  dsimp only
  split
  · exact .of_keeps (by simp)
  · split
    · exact .of_keeps (by simp)
    · have hwrite := s.stays_memWrite (.capsule p) (leAt o.arg 0 4) (o.arg.drop 4)
      (repeat' split) <;> exact hwrite.then (by simp)

theorem execBootImageApply_stays (s : State) : Sat (Stays s) (execBootImageApply s) := by
  unfold execBootImageApply
  dsimp only
  split <;> rw [sat_onlyIf] <;> split
  · exact s.stays_applyFull _
  · exact Stays.refl s
  · exact .of_keeps (by simp)
  · exact Stays.refl s

theorem execPartialHold_stays (s : State) : Sat (Stays s) (execPartialHold s) := by
  unfold execPartialHold
  split
  · split
    · rw [sat_onlyIf]
      split
      · exact s.stays_applyPartial _ _
      · exact Stays.refl s
    · exact Stays.refl s
  · exact Stays.refl s

theorem execPartialStoppedApply_stays (s : State) : Sat (Stays s) (execPartialStoppedApply s) := by
  unfold execPartialStoppedApply
  split
  · rw [sat_onlyIf]
    split
    · exact s.stays_applyPartial _ _
    · exact Stays.refl s
  · exact Stays.refl s

theorem execPlacement_stays (i : Tile) (bad : Bool) (s : State) : Sat (Stays s) (execPlacement i bad s) := by
  unfold execPlacement
  dsimp only
  split
  · split <;> rw [sat_onlyIf] <;> split
    · exact s.stays_place _ _ _ _
    · exact Stays.refl s
    · exact s.stays_place _ _ _ _
    · exact Stays.refl s
  · exact Stays.refl s

theorem execMirrorMsg_stays (k : Link) (h : Block) (payload : List Block) (tr : Block) (p : Plot) (shot : Word)
    (units : List UnitWrite) (s : State) : Sat (Stays s) (execMirrorMsg k h payload tr p shot units s) := by
  unfold execMirrorMsg
  rw [sat_next]
  have hreceive : Stays s (s.receiveBulk k 1 h payload tr).1 := .of_keeps (by simp)
  split
  · exact hreceive.trans (State.stays_mirrorIn _ _ _ _ _)
  · exact hreceive

/-- A shot that ends, is cut or is aborted applies the mirrored updates that wait for its end. -/
theorem State.stays_mirrorEnd_of_keeps {s u : State} (p : Nat) (h : u.mem = s.mem ∧ u.pending = s.pending) :
    Stays s (u.mirrorEnd p) := (Stays.of_keeps h).trans (u.stays_mirrorEnd p)

theorem execShotEnd_stays (p : Plot) (s : State) : Sat (Stays s) (execShotEnd p s) := by
  unfold execShotEnd
  split
  · rw [sat_onlyIf]
    split
    · exact (State.stays_mirrorEnd_of_keeps p (s.endShot_keeps p _)).then (State.afterShot_keeps _ _)
    · exact Stays.refl s
  · exact Stays.refl s

theorem execShotCut_stays (p : Plot) (s : State) : Sat (Stays s) (execShotCut p s) := by
  unfold execShotCut
  split
  · rw [sat_onlyIf]
    split
    · exact (State.stays_mirrorEnd_of_keeps p (s.cutShot_keeps p _)).then (State.afterShot_keeps _ _)
    · exact Stays.refl s
  · exact Stays.refl s

theorem execAbortTakesEffect_stays (p : Plot) (s : State) : Sat (Stays s) (execAbortTakesEffect p s) := by
  unfold execAbortTakesEffect
  split
  · rw [sat_onlyIf]
    split
    · exact State.stays_mirrorEnd_of_keeps p (s.abortNow_keeps p _)
    · exact Stays.refl s
  · exact Stays.refl s

theorem execBrownOut_stays (s : State) : Sat (Stays s) (execBrownOut s) := by
  unfold execBrownOut
  extract_lets s1
  rw [sat_onlyIf]
  split
  · have h1 : Stays s s1 := s.stays_porOn
    clear_value s1
    exact h1.then ⟨rfl, rfl⟩
  · exact Stays.refl s

theorem execTrialTimeout_stays (s : State) : Sat (Stays s) (execTrialTimeout s) := by
  unfold execTrialTimeout
  split
  · rw [sat_onlyIf]
    split
    · exact (Stays.of_keeps (by simp)).trans (State.stays_sysOn _)
    · exact Stays.refl s
  · exact Stays.refl s

/-- Every command leaves the memory window canonical and the queue as it is: those that write no byte leave both alone. -/
theorem exec_stays (c : Instr) (s : State) : Sat (Stays s) (exec c s) := by
  cases hw : writesMemory c with
  | false =>
    obtain ⟨t, ht, hkeeps⟩ := (sat_iff _ _).1 (exec_keeps c s hw)
    exact (sat_iff _ _).2 ⟨t, ht, Stays.of_keeps hkeeps⟩
  | true =>
    cases c with
    | memWindowWrite off data => exact execMemWindowWrite_stays off data s
    | decantChunkArrival i d samples tag => exact execDecantChunkArrival_stays i d samples tag s
    | st i q e => exact execSt_stays i q e s
    | memWrite p => exact execMemWrite_stays p s
    | bootImageApply => exact execBootImageApply_stays s
    | partialHold => exact execPartialHold_stays s
    | partialStoppedApply => exact execPartialStoppedApply_stays s
    | placement i bad => exact execPlacement_stays i bad s
    | mirrorMsg k h payload tr p shot units => exact execMirrorMsg_stays k h payload tr p shot units s
    | shotEnd p => exact execShotEnd_stays p s
    | shotCut p => exact execShotCut_stays p s
    | abortTakesEffect p => exact execAbortTakesEffect_stays p s
    | brownOut => exact execBrownOut_stays s
    | trialTimeout => exact execTrialTimeout_stays s
    | _ => cases hw

/-! ### The two invariants -/

theorem step_stays {s t : State} (h : step s = .next t) : Memory.wf s.mem = true → Memory.wf t.mem = true := by
  unfold step at h
  split at h
  · next c cs _ =>
    obtain ⟨u, hu, hstays⟩ := (sat_iff _ _).1 (exec_stays c { s with pending := cs })
    obtain rfl : u = t := Host.Outcome.next.inj (hu.symm.trans h)
    exact hstays.1
  · obtain rfl : s.tick = t := Host.Outcome.next.inj h
    exact s.stays_tick.1

/-- Settles O4: a command leaves the memory canonical (`exec_stays`), and so does a tick (`State.stays_tick`). -/
theorem memoryStaysCanonical : Obligations.MemoryStaysCanonical :=
  fun _ _ hs hstep => step_stays hstep hs

/-- Settles O5: a command outside the list keeps the memory itself (`exec_keeps`). -/
theorem onlyWritersChangeMemory : Obligations.OnlyWritersChangeMemory := by
  intro c s t h hc
  have hw : writesMemory c = false := by
    revert hc
    cases c <;> simp [writesMemory]
  obtain ⟨u, hu, hmem, -⟩ := (sat_iff _ _).1 (exec_keeps c s hw)
  obtain rfl : u = t := Host.Outcome.next.inj (hu.symm.trans h)
  exact fun a => congrArg (fun m => KMap.get 0 m a) hmem

end Sys2Proof.Machine
end

section
/-! ## Host writes of the memory window (R8, R38, R39, R41, R43) -/

namespace Sys2Proof.Machine

open Sys2Proof.Safety

/-! ### Bytes -/

theorem State.setBytes_frame (s : State) (a : Nat) (bs : List Byte) :
    s.setBytes a bs = { s with mem := (s.setBytes a bs).mem } := by
  induction bs generalizing s a with
  | nil => rfl
  | cons b bs ih => exact ih (s.setByte a b) (a + 1)

theorem State.bytes_eq_ofFn (s : State) (a n : Nat) : s.bytes a n = List.ofFn fun i : Fin n => s.byte (a + i) := by
  induction n generalizing a with
  | zero => rfl
  | succ n ih =>
    rw [List.ofFn_succ, State.bytes, ih]
    simp [Nat.add_assoc, Nat.add_comm 1]

/-- What is read at once where it was written. -/
theorem State.bytes_setBytes (s : State) (a : Nat) (bs : List Byte) : (s.setBytes a bs).bytes a bs.length = bs := by
  rw [State.bytes_eq_ofFn]
  exact (congrArg List.ofFn (funext fun i => s.byte_setBytes_in a bs i i.isLt)).trans List.ofFn_getElem

/-! ### The outcomes of a write -/

theorem completes_memWindowWrite_taken (s : State) (off : Nat) (data : List Byte) (h : s.memRefuse .host off data.length = none)
    (hb : s.memBusy off data.length = false) :
    Completes (.memWindowWrite off data) s fun t =>
      t.bytes off data.length = data ∧ SameBytesBut off data.length s t ∧ t = { s with mem := t.mem } := by
  have hwrite : s.memWrite .host off data = (s.setBytes off data, none) := by simp [State.memWrite, h, hb]
  refine completes_of_exec (t := s.setBytes off data) (by simp [execMemWindowWrite, hwrite]) ⟨s.bytes_setBytes off data, ?_,
    s.setBytes_frame off data⟩
  exact fun b hout => s.byte_setBytes_out off data b hout

/-- A refused write of the memory window is recorded, and no byte changes. -/
theorem completes_memWindowWrite_refused (s : State) (off : Nat) (data : List Byte) (e : Refuse) (he : e ≠ .ignored)
    (h : s.memWrite .host off data = (s, some e)) :
    Completes (.memWindowWrite off data) s fun t => Refused e.code 1 off s t ∧ SameBytes s t := by
  refine completes_of_exec (t := s.refuseHost e 1 off) (by simp [execMemWindowWrite, h])
    ⟨s.refuseHost_refused e 1 off he (by decide), fun a => ?_⟩
  exact congrArg (fun m => KMap.get 0 m a) (s.refuseHost_keeps e 1 off).1

theorem State.memWrite_of_refuse (s : State) (src : Req) (off : Nat) (data : List Byte) (e : Refuse)
    (h : s.memRefuse src off data.length = some e) : s.memWrite src off data = (s, some e) := by
  simp [State.memWrite, h]

/-- An access that is misaligned, longer than the payload, or to a word of no enabled tile is an access error (R8, R38). -/
theorem State.memRefuse_misplaced (s : State) (off n : Nat) (hl : s.live = true)
    (h : off % 4 ≠ 0 ∨ n % 4 ≠ 0 ∨ s.pcie.payload < n ∨
      (0 < n ∧ ∃ i < n / 4, ∀ k, memTile (off + 4 * i) = some k → s.tileOn k = false)) :
    s.memRefuse .host off n = some .accessErr := by
  unfold State.memRefuse
  rw [if_neg (by simp [hl])]
  split
  · rfl
  · split
    · rfl
    · next halign hpay =>
      refine if_pos ?_
      obtain ho | hn | hp | ⟨-, i, hi, hoff⟩ := h
      · omega
      · omega
      · exact absurd hp (by simpa using hpay)
      · refine List.any_eq_true.2 ⟨off + 4 * i, by simpa [wordOffs] using hi, ?_⟩
        cases ht : memTile (off + 4 * i) with
        | none => rfl
        | some k => simp [hoff k ht]

/-- Settles O10: a write is taken, or refused as its memory, its place or its owner forbids it. -/
theorem memoryWindowWrites : Obligations.MemoryWindowWrites := by
  refine ⟨completes_memWindowWrite_taken, fun s off data h hb => ?_, fun s off data hl h => ?_,
    fun s off data hl ho h4 hn hp ht => ?_⟩
  · exact completes_memWindowWrite_refused s off data .memBusy (by decide) (by simp [State.memWrite, h, hb])
  · exact completes_memWindowWrite_refused s off data .accessErr (by decide)
      (s.memWrite_of_refuse .host off data _ (s.memRefuse_misplaced off _ hl h))
  · have hrefuse := s.memRefuse_of_enabled off data.length hl ho h4 hn hp ht
    refine ⟨fun he => ?_, fun he => by simpa [he] using hrefuse⟩
    exact completes_memWindowWrite_refused s off data .plotDeny (by decide)
      (s.memWrite_of_refuse .host off data _ (by simpa [he] using hrefuse))

end Sys2Proof.Machine
end

section
/-! ## Bridges: training and parity errors (R20, R21, R44, R46, R298) -/

namespace Sys2Proof.Machine

open Sys2Proof.Safety

/-! ### Registers, fields and loops -/

theorem getF_putF_zero_disjoint (f g : Fld) (x : Nat) (h : f.ok) (d : f.hi < g.lo ∨ g.hi < f.lo) : getF (putF 0 f x) g = 0 := by
  have h0 : getF 0 g = 0 := by simp [getF]
  exact (d.elim (getF_putF_above 0 f g x h) (getF_putF_below 0 f g x h)).trans h0

/-- Another field of a register keeps its value when a field is raised. -/
theorem State.fld_raise_disjoint (s : State) (a : Nat) (f g : Fld) (x : Nat) (h : f.ok) (d : f.hi < g.lo ∨ g.hi < f.lo) :
    (s.raise a f x).fld a g = s.fld a g := by
  have hr : (s.raise a f x).reg a = s.reg a ||| putF 0 f x := s.reg_setReg_same a _
  unfold State.fld
  rw [hr, getF_or, getF_putF_zero_disjoint f g x h d, Nat.or_zero]

theorem State.fld_raise_ne (s : State) {a b : Nat} (f g : Fld) (x : Nat) (h : b ≠ a) : (s.raise a f x).fld b g = s.fld b g := by
  unfold State.fld; rw [s.reg_raise_ne f x h]

theorem State.fld_of_regs {s t : State} (h : t.regs = s.regs) (a : Nat) (f : Fld) : t.fld a f = s.fld a f :=
  congrArg (getF · f) (State.reg_of_regs h a)

theorem State.fire_evq (s : State) (src : Nat) : (s.fire src).evq = s.evq ++ [(src, 0)] := rfl

theorem State.reg_fire_ne (s : State) (src : Nat) {b : Nat} (h : b ≠ A.evfSrcSts (src / 32)) : (s.fire src).reg b = s.reg b :=
  s.reg_setReg_ne _ h

theorem State.fld_fire_ne (s : State) (src : Nat) {b : Nat} (g : Fld) (h : b ≠ A.evfSrcSts (src / 32)) :
    (s.fire src).fld b g = s.fld b g := by
  unfold State.fld; rw [s.reg_fire_ne src h]

/-- What each pass of a loop keeps, the loop keeps. -/
theorem foldl_keeps {α β : Type} (f : State → β) (g : State → α → State) (h : ∀ s x, f (g s x) = f s) (l : List α) (s : State) :
    f (l.foldl g s) = f s := by
  induction l generalizing s with
  | nil => rfl
  | cons x l ih => rw [List.foldl_cons, ih, h]

/-! ### Training -/

/-- A slot that is still to be tried is the next one, and its SFDP is read (R298). -/
theorem State.nextSlot_cons (s : State) (x : ImgSrc) (xs : List ImgSrc) (h : s.cfg.order = x :: xs) :
    s.nextSlot = (({ s with cfg := { s.cfg with order := xs } }.setImg (some { src := x })).setLd 1).send
      (.sfdpRead (b2n (x == ImgSrc.slotB))) := by
  unfold State.nextSlot
  rw [h]

theorem State.fld_nextSlot (s : State) (a : Nat) (f : Fld) (x : ImgSrc) (xs : List ImgSrc) (h : s.cfg.order = x :: xs)
    (ha : a ≠ A.cfgSts) : s.nextSlot.fld a f = s.fld a f := by
  let u : State := { s with cfg := { s.cfg with order := xs } }
  calc s.nextSlot.fld a f = (((u.setImg (some { src := x })).setLd 1).send (.sfdpRead (b2n (x == ImgSrc.slotB)))).fld a f := by
        rw [s.nextSlot_cons x xs h]
    _ = ((u.setImg (some { src := x })).setLd 1).fld a f := State.fld_of_regs (State.send_fields _ _).1 a f
    _ = (u.setImg (some { src := x })).fld a f := State.fld_setFld_ne _ _ _ _ ha
    _ = s.fld a f := State.fld_of_regs (s := s) (u.setImg_fields _).1 a f

/-- The state in which the training has been recorded, before the loader begins: `trainDone` is its next slot. -/
def State.booted (s : State) (cbr blk : Nat) : State :=
  let s1 := (s.setFld A.glbBridgeSts F.glbBridgeSts.cbrUp cbr).setFld A.glbBridgeSts F.glbBridgeSts.blkUp blk
  let s2 : State := { s1 with cfg := { s1.cfg with trained := cbr &&& blk, bridges := cbr, links := blk } }
  (s2.setFld A.glbSts F.glbSts.bootStage 1).setFld A.dtSts F.dtSts.running 1

theorem State.trainDone_eq (s : State) (cbr blk : Nat) : s.trainDone cbr blk = (s.booted cbr blk).nextSlot := rfl

theorem State.fld_booted_bridgeSts (s : State) (cbr blk : Nat) (f : Fld) : (s.booted cbr blk).fld A.glbBridgeSts f =
    ((s.setFld A.glbBridgeSts F.glbBridgeSts.cbrUp cbr).setFld A.glbBridgeSts F.glbBridgeSts.blkUp blk).fld A.glbBridgeSts f :=
  (State.fld_setFld_ne _ _ _ _ (by decide)).trans (State.fld_setFld_ne _ _ _ _ (by decide))

theorem State.fld_booted_bootStage (s : State) (cbr blk : Nat) :
    (s.booted cbr blk).fld A.glbSts F.glbSts.bootStage = 1 :=
  (State.fld_setFld_ne _ _ _ _ (by decide)).trans (State.fld_setFld_same _ _ _ _ (by decide))

theorem State.fld_booted_running (s : State) (cbr blk : Nat) : (s.booted cbr blk).fld A.dtSts F.dtSts.running = 1 :=
  State.fld_setFld_same _ _ _ _ (by decide)

theorem State.nextSlot_frame (s : State) (x : ImgSrc) (xs : List ImgSrc) (h : s.cfg.order = x :: xs) :
    s.nextSlot.cfg.trained = s.cfg.trained ∧ s.nextSlot.cfg.order = xs ∧
      s.nextSlot.out = s.out ++ [.sfdpRead (b2n (x == ImgSrc.slotB))] ∧
      s.nextSlot = { s with regs := s.nextSlot.regs, cfg := s.nextSlot.cfg, out := s.nextSlot.out } := by
  rw [s.nextSlot_cons x xs h]
  simp [State.setLd, State.setImg, State.setFld, State.setReg, State.send]

theorem State.booted_frame (s : State) (cbr blk : Nat) : (s.booted cbr blk).cfg.trained = cbr &&& blk ∧
    s.booted cbr blk = { s with regs := (s.booted cbr blk).regs, cfg := (s.booted cbr blk).cfg } := by
  simp [State.booted, State.setFld, State.setReg]

theorem completes_bridgeTraining (s : State) (cbr blk : BitVec 4) (x : ImgSrc) (xs : List ImgSrc) (hl : s.live = true)
    (hr : s.refLost = false) (hb : s.fld A.glbSts F.glbSts.bootStage = 0) (ho : s.cfg.order = x :: xs) :
    Completes (.bridgeTraining cbr blk) s fun t =>
      t.fld A.glbBridgeSts F.glbBridgeSts.cbrUp = cbr.toNat ∧ t.fld A.glbBridgeSts F.glbBridgeSts.blkUp = blk.toNat ∧
      t.fld A.glbSts F.glbSts.bootStage = 1 ∧ t.on A.dtSts F.dtSts.running = true ∧ t.cfg.trained = (cbr &&& blk).toNat ∧
      t.cfg.order = xs ∧ t.out = s.out ++ [.sfdpRead (if x = .slotB then 1 else 0)] ∧
      t = { s with regs := t.regs, tie := t.tie, cfg := t.cfg, out := t.out } := by
  have hfld (a : Nat) (f : Fld) (ha : a ≠ A.cfgSts) :
      (s.trainDone cbr.toNat blk.toNat).fld a f = (s.booted cbr.toNat blk.toNat).fld a f :=
    (congrArg (State.fld · a f) (s.trainDone_eq _ _)).trans (State.fld_nextSlot _ a f x xs ho ha)
  obtain ⟨hbooted, hbootedFrame⟩ := s.booted_frame cbr.toNat blk.toNat
  obtain ⟨htrained, horder, hout, hframe⟩ := (s.booted cbr.toNat blk.toNat).nextSlot_frame x xs ho
  refine completes_of_exec (t := s.trainDone cbr.toNat blk.toNat) (by simp [execBridgeTraining, onlyIf, hl, hr, hb])
    ⟨?_, ?_, ?_, ?_, (htrained.trans hbooted).trans (BitVec.toNat_and ..).symm, horder, ?_, ?_⟩
  · rw [hfld _ _ (by decide), s.fld_booted_bridgeSts, State.fld_setFld_disjoint _ _ _ _ _ (by decide) (by decide),
      State.fld_setFld_same _ _ _ _ (by decide)]
    exact Nat.mod_eq_of_lt cbr.isLt
  · rw [hfld _ _ (by decide), s.fld_booted_bridgeSts, State.fld_setFld_same _ _ _ _ (by decide)]
    exact Nat.mod_eq_of_lt blk.isLt
  · rw [hfld _ _ (by decide), s.fld_booted_bootStage]
  · rw [State.on, hfld _ _ (by decide), s.fld_booted_running]
    rfl
  · rw [s.trainDone_eq, hout, hbootedFrame]
    cases x <;> rfl
  · rw [s.trainDone_eq, hframe, hbootedFrame]

/-! ### Parity errors -/

/-- A shot of the plot of tile `i` is in progress. -/
def State.shotIn (s : State) (i : Nat) : Bool := match s.plotOf i with | some p => (s.current p).isSome | none => false

theorem State.shotIn_iff (s : State) (i : Nat) :
    s.shotIn i = true ↔ ∃ (p : Nat) (h : Shot), s.plotOf i = some p ∧ s.current p = some h := by
  unfold State.shotIn
  cases s.plotOf i with
  | none => simp
  | some p => simp [Option.isSome_iff_exists]

/-- The mutes `m` after a parity error of output `o` of a tile of quadrant `q` (R21). -/
def State.muteAfter (s : State) (q : Quad) (m : KMap (List (Nat × Nat))) (o : Fin 8 × Fin 19) : KMap (List (Nat × Nat)) :=
  let i := 8 * q.val + o.1.val
  let l := KMap.get [] m i
  if s.shotIn i && !l.any (fun x => x.1 == o.2.val) then KMap.set [] m i (l ++ [(o.2.val, s.tm.now)]) else m

/-- A parity error of one output mutes that output of a tile in a shot, unless it is muted, and no other. -/
theorem State.mem_muteAfter (s : State) (q : Quad) (m : KMap (List (Nat × Nat))) (x : Fin 8 × Fin 19) (i : Nat) (o : Fin 19)
    (n : Nat) : (o.val, n) ∈ KMap.get [] (s.muteAfter q m x) i ↔ (o.val, n) ∈ KMap.get [] m i ∨
      (∀ k, (o.val, k) ∉ KMap.get [] m i) ∧ n = s.tm.now ∧ (i = 8 * q.val + x.1.val ∧ o = x.2) ∧ s.shotIn i = true := by
  have hmuted (l : List (Nat × Nat)) : (l.any fun e => e.1 == x.2.val) = true ↔ ∃ k, (x.2.val, k) ∈ l := by
    simp [List.any_eq_true]
  unfold State.muteAfter
  dsimp only
  split
  · next hadds =>
    simp only [Bool.and_eq_true, Bool.not_eq_true', ← Bool.not_eq_true, hmuted, not_exists] at hadds
    obtain ⟨hshot, hnew⟩ := hadds
    by_cases hi : i = 8 * q.val + x.1.val
    · subst hi
      rw [KMap.get_set_same, List.mem_append, List.mem_singleton, Prod.mk.injEq, ← Fin.ext_iff]
      constructor
      · rintro (h | ⟨rfl, rfl⟩)
        · exact .inl h
        · exact .inr ⟨hnew, rfl, ⟨rfl, rfl⟩, hshot⟩
      · rintro (h | ⟨-, rfl, ⟨-, rfl⟩, -⟩)
        · exact .inl h
        · exact .inr ⟨rfl, rfl⟩
    · rw [KMap.get_set_ne _ _ _ _ hi]
      simp [hi]
  · next hkeeps =>
    simp only [Bool.and_eq_true, Bool.not_eq_true', ← Bool.not_eq_true, hmuted, not_and, not_not] at hkeeps
    refine ⟨.inl, fun h => h.elim id fun ⟨hnew, _, ⟨hi, ho⟩, hshot⟩ => ?_⟩
    subst hi ho
    obtain ⟨k, hk⟩ := hkeeps hshot
    exact absurd hk (hnew k)

theorem State.mem_muteAll (s : State) (q : Quad) (outs : List (Fin 8 × Fin 19)) (m : KMap (List (Nat × Nat))) (i : Nat) (o : Fin 19)
    (n : Nat) : (o.val, n) ∈ KMap.get [] (outs.foldl (s.muteAfter q) m) i ↔ (o.val, n) ∈ KMap.get [] m i ∨
      (∀ k, (o.val, k) ∉ KMap.get [] m i) ∧ n = s.tm.now ∧ (∃ k : Fin 8, i = 8 * q.val + k.val ∧ (k, o) ∈ outs) ∧ s.shotIn i = true := by
  induction outs generalizing m with
  | nil => simp
  | cons x outs ih =>
    have hcons : (∃ k : Fin 8, i = 8 * q.val + k.val ∧ (k, o) ∈ x :: outs) ↔
        (i = 8 * q.val + x.1.val ∧ o = x.2) ∨ ∃ k : Fin 8, i = 8 * q.val + k.val ∧ (k, o) ∈ outs := by
      constructor
      · rintro ⟨k, hi, hk⟩
        rcases List.mem_cons.1 hk with rfl | hk
        · exact .inl ⟨hi, rfl⟩
        · exact .inr ⟨k, hi, hk⟩
      · rintro (⟨hi, rfl⟩ | ⟨k, hi, hk⟩)
        · exact ⟨x.1, hi, List.mem_cons_self⟩
        · exact ⟨k, hi, List.mem_cons_of_mem _ hk⟩
    rw [List.foldl_cons, ih, hcons]
    simp only [s.mem_muteAfter q m x]
    grind

/-- The mutes, the registers and the fabric's queue. -/
def State.muteView (s : State) : KMap (List (Nat × Nat)) × KMap Word × List (Nat × Nat) := (s.parity, s.regs, s.evq)

theorem State.muteView_modLane (s : State) (i p : Nat) (f : LaneX → LaneX) : (s.modLane i p f).muteView = s.muteView := by
  simp [State.muteView, State.modLane]

theorem State.muteView_flagTile (s : State) (i : Nat) (fl : BitVec 16) : (s.flagTile i fl).muteView = s.muteView := by
  unfold State.flagTile
  split
  · simp [State.muteView, State.flagNow, State.mapShots]
  · rfl

/-- A parity error of outputs mutes them, one after the other. -/
theorem State.foldl_mute (s : State) (q : Quad) (outs : List (Fin 8 × Fin 19)) (m : KMap (List (Nat × Nat))) :
    outs.foldl (fun u o => { u with parity := u.muteAfter q u.parity o }) { s with parity := m } =
      { s with parity := outs.foldl (s.muteAfter q) m } := by
  induction outs generalizing m with
  | nil => rfl
  | cons o outs ih => exact ih (s.muteAfter q m o)

theorem exec_bridgeParityError_eq (s : State) (q : Quad) (outs : List (Fin 8 × Fin 19)) (adc : BitVec 8) :
    ∃ u : State, exec (.bridgeParityError q outs adc) s =
        .next ((u.raise A.glbBridgeSts F.glbBridgeSts.cbrErr (2 ^ q.val)).fire (1280 + q.val)) ∧
      u.muteView = (outs.foldl (s.muteAfter q) s.parity, s.regs, s.evq) := by
  rw [exec_bridgeParityError]
  unfold execBridgeParityError
  extract_lets s1 s2 s3
  refine ⟨s3, rfl, ?_⟩
  have h1 : s1 = { s with parity := outs.foldl (s.muteAfter q) s.parity } := by
    refine Eq.trans ?_ (s.foldl_mute q outs s.parity)
    refine congrArg (fun g => outs.foldl g s) (funext₂ fun u o => ?_)
    show (if (u.shotIn _ && _) = true then _ else u) = _
    unfold State.muteAfter
    dsimp only
    split <;> rfl
  have h2 : s2.muteView = s1.muteView := by
    refine foldl_keeps State.muteView _ (fun u i => ?_) _ _
    dsimp only
    split
    · exact foldl_keeps State.muteView _ (fun v p => v.muteView_modLane _ _ _) _ _
    · rfl
  have h3 : s3.muteView = s2.muteView := by
    refine foldl_keeps State.muteView _ (fun u i => ?_) _ _
    split
    · exact u.muteView_flagTile _ _
    · rfl
  rw [h3, h2, h1]
  rfl

theorem completes_bridgeParityError (s : State) (q : Quad) (outs : List (Fin 8 × Fin 19)) (adc : BitVec 8) :
    Completes (.bridgeParityError q outs adc) s fun t =>
      t.fld A.glbBridgeSts F.glbBridgeSts.cbrErr = s.fld A.glbBridgeSts F.glbBridgeSts.cbrErr ||| 2 ^ q.val ∧
      t.evq = s.evq ++ [(1280 + q.val, 0)] ∧ SameRegs [A.glbBridgeSts, A.evfSrcSts 40] s t ∧
      (∀ (i : Tile) (o : Fin 19) (n : Nat), (o.val, n) ∈ KMap.get [] t.parity i ↔
        (o.val, n) ∈ KMap.get [] s.parity i ∨ (∀ m, (o.val, m) ∉ KMap.get [] s.parity i) ∧ n = s.tm.now ∧
          (∃ k : Fin 8, i.val = 8 * q.val + k.val ∧ (k, o) ∈ outs) ∧
          ∃ (p : Nat) (h : Shot), s.plotOf i = some p ∧ s.current p = some h) := by
  obtain ⟨u, hexec, hu⟩ := exec_bridgeParityError_eq s q outs adc
  obtain ⟨hparity, hregs, hevq⟩ : u.parity = _ ∧ u.regs = _ ∧ u.evq = _ := by simpa [State.muteView] using hu
  have hsrc : A.evfSrcSts ((1280 + q.val) / 32) = A.evfSrcSts 40 := by congr 1; omega
  refine completes_of_exec hexec ⟨?_, ?_, fun a ha => ?_, fun i o n => ?_⟩
  · rw [State.fld_fire_ne _ _ _ (by rw [hsrc]; decide), State.fld_raise_same _ _ _ _ (by decide), State.fld_of_regs hregs]
    congr 1
    exact Nat.mod_eq_of_lt (by fin_cases q <;> decide)
  · rw [State.fire_evq, (State.raise_fields ..).2.2.2.1, hevq]
  · simp only [List.mem_cons, List.not_mem_nil, or_false, not_or] at ha
    rw [State.reg_fire_ne _ _ (by rw [hsrc]; exact ha.2), State.reg_raise_ne _ _ _ ha.1, State.reg_of_regs hregs]
  · have hmuted : ((u.raise A.glbBridgeSts F.glbBridgeSts.cbrErr (2 ^ q.val)).fire (1280 + q.val)).parity =
        outs.foldl (s.muteAfter q) s.parity := hparity
    rw [hmuted, s.mem_muteAll, s.shotIn_iff]

end Sys2Proof.Machine
end

section
/-! ## The bias link: repeated frames, loss and return (R22, R186) -/

namespace Sys2Proof.Machine

open Sys2Proof.Safety

/-! ### Frames that are repeated -/

theorem pick_append {α : Type} (b : List α) (e : α) (a : List α) : pick b.length (b ++ e :: a) = some (b, e, a) := by
  induction b with
  | nil => rfl
  | cons x b ih => simp [pick, ih]

theorem State.bias_modBias_same (s : State) (q j : Nat) (f : BiasX → BiasX) : (s.modBias q j f).bias q j = f (s.bias q j) :=
  KMap.get_set_same ..

theorem State.bias_modBias_ne (s : State) (q : Nat) {j k : Nat} (f : BiasX → BiasX) (h : k ≠ j) :
    (s.modBias q j f).bias q k = s.bias q k := KMap.get_set_ne _ _ _ _ (by omega)

theorem State.onlyBias_modBias (s : State) (q j : Nat) (f : BiasX → BiasX) : OnlyBias q j s (s.modBias q j f) :=
  fun _ h => KMap.get_set_ne _ _ _ _ h

theorem exec_biasLinkLost_up (s : State) (q : Quad) (h : s.blkUp q = true) : exec (.biasLinkLost q) s = .next (s.biasLinkLost q) :=
  onlyIf_true _ _ _ h

/-- A frame of an entry is repeated, or its third failed repeat loses the link (R22, R172). -/
theorem exec_biasFrameCrcFail_entry (s : State) (q : Quad) (j : BiasCh) (e : BiasEntry) (b a : List BiasEntry) (hu : s.blkUp q = true)
    (hf : (s.bias q j).flight = b ++ e :: a) : exec (.biasFrameCrcFail q (.entry j b.length)) s =
      .next (if e.repeats < 3 then
        s.modBias q j fun x => { x with flight := b ++ { e with repeats := e.repeats + 1 } :: a } else s.biasLinkLost q) := by
  rw [exec_biasFrameCrcFail]
  unfold execBiasFrameCrcFail
  simp only [hf, pick_append]
  exact onlyIf_true _ _ _ hu

/-- A frame of a register write on its way is repeated, or its third failed repeat loses the link (R22). -/
theorem exec_biasFrameCrcFail_write (s : State) (q : Quad) (j : BiasCh) (off due k : Nat) (w : Word)
    (b a : List (Nat × Word × Nat × Nat)) (hu : s.blkUp q = true) (hw : (s.bias q j).writes = b ++ (off, w, due, k) :: a)
    (hd : s.tm.now < due) : exec (.biasFrameCrcFail q (.write j b.length)) s =
      .next (if k < 3 then s.modBias q j fun x => { x with writes := b ++ (off, w, due + 80, k + 1) :: a } else s.biasLinkLost q) := by
  rw [exec_biasFrameCrcFail]
  unfold execBiasFrameCrcFail
  simp only [hw, pick_append]
  exact onlyIf_true _ _ _ (by simp [hu, hd])

theorem completes_biasFrameCrcFail_entry (s : State) (q : Quad) (j : BiasCh) (e : BiasEntry) (b a : List BiasEntry)
    (hu : s.blkUp q = true) (hf : (s.bias q j).flight = b ++ e :: a) :
    (e.repeats < 3 → Completes (.biasFrameCrcFail q (.entry j b.length)) s fun t =>
      (t.bias q j) = { s.bias q j with flight := b ++ { e with repeats := e.repeats + 1 } :: a } ∧
      t = { s with biases := t.biases } ∧ OnlyBias q j s t) ∧
    (3 ≤ e.repeats → Completes (.biasFrameCrcFail q (.entry j b.length)) s fun t => exec (.biasLinkLost q) s = .next t) := by
  have hexec := exec_biasFrameCrcFail_entry s q j e b a hu hf
  constructor <;> intro hr
  · rw [if_pos hr] at hexec
    exact completes_of_exec hexec ⟨s.bias_modBias_same .., rfl, s.onlyBias_modBias _ _ _⟩
  · rw [if_neg (Nat.not_lt.2 hr)] at hexec
    exact completes_of_exec hexec (exec_biasLinkLost_up s q hu)

theorem completes_biasFrameCrcFail_write (s : State) (q : Quad) (j : BiasCh) (off due k : Nat) (w : Word)
    (b a : List (Nat × Word × Nat × Nat)) (hu : s.blkUp q = true) (hw : (s.bias q j).writes = b ++ (off, w, due, k) :: a)
    (hd : s.tm.now < due) :
    (k < 3 → Completes (.biasFrameCrcFail q (.write j b.length)) s fun t =>
      (t.bias q j) = { s.bias q j with writes := b ++ (off, w, due + 80, k + 1) :: a } ∧
      t = { s with biases := t.biases } ∧ OnlyBias q j s t) ∧
    (3 ≤ k → Completes (.biasFrameCrcFail q (.write j b.length)) s fun t => exec (.biasLinkLost q) s = .next t) := by
  have hexec := exec_biasFrameCrcFail_write s q j off due k w b a hu hw hd
  constructor <;> intro hr
  · rw [if_pos hr] at hexec
    exact completes_of_exec hexec ⟨s.bias_modBias_same .., rfl, s.onlyBias_modBias _ _ _⟩
  · rw [if_neg (Nat.not_lt.2 hr)] at hexec
    exact completes_of_exec hexec (exec_biasLinkLost_up s q hu)

theorem completes_biasFrameCrcFail_other (s : State) (q : Quad) (f : Fin 4) (hu : s.blkUp q = true) :
    Completes (.biasFrameCrcFail q (.other f)) s fun t => (f = 3 → exec (.biasLinkLost q) s = .next t) ∧ (f ≠ 3 → t = s) := by
  by_cases hf : f = 3
  · exact completes_of_exec (onlyIf_true _ _ _ (by simp [hu, hf]))
      ⟨fun _ => exec_biasLinkLost_up s q hu, fun h => absurd hf h⟩
  · exact completes_of_exec (onlyIf_false _ _ _ (by simp [hf])) ⟨fun h => absurd h hf, fun _ => rfl⟩

/-! ### The loss of the link -/

/-- From `s` to `t` no event fired, no bias channel changed, and no register of the device's blocks below those of the tiles did. -/
def QuietBelow (s t : State) : Prop := t.evq = s.evq ∧ t.biases = s.biases ∧ ∀ a < 0x1000000, t.reg a = s.reg a

theorem QuietBelow.refl (s : State) : QuietBelow s s := ⟨rfl, rfl, fun _ _ => rfl⟩

theorem QuietBelow.trans {s t u : State} (h : QuietBelow s t) (k : QuietBelow t u) : QuietBelow s u := by
  obtain ⟨hevq, hbias, hregs⟩ := h
  obtain ⟨kevq, kbias, kregs⟩ := k
  exact ⟨kevq.trans hevq, kbias.trans hbias, fun a ha => (kregs a ha).trans (hregs a ha)⟩

theorem quietBelow_of_regs {s t : State} (he : t.evq = s.evq) (hb : t.biases = s.biases) (hr : t.regs = s.regs) : QuietBelow s t :=
  ⟨he, hb, fun a _ => State.reg_of_regs hr a⟩

theorem quietBelow_setReg (s : State) (a : Nat) (v : Word) (h : 0x1000000 ≤ a) : QuietBelow s (s.setReg a v) :=
  ⟨by simp, by simp, fun b hb => s.reg_setReg_ne v (by omega)⟩

theorem quietBelow_raise (s : State) (a : Nat) (f : Fld) (x : Nat) (h : 0x1000000 ≤ a) : QuietBelow s (s.raise a f x) :=
  ⟨by simp, by simp, fun b hb => s.reg_raise_ne f x (by omega)⟩

theorem quietBelow_mapShots (s : State) (p : Nat) (which : Shot → Bool) (f : Shot → Shot) : QuietBelow s (s.mapShots p which f) :=
  quietBelow_of_regs (by simp [State.mapShots]) (by simp [State.mapShots]) (by simp [State.mapShots])

theorem quietBelow_biasLost (s : State) (t b : Nat) (sh : Option (Nat × Nat)) : QuietBelow s (s.biasLost t b sh) := by
  have hraise : QuietBelow s (s.raise (A.bqSts t b) F.bqSts.lost 1) := quietBelow_raise _ _ _ _ (by simp only [A.bqSts]; omega)
  have hcount : QuietBelow s ((s.raise (A.bqSts t b) F.bqSts.lost 1).bump (A.bqLostCnt t b)) :=
    hraise.trans (quietBelow_setReg _ _ _ (by simp only [A.bqLostCnt]; omega))
  cases sh with
  | none => exact hcount
  | some sh => exact hcount.trans (quietBelow_mapShots _ _ _ _)

theorem quietBelow_biasSettled (s : State) (sh : Option (Nat × Nat)) : QuietBelow s (s.biasSettled sh) := by
  cases sh with
  | none => exact .refl s
  | some sh => exact quietBelow_mapShots _ _ _ _

theorem quietBelow_loseFlight (s : State) (t b : Nat) (es : List BiasEntry) : QuietBelow s (s.loseFlight t b es) := by
  induction es generalizing s with
  | nil => exact .refl s
  | cons e es ih => exact ((quietBelow_biasLost s t b e.shot).trans (quietBelow_biasSettled _ e.shot)).trans (ih _)

theorem quietBelow_holdWrites {α : Type} (s : State) (q : Nat) (g : α → HeldWrite) (ws : List α) :
    QuietBelow s (ws.foldl (fun s w => s.holdWrite q (g w)) s) := by
  induction ws generalizing s with
  | nil => exact .refl s
  | cons w ws ih => exact (quietBelow_of_regs rfl rfl rfl).trans (ih _)

theorem quietBelow_genStops (s : State) (q j : Nat) :
    QuietBelow s (if s.genOn q j then (s.genStop q j).raise (A.bdSts q j) F.bdSts.genLost 1 else s) := by
  split
  · exact (quietBelow_setReg s (A.bdGenCtl q j) _ (by simp only [A.bdGenCtl]; omega)).trans
      (quietBelow_raise _ _ _ _ (by simp only [A.bdSts]; omega))
  · exact .refl s

/-- What the loss leaves of channel `j`: no entry on its way, and the other channels, the device's registers and the events as they were. -/
theorem State.biasChLost_spec (s : State) (q j : Nat) :
    (s.biasChLost q j).evq = s.evq ∧ (∀ a < 0x1000000, (s.biasChLost q j).reg a = s.reg a) ∧
      (∀ k ≠ j, (s.biasChLost q j).bias q k = s.bias q k) ∧ ((s.biasChLost q j).bias q j).flight = [] := by
  unfold State.biasChLost
  extract_lets x s1 s2 s3 code
  have hquiet : QuietBelow s s3 := ((quietBelow_genStops s q j).trans (quietBelow_holdWrites s1 q _ x.writes)).trans
    (quietBelow_loseFlight s2 (biasTile q j) (j % 16) x.flight)
  obtain ⟨hevq, hbias, hregs⟩ := hquiet
  have hch (k : Nat) : s3.bias q k = s.bias q k := congrArg (fun m : KMap BiasX => KMap.get {} m (128 * q + k)) hbias
  clear_value s3 s2 s1
  split
  · refine ⟨hevq, hregs, fun k hk => (s3.bias_modBias_ne q _ hk).trans (hch k), ?_⟩
    rw [State.bias_modBias_same]
  · next hidle =>
    refine ⟨hevq, hregs, fun k _ => hch k, ?_⟩
    rw [hch]
    simp only [Bool.or_eq_true, bne_iff_ne, ne_eq, not_or, not_not] at hidle
    exact hidle.1.2

theorem State.foldl_biasChLost_spec (s : State) (q : Nat) (l : List Nat) :
    (l.foldl (fun s j => s.biasChLost q j) s).evq = s.evq ∧
      (∀ a < 0x1000000, (l.foldl (fun s j => s.biasChLost q j) s).reg a = s.reg a) ∧
      ∀ k, k ∈ l ∨ (s.bias q k).flight = [] → ((l.foldl (fun s j => s.biasChLost q j) s).bias q k).flight = [] := by
  induction l generalizing s with
  | nil => exact ⟨rfl, fun _ _ => rfl, fun k h => h.resolve_left (by simp)⟩
  | cons j l ih =>
    obtain ⟨hevq, hregs, hothers, hown⟩ := s.biasChLost_spec q j
    obtain ⟨ihevq, ihregs, ihflight⟩ := ih (s.biasChLost q j)
    refine ⟨ihevq.trans hevq, fun a ha => (ihregs a ha).trans (hregs a ha), fun k hk => ihflight k ?_⟩
    by_cases hj : k = j
    · exact .inr (hj ▸ hown)
    · rw [hothers k hj]
      exact hk.imp_left fun h => (List.mem_cons.1 h).resolve_left hj

/-- The channels of a lost link have no entry on its way, and the device's registers and the events are as they were. -/
theorem State.eachBias_lost_spec (s : State) (q : Nat) :
    (s.eachBias q fun s j => s.biasChLost q j).evq = s.evq ∧
      (∀ a < 0x1000000, (s.eachBias q fun s j => s.biasChLost q j).reg a = s.reg a) ∧
      ∀ j : BiasCh, ((s.eachBias q fun s j => s.biasChLost q j).bias q j).flight = [] := by
  obtain ⟨hevq, hregs, hflight⟩ := s.foldl_biasChLost_spec q (List.range 128)
  exact ⟨hevq, hregs, fun j => hflight j (.inl (List.mem_range.2 j.isLt))⟩

/-! ### The links that are up -/

theorem testBit_without : ∀ (up : Fin 16) (q k : Fin 4),
    ((up.val - (up.val &&& 2 ^ q.val)) % 16).testBit k.val = (up.val.testBit k.val && (k != q)) := by decide

theorem testBit_with : ∀ (up : Fin 16) (q k : Fin 4),
    ((up.val ||| 2 ^ q.val) % 16).testBit k.val = (up.val.testBit k.val || (k == q)) := by decide

theorem State.fld_blkUp_lt (s : State) : s.fld A.glbBridgeSts F.glbBridgeSts.blkUp < 16 := getF_lt _ _

theorem State.fld_setBlkUp (s : State) (x : Nat) :
    (s.setFld A.glbBridgeSts F.glbBridgeSts.blkUp x).fld A.glbBridgeSts F.glbBridgeSts.blkUp = x % 16 :=
  s.fld_setFld_same _ _ _ (by decide)

/-- BLK_UP without quadrant `q`. -/
theorem State.blkUp_without (s t : State) (q : Quad)
    (h : t.fld A.glbBridgeSts F.glbBridgeSts.blkUp = (s.fld A.glbBridgeSts F.glbBridgeSts.blkUp -
      (s.fld A.glbBridgeSts F.glbBridgeSts.blkUp &&& 2 ^ q.val)) % 16) :
    t.blkUp q = false ∧ ∀ q' : Quad, q' ≠ q → t.blkUp q' = s.blkUp q' := by
  have hbit (k : Quad) : t.blkUp k = (s.blkUp k && (k != q)) := by
    rw [State.blkUp, h]
    exact testBit_without ⟨_, s.fld_blkUp_lt⟩ q k
  exact ⟨by simp [hbit], fun k hk => by simp [hbit, hk]⟩

/-- BLK_UP with quadrant `q`. -/
theorem State.blkUp_with (s t : State) (q : Quad)
    (h : t.fld A.glbBridgeSts F.glbBridgeSts.blkUp = (s.fld A.glbBridgeSts F.glbBridgeSts.blkUp ||| 2 ^ q.val) % 16) :
    t.blkUp q = true ∧ ∀ q' : Quad, q' ≠ q → t.blkUp q' = s.blkUp q' := by
  have hbit (k : Quad) : t.blkUp k = (s.blkUp k || (k == q)) := by
    rw [State.blkUp, h]
    exact testBit_with ⟨_, s.fld_blkUp_lt⟩ q k
  exact ⟨by simp [hbit], fun k hk => by simp [hbit, hk]⟩

/-- What the device records of a lost link, its channels being `s1`. -/
def State.biasLinkDown (s1 : State) (q : Nat) : State :=
  let up := s1.fld A.glbBridgeSts F.glbBridgeSts.blkUp
  (((s1.setFld A.glbBridgeSts F.glbBridgeSts.blkUp (up - (up &&& 2 ^ q))).raise A.glbBridgeSts
    F.glbBridgeSts.blkDown (2 ^ q)).raise (A.hkSts q) F.hkSts.linkLost 1).fire (1284 + q)

theorem State.biasLinkLost_eq (s : State) (q : Nat) :
    s.biasLinkLost q = (s.eachBias q fun s j => s.biasChLost q j).biasLinkDown q := rfl

theorem evfSrcSts_linkLost (q : Quad) : A.evfSrcSts ((1284 + q.val) / 32) = A.evfSrcSts 40 := by congr 1; omega

/-- The fields of GLB_BRIDGE_STS are those before HK_STS and the event. -/
theorem State.fld_biasLinkDown_bridgeSts (s : State) (q : Quad) (g : Fld) :
    (s.biasLinkDown q).fld A.glbBridgeSts g =
      ((s.setFld A.glbBridgeSts F.glbBridgeSts.blkUp (s.fld A.glbBridgeSts F.glbBridgeSts.blkUp -
        (s.fld A.glbBridgeSts F.glbBridgeSts.blkUp &&& 2 ^ q.val))).raise A.glbBridgeSts F.glbBridgeSts.blkDown (2 ^ q.val)).fld
          A.glbBridgeSts g := by
  have hhk : A.glbBridgeSts ≠ A.hkSts q := by simp only [A.glbBridgeSts, A.hkSts]; omega
  exact (State.fld_fire_ne _ _ _ (by rw [evfSrcSts_linkLost]; decide)).trans (State.fld_raise_ne _ _ _ _ hhk)

theorem State.biasLinkDown_spec (s : State) (q : Quad) :
    (s.biasLinkDown q).blkUp q = false ∧ ((s.biasLinkDown q).fld A.glbBridgeSts F.glbBridgeSts.blkDown).testBit q = true ∧
      (s.biasLinkDown q).fld (A.hkSts q) F.hkSts.linkLost = 1 ∧ (s.biasLinkDown q).evq = s.evq ++ [(1284 + q.val, 0)] ∧
      (∀ q' : Quad, q' ≠ q → (s.biasLinkDown q).blkUp q' = s.blkUp q') ∧ (s.biasLinkDown q).biases = s.biases := by
  have hup : (s.biasLinkDown q).fld A.glbBridgeSts F.glbBridgeSts.blkUp = (s.fld A.glbBridgeSts F.glbBridgeSts.blkUp -
      (s.fld A.glbBridgeSts F.glbBridgeSts.blkUp &&& 2 ^ q.val)) % 16 := by
    rw [s.fld_biasLinkDown_bridgeSts, State.fld_raise_disjoint _ _ _ _ _ (by decide) (by decide), State.fld_setBlkUp]
  obtain ⟨hq, hothers⟩ := s.blkUp_without _ q hup
  refine ⟨hq, ?_, ?_, ?_, hothers, ?_⟩
  · have hbit : ∀ q : Fin 4, (2 ^ q.val % 16).testBit q.val = true := by decide
    rw [s.fld_biasLinkDown_bridgeSts, State.fld_raise_same _ _ _ _ (by decide), Nat.testBit_or, Bool.or_eq_true]
    exact .inr (hbit q)
  · have hne : A.hkSts q ≠ A.evfSrcSts ((1284 + q.val) / 32) := by
      rw [evfSrcSts_linkLost]; simp only [A.hkSts, A.evfSrcSts]; omega
    exact (State.fld_fire_ne _ _ _ hne).trans (State.fld_raise_bit _ _ _ (by decide) rfl)
  · rw [State.biasLinkDown, State.fire_evq]
    simp
  · simp [State.biasLinkDown, State.fire, State.fireG, State.fireRaw]

theorem completes_biasLinkLost (s : State) (q : Quad) (hu : s.blkUp q = true) :
    Completes (.biasLinkLost q) s fun t =>
      t.blkUp q = false ∧ (t.fld A.glbBridgeSts F.glbBridgeSts.blkDown).testBit q = true ∧
      t.fld (A.hkSts q) F.hkSts.linkLost = 1 ∧ t.evq = s.evq ++ [(1284 + q.val, 0)] ∧
      (∀ q' : Quad, q' ≠ q → t.blkUp q' = s.blkUp q') ∧ ∀ j : BiasCh, (t.bias q j).flight = [] := by
  obtain ⟨hevq, hregs, hflight⟩ := s.eachBias_lost_spec q
  obtain ⟨hup, hdown, hlost, hfired, hothers, hbiases⟩ := (s.eachBias q fun s j => s.biasChLost q j).biasLinkDown_spec q
  refine completes_of_exec (exec_biasLinkLost_up s q hu) ?_
  rw [s.biasLinkLost_eq]
  refine ⟨hup, hdown, hlost, by rw [hfired, hevq], fun q' hq' => (hothers q' hq').trans ?_, fun j => ?_⟩
  · rw [State.blkUp, State.blkUp, State.fld, hregs _ (by decide), State.fld]
  · exact (congrArg (fun m : KMap BiasX => (KMap.get {} m (128 * q + j)).flight) hbiases).trans (hflight j)

/-! ### The link comes back -/

/-- A channel of a link that is up again is read as it stands. -/
def BiasX.dropShadow (x : BiasX) : BiasX := { x with shadow := [] }

theorem State.foldl_dropShadow_spec (s : State) (q : Nat) (l : List Nat) (k : Nat) (h : k ∈ l ∨ (s.bias q k).shadow = []) :
    ((l.foldl (fun s j => s.modBias q j BiasX.dropShadow) s).bias q k).shadow = [] := by
  induction l generalizing s with
  | nil => exact h.resolve_left (by simp)
  | cons j l ih =>
    refine ih _ ?_
    by_cases hj : k = j
    · refine .inr ?_
      rw [hj, State.bias_modBias_same]
      rfl
    · rw [State.bias_modBias_ne _ _ _ hj]
      exact h.imp_left fun h => (List.mem_cons.1 h).resolve_left hj

theorem State.eachBias_dropShadow_spec (s : State) (q : Nat) :
    (s.eachBias q fun s j => s.modBias q j BiasX.dropShadow).regs = s.regs ∧
      (s.eachBias q fun s j => s.modBias q j BiasX.dropShadow).hks = s.hks ∧
      ∀ j : BiasCh, ((s.eachBias q fun s j => s.modBias q j BiasX.dropShadow).bias q j).shadow = [] := by
  have hmem (j : BiasCh) : j.val ∈ List.range 128 := List.mem_range.2 j.isLt
  unfold State.eachBias
  generalize List.range 128 = l at hmem
  exact ⟨foldl_keeps State.regs (fun s j => s.modBias q j BiasX.dropShadow) (fun _ _ => rfl) l s,
    foldl_keeps State.hks (fun s j => s.modBias q j BiasX.dropShadow) (fun _ _ => rfl) l s, fun j => s.foldl_dropShadow_spec q l j (.inl (hmem j))⟩

/-- The writes that were held for quadrant `q` have been taken up. -/
def State.noHeldWrites (s : State) (q : Nat) : State := { s with heldWrites := KMap.set [] s.heldWrites q [] }

theorem State.noHeldWrites_fields (s : State) (q : Nat) :
    (s.noHeldWrites q).regs = s.regs ∧ (s.noHeldWrites q).hks = s.hks ∧ (s.noHeldWrites q).biases = s.biases := ⟨rfl, rfl, rfl⟩

/-- With nothing held for it, the link that comes back delivers nothing. -/
theorem State.biasLinkUp_eq (s : State) (q : Nat) (h : KMap.get [] s.heldWrites q = []) : s.biasLinkUp q =
    ((s.setFld A.glbBridgeSts F.glbBridgeSts.blkUp (s.fld A.glbBridgeSts F.glbBridgeSts.blkUp ||| 2 ^ q)).eachBias q
      fun s j => s.modBias q j BiasX.dropShadow).noHeldWrites q := by
  unfold State.biasLinkUp
  rw [h]
  rfl

/-- With nothing held for it, the link that comes back is up, and its channels are read again. -/
theorem State.biasLinkUp_spec (s : State) (q : Nat) (h : KMap.get [] s.heldWrites q = []) :
    (s.biasLinkUp q).regs =
        (s.setFld A.glbBridgeSts F.glbBridgeSts.blkUp (s.fld A.glbBridgeSts F.glbBridgeSts.blkUp ||| 2 ^ q)).regs ∧
      (s.biasLinkUp q).hk q = s.hk q ∧ ∀ j : BiasCh, ((s.biasLinkUp q).bias q j).shadow = [] := by
  have hset (x : Nat) : (s.setFld A.glbBridgeSts F.glbBridgeSts.blkUp x).hks = s.hks := by simp
  rw [s.biasLinkUp_eq q h]
  generalize hs1 : s.setFld A.glbBridgeSts F.glbBridgeSts.blkUp _ = s1
  obtain ⟨hregs, hhks, hshadow⟩ := s1.eachBias_dropShadow_spec q
  generalize s1.eachBias q _ = u at hregs hhks hshadow ⊢
  obtain ⟨kregs, khks, kbiases⟩ := u.noHeldWrites_fields q
  refine ⟨kregs.trans hregs, ?_, fun j => ?_⟩
  · rw [State.hk, khks, hhks, ← hs1, hset, State.hk]
  · rw [State.bias, kbiases]
    exact hshadow j

/-- With nothing held for it, the converter of the quadrant brings nothing. -/
theorem State.hkDeliver_spec (s : State) (q : Nat) (h : (s.hk q).held = []) (hr : (s.hk q).heldRes = []) :
    (s.hkDeliver q).regs = s.regs ∧ (s.hkDeliver q).biases = s.biases := by
  have hres : ((s.setHk q { s.hk q with held := [] }).hk q).heldRes = [] := by
    rw [State.hk, State.setHk, KMap.get_set_same, hr]
  unfold State.hkDeliver
  simp [h, hres]

theorem completes_biasLinkRetrain (s : State) (q : Quad) (hu : s.blkUp q = false) (hl : s.refLost = false)
    (hb : s.fld A.glbSts F.glbSts.bootStage ≠ 0) (hw : KMap.get [] s.heldWrites q = []) (hh : (s.hk q).held = [])
    (hr : (s.hk q).heldRes = []) :
    Completes (.biasLinkRetrain q) s fun t =>
      t.blkUp q = true ∧ SameRegs [A.glbBridgeSts] s t ∧ (∀ q' : Quad, q' ≠ q → t.blkUp q' = s.blkUp q') ∧
      ∀ j : BiasCh, (t.bias q j).shadow = [] := by
  obtain ⟨hregs, hhk, hshadow⟩ := s.biasLinkUp_spec q hw
  obtain ⟨kregs, kbiases⟩ := (s.biasLinkUp q).hkDeliver_spec q (hhk ▸ hh) (hhk ▸ hr)
  have hset := kregs.trans hregs
  have hup : ((s.biasLinkUp q).hkDeliver q).fld A.glbBridgeSts F.glbBridgeSts.blkUp =
      (s.fld A.glbBridgeSts F.glbBridgeSts.blkUp ||| 2 ^ q.val) % 16 := (State.fld_of_regs hset _ _).trans (s.fld_setBlkUp _)
  obtain ⟨hq, hothers⟩ := s.blkUp_with _ q hup
  refine completes_of_exec (onlyIf_true _ _ _ (by simp [hu, hl, hb])) ⟨hq, fun a ha => ?_, hothers, fun j => ?_⟩
  · rw [State.reg_of_regs hset, State.reg_setFld_ne _ _ _ (by simpa using ha)]
  · exact (congrArg (fun m : KMap BiasX => (KMap.get {} m (128 * q + j)).shadow) kbiases).trans (hshadow j)

/-- Settles O11: each clause is the rule above of its command. -/
theorem bridgesTrainFailAndRecover : Obligations.BridgesTrainFailAndRecover := by
  unfold Obligations.BridgesTrainFailAndRecover
  refine ⟨completes_bridgeTraining, completes_bridgeParityError, ?_, ?_, completes_biasFrameCrcFail_other,
    completes_biasLinkLost, completes_biasLinkRetrain⟩
  · rintro s q j n e b a hu hf rfl
    exact completes_biasFrameCrcFail_entry s q j e b a hu hf
  · rintro s q j n off due k w b a hu hw rfl hd
    exact completes_biasFrameCrcFail_write s q j off due k w b a hu hw hd

end Sys2Proof.Machine
end

section
/-! ## Writes of the tables of the cellar and of the flux outputs (R39, R129–R133, R148, R164, R167, R350) -/

namespace Sys2Proof.Machine

open Sys2Proof.Safety

/-! ### What a write leaves in a register -/

/-- Fields of a register that have bits of their own. -/
def fieldsApart (fs : List FieldSpec) : Bool :=
  fs.all (fun f => f.fld.ok) && decide (fs.Pairwise fun f g => f.fld.hi < g.fld.lo ∨ g.fld.hi < f.fld.lo)

/-- A register whose fields have bits of their own, none of which a write of 1 clears. -/
def RegSpec.plainWrite (r : RegSpec) : Bool := fieldsApart r.fields && r.fields.all fun f => f.acc != .w1c

theorem getF_foldl_putF_apart (fs : List FieldSpec) (x : FieldSpec → Nat) (v : Word) (g : Fld)
    (h : ∀ f ∈ fs, f.fld.ok = true ∧ (f.fld.hi < g.lo ∨ g.hi < f.fld.lo)) :
    getF (fs.foldl (fun v f => putF v f.fld (x f)) v) g = getF v g := by
  induction fs generalizing v with
  | nil => rfl
  | cons f fs ih =>
    obtain ⟨hok, hap⟩ := h f List.mem_cons_self
    rw [List.foldl_cons, ih _ fun f' hf' => h f' (List.mem_cons_of_mem _ hf')]
    exact hap.elim (getF_putF_above v f.fld g _ hok) (getF_putF_below v f.fld g _ hok)

theorem getF_foldl_putF (fs : List FieldSpec) (x : FieldSpec → Nat) (v : Word) (f : FieldSpec) (h : fieldsApart fs = true) (hf : f ∈ fs) :
    getF (fs.foldl (fun v f => putF v f.fld (x f)) v) f.fld = x f % 2 ^ (f.fld.hi + 1 - f.fld.lo) := by
  induction fs generalizing v with
  | nil => simp at hf
  | cons g fs ih =>
    simp only [fieldsApart, List.all_cons, Bool.and_eq_true, decide_eq_true_eq, List.pairwise_cons, List.all_eq_true] at h
    obtain ⟨⟨hok, hoks⟩, hap, haps⟩ := h
    rw [List.foldl_cons]
    obtain rfl | hf := List.mem_cons.1 hf
    · rw [getF_foldl_putF_apart fs x _ _ fun f' hf' => ⟨hoks f' hf', (hap f' hf').symm⟩]
      exact getF_putF_same _ _ _ hok
    · exact ih _ (by simpa [fieldsApart] using ⟨hoks, haps⟩) hf

/-- A field of the merged word (R10). -/
theorem getF_mergeWord (fs : List FieldSpec) (lock : Bool) (old w : Word) (f : FieldSpec) (h : fieldsApart fs = true) (hf : f ∈ fs)
    (hacc : f.acc ≠ .w1c) :
    getF (mergeWord fs lock old w) f.fld = match f.acc with
      | .rw | .rws => if lock = true ∧ f.lk = true then getF old f.fld else getF w f.fld
      | _ => getF old f.fld := by
  have hold := Nat.mod_eq_of_lt (getF_lt old f.fld)
  have hnew := Nat.mod_eq_of_lt (getF_lt w f.fld)
  have hfield := getF_foldl_putF fs (fun f => fieldWrite f lock (getF old f.fld) (getF w f.fld)) old f h hf
  rw [mergeWord, hfield]
  unfold fieldWrite
  cases hf : f.acc
  case w1c => exact absurd hf hacc
  case rw | rws => cases lock <;> cases f.lk <;> simp [hold, hnew]
  all_goals exact hold

/-- The word that an accepted host write leaves in a register. -/
def State.hostMerged (s : State) (r : RegSpec) (a : Nat) (w : Word) : Word :=
  mergeWord r.fields (s.locked .host) (s.reg a) (s.tied r.fields a w)

theorem State.locked_host (s : State) : s.locked .host = s.isSealed := Bool.and_true _

theorem State.takes_of_reg {s t : State} {r : RegSpec} {a : Nat} {w : Word} (hr : r.plainWrite = true)
    (h : t.reg a = s.hostMerged r a w) : Takes r a w s t := by
  simp only [RegSpec.plainWrite, Bool.and_eq_true] at hr
  obtain ⟨hap, hacc⟩ := hr
  intro f hf
  have hne : f.acc ≠ .w1c := by simpa using List.all_eq_true.1 hacc f hf
  rw [State.fld, h, State.hostMerged, s.tied_none _ _ _ (.inr hacc), getF_mergeWord _ _ _ _ f hap hf hne, s.locked_host]
  cases hc : f.acc
  case w1c => exact absurd hc hne
  all_goals rfl

/-- A host write of a register that is open, is not denied and meets no lock: the register takes it, and its effect follows. -/
theorem State.hostWrite_eff (s : State) (r : RegSpec) (a : Nat) (w : Word) (deny : Option Refuse) (eff : State → State) (off : Nat)
    (h : HostOpen s a) (hd : deny = none) (hl : s.isSealed = false ∨ r.fields.all (fun f => !f.lk) = true) :
    State.hostWrite (s.write .host r a w deny eff) off = eff (s.setReg a (s.hostMerged r a w)) := by
  subst hd
  refine s.hostWrite_write r a w eff off h (hl.elim (fun hs => ?_) fun hk => lockHit_none _ _ _ _ hk)
  rw [s.locked_host, hs]
  rfl

/-- A host write that the register itself refuses is recorded as refused. -/
theorem State.hostWrite_refused (s : State) (r : RegSpec) (a : Nat) (w : Word) (deny : Option Refuse) (eff : State → State)
    (e : Refuse) (h : HostOpen s a) (hd : deny = some e) (he : e ≠ .ignored) :
    Refused e.code 0 a s (State.hostWrite (s.write .host r a w deny eff) a) := by
  subst hd
  rw [s.hostWrite_denied r a w eff a h e]
  exact s.refuseHost_refused e 0 a he (by decide)

theorem State.busyTile_of_idle (s : State) (src : Req) (t : Nat) (h : s.tileIdle t = true) : s.busyTile src t = none := by
  simp [State.busyTile, h]

theorem State.busyTile_of_busy (s : State) (t : Nat) (h : s.tileIdle t = false) : s.busyTile .host t = some .memBusy := by
  simp [State.busyTile, h]

/-- A table write while a sequencer of the tile is not IDLE (R39, R133). -/
theorem State.hostWrite_busy (s : State) (r : RegSpec) (a : Nat) (w : Word) (eff : State → State) (t : Nat) (h : HostOpen s a)
    (hi : s.tileIdle t = false) : Refused 2 0 a s (State.hostWrite (s.write .host r a w (s.busyTile .host t) eff) a) :=
  s.hostWrite_refused r a w _ eff .memBusy h (s.busyTile_of_busy t hi) (by decide)

theorem on_eq_of_fld {t : State} {a : Nat} {f : Fld} {w : Word} (hb : f.hi = f.lo) (h : t.fld a f = getF w f) :
    t.on a f = (getF w f == 1) := by
  have hlt := getF_lt w f
  rw [hb, Nat.add_sub_cancel_left] at hlt
  rw [State.on, h]
  generalize getF w f = x at hlt ⊢
  interval_cases x <;> rfl

/-! ### The check record -/

theorem onlyRegs_note (s : State) (l : List Nat) (a : Nat) (f : Fld) (x : Nat) : OnlyRegs l s (s.note a f x) := ⟨fun _ _ => rfl, rfl⟩

theorem State.reg_note (s : State) (a : Nat) (f : Fld) (x b : Nat) : (s.note a f x).reg b = s.reg b := rfl

theorem State.celChk_onlyRegs (s : State) (t kind cause index : Nat) : OnlyRegs [A.celChk t] s (s.celChk t kind cause index) := by
  unfold State.celChk
  split
  · exact onlyRegs_refl _ s
  · exact onlyRegs_trans (onlyRegs_setReg s _ _ _ (List.mem_singleton_self _)) (onlyRegs_note _ _ _ _ _)

theorem State.reg_celChk_ne (s : State) (t kind cause index : Nat) {b : Nat} (h : b ≠ A.celChk t) :
    (s.celChk t kind cause index).reg b = s.reg b := (s.celChk_onlyRegs t kind cause index).1 b (by simpa using h)

theorem celChkWord_fields (kind cause index : Nat) (hk : kind < 2) (hc : cause < 16) (hi : index < 4096) :
    getF (BitVec.ofNat 32 (2 ^ 31 + kind * 2 ^ 30 + cause * 2 ^ 16 + index)) F.celChk.valid = 1 ∧
      getF (BitVec.ofNat 32 (2 ^ 31 + kind * 2 ^ 30 + cause * 2 ^ 16 + index)) F.celChk.kind = kind ∧
      getF (BitVec.ofNat 32 (2 ^ 31 + kind * 2 ^ 30 + cause * 2 ^ 16 + index)) F.celChk.cause = cause ∧
      getF (BitVec.ofNat 32 (2 ^ 31 + kind * 2 ^ 30 + cause * 2 ^ 16 + index)) F.celChk.index = index := by
  simp only [getF, F.celChk.valid, F.celChk.kind, F.celChk.cause, F.celChk.index, BitVec.toNat_ofNat]
  norm_num
  omega

/-- The first failed check is recorded. -/
theorem State.celChk_fields (s : State) (t kind cause index : Nat) (h : s.on (A.celChk t) F.celChk.valid = false) (hk : kind < 2)
    (hc : cause < 16) (hi : index < 4096) :
    (s.celChk t kind cause index).fld (A.celChk t) F.celChk.valid = 1 ∧
      (s.celChk t kind cause index).fld (A.celChk t) F.celChk.kind = kind ∧
      (s.celChk t kind cause index).fld (A.celChk t) F.celChk.cause = cause ∧
      (s.celChk t kind cause index).fld (A.celChk t) F.celChk.index = index := by
  have hreg : (s.celChk t kind cause index).reg (A.celChk t) = BitVec.ofNat 32 (2 ^ 31 + kind * 2 ^ 30 + cause * 2 ^ 16 + index) := by
    unfold State.celChk
    rw [if_neg (by simp [h]), State.reg_note, State.reg_setReg_same]
  simp only [State.fld, hreg]
  exact celChkWord_fields kind cause index hk hc hi

/-! ### Segments -/

theorem findReg_segLo (i : Tile) (n : Nat) (h : n < 4096) : findReg (A.segLo i n) = some (spec_segLo, [i.val, n]) := by
  have hfound := findReg_of_mapped spec_segLo [i.val, n] (by decide +kernel) (by simp [idxFits, spec_segLo, h])
  have haddr : spec_segLo.base + idxOffset spec_segLo.dims [i.val, n] = A.segLo i n := by
    simp only [spec_segLo, idxOffset, A.segLo]
    omega
  rwa [haddr] at hfound

/-- A key that reads as no unlisted key does is listed. -/
theorem KMap.mem_of_get_ne {α : Type} (d : α) (m : KMap α) (k : Nat) (h : KMap.get d m k ≠ d) : ∃ v, (k, v) ∈ m := by
  induction m with
  | nil => exact absurd rfl h
  | cons e m ih =>
    obtain ⟨a, v⟩ := e
    unfold KMap.get at h
    split at h
    · next ha => exact ⟨v, ha ▸ List.mem_cons_self⟩
    · obtain ⟨x, hx⟩ := ih h
      exact ⟨x, List.mem_cons_of_mem _ hx⟩

theorem State.lt_of_mem_segsListed (s : State) (t n : Nat) (h : n ∈ s.segsListed t) : n < 4096 := by
  unfold State.segsListed at h
  obtain ⟨e, -, he⟩ := List.mem_filterMap.1 h
  split at he
  · next hrange =>
    obtain ⟨hlo, hhi, -⟩ := hrange
    obtain rfl := Option.some.inj he
    simp only [A.segLo] at hlo hhi ⊢
    omega
  · simp at he

/-- A valid segment is listed: an entry that is not listed holds its reset value. -/
theorem State.mem_segsListed (s : State) (i : Tile) (n : Nat) (h : n < 4096) (hv : s.segValid i n = true) : n ∈ s.segsListed i := by
  have hreset : getF (regReset (A.segLo i n)) F.segLo.valid = 0 := by
    have hconst : Reg.segLo.resetConst = 0 := rfl
    have hby : resetBy .segLo [i.val, n] = 0 := rfl
    simp only [regReset, findReg_segLo i n h, spec_segLo, hconst, hby]
    rfl
  have hget : KMap.get (regReset (A.segLo i n)) s.regs (A.segLo i n) ≠ regReset (A.segLo i n) := by
    intro he
    have hfld : s.fld (A.segLo i n) F.segLo.valid = 0 := by rw [State.fld, State.reg, he, hreset]
    simp [State.segValid, State.on, hfld] at hv
  obtain ⟨v, hmem⟩ := KMap.mem_of_get_ne _ _ _ hget
  refine List.mem_filterMap.2 ⟨_, hmem, ?_⟩
  have hrange : A.segLo i 0 ≤ A.segLo i n ∧ A.segLo i n < A.segLo i 4096 ∧ (A.segLo i n - A.segLo i 0) % 8 = 0 := by
    simp only [A.segLo]; omega
  have hindex : (A.segLo i n - A.segLo i 0) / 8 = n := by simp only [A.segLo]; omega
  rw [if_pos hrange, hindex]

/-- Segment `n` is valid and decanted and names descriptor `d`. -/
def State.segUses (s : State) (t d n : Nat) : Bool := s.segValid t n && s.segDecant t n && s.segDesc t n == d

theorem State.segOfDesc_isSome (s : State) (i : Tile) (d : Nat) (but : Option Nat) :
    (s.segOfDesc i d but).isSome = true ↔ ∃ n < 4096, s.segUses i d n = true ∧ some n ≠ but := by
  unfold State.segOfDesc
  rw [List.find?_isSome]
  constructor
  · rintro ⟨n, hn, hp⟩
    exact ⟨n, s.lt_of_mem_segsListed _ _ hn, by simpa [State.segUses] using hp⟩
  · rintro ⟨n, hn, hu, hb⟩
    refine ⟨n, s.mem_segsListed i n hn ?_, Bool.and_eq_true_iff.2 ⟨hu, by simpa using hb⟩⟩
    simp only [State.segUses, Bool.and_eq_true] at hu
    exact hu.1.1

/-- The check of an entry does not ask for its own VALID, nor for any register but those of the cellar's tables. -/
theorem State.segCause_congr {s t : State} (i : Tile) (n : Nat) (hpart : t.segPart i n = s.segPart i n)
    (hstart : t.segStart i n = s.segStart i n) (hdecant : t.segDecant i n = s.segDecant i n)
    (hhi : ∀ m < 4096, t.reg (A.segHi i m) = s.reg (A.segHi i m)) (hn : n < 4096)
    (hlo : ∀ m < 4096, m ≠ n → t.reg (A.segLo i m) = s.reg (A.segLo i m)) (hcp : ∀ j < 32, t.reg (A.cp i j) = s.reg (A.cp i j)) :
    t.segCause i n = s.segCause i n := by
  have hlen : t.segLen i n = s.segLen i n := congrArg (getF · _) (hhi n hn)
  have hdesc : t.segDesc i n = s.segDesc i n := congrArg (getF · _) (hhi n hn)
  have hlt : s.segPart i n < 32 := getF_lt _ F.segLo.part
  have hfld (g : Fld) : t.fld (A.cp i (s.segPart i n)) g = s.fld (A.cp i (s.segPart i n)) g := congrArg (getF · g) (hcp _ hlt)
  have huses (m : Nat) (hm : m < 4096) (hne : m ≠ n) (d : Nat) : t.segUses i d m = s.segUses i d m := by
    simp [State.segUses, State.segValid, State.segDecant, State.segDesc, State.on, State.fld, hlo m hm hne, hhi m hm]
  have hbusy (d : Nat) : (t.segOfDesc i d (some n)).isSome = (s.segOfDesc i d (some n)).isSome := by
    rw [Bool.eq_iff_iff, State.segOfDesc_isSome, State.segOfDesc_isSome]
    refine exists_congr fun m => and_congr_right fun hm => and_congr_left fun hne => ?_
    rw [huses m hm fun e => hne (congrArg some e)]
  have hin (len : Nat) : t.inPart i (s.segPart i n) (s.segStart i n) len = s.inPart i (s.segPart i n) (s.segStart i n) len := by
    simp only [State.inPart, hfld]
  simp only [State.segCause, hlen, hpart, hstart, hdecant, hdesc, hbusy, hin, State.on, hfld]
  rfl

end Sys2Proof.Machine
end

section
/-! ## The tables of the cellar and of the flux outputs, entry by entry (R129–R133, R148, R164, R167, R350) -/

namespace Sys2Proof.Machine

open Sys2Proof.Safety

/-! ### Segment entries -/

theorem segLo_ne (i : Nat) {m n : Nat} (h : m ≠ n) : A.segLo i m ≠ A.segLo i n := by simp only [A.segLo]; omega

theorem segHi_ne_segLo (i m n : Nat) : A.segHi i m ≠ A.segLo i n := by simp only [A.segHi, A.segLo]; omega

theorem segLo_ne_celChk (i n : Nat) : A.segLo i n ≠ A.celChk i := by simp only [A.segLo, A.celChk]; omega

theorem segHi_ne_celChk (i n : Nat) : A.segHi i n ≠ A.celChk i := by simp only [A.segHi, A.celChk]; omega

theorem cp_ne_celChk (i : Nat) {j : Nat} (h : j < 32) : A.cp i j ≠ A.celChk i := by simp only [A.cp, A.celChk]; omega

theorem cp_ne_segLo (i n : Nat) {j : Nat} (h : j < 32) : A.cp i j ≠ A.segLo i n := by simp only [A.cp, A.segLo]; omega

/-- An entry as its check leaves it: `s` with the check done where the entry is valid as written (R132). -/
def State.segChecked (s : State) (i n : Nat) : State := if s.segValid i n then s.segCheck i n else s

theorem State.segChecked_onlyRegs (s : State) (i n : Nat) : OnlyRegs [A.segLo i n, A.celChk i] s (s.segChecked i n) := by
  unfold State.segChecked State.segCheck
  split
  · split
    · exact onlyRegs_refl _ s
    · exact onlyRegs_trans (onlyRegs_setFld s _ _ _ _ (by simp))
        (onlyRegs_mono (State.celChk_onlyRegs _ _ _ _ _) (by simp))
  · exact onlyRegs_refl _ s

/-- The fields of an entry's first word but VALID. -/
theorem State.fld_segChecked (s : State) (i n : Nat) (g : Fld) (h : g.hi < F.segLo.valid.lo) :
    (s.segChecked i n).fld (A.segLo i n) g = s.fld (A.segLo i n) g := by
  unfold State.segChecked State.segCheck
  split
  · split
    · rfl
    · rw [State.fld, State.reg_celChk_ne _ _ _ _ _ (segLo_ne_celChk i n)]
      exact State.fld_setFld_disjoint _ _ _ _ _ (by decide) (.inr h)
  · rfl

theorem State.segCause_segChecked (s : State) (i : Tile) (n : Nat) (hn : n < 4096) : (s.segChecked i n).segCause i n = s.segCause i n := by
  obtain ⟨hsame, -⟩ := s.segChecked_onlyRegs i n
  refine State.segCause_congr i n (s.fld_segChecked i n _ (by decide)) (s.fld_segChecked i n _ (by decide)) ?_
    (fun m _ => hsame _ ?_) hn (fun m _ hm => hsame _ ?_) (fun j hj => hsame _ ?_)
  · rw [State.segDecant, State.segDecant, State.on, State.on, s.fld_segChecked i n _ (by decide)]
  · simp [segHi_ne_segLo, segHi_ne_celChk]
  · simp [segLo_ne i hm, segLo_ne_celChk]
  · simp [cp_ne_segLo i n hj, cp_ne_celChk i hj]

/-- VALID holds only where the entry passes its check. -/
theorem State.segValid_segChecked (s : State) (i : Tile) (n : Nat) (hn : n < 4096) :
    (s.segChecked i n).segValid i n = (s.segValid i n && (s.segChecked i n).segCause i n == 0) := by
  rw [s.segCause_segChecked i n hn]
  unfold State.segChecked State.segCheck
  cases hv : s.segValid i n with
  | false => simpa using hv
  | true =>
    by_cases hc : s.segCause i n = 0
    · simp [hc, hv]
    · rw [if_pos rfl, if_neg hc, State.segValid, State.on, State.fld, State.reg_celChk_ne _ _ _ _ _ (segLo_ne_celChk i n), ← State.fld,
        State.fld_setFld_same _ _ _ _ (by decide)]
      simp [hc]

theorem hostWrite_writeSeg_lo (s : State) (i n : Nat) (w : Word) (h : HostOpen s (A.segLo i n)) (hi : s.tileIdle i = true) :
    State.hostWrite (s.writeSeg .host i n false w) (A.segLo i n) =
      (s.setReg (A.segLo i n) (s.hostMerged spec_segLo (A.segLo i n) w)).segChecked i n :=
  s.hostWrite_eff spec_segLo _ w _ _ _ h (s.busyTile_of_idle _ _ hi) (.inr rfl)

theorem hostWrite_writeSeg_hi (s : State) (i n : Nat) (w : Word) (h : HostOpen s (A.segHi i n)) (hi : s.tileIdle i = true) :
    State.hostWrite (s.writeSeg .host i n true w) (A.segHi i n) =
      (s.setReg (A.segHi i n) (s.hostMerged spec_segHi (A.segHi i n) w)).segChecked i n :=
  s.hostWrite_eff spec_segHi _ w _ _ _ h (s.busyTile_of_idle _ _ hi) (.inr rfl)

/-- A field that is read and written, of a register that has taken a write unlocked. -/
theorem fld_of_takes {r : RegSpec} {a : Nat} {w : Word} {s t : State} (h : Takes r a w s t) (f : FieldSpec) (hf : f ∈ r.fields)
    (ha : f.acc = .rw) (hl : s.isSealed = false ∨ f.lk = false) : t.fld a f.fld = getF w f.fld := by
  have hfld := h f hf
  rw [ha] at hfld
  refine hfld.trans (if_neg fun hlocked => ?_)
  obtain ⟨hs, hk⟩ := hlocked
  rcases hl with hl | hl
  · simp [hl] at hs
  · simp [hl] at hk

theorem completes_segLoWrite (s : State) (i : Tile) (n : Fin 4096) (w : Word) (h : HostOpen s (A.segLo i n)) (hi : s.tileIdle i = true) :
    Completes (.segEntryWrite i n false w) s fun t =>
      t.segValid i n = (getF w F.segLo.valid == 1 && t.segCause i n == 0) ∧
      t.segDecant i n = (getF w F.segLo.decant == 1) ∧ t.segPart i n = getF w F.segLo.part ∧
      t.segStart i n = getF w F.segLo.startG ∧ OnlyRegs [A.segLo i n, A.celChk i] s t := by
  refine completes_of_exec (congrArg Host.Outcome.next (hostWrite_writeSeg_lo s i n w h hi)) ?_
  generalize hu : s.setReg (A.segLo i n) (s.hostMerged spec_segLo (A.segLo i n) w) = u
  have htakes : Takes spec_segLo (A.segLo i n) w s u := State.takes_of_reg (by decide) (by rw [← hu, State.reg_setReg_same])
  have hfld (f : FieldSpec) (hf : f ∈ spec_segLo.fields) (ha : f.acc = .rw) (hk : f.lk = false) := fld_of_takes htakes f hf ha (.inr hk)
  have honly : OnlyRegs [A.segLo i n, A.celChk i] s u := hu ▸ onlyRegs_setReg s _ _ _ (by simp)
  refine ⟨?_, ?_, ?_, ?_, onlyRegs_trans honly (u.segChecked_onlyRegs i n)⟩
  · rw [u.segValid_segChecked i n n.isLt]
    congr 1
    exact on_eq_of_fld rfl (hfld ⟨⟨31, 31⟩, .rw, false⟩ (by decide) rfl rfl)
  · exact on_eq_of_fld rfl ((u.fld_segChecked i n _ (by decide)).trans (hfld ⟨⟨30, 30⟩, .rw, false⟩ (by decide) rfl rfl))
  · exact (u.fld_segChecked i n _ (by decide)).trans (hfld ⟨⟨28, 24⟩, .rw, false⟩ (by decide) rfl rfl)
  · exact (u.fld_segChecked i n _ (by decide)).trans (hfld ⟨⟨14, 0⟩, .rw, false⟩ (by decide) rfl rfl)

theorem completes_segHiWrite (s : State) (i : Tile) (n : Fin 4096) (w : Word) (h : HostOpen s (A.segHi i n)) (hi : s.tileIdle i = true) :
    Completes (.segEntryWrite i n true w) s fun t =>
      t.segLen i n = getF w F.segHi.lenG ∧ t.segDesc i n = getF w F.segHi.desc ∧
      t.segValid i n = (s.segValid i n && t.segCause i n == 0) ∧
      OnlyRegs [A.segHi i n, A.segLo i n, A.celChk i] s t := by
  refine completes_of_exec (congrArg Host.Outcome.next (hostWrite_writeSeg_hi s i n w h hi)) ?_
  generalize hu : s.setReg (A.segHi i n) (s.hostMerged spec_segHi (A.segHi i n) w) = u
  have htakes : Takes spec_segHi (A.segHi i n) w s u := State.takes_of_reg (by decide) (by rw [← hu, State.reg_setReg_same])
  have hfld (f : FieldSpec) (hf : f ∈ spec_segHi.fields) (ha : f.acc = .rw) (hk : f.lk = false) := fld_of_takes htakes f hf ha (.inr hk)
  have honly : OnlyRegs [A.segHi i n, A.segLo i n, A.celChk i] s u := hu ▸ onlyRegs_setReg s _ _ _ (by simp)
  have hchecked := u.segChecked_onlyRegs i n
  have hsame (g : Fld) : (u.segChecked i n).fld (A.segHi i n) g = u.fld (A.segHi i n) g :=
    congrArg (getF · g) (hchecked.1 _ (by simp [segHi_ne_segLo, segHi_ne_celChk]))
  refine ⟨?_, ?_, ?_, onlyRegs_trans honly (onlyRegs_mono hchecked (by simp))⟩
  · exact (hsame _).trans (hfld ⟨⟨12, 0⟩, .rw, false⟩ (by decide) rfl rfl)
  · exact (hsame _).trans (hfld ⟨⟨19, 16⟩, .rw, false⟩ (by decide) rfl rfl)
  · have hv : u.segValid i n = s.segValid i n := by
      rw [State.segValid, State.segValid, State.on, State.on, State.fld, State.fld, ← hu,
        State.reg_setReg_ne _ _ (segHi_ne_segLo i n n).symm]
    rw [u.segValid_segChecked i n n.isLt, hv]

theorem completes_segEntryWrite (s : State) (i : Tile) (n : Fin 4096) (w : Word) :
    (HostOpen s (A.segLo i n) → s.tileIdle i = false →
      Completes (.segEntryWrite i n false w) s fun t => Refused 2 0 (A.segLo i n) s t) ∧
    (HostOpen s (A.segLo i n) → s.tileIdle i = true →
      Completes (.segEntryWrite i n false w) s fun t =>
        t.segValid i n = (getF w F.segLo.valid == 1 && t.segCause i n == 0) ∧
        t.segDecant i n = (getF w F.segLo.decant == 1) ∧ t.segPart i n = getF w F.segLo.part ∧
        t.segStart i n = getF w F.segLo.startG ∧ OnlyRegs [A.segLo i n, A.celChk i] s t) ∧
    (HostOpen s (A.segHi i n) → s.tileIdle i = true →
      Completes (.segEntryWrite i n true w) s fun t =>
        t.segLen i n = getF w F.segHi.lenG ∧ t.segDesc i n = getF w F.segHi.desc ∧
        t.segValid i n = (s.segValid i n && t.segCause i n == 0) ∧
        OnlyRegs [A.segHi i n, A.segLo i n, A.celChk i] s t) :=
  ⟨fun h hi => completes_of_exec rfl (s.hostWrite_busy _ _ _ _ i h hi), completes_segLoWrite s i n w, completes_segHiWrite s i n w⟩

/-! ### Partitions -/

/-- VALID of entry `n` is cleared where it names partition `j` (R130). -/
def State.dropSeg (s : State) (i j n : Nat) : State :=
  if s.segPart i n = j then s.setFld (A.segLo i n) F.segLo.valid 0 else s

theorem State.dropSegs_eq (s : State) (i j : Nat) : s.dropSegs i j = (s.segsListed i).foldl (fun s n => s.dropSeg i j n) s := rfl

theorem State.segPart_dropSeg (s : State) (i j m n : Nat) : (s.dropSeg i j m).segPart i n = s.segPart i n := by
  unfold State.dropSeg
  split
  · by_cases h : n = m
    · subst h
      exact State.fld_setFld_disjoint _ _ _ _ _ (by decide) (by decide)
    · exact State.fld_setFld_ne _ _ _ _ (segLo_ne i h)
  · rfl

theorem State.segValid_dropSeg (s : State) (i j m n : Nat) :
    (s.dropSeg i j m).segValid i n = (s.segValid i n && !(n == m && s.segPart i n == j)) := by
  unfold State.dropSeg
  by_cases h : n = m
  · subst h
    split
    · next hp =>
      rw [State.segValid, State.on, State.fld_setFld_same _ _ _ _ (by decide)]
      simp [hp]
    · next hp => simp [hp]
  · have hne : (n == m) = false := by simpa using h
    rw [hne]
    split
    · rw [State.segValid, State.on, State.fld_setFld_ne _ _ _ _ (segLo_ne i h), ← State.on, ← State.segValid]
      simp
    · simp

theorem regsFrame_trans {s t u : State} (h : t = { s with regs := t.regs, tie := t.tie }) (k : u = { t with regs := u.regs, tie := u.tie }) :
    u = { s with regs := u.regs, tie := u.tie } := by rw [k, h]

theorem regsFrame_of_regs {s t : State} (h : t = { s with regs := t.regs }) : t = { s with regs := t.regs, tie := t.tie } := by rw [h]

theorem State.dropSeg_frame (s : State) (i j m : Nat) :
    s.dropSeg i j m = { s with regs := (s.dropSeg i j m).regs } ∧
      ∀ a, (∀ n, a ≠ A.segLo i n) → (s.dropSeg i j m).reg a = s.reg a := by
  unfold State.dropSeg
  split
  · exact ⟨rfl, fun a ha => State.reg_setFld_ne _ _ _ (ha m)⟩
  · exact ⟨rfl, fun _ _ => rfl⟩

theorem State.foldl_dropSeg_spec (s : State) (i j : Nat) (l : List Nat) :
    (∀ n, (l.foldl (fun s n => s.dropSeg i j n) s).segValid i n = (s.segValid i n && !(l.contains n && s.segPart i n == j))) ∧
      l.foldl (fun s n => s.dropSeg i j n) s = { s with regs := (l.foldl (fun s n => s.dropSeg i j n) s).regs } ∧
      ∀ a, (∀ n, a ≠ A.segLo i n) → (l.foldl (fun s n => s.dropSeg i j n) s).reg a = s.reg a := by
  induction l generalizing s with
  | nil => exact ⟨fun n => by simp, rfl, fun _ _ => rfl⟩
  | cons m l ih =>
    obtain ⟨ihvalid, ihframe, ihregs⟩ := ih (s.dropSeg i j m)
    obtain ⟨hframe, hregs⟩ := s.dropSeg_frame i j m
    refine ⟨fun n => ?_, ?_, fun a ha => (ihregs a ha).trans (hregs a ha)⟩
    · rw [List.foldl_cons, ihvalid, s.segValid_dropSeg, s.segPart_dropSeg, List.contains_cons]
      cases s.segValid i n <;> cases n == m <;> cases s.segPart i n == j <;> simp
    · rw [List.foldl_cons]
      exact ihframe.trans (by rw [hframe])

/-- The entries that name the partition are no longer valid, and nothing else changes (R130). -/
theorem State.dropSegs_spec (s : State) (i : Tile) (j : Nat) :
    (∀ n < 4096, (s.dropSegs i j).segValid i n = (s.segValid i n && s.segPart i n != j)) ∧
      s.dropSegs i j = { s with regs := (s.dropSegs i j).regs } ∧
      ∀ a, (∀ n, a ≠ A.segLo i n) → (s.dropSegs i j).reg a = s.reg a := by
  obtain ⟨hvalid, hframe, hregs⟩ := s.foldl_dropSeg_spec i j (s.segsListed i)
  refine ⟨fun n hn => ?_, hframe, hregs⟩
  rw [s.dropSegs_eq, hvalid]
  cases hv : s.segValid i n with
  | false => rfl
  | true =>
    have hlisted : (s.segsListed i).contains n = true := List.contains_iff_mem.2 (s.mem_segsListed i n hn hv)
    rw [hlisted]
    rfl

/-- The check of a partition does not ask for its own VALID, nor for any register but those of the partitions and the placement. -/
theorem State.partCause_congr {s t : State} (i : Nat) (j : Nat) (hown : ∀ g ∈ [F.cp.base, F.cp.banks, F.cp.ownerA, F.cp.ownerB],
    t.fld (A.cp i j) g = s.fld (A.cp i j) g) (hcp : ∀ k < 32, k ≠ j → t.reg (A.cp i k) = s.reg (A.cp i k))
    (hplace : t.reg (A.tilePlaceSts i) = s.reg (A.tilePlaceSts i)) : t.partCause i j = s.partCause i j := by
  simp only [List.forall_mem_cons] at hown
  obtain ⟨hbase, hbanks, hownerA, hownerB, -⟩ := hown
  have hrole (q : Nat) : t.playingRole i q = s.playingRole i q := by
    simp only [State.playingRole, State.effIdx, State.fld, hplace]
    rfl
  have hover : (List.range 32).any (fun k => k != j && t.on (A.cp i k) F.cp.valid &&
        overlap (s.fld (A.cp i j) F.cp.base) (s.fld (A.cp i j) F.cp.banks) (t.fld (A.cp i k) F.cp.base) (t.fld (A.cp i k) F.cp.banks)) =
      (List.range 32).any (fun k => k != j && s.on (A.cp i k) F.cp.valid &&
        overlap (s.fld (A.cp i j) F.cp.base) (s.fld (A.cp i j) F.cp.banks) (s.fld (A.cp i k) F.cp.base) (s.fld (A.cp i k) F.cp.banks)) := by
    rw [Bool.eq_iff_iff, List.any_eq_true, List.any_eq_true]
    refine exists_congr fun k => and_congr_right fun hk => ?_
    by_cases hj : k = j
    · simp [hj]
    · simp only [State.on, State.fld, hcp k (List.mem_range.1 hk) hj]
  simp only [State.partCause, hbase, hbanks, hownerA, hownerB, hrole, hover]

theorem State.partCause_lt (s : State) (i j : Nat) : s.partCause i j < 16 := by
  unfold State.partCause
  dsimp only
  split_ifs <;> decide

/-- A partition as its check leaves it (R130). -/
def State.partChecked (s : State) (i j : Nat) : State :=
  if s.on (A.cp i j) F.cp.valid && s.partCause i j != 0 then
    (s.setFld (A.cp i j) F.cp.valid 0).celChk i 1 (s.partCause i j) j
  else s

theorem State.partChecked_onlyRegs (s : State) (i j : Nat) : OnlyRegs [A.cp i j, A.celChk i] s (s.partChecked i j) := by
  unfold State.partChecked
  split
  · exact onlyRegs_trans (onlyRegs_setFld s _ _ _ _ (by simp)) (onlyRegs_mono (State.celChk_onlyRegs _ _ _ _ _) (by simp))
  · exact onlyRegs_refl _ s

theorem State.fld_partChecked (s : State) (i : Nat) (j : Fin 32) (g : Fld) (h : g.hi < F.cp.valid.lo) :
    (s.partChecked i j).fld (A.cp i j) g = s.fld (A.cp i j) g := by
  unfold State.partChecked
  split
  · rw [State.fld, State.reg_celChk_ne _ _ _ _ _ (cp_ne_celChk i j.isLt)]
    exact State.fld_setFld_disjoint _ _ _ _ _ (by decide) (.inr h)
  · rfl

theorem State.partCause_partChecked (s : State) (i : Nat) (j : Fin 32) : (s.partChecked i j).partCause i j = s.partCause i j := by
  obtain ⟨hsame, -⟩ := s.partChecked_onlyRegs i j
  refine State.partCause_congr i j (fun g hg => s.fld_partChecked i j g ?_) (fun k hk hj => hsame _ ?_) (hsame _ ?_)
  · revert g; decide
  · have hcp : A.cp i k ≠ A.cp i j := by simp only [A.cp]; omega
    simp [hcp, cp_ne_celChk i hk]
  · have hcp : A.tilePlaceSts i ≠ A.cp i j := by simp only [A.tilePlaceSts, A.cp]; omega
    have hchk : A.tilePlaceSts i ≠ A.celChk i := by simp only [A.tilePlaceSts, A.celChk]; omega
    simp [hcp, hchk]

/-- VALID holds only where the partition passes its check. -/
theorem State.cpValid_partChecked (s : State) (i : Nat) (j : Fin 32) : (s.partChecked i j).on (A.cp i j) F.cp.valid =
    (s.on (A.cp i j) F.cp.valid && (s.partChecked i j).partCause i j == 0) := by
  rw [s.partCause_partChecked]
  unfold State.partChecked
  cases hv : s.on (A.cp i j) F.cp.valid with
  | false => simpa using hv
  | true =>
    by_cases hc : s.partCause i j = 0
    · simp [hc, hv]
    · rw [if_pos (by simpa using hc), State.on, State.fld, State.reg_celChk_ne _ _ _ _ _ (cp_ne_celChk i j.isLt), ← State.fld,
        State.fld_setFld_same _ _ _ _ (by decide)]
      simp [hc]

/-- The first partition that fails its check is recorded. -/
theorem State.celChk_partChecked (s : State) (i : Nat) (j : Fin 32) (hv : s.on (A.cp i j) F.cp.valid = true)
    (hc : s.partCause i j ≠ 0) (hk : s.on (A.celChk i) F.celChk.valid = false) :
    (s.partChecked i j).fld (A.celChk i) F.celChk.valid = 1 ∧ (s.partChecked i j).fld (A.celChk i) F.celChk.kind = 1 ∧
      (s.partChecked i j).fld (A.celChk i) F.celChk.cause = s.partCause i j ∧
      (s.partChecked i j).fld (A.celChk i) F.celChk.index = j := by
  have hfree : (s.setFld (A.cp i j) F.cp.valid 0).on (A.celChk i) F.celChk.valid = false := by
    rw [State.on, State.fld_setFld_ne _ _ _ _ (cp_ne_celChk i j.isLt).symm]
    exact hk
  have hfields := (s.setFld (A.cp i j) F.cp.valid 0).celChk_fields i 1 (s.partCause i j) j hfree (by decide) (s.partCause_lt i j) (by omega)
  unfold State.partChecked
  rwa [if_pos (by simpa [hv] using hc)]

theorem State.writeCp_unlocked (s : State) (src : Req) (i j : Nat) (w : Word) (h : s.locked src = false) : s.writeCp src i j w =
    s.write src spec_cp (A.cp i j) w (s.busyTile src i) fun s1 => (s1.dropSegs i j).partChecked i j := by
  unfold State.writeCp
  rw [h]
  rfl

theorem hostWrite_writeCp (s : State) (i : Nat) (j : Fin 32) (w : Word) (h : HostOpen s (A.cp i j)) (hi : s.tileIdle i = true)
    (hs : s.isSealed = false) : State.hostWrite (s.writeCp .host i j w) (A.cp i j) =
      ((s.setReg (A.cp i j) (s.hostMerged spec_cp (A.cp i j) w)).dropSegs i j).partChecked i j := by
  rw [s.writeCp_unlocked _ _ _ _ (by rw [s.locked_host, hs]),
    s.hostWrite_eff spec_cp _ w _ _ _ h (s.busyTile_of_idle _ _ hi) (.inl hs)]

theorem completes_partitionWrite_busy (s : State) (i : Tile) (j : Fin 32) (w : Word) (h : HostOpen s (A.cp i j))
    (hi : s.tileIdle i = false) : Completes (.partitionWrite i j w) s fun t => Refused 2 0 (A.cp i j) s t := by
  refine completes_of_exec (exec_partitionWrite i j w s) ?_
  unfold State.writeCp
  exact s.hostWrite_busy _ _ _ _ i h hi

theorem completes_partitionWrite_taken (s : State) (i : Tile) (j : Fin 32) (w : Word) (h : HostOpen s (A.cp i j))
    (hi : s.tileIdle i = true) (hs : s.isSealed = false) :
      Completes (.partitionWrite i j w) s fun t =>
        t.on (A.cp i j) F.cp.valid = (getF w F.cp.valid == 1 && t.partCause i j == 0) ∧
        t.fld (A.cp i j) F.cp.base = getF w F.cp.base ∧ t.fld (A.cp i j) F.cp.banks = getF w F.cp.banks ∧
        t.fld (A.cp i j) F.cp.ownerA = getF w F.cp.ownerA ∧ t.fld (A.cp i j) F.cp.ownerB = getF w F.cp.ownerB ∧
        (∀ n, n < 4096 → t.segValid i n = (s.segValid i n && s.segPart i n != j)) ∧
        (getF w F.cp.valid = 1 → t.partCause i j ≠ 0 → s.on (A.celChk i) F.celChk.valid = false →
          t.fld (A.celChk i) F.celChk.valid = 1 ∧ t.fld (A.celChk i) F.celChk.kind = 1 ∧
          t.fld (A.celChk i) F.celChk.cause = t.partCause i j ∧ t.fld (A.celChk i) F.celChk.index = j) ∧
        t = { s with regs := t.regs, tie := t.tie } := by
  refine completes_of_exec (congrArg Host.Outcome.next (hostWrite_writeCp s i j w h hi hs)) ?_
  generalize hu : s.setReg (A.cp i j) (s.hostMerged spec_cp (A.cp i j) w) = u
  have htakes : Takes spec_cp (A.cp i j) w s u := State.takes_of_reg (by decide) (by rw [← hu, State.reg_setReg_same])
  have honly : OnlyRegs [A.cp i j] s u := hu ▸ onlyRegs_setReg s _ _ _ (by simp)
  obtain ⟨hvalid, hframe, hregs⟩ := u.dropSegs_spec i j
  generalize u.dropSegs i j = v at hvalid hframe hregs ⊢
  have hcp (g : Fld) : v.fld (A.cp i j) g = u.fld (A.cp i j) g := congrArg (getF · g) (hregs _ fun n => cp_ne_segLo i n j.isLt)
  have hfld (f : FieldSpec) (hf : f ∈ spec_cp.fields) (ha : f.acc = .rw) : v.fld (A.cp i j) f.fld = getF w f.fld :=
    (hcp _).trans (fld_of_takes htakes f hf ha (.inl hs))
  have hlow (f : FieldSpec) (hf : f ∈ spec_cp.fields) (ha : f.acc = .rw) (hb : f.fld.hi < 31) :
      (v.partChecked i j).fld (A.cp i j) f.fld = getF w f.fld := (v.fld_partChecked i j _ hb).trans (hfld f hf ha)
  have hwritten : v.on (A.cp i j) F.cp.valid = (getF w F.cp.valid == 1) :=
    on_eq_of_fld rfl (hfld ⟨⟨31, 31⟩, .rw, true⟩ (by decide) rfl)
  have hseg (n : Nat) (g : Fld) : u.fld (A.segLo i n) g = s.fld (A.segLo i n) g :=
    congrArg (getF · g) (honly.1 _ (by simp [(cp_ne_segLo i n j.isLt).symm]))
  have hchecked := v.partChecked_onlyRegs i j
  refine ⟨?_, hlow ⟨⟨4, 0⟩, .rw, true⟩ (by decide) rfl (by decide), hlow ⟨⟨10, 5⟩, .rw, true⟩ (by decide) rfl (by decide),
    hlow ⟨⟨19, 14⟩, .rw, true⟩ (by decide) rfl (by decide), hlow ⟨⟨25, 20⟩, .rw, true⟩ (by decide) rfl (by decide),
    fun n hn => ?_, fun hw hc hk => ?_, ?_⟩
  · rw [v.cpValid_partChecked, hwritten]
  · have hsame : (v.partChecked i j).segValid i n = v.segValid i n :=
      congrArg (fun x => getF x F.segLo.valid != 0)
        (hchecked.1 _ (by simp [(cp_ne_segLo i n j.isLt).symm, segLo_ne_celChk]))
    rw [hsame, hvalid n hn]
    simp only [State.segValid, State.segPart, State.on, hseg]
  · rw [v.partCause_partChecked] at hc ⊢
    refine v.celChk_partChecked i j (by rw [hwritten, hw]; rfl) hc ?_
    have hchk : v.fld (A.celChk i) F.celChk.valid = s.fld (A.celChk i) F.celChk.valid :=
      congrArg (getF · F.celChk.valid) ((hregs _ fun n => (segLo_ne_celChk i n).symm).trans
        (honly.1 _ (by simp [(cp_ne_celChk i j.isLt).symm])))
    rw [State.on, hchk]
    exact hk
  · exact regsFrame_trans (regsFrame_trans honly.2 (regsFrame_of_regs hframe)) hchecked.2

end Sys2Proof.Machine
end

section
/-! ## Descriptors, marker outputs and flux outputs (R133, R148, R164, R167, R350) -/

namespace Sys2Proof.Machine

open Sys2Proof.Safety

/-! ### Decant descriptors -/

/-- A register of a descriptor that a write replaces: DD_ADDR_LO, DD_ADDR_HI or DD_LEN. -/
def ddReg (which : Fin 3) : RegSpec := if which = 0 then spec_ddAddrLo else if which = 1 then spec_ddAddrHi else spec_ddLen

/-- Its offset. -/
def ddOff (i d : Nat) (which : Fin 3) : Nat :=
  if which = 0 then A.ddAddrLo i d else if which = 1 then A.ddAddrHi i d else A.ddLen i d

theorem State.writeDdDesc_eq (s : State) (src : Req) (i d : Nat) (which : Fin 3) (w : Word) : s.writeDdDesc src i d which w =
    s.write src (ddReg which) (ddOff i d which) w (s.ddDescDeny src i d)
      fun s1 => s1.setReg (A.ddGen i d) (s1.reg (A.ddGen i d) + 1) := by
  fin_cases which <;> rfl

theorem exec_ddDescWrite_eq (s : State) (i : Tile) (d : Fin 16) (which : Fin 3) (w : Word) : exec (.ddDescWrite i d which w) s =
    .next (State.hostWrite (s.write .host (ddReg which) (ddOff i d which) w (s.ddDescDeny .host i d)
      fun s1 => s1.setReg (A.ddGen i d) (s1.reg (A.ddGen i d) + 1)) (ddOff i d which)) := by
  rw [← s.writeDdDesc_eq]
  rfl

theorem ddGen_ne_ddOff (i d : Nat) (hd : d < 16) (which : Fin 3) : A.ddGen i d ≠ ddOff i d which := by
  fin_cases which <;> simp [ddOff, A.ddGen, A.ddAddrLo, A.ddAddrHi, A.ddLen] <;> omega

theorem ddReg_plainWrite : ∀ which, (ddReg which).plainWrite = true ∧ (ddReg which).fields.all (fun f => !f.lk) = true := by decide

theorem completes_ddDescWrite (s : State) (i : Tile) (d : Fin 16) (which : Fin 3) (w : Word) (h : HostOpen s (ddOff i d which)) :
    (s.tileIdle i = false → Completes (.ddDescWrite i d which w) s fun t => Refused 2 0 (ddOff i d which) s t) ∧
    (s.tileIdle i = true → s.reg (A.ddGen i d) = 0xFFFFFFFF →
      Completes (.ddDescWrite i d which w) s fun t => Refused 0 0 (ddOff i d which) s t) ∧
    (s.tileIdle i = true → s.reg (A.ddGen i d) ≠ 0xFFFFFFFF →
      Completes (.ddDescWrite i d which w) s fun t => Takes (ddReg which) (ddOff i d which) w s t ∧
        t.reg (A.ddGen i d) = s.reg (A.ddGen i d) + 1 ∧ OnlyRegs [ddOff i d which, A.ddGen i d] s t) := by
  obtain ⟨hplain, hunlocked⟩ := ddReg_plainWrite which
  have hne := ddGen_ne_ddOff i d d.isLt which
  refine ⟨fun hi => ?_, fun hi hg => ?_, fun hi hg => ?_⟩
  · refine completes_of_exec (exec_ddDescWrite_eq s i d which w) (s.hostWrite_refused _ _ _ _ _ .memBusy h ?_ (by decide))
    simp [State.ddDescDeny, s.busyTile_of_busy _ hi]
  · refine completes_of_exec (exec_ddDescWrite_eq s i d which w) (s.hostWrite_refused _ _ _ _ _ .accessErr h ?_ (by decide))
    simp [State.ddDescDeny, s.busyTile_of_idle _ _ hi, hg]
  · refine completes_of_exec (exec_ddDescWrite_eq s i d which w) ?_
    have hdeny : s.ddDescDeny .host i d = none := by
      rw [State.ddDescDeny, s.busyTile_of_idle _ _ hi]
      exact if_neg (by simpa using hg)
    rw [s.hostWrite_eff _ _ _ _ _ _ h hdeny (.inr hunlocked)]
    refine ⟨State.takes_of_reg hplain ?_, ?_,
      onlyRegs_trans (onlyRegs_setReg s _ _ _ (by simp)) (onlyRegs_setReg _ _ _ _ (by simp))⟩
    · rw [State.reg_setReg_ne _ _ hne.symm, State.reg_setReg_same]
    · rw [State.reg_setReg_same, State.reg_setReg_ne _ _ hne]

/-! ### Marker and output configuration -/

/-- A register that configures an output of the marker stage: VL_CFG or MK_CFG. -/
def markReg (vl : Bool) : RegSpec := if vl then spec_vlCfg else spec_mkCfg

/-- Its offset. -/
def markOff (i m : Nat) (vl : Bool) : Nat := if vl then A.vlCfg i m else A.mkCfg i m

theorem exec_markerCfgWrite_eq (s : State) (i : Tile) (m : Fin 2) (vl : Bool) (w : Word) : exec (.markerCfgWrite i m vl w) s =
    .next (State.hostWrite (s.write .host (markReg vl) (markOff i m vl) w none id) (markOff i m vl)) := by
  cases vl <;> rfl

theorem markReg_plainWrite (vl : Bool) : (markReg vl).plainWrite = true := by revert vl; decide

theorem markOff_gt (i m : Nat) (vl : Bool) : 0x1000000 < markOff i m vl := by
  cases vl <;> simp [markOff, A.vlCfg, A.mkCfg] <;> omega

/-- A write that would change a locked field (R303). -/
theorem lockHit_of_changes (fs : List FieldSpec) (old w : Word) (hrw : ∀ f ∈ fs, f.acc = .rw)
    (h : ∃ f ∈ fs, f.lk = true ∧ getF w f.fld ≠ getF old f.fld) : lockHit fs true old w = true := by
  obtain ⟨f, hf, hlk, hne⟩ := h
  simp only [lockHit, Bool.true_and, List.any_eq_true]
  exact ⟨f, hf, by simpa [hlk, hrw f hf] using Ne.symm hne⟩

theorem markReg_rw (vl : Bool) : ∀ f ∈ (markReg vl).fields, f.acc = .rw := by revert vl; decide

/-- The write is taken, and where it met a lock, it is recorded as an access error. -/
theorem completes_markerCfgWrite (s : State) (i : Tile) (m : Fin 2) (vl : Bool) (w : Word) (h : HostOpen s (markOff i m vl)) :
    Completes (.markerCfgWrite i m vl w) s fun t => Takes (markReg vl) (markOff i m vl) w s t ∧
      (s.isSealed = false → OnlyRegs [markOff i m vl] s t) ∧
      ((∃ f ∈ (markReg vl).fields, f.lk = true ∧ getF w f.fld ≠ s.fld (markOff i m vl) f.fld) → s.isSealed = true →
        t.on A.glbErrSts F.glbErrSts.accessErr = true) := by
  refine completes_of_exec (exec_markerCfgWrite_eq s i m vl w) ?_
  rw [s.write_ok _ _ _ _ _ h, s.locked_host]
  have hgt := markOff_gt i m vl
  generalize markOff i m vl = a at h hgt ⊢
  have htaken : s.setReg a (mergeWord (markReg vl).fields s.isSealed (s.reg a) (s.tied (markReg vl).fields a w)) =
      s.setReg a (s.hostMerged (markReg vl) a w) := by rw [State.hostMerged, s.locked_host]
  rw [htaken]
  generalize hu : s.setReg a (s.hostMerged (markReg vl) a w) = u
  have hreg : u.reg a = s.hostMerged (markReg vl) a w := by rw [← hu, State.reg_setReg_same]
  have honly : OnlyRegs [a] s u := hu ▸ onlyRegs_setReg s _ _ _ (by simp)
  cases hlock : lockHit (markReg vl).fields s.isSealed (s.reg a) w with
  | false =>
    refine ⟨State.takes_of_reg (markReg_plainWrite vl) hreg, fun _ => honly, fun hch hs => ?_⟩
    rw [hs, lockHit_of_changes _ _ _ (markReg_rw vl) hch] at hlock
    exact absurd hlock (by decide)
  | true =>
    have hrecorded : State.hostWrite (id u, if true = true then some Refuse.accessErr else none) a = u.refuseHost .accessErr 0 a := rfl
    rw [hrecorded]
    obtain ⟨honlyErr, herr, -⟩ := u.refuseHost_refused .accessErr 0 a (by decide) (by decide)
    refine ⟨State.takes_of_reg (markReg_plainWrite vl) ?_, fun hs => ?_, fun _ _ => ?_⟩
    · rw [← hreg]
      refine honlyErr.1 a ?_
      simp [A.glbErrSts, A.glbErrAddr]
      omega
    · rw [hs, lockHit_unlocked] at hlock
      exact absurd hlock (by decide)
    · have hbit : getF (BitVec.ofNat 32 (2 ^ Refuse.accessErr.code)) F.glbErrSts.accessErr = 1 := rfl
      rw [State.on, State.fld, herr, getF_or, hbit, bne_iff_ne]
      exact fun h0 => absurd (Nat.or_eq_zero_iff.1 h0).2 (by decide)

/-! ### Flux outputs -/

/-- A register whose write clears the filter's state (R167): a coefficient that cannot be unstable, or the bypass. -/
def clearsFilter (r : RegSpec) : Prop := r = spec_fxCfg ∨ r = spec_fxIirB0 ∨ r = spec_fxIirB1 ∨ r = spec_fxFir

theorem fluxReg_plain (r : RegSpec) (h : clearsFilter r ∨ r = spec_fxIirA1 ∨ r = spec_fxIdle) :
    r.plainWrite = true ∧ r.fields.all (fun f => !f.lk) = true := by
  rcases h with (rfl | rfl | rfl | rfl) | rfl | rfl <;> decide

theorem exec_fluxCoefWrite_eq (s : State) (i : Tile) (f : Fin 14) (off : Nat) (w : Word) (h : off < 0x200) :
    exec (.fluxCoefWrite i f off w) s = .next (State.hostWrite (s.writeFx .host i f off w) (A.fxCfg i f + off)) := by
  rw [exec_fluxCoefWrite]
  exact if_pos h

theorem State.writeFx_filter (s : State) (i f off : Nat) (w : Word) (r : RegSpec) (ix : List Nat)
    (hr : findReg (A.fxCfg i f + off) = some (r, ix)) (hc : clearsFilter r) : s.writeFx .host i f off w =
      s.write .host r (A.fxCfg i f + off) w (s.busyTile .host i) fun s1 => s1.clearFilter i f := by
  unfold State.writeFx
  simp only [hr]
  rcases hc with rfl | rfl | rfl | rfl <;> rfl

theorem State.writeFx_a1 (s : State) (i f off : Nat) (w : Word) (ix : List Nat)
    (hr : findReg (A.fxCfg i f + off) = some (spec_fxIirA1, ix)) : s.writeFx .host i f off w =
      if (s.blockRefuse .host (A.fxCfg i f + off)).isNone && (s.busyTile .host i).isNone && unstableA1 w.toNat then
        (s.raise (A.fxSts i f) F.fxSts.coefRefused 1, none)
      else s.write .host spec_fxIirA1 (A.fxCfg i f + off) w (s.busyTile .host i) fun s1 => s1.clearFilter i f := by
  unfold State.writeFx
  simp only [hr]
  rfl

theorem State.writeFx_idle (s : State) (i f off : Nat) (w : Word) (ix : List Nat)
    (hr : findReg (A.fxCfg i f + off) = some (spec_fxIdle, ix)) : s.writeFx .host i f off w =
      s.write .host spec_fxIdle (A.fxCfg i f + off) w (s.busyTile .host i) id := by
  unfold State.writeFx
  simp only [hr]
  rfl

/-- While the tile is busy, a coefficient is not looked at. -/
theorem State.writeFx_a1_busy (s : State) (i f off : Nat) (w : Word) (ix : List Nat)
    (hr : findReg (A.fxCfg i f + off) = some (spec_fxIirA1, ix)) (hi : s.tileIdle i = false) : s.writeFx .host i f off w =
      s.write .host spec_fxIirA1 (A.fxCfg i f + off) w (s.busyTile .host i) fun s1 => s1.clearFilter i f := by
  rw [s.writeFx_a1 i f off w ix hr, s.busyTile_of_busy i hi]
  exact if_neg (by simp)

theorem unstableA1_iff (v : Nat) : unstableA1 v = true ↔ sext 20 v ≤ -262144 ∨ 262144 ≤ sext 20 v := by
  simp only [unstableA1, Bool.or_eq_true, decide_eq_true_eq]
  norm_num
  exact or_comm

/-- A stable coefficient is written. -/
theorem State.writeFx_a1_stable (s : State) (i f off : Nat) (w : Word) (ix : List Nat)
    (hr : findReg (A.fxCfg i f + off) = some (spec_fxIirA1, ix)) (hlo : -262144 < sext 20 w.toNat) (hhi : sext 20 w.toNat < 262144) :
    s.writeFx .host i f off w =
      s.write .host spec_fxIirA1 (A.fxCfg i f + off) w (s.busyTile .host i) fun s1 => s1.clearFilter i f := by
  have hstable : unstableA1 w.toNat = false := by
    rw [← Bool.not_eq_true, unstableA1_iff]
    omega
  rw [s.writeFx_a1 i f off w ix hr, hstable]
  exact if_neg (by simp)

/-- What a write that clears the filter leaves (R167). -/
theorem State.clearFilter_spec (s : State) (i f : Nat) (r : RegSpec) (a : Nat) (w : Word) (hr : r.plainWrite = true) :
    Takes r a w s ((s.setReg a (s.hostMerged r a w)).clearFilter i f) ∧
      SameRegs [a] s ((s.setReg a (s.hostMerged r a w)).clearFilter i f) ∧
      ((s.setReg a (s.hostMerged r a w)).clearFilter i f).flux i f = { s.flux i f with iir := [], fir := [] } ∧
      (∀ k, k ≠ 14 * i + f → KMap.get {} ((s.setReg a (s.hostMerged r a w)).clearFilter i f).fluxes k = KMap.get {} s.fluxes k) ∧
      (s.setReg a (s.hostMerged r a w)).clearFilter i f = { s with
        regs := ((s.setReg a (s.hostMerged r a w)).clearFilter i f).regs
        tie := ((s.setReg a (s.hostMerged r a w)).clearFilter i f).tie
        fluxes := ((s.setReg a (s.hostMerged r a w)).clearFilter i f).fluxes } := by
  refine ⟨State.takes_of_reg hr (s.reg_setReg_same a _), fun b hb => s.reg_setReg_ne _ (by simpa using hb), ?_,
    fun k hk => KMap.get_set_ne _ _ _ _ hk, rfl⟩
  exact KMap.get_set_same _ _ _ _

theorem completes_fluxCoefWrite (s : State) (i : Tile) (f : Fin 14) (off : Nat) (w : Word) (r : RegSpec) (ix : List Nat)
    (ho : off < 0x200) (hr : findReg (A.fxCfg i f + off) = some (r, ix)) (h : HostOpen s (A.fxCfg i f + off)) :
    (clearsFilter r ∨ r = spec_fxIirA1 ∨ r = spec_fxIdle → s.tileIdle i = false →
      Completes (.fluxCoefWrite i f off w) s fun t => Refused 2 0 (A.fxCfg i f + off) s t) ∧
    (clearsFilter r ∨ (r = spec_fxIirA1 ∧ -262144 < sext 20 w.toNat ∧ sext 20 w.toNat < 262144) → s.tileIdle i = true →
      Completes (.fluxCoefWrite i f off w) s fun t => Takes r (A.fxCfg i f + off) w s t ∧ SameRegs [A.fxCfg i f + off] s t ∧
        t.flux i f = { s.flux i f with iir := [], fir := [] } ∧
        (∀ k, k ≠ 14 * i.val + f.val → KMap.get {} t.fluxes k = KMap.get {} s.fluxes k) ∧
        t = { s with regs := t.regs, tie := t.tie, fluxes := t.fluxes }) ∧
    (r = spec_fxIirA1 → sext 20 w.toNat ≤ -262144 ∨ 262144 ≤ sext 20 w.toNat → s.tileIdle i = true →
      Completes (.fluxCoefWrite i f off w) s fun t => t.fld (A.fxSts i f) F.fxSts.coefRefused = 1 ∧
        OnlyRegs [A.fxSts i f] s t) ∧
    (r = spec_fxIdle → s.tileIdle i = true →
      Completes (.fluxCoefWrite i f off w) s fun t => Takes r (A.fxCfg i f + off) w s t ∧ OnlyRegs [A.fxCfg i f + off] s t) := by
  have hexec := exec_fluxCoefWrite_eq s i f off w ho
  refine ⟨fun hreg hi => completes_of_exec hexec ?_, fun hreg hi => completes_of_exec hexec ?_, fun hreg hbig hi => completes_of_exec hexec ?_,
    fun hreg hi => completes_of_exec hexec ?_⟩
  · rcases hreg with hc | rfl | rfl
    · rw [s.writeFx_filter i f off w r ix hr hc]
      exact s.hostWrite_busy _ _ _ _ i h hi
    · rw [s.writeFx_a1_busy i f off w ix hr hi]
      exact s.hostWrite_busy _ _ _ _ i h hi
    · rw [s.writeFx_idle i f off w ix hr]
      exact s.hostWrite_busy _ _ _ _ i h hi
  · have hwrite : s.writeFx .host i f off w =
        s.write .host r (A.fxCfg i f + off) w (s.busyTile .host i) fun s1 => s1.clearFilter i f := by
      rcases hreg with hc | ⟨rfl, hlo, hhi⟩
      · exact s.writeFx_filter i f off w r ix hr hc
      · exact s.writeFx_a1_stable i f off w ix hr hlo hhi
    obtain ⟨hplain, hunlocked⟩ := fluxReg_plain r (hreg.imp_right fun ⟨hr, _⟩ => .inl hr)
    rw [hwrite, s.hostWrite_eff _ _ _ _ _ _ h (s.busyTile_of_idle _ _ hi) (.inr hunlocked)]
    exact s.clearFilter_spec i f r _ w hplain
  · subst hreg
    have hopen : s.blockRefuse .host (A.fxCfg i f + off) = none := h
    rw [s.writeFx_a1 i f off w ix hr, hopen, s.busyTile_of_idle _ _ hi, (unstableA1_iff _).2 hbig]
    exact ⟨s.fld_raise_bit _ _ (by decide) rfl, onlyRegs_raiseReg s _ _ _ (by simp)⟩
  · subst hreg
    rw [s.writeFx_idle i f off w ix hr, s.hostWrite_eff _ _ _ _ _ _ h (s.busyTile_of_idle _ _ hi) (.inr rfl)]
    exact ⟨State.takes_of_reg (by decide) (s.reg_setReg_same _ _), onlyRegs_setReg s _ _ _ (by simp)⟩

/-- Settles O30: each clause is the rule above of its table. -/
theorem cellarAndFluxTableWrites : Obligations.CellarAndFluxTableWrites := by
  unfold Obligations.CellarAndFluxTableWrites
  exact ⟨⟨fun s i j w h => ⟨completes_partitionWrite_busy s i j w h, completes_partitionWrite_taken s i j w h⟩, completes_segEntryWrite,
    completes_ddDescWrite, completes_markerCfgWrite⟩, completes_fluxCoefWrite⟩

end Sys2Proof.Machine
end

section
/-! ## Messages, responses and NACKs (R363–R368, R378) -/

namespace Sys2Proof.Machine

open Sys2Proof.Safety

/-! ### What a message to the host leaves alone -/

/-- From `s` to `t` plot `p` has told the host something: registers of the list have changed and something may have gone out, but no event
has fired, and neither the memory, Welolyan nor the plot's capsule has changed. -/
structure Tells (l : List Nat) (p : Nat) (s t : State) : Prop where
  regs : SameRegs l s t
  evq : t.evq = s.evq
  mem : t.mem = s.mem
  wl : t.wl = s.wl
  cap : (t.ring p).cap = (s.ring p).cap
  out : ∃ o, t.out = s.out ++ o

theorem Tells.refl (l : List Nat) (p : Nat) (s : State) : Tells l p s s :=
  ⟨sameRegs_refl l s, rfl, rfl, rfl, rfl, [], (List.append_nil _).symm⟩

theorem Tells.trans {l : List Nat} {p : Nat} {s t u : State} (h : Tells l p s t) (k : Tells l p t u) : Tells l p s u := by
  obtain ⟨o, ho⟩ := h.out
  obtain ⟨o', ho'⟩ := k.out
  exact ⟨sameRegs_trans h.regs k.regs, k.evq.trans h.evq, k.mem.trans h.mem, k.wl.trans h.wl, k.cap.trans h.cap,
    o ++ o', by rw [ho', ho, List.append_assoc]⟩

theorem Tells.mono {l m : List Nat} {p : Nat} {s t : State} (h : Tells l p s t) (hl : ∀ a ∈ l, a ∈ m) : Tells m p s t :=
  { h with regs := fun a ha => h.regs a fun hm => ha (hl a hm) }

theorem tells_of_onlyRegs {l : List Nat} {s t : State} (p : Nat) (h : OnlyRegs l s t) : Tells l p s t := by
  obtain ⟨hregs, hframe⟩ := h
  refine ⟨hregs, ?_, ?_, ?_, ?_, [], ?_⟩ <;> rw [hframe]
  · rfl
  · exact (List.append_nil _).symm

theorem tells_setReg (l : List Nat) (p : Nat) (s : State) (a : Nat) (v : Word) (h : a ∈ l) : Tells l p s (s.setReg a v) :=
  tells_of_onlyRegs p (onlyRegs_setReg s l a v h)

theorem tells_raise (l : List Nat) (p : Nat) (s : State) (a : Nat) (f : Fld) (x : Nat) (h : a ∈ l) : Tells l p s (s.raise a f x) :=
  tells_of_onlyRegs p (onlyRegs_raiseReg s l a _ h)

theorem tells_send (l : List Nat) (p : Nat) (s : State) (o : Out) : Tells l p s (s.send o) :=
  ⟨sameRegs_refl l s, rfl, rfl, rfl, rfl, [o], rfl⟩

theorem State.ring_modRing (s : State) (p : Nat) (f : RingX → RingX) : (s.modRing p f).ring p = f (s.ring p) := KMap.get_set_same ..

theorem tells_modRing (l : List Nat) (p : Nat) (s : State) (f : RingX → RingX) (h : (f (s.ring p)).cap = (s.ring p).cap) :
    Tells l p s (s.modRing p f) :=
  ⟨sameRegs_refl l s, rfl, rfl, rfl, by rw [s.ring_modRing, h], [], (List.append_nil _).symm⟩

/-- A message goes out, or its bit is pending. -/
theorem tells_msix (p : Nat) (s : State) (v : Nat) : Tells [A.msixPba (v / 32)] p s (s.msix v) := by
  unfold State.msix
  split
  · exact tells_setReg _ _ _ _ _ (List.mem_singleton_self _)
  · exact tells_send _ _ _ _

theorem tells_plotIrq (p : Nat) (s : State) (q v : Nat) : Tells [A.msixPba (v / 32)] p s (s.plotIrq q v) := by
  unfold State.plotIrq
  split
  · exact tells_msix p s v
  · exact .refl _ _ s

theorem tells_ringIrq (p : Nat) (s : State) (v : Nat) : Tells [A.msixPba (v / 32)] p s (s.ringIrq p v) := by
  unfold State.ringIrq
  dsimp only
  split
  · exact tells_modRing _ p s (fun x => { x with irqWait := x.irqWait ++ [v] }) rfl
  · exact tells_plotIrq p s p v

theorem tells_ringSend (l : List Nat) (p : Nat) (s : State) (ring : Nat) (spans : List (Nat × Nat)) (b : List Byte) :
    Tells l p s (s.ringSend p ring spans b) := by
  induction spans generalizing s b with
  | nil => exact .refl _ _ s
  | cons e spans ih => exact (tells_send l p s _).trans (ih _ _)

/-- The registers that responses of plot `p` change. -/
def flushRegs (p : Nat) : List Nat := [A.rspProd p, A.msixPba 0]

theorem tells_rspFlush (p : Plot) (s : State) (n : Nat) : Tells (flushRegs p) p s (s.rspFlush p n) := by
  have hvec : A.msixPba ((8 + p.val) / 32) = A.msixPba 0 := by congr 1; omega
  induction n generalizing s with
  | zero => exact .refl _ _ s
  | succ n ih =>
    unfold State.rspFlush
    split
    · exact .refl _ _ s
    · next b bs _ =>
      split
      · exact tells_modRing _ p s _ rfl
      · dsimp only
        split
        · exact .refl _ _ s
        · have hprod := tells_setReg (flushRegs p) p s (A.rspProd p) (s.reg (A.rspProd p) + BitVec.ofNat 32 (b.length / 64)) (by simp [flushRegs])
          have hirq (u : State) : Tells (flushRegs p) p u (u.ringIrq p (8 + p)) := (tells_ringIrq p u (8 + p)).mono (by simp [hvec, flushRegs])
          exact (((hprod.trans (tells_ringSend _ _ _ _ _ _)).trans (tells_modRing _ _ _ _ rfl)).trans (hirq _)).trans (ih _)

theorem tells_respond (p : Plot) (s : State) (kind : Nat) (cseq : BitVec 64) (tag : Word) (status op detail : Nat) (data : List Byte) :
    Tells (flushRegs p) p s (s.respond p kind cseq tag status op detail data) := by
  unfold State.respond
  extract_lets body seq k n h b s1
  exact (tells_modRing _ _ s _ rfl).trans (tells_rspFlush p s1 _)

/-- The registers that a bit of PG_ALERT changes. -/
def alertRegs (p : Nat) : List Nat := [A.pgAlert p, A.msixPba 0]

theorem tells_pgAlert (p : Plot) (s : State) (f : Fld) : Tells (alertRegs p) p s (s.pgAlert p f) := by
  have hvec : A.msixPba ((16 + p.val) / 32) = A.msixPba 0 := by congr 1; omega
  unfold State.pgAlert
  split
  · exact .refl _ _ s
  · exact (tells_raise _ _ _ _ _ _ (by simp [alertRegs])).trans ((tells_plotIrq p _ p (16 + p)).mono (by simp [hvec, alertRegs]))

/-- The bit is set. -/
theorem State.on_pgAlert (s : State) (p : Plot) (f : Fld) (h : f.ok) (hb : f.hi = f.lo) : (s.pgAlert p f).on (A.pgAlert p) f = true := by
  unfold State.pgAlert
  split
  · assumption
  · have hpba : A.pgAlert p ∉ [A.msixPba ((16 + p.val) / 32)] := by
      simp only [List.mem_singleton, A.pgAlert, A.msixPba]
      omega
    rw [State.on, State.fld, (tells_plotIrq p _ p (16 + p)).regs _ hpba, ← State.fld, State.fld_raise_bit _ _ _ h hb]
    rfl

/-- Of the state, only registers and what goes out have changed. -/
def OnlyRegsOut (s t : State) : Prop := t = { s with regs := t.regs, tie := t.tie, out := t.out }

theorem OnlyRegsOut.trans {s t u : State} (h : OnlyRegsOut s t) (k : OnlyRegsOut t u) : OnlyRegsOut s u := by
  unfold OnlyRegsOut at *
  rw [k, h]

theorem onlyRegsOut_plotIrq (s : State) (p v : Nat) : OnlyRegsOut s (s.plotIrq p v) := by
  unfold State.plotIrq State.msix
  split
  · split
    · rfl
    · rfl
  · rfl

theorem onlyRegsOut_pgAlert (s : State) (p : Nat) (f : Fld) : OnlyRegsOut s (s.pgAlert p f) := by
  have hraise : OnlyRegsOut s (s.raise (A.pgAlert p) f 1) := rfl
  unfold State.pgAlert
  split
  · rfl
  · exact hraise.trans (onlyRegsOut_plotIrq _ p _)

theorem State.reg_bump (s : State) (a : Nat) : ((s.bump a).reg a).toNat = min ((s.reg a).toNat + 1) 0xFFFFFFFF := by
  unfold State.bump State.bumpBy
  rw [State.reg_setReg_same, BitVec.toNat_ofNat]
  omega

/-! ### NACKs -/

/-- What the registers tell of a refused capsule. -/
def State.nackNoted (s : State) (p status : Nat) : State :=
  ((s.bump (A.capNackCnt p)).setFld (A.cmdSts p) F.cmdSts.nackLast status).pgAlert p F.pgAlert.nack

/-- A failed authentication counts. -/
def State.authFailed (s : State) (p status : Nat) : State := if 4 ≤ status then (s.bump (A.wlAuthFailCnt p)).fire 1373 else s

theorem State.nack_eq (s : State) (p : Nat) (cseq : BitVec 64) (tag : Word) (status : Nat) :
    s.nack p cseq tag status = ((s.nackNoted p status).authFailed p status).respond p 0x82 cseq tag status 0 0 [] := rfl

/-- The registers that tell of a refused capsule. -/
def nackRegs (p : Nat) : List Nat := [A.capNackCnt p, A.cmdSts p, A.pgAlert p, A.msixPba 0]

theorem tells_nackNoted (p : Plot) (s : State) (status : Nat) : Tells (nackRegs p) p s (s.nackNoted p status) :=
  ((tells_setReg _ _ s _ _ (by simp [nackRegs])).trans (tells_setReg _ _ _ _ _ (by simp [nackRegs]))).trans
    ((tells_pgAlert p _ _).mono (by simp [nackRegs, alertRegs]))

theorem cmdSts_not_mem_alertRegs (p : Nat) : A.cmdSts p ∉ alertRegs p := by
  simp [alertRegs, A.cmdSts, A.pgAlert, A.msixPba]
  omega

theorem capNackCnt_not_mem_alertRegs (p : Nat) : A.capNackCnt p ∉ alertRegs p := by
  simp [alertRegs, A.capNackCnt, A.pgAlert, A.msixPba]
  omega

theorem cmdSts_ne_capNackCnt (p : Nat) : A.cmdSts p ≠ A.capNackCnt p := by
  simp only [A.cmdSts, A.capNackCnt]
  omega

theorem State.nackNoted_spec (s : State) (p : Plot) (status : Nat) (h : status < 256) :
    (s.nackNoted p status).fld (A.cmdSts p) F.cmdSts.nackLast = status ∧
      (s.nackNoted p status).fld (A.cmdSts p) F.cmdSts.state = s.fld (A.cmdSts p) F.cmdSts.state ∧
      CountsUp (A.capNackCnt p) 1 s (s.nackNoted p status) ∧ (s.nackNoted p status).on (A.pgAlert p) F.pgAlert.nack = true := by
  have halert (u : State) := (tells_pgAlert p u F.pgAlert.nack).regs
  have hfld (u : State) (g : Fld) : (u.pgAlert p F.pgAlert.nack).fld (A.cmdSts p) g = u.fld (A.cmdSts p) g :=
    congrArg (getF · g) (halert u _ (cmdSts_not_mem_alertRegs p))
  refine ⟨?_, ?_, ?_, State.on_pgAlert _ p _ (by decide) rfl⟩
  · rw [State.nackNoted, hfld, State.fld_setFld_same _ _ _ _ (by decide)]
    exact Nat.mod_eq_of_lt h
  · rw [State.nackNoted, hfld, State.fld_setFld_disjoint _ _ _ _ _ (by decide) (by decide), State.bump, State.bumpBy, State.fld,
      State.reg_setReg_ne _ _ (cmdSts_ne_capNackCnt p), ← State.fld]
  · rw [CountsUp, State.nackNoted, halert _ _ (capNackCnt_not_mem_alertRegs p), State.reg_setFld_ne _ _ _ (cmdSts_ne_capNackCnt p).symm]
    exact s.reg_bump _

theorem State.fire_frame (s : State) (src : Nat) : (s.fire src).mem = s.mem ∧ (s.fire src).wl = s.wl ∧
    (s.fire src).rings = s.rings ∧ (s.fire src).out = s.out := ⟨rfl, rfl, rfl, rfl⟩

theorem State.authFailed_spec (s : State) (p status : Nat) :
    SameRegs [A.wlAuthFailCnt p, A.evfSrcSts 42] s (s.authFailed p status) ∧ (s.authFailed p status).mem = s.mem ∧
      (s.authFailed p status).wl = s.wl ∧ (s.authFailed p status).rings = s.rings ∧ (s.authFailed p status).out = s.out ∧
      (4 ≤ status → CountsUp (A.wlAuthFailCnt p) 1 s (s.authFailed p status) ∧ Fires 1373 s (s.authFailed p status)) ∧
      (status < 4 → (s.authFailed p status).evq = s.evq) := by
  unfold State.authFailed
  split
  · next h4 =>
    obtain ⟨hmem, hwl, hrings, hout⟩ := (s.bump (A.wlAuthFailCnt p)).fire_frame 1373
    have hne : A.wlAuthFailCnt p ≠ A.evfSrcSts (1373 / 32) := by simp only [A.wlAuthFailCnt, A.evfSrcSts]; omega
    refine ⟨fun a ha => ?_, by simp, by simp [hwl], by simp [hrings], by simp [hout], fun _ => ⟨?_, ?_⟩,
      fun h => absurd h (by omega)⟩
    · simp only [List.mem_cons, List.not_mem_nil, or_false, not_or] at ha
      exact (State.reg_fire_ne _ _ ha.2).trans (State.reg_setReg_ne _ _ ha.1)
    · rw [CountsUp, State.reg_fire_ne _ _ hne]
      exact s.reg_bump _
    · rw [Fires, State.fire_evq]
      simp
  · next h4 => exact ⟨sameRegs_refl _ _, rfl, rfl, rfl, rfl, fun h => absurd h h4, fun _ => rfl⟩

/-- The registers that a refused capsule changes. -/
def refuseRegs (p : Nat) : List Nat := nackRegs p ++ [A.wlAuthFailCnt p, A.evfSrcSts 42, A.rspProd p]

/-- The three parts of a NACK: what the registers tell, a failed authentication, the response. -/
theorem State.nack_parts (s : State) (p : Plot) (cseq : BitVec 64) (tag : Word) (status : Nat) :
    ∃ u v, u = s.nackNoted p status ∧ v = u.authFailed p status ∧ Tells (nackRegs p) p s u ∧
      Tells (flushRegs p) p v (s.nack p cseq tag status) :=
  ⟨_, _, rfl, rfl, tells_nackNoted p s status, tells_respond p _ _ _ _ _ _ _ _⟩

/-- What a NACK leaves alone. -/
theorem State.nack_frame (s : State) (p : Plot) (cseq : BitVec 64) (tag : Word) (status : Nat) :
    SameRegs (refuseRegs p) s (s.nack p cseq tag status) ∧ (s.nack p cseq tag status).mem = s.mem ∧
      (s.nack p cseq tag status).wl = s.wl ∧ ((s.nack p cseq tag status).ring p).cap = (s.ring p).cap ∧
      ∃ o, (s.nack p cseq tag status).out = s.out ++ o := by
  obtain ⟨u, v, -, rfl, hu, ht⟩ := s.nack_parts p cseq tag status
  obtain ⟨hregs, hmem, hwl, hrings, hout, -⟩ := u.authFailed_spec p status
  have hring : ((u.authFailed p status).ring p).cap = (u.ring p).cap := congrArg (fun m : KMap RingX => (KMap.get ({} : RingX) m p).cap) hrings
  obtain ⟨o, ho⟩ := hu.out
  obtain ⟨o', ho'⟩ := ht.out
  refine ⟨fun a ha => ?_, ht.mem.trans (hmem.trans hu.mem), ht.wl.trans (hwl.trans hu.wl), ht.cap.trans (hring.trans hu.cap),
    o ++ o', by rw [ho', hout, ho, List.append_assoc]⟩
  simp only [refuseRegs, nackRegs, List.cons_append, List.nil_append, List.mem_cons, List.not_mem_nil, or_false, not_or] at ha
  obtain ⟨hcnt, hsts, halert, hpba, hfail, hevf, hprod⟩ := ha
  rw [ht.regs a (by simp [flushRegs, hprod, hpba]), hregs a (by simp [hfail, hevf]), hu.regs a (by simp [nackRegs, hcnt, hsts, halert, hpba])]

/-- What a NACK tells (R344, R363). -/
theorem State.nack_spec (s : State) (p : Plot) (cseq : BitVec 64) (tag : Word) (status : Nat) (h : status < 256) :
    (s.nack p cseq tag status).fld (A.cmdSts p) F.cmdSts.nackLast = status ∧
      (s.nack p cseq tag status).fld (A.cmdSts p) F.cmdSts.state = s.fld (A.cmdSts p) F.cmdSts.state ∧
      CountsUp (A.capNackCnt p) 1 s (s.nack p cseq tag status) ∧
      (s.nack p cseq tag status).on (A.pgAlert p) F.pgAlert.nack = true ∧
      (4 ≤ status → CountsUp (A.wlAuthFailCnt p) 1 s (s.nack p cseq tag status) ∧ Fires 1373 s (s.nack p cseq tag status)) ∧
      (status < 4 → (s.nack p cseq tag status).evq = s.evq) := by
  obtain ⟨u, v, rfl, rfl, hu, ht⟩ := s.nack_parts p cseq tag status
  obtain ⟨hlast, hstate, hcount, halert⟩ := s.nackNoted_spec p status h
  obtain ⟨hregs, -, -, -, -, hfail, hquiet⟩ := (s.nackNoted p status).authFailed_spec p status
  have hkeep (a : Nat) (ha : a ∉ [A.wlAuthFailCnt p, A.evfSrcSts 42]) (hf : a ∉ flushRegs p) :
      (s.nack p cseq tag status).reg a = (s.nackNoted p status).reg a := (ht.regs a hf).trans (hregs a ha)
  have hsts := hkeep (A.cmdSts p) (by simp [A.cmdSts, A.wlAuthFailCnt, A.evfSrcSts]; omega)
    (by simp [flushRegs, A.cmdSts, A.rspProd, A.msixPba]; omega)
  have hcnt := hkeep (A.capNackCnt p) (by simp [A.capNackCnt, A.wlAuthFailCnt, A.evfSrcSts]; omega)
    (by simp [flushRegs, A.capNackCnt, A.rspProd, A.msixPba]; omega)
  have hpg := hkeep (A.pgAlert p) (by simp [A.pgAlert, A.wlAuthFailCnt, A.evfSrcSts]; omega)
    (by simp [flushRegs, A.pgAlert, A.rspProd, A.msixPba]; omega)
  refine ⟨?_, ?_, ?_, ?_, fun h4 => ?_, fun h4 => ?_⟩
  · rw [State.fld, hsts, ← State.fld, hlast]
  · rw [State.fld, hsts, ← State.fld, hstate]
  · rw [CountsUp, hcnt, hcount]
  · rw [State.on, State.fld, hpg, ← State.fld, ← State.on, halert]
  · obtain ⟨hcounts, hfires⟩ := hfail h4
    have hown : A.wlAuthFailCnt p ∉ nackRegs p := by
      simp [nackRegs, A.wlAuthFailCnt, A.capNackCnt, A.cmdSts, A.pgAlert, A.msixPba]; omega
    refine ⟨?_, ?_⟩
    · rw [CountsUp, ht.regs _ (by simp [flushRegs, A.wlAuthFailCnt, A.rspProd, A.msixPba]; omega), hcounts, hu.regs _ hown]
    · rw [Fires, ht.evq, hfires, hu.evq]
  · rw [ht.evq, hquiet h4, hu.evq]

/-- A capsule that is refused in a state `u` that the ring has come to from `s` without a change of what a NACK tells. -/
theorem nacks_nack {s u : State} (p : Plot) (cseq : BitVec 64) (tag : Word) (status : Nat) (h : status < 256)
    (hcap : (u.ring p).cap = none) (hevq : u.evq = s.evq) (hmem : u.mem = s.mem) (hregs : SameRegs [A.cmdSts p, A.cmdCons p] s u) :
    Nacks p status s (u.nack p cseq tag status) := by
  obtain ⟨hlast, -, hcount, halert, hfail, hquiet⟩ := u.nack_spec p cseq tag status h
  obtain ⟨hsame, hbytes, -, hkept, -⟩ := u.nack_frame p cseq tag status
  have hreg (a : Nat) (ha : a ∉ [A.cmdSts p, A.cmdCons p]) (hr : a ∉ refuseRegs p) : (u.nack p cseq tag status).reg a = s.reg a :=
    (hsame a hr).trans (hregs a ha)
  have hlo := hreg (A.wlCseqInLo p) (by simp [A.wlCseqInLo, A.cmdSts, A.cmdCons]; omega)
    (by simp [refuseRegs, nackRegs, A.wlCseqInLo, A.capNackCnt, A.cmdSts, A.pgAlert, A.msixPba, A.wlAuthFailCnt, A.evfSrcSts, A.rspProd]; omega)
  have hhi := hreg (A.wlCseqInHi p) (by simp [A.wlCseqInHi, A.cmdSts, A.cmdCons]; omega)
    (by simp [refuseRegs, nackRegs, A.wlCseqInHi, A.capNackCnt, A.cmdSts, A.pgAlert, A.msixPba, A.wlAuthFailCnt, A.evfSrcSts, A.rspProd]; omega)
  refine ⟨hkept.trans hcap, hlast, ?_, halert, ?_, fun a => congrArg (fun m : List Host.Cell => KMap.get 0 m a) (hbytes.trans hmem),
    fun h4 => ?_, fun h4 => (hquiet h4).trans hevq⟩
  · rw [CountsUp, hcount, hregs _ (by simp [A.capNackCnt, A.cmdSts, A.cmdCons])]
  · rw [State.cseqIn, State.cseqIn, State.pair, State.pair, hlo, hhi]
  · obtain ⟨hcounts, hfires⟩ := hfail h4
    refine ⟨?_, hfires.trans (by rw [hevq])⟩
    rw [CountsUp, hcounts, hregs _ (by simp [A.wlAuthFailCnt, A.cmdSts, A.cmdCons]; omega)]

end Sys2Proof.Machine
end

section
/-! ## The doorbell page (R40, R358–R360, R363) -/

namespace Sys2Proof.Machine

open Sys2Proof.Safety

/-! ### Writes of the page -/

/-- No check of a block refuses a write of the doorbell window (R35). -/
theorem hostOpen_doorbell (s : State) (a : Nat) (hl : s.live = true) (ha : 0x10000000 ≤ a) : HostOpen s a := by
  have htile : tileOfOff a = none := if_neg (by omega)
  have hboot : bootBlock a = false := by
    simp only [bootBlock, Bool.or_eq_false_iff, Bool.and_eq_false_iff, decide_eq_false_iff_not]
    omega
  have howner : s.ownerOf a = none := by
    unfold State.ownerOf
    rw [if_neg (by omega), if_neg (by omega), if_neg (by omega), if_neg (by omega), if_neg (by omega)]
  have haccess : s.accessRefuse .host a = none := by
    simp [State.accessRefuse, hl, htile, hboot, howner]
  unfold HostOpen State.blockRefuse
  rw [haccess]
  simp [hboot]
  omega

/-- A write of the doorbell window that is open, is not denied and meets no lock: the register takes it, and its effect follows. -/
theorem State.bellWrite_eff (s : State) (r : RegSpec) (a : Nat) (w : Word) (deny : Option Refuse) (eff : State → State) (off : Nat)
    (h : HostOpen s a) (hd : deny = none) (hl : r.fields.all (fun f => !f.lk) = true) :
    State.bellWrite (s.write .host r a w deny eff) off = eff (s.setReg a (s.hostMerged r a w)) := by
  subst hd
  rw [s.write_ok _ _ _ _ _ h, lockHit_none _ _ _ _ hl]
  rfl

/-- A write of the doorbell window that the register itself refuses is recorded as refused. -/
theorem State.bellWrite_refused (s : State) (r : RegSpec) (a : Nat) (w : Word) (deny : Option Refuse) (eff : State → State)
    (e : Refuse) (off : Nat) (h : HostOpen s a) (hd : deny = some e) (he : e ≠ .ignored) :
    Refused e.code 2 off s (State.bellWrite (s.write .host r a w deny eff) off) := by
  subst hd
  rw [s.write_refused _ _ _ _ _ _ e (.inr ⟨h, rfl⟩)]
  exact s.refuseHost_refused e 2 off he (by decide)

/-- A register of one field takes the word that is written. -/
theorem State.hostMerged_word (s : State) (r : RegSpec) (a : Nat) (w : Word) (h : r.fields = [⟨⟨31, 0⟩, .rw, false⟩]) :
    s.hostMerged r a w = w := by
  rw [State.hostMerged, s.tied_none _ _ _ (.inr (by rw [h]; rfl)), h]
  simp [mergeWord, fieldWrite, getF_word, putF_word]

theorem hostOpen_of_pageOpen {s : State} {p : Nat} (h : PageOpen s p) {a : Nat} (ha : 0x10000000 ≤ a) : HostOpen s a :=
  hostOpen_doorbell s a h.1 ha

theorem pageDeny_of_pageOpen {s : State} {p : Nat} (h : PageOpen s p) : s.pageDeny p = none := if_pos h.2

/-! ### Index registers (R359) -/

/-- An index that the ring holds is taken. -/
theorem bellWrite_writeIndex_held (s : State) (r : RegSpec) (p a : Nat) (w : Word) (used size off : Nat) (h : PageOpen s p)
    (ha : 0x10000000 ≤ a) (hw : (s.ring p).rspWait = []) (hr : r.fields = [⟨⟨31, 0⟩, .rw, false⟩]) (hu : used ≤ size) :
    State.bellWrite (s.writeIndex .host r p a w used size) off = s.setReg a w := by
  unfold State.writeIndex
  rw [if_neg (by simp; omega), s.bellWrite_eff _ _ _ _ _ _ (hostOpen_of_pageOpen h ha) (pageDeny_of_pageOpen h) (by rw [hr]; rfl), s.hostMerged_word r a w hr]
  have hring : ((s.setReg a w).ring p).rspWait = [] := hw
  rw [hring]
  rfl

/-- An index that the ring does not hold is reported. -/
theorem bellWrite_writeIndex_beyond (s : State) (r : RegSpec) (p a : Nat) (w : Word) (used size off : Nat) (h : PageOpen s p)
    (ha : 0x10000000 ≤ a) (hu : size < used) :
    State.bellWrite (s.writeIndex .host r p a w used size) off = s.pgAlert p F.pgAlert.prodErr := by
  have hopen : s.blockRefuse .host a = none := hostOpen_of_pageOpen h ha
  unfold State.writeIndex
  rw [if_pos (by simp [hopen, (pageDeny_of_pageOpen h), hu])]
  rfl

/-- What an index beyond its ring leaves. -/
theorem State.prodErr_spec (s : State) (p : Plot) : (s.pgAlert p F.pgAlert.prodErr).on (A.pgAlert p) F.pgAlert.prodErr = true ∧
    SameRegs [A.pgAlert p, A.msixPba 0, A.msixPba 1] s (s.pgAlert p F.pgAlert.prodErr) ∧
    OnlyRegsOut s (s.pgAlert p F.pgAlert.prodErr) :=
  ⟨s.on_pgAlert p _ (by decide) rfl, ((tells_pgAlert p s _).mono (by simp [alertRegs])).regs, onlyRegsOut_pgAlert s p _⟩

/-- A write of an index register, by an instruction that is one (R359). -/
theorem completes_indexWrite (s : State) (i : Instr) (r : RegSpec) (p : Plot) (a : Nat) (w : Word) (used size off : Nat)
    (hexec : exec i s = .next (State.bellWrite (s.writeIndex .host r p a w used size) off)) (h : PageOpen s p)
    (ha : 0x10000000 ≤ a) (hw : (s.ring p).rspWait = []) (hr : r.fields = [⟨⟨31, 0⟩, .rw, false⟩]) :
    (used ≤ size → Completes i s fun t => t.reg a = w ∧ OnlyRegs [a] s t) ∧
    (size < used → Completes i s fun t => t.on (A.pgAlert p) F.pgAlert.prodErr = true ∧
      SameRegs [A.pgAlert p, A.msixPba 0, A.msixPba 1] s t ∧ t = { s with regs := t.regs, tie := t.tie, out := t.out }) := by
  refine ⟨fun hu => ?_, fun hu => ?_⟩
  · rw [bellWrite_writeIndex_held s r p a w used size off h ha hw hr hu] at hexec
    exact completes_of_exec hexec ⟨s.reg_setReg_same a w, onlyRegs_setReg s _ a w (by simp)⟩
  · rw [bellWrite_writeIndex_beyond s r p a w used size off h ha hu] at hexec
    exact completes_of_exec hexec (s.prodErr_spec p)

theorem completes_pageUndefined (s : State) (p : Plot) (w : Word) (hl : s.live = true) (hp : s.plotDefined p = false) :
    Completes (.commandDoorbell p w) s (fun t => Refused 0 2 (0xC + 0x2000 * p) s t) ∧
    Completes (.cmdRingRestart p) s (fun t => Refused 0 2 (0x18 + 0x2000 * p) s t) := by
  have hdeny : s.pageDeny p = some .accessErr := if_neg (by simp [hp])
  have hprod : bellOff (A.cmdProd p) = 0xC + 0x2000 * p := by unfold bellOff A.cmdProd; omega
  have hctl : bellOff (A.cmdCtl p) = 0x18 + 0x2000 * p := by unfold bellOff A.cmdCtl; omega
  refine ⟨completes_of_exec (exec_commandDoorbell p w s) ?_, completes_of_exec (exec_cmdRingRestart p s) ?_⟩
  · unfold State.writeCmdProd State.writeIndex
    rw [if_neg (by simp [hdeny]), hprod]
    exact s.bellWrite_refused _ _ _ _ _ .accessErr _ (hostOpen_doorbell s _ hl (by simp only [A.cmdProd]; omega)) hdeny (by decide)
  · unfold State.writeCmdCtl
    rw [hctl]
    exact s.bellWrite_refused _ _ _ _ _ .accessErr _ (hostOpen_doorbell s _ hl (by simp only [A.cmdCtl]; omega)) hdeny (by decide)

/-! ### Ring enables (R360) -/

/-- The CFG register of a ring: 0 command, 1 response, 2 result. -/
def ringReg (ring : Fin 3) : RegSpec := if ring = 0 then spec_cmdCfg else if ring = 1 then spec_rspCfg else spec_rrCfg

/-- Its offset. -/
def cfgOff (p : Nat) (ring : Fin 3) : Nat := if ring = 0 then A.cmdCfg p else if ring = 1 then A.rspCfg p else A.rrCfg p

/-- The least size of the ring. -/
def ringLeast (ring : Fin 3) : Nat := if ring = 0 then 6 else if ring = 1 then 9 else 10

/-- The greatest size of the ring. -/
def ringGreatest (ring : Fin 3) : Nat := if ring = 2 then 20 else 16

theorem ringCfg_eq (p : Nat) (ring : Fin 3) : ringCfg p ring = (ringReg ring, cfgOff p ring, ringLeast ring, ringGreatest ring) := by
  fin_cases ring <;> rfl

theorem ringReg_fields (ring : Fin 3) : (ringReg ring).fields = [⟨F.cmdCfg.en, .rw, false⟩, ⟨F.cmdCfg.sizeLog2, .rw, false⟩] := by
  fin_cases ring <;> rfl

theorem ringReg_plainWrite (ring : Fin 3) : (ringReg ring).plainWrite = true := by revert ring; decide

theorem cfgOff_ge (p : Nat) (ring : Fin 3) : 0x10000000 ≤ cfgOff p ring := by
  fin_cases ring <;> simp [cfgOff, A.cmdCfg, A.rspCfg, A.rrCfg] <;> omega

/-- The refusal of a write of a ring's CFG register (R360). -/
def State.ringDeny (s : State) (p : Nat) (ring : Fin 3) (w : Word) : Option Refuse :=
  if (s.on (cfgOff p ring) F.cmdCfg.en && decide (getF w F.cmdCfg.en = 1)) || decide (getF w F.cmdCfg.sizeLog2 < ringLeast ring) ||
    decide (ringGreatest ring < getF w F.cmdCfg.sizeLog2) then some .accessErr else none

/-- What a write of a ring's CFG register does beside the register. -/
def State.ringSwitch (s : State) (p ring : Nat) (was now : Bool) : State :=
  if now && !was then s.ringOn p ring else if was && !now then s.ringOff p ring else s

theorem exec_ringEnable_eq (s : State) (p : Plot) (ring : Fin 3) (w : Word) (h : PageOpen s p) : exec (.ringEnable p ring w) s =
    .next (State.bellWrite (s.write .host (ringReg ring) (cfgOff p ring) w (s.ringDeny p ring w)
      fun s1 => s1.ringSwitch p ring (s.on (cfgOff p ring) F.cmdCfg.en) (decide (getF w F.cmdCfg.en = 1))) (cfgOff p ring - 0x10000000)) := by
  rw [exec_ringEnable]
  unfold execRingEnable State.writeRingCfg
  rw [ringCfg_eq, pageDeny_of_pageOpen h]
  rfl

/-- A ring that is enabled (R360). -/
theorem State.ringOn_spec (u : State) (p : Nat) (ring : Fin 3) :
    (ring = 0 → (u.ringOn p ring).reg (A.cmdProd p) = 0 ∧ (u.ringOn p ring).reg (A.cmdCons p) = 0 ∧
      (u.ringOn p ring).fld (A.cmdSts p) F.cmdSts.state = 1 ∧ OnlyRegs [A.cmdProd p, A.cmdCons p, A.cmdSts p] u (u.ringOn p ring)) ∧
    (ring = 1 → (u.ringOn p ring).reg (A.rspProd p) = 0 ∧ (u.ringOn p ring).reg (A.rspCons p) = 0 ∧
      OnlyRegs [A.rspProd p, A.rspCons p] u (u.ringOn p ring)) ∧
    (ring = 2 → (u.ringOn p ring).reg (A.rrProd p) = 0 ∧ (u.ringOn p ring).reg (A.rrCons p) = 0 ∧
      OnlyRegs [A.rrProd p, A.rrCons p] u (u.ringOn p ring)) := by
  refine ⟨?_, ?_, ?_⟩
  · rintro rfl
    have hprod : A.cmdProd p ≠ A.cmdSts p ∧ A.cmdProd p ≠ A.cmdCons p := by simp [A.cmdProd, A.cmdSts, A.cmdCons]
    have hcons : A.cmdCons p ≠ A.cmdSts p := by simp [A.cmdSts, A.cmdCons]
    refine ⟨?_, ?_, ?_, ?_⟩
    · exact (State.reg_setFld_ne _ _ _ hprod.1).trans ((State.reg_setReg_ne _ _ hprod.2).trans (State.reg_setReg_same _ _ _))
    · exact (State.reg_setFld_ne _ _ _ hcons).trans (State.reg_setReg_same _ _ _)
    · exact State.fld_setFld_same _ _ _ _ (by decide)
    · exact onlyRegs_trans (onlyRegs_trans (onlyRegs_setReg u _ _ _ (by simp)) (onlyRegs_setReg _ _ _ _ (by simp)))
        (onlyRegs_setFld _ _ _ _ _ (by simp))
  · rintro rfl
    have hprod : A.rspProd p ≠ A.rspCons p := by simp [A.rspProd, A.rspCons]
    exact ⟨(State.reg_setReg_ne _ _ hprod).trans (State.reg_setReg_same _ _ _), State.reg_setReg_same _ _ _,
      onlyRegs_trans (onlyRegs_setReg u _ _ _ (by simp)) (onlyRegs_setReg _ _ _ _ (by simp))⟩
  · rintro rfl
    have hprod : A.rrProd p ≠ A.rrCons p := by simp [A.rrProd, A.rrCons]
    exact ⟨(State.reg_setReg_ne _ _ hprod).trans (State.reg_setReg_same _ _ _), State.reg_setReg_same _ _ _,
      onlyRegs_trans (onlyRegs_setReg u _ _ _ (by simp)) (onlyRegs_setReg _ _ _ _ (by simp))⟩

/-- An enable leaves the CFG register as it was written. -/
theorem State.reg_ringOn_cfg (u : State) (p : Nat) (ring : Fin 3) : (u.ringOn p ring).reg (cfgOff p ring) = u.reg (cfgOff p ring) := by
  obtain ⟨hcmd, hrsp, hrr⟩ := u.ringOn_spec p ring
  fin_cases ring
  · exact (hcmd rfl).2.2.2.1 _ (by simp [cfgOff, A.cmdCfg, A.cmdProd, A.cmdCons, A.cmdSts])
  · exact (hrsp rfl).2.2.1 _ (by simp [cfgOff, A.rspCfg, A.rspProd, A.rspCons])
  · exact (hrr rfl).2.2.1 _ (by simp [cfgOff, A.rrCfg, A.rrProd, A.rrCons])

theorem completes_ringEnable_taken (s : State) (p : Plot) (ring : Fin 3) (w : Word) (h : PageOpen s p)
    (hoff : s.on (cfgOff p ring) F.cmdCfg.en = false) (hen : getF w F.cmdCfg.en = 1) (hlo : ringLeast ring ≤ getF w F.cmdCfg.sizeLog2)
    (hhi : getF w F.cmdCfg.sizeLog2 ≤ ringGreatest ring) :
    Completes (.ringEnable p ring w) s fun t => t.on (cfgOff p ring) F.cmdCfg.en = true ∧
      t.fld (cfgOff p ring) F.cmdCfg.sizeLog2 = getF w F.cmdCfg.sizeLog2 ∧
      (ring = 0 → t.reg (A.cmdProd p) = 0 ∧ t.reg (A.cmdCons p) = 0 ∧ t.fld (A.cmdSts p) F.cmdSts.state = 1 ∧
        OnlyRegs [cfgOff p ring, A.cmdProd p, A.cmdCons p, A.cmdSts p] s t) ∧
      (ring = 1 → t.reg (A.rspProd p) = 0 ∧ t.reg (A.rspCons p) = 0 ∧ OnlyRegs [cfgOff p ring, A.rspProd p, A.rspCons p] s t) ∧
      (ring = 2 → t.reg (A.rrProd p) = 0 ∧ t.reg (A.rrCons p) = 0 ∧ OnlyRegs [cfgOff p ring, A.rrProd p, A.rrCons p] s t) := by
  have hdeny : s.ringDeny p ring w = none := if_neg (by simp [hoff]; omega)
  refine completes_of_exec (exec_ringEnable_eq s p ring w h) ?_
  rw [s.bellWrite_eff _ _ _ _ _ _ (hostOpen_of_pageOpen h (cfgOff_ge p ring)) hdeny (by rw [ringReg_fields]; rfl), hoff, hen]
  generalize hu : s.setReg (cfgOff p ring) (s.hostMerged (ringReg ring) (cfgOff p ring) w) = u
  have hswitch : u.ringSwitch p ring false (decide (1 = 1)) = u.ringOn p ring := rfl
  rw [hswitch]
  have htakes : Takes (ringReg ring) (cfgOff p ring) w s u :=
    State.takes_of_reg (ringReg_plainWrite ring) (by rw [← hu, State.reg_setReg_same])
  have hcfg (g : Fld) : (u.ringOn p ring).fld (cfgOff p ring) g = u.fld (cfgOff p ring) g := congrArg (getF · g) (u.reg_ringOn_cfg p ring)
  have honly (l : List Nat) : OnlyRegs (cfgOff p ring :: l) s u := hu ▸ onlyRegs_setReg s _ _ _ List.mem_cons_self
  obtain ⟨hcmd, hrsp, hrr⟩ := u.ringOn_spec p ring
  refine ⟨?_, ?_, fun h0 => ?_, fun h1 => ?_, fun h2 => ?_⟩
  · rw [State.on, hcfg, fld_of_takes htakes ⟨F.cmdCfg.en, .rw, false⟩ (by rw [ringReg_fields]; simp) rfl (.inr rfl), hen]
    rfl
  · rw [hcfg]
    exact fld_of_takes htakes ⟨F.cmdCfg.sizeLog2, .rw, false⟩ (by rw [ringReg_fields]; simp) rfl (.inr rfl)
  · obtain ⟨hprod, hcons, hstate, hon⟩ := hcmd h0
    exact ⟨hprod, hcons, hstate, onlyRegs_trans (honly _) (onlyRegs_mono hon fun a ha => List.mem_cons_of_mem _ ha)⟩
  · obtain ⟨hprod, hcons, hon⟩ := hrsp h1
    exact ⟨hprod, hcons, onlyRegs_trans (honly _) (onlyRegs_mono hon fun a ha => List.mem_cons_of_mem _ ha)⟩
  · obtain ⟨hprod, hcons, hon⟩ := hrr h2
    exact ⟨hprod, hcons, onlyRegs_trans (honly _) (onlyRegs_mono hon fun a ha => List.mem_cons_of_mem _ ha)⟩

theorem completes_ringEnable_refused (s : State) (p : Plot) (ring : Fin 3) (w : Word) (h : PageOpen s p)
    (hbad : getF w F.cmdCfg.sizeLog2 < ringLeast ring ∨ ringGreatest ring < getF w F.cmdCfg.sizeLog2 ∨
      (s.on (cfgOff p ring) F.cmdCfg.en = true ∧ getF w F.cmdCfg.en = 1)) :
    Completes (.ringEnable p ring w) s fun t => Refused 0 2 (cfgOff p ring - 0x10000000) s t := by
  refine completes_of_exec (exec_ringEnable_eq s p ring w h)
    (s.bellWrite_refused _ _ _ _ _ .accessErr _ (hostOpen_of_pageOpen h (cfgOff_ge p ring)) (if_pos ?_) (by decide))
  simp only [Bool.or_eq_true, Bool.and_eq_true, decide_eq_true_eq]
  tauto

/-! ### The restart (R363) -/

theorem completes_cmdRingRestart (s : State) (p : Plot) (h : PageOpen s p) :
    (s.fld (A.cmdSts p) F.cmdSts.state = 2 →
      Completes (.cmdRingRestart p) s fun t => t.fld (A.cmdSts p) F.cmdSts.state = 1 ∧
        OnlyRegs [A.cmdCtl p, A.cmdSts p] s t) ∧
    (s.fld (A.cmdSts p) F.cmdSts.state ≠ 2 → Completes (.cmdRingRestart p) s fun t => OnlyRegs [A.cmdCtl p] s t) := by
  have hopen : HostOpen s (A.cmdCtl p) := hostOpen_of_pageOpen h (by simp only [A.cmdCtl]; omega)
  have hexec : exec (.cmdRingRestart p) s = .next (State.bellWrite (s.writeCmdCtl .host p 1) (bellOff (A.cmdCtl p))) := rfl
  unfold State.writeCmdCtl at hexec
  rw [s.bellWrite_eff _ _ _ _ _ _ hopen (pageDeny_of_pageOpen h) rfl] at hexec
  have hne : A.cmdSts p ≠ A.cmdCtl p := by simp [A.cmdSts, A.cmdCtl]
  have hrestart : getF (1 : Word) F.cmdCtl.restart = 1 := rfl
  rw [hrestart, State.fld, State.reg_setReg_ne _ _ hne, ← State.fld] at hexec
  generalize s.hostMerged spec_cmdCtl (A.cmdCtl p) 1 = v at hexec
  refine ⟨fun h2 => ?_, fun h2 => ?_⟩
  · rw [if_pos (by simp [h2])] at hexec
    exact completes_of_exec hexec ⟨State.fld_setFld_same _ _ _ _ (by decide),
      onlyRegs_trans (onlyRegs_setReg s _ _ v (by simp)) (onlyRegs_setFld _ _ _ _ _ (by simp))⟩
  · rw [if_neg (by simp [h2])] at hexec
    exact completes_of_exec hexec (onlyRegs_setReg s _ _ v (by simp))

end Sys2Proof.Machine
end

section
/-! ## A capsule from its fetch to its acceptance (R343, R344, R358, R363, R369, R375, R377) -/

namespace Sys2Proof.Machine

open Sys2Proof.Safety

/-! ### Bytes and spans -/

theorem leNat_lt (bs : List Byte) : leNat bs < 2 ^ (8 * bs.length) := by
  induction bs with
  | nil => simp [leNat]
  | cons b bs ih =>
    have hb := b.isLt
    have hpow : 2 ^ (8 * (b :: bs).length) = 256 * 2 ^ (8 * bs.length) := by
      rw [List.length_cons, Nat.mul_add, Nat.mul_one, Nat.add_comm, Nat.pow_add]
    rw [leNat, hpow]
    omega

theorem leAt_lt (bs : List Byte) (i n : Nat) : leAt bs i n < 2 ^ (8 * n) := by
  refine Nat.lt_of_lt_of_le (leNat_lt _) (Nat.pow_le_pow_right (by decide) ?_)
  have := List.length_take_le n (bs.drop i)
  omega

/-- The slots of a ring from slot `i` on, as the parts before and after its end (R358). -/
theorem ringSpans_slots (base size i n : Nat) : ringSpans base size 64 i (64 * n) =
    (base + 64 * (i % size), 64 * min n (size - i % size)) ::
      if size - i % size < n then [(base, 64 * (n - (size - i % size)))] else [] := by
  have hfirst : min (64 * n) ((size - i % size) * 64) = 64 * min n (size - i % size) := by
    rw [Nat.mul_comm _ 64, Nat.mul_min_mul_left]
  have hrest : 64 * n - (size - i % size) * 64 = 64 * (n - (size - i % size)) := by
    rw [Nat.mul_comm _ 64, ← Nat.mul_sub]
  have hmore : (size - i % size) * 64 < 64 * n ↔ size - i % size < n := by omega
  unfold ringSpans
  simp only [hfirst, hrest, hmore, Nat.mul_comm (i % size) 64]

/-- The slots of a capsule are read at their place in the ring. -/
theorem State.capReadsOut_eq (s : State) (p n : Nat) : s.capReadsOut p n = { s with out := s.out ++ slotReads s p n } := by
  unfold State.capReadsOut slotReads
  rw [ringSpans_slots]
  dsimp only
  split_ifs
  · simp
  · simp

/-! ### Whose capsule is authenticated next (R369) -/

theorem State.serve_frame (s : State) : s.serve = { s with wl := { s.wl with serving := s.serve.wl.serving } } := by
  unfold State.serve
  split
  · split
    · rfl
    · rfl
  · split
    · rfl
    · rfl

theorem State.serve_of_awaits (s : State) (q : Nat) (h : s.wl.serving = some q) (ha : s.awaits q = true) : s.serve = s := by
  unfold State.serve
  rw [h]
  exact if_pos ha

/-- Where Welolyan serves no plot that waits, it goes on with the next one that does. -/
theorem State.serving_serve (s : State) (h : ∀ q, s.wl.serving = some q → s.awaits q = false) :
    s.serve.wl.serving = ((List.range 8).map fun i => (s.wl.served + 1 + i) % 8).find? s.awaits := by
  unfold State.serve
  split
  · next q hs => rw [if_neg (by simp [h q hs])]
  · rfl

/-- The plot that alone waits is served next. -/
theorem State.serving_of_only (s : State) (p : Plot) (hp : s.awaits p = true) (h : ∀ q, q ≠ p.val → s.awaits q = false) :
    s.serve.wl.serving = some p.val := by
  by_cases hs : s.wl.serving = some p.val
  · rw [s.serve_of_awaits p hs hp, hs]
  · have hidle (q : Nat) (hq : s.wl.serving = some q) : s.awaits q = false := h q fun e => hs (e ▸ hq)
    rw [s.serving_serve hidle, List.find?_map]
    have hfound : ∃ i, (List.range 8).find? (s.awaits ∘ fun i => (s.wl.served + 1 + i) % 8) = some i := by
      rw [← Option.isSome_iff_exists, List.find?_isSome]
      refine ⟨(p.val + 8 - (s.wl.served + 1) % 8) % 8, List.mem_range.2 (by omega), ?_⟩
      have hplace : (s.wl.served + 1 + (p.val + 8 - (s.wl.served + 1) % 8) % 8) % 8 = p.val := by omega
      rw [Function.comp_apply, hplace, hp]
    obtain ⟨i, hi⟩ := hfound
    have hwaits : (s.awaits ∘ fun i => (s.wl.served + 1 + i) % 8) i = true := List.find?_some hi
    rw [hi, Option.map_some]
    congr 1
    by_contra hne
    rw [Function.comp_apply, h _ hne] at hwaits
    exact absurd hwaits (by decide)

/-! ### The fetch (R363) -/

/-- The command ring of plot `p` fetches a capsule with header `h`: it runs, holds one, may be read, and its responses find room. -/
def Fetches (s : State) (p : Nat) (h : List Byte) : Prop :=
  s.on (A.cmdCfg p) F.cmdCfg.en = true ∧ s.fld (A.cmdSts p) F.cmdSts.state = 1 ∧ (s.ring p).cap = none ∧
    s.reg (A.cmdProd p) ≠ s.reg (A.cmdCons p) ∧ s.pcie.d3 = false ∧ s.pcie.perst = false ∧ 258 ≤ s.rspRoom p ∧
    s.isStandby = false ∧ s.henServes = true ∧ h.length = 32

theorem exec_capsuleFetch_of_fetches (s : State) (p : Plot) (h : List Byte) (hf : Fetches s p h) :
    exec (.capsuleFetch p h) s = .next (if s.dmaOk then s.fetchCapsule p h else s.ringError p) := by
  obtain ⟨hen, hstate, hcap, hprod, hd3, hperst, hroom, hstandby, hhen, hlen⟩ := hf
  rw [exec_capsuleFetch]
  exact onlyIf_true _ _ _ (by simp [hen, hstate, hcap, hprod, hd3, hperst, hroom, hstandby, hhen, hlen])

/-- A header whose CRC fails stops the ring. -/
theorem State.fetchCapsule_badCrc (s : State) (p : Nat) (h : List Byte) (hc : leAt h 28 4 ≠ (crc32c (h.take 28)).toNat) :
    s.fetchCapsule p h = ((s.capReadsOut p 1).ringStop p).nack p (BitVec.ofNat 64 (leAt h 4 8)) (BitVec.ofNat 32 (leAt h 20 4)) 1 := by
  unfold State.fetchCapsule
  simp [hc]

theorem State.cap_cmdAdvance (s : State) (p n : Nat) : ((s.cmdAdvance p n).ring p).cap = (s.ring p).cap := by
  unfold State.cmdAdvance
  rw [State.ring_modRing]
  rfl

theorem State.ring_setFld (s : State) (a : Nat) (f : Fld) (x p : Nat) : (s.setFld a f x).ring p = s.ring p := rfl

/-- The slots that a skipped capsule takes. -/
def State.skipped (s : State) (p : Nat) (h : List Byte) : Nat :=
  max 1 (min (leAt h 0 2) (ringUsed (s.reg (A.cmdProd p)) (s.reg (A.cmdCons p))))

/-- A header that fails a later check is skipped. -/
theorem State.fetchCapsule_refused (s : State) (p : Nat) (h : List Byte) (hc : leAt h 28 4 = (crc32c (h.take 28)).toNat)
    (hs : s.headerStatus p h ≠ 0) : s.fetchCapsule p h = ((s.capReadsOut p 1).cmdAdvance p (s.skipped p h)).nack p
      (BitVec.ofNat 64 (leAt h 4 8)) (BitVec.ofNat 32 (leAt h 20 4)) (s.headerStatus p h) := by
  have hsame : (s.capReadsOut p 1).headerStatus p h = s.headerStatus p h := rfl
  unfold State.fetchCapsule
  simp [hc, hs, hsame]
  rfl

/-- The capsule of a good header. -/
def fetchedCap (h : List Byte) : CapX :=
  { head := h, cseq := BitVec.ofNat 64 (leAt h 4 8), tag := BitVec.ofNat 32 (leAt h 20 4), gen := leAt h 3 1,
    respReq := (leAt h 18 1).testBit 0, slots := leAt h 0 2 }

/-- A good header is taken. -/
theorem State.fetchCapsule_taken (s : State) (p : Nat) (h : List Byte) (hc : leAt h 28 4 = (crc32c (h.take 28)).toNat)
    (hs : s.headerStatus p h = 0) :
    s.fetchCapsule p h = ((s.capReadsOut p (leAt h 0 2)).modRing p fun x => { x with cap := some (fetchedCap h) }).serve := by
  have hsame : (s.capReadsOut p (leAt h 0 2)).headerStatus p h = s.headerStatus p h := rfl
  unfold State.fetchCapsule
  simp only [hc, hs, hsame, ne_eq, not_true, if_false, beq_self_eq_true, Bool.and_self, if_true]
  rfl

theorem State.headerStatus_lt (s : State) (p : Nat) (h : List Byte) : s.headerStatus p h < 8 := by
  unfold State.headerStatus
  dsimp only
  split_ifs <;> decide

theorem cmdCons_not_mem_refuseRegs (p : Nat) : A.cmdCons p ∉ refuseRegs p := by
  simp [refuseRegs, nackRegs, A.cmdCons, A.capNackCnt, A.cmdSts, A.pgAlert, A.msixPba, A.wlAuthFailCnt, A.evfSrcSts, A.rspProd]
  omega

theorem completes_fetch_badCrc (s : State) (p : Plot) (h : List Byte) (hf : Fetches s p h) (hd : s.dmaOk = true)
    (hc : leAt h 28 4 ≠ (crc32c (h.take 28)).toNat) :
    Completes (.capsuleFetch p h) s fun t => Nacks p 1 s t ∧ t.fld (A.cmdSts p) F.cmdSts.state = 2 ∧
      t.reg (A.cmdCons p) = s.reg (A.cmdCons p) ∧ ∃ l, t.out = s.out ++ slotReads s p 1 ++ l := by
  have hexec := exec_capsuleFetch_of_fetches s p h hf
  obtain ⟨-, -, hcap, -⟩ := hf
  rw [if_pos hd, s.fetchCapsule_badCrc p h hc, s.capReadsOut_eq] at hexec
  refine completes_of_exec hexec ?_
  generalize hu : State.ringStop { s with out := s.out ++ slotReads s p 1 } p = u
  have hregs : SameRegs [A.cmdSts p] s u := hu ▸ fun a ha => State.reg_setFld_ne _ _ _ (by simpa using ha)
  have hring : u.ring p = s.ring p := hu ▸ rfl
  have hevq : u.evq = s.evq := hu ▸ rfl
  have hmem : u.mem = s.mem := hu ▸ rfl
  have hout : u.out = s.out ++ slotReads s p 1 := hu ▸ rfl
  have hstate : u.fld (A.cmdSts p) F.cmdSts.state = 2 := hu ▸ State.fld_setFld_same _ _ _ _ (by decide)
  obtain ⟨-, hkept, -⟩ := u.nack_spec p (BitVec.ofNat 64 (leAt h 4 8)) (BitVec.ofNat 32 (leAt h 20 4)) 1 (by decide)
  obtain ⟨hsame, -, -, -, o, ho⟩ := u.nack_frame p (BitVec.ofNat 64 (leAt h 4 8)) (BitVec.ofNat 32 (leAt h 20 4)) 1
  refine ⟨nacks_nack p _ _ 1 (by decide) (by rw [hring, hcap]) hevq hmem fun a ha => hregs a fun hm => ha ?_, hkept.trans hstate,
    (hsame _ (cmdCons_not_mem_refuseRegs p)).trans (hregs _ (by simp [A.cmdCons, A.cmdSts])), o, by rw [ho, hout]⟩
  rw [List.mem_singleton.1 hm]
  exact List.mem_cons_self

theorem add_ofNat_ne (a : Word) (n : Nat) (h0 : n ≠ 0) (hn : n < 2 ^ 32) : a + BitVec.ofNat 32 n ≠ a := by
  intro h
  have hz : BitVec.ofNat 32 n = 0 := by simpa using h
  have hnat := congrArg BitVec.toNat hz
  rw [BitVec.toNat_ofNat, Nat.mod_eq_of_lt hn] at hnat
  exact h0 hnat

theorem completes_fetch_skipped (s : State) (p : Plot) (h : List Byte) (hf : Fetches s p h) (hd : s.dmaOk = true)
    (hc : leAt h 28 4 = (crc32c (h.take 28)).toNat) (hs : s.headerStatus p h ≠ 0) :
    Completes (.capsuleFetch p h) s fun t => Nacks p (s.headerStatus p h) s t ∧
      t.fld (A.cmdSts p) F.cmdSts.state = 1 ∧ t.reg (A.cmdCons p) ≠ s.reg (A.cmdCons p) ∧ ∃ l, t.out = s.out ++ slotReads s p 1 ++ l := by
  have hexec := exec_capsuleFetch_of_fetches s p h hf
  obtain ⟨-, hrun, hcap, -⟩ := hf
  rw [if_pos hd, s.fetchCapsule_refused p h hc hs, s.capReadsOut_eq] at hexec
  refine completes_of_exec hexec ?_
  have hlt := s.headerStatus_lt p h
  have hskip : s.skipped p h ≠ 0 ∧ s.skipped p h < 2 ^ 32 := by
    have hused := (s.reg (A.cmdProd p) - s.reg (A.cmdCons p)).isLt
    unfold State.skipped ringUsed
    omega
  generalize hu : State.cmdAdvance { s with out := s.out ++ slotReads s p 1 } p (s.skipped p h) = u
  have hregs : SameRegs [A.cmdCons p] s u := hu ▸ fun a ha => State.reg_setReg_ne _ _ (by simpa using ha)
  have hcons : u.reg (A.cmdCons p) = s.reg (A.cmdCons p) + BitVec.ofNat 32 (s.skipped p h) := hu ▸ State.reg_setReg_same _ _ _
  have hring : (u.ring p).cap = (s.ring p).cap := hu ▸ State.cap_cmdAdvance _ p _
  have hevq : u.evq = s.evq := hu ▸ rfl
  have hmem : u.mem = s.mem := hu ▸ rfl
  have hout : u.out = s.out ++ slotReads s p 1 := hu ▸ rfl
  have hstate : u.fld (A.cmdSts p) F.cmdSts.state = s.fld (A.cmdSts p) F.cmdSts.state :=
    congrArg (getF · F.cmdSts.state) (hregs _ (by simp [A.cmdCons, A.cmdSts]))
  obtain ⟨-, hkept, -⟩ := u.nack_spec p (BitVec.ofNat 64 (leAt h 4 8)) (BitVec.ofNat 32 (leAt h 20 4)) (s.headerStatus p h) (by omega)
  obtain ⟨hsame, -, -, -, o, ho⟩ := u.nack_frame p (BitVec.ofNat 64 (leAt h 4 8)) (BitVec.ofNat 32 (leAt h 20 4)) (s.headerStatus p h)
  refine ⟨nacks_nack p _ _ _ (by omega) (by rw [hring, hcap]) hevq hmem fun a ha => hregs a fun hm => ha ?_,
    hkept.trans (hstate.trans hrun), ?_, o, by rw [ho, hout]⟩
  · rw [List.mem_singleton.1 hm]
    exact List.mem_cons_of_mem _ List.mem_cons_self
  · rw [hsame _ (cmdCons_not_mem_refuseRegs p), hcons]
    exact add_ofNat_ne _ _ hskip.1 hskip.2

theorem completes_fetch_taken (s : State) (p : Plot) (h : List Byte) (hf : Fetches s p h) (hd : s.dmaOk = true)
    (hc : leAt h 28 4 = (crc32c (h.take 28)).toNat) (hs : s.headerStatus p h = 0) :
    Completes (.capsuleFetch p h) s fun t =>
      (∃ c, (t.ring p).cap = some c ∧ c.cseq.toNat = leAt h 4 8 ∧ c.tag.toNat = leAt h 20 4 ∧ c.gen = leAt h 3 1 ∧
        c.slots = leAt h 0 2 ∧ c.head = h ∧ c.body = none) ∧ t.out = s.out ++ slotReads s p (leAt h 0 2) ∧
      (∀ q, s.wl.serving = some q → s.awaits q = true → t.wl = s.wl) ∧
      ((∀ q, s.awaits q = false) → t.wl = { s.wl with serving := some p.val }) ∧
      t = { s with rings := t.rings, out := t.out, wl := { s.wl with serving := t.wl.serving } } := by
  have hexec := exec_capsuleFetch_of_fetches s p h hf
  obtain ⟨-, -, hcap, -⟩ := hf
  rw [if_pos hd, s.fetchCapsule_taken p h hc hs, s.capReadsOut_eq] at hexec
  refine completes_of_exec hexec ?_
  generalize hu : State.modRing { s with out := s.out ++ slotReads s p (leAt h 0 2) } p (fun x => { x with cap := some (fetchedCap h) }) = u
  have hring : (u.ring p).cap = some (fetchedCap h) := hu ▸ congrArg RingX.cap (State.ring_modRing _ _ _)
  have hframe : u = { s with rings := u.rings, out := s.out ++ slotReads s p (leAt h 0 2) } := hu ▸ rfl
  have hwl : u.wl = s.wl := hu ▸ rfl
  have hothers (q : Nat) (hq : q ≠ p.val) : u.awaits q = s.awaits q := by
    have hsame : u.ring q = s.ring q := hu ▸ KMap.get_set_ne _ _ _ _ hq
    rw [State.awaits, hsame, State.awaits]
  have hidle : s.awaits p = false := by rw [State.awaits, hcap]
  have hwaits : u.awaits p = true := by
    rw [State.awaits, hring]
    rfl
  have hserve := u.serve_frame
  refine ⟨⟨fetchedCap h, ?_, ?_, ?_, rfl, rfl, rfl, rfl⟩, ?_, fun q hq ha => ?_, fun hnone => ?_, ?_⟩
  · rw [hserve]
    exact hring
  · exact Nat.mod_eq_of_lt (leAt_lt h 4 8)
  · exact Nat.mod_eq_of_lt (leAt_lt h 20 4)
  · rw [hserve, hframe]
  · have hne : q ≠ p.val := fun e => by rw [e, hidle] at ha; exact absurd ha (by decide)
    rw [u.serve_of_awaits q (by rw [hwl, hq]) (by rw [hothers q hne, ha]), hwl]
  · have hserving := u.serving_of_only p hwaits fun q hq => by rw [hothers q hq, hnone q]
    rw [hserve, hserving, hwl]
  · rw [hserve, hframe]

theorem completes_fetch_denied (s : State) (p : Plot) (h : List Byte) (hf : Fetches s p h) (hd : s.pcie.busMaster = false) :
    Completes (.capsuleFetch p h) s fun t => (t.ring p).cap = none ∧ t.fld (A.cmdSts p) F.cmdSts.state = 2 ∧
      t.fld (A.cmdSts p) F.cmdSts.nackLast = 1 ∧ t.on (A.pgAlert p) F.pgAlert.fetchErr = true ∧ t.cseqIn p = s.cseqIn p ∧
      t.reg (A.cmdCons p) = s.reg (A.cmdCons p) := by
  have hexec := exec_capsuleFetch_of_fetches s p h hf
  rw [if_neg (by simp [State.dmaOk, hd])] at hexec
  refine completes_of_exec hexec ?_
  unfold State.ringError
  dsimp only
  generalize hu : State.setFld _ (A.cmdSts p) F.cmdSts.nackLast 1 = u
  have hregs : SameRegs [A.cmdSts p] s u := hu ▸ fun a ha =>
    (State.reg_setFld_ne _ _ _ (by simpa using ha)).trans (State.reg_setFld_ne _ _ _ (by simpa using ha))
  have hcap : (u.ring p).cap = none := by rw [← hu, State.ring_setFld, State.ringStop, State.ring_setFld, State.ring_modRing]
  have hstate : u.fld (A.cmdSts p) F.cmdSts.state = 2 := hu ▸
    (State.fld_setFld_disjoint _ _ _ _ _ (by decide) (by decide)).trans (State.fld_setFld_same _ _ _ _ (by decide))
  have hlast : u.fld (A.cmdSts p) F.cmdSts.nackLast = 1 := hu ▸ State.fld_setFld_same _ _ _ _ (by decide)
  have htold : Tells (alertRegs p) p u ((u.pgAlert p F.pgAlert.nack).pgAlert p F.pgAlert.fetchErr) :=
    (tells_pgAlert p u _).trans (tells_pgAlert p _ _)
  have hreg (a : Nat) (ha : a ∉ alertRegs p) (hs : a ≠ A.cmdSts p) :
      ((u.pgAlert p F.pgAlert.nack).pgAlert p F.pgAlert.fetchErr).reg a = s.reg a :=
    (htold.regs a ha).trans (hregs a (by simpa using hs))
  have hsts := htold.regs _ (cmdSts_not_mem_alertRegs p)
  have hlo := hreg (A.wlCseqInLo p) (by simp [alertRegs, A.wlCseqInLo, A.pgAlert, A.msixPba]; omega) (by simp [A.wlCseqInLo, A.cmdSts]; omega)
  have hhi := hreg (A.wlCseqInHi p) (by simp [alertRegs, A.wlCseqInHi, A.pgAlert, A.msixPba]; omega) (by simp [A.wlCseqInHi, A.cmdSts]; omega)
  refine ⟨htold.cap.trans hcap, ?_, ?_, State.on_pgAlert _ p _ (by decide) rfl, ?_, ?_⟩
  · rw [State.fld, hsts, ← State.fld, hstate]
  · rw [State.fld, hsts, ← State.fld, hlast]
  · rw [State.cseqIn, State.cseqIn, State.pair, State.pair, hlo, hhi]
  · exact hreg _ (by simp [alertRegs, A.cmdCons, A.pgAlert, A.msixPba]; omega) (by simp [A.cmdCons, A.cmdSts])

end Sys2Proof.Machine
end

section
/-! ## A capsule is authenticated (R323, R343, R344, R366, R369) -/

namespace Sys2Proof.Machine

open Sys2Proof.Safety

/-! ### What goes to the standby device (R288) -/

theorem tells_modLink (l : List Nat) (p : Nat) (s : State) (k : Nat) (f : KLink → KLink) : Tells l p s (s.modLink k f) :=
  ⟨sameRegs_of_regs l rfl, rfl, rfl, rfl, rfl, [], (List.append_nil _).symm⟩

theorem tells_setLink (l : List Nat) (p : Nat) (s : State) (k : Nat) (x : KLink) : Tells l p s (s.setLink k x) :=
  ⟨sameRegs_of_regs l rfl, rfl, rfl, rfl, rfl, [], (List.append_nil _).symm⟩

theorem tells_emit (l : List Nat) (p : Nat) (s : State) (k : Nat) (bs : List Block) : Tells l p s (s.emit k bs) := by
  have hidle : Tells l p s (s.notIdle k) := tells_modLink l p s k _
  unfold State.emit State.emitBlocks
  split
  · exact (hidle.trans (tells_modLink l p _ k _)).trans (tells_send l p _ _)
  · exact hidle.trans (tells_send l p _ _)

theorem tells_pump (p : Nat) (s : State) (k n : Nat) : Tells [A.klTxDecCnt k] p s (s.pump k n) := by
  induction n generalizing s with
  | zero => exact .refl _ _ s
  | succ n ih =>
    unfold State.pump
    split
    · exact .refl _ _ s
    · split
      · exact .refl _ _ s
      · extract_lets x alive bs s1 s2
        split
        · exact .refl _ _ s
        · have hcounted (u : State) (c : Prop) [Decidable c] : Tells [A.klTxDecCnt k] p u (if c then u.bump (A.klTxDecCnt k) else u) := by
            split
            · exact tells_setReg _ _ u _ _ (List.mem_singleton_self _)
            · exact .refl _ _ u
          exact (((tells_setLink _ p s k _).trans (hcounted s1 _)).trans (tells_emit _ p s2 k bs)).trans (ih _)

/-- The registers of the links that a mirrored capsule changes. -/
def mirrorRegs : List Nat := (List.range 8).map A.klTxDecCnt

theorem tells_pairPost (p : Nat) (s : State) (kind k : Nat) (pl : List Block) (hk : k < 8) : Tells mirrorRegs p s (s.pairPost kind k pl) := by
  unfold State.pairPost State.post
  split
  · extract_lets s1
    refine ((tells_modLink [A.klTxDecCnt k] p s k _).trans (tells_pump p s1 k _)).mono fun a ha => ?_
    rw [List.mem_singleton.1 ha]
    exact List.mem_map_of_mem (List.mem_range.2 hk)
  · exact .refl _ _ s

theorem tells_foldl {α : Type} (l : List Nat) (p : Nat) (g : State → α → State) (h : ∀ s x, Tells l p s (g s x)) (xs : List α) (s : State) :
    Tells l p s (xs.foldl g s) := by
  induction xs generalizing s with
  | nil => exact .refl _ _ s
  | cons x xs ih => exact (h s x).trans (ih _)

theorem tells_mirrorOut (p : Nat) (s : State) (q : Nat) (body : List Byte) : Tells mirrorRegs p s (s.mirrorOut q body) := by
  unfold State.mirrorOut
  split
  · split
    · next k hk =>
      have hlt : k < 8 := List.mem_range.1 (List.mem_of_find?_eq_some hk)
      exact tells_foldl _ p _ (fun u pl => tells_pairPost p u 1 k pl hlt) _ s
    · exact .refl _ _ s
  · exact .refl _ _ s

/-! ### The end of a capsule (R360, R366) -/

theorem State.capEnd_spec (s : State) (p : Nat) : SameRegs [A.cmdSts p] s (s.capEnd p) ∧ (s.capEnd p).evq = s.evq ∧
    (s.capEnd p).mem = s.mem ∧ (s.capEnd p).wl = s.wl ∧ ((s.capEnd p).ring p).cap = none := by
  have hcap : ((s.modRing p fun x => { x with cap := none }).ring p).cap = none := by rw [State.ring_modRing]
  unfold State.capEnd
  extract_lets s1
  split
  · exact ⟨sameRegs_of_regs _ rfl, rfl, rfl, rfl, hcap⟩
  · exact ⟨fun a ha => (State.reg_setFld_ne _ _ _ (by simpa using ha)).trans (State.reg_of_regs rfl a), rfl, rfl, rfl, hcap⟩

/-- The registers that the end of a capsule changes. -/
def doneRegs (p : Nat) : List Nat := A.cmdSts p :: (flushRegs p ++ mirrorRegs)

theorem State.capDone_spec (s : State) (p : Plot) (c : CapX) (status op detail : Nat) :
    SameRegs (doneRegs p) s (s.capDone p c status op detail) ∧ (s.capDone p c status op detail).mem = s.mem ∧
      (s.capDone p c status op detail).wl = s.wl ∧ ((s.capDone p c status op detail).ring p).cap = none := by
  have hmirror := tells_mirrorOut p s p (c.body.getD [])
  generalize hu : s.mirrorOut p (c.body.getD []) = u at hmirror
  obtain ⟨hregs, -, hmem, hwl, hcap⟩ := u.capEnd_spec p
  have hend : SameRegs (doneRegs p) s (u.capEnd p) := fun a ha => by
    simp only [doneRegs, List.mem_cons, List.mem_append, not_or] at ha
    obtain ⟨hsts, -, hlink⟩ := ha
    exact (hregs a (by simpa using hsts)).trans (hmirror.regs a hlink)
  unfold State.capDone
  rw [hu]
  extract_lets s1
  split
  · have hresp := tells_respond p s1 0x81 c.cseq c.tag status op detail c.data
    refine ⟨fun a ha => (hresp.regs a fun hf => ha ?_).trans (hend a ha), hresp.mem.trans (hmem.trans hmirror.mem),
      hresp.wl.trans (hwl.trans hmirror.wl), hresp.cap.trans hcap⟩
    exact List.mem_cons_of_mem _ (List.mem_append_left _ hf)
  · exact ⟨hend, hmem.trans hmirror.mem, hwl.trans hmirror.wl, hcap⟩

/-- Registers that the end of a capsule leaves: they are below the links, or beside the page's own. -/
theorem not_mem_doneRegs {p a : Nat} (h : a < 0x200000 ∨ 0x10000000 ≤ a) (hsts : a ≠ A.cmdSts p) (hprod : a ≠ A.rspProd p) : a ∉ doneRegs p := by
  simp only [doneRegs, flushRegs, mirrorRegs, List.mem_cons, List.mem_append, List.not_mem_nil, or_false, List.mem_map, List.mem_range,
    not_or, not_exists, not_and]
  refine ⟨hsts, ⟨hprod, ?_⟩, fun k hk => ?_⟩
  · simp only [A.msixPba]
    omega
  · simp only [A.klTxDecCnt]
    omega

/-! ### The outcomes -/

/-- Welolyan has served plot `p` and serves none. -/
def State.servedBy (s : State) (p : Nat) : State := { s with wl := { s.wl with serving := none, served := p } }

/-- Welolyan authenticates the capsule of plot `p` (R288, R323, R369). -/
def Serves (s : State) (p : Plot) : Prop := s.henServes = true ∧ s.isStandby = false ∧ s.wl.serving = some p.val

theorem exec_capsuleAuthDone_eq (s : State) (p : Plot) (c : CapX) (cipher tag : List Byte) (hc : (s.ring p).cap = some c) :
    exec (.capsuleAuthDone p cipher tag) s = onlyIf (s.henServes && !s.isStandby && c.body.isNone && s.wl.serving == some p.val) s
      ((s.servedBy p).authDone p c (s.capBody p c cipher tag)).serve := by
  rw [exec_capsuleAuthDone]
  unfold execCapsuleAuthDone
  rw [hc]
  rfl

theorem exec_capsuleAuthDone_waits (s : State) (p : Plot) (c : CapX) (cipher tag : List Byte) (hc : (s.ring p).cap = some c)
    (h : ¬ Serves s p) : exec (.capsuleAuthDone p cipher tag) s = .next s := by
  rw [exec_capsuleAuthDone_eq s p c cipher tag hc]
  refine onlyIf_false _ _ _ ?_
  rw [← Bool.not_eq_true]
  simp only [Bool.and_eq_true, Bool.not_eq_true', beq_iff_eq]
  exact fun ⟨⟨⟨hhen, hstandby⟩, _⟩, hserving⟩ => h ⟨hhen, hstandby, hserving⟩

theorem exec_capsuleAuthDone_serves (s : State) (p : Plot) (c : CapX) (cipher tag : List Byte) (hc : (s.ring p).cap = some c)
    (hb : c.body = none) (h : Serves s p) : exec (.capsuleAuthDone p cipher tag) s =
      .next ((s.servedBy p).authDone p c (s.capBody p c cipher tag)).serve := by
  obtain ⟨hhen, hstandby, hserving⟩ := h
  rw [exec_capsuleAuthDone_eq s p c cipher tag hc]
  exact onlyIf_true _ _ _ (by simp [hhen, hstandby, hb, hserving])

/-- Once Welolyan serves none, the plot after the one served last is next. -/
theorem servesNext_serve {u : State} {p : Nat} (hserving : u.wl.serving = none) (hserved : u.wl.served = p) : ServesNext p u.serve := by
  have hnext := u.serving_serve fun q hq => by rw [hserving] at hq; exact absurd hq (by simp)
  have hframe := u.serve_frame
  have hawaits : u.serve.awaits = u.awaits := by rw [hframe]; rfl
  refine ⟨?_, ?_⟩
  · rw [hframe]
    exact hserved
  · rw [hnext, hawaits, hserved]

/-- Whose turn is next is nothing that a NACK tells. -/
theorem nacks_serve {s u : State} {p status : Nat} (h : Nacks p status s u) : Nacks p status s u.serve := by
  rw [u.serve_frame]
  exact h

/-- The refusal of a capsule that has been fetched (R344). -/
def State.capRefused (s : State) (p : Nat) (c : CapX) (status : Nat) : State :=
  ((s.capEnd p).cmdAdvance p c.slots).nack p c.cseq c.tag status

theorem State.authDone_unkeyed (s : State) (p : Nat) (c : CapX) (body : Option (List Byte)) (h : s.keyed p = false) :
    s.authDone p c body = s.capRefused p c 5 := if_pos (by simp [h])

theorem State.authDone_oldKey (s : State) (p : Nat) (c : CapX) (body : Option (List Byte)) (h : s.keyed p = true)
    (hg : c.gen ≠ s.keyGen p) : s.authDone p c body = s.capRefused p c 6 :=
  (if_neg (by simp [h])).trans (if_pos hg)

theorem State.authDone_failed (s : State) (p : Nat) (c : CapX) (h : s.keyed p = true) (hg : c.gen = s.keyGen p) :
    s.authDone p c none = s.capRefused p c 8 :=
  (if_neg (by simp [h])).trans (if_neg (by simp [hg]))

/-- The state in which an authenticated capsule has been accepted. -/
def State.capAccepted (s : State) (p : Nat) (c : CapX) : State :=
  ((s.setPair (A.wlCseqInLo p) (A.wlCseqInHi p) (s.cseqIn p + 1)).bump (A.capOkCnt p)).cmdAdvance p c.slots

theorem State.authDone_passed (s : State) (p : Nat) (c : CapX) (b : List Byte) (h : s.keyed p = true) (hg : c.gen = s.keyGen p) :
    s.authDone p c (some b) = if b = [] then (s.capAccepted p c).capDone p c 0 0xFFFF 0
      else (s.capAccepted p c).modRing p fun x => { x with cap := some { c with body := some b } } :=
  (if_neg (by simp [h])).trans (if_neg (by simp [hg]))

theorem completes_capRefused (s : State) (p : Plot) (c : CapX) (cipher tag : List Byte) (status : Nat) (hst : status < 256)
    (hexec : exec (.capsuleAuthDone p cipher tag) s = .next ((s.servedBy p).capRefused p c status).serve) :
    Completes (.capsuleAuthDone p cipher tag) s fun t => Nacks p status s t ∧ ServesNext p t ∧
      t.reg (A.cmdCons p) = s.reg (A.cmdCons p) + BitVec.ofNat 32 c.slots := by
  refine completes_of_exec hexec ?_
  obtain ⟨hregs, hevq, hmem, hwl, hcap⟩ := (s.servedBy p).capEnd_spec p
  unfold State.capRefused
  generalize (s.servedBy p).capEnd p = v at hregs hevq hmem hwl hcap ⊢
  have hadvance : SameRegs [A.cmdSts p, A.cmdCons p] s (v.cmdAdvance p c.slots) := fun a ha => by
    simp only [List.mem_cons, List.not_mem_nil, or_false, not_or] at ha
    exact (State.reg_setReg_ne v _ ha.2).trans (hregs a (by simpa using ha.1))
  have hcons : (v.cmdAdvance p c.slots).reg (A.cmdCons p) = s.reg (A.cmdCons p) + BitVec.ofNat 32 c.slots := by
    have hold : v.reg (A.cmdCons p) = s.reg (A.cmdCons p) := hregs _ (by simp [A.cmdCons, A.cmdSts])
    rw [← hold]
    exact v.reg_setReg_same _ _
  have hmoved : (v.cmdAdvance p c.slots).evq = v.evq ∧ (v.cmdAdvance p c.slots).mem = v.mem ∧ (v.cmdAdvance p c.slots).wl = v.wl :=
    ⟨rfl, rfl, rfl⟩
  have hfree := (v.cap_cmdAdvance p c.slots).trans hcap
  generalize v.cmdAdvance p c.slots = u at hadvance hcons hmoved hfree ⊢
  obtain ⟨hevq', hmem', hwl'⟩ := hmoved
  obtain ⟨hsame, -, hkept, -, -⟩ := u.nack_frame p c.cseq c.tag status
  have hserved : (u.nack p c.cseq c.tag status).wl = (s.servedBy p).wl := hkept.trans (hwl'.trans hwl)
  refine ⟨nacks_serve (nacks_nack p _ _ status hst hfree (hevq'.trans hevq) (hmem'.trans hmem) hadvance),
    servesNext_serve (by rw [hserved]; rfl) (by rw [hserved]; rfl), ?_⟩
  rw [State.serve_frame]
  exact (hsame _ (cmdCons_not_mem_refuseRegs p)).trans hcons

theorem State.setPair_regs (s : State) (lo hi v a : Nat) :
    (s.setPair lo hi v).reg a = ((s.setReg lo (BitVec.ofNat 32 v)).setReg hi (BitVec.ofNat 32 (v / 2 ^ 32))).reg a := by
  unfold State.setPair State.arrived
  split
  · rfl
  · rfl

/-- A pair of registers reads as it was written, of 64 bits. -/
theorem State.pair_setPair (s : State) (lo hi v : Nat) (h : lo ≠ hi) : (s.setPair lo hi v).pair lo hi = v % 2 ^ 64 := by
  rw [State.pair, s.setPair_regs, s.setPair_regs, State.reg_setReg_same, State.reg_setReg_ne _ _ h, State.reg_setReg_same,
    BitVec.toNat_ofNat, BitVec.toNat_ofNat]
  omega

theorem State.setPair_frame (s : State) (lo hi v : Nat) : (s.setPair lo hi v).mem = s.mem ∧ (s.setPair lo hi v).wl = s.wl := by
  unfold State.setPair State.arrived
  split
  · exact ⟨rfl, rfl⟩
  · exact ⟨rfl, rfl⟩

/-- An accepted capsule: its number, its count, and the ring's index have moved on (R344). -/
theorem State.capAccepted_spec (s : State) (p : Plot) (c : CapX) :
    (s.capAccepted p c).cseqIn p = (s.cseqIn p + 1) % 2 ^ 64 ∧ CountsUp (A.capOkCnt p) 1 s (s.capAccepted p c) ∧
      (s.capAccepted p c).reg (A.cmdCons p) = s.reg (A.cmdCons p) + BitVec.ofNat 32 c.slots ∧
      (s.capAccepted p c).mem = s.mem ∧ (s.capAccepted p c).wl = s.wl := by
  obtain ⟨hmem, hwl⟩ := s.setPair_frame (A.wlCseqInLo p) (A.wlCseqInHi p) (s.cseqIn p + 1)
  have hpair := s.pair_setPair (A.wlCseqInLo p) (A.wlCseqInHi p) (s.cseqIn p + 1) (by simp [A.wlCseqInLo, A.wlCseqInHi])
  have hreg := s.setPair_regs (A.wlCseqInLo p) (A.wlCseqInHi p) (s.cseqIn p + 1)
  unfold State.capAccepted
  generalize s.setPair (A.wlCseqInLo p) (A.wlCseqInHi p) (s.cseqIn p + 1) = u at hmem hwl hpair hreg
  have hadvance (v : State) (a : Nat) (ha : a ≠ A.cmdCons p) : (v.cmdAdvance p c.slots).reg a = v.reg a := State.reg_setReg_ne v _ ha
  have hbump (a : Nat) (ha : a ≠ A.capOkCnt p) : (u.bump (A.capOkCnt p)).reg a = u.reg a := State.reg_setReg_ne u _ ha
  have hlo : A.wlCseqInLo p ≠ A.cmdCons p ∧ A.wlCseqInLo p ≠ A.capOkCnt p := by simp only [A.wlCseqInLo, A.cmdCons, A.capOkCnt]; omega
  have hhi : A.wlCseqInHi p ≠ A.cmdCons p ∧ A.wlCseqInHi p ≠ A.capOkCnt p := by simp only [A.wlCseqInHi, A.cmdCons, A.capOkCnt]; omega
  have hok : A.capOkCnt p ≠ A.cmdCons p := by simp [A.capOkCnt, A.cmdCons]
  refine ⟨?_, ?_, ?_, hmem, hwl⟩
  · rw [State.cseqIn, State.pair, hadvance _ _ hlo.1, hadvance _ _ hhi.1, hbump _ hlo.2, hbump _ hhi.2, ← State.pair, hpair]
  · rw [CountsUp, hadvance _ _ hok, u.reg_bump, hreg, State.reg_setReg_ne _ _ hhi.2.symm, State.reg_setReg_ne _ _ hlo.2.symm]
  · have hcons : (u.bump (A.capOkCnt p)).reg (A.cmdCons p) = s.reg (A.cmdCons p) := by
      rw [hbump _ hok.symm, hreg, State.reg_setReg_ne _ _ hhi.1.symm, State.reg_setReg_ne _ _ hlo.1.symm]
    rw [← hcons]
    exact State.reg_setReg_same _ _ _

theorem completes_capAccepted (s : State) (p : Plot) (c : CapX) (cipher tag b : List Byte)
    (hexec : exec (.capsuleAuthDone p cipher tag) s = .next (if b = [] then ((s.servedBy p).capAccepted p c).capDone p c 0 0xFFFF 0
      else ((s.servedBy p).capAccepted p c).modRing p fun x => { x with cap := some { c with body := some b } }).serve) :
    Completes (.capsuleAuthDone p cipher tag) s fun t =>
      (b ≠ [] → (t.ring p).cap = some { c with body := some b }) ∧ (b = [] → (t.ring p).cap = none) ∧
      t.cseqIn p = (s.cseqIn p + 1) % 2 ^ 64 ∧ CountsUp (A.capOkCnt p) 1 s t ∧
      t.reg (A.cmdCons p) = s.reg (A.cmdCons p) + BitVec.ofNat 32 c.slots ∧ ServesNext p t ∧ SameBytes s t := by
  obtain ⟨hcseq, hcount, hcons, hmem, hwl⟩ := (s.servedBy p).capAccepted_spec p c
  generalize (s.servedBy p).capAccepted p c = v at hexec hcseq hcount hcons hmem hwl
  have hends : ∃ u, exec (.capsuleAuthDone p cipher tag) s = .next u.serve ∧ SameRegs (doneRegs p) v u ∧ u.mem = v.mem ∧ u.wl = v.wl ∧
      (b ≠ [] → (u.ring p).cap = some { c with body := some b }) ∧ (b = [] → (u.ring p).cap = none) := by
    by_cases hb : b = []
    · rw [if_pos hb] at hexec
      obtain ⟨hregs, hbytes, hkept, hcap⟩ := v.capDone_spec p c 0 0xFFFF 0
      exact ⟨_, hexec, hregs, hbytes, hkept, fun h => absurd hb h, fun _ => hcap⟩
    · rw [if_neg hb] at hexec
      exact ⟨_, hexec, sameRegs_of_regs _ rfl, rfl, rfl, fun _ => by rw [State.ring_modRing], fun h => absurd h hb⟩
  obtain ⟨u, hnext, hregs, hbytes, hkept, hsome, hnone⟩ := hends
  have hserved : u.wl = (s.servedBy p).wl := hkept.trans hwl
  have hlo := hregs (A.wlCseqInLo p) (not_mem_doneRegs (.inl (by simp only [A.wlCseqInLo]; omega)) (by simp only [A.wlCseqInLo, A.cmdSts]; omega)
    (by simp only [A.wlCseqInLo, A.rspProd]; omega))
  have hhi := hregs (A.wlCseqInHi p) (not_mem_doneRegs (.inl (by simp only [A.wlCseqInHi]; omega)) (by simp only [A.wlCseqInHi, A.cmdSts]; omega)
    (by simp only [A.wlCseqInHi, A.rspProd]; omega))
  have hok := hregs (A.capOkCnt p) (not_mem_doneRegs (.inr (by simp only [A.capOkCnt]; omega)) (by simp [A.capOkCnt, A.cmdSts])
    (by simp [A.capOkCnt, A.rspProd]))
  have hidx := hregs (A.cmdCons p) (not_mem_doneRegs (.inr (by simp only [A.cmdCons]; omega)) (by simp [A.cmdCons, A.cmdSts])
    (by simp [A.cmdCons, A.rspProd]))
  have hnextServed := servesNext_serve (u := u) (p := p) (by rw [hserved]; rfl) (by rw [hserved]; rfl)
  refine completes_of_exec hnext ⟨fun hb => ?_, fun hb => ?_, ?_, ?_, ?_, hnextServed, fun a => ?_⟩
  · rw [u.serve_frame]
    exact hsome hb
  · rw [u.serve_frame]
    exact hnone hb
  · have hpair : u.cseqIn p = v.cseqIn p := congrArg₂ (fun x y : Word => x.toNat + 2 ^ 32 * y.toNat) hlo hhi
    rw [u.serve_frame]
    exact hpair.trans hcseq
  · rw [u.serve_frame]
    exact (congrArg BitVec.toNat hok).trans hcount
  · rw [u.serve_frame]
    exact hidx.trans hcons
  · rw [u.serve_frame]
    exact congrArg (fun m : List Host.Cell => KMap.get 0 m a) (hbytes.trans hmem)

theorem completes_capsuleAuthDone (s : State) (p : Plot) (c : CapX) (cipher tag : List Byte) (hc : (s.ring p).cap = some c)
    (hb : c.body = none) :
    (¬ Serves s p → Completes (.capsuleAuthDone p cipher tag) s (· = s)) ∧
    (Serves s p → s.keyed p = false → Completes (.capsuleAuthDone p cipher tag) s fun t => Nacks p 5 s t ∧ ServesNext p t ∧
      t.reg (A.cmdCons p) = s.reg (A.cmdCons p) + BitVec.ofNat 32 c.slots) ∧
    (Serves s p → s.keyed p = true → c.gen ≠ s.keyGen p → Completes (.capsuleAuthDone p cipher tag) s fun t => Nacks p 6 s t ∧
      ServesNext p t ∧ t.reg (A.cmdCons p) = s.reg (A.cmdCons p) + BitVec.ofNat 32 c.slots) ∧
    (Serves s p → s.keyed p = true → c.gen = s.keyGen p →
      (s.capBody p c cipher tag = none → Completes (.capsuleAuthDone p cipher tag) s fun t => Nacks p 8 s t ∧ ServesNext p t ∧
        t.reg (A.cmdCons p) = s.reg (A.cmdCons p) + BitVec.ofNat 32 c.slots) ∧
      (∀ b, s.capBody p c cipher tag = some b →
        Completes (.capsuleAuthDone p cipher tag) s fun t =>
          (b ≠ [] → (t.ring p).cap = some { c with body := some b }) ∧ (b = [] → (t.ring p).cap = none) ∧
          t.cseqIn p = (s.cseqIn p + 1) % 2 ^ 64 ∧ CountsUp (A.capOkCnt p) 1 s t ∧
          t.reg (A.cmdCons p) = s.reg (A.cmdCons p) + BitVec.ofNat 32 c.slots ∧ ServesNext p t ∧ SameBytes s t)) := by
  have hexec (hs : Serves s p) := exec_capsuleAuthDone_serves s p c cipher tag hc hb hs
  have hkeyed : (s.servedBy p).keyed p = s.keyed p := rfl
  have hgen : (s.servedBy p).keyGen p = s.keyGen p := rfl
  refine ⟨fun hs => completes_of_exec (exec_capsuleAuthDone_waits s p c cipher tag hc hs) rfl, fun hs hk => ?_, fun hs hk hg => ?_,
    fun hs hk hg => ⟨fun hbad => ?_, fun b hgood => ?_⟩⟩
  · exact completes_capRefused s p c cipher tag 5 (by decide)
      (by rw [hexec hs, (s.servedBy p).authDone_unkeyed p c _ (hkeyed.trans hk)])
  · exact completes_capRefused s p c cipher tag 6 (by decide)
      (by rw [hexec hs, (s.servedBy p).authDone_oldKey p c _ (hkeyed.trans hk) hg])
  · exact completes_capRefused s p c cipher tag 8 (by decide)
      (by rw [hexec hs, hbad, (s.servedBy p).authDone_failed p c (hkeyed.trans hk) hg])
  · exact completes_capAccepted s p c cipher tag b
      (by rw [hexec hs, hgood, (s.servedBy p).authDone_passed p c b (hkeyed.trans hk) hg])

/-- Settles O46: each clause is the rule above of its command. -/
theorem doorbellsRingsAndCapsuleFetch : Obligations.DoorbellsRingsAndCapsuleFetch := by
  unfold Obligations.DoorbellsRingsAndCapsuleFetch
  refine ⟨⟨completes_pageUndefined, fun s p w h hw => ?_, fun s p ring w h => ?_, completes_cmdRingRestart⟩,
    fun s p h hen hstate hcap hprod hd hroom hstandby hhen hlen => ?_,
    fun s p h hen hstate hcap hprod hbus hd3 hperst hroom hstandby hhen hlen => ?_, completes_capsuleAuthDone⟩
  · obtain ⟨hcmd, hcmdBad⟩ := completes_indexWrite s (.commandDoorbell p w) spec_cmdProd p (A.cmdProd p) w _ _ _ (exec_commandDoorbell p w s) h
      (by simp only [A.cmdProd]; omega) hw rfl
    obtain ⟨hrsp, hrspBad⟩ := completes_indexWrite s (.rspConsWrite p w) spec_rspCons p (A.rspCons p) w _ _ _ (exec_rspConsWrite p w s) h
      (by simp only [A.rspCons]; omega) hw rfl
    obtain ⟨hrr, hrrBad⟩ := completes_indexWrite s (.rrConsWrite p w) spec_rrCons p (A.rrCons p) w _ _ _ (exec_rrConsWrite p w s) h
      (by simp only [A.rrCons]; omega) hw rfl
    exact ⟨hcmd, hcmdBad, hrsp, hrspBad, hrr, hrrBad⟩
  · exact ⟨completes_ringEnable_taken s p ring w h, completes_ringEnable_refused s p ring w h⟩
  · have hdma := hd
    simp only [State.dmaOk, Bool.and_eq_true, Bool.not_eq_true'] at hdma
    have hf : Fetches s p h := ⟨hen, hstate, hcap, hprod, hdma.1.2, hdma.2, hroom, hstandby, hhen, hlen⟩
    exact ⟨completes_fetch_badCrc s p h hf hd, fun hc =>
      ⟨completes_fetch_skipped s p h hf hd hc, completes_fetch_taken s p h hf hd hc⟩⟩
  · exact completes_fetch_denied s p h ⟨hen, hstate, hcap, hprod, hd3, hperst, hroom, hstandby, hhen, hlen⟩ hbus

end Sys2Proof.Machine
end

section
/-! ## Writes of command registers, and device time (R10, R45–R50) -/

namespace Sys2Proof.Machine

open Sys2Proof.Safety

/-! ### Registers that only take commands -/

/-- A field takes the value that it has. -/
theorem putF_getF_self (v : Word) (f : Fld) (h : f.ok) : putF v f (getF v f) = v := by
  apply BitVec.eq_of_toNat_eq
  rw [putF_toNat v f _ h]
  simp only [Fld.ok, Bool.and_eq_true, decide_eq_true_eq] at h
  have hpow : 2 ^ (f.hi + 1) = 2 ^ f.lo * 2 ^ (f.hi + 1 - f.lo) := by rw [← Nat.pow_add]; congr 1; omega
  have hdiv : v.toNat / 2 ^ (f.hi + 1) = v.toNat / 2 ^ f.lo / 2 ^ (f.hi + 1 - f.lo) := by rw [hpow, Nat.div_div_eq_div_mul]
  unfold getF
  rw [Nat.mod_mod, hdiv, hpow]
  generalize hq : v.toNat / 2 ^ f.lo = q
  have hv := Nat.div_add_mod v.toNat (2 ^ f.lo)
  have hqm := Nat.div_add_mod q (2 ^ (f.hi + 1 - f.lo))
  rw [hq] at hv
  calc _ = 2 ^ f.lo * (2 ^ (f.hi + 1 - f.lo) * (q / 2 ^ (f.hi + 1 - f.lo)) + q % 2 ^ (f.hi + 1 - f.lo)) + v.toNat % 2 ^ f.lo := by ring
    _ = v.toNat := by rw [hqm, hv]

/-- A register whose fields keep what they hold when they are written: a write of it is only a command (R10). -/
def RegSpec.commands (r : RegSpec) : Bool :=
  r.fields.all fun f => f.fld.ok && (f.acc == .w1s || f.acc == .ro || f.acc == .wo || f.acc == .rc)

theorem mergeWord_commands (r : RegSpec) (lock : Bool) (old w : Word) (h : r.commands = true) : mergeWord r.fields lock old w = old := by
  unfold RegSpec.commands at h
  unfold mergeWord
  generalize r.fields = fs at h
  induction fs with
  | nil => rfl
  | cons f fs ih =>
    simp only [List.all_cons, Bool.and_eq_true] at h
    obtain ⟨⟨hok, hacc⟩, hfs⟩ := h
    have hkeep : fieldWrite f lock (getF old f.fld) (getF w f.fld) = getF old f.fld := by
      unfold fieldWrite
      cases hc : f.acc <;> simp_all <;> rfl
    rw [List.foldl_cons, hkeep, putF_getF_self _ _ hok]
    exact ih hfs

/-- A host write of a command register that is open and not denied: its effect, on a state that reads the same registers. -/
theorem State.hostWrite_command (s : State) (r : RegSpec) (a : Nat) (w : Word) (deny : Option Refuse) (eff : State → State) (off : Nat)
    (h : HostOpen s a) (hd : deny = none) (hl : r.fields.all (fun f => !f.lk) = true) (hr : r.commands = true) :
    State.hostWrite (s.write .host r a w deny eff) off = eff (s.setReg a (s.reg a)) := by
  rw [s.hostWrite_eff r a w deny eff off h hd (.inr hl), State.hostMerged, mergeWord_commands r _ _ _ hr]

theorem onlyRegs_rewrite (s : State) (a : Nat) : OnlyRegs [] s (s.setReg a (s.reg a)) :=
  ⟨fun b _ => by rw [s.reg_setReg]; split <;> simp_all, rfl⟩

theorem State.reg_rewrite (s : State) (a b : Nat) : (s.setReg a (s.reg a)).reg b = s.reg b :=
  (onlyRegs_rewrite s a).1 b List.not_mem_nil

theorem State.fld_of_reg {s t : State} {a : Nat} (h : t.reg a = s.reg a) (f : Fld) : t.fld a f = s.fld a f := by
  unfold State.fld; rw [h]

theorem State.on_of_reg {s t : State} {a : Nat} (h : t.reg a = s.reg a) (f : Fld) : t.on a f = s.on a f := by
  unfold State.on; rw [State.fld_of_reg h]

theorem State.pair_of_reg {s t : State} {lo hi : Nat} (hlo : t.reg lo = s.reg lo) (hhi : t.reg hi = s.reg hi) :
    t.pair lo hi = s.pair lo hi := by
  unfold State.pair; rw [hlo, hhi]

end Sys2Proof.Machine
end

section
namespace Sys2Proof.Machine

open Sys2Proof.Safety

/-! ### The pending load (R47, R49, R50) -/

theorem hostOpen_dtLoadCtl {s : State} (h : s.live = true) : HostOpen s A.dtLoadCtl :=
  (hostOpen_low_iff s A.dtLoadCtl h (by decide)).2 fun hk => absurd hk.2 (by decide)

/-- The state that a write of DT_LOAD_CTL commands: it reads as before. -/
def State.loadCommanded (s : State) : State := s.setReg A.dtLoadCtl (s.reg A.dtLoadCtl)

theorem State.loadCommanded_onlyRegs (s : State) : OnlyRegs [] s s.loadCommanded := onlyRegs_rewrite s A.dtLoadCtl

theorem State.reg_loadCommanded (s : State) (a : Nat) : s.loadCommanded.reg a = s.reg a := s.reg_rewrite A.dtLoadCtl a

theorem State.hostWrite_loadCtl (s : State) (w : Word) (h : s.live = true) :
    State.hostWrite (s.writeLoadCtl .host w) A.dtLoadCtl = s.loadCommanded.loadCtl w :=
  s.hostWrite_command spec_dtLoadCtl A.dtLoadCtl w none _ _ (hostOpen_dtLoadCtl h) rfl (by decide) (by decide)

theorem exec_dtArmNow_live (s : State) (w : Word) (h : s.live = true) :
    exec (.dtArmNow w) s = .next (s.loadCommanded.loadCtl (putF w F.dtLoadCtl.armNow 1)) :=
  congrArg Host.Outcome.next (s.hostWrite_loadCtl _ h)

theorem exec_dtArmPps_live (s : State) (w : Word) (h : s.live = true) :
    exec (.dtArmPps w) s = .next (s.loadCommanded.loadCtl (putF w F.dtLoadCtl.armPps 1)) :=
  congrArg Host.Outcome.next (s.hostWrite_loadCtl _ h)

theorem exec_dtLoadCancel_live (s : State) (w : Word) (h : s.live = true) :
    exec (.dtLoadCancel w) s = .next (s.loadCommanded.loadCtl (putF w F.dtLoadCtl.cancel 1)) :=
  congrArg Host.Outcome.next (s.hostWrite_loadCtl _ h)

theorem State.loadCtl_now (s : State) (w : Word) (hc : getF w F.dtLoadCtl.cancel = 0) (hn : getF w F.dtLoadCtl.armNow = 1) :
    s.loadCtl w = s.loadArm (some (s.tm.now + 4)) := by
  simp [State.loadCtl, hc, hn]

theorem State.loadCtl_pps (s : State) (w : Word) (hc : getF w F.dtLoadCtl.cancel = 0) (hn : getF w F.dtLoadCtl.armNow = 0)
    (hp : getF w F.dtLoadCtl.armPps = 1) : s.loadCtl w = s.loadArm none := by
  simp [State.loadCtl, hc, hn, hp]

theorem State.loadCtl_cancel (s : State) (w : Word) (hc : getF w F.dtLoadCtl.cancel = 1) (hn : getF w F.dtLoadCtl.armNow = 0)
    (hp : getF w F.dtLoadCtl.armPps = 0) : s.loadCtl w = s.loadDrop := by
  simp [State.loadCtl, hc, hn, hp]

/-- CANCEL with an arm bit has no effect (R49). -/
theorem State.loadCtl_cancel_arm (s : State) (w : Word) (hc : getF w F.dtLoadCtl.cancel = 1)
    (h : getF w F.dtLoadCtl.armNow = 1 ∨ getF w F.dtLoadCtl.armPps = 1) : s.loadCtl w = s := by
  simp [State.loadCtl, hc, h]

/-! The bits of a word of DT_LOAD_CTL after one of them is set. -/

theorem getF_putF_one (v : Word) (f : Fld) (h : f.ok) (hb : f.hi = f.lo) : getF (putF v f 1) f = 1 := by
  rw [getF_putF_same _ _ _ h, hb, Nat.add_sub_cancel_left]
  rfl

theorem getF_putF_ne (v : Word) (f g : Fld) (x : Nat) (h : f.ok) (d : f.hi < g.lo ∨ g.hi < f.lo) : getF (putF v f x) g = getF v g :=
  d.elim (getF_putF_above v f g x h) (getF_putF_below v f g x h)

theorem loadRefused_of_reg {s t : State} (h : ∀ a, t.reg a = s.reg a) : t.loadRefused = s.loadRefused := by
  have hstopped : t.stopped = s.stopped := funext fun p => congrArg (· == 0) (State.fld_of_reg (h _) _)
  rw [State.loadRefused, State.loadRefused, State.allStopped, State.allStopped, hstopped, State.on_of_reg (h _)]

theorem State.loadDrop_sameRegs (s : State) : SameRegs [A.dtSts] s s.loadDrop := fun _ ha =>
  State.reg_setFld_ne s _ _ (List.ne_of_not_mem_cons ha)

theorem State.loadDrop_pend (s : State) : s.loadDrop.fld A.dtSts F.dtSts.loadPend = 0 := s.fld_setFld_same _ _ _ (by decide)

theorem State.loadArm_refused (s : State) (due : Option Nat) (h : s.loadRefused = true) :
    s.loadArm due = s.loadDrop.raise A.dtSts F.dtSts.loadRefused 1 := if_pos h

/-- A refused load leaves the record of the refusal and no load pending. -/
theorem State.loadDrop_refusal (s : State) :
    (s.loadDrop.raise A.dtSts F.dtSts.loadRefused 1).fld A.dtSts F.dtSts.loadPend = 0 ∧
    (s.loadDrop.raise A.dtSts F.dtSts.loadRefused 1).fld A.dtSts F.dtSts.loadRefused = 1 ∧
    SameRegs [A.dtSts] s (s.loadDrop.raise A.dtSts F.dtSts.loadRefused 1) :=
  ⟨(State.fld_raise_disjoint _ _ _ _ _ (by decide) (by decide)).trans s.loadDrop_pend,
    State.fld_raise_bit _ _ _ (by decide) rfl, sameRegs_trans s.loadDrop_sameRegs (sameRegs_raise _ _ _ _)⟩

/-- A load that is armed takes the value that DT_LOAD holds, and waits. -/
theorem State.loadArm_accepted (s : State) (due : Option Nat) (h : s.loadRefused = false) :
    (s.loadArm due).tm.loadAt = due ∧ (s.loadArm due).tm.loadVal.toNat = s.pair A.dtLoadLo A.dtLoadHi ∧
    (s.loadArm due).tm.dt = s.tm.dt ∧ (s.loadArm due).fld A.dtSts F.dtSts.loadPend = 1 ∧ SameRegs [A.dtSts] s (s.loadArm due) ∧
    s.loadArm due = { s with regs := (s.loadArm due).regs, tie := (s.loadArm due).tie, tm := (s.loadArm due).tm } := by
  have harm : s.loadArm due = { s.loadDrop.setFld A.dtSts F.dtSts.loadPend 1 with
      tm := { s.loadDrop.tm with loadVal := BitVec.ofNat 64 (s.pair A.dtLoadLo A.dtLoadHi), loadAt := due } } := by
    simp [State.loadArm, h]
  have hpair : s.pair A.dtLoadLo A.dtLoadHi < 2 ^ 64 := by
    have hlo := (s.reg A.dtLoadLo).isLt
    have hhi := (s.reg A.dtLoadHi).isLt
    unfold State.pair
    omega
  rw [harm]
  refine ⟨rfl, Nat.mod_eq_of_lt hpair, rfl, State.fld_setFld_same _ _ _ _ (by decide), fun a ha => ?_, rfl⟩
  exact (State.reg_setFld_ne s.loadDrop _ _ (List.ne_of_not_mem_cons ha)).trans (s.loadDrop_sameRegs a ha)

/-- An accepted arm, through the write that commands it. -/
theorem State.loadArm_commanded (s : State) (due : Option Nat) (h : s.loadRefused = false) (t : State)
    (ht : t = s.loadCommanded.loadArm due) :
    t.tm.loadAt = due ∧ t.tm.loadVal.toNat = s.pair A.dtLoadLo A.dtLoadHi ∧ t.tm.dt = s.tm.dt ∧
    t.fld A.dtSts F.dtSts.loadPend = 1 ∧ SameRegs [A.dtSts] s t ∧ t = { s with regs := t.regs, tie := t.tie, tm := t.tm } := by
  subst ht
  have hacc := (loadRefused_of_reg s.reg_loadCommanded).trans h
  obtain ⟨hat, hval, hdt, hpend, hregs, hframe⟩ := s.loadCommanded.loadArm_accepted due hacc
  rw [State.pair_of_reg (s.reg_loadCommanded _) (s.reg_loadCommanded _)] at hval
  exact ⟨hat, hval, hdt, hpend, sameRegs_trans (fun a _ => s.reg_loadCommanded a) hregs, hframe⟩

/-! ### The load tick (R46, R47) -/

theorem State.setDT_dt (s : State) (v : BitVec 64) : (s.setDT v).tm.dt = v := by
  unfold State.setDT
  dsimp only
  split
  · next h => exact (BitVec.eq_of_toNat_eq h).symm
  · rfl

theorem State.setDT_reg (s : State) (v : BitVec 64) (a : Nat) : (s.setDT v).reg a = s.reg a := by
  unfold State.setDT
  dsimp only
  split <;> rfl

theorem exec_dtLoad_due (s : State) (hp : s.on A.dtSts F.dtSts.loadPend = true) (ha : s.tm.loadAt = some s.tm.now) :
    exec .dtLoad s = .next s.loadNow := by
  simp [execDtLoad, onlyIf, hp, ha]

theorem State.loadNow_accepted (s : State) (h : s.loadRefused = false) :
    s.loadNow = (s.loadDrop.setDT s.tm.loadVal).setFld A.dtSts F.dtSts.source 1 := by
  simp [State.loadNow, h]

theorem State.loadNow_refused (s : State) (h : s.loadRefused = true) :
    s.loadNow = s.loadDrop.raise A.dtSts F.dtSts.loadRefused 1 := if_pos h

/-! ### The settled statements -/

/-- Settles O12: the write of DT_LOAD_CTL leaves its register as it is and commands the arm or the withdrawal; the load tick either
writes DT or is refused. -/
theorem deviceTimeLoads : Obligations.DeviceTimeLoads := by
  unfold Obligations.DeviceTimeLoads
  refine ⟨fun s w hl hr hc => ?_, fun s w hl hr hc hn => ?_, fun s w hl hr hc => ?_, fun s w hl hn hp => ?_,
    fun s hp ha hr => ?_, fun s hp ha hr => ?_⟩
  · refine completes_of_exec (exec_dtArmNow_live s w hl) (s.loadArm_commanded _ hr _ (State.loadCtl_now _ _ ?_ ?_))
    · rw [getF_putF_ne _ _ _ _ (by decide) (by decide), hc]
    · exact getF_putF_one _ _ (by decide) rfl
  · refine completes_of_exec (exec_dtArmPps_live s w hl) (s.loadArm_commanded _ hr _ (State.loadCtl_pps _ _ ?_ ?_ ?_))
    · rw [getF_putF_ne _ _ _ _ (by decide) (by decide), hc]
    · rw [getF_putF_ne _ _ _ _ (by decide) (by decide), hn]
    · exact getF_putF_one _ _ (by decide) rfl
  · have hctl := s.loadCommanded.loadCtl_now (putF w F.dtLoadCtl.armNow 1)
      ((getF_putF_ne _ _ _ _ (by decide) (by decide)).trans hc) (getF_putF_one _ _ (by decide) rfl)
    have href := (loadRefused_of_reg s.reg_loadCommanded).trans hr
    refine completes_of_exec (exec_dtArmNow_live s w hl) ?_
    rw [hctl, State.loadArm_refused _ _ href]
    obtain ⟨hpend, hrefused, hregs⟩ := s.loadCommanded.loadDrop_refusal
    exact ⟨hpend, hrefused, rfl, sameRegs_trans (fun a _ => s.reg_loadCommanded a) hregs⟩
  · have hctl := s.loadCommanded.loadCtl_cancel (putF w F.dtLoadCtl.cancel 1) (getF_putF_one _ _ (by decide) rfl)
      ((getF_putF_ne _ _ _ _ (by decide) (by decide)).trans hn) ((getF_putF_ne _ _ _ _ (by decide) (by decide)).trans hp)
    refine completes_of_exec (exec_dtLoadCancel_live s w hl) ?_
    rw [hctl]
    exact ⟨State.loadDrop_pend _, rfl, rfl, sameRegs_trans (fun a _ => s.reg_loadCommanded a) (State.loadDrop_sameRegs _)⟩
  · refine completes_of_exec (exec_dtLoad_due s hp ha) ?_
    rw [State.loadNow_accepted s hr]
    exact ⟨State.setDT_dt _ _, (State.fld_setFld_disjoint _ _ _ _ _ (by decide) (by decide)).trans
      ((State.fld_of_reg (State.setDT_reg _ _ _) _).trans s.loadDrop_pend), State.fld_setFld_same _ _ _ _ (by decide), fun a hna =>
      (State.reg_setFld_ne _ _ _ (List.ne_of_not_mem_cons hna)).trans ((State.setDT_reg _ _ _).trans (s.loadDrop_sameRegs a hna))⟩
  · refine completes_of_exec (exec_dtLoad_due s hp ha) ?_
    rw [State.loadNow_refused s hr]
    obtain ⟨hpend, hrefused, hregs⟩ := s.loadDrop_refusal
    exact ⟨rfl, hpend, hrefused, hregs⟩

/-- Settles O13: both arm bits command what ARM_NOW commands, and CANCEL with an arm bit commands nothing. -/
theorem deviceTimeArmBits : Obligations.DeviceTimeArmBits := by
  unfold Obligations.DeviceTimeArmBits
  refine ⟨fun s w hl hc => ⟨_, exec_dtArmPps_live s _ hl, ?_⟩, fun s w hl hc => ⟨?_, ?_⟩, fun s w hl ha => ?_⟩
  · rw [exec_dtArmNow_live s _ hl, State.loadCtl_now, State.loadCtl_now]
    · rw [getF_putF_ne _ _ _ _ (by decide) (by decide), getF_putF_ne _ _ _ _ (by decide) (by decide), hc]
    · rw [getF_putF_ne _ _ _ _ (by decide) (by decide), getF_putF_one _ _ (by decide) rfl]
    · rw [getF_putF_ne _ _ _ _ (by decide) (by decide), getF_putF_ne _ _ _ _ (by decide) (by decide), hc]
    · exact getF_putF_one _ _ (by decide) rfl
  · refine completes_of_exec (exec_dtArmNow_live s w hl) ?_
    rw [State.loadCtl_cancel_arm _ _ ((getF_putF_ne _ _ _ _ (by decide) (by decide)).trans hc)
      (.inl (getF_putF_one _ _ (by decide) rfl))]
    exact s.loadCommanded_onlyRegs
  · refine completes_of_exec (exec_dtArmPps_live s w hl) ?_
    rw [State.loadCtl_cancel_arm _ _ ((getF_putF_ne _ _ _ _ (by decide) (by decide)).trans hc)
      (.inr (getF_putF_one _ _ (by decide) rfl))]
    exact s.loadCommanded_onlyRegs
  · refine completes_of_exec (exec_dtLoadCancel_live s w hl) ?_
    rw [State.loadCtl_cancel_arm _ _ (getF_putF_one _ _ (by decide) rfl)
      (ha.imp ((getF_putF_ne _ _ _ _ (by decide) (by decide)).trans ·) ((getF_putF_ne _ _ _ _ (by decide) (by decide)).trans ·))]
    exact s.loadCommanded_onlyRegs

end Sys2Proof.Machine
end

section
/-! ## Arrival in a timed queue (R72–R75, R101): the event number of an EVT entry is any number -/

namespace Sys2Proof.Machine

open Sys2Proof.Safety

/-- A source that fires sets its FIRED bit (R404). -/
theorem State.reg_fire_same (s : State) (src : Nat) :
    (s.fire src).reg (A.evfSrcSts (src / 32)) = s.reg (A.evfSrcSts (src / 32)) ||| BitVec.ofNat 32 (2 ^ (src % 32)) :=
  s.reg_setReg_same _ _

/-- The event number whose source, 4 + n in tile 0, has its FIRED bit at the offset of TQ_LAST_LATE of queue (0, 0). -/
def strayEvent : Nat := 117676156

/-- An EVT entry with that number, due now, that EXECUTE_NOW has moved past its stamp 0. -/
def strayEntry : Entry := { cmd := .evt strayEvent, stamp := 0, sid := 0, execAt := 30, moved := true }

/-- A command on its way to the same queue, issued 2 ticks ago. -/
def strayFlight : Flight := { cmd := .evt 0, stamp := 90, sid := 0, issued := 98 }

/-- Tile 0 is enabled and in plot 0, whose shot started 30 ticks ago; its first queue holds the entry. -/
def strayState : State := { State.reset with
  regs := [(A.glbTileEn, 1), (A.glbTilePlot 0, 8)]
  tm := { now := 100, dt := 30 }
  scheds := [(0, { shots := [{ sid := 0, start := 0, started := true }] })]
  tqs := [(0, { flight := [strayFlight], held := [strayEntry] })] }

theorem strayState_plot : strayState.plotOf 0 = some 0 := by decide +kernel

theorem strayState_due : strayState.due 0 0 = some strayEntry := by decide +kernel

theorem exec_evtExecute_due (s : State) (i : Tile) (q : Seq) (e : Entry) (n : Nat) (h : s.due i q = some e) (hc : e.cmd = .evt n) :
    exec (.evtExecute i q) s = .next ((s.pop i q).fire (tileSrc i (4 + n))) := by
  simp [execEvtExecute, h, hc]

theorem evfSrcSts_stray : A.evfSrcSts (tileSrc 0 (4 + strayEvent) / 32) = A.tqLastLate 0 0 := by decide +kernel

/-- Refutes O26: its last clause takes an EVT entry with any event number `n`. The model lets an entry hold any number, where the
instruction has two bits, and fires source 40 · tile + 4 + n. For the number of `strayEvent` the FIRED bit of that source lies at the
offset of TQ_LAST_LATE of the queue, which after the late action then holds 1 and not the entry's stamp 0. -/
theorem not_commandsArriveInTheirQueue : ¬ Obligations.CommandsArriveInTheirQueue := by
  unfold Obligations.CommandsArriveInTheirQueue
  intro hall
  obtain ⟨-, -, -, -, -, -, hevt⟩ := hall strayState 0 0 0 { sid := 0, start := 0, started := true } strayFlight [] strayState_plot
    rfl rfl (.inl rfl) rfl (by decide)
  obtain ⟨t, ht, -, -, hlast, -⟩ := hevt strayEntry strayEvent strayState_due rfl rfl
  rw [exec_evtExecute_due strayState 0 0 strayEntry strayEvent strayState_due rfl] at ht
  obtain rfl := Host.Outcome.next.inj ht
  have hset := (strayState.pop 0 0).reg_fire_same (tileSrc 0 (4 + strayEvent))
  rw [evfSrcSts_stray] at hset
  have hzero := (hset.symm.trans hlast)
  exact absurd (BitVec.or_eq_zero_iff.1 hzero).2 (by decide +kernel)

end Sys2Proof.Machine
end

section
/-! ## A plot's result ring (R361, R379): the vector that waits for a writeback is any number -/

namespace Sys2Proof.Machine

open Sys2Proof.Safety

/-- A message whose vector is masked sets the vector's bit among the pending ones (R379). -/
theorem State.reg_msix_masked (s : State) (v : Nat) (h : s.msixMasked v = true) :
    (s.msix v).reg (A.msixPba (v / 32)) = s.reg (A.msixPba (v / 32)) ||| BitVec.ofNat 32 (2 ^ (v % 32)) := by
  simp [State.msix, h, s.reg_setReg_same]

/-- The one message that waited for the writeback goes to its vector (R361). -/
theorem State.irqRelease_one (s : State) (p v : Nat) (hw : (s.ring p).irqWait = [v]) (hd : s.plotDefined p = true) :
    s.irqRelease p = (s.modRing p fun x => { x with irqWait := [] }).msix v := by
  have hkept : (s.modRing p fun x => { x with irqWait := [] }).plotDefined p = true := hd
  simp [State.irqRelease, hw, State.plotIrq, hkept]

/-- Plot 0 has tile 0; its writeback is enabled and due, and vector 64 waits for it. MSI-X is not enabled. -/
def strayVectorState : State := { State.reset with
  regs := [(A.glbTileEn, 1), (A.glbTilePlot 0, 8), (A.wbLo 0, 1)]
  rings := [(0, { wbDirty := true, irqWait := [64] })]
  pcie := { busMaster := true, perst := false } }

theorem strayVectorState_enabled : strayVectorState.on (A.wbLo 0) F.wbLo.en = true := by decide +kernel

theorem strayVectorState_defined : strayVectorState.plotDefined 0 = true := by decide +kernel

theorem strayVectorState_masked : strayVectorState.msixMasked 64 = true := by decide +kernel

/-- A writeback that is due sends the messages that waited for it, from a state with the same registers (R361). -/
theorem exec_writeback_due (s : State) (p : Plot) (hen : s.on (A.wbLo p) F.wbLo.en = true) (hdirty : (s.ring p).wbDirty = true)
    (hdma : s.dmaOk = true) (hat : (s.ring p).wbAt = none) : ∃ u : State, exec (.writeback p) s = .next (u.irqRelease p) ∧
      u.regs = s.regs ∧ u.pcie = s.pcie ∧ (u.ring p).irqWait = (s.ring p).irqWait := by
  have hkept : ∀ y : RingX, y.irqWait = (s.ring p).irqWait → ((s.setRing p y).ring p).irqWait = (s.ring p).irqWait :=
    fun y hy => (congrArg RingX.irqWait (s.ring_modRing p fun _ => y)).trans hy
  simp only [exec_writeback, execWriteback, hen, hdirty, hdma, hat, Bool.and_self, onlyIf, if_true]
  exact ⟨_, rfl, rfl, rfl, hkept _ rfl⟩

/-- Which plots have tiles is read from the registers. -/
theorem State.plotDefined_of_regs {s u : State} (h : u.regs = s.regs) (p : Nat) : u.plotDefined p = s.plotDefined p := by
  have hplot (i : Nat) : u.plotOf i = s.plotOf i := by rw [State.plotOf, State.plotOf, State.fld_of_regs h]
  have htile : u.inPlot p = s.inPlot p := funext fun i => by
    rw [State.inPlot, State.inPlot, hplot, State.tileOn, State.tileOn, State.reg_of_regs h]
  simp only [State.plotDefined, State.tilesOf, htile]

/-- Whether a vector is masked is read from the registers and the endpoint. -/
theorem State.msixMasked_of_regs {s u : State} (h : u.regs = s.regs) (hp : u.pcie = s.pcie) (v : Nat) :
    u.msixMasked v = s.msixMasked v := by
  simp only [State.msixMasked, State.reg, h, hp]

/-- The writeback of `strayVectorState` turns the message of vector 64 into a pending bit. -/
theorem strayVectorState_posted (t : State) (h : exec (.writeback 0) strayVectorState = .next t) :
    t.reg (A.msixPba 2) = strayVectorState.reg (A.msixPba 2) ||| 1 := by
  obtain ⟨u, hu, hregs, hpcie, hwait⟩ := exec_writeback_due strayVectorState 0 strayVectorState_enabled rfl rfl rfl
  have hdef : u.plotDefined 0 = true := (State.plotDefined_of_regs hregs 0).trans strayVectorState_defined
  have hmasked : u.msixMasked 64 = true := (State.msixMasked_of_regs hregs hpcie 64).trans strayVectorState_masked
  obtain rfl : t = (u.modRing 0 fun x => { x with irqWait := [] }).msix 64 :=
    (Host.Outcome.next.inj (h.symm.trans hu)).trans (u.irqRelease_one 0 64 hwait hdef)
  rw [← State.reg_of_regs hregs]
  exact State.reg_msix_masked _ 64 hmasked

/-- Refutes O45: its WRITEBACK clause lets any number stand in `irqWait`, where the part has 32 vectors and two words of pending
bits. With MSI-X not enabled, the message of vector 64 sets a bit beside those two words. -/
theorem not_resultsReachTheirRing : ¬ Obligations.ResultsReachTheirRing := by
  unfold Obligations.ResultsReachTheirRing
  rintro ⟨-, -, -, -, hwriteback⟩
  obtain ⟨t, ht, -, -, -, hsame, -⟩ := hwriteback strayVectorState 0 rfl strayVectorState_enabled rfl nofun
  have hclear := hsame (A.msixPba 2) (by decide)
  rw [strayVectorState_posted t ht] at hclear
  exact absurd hclear (by decide +kernel)

end Sys2Proof.Machine
end

section
/-! ## The state after reset (R45, R84, R466) -/

namespace Sys2Proof.Machine

open Sys2Proof.Safety

/-- Every plot of the part after reset is STOPPED and has no tile. -/
theorem reset_plots (p : Plot) : State.reset.stopped p = true ∧ State.reset.plotDefined p = false := by
  revert p
  decide +kernel

/-- Every tile of the part after reset is disabled and in no plot (R84). -/
theorem reset_tiles (t : Tile) : State.reset.tileOn t = false ∧ State.reset.plotOf t = none := by
  revert t
  decide +kernel

/-- Settles O6: POR_n is held, the lists are empty, and the registers read their reset values, plot by plot and tile by tile. -/
theorem resetLeavesThePartHeld : Obligations.ResetLeavesThePartHeld := by
  unfold Obligations.ResetLeavesThePartHeld
  have hregs : State.reset.reg A.glbCtl = 0 ∧ State.reset.reg A.glbErrSts = 0 ∧ State.reset.reg A.glbErrAddr = 0 ∧
      State.reset.on A.dtSts F.dtSts.running = false ∧ State.reset.isSealed = false ∧ State.reset.enforce = false := by
    decide +kernel
  exact ⟨rfl, rfl, rfl, rfl, rfl, rfl, rfl, reset_plots, reset_tiles, hregs⟩

end Sys2Proof.Machine
end

section
/-! ## The shot schedulers: their state, RUN_STS, and RUN_CMD (R62–R66) -/

namespace Sys2Proof.Machine

open Sys2Proof.Safety

/-! ### A fold over the plots -/

/-- A pass that does not come to `p` keeps whatever each of its steps keeps. -/
theorem foldl_other {R : State → State → Prop} (hrefl : ∀ s, R s s) (htrans : ∀ s t u, R s t → R t u → R s u)
    (g : State → Nat → State) (p : Nat) (l : List Nat) (hg : ∀ s, ∀ q ∈ l, q ≠ p → R s (g s q)) (hp : p ∉ l) (s : State) :
    R s (l.foldl g s) := by
  induction l generalizing s with
  | nil => exact hrefl s
  | cons q l ih =>
    rw [List.mem_cons, not_or] at hp
    exact htrans _ _ _ (hg s q List.mem_cons_self fun h => hp.1 h.symm)
      (ih (fun s r hr => hg s r (List.mem_cons_of_mem q hr)) hp.2 _)

/-- A pass comes to each of its places once, between steps at other places. -/
theorem foldl_once {R : State → State → Prop} (hrefl : ∀ s, R s s) (htrans : ∀ s t u, R s t → R t u → R s u)
    (g : State → Nat → State) (p : Nat) (l : List Nat) (hg : ∀ s, ∀ q ∈ l, q ≠ p → R s (g s q)) (hl : l.Nodup) (hp : p ∈ l)
    (s : State) : ∃ u, R s u ∧ R (g u p) (l.foldl g s) := by
  induction l generalizing s with
  | nil => simp at hp
  | cons q l ih =>
    have hg' : ∀ s, ∀ r ∈ l, r ≠ p → R s (g s r) := fun s r hr => hg s r (List.mem_cons_of_mem q hr)
    rw [List.nodup_cons] at hl
    by_cases hq : q = p
    · subst hq
      exact ⟨s, hrefl s, foldl_other hrefl htrans g q l hg' hl.1 _⟩
    · have hpl : p ∈ l := (List.mem_cons.1 hp).resolve_left fun h => hq h.symm
      obtain ⟨u, hu, hend⟩ := ih hg' hl.2 hpl (g s q)
      exact ⟨u, htrans _ _ _ (hg s q List.mem_cons_self hq) hu, hend⟩

/-- A pass keeps whatever each of its steps keeps. -/
theorem foldl_rel {R : State → State → Prop} (hrefl : ∀ s, R s s) (htrans : ∀ s t u, R s t → R t u → R s u)
    (g : State → Nat → State) (l : List Nat) (hg : ∀ s, ∀ q ∈ l, R s (g s q)) (s : State) : R s (l.foldl g s) := by
  induction l generalizing s with
  | nil => exact hrefl s
  | cons q l ih => exact htrans _ _ _ (hg s q List.mem_cons_self) (ih (fun s r hr => hg s r (List.mem_cons_of_mem q hr)) _)

theorem plot_mem_range (p : Plot) : p.val ∈ List.range 8 := List.mem_range.2 p.isLt

/-! ### The state of a scheduler -/

@[simp] theorem State.sched_setSched (s : State) (p : Nat) (c : Sched) : (s.setSched p c).sched p = c := KMap.get_set_same ..

theorem State.sched_setSched_ne (s : State) {p q : Nat} (c : Sched) (h : q ≠ p) : (s.setSched p c).sched q = s.sched q :=
  KMap.get_set_ne _ _ _ _ h

@[simp] theorem State.reg_setSched (s : State) (p : Nat) (c : Sched) (a : Nat) : (s.setSched p c).reg a = s.reg a := rfl

@[simp] theorem State.fld_setSched (s : State) (p : Nat) (c : Sched) (a : Nat) (f : Fld) : (s.setSched p c).fld a f = s.fld a f := rfl

@[simp] theorem State.on_setSched (s : State) (p : Nat) (c : Sched) (a : Nat) (f : Fld) : (s.setSched p c).on a f = s.on a f := rfl

@[simp] theorem State.DT_setSched (s : State) (p : Nat) (c : Sched) : (s.setSched p c).DT = s.DT := rfl

/-! ### A field of RUN_STS sets -/

@[simp] theorem State.sched_runSet (s : State) (p q : Nat) (f : Fld) (v : Nat) : (s.runSet p f v).sched q = s.sched q := rfl

@[simp] theorem State.DT_runSet (s : State) (p : Nat) (f : Fld) (v : Nat) : (s.runSet p f v).DT = s.DT := rfl

@[simp] theorem State.evq_runSet (s : State) (p : Nat) (f : Fld) (v : Nat) : (s.runSet p f v).evq = s.evq := rfl

theorem State.runSet_onlyRegs (s : State) (p : Nat) (f : Fld) (v : Nat) : OnlyRegs [A.runSts p] s (s.runSet p f v) :=
  ⟨fun _ ha => s.reg_setFld_ne f v (List.ne_of_not_mem_cons ha), rfl⟩

theorem State.reg_runSet_ne (s : State) {p a : Nat} (f : Fld) (v : Nat) (h : a ≠ A.runSts p) : (s.runSet p f v).reg a = s.reg a :=
  s.reg_setFld_ne f v h

theorem State.fld_runSet_same (s : State) (p : Nat) (f : Fld) (v : Nat) (h : f.ok) :
    (s.runSet p f v).fld (A.runSts p) f = v % 2 ^ (f.hi + 1 - f.lo) := s.fld_setFld_same _ f v h

theorem State.fld_runSet_disjoint (s : State) (p : Nat) (f g : Fld) (v : Nat) (h : f.ok) (d : f.hi < g.lo ∨ g.hi < f.lo) :
    (s.runSet p f v).fld (A.runSts p) g = s.fld (A.runSts p) g := s.fld_setFld_disjoint _ f g v h d

theorem runSts_ne {p q : Nat} (h : p ≠ q) : A.runSts p ≠ A.runSts q := by
  simp only [A.runSts]
  omega

/-- The sources of the schedulers have their FIRED bits below the shot registers. -/
theorem evfSrcSts_shotSrc_lt (p : Plot) (k : Nat) (hk : k < 4) : A.evfSrcSts (shotSrc p k / 32) < 0x300000 := by
  simp only [A.evfSrcSts, shotSrc]
  omega

theorem State.reg_fire_shotSrc (s : State) (p : Plot) (k : Nat) (hk : k < 4) {a : Nat} (ha : 0x300000 ≤ a) :
    (s.fire (shotSrc p k)).reg a = s.reg a :=
  s.reg_fire_ne _ (by have := evfSrcSts_shotSrc_lt p k hk; omega)

theorem State.fld_fire_shotSrc (s : State) (p : Plot) (k : Nat) (hk : k < 4) {a : Nat} (ha : 0x300000 ≤ a) (f : Fld) :
    (s.fire (shotSrc p k)).fld a f = s.fld a f := State.fld_of_reg (s.reg_fire_shotSrc p k hk ha) f

@[simp] theorem State.sched_fire (s : State) (src q : Nat) : (s.fire src).sched q = s.sched q := rfl

@[simp] theorem State.DT_fire (s : State) (src : Nat) : (s.fire src).DT = s.DT := rfl

theorem runSts_ge (p : Nat) : 0x300000 ≤ A.runSts p := by
  simp only [A.runSts]
  omega

/-! ### A command that is ignored (R64, R66) -/

@[simp] theorem State.sched_cmdIgnored (s : State) (p q : Nat) : (s.cmdIgnored p).sched q = s.sched q := rfl

@[simp] theorem State.DT_cmdIgnored (s : State) (p : Nat) : (s.cmdIgnored p).DT = s.DT := rfl

theorem State.evq_cmdIgnored (s : State) (p : Nat) : (s.cmdIgnored p).evq = s.evq ++ [(shotSrc p 3, 0)] := rfl

theorem State.fld_cmdIgnored_same (s : State) (p : Plot) : (s.cmdIgnored p).fld (A.runSts p) F.runSts.cmdIgnored = 1 :=
  (State.fld_fire_shotSrc _ p 3 (by decide) (runSts_ge p) _).trans (s.fld_runSet_same p _ 1 (by decide))

theorem State.fld_cmdIgnored_disjoint (s : State) (p : Plot) (f : Fld) (d : f.hi < 10 ∨ 10 < f.lo) :
    (s.cmdIgnored p).fld (A.runSts p) f = s.fld (A.runSts p) f :=
  (State.fld_fire_shotSrc _ p 3 (by decide) (runSts_ge p) _).trans
    (s.fld_runSet_disjoint p _ f 1 (by decide) (d.symm.imp id id))

theorem State.runState_cmdIgnored (s : State) (p : Plot) : (s.cmdIgnored p).runState p = s.runState p :=
  s.fld_cmdIgnored_disjoint p _ (.inl (by decide))

theorem State.cmdIgnored_sameRegs (s : State) (p : Nat) :
    SameRegs [A.runSts p, A.evfSrcSts (shotSrc p 3 / 32)] s (s.cmdIgnored p) := by
  intro a ha
  simp only [List.mem_cons, List.not_mem_nil, or_false, not_or] at ha
  exact (State.reg_fire_ne _ _ ha.2).trans (s.reg_runSet_ne _ 1 ha.1)

/-! ### A write of RUN_CMD (R64, R65) -/

/-- The state that a write of RUN_CMD commands: it reads as before. -/
def State.runCommanded (s : State) (p : Nat) : State := s.setReg (A.runCmd p) (s.reg (A.runCmd p))

@[simp] theorem State.reg_runCommanded (s : State) (p a : Nat) : (s.runCommanded p).reg a = s.reg a := s.reg_rewrite _ a

@[simp] theorem State.fld_runCommanded (s : State) (p a : Nat) (f : Fld) : (s.runCommanded p).fld a f = s.fld a f :=
  State.fld_of_reg (s.reg_runCommanded p a) f

@[simp] theorem State.on_runCommanded (s : State) (p a : Nat) (f : Fld) : (s.runCommanded p).on a f = s.on a f :=
  State.on_of_reg (s.reg_runCommanded p a) f

@[simp] theorem State.sched_runCommanded (s : State) (p q : Nat) : (s.runCommanded p).sched q = s.sched q := rfl

@[simp] theorem State.DT_runCommanded (s : State) (p : Nat) : (s.runCommanded p).DT = s.DT := rfl

theorem State.runCommanded_onlyRegs (s : State) (p : Nat) : OnlyRegs [] s (s.runCommanded p) := onlyRegs_rewrite s _

theorem hostOpen_runCmd {s : State} (h : s.live = true) (p : Plot) : HostOpen s (A.runCmd p) :=
  (hostOpen_low_iff s _ h (by simp only [A.runCmd]; omega)).2 fun hk => by
    have := hk.2
    simp only [A.runCmd] at this
    omega

/-- The shot registers of a defined plot are not denied to the host without plot enforcement, and RUN_CMD never to a write of DRAIN
or ABORT only (R65). -/
theorem State.shotDeny_none (s : State) (p : Plot) (cmd : Bool) (hp : s.plotDefined p = true)
    (he : s.enforce = false ∨ cmd = true) : s.shotDeny .host p cmd = none := by
  unfold State.shotDeny
  rcases he with he | he <;> simp [hp, he]

theorem State.hostWrite_runCmd (s : State) (p : Plot) (w : Word) (hl : s.live = true) (hp : s.plotDefined p = true)
    (he : s.enforce = false ∨ (getF w F.runCmd.start = 0 ∧ getF w F.runCmd.clrCount = 0)) :
    State.hostWrite (s.writeRunCmd .host p w) (A.runCmd p) = (s.runCommanded p).runCmd p w :=
  s.hostWrite_command spec_runCmd (A.runCmd p) w _ _ _ (hostOpen_runCmd hl p)
    (s.shotDeny_none p _ hp (he.imp id fun h => by simp [h])) rfl (by decide)

/-! ### What a drain or abort that reaches the scheduler does to the triggers of its tick (R58) -/

/-- The trigger of plot `p` was recognised in the present tick. -/
def State.trigNow (s : State) (p : Nat) : Bool := (s.sched p).trig.any fun x => x.2 == s.DT

theorem State.unfix_kept (s : State) (p : Nat) (h : ∀ u, (s.sched p).undo = some u → u.tick ≠ s.DT) : s.unfix p = s := by
  unfold State.unfix
  simp only
  split
  · next u hu => exact if_neg (h u hu)
  · rfl

/-- The scheduler after a start that a trigger of the present tick had fixed is taken back. -/
def Sched.unfixed (c : Sched) (u : FixUndo) (dt : Nat) : Sched :=
  { c with fixed := none, computeAt := some dt, pauses := u.pauses, coord := u.coord, undo := none }

/-- A start that the scheduler fixed in the present tick is taken back. -/
theorem State.unfix_taken (s : State) (p : Nat) (u : FixUndo) (hu : (s.sched p).undo = some u) (ht : u.tick = s.DT) :
    ((s.unfix p).sched p) = (s.sched p).unfixed u s.DT ∧ (s.unfix p).tm = s.tm ∧
      SameRegs [A.pauseLast p, A.pauseTotal p, A.calInsCnt p] s (s.unfix p) := by
  have hregs : SameRegs [A.pauseLast p, A.pauseTotal p, A.calInsCnt p] s
      (((s.setReg (A.pauseLast p) u.last).setReg (A.pauseTotal p) u.total).setReg (A.calInsCnt p) u.ins) := by
    intro a ha
    simp only [List.mem_cons, List.not_mem_nil, or_false, not_or] at ha
    obtain ⟨h1, h2, h3⟩ := ha
    rw [State.reg_setReg_ne _ _ h3, State.reg_setReg_ne _ _ h2, State.reg_setReg_ne _ _ h1]
  unfold State.unfix
  simp only [hu, ht, if_true]
  cases u.cal <;> exact ⟨State.sched_setSched .., rfl, hregs⟩

/-- What a drain or abort that reaches the scheduler keeps when it takes back the start fixed in its tick. -/
theorem State.unfix_keeps_run (s : State) (p : Nat) : (s.unfix p).DT = s.DT ∧ ((s.unfix p).sched p).trig = (s.sched p).trig ∧
    ((s.unfix p).sched p).abortAt = (s.sched p).abortAt ∧
    SameRegs [A.pauseLast p, A.pauseTotal p, A.calInsCnt p] s (s.unfix p) := by
  by_cases h : ∃ u, (s.sched p).undo = some u ∧ u.tick = s.DT
  · obtain ⟨u, hu, ht⟩ := h
    obtain ⟨hsched, htm, hregs⟩ := s.unfix_taken p u hu ht
    exact ⟨congrArg (fun m : TimeX => m.dt.toNat) htm, by rw [hsched]; rfl, by rw [hsched]; rfl, hregs⟩
  · rw [s.unfix_kept p fun u hu ht => h ⟨u, hu, ht⟩]
    exact ⟨rfl, rfl, rfl, fun _ _ => rfl⟩

/-- Plot `p`'s scheduler after it has heard a drain or abort, before TRIG_PENDING follows. -/
def State.commandHeard (s : State) (p : Nat) : State := (s.unfix p).setSched p
  { (s.unfix p).sched p with cmdTick := some s.DT, trig := if s.trigNow p then none else (s.sched p).trig, trigOvf := false }

theorem State.cmdReaches_eq (s : State) (p : Nat) : s.cmdReaches p =
    if s.trigNow p then (s.commandHeard p).runSet p F.runSts.trigPending 0 else s.commandHeard p := by
  obtain ⟨hdt, htrig, -⟩ := s.unfix_keeps_run p
  unfold State.cmdReaches State.commandHeard State.trigNow
  simp only [htrig]
  cases (s.sched p).trig <;> rfl

theorem State.cmdReaches_sched (s : State) (p : Nat) : (s.cmdReaches p).sched p =
    { (s.unfix p).sched p with cmdTick := some s.DT, trig := if s.trigNow p then none else (s.sched p).trig, trigOvf := false } := by
  rw [s.cmdReaches_eq, apply_ite (State.sched · p), State.sched_runSet, ite_self]
  exact State.sched_setSched ..

/-- A trigger that a drain or abort meets in its tick is no longer pending (R58). -/
theorem State.trigPending_cmdReaches (s : State) (p : Nat) (h : s.trigNow p = true) :
    (s.cmdReaches p).fld (A.runSts p) F.runSts.trigPending = 0 := by
  rw [s.cmdReaches_eq, if_pos h]
  exact State.fld_runSet_same _ p _ 0 (by decide)

end Sys2Proof.Machine
end

section
/-! ## Triggers (R58), and the bits of RUN_CMD (R64) -/

namespace Sys2Proof.Machine

open Sys2Proof.Safety

/-! ### The bits of RUN_CMD -/

theorem testBit_eq_getF (v : Word) (k : Nat) (hk : k < 4) : (v.toNat % 16).testBit k = decide (getF v ⟨k, k⟩ = 1) := by
  rw [show (16 : Nat) = 2 ^ 4 from rfl, Nat.testBit_mod_two_pow, decide_eq_true hk, Bool.true_and, Nat.testBit_eq_decide_div_mod_eq]
  simp [getF]

/-- A command's own bit sets in the word that is written, and its other bits stay. -/
theorem testBit_putF (w : Word) (k j : Nat) (hk : k < 4) (hj : j < 4) :
    ((putF w ⟨k, k⟩ 1).toNat % 16).testBit j = (decide (j = k) || (w.toNat % 16).testBit j) := by
  have hok : (⟨k, k⟩ : Fld).ok = true := by simp [Fld.ok]; omega
  rw [testBit_eq_getF _ j hj, testBit_eq_getF _ j hj]
  by_cases hjk : j = k
  · subst hjk
    simp [getF_putF_one w ⟨j, j⟩ hok rfl]
  · rw [getF_putF_ne w ⟨k, k⟩ ⟨j, j⟩ 1 hok (by simp only; omega)]
    simp [hjk]

/-! ### ABORT -/

/-- A write that sets ABORT aborts, after it has noted the weaker commands that it sets too (R63, R64). -/
theorem State.runCmd_abort (s : State) (p : Nat) (w : Word) (h : (w.toNat % 16).testBit 2 = true) :
    s.runCmd p w = State.abort (if (w.toNat % 16).testBit 0 || (w.toNat % 16).testBit 1 || (w.toNat % 16).testBit 3 then
      s.cmdIgnored p else s) p := by
  unfold State.runCmd
  simp only [h, if_true]
  congr 1
  cases (w.toNat % 16).testBit 0 <;> cases (w.toNat % 16).testBit 1 <;> cases (w.toNat % 16).testBit 3 <;> rfl

theorem State.abort_sched (s : State) (p : Nat) : (s.abort p).sched p =
    if s.stopped p || (s.sched p).abortAt.isSome then (s.cmdReaches p).sched p
    else { (s.cmdReaches p).sched p with abortAt := some (s.DT + 8, false) } := by
  unfold State.abort
  simp only
  split
  · rfl
  · exact State.sched_setSched ..

theorem State.reg_abort (s : State) (p a : Nat) : (s.abort p).reg a = (s.cmdReaches p).reg a := by
  unfold State.abort
  simp only
  split <;> rfl

theorem exec_runAbort_live (s : State) (p : Plot) (w : Word) (hl : s.live = true) (hp : s.plotDefined p = true)
    (he : s.enforce = false ∨ (getF w F.runCmd.start = 0 ∧ getF w F.runCmd.clrCount = 0)) :
    exec (.runAbort p w) s = .next ((s.runCommanded p).runCmd p (putF w F.runCmd.abort 1)) := by
  refine congrArg Host.Outcome.next (s.hostWrite_runCmd p _ hl hp (he.imp id fun h => ?_))
  rw [getF_putF_ne w _ _ 1 (by decide) (by decide), getF_putF_ne w _ _ 1 (by decide) (by decide)]
  exact h

/-- A write that sets ABORT aborts in a state with the scheduler, DT and run state of before. -/
theorem exec_runAbort_aborts (s : State) (p : Plot) (w : Word) (hl : s.live = true) (hp : s.plotDefined p = true)
    (he : s.enforce = false ∨ (getF w F.runCmd.start = 0 ∧ getF w F.runCmd.clrCount = 0)) :
    ∃ u : State, exec (.runAbort p w) s = .next (u.abort p) ∧ u.sched p = s.sched p ∧ u.DT = s.DT ∧ u.stopped p = s.stopped p := by
  rw [exec_runAbort_live s p w hl hp he,
    State.runCmd_abort _ p (putF w F.runCmd.abort 1) ((testBit_putF w 2 2 (by decide) (by decide)).trans (by simp))]
  refine ⟨_, rfl, ?_⟩
  split
  · exact ⟨rfl, rfl, congrArg (· == 0) ((State.runState_cmdIgnored _ p).trans (s.fld_runCommanded p _ _))⟩
  · exact ⟨rfl, rfl, congrArg (· == 0) (s.fld_runCommanded p _ _)⟩

/-! ### A trigger arrives at the plots that select it -/

/-- What the step of a trigger's pass over the plots does at plot `p`. -/
def State.triggerAt (i : Nat) (rising : Bool) (s : State) (p : Nat) : State :=
  if s.fld (A.shotCtl p) F.shotCtl.trigSel == i && s.on (A.shotCtl p) F.shotCtl.trigEdge == !rising then s.trigger p else s

theorem State.triggerAll_eq (s : State) (i : Nat) (rising : Bool) :
    s.triggerAll i rising = (List.range 8).foldl (State.triggerAt i rising) s := rfl

/-- Only registers and schedulers changed. -/
def SchedOnly (s t : State) : Prop := t = { s with regs := t.regs, tie := t.tie, scheds := t.scheds }

theorem schedOnly_refl (s : State) : SchedOnly s s := rfl

theorem schedOnly_trans (s t u : State) (h : SchedOnly s t) (k : SchedOnly t u) : SchedOnly s u := by
  unfold SchedOnly at h k ⊢
  rw [k, h]

theorem schedOnly_setSched (s : State) (p : Nat) (c : Sched) : SchedOnly s (s.setSched p c) := rfl

theorem schedOnly_runSet (s : State) (p : Nat) (f : Fld) (v : Nat) : SchedOnly s (s.runSet p f v) := rfl

/-- The scheduler of plot `p`, and the registers that its triggers and commands read, are as they were. -/
def SamePlot (p : Nat) (s t : State) : Prop :=
  t.sched p = s.sched p ∧ t.reg (A.runSts p) = s.reg (A.runSts p) ∧ t.reg (A.shotCtl p) = s.reg (A.shotCtl p) ∧ t.DT = s.DT

theorem samePlot_refl (p : Nat) (s : State) : SamePlot p s s := ⟨rfl, rfl, rfl, rfl⟩

theorem samePlot_trans (p : Nat) (s t u : State) (h : SamePlot p s t) (k : SamePlot p t u) : SamePlot p s u := by
  obtain ⟨h1, h2, h3, h4⟩ := h
  obtain ⟨k1, k2, k3, k4⟩ := k
  exact ⟨k1.trans h1, k2.trans h2, k3.trans h3, k4.trans h4⟩

theorem samePlot_setSched (s : State) {p q : Nat} (c : Sched) (h : q ≠ p) : SamePlot p s (s.setSched q c) :=
  ⟨s.sched_setSched_ne c h.symm, rfl, rfl, rfl⟩

theorem shotCtl_ne_runSts (p q : Nat) : A.shotCtl p ≠ A.runSts q := by
  simp only [A.shotCtl, A.runSts]
  omega

theorem samePlot_runSet (s : State) {p q : Nat} (f : Fld) (v : Nat) (h : q ≠ p) : SamePlot p s (s.runSet q f v) :=
  ⟨rfl, s.reg_runSet_ne f v (runSts_ne h.symm), s.reg_runSet_ne f v (shotCtl_ne_runSts p q), rfl⟩

/-- The cases of a trigger that arrives at a plot (R58): it overflows, it becomes pending, or it is ignored. -/
theorem State.trigger_cases (s : State) (p : Nat) :
    (s.trigger p = s.setSched p { s.sched p with trigOvf := true }) ∨
    (∃ at_, s.trigger p = (s.runSet p F.runSts.trigPending 1).setSched p
      { s.sched p with trig := some (s.DT - 10, s.DT), computeAt := at_ }) ∨ s.trigger p = s := by
  unfold State.trigger
  simp only
  split
  · exact .inr (.inr rfl)
  split
  · exact .inr (.inr rfl)
  split
  · exact .inl rfl
  · exact .inr (.inl ⟨_, rfl⟩)

theorem schedOnly_triggerAt (i : Nat) (rising : Bool) (s : State) (p : Nat) : SchedOnly s (s.triggerAt i rising p) := by
  unfold State.triggerAt
  split
  · rcases s.trigger_cases p with h | ⟨at_, h⟩ | h <;> rw [h]
    · exact schedOnly_setSched ..
    · exact schedOnly_trans _ _ _ (schedOnly_runSet ..) (schedOnly_setSched ..)
    · exact schedOnly_refl s
  · exact schedOnly_refl s

theorem samePlot_triggerAt (i : Nat) (rising : Bool) (p : Nat) (s : State) (q : Nat) (hq : q ≠ p) :
    SamePlot p s (s.triggerAt i rising q) := by
  unfold State.triggerAt
  split
  · rcases s.trigger_cases q with h | ⟨at_, h⟩ | h <;> rw [h]
    · exact samePlot_setSched s _ hq
    · exact samePlot_trans p _ _ _ (samePlot_runSet s _ _ hq) (samePlot_setSched _ _ hq)
    · exact samePlot_refl p s
  · exact samePlot_refl p s

/-- The trigger reaches plot `p`'s scheduler (R58). -/
def State.heedsTrigger (s : State) (i : Nat) (rising : Bool) (p : Nat) : Prop :=
  s.fld (A.shotCtl p) F.shotCtl.trigSel = i ∧ s.on (A.shotCtl p) F.shotCtl.trigEdge = !rising ∧
    s.fld (A.shotCtl p) F.shotCtl.mode = 1 ∧ s.runState p ≠ 0 ∧ s.runState p ≠ 3 ∧ (s.sched p).cmdTick ≠ some s.DT

theorem State.triggerAt_ignored (s : State) (i : Nat) (rising : Bool) (p : Nat) (h : ¬ s.heedsTrigger i rising p) :
    s.triggerAt i rising p = s := by
  unfold State.triggerAt State.trigger
  unfold State.heedsTrigger at h
  split
  · next hsel =>
    simp only [Bool.and_eq_true, beq_iff_eq] at hsel
    split
    · rfl
    · next hmode =>
      refine if_pos ?_
      simp only [Bool.or_eq_true, decide_eq_true_eq, beq_iff_eq]
      tauto
  · rfl

theorem State.triggerAt_heeded (s : State) (i : Nat) (rising : Bool) (p : Nat) (h : s.heedsTrigger i rising p) :
    s.triggerAt i rising p = s.trigger p ∧ ((s.sched p).trig.isSome = true → s.trigger p = s.setSched p { s.sched p with trigOvf := true }) ∧
    ((s.sched p).trig.isSome = false → ∃ at_, s.trigger p = (s.runSet p F.runSts.trigPending 1).setSched p
      { s.sched p with trig := some (s.DT - 10, s.DT), computeAt := at_ }) := by
  obtain ⟨hsel, hedge, hmode, hstopped, hdrain, htick⟩ := h
  refine ⟨?_, fun ht => ?_, fun ht => ?_⟩
  · simp [State.triggerAt, hsel, hedge]
  · simp [State.trigger, hmode, hstopped, hdrain, htick, ht]
  · exact ⟨_, by simp [State.trigger, hmode, hstopped, hdrain, htick, ht]; rfl⟩

theorem heedsTrigger_of_samePlot {p : Nat} {s t : State} (h : SamePlot p s t) (i : Nat) (rising : Bool) :
    t.heedsTrigger i rising p ↔ s.heedsTrigger i rising p := by
  obtain ⟨hsched, hsts, hctl, hdt⟩ := h
  unfold State.heedsTrigger State.runState
  rw [hsched, hdt, State.fld_of_reg hsts, State.fld_of_reg hctl, State.fld_of_reg hctl, State.on_of_reg hctl]

/-- What a trigger does at plot `p` (R58). -/
def Triggered (i : Nat) (rising : Bool) (p : Nat) (s t : State) : Prop :=
  (s.heedsTrigger i rising p → if (s.sched p).trig.isSome then
      t.sched p = { s.sched p with trigOvf := true } ∧ t.reg (A.runSts p) = s.reg (A.runSts p)
    else t.fld (A.runSts p) F.runSts.trigPending = 1 ∧ (t.sched p).trig = some (s.DT - 10, s.DT)) ∧
  (¬ s.heedsTrigger i rising p → t.sched p = s.sched p ∧ t.reg (A.runSts p) = s.reg (A.runSts p))

theorem triggered_triggerAt (s : State) (i : Nat) (rising : Bool) (p : Nat) : Triggered i rising p s (s.triggerAt i rising p) := by
  refine ⟨fun h => ?_, fun h => ?_⟩
  · obtain ⟨heq, hovf, hpend⟩ := s.triggerAt_heeded i rising p h
    cases ht : (s.sched p).trig.isSome with
    | true => rw [heq, hovf ht]; exact ⟨State.sched_setSched .., rfl⟩
    | false =>
      obtain ⟨at_, hat⟩ := hpend ht
      rw [heq, hat]
      exact ⟨s.fld_runSet_same p _ 1 (by decide), by rw [State.sched_setSched]⟩
  · rw [s.triggerAt_ignored i rising p h]
    exact ⟨rfl, rfl⟩

/-- A trigger acts once at each plot, whatever it did at the plots before. -/
theorem triggered_triggerAll (s : State) (i : Nat) (rising : Bool) (p : Plot) : Triggered i rising p s (s.triggerAll i rising) := by
  obtain ⟨u, hsu, hend⟩ := foldl_once (samePlot_refl p) (samePlot_trans p) (State.triggerAt i rising) p
    _ (fun s q _ => samePlot_triggerAt i rising p s q) List.nodup_range (plot_mem_range p) s
  rw [← s.triggerAll_eq] at hend
  obtain ⟨hsched, hsts, -, -⟩ := hend
  obtain ⟨hheed, hignore⟩ := triggered_triggerAt u i rising p
  obtain ⟨husched, husts, -, hudt⟩ := id hsu
  rw [heedsTrigger_of_samePlot hsu] at hheed hignore
  unfold Triggered
  rw [hsched, hsts, State.fld_of_reg hsts, ← husched, ← husts, ← hudt]
  exact ⟨hheed, hignore⟩

theorem schedOnly_triggerAll (s : State) (i : Nat) (rising : Bool) : SchedOnly s (s.triggerAll i rising) :=
  foldl_rel schedOnly_refl schedOnly_trans (State.triggerAt i rising) _ (fun s p _ => schedOnly_triggerAt i rising s p) s

/-! ### The trigger unit's edge -/

/-- The edge of ball `i` that was sampled 10 ticks ago is recognised. -/
def State.edgeTaken (s : State) (i : Nat) (rising : Bool) : State :=
  s.setTiu i { s.tiu i with conds := (s.tiu i).conds.filter (· != (s.tm.now - 10, rising)) }

theorem edgeTaken_edgeDue (s : State) (i : Nat) (rising : Bool) : (s.edgeTaken i rising).edgeDue i rising = false := by
  have htiu : (s.edgeTaken i rising).tiu i = { s.tiu i with conds := (s.tiu i).conds.filter (· != (s.tm.now - 10, rising)) } :=
    KMap.get_set_same ..
  unfold State.edgeDue
  rw [htiu]
  simp [show (s.edgeTaken i rising).tm = s.tm from rfl]

theorem edgeTaken_tiu_ne (s : State) (i : Nat) (rising : Bool) {j : Nat} (h : j ≠ i) : (s.edgeTaken i rising).tiu j = s.tiu j :=
  KMap.get_set_ne _ _ _ _ h

theorem exec_shotTrigger_due (s : State) (i : Fin 16) (rising : Bool) (h : s.edgeDue i rising = true) :
    exec (.shotTrigger i rising) s = .next ((s.edgeTaken i rising).triggerAll i rising) := by
  simp [execShotTrigger, h, onlyIf, State.edgeTaken]

theorem exec_shotTrigger_idle (s : State) (i : Fin 16) (rising : Bool) (h : s.edgeDue i rising = false) :
    exec (.shotTrigger i rising) s = .next s := by
  simp [execShotTrigger, h, onlyIf]

theorem shotSrc_three (p : Nat) : shotSrc p 3 = 1291 + 4 * p := by
  unfold shotSrc
  omega

/-! ### A trigger that found one pending, as its tick ends -/

theorem State.trigLate_none (s : State) (p : Nat) (h : (s.sched p).trigOvf = false) : s.trigLate p = s := by
  simp [State.trigLate, h]

theorem State.trigLate_some (s : State) (p : Nat) (h : (s.sched p).trigOvf = true) :
    s.trigLate p = ((s.setSched p { s.sched p with trigOvf := false }).runSet p F.runSts.shotTrigOvf 1).fire (shotSrc p 3) := by
  simp [State.trigLate, h]

theorem State.trigOvf_trigLate_same (s : State) (p : Nat) : ((s.trigLate p).sched p).trigOvf = false := by
  cases h : (s.sched p).trigOvf with
  | false => rw [s.trigLate_none p h, h]
  | true => rw [s.trigLate_some p h, State.sched_fire, State.sched_runSet, State.sched_setSched]

theorem State.sched_trigLate_ne (s : State) {p q : Nat} (hq : q ≠ p) : (s.trigLate p).sched q = s.sched q := by
  cases h : (s.sched p).trigOvf with
  | false => rw [s.trigLate_none p h]
  | true => rw [s.trigLate_some p h, State.sched_fire, State.sched_runSet, s.sched_setSched_ne _ hq]

theorem State.aon_trigLate (s : State) (p : Nat) : (s.trigLate p).aon = s.aon := by
  unfold State.trigLate
  split <;> rfl

/-- As the ticks of all plots end, no trigger of theirs is left over. -/
theorem State.trigOvf_foldl_trigLate (s : State) (p : Nat) (hp : p ∈ List.range 8) :
    (((List.range 8).foldl State.trigLate s).sched p).trigOvf = false := by
  obtain ⟨u, -, hend⟩ := foldl_once (R := fun s t => t.sched p = s.sched p) (fun _ => rfl) (fun _ _ _ h k => k.trans h)
    State.trigLate p _ (fun s q _ hq => s.sched_trigLate_ne hq.symm) List.nodup_range hp s
  rw [hend]
  exact u.trigOvf_trigLate_same p

theorem foldl_trigLate_id (l : List Nat) (s : State) (h : ∀ p ∈ l, (s.sched p).trigOvf = false) : l.foldl State.trigLate s = s := by
  induction l with
  | nil => rfl
  | cons p l ih =>
    rw [List.foldl_cons, s.trigLate_none p (h p List.mem_cons_self)]
    exact ih fun q hq => h q (List.mem_cons_of_mem p hq)

theorem State.tick_trigLate (s : State) : ((List.range 8).foldl State.trigLate s).tick = s.tick := by
  have hlive : ((List.range 8).foldl State.trigLate s).live = s.live := by
    unfold State.live
    rw [foldl_keeps (fun s => s.aon) State.trigLate State.aon_trigLate]
  unfold State.tick
  rw [foldl_trigLate_id _ _ s.trigOvf_foldl_trigLate, hlive]

theorem step_idle (s : State) (h : s.pending = []) : step s = .next s.tick := by
  unfold step
  rw [h]

/-- Settles O15: the pass over the plots acts once at each; the trigger left over by one that is pending goes out as its tick ends;
an abort takes the trigger of its tick back with the start it had fixed. -/
theorem triggersReachTheirPlots : Obligations.TriggersReachTheirPlots := by
  unfold Obligations.TriggersReachTheirPlots
  refine ⟨fun s i rising h => ?_, fun s i rising h hdt => ?_, fun s p h => ?_, fun s h => ?_, fun s p w T hl hp he hst ht => ?_⟩
  · exact completes_of_exec (exec_shotTrigger_idle s i rising h) rfl
  · refine completes_of_exec (exec_shotTrigger_due s i rising h) ?_
    have honly := schedOnly_triggerAll (s.edgeTaken i rising) i rising
    unfold SchedOnly at honly
    refine ⟨?_, ?_, fun j hj => ?_, fun p => ?_⟩
    · rw [honly]; rfl
    · rw [honly]; exact edgeTaken_edgeDue s i rising
    · rw [honly]; exact edgeTaken_tiu_ne s i rising hj
    · obtain ⟨hheed, hignore⟩ := triggered_triggerAll (s.edgeTaken i rising) i rising p
      split
      · next hc => exact hheed hc
      · next hc => exact hignore hc
  · rw [s.trigLate_some p h]
    refine ⟨?_, by rw [← shotSrc_three]; rfl, by rw [State.sched_fire, State.sched_runSet, State.sched_setSched]⟩
    exact (State.fld_fire_shotSrc _ p 3 (by decide) (runSts_ge p) _).trans (State.fld_runSet_same _ p _ 1 (by decide))
  · have hpend : ((List.range 8).foldl State.trigLate s).pending = [] :=
      (foldl_keeps (fun s => s.pending) State.trigLate (fun s p => (s.trigLate_keeps p).2) _ s).trans h
    rw [step_idle s h, step_idle _ hpend, s.tick_trigLate]
  · obtain ⟨u, hu, hsched, hudt, hustop⟩ := exec_runAbort_aborts s p w hl hp (.inl he)
    have hnow : u.trigNow p = true := by simp [State.trigNow, hsched, ht, hudt]
    have hreach := u.cmdReaches_sched p
    have habort := u.abort_sched p
    refine completes_of_exec hu ⟨?_, ?_, ?_, fun x hx htick => ?_, ?_⟩
    · rw [habort]; split <;> simp [hreach, hnow]
    · rw [habort]; split <;> simp [hreach]
    · rw [State.fld_of_reg (u.reg_abort p _)]; exact u.trigPending_cmdReaches p hnow
    · obtain ⟨htaken, -⟩ := u.unfix_taken p x (by rw [hsched, hx]) (by rw [hudt, htick])
      rw [habort]; split <;> simp [hreach, htaken, Sched.unfixed]
    · obtain ⟨-, -, habt, -⟩ := u.unfix_keeps_run p
      rw [habort]
      split
      · next hc => simpa [hreach, habt, hustop, hst] using hc
      · rfl

end Sys2Proof.Machine
end

section
/-! ## The next start is fixed (R55–R57) -/

namespace Sys2Proof.Machine

open Sys2Proof.Safety

/-! ### The grid of PERIODIC mode (R56) -/

/-- The grid point is on the grid, at or after `lo`, and no later than any other such point. -/
theorem gridPoint_spec (start period lo : Nat) (hp : 0 < period) :
    ∃ k, gridPoint start period lo = start + k * period ∧ lo ≤ start + k * period ∧
      ∀ m, lo ≤ start + m * period → k ≤ m := by
  unfold gridPoint
  split
  · exact ⟨0, by simp, by omega, fun m _ => Nat.zero_le m⟩
  · refine ⟨(lo - start + period - 1) / period, rfl, ?_, fun m hm => ?_⟩
    · have hdiv := Nat.div_add_mod (lo - start + period - 1) period
      have hmod := Nat.mod_lt (lo - start + period - 1) hp
      rw [Nat.mul_comm] at hdiv
      omega
    · refine Nat.le_of_lt_succ ((Nat.div_lt_iff_lt_mul hp).2 ?_)
      rw [Nat.succ_mul]
      omega

theorem gridPoint_le (start period lo m : Nat) (hp : 0 < period) (hm : lo ≤ start + m * period) :
    gridPoint start period lo ≤ start + m * period := by
  obtain ⟨k, hk, -, hleast⟩ := gridPoint_spec start period lo hp
  rw [hk]
  exact Nat.add_le_add_left (Nat.mul_le_mul_right period (hleast m hm)) start

/-- After the start at grid point `l`, the next one at or after `e` passes `n` points over. -/
theorem gridPoint_after (start period k l e : Nat) (hp : 0 < period) (hl : l = start + k * period) :
    ∃ n, gridPoint start period (max e (l + 1)) = l + (n + 1) * period ∧ e ≤ l + (n + 1) * period ∧
      (0 < n → l + n * period < e) ∧ (gridPoint start period (max e (l + 1)) - l) / period - 1 = n := by
  obtain ⟨j, hj, hlo, hleast⟩ := gridPoint_spec start period (max e (l + 1)) hp
  have hkj : k < j := by
    by_contra hle
    have := Nat.mul_le_mul_right period (Nat.le_of_not_lt hle)
    omega
  obtain ⟨n, rfl⟩ : ∃ n, j = k + (n + 1) := ⟨j - k - 1, by omega⟩
  have hsum : start + (k + (n + 1)) * period = l + (n + 1) * period := by rw [hl]; ring
  refine ⟨n, hj.trans hsum, by omega, fun hn => ?_, ?_⟩
  · by_contra hge
    have hpast : max e (l + 1) ≤ start + (k + n) * period := by
      have hn1 : 1 * period ≤ n * period := Nat.mul_le_mul_right period hn
      have hsum' : start + (k + n) * period = l + n * period := by rw [hl]; ring
      omega
    have := hleast _ hpast
    omega
  · rw [hj, hsum, Nat.add_sub_cancel_left, Nat.mul_div_cancel _ hp]
    rfl

/-! ### What fixing a start records -/

/-- A coordinated plot takes the requests tagged for its gap and none raised for this one gap (R283). -/
theorem State.gapReqs_coord (s : State) (p : Nat) (extra : List PauseReq) (h : s.on (A.klCoord p) F.klCoord.en = true) :
    s.gapReqs p extra = s.gapReqs p [] := by
  simp [State.gapReqs, h]

/-- The pause of the gap under way and the start after it, in the registers of plot `p` (R55, R56). -/
def State.gapRecorded (s : State) (p pause slips : Nat) : State :=
  let s1 := (s.setReg (A.pauseLast p) (BitVec.ofNat 32 pause)).bumpBy (A.pauseTotal p) pause
  if 0 < slips then (s1.bumpBy (A.slipCount p) slips).fire (shotSrc p 3) else s1

theorem State.reg_bumpBy_ne (s : State) {a b : Nat} (n : Nat) (h : b ≠ a) : (s.bumpBy a n).reg b = s.reg b := s.reg_setReg_ne _ h

theorem State.reg_bumpBy (s : State) (a n : Nat) : ((s.bumpBy a n).reg a).toNat = min ((s.reg a).toNat + n) 0xFFFFFFFF := by
  unfold State.bumpBy
  rw [State.reg_setReg_same, BitVec.toNat_ofNat]
  omega

theorem State.gapRecorded_slips (s : State) (p : Plot) (pause slips : Nat) :
    ((s.gapRecorded p pause slips).reg (A.slipCount p)).toNat = min ((s.reg (A.slipCount p)).toNat + slips) 0xFFFFFFFF := by
  have hlast : A.slipCount p ≠ A.pauseLast p := by simp only [A.slipCount, A.pauseLast]; omega
  have htotal : A.slipCount p ≠ A.pauseTotal p := by simp only [A.slipCount, A.pauseTotal]; omega
  have hkept : ((s.setReg (A.pauseLast p) (BitVec.ofNat 32 pause)).bumpBy (A.pauseTotal p) pause).reg (A.slipCount p)
      = s.reg (A.slipCount p) := by
    rw [State.reg_bumpBy_ne _ _ htotal, State.reg_setReg_ne _ _ hlast]
  unfold State.gapRecorded
  simp only
  split
  · rw [State.reg_fire_shotSrc _ p 3 (by decide) (by simp only [A.slipCount]; omega), State.reg_bumpBy, hkept]
  · rw [hkept]
    omega

theorem State.gapRecorded_pause (s : State) (p : Plot) (pause slips : Nat) :
    (s.gapRecorded p pause slips).reg (A.pauseLast p) = BitVec.ofNat 32 pause := by
  have htotal : A.pauseLast p ≠ A.pauseTotal p := by simp only [A.pauseLast, A.pauseTotal]; omega
  have hslip : A.pauseLast p ≠ A.slipCount p := by simp only [A.pauseLast, A.slipCount]; omega
  have hset : ((s.setReg (A.pauseLast p) (BitVec.ofNat 32 pause)).bumpBy (A.pauseTotal p) pause).reg (A.pauseLast p)
      = BitVec.ofNat 32 pause := by
    rw [State.reg_bumpBy_ne _ _ htotal, State.reg_setReg_same]
  unfold State.gapRecorded
  simp only
  split
  · rw [State.reg_fire_shotSrc _ p 3 (by decide) (by simp only [A.pauseLast]; omega), State.reg_bumpBy_ne _ _ hslip, hset]
  · exact hset

/-- The start after a gap in which no calibration request of the plot's own stands (R55). -/
theorem State.fixStart_gap (s : State) (p : Plot) (hfirst : (s.sched p).firstEarliest = none)
    (hcal : s.cal.req.contains p.val = false) :
    let g := pauseOf (s.gapReqs p [])
    let r := s.nextStart p (s.earliest p g.1)
    ((s.fixStart p).sched p).fixed = some { start := r.1, pause := g.1, flags := r.2.1 ||| g.2 } ∧
      ((s.fixStart p).reg (A.slipCount p)).toNat = min ((s.reg (A.slipCount p)).toNat + r.2.2) 0xFFFFFFFF ∧
      (s.fixStart p).reg (A.pauseLast p) = BitVec.ofNat 32 g.1 := by
  have hins : A.slipCount p ≠ A.calInsCnt p := by simp only [A.slipCount, A.calInsCnt]; omega
  have hreqs : ∀ c : Bool, s.gapReqs p (if (if s.on (A.klCoord p) F.klCoord.en then c else false) = true then
      [⟨3000, Flag.calInserted⟩] else []) = s.gapReqs p [] := fun c => by
    cases hc : s.on (A.klCoord p) F.klCoord.en with
    | true => exact s.gapReqs_coord p _ hc
    | false => rfl
  have hkept : ∀ b : Bool, (if b = true then s.bump (A.calInsCnt p) else s).reg (A.slipCount p) = s.reg (A.slipCount p)
    | true => s.reg_bumpBy_ne 1 hins
    | false => rfl
  unfold State.fixStart
  simp only [hfirst, hcal, Bool.false_and, Bool.false_eq_true, if_false, hreqs]
  refine ⟨by rw [State.sched_setSched], ?_, State.gapRecorded_pause _ p _ _⟩
  refine (State.gapRecorded_slips _ p _ _).trans ?_
  rw [hkept]

/-- The first start of a run (R56). -/
theorem State.fixStart_first (s : State) (p : Plot) (e : Nat) (hfirst : (s.sched p).firstEarliest = some e) :
    ∃ g : Fixed, ((s.fixStart p).sched p).fixed = some g ∧ g.start = (s.nextStart p e).1 ∧
      ((s.fixStart p).sched p).computeAt = none ∧ s.fixStart p = { s with scheds := (s.fixStart p).scheds } := by
  unfold State.fixStart
  simp only [hfirst]
  exact ⟨_, by rw [State.sched_setSched], rfl, by rw [State.sched_setSched], rfl⟩

/-! ### The start in each mode -/

theorem State.nextStart_firstGrid (s : State) (p e : Nat) (hmode : s.fld (A.shotCtl p) F.shotCtl.mode = 0)
    (hlast : (s.sched p).lastStart = none) :
    (s.nextStart p e).1 = gridPoint (s.pair (A.runStartLo p) (A.runStartHi p)) (s.reg (A.shotPeriod p)).toNat e := by
  simp [State.nextStart, hmode, hlast]

theorem State.nextStart_grid (s : State) (p e l : Nat) (hmode : s.fld (A.shotCtl p) F.shotCtl.mode = 0)
    (hlast : (s.sched p).lastStart = some l) :
    let g := gridPoint (s.pair (A.runStartLo p) (A.runStartHi p)) (s.reg (A.shotPeriod p)).toNat (max e (l + 1))
    let slips := (g - l) / (s.reg (A.shotPeriod p)).toNat - 1
    s.nextStart p e = (g, if 0 < slips then Flag.slipped else 0, slips) := by
  simp [State.nextStart, hmode, hlast]

theorem State.nextStart_backToBack (s : State) (p e : Nat) (hmode : s.fld (A.shotCtl p) F.shotCtl.mode = 2) :
    s.nextStart p e = (e, 0, 0) := by
  simp [State.nextStart, hmode]

theorem State.nextStart_triggered (s : State) (p e T r : Nat) (hmode : s.fld (A.shotCtl p) F.shotCtl.mode = 1)
    (ht : (s.sched p).trig = some (T, r)) :
    let n := s.nextStart p e
    n.1 = max (T + max (s.reg (A.trigDelay p)).toNat (s.lead p + 10)) e ∧ n.2.1 &&& Flag.triggered = Flag.triggered := by
  simp only [State.nextStart, hmode, ht]
  generalize T + max (s.reg (A.trigDelay p)).toNat (s.lead p + 10) = b
  by_cases hb : b < e
  · simp [hb]
    exact ⟨by omega, by decide⟩
  · simp [hb]
    omega

theorem exec_nextStartFix_due (s : State) (p : Plot) (hat : (s.sched p).computeAt = some s.DT)
    (hready : s.fld (A.shotCtl p) F.shotCtl.mode ≠ 1 ∨ (s.sched p).trig.isSome = true)
    (hrun : s.runState p = 1 ∨ s.runState p = 2) : exec (.nextStartFix p) s = .next (s.fixStart p) := by
  rcases hready with h | h <;> rcases hrun with hr | hr <;> simp [execNextStartFix, onlyIf, hat, h, hr]

/-- The flag of a slip is set where grid points were passed over, or the pause of the gap carries it. -/
theorem slipped_iff (n : Nat) (f : BitVec 16) :
    ((if 0 < n then Flag.slipped else 0) ||| f) &&& Flag.slipped ≠ 0 ↔ 0 < n ∨ f &&& Flag.slipped ≠ 0 := by
  by_cases hn : 0 < n
  · simp only [hn, if_true, true_or, iff_true]
    intro h
    have := congrArg (fun v => v.getLsbD 9) h
    simp [Flag.slipped] at this
  · simp [hn]

/-- Settles O16: in each mode the start is that of the model's `nextStart` for the gap's pause, and the grid's arithmetic gives its
place. -/
theorem nextStartIsFixed : Obligations.NextStartIsFixed := by
  unfold Obligations.NextStartIsFixed
  refine ⟨fun s p e hat hrun hmode hper hlast hfirst => ?_, fun s p l k hat hrun hmode hper hfirst hcal hlast hl => ?_,
    fun s p hat hrun hmode hfirst hcal => ?_, fun s p T r hat hrun hmode hfirst hcal ht => ?_⟩
  · have hpos : 0 < (s.reg (A.shotPeriod p)).toNat := Nat.pos_of_ne_zero fun h => hper (BitVec.eq_of_toNat_eq h)
    obtain ⟨g, hg, hstart, hcompute, honly⟩ := s.fixStart_first p e hfirst
    rw [s.nextStart_firstGrid p e hmode hlast] at hstart
    obtain ⟨k, hk, he, -⟩ := gridPoint_spec (s.pair (A.runStartLo p) (A.runStartHi p)) _ e hpos
    exact completes_of_exec (exec_nextStartFix_due s p hat (.inl (by simp [hmode])) hrun)
      ⟨_, k, g, hg, rfl, hstart.trans hk, by rw [hstart, hk]; exact he,
        fun m hm => by rw [hstart]; exact gridPoint_le _ _ e m hpos hm, hcompute, honly⟩
  · have hpos : 0 < (s.reg (A.shotPeriod p)).toNat := Nat.pos_of_ne_zero fun h => hper (BitVec.eq_of_toNat_eq h)
    obtain ⟨hg, hslips, -⟩ := s.fixStart_gap p hfirst hcal
    rw [s.nextStart_grid p _ l hmode hlast] at hg hslips
    obtain ⟨n, hn, he, hfew, hcount⟩ := gridPoint_after (s.pair (A.runStartLo p) (A.runStartHi p)) _ k l
      (s.earliest p (pauseOf (s.gapReqs p [])).1) hpos hl
    rw [hn] at hcount
    simp only [hn, hcount] at hg hslips
    refine completes_of_exec (exec_nextStartFix_due s p hat (.inl (by simp [hmode])) hrun)
      ⟨_, n, hg, rfl, rfl, he, fun h0 => ?_, hslips, slipped_iff n _⟩
    have hprev : l + (n + 1) * (s.reg (A.shotPeriod p)).toNat - (s.reg (A.shotPeriod p)).toNat
        = l + n * (s.reg (A.shotPeriod p)).toNat := by
      rw [Nat.succ_mul]
      omega
    exact hprev ▸ hfew h0
  · obtain ⟨hg, -, hpause⟩ := s.fixStart_gap p hfirst hcal
    rw [s.nextStart_backToBack p _ hmode] at hg
    exact completes_of_exec (exec_nextStartFix_due s p hat (.inl (by simp [hmode])) hrun)
      ⟨_, hg, rfl, rfl, by rw [hpause, BitVec.toNat_ofNat]⟩
  · obtain ⟨hg, -⟩ := s.fixStart_gap p hfirst hcal
    obtain ⟨hstart, hflag⟩ := s.nextStart_triggered p (s.earliest p (pauseOf (s.gapReqs p [])).1) T r hmode ht
    refine completes_of_exec (exec_nextStartFix_due s p hat (.inr (by rw [ht]; rfl)) hrun) ⟨_, hg, hstart, fun h => ?_⟩
    rw [BitVec.and_comm, BitVec.and_or_distrib_left] at h
    have := (BitVec.or_eq_zero_iff.1 h).1
    rw [BitVec.and_comm, hflag] at this
    exact absurd this (by decide)

end Sys2Proof.Machine
end

section
/-! ## What runs and stops do in the tiles: sequencers, markers, descriptors and averaging jobs -/

namespace Sys2Proof.Machine

open Sys2Proof.Safety

/-! ### Registers within a range -/

/-- Every register that changed is one of `P`. -/
def TouchesOnly (P : Nat → Prop) (s u : State) : Prop := ∀ a, ¬ P a → u.reg a = s.reg a

theorem touchesOnly_refl (P : Nat → Prop) (s : State) : TouchesOnly P s s := fun _ _ => rfl

theorem touchesOnly_trans {P : Nat → Prop} {s t u : State} (h : TouchesOnly P s t) (k : TouchesOnly P t u) : TouchesOnly P s u :=
  fun a ha => (k a ha).trans (h a ha)

theorem touchesOnly_mono {P Q : Nat → Prop} {s u : State} (hPQ : ∀ a, P a → Q a) (h : TouchesOnly P s u) : TouchesOnly Q s u :=
  fun a ha => h a fun hp => ha (hPQ a hp)

theorem touchesOnly_setReg {P : Nat → Prop} (s : State) {a : Nat} (v : Word) (h : P a) : TouchesOnly P s (s.setReg a v) :=
  fun _ hb => s.reg_setReg_ne v fun hba => hb (hba ▸ h)

theorem touchesOnly_setPair {P : Nat → Prop} (s : State) {lo hi : Nat} (v : Nat) (hlo : P lo) (hhi : P hi) :
    TouchesOnly P s (s.setPair lo hi v) := fun b hb => by
  rw [s.setPair_regs lo hi v]
  exact touchesOnly_trans (touchesOnly_setReg s _ hlo) (touchesOnly_setReg _ _ hhi) b hb

/-! ### Work on sequencers and markers -/

/-- Only registers of `P`, sequencers and markers changed. -/
def SeqWork (P : Nat → Prop) (s u : State) : Prop := TouchesOnly P s u ∧
  u = { s with regs := u.regs, tie := u.tie, holds := u.holds, seqs := u.seqs, marks := u.marks }

theorem seqWork_refl (P : Nat → Prop) (s : State) : SeqWork P s s := ⟨touchesOnly_refl P s, rfl⟩

theorem seqWork_trans (P : Nat → Prop) (s t u : State) (h : SeqWork P s t) (k : SeqWork P t u) : SeqWork P s u :=
  ⟨touchesOnly_trans h.1 k.1, by rw [k.2, h.2]⟩

theorem seqWork_evq {P : Nat → Prop} {s u : State} (h : SeqWork P s u) : u.evq = s.evq := by rw [h.2]

theorem seqWork_scheds {P : Nat → Prop} {s u : State} (h : SeqWork P s u) : u.scheds = s.scheds := by rw [h.2]

theorem seqWork_sched {P : Nat → Prop} {s u : State} (h : SeqWork P s u) (p : Nat) : u.sched p = s.sched p := by
  unfold State.sched
  rw [seqWork_scheds h]

theorem seqWork_pcie {P : Nat → Prop} {s u : State} (h : SeqWork P s u) : u.pcie = s.pcie := by rw [h.2]

theorem seqWork_mono {P Q : Nat → Prop} {s u : State} (hPQ : ∀ a, P a → Q a) (h : SeqWork P s u) : SeqWork Q s u :=
  ⟨touchesOnly_mono hPQ h.1, h.2⟩

theorem seqWork_setReg {P : Nat → Prop} (s : State) {a : Nat} (v : Word) (h : P a) : SeqWork P s (s.setReg a v) :=
  ⟨touchesOnly_setReg s v h, rfl⟩

theorem seqWork_setSeq (P : Nat → Prop) (s : State) (k : Nat) (x : SeqX) : SeqWork P s (s.setSeq k x) := ⟨fun _ _ => rfl, rfl⟩

theorem seqWork_setMark (P : Nat → Prop) (s : State) (t m : Nat) (x : Mark) : SeqWork P s (s.setMark t m x) := ⟨fun _ _ => rfl, rfl⟩

theorem seqWork_setPair {P : Nat → Prop} (s : State) {lo hi : Nat} (v : Nat) (hlo : P lo) (hhi : P hi) :
    SeqWork P s (s.setPair lo hi v) :=
  ⟨touchesOnly_setPair s v hlo hhi, by unfold State.setPair State.arrived; split <;> rfl⟩

/-- The registers of one sequencer. -/
def seqRegs (t q : Nat) (a : Nat) : Prop := A.seqCtl t q ≤ a ∧ a < A.seqCtl t q + 0x400

theorem seqRegs_sts (t q : Nat) : seqRegs t q (A.seqSts t q) := by simp only [seqRegs, A.seqCtl, A.seqSts]; omega

theorem seqRegs_pc (t q : Nat) : seqRegs t q (A.seqPc t q) := by simp only [seqRegs, A.seqCtl, A.seqPc]; omega

theorem seqRegs_cyc (t q : Nat) : seqRegs t q (A.seqCycLo t q) ∧ seqRegs t q (A.seqCycHi t q) := by
  simp only [seqRegs, A.seqCtl, A.seqCycLo, A.seqCycHi]; omega

theorem seqRegs_s (t q i : Nat) (h : i < 16) : seqRegs t q (A.seqS t q i) := by simp only [seqRegs, A.seqCtl, A.seqS]; omega

theorem seqRegs_loop (t q i : Nat) (h : i < 8) : seqRegs t q (A.seqLoopSe t q i) ∧ seqRegs t q (A.seqLoopRem t q i) := by
  simp only [seqRegs, A.seqCtl, A.seqLoopSe, A.seqLoopRem]; omega

theorem seqWork_loadRegs (s : State) (t q : Nat) (l : List Nat) (hl : ∀ i ∈ l, i < 16) : SeqWork (seqRegs t q) s (s.loadRegs t q l) := by
  induction l generalizing s with
  | nil => exact seqWork_refl _ s
  | cons i l ih =>
    exact seqWork_trans _ _ _ _ (seqWork_setReg s _ (seqRegs_s t q i (hl i List.mem_cons_self)))
      (ih _ fun j hj => hl j (List.mem_cons_of_mem i hj))

theorem seqWork_clearLoops (s : State) (t q : Nat) (l : List Nat) (hl : ∀ i ∈ l, i < 8) : SeqWork (seqRegs t q) s (s.clearLoops t q l) := by
  induction l generalizing s with
  | nil => exact seqWork_refl _ s
  | cons i l ih =>
    have hloop := seqRegs_loop t q i (hl i List.mem_cons_self)
    exact seqWork_trans _ _ _ _ (seqWork_trans _ _ _ _ (seqWork_setReg s _ hloop.1) (seqWork_setReg _ _ hloop.2))
      (ih _ fun j hj => hl j (List.mem_cons_of_mem i hj))

theorem seqWork_addCycles (s : State) (t q n : Nat) : SeqWork (seqRegs t q) s (s.addCycles t q n) :=
  seqWork_setPair s _ (seqRegs_cyc t q).1 (seqRegs_cyc t q).2

theorem seqWork_setSeqState (s : State) (t q code : Nat) : SeqWork (seqRegs t q) s (s.setSeqState t q code) :=
  seqWork_setReg s _ (seqRegs_sts t q)

/-- A preload works on its own sequencer only (R81). -/
theorem seqWork_preload (s : State) (t q : Nat) : SeqWork (seqRegs t q) s (s.preload t q) := by
  have hloads := seqWork_loadRegs s t q (List.range 16) fun _ => List.mem_range.1
  have hloops := seqWork_clearLoops (s.loadRegs t q (List.range 16)) t q (List.range 8) fun _ => List.mem_range.1
  exact seqWork_trans _ _ _ _ hloads (seqWork_trans _ _ _ _ hloops (seqWork_trans _ _ _ _ (seqWork_setReg _ _ (seqRegs_sts t q))
    (seqWork_trans _ _ _ _ (seqWork_setReg _ _ (seqRegs_pc t q)) (seqWork_addCycles _ t q 4))))

theorem ucMatch_not_seqRegs (t q t' m : Nat) (hq : q < 34) (hm : m < 16) : ¬ seqRegs t q (A.ucMatch t' m) := by
  simp only [seqRegs, A.seqCtl, A.ucMatch]
  omega

/-- The microcode that is patched stays so, whatever happens to the sequencers. -/
theorem patched_of_seqWork {s u : State} {t q : Nat} (h : SeqWork (seqRegs t q) s u) (hq : q < 34) (t' : Nat) :
    u.patched t' = s.patched t' := by
  have hmatch : ∀ m, m < 16 → u.on (A.ucMatch t' m) F.ucMatch.enable = s.on (A.ucMatch t' m) F.ucMatch.enable :=
    fun m hm => State.on_of_reg (h.1 _ (ucMatch_not_seqRegs t q t' m hq hm)) _
  rw [Bool.eq_iff_iff]
  simp only [State.patched, List.any_eq_true, List.mem_range]
  exact exists_congr fun m => and_congr_right fun hm => by rw [hmatch m hm]

/-- A sequencer of a tile without patches preloads and enters a state (R81). -/
theorem State.preloadTo_unpatched (s : State) (t q code : Nat) (x : SeqX) (hq : q < 34) (h : s.patched t = false) :
    s.preloadTo t q code x = ((s.preload t q).setSeqState t q code).setSeq (sk t q) x := by
  have hp : (s.preload t q).patched t = false := (patched_of_seqWork (seqWork_preload s t q) hq t).trans h
  simp [State.preloadTo, State.sysRoutine, hp]

/-- What START does to a sequencer of a tile without patches. -/
theorem State.seqStart_unpatched (s : State) (t q : Nat) (hq : q < 34) (h : s.patched t = false) :
    SeqWork (seqRegs t q) s (s.seqStart t q) ∧ (s.seqStart t q).seqState t q =
      if s.seqState t q = 7 ∨ (s.seqState t q = 6 ∧ s.faultRestart t q = false) then s.seqState t q else 1 := by
  unfold State.seqStart
  simp only
  split
  · next hc =>
    refine ⟨seqWork_refl _ s, (if_pos ?_).symm⟩
    simpa using hc
  · next hc =>
    rw [if_neg (by simpa using hc), State.rearm, s.preloadTo_unpatched t q 1 {} hq h]
    exact ⟨seqWork_trans _ _ _ _ (seqWork_preload s t q) (seqWork_trans _ _ _ _ (seqWork_setSeqState _ t q 1) (seqWork_setSeq _ _ _ _)),
      State.fld_setFld_same _ _ _ _ (by decide)⟩

/-! ### A pass over the sequencers of tiles -/

theorem mem_tilesOf (s : State) (p t : Nat) : t ∈ s.tilesOf p ↔ t < 32 ∧ s.inPlot p t = true := by
  simp [State.tilesOf]

theorem nodup_tilesOf (s : State) (p : Nat) : (s.tilesOf p).Nodup := List.nodup_range.filter _

/-- The tiles hold no patches. -/
def Unpatched (ts : List Nat) (s : State) : Prop := ∀ t ∈ ts, s.patched t = false

/-- From a state with the invariant `I`, a pass keeps `I` and `Q`. -/
def PassKeeps (I : State → Prop) (Q : State → State → Prop) (s u : State) : Prop := I s → I u ∧ Q s u

theorem passKeeps_refl (I : State → Prop) {Q : State → State → Prop} (hQ : ∀ s, Q s s) (s : State) : PassKeeps I Q s s :=
  fun h => ⟨h, hQ s⟩

theorem passKeeps_trans (I : State → Prop) {Q : State → State → Prop} (hQ : ∀ s t u, Q s t → Q t u → Q s u) (s t u : State)
    (h : PassKeeps I Q s t) (k : PassKeeps I Q t u) : PassKeeps I Q s u := fun hs => by
  obtain ⟨ht, h1⟩ := h hs
  obtain ⟨hu, k1⟩ := k ht
  exact ⟨hu, hQ _ _ _ h1 k1⟩

/-- SEQ_STS and SEQ_CTL of sequencer (i, q) are as they were. -/
def SeqSame (i q : Nat) (s u : State) : Prop := u.reg (A.seqSts i q) = s.reg (A.seqSts i q) ∧ u.reg (A.seqCtl i q) = s.reg (A.seqCtl i q)

theorem seqSame_refl (i q : Nat) (s : State) : SeqSame i q s s := ⟨rfl, rfl⟩

theorem seqSame_trans (i q : Nat) (s t u : State) (h : SeqSame i q s t) (k : SeqSame i q t u) : SeqSame i q s u :=
  ⟨k.1.trans h.1, k.2.trans h.2⟩

theorem passKeeps_seqStart (ts : List Nat) {Q : State → State → Prop} (s : State) (t r : Nat) (ht : t ∈ ts) (hr : r < 34)
    (hQ : ∀ u, SeqWork (seqRegs t r) s u → Q s u) : PassKeeps (Unpatched ts) Q s (s.seqStart t r) := fun hs => by
  obtain ⟨hwork, -⟩ := s.seqStart_unpatched t r hr (hs t ht)
  exact ⟨fun t' ht' => (patched_of_seqWork hwork hr t').trans (hs t' ht'), hQ _ hwork⟩

theorem seqSame_of_seqWork {s u : State} {t r i q : Nat} (hq : q < 34) (hr : r < 34) (hne : t ≠ i ∨ r ≠ q)
    (h : SeqWork (seqRegs t r) s u) : SeqSame i q s u := by
  have hsts : ¬ seqRegs t r (A.seqSts i q) := by simp only [seqRegs, A.seqCtl, A.seqSts]; omega
  have hctl : ¬ seqRegs t r (A.seqCtl i q) := by simp only [seqRegs, A.seqCtl]; omega
  exact ⟨h.1 _ hsts, h.1 _ hctl⟩

/-- START's pass over the sequencers of the tiles `ts`. -/
def State.startSeqs (s : State) (ts : List Nat) : State := ts.foldl (fun s t => s.eachSeq t fun s r => s.seqStart t r) s

/-- START's pass over sequencers works on registers of tiles only. -/
theorem seqWork_startSeqs (s : State) (ts : List Nat) (hs : Unpatched ts s) : SeqWork (0x1000000 ≤ ·) s (s.startSeqs ts) := by
  have hrefl := passKeeps_refl (Unpatched ts) (seqWork_refl (0x1000000 ≤ ·))
  have htrans := passKeeps_trans (Unpatched ts) (seqWork_trans (0x1000000 ≤ ·))
  have hblock (t r a : Nat) (ha : seqRegs t r a) : 0x1000000 ≤ a := by simp only [seqRegs, A.seqCtl] at ha; omega
  have hseqs (s : State) (t : Nat) (ht : t ∈ ts) :
      PassKeeps (Unpatched ts) (SeqWork (0x1000000 ≤ ·)) s (s.eachSeq t fun s r => s.seqStart t r) :=
    foldl_rel hrefl htrans (fun s r => s.seqStart t r) _
      (fun s r hr => passKeeps_seqStart ts s t r ht (List.mem_range.1 hr) fun _ => seqWork_mono (hblock t r)) s
  exact (foldl_rel hrefl htrans (fun s t => s.eachSeq t fun s r => s.seqStart t r) ts (fun s t ht => hseqs s t ht) s hs).2

/-- What START leaves in each sequencer of tiles without patches (R81, R115). -/
theorem State.seqState_startSeqs (s : State) (ts : List Nat) (hn : ts.Nodup) (hs : Unpatched ts s) (i q : Nat)
    (hi : i ∈ ts) (hq : q < 34) : (s.startSeqs ts).seqState i q =
      if s.seqState i q = 7 ∨ (s.seqState i q = 6 ∧ s.faultRestart i q = false) then s.seqState i q else 1 := by
  have hrefl := passKeeps_refl (Unpatched ts) (seqSame_refl i q)
  have htrans := passKeeps_trans (Unpatched ts) (seqSame_trans i q)
  have hseq (s : State) (t r : Nat) (ht : t ∈ ts) (hr : r ∈ List.range 34) (hne : t ≠ i ∨ r ≠ q) :
      PassKeeps (Unpatched ts) (SeqSame i q) s (s.seqStart t r) :=
    passKeeps_seqStart ts s t r ht (List.mem_range.1 hr) fun _ => seqSame_of_seqWork hq (List.mem_range.1 hr) hne
  have htile (s : State) (t : Nat) (ht : t ∈ ts) (hne : t ≠ i) :
      PassKeeps (Unpatched ts) (SeqSame i q) s (s.eachSeq t fun s r => s.seqStart t r) :=
    foldl_rel hrefl htrans (fun s r => s.seqStart t r) _ (fun s r hr => hseq s t r ht hr (.inl hne)) s
  obtain ⟨u, hsu, hend⟩ := foldl_once hrefl htrans (fun s t => s.eachSeq t fun s r => s.seqStart t r) i ts htile hn hi s
  obtain ⟨v, huv, hlast⟩ := foldl_once hrefl htrans (fun s r => s.seqStart i r) q (List.range 34)
    (fun s r hr hne => hseq s i r hi hr (.inr hne)) List.nodup_range (List.mem_range.2 hq) u
  obtain ⟨hv, hsts, hctl⟩ := htrans _ _ _ hsu huv hs
  obtain ⟨hwork, hstate⟩ := v.seqStart_unpatched i q hq (hv i hi)
  have hstart : Unpatched ts (v.seqStart i q) := fun t ht => (patched_of_seqWork hwork hq t).trans (hv t ht)
  obtain ⟨-, hendsts, -⟩ := htrans _ _ _ hlast hend hstart
  calc (s.startSeqs ts).seqState i q = (v.seqStart i q).seqState i q := State.fld_of_reg hendsts _
    _ = _ := hstate
    _ = _ := by rw [State.seqState, State.faultRestart, State.fld_of_reg hsts, State.on_of_reg hctl]; rfl

/-! ### Descriptors prime and averaging jobs go -/

/-- Registers of the tiles' datapaths, past their sequencers, and the FIRED bits of the tiles' sources. -/
def primeRegs (a : Nat) : Prop := a < 0x300000 ∨ (0x1000000 ≤ a ∧ 0x22000 ≤ (a - 0x1000000) % 0x80000)

/-- What priming the descriptors and dropping the averaging jobs of tiles may change; a source fires only without bus mastering. -/
def PrimeWork (s u : State) : Prop := TouchesOnly primeRegs s u ∧ (∃ l, u.evq = s.evq ++ l ∧ (s.dmaOk = true → l = [])) ∧
  u = { s with regs := u.regs, tie := u.tie, evq := u.evq, decs := u.decs, lanes := u.lanes, out := u.out }

theorem primeWork_refl (s : State) : PrimeWork s s := ⟨touchesOnly_refl _ s, ⟨[], by simp⟩, rfl⟩

theorem primeWork_trans (s t u : State) (h : PrimeWork s t) (k : PrimeWork t u) : PrimeWork s u := by
  obtain ⟨h1, ⟨l, hl, hl0⟩, h2⟩ := h
  obtain ⟨k1, ⟨m, hm, hm0⟩, k2⟩ := k
  have hdma : t.dmaOk = s.dmaOk := by rw [h2]; rfl
  rw [hdma] at hm0
  exact ⟨touchesOnly_trans h1 k1, ⟨l ++ m, by rw [hm, hl, List.append_assoc], fun hd => by rw [hl0 hd, hm0 hd]; rfl⟩, by rw [k2, h2]⟩

theorem primeWork_sched {s u : State} (h : PrimeWork s u) (p : Nat) : u.sched p = s.sched p := by
  obtain ⟨-, -, honly⟩ := h
  unfold State.sched
  rw [honly]

theorem primeWork_setReg (s : State) {a : Nat} (v : Word) (h : primeRegs a) : PrimeWork s (s.setReg a v) :=
  ⟨touchesOnly_setReg s v h, ⟨[], by simp⟩, rfl⟩

theorem primeRegs_dd (t d : Nat) (hd : d < 16) : primeRegs (A.ddSts t d) ∧ primeRegs (A.ddChunk t d) := by
  simp only [primeRegs, A.ddSts, A.ddChunk]
  omega

theorem primeRegs_lnSts (t p : Nat) (hp : p < 8) : primeRegs (A.lnSts t p) := by
  simp only [primeRegs, A.lnSts]
  omega

theorem primeWork_setDec (s : State) (t d : Nat) (x : DdX) : PrimeWork s (s.setDec t d x) := ⟨fun _ _ => rfl, ⟨[], by simp⟩, rfl⟩

theorem primeWork_ddSts (s : State) (t d : Nat) (hd : d < 16) (f : Fld) (v : Nat) : PrimeWork s (s.setFld (A.ddSts t d) f v) :=
  primeWork_setReg s _ (primeRegs_dd t d hd).1

theorem primeWork_raise (s : State) {a : Nat} (f : Fld) (v : Nat) (h : primeRegs a) : PrimeWork s (s.raise a f v) :=
  ⟨touchesOnly_setReg s _ h, ⟨[], by simp⟩, rfl⟩

/-- A descriptor without bus mastering fails; its source fires (R152, R377). -/
theorem primeWork_ddError (s : State) (t d cause : Nat) (ht : t < 32) (hd : d < 16) (hdma : s.dmaOk = false) :
    PrimeWork s (s.ddError t d cause) := by
  have hsrc : primeRegs (A.evfSrcSts (tileSrc t 9 / 32)) := by
    simp only [primeRegs, A.evfSrcSts, tileSrc]
    omega
  have hset (x : DdX) : PrimeWork s (((s.setDd t d 4).setFld (A.ddSts t d) F.ddSts.errCause cause).setDec t d x) :=
    primeWork_trans _ _ _ (primeWork_trans _ _ _ (primeWork_ddSts s t d hd _ 4) (primeWork_ddSts _ t d hd _ cause))
      (primeWork_setDec _ t d x)
  obtain ⟨hregs, ⟨l, hl, -⟩, honly⟩ := hset { s.dec t d with fetching := [], priming := false }
  refine ⟨touchesOnly_trans hregs (touchesOnly_setReg _ _ hsrc), ⟨l ++ [(tileSrc t 9, 0)], ?_, by simp [hdma]⟩, ?_⟩
  · rw [← List.append_assoc, ← hl]; rfl
  · rfl

theorem primeWork_askChunks (s : State) (t d : Nat) (ks : List Nat) (ht : t < 32) (hd : d < 16) : PrimeWork s (s.askChunks t d ks) := by
  unfold State.askChunks
  split
  · exact primeWork_refl s
  split
  · exact ⟨fun _ _ => rfl, ⟨[], by simp⟩, rfl⟩
  · next hdma => exact primeWork_ddError s t d 1 ht hd (by simpa using hdma)

theorem primeWork_prime (s : State) (t d : Nat) (ht : t < 32) (hd : d < 16) : PrimeWork s (s.prime t d) := by
  have hregs := primeRegs_dd t d hd
  have hclear : PrimeWork s ((s.setFld (A.ddSts t d) F.ddSts.errCause 0).setReg (A.ddChunk t d) 0) :=
    primeWork_trans _ _ _ (primeWork_ddSts s t d hd _ 0) (primeWork_setReg _ 0 hregs.2)
  refine primeWork_trans _ _ _ hclear ?_
  unfold State.prime
  simp only
  split
  · exact primeWork_trans _ _ _ (primeWork_trans _ _ _ (primeWork_ddSts _ t d hd _ 4) (primeWork_ddSts _ t d hd _ 3))
      (primeWork_setDec _ t d _)
  split
  · exact primeWork_trans _ _ _ (primeWork_trans _ _ _ (primeWork_trans _ _ _ (primeWork_ddSts _ t d hd _ 2)
      (primeWork_raise _ _ _ hregs.1)) (primeWork_ddSts _ t d hd _ 0)) (primeWork_setDec _ t d _)
  · exact primeWork_trans _ _ _ (primeWork_trans _ _ _ (primeWork_trans _ _ _ (primeWork_ddSts _ t d hd _ 1)
      (primeWork_ddSts _ t d hd _ 0)) (primeWork_setDec _ t d _)) (primeWork_askChunks _ t d _ ht hd)

theorem primeWork_primeTile (s : State) (t : Nat) (ht : t < 32) : PrimeWork s (s.primeTile t) :=
  foldl_rel primeWork_refl primeWork_trans _ _ (fun s d hd => by
    split
    · exact primeWork_prime s t d ht (List.mem_range.1 hd)
    · exact primeWork_refl s) s

theorem primeWork_dropJob (s : State) (t p : Nat) (sh : Bool) (hp : p < 8) : PrimeWork s (s.dropJob t p sh) := by
  unfold State.dropJob
  split
  · exact primeWork_trans _ (s.modLane t p fun x => (x.setJob sh none).setAcc sh {}) _
      ⟨fun _ _ => rfl, ⟨[], (List.append_nil _).symm, fun _ => rfl⟩, rfl⟩
      (primeWork_raise _ _ 1 (primeRegs_lnSts t p hp))
  · exact primeWork_refl s

/-- What START does in the tiles beside their sequencers stays in their datapaths. -/
theorem primeWork_startTiles (s : State) (p : Nat) : PrimeWork s (s.startTiles p) := by
  refine primeWork_trans _ (s.eachTile p State.primeTile) _ ?_ ?_
  · exact foldl_rel primeWork_refl primeWork_trans State.primeTile _
      (fun s t ht => primeWork_primeTile s t ((mem_tilesOf _ p t).1 ht).1) s
  · exact foldl_rel primeWork_refl primeWork_trans _ _ (fun s t _ => foldl_rel primeWork_refl primeWork_trans _ _
      (fun s q hq => primeWork_trans _ _ _ (primeWork_dropJob s t q false (List.mem_range.1 hq))
        (primeWork_dropJob _ t q true (List.mem_range.1 hq))) s) _

theorem seqWork_countHits (s : State) (t : Nat) (l : List Nat) : SeqWork (0x1000000 ≤ ·) s (s.countHits t l) := by
  induction l generalizing s with
  | nil => exact seqWork_refl _ s
  | cons m l ih =>
    exact seqWork_trans _ _ _ _ (seqWork_setReg s _ (by simp only [A.ucHitCnt]; omega)) (ih _)

theorem seqRegs_ge {t q a : Nat} (h : seqRegs t q a) : 0x1000000 ≤ a := by
  simp only [seqRegs, A.seqCtl] at h
  omega

/-- A stall that ends with its shot or run has its cycles counted (R89). -/
theorem seqWork_stallCut (s : State) (t q : Nat) : SeqWork (0x1000000 ≤ ·) s (s.stallCut t q) := by
  unfold State.stallCut
  simp only
  split
  · have hcyc := seqWork_mono (fun _ => seqRegs_ge) (seqWork_addCycles s t q (Config.stallCycles s.tm.now (sk t q)))
    split
    · exact seqWork_trans _ _ _ _ hcyc (seqWork_countHits _ t _)
    · exact hcyc
  · exact seqWork_refl _ s

theorem seqWork_seqStop (s : State) (t q : Nat) : SeqWork (0x1000000 ≤ ·) s (s.seqStop t q) := by
  unfold State.seqStop
  simp only
  split
  · exact seqWork_setSeq _ s _ _
  · exact seqWork_trans _ _ _ _ (seqWork_stallCut s t q) (seqWork_trans _ _ _ _
      (seqWork_mono (fun _ => seqRegs_ge) (seqWork_setSeqState _ t q 0)) (seqWork_setSeq _ _ _ _))

theorem seqWork_clearMarks (s : State) (t : Nat) : SeqWork (0x1000000 ≤ ·) s (s.clearMarks t) :=
  foldl_rel (seqWork_refl _) (seqWork_trans _) _ _ (fun s m _ => seqWork_setMark _ s t m {}) s

/-- What entering STOPPED does in the tiles. -/
def State.stopTiles (s : State) (p : Nat) : State := s.eachTile p fun s t => (s.clearMarks t).eachSeq t fun s q => s.seqStop t q

theorem seqWork_stopTiles (s : State) (p : Nat) : SeqWork (0x1000000 ≤ ·) s (s.stopTiles p) :=
  foldl_rel (seqWork_refl _) (seqWork_trans _) _ _ (fun s t _ => seqWork_trans _ _ _ _ (seqWork_clearMarks s t)
    (foldl_rel (seqWork_refl _) (seqWork_trans _) _ _ (fun s q _ => seqWork_seqStop s t q) _)) s

end Sys2Proof.Machine
end

section
/-! ## START, DRAIN, ABORT, CLR_COUNT and the global commands (R42, R43, R62–R65, R68) -/

namespace Sys2Proof.Machine

open Sys2Proof.Safety

/-! ### Which plot holds which tile -/

/-- The tiles of a plot are those of its assignment, in registers below 100h. -/
theorem State.tilesOf_of_reg {s u : State} (h : ∀ a, a < 0x100 → u.reg a = s.reg a) (p : Nat) : u.tilesOf p = s.tilesOf p := by
  refine List.filter_congr fun i hi => ?_
  have hplot : A.glbTilePlot (i / 8) < 0x100 := by
    rw [List.mem_range] at hi
    simp only [A.glbTilePlot]
    omega
  rw [State.inPlot, State.inPlot, State.tileOn, State.tileOn, State.plotOf, State.plotOf, h A.glbTileEn (by decide),
    State.fld_of_reg (h _ hplot)]

/-! ### A plot enters STOPPED -/

/-- The scheduler of a plot that enters STOPPED (R62). -/
def Sched.stopped (c : Sched) : Sched :=
  { c with shots := markLast c.shots, fixed := none, computeAt := none, trig := none, abortAt := none, firstEarliest := none,
           lastStart := none, coord := [], peerNext := [] }

/-- RUN_STS and the events of a plot that enters STOPPED, before its tiles follow. -/
def State.stopRun (s : State) (p cause : Nat) : State :=
  ((((((s.setSched p (s.sched p).stopped).runSet p F.runSts.state 0).runSet p F.runSts.stopCause cause).runSet p
    F.runSts.trigPending 0).runSet p F.runSts.done 1).fire (shotSrc p 2))

theorem State.stop_eq (s : State) (p cause : Nat) : s.stop p cause = (s.stopRun p cause).stopTiles p := rfl

theorem State.stopRun_fld (s : State) (p : Plot) (cause : Nat) (f : Fld) :
    (s.stopRun p cause).fld (A.runSts p) f = (((((s.setSched p (s.sched p).stopped).runSet p F.runSts.state 0).runSet p
      F.runSts.stopCause cause).runSet p F.runSts.trigPending 0).runSet p F.runSts.done 1).fld (A.runSts p) f :=
  State.fld_fire_shotSrc _ p 2 (by decide) (runSts_ge p) f

/-- What the registers and events of a plot say that enters STOPPED (R62, R66). -/
theorem State.stop_spec (s : State) (p : Plot) (cause : Nat) (hc : cause < 8) :
    (s.stop p cause).runState p = 0 ∧ (s.stop p cause).fld (A.runSts p) F.runSts.done = 1 ∧
    (s.stop p cause).fld (A.runSts p) F.runSts.stopCause = cause ∧ (s.stop p cause).evq = s.evq ++ [(1290 + 4 * p.val, 0)] ∧
    (s.stop p cause).sched p = (s.sched p).stopped := by
  have hwork := seqWork_stopTiles (s.stopRun p cause) p
  have hsts (f : Fld) : (s.stop p cause).fld (A.runSts p) f = (s.stopRun p cause).fld (A.runSts p) f :=
    State.fld_of_reg (hwork.1 _ (by simp only [A.runSts]; omega)) f
  have hsrc : shotSrc p 2 = 1290 + 4 * p.val := by unfold shotSrc; omega
  refine ⟨?_, ?_, ?_, ?_, ?_⟩
  · rw [State.runState, hsts, s.stopRun_fld, State.fld_runSet_disjoint _ _ _ _ _ (by decide) (by decide),
      State.fld_runSet_disjoint _ _ _ _ _ (by decide) (by decide), State.fld_runSet_disjoint _ _ _ _ _ (by decide) (by decide)]
    exact State.fld_runSet_same _ _ _ _ (by decide)
  · rw [hsts, s.stopRun_fld]
    exact State.fld_runSet_same _ _ _ _ (by decide)
  · rw [hsts, s.stopRun_fld, State.fld_runSet_disjoint _ _ _ _ _ (by decide) (by decide),
      State.fld_runSet_disjoint _ _ _ _ _ (by decide) (by decide)]
    exact (State.fld_runSet_same _ _ _ _ (by decide)).trans (Nat.mod_eq_of_lt hc)
  · rw [s.stop_eq, seqWork_evq hwork, State.stopRun, State.fire_evq, hsrc]
    simp only [State.evq_runSet, State.setSched_fields]
  · rw [s.stop_eq, seqWork_sched hwork]
    simp only [State.stopRun, State.sched_fire, State.sched_runSet, State.sched_setSched]

/-! ### START (R62) -/

theorem lowNibble_eq (v : Word) (m : Nat) (hm : m < 16) (h : ∀ j, j < 4 → (v.toNat % 16).testBit j = m.testBit j) :
    v.toNat % 16 = m := by
  refine Nat.eq_of_testBit_eq fun j => ?_
  by_cases hj : j < 4
  · exact h j hj
  · have hpow : 16 ≤ 2 ^ j := Nat.pow_le_pow_right (n := 2) (by decide) (by omega : 4 ≤ j)
    rw [Nat.testBit_lt_two_pow (by omega), Nat.testBit_lt_two_pow (by omega)]

/-- A write of START alone, over a word without stronger commands. -/
theorem putF_start (w : Word) (h : w.toNat % 16 < 2) : (putF w F.runCmd.start 1).toNat % 16 = 1 := by
  refine lowNibble_eq _ 1 (by decide) fun j hj => ?_
  rw [show F.runCmd.start = ⟨0, 0⟩ from rfl, testBit_putF w 0 j (by decide) hj]
  rcases (by omega : w.toNat % 16 = 0 ∨ w.toNat % 16 = 1) with hw | hw <;> rw [hw] <;> revert hj <;> revert j <;> decide

theorem putF_drain (w : Word) (h4 : w.toNat % 16 / 4 = 0) (h2 : w.toNat % 2 = 0) : (putF w F.runCmd.drain 1).toNat % 16 = 2 := by
  refine lowNibble_eq _ 2 (by decide) fun j hj => ?_
  rw [show F.runCmd.drain = ⟨1, 1⟩ from rfl, testBit_putF w 1 j (by decide) hj]
  rcases (by omega : w.toNat % 16 = 0 ∨ w.toNat % 16 = 2) with hw | hw <;> rw [hw] <;> revert hj <;> revert j <;> decide

theorem putF_clrCount (w : Word) (h : w.toNat % 8 = 0) : (putF w F.runCmd.clrCount 1).toNat % 16 = 8 := by
  refine lowNibble_eq _ 8 (by decide) fun j hj => ?_
  rw [show F.runCmd.clrCount = ⟨3, 3⟩ from rfl, testBit_putF w 3 j (by decide) hj]
  rcases (by omega : w.toNat % 16 = 0 ∨ w.toNat % 16 = 8) with hw | hw <;> rw [hw] <;> revert hj <;> revert j <;> decide

theorem State.runCmd_start (s : State) (p : Nat) (w : Word) (h : w.toNat % 16 = 1) :
    s.runCmd p w = if s.startIgnored p then s.cmdIgnored p else s.start p := by
  simp [State.runCmd, h, Nat.testBit, b2n]

theorem State.runCmd_drain (s : State) (p : Nat) (w : Word) (h : w.toNat % 16 = 2) : s.runCmd p w = s.drain p := by
  simp [State.runCmd, h, Nat.testBit, b2n]

theorem State.runCmd_clrCount (s : State) (p : Nat) (w : Word) (h : w.toNat % 16 = 8) :
    s.runCmd p w = if s.stopped p then s.setReg (A.shotNum p) 0xFFFFFFFF else s.cmdIgnored p := by
  simp [State.runCmd, h, Nat.testBit, b2n]

@[simp] theorem State.startIgnored_runCommanded (s : State) (p q : Nat) : (s.runCommanded p).startIgnored q = s.startIgnored q := by
  simp [State.startIgnored, State.stopped, State.runState, State.appliedTo]
  rfl

/-- RUN_STS, SHOTS_DONE and the scheduler of a plot that START arms. -/
def State.startRun (s : State) (p : Nat) : State :=
  ((s.setReg (A.shotsDone p) 0).runSet p F.runSts.state 1).setSched p { (s.setReg (A.shotsDone p) 0).sched p with
    fixed := none, computeAt := some s.DT, firstEarliest := some (max (s.pair (A.runStartLo p) (A.runStartHi p)) (s.DT + s.lead p + 16)),
    lastStart := none, trig := none, abortAt := none }

theorem State.start_armed (s : State) (p : Nat) (h : s.reg (A.runShots p) ≠ 0 ∨ s.on (A.shotCtl p) F.shotCtl.runCont = true) :
    s.start p = ((s.startRun p).startSeqs ((s.startRun p).tilesOf p)).startTiles p := by
  unfold State.start
  rw [if_neg (by simpa [or_iff_not_imp_left] using h)]
  rfl

theorem State.start_noShots (s : State) (p : Nat) (h : s.reg (A.runShots p) = 0) (hc : s.on (A.shotCtl p) F.shotCtl.runCont = false) :
    s.start p = ((s.setReg (A.shotsDone p) 0).startTiles p).stop p 1 := by
  unfold State.start
  rw [if_pos (by simp [h, hc])]

theorem shotsDone_ne_runSts (p : Nat) : A.shotsDone p ≠ A.runSts p := by
  simp only [A.shotsDone, A.runSts]
  omega

theorem State.startRun_reg (s : State) (p a : Nat) (hd : a ≠ A.shotsDone p) (hs : a ≠ A.runSts p) : (s.startRun p).reg a = s.reg a :=
  (State.reg_runSet_ne _ _ _ hs).trans (s.reg_setReg_ne _ hd)

theorem primeRegs_shotRegs {a : Nat} (h : 0x300000 ≤ a) (h' : a < 0x1000000) : ¬ primeRegs a := by
  simp only [primeRegs]
  omega

theorem primeRegs_seqSts (i q : Nat) (hq : q < 34) : ¬ primeRegs (A.seqSts i q) := by
  simp only [primeRegs, A.seqSts]
  omega

/-- A START that is not ignored arms a plot with shots to run, and its sequencers wait (R62, R81). -/
theorem State.start_spec (s : State) (p : Plot) (h : s.reg (A.runShots p) ≠ 0 ∨ s.on (A.shotCtl p) F.shotCtl.runCont = true)
    (hun : ∀ i : Tile, s.inPlot p i = true → s.patched i = false) :
    (s.start p).runState p = 1 ∧ (s.start p).reg (A.shotsDone p) = 0 ∧ ((s.start p).sched p).computeAt = some s.DT ∧
    ((s.start p).sched p).firstEarliest = some (max (s.pair (A.runStartLo p) (A.runStartHi p)) (s.DT + s.lead p + 16)) ∧
    (s.dmaOk = true → (s.start p).evq = s.evq) ∧
    ∀ (i : Tile) (q : Seq), s.inPlot p i = true → (s.start p).seqState i q =
      if s.seqState i q = 7 ∨ (s.seqState i q = 6 ∧ s.faultRestart i q = false) then s.seqState i q else 1 := by
  have htiles : (s.startRun p).tilesOf p = s.tilesOf p := State.tilesOf_of_reg
    (fun a ha => s.startRun_reg p a (by simp only [A.shotsDone]; omega) (by simp only [A.runSts]; omega)) p
  have hkept (a : Nat) (ha : 0x1000000 ≤ a) : (s.startRun p).reg a = s.reg a :=
    s.startRun_reg p a (by simp only [A.shotsDone]; omega) (by simp only [A.runSts]; omega)
  have hpatched : Unpatched (s.tilesOf p) (s.startRun p) := fun t ht => by
    obtain ⟨ht32, hin⟩ := (mem_tilesOf s p t).1 ht
    have hs := hun ⟨t, ht32⟩ hin
    unfold State.patched at hs ⊢
    rw [List.any_eq_false] at hs ⊢
    exact fun m hm => by rw [State.on_of_reg (hkept _ (by simp only [A.ucMatch]; omega))]; exact hs m hm
  have hstart := s.start_armed p h
  rw [htiles] at hstart
  have hseqs := seqWork_startSeqs (s.startRun p) (s.tilesOf p) hpatched
  have hprime := primeWork_startTiles ((s.startRun p).startSeqs (s.tilesOf p)) p
  rw [← hstart] at hprime
  have hreg (a : Nat) (h1 : 0x300000 ≤ a) (h2 : a < 0x1000000) : (s.start p).reg a = (s.startRun p).reg a :=
    (hprime.1 a (primeRegs_shotRegs h1 h2)).trans (hseqs.1 a (by omega))
  have hsched : (s.start p).sched p = (s.startRun p).sched p := (primeWork_sched hprime p).trans (seqWork_sched hseqs p)
  refine ⟨?_, ?_, ?_, ?_, fun hdma => ?_, fun i q hi => ?_⟩
  · rw [State.runState, State.fld_of_reg (hreg _ (runSts_ge p) (by simp only [A.runSts]; omega))]
    exact State.fld_runSet_same _ p _ 1 (by decide)
  · rw [hreg _ (by simp only [A.shotsDone]; omega) (by simp only [A.shotsDone]; omega)]
    exact (State.reg_runSet_ne _ _ _ (shotsDone_ne_runSts p)).trans (State.reg_setReg_same ..)
  · rw [hsched, State.startRun, State.sched_setSched]
  · rw [hsched, State.startRun, State.sched_setSched]
  · obtain ⟨-, ⟨l, hl, hl0⟩, -⟩ := hprime
    have hdma' : ((s.startRun p).startSeqs (s.tilesOf p)).dmaOk = true := by
      unfold State.dmaOk at hdma ⊢
      rw [seqWork_pcie hseqs]
      exact hdma
    rw [hl, hl0 hdma', List.append_nil, seqWork_evq hseqs]
    rfl
  · have hmem : i.val ∈ s.tilesOf p := (mem_tilesOf s p i).2 ⟨i.isLt, hi⟩
    have hstate := State.seqState_startSeqs _ _ (nodup_tilesOf s p) hpatched i q hmem q.isLt
    have hsts := hkept (A.seqSts i q) (by simp only [A.seqSts]; omega)
    have hctl := hkept (A.seqCtl i q) (by simp only [A.seqCtl]; omega)
    calc (s.start p).seqState i q = ((s.startRun p).startSeqs (s.tilesOf p)).seqState i q :=
          State.fld_of_reg (hprime.1 _ (primeRegs_seqSts i q q.isLt)) _
      _ = _ := hstate
      _ = _ := by rw [State.seqState, State.faultRestart, State.fld_of_reg hsts, State.on_of_reg hctl]; rfl

/-- A START with no shot to run leaves the plot STOPPED (R62). -/
theorem State.start_noShots_evq (s : State) (p : Plot) (h : s.reg (A.runShots p) = 0)
    (hc : s.on (A.shotCtl p) F.shotCtl.runCont = false) :
    (1290 + 4 * p.val, 0) ∈ (s.start p).evq ∧ (s.dmaOk = true → (s.start p).evq = s.evq ++ [(1290 + 4 * p.val, 0)]) := by
  obtain ⟨-, -, -, hevq, -⟩ := ((s.setReg (A.shotsDone p) 0).startTiles p).stop_spec p 1 (by decide)
  obtain ⟨-, ⟨l, hl, hl0⟩, -⟩ := primeWork_startTiles (s.setReg (A.shotsDone p) 0) p
  rw [s.start_noShots p h hc, hevq, hl]
  exact ⟨by simp, fun hdma => by rw [hl0 hdma, List.append_nil]; rfl⟩

/-! ### The writes of RUN_CMD by the host -/

theorem exec_runStart_live (s : State) (p : Plot) (w : Word) (hl : s.live = true) (hp : s.plotDefined p = true)
    (he : s.enforce = false) (hw : w.toNat % 16 < 2) : exec (.runStart p w) s = .next
      (if s.startIgnored p then (s.runCommanded p).cmdIgnored p else (s.runCommanded p).start p) := by
  have hrun := s.hostWrite_runCmd p (putF w F.runCmd.start 1) hl hp (.inl he)
  rw [State.runCmd_start _ p _ (putF_start w hw), State.startIgnored_runCommanded] at hrun
  exact congrArg Host.Outcome.next hrun

theorem exec_runDrain_live (s : State) (p : Plot) (w : Word) (hl : s.live = true) (hp : s.plotDefined p = true)
    (h4 : w.toNat % 16 / 4 = 0) (h2 : w.toNat % 2 = 0) : exec (.runDrain p w) s = .next ((s.runCommanded p).drain p) := by
  have hbits : getF (putF w F.runCmd.drain 1) F.runCmd.start = 0 ∧ getF (putF w F.runCmd.drain 1) F.runCmd.clrCount = 0 := by
    rw [getF_putF_ne w _ _ 1 (by decide) (by decide), getF_putF_ne w _ _ 1 (by decide) (by decide)]
    simp only [getF, F.runCmd.start, F.runCmd.clrCount]
    omega
  have hrun := s.hostWrite_runCmd p (putF w F.runCmd.drain 1) hl hp (.inr hbits)
  rw [State.runCmd_drain _ p _ (putF_drain w h4 h2)] at hrun
  exact congrArg Host.Outcome.next hrun

theorem exec_clrCount_live (s : State) (p : Plot) (w : Word) (hl : s.live = true) (hp : s.plotDefined p = true)
    (he : s.enforce = false) (hw : w.toNat % 8 = 0) : exec (.clrCount p w) s = .next
      (if s.stopped p then (s.runCommanded p).setReg (A.shotNum p) 0xFFFFFFFF else (s.runCommanded p).cmdIgnored p) := by
  have hrun := s.hostWrite_runCmd p (putF w F.runCmd.clrCount 1) hl hp (.inl he)
  rw [State.runCmd_clrCount _ p _ (putF_clrCount w hw)] at hrun
  have hstopped : (s.runCommanded p).stopped p = s.stopped p := by simp [State.stopped, State.runState]
  rw [hstopped] at hrun
  exact congrArg Host.Outcome.next hrun

/-! ### DRAIN (R62) -/

theorem schedOnly_evq {s u : State} (h : SchedOnly s u) : u.evq = s.evq := by
  unfold SchedOnly at h
  rw [h]

/-- A drain or abort that reaches a settled scheduler changes its command tick, its triggers and TRIG_PENDING only (R58). -/
theorem State.cmdReaches_settled (s : State) (p : Nat) (h : Settled p s) :
    (s.cmdReaches p).sched p =
      { s.sched p with cmdTick := some s.DT, trig := if s.trigNow p then none else (s.sched p).trig, trigOvf := false } ∧
      SameRegs [A.runSts p] s (s.cmdReaches p) ∧ SchedOnly s (s.cmdReaches p) ∧
      (s.cmdReaches p).runState p = s.runState p ∧
      (s.cmdReaches p).fld (A.runSts p) F.runSts.cmdIgnored = s.fld (A.runSts p) F.runSts.cmdIgnored := by
  have hkept : s.unfix p = s := s.unfix_kept p h
  have hsched := s.cmdReaches_sched p
  rw [hkept] at hsched
  refine ⟨hsched, ?_⟩
  rw [s.cmdReaches_eq, State.commandHeard, hkept]
  split
  · refine ⟨(State.runSet_onlyRegs _ p _ 0).1, schedOnly_trans _ _ _ (schedOnly_setSched s p _) (schedOnly_runSet _ p _ 0), ?_, ?_⟩
    · exact State.fld_runSet_disjoint _ p _ _ 0 (by decide) (by decide)
    · exact State.fld_runSet_disjoint _ p _ _ 0 (by decide) (by decide)
  · exact ⟨fun _ _ => rfl, schedOnly_setSched s p _, rfl, rfl⟩

/-- DRAIN with no start to take back: a plot that is ARMED or RUNNING enters DRAINING, or STOPPED where nothing is fixed or in
progress; another plot only hears of it (R62). -/
theorem State.drain_eq (s : State) (p : Nat) (h : Settled p s) : s.drain p =
    if s.runState p = 1 ∨ s.runState p = 2 then
      if (s.sched p).fixed.isSome ∨ (s.current p).isSome then (s.cmdReaches p).runSet p F.runSts.state 3
      else (s.cmdReaches p).stop p 2
    else s.cmdReaches p := by
  obtain ⟨hsched, -, -, hstate, -⟩ := s.cmdReaches_settled p h
  have hfixed : ((s.cmdReaches p).sched p).fixed = (s.sched p).fixed := by rw [hsched]
  have hcur : (s.cmdReaches p).current p = s.current p := by rw [State.current, State.current, hsched]
  unfold State.drain
  simp only [hstate, hfixed, hcur, Bool.or_eq_true, decide_eq_true_eq]

/-- DRAIN on an armed or running plot (R62). -/
theorem State.drain_spec (s : State) (p : Plot) (h : Settled p s) (hrun : s.runState p = 1 ∨ s.runState p = 2) :
    ((s.sched p).fixed.isSome ∨ (s.current p).isSome →
      (s.drain p).runState p = 3 ∧ (s.drain p).evq = s.evq ∧ SameRegs [A.runSts p] s (s.drain p)) ∧
    (¬((s.sched p).fixed.isSome ∨ (s.current p).isSome) →
      (s.drain p).runState p = 0 ∧ (s.drain p).fld (A.runSts p) F.runSts.done = 1 ∧
      (s.drain p).fld (A.runSts p) F.runSts.stopCause = 2 ∧ (s.drain p).evq = s.evq ++ [(1290 + 4 * p.val, 0)]) := by
  obtain ⟨-, hregs, honly, -, -⟩ := s.cmdReaches_settled p h
  have hevq : (s.cmdReaches p).evq = s.evq := schedOnly_evq honly
  rw [s.drain_eq p h, if_pos hrun]
  refine ⟨fun hc => ?_, fun hc => ?_⟩
  · rw [if_pos hc]
    exact ⟨State.fld_runSet_same _ p _ 3 (by decide), hevq, fun a ha =>
      (State.runSet_onlyRegs _ p _ 3).1 a ha |>.trans (hregs a ha)⟩
  · rw [if_neg hc]
    obtain ⟨h0, hdone, hcause, hev, -⟩ := (s.cmdReaches p).stop_spec p 2 (by decide)
    exact ⟨h0, hdone, hcause, by rw [hev, hevq]⟩

/-! ### ABORT (R63) -/

/-- ABORT on a running plot takes effect in the eighth tick from now (R63). -/
theorem State.abort_spec (s : State) (p : Plot) (h : Settled p s) (hst : s.stopped p = false) (ha : (s.sched p).abortAt = none) :
    ((s.abort p).sched p).abortAt = some (s.DT + 8, false) ∧ (s.abort p).runState p = s.runState p ∧
    (s.abort p).fld (A.runSts p) F.runSts.cmdIgnored = s.fld (A.runSts p) F.runSts.cmdIgnored ∧ SchedOnly s (s.abort p) := by
  obtain ⟨hsched, -, hreach, hstate, hign⟩ := s.cmdReaches_settled p h
  have hcond : (s.stopped p || (s.sched p).abortAt.isSome) = false := by simp [hst, ha]
  have habort := s.abort_sched p
  rw [hcond] at habort
  refine ⟨by rw [habort]; rfl, (State.fld_of_reg (s.reg_abort p _) _).trans hstate, (State.fld_of_reg (s.reg_abort p _) _).trans hign, ?_⟩
  unfold State.abort
  rw [hcond]
  exact schedOnly_trans _ _ _ hreach (schedOnly_setSched _ p _)

/-! ### GLB_ERR_ADDR (R43) -/

theorem hostOpen_glb {s : State} (h : s.live = true) (a : Nat) (ha : a < 0x500000) : HostOpen s a :=
  (hostOpen_low_iff s a h (by omega)).2 fun hk => by omega

/-- A write of GLB_ERR_ADDR changes VALID only. -/
theorem mergeWord_errAddr (lock : Bool) (old w : Word) : mergeWord spec_glbErrAddr.fields lock old w = putF old F.glbErrAddr.valid
    (getF old F.glbErrAddr.valid - (getF old F.glbErrAddr.valid &&& getF w F.glbErrAddr.valid)) := by
  have hkept (x : Nat) (f : Fld) (hf : f.ok) (hd : f.hi < F.glbErrAddr.valid.lo) :
      putF (putF old F.glbErrAddr.valid x) f (getF old f) = putF old F.glbErrAddr.valid x := by
    rw [← getF_putF_ne old F.glbErrAddr.valid f x (by decide) (.inr hd), putF_getF_self _ f hf]
  exact (congrArg (putF · ⟨26, 0⟩ _) ((congrArg (putF · ⟨28, 27⟩ _) (hkept _ ⟨30, 29⟩ (by decide) (by decide))).trans
    (hkept _ ⟨28, 27⟩ (by decide) (by decide)))).trans (hkept _ ⟨26, 0⟩ (by decide) (by decide))

/-- An event of the tick that set VALID stands against a write that would clear it (R11). -/
theorem State.tied_errAddr (s : State) : getF (s.tied spec_glbErrAddr.fields A.glbErrAddr 0x80000000) F.glbErrAddr.valid =
    1 - (1 &&& getF (KMap.get 0 s.tie.set A.glbErrAddr) F.glbErrAddr.valid) := by
  unfold State.tied
  simp only
  split
  · next h => rw [h]; rfl
  · exact (getF_putF_same _ _ _ (by decide)).trans (Nat.mod_eq_of_lt (by
      have : getF (0x80000000 : Word) ⟨31, 31⟩ = 1 := rfl
      simp only [this]
      omega))

/-- GLB_ERR_ADDR after a host write of VALID's bit (R10, R11). -/
def State.errAddrWritten (s : State) : State := s.setReg A.glbErrAddr (s.hostMerged spec_glbErrAddr A.glbErrAddr 0x80000000)

theorem exec_glbErrAddrClear_live (s : State) (h : s.live = true) : exec .glbErrAddrClear s = .next
    (match s.tie.refused with
      | some c => if s.errAddrWritten.on A.glbErrAddr F.glbErrAddr.valid then s.errAddrWritten else s.errAddrWritten.captureErr c
      | none => s.errAddrWritten) :=
  congrArg Host.Outcome.next (s.hostWrite_eff spec_glbErrAddr A.glbErrAddr 0x80000000 none _ _ (hostOpen_glb h _ (by decide)) rfl
    (.inr rfl))

theorem State.errAddrWritten_onlyRegs (s : State) : OnlyRegs [A.glbErrAddr] s s.errAddrWritten :=
  onlyRegs_setReg s _ _ _ (List.mem_singleton_self _)

theorem State.reg_captureErr (s : State) (c : Word) (a : Nat) : (s.captureErr c).reg a = (s.setReg A.glbErrAddr c).reg a :=
  State.reg_of_regs (s := s.setReg A.glbErrAddr c) rfl a

theorem State.captureErr_onlyRegs (s : State) (c : Word) : OnlyRegs [A.glbErrAddr] s (s.captureErr c) :=
  ⟨fun a ha => (s.reg_captureErr c a).trans (s.reg_setReg_ne c (List.ne_of_not_mem_cons ha)), rfl⟩

theorem State.errAddrWritten_kept (s : State) (h : getF (KMap.get 0 s.tie.set A.glbErrAddr) F.glbErrAddr.valid = 1) :
    s.errAddrWritten = s.setReg A.glbErrAddr (s.reg A.glbErrAddr) := by
  rw [State.errAddrWritten, State.hostMerged, mergeWord_errAddr, s.tied_errAddr, h, Nat.and_self, Nat.sub_self, Nat.and_zero, Nat.sub_zero,
    putF_getF_self _ F.glbErrAddr.valid (by decide)]

theorem State.errAddrWritten_cleared (s : State) (h : getF (KMap.get 0 s.tie.set A.glbErrAddr) F.glbErrAddr.valid = 0) :
    s.errAddrWritten = s.setFld A.glbErrAddr F.glbErrAddr.valid 0 := by
  have hbit : getF (s.reg A.glbErrAddr) F.glbErrAddr.valid < 2 := getF_lt _ F.glbErrAddr.valid
  rw [State.errAddrWritten, State.hostMerged, mergeWord_errAddr, s.tied_errAddr, h]
  generalize getF (s.reg A.glbErrAddr) F.glbErrAddr.valid = b at hbit
  interval_cases b <;> rfl

/-! ### GLB_CTL (R42, R64, R68) -/

/-- GLB_CTL after a write: MUTE_ALL takes its bit, and DRAIN_ALL is a command. -/
theorem mergeWord_glbCtl (lock : Bool) (old w : Word) :
    mergeWord spec_glbCtl.fields lock old w = putF old F.glbCtl.muteAll (getF w F.glbCtl.muteAll) := by
  cases lock <;> exact congrArg (putF · F.glbCtl.muteAll (getF w F.glbCtl.muteAll)) (putF_getF_self old ⟨1, 1⟩ (by decide))

/-- MUTE_ALL is set or cleared, before its effect on the shots in progress. -/
def State.muteSet (s : State) (on : Bool) : State := s.setFld A.glbCtl F.glbCtl.muteAll (b2n on)

theorem State.muteSet_fld (s : State) (on : Bool) : (s.muteSet on).fld A.glbCtl F.glbCtl.muteAll = b2n on :=
  (s.fld_setFld_same _ _ _ (by decide)).trans (Nat.mod_eq_of_lt (by cases on <;> decide))

theorem State.muteSet_on (s : State) (on : Bool) : (s.muteSet on).on A.glbCtl F.glbCtl.muteAll = on := by
  unfold State.on
  rw [s.muteSet_fld]
  cases on <;> rfl

/-- Every shot in progress is flagged TAINT (R68). -/
def State.taintAll (s : State) : State := (List.range 8).foldl (fun s p => s.flagNow p Flag.taint) s

/-- MUTE_ALL and what it does to the shots in progress (R42, R68). -/
def State.muted_ (s : State) (on : Bool) : State := if on then (s.muteSet on).taintAll else s.muteSet on

theorem State.hostWrite_glbCtl (s : State) (w : Word) (on : Bool) (h : s.live = true) (hw : getF w F.glbCtl.muteAll = b2n on) :
    State.hostWrite (s.writeGlbCtl .host w) A.glbCtl =
      if getF w F.glbCtl.drainAll = 1 then (List.range 8).foldl State.drain (s.muted_ on) else s.muted_ on := by
  unfold State.writeGlbCtl
  rw [s.hostWrite_eff spec_glbCtl A.glbCtl w none _ A.glbCtl (hostOpen_glb h A.glbCtl (by decide)) rfl (.inr rfl)]
  have hset : s.setReg A.glbCtl (s.hostMerged spec_glbCtl A.glbCtl w) = s.muteSet on := by
    rw [State.hostMerged, mergeWord_glbCtl, s.tied_none _ _ _ (.inr rfl), hw]
    rfl
  simp only [hset, s.muteSet_on, State.muted_, State.taintAll]

theorem State.sched_flagNow (s : State) (p : Nat) (fl : BitVec 16) : (s.flagNow p fl).sched p = { s.sched p with
    shots := (s.sched p).shots.map fun h => if h.stop.isNone then { h with flags := h.flags ||| fl } else h } :=
  State.sched_setSched ..

/-- Each plot's shots in progress are flagged once. -/
theorem State.sched_taintAll (s : State) (p : Plot) : (s.taintAll).sched p = { s.sched p with
    shots := (s.sched p).shots.map fun h => if h.stop.isNone then { h with flags := h.flags ||| Flag.taint } else h } := by
  obtain ⟨u, hu, hend⟩ := foldl_once (R := fun s u => u.sched p = s.sched p) (fun _ => rfl) (fun _ _ _ h k => k.trans h)
    (fun s p => s.flagNow p Flag.taint) p (List.range 8) (fun s q _ hq => s.sched_setSched_ne _ hq.symm) List.nodup_range
    (plot_mem_range p) s
  refine hend.trans ?_
  rw [State.sched_flagNow, hu]

theorem State.taintAll_frame (s : State) : SchedOnly s s.taintAll ∧ ∀ a, s.taintAll.reg a = s.reg a := by
  refine foldl_rel (R := fun s u => SchedOnly s u ∧ ∀ a, u.reg a = s.reg a) (fun s => ⟨schedOnly_refl s, fun _ => rfl⟩)
    (fun _ _ _ h k => ⟨schedOnly_trans _ _ _ h.1 k.1, fun a => (k.2 a).trans (h.2 a)⟩) _ _ (fun s p _ => ?_) s
  exact ⟨schedOnly_setSched s p _, fun _ => rfl⟩

/-- What MUTE_ALL changes: its bit, and the flags of the shots in progress. -/
theorem State.muted_spec (s : State) (on : Bool) : (s.muted_ on).fld A.glbCtl F.glbCtl.muteAll = b2n on ∧
    SameRegs [A.glbCtl] s (s.muted_ on) ∧ SchedOnly s (s.muted_ on) ∧ ∀ p : Plot, (s.muted_ on).sched p =
      { s.sched p with shots := if on then
          (s.sched p).shots.map fun h => if h.stop.isNone then { h with flags := h.flags ||| Flag.taint } else h
        else (s.sched p).shots } := by
  have hset : SameRegs [A.glbCtl] s (s.muteSet on) := fun a ha => s.reg_setFld_ne _ _ (List.ne_of_not_mem_cons ha)
  cases on with
  | false => exact ⟨s.muteSet_fld false, hset, rfl, fun _ => rfl⟩
  | true =>
    obtain ⟨honly, hregs⟩ := (s.muteSet true).taintAll_frame
    exact ⟨(State.fld_of_reg (hregs _) _).trans (s.muteSet_fld true), fun a ha => (hregs a).trans (hset a ha),
      schedOnly_trans _ (s.muteSet true) _ rfl honly, fun p => (s.muteSet true).sched_taintAll p⟩

theorem exec_muteAll_live (s : State) (on : Bool) (h : s.live = true) : exec (.muteAll on) s = .next (s.muted_ on) := by
  have hw : getF (BitVec.ofNat 32 (b2n on)) F.glbCtl.muteAll = b2n on := by cases on <;> rfl
  have hd : getF (BitVec.ofNat 32 (b2n on)) F.glbCtl.drainAll ≠ 1 := by cases on <;> decide
  have hwrite := s.hostWrite_glbCtl (BitVec.ofNat 32 (b2n on)) on h hw
  rw [if_neg hd] at hwrite
  exact congrArg Host.Outcome.next hwrite

theorem exec_drainAll_live (s : State) (on : Bool) (h : s.live = true) :
    exec (.drainAll on) s = .next ((List.range 8).foldl State.drain (s.muted_ on)) := by
  have hw : getF (BitVec.ofNat 32 (2 + b2n on)) F.glbCtl.muteAll = b2n on := by cases on <;> rfl
  have hd : getF (BitVec.ofNat 32 (2 + b2n on)) F.glbCtl.drainAll = 1 := by cases on <;> rfl
  have hwrite := s.hostWrite_glbCtl (BitVec.ofNat 32 (2 + b2n on)) on h hw
  rw [if_pos hd] at hwrite
  exact congrArg Host.Outcome.next hwrite

/-! ### DRAIN_ALL (R62, R64) -/

/-- Plot `p` has a start fixed or a shot in progress, and no start to take back. -/
def DrainsOn (p : Nat) (s : State) : Prop := ((s.sched p).fixed.isSome = true ∨ (s.current p).isSome = true) ∧ Settled p s

/-- Every plot does. -/
def AllDrain (s : State) : Prop := ∀ p : Plot, DrainsOn p s

theorem drainsOn_of_samePlot {p : Nat} {s u : State} (h : SamePlot p s u) (hs : DrainsOn p s) : DrainsOn p u := by
  obtain ⟨hsched, -, -, hdt⟩ := h
  unfold DrainsOn Settled State.current at *
  rw [hsched, hdt]
  exact hs

theorem samePlot_cmdReaches (s : State) {p q : Nat} (hs : Settled q s) (hq : q ≠ p) : SamePlot p s (s.cmdReaches q) := by
  rw [s.cmdReaches_eq, State.commandHeard, s.unfix_kept q hs]
  split
  · exact samePlot_trans p _ _ _ (samePlot_setSched s _ hq) (samePlot_runSet _ _ _ hq)
  · exact samePlot_setSched s _ hq

/-- DRAIN on a plot with a start fixed or a shot in progress. -/
theorem State.drain_busy (s : State) (p : Nat) (h : DrainsOn p s) : s.drain p =
    if s.runState p = 1 ∨ s.runState p = 2 then (s.cmdReaches p).runSet p F.runSts.state 3 else s.cmdReaches p := by
  rw [s.drain_eq p h.2, if_pos h.1]

theorem samePlot_drain (s : State) {p q : Nat} (h : DrainsOn q s) (hq : q ≠ p) : SamePlot p s (s.drain q) := by
  have hreach := samePlot_cmdReaches s h.2 hq
  rw [s.drain_busy q h]
  split
  · exact samePlot_trans p _ _ _ hreach (samePlot_runSet _ _ _ hq)
  · exact hreach

theorem State.drain_busy_frame (s : State) (p : Nat) (h : DrainsOn p s) :
    SchedOnly s (s.drain p) ∧ SameRegs [A.runSts p] s (s.drain p) ∧ (s.drain p).sched p = (s.cmdReaches p).sched p := by
  obtain ⟨-, hregs, honly, -⟩ := s.cmdReaches_settled p h.2
  rw [s.drain_busy p h]
  split
  · exact ⟨schedOnly_trans _ _ _ honly (schedOnly_runSet _ p _ 3),
      fun a ha => ((State.runSet_onlyRegs _ p _ 3).1 a ha).trans (hregs a ha), rfl⟩
  · exact ⟨honly, hregs, rfl⟩

theorem State.DT_of_schedOnly {s u : State} (h : SchedOnly s u) : u.DT = s.DT := by
  unfold SchedOnly at h
  unfold State.DT
  rw [h]

theorem drainsOn_drain (s : State) (p : Nat) (h : DrainsOn p s) : DrainsOn p (s.drain p) := by
  obtain ⟨honly, -, hsched⟩ := s.drain_busy_frame p h
  obtain ⟨hreach, -⟩ := s.cmdReaches_settled p h.2
  unfold DrainsOn Settled State.current at *
  rw [hsched, hreach, State.DT_of_schedOnly honly]
  exact h

theorem allDrain_drain (s : State) (q : Plot) (h : AllDrain s) : AllDrain (s.drain q) := fun p => by
  by_cases hq : q = p
  · subst hq
    exact drainsOn_drain s q (h q)
  · exact drainsOn_of_samePlot (samePlot_drain s (h q) fun e => hq (Fin.ext e)) (h p)

theorem passKeeps_drain {Q : State → State → Prop} (s : State) (q : Nat) (hq : q ∈ List.range 8)
    (hQ : DrainsOn q s → Q s (s.drain q)) : PassKeeps AllDrain Q s (s.drain q) := fun h =>
  ⟨allDrain_drain s ⟨q, List.mem_range.1 hq⟩ h, hQ (h ⟨q, List.mem_range.1 hq⟩)⟩

/-- DRAIN at every plot, each with a start fixed or a shot in progress. -/
theorem State.drain_all (s : State) (h : AllDrain s) (p : Plot) :
    let u := (List.range 8).foldl State.drain s
    SchedOnly s u ∧ u.reg A.glbCtl = s.reg A.glbCtl ∧ (u.sched p).cmdTick = some s.DT ∧
      u.runState p = if s.runState p = 1 ∨ s.runState p = 2 then 3 else s.runState p := by
  have hframe := foldl_rel (passKeeps_refl AllDrain (Q := fun s u => SchedOnly s u ∧ u.reg A.glbCtl = s.reg A.glbCtl)
      fun s => ⟨schedOnly_refl s, rfl⟩)
    (passKeeps_trans AllDrain fun _ _ _ h k => ⟨schedOnly_trans _ _ _ h.1 k.1, k.2.trans h.2⟩) State.drain (List.range 8)
    (fun s q hq => passKeeps_drain s q hq fun hd => by
      obtain ⟨honly, hregs, -⟩ := s.drain_busy_frame q hd
      exact ⟨honly, hregs _ (by simp only [List.mem_singleton, A.glbCtl, A.runSts]; omega)⟩) s h
  obtain ⟨v, hsv, hend⟩ := foldl_once (passKeeps_refl AllDrain (samePlot_refl p)) (passKeeps_trans AllDrain (samePlot_trans p))
    State.drain p (List.range 8) (fun s q hq hne => passKeeps_drain s q hq fun hd => samePlot_drain s hd hne) List.nodup_range
    (plot_mem_range p) s
  obtain ⟨hv, -, hvsts, -, hvdt⟩ := hsv h
  obtain ⟨-, husched, husts, -⟩ := hend (allDrain_drain v p hv)
  obtain ⟨hreach, -, -, hstate, -⟩ := v.cmdReaches_settled p (hv p).2
  obtain ⟨-, -, hdrained⟩ := v.drain_busy_frame p (hv p)
  refine ⟨hframe.2.1, hframe.2.2, ?_, ?_⟩
  · rw [husched, hdrained, hreach, hvdt]
  · have hrun : v.runState p = s.runState p := State.fld_of_reg hvsts _
    rw [State.runState, State.fld_of_reg husts, ← hrun, v.drain_busy p (hv p)]
    split
    · exact State.fld_runSet_same _ p _ 3 (by decide)
    · exact hstate

/-- Flags do not end a shot. -/
theorem current_isSome_flagged (l : List Shot) (fl : BitVec 16) :
    ((l.map fun h => if h.stop.isNone then { h with flags := h.flags ||| fl } else h).find? fun h => h.stop.isNone).isSome =
      (l.find? fun h => h.stop.isNone).isSome := by
  have hkept : ((fun h : Shot => h.stop.isNone) ∘ fun h : Shot => if h.stop.isNone then { h with flags := h.flags ||| fl } else h) =
      fun h => h.stop.isNone := funext fun h => by
    simp only [Function.comp_apply]
    split <;> rfl
  rw [List.find?_map, hkept, Option.isSome_map]

theorem allDrain_muted (s : State) (on : Bool) (h : AllDrain s) : AllDrain (s.muted_ on) := fun p => by
  obtain ⟨-, -, honly, hsched⟩ := s.muted_spec on
  obtain ⟨hbusy, hsettled⟩ := h p
  unfold DrainsOn Settled State.current at *
  rw [hsched p, State.DT_of_schedOnly honly]
  refine ⟨hbusy.imp id fun hc => ?_, hsettled⟩
  cases on with
  | false => exact hc
  | true => exact (current_isSome_flagged _ _).trans hc

@[simp] theorem State.inPlot_runCommanded (s : State) (p q i : Nat) : (s.runCommanded p).inPlot q i = s.inPlot q i := by
  simp [State.inPlot, State.tileOn, State.plotOf]

@[simp] theorem State.patched_runCommanded (s : State) (p i : Nat) : (s.runCommanded p).patched i = s.patched i := by
  simp [State.patched]

@[simp] theorem State.seqState_runCommanded (s : State) (p i q : Nat) : (s.runCommanded p).seqState i q = s.seqState i q :=
  s.fld_runCommanded p _ _

@[simp] theorem State.runState_runCommanded (s : State) (p q : Nat) : (s.runCommanded p).runState q = s.runState q :=
  s.fld_runCommanded p _ _

@[simp] theorem State.stopped_runCommanded (s : State) (p q : Nat) : (s.runCommanded p).stopped q = s.stopped q := by
  simp [State.stopped]

theorem settled_runCommanded {s : State} {p : Nat} (h : Settled p s) : Settled p (s.runCommanded p) := h

theorem shotNum_ne (p : Plot) : A.shotNum p ∉ [A.runSts p, A.evfSrcSts (shotSrc p 3 / 32)] := by
  have := evfSrcSts_shotSrc_lt p 3 (by decide)
  simp only [List.mem_cons, List.not_mem_nil, or_false, A.shotNum, A.runSts]
  omega

/-- START by the host (R62, R66). -/
theorem completes_runStart (s : State) (p : Plot) (w : Word) (hl : s.live = true) (hp : s.plotDefined p = true) (he : s.enforce = false)
    (hw : w.toNat % 16 < 2) (hign : s.startIgnored p = false)
    (hshots : s.reg (A.runShots p) ≠ 0 ∨ s.on (A.shotCtl p) F.shotCtl.runCont = true)
    (hun : ∀ i : Tile, s.inPlot p i = true → s.patched i = false) : Completes (.runStart p w) s fun t =>
      t.runState p = 1 ∧ t.reg (A.shotsDone p) = 0 ∧ (t.sched p).computeAt = some s.DT ∧
      (t.sched p).firstEarliest = some (max (s.pair (A.runStartLo p) (A.runStartHi p)) (s.DT + s.lead p + 16)) ∧
      (s.dmaOk = true → t.evq = s.evq) ∧
      ∀ (i : Tile) (q : Seq), s.inPlot p i = true →
        t.seqState i q = (if s.seqState i q = 7 ∨ (s.seqState i q = 6 ∧ s.faultRestart i q = false) then s.seqState i q else 1) := by
  have hspec := (s.runCommanded p).start_spec p (by simpa using hshots) (by simpa using hun)
  simp only [State.DT_runCommanded, State.inPlot_runCommanded, State.seqState_runCommanded, State.faultRestart, State.on_runCommanded,
    State.lead, State.fld_runCommanded, State.pair, State.reg_runCommanded] at hspec
  exact completes_of_exec ((exec_runStart_live s p w hl hp he hw).trans (by rw [hign]; rfl)) hspec

theorem startNone_spec (s : State) (p : Plot) (h : s.reg (A.runShots p) = 0) (hc : s.on (A.shotCtl p) F.shotCtl.runCont = false) :
    (s.start p).runState p = 0 ∧ (s.start p).fld (A.runSts p) F.runSts.done = 1 ∧
      (s.start p).fld (A.runSts p) F.runSts.stopCause = 1 := by
  obtain ⟨h0, hdone, hcause, -⟩ := ((s.setReg (A.shotsDone p) 0).startTiles p).stop_spec p 1 (by decide)
  rw [s.start_noShots p h hc]
  exact ⟨h0, hdone, hcause⟩

/-- ABORT by the host: what other command bits the word sets is ignored (R63, R64). -/
theorem completes_runAbort (s : State) (p : Plot) (w : Word) (hl : s.live = true) (hp : s.plotDefined p = true)
    (he : s.enforce = false ∨ (w.toNat % 2 = 0 ∧ w.toNat / 8 % 2 = 0)) (hst : s.stopped p = false)
    (hab : (s.sched p).abortAt = none) (hset : Settled p s) : Completes (.runAbort p w) s fun t =>
      (t.sched p).abortAt = some (s.DT + 8, false) ∧ t.runState p = s.runState p ∧
      t = { s with regs := t.regs, tie := t.tie, scheds := t.scheds, evq := t.evq } ∧
      (w.toNat % 16 = 0 ∨ w.toNat % 16 = 4 → t.evq = s.evq) ∧
      (w.toNat % 16 ≠ 0 ∧ w.toNat % 16 ≠ 4 → t.fld (A.runSts p) F.runSts.cmdIgnored = 1) := by
  have hbits : s.enforce = false ∨ (getF w F.runCmd.start = 0 ∧ getF w F.runCmd.clrCount = 0) := he.imp id fun h => by
    simp only [getF, F.runCmd.start, F.runCmd.clrCount]
    omega
  have hexec := exec_runAbort_live s p w hl hp hbits
  rw [State.runCmd_abort _ p (putF w F.runCmd.abort 1) ((testBit_putF w 2 2 (by decide) (by decide)).trans (by simp)),
    show F.runCmd.abort = ⟨2, 2⟩ from rfl, testBit_putF w 2 0 (by decide) (by decide), testBit_putF w 2 1 (by decide) (by decide),
    testBit_putF w 2 3 (by decide) (by decide)] at hexec
  have hmany : ((w.toNat % 16).testBit 0 || (w.toNat % 16).testBit 1 || (w.toNat % 16).testBit 3) = true ↔
      w.toNat % 16 ≠ 0 ∧ w.toNat % 16 ≠ 4 := by
    have hlt := Nat.mod_lt w.toNat (by decide : 16 > 0)
    generalize w.toNat % 16 = v at hlt
    revert v
    decide
  simp only [show (0 : Nat) ≠ 2 by decide, show (1 : Nat) ≠ 2 by decide, show (3 : Nat) ≠ 2 by decide, decide_false, Bool.false_or,
    hmany] at hexec
  by_cases hm : w.toNat % 16 ≠ 0 ∧ w.toNat % 16 ≠ 4
  · rw [if_pos hm] at hexec
    obtain ⟨habort, hstate, hcmd, honly⟩ := ((s.runCommanded p).cmdIgnored p).abort_spec p (settled_runCommanded hset)
      (by simpa [State.stopped, State.runState_cmdIgnored] using hst) hab
    refine completes_of_exec hexec ⟨habort, ?_, ?_, fun h => ?_, fun _ => ?_⟩
    · rw [hstate, State.runState_cmdIgnored, State.runState_runCommanded]
    · unfold SchedOnly at honly
      rw [honly]
      rfl
    · omega
    · rw [hcmd, State.fld_cmdIgnored_same]
  · rw [if_neg hm] at hexec
    obtain ⟨habort, hstate, -, honly⟩ := (s.runCommanded p).abort_spec p (settled_runCommanded hset) (by simpa using hst) hab
    refine completes_of_exec hexec ⟨habort, hstate.trans (s.runState_runCommanded p p), ?_, fun _ => schedOnly_evq honly,
      fun h => absurd h hm⟩
    unfold SchedOnly at honly
    rw [honly]
    rfl

/-- Settles O14: START through the passes over the tiles' sequencers and datapaths; DRAIN, ABORT and CLR_COUNT on the plot's own
scheduler; the global commands as one write each, with one pass over the plots. -/
theorem runAndGlobalCommands : Obligations.RunAndGlobalCommands := by
  unfold Obligations.RunAndGlobalCommands
  refine ⟨⟨completes_runStart, fun s p w hl hp he hw hign hnone hcont => ?_,
      fun s p w hl hp he hw hign => ?_, fun s p w hl hp h4 h2 hrun hset => ?_, completes_runAbort,
      fun s p w hl hp he hw => ⟨fun hst => ?_, fun hst => ?_⟩⟩,
    fun s c hl hv => ⟨fun ht => ?_, fun ht hr => ?_⟩, fun s hl ht hr => ?_, fun s on hl => ?_, fun s mute hl hall => ?_⟩
  · have hnone' : (s.runCommanded p).reg (A.runShots p) = 0 := by simpa using hnone
    have hcont' : (s.runCommanded p).on (A.shotCtl p) F.shotCtl.runCont = false := by simpa using hcont
    obtain ⟨h0, hdone, hcause⟩ := startNone_spec _ p hnone' hcont'
    obtain ⟨hmem, hevq⟩ := (s.runCommanded p).start_noShots_evq p hnone' hcont'
    exact completes_of_exec ((exec_runStart_live s p w hl hp he hw).trans (by rw [hign]; rfl)) ⟨h0, hdone, hcause, hmem, hevq⟩
  · refine completes_of_exec ((exec_runStart_live s p w hl hp he hw).trans (by rw [hign]; rfl))
      ⟨State.fld_cmdIgnored_same _ p, (State.runState_cmdIgnored _ p).trans (s.runState_runCommanded p p), ?_, fun a ha => ?_⟩
    · rw [State.evq_cmdIgnored, shotSrc_three]; rfl
    · rw [← shotSrc_three] at ha
      exact ((s.runCommanded p).cmdIgnored_sameRegs p a ha).trans (s.reg_runCommanded p a)
  · obtain ⟨hbusy, hfree⟩ := (s.runCommanded p).drain_spec p (settled_runCommanded hset) (by simpa using hrun)
    refine completes_of_exec (exec_runDrain_live s p w hl hp h4 h2) ?_
    split
    · next hc =>
      obtain ⟨h3, hevq, hregs⟩ := hbusy hc
      exact ⟨h3, hevq, fun a ha => (hregs a ha).trans (s.reg_runCommanded p a)⟩
    · next hc => exact hfree hc
  · refine completes_of_exec ((exec_clrCount_live s p w hl hp he hw).trans (by rw [hst]; rfl)) ⟨State.reg_setReg_same .., ?_⟩
    exact onlyRegs_trans (onlyRegs_mono (s.runCommanded_onlyRegs p) (by simp)) (onlyRegs_setReg _ _ _ _ (List.mem_singleton_self _))
  · refine completes_of_exec ((exec_clrCount_live s p w hl hp he hw).trans (by rw [hst]; rfl)) ⟨State.fld_cmdIgnored_same _ p, ?_⟩
    exact ((s.runCommanded p).cmdIgnored_sameRegs p _ (shotNum_ne p)).trans (s.reg_runCommanded p _)
  · have hkept := s.errAddrWritten_kept ht
    have hreg : s.errAddrWritten.reg A.glbErrAddr = s.reg A.glbErrAddr := by rw [hkept, State.reg_setReg_same]
    have hvalid : s.errAddrWritten.on A.glbErrAddr F.glbErrAddr.valid = true := (State.on_of_reg hreg _).trans hv
    refine completes_of_exec ((exec_glbErrAddrClear_live s hl).trans ?_)
      (show s.errAddrWritten.reg A.glbErrAddr = s.reg A.glbErrAddr ∧ OnlyRegs [] s s.errAddrWritten from
        ⟨hreg, hkept ▸ onlyRegs_rewrite s _⟩)
    cases s.tie.refused <;> simp [hvalid]
  · have hclear : s.errAddrWritten.on A.glbErrAddr F.glbErrAddr.valid = false := by
      rw [s.errAddrWritten_cleared ht, State.on, State.fld_setFld_same _ _ _ _ (by decide)]
      rfl
    refine completes_of_exec (t := s.errAddrWritten.captureErr c)
      ((exec_glbErrAddrClear_live s hl).trans (by simp [hr, hclear])) ⟨?_, ?_⟩
    · rw [State.reg_captureErr, State.reg_setReg_same]
    · exact onlyRegs_trans s.errAddrWritten_onlyRegs (State.captureErr_onlyRegs _ c)
  · refine completes_of_exec ((exec_glbErrAddrClear_live s hl).trans (by rw [hr])) ?_
    rw [s.errAddrWritten_cleared ht]
    have hother (f : Fld) (hd : f.hi < F.glbErrAddr.valid.lo) :
        (s.setFld A.glbErrAddr F.glbErrAddr.valid 0).fld A.glbErrAddr f = s.fld A.glbErrAddr f :=
      s.fld_setFld_disjoint _ _ _ _ (by decide) (.inr hd)
    exact ⟨s.fld_setFld_same _ _ _ (by decide), hother _ (by decide), hother _ (by decide), hother _ (by decide),
      onlyRegs_setReg s _ _ _ (List.mem_singleton_self _)⟩
  · obtain ⟨hfld, hregs, honly, hsched⟩ := s.muted_spec on
    refine completes_of_exec (exec_muteAll_live s on hl) ⟨hfld, hregs, fun a => ?_, honly, fun p => ?_⟩
    · unfold SchedOnly at honly
      rw [honly]
      rfl
    · rw [hsched p]
  · have hdrains : AllDrain (s.muted_ mute) := allDrain_muted s mute hall
    obtain ⟨hfld, hregs, honly, -⟩ := s.muted_spec mute
    refine completes_of_exec (exec_drainAll_live s mute hl) ⟨?_, ?_, fun p => ?_⟩
    · exact (State.fld_of_reg ((s.muted_ mute).drain_all hdrains 0).2.1 _).trans hfld
    · exact schedOnly_trans _ _ _ honly ((s.muted_ mute).drain_all hdrains 0).1
    · obtain ⟨-, -, htick, hstate⟩ := (s.muted_ mute).drain_all hdrains p
      have hsame : (s.muted_ mute).runState p = s.runState p :=
        State.fld_of_reg (hregs _ (by simp only [List.mem_singleton, A.glbCtl, A.runSts]; omega)) _
      rw [hsame] at hstate
      exact ⟨hstate, htick.trans (by rw [State.DT_of_schedOnly honly])⟩

end Sys2Proof.Machine
end

section
/-! ## The sequencers: one rule per operation (R70–R125) -/

namespace Sys2Proof.Machine

open Sys2Proof.Safety

/-! ### Work on registers alone -/

/-- Only registers of the list changed, with the ties of the tick and the holding registers of pairs. -/
def RegWork (l : List Nat) (s u : State) : Prop := SameRegs l s u ∧ u = { s with regs := u.regs, tie := u.tie, holds := u.holds }

theorem regWork_refl (l : List Nat) (s : State) : RegWork l s s := ⟨fun _ _ => rfl, rfl⟩

theorem regWork_trans {l : List Nat} {s t u : State} (h : RegWork l s t) (k : RegWork l t u) : RegWork l s u :=
  ⟨fun a ha => (k.1 a ha).trans (h.1 a ha), by rw [k.2, h.2]⟩

theorem regWork_mono {l m : List Nat} {s u : State} (h : RegWork l s u) (hm : ∀ a ∈ l, a ∈ m) : RegWork m s u :=
  ⟨fun a ha => h.1 a fun hl => ha (hm a hl), h.2⟩

theorem regWork_setReg (s : State) (a : Nat) (v : Word) : RegWork [a] s (s.setReg a v) :=
  ⟨fun _ hb => s.reg_setReg_ne v (List.ne_of_not_mem_cons hb), rfl⟩

theorem regWork_raise (s : State) (a : Nat) (f : Fld) (x : Nat) : RegWork [a] s (s.raise a f x) :=
  ⟨fun _ hb => s.reg_setReg_ne _ (List.ne_of_not_mem_cons hb), rfl⟩

theorem regWork_setPair (s : State) (lo hi v : Nat) : RegWork [lo, hi] s (s.setPair lo hi v) := by
  refine ⟨fun a ha => ?_, by unfold State.setPair State.arrived; split <;> rfl⟩
  simp only [List.mem_cons, List.not_mem_nil, or_false, not_or] at ha
  rw [s.setPair_regs, State.reg_setReg_ne _ _ ha.2, s.reg_setReg_ne _ ha.1]

section
variable {l : List Nat} {s u : State} (h : RegWork l s u)
include h

theorem regWork_seqs : u.seqs = s.seqs := by rw [h.2]
theorem regWork_tqs : u.tqs = s.tqs := by rw [h.2]
theorem regWork_scheds : u.scheds = s.scheds := by rw [h.2]
theorem regWork_tm : u.tm = s.tm := by rw [h.2]
theorem regWork_mem : u.mem = s.mem := by rw [h.2]
theorem regWork_evq : u.evq = s.evq := by rw [h.2]

theorem regWork_seq (k : Nat) : u.seq k = s.seq k := by unfold State.seq; rw [regWork_seqs h]
theorem regWork_tq (k : Nat) : u.tq k = s.tq k := by unfold State.tq; rw [regWork_tqs h]
theorem regWork_sched (p : Nat) : u.sched p = s.sched p := by unfold State.sched; rw [regWork_scheds h]

theorem regWork_queueFull (k : Nat) : u.queueFull k = s.queueFull k := by unfold State.queueFull; rw [regWork_tq h]

theorem regWork_dm (t q w : Nat) : u.dm t q w = s.dm t q w := by
  unfold State.dm State.word State.byte
  rw [regWork_mem h]

end

/-- The serial number of the shot that a tile runs is that of its plot's shot in progress. -/
theorem State.runSid_of {s u : State} (hreg : ∀ a, a < 0x100 → u.reg a = s.reg a) (hs : ∀ p, u.sched p = s.sched p) (t : Tile) :
    u.runSid t = s.runSid t := by
  have hplot : u.plotOf t = s.plotOf t := by
    rw [State.plotOf, State.plotOf, State.fld_of_reg (hreg _ (by simp only [A.glbTilePlot]; omega))]
  unfold State.runSid State.current
  rw [hplot]
  simp only [hs]

/-! ### The hidden state of a sequencer, and its queue -/

@[simp] theorem State.seq_setSeq (s : State) (k : Nat) (x : SeqX) : (s.setSeq k x).seq k = x := KMap.get_set_same ..

theorem State.seq_setSeq_ne (s : State) {k j : Nat} (x : SeqX) (h : j ≠ k) : (s.setSeq k x).seq j = s.seq j := KMap.get_set_ne _ _ _ _ h

@[simp] theorem State.tq_setTq (s : State) (k : Nat) (x : Tq) : (s.setTq k x).tq k = x := KMap.get_set_same ..

@[simp] theorem State.reg_setSeq (s : State) (k : Nat) (x : SeqX) (a : Nat) : (s.setSeq k x).reg a = s.reg a := rfl

@[simp] theorem State.tq_setSeq (s : State) (k j : Nat) (x : SeqX) : (s.setSeq k x).tq j = s.tq j := rfl

@[simp] theorem State.reg_setTq (s : State) (k : Nat) (x : Tq) (a : Nat) : (s.setTq k x).reg a = s.reg a := rfl

@[simp] theorem State.fld_setTq (s : State) (k : Nat) (x : Tq) (a : Nat) (f : Fld) : (s.setTq k x).fld a f = s.fld a f := rfl

@[simp] theorem State.fld_setSeq (s : State) (k : Nat) (x : SeqX) (a : Nat) (f : Fld) : (s.setSeq k x).fld a f = s.fld a f := rfl

@[simp] theorem State.seq_raise (s : State) (a : Nat) (f : Fld) (x k : Nat) : (s.raise a f x).seq k = s.seq k := rfl

@[simp] theorem State.tq_raise (s : State) (a : Nat) (f : Fld) (x k : Nat) : (s.raise a f x).tq k = s.tq k := rfl

@[simp] theorem State.seq_fire (s : State) (src k : Nat) : (s.fire src).seq k = s.seq k := rfl

@[simp] theorem State.tq_fire (s : State) (src k : Nat) : (s.fire src).tq k = s.tq k := rfl

@[simp] theorem State.tq_setSeqState (s : State) (t q code k : Nat) : (s.setSeqState t q code).tq k = s.tq k := rfl

@[simp] theorem State.seq_setTq (s : State) (k j : Nat) (x : Tq) : (s.setTq k x).seq j = s.seq j := rfl

@[simp] theorem State.reg_sendCmd (s : State) (t q : Nat) (c : TqCmd) (stamp : Nat) (o : Option Nat) (a : Nat) :
    (s.sendCmd t q c stamp o).reg a = s.reg a := rfl

@[simp] theorem State.seq_sendCmd (s : State) (t q : Nat) (c : TqCmd) (stamp : Nat) (o : Option Nat) (k : Nat) :
    (s.sendCmd t q c stamp o).seq k = s.seq k := rfl

theorem State.flight_sendCmd (s : State) (t q : Nat) (c : TqCmd) (stamp : Nat) (o : Option Nat) :
    ((s.sendCmd t q c stamp o).tq (sk t q)).flight = (s.tq (sk t q)).flight ++
      [{ cmd := c, stamp := stamp, sid := s.runSid t, issued := s.tm.now, stalledAt := o }] := by
  unfold State.sendCmd
  rw [State.tq_setTq]

/-! ### Cycles, instructions, PC and state -/

theorem regWork_addCycles (s : State) (t q n : Nat) : RegWork [A.seqCycLo t q, A.seqCycHi t q] s (s.addCycles t q n) :=
  regWork_setPair s _ _ _

theorem regWork_addInstr (s : State) (t q : Nat) : RegWork [A.seqInstrLo t q, A.seqInstrHi t q] s (s.addInstr t q) :=
  regWork_setPair s _ _ _

theorem regWork_setPc (s : State) (t q pc : Nat) : RegWork [A.seqPc t q] s (s.setPc t q pc) := regWork_setReg s _ _

theorem regWork_setSeqState (s : State) (t q code : Nat) : RegWork [A.seqSts t q] s (s.setSeqState t q code) := regWork_setReg s _ _

theorem State.seqState_setSeqState (s : State) (t q code : Nat) (h : code < 8) : (s.setSeqState t q code).seqState t q = code :=
  (s.fld_setFld_same _ _ _ (by decide)).trans (Nat.mod_eq_of_lt h)

theorem State.pc_setPc (s : State) (t q pc : Nat) (h : pc < 4096) : (s.setPc t q pc).pc t q = pc := by
  unfold State.pc State.fld State.setPc
  rw [State.reg_setReg_same]
  simp only [getF, F.seqPc.pc, BitVec.toNat_ofNat]
  omega

theorem State.pair_addCycles (s : State) (t q n : Nat) : (s.addCycles t q n).pair (A.seqCycLo t q) (A.seqCycHi t q) =
    (s.pair (A.seqCycLo t q) (A.seqCycHi t q) + n) % 2 ^ 64 :=
  s.pair_setPair _ _ _ (by simp only [A.seqCycLo, A.seqCycHi]; omega)

theorem State.pair_addInstr (s : State) (t q : Nat) : (s.addInstr t q).pair (A.seqInstrLo t q) (A.seqInstrHi t q) =
    (s.pair (A.seqInstrLo t q) (A.seqInstrHi t q) + 1) % 2 ^ 64 :=
  s.pair_setPair _ _ _ (by simp only [A.seqInstrLo, A.seqInstrHi]; omega)

/-- The registers of a sequencer that an instruction's course moves. -/
theorem seqMoves_cyc (t q : Nat) : ∀ a ∈ [A.seqCycLo t q, A.seqCycHi t q], a ∈ seqMoves t q := by simp [seqMoves]

theorem seqMoves_instr (t q : Nat) : ∀ a ∈ [A.seqInstrLo t q, A.seqInstrHi t q], a ∈ seqMoves t q := by simp [seqMoves]

theorem seqMoves_pc (t q : Nat) : ∀ a ∈ [A.seqPc t q], a ∈ seqMoves t q := by simp [seqMoves]

theorem State.seqState_of_reg {s u : State} {t q : Nat} (h : u.reg (A.seqSts t q) = s.reg (A.seqSts t q)) :
    u.seqState t q = s.seqState t q := State.fld_of_reg h _

theorem State.pc_of_reg {s u : State} {t q : Nat} (h : u.reg (A.seqPc t q) = s.reg (A.seqPc t q)) : u.pc t q = s.pc t q :=
  State.fld_of_reg h _

theorem State.depth_of_reg {s u : State} {t q : Nat} (h : u.reg (A.seqSts t q) = s.reg (A.seqSts t q)) : u.depth t q = s.depth t q :=
  State.fld_of_reg h _

theorem State.tc_of_reg {s u : State} {t q : Nat} (h : u.reg (A.seqTc t q) = s.reg (A.seqTc t q)) : u.tc t q = s.tc t q :=
  congrArg BitVec.toNat h

theorem seqSts_not_moves (t q : Nat) : A.seqSts t q ∉ seqMoves t q := by
  simp only [seqMoves, List.mem_cons, List.not_mem_nil, or_false, A.seqSts, A.seqPc, A.seqCycLo, A.seqCycHi, A.seqInstrLo, A.seqInstrHi]
  omega

/-! ### Completion (R105) -/

/-- No loop ends at this address: the loop test does nothing. -/
theorem State.loopTest_none (s : State) (t q pc fuel : Nat)
    (h : s.depth t q = 0 ∨ s.fld (A.seqLoopSe t q (s.depth t q - 1)) F.seqLoopSe.endPc ≠ pc) :
    s.loopTest t q pc fuel = (s, none, 0) := by
  cases fuel with
  | zero => rfl
  | succ n =>
    unfold State.loopTest
    rcases h with h | h <;> simp [h]

theorem loopSe_not_instr (t q i : Nat) : A.seqLoopSe t q i ∉ [A.seqInstrLo t q, A.seqInstrHi t q] := by
  simp only [List.mem_cons, List.not_mem_nil, or_false, A.seqLoopSe, A.seqInstrLo, A.seqInstrHi]
  omega

theorem seqSts_not_instr (t q : Nat) : A.seqSts t q ∉ [A.seqInstrLo t q, A.seqInstrHi t q] :=
  fun h => seqSts_not_moves t q (seqMoves_instr t q _ h)

/-- An instruction that completes without a loop end at its address goes on to the next one (R105). -/
theorem State.complete_falls (s : State) (t q : Nat) (bad : Option Nat) (h : FallsThrough s t q) :
    RegWork (seqMoves t q) s (s.complete t q bad) ∧ (s.complete t q bad).pc t q = s.pc t q + 1 := by
  obtain ⟨hpc, hloop⟩ := h
  have hinstr := regWork_addInstr s t q
  have hdepth : (s.addInstr t q).depth t q = s.depth t q := State.depth_of_reg (hinstr.1 _ (seqSts_not_instr t q))
  have htest := State.loopTest_none (s.addInstr t q) t q (s.pc t q) 8 (by
    rw [hdepth, State.fld_of_reg (hinstr.1 _ (loopSe_not_instr t q _))]
    exact hloop)
  have hcomplete : s.complete t q bad = ((s.addInstr t q).addCycles t q 0).setPc t q (s.pc t q + 1) := by
    unfold State.complete
    simp only [htest]
    rw [if_neg (by omega)]
  rw [hcomplete]
  refine ⟨?_, State.pc_setPc _ t q _ (by omega)⟩
  exact regWork_trans (regWork_trans (regWork_mono hinstr (seqMoves_instr t q))
    (regWork_mono (regWork_addCycles _ t q 0) (seqMoves_cyc t q))) (regWork_mono (regWork_setPc _ t q _) (seqMoves_pc t q))

/-! ### The preload (R81) -/

theorem State.sreg_loadRegs (s : State) (t q k : Nat) (l : List Nat) (hl : l.Nodup) :
    (s.loadRegs t q l).sreg t q k = if k ∈ l then s.dm t q (240 + k) else s.sreg t q k := by
  induction l generalizing s with
  | nil => rfl
  | cons i l ih =>
    rw [List.nodup_cons] at hl
    have hdm : (s.setSreg t q i (s.dm t q (240 + i))).dm t q (240 + k) = s.dm t q (240 + k) := regWork_dm (regWork_setReg s _ _) _ _ _
    rw [State.loadRegs, ih _ hl.2, hdm]
    by_cases hk : k = i
    · subst hk
      simp only [hl.1, if_false, List.mem_cons, true_or, if_true]
      exact State.reg_setReg_same ..
    · have hne : A.seqS t q k ≠ A.seqS t q i := by simp only [A.seqS]; omega
      have hkept : (s.setSreg t q i (s.dm t q (240 + i))).sreg t q k = s.sreg t q k := s.reg_setReg_ne _ hne
      simp only [List.mem_cons, hk, false_or, hkept]

theorem State.loadRegs_reg (s : State) (t q a : Nat) (l : List Nat) (h : ∀ i ∈ l, a ≠ A.seqS t q i) :
    (s.loadRegs t q l).reg a = s.reg a := by
  induction l generalizing s with
  | nil => rfl
  | cons i l ih =>
    rw [State.loadRegs, ih _ fun j hj => h j (List.mem_cons_of_mem i hj)]
    exact s.reg_setReg_ne _ (h i List.mem_cons_self)

theorem State.clearLoops_reg (s : State) (t q a : Nat) (l : List Nat) (h : ∀ i ∈ l, a ≠ A.seqLoopSe t q i ∧ a ≠ A.seqLoopRem t q i) :
    (s.clearLoops t q l).reg a = s.reg a := by
  induction l generalizing s with
  | nil => rfl
  | cons i l ih =>
    obtain ⟨hse, hrem⟩ := h i List.mem_cons_self
    rw [State.clearLoops, ih _ fun j hj => h j (List.mem_cons_of_mem i hj), State.reg_setReg_ne _ _ hrem, s.reg_setReg_ne _ hse]

/-- The registers of a preload as its parts leave them. -/
theorem State.preload_eq (s : State) (t q : Nat) : s.preload t q = (((((s.loadRegs t q (List.range 16)).clearLoops t q
    (List.range 8)).setDepth t q 0).setPc t q (s.fld (A.seqCtl t q) F.seqCtl.startPc)).addCycles t q 4) := rfl

theorem State.preload_early_reg (s : State) (t q a : Nat) (hs : ∀ i, i < 16 → a ≠ A.seqS t q i)
    (hl : ∀ i, i < 8 → a ≠ A.seqLoopSe t q i ∧ a ≠ A.seqLoopRem t q i) :
    ((s.loadRegs t q (List.range 16)).clearLoops t q (List.range 8)).reg a = s.reg a := by
  rw [State.clearLoops_reg _ t q a _ fun i hi => hl i (List.mem_range.1 hi),
    State.loadRegs_reg _ t q a _ fun i hi => hs i (List.mem_range.1 hi)]

/-- What a preload leaves (R81): the loaded registers, an empty loop stack, PC at START_PC, and 4 cycles counted. -/
theorem State.preload_spec (s : State) (t q : Nat) : Preloaded t q s (s.preload t q) ∧
    (s.preload t q).pair (A.seqCycLo t q) (A.seqCycHi t q) = (s.pair (A.seqCycLo t q) (A.seqCycHi t q) + 4) % 2 ^ 64 ∧
    (s.preload t q).pair (A.seqInstrLo t q) (A.seqInstrHi t q) = s.pair (A.seqInstrLo t q) (A.seqInstrHi t q) := by
  have hearly (a : Nat) (ha : A.seqCtl t q ≤ a ∧ a < A.seqCtl t q + 0x40) :
      ((s.loadRegs t q (List.range 16)).clearLoops t q (List.range 8)).reg a = s.reg a :=
    s.preload_early_reg t q a (fun i hi => by simp only [A.seqS, A.seqCtl] at ha ⊢; omega)
      (fun i hi => by simp only [A.seqLoopSe, A.seqLoopRem, A.seqCtl] at ha ⊢; omega)
  have hdepth := regWork_setReg ((s.loadRegs t q (List.range 16)).clearLoops t q (List.range 8)) (A.seqSts t q)
    (putF (((s.loadRegs t q (List.range 16)).clearLoops t q (List.range 8)).reg (A.seqSts t q)) F.seqSts.loopDepth 0)
  have hpc := regWork_setPc (((s.loadRegs t q (List.range 16)).clearLoops t q (List.range 8)).setDepth t q 0) t q
    (s.fld (A.seqCtl t q) F.seqCtl.startPc)
  have hcyc := regWork_addCycles ((((s.loadRegs t q (List.range 16)).clearLoops t q (List.range 8)).setDepth t q 0).setPc t q
    (s.fld (A.seqCtl t q) F.seqCtl.startPc)) t q 4
  have hlate (a : Nat) (ha : a ∉ [A.seqSts t q, A.seqPc t q, A.seqCycLo t q, A.seqCycHi t q]) :
      (s.preload t q).reg a = ((s.loadRegs t q (List.range 16)).clearLoops t q (List.range 8)).reg a := by
    simp only [List.mem_cons, List.not_mem_nil, or_false, not_or] at ha
    rw [s.preload_eq, hcyc.1 a (by simp [ha]), hpc.1 a (by simp [ha])]
    exact hdepth.1 a (by simp [ha])
  refine ⟨⟨fun k hk => ?_, ?_, ?_⟩, ?_, ?_⟩
  · have hs : A.seqS t q k ∉ [A.seqSts t q, A.seqPc t q, A.seqCycLo t q, A.seqCycHi t q] := by
      simp only [List.mem_cons, List.not_mem_nil, or_false, A.seqS, A.seqSts, A.seqPc, A.seqCycLo, A.seqCycHi]
      omega
    have hload := s.sreg_loadRegs t q k (List.range 16) List.nodup_range
    rw [if_pos (List.mem_range.2 hk)] at hload
    rw [State.sreg, hlate _ hs, State.clearLoops_reg _ t q _ _ fun i hi => by
      have := List.mem_range.1 hi
      simp only [A.seqS, A.seqLoopSe, A.seqLoopRem]
      omega]
    exact hload
  · have hsts : A.seqSts t q ∉ [A.seqPc t q] ∧ A.seqSts t q ∉ [A.seqCycLo t q, A.seqCycHi t q] := by
      simp only [List.mem_cons, List.not_mem_nil, or_false, A.seqSts, A.seqPc, A.seqCycLo, A.seqCycHi]
      omega
    rw [s.preload_eq, State.depth_of_reg (hcyc.1 _ hsts.2), State.depth_of_reg (hpc.1 _ hsts.1)]
    exact State.fld_setFld_same _ _ _ _ (by decide)
  · have hpcc : A.seqPc t q ∉ [A.seqCycLo t q, A.seqCycHi t q] := by
      simp only [List.mem_cons, List.not_mem_nil, or_false, A.seqPc, A.seqCycLo, A.seqCycHi]
      omega
    rw [s.preload_eq, State.pc_of_reg (hcyc.1 _ hpcc)]
    exact State.pc_setPc _ t q _ (getF_lt _ F.seqCtl.startPc)
  · have hnot (a : Nat) (ha : a = A.seqCycLo t q ∨ a = A.seqCycHi t q) : a ∉ [A.seqPc t q] ∧ a ∉ [A.seqSts t q] ∧
        A.seqCtl t q ≤ a ∧ a < A.seqCtl t q + 0x40 := by
      simp only [List.mem_cons, List.not_mem_nil, or_false, A.seqSts, A.seqPc, A.seqCycLo, A.seqCycHi, A.seqCtl] at ha ⊢
      omega
    have hkept (a : Nat) (ha : a = A.seqCycLo t q ∨ a = A.seqCycHi t q) :
        ((((s.loadRegs t q (List.range 16)).clearLoops t q (List.range 8)).setDepth t q 0).setPc t q
          (s.fld (A.seqCtl t q) F.seqCtl.startPc)).reg a = s.reg a := by
      obtain ⟨h1, h2, h3⟩ := hnot a ha
      rw [hpc.1 a h1, ← hearly a h3]
      exact hdepth.1 a h2
    rw [s.preload_eq, State.pair_addCycles, State.pair_of_reg (hkept _ (.inl rfl)) (hkept _ (.inr rfl))]
  · have hnot (a : Nat) (ha : a = A.seqInstrLo t q ∨ a = A.seqInstrHi t q) :
        a ∉ [A.seqSts t q, A.seqPc t q, A.seqCycLo t q, A.seqCycHi t q] ∧ A.seqCtl t q ≤ a ∧ a < A.seqCtl t q + 0x40 := by
      simp only [List.mem_cons, List.not_mem_nil, or_false, A.seqSts, A.seqPc, A.seqCycLo, A.seqCycHi, A.seqCtl, A.seqInstrLo,
        A.seqInstrHi] at ha ⊢
      omega
    have hkept (a : Nat) (ha : a = A.seqInstrLo t q ∨ a = A.seqInstrHi t q) : (s.preload t q).reg a = s.reg a :=
      (hlate a (hnot a ha).1).trans (hearly a (hnot a ha).2)
    exact State.pair_of_reg (hkept _ (.inl rfl)) (hkept _ (.inr rfl))

/-- A sequencer that preloads into a state, in a tile without patches. -/
theorem State.preloadTo_spec (s : State) (t q code : Nat) (x : SeqX) (hq : q < 34) (hc : code < 8) (h : s.patched t = false) :
    (s.preloadTo t q code x).seqState t q = code ∧ (s.preloadTo t q code x).seq (sk t q) = x ∧ Preloaded t q s (s.preloadTo t q code x) ∧
    (s.preloadTo t q code x).pair (A.seqCycLo t q) (A.seqCycHi t q) = (s.pair (A.seqCycLo t q) (A.seqCycHi t q) + 4) % 2 ^ 64 ∧
    (s.preloadTo t q code x).pair (A.seqInstrLo t q) (A.seqInstrHi t q) = s.pair (A.seqInstrLo t q) (A.seqInstrHi t q) ∧
    ∀ k, (s.preloadTo t q code x).tq k = s.tq k := by
  obtain ⟨⟨hs, hdepth, hpc⟩, hcyc, hinstr⟩ := s.preload_spec t q
  have hstate := regWork_setSeqState (s.preload t q) t q code
  have hother (a : Nat) (ha : a ≠ A.seqSts t q) : (((s.preload t q).setSeqState t q code).setSeq (sk t q) x).reg a = (s.preload t q).reg a :=
    hstate.1 a (by simpa using ha)
  rw [s.preloadTo_unpatched t q code x hq h]
  refine ⟨State.seqState_setSeqState _ t q code hc, State.seq_setSeq .., ⟨fun k hk => ?_, ?_, ?_⟩, ?_, ?_, fun k => ?_⟩
  · exact (hother _ (by simp only [A.seqS, A.seqSts]; omega)).trans (hs k hk)
  · exact (State.fld_setFld_disjoint _ _ _ _ _ (by decide) (by decide)).trans hdepth
  · exact (State.pc_of_reg (hother _ (by simp only [A.seqPc, A.seqSts]; omega))).trans hpc
  · rw [← hcyc]
    exact State.pair_of_reg (hother _ (by simp only [A.seqCycLo, A.seqSts]; omega)) (hother _ (by simp only [A.seqCycHi, A.seqSts]; omega))
  · rw [← hinstr]
    exact State.pair_of_reg (hother _ (by simp only [A.seqInstrLo, A.seqSts]; omega))
      (hother _ (by simp only [A.seqInstrHi, A.seqSts]; omega))
  · have hwork := seqWork_preload s t q
    have htq : (s.preload t q).tqs = s.tqs := by rw [hwork.2]
    exact congrArg (KMap.get {} · k) htq

/-! ### Faults (R114) -/

/-- The FIRED bits of the tiles' sources lie below every sequencer. -/
theorem evfSrcSts_tileSrc_lt (t : Tile) (k : Nat) (hk : k < 40) : A.evfSrcSts (tileSrc t k / 32) < 0x300000 := by
  simp only [A.evfSrcSts, tileSrc]
  omega

/-- SEQ_FAULT and SEQ_FAULT_INFO as a fault captures them: the first one stays (R114). -/
def State.faultCaptured (s : State) (t q : Nat) (f : FaultInfo) : State :=
  if s.on (A.seqFault t q) F.seqFault.valid then s
  else ((s.setReg (A.seqFault t q) (BitVec.ofNat 32 (2 ^ 31 + f.pc % 4096 * 2 ^ 16 + f.cause % 32))).note
    (A.seqFault t q) F.seqFault.valid 1).setReg (A.seqFaultInfo t q) f.info

theorem regWork_faultCaptured (s : State) (t q : Nat) (f : FaultInfo) :
    RegWork [A.seqFault t q, A.seqFaultInfo t q] s (s.faultCaptured t q f) := by
  unfold State.faultCaptured
  split
  · exact regWork_refl _ s
  · refine ⟨fun a ha => ?_, rfl⟩
    simp only [List.mem_cons, List.not_mem_nil, or_false, not_or] at ha
    rw [State.reg_setReg_ne _ _ ha.2]
    exact s.reg_setReg_ne _ ha.1

theorem State.faultCaptured_kept (s : State) (t q : Nat) (f : FaultInfo) (h : s.on (A.seqFault t q) F.seqFault.valid = true) :
    s.faultCaptured t q f = s := if_pos h

theorem State.faultCaptured_new (s : State) (t q : Nat) (f : FaultInfo) (h : s.on (A.seqFault t q) F.seqFault.valid = false) :
    (s.faultCaptured t q f).reg (A.seqFault t q) = BitVec.ofNat 32 (2 ^ 31 + f.pc % 4096 * 2 ^ 16 + f.cause % 32) ∧
    (s.faultCaptured t q f).reg (A.seqFaultInfo t q) = f.info := by
  have hne : A.seqFault t q ≠ A.seqFaultInfo t q := by simp only [A.seqFault, A.seqFaultInfo]; omega
  unfold State.faultCaptured
  rw [if_neg (by simp [h])]
  refine ⟨?_, State.reg_setReg_same ..⟩
  rw [State.reg_setReg_ne _ _ hne]
  exact s.reg_setReg_same _ _

/-- The fields of SEQ_FAULT that a fault captures. -/
theorem getF_faultWord (pc cause : Nat) : let w : Word := BitVec.ofNat 32 (2 ^ 31 + pc % 4096 * 2 ^ 16 + cause % 32)
    getF w F.seqFault.valid = 1 ∧ getF w F.seqFault.cause = cause % 32 ∧ getF w F.seqFault.pc = pc % 4096 := by
  simp only [getF, F.seqFault.valid, F.seqFault.cause, F.seqFault.pc, BitVec.toNat_ofNat]
  omega

/-- The count and the event of a fault (R114). -/
theorem State.countFault_spec (s : State) (t : Tile) (q : Seq) (cause : Nat) :
    SameRegs [A.seqFaultCnt t q, A.evfSrcSts (tileSrc t 2 / 32)] s (s.countFault t q cause) ∧
    CountsUp (A.seqFaultCnt t q) 1 s (s.countFault t q cause) ∧ (s.countFault t q cause).evq = s.evq ++ [(tileSrc t 2, 0)] ∧
    (s.countFault t q cause).seqs = s.seqs ∧ (s.countFault t q cause).tqs = s.tqs ∧ (s.countFault t q cause).mem = s.mem ∧
    (s.countFault t q cause).tm = s.tm := by
  have hcfg (c : CfgX) : SameRegs [A.seqFaultCnt t q, A.evfSrcSts (tileSrc t 2 / 32)] s
      ((({ s with cfg := c } : State).bump (A.seqFaultCnt t q)).fire (tileSrc t 2)) := fun a ha => by
    simp only [List.mem_cons, List.not_mem_nil, or_false, not_or] at ha
    rw [State.reg_fire_ne _ _ ha.2]
    exact State.reg_bumpBy_ne _ 1 ha.1
  have hcnt (c : CfgX) : CountsUp (A.seqFaultCnt t q) 1 s
      ((({ s with cfg := c } : State).bump (A.seqFaultCnt t q)).fire (tileSrc t 2)) := by
    have hlt := evfSrcSts_tileSrc_lt t 2 (by decide)
    rw [CountsUp, State.reg_fire_ne _ _ (by simp only [A.seqFaultCnt]; omega)]
    exact State.reg_bumpBy ({ s with cfg := c } : State) (A.seqFaultCnt t q) 1
  unfold State.countFault
  simp only
  split
  · exact ⟨hcfg _, hcnt _, rfl, rfl, rfl, rfl, rfl⟩
  · exact ⟨hcfg s.cfg, hcnt s.cfg, rfl, rfl, rfl, rfl, rfl⟩

/-- The sequencer of a fault before the capture: FAULTED, with no wait. -/
def State.faulting (s : State) (t q : Nat) : State :=
  (s.setSeqState t q 6).setSeq (sk t q) { s.seq (sk t q) with stall := .none, done := true, micro := none }

/-- A fault captures, counts, and taints the shot in progress (R114). -/
theorem State.enterFaulted_eq (s : State) (t q : Nat) (f : FaultInfo) : ∃ c, s.enterFaulted t q f =
    { ((s.faulting t q).faultCaptured t q f).countFault t q f.cause with scheds := c } := by
  have h : s.enterFaulted t q f = (match (((s.faulting t q).faultCaptured t q f).countFault t q f.cause).plotOf t with
    | some p => (match (((s.faulting t q).faultCaptured t q f).countFault t q f.cause).current p with
      | some h => (((s.faulting t q).faultCaptured t q f).countFault t q f.cause).flagShot p h.sid Flag.taint
      | none => ((s.faulting t q).faultCaptured t q f).countFault t q f.cause)
    | none => ((s.faulting t q).faultCaptured t q f).countFault t q f.cause) := rfl
  rw [h]
  split
  · split
    · exact ⟨_, rfl⟩
    · exact ⟨_, rfl⟩
  · exact ⟨_, rfl⟩

/-- A fault changes no register of its sequencer but its state, its capture and its count; the event fires (R114). -/
theorem State.enterFaulted_spec (s : State) (t : Tile) (q : Seq) (f : FaultInfo) :
    let u := s.enterFaulted t q f
    SameRegs [A.seqSts t q, A.seqFault t q, A.seqFaultInfo t q, A.seqFaultCnt t q, A.evfSrcSts (tileSrc t 2 / 32)] s u ∧
    u.seqState t q = 6 ∧ (u.seq (sk t q)).stall = .none ∧ u.tqs = s.tqs ∧ u.mem = s.mem ∧
    u.evq = s.evq ++ [(tileSrc t 2, 0)] ∧ CountsUp (A.seqFaultCnt t q) 1 s u ∧
    (s.on (A.seqFault t q) F.seqFault.valid = true →
      u.reg (A.seqFault t q) = s.reg (A.seqFault t q) ∧ u.reg (A.seqFaultInfo t q) = s.reg (A.seqFaultInfo t q)) ∧
    (s.on (A.seqFault t q) F.seqFault.valid = false → u.fld (A.seqFault t q) F.seqFault.valid = 1 ∧
      u.fld (A.seqFault t q) F.seqFault.cause = f.cause % 32 ∧ u.fld (A.seqFault t q) F.seqFault.pc = f.pc % 4096 ∧
      u.reg (A.seqFaultInfo t q) = f.info) := by
  obtain ⟨c, hc⟩ := s.enterFaulted_eq t q f
  have hlt := evfSrcSts_tileSrc_lt t 2 (by decide)
  have hstate : SameRegs [A.seqSts t q] s (s.faulting t q) := (regWork_setSeqState s t q 6).1
  have hcap := regWork_faultCaptured (s.faulting t q) t q f
  obtain ⟨hregs, hcount, hevq, hseqs, htqs, hmem, -⟩ := ((s.faulting t q).faultCaptured t q f).countFault_spec t q f.cause
  have hlate (a : Nat) (ha : a ∉ [A.seqFaultCnt t q, A.evfSrcSts (tileSrc t 2 / 32)]) :
      (s.enterFaulted t q f).reg a = ((s.faulting t q).faultCaptured t q f).reg a := by rw [hc]; exact hregs a ha
  have hcapt : A.seqFault t q ∉ [A.seqFaultCnt t q, A.evfSrcSts (tileSrc t 2 / 32)] ∧
      A.seqFaultInfo t q ∉ [A.seqFaultCnt t q, A.evfSrcSts (tileSrc t 2 / 32)] ∧ A.seqFault t q ∉ [A.seqSts t q] ∧
      A.seqFaultInfo t q ∉ [A.seqSts t q] ∧ A.seqFaultCnt t q ∉ [A.seqSts t q] ∧
      A.seqFaultCnt t q ∉ [A.seqFault t q, A.seqFaultInfo t q] ∧
      A.seqSts t q ∉ [A.seqFaultCnt t q, A.evfSrcSts (tileSrc t 2 / 32)] ∧ A.seqSts t q ∉ [A.seqFault t q, A.seqFaultInfo t q] := by
    simp only [List.mem_cons, List.not_mem_nil, or_false, A.seqSts, A.seqFault, A.seqFaultInfo, A.seqFaultCnt]
    omega
  obtain ⟨hf1, hi1, hf2, hi2, hn1, hn2, hs1, hs2⟩ := hcapt
  have hvalid : (s.faulting t q).on (A.seqFault t q) F.seqFault.valid = s.on (A.seqFault t q) F.seqFault.valid :=
    State.on_of_reg (hstate _ hf2) _
  refine ⟨fun a ha => ?_, ?_, ?_, ?_, ?_, ?_, ?_, fun hv => ?_, fun hv => ?_⟩
  · simp only [List.mem_cons, List.not_mem_nil, or_false, not_or] at ha
    obtain ⟨h1, h2, h3, h4, h5⟩ := ha
    rw [hlate a (by simp [h4, h5]), hcap.1 a (by simp [h2, h3]), hstate a (by simp [h1])]
  · rw [State.seqState_of_reg ((hlate _ hs1).trans (hcap.1 _ hs2))]
    exact s.seqState_setSeqState t q 6 (by decide)
  · have hseq : (s.enterFaulted t q f).seq (sk t q) = (s.faulting t q).seq (sk t q) := by
      rw [hc]
      exact congrArg (KMap.get {} · (sk t q)) (hseqs.trans (regWork_seqs hcap))
    rw [hseq, State.faulting, State.seq_setSeq]
  · rw [hc]
    exact htqs.trans ((regWork_tqs hcap).trans rfl)
  · rw [hc]
    exact hmem.trans ((regWork_mem hcap).trans rfl)
  · rw [hc]
    exact hevq.trans (congrArg (· ++ [(tileSrc t 2, 0)]) ((regWork_evq hcap).trans rfl))
  · have hcnt : ((s.faulting t q).faultCaptured t q f).reg (A.seqFaultCnt t q) = s.reg (A.seqFaultCnt t q) :=
      (hcap.1 _ hn2).trans (hstate _ hn1)
    rw [hc]
    unfold CountsUp at hcount ⊢
    rw [← hcnt]
    exact hcount
  · rw [hlate _ hf1, hlate _ hi1, State.faultCaptured_kept _ _ _ _ (hvalid.trans hv)]
    exact ⟨hstate _ hf2, hstate _ hi2⟩
  · obtain ⟨hword, hinfo⟩ := State.faultCaptured_new _ t q f (hvalid.trans hv)
    obtain ⟨h1, h2, h3⟩ := getF_faultWord f.pc f.cause
    rw [State.fld, State.fld, State.fld, hlate _ hf1, hlate _ hi1, hword]
    exact ⟨h1, h2, h3, hinfo⟩

/-- A fault whose end marker finds room in the queue, in a tile without patches. -/
theorem State.fault_eq (s : State) (t q : Nat) (f : FaultInfo) (hp : s.patched t = false) (hq : s.queueFull (sk t q) = false) :
    s.fault t q f = (s.sendCmd t q .endMarker (s.tc t q) none).enterFaulted t q f := by
  simp [State.fault, State.sysRoutine, hp, hq]

/-! ### A full queue (R71) -/

/-- A sequencer in STALL_Q, with STALLED set, before QUEUE_FULL may fire. -/
def State.queueStalled (s : State) (t q : Nat) (cmd : TqCmd) (a : After) : State :=
  ((s.setSeqState t q 3).setSeq (sk t q) { s.seq (sk t q) with stall := .queue cmd (s.tc t q) a s.tm.now }).raise
    (A.tqSts t q) F.tqSts.stalled 1

theorem State.stallQ_eq (s : State) (t q : Nat) (cmd : TqCmd) (a : After) : s.stallQ t q cmd a =
    if (s.tq (sk t q)).fullFired then s.queueStalled t q cmd a
    else ((s.queueStalled t q cmd a).setTq (sk t q) { s.tq (sk t q) with fullFired := true }).fire (tileSrc t 1) := rfl

theorem State.queueStalled_spec (s : State) (t q : Nat) (cmd : TqCmd) (a : After) :
    SameRegs [A.seqSts t q, A.tqSts t q] s (s.queueStalled t q cmd a) ∧ (s.queueStalled t q cmd a).seqState t q = 3 ∧
    (s.queueStalled t q cmd a).on (A.tqSts t q) F.tqSts.stalled = true ∧
    ((s.queueStalled t q cmd a).seq (sk t q)).stall = .queue cmd (s.tc t q) a s.tm.now := by
  have hst : A.seqSts t q ≠ A.tqSts t q := by
    simp only [A.seqSts, A.tqSts]
    omega
  have hstate := regWork_setSeqState s t q 3
  have hseq : (s.queueStalled t q cmd a).seq (sk t q) = { s.seq (sk t q) with stall := .queue cmd (s.tc t q) a s.tm.now } := by
    rw [State.queueStalled, State.seq_raise, State.seq_setSeq]
  refine ⟨fun b hb => ?_, ?_, ?_, by rw [hseq]⟩
  · simp only [List.mem_cons, List.not_mem_nil, or_false, not_or] at hb
    exact (State.reg_raise_ne _ _ _ hb.2).trans (hstate.1 b (by simp [hb]))
  · exact (State.seqState_of_reg (State.reg_raise_ne _ _ _ hst)).trans (s.seqState_setSeqState t q 3 (by decide))
  · unfold State.on State.queueStalled
    rw [State.fld_raise_bit _ _ _ (by decide) (by decide)]
    rfl

/-- A command that finds its queue full stalls its sequencer, and QUEUE_FULL fires once in a shot (R71). -/
theorem State.stallQ_spec (s : State) (t : Tile) (q : Seq) (cmd : TqCmd) (a : After) :
    let u := s.stallQ t q cmd a
    u.seqState t q = 3 ∧ u.on (A.tqSts t q) F.tqSts.stalled = true ∧ (u.tq (sk t q)).fullFired = true ∧
    (u.tq (sk t q)).flight = (s.tq (sk t q)).flight ∧ (u.seq (sk t q)).stall = .queue cmd (s.tc t q) a s.tm.now ∧
    SameRegs [A.seqSts t q, A.tqSts t q, A.evfSrcSts (tileSrc t 1 / 32)] s u ∧
    u.evq = if (s.tq (sk t q)).fullFired then s.evq else s.evq ++ [(tileSrc t 1, 0)] := by
  obtain ⟨hregs, h3, hon, hstall⟩ := s.queueStalled_spec t q cmd a
  have hlt := evfSrcSts_tileSrc_lt t 1 (by decide)
  have htq : (s.queueStalled t q cmd a).tq (sk t q) = s.tq (sk t q) := by
    rw [State.queueStalled, State.tq_raise, State.tq_setSeq, State.tq_setSeqState]
  have hevq : (s.queueStalled t q cmd a).evq = s.evq := by simp [State.queueStalled, State.setSeqState]
  rw [s.stallQ_eq]
  split
  · next hf =>
    refine ⟨h3, hon, by rw [htq, hf], by rw [htq], hstall, fun b hb => hregs b ?_, hevq⟩
    simp only [List.mem_cons, List.not_mem_nil, or_false, not_or] at hb ⊢
    exact ⟨hb.1, hb.2.1⟩
  · have hse : A.seqSts t q ≠ A.evfSrcSts (tileSrc t 1 / 32) := by simp only [A.seqSts]; omega
    have hte : A.tqSts t q ≠ A.evfSrcSts (tileSrc t 1 / 32) := by simp only [A.tqSts]; omega
    refine ⟨?_, ?_, ?_, ?_, ?_, fun b hb => ?_, ?_⟩
    · rw [State.seqState, State.fld_fire_ne _ _ _ hse, State.fld_setTq]
      exact h3
    · rw [State.on, State.fld_fire_ne _ _ _ hte, State.fld_setTq]
      exact hon
    · rw [State.tq_fire, State.tq_setTq]
    · rw [State.tq_fire, State.tq_setTq]
    · rw [State.seq_fire, State.seq_setTq, hstall]
    · simp only [List.mem_cons, List.not_mem_nil, or_false, not_or] at hb
      rw [State.reg_fire_ne _ _ hb.2.2, State.reg_setTq]
      exact hregs b (by simp [hb])
    · rw [State.fire_evq]
      exact congrArg (· ++ [(tileSrc t 1, 0)]) hevq

/-! ### An instruction that passes its checks (R485) -/

/-- A clean instruction of a tile without patches does what its body says. -/
theorem State.instr_passes (s : State) (i q op : Nat) (cyc : Ins → Nat) (body : Ins → State → IRes) (h : Passes s i q op) :
    s.instr i q .clean cyc body = s.finish i q (cyc (s.insAt i q (s.pc i q))) (body (s.insAt i q (s.pc i q)) s) := by
  obtain ⟨-, hop, hpatched, hrole, m, hmask, hres⟩ := h
  have hwalk : s.insWalk i q .clean (s.insAt i q (s.pc i q)) body = none := by
    unfold State.insWalk
    simp [hpatched]
  have hjudged : s.judged i q (s.insAt i q (s.pc i q)) body = body (s.insAt i q (s.pc i q)) s := by
    unfold State.judged
    rw [hop, hmask]
    simp [hrole, hres]
  unfold State.instr
  simp only [reduceCtorEq, if_false, State.pmCorrected, hwalk, hjudged]

theorem State.instrRow_passes (s : State) (i q op : Nat) (ops : Nat → Bool) (cyc : Ins → Nat) (body : Ins → State → IRes)
    (h : Passes s i q op) (ho : ops op = true) : s.instrRow i q .clean ops cyc body =
      .next (s.finish i q (cyc (s.insAt i q (s.pc i q))) (body (s.insAt i q (s.pc i q)) s)) := by
  obtain ⟨hrun, hop, -⟩ := id h
  unfold State.instrRow onlyIf
  rw [hrun, hop, ho, s.instr_passes i q op cyc body h]
  rfl

end Sys2Proof.Machine
end

section
/-! ## Queue stalls, END and barriers (R71, R81, R102, R108, R114) -/

namespace Sys2Proof.Machine

open Sys2Proof.Safety

/-! ### Work of one sequencer -/

/-- What the routine of sequencer (t, q) may write: its own registers, its tile's microcode counters, FIRED bits. -/
def routineRegs (t q a : Nat) : Prop :=
  seqRegs t q a ∨ (0x1050000 + 0x80000 * t ≤ a ∧ a < 0x1050400 + 0x80000 * t) ∨ a < 0x300000

/-- Only such registers changed, and no other sequencer's hidden state. -/
def OwnWork (t q : Nat) (s u : State) : Prop := TouchesOnly (routineRegs t q) s u ∧ ∀ k, k ≠ sk t q → u.seq k = s.seq k

theorem ownWork_refl (t q : Nat) (s : State) : OwnWork t q s s := ⟨touchesOnly_refl _ s, fun _ _ => rfl⟩

theorem ownWork_trans {t q : Nat} {s u v : State} (h : OwnWork t q s u) (k : OwnWork t q u v) : OwnWork t q s v :=
  ⟨touchesOnly_trans h.1 k.1, fun j hj => (k.2 j hj).trans (h.2 j hj)⟩

theorem ownWork_regWork {t q : Nat} {l : List Nat} {s u : State} (h : RegWork l s u) (hl : ∀ a ∈ l, routineRegs t q a) :
    OwnWork t q s u := ⟨fun a ha => h.1 a fun hm => ha (hl a hm), fun k _ => regWork_seq h k⟩

theorem ownWork_setReg {t q : Nat} (s : State) {a : Nat} (v : Word) (h : routineRegs t q a) : OwnWork t q s (s.setReg a v) :=
  ⟨touchesOnly_setReg s v h, fun _ _ => rfl⟩

theorem ownWork_raise {t q : Nat} (s : State) {a : Nat} (f : Fld) (x : Nat) (h : routineRegs t q a) : OwnWork t q s (s.raise a f x) :=
  ownWork_regWork (regWork_raise s a f x) (by simpa using h)

theorem ownWork_setSeq (t q : Nat) (s : State) (x : SeqX) : OwnWork t q s (s.setSeq (sk t q) x) :=
  ⟨fun _ _ => rfl, fun _ hk => s.seq_setSeq_ne x hk⟩

theorem ownWork_holdMicro (t q : Nat) (s : State) (a : Option Nat) (r : Bool) (b : Option Nat) : OwnWork t q s (s.holdMicro t q a r b) :=
  ownWork_setSeq t q s _

theorem ownWork_sendCmd (t q : Nat) (s : State) (c : TqCmd) (n : Nat) (o : Option Nat) : OwnWork t q s (s.sendCmd t q c n o) :=
  ⟨fun _ _ => rfl, fun _ _ => rfl⟩

theorem ownWork_fire {t q : Nat} (s : State) (k : Nat) (ht : t < 32) (hk : k < 40) : OwnWork t q s (s.fire (tileSrc t k)) :=
  ⟨touchesOnly_setReg s _ (.inr (.inr (evfSrcSts_tileSrc_lt ⟨t, ht⟩ k hk))), fun _ _ => rfl⟩

theorem ownWork_addCycles (t q : Nat) (s : State) (n : Nat) : OwnWork t q s (s.addCycles t q n) := by
  refine ownWork_regWork (regWork_addCycles s t q n) fun a ha => .inl ?_
  have hcyc := seqRegs_cyc t q
  simp only [List.mem_cons, List.not_mem_nil, or_false] at ha
  rcases ha with rfl | rfl
  · exact hcyc.1
  · exact hcyc.2

theorem ownWork_addInstr (t q : Nat) (s : State) : OwnWork t q s (s.addInstr t q) := by
  refine ownWork_regWork (regWork_addInstr s t q) fun a ha => .inl ?_
  simp only [List.mem_cons, List.not_mem_nil, or_false, A.seqInstrLo, A.seqInstrHi] at ha
  simp only [seqRegs, A.seqCtl]
  omega

theorem ownWork_setSeqState (t q : Nat) (s : State) (code : Nat) : OwnWork t q s (s.setSeqState t q code) :=
  ownWork_setReg s _ (.inl (seqRegs_sts t q))

theorem ownWork_setPc (t q : Nat) (s : State) (pc : Nat) : OwnWork t q s (s.setPc t q pc) :=
  ownWork_setReg s _ (.inl (seqRegs_pc t q))

theorem ownWork_unstall (t q : Nat) (s : State) : OwnWork t q s (s.unstall t q) :=
  ownWork_trans (ownWork_setSeqState t q s 2) (ownWork_setSeq t q _ _)

/-! ### The walks of routines -/

/-- A match register that redirects a fetch is one of the sixteen. -/
theorem State.ucMatch_lt (s : State) (t a m : Nat) (h : s.ucMatch t a = some m) : m < 16 :=
  List.mem_range.1 (List.mem_of_find?_eq_some h)

theorem State.microFetch_hit (s : State) (t a : Nat) : (s.microFetch t a).hit = if a < 0x2000 then s.ucMatch t a else none := by
  unfold State.microFetch
  split
  · cases s.ucMatch t a <;> rfl
  · rfl

theorem State.microFetch_hit_lt (s : State) (t a m : Nat) (h : (s.microFetch t a).hit = some m) : m < 16 := by
  rw [s.microFetch_hit] at h
  exact s.ucMatch_lt t a m (Option.ite_none_right_eq_some.1 h).2

theorem microWalk_zero (fetch : Nat → Micro) (cond : Nat → Nat) (bad : Option Nat) (a : Nat) :
    microWalk fetch cond bad 0 a = ⟨[], 0, [], bad, .waits a⟩ := rfl

/-- The match register that redirected a fetch, as the list of its hits. -/
def Micro.hits (m : Micro) : List Nat := m.hit.toList

/-- Where the walk goes on, the microword's hits come first; else they are the walk's hits, or none. -/
theorem microWalk_succ_hits (fetch : Nat → Micro) (cond : Nat → Nat) (bad : Option Nat) (n a : Nat) :
    (microWalk fetch cond bad (n + 1) a).hits = [] ∨ (microWalk fetch cond bad (n + 1) a).hits = (fetch a).hits ∨
    ∃ b c, (microWalk fetch cond bad (n + 1) a).hits = (fetch a).hits ++ (microWalk fetch cond b n c).hits := by
  have hhits : (match (fetch a).hit with | some i => [i] | none => []) = (fetch a).hits := by
    unfold Micro.hits
    cases (fetch a).hit <;> rfl
  have hunfold : microWalk fetch cond bad (n + 1) a =
      let m := fetch a
      let hits := match m.hit with | some i => [i] | none => []
      if bad = some 0 then ⟨hits, 1, [], none, .fault 0 m.addr⟩
      else match microFault m.word with
        | some c => ⟨hits, 1, [], bad, .fault c m.addr⟩
        | none =>
          let left := bad.map (· - 1)
          if mwDone m.word then ⟨hits, 1, m.drive a, left, .dn⟩
          else
            let next := mwNext m.word ||| cond (mwCsel m.word) % 2 ^ mwCw m.word
            if next = a ∨ next = m.addr then ⟨[], 0, [], bad, .waits a⟩
            else if next = 0x1F00 ∨ next = 0x1F80 then
              ⟨hits, 1, m.drive a, left, .sys next ((nanoWord (mwNano m.word)).extractLsb' 16 16)⟩
            else
              let r := microWalk fetch cond left n next
              ⟨hits ++ r.hits, r.words + 1, m.drive a ++ r.drive, r.bad, r.fin⟩ := rfl
  rw [hunfold]
  simp only [hhits]
  split
  · exact .inr (.inl rfl)
  split
  · exact .inr (.inl rfl)
  split
  · exact .inr (.inl rfl)
  split
  · exact .inl rfl
  split
  · exact .inr (.inl rfl)
  · exact .inr (.inr ⟨_, _, rfl⟩)

theorem microWalk_hits_lt (fetch : Nat → Micro) (hf : ∀ a m, (fetch a).hit = some m → m < 16) (cond : Nat → Nat) (bad : Option Nat)
    (fuel a : Nat) : ∀ m ∈ (microWalk fetch cond bad fuel a).hits, m < 16 := by
  have hhit (a m : Nat) (hm : m ∈ (fetch a).hits) : m < 16 := hf a m (Option.mem_toList.1 hm)
  induction fuel generalizing a bad with
  | zero =>
    rw [microWalk_zero]
    exact fun m hm => absurd hm (List.not_mem_nil)
  | succ n ih =>
    rcases microWalk_succ_hits fetch cond bad n a with h | h | ⟨b, c, h⟩ <;> rw [h]
    · exact fun m hm => absurd hm (List.not_mem_nil)
    · exact hhit a
    · exact fun m hm => (List.mem_append.1 hm).elim (hhit a m) (ih b c m)

theorem ownWork_countHits (t q : Nat) (s : State) (l : List Nat) (hl : ∀ m ∈ l, m < 16) : OwnWork t q s (s.countHits t l) := by
  induction l generalizing s with
  | nil => exact ownWork_refl t q s
  | cons m l ih =>
    have hm := hl m List.mem_cons_self
    exact ownWork_trans (ownWork_setReg s _ (.inr (.inl (by simp only [A.ucHitCnt]; omega))))
      (ih _ fun j hj => hl j (List.mem_cons_of_mem m hj))

theorem State.waitHits_lt (s : State) (t a n : Nat) : ∀ m ∈ s.waitHits t a n, m < 16 := by
  intro m hm
  unfold State.waitHits at hm
  split at hm
  · next hk =>
    obtain rfl := (List.mem_replicate.1 hm).2
    exact s.ucMatch_lt t a _ hk
  · simp at hm

theorem ownWork_microError (t q : Nat) (s : State) (c : Nat) : OwnWork t q s (s.microError t c) := by
  have hsts : routineRegs t q (A.ucSts t) := .inr (.inl (by simp only [A.ucSts]; omega))
  have hcnt : routineRegs t q (A.ucParCnt t) := .inr (.inl (by simp only [A.ucParCnt]; omega))
  unfold State.microError
  split
  · exact ownWork_trans (ownWork_raise s _ _ hsts) (ownWork_setReg _ _ hcnt)
  · exact ownWork_raise s _ _ hsts

theorem ownWork_sysRoutine (t q : Nat) (s : State) (a : Nat) (bad : Option Nat) : OwnWork t q s (s.sysRoutine t q a bad).1 := by
  unfold State.sysRoutine
  split
  · have hhits := ownWork_countHits t q s _ (microWalk_hits_lt (s.microFetch t) (fun a m => s.microFetch_hit_lt t a m)
      (s.microCond t q (s.insAt t q (s.pc t q)) (s.queueFull (sk t q)) {}) bad 512 a)
    simp only
    split
    · exact ownWork_trans hhits (ownWork_microError t q _ _)
    · exact hhits
  · exact ownWork_refl t q s

/-! ### Faults and completion -/

theorem ownWork_scheds (t q : Nat) (s : State) (c : KMap Sched) : OwnWork t q s { s with scheds := c } := ⟨fun _ _ => rfl, fun _ _ => rfl⟩

theorem ownWork_countFault {t q : Nat} (s : State) (cause : Nat) (ht : t < 32) : OwnWork t q s (s.countFault t q cause) := by
  have hcnt : routineRegs t q (A.seqFaultCnt t q) := .inl (by simp only [seqRegs, A.seqCtl, A.seqFaultCnt]; omega)
  have hcfg (c : CfgX) : OwnWork t q s ((({ s with cfg := c } : State).bump (A.seqFaultCnt t q)).fire (tileSrc t 2)) :=
    ownWork_trans (ownWork_trans (u := { s with cfg := c }) ⟨fun _ _ => rfl, fun _ _ => rfl⟩ (ownWork_setReg _ _ hcnt))
      (ownWork_fire _ 2 ht (by decide))
  unfold State.countFault
  simp only
  split
  · exact hcfg _
  · exact hcfg s.cfg

theorem ownWork_enterFaulted {t q : Nat} (s : State) (f : FaultInfo) (ht : t < 32) : OwnWork t q s (s.enterFaulted t q f) := by
  have hcap : ∀ a ∈ [A.seqFault t q, A.seqFaultInfo t q], routineRegs t q a := fun a ha => .inl (by
    simp only [List.mem_cons, List.not_mem_nil, or_false, A.seqFault, A.seqFaultInfo] at ha
    simp only [seqRegs, A.seqCtl]
    omega)
  obtain ⟨c, hc⟩ := s.enterFaulted_eq t q f
  rw [hc]
  exact ownWork_trans (ownWork_trans (ownWork_trans (ownWork_trans (ownWork_setSeqState t q s 6) (ownWork_setSeq t q _ _))
    (ownWork_regWork (regWork_faultCaptured _ t q f) hcap)) (ownWork_countFault _ f.cause ht)) (ownWork_scheds t q _ c)

theorem ownWork_stallQ {t q : Nat} (s : State) (cmd : TqCmd) (a : After) (ht : t < 32) : OwnWork t q s (s.stallQ t q cmd a) := by
  have htq : routineRegs t q (A.tqSts t q) := .inl (by simp only [seqRegs, A.seqCtl, A.tqSts]; omega)
  have hstall : OwnWork t q s (s.queueStalled t q cmd a) :=
    ownWork_trans (ownWork_trans (ownWork_setSeqState t q s 3) (ownWork_setSeq t q _ _)) (ownWork_raise _ _ _ htq)
  rw [s.stallQ_eq]
  split
  · exact hstall
  · exact ownWork_trans (ownWork_trans hstall ⟨fun _ _ => rfl, fun _ _ => rfl⟩) (ownWork_fire _ 1 ht (by decide))

theorem ownWork_fault {t q : Nat} (s : State) (f : FaultInfo) (bad : Option Nat) (ht : t < 32) : OwnWork t q s (s.fault t q f bad) := by
  have hsys := ownWork_sysRoutine t q s 0x1F00 bad
  have hstall (u : State) (h : OwnWork t q s u) : OwnWork t q s (u.stallQ t q .endMarker (.fault f)) :=
    ownWork_trans h (ownWork_stallQ u .endMarker (.fault f) ht)
  have hsend (u : State) (h : OwnWork t q s u) :
      OwnWork t q s ((u.sendCmd t q .endMarker (u.tc t q) none).enterFaulted t q f) :=
    ownWork_trans h (ownWork_trans (ownWork_sendCmd t q _ _ _ _) (ownWork_enterFaulted _ f ht))
  unfold State.fault
  generalize s.sysRoutine t q 0x1F00 bad = r at hsys
  obtain ⟨u, e⟩ := r
  cases e with
  | fault c a =>
    have hcount := ownWork_trans hsys (ownWork_countFault u 0xE ht)
    simp only
    split
    · exact hstall _ hcount
    · exact hsend _ hcount
  | waits a =>
    simp only
    split
    · exact ownWork_trans (hstall _ hsys) (ownWork_setSeq t q _ _)
    · exact hsend _ hsys
  | dn =>
    simp only
    split
    · exact hstall _ hsys
    · exact hsend _ hsys
  | sys a c =>
    simp only
    split
    · exact hstall _ hsys
    · exact hsend _ hsys

theorem ownWork_clearLoop (t q : Nat) (s : State) (i : Nat) (hi : i < 16) : OwnWork t q s (s.clearLoops t q [i]) := by
  have hse : routineRegs t q (A.seqLoopSe t q i) := .inl (by simp only [seqRegs, A.seqCtl, A.seqLoopSe]; omega)
  have hrem : routineRegs t q (A.seqLoopRem t q i) := .inl (by simp only [seqRegs, A.seqCtl, A.seqLoopRem]; omega)
  exact ownWork_trans (ownWork_setReg s 0 hse) (ownWork_setReg _ 0 hrem)

theorem State.depth_lt (s : State) (t q : Nat) : s.depth t q < 16 := getF_lt _ F.seqSts.loopDepth

theorem ownWork_loopTest (t q : Nat) (s : State) (pc fuel : Nat) : OwnWork t q s (s.loopTest t q pc fuel).1 := by
  induction fuel generalizing s with
  | zero => exact ownWork_refl t q s
  | succ n ih =>
    have hdepth := s.depth_lt t q
    have hrem : routineRegs t q (A.seqLoopRem t q (s.depth t q - 1)) :=
      .inl (by simp only [seqRegs, A.seqCtl, A.seqLoopRem]; omega)
    unfold State.loopTest
    simp only
    split
    · exact ownWork_refl t q s
    split
    · exact ownWork_refl t q s
    split
    · exact ownWork_setReg s _ hrem
    · exact ownWork_trans (ownWork_trans (ownWork_clearLoop t q s _ (by omega)) (ownWork_setReg _ _ (.inl (seqRegs_sts t q)))) (ih _)

theorem ownWork_complete {t q : Nat} (s : State) (bad : Option Nat) (ht : t < 32) : OwnWork t q s (s.complete t q bad) := by
  have htest := ownWork_trans (ownWork_addInstr t q s) (ownWork_loopTest t q (s.addInstr t q) (s.pc t q) 8)
  unfold State.complete
  simp only
  generalize (s.addInstr t q).loopTest t q (s.pc t q) 8 = r at htest
  have hcyc := ownWork_trans htest (ownWork_addCycles t q r.1 r.2.2)
  split
  · exact ownWork_trans hcyc (ownWork_setPc t q _ _)
  split
  · exact ownWork_trans hcyc (ownWork_trans (ownWork_addCycles t q _ 1) (ownWork_fault _ _ _ ht))
  · exact ownWork_trans hcyc (ownWork_setPc t q _ _)

/-! ### Waits that end -/

theorem ownWork_tail (t q : Nat) (s : State) (cyc std : Nat) (c : MicroCond) : OwnWork t q s (s.tail t q cyc std c).1 := by
  unfold State.tail
  simp only
  split
  · exact ownWork_refl t q s
  · next a _ =>
    have hhits (w : Option Nat) : OwnWork t q s ((s.countHits t (s.waitHits t a cyc ++ (microWalk (s.microFetch t)
        (s.microCond t q (s.insAt t q (s.pc t q)) (s.queueFull (sk t q)) c) (s.seq (sk t q)).bad 512 a).hits)).holdMicro t q none false w) := by
      refine ownWork_trans (ownWork_countHits t q s _ fun m hm => ?_) (ownWork_holdMicro t q _ _ _ _)
      rcases List.mem_append.1 hm with hm | hm
      · exact s.waitHits_lt t a cyc m hm
      · exact microWalk_hits_lt _ (fun a m => s.microFetch_hit_lt t a m) _ _ _ _ m hm
    split
    · exact hhits _
    · split
      · exact hhits _
      · exact hhits _

theorem ownWork_resume {t q : Nat} (s : State) (cyc : Nat) (r : MicroEnd × Nat) (k : State → State) (ht : t < 32)
    (hk : OwnWork t q s (k s)) : OwnWork t q s (s.resume t q cyc r k) := by
  unfold State.resume
  split
  · exact ownWork_trans (ownWork_trans (ownWork_microError t q s _) (ownWork_addCycles t q _ _)) (ownWork_fault _ _ _ ht)
  · exact ownWork_trans (ownWork_addCycles t q s _) (ownWork_holdMicro t q _ _ _ _)
  · split
    · exact ownWork_trans (ownWork_addCycles t q s _) (ownWork_fault _ _ _ ht)
    · exact hk
  · exact hk

theorem ownWork_releaseOne (tc b : Nat) (s : State) (k : Nat) (hk : k / 34 < 32) :
    OwnWork (k / 34) (k % 34) s (State.releaseOne tc b s k) := by
  have htc (v : Nat) : OwnWork (k / 34) (k % 34) s (s.setTc (k / 34) (k % 34) v) :=
    ownWork_setReg s _ (.inl (by simp only [seqRegs, A.seqCtl, A.seqTc]; omega))
  have hkeep (keep : Bool) : OwnWork (k / 34) (k % 34) s (if keep then s else s.setTc (k / 34) (k % 34) tc) := by
    cases keep
    · exact htc tc
    · exact ownWork_refl _ _ s
  unfold State.releaseOne
  simp only
  split
  · refine ownWork_trans (hkeep _) (ownWork_trans (ownWork_tail _ _ _ _ _ _) (ownWork_resume _ _ _ _ hk ?_))
    exact ownWork_trans (ownWork_trans (ownWork_addCycles _ _ _ _) (ownWork_unstall _ _ _)) (ownWork_complete _ _ hk)
  · exact ownWork_refl _ _ s

/-! ### A queue stall that ends (R71) -/

/-- A wait whose routine nothing has redirected ends as the instruction set says. -/
theorem State.tail_plain (s : State) (t q cyc std : Nat) (c : MicroCond) (h : (s.seq (sk t q)).micro = none) :
    s.tail t q cyc std c = (s, .dn, std) := by
  unfold State.tail
  simp [h]

/-- The sequencer in RUN again, its command in the queue. -/
def State.queueResumed (s : State) (t q cyc : Nat) (cmd : TqCmd) (stamp since : Nat) : State :=
  ((s.addCycles t q cyc).unstall t q).sendCmd t q cmd stamp (some since)

theorem exec_queueStallEnd_goes (s : State) (i : Tile) (q : Seq) (cyc stamp since : Nat) (cmd : TqCmd) (a : After)
    (h3 : s.seqState i q = 3) (hm : (s.seq (sk i q)).micro = none) (hst : (s.seq (sk i q)).stall = .queue cmd stamp a since)
    (hf : s.queueFull (sk i q) = false) : exec (.queueStallEnd i q cyc) s =
      .next ((s.queueResumed i q cyc cmd stamp since).after i q a (s.seq (sk i q)).bad) := by
  have htail := s.tail_plain i q cyc 0 {} hm
  rw [exec_queueStallEnd, execQueueStallEnd]
  simp only [hst, h3, hf, htail, onlyIf]
  cases a <;> simp [State.resume, State.queueResumed, State.after]

theorem State.queueResumed_spec (s : State) (t : Tile) (q : Seq) (cyc : Nat) (cmd : TqCmd) (stamp since : Nat) :
    let u := s.queueResumed t q cyc cmd stamp since
    SameRegs [A.seqSts t q, A.seqCycLo t q, A.seqCycHi t q] s u ∧ u.seqState t q = 2 ∧ u.depth t q = s.depth t q ∧
    (u.seq (sk t q)).stall = .none ∧ u.mem = s.mem ∧ u.evq = s.evq ∧
    (u.tq (sk t q)).flight = (s.tq (sk t q)).flight ++
      [{ cmd := cmd, stamp := stamp, sid := s.runSid t, issued := s.tm.now, stalledAt := some since }] := by
  have hcyc := regWork_addCycles s t q cyc
  have hstate := regWork_setSeqState (s.addCycles t q cyc) t q 2
  have hregs : SameRegs [A.seqSts t q, A.seqCycLo t q, A.seqCycHi t q] s (s.queueResumed t q cyc cmd stamp since) := fun a ha => by
    simp only [List.mem_cons, List.not_mem_nil, or_false, not_or] at ha
    exact (hstate.1 a (by simp [ha])).trans (hcyc.1 a (by simp [ha]))
  have hsts : A.seqSts t q ∉ [A.seqCycLo t q, A.seqCycHi t q] := by
    simp only [List.mem_cons, List.not_mem_nil, or_false, A.seqSts, A.seqCycLo, A.seqCycHi]
    omega
  have hseq : ((s.addCycles t q cyc).unstall t q).seq (sk t q) = { (s.addCycles t q cyc).seq (sk t q) with stall := .none } := by
    rw [State.unstall, State.seq_setSeq]
  refine ⟨hregs, State.seqState_setSeqState _ t q 2 (by decide), ?_, ?_, (regWork_mem hcyc : (s.addCycles t q cyc).mem = s.mem),
    (regWork_evq hcyc : (s.addCycles t q cyc).evq = s.evq), ?_⟩
  · exact (State.fld_setFld_disjoint (s.addCycles t q cyc) _ _ _ 2 (by decide) (by decide)).trans (State.depth_of_reg (hcyc.1 _ hsts))
  · rw [State.queueResumed, State.seq_sendCmd, hseq]
  · have hsid : ((s.addCycles t q cyc).unstall t q).runSid t = s.runSid t := State.runSid_of
      (fun a ha => hregs a (by
        simp only [List.mem_cons, List.not_mem_nil, or_false, A.seqSts, A.seqCycLo, A.seqCycHi]
        omega))
      (fun p => regWork_sched hcyc p) t
    have hnow : ((s.addCycles t q cyc).unstall t q).tm = s.tm :=
      (regWork_tm hcyc : (s.addCycles t q cyc).tm = s.tm)
    have htq : ((s.addCycles t q cyc).unstall t q).tq (sk t q) = s.tq (sk t q) := regWork_tq hcyc _
    rw [State.queueResumed, State.flight_sendCmd, hsid, hnow, htq]

/-- A patch changes nothing that the sequencers' registers tell. -/
theorem State.patched_of_sameRegs {s u : State} {l : List Nat} (t : Nat) (h : SameRegs l s u) (hl : ∀ m, m < 16 → A.ucMatch t m ∉ l) :
    u.patched t = s.patched t := by
  rw [Bool.eq_iff_iff]
  simp only [State.patched, List.any_eq_true, List.mem_range]
  exact exists_congr fun m => and_congr_right fun hm => by rw [State.on_of_reg (h _ (hl m hm))]

theorem completes_queueStallEnd_next (s : State) (i : Tile) (q : Seq) (cyc stamp since : Nat) (cmd : TqCmd) (h3 : s.seqState i q = 3)
    (hm : (s.seq (sk i q)).micro = none) (hst : (s.seq (sk i q)).stall = .queue cmd stamp .next since)
    (hf : s.queueFull (sk i q) = false) (hfall : FallsThrough s i q) : Completes (.queueStallEnd i q cyc) s fun t =>
      t.seqState i q = 2 ∧ (t.seq (sk i q)).stall = .none ∧ t.pc i q = s.pc i q + 1 ∧
      (t.tq (sk i q)).flight = (s.tq (sk i q)).flight ++
        [{ cmd := cmd, stamp := stamp, sid := s.runSid i, issued := s.tm.now, stalledAt := some since }] ∧
      SameRegs (A.seqSts i q :: seqMoves i q) s t := by
  obtain ⟨hregs, h2, hdepth, hnone, -, -, hflight⟩ := s.queueResumed_spec i q cyc cmd stamp since
  have hpc : (s.queueResumed i q cyc cmd stamp since).pc i q = s.pc i q := State.pc_of_reg (hregs _ (by
    simp only [List.mem_cons, List.not_mem_nil, or_false, A.seqPc, A.seqSts, A.seqCycLo, A.seqCycHi]
    omega))
  have hfalls : FallsThrough (s.queueResumed i q cyc cmd stamp since) i q := by
    unfold FallsThrough
    rw [hpc, hdepth, State.fld_of_reg (hregs _ (by
      simp only [List.mem_cons, List.not_mem_nil, or_false, A.seqLoopSe, A.seqSts, A.seqCycLo, A.seqCycHi]
      omega))]
    exact hfall
  obtain ⟨hwork, hnext⟩ := State.complete_falls _ i q (s.seq (sk i q)).bad hfalls
  refine completes_of_exec (exec_queueStallEnd_goes s i q cyc stamp since cmd .next h3 hm hst hf) ⟨?_, ?_, ?_, ?_, fun a ha => ?_⟩
  · exact (State.seqState_of_reg (hwork.1 _ (seqSts_not_moves i q))).trans h2
  · exact (congrArg SeqX.stall (regWork_seq hwork _)).trans hnone
  · exact hnext.trans (by rw [hpc])
  · exact (congrArg Tq.flight (regWork_tq hwork _)).trans hflight
  · rw [List.mem_cons, not_or] at ha
    refine (hwork.1 a ha.2).trans (hregs a ?_)
    simp only [List.mem_cons, List.not_mem_nil, or_false, not_or]
    exact ⟨ha.1, fun e => ha.2 (by simp [e, seqMoves]), fun e => ha.2 (by simp [e, seqMoves])⟩

theorem completes_queueStallEnd_preload (s : State) (i : Tile) (q : Seq) (cyc stamp since : Nat) (cmd : TqCmd) (h3 : s.seqState i q = 3)
    (hf : s.queueFull (sk i q) = false) (hm : (s.seq (sk i q)).micro = none) (hbad : (s.seq (sk i q)).bad = none)
    (hp : s.patched i = false) (hst : (s.seq (sk i q)).stall = .queue cmd stamp .preload since) :
    Completes (.queueStallEnd i q cyc) s fun t =>
      t.seqState i q = 1 ∧ (t.seq (sk i q)).stall = .none ∧ (t.seq (sk i q)).done = true ∧ Preloaded i q s t ∧
      (t.tq (sk i q)).flight = (s.tq (sk i q)).flight ++
        [{ cmd := cmd, stamp := stamp, sid := s.runSid i, issued := s.tm.now, stalledAt := some since }] := by
  obtain ⟨hregs, h2, hdepth, hnone, hmem, -, hflight⟩ := s.queueResumed_spec i q cyc cmd stamp since
  have hinstr := regWork_addInstr (s.queueResumed i q cyc cmd stamp since) i q
  have hpatched : ((s.queueResumed i q cyc cmd stamp since).addInstr i q).patched i = false :=
    ((State.patched_of_sameRegs i hinstr.1 fun m hm => by
        simp only [List.mem_cons, List.not_mem_nil, or_false, A.ucMatch, A.seqInstrLo, A.seqInstrHi]
        omega).trans
      (State.patched_of_sameRegs i hregs fun m hm => by
        simp only [List.mem_cons, List.not_mem_nil, or_false, A.ucMatch, A.seqSts, A.seqCycLo, A.seqCycHi]
        omega)).trans hp
  obtain ⟨hstate, hseq, ⟨hs, hd, hpc⟩, -, -, htq⟩ := State.preloadTo_spec ((s.queueResumed i q cyc cmd stamp since).addInstr i q) i q 1
    { (s.queueResumed i q cyc cmd stamp since).seq (sk i q) with stall := .none, done := true } q.isLt (by decide) hpatched
  have hexec := exec_queueStallEnd_goes s i q cyc stamp since cmd .preload h3 hm hst hf
  rw [hbad] at hexec
  refine completes_of_exec hexec ⟨hstate, ?_, ?_, ⟨fun k hk => ?_, hd, ?_⟩, ?_⟩
  · exact congrArg SeqX.stall hseq
  · exact congrArg SeqX.done hseq
  · refine (hs k hk).trans ((regWork_dm hinstr _ _ _).trans ?_)
    unfold State.dm State.word State.byte
    rw [hmem]
  · refine hpc.trans ((State.fld_of_reg (hinstr.1 _ ?_) _).trans (State.fld_of_reg (hregs _ ?_) _))
    · simp only [List.mem_cons, List.not_mem_nil, or_false, A.seqCtl, A.seqInstrLo, A.seqInstrHi]
      omega
    · simp only [List.mem_cons, List.not_mem_nil, or_false, A.seqCtl, A.seqSts, A.seqCycLo, A.seqCycHi]
      omega
  · exact (congrArg Tq.flight ((htq _).trans (regWork_tq hinstr _))).trans hflight

theorem completes_queueStallEnd_fault (s : State) (i : Tile) (q : Seq) (cyc stamp since : Nat) (cmd : TqCmd) (f : FaultInfo)
    (h3 : s.seqState i q = 3) (hf : s.queueFull (sk i q) = false) (hm : (s.seq (sk i q)).micro = none)
    (hst : (s.seq (sk i q)).stall = .queue cmd stamp (.fault f) since) : Completes (.queueStallEnd i q cyc) s fun t =>
      t.seqState i q = 6 ∧ (t.seq (sk i q)).stall = .none ∧ (t.tq (sk i q)).flight = (s.tq (sk i q)).flight ++
        [{ cmd := cmd, stamp := stamp, sid := s.runSid i, issued := s.tm.now, stalledAt := some since }] ∧
      t.pc i q = s.pc i q ∧ t.evq = s.evq ++ [(tileSrc i 2, 0)] ∧ CountsUp (A.seqFaultCnt i q) 1 s t ∧
      (s.on (A.seqFault i q) F.seqFault.valid = false →
        t.fld (A.seqFault i q) F.seqFault.cause = f.cause % 32 ∧ t.reg (A.seqFaultInfo i q) = f.info) := by
  obtain ⟨hregs, -, -, -, -, hevq, hflight⟩ := s.queueResumed_spec i q cyc cmd stamp since
  obtain ⟨hfregs, h6, hnone, htq, -, hfevq, hcount, -, hnew⟩ := (s.queueResumed i q cyc cmd stamp since).enterFaulted_spec i q f
  have hlt := evfSrcSts_tileSrc_lt i 2 (by decide)
  have hsame (a : Nat) (ha : A.seqPc i q = a ∨ A.seqFaultCnt i q = a ∨ A.seqFault i q = a) :
      (s.queueResumed i q cyc cmd stamp since).reg a = s.reg a := hregs a (by
    simp only [List.mem_cons, List.not_mem_nil, or_false, A.seqPc, A.seqFaultCnt, A.seqFault, A.seqSts, A.seqCycLo, A.seqCycHi] at ha ⊢
    omega)
  refine completes_of_exec (exec_queueStallEnd_goes s i q cyc stamp since cmd (.fault f) h3 hm hst hf)
    ⟨h6, hnone, ?_, ?_, ?_, ?_, fun hv => ?_⟩
  · exact (congrArg (fun m => (KMap.get {} m (sk i q)).flight) htq).trans hflight
  · refine (State.pc_of_reg (hfregs _ ?_)).trans (State.pc_of_reg (hsame _ (.inl rfl)))
    simp only [List.mem_cons, List.not_mem_nil, or_false, A.seqPc, A.seqSts, A.seqFault, A.seqFaultInfo, A.seqFaultCnt]
    omega
  · rw [State.after, hfevq, hevq]
  · unfold CountsUp at hcount ⊢
    rw [← hsame _ (.inr (.inl rfl))]
    exact hcount
  · obtain ⟨-, hcause, -, hinfo⟩ := hnew ((State.on_of_reg (hsame _ (.inr (.inr rfl))) _).trans hv)
    exact ⟨hcause, hinfo⟩

/-! ### END, EVT on a full queue, and SYNC -/

theorem completes_evt_full (s : State) (i : Tile) (q : Seq) (hpass : Passes s i q 0x06) (hf : s.queueFull (sk i q) = true) :
    Completes (.evt i q .clean) s fun t =>
      t.seqState i q = 3 ∧ t.on (A.tqSts i q) F.tqSts.stalled = true ∧ (t.tq (sk i q)).fullFired = true ∧
      (t.seq (sk i q)).stall = .queue (.evt (bits (s.insAt i q (s.pc i q)).sub 1 0)) (s.tc i q) .next s.tm.now ∧
      t.pc i q = s.pc i q ∧ (t.tq (sk i q)).flight = (s.tq (sk i q)).flight ∧
      t.evq = (if (s.tq (sk i q)).fullFired then s.evq else s.evq ++ [(tileSrc i 1, 0)]) := by
  have hcyc := regWork_addCycles s i q 2
  obtain ⟨h3, hon, hfired, hflight, hstall, hregs, hevq⟩ :=
    (s.addCycles i q 2).stallQ_spec i q (.evt (bits (s.insAt i q (s.pc i q)).sub 1 0)) .next
  have hlt := evfSrcSts_tileSrc_lt i 1 (by decide)
  have hexec : exec (.evt i q .clean) s = .next ((s.addCycles i q 2).stallQ i q (.evt (bits (s.insAt i q (s.pc i q)).sub 1 0)) .next) := by
    rw [exec_evt, execEvt, s.instrRow_passes i q 0x06 _ _ _ hpass rfl]
    simp only [State.finish, State.issue, regWork_queueFull hcyc, hf, if_true]
  refine completes_of_exec hexec ⟨h3, hon, hfired, ?_, ?_, ?_, ?_⟩
  · rw [hstall, regWork_tm hcyc, State.tc_of_reg (hcyc.1 _ ?_)]
    simp only [List.mem_cons, List.not_mem_nil, or_false, A.seqTc, A.seqCycLo, A.seqCycHi]
    omega
  · refine (State.pc_of_reg (hregs _ ?_)).trans (State.pc_of_reg (hcyc.1 _ ?_))
    · simp only [List.mem_cons, List.not_mem_nil, or_false, A.seqPc, A.seqSts, A.tqSts]
      omega
    · simp only [List.mem_cons, List.not_mem_nil, or_false, A.seqPc, A.seqCycLo, A.seqCycHi]
      omega
  · rw [hflight, regWork_tq hcyc]
  · rw [hevq, regWork_tq hcyc, regWork_evq hcyc]

/-- Registers of a sequencer that its cycle counter does not hold. -/
theorem State.reg_addCycles (s : State) (t q n a : Nat) (ha : a ≠ A.seqCycLo t q ∧ a ≠ A.seqCycHi t q) :
    (s.addCycles t q n).reg a = s.reg a := (regWork_addCycles s t q n).1 a (by simp [ha])

theorem State.runSid_addCycles (s : State) (t : Tile) (q n : Nat) : (s.addCycles t q n).runSid t = s.runSid t :=
  State.runSid_of (fun a ha => s.reg_addCycles t q n a (by simp only [A.seqCycLo, A.seqCycHi]; omega))
    (fun p => regWork_sched (regWork_addCycles s t q n) p) t

theorem State.patched_addCycles (s : State) (t q n : Nat) (hq : q < 34) : (s.addCycles t q n).patched t = s.patched t :=
  patched_of_seqWork (seqWork_addCycles s t q n) hq t

theorem completes_end (s : State) (i : Tile) (q : Seq) (hpass : Passes s i q 0x01) (hf : s.queueFull (sk i q) = false) :
    Completes (.endI i q .clean) s fun t =>
      t.seqState i q = 1 ∧ Preloaded i q s t ∧ Counts i q 6 s t ∧ (t.seq (sk i q)).done = true ∧
      (t.tq (sk i q)).flight = (s.tq (sk i q)).flight ++
        [{ cmd := .endMarker, stamp := s.tc i q, sid := s.runSid i, issued := s.tm.now }] := by
  obtain ⟨-, -, hp, -⟩ := id hpass
  have hcyc := regWork_addCycles s i q 2
  have hexec : exec (.endI i q .clean) s = .next
      ((((s.addCycles i q 2).sendCmd i q .endMarker ((s.addCycles i q 2).tc i q) none).addInstr i q).preloadTo i q 1
        { ((s.addCycles i q 2).sendCmd i q .endMarker ((s.addCycles i q 2).tc i q) none).seq (sk i q) with
          stall := .none, done := true }) := by
    rw [exec_endI, execEnd, s.instrRow_passes i q 0x01 _ _ _ hpass rfl]
    simp only [State.finish, State.issue, regWork_queueFull hcyc, hf, Bool.false_eq_true, if_false, State.after]
  generalize hu : (s.addCycles i q 2).sendCmd i q .endMarker ((s.addCycles i q 2).tc i q) none = u at hexec
  have hureg (a : Nat) (ha : a ≠ A.seqCycLo i q ∧ a ≠ A.seqCycHi i q) : u.reg a = s.reg a := by
    rw [← hu, State.reg_sendCmd]
    exact s.reg_addCycles i q 2 a ha
  have hinstr := regWork_addInstr u i q
  have hpatched : (u.addInstr i q).patched i = false := by
    rw [State.patched_of_sameRegs i hinstr.1 fun m hm => by
        simp only [List.mem_cons, List.not_mem_nil, or_false, A.ucMatch, A.seqInstrLo, A.seqInstrHi]
        omega, ← hu]
    exact (s.patched_addCycles i q 2 q.isLt).trans hp
  obtain ⟨hstate, hseq, ⟨hs, hd, hpc⟩, hcycles, hinstrs, htq⟩ := State.preloadTo_spec (u.addInstr i q) i q 1
    { u.seq (sk i q) with stall := .none, done := true } q.isLt (by decide) hpatched
  have hmem : u.mem = s.mem := by rw [← hu]; exact (regWork_mem hcyc : (s.addCycles i q 2).mem = s.mem)
  refine completes_of_exec hexec ⟨hstate, ⟨fun k hk => ?_, hd, ?_⟩, ⟨?_, ?_⟩, congrArg SeqX.done hseq, ?_⟩
  · refine (hs k hk).trans ((regWork_dm hinstr _ _ _).trans ?_)
    unfold State.dm State.word State.byte
    rw [hmem]
  · refine hpc.trans ((State.fld_of_reg (hinstr.1 _ ?_) _).trans (State.fld_of_reg (hureg _ ?_) _))
    · simp only [List.mem_cons, List.not_mem_nil, or_false, A.seqCtl, A.seqInstrLo, A.seqInstrHi]
      omega
    · simp only [A.seqCtl, A.seqCycLo, A.seqCycHi]
      omega
  · have hucyc : u.pair (A.seqCycLo i q) (A.seqCycHi i q) = (s.pair (A.seqCycLo i q) (A.seqCycHi i q) + 2) % 2 ^ 64 := by
      rw [← hu]
      exact s.pair_addCycles i q 2
    have hkept : (u.addInstr i q).pair (A.seqCycLo i q) (A.seqCycHi i q) = u.pair (A.seqCycLo i q) (A.seqCycHi i q) := by
      refine State.pair_of_reg (hinstr.1 _ ?_) (hinstr.1 _ ?_) <;>
        simp only [List.mem_cons, List.not_mem_nil, or_false, A.seqCycLo, A.seqCycHi, A.seqInstrLo, A.seqInstrHi] <;> omega
    rw [hcycles, hkept, hucyc]
    omega
  · have huinstr : u.pair (A.seqInstrLo i q) (A.seqInstrHi i q) = s.pair (A.seqInstrLo i q) (A.seqInstrHi i q) := by
      refine State.pair_of_reg (hureg _ ?_) (hureg _ ?_) <;>
        simp only [A.seqCycLo, A.seqCycHi, A.seqInstrLo, A.seqInstrHi] <;> omega
    rw [hinstrs, State.pair_addInstr, huinstr]
  · rw [htq, regWork_tq hinstr, ← hu, State.flight_sendCmd, regWork_tq hcyc, s.runSid_addCycles, regWork_tm hcyc,
      State.tc_of_reg (s.reg_addCycles i q 2 _ (by simp only [A.seqTc, A.seqCycLo, A.seqCycHi]; omega))]

/-- SYNC on a barrier that lists the sequencer: it waits (R108). -/
theorem completes_sync_waits (s : State) (i : Tile) (q : Seq) (hpass : Passes s i q 0x05)
    (hb : s.inBarrier i q (bits (s.insAt i q (s.pc i q)).sub 3 0) = true) : Completes (.sync i q .clean) s fun t =>
      t.seqState i q = 5 ∧ (t.seq (sk i q)).stall =
        .sync (bits (s.insAt i q (s.pc i q)).sub 3 0) ((s.insAt i q (s.pc i q)).flag 0) ∧
      t.pc i q = s.pc i q ∧ t.tc i q = s.tc i q := by
  have hstate := regWork_setSeqState (s.addCycles i q 2) i q 5
  have hkept (a : Nat) (ha : a = A.seqPc i q ∨ a = A.seqTc i q) : ((s.addCycles i q 2).setSeqState i q 5).reg a = s.reg a := by
    refine (hstate.1 a ?_).trans (s.reg_addCycles i q 2 a ?_)
    · simp only [List.mem_cons, List.not_mem_nil, or_false, A.seqSts, A.seqPc, A.seqTc] at ha ⊢
      omega
    · simp only [A.seqPc, A.seqTc, A.seqCycLo, A.seqCycHi] at ha ⊢
      omega
  have hexec : exec (.sync i q .clean) s = .next (((s.addCycles i q 2).setSeqState i q 5).setSeq (sk i q)
      { ((s.addCycles i q 2).setSeqState i q 5).seq (sk i q) with
        stall := .sync (bits (s.insAt i q (s.pc i q)).sub 3 0) ((s.insAt i q (s.pc i q)).flag 0) }) := by
    rw [exec_sync, execSync, s.instrRow_passes i q 0x05 _ _ _ hpass rfl]
    simp only [hb, Bool.not_true, Bool.false_eq_true, if_false, State.finish]
  refine completes_of_exec hexec ⟨State.seqState_setSeqState _ i q 5 (by decide), by rw [State.seq_setSeq], ?_, ?_⟩
  · exact State.pc_of_reg (hkept _ (.inl rfl))
  · exact State.tc_of_reg (hkept _ (.inr rfl))

/-- A fault before its sequencer has done anything, in a tile without patches and with room in the queue (R114). -/
theorem State.faults_spec (s : State) (i : Tile) (q : Seq) (cause : Nat) (info : Word) (n : Nat) (hc : cause < 32)
    (hp : s.patched i = false) (hf : s.queueFull (sk i q) = false) :
    Faults cause info i q s (s.finish i q n (.fault cause info n)) := by
  have hcyc := regWork_addCycles s i q n
  have heq : s.finish i q n (.fault cause info n) = ((s.addCycles i q n).sendCmd i q .endMarker ((s.addCycles i q n).tc i q)
      none).enterFaulted i q { cause := cause, info := info, pc := s.pc i q } :=
    State.fault_eq _ i q _ ((s.patched_addCycles i q n q.isLt).trans hp) ((regWork_queueFull hcyc _).trans hf)
  have htc : (s.addCycles i q n).tc i q = s.tc i q :=
    State.tc_of_reg (s.reg_addCycles i q n _ (by simp only [A.seqTc, A.seqCycLo, A.seqCycHi]; omega))
  have hflight := (s.addCycles i q n).flight_sendCmd i q .endMarker (s.tc i q) none
  rw [s.runSid_addCycles, regWork_tm hcyc, regWork_tq hcyc] at hflight
  rw [heq, htc]
  generalize hu : (s.addCycles i q n).sendCmd i q .endMarker (s.tc i q) none = u at hflight
  have hureg (a : Nat) (ha : a ≠ A.seqCycLo i q ∧ a ≠ A.seqCycHi i q) : u.reg a = s.reg a := by
    rw [← hu, State.reg_sendCmd]
    exact s.reg_addCycles i q n a ha
  have hcapt : u.reg (A.seqFault i q) = s.reg (A.seqFault i q) ∧ u.reg (A.seqFaultInfo i q) = s.reg (A.seqFaultInfo i q) ∧
      u.reg (A.seqFaultCnt i q) = s.reg (A.seqFaultCnt i q) := by
    refine ⟨hureg _ ?_, hureg _ ?_, hureg _ ?_⟩ <;>
      simp only [A.seqFault, A.seqFaultInfo, A.seqFaultCnt, A.seqCycLo, A.seqCycHi] <;> omega
  obtain ⟨hfault, hinfo, hcnt⟩ := hcapt
  have hmem : u.mem = s.mem := by rw [← hu]; exact (regWork_mem hcyc : (s.addCycles i q n).mem = s.mem)
  have hevq : u.evq = s.evq := by rw [← hu]; exact (regWork_evq hcyc : (s.addCycles i q n).evq = s.evq)
  have hpc : s.pc i q < 4096 := getF_lt _ F.seqPc.pc
  have hlt := evfSrcSts_tileSrc_lt i 2 (by decide)
  obtain ⟨hregs, h6, -, htq, hfmem, hfevq, hcount, hkept, hnew⟩ :=
    u.enterFaulted_spec i q { cause := cause, info := info, pc := s.pc i q }
  have hreg (a : Nat) (h1 : a ≠ A.seqCycLo i q ∧ a ≠ A.seqCycHi i q) (h2 : a ∉ [A.seqSts i q, A.seqFault i q, A.seqFaultInfo i q,
      A.seqFaultCnt i q, A.evfSrcSts (tileSrc i 2 / 32)]) :
      (u.enterFaulted i q { cause := cause, info := info, pc := s.pc i q }).reg a = s.reg a := (hregs a h2).trans (hureg a h1)
  refine ⟨h6, State.pc_of_reg (hreg _ ?_ ?_), State.tc_of_reg (hreg _ ?_ ?_), fun k hk => hreg _ ?_ ?_, ?_, fun hv => ?_, fun hv => ?_,
    ?_, ?_, fun a => ?_⟩
  · simp only [A.seqPc, A.seqCycLo, A.seqCycHi]; omega
  · simp only [List.mem_cons, List.not_mem_nil, or_false, A.seqPc, A.seqSts, A.seqFault, A.seqFaultInfo, A.seqFaultCnt]; omega
  · simp only [A.seqTc, A.seqCycLo, A.seqCycHi]; omega
  · simp only [List.mem_cons, List.not_mem_nil, or_false, A.seqTc, A.seqSts, A.seqFault, A.seqFaultInfo, A.seqFaultCnt]; omega
  · simp only [A.seqS, A.seqCycLo, A.seqCycHi]; omega
  · simp only [List.mem_cons, List.not_mem_nil, or_false, A.seqS, A.seqSts, A.seqFault, A.seqFaultInfo, A.seqFaultCnt]; omega
  · exact (congrArg (fun m => (KMap.get {} m (sk i q)).flight) htq).trans hflight
  · obtain ⟨h1, h2, h3, h4⟩ := hnew ((State.on_of_reg hfault _).trans hv)
    exact ⟨h1, h2.trans (Nat.mod_eq_of_lt hc), h3.trans (Nat.mod_eq_of_lt hpc), h4⟩
  · obtain ⟨h1, h2⟩ := hkept ((State.on_of_reg hfault _).trans hv)
    exact ⟨h1.trans hfault, h2.trans hinfo⟩
  · unfold CountsUp at hcount
    rw [hcount, hcnt]
  · rw [hfevq, hevq]
  · unfold State.byte
    rw [hfmem, hmem]

theorem completes_sync_absent (s : State) (i : Tile) (q : Seq) (hpass : Passes s i q 0x05) (hf : s.queueFull (sk i q) = false)
    (hb : s.inBarrier i q (bits (s.insAt i q (s.pc i q)).sub 3 0) = false) :
    Completes (.sync i q .clean) s fun t => Faults 0xC 0 i q s t := by
  obtain ⟨-, -, hp, -⟩ := id hpass
  have hexec : exec (.sync i q .clean) s = .next (s.finish i q 3 (.fault 0xC 0 3)) := by
    rw [exec_sync, execSync, s.instrRow_passes i q 0x05 _ _ _ hpass rfl]
    simp only [hb, Bool.not_false, if_true, State.finish]
  exact completes_of_exec hexec (s.faults_spec i q 0xC 0 3 (by decide) hp hf)

/-! ### The release of a barrier (R108) -/

/-- The largest value among those of a list that wait, from `m` on. -/
theorem foldl_max_spec (w : Nat → Bool) (f : Nat → Nat) (l : List Nat) (m : Nat) :
    let r := l.foldl (fun m k => if w k then max m (f k) else m) m
    m ≤ r ∧ (∀ k ∈ l, w k = true → f k ≤ r) ∧ (r = m ∨ ∃ k ∈ l, w k = true ∧ f k = r) := by
  induction l generalizing m with
  | nil => simp
  | cons j l ih =>
    obtain ⟨hm, hall, hex⟩ := ih (if w j then max m (f j) else m)
    rw [List.foldl_cons]
    cases hw : w j with
    | false =>
      simp only [hw, Bool.false_eq_true, if_false] at hm hall hex ⊢
      refine ⟨hm, fun k hk hwk => ?_, hex.imp id fun ⟨k, hk, h⟩ => ⟨k, List.mem_cons_of_mem j hk, h⟩⟩
      rcases List.mem_cons.1 hk with rfl | hk
      · rw [hw] at hwk
        exact absurd hwk (by decide)
      · exact hall k hk hwk
    | true =>
      simp only [hw, if_true] at hm hall hex ⊢
      refine ⟨by omega, fun k hk hwk => ?_, ?_⟩
      · rcases List.mem_cons.1 hk with rfl | hk
        · omega
        · exact hall k hk hwk
      · rcases hex with h | ⟨k, hk, h⟩
        · rcases Nat.le_total m (f j) with hle | hle
          · exact .inr ⟨j, List.mem_cons_self, hw, by omega⟩
          · exact .inl (by omega)
        · exact .inr ⟨k, List.mem_cons_of_mem j hk, h⟩

/-- TC of a release is the largest among those of the participants that wait (R108). -/
theorem State.syncTc_spec (s : State) (b : Nat) (ks : List Nat) (h : ∃ k ∈ ks, s.waitsAt b k = true) :
    (∃ k ∈ ks, s.waitsAt b k = true ∧ s.tc (k / 34) (k % 34) = s.syncTc b ks) ∧
    ∀ k ∈ ks, s.waitsAt b k = true → s.tc (k / 34) (k % 34) ≤ s.syncTc b ks := by
  obtain ⟨-, hall, hex⟩ := foldl_max_spec (s.waitsAt b) (fun k => s.tc (k / 34) (k % 34)) ks 0
  refine ⟨?_, hall⟩
  rcases hex with h0 | hex
  · obtain ⟨k, hk, hw⟩ := h
    have hle := hall k hk hw
    rw [h0] at hle
    exact ⟨k, hk, hw, (Nat.le_zero.1 hle).trans h0.symm⟩
  · exact hex

theorem sk_div (i : Nat) (q : Seq) : sk i q / 34 = i := by
  unfold sk
  omega

theorem sk_mod (i : Nat) (q : Seq) : sk i q % 34 = q := by
  unfold sk
  omega

theorem mem_participants {s : State} {p b k : Nat} (h : k ∈ s.participants p b) : k / 34 < 32 ∧ k / 34 ∈ s.tilesOf p := by
  unfold State.participants State.seqsOf at h
  obtain ⟨hk, -⟩ := List.mem_filter.1 h
  obtain ⟨t, ht, hk⟩ := List.mem_flatMap.1 hk
  obtain ⟨q, hq, rfl⟩ := List.mem_map.1 hk
  have hdiv := sk_div t ⟨q, List.mem_range.1 hq⟩
  rw [show sk t (⟨q, List.mem_range.1 hq⟩ : Seq).val = sk t q from rfl] at hdiv
  rw [hdiv]
  exact ⟨((mem_tilesOf s p t).1 ht).1, ht⟩

theorem nodup_participants (s : State) (p b : Nat) : (s.participants p b).Nodup := by
  refine List.Nodup.filter _ (List.nodup_flatMap.2 ⟨fun t _ => ?_, ?_⟩)
  · refine List.Nodup.map_on (fun q hq r hr h => ?_) List.nodup_range
    simp only [List.mem_range, sk] at hq hr h
    omega
  · refine List.Pairwise.imp (fun {t u} hne => ?_) (nodup_tilesOf s p)
    rw [Function.onFun, List.disjoint_left]
    intro k hk hk'
    simp only [List.mem_map, List.mem_range, sk] at hk hk'
    omega

/-- The registers and the hidden state of sequencer (i, q) are as they were. -/
def SeqKept (i q : Nat) (s u : State) : Prop := (∀ a, seqRegs i q a → u.reg a = s.reg a) ∧ u.seq (sk i q) = s.seq (sk i q)

theorem seqKept_refl (i q : Nat) (s : State) : SeqKept i q s s := ⟨fun _ _ => rfl, rfl⟩

theorem seqKept_trans (i q : Nat) (s t u : State) (h : SeqKept i q s t) (k : SeqKept i q t u) : SeqKept i q s u :=
  ⟨fun a ha => (k.1 a ha).trans (h.1 a ha), k.2.trans h.2⟩

/-- Work of another sequencer keeps this one. -/
theorem seqKept_of_ownWork {t r : Nat} {i : Tile} {q : Seq} {s u : State} (h : OwnWork t r s u) (hr : r < 34)
    (hne : sk t r ≠ sk i q) : SeqKept i q s u := by
  refine ⟨fun a ha => h.1 a fun hr' => ?_, h.2 _ hne.symm⟩
  simp only [seqRegs, routineRegs, A.seqCtl, sk] at ha hr' hne
  omega

/-- What a release does to a participant that waits for it with nothing redirected (R108). -/
theorem State.releaseOne_spec (s : State) (i : Tile) (q : Seq) (tc b : Nat) (na : Bool) (h5 : s.seqState i q = 5)
    (hst : (s.seq (sk i q)).stall = .sync b na) (hm : (s.seq (sk i q)).micro = none) (hf : FallsThrough s i q) (htc : tc < 2 ^ 32) :
    let u := State.releaseOne tc b s (sk i q)
    u.seqState i q = 2 ∧ (u.seq (sk i q)).stall = .none ∧ u.pc i q = s.pc i q + 1 ∧ u.tc i q = if na then s.tc i q else tc := by
  have hwaits : s.waitsAt b (sk i q) = true := by
    unfold State.waitsAt
    rw [sk_div, sk_mod, h5, hst]
    simp
  generalize hv : (if na then s else s.setTc i q tc) = v
  have hvwork : RegWork [A.seqTc i q] s v := by
    rw [← hv]
    split
    · exact regWork_refl _ s
    · exact regWork_setReg s _ _
  have hvm : (v.seq (sk i q)).micro = none := by rw [regWork_seq hvwork, hm]
  obtain ⟨n, hrel⟩ : ∃ n, State.releaseOne tc b s (sk i q) = ((v.addCycles i q n).unstall i q).complete i q (v.seq (sk i q)).bad := by
    unfold State.releaseOne
    simp only [sk_div, sk_mod, hwaits, if_true, hst, hv, State.tail_plain v i q _ 0 _ hvm, State.resume]
    exact ⟨_, rfl⟩
  have hreg (n a : Nat) (ha : a ∉ [A.seqTc i q, A.seqCycLo i q, A.seqCycHi i q, A.seqSts i q]) :
      ((v.addCycles i q n).unstall i q).reg a = s.reg a := by
    simp only [List.mem_cons, List.not_mem_nil, or_false, not_or] at ha
    obtain ⟨h1, h2, h3, h4⟩ := ha
    refine ((regWork_setSeqState (v.addCycles i q n) i q 2).1 a (by simp [h4])).trans ?_
    rw [v.reg_addCycles i q n a ⟨h2, h3⟩]
    exact hvwork.1 a (by simp [h1])
  have hpc : ((v.addCycles i q n).unstall i q).pc i q = s.pc i q := State.pc_of_reg (hreg n _ (by
    simp only [List.mem_cons, List.not_mem_nil, or_false, A.seqPc, A.seqTc, A.seqCycLo, A.seqCycHi, A.seqSts]
    omega))
  have hdepth : ((v.addCycles i q n).unstall i q).depth i q = s.depth i q := by
    refine (State.fld_setFld_disjoint (v.addCycles i q n) _ _ _ 2 (by decide) (by decide)).trans (State.fld_of_reg ?_ _)
    rw [v.reg_addCycles i q n _ (by simp only [A.seqSts, A.seqCycLo, A.seqCycHi]; omega)]
    exact hvwork.1 _ (by simp only [List.mem_singleton, A.seqSts, A.seqTc]; omega)
  have hfalls : FallsThrough ((v.addCycles i q n).unstall i q) i q := by
    unfold FallsThrough
    rw [hpc, hdepth, State.fld_of_reg (hreg n _ (by
      simp only [List.mem_cons, List.not_mem_nil, or_false, A.seqLoopSe, A.seqTc, A.seqCycLo, A.seqCycHi, A.seqSts]
      omega))]
    exact hf
  obtain ⟨hwork, hnext⟩ := State.complete_falls _ i q (v.seq (sk i q)).bad hfalls
  rw [hrel]
  refine ⟨?_, ?_, by rw [hnext, hpc], ?_⟩
  · exact (State.seqState_of_reg (hwork.1 _ (seqSts_not_moves i q))).trans (State.seqState_setSeqState _ i q 2 (by decide))
  · rw [regWork_seq hwork, State.unstall, State.seq_setSeq]
  · have htcm : A.seqTc i q ∉ seqMoves i q := by
      simp only [seqMoves, List.mem_cons, List.not_mem_nil, or_false, A.seqTc, A.seqPc, A.seqCycLo, A.seqCycHi, A.seqInstrLo,
        A.seqInstrHi]
      omega
    have htcv : ((v.addCycles i q n).unstall i q).reg (A.seqTc i q) = v.reg (A.seqTc i q) := by
      refine ((regWork_setSeqState (v.addCycles i q n) i q 2).1 _ ?_).trans (v.reg_addCycles i q n _ ?_)
      · simp only [List.mem_singleton, A.seqTc, A.seqSts]
        omega
      · simp only [A.seqTc, A.seqCycLo, A.seqCycHi]
        omega
    rw [State.tc_of_reg ((hwork.1 _ htcm).trans htcv), ← hv]
    cases na with
    | true => rfl
    | false =>
      have hset : (s.setTc i q tc).reg (A.seqTc i q) = BitVec.ofNat 32 tc := s.reg_setReg_same _ _
      simp only [Bool.false_eq_true, if_false, State.tc, hset, BitVec.toNat_ofNat]
      exact Nat.mod_eq_of_lt htc

/-- The release of a barrier, at one participant that waits (R108). -/
theorem completes_syncRelease (s : State) (p : Plot) (b : Fin 16) (hsome : ∃ k ∈ s.participants p b, s.waitsAt b k = true)
    (hall : ∀ k ∈ s.participants p b, s.waitsAt b k = true ∨ (s.seq k).done = true) :
    Completes (.syncRelease p b) s fun t => ∃ m : Nat,
      (∃ k ∈ s.participants p b, s.waitsAt b k = true ∧ s.tc (k / 34) (k % 34) = m) ∧
      (∀ k ∈ s.participants p b, s.waitsAt b k = true → s.tc (k / 34) (k % 34) ≤ m) ∧
      ∀ (i : Tile) (q : Seq) (na : Bool), sk i q ∈ s.participants p b → s.seqState i q = 5 →
        (s.seq (sk i q)).stall = .sync b na → (s.seq (sk i q)).micro = none → FallsThrough s i q →
        t.seqState i q = 2 ∧ (t.seq (sk i q)).stall = .none ∧ t.pc i q = s.pc i q + 1 ∧
        t.tc i q = if na then s.tc i q else m := by
  obtain ⟨hex, hmax⟩ := s.syncTc_spec b (s.participants p b) hsome
  have hexec : exec (.syncRelease p b) s =
      .next ((s.participants p b).foldl (State.releaseOne (s.syncTc b (s.participants p b)) b) s) := by
    have hcond : ((s.participants p b).any (s.waitsAt b) && (s.participants p b).all fun k => s.waitsAt b k || (s.seq k).done) = true := by
      simp only [Bool.and_eq_true, List.any_eq_true, List.all_eq_true, Bool.or_eq_true]
      exact ⟨hsome, hall⟩
    rw [exec_syncRelease, execSyncRelease]
    simp only [hcond, onlyIf, if_true]
  have htc : s.syncTc b (s.participants p b) < 2 ^ 32 := by
    obtain ⟨k, -, -, hk⟩ := hex
    rw [← hk]
    exact (s.reg _).isLt
  refine completes_of_exec hexec ⟨_, hex, hmax, fun i q na hk h5 hst hm hf => ?_⟩
  obtain ⟨u, hu, hend⟩ := foldl_once (seqKept_refl i q) (seqKept_trans i q) (State.releaseOne (s.syncTc b (s.participants p b)) b)
    (sk i q) (s.participants p b) (fun v k hk' hne => seqKept_of_ownWork (ownWork_releaseOne _ _ v k (mem_participants hk').1)
      (Nat.mod_lt _ (by decide)) (by unfold sk at hne ⊢; omega)) (nodup_participants s p b) hk s
  have hreg (a : Nat) (ha : seqRegs i q a) : u.reg a = s.reg a := hu.1 a ha
  have hsts := hreg _ (seqRegs_sts i q)
  have hpc : u.pc i q = s.pc i q := State.pc_of_reg (hreg _ (seqRegs_pc i q))
  have hdepth : u.depth i q = s.depth i q := State.depth_of_reg hsts
  have hfalls : FallsThrough u i q := by
    have hlt := s.depth_lt i q
    unfold FallsThrough
    rw [hpc, hdepth, State.fld_of_reg (hreg _ (by simp only [seqRegs, A.seqCtl, A.seqLoopSe]; omega))]
    exact hf
  have htcu : u.tc i q = s.tc i q := State.tc_of_reg (hreg _ (by simp only [seqRegs, A.seqCtl, A.seqTc]; omega))
  obtain ⟨h2, hnone, hnext, htcr⟩ := u.releaseOne_spec i q (s.syncTc b (s.participants p b)) b na ((State.seqState_of_reg hsts).trans h5)
    (by rw [hu.2, hst]) (by rw [hu.2, hm]) hfalls htc
  refine ⟨?_, ?_, ?_, ?_⟩
  · exact (State.seqState_of_reg (hend.1 _ (seqRegs_sts i q))).trans h2
  · rw [hend.2, hnone]
  · rw [State.pc_of_reg (hend.1 _ (seqRegs_pc i q)), hnext, hpc]
  · rw [State.tc_of_reg (hend.1 _ (by simp only [seqRegs, A.seqCtl, A.seqTc]; omega)), htcr, htcu]

/-- Settles O24: one rule per instruction and per wait that ends; a release acts once at each participant, and what the others do
stays among their own registers. -/
theorem stallsEndsAndBarriers : Obligations.StallsEndsAndBarriers := by
  unfold Obligations.StallsEndsAndBarriers
  refine ⟨⟨completes_evt_full, completes_queueStallEnd_next, fun s i q cyc stamp since cmd f h3 hf hm hbad hp => ⟨?_, ?_⟩, completes_end⟩,
    fun s i q hpass => ⟨completes_sync_waits s i q hpass, completes_sync_absent s i q hpass⟩, completes_syncRelease⟩
  · exact completes_queueStallEnd_preload s i q cyc stamp since cmd h3 hf hm hbad hp
  · exact completes_queueStallEnd_fault s i q cyc stamp since cmd f h3 hf hm

end Sys2Proof.Machine
end

section
/-! ## Bus mastering comes with the Function Mask (R377, R379) -/

namespace Sys2Proof.Machine

open Sys2Proof.Safety

/-- A vector that is masked keeps its pending bit (R379). -/
theorem State.msixRelease_masked (s : State) (v : Nat) (h : s.msixMasked v = true) : s.msixRelease v = s := by
  simp [State.msixRelease, h]

/-- Under the Function Mask every vector is masked. -/
theorem State.msixMasked_of_mask (s : State) (v : Nat) (h : s.pcie.msixMask = true) : s.msixMasked v = true := by
  simp [State.msixMasked, h]

/-- Under the Function Mask nothing pending is sent, and where no response waits nothing changes. -/
theorem State.dmaResume_masked (s : State) (h : s.pcie.msixMask = true) (hw : s.rings = []) : s.dmaResume = s := by
  have hvectors (l : List Nat) : l.foldl State.msixRelease s = s := by
    induction l with
    | nil => rfl
    | cons v l ih => rw [List.foldl_cons, s.msixRelease_masked v (s.msixMasked_of_mask v h), ih]
  have hplots (l : List Nat) : l.foldl (fun s p => s.rspFlush p (s.ring p).rspWait.length) s = s := by
    induction l with
    | nil => rfl
    | cons p l ih =>
      have hnone : (s.ring p).rspWait = [] := by rw [State.ring, hw]; rfl
      rw [List.foldl_cons, hnone]
      exact ih
  rw [State.dmaResume, hvectors, hplots]

/-- MSI-X is enabled, vector 0 is not masked, and its message is pending. -/
def pendingVectorState : State := { State.reset with
  regs := [(A.msixTable 3, 0), (A.msixPba 0, 1)]
  pcie := { perst := false, msixEn := true } }

/-- The write that sets Bus Master Enable and the Function Mask. -/
def maskingWrite : PciCtl := { busMaster := true, mps := 0, readReq := 0, relaxed := false, msixEn := true, msixMask := true }

theorem pendingVectorState_unmasked : pendingVectorState.msixMasked 0 = false := by decide +kernel

/-- The write leaves the pending bit of vector 0 as it was. -/
theorem exec_maskingWrite (t : State) (h : exec (.busMasterEnableWrite maskingWrite) pendingVectorState = .next t) :
    t.reg (A.msixPba 0) = 1 := by
  rw [exec_busMasterEnableWrite, execBusMasterEnableWrite] at h
  obtain rfl := Host.Outcome.next.inj h
  rw [State.dmaResume_masked _ rfl rfl]
  decide +kernel

/-- Refutes O48: its clause on Bus Master Enable asks of every vector that was unmasked before the write that its message goes out. The
same write may set the Function Mask, and then the message of vector 0 stays pending. -/
theorem not_resetsAndStartUp : ¬ Obligations.ResetsAndStartUp := by
  unfold Obligations.ResetsAndStartUp
  rintro ⟨⟨-, -, hmaster, -, -⟩, -⟩
  obtain ⟨t, ht, -, -, -, -, hsent⟩ := hmaster pendingVectorState maskingWrite
  have hclear := hsent rfl 0 (by decide) pendingVectorState_unmasked
  rw [exec_maskingWrite t ht] at hclear
  exact absurd hclear (by decide)

end Sys2Proof.Machine
end

section
/-! ## Beside the runs: what leaves the clocks, the plots' run registers and their schedulers alone -/

namespace Sys2Proof.Machine

open Sys2Proof.Safety

/-- The registers that the runs rest on: the tiles' enables and plots, the device time and the plots' shot blocks, and their coordination. -/
def RunReg (a : Nat) : Prop := a < 0x100 ∨ (0x300000 ≤ a ∧ a < 0x302000) ∨ (0x500500 ≤ a ∧ a < 0x500600)

/-- A shot without what the work in its tiles adds to it: its flags and its late queues. -/
def Shot.bare (h : Shot) : Shot := { h with flags := 0, lateQ := [] }

/-- A scheduler without the flags of its shots and the pauses that wait for a gap. -/
def Sched.bare (c : Sched) : Sched := { c with shots := c.shots.map Shot.bare, pauses := [], coord := [] }

/-- Work beside the runs: the clocks stand, the run registers and the schedulers keep what is theirs, and no queue but those of `Q` changed. -/
structure Beside (Q : Nat → Prop) (s u : State) : Prop where
  regs : ∀ a, RunReg a → u.reg a = s.reg a
  queues : ∀ k, ¬ Q k → u.tq k = s.tq k
  clocks : u.tm = s.tm ∧ u.ptp = s.ptp ∧ u.aon = s.aon
  pair : u.pair2 = s.pair2
  fired : ∃ l, u.evq = s.evq ++ l
  runs : ∀ p, (u.sched p).bare = (s.sched p).bare

theorem beside_refl (Q : Nat → Prop) (s : State) : Beside Q s s :=
  ⟨fun _ _ => rfl, fun _ _ => rfl, ⟨rfl, rfl, rfl⟩, rfl, ⟨[], by simp⟩, fun _ => rfl⟩

theorem beside_trans (Q : Nat → Prop) (s t u : State) (h : Beside Q s t) (k : Beside Q t u) : Beside Q s u := by
  obtain ⟨htm, hptp, haon⟩ := h.clocks
  obtain ⟨ktm, kptp, kaon⟩ := k.clocks
  obtain ⟨l, hl⟩ := h.fired
  obtain ⟨m, hm⟩ := k.fired
  exact ⟨fun a ha => (k.regs a ha).trans (h.regs a ha), fun j hj => (k.queues j hj).trans (h.queues j hj),
    ⟨ktm.trans htm, kptp.trans hptp, kaon.trans haon⟩, k.pair.trans h.pair, ⟨l ++ m, by rw [hm, hl, List.append_assoc]⟩,
    fun p => (k.runs p).trans (h.runs p)⟩

theorem Beside.then {Q : Nat → Prop} {s t u : State} (h : Beside Q s t) (k : Beside Q t u) : Beside Q s u := beside_trans Q s t u h k

/-- A pass over a list of numbers works beside the runs where each of its turns does. -/
theorem beside_foldl {Q : Nat → Prop} (g : State → Nat → State) (l : List Nat) (hg : ∀ s, ∀ q ∈ l, Beside Q s (g s q)) (s : State) :
    Beside Q s (l.foldl g s) := foldl_rel (beside_refl Q) (beside_trans Q) g l hg s

theorem beside_range {Q : Nat → Prop} (g : State → Nat → State) (n : Nat) (hg : ∀ s i, i < n → Beside Q s (g s i)) (s : State) :
    Beside Q s ((List.range n).foldl g s) := beside_foldl g _ (fun s i hi => hg s i (List.mem_range.1 hi)) s

theorem beside_ite {Q : Nat → Prop} {c : Prop} [Decidable c] {s t u : State} (ht : Beside Q s t) (hu : Beside Q s u) :
    Beside Q s (if c then t else u) := by
  split
  · exact ht
  · exact hu

section
variable {Q : Nat → Prop} {s u : State}

/-- Where only hidden state beside the runs changed. -/
theorem beside_hidden (hregs : u.regs = s.regs) (htqs : u.tqs = s.tqs) (htm : u.tm = s.tm) (hptp : u.ptp = s.ptp) (haon : u.aon = s.aon)
    (hpair : u.pair2 = s.pair2) (hevq : u.evq = s.evq) (hscheds : u.scheds = s.scheds) : Beside Q s u :=
  ⟨fun a _ => State.reg_of_regs hregs a, fun k _ => by rw [State.tq, htqs]; rfl, ⟨htm, hptp, haon⟩, hpair, ⟨[], by simp [hevq]⟩,
    fun p => by rw [State.sched, hscheds]; rfl⟩

/-- Work on sequencers of the tiles (SEQ registers, hidden state, markers) stands beside the runs. -/
theorem beside_seqWork (h : SeqWork (0x1000000 ≤ ·) s u) : Beside Q s u := by
  obtain ⟨hregs, honly⟩ := h
  refine ⟨fun a ha => hregs a fun hge => ?_, fun k _ => by rw [honly]; rfl, by rw [honly]; exact ⟨rfl, rfl, rfl⟩, by rw [honly],
    ⟨[], by rw [honly]; simp⟩, fun p => by rw [honly]; rfl⟩
  simp only [RunReg] at ha
  omega

theorem Beside.reg (h : Beside Q s u) (a : Nat) (ha : RunReg a) : u.reg a = s.reg a := h.regs a ha

theorem Beside.DT (h : Beside Q s u) : u.DT = s.DT := by rw [State.DT, h.clocks.1]; rfl

theorem Beside.tilesOf (h : Beside Q s u) (p : Nat) : u.tilesOf p = s.tilesOf p :=
  State.tilesOf_of_reg (fun a ha => h.regs a (.inl ha)) p

end

/-! ### One rule per operation -/

section
variable {Q : Nat → Prop} (s : State)

theorem beside_setReg {a : Nat} (v : Word) (ha : ¬ RunReg a) : Beside Q s (s.setReg a v) :=
  ⟨fun _ hb => s.reg_setReg_ne v fun h => ha (h ▸ hb), fun _ _ => rfl, ⟨rfl, rfl, rfl⟩, rfl, ⟨[], by simp⟩, fun _ => rfl⟩

theorem beside_raise {a : Nat} (f : Fld) (x : Nat) (ha : ¬ RunReg a) : Beside Q s (s.raise a f x) :=
  ⟨fun _ hb => s.reg_setReg_ne _ fun h => ha (h ▸ hb), fun _ _ => rfl, ⟨rfl, rfl, rfl⟩, rfl, ⟨[], by simp⟩, fun _ => rfl⟩

theorem beside_bumpBy {a : Nat} (n : Nat) (ha : ¬ RunReg a) : Beside Q s (s.bumpBy a n) := beside_setReg s _ ha

theorem beside_bump {a : Nat} (ha : ¬ RunReg a) : Beside Q s (s.bump a) := beside_setReg s _ ha

theorem beside_setFld {a : Nat} (f : Fld) (x : Nat) (ha : ¬ RunReg a) : Beside Q s (s.setFld a f x) := beside_setReg s _ ha

/-- The sources that the part has fire beside the runs: their status registers lie below the device time. -/
theorem beside_fire (src : Nat) (h : src < 8000000) : Beside Q s (s.fire src) := by
  have ha : ¬ RunReg (A.evfSrcSts (src / 32)) := by simp only [RunReg, A.evfSrcSts]; omega
  exact ⟨fun _ hb => s.reg_setReg_ne _ fun h => ha (h ▸ hb), fun _ _ => rfl, ⟨rfl, rfl, rfl⟩, rfl, ⟨[(src, 0)], rfl⟩, fun _ => rfl⟩

theorem beside_fire_tile {t k : Nat} (ht : t < 32) (hk : k < 40) : Beside Q s (s.fire (tileSrc t k)) :=
  beside_fire s _ (by simp only [tileSrc]; omega)

theorem beside_setTq {k : Nat} (x : Tq) (hk : Q k) : Beside Q s (s.setTq k x) :=
  ⟨fun _ _ => rfl, fun j hj => KMap.get_set_ne _ _ _ _ fun h => hj (h ▸ hk), ⟨rfl, rfl, rfl⟩, rfl, ⟨[], by simp⟩, fun _ => rfl⟩

end

theorem bare_flags (h : Shot) (fl : BitVec 16) : { h with flags := h.flags ||| fl }.bare = h.bare := rfl

/-- A change of shots that only their flags show stands beside the runs. -/
theorem beside_mapShots {Q : Nat → Prop} (s : State) (p : Nat) (which : Shot → Bool) (f : Shot → Shot) (hf : ∀ h, (f h).bare = h.bare) :
    Beside Q s (s.mapShots p which f) := by
  refine ⟨fun _ _ => rfl, fun _ _ => rfl, ⟨rfl, rfl, rfl⟩, rfl, ⟨[], by simp [State.mapShots, State.setSched]⟩, fun q => ?_⟩
  by_cases hq : q = p
  · subst hq
    have hshots : ((s.sched q).shots.map fun h => if which h then f h else h).map Shot.bare = (s.sched q).shots.map Shot.bare := by
      rw [List.map_map]
      refine List.map_congr_left fun h _ => ?_
      simp only [Function.comp_apply]
      split
      · exact hf h
      · rfl
    rw [State.mapShots, State.sched_setSched]
    simp only [Sched.bare, hshots]
  · rw [State.mapShots, State.sched_setSched_ne _ _ hq]

theorem beside_flagShot {Q : Nat → Prop} (s : State) (p sid : Nat) (fl : BitVec 16) : Beside Q s (s.flagShot p sid fl) :=
  beside_mapShots s p _ _ fun h => bare_flags h fl

/-- A pause asked of a scheduler stands beside the runs. -/
theorem beside_pauses {Q : Nat → Prop} (s : State) (p : Nat) (ps : List PauseReq) (cs : List (Word × PauseReq)) :
    Beside Q s (s.setSched p { s.sched p with pauses := ps, coord := cs }) := by
  refine ⟨fun _ _ => rfl, fun _ _ => rfl, ⟨rfl, rfl, rfl⟩, rfl, ⟨[], by simp [State.setSched]⟩, fun q => ?_⟩
  by_cases hq : q = p
  · subst hq
    rw [State.sched_setSched]
    rfl
  · rw [State.sched_setSched_ne _ _ hq]

end Sys2Proof.Machine
end

section
/-! ## The tiles' work beside the runs: sequencers, channels, descriptors, lanes -/

namespace Sys2Proof.Machine

open Sys2Proof.Safety

theorem not_runReg_tile {a : Nat} (h : 0x1000000 ≤ a) : ¬ RunReg a := by
  simp only [RunReg]
  omega

theorem beside_regWork {Q : Nat → Prop} {l : List Nat} {s u : State} (h : RegWork l s u) (hl : ∀ a ∈ l, ¬ RunReg a) : Beside Q s u := by
  obtain ⟨hregs, honly⟩ := h
  exact ⟨fun a ha => hregs a fun hm => hl a hm ha, fun k _ => by rw [honly]; rfl, by rw [honly]; exact ⟨rfl, rfl, rfl⟩, by rw [honly],
    ⟨[], by rw [honly]; simp⟩, fun p => by rw [honly]; rfl⟩

section
variable {Q : Nat → Prop} (s : State)

/-! ### Sequencers -/

theorem beside_setSeqState (t q code : Nat) : Beside Q s (s.setSeqState t q code) :=
  beside_setReg s _ (not_runReg_tile (by simp only [A.seqSts]; omega))

theorem beside_setSeq (k : Nat) (x : SeqX) : Beside Q s (s.setSeq k x) := beside_hidden rfl rfl rfl rfl rfl rfl rfl rfl

theorem beside_faultCaptured (t q : Nat) (f : FaultInfo) : Beside Q s (s.faultCaptured t q f) :=
  beside_regWork (regWork_faultCaptured s t q f) fun a ha => not_runReg_tile (by
    simp only [List.mem_cons, List.not_mem_nil, or_false, A.seqFault, A.seqFaultInfo] at ha
    omega)

theorem beside_countFault {t : Nat} (q cause : Nat) (ht : t < 32) : Beside Q s (s.countFault t q cause) := by
  have hcfg (c : CfgX) : Beside Q s ((({ s with cfg := c } : State).bump (A.seqFaultCnt t q)).fire (tileSrc t 2)) := by
    have hbook : Beside Q s { s with cfg := c } := beside_hidden rfl rfl rfl rfl rfl rfl rfl rfl
    exact (hbook.then (beside_bump _ (not_runReg_tile (by simp only [A.seqFaultCnt]; omega)))).then (beside_fire_tile _ ht (by decide))
  unfold State.countFault
  simp only
  split
  · exact hcfg _
  · exact hcfg s.cfg

theorem beside_enterFaulted {t : Nat} (q : Nat) (f : FaultInfo) (ht : t < 32) : Beside Q s (s.enterFaulted t q f) := by
  have hfault : Beside Q s (((s.faulting t q).faultCaptured t q f).countFault t q f.cause) :=
    (((beside_setSeqState s t q 6).then (beside_setSeq _ _ _)).then (beside_faultCaptured _ t q f)).then
      (beside_countFault _ q f.cause ht)
  have h : s.enterFaulted t q f = (match (((s.faulting t q).faultCaptured t q f).countFault t q f.cause).plotOf t with
    | some p => (match (((s.faulting t q).faultCaptured t q f).countFault t q f.cause).current p with
      | some h => (((s.faulting t q).faultCaptured t q f).countFault t q f.cause).flagShot p h.sid Flag.taint
      | none => ((s.faulting t q).faultCaptured t q f).countFault t q f.cause)
    | none => ((s.faulting t q).faultCaptured t q f).countFault t q f.cause) := rfl
  rw [h]
  split
  · split
    · exact hfault.then (beside_flagShot _ _ _ _)
    · exact hfault
  · exact hfault

theorem beside_microError (t c : Nat) : Beside Q s (s.microError t c) := by
  have hsts (f : Fld) : Beside Q s (s.raise (A.ucSts t) f 1) := beside_raise s f 1 (not_runReg_tile (by simp only [A.ucSts]; omega))
  unfold State.microError
  exact beside_ite ((hsts _).then (beside_bump _ (not_runReg_tile (by simp only [A.ucParCnt]; omega)))) (hsts _)

theorem beside_countHits (t : Nat) (l : List Nat) : Beside Q s (s.countHits t l) := beside_seqWork (seqWork_countHits s t l)

theorem beside_sysRoutine (t q a : Nat) (bad : Option Nat) : Beside Q s (s.sysRoutine t q a bad).1 := by
  unfold State.sysRoutine
  split
  · simp only
    split
    · exact (beside_countHits s t _).then (beside_microError _ t _)
    · exact beside_countHits s t _
  · exact beside_refl Q s

theorem beside_preloadTo {t : Nat} (q code : Nat) (x : SeqX) (bad : Option Nat) (ht : t < 32) :
    Beside Q s (s.preloadTo t q code x bad) := by
  have hroutine : Beside Q s ((s.preload t q).sysRoutine t q 0x1F80 bad).1 :=
    (beside_seqWork (seqWork_mono (fun _ => seqRegs_ge) (seqWork_preload s t q))).then (beside_sysRoutine _ t q 0x1F80 bad)
  unfold State.preloadTo
  simp only
  split
  · exact (hroutine.then (beside_setSeq _ _ x)).then (beside_enterFaulted _ q _ ht)
  · exact (hroutine.then (beside_setSeqState _ t q code)).then (beside_setSeq _ _ x)

theorem beside_rearm {t : Nat} (q : Nat) (ht : t < 32) : Beside Q s (s.rearm t q) := beside_preloadTo s q 1 {} none ht

theorem beside_stallCut (t q : Nat) : Beside Q s (s.stallCut t q) := beside_seqWork (seqWork_stallCut s t q)

theorem beside_queueFault {t : Nat} (q : Nat) (ht : t < 32) : Beside Q s (s.queueFault t q) := by
  unfold State.queueFault
  split
  · exact (beside_stallCut s t q).then (beside_enterFaulted _ q _ ht)
  · exact beside_refl Q s

theorem beside_seqCut {t : Nat} (q : Nat) (ht : t < 32) : Beside Q s (s.seqCut t q) := by
  have hthen (u : State) (h : Beside Q s u) : Beside Q s (if u.seqState t q = 6 then u
      else if s.seqState t q = 2 || s.seqState t q = 3 || s.seqState t q = 4 || s.seqState t q = 5 then u.rearm t q else u) :=
    beside_ite h (beside_ite (h.then (beside_rearm u q ht)) h)
  unfold State.seqCut
  simp only
  split
  · exact hthen _ ((beside_stallCut s t q).then (beside_enterFaulted _ q _ ht))
  · exact hthen _ (beside_stallCut s t q)

theorem beside_seqShotEnd {t : Nat} (q : Nat) (ht : t < 32) : Beside Q s (s.seqShotEnd t q) := by
  unfold State.seqShotEnd
  exact beside_ite (beside_rearm s q ht) (beside_ite (beside_rearm s q ht) (beside_refl Q s))

/-! ### Channels and descriptors -/

theorem beside_setChan (t n : Nat) (x : Chan) : Beside Q s (s.setChan t n x) := beside_hidden rfl rfl rfl rfl rfl rfl rfl rfl

theorem beside_setDec (t d : Nat) (x : DdX) : Beside Q s (s.setDec t d x) := beside_hidden rfl rfl rfl rfl rfl rfl rfl rfl

theorem beside_ddSts (t d : Nat) (f : Fld) (v : Nat) : Beside Q s (s.setFld (A.ddSts t d) f v) :=
  beside_setReg s _ (not_runReg_tile (by simp only [A.ddSts]; omega))

theorem beside_askChunks {t : Nat} (d : Nat) (ks : List Nat) (ht : t < 32) : Beside Q s (s.askChunks t d ks) := by
  unfold State.askChunks
  refine beside_ite (beside_refl Q s) (beside_ite (beside_hidden rfl rfl rfl rfl rfl rfl rfl rfl) ?_)
  exact (((beside_ddSts s t d _ 4).then (beside_ddSts _ t d _ 1)).then (beside_setDec _ t d _)).then (beside_fire_tile _ ht (by decide))

/-- A descriptor primes beside the runs (R150–R152). -/
theorem beside_prime {t : Nat} (d : Nat) (ht : t < 32) : Beside Q s (s.prime t d) := by
  have hclear : Beside Q s ((s.setFld (A.ddSts t d) F.ddSts.errCause 0).setReg (A.ddChunk t d) 0) :=
    (beside_ddSts s t d _ 0).then (beside_setReg _ 0 (not_runReg_tile (by simp only [A.ddChunk]; omega)))
  unfold State.prime
  simp only
  split
  · exact ((hclear.then (beside_ddSts _ t d _ _)).then (beside_ddSts _ t d _ _)).then (beside_setDec _ t d _)
  · split
    · exact (((hclear.then (beside_ddSts _ t d _ _)).then (beside_raise _ _ _ (not_runReg_tile (by simp only [A.ddSts]; omega)))).then
        (beside_ddSts _ t d _ _)).then (beside_setDec _ t d _)
    · exact (((hclear.then (beside_ddSts _ t d _ _)).then (beside_ddSts _ t d _ _)).then (beside_setDec _ t d _)).then
        (beside_askChunks _ d _ ht)

theorem beside_reprimeAfter {t : Nat} (d : Nat) (ht : t < 32) : Beside Q s (s.reprimeAfter t d) := by
  unfold State.reprimeAfter
  exact beside_ite (beside_setDec s t d _) ((beside_setDec s t d _).then (beside_prime _ d ht))

theorem beside_stopPlay {t : Nat} (n : Nat) (ht : t < 32) : Beside Q s (s.stopPlay t n) := by
  unfold State.stopPlay
  split
  · exact beside_refl Q s
  · exact beside_ite ((beside_setChan s t n _).then (beside_reprimeAfter _ _ ht)) (beside_setChan s t n _)

theorem beside_playbacksEnd {t : Nat} (n : Nat) (c : Playing → Bool) (ht : t < 32) : Beside Q s (s.playbacksEnd t n c) :=
  beside_range _ 16 (fun u d _ => by
    split
    · exact beside_ite (beside_reprimeAfter u d ht) (beside_refl Q u)
    · exact beside_refl Q u) s

theorem beside_idleChan {t : Nat} (n : Nat) (ht : t < 32) : Beside Q s (s.idleChan t n) :=
  ((beside_stopPlay s n ht).then (beside_playbacksEnd _ n _ ht)).then (beside_setChan _ t n _)

/-! ### Lanes -/

theorem beside_modLane (t p : Nat) (f : LaneX → LaneX) : Beside Q s (s.modLane t p f) := beside_hidden rfl rfl rfl rfl rfl rfl rfl rfl

theorem beside_setBank (t p d : Nat) (x : BankX) : Beside Q s (s.setBank t p d x) := beside_hidden rfl rfl rfl rfl rfl rfl rfl rfl

theorem beside_lnSet (t p : Nat) (f : Fld) : Beside Q s (s.lnSet t p f) :=
  beside_raise s f 1 (not_runReg_tile (by simp only [A.lnSts]; omega))

theorem beside_setResult (t p : Nat) (w : Win) (r : Result) : Beside Q s (s.setResult t p w r) := by
  have hres (mw : Word) : Beside Q s ((s.setReg (A.lnResI t p) (toW r.i)).modLane t p fun x =>
      { x with resQ := toW r.q, resMeta := mw, disc := some (s.tm.now + 3, r.st, r.conf) }) :=
    (beside_setReg s _ (not_runReg_tile (by simp only [A.lnResI]; omega))).then (beside_modLane _ t p _)
  have hover (u : State) (h : Beside Q s u) : Beside Q s (if (s.lane t p).latched then u.lnSet t p F.lnSts.resOverrun else u) :=
    beside_ite (h.then (beside_lnSet u t p _)) h
  unfold State.setResult
  exact beside_ite ((hover _ (hres _)).then (beside_lnSet _ t p _)) (hover _ (hres _))

theorem beside_storeWin (t p : Nat) (sh : Bool) (w : Win) : Beside Q s (s.storeWin t p sh w) := by
  unfold State.storeWin
  exact (beside_setResult s t p w (s.store t p sh w)).then (beside_modLane _ t p _)

theorem beside_dropJob (t p : Nat) (sh : Bool) : Beside Q s (s.dropJob t p sh) := by
  unfold State.dropJob
  exact beside_ite ((beside_modLane s t p _).then (beside_lnSet _ t p _)) (beside_refl Q s)

theorem beside_cutWindow (t p : Nat) (sh : Bool) : Beside Q s (s.cutWindow t p sh) := by
  have hcut (u : State) (h : Beside Q s u) : Beside Q s ((u.modLane t p fun x => x.setWin sh none).bump (A.lnWinCnt t p)) :=
    (h.then (beside_modLane u t p _)).then (beside_bump _ (not_runReg_tile (by simp only [A.lnWinCnt]; omega)))
  unfold State.cutWindow
  split
  · have hstored (u : State) (h : Beside Q s u) (w : Win) : Beside Q s (if getF w.a F.rsA.acc = 1 then
        ((u.modLane t p fun x => x.setWin sh none).bump (A.lnWinCnt t p)).dropJob t p sh
        else (u.modLane t p fun x => x.setWin sh none).bump (A.lnWinCnt t p)) :=
      beside_ite ((hcut u h).then (beside_dropJob _ t p sh)) (hcut u h)
    exact hstored _ (beside_ite (beside_storeWin s t p sh _) (beside_refl Q s)) _
  · exact beside_refl Q s

theorem beside_cutWindows (pl : Nat) : Beside Q s (s.cutWindows pl) :=
  beside_foldl _ _ (fun u t _ => beside_range _ 8 (fun v p _ =>
    (beside_cutWindow v t p false).then (beside_cutWindow _ t p true)) u) s

/-! ### The loops of a lane (R213–R220) -/

theorem not_runReg_db (t p d : Nat) : ¬ RunReg (A.dbSts t p d) ∧ ¬ RunReg (A.dbLoop t p d) ∧ ¬ RunReg (A.dbRecentreCnt t p d) :=
  ⟨not_runReg_tile (by simp only [A.dbSts]; omega), not_runReg_tile (by simp only [A.dbLoop]; omega),
    not_runReg_tile (by simp only [A.dbRecentreCnt]; omega)⟩

theorem beside_loopSet (t p d : Nat) (on : Bool) : Beside Q s (s.loopSet t p d on) := by
  obtain ⟨hsts, hloop, -⟩ := not_runReg_db t p d
  have hspread : Beside Q s ((List.range 4).foldl (fun s i => s.setReg (A.dbSpread t p d i) 0)
      (s.setFld (A.dbLoop t p d) F.dbLoop.en (b2n on))) :=
    (beside_setFld s _ _ hloop).then (beside_range _ 4 (fun u i _ =>
      beside_setReg u 0 (not_runReg_tile (by simp only [A.dbSpread]; omega))) _)
  exact (beside_ite (hspread.then (beside_setFld _ _ _ hsts)) hspread).then (beside_setBank _ t p d {})

theorem beside_loopUnfreeze (t p d : Nat) : Beside Q s (s.loopUnfreeze t p d) :=
  (beside_setFld s _ _ (not_runReg_db t p d).1).then (beside_setBank _ t p d _)

theorem beside_recentre {t : Nat} (p d j : Nat) (ht : t < 32) : Beside Q s (s.recentre t p d j) := by
  obtain ⟨hsts, -, hcnt⟩ := not_runReg_db t p d
  have hth (v : Word) : Beside Q s ((s.setReg (A.dbTh t p d j) v).bump (A.dbRecentreCnt t p d)) :=
    (beside_setReg s v (not_runReg_tile (by simp only [A.dbTh]; omega))).then (beside_bump _ hcnt)
  unfold State.recentre
  refine beside_ite (beside_ite ?_ (hth _)) (beside_refl Q s)
  exact ((hth _).then (beside_raise _ _ _ hsts)).then (beside_fire_tile _ ht (by decide))

theorem beside_loopAtEnd {t : Nat} (p d : Nat) (ht : t < 32) : Beside Q s (s.loopAtEnd t p d) := by
  obtain ⟨hsts, -, -⟩ := not_runReg_db t p d
  have hset : Beside Q s (match (s.bank t p d).pendEn with | some b => s.loopSet t p d b | none => s) := by
    split
    · exact beside_loopSet s t p d _
    · exact beside_refl Q s
  have hunf (u : State) (h : Beside Q s u) : Beside Q s (if (s.bank t p d).pendUnf then u.loopUnfreeze t p d else u) :=
    beside_ite (h.then (beside_loopUnfreeze u t p d)) h
  unfold State.loopAtEnd
  simp only
  have hstart := hunf _ hset
  generalize (if (s.bank t p d).pendUnf then _ else _ : State) = u at hstart
  have hsep := hstart.then (beside_setFld u F.dbSts.sep (u.sepFig t p d) hsts)
  refine beside_ite hstart (beside_ite ?_ (beside_ite hsep ?_))
  · exact (hsep.then (beside_setFld _ _ _ hsts)).then (beside_fire_tile _ ht (by decide))
  · exact (hsep.then (beside_recentre _ p d 0 ht)).then (beside_recentre _ p d 1 ht)

theorem not_runReg_tt (t p : Nat) : ¬ RunReg (A.ttOff t p) ∧ ¬ RunReg (A.ttSts t p) ∧ ¬ RunReg (A.ttStepCnt t p) :=
  ⟨not_runReg_tile (by simp only [A.ttOff]; omega), not_runReg_tile (by simp only [A.ttSts]; omega),
    not_runReg_tile (by simp only [A.ttStepCnt]; omega)⟩

theorem beside_setToneFw (t p : Nat) (off : Int) : Beside Q s (s.setToneFw t p off) :=
  (beside_setReg s _ (not_runReg_tile (by simp only [A.rfsFwLo]; omega))).then
    (beside_setReg _ _ (not_runReg_tile (by simp only [A.rfsFwHi]; omega)))

theorem beside_toneStart (t p : Nat) : Beside Q s (s.toneStart t p) := by
  obtain ⟨hoff, hsts, -⟩ := not_runReg_tt t p
  exact (((beside_setReg s 0 hoff).then (beside_setToneFw _ t p 0)).then (beside_setFld _ _ _ hsts)).then (beside_modLane _ t p _)

theorem beside_toneStep {t : Nat} (p : Nat) (ht : t < 32) : Beside Q s (s.toneStep t p) := by
  obtain ⟨hoff, hsts, hcnt⟩ := not_runReg_tt t p
  have hstep (c : Int) : Beside Q s ((((s.setReg (A.ttOff t p) (toW c)).setToneFw t p c).bump (A.ttStepCnt t p)).modLane t p fun x =>
      { x with fresh := false }) :=
    (((beside_setReg s _ hoff).then (beside_setToneFw _ t p c)).then (beside_bump _ hcnt)).then (beside_modLane _ t p _)
  unfold State.toneStep
  exact beside_ite (((hstep _).then (beside_raise _ _ _ hsts)).then (beside_fire_tile _ ht (by decide))) (hstep _)

theorem beside_toneAtEnd {t : Nat} (p : Nat) (ht : t < 32) : Beside Q s (s.toneAtEnd t p) := by
  obtain ⟨-, hsts, -⟩ := not_runReg_tt t p
  have hstart : Beside Q s (if (s.lane t p).pendEn = some true then s.toneStart t p else s) :=
    beside_ite (beside_toneStart s t p) (beside_refl Q s)
  unfold State.toneAtEnd
  simp only
  generalize (if (s.lane t p).pendEn = some true then _ else _ : State) = u at hstart
  have hqual := hstart.then (beside_setFld u F.ttSts.qual (u.toneQual t p) hsts)
  refine beside_ite hstart (beside_ite hqual (beside_ite ?_ (beside_ite ?_ hqual)))
  · exact (hqual.then (beside_setFld _ _ _ hsts)).then (beside_fire_tile _ ht (by decide))
  · exact hqual.then (beside_toneStep _ p ht)

theorem beside_loopsAtEnd (pl : Nat) : Beside Q s (s.loopsAtEnd pl) :=
  beside_foldl _ _ (fun u t ht => beside_range _ 8 (fun v p _ =>
    (beside_range _ 4 (fun w d _ => beside_loopAtEnd w p d ((mem_tilesOf s pl t).1 ht).1) v).then
      (beside_toneAtEnd _ p ((mem_tilesOf s pl t).1 ht).1)) u) s

end

end Sys2Proof.Machine
end

section
/-! ## The shot's work beside the runs: links, trellis slots, what starts and ends in a tile -/

namespace Sys2Proof.Machine

open Sys2Proof.Safety

section
variable {Q : Nat → Prop} (s : State)

/-! ### Messages to the partners (R283) -/

theorem beside_modLink (k : Nat) (f : KLink → KLink) : Beside Q s (s.modLink k f) := beside_hidden rfl rfl rfl rfl rfl rfl rfl rfl

theorem beside_send (o : Out) : Beside Q s (s.send o) := beside_hidden rfl rfl rfl rfl rfl rfl rfl rfl

theorem beside_emitBlocks (k : Nat) (bs : List Block) : Beside Q s (s.emitBlocks k bs) := by
  unfold State.emitBlocks
  split
  · exact (beside_modLink s k _).then (beside_send _ _)
  · exact beside_send s _

theorem beside_emit (k : Nat) (bs : List Block) : Beside Q s (s.emit k bs) := (beside_modLink s k _).then (beside_emitBlocks _ k bs)

theorem beside_pump (k fuel : Nat) : Beside Q s (s.pump k fuel) := by
  induction fuel generalizing s with
  | zero => exact beside_refl Q s
  | succ n ih =>
    have hcount (u : State) (h : Beside Q s u) (c : Prop) [Decidable c] : Beside Q s (if c then u.bump (A.klTxDecCnt k) else u) :=
      beside_ite (h.then (beside_bump u (by simp only [RunReg, A.klTxDecCnt]; omega))) h
    have hlink (x : KLink) : Beside Q s (s.setLink k x) := beside_hidden rfl rfl rfl rfl rfl rfl rfl rfl
    unfold State.pump
    refine beside_ite (beside_refl Q s) ?_
    split
    · exact beside_refl Q s
    · refine beside_ite (beside_refl Q s) ?_
      exact ((hcount _ (hlink _) _).then (beside_emit _ k _)).then (ih _)

theorem beside_post (k : Nat) (m : KMsg) : Beside Q s (s.post k m) := (beside_modLink s k _).then (beside_pump _ k _)

theorem beside_pairPost (kind k : Nat) (pl : List Block) : Beside Q s (s.pairPost kind k pl) :=
  beside_ite (beside_post s k _) (beside_refl Q s)

theorem beside_dropDest : Beside Q s s.dropDest :=
  ((beside_bump s (by simp only [RunReg, A.klFwdDropCnt]; omega)).then
    (beside_raise _ _ _ (by simp only [RunReg, A.klGsts]; omega))).then (beside_fire _ 1366 (by decide))

theorem beside_sendBulk (kind src d hops : Nat) (pl : List Block) : Beside Q s (s.sendBulk kind src d hops pl) := by
  unfold State.sendBulk
  refine beside_ite (beside_dropDest s) ?_
  split
  · exact beside_post s _ _
  · exact beside_dropDest s

theorem beside_coordSend (p : Nat) (pl : List Block) : Beside Q s (s.coordSend p pl) := by
  unfold State.coordSend
  refine beside_ite ?_ (beside_range _ 16 (fun u d _ => beside_ite (beside_sendBulk u 2 _ d 1 pl) (beside_refl Q u)) s)
  split
  · exact beside_pairPost s 2 _ pl
  · exact beside_refl Q s

/-- A pause asked for a plot waits for a gap, and a coordinated plot's partners learn of it (R66, R283). -/
theorem beside_pauseRequest (p : Nat) (r : PauseReq) : Beside Q s (s.pauseRequest p r) := by
  unfold State.pauseRequest
  exact beside_ite ((beside_pauses s p _ _).then (beside_coordSend _ p _)) (beside_pauses s p _ _)

/-! ### Failed sequencers (R317) -/

theorem beside_seqOff (t : Nat) (f : Nat × Nat) : Beside Q s (s.seqOff t f) := by
  have hoff : Beside Q s ((s.setSeqState t f.2 7).setSeq (sk t f.2) {}) := (beside_setSeqState s t f.2 7).then (beside_setSeq _ _ _)
  have hwait (c : CfgX) : Beside Q s { (s.setSeqState t f.2 7).setSeq (sk t f.2) {} with cfg := c } :=
    hoff.then (beside_hidden rfl rfl rfl rfl rfl rfl rfl rfl)
  unfold State.seqOff
  refine beside_ite ?_ ((hoff.then (beside_raise _ _ _ (not_runReg_tile (by simp only [A.tilePlaceSts]; omega)))).then
    (beside_setFld _ _ _ (not_runReg_tile (by simp only [A.tileSts]; omega))))
  split
  · exact beside_ite ((hwait _).then (beside_pauseRequest _ _ _)) (hwait _)
  · exact hwait _

theorem beside_failedOff (t : Nat) : Beside Q s (s.failedOff t) := by
  have hoff (l : List (Nat × Nat)) (u : State) : Beside Q u (l.foldl (fun s f => s.seqOff t f) u) := by
    induction l generalizing u with
    | nil => exact beside_refl Q u
    | cons f l ih => exact (beside_seqOff u t f).then (ih _)
  have hcfg : Beside Q s { s with cfg := { s.cfg with failing := s.cfg.failing.filter fun f => f.1 != t } } :=
    beside_hidden rfl rfl rfl rfl rfl rfl rfl rfl
  exact hcfg.then (hoff _ _)

/-! ### The trellis slots of a plot (R227, R230) -/

theorem beside_clearSlot (n : Nat) : Beside Q s (s.clearSlot n) := by
  have hslot : Beside Q s (s.setFld (A.trlSlot n) F.trlSlot.valid 0) :=
    beside_setFld s _ _ (not_runReg_tile (by simp only [A.trlSlot]; omega))
  have hunit : Beside Q s ((s.setFld (A.trlSlot n) F.trlSlot.valid 0).setFld (A.puSts (n - 256)) F.puSts.fired 0) :=
    hslot.then (beside_setFld _ _ _ (not_runReg_tile (by simp only [A.puSts]; omega)))
  have hview (u : State) (v : Word) : Beside Q u (u.setTileView n v) := beside_hidden rfl rfl rfl rfl rfl rfl rfl rfl
  have hins (u : State) (m : KMap (List ParIn)) : Beside Q u { u with parIns := m } := beside_hidden rfl rfl rfl rfl rfl rfl rfl rfl
  unfold State.clearSlot
  exact beside_ite (hslot.then (hview _ _)) (beside_ite (hunit.then (hins _ _)) hslot)

theorem beside_clearSlots (p : Nat) : Beside Q s (s.clearSlots p) :=
  beside_range _ 512 (fun u n _ => beside_ite (beside_clearSlot u n) (beside_refl Q u)) s

theorem beside_staleDec : Beside Q s s.staleDec :=
  ((beside_raise s _ _ (not_runReg_tile (by simp only [A.trlSts]; omega))).then
    (beside_bump _ (not_runReg_tile (by simp only [A.trlStaleCnt]; omega)))).then (beside_fire _ 1324 (by decide))

theorem beside_collide : Beside Q s s.collide :=
  (beside_raise s _ _ (not_runReg_tile (by simp only [A.trlSts]; omega))).then
    (beside_bump _ (not_runReg_tile (by simp only [A.trlCollideCnt]; omega)))

theorem beside_release (n : Nat) (d : Dec) (put : State → Word → State) (hput : ∀ w, Beside Q s (put s w)) :
    Beside Q s (s.release n d put) := beside_ite (hput _) (beside_staleDec s)

theorem beside_releaseTile (n : Nat) : Beside Q s (s.releaseTile n) := by
  have hkept (m : KMap (List Dec)) : Beside Q s { s with tileRels := m } := beside_hidden rfl rfl rfl rfl rfl rfl rfl rfl
  unfold State.releaseTile
  simp only
  split
  · refine Beside.then (beside_ite ((hkept _).then (beside_collide _)) (hkept _)) (beside_release _ n _ _ fun w => ?_)
    exact beside_hidden rfl rfl rfl rfl rfl rfl rfl rfl
  · exact beside_refl Q s

theorem beside_seen (u : State) (k : Nat) : Beside Q u (u.seen k) := beside_hidden rfl rfl rfl rfl rfl rfl rfl rfl

theorem beside_putSlot (u : State) (n k : Nat) (w : Word) : Beside Q u ((u.setReg (A.trlSlot n) w).seen k) :=
  (beside_setReg u w (not_runReg_tile (by simp only [A.trlSlot]; omega))).then (beside_seen _ k)

theorem beside_releaseDevice (n : Nat) : Beside Q s (s.releaseDevice n) := by
  have hkept (m : KMap (List Dec)) : Beside Q s { s with devRels := m } := beside_hidden rfl rfl rfl rfl rfl rfl rfl rfl
  unfold State.releaseDevice
  simp only
  split
  · exact (hkept _).then (beside_release _ n _ _ fun w => beside_putSlot _ n _ w)
  · exact beside_refl Q s

theorem beside_releaseRemote (r : Nat) : Beside Q s (s.releaseRemote r) := by
  have hkept (m : KMap (List Dec)) : Beside Q s { s with remRels := m } := beside_hidden rfl rfl rfl rfl rfl rfl rfl rfl
  unfold State.releaseRemote
  simp only
  split
  · exact beside_ite ((hkept _).then (beside_putSlot _ _ _ _)) (((hkept _).then (beside_staleDec _)).then
      (beside_raise _ _ _ (not_runReg_tile (by simp only [A.rmSts]; omega))))
  · exact beside_refl Q s

theorem beside_releaseSlots (p : Nat) : Beside Q s (s.releaseSlots p) :=
  beside_range _ 512 (fun u n _ => beside_ite (beside_ite ((beside_releaseTile u n).then (beside_releaseDevice _ n))
    (beside_ite (beside_releaseDevice u n) (beside_releaseRemote u _))) (beside_refl Q u)) s

/-! ### What starts and what ends in a tile -/

theorem beside_clearMarks (t : Nat) : Beside Q s (s.clearMarks t) := beside_seqWork (seqWork_clearMarks s t)

theorem beside_clearGrid (t : Nat) : Beside Q s (s.clearGrid t) :=
  beside_range _ 30 (fun u n _ => beside_ite (beside_refl Q u) (beside_setChan u t n _)) s

theorem beside_reloadSlot (t n k : Nat) : Beside Q s (s.reloadSlot t n k) := by
  have hat : ¬ RunReg (phWorkAt t n k) := not_runReg_tile (by
    unfold phWorkAt
    split
    · simp only [A.fsPhWork]; omega
    · simp only [A.rfsPhWork]; omega)
  have hlog : Beside Q s (s.logSlot t n k) := beside_ite (beside_refl Q s) (beside_hidden rfl rfl rfl rfl rfl rfl rfl rfl)
  have hword (u : State) (v : BitVec 48) : Beside Q u (u.setFreqWord t n k v) := beside_hidden rfl rfl rfl rfl rfl rfl rfl rfl
  exact (hlog.then (hword _ _)).then (beside_setReg _ _ hat)

theorem beside_reloadTile (t : Nat) : Beside Q s (s.reloadTile t) :=
  beside_range _ 16 (fun u n _ => beside_range _ 8 (fun v k _ => beside_reloadSlot v t n k) u) s

theorem beside_tileStart (t : Nat) : Beside Q s (s.tileStart t) := by
  have honce (m : KMap (List Nat)) : Beside Q s { s with once := m } := beside_hidden rfl rfl rfl rfl rfl rfl rfl rfl
  exact (((honce _).then (beside_clearGrid _ t)).then (beside_clearMarks _ t)).then (beside_reloadTile _ t)

theorem beside_tileEnd {t : Nat} (ht : t < 32) : Beside Q s (s.tileEnd t) := by
  have hparity : Beside Q s { s with parity := KMap.set [] s.parity t [] } := beside_hidden rfl rfl rfl rfl rfl rfl rfl rfl
  exact (hparity.then (beside_range (fun s q => s.seqShotEnd t q) 34 (fun u q _ => beside_seqShotEnd u q ht) _)).then
    (beside_failedOff _ t)

/-- A pass over the tiles of a plot. -/
theorem beside_eachTile (p : Nat) (f : State → Nat → State) (hf : ∀ u t, t < 32 → Beside Q u (f u t)) : Beside Q s (s.eachTile p f) :=
  beside_foldl f _ (fun u t ht => hf u t ((mem_tilesOf s p t).1 ht).1) s

theorem beside_eachSeq (t : Nat) (f : State → Nat → State) (hf : ∀ u q, q < 34 → Beside Q u (f u q)) : Beside Q s (s.eachSeq t f) :=
  beside_range f 34 hf s

end

end Sys2Proof.Machine
end

section
/-! ## A shot is announced (R59, R77, R82, R486) -/

namespace Sys2Proof.Machine

open Sys2Proof.Safety

theorem runReg_shots (p : Plot) {a : Nat} (h : 0x301000 + 0x100 * p ≤ a ∧ a < 0x301100 + 0x100 * p) : RunReg a := by
  simp only [RunReg]
  omega

theorem runReg_coord (p : Plot) : RunReg (A.klCoord p) := by
  simp only [RunReg, A.klCoord]
  omega

section
variable {Q : Nat → Prop} {s u : State} (h : Beside Q s u)
include h

theorem Beside.fld {a : Nat} (ha : RunReg a) (f : Fld) : u.fld a f = s.fld a f := State.fld_of_reg (h.regs a ha) f

theorem Beside.on {a : Nat} (ha : RunReg a) (f : Fld) : u.on a f = s.on a f := State.on_of_reg (h.regs a ha) f

theorem Beside.runState (p : Plot) : u.runState p = s.runState p := h.fld (runReg_shots p (by simp only [A.runSts]; omega)) _

/-- A shot of the scheduler before stands in it afterwards, but for its flags. -/
theorem Beside.shot_kept {p : Nat} {x : Shot} (hx : x ∈ (s.sched p).shots) : ∃ y ∈ (u.sched p).shots, y.bare = x.bare := by
  have hshots : (u.sched p).shots.map Shot.bare = (s.sched p).shots.map Shot.bare := congrArg Sched.shots (h.runs p)
  exact List.mem_map.1 (hshots ▸ List.mem_map.2 ⟨x, hx, rfl⟩)

/-- A shot of the scheduler afterwards stood in it before, but for its flags. -/
theorem Beside.shot_came {p : Nat} {y : Shot} (hy : y ∈ (u.sched p).shots) : ∃ x ∈ (s.sched p).shots, x.bare = y.bare := by
  have hshots : (u.sched p).shots.map Shot.bare = (s.sched p).shots.map Shot.bare := congrArg Sched.shots (h.runs p)
  exact List.mem_map.1 (hshots ▸ List.mem_map.2 ⟨y, hy, rfl⟩)

theorem Beside.sched_fixed (p : Nat) : (u.sched p).fixed = (s.sched p).fixed :=
  (congrArg Sched.fixed (h.runs p) :)

theorem Beside.sched_trig (p : Nat) : (u.sched p).trig = (s.sched p).trig :=
  (congrArg Sched.trig (h.runs p) :)

theorem Beside.sched_nextSid (p : Nat) : (u.sched p).nextSid = (s.sched p).nextSid :=
  (congrArg Sched.nextSid (h.runs p) :)

theorem Beside.sched_lastStart (p : Nat) : (u.sched p).lastStart = (s.sched p).lastStart :=
  (congrArg Sched.lastStart (h.runs p) :)

theorem Beside.sched_lastEnd (p : Nat) : (u.sched p).lastEnd = (s.sched p).lastEnd :=
  (congrArg Sched.lastEnd (h.runs p) :)

end

/-! ### The tiles at an announcement -/

section
variable {Q : Nat → Prop} (s : State)

theorem beside_sendCmd {t q : Nat} (c : TqCmd) (n : Nat) (o : Option Nat) (hq : Q (sk t q)) : Beside Q s (s.sendCmd t q c n o) :=
  beside_setTq s _ hq

theorem beside_setTc (t q n : Nat) : Beside Q s (s.setTc t q n) := beside_setReg s _ (not_runReg_tile (by simp only [A.seqTc]; omega))

theorem beside_seqAnnounce (p sid : Nat) {t q : Nat} (hq : Q (sk t q)) : Beside Q s (s.seqAnnounce p sid t q) := by
  have hempty : Beside Q s (s.setTq (sk t q) {}) := beside_setTq s _ hq
  have howes : Beside Q s ((s.setTq (sk t q) {}).setTq (sk t q) { owes := true }) := hempty.then (beside_setTq _ _ hq)
  unfold State.seqAnnounce
  refine beside_ite ?_ (beside_ite ?_ hempty)
  · exact ((howes.then (beside_setSeqState _ t q 2)).then (beside_setTc _ t q 0)).then (beside_setSeq _ _ _)
  · refine Beside.then ?_ (beside_flagShot _ _ _ _)
    refine Beside.then ?_ (beside_sendCmd _ _ _ _ hq)
    exact (howes.then (beside_setTc _ t q 0)).then (beside_setSeq _ _ _)

theorem beside_setFlux (t f : Nat) (x : FluxX) : Beside Q s (s.setFlux t f x) := beside_hidden rfl rfl rfl rfl rfl rfl rfl rfl

theorem beside_modBias (q j : Nat) (f : BiasX → BiasX) : Beside Q s (s.modBias q j f) := beside_hidden rfl rfl rfl rfl rfl rfl rfl rfl

theorem beside_outputsAnnounce (t : Nat) : Beside Q s (s.outputsAnnounce t) := by
  unfold State.outputsAnnounce
  refine (beside_range _ 14 ?_ s).then (beside_range _ 16 ?_ _)
  · intro u f _
    exact beside_setFlux u t f _
  · intro u b _
    exact beside_modBias u _ _ _

theorem beside_onceAnnounce (t : Nat) : Beside Q s (s.onceAnnounce t) := beside_hidden rfl rfl rfl rfl rfl rfl rfl rfl

end

/-- What an announcement does in a tile. -/
def State.tileAnnounce (s : State) (p sid t : Nat) : State :=
  ((s.eachSeq t fun s q => s.seqAnnounce p sid t q).outputsAnnounce t).onceAnnounce t

theorem beside_tileAnnounce (s : State) (p sid t : Nat) : Beside (fun _ => True) s (s.tileAnnounce p sid t) :=
  ((beside_eachSeq s t _ fun u _ _ => beside_seqAnnounce u p sid trivial).then (beside_outputsAnnounce _ t)).then (beside_onceAnnounce _ t)

/-- Sequencer `q` of tile `i` stands as it stood: its state, its TC and its queue. -/
def SeqStands (i q : Nat) (s u : State) : Prop :=
  u.reg (A.seqSts i q) = s.reg (A.seqSts i q) ∧ u.reg (A.seqTc i q) = s.reg (A.seqTc i q) ∧ u.tq (sk i q) = s.tq (sk i q)

theorem seqStands_refl (i q : Nat) (s : State) : SeqStands i q s s := ⟨rfl, rfl, rfl⟩

theorem seqStands_trans (i q : Nat) (s t u : State) (h : SeqStands i q s t) (k : SeqStands i q t u) : SeqStands i q s u := by
  obtain ⟨hsts, htc, htq⟩ := h
  obtain ⟨ksts, ktc, ktq⟩ := k
  exact ⟨ksts.trans hsts, ktc.trans htc, ktq.trans htq⟩

/-- What touches only registers of another sequencer and its queue leaves the sequencer as it stands. -/
theorem seqStands_of_touches {i q t r : Nat} (hq : q < 34) (hr : r < 34) (hne : t ≠ i ∨ r ≠ q) {s u : State}
    (hregs : TouchesOnly (seqRegs t r) s u) (htq : ∀ k, k ≠ sk t r → u.tq k = s.tq k) : SeqStands i q s u := by
  refine ⟨hregs _ ?_, hregs _ ?_, htq _ ?_⟩
  · simp only [seqRegs, A.seqCtl, A.seqSts]; omega
  · simp only [seqRegs, A.seqCtl, A.seqTc]; omega
  · simp only [sk]; omega

theorem seqRegs_tc (t q : Nat) : seqRegs t q (A.seqTc t q) := by simp only [seqRegs, A.seqCtl, A.seqTc]; omega

theorem touchesOnly_seqAnnounce (s : State) (p sid t q : Nat) : TouchesOnly (seqRegs t q) s (s.seqAnnounce p sid t q) := by
  have htc (u : State) (v : Nat) : TouchesOnly (seqRegs t q) u (u.setTc t q v) := touchesOnly_setReg u _ (seqRegs_tc t q)
  have hst (u : State) : TouchesOnly (seqRegs t q) u (u.setSeqState t q 2) := touchesOnly_setReg u _ (seqRegs_sts t q)
  unfold State.seqAnnounce
  simp only
  split
  · exact touchesOnly_trans (hst ((s.setTq (sk t q) {}).setTq (sk t q) { owes := true })) (htc _ 0)
  · split
    · exact htc ((s.setTq (sk t q) {}).setTq (sk t q) { owes := true }) 0
    · exact touchesOnly_refl _ s

theorem seqStands_seqAnnounce (s : State) (p sid : Nat) {t r i q : Nat} (hq : q < 34) (hr : r < 34) (hne : t ≠ i ∨ r ≠ q) :
    SeqStands i q s (s.seqAnnounce p sid t r) :=
  seqStands_of_touches hq hr hne (touchesOnly_seqAnnounce s p sid t r) fun k hk =>
    (beside_seqAnnounce (Q := (· = sk t r)) s p sid rfl).queues k hk

theorem seqStands_outputs (i q : Nat) (s : State) (t : Nat) : SeqStands i q s ((s.outputsAnnounce t).onceAnnounce t) := by
  have honce (u : State) : SeqStands i q u (u.onceAnnounce t) := ⟨rfl, rfl, rfl⟩
  refine seqStands_trans i q _ _ _ ?_ (honce _)
  unfold State.outputsAnnounce
  refine seqStands_trans i q _ _ _ (foldl_rel (seqStands_refl i q) (seqStands_trans i q) _ _ ?_ s)
    (foldl_rel (seqStands_refl i q) (seqStands_trans i q) _ _ ?_ _)
  · intro u f _
    exact ⟨rfl, rfl, rfl⟩
  · intro u b _
    exact ⟨rfl, rfl, rfl⟩

/-- A sequencer that waits begins (R82, R486). -/
theorem State.seqAnnounce_begins (s : State) (p sid t q : Nat) (h : s.seqState t q = 1) :
    (s.seqAnnounce p sid t q).seqState t q = 2 ∧ (s.seqAnnounce p sid t q).tc t q = 0 ∧
    (s.seqAnnounce p sid t q).tq (sk t q) = { owes := true } := by
  have heq : s.seqAnnounce p sid t q =
      ((((s.setTq (sk t q) {}).setTq (sk t q) { owes := true }).setSeqState t q 2).setTc t q 0).setSeq (sk t q) {} := by
    unfold State.seqAnnounce
    exact if_pos h
  have hne : A.seqSts t q ≠ A.seqTc t q := by simp only [A.seqSts, A.seqTc]; omega
  rw [heq]
  refine ⟨?_, ?_, ?_⟩
  · refine (State.seqState_of_reg (State.reg_setReg_ne _ _ hne)).trans (State.seqState_setSeqState _ t q 2 (by decide))
  · exact congrArg BitVec.toNat (State.reg_setReg_same _ _ _)
  · exact State.tq_setTq (s.setTq (sk t q) {}) (sk t q) { owes := true }

/-- At an announcement every sequencer of the plot's tiles that waits begins (R59, R82, R486). -/
theorem State.announced_begins (s : State) (p sid : Nat) (i : Tile) (q : Seq) (hi : s.inPlot p i = true) (hst : s.seqState i q = 1) :
    let u := s.eachTile p fun s t => s.tileAnnounce p sid t
    u.seqState i q = 2 ∧ u.tc i q = 0 ∧ u.tq (sk i q) = { owes := true } := by
  have hrefl := seqStands_refl i q
  have htrans := seqStands_trans i q
  have hseqs (u : State) (t r : Nat) (hr : r < 34) (hne : t ≠ i ∨ r ≠ q) : SeqStands i q u (u.seqAnnounce p sid t r) :=
    seqStands_seqAnnounce u p sid q.isLt hr hne
  have hother (u : State) (t : Nat) (ht : t ≠ i) : SeqStands i q u (u.tileAnnounce p sid t) :=
    htrans _ _ _ (foldl_rel hrefl htrans _ _ (fun v r hr => hseqs v t r (List.mem_range.1 hr) (.inl ht)) u) (seqStands_outputs i q _ t)
  obtain ⟨u, hu, hend⟩ := foldl_once hrefl htrans (fun s t => s.tileAnnounce p sid t) i (s.tilesOf p) (fun v t _ ht => hother v t ht)
    (nodup_tilesOf s p) ((mem_tilesOf s p i).2 ⟨i.isLt, hi⟩) s
  obtain ⟨v, hv, hrest⟩ := foldl_once hrefl htrans (fun s r => s.seqAnnounce p sid i r) q (List.range 34)
    (fun w r hr hne => hseqs w i r (List.mem_range.1 hr) (.inr hne)) List.nodup_range (List.mem_range.2 q.isLt) u
  have hbefore := htrans _ _ _ hu hv
  obtain ⟨h2, h0, howes⟩ := v.seqAnnounce_begins p sid i q ((State.seqState_of_reg hbefore.1).trans hst)
  obtain ⟨hsts, htc, htq⟩ := htrans _ _ _ (htrans _ _ _ hrest (seqStands_outputs i q _ i)) hend
  exact ⟨(State.seqState_of_reg hsts).trans h2, (State.tc_of_reg htc).trans h0, htq.trans howes⟩

/-! ### The run at an announcement -/

/-- The shot that plot `p` announces with the fixed start `f`. -/
def State.shotAnnounced (s : State) (p : Nat) (f : Fixed) : Shot :=
  let waking := s.convs.any fun e => e.2.st != 0 && s.inPlot p (e.1 / 32)
  let dirty := s.on A.glbCtl F.glbCtl.muteAll || waking || s.holed p || (s.tilesOf p).any fun t => s.clrPin (quadOf t)
  { sid := (s.sched p).nextSid, start := f.start, flags := f.flags ||| (if dirty then Flag.taint else 0), pause := f.pause }

/-- The scheduler of plot `p` once it has announced the fixed start `f`. -/
def State.schedAnnounced (s : State) (p : Nat) (f : Fixed) : Sched :=
  { s.sched p with shots := (s.sched p).shots ++ [s.shotAnnounced p f], nextSid := (s.sched p).nextSid + 1, fixed := none, trig := none,
                   endTick := f.start }

/-- The registers of the run at an announcement, before its tiles follow. -/
def State.runAnnounced (s : State) (p : Nat) (f : Fixed) : State :=
  let s1 := s.setSched p (s.schedAnnounced p f)
  let s2 := if s.runState p = 1 then s1.runSet p F.runSts.state 2 else s1
  ((s2.runSet p F.runSts.inShot 1).runSet p F.runSts.trigPending 0).setPair (A.nextStartLo p) (A.nextStartHi p) f.start

theorem State.announce_eq (s : State) (p : Nat) (f : Fixed) : s.announce p f =
    ((s.runAnnounced p f).eachTile p fun u t => u.tileAnnounce p (s.sched p).nextSid t).coordAnnounce p f.start := rfl

theorem State.sched_setPair (s : State) (lo hi v p : Nat) : (s.setPair lo hi v).sched p = s.sched p := by
  unfold State.setPair State.arrived
  split <;> rfl

theorem State.sched_runAnnounced (s : State) (p : Nat) (f : Fixed) : (s.runAnnounced p f).sched p = s.schedAnnounced p f := by
  have hstate : (if s.runState p = 1 then (s.setSched p (s.schedAnnounced p f)).runSet p F.runSts.state 2
      else s.setSched p (s.schedAnnounced p f)).sched p = s.schedAnnounced p f := by
    split
    · rw [State.sched_runSet, State.sched_setSched]
    · rw [State.sched_setSched]
  rw [State.runAnnounced, State.sched_setPair, State.sched_runSet, State.sched_runSet, hstate]

theorem State.reg_runAnnounced (s : State) (p : Nat) (f : Fixed) {a : Nat} (hsts : a ≠ A.runSts p) (hlo : a ≠ A.nextStartLo p)
    (hhi : a ≠ A.nextStartHi p) : (s.runAnnounced p f).reg a = s.reg a := by
  have hstate : (if s.runState p = 1 then (s.setSched p (s.schedAnnounced p f)).runSet p F.runSts.state 2
      else s.setSched p (s.schedAnnounced p f)).reg a = s.reg a := by
    split
    · rw [State.reg_runSet_ne _ _ _ hsts, State.reg_setSched]
    · rw [State.reg_setSched]
  rw [State.runAnnounced, State.setPair_regs, State.reg_setReg_ne _ _ hhi, State.reg_setReg_ne _ _ hlo, State.reg_runSet_ne _ _ _ hsts,
    State.reg_runSet_ne _ _ _ hsts, hstate]

/-- IN_SHOT sets, and an ARMED plot is RUNNING (R59). -/
theorem State.runSts_runAnnounced (s : State) (p : Nat) (f : Fixed) : (s.runAnnounced p f).fld (A.runSts p) F.runSts.inShot = 1 ∧
    (s.runAnnounced p f).runState p = if s.runState p = 1 then 2 else s.runState p := by
  have hpair (u : State) (g : Fld) : (u.setPair (A.nextStartLo p) (A.nextStartHi p) f.start).fld (A.runSts p) g = u.fld (A.runSts p) g :=
    State.fld_of_reg (by
      rw [State.setPair_regs, State.reg_setReg_ne _ _ (by simp only [A.runSts, A.nextStartHi]; omega),
        State.reg_setReg_ne _ _ (by simp only [A.runSts, A.nextStartLo]; omega)]) g
  have hstate : (if s.runState p = 1 then (s.setSched p (s.schedAnnounced p f)).runSet p F.runSts.state 2
      else s.setSched p (s.schedAnnounced p f)).runState p = if s.runState p = 1 then 2 else s.runState p := by
    split
    · exact State.fld_runSet_same _ p _ 2 (by decide)
    · rfl
  unfold State.runAnnounced
  refine ⟨?_, ?_⟩
  · rw [hpair, State.fld_runSet_disjoint _ _ _ _ _ (by decide) (by decide)]
    exact State.fld_runSet_same _ p _ 1 (by decide)
  · rw [State.runState, hpair, State.fld_runSet_disjoint _ _ _ _ _ (by decide) (by decide),
      State.fld_runSet_disjoint _ _ _ _ _ (by decide) (by decide)]
    exact hstate

/-- A plot that is not coordinated tells no partner (R283). -/
theorem State.coordAnnounce_alone (s : State) (p start : Nat) (h : s.on (A.klCoord p) F.klCoord.en = false) :
    s.coordAnnounce p start = s := by
  simp [State.coordAnnounce, h]

theorem exec_shotAnnounce_due (s : State) (p : Plot) (f : Fixed) (hf : (s.sched p).fixed = some f) (hat : f.start = s.DT + s.lead p) :
    exec (.shotAnnounce p) s = .next (s.announce p f) := by
  rw [exec_shotAnnounce, execShotAnnounce, hf]
  simp [onlyIf, hat]

/-- SHOT_ANNOUNCE (R59, R77, R82, R486). -/
theorem completes_shotAnnounce (s : State) (p : Plot) (f : Fixed) (hf : (s.sched p).fixed = some f) (hat : f.start = s.DT + s.lead p)
    (hen : s.on (A.klCoord p) F.klCoord.en = false) : Completes (.shotAnnounce p) s fun t =>
      (∃ h ∈ (t.sched p).shots, h.sid = (s.sched p).nextSid ∧ h.start = f.start ∧ h.started = false ∧ h.stop = none) ∧
      (t.sched p).fixed = none ∧ (t.sched p).trig = none ∧ (t.sched p).nextSid = (s.sched p).nextSid + 1 ∧
      t.pair (A.nextStartLo p) (A.nextStartHi p) = f.start % 2 ^ 64 ∧ t.fld (A.runSts p) F.runSts.inShot = 1 ∧
      t.runState p = (if s.runState p = 1 then 2 else s.runState p) ∧
      ∀ (i : Tile) (q : Seq), s.inPlot p i = true → s.seqState i q = 1 →
        t.seqState i q = 2 ∧ t.tc i q = 0 ∧ (t.tq (sk i q)) = { owes := true } := by
  have hregs {a : Nat} (ha : a < 0x301000 ∨ 0x301100 + 0x100 * p ≤ a) : (s.runAnnounced p f).reg a = s.reg a :=
    s.reg_runAnnounced p f (by simp only [A.runSts]; omega) (by simp only [A.nextStartLo]; omega) (by simp only [A.nextStartHi]; omega)
  have htiles := beside_eachTile (s.runAnnounced p f) p (fun u t => u.tileAnnounce p (s.sched p).nextSid t)
    fun u t _ => beside_tileAnnounce u p _ t
  have hbegins := (s.runAnnounced p f).announced_begins p (s.sched p).nextSid
  have hexec := exec_shotAnnounce_due s p f hf hat
  obtain ⟨hshot, hstate⟩ := s.runSts_runAnnounced p f
  have hpair : (s.runAnnounced p f).pair (A.nextStartLo p) (A.nextStartHi p) = f.start % 2 ^ 64 :=
    State.pair_setPair _ _ _ _ (by simp only [A.nextStartLo, A.nextStartHi]; omega)
  have hcoord : ((s.runAnnounced p f).eachTile p fun u t => u.tileAnnounce p (s.sched p).nextSid t).on (A.klCoord p) F.klCoord.en =
      false := (htiles.on (runReg_coord p) _).trans ((State.on_of_reg (hregs (.inr (by simp only [A.klCoord]; omega))) _).trans hen)
  rw [s.announce_eq, State.coordAnnounce_alone _ _ _ hcoord] at hexec
  generalize hv : ((s.runAnnounced p f).eachTile p fun u t => u.tileAnnounce p (s.sched p).nextSid t) = v at hexec htiles hbegins
  have hsched := s.sched_runAnnounced p f
  refine completes_of_exec hexec ⟨?_, ?_, ?_, ?_, ?_, ?_, ?_, fun i q hi hq => hbegins i q ?_ ?_⟩
  · obtain ⟨y, hy, hbare⟩ := htiles.shot_kept (p := p) (x := s.shotAnnounced p f) (by
      rw [s.sched_runAnnounced]
      exact List.mem_append_right _ (List.mem_singleton_self _))
    exact ⟨y, hy, congrArg Shot.sid hbare, congrArg Shot.start hbare, congrArg Shot.started hbare, congrArg Shot.stop hbare⟩
  · rw [htiles.sched_fixed, hsched, State.schedAnnounced]
  · rw [htiles.sched_trig, hsched, State.schedAnnounced]
  · rw [htiles.sched_nextSid, hsched, State.schedAnnounced]
  · rw [← hpair, State.pair, State.pair, htiles.reg _ (runReg_shots p (by simp only [A.nextStartLo]; omega)),
      htiles.reg _ (runReg_shots p (by simp only [A.nextStartHi]; omega))]
  · exact (htiles.fld (runReg_shots p (by simp only [A.runSts]; omega)) _).trans hshot
  · exact (htiles.runState p).trans hstate
  · have htile : (s.runAnnounced p f).inPlot p i = s.inPlot p i := by
      rw [State.inPlot, State.inPlot, State.tileOn, State.tileOn, State.plotOf, State.plotOf, hregs (.inl (by decide)),
        State.fld_of_reg (hregs (.inl (by simp only [A.glbTilePlot]; omega)))]
    exact htile.trans hi
  · exact (State.seqState_of_reg (hregs (.inr (by simp only [A.seqSts]; omega)))).trans hq

end Sys2Proof.Machine
end

section
/-! ## A shot starts (R59, R66, R148, R149) -/

namespace Sys2Proof.Machine

open Sys2Proof.Safety

/-! ### The markers of a tile -/

/-- Marker `m` of tile `i` stands as it stood. -/
def MarkStands (i m : Nat) (s u : State) : Prop := u.mark i m = s.mark i m

theorem markStands_refl (i m : Nat) (s : State) : MarkStands i m s s := rfl

theorem markStands_trans (i m : Nat) (s t u : State) (h : MarkStands i m s t) (k : MarkStands i m t u) : MarkStands i m s u :=
  Eq.trans k h

theorem markStands_setMark (s : State) {i m t n : Nat} (x : Mark) (hm : m < 4) (hn : n < 4) (hne : t ≠ i ∨ n ≠ m) :
    MarkStands i m s (s.setMark t n x) := KMap.get_set_ne _ _ _ _ (by omega)

theorem markStands_clearMarks (s : State) {i m t : Nat} (hm : m < 4) (hne : t ≠ i) : MarkStands i m s (s.clearMarks t) :=
  foldl_rel (markStands_refl i m) (markStands_trans i m) _ _
    (fun u _ hn => markStands_setMark u {} hm (List.mem_range.1 hn) (.inl hne)) s

/-- The markers and vector lines of a tile go to level 0 (R148, R149). -/
theorem State.mark_clearMarks (s : State) (t : Nat) {m : Nat} (hm : m < 4) : (s.clearMarks t).mark t m = {} := by
  obtain ⟨u, -, hend⟩ := foldl_once (markStands_refl t m) (markStands_trans t m) (fun s n => s.setMark t n {}) m (List.range 4)
    (fun v n hn hne => markStands_setMark v {} hm (List.mem_range.1 hn) (.inr hne)) List.nodup_range (List.mem_range.2 hm) s
  exact Eq.trans hend (KMap.get_set_same {} u.marks (4 * t + m) {})

theorem markStands_clearGrid (s : State) (i m t : Nat) : MarkStands i m s (s.clearGrid t) :=
  foldl_rel (markStands_refl i m) (markStands_trans i m) _ _ (fun u n _ => by split <;> rfl) s

theorem markStands_reloadTile (s : State) (i m t : Nat) : MarkStands i m s (s.reloadTile t) := by
  have hslot (u : State) (n k : Nat) : MarkStands i m u (u.reloadSlot t n k) := by
    unfold MarkStands State.reloadSlot State.logSlot
    split <;> rfl
  exact foldl_rel (markStands_refl i m) (markStands_trans i m) _ _
    (fun u n _ => foldl_rel (markStands_refl i m) (markStands_trans i m) _ _ (fun v k _ => hslot v n k) u) s

theorem markStands_tileStart (s : State) {i m t : Nat} (hm : m < 4) (hne : t ≠ i) : MarkStands i m s (s.tileStart t) := by
  have honce (o : KMap (List Nat)) : MarkStands i m s { s with once := o } := rfl
  exact markStands_trans i m _ _ _ (markStands_trans i m _ _ _ (markStands_trans i m _ _ _ (honce _) (markStands_clearGrid _ i m t))
    (markStands_clearMarks _ hm hne)) (markStands_reloadTile _ i m t)

theorem State.mark_tileStart (s : State) (t : Nat) {m : Nat} (hm : m < 4) : (s.tileStart t).mark t m = {} :=
  Eq.trans (markStands_reloadTile _ t m t) (State.mark_clearMarks _ t hm)

/-- After a pass that clears the markers of a plot's tiles, tile by tile, those of each are at level 0. -/
theorem mark_eachTile (s : State) (p : Nat) (f : State → Nat → State) {i m : Nat} (hi : i ∈ s.tilesOf p)
    (hother : ∀ u t, t ≠ i → MarkStands i m u (f u t)) (hown : ∀ u : State, (f u i).mark i m = {}) : (s.eachTile p f).mark i m = {} := by
  obtain ⟨u, -, hend⟩ := foldl_once (markStands_refl i m) (markStands_trans i m) f i (s.tilesOf p) (fun v t _ ht => hother v t ht)
    (nodup_tilesOf s p) hi s
  exact hend.trans (hown u)

/-! ### The run at a start -/

/-- The shots of plot `p` once shot `sid` has started. -/
def State.shotsStarted (s : State) (p sid : Nat) : State :=
  s.mapShots p (fun h => h.sid == sid) fun h => { h with started := true, num := s.reg (A.shotNum p) + 1, quiet := s.isStandby }

/-- The scheduler and the counts of the run at a start, before its tiles follow. -/
def State.runStarted (s : State) (p sid : Nat) : State :=
  (((s.shotsStarted p sid).setSched p { (s.shotsStarted p sid).sched p with lastStart := some (s.shotsStarted p sid).DT }).setReg
    (A.shotNum p) (s.reg (A.shotNum p) + 1)).setReg (A.shotsDone p) (s.reg (A.shotsDone p) + 1)

/-- The slots and the tiles of plot `p` at a start, and its event (R66, R227). -/
def State.tilesStarted (s : State) (p : Nat) : State :=
  (((s.clearSlots p).releaseSlots p).eachTile p State.tileStart).fire (shotSrc p 0)

theorem State.startShot_eq (s : State) (p sid : Nat) : s.startShot p sid =
    if s.on (A.klCoord p) F.klCoord.en && s.fld A.thSts F.thSts.level != 0 then
      ((s.runStarted p sid).tilesStarted p).pauseRequest p ⟨s.fld A.thSts F.thSts.level * 10000, Flag.throttled⟩
    else (s.runStarted p sid).tilesStarted p := by
  unfold State.startShot
  rfl

theorem beside_tilesStarted {Q : Nat → Prop} (s : State) (p : Plot) : Beside Q s (s.tilesStarted p) :=
  (((beside_clearSlots s p).then (beside_releaseSlots _ p)).then (beside_eachTile _ p _ fun u t _ => beside_tileStart u t)).then
    (beside_fire _ _ (by simp only [shotSrc]; omega))

theorem State.sched_runStarted (s : State) (p sid : Nat) : (s.runStarted p sid).sched p =
    { s.sched p with shots := (s.shotsStarted p sid).sched p |>.shots, lastStart := some s.DT } := by
  have hshots : (s.shotsStarted p sid).sched p = { s.sched p with shots := ((s.shotsStarted p sid).sched p).shots } := by
    rw [State.shotsStarted, State.mapShots, State.sched_setSched]
  refine (State.sched_setSched (s.shotsStarted p sid) p _).trans ?_
  rw [hshots]
  rfl

theorem State.mem_shotsStarted (s : State) (p sid : Nat) {x : Shot} (hx : x ∈ ((s.shotsStarted p sid).sched p).shots)
    (hsid : x.sid = sid) : x.started = true ∧ x.num = s.reg (A.shotNum p) + 1 := by
  rw [State.shotsStarted, State.mapShots, State.sched_setSched] at hx
  obtain ⟨y, -, rfl⟩ := List.mem_map.1 hx
  by_cases hy : y.sid = sid
  · simp [hy]
  · exact absurd hsid (by simp [hy])

theorem exec_shotStart_due (s : State) (p : Plot) (h : Shot) (hc : s.current p = some h) (hnot : h.started = false) (hat : h.start = s.DT) :
    exec (.shotStart p) s = .next (s.startShot p h.sid) := by
  rw [exec_shotStart, execShotStart, hc]
  simp [onlyIf, hnot, hat]

/-- SHOT_START (R59, R66, R148, R149). -/
theorem completes_shotStart (s : State) (p : Plot) (h : Shot) (hc : s.current p = some h) (hnot : h.started = false)
    (hat : h.start = s.DT) (hen : s.on (A.klCoord p) F.klCoord.en = false) : Completes (.shotStart p) s fun t =>
      t.reg (A.shotNum p) = s.reg (A.shotNum p) + 1 ∧ t.reg (A.shotsDone p) = s.reg (A.shotsDone p) + 1 ∧
      (1288 + 4 * p.val, 0) ∈ t.evq ∧ (t.sched p).lastStart = some s.DT ∧
      (∀ x ∈ (t.sched p).shots, x.sid = h.sid → x.started = true ∧ x.num = s.reg (A.shotNum p) + 1) ∧
      ∀ (i : Tile) (m : Fin 4), s.inPlot p i = true → t.mark i m = {} := by
  have hne : A.shotNum p ≠ A.shotsDone p := by simp only [A.shotNum, A.shotsDone]; omega
  have hexec := exec_shotStart_due s p h hc hnot hat
  rw [s.startShot_eq, hen, Bool.false_and, if_neg Bool.false_ne_true] at hexec
  have hwork := beside_tilesStarted (Q := fun _ => False) (s.runStarted p h.sid) p
  refine completes_of_exec hexec ⟨?_, ?_, ?_, ?_, fun x hx hsid => ?_, fun i m hi => ?_⟩
  · refine (hwork.reg _ (runReg_shots p (by simp only [A.shotNum]; omega))).trans ?_
    rw [State.runStarted, State.reg_setReg_ne _ _ hne, State.reg_setReg_same]
  · refine (hwork.reg _ (runReg_shots p (by simp only [A.shotsDone]; omega))).trans ?_
    rw [State.runStarted, State.reg_setReg_same]
  · rw [show 1288 + 4 * p.val = shotSrc p 0 by unfold shotSrc; omega]
    rw [State.tilesStarted, State.fire_evq]
    exact List.mem_append_right _ (List.mem_singleton_self _)
  · rw [hwork.sched_lastStart, s.sched_runStarted]
  · obtain ⟨y, hy, hbare⟩ := hwork.shot_came hx
    rw [s.sched_runStarted] at hy
    obtain ⟨hstarted, hnum⟩ := s.mem_shotsStarted p h.sid hy ((congrArg Shot.sid hbare).trans hsid)
    exact ⟨(congrArg Shot.started hbare).symm.trans hstarted, (congrArg Shot.num hbare).symm.trans hnum⟩
  · have hslots := (beside_clearSlots (Q := fun _ => False) (s.runStarted p h.sid) p).then (beside_releaseSlots _ p)
    have htiles : ((s.runStarted p h.sid).clearSlots p |>.releaseSlots p).tilesOf p = s.tilesOf p :=
      (hslots.tilesOf p).trans (State.tilesOf_of_reg (fun a ha => by
        rw [State.runStarted, State.reg_setReg_ne _ _ (by simp only [A.shotsDone]; omega),
          State.reg_setReg_ne _ _ (by simp only [A.shotNum]; omega)]
        rfl) p)
    have hfired (u : State) : (u.fire (shotSrc p 0)).mark i m = u.mark i m := rfl
    rw [State.tilesStarted, hfired]
    refine mark_eachTile _ p State.tileStart ?_ (fun u t ht => markStands_tileStart u m.isLt ht) fun u => u.mark_tileStart i m.isLt
    rw [htiles]
    exact (mem_tilesOf s p i).2 ⟨i.isLt, hi⟩

end Sys2Proof.Machine
end

section
/-! ## A shot ends, is cut or is aborted (R52, R53, R62, R63, R77) -/

namespace Sys2Proof.Machine

open Sys2Proof.Safety

/-! ### A plot enters STOPPED: what it leaves -/

theorem markStands_setPair (s : State) (i m lo hi v : Nat) : MarkStands i m s (s.setPair lo hi v) := by
  unfold MarkStands State.setPair State.arrived
  split <;> rfl

theorem markStands_countHits (s : State) (i m t : Nat) (l : List Nat) : MarkStands i m s (s.countHits t l) := by
  induction l generalizing s with
  | nil => rfl
  | cons n l ih => exact markStands_trans i m _ (s.bump (A.ucHitCnt t n)) _ rfl (ih _)

theorem markStands_stallCut (s : State) (i m t q : Nat) : MarkStands i m s (s.stallCut t q) := by
  have hcyc (n : Nat) : MarkStands i m s (s.addCycles t q n) := markStands_setPair s i m _ _ _
  unfold State.stallCut
  simp only
  split
  · split
    · exact markStands_trans i m _ _ _ (hcyc _) (markStands_countHits _ i m t _)
    · exact hcyc _
  · rfl

theorem markStands_seqStop (s : State) (i m t q : Nat) : MarkStands i m s (s.seqStop t q) := by
  have hstop : MarkStands i m s (((s.stallCut t q).setSeqState t q 0).setSeq (sk t q) {}) :=
    markStands_trans i m _ (s.stallCut t q) _ (markStands_stallCut s i m t q) rfl
  unfold State.seqStop
  simp only
  split
  · rfl
  · exact hstop

/-- A plot that enters STOPPED has its markers and vector lines at level 0 (R148, R149). -/
theorem State.mark_stopTiles (s : State) (p i : Nat) {m : Nat} (hm : m < 4) (hi : i ∈ s.tilesOf p) : (s.stopTiles p).mark i m = {} := by
  have hseqs (u : State) (t : Nat) : MarkStands i m u (u.eachSeq t fun s q => s.seqStop t q) :=
    foldl_rel (markStands_refl i m) (markStands_trans i m) _ _ (fun v q _ => markStands_seqStop v i m t q) u
  exact mark_eachTile s p _ hi (fun u t ht => markStands_trans i m _ _ _ (markStands_clearMarks u hm ht) (hseqs _ t))
    fun u => Eq.trans (hseqs _ i) (u.mark_clearMarks i hm)

theorem State.reg_stopRun (s : State) (p : Plot) (cause : Nat) {a : Nat} (ha : a < 0x100 ∨ 0x300000 ≤ a) (hne : a ≠ A.runSts p) :
    (s.stopRun p cause).reg a = s.reg a := by
  have hlt := evfSrcSts_shotSrc_lt p 2 (by decide)
  have hsrc : a ≠ A.evfSrcSts (shotSrc p 2 / 32) := by simp only [A.evfSrcSts] at hlt ⊢; omega
  rw [State.stopRun, State.reg_fire_ne _ _ hsrc, State.reg_runSet_ne _ _ _ hne, State.reg_runSet_ne _ _ _ hne,
    State.reg_runSet_ne _ _ _ hne, State.reg_runSet_ne _ _ _ hne, State.reg_setSched]

theorem State.reg_stop (s : State) (p : Plot) (cause : Nat) {a : Nat} (ha : a < 0x100 ∨ 0x300000 ≤ a ∧ a < 0x1000000)
    (hne : a ≠ A.runSts p) : (s.stop p cause).reg a = s.reg a := by
  rw [s.stop_eq, (seqWork_stopTiles _ _).1 a (by omega)]
  exact s.reg_stopRun p cause (by omega) hne

/-- The fields of RUN_STS that entering STOPPED leaves alone. -/
theorem State.fld_stop (s : State) (p : Plot) (cause : Nat) (f : Fld) (hst : f.hi < F.runSts.state.lo ∨ F.runSts.state.hi < f.lo)
    (hca : f.hi < F.runSts.stopCause.lo ∨ F.runSts.stopCause.hi < f.lo)
    (htr : f.hi < F.runSts.trigPending.lo ∨ F.runSts.trigPending.hi < f.lo)
    (hdo : f.hi < F.runSts.done.lo ∨ F.runSts.done.hi < f.lo) : (s.stop p cause).fld (A.runSts p) f = s.fld (A.runSts p) f := by
  have htiles := State.fld_of_reg ((seqWork_stopTiles (s.stopRun p cause) p).1 (A.runSts p) (by simp only [A.runSts]; omega)) f
  rw [s.stop_eq, htiles, s.stopRun_fld, State.fld_runSet_disjoint _ _ _ _ _ (by decide) hdo.symm,
    State.fld_runSet_disjoint _ _ _ _ _ (by decide) htr.symm, State.fld_runSet_disjoint _ _ _ _ _ (by decide) hca.symm,
    State.fld_runSet_disjoint _ _ _ _ _ (by decide) hst.symm, State.fld_setSched]

theorem State.hidden_runSet (s : State) (p : Nat) (f : Fld) (v : Nat) :
    (s.runSet p f v).tqs = s.tqs ∧ (s.runSet p f v).pair2 = s.pair2 := ⟨rfl, rfl⟩

theorem State.hidden_fire (s : State) (src : Nat) : (s.fire src).tqs = s.tqs ∧ (s.fire src).pair2 = s.pair2 := ⟨rfl, rfl⟩

theorem State.hidden_setSched (s : State) (p : Nat) (c : Sched) :
    (s.setSched p c).tqs = s.tqs ∧ (s.setSched p c).pair2 = s.pair2 := ⟨rfl, rfl⟩

theorem State.hidden_stopRun (s : State) (p cause : Nat) : (s.stopRun p cause).tqs = s.tqs ∧ (s.stopRun p cause).pair2 = s.pair2 := by
  simp only [State.stopRun, State.hidden_fire, State.hidden_runSet, State.hidden_setSched, and_self]

theorem seqWork_hidden {P : Nat → Prop} {s u : State} (h : SeqWork P s u) : u.tqs = s.tqs ∧ u.pair2 = s.pair2 := by
  rw [h.2]
  exact ⟨rfl, rfl⟩

theorem State.hidden_stop (s : State) (p cause : Nat) : (s.stop p cause).tqs = s.tqs ∧ (s.stop p cause).pair2 = s.pair2 := by
  rw [s.stop_eq, (seqWork_hidden (seqWork_stopTiles _ _)).1, (seqWork_hidden (seqWork_stopTiles _ _)).2]
  exact s.hidden_stopRun p cause

/-! ### The end of a shot (R53) -/

/-- The scheduler of plot `p` once shot `h` has ended. -/
def State.schedEnded (s : State) (p : Nat) (h : Shot) : State :=
  let s1 := s.mapShots p (fun x => x.sid == h.sid) fun x => { x with stop := some s.DT }
  s1.setSched p { s1.sched p with lastEnd := s.DT, firstEarliest := none }

/-- The run once shot `h` has ended, before its tiles follow. -/
def State.runEnded (s : State) (p : Nat) (h : Shot) : State :=
  (((s.schedEnded p h).runSet p F.runSts.inShot 0).setReg (A.lastLen p) (BitVec.ofNat 32 (s.DT - h.start))).fire (shotSrc p 1)

theorem State.endShot_eq (s : State) (p : Nat) (h : Shot) : s.endShot p h = ((s.runEnded p h).eachTile p State.tileEnd).loopsAtEnd p := rfl

theorem beside_tilesEnded {Q : Nat → Prop} (s : State) (p : Nat) (h : Shot) : Beside Q (s.runEnded p h) (s.endShot p h) := by
  rw [s.endShot_eq]
  exact (beside_eachTile _ p _ fun u t ht => beside_tileEnd u ht).then (beside_loopsAtEnd _ p)

/-- What the end of a shot leaves: IN_SHOT and LAST_LEN of its plot, the event, the end tick, and all else of the run as it was (R53, R66). -/
structure ShotEnded (p : Nat) (h : Shot) (s t : State) : Prop where
  inShot : t.fld (A.runSts p) F.runSts.inShot = 0
  sts : ∀ f : Fld, f.hi < F.runSts.inShot.lo ∨ F.runSts.inShot.hi < f.lo → t.fld (A.runSts p) f = s.fld (A.runSts p) f
  len : t.reg (A.lastLen p) = BitVec.ofNat 32 (s.DT - h.start)
  regs : ∀ a, RunReg a → a ≠ A.runSts p → a ≠ A.lastLen p → t.reg a = s.reg a
  fired : ∃ l, t.evq = s.evq ++ (1289 + 4 * p, 0) :: l
  lastEnd : (t.sched p).lastEnd = s.DT
  DT : t.DT = s.DT
  queues : ∀ k, t.tq k = s.tq k
  pair : t.pair2 = s.pair2

theorem State.reg_runEnded (s : State) (p : Plot) (h : Shot) {a : Nat} (ha : a < 0x100 ∨ 0x300000 ≤ a) (hsts : a ≠ A.runSts p)
    (hlen : a ≠ A.lastLen p) : (s.runEnded p h).reg a = s.reg a := by
  have hlt := evfSrcSts_shotSrc_lt p 1 (by decide)
  have hsrc : a ≠ A.evfSrcSts (shotSrc p 1 / 32) := by simp only [A.evfSrcSts] at hlt ⊢; omega
  rw [State.runEnded, State.reg_fire_ne _ _ hsrc, State.reg_setReg_ne _ _ hlen, State.reg_runSet_ne _ _ _ hsts]
  rfl

theorem State.fld_runEnded (s : State) (p : Plot) (h : Shot) (f : Fld) : (s.runEnded p h).fld (A.runSts p) f =
    ((s.schedEnded p h).runSet p F.runSts.inShot 0).fld (A.runSts p) f := by
  have hne : A.runSts p ≠ A.lastLen p := by simp only [A.runSts, A.lastLen]; omega
  rw [State.runEnded, State.fld_fire_shotSrc _ p 1 (by decide) (runSts_ge p)]
  exact State.fld_of_reg (State.reg_setReg_ne _ _ hne) f

theorem State.endShot_spec (s : State) (p : Plot) (h : Shot) : ShotEnded p h s (s.endShot p h) := by
  have hwork := beside_tilesEnded (Q := fun _ => False) s p h
  have hsts : RunReg (A.runSts p) := runReg_shots p (by simp only [A.runSts]; omega)
  have hsrc : shotSrc p 1 = 1289 + 4 * p.val := by unfold shotSrc; omega
  obtain ⟨l, hl⟩ := hwork.fired
  constructor
  · rw [hwork.fld hsts, s.fld_runEnded]
    exact State.fld_runSet_same _ p _ 0 (by decide)
  · intro f hf
    rw [hwork.fld hsts, s.fld_runEnded, State.fld_runSet_disjoint _ _ _ _ _ (by decide) hf.symm]
    rfl
  · rw [hwork.reg _ (runReg_shots p (by simp only [A.lastLen]; omega)), State.runEnded,
      State.reg_fire_shotSrc _ p 1 (by decide) (by simp only [A.lastLen]; omega), State.reg_setReg_same]
  · intro a ha hne hlen
    have hlow : a < 0x100 ∨ 0x300000 ≤ a := by simp only [RunReg] at ha; omega
    rw [hwork.reg a ha, s.reg_runEnded p h hlow hne hlen]
  · refine ⟨l, hl.trans ?_⟩
    rw [State.runEnded, State.fire_evq, hsrc, List.append_assoc]
    rfl
  · rw [hwork.sched_lastEnd]
    exact congrArg Sched.lastEnd (State.sched_setSched _ p _)
  · exact hwork.DT
  · exact fun k => hwork.queues k id
  · exact hwork.pair

/-! ### What follows the end of a shot (R62) -/

/-- Where no mirrored update waits, none is applied. -/
theorem State.mirrorEnd_none (s : State) (p : Nat) (h : s.pair2.mirrors = []) : s.mirrorEnd p = s := by
  have hpair : ({ s.pair2 with mirrors := [] } : PairX) = s.pair2 := by rw [← h]
  unfold State.mirrorEnd
  simp only [h, List.filter_nil, List.foldl_nil, hpair]

/-- What the end of a shot has left stays as the run stops or goes on. -/
structure RunFollows (p : Nat) (s t : State) : Prop where
  inShot : t.fld (A.runSts p) F.runSts.inShot = s.fld (A.runSts p) F.runSts.inShot
  shotCut : t.fld (A.runSts p) F.runSts.shotCut = s.fld (A.runSts p) F.runSts.shotCut
  len : t.reg (A.lastLen p) = s.reg (A.lastLen p)
  fired : ∀ e ∈ s.evq, e ∈ t.evq
  lastEnd : (t.sched p).lastEnd = (s.sched p).lastEnd
  queues : ∀ k, t.tq k = s.tq k

theorem runFollows_stop (s : State) (p : Plot) (cause : Nat) (hc : cause < 8) : RunFollows p s (s.stop p cause) := by
  obtain ⟨-, -, -, hevq, hsched⟩ := s.stop_spec p cause hc
  constructor
  · exact s.fld_stop p cause _ (by decide) (by decide) (by decide) (by decide)
  · exact s.fld_stop p cause _ (by decide) (by decide) (by decide) (by decide)
  · exact s.reg_stop p cause (by simp only [A.lastLen]; omega) (by simp only [A.lastLen, A.runSts]; omega)
  · intro e he
    rw [hevq]
    exact List.mem_append_left _ he
  · rw [hsched, Sched.stopped]
  · intro k
    rw [State.tq, State.tq, (s.hidden_stop p cause).1]

theorem runFollows_setSched (s : State) (p : Nat) (c : Sched) (h : c.lastEnd = (s.sched p).lastEnd) : RunFollows p s (s.setSched p c) :=
  ⟨rfl, rfl, rfl, fun _ he => he, by rw [State.sched_setSched, h], fun _ => rfl⟩

theorem runFollows_afterShot (s : State) (p : Plot) : RunFollows p s (s.afterShot p) := by
  unfold State.afterShot
  split
  · exact runFollows_stop s p 2 (by decide)
  · split
    · exact runFollows_stop s p 1 (by decide)
    · exact runFollows_setSched s p _ rfl

/-- A run that drains stops at the end of its shot with cause 010b (R62). -/
theorem State.afterShot_drains (s : State) (p : Plot) (h : s.runState p = 3) : (s.afterShot p).runState p = 0 ∧
    (s.afterShot p).fld (A.runSts p) F.runSts.stopCause = 2 ∧ (s.afterShot p).fld (A.runSts p) F.runSts.done = 1 := by
  obtain ⟨hstate, hdone, hcause, -, -⟩ := s.stop_spec p 2 (by decide)
  rw [State.afterShot, if_pos h]
  exact ⟨hstate, hcause, hdone⟩

/-- A run stops after its last shot with cause 001b (R62). -/
theorem State.afterShot_last (s : State) (p : Plot) (h : s.runState p ≠ 3) (hcont : s.on (A.shotCtl p) F.shotCtl.runCont = false)
    (hlast : (s.reg (A.runShots p)).toNat ≤ (s.reg (A.shotsDone p)).toNat) : (s.afterShot p).runState p = 0 ∧
    (s.afterShot p).fld (A.runSts p) F.runSts.stopCause = 1 ∧ (s.afterShot p).fld (A.runSts p) F.runSts.done = 1 := by
  obtain ⟨hstate, hdone, hcause, -, -⟩ := s.stop_spec p 1 (by decide)
  rw [State.afterShot, if_neg h, if_pos (by simp [hcont, hlast])]
  exact ⟨hstate, hcause, hdone⟩

/-- A continuous run goes on: its next start is computed one tick later (R62). -/
theorem State.afterShot_goes (s : State) (p : Plot) (h : s.runState p ≠ 3) (hcont : s.on (A.shotCtl p) F.shotCtl.runCont = true) :
    (s.afterShot p).runState p = s.runState p ∧ ((s.afterShot p).sched p).computeAt = some (s.DT + 1) := by
  rw [State.afterShot, if_neg h, if_neg (by simp [hcont])]
  exact ⟨rfl, by rw [State.sched_setSched]⟩

theorem exec_shotEnd_over (s : State) (p : Plot) (h : Shot) (hc : s.current p = some h) (hstarted : h.started = true)
    (hover : s.shotOver p = true) (hat : s.DT = (s.sched p).endTick) (hm : s.pair2.mirrors = []) :
    exec (.shotEnd p) s = .next ((s.endShot p h).afterShot p) := by
  have hkept : (s.endShot p h).pair2.mirrors = [] := by rw [(s.endShot_spec p h).pair, hm]
  rw [exec_shotEnd, execShotEnd, hc]
  simp only [hstarted, hover, hat, beq_self_eq_true, Bool.and_self, onlyIf, if_true, State.mirrorEnd_none _ _ hkept]

/-- The end of a shot (R53, R62). -/
theorem completes_shotEnd (s : State) (p : Plot) (h : Shot) (hc : s.current p = some h) (hstarted : h.started = true)
    (hover : s.shotOver p = true) (hat : s.DT = (s.sched p).endTick) (hm : s.pair2.mirrors = []) : Completes (.shotEnd p) s fun t =>
      t.fld (A.runSts p) F.runSts.inShot = 0 ∧ t.reg (A.lastLen p) = BitVec.ofNat 32 (s.DT - h.start) ∧
      (1289 + 4 * p.val, 0) ∈ t.evq ∧ (t.sched p).lastEnd = s.DT ∧ SameBytes s t ∧
      (s.runState p = 3 → t.runState p = 0 ∧ t.fld (A.runSts p) F.runSts.stopCause = 2 ∧ t.fld (A.runSts p) F.runSts.done = 1) ∧
      (s.runState p ≠ 3 → s.on (A.shotCtl p) F.shotCtl.runCont = false →
        (s.reg (A.runShots p)).toNat ≤ (s.reg (A.shotsDone p)).toNat →
        t.runState p = 0 ∧ t.fld (A.runSts p) F.runSts.stopCause = 1 ∧ t.fld (A.runSts p) F.runSts.done = 1) ∧
      (s.runState p ≠ 3 → s.on (A.shotCtl p) F.shotCtl.runCont = true →
        t.runState p = s.runState p ∧ (t.sched p).computeAt = some (s.DT + 1)) := by
  have hend := s.endShot_spec p h
  have hfollow := runFollows_afterShot (s.endShot p h) p
  have hexec := exec_shotEnd_over s p h hc hstarted hover hat hm
  have hmem : ((s.endShot p h).afterShot p).mem = s.mem := by simp
  have hstate : (s.endShot p h).runState p = s.runState p := hend.sts _ (by decide)
  have hreg {a : Nat} (ha : 0x301000 + 0x100 * p.val ≤ a ∧ a < 0x301028 + 0x100 * p ∨ a = A.shotsDone p) :
      (s.endShot p h).reg a = s.reg a := hend.regs a (runReg_shots p (by simp only [A.shotsDone] at ha; omega))
    (by simp only [A.runSts, A.shotsDone] at ha ⊢; omega) (by simp only [A.lastLen, A.shotsDone] at ha ⊢; omega)
  have hcont : (s.endShot p h).on (A.shotCtl p) F.shotCtl.runCont = s.on (A.shotCtl p) F.shotCtl.runCont :=
    State.on_of_reg (hreg (.inl (by simp only [A.shotCtl]; omega))) _
  have hshots : (s.endShot p h).reg (A.runShots p) = s.reg (A.runShots p) := hreg (.inl (by simp only [A.runShots]; omega))
  have hdone : (s.endShot p h).reg (A.shotsDone p) = s.reg (A.shotsDone p) := hreg (.inr rfl)
  obtain ⟨l, hl⟩ := hend.fired
  have hdrains := (s.endShot p h).afterShot_drains p
  have hlast := (s.endShot p h).afterShot_last p
  have hgoes := (s.endShot p h).afterShot_goes p
  rw [hstate] at hdrains hlast hgoes
  rw [hcont] at hlast hgoes
  rw [hshots, hdone] at hlast
  rw [hend.DT] at hgoes
  refine completes_of_exec hexec ⟨hfollow.inShot.trans hend.inShot, hfollow.len.trans hend.len, hfollow.fired _ ?_,
    hfollow.lastEnd.trans hend.lastEnd, ?_, hdrains, hlast, hgoes⟩
  · rw [hl]
    exact List.mem_append_right _ List.mem_cons_self
  · intro a
    rw [State.byte, State.byte, hmem]

end Sys2Proof.Machine
end

section
/-! ## A cut and an abort (R52, R63, R77) -/

namespace Sys2Proof.Machine

open Sys2Proof.Safety

/-! ### The queues of a plot that halts (R77) -/

/-- A queue that is emptied but for its HALTED mark. -/
def Tq.emptied (x : Tq) : Tq := { haltAt := x.haltAt }

/-- The queue `k` stands as it stood. -/
def QueueStands (k : Nat) (s u : State) : Prop := u.tq k = s.tq k

theorem queueStands_refl (k : Nat) (s : State) : QueueStands k s s := rfl

theorem queueStands_trans (k : Nat) (s t u : State) (h : QueueStands k s t) (j : QueueStands k t u) : QueueStands k s u := Eq.trans j h

theorem Beside.queueStands {s u : State} (h : Beside (fun _ => False) s u) (k : Nat) : QueueStands k s u := h.queues k id

/-- The queues of tile `t` are emptied but for their HALTED marks. -/
def State.emptyQueues (s : State) (t : Nat) : State :=
  s.eachSeq t fun s q => s.setTq (sk t q) (s.tq (sk t q)).emptied

/-- The channels of tile `t` play their idle state. -/
def State.idleChans (s : State) (t : Nat) : State := (List.range 30).foldl (fun s n => s.idleChan t n) s

theorem State.haltPlot_eq (s : State) (p : Nat) : s.haltPlot p =
    (s.eachTile p fun s t => (s.emptyQueues t).idleChans t).cutWindows p := rfl

theorem beside_idleChans {Q : Nat → Prop} (s : State) {t : Nat} (ht : t < 32) : Beside Q s (s.idleChans t) :=
  beside_range _ 30 (fun u n _ => beside_idleChan u n ht) s

theorem beside_emptyQueues (s : State) (t : Nat) : Beside (fun _ => True) s (s.emptyQueues t) :=
  beside_eachSeq s t _ fun u _ _ => beside_setTq u _ trivial

theorem beside_haltPlot (s : State) (p : Nat) : Beside (fun _ => True) s (s.haltPlot p) := by
  rw [s.haltPlot_eq]
  exact (beside_eachTile s p _ fun u t ht => (beside_emptyQueues u t).then (beside_idleChans _ ht)).then (beside_cutWindows _ p)

theorem queueStands_setTq (s : State) {k j : Nat} (x : Tq) (h : k ≠ j) : QueueStands k s (s.setTq j x) := KMap.get_set_ne _ _ _ _ h

theorem queueStands_emptyQueues (s : State) {i q t : Nat} (hq : q < 34) (hne : t ≠ i) : QueueStands (sk i q) s (s.emptyQueues t) :=
  foldl_rel (queueStands_refl _) (queueStands_trans _) _ _
    (fun u r hr => queueStands_setTq u _ (by have := List.mem_range.1 hr; simp only [sk]; omega)) s

theorem State.tq_emptyQueues (s : State) (t : Nat) {q : Nat} (hq : q < 34) :
    (s.emptyQueues t).tq (sk t q) = (s.tq (sk t q)).emptied := by
  obtain ⟨u, hu, hend⟩ := foldl_once (queueStands_refl (sk t q)) (queueStands_trans _)
    (fun s r => s.setTq (sk t r) (s.tq (sk t r)).emptied) q (List.range 34)
    (fun v r hr hne => queueStands_setTq v _ (by simp only [sk]; omega)) List.nodup_range (List.mem_range.2 hq) s
  rw [← show u.tq (sk t q) = s.tq (sk t q) from hu]
  exact Eq.trans hend (State.tq_setTq _ _ _)

/-- The timed queues of a plot that halts are emptied but for their HALTED marks (R77). -/
theorem State.tq_haltPlot (s : State) (p : Nat) {i q : Nat} (hi : i ∈ s.tilesOf p) (hq : q < 34) :
    (s.haltPlot p).tq (sk i q) = (s.tq (sk i q)).emptied := by
  have hturn (u : State) (t : Nat) (ht : t < 32) (hne : t ≠ i) : QueueStands (sk i q) u ((u.emptyQueues t).idleChans t) :=
    queueStands_trans _ _ _ _ (queueStands_emptyQueues u hq hne) ((beside_idleChans _ ht).queueStands _)
  obtain ⟨u, hu, hend⟩ := foldl_once (queueStands_refl (sk i q)) (queueStands_trans _) (fun s t => (s.emptyQueues t).idleChans t) i
    (s.tilesOf p) (fun v t ht hne => hturn v t ((mem_tilesOf s p t).1 ht).1 hne) (nodup_tilesOf s p) hi s
  have hown : ((u.emptyQueues i).idleChans i).tq (sk i q) = (u.tq (sk i q)).emptied :=
    Eq.trans ((beside_idleChans _ ((mem_tilesOf s p i).1 hi).1).queueStands _) (u.tq_emptyQueues i hq)
  have hcut := (beside_cutWindows (Q := fun _ => False) (s.eachTile p fun s t => (s.emptyQueues t).idleChans t) p).queueStands (sk i q)
  rw [s.haltPlot_eq, ← show u.tq (sk i q) = s.tq (sk i q) from hu, ← hown]
  exact Eq.trans hcut hend

/-! ### A cut (R52) -/

/-- The tiles of plot `p` at a cut: the sequencers stop, the queues empty, the shot is flagged. -/
def State.tilesCut (s : State) (p : Nat) (h : Shot) : State :=
  ((s.eachTile p fun s t => s.eachSeq t fun s q => s.seqCut t q).haltPlot p).flagShot p h.sid (Flag.taint ||| Flag.cut)

/-- The run as its shot is cut, before the shot ends. -/
def State.runCut (s : State) (p : Nat) (h : Shot) : State := ((s.tilesCut p h).runSet p F.runSts.shotCut 1).fire (shotSrc p 3)

theorem State.cutShot_eq (s : State) (p : Nat) (h : Shot) : s.cutShot p h = (s.runCut p h).endShot p h := rfl

theorem beside_seqsCut {Q : Nat → Prop} (s : State) (p : Nat) :
    Beside Q s (s.eachTile p fun s t => s.eachSeq t fun s q => s.seqCut t q) :=
  beside_eachTile s p _ fun u t ht => beside_eachSeq u t _ fun v q _ => beside_seqCut v q ht

theorem beside_tilesCut (s : State) (p : Nat) (h : Shot) : Beside (fun _ => True) s (s.tilesCut p h) :=
  ((beside_seqsCut s p).then (beside_haltPlot _ p)).then (beside_flagShot _ p _ _)

theorem State.tq_tilesCut (s : State) (p : Nat) (h : Shot) {i q : Nat} (hi : i ∈ s.tilesOf p) (hq : q < 34) :
    (s.tilesCut p h).tq (sk i q) = (s.tq (sk i q)).emptied := by
  have hseqs := beside_seqsCut (Q := fun _ => False) s p
  have hflag (u : State) : (u.flagShot p h.sid (Flag.taint ||| Flag.cut)).tq (sk i q) = u.tq (sk i q) := rfl
  rw [State.tilesCut, hflag, State.tq_haltPlot _ p (by rw [hseqs.tilesOf]; exact hi) hq, hseqs.queues _ id]

theorem exec_shotCut_due (s : State) (p : Plot) (h : Shot) (hc : s.current p = some h) (hstarted : h.started = true)
    (hover : s.shotOver p = false) (hnow : s.endsNow p = false) (hat : s.DT = h.start + (s.reg (A.shotMax p)).toNat)
    (hm : (s.cutShot p h).pair2.mirrors = []) : exec (.shotCut p) s = .next ((s.cutShot p h).afterShot p) := by
  rw [exec_shotCut, execShotCut, hc]
  simp only [hstarted, hover, hnow, hat, beq_self_eq_true, Bool.not_false, Bool.and_self, onlyIf, if_true, State.mirrorEnd_none _ _ hm]

/-- A cut (R52, R77). -/
theorem completes_shotCut (s : State) (p : Plot) (h : Shot) (hc : s.current p = some h) (hstarted : h.started = true)
    (hover : s.shotOver p = false) (hnow : s.endsNow p = false) (hat : s.DT = h.start + (s.reg (A.shotMax p)).toNat)
    (hm : s.pair2.mirrors = []) : Completes (.shotCut p) s fun t =>
      t.fld (A.runSts p) F.runSts.shotCut = 1 ∧ t.fld (A.runSts p) F.runSts.inShot = 0 ∧
      t.reg (A.lastLen p) = s.reg (A.shotMax p) ∧ (1291 + 4 * p.val, 0) ∈ t.evq ∧ (1289 + 4 * p.val, 0) ∈ t.evq ∧ SameBytes s t ∧
      ∀ (i : Tile) (q : Seq), s.inPlot p i = true → t.tq (sk i q) = { haltAt := (s.tq (sk i q)).haltAt } := by
  have htiles := beside_tilesCut s p h
  have hend := (s.runCut p h).endShot_spec p h
  have hfollow := runFollows_afterShot ((s.runCut p h).endShot p h) p
  have hpair : (s.runCut p h).pair2 = s.pair2 := htiles.pair
  have hexec := exec_shotCut_due s p h hc hstarted hover hnow hat (by rw [s.cutShot_eq, hend.pair, hpair, hm])
  have hmem : ((s.cutShot p h).afterShot p).mem = s.mem := by simp
  have hsrc : shotSrc p 3 = 1291 + 4 * p.val := by unfold shotSrc; omega
  have hcut : (s.runCut p h).fld (A.runSts p) F.runSts.shotCut = 1 := by
    rw [State.runCut, State.fld_fire_shotSrc _ p 3 (by decide) (runSts_ge p)]
    exact State.fld_runSet_same _ p _ 1 (by decide)
  have hDT : (s.runCut p h).DT = s.DT := htiles.DT
  obtain ⟨l, hl⟩ := hend.fired
  rw [s.cutShot_eq] at hexec hmem
  refine completes_of_exec hexec ⟨hfollow.shotCut.trans ((hend.sts _ (by decide)).trans hcut), hfollow.inShot.trans hend.inShot,
    hfollow.len.trans (hend.len.trans ?_), hfollow.fired _ ?_, hfollow.fired _ ?_, ?_, fun i q hi => ?_⟩
  · rw [hDT, hat, Nat.add_sub_cancel_left]
    exact BitVec.ofNat_toNat .. |>.trans (BitVec.setWidth_eq _)
  · rw [hl, State.runCut, State.fire_evq, hsrc]
    exact List.mem_append_left _ (List.mem_append_right _ (List.mem_singleton_self _))
  · rw [hl]
    exact List.mem_append_right _ List.mem_cons_self
  · intro a
    rw [State.byte, State.byte, hmem]
  · have hrun (u : State) : ((u.runSet p F.runSts.shotCut 1).fire (shotSrc p 3)).tq (sk i q) = u.tq (sk i q) := rfl
    refine (hfollow.queues _).trans ((hend.queues _).trans ?_)
    rw [State.runCut, hrun]
    exact s.tq_tilesCut p h ((mem_tilesOf s p i).2 ⟨i.isLt, hi⟩) q.isLt

end Sys2Proof.Machine
end

section
/-! ## An abort takes effect (R63, R77, R148, R149) -/

namespace Sys2Proof.Machine

open Sys2Proof.Safety

/-- Plot `p` is halted: its queues are emptied but for their HALTED marks, and the assignment of tiles and the pair stand. -/
structure Halted (p : Nat) (s v : State) : Prop where
  tiles : v.tilesOf p = s.tilesOf p
  queues : ∀ i q, i ∈ s.tilesOf p → q < 34 → v.tq (sk i q) = (s.tq (sk i q)).emptied
  pair : v.pair2 = s.pair2

/-- The sequencers of plot `p` take the faults that wait, and the plot halts (R63, R113). -/
def State.abortHalts (s : State) (p : Nat) : State := (s.eachTile p fun s t => s.eachSeq t fun s q => s.queueFault t q).haltPlot p

theorem beside_queueFaults {Q : Nat → Prop} (s : State) (p : Nat) :
    Beside Q s (s.eachTile p fun s t => s.eachSeq t fun s q => s.queueFault t q) :=
  beside_eachTile s p _ fun u t ht => beside_eachSeq u t _ fun v q _ => beside_queueFault v q ht

theorem halted_abortHalts (s : State) (p : Nat) : Halted p s (s.abortHalts p) := by
  have hfaults := beside_queueFaults (Q := fun _ => False) s p
  have hhalt := beside_haltPlot (s.eachTile p fun s t => s.eachSeq t fun s q => s.queueFault t q) p
  refine ⟨(hhalt.tilesOf p).trans (hfaults.tilesOf p), fun i q hi hq => ?_, hhalt.pair.trans hfaults.pair⟩
  rw [State.abortHalts, State.tq_haltPlot _ p (by rw [hfaults.tilesOf]; exact hi) hq, hfaults.queues _ id]

theorem Halted.beside {p : Nat} {s u v : State} (h : Halted p s u) (k : Beside (fun _ => False) u v) : Halted p s v :=
  ⟨(k.tilesOf p).trans h.tiles, fun i q hi hq => (k.queues _ id).trans (h.queues i q hi hq), k.pair.trans h.pair⟩

theorem Halted.ended {p : Plot} {s u : State} (h : Halted p s u) (x : Shot) : Halted p s (u.endShot p x) := by
  have hend := u.endShot_spec p x
  refine ⟨?_, fun i q hi hq => (hend.queues _).trans (h.queues i q hi hq), hend.pair.trans h.pair⟩
  exact (State.tilesOf_of_reg (fun a ha => hend.regs a (.inl ha) (by simp only [A.runSts]; omega) (by simp only [A.lastLen]; omega)) p).trans
    h.tiles

/-- What becomes of a shot that an abort finds announced and not started. -/
def State.unannounce (s : State) (p : Nat) (h : Shot) : State :=
  ((s.setSched p { s.sched p with shots := (s.sched p).shots.filter fun x => x.sid != h.sid }).runSet p F.runSts.inShot 0).eachTile p
    fun s t => ({ s with parity := KMap.set [] s.parity t [] } : State).failedOff t

theorem Halted.unannounced {p : Plot} {s u : State} (h : Halted p s u) (x : Shot) : Halted p s (u.unannounce p x) := by
  have hrun : Halted p s ((u.setSched p { u.sched p with shots := (u.sched p).shots.filter fun y => y.sid != x.sid }).runSet p
      F.runSts.inShot 0) := by
    refine ⟨?_, h.queues, h.pair⟩
    refine (State.tilesOf_of_reg (fun a ha => ?_) p).trans h.tiles
    rw [State.reg_runSet_ne _ _ _ (by simp only [A.runSts]; omega), State.reg_setSched]
  refine hrun.beside (beside_eachTile _ p _ fun w t _ => ?_)
  have hparity : Beside (fun _ => False) w { w with parity := KMap.set [] w.parity t [] } :=
    beside_hidden rfl rfl rfl rfl rfl rfl rfl rfl
  exact hparity.then (beside_failedOff _ t)

/-- An abort halts the plot, ends or withdraws its shot in progress, and stops the run (R63). -/
theorem State.abortNow_stops (s : State) (p : Plot) (underrun : Bool) :
    ∃ v, s.abortNow p underrun = v.stop p (if underrun then 4 else 3) ∧ Halted p s v := by
  have hhalt := halted_abortHalts s p
  have heq : s.abortNow p underrun = match (s.abortHalts p).current p with
      | some h => if h.started then (((s.abortHalts p).flagShot p h.sid (Flag.taint ||| Flag.aborted |||
          (if underrun then Flag.underrun else 0))).endShot p h).stop p (if underrun then 4 else 3)
        else ((s.abortHalts p).unannounce p h).stop p (if underrun then 4 else 3)
      | none => (s.abortHalts p).stop p (if underrun then 4 else 3) := rfl
  rw [heq]
  generalize s.abortHalts p = u at hhalt
  split
  · next h _ =>
    split
    · exact ⟨_, rfl, (hhalt.beside (beside_flagShot u p h.sid _)).ended h⟩
    · exact ⟨_, rfl, hhalt.unannounced h⟩
  · exact ⟨u, rfl, hhalt⟩

theorem exec_abortTakesEffect_due (s : State) (p : Plot) (u : Bool) (ha : (s.sched p).abortAt = some (s.DT, u))
    (hm : (s.abortNow p u).pair2.mirrors = []) : exec (.abortTakesEffect p) s = .next (s.abortNow p u) := by
  rw [exec_abortTakesEffect, execAbortTakesEffect, ha]
  simp only [beq_self_eq_true, onlyIf, if_true, State.mirrorEnd_none _ _ hm]

/-- An abort that takes effect (R63, R77, R148, R149). -/
theorem completes_abortTakesEffect (s : State) (p : Plot) (u : Bool) (ha : (s.sched p).abortAt = some (s.DT, u))
    (hm : s.pair2.mirrors = []) : Completes (.abortTakesEffect p) s fun t =>
      t.runState p = 0 ∧ t.fld (A.runSts p) F.runSts.stopCause = (if u then 4 else 3) ∧ t.fld (A.runSts p) F.runSts.done = 1 ∧
      (t.sched p).abortAt = none ∧ (t.sched p).fixed = none ∧ SameBytes s t ∧
      ∀ (i : Tile), s.inPlot p i = true → (∀ q : Seq, t.tq (sk i q) = { haltAt := (s.tq (sk i q)).haltAt }) ∧
        ∀ m : Fin 4, t.mark i m = {} := by
  obtain ⟨v, hv, hhalt⟩ := s.abortNow_stops p u
  obtain ⟨hstate, hdone, hcause, -, hsched⟩ := v.stop_spec p (if u then 4 else 3) (by cases u <;> decide)
  obtain ⟨htqs, hpair⟩ := v.hidden_stop p (if u then 4 else 3)
  have hexec := exec_abortTakesEffect_due s p u ha (by rw [hv, hpair, hhalt.pair, hm])
  have hmem : (v.stop p (if u then 4 else 3)).mem = s.mem := by rw [← hv]; simp
  rw [hv] at hexec
  refine completes_of_exec hexec ⟨hstate, hcause, hdone, by rw [hsched, Sched.stopped], by rw [hsched, Sched.stopped], fun a => ?_,
    fun i hi => ⟨fun q => ?_, fun m => ?_⟩⟩
  · rw [State.byte, State.byte, hmem]
  · rw [State.tq, htqs]
    exact hhalt.queues i q ((mem_tilesOf s p i).2 ⟨i.isLt, hi⟩) q.isLt
  · have htiles : (v.stopRun p (if u then 4 else 3)).tilesOf p = s.tilesOf p :=
      (State.tilesOf_of_reg (fun a ha => v.reg_stopRun p _ (.inl ha) (by simp only [A.runSts]; omega)) p).trans hhalt.tiles
    rw [v.stop_eq]
    exact State.mark_stopTiles _ p i m.isLt (by rw [htiles]; exact (mem_tilesOf s p i).2 ⟨i.isLt, hi⟩)

/-- Settles O17, a lemma per command: the run's own registers and scheduler say what the announcement, the start and the end of a shot
do to it, and all their work in tiles, lanes, slots and links stands beside the runs (`Beside`). -/
theorem shotsAreAnnouncedStartAndEnd : Obligations.ShotsAreAnnouncedStartAndEnd := by
  unfold Obligations.ShotsAreAnnouncedStartAndEnd
  exact ⟨⟨completes_shotAnnounce, completes_shotStart⟩, completes_shotEnd, completes_shotCut, completes_abortTakesEffect⟩

end Sys2Proof.Machine
end

section
/-! ## The datapaths' tick beside the runs (R126, R145, R158, R197–R223) -/

namespace Sys2Proof.Machine

open Sys2Proof.Safety

section
variable {Q : Nat → Prop} (s : State)

/-! ### RF and flux outputs -/

theorem beside_fireOnceIn {t k : Nat} (ahead : Bool) (ht : t < 32) (hk : k < 40) : Beside Q s (s.fireOnceIn t k ahead) := by
  have honce (u : State) (m : KMap (List Nat)) : Beside Q u { u with once := m } := beside_hidden rfl rfl rfl rfl rfl rfl rfl rfl
  unfold State.fireOnceIn
  exact beside_ite (beside_refl Q s) ((beside_fire_tile s ht hk).then (honce _ _))

theorem beside_fireOnce {t k : Nat} (ht : t < 32) (hk : k < 40) : Beside Q s (s.fireOnce t k) := beside_fireOnceIn s false ht hk

theorem beside_xyClip {t : Nat} (o : Nat) (ht : t < 32) : Beside Q s (s.xyClip t o) :=
  beside_ite (((beside_raise s _ _ (not_runReg_tile (by simp only [A.xoSts]; omega))).then
    (beside_bump _ (not_runReg_tile (by simp only [A.xoClipCnt]; omega)))).then (beside_fireOnce _ ht (by decide))) (beside_refl Q s)

theorem beside_probeClip {t : Nat} (ht : t < 32) : Beside Q s (s.probeClip t) :=
  beside_ite (((beside_raise s _ _ (not_runReg_tile (by simp only [A.poSts]; omega))).then
    (beside_bump _ (not_runReg_tile (by simp only [A.poClipCnt]; omega)))).then (beside_fireOnce _ ht (by decide))) (beside_refl Q s)

theorem beside_envTick (t n : Nat) : Beside Q s (s.envTick t n) := by
  have henvs (m : KMap (List (Int × Int × Nat × Nat))) : Beside Q s { s with envs := m } := beside_hidden rfl rfl rfl rfl rfl rfl rfl rfl
  exact henvs _

theorem beside_setConv (t i : Nat) (x : ConvX) : Beside Q s (s.setConv t i x) := beside_hidden rfl rfl rfl rfl rfl rfl rfl rfl

theorem beside_zeroTick (t f : Nat) : Beside Q s (s.zeroTick t f) := beside_setConv s t (5 + f) _

/-- A flux output that clips (R165). -/
theorem beside_fluxClip {t : Nat} (f : Nat) (c d : Prop) [Decidable c] [Decidable d] (u : State) (h : Beside Q s u) (ht : t < 32) :
    Beside Q s (if c then
      (if d then ((u.raise (A.fxSts t f) F.fxSts.clip 1).bump (A.fxClipCnt t f)).fire (tileSrc t 15)
        else (u.raise (A.fxSts t f) F.fxSts.clip 1).bump (A.fxClipCnt t f)) else u) := by
  have hclip : Beside Q s ((u.raise (A.fxSts t f) F.fxSts.clip 1).bump (A.fxClipCnt t f)) :=
    (h.then (beside_raise _ _ _ (not_runReg_tile (by simp only [A.fxSts]; omega)))).then
      (beside_bump _ (not_runReg_tile (by simp only [A.fxClipCnt]; omega)))
  exact beside_ite (beside_ite (hclip.then (beside_fire_tile _ ht (by decide))) hclip) h

theorem beside_fluxTick {t : Nat} (f : Nat) (ht : t < 32) : Beside Q s (s.fluxTick t f) := by
  unfold State.fluxTick
  exact beside_fluxClip s f _ _ _ (beside_setFlux s t f _) ht

/-! ### Acquisition -/

theorem beside_adcTick {t : Nat} (ht : t < 32) : Beside Q s (s.adcTick t) := by
  have hover : Beside Q s ((s.bump (A.riOvrCnt t)).raise (A.riSts t) F.riSts.ovr 1) :=
    (beside_bump s (not_runReg_tile (by simp only [A.riOvrCnt]; omega))).then
      (beside_raise _ _ _ (not_runReg_tile (by simp only [A.riSts]; omega)))
  unfold State.adcTick
  refine beside_ite ?_ (beside_refl Q s)
  simp only
  split
  · split
    · exact hover.then (beside_fireOnceIn _ _ ht (by decide))
    · exact hover
  · exact hover

theorem beside_trackSpread (t p d j st k : Nat) (i q : Int) : Beside Q s (s.trackSpread t p d j st k i q) := by
  unfold State.trackSpread
  split
  · exact beside_ite (beside_setReg s _ (not_runReg_tile (by simp only [A.dbSpread]; omega))) (beside_refl Q s)
  · exact beside_refl Q s

theorem beside_loopInput (t p d st : Nat) (i q : Int) : Beside Q s (s.loopInput t p d st i q) := by
  have hcent (v w : Word) : Beside Q s ((s.setReg (A.dbCentI t p d st) v).setReg (A.dbCentQ t p d st) w) :=
    (beside_setReg s v (not_runReg_tile (by simp only [A.dbCentI]; omega))).then
      (beside_setReg _ w (not_runReg_tile (by simp only [A.dbCentQ]; omega)))
  unfold State.loopInput
  refine beside_ite (beside_refl Q s) ?_
  exact ((((hcent _ _).then (beside_trackSpread _ t p d 0 st _ i q)).then (beside_trackSpread _ t p d 1 st _ i q)).then
    (beside_setBank _ t p d _)).then (beside_bump _ (not_runReg_tile (by simp only [A.dbUpdCnt]; omega)))

theorem beside_trackInput (t p : Nat) (i q : Int) : Beside Q s (s.trackInput t p i q) := by
  unfold State.trackInput
  exact beside_ite (beside_refl Q s) (beside_modLane s t p _)

theorem beside_feedLoops (t p : Nat) (w : Win) (r : Result) : Beside Q s (s.feedLoops t p w r) := by
  have hinput : Beside Q s (if getF w.a F.rsA.thrSrc = 1 && r.st ≤ 2 then s.loopInput t p (getF w.a F.rsA.bank) r.st r.i r.q else s) :=
    beside_ite (beside_loopInput s t p _ _ _ _) (beside_refl Q s)
  unfold State.feedLoops
  exact beside_ite (beside_refl Q s) (beside_ite (hinput.then (beside_trackInput _ t p _ _)) hinput)

/-- A pass over a list works beside the runs where each of its turns does. -/
theorem beside_foldl_any {α : Type} (g : State → α → State) (l : List α) (hg : ∀ u x, Beside Q u (g u x)) (u : State) :
    Beside Q u (l.foldl g u) := by
  induction l generalizing u with
  | nil => exact beside_refl Q u
  | cons x l ih => exact (hg u x).then (ih _)

theorem beside_feedTick (t p : Nat) : Beside Q s (s.feedTick t p) :=
  (beside_foldl_any (fun s (x : Stored) => s.feedLoops t p x.win x.res) _ (fun u x => beside_feedLoops u t p x.win x.res) s).then
    (beside_modLane _ t p _)

theorem beside_discTick (t p : Nat) : Beside Q s (s.discTick t p) := by
  unfold State.discTick
  split
  · exact beside_ite (beside_modLane s t p _) (beside_refl Q s)
  · exact beside_refl Q s

theorem beside_noteOvf {t : Nat} (p pl sid n : Nat) (ht : t < 32) : Beside Q s (s.noteOvf t p pl sid n) := by
  unfold State.noteOvf
  refine beside_ite (beside_refl Q s) ?_
  exact (((beside_lnSet s t p _).then (beside_bumpBy _ n (not_runReg_tile (by simp only [A.lnOvfCnt]; omega)))).then
    (beside_fireOnce _ ht (by decide))).then (beside_flagShot _ pl sid _)

theorem beside_accTick {t : Nat} (p : Nat) (sh : Bool) (w : Win) (ht : t < 32) : Beside Q s (s.accTick t p sh w) := by
  unfold State.accTick
  refine beside_ite (beside_refl Q s) ?_
  split
  · exact (beside_lnSet s t p _).then (beside_bump _ (not_runReg_tile (by simp only [A.lnPreemptTicks]; omega)))
  · exact (beside_modLane s t p _).then (beside_noteOvf _ p _ _ _ ht)

theorem beside_winTick {t : Nat} (p : Nat) (sh : Bool) (ht : t < 32) : Beside Q s (s.winTick t p sh) := by
  unfold State.winTick
  split
  · exact beside_refl Q s
  · have hacc (x : LaneX → LaneX) (w : Win) : Beside Q s ((s.modLane t p x).accTick t p sh w) :=
      (beside_modLane s t p x).then (beside_accTick _ p sh w ht)
    exact beside_ite ((hacc _ _).then (beside_storeWin _ t p sh _)) (hacc _ _)

theorem beside_pushRec {t : Nat} (r : Rec) (ht : t < 32) : Beside Q s (s.pushRec t r) := by
  have hrecs (m : KMap (List Rec)) : Beside Q s { s with recs := m } := beside_hidden rfl rfl rfl rfl rfl rfl rfl rfl
  have hrings (m : KMap RingX) : Beside Q s { s with rings := m } := beside_hidden rfl rfl rfl rfl rfl rfl rfl rfl
  unfold State.pushRec
  refine beside_ite (hrecs _) ?_
  exact (((hrings _).then (beside_bump _ (not_runReg_tile (by simp only [A.riDropCnt]; omega)))).then
    (beside_raise _ _ _ (not_runReg_tile (by simp only [A.riSts]; omega)))).then (beside_fireOnce _ ht (by decide))

theorem beside_recordResult {t : Nat} (p : Nat) (x : Stored) (ht : t < 32) : Beside Q s (s.recordResult t p x) := by
  unfold State.recordResult
  exact beside_ite (beside_refl Q s) (beside_pushRec s _ ht)

theorem beside_dueTick {t : Nat} (p : Nat) (ht : t < 32) : Beside Q s (s.dueTick t p) :=
  (beside_modLane s t p _).then (beside_foldl_any _ _ (fun u x => beside_recordResult u p x ht) _)

theorem beside_laneTick {t : Nat} (p : Nat) (ht : t < 32) : Beside Q s (s.laneTick t p) := by
  unfold State.laneTick
  refine beside_ite (beside_refl Q s) ?_
  exact ((((beside_feedTick s t p).then (beside_discTick _ t p)).then (beside_winTick _ p false ht)).then
    (beside_winTick _ p true ht)).then (beside_dueTick _ p ht)

/-! ### The tiles -/

theorem beside_tileTick {t : Nat} (ht : t < 32) : Beside Q s (s.tileTick t) := by
  have hrf := (beside_range _ 4 (fun u o _ => beside_xyClip u o ht) s).then (beside_probeClip (Q := Q) _ ht)
  have henv := hrf.then (beside_range _ 16 (fun u n _ => beside_envTick u t n) _)
  have hflux := henv.then (beside_range _ 14 (fun u f _ => (beside_fluxTick u f ht).then (beside_zeroTick _ t f)) _)
  exact (hflux.then (beside_adcTick _ ht)).then (beside_range _ 8 (fun u p _ => beside_laneTick u p ht) _)

theorem beside_tilesTick : Beside Q s s.tilesTick :=
  beside_range _ 32 (fun u _ ht => beside_ite (beside_tileTick u ht) (beside_refl Q u)) s

/-- The ticks of the stalled sequencers are counted (R89). -/
theorem beside_stallTick : Beside Q s s.stallTick :=
  beside_foldl_any _ _ (fun u k => beside_bump u (not_runReg_tile (by simp only [A.tqStallTicks]; omega))) s

end

end Sys2Proof.Machine
end

section
/-! ## Housekeeping, rings and images beside the runs (R304, R348, R371, R413–R421) -/

namespace Sys2Proof.Machine

open Sys2Proof.Safety

section
variable {Q : Nat → Prop} (s : State)

theorem beside_fireRaw (src g : Nat) (h : src < 8000000) : Beside Q s (s.fireRaw src g) := by
  have ha : ¬ RunReg (A.evfSrcSts (src / 32)) := by simp only [RunReg, A.evfSrcSts]; omega
  exact ⟨fun _ hb => s.reg_setReg_ne _ fun h => ha (h ▸ hb), fun _ _ => rfl, ⟨rfl, rfl, rfl⟩, rfl, ⟨[(src, g)], rfl⟩, fun _ => rfl⟩

theorem beside_fireG (src g : Nat) (h : src < 8000000) : Beside Q s (s.fireG src g) := by
  have hloop : Beside Q s (((s.raise A.evfSts F.evfSts.evfLoop 1).bump A.evfLoopCnt).setFld A.evfLoopSrc F.evfLoopSrc.src src) :=
    ((beside_raise s _ _ (by simp only [RunReg, A.evfSts]; omega)).then
      (beside_bump _ (by simp only [RunReg, A.evfLoopCnt]; omega))).then (beside_setFld _ _ _ (by simp only [RunReg, A.evfLoopSrc]; omega))
  unfold State.fireG
  exact beside_ite (beside_fireRaw s src g h) (beside_ite hloop (hloop.then (beside_fireRaw _ 1457 0 (by decide))))

theorem beside_note (a : Nat) (f : Fld) (x : Nat) : Beside Q s (s.note a f x) := beside_hidden rfl rfl rfl rfl rfl rfl rfl rfl

theorem beside_arrived (lo : Nat) : Beside Q s (s.arrived lo) :=
  beside_ite (beside_hidden rfl rfl rfl rfl rfl rfl rfl rfl) (beside_refl Q s)

theorem beside_setPair {lo hi : Nat} (v : Nat) (hlo : ¬ RunReg lo) (hhi : ¬ RunReg hi) : Beside Q s (s.setPair lo hi v) :=
  ((beside_setReg s _ hlo).then (beside_setReg _ _ hhi)).then (beside_arrived _ lo)

/-! ### The housekeeping converter (R413–R421) -/

theorem beside_setHk (q : Nat) (x : HkX) : Beside Q s (s.setHk q x) := beside_hidden rfl rfl rfl rfl rfl rfl rfl rfl

theorem beside_hkFlag (q : Nat) (f : Fld) (v : Nat) : Beside Q s (s.hkFlag q f v) :=
  (beside_setFld s f v (not_runReg_tile (by simp only [A.hkSts]; omega))).then (beside_note _ _ f v)

theorem beside_hkStore {q : Nat} (r : Nat × Word × Int × Nat × Nat) (hq : q < 4) : Beside Q s (s.hkStore q r) := by
  have hres (v w : Word) : Beside Q s (((s.setReg (A.hkRes q r.1) v).setReg (A.hkResFlg q r.1) w).arrived (A.hkRes q r.1)) :=
    ((beside_setReg s v (not_runReg_tile (by simp only [A.hkRes]; omega))).then
      (beside_setReg _ w (not_runReg_tile (by simp only [A.hkResFlg]; omega)))).then (beside_arrived _ _)
  have hurg (v w : Word) : Beside Q s (((s.setReg (A.hkUrgRes q) v).setReg (A.hkUrgFlg q) w).arrived (A.hkUrgRes q)) :=
    ((beside_setReg s v (not_runReg_tile (by simp only [A.hkUrgRes]; omega))).then
      (beside_setReg _ w (not_runReg_tile (by simp only [A.hkUrgFlg]; omega)))).then (beside_arrived _ _)
  have hlim (u : State) (m : Word) : Beside Q u (u.raiseReg (if r.1 < 32 then A.hkLimStsLo q else A.hkLimStsHi q) m) := by
    have ha : ¬ RunReg (if r.1 < 32 then A.hkLimStsLo q else A.hkLimStsHi q) := not_runReg_tile (by
      split
      · simp only [A.hkLimStsLo]; omega
      · simp only [A.hkLimStsHi]; omega)
    exact ⟨fun _ hb => u.reg_setReg_ne _ fun h => ha (h ▸ hb), fun _ _ => rfl, ⟨rfl, rfl, rfl⟩, rfl, ⟨[], by simp⟩, fun _ => rfl⟩
  unfold State.hkStore
  refine beside_ite (beside_ite ?_ (hres _ _)) (hurg _ _)
  exact ((hres _ _).then (hlim _ _)).then (beside_fireG _ _ _ (by omega))

theorem beside_hkResult {q : Nat} (c : HkConv) (code : Int) (fl : Nat) (hq : q < 4) : Beside Q s (s.hkResult q c code fl) := by
  unfold State.hkResult
  exact beside_ite (beside_ite (beside_setHk s q _) (beside_refl Q s)) (beside_ite (beside_hkStore s _ hq) (beside_setHk s q _))

theorem beside_hkEnded {q : Nat} (c : HkConv) (hq : q < 4) : Beside Q s (s.hkEnded q c) := by
  have hurg : Beside Q s (if c.kind = 2 then ((s.hkFlag q F.hkSts.urgBusy 0).hkFlag q F.hkSts.urgDone 1).fireG (1412 + q) (s.hk q).urgGen
      else s) :=
    beside_ite (((beside_hkFlag s q _ 0).then (beside_hkFlag _ q _ 1)).then (beside_fireG _ _ _ (by omega))) (beside_refl Q s)
  exact hurg.then (beside_setHk _ q _)

theorem beside_hkStart (q : Nat) (c : HkConv) : Beside Q s (s.hkStart q c) := beside_setHk s q _

theorem beside_hkPassEnd {q : Nat} (hq : q < 4) : Beside Q s (s.hkPassEnd q) := by
  have hpass : Beside Q s (((s.hkFlag q F.hkSts.done 1).bump (A.hkPassCnt q)).fireG (1408 + q) (s.hk q).gen) :=
    ((beside_hkFlag s q _ 1).then (beside_bump _ (not_runReg_tile (by simp only [A.hkPassCnt]; omega)))).then
      (beside_fireG _ _ _ (by omega))
  unfold State.hkPassEnd
  exact beside_ite (hpass.then (beside_setHk _ q _)) (hpass.then (beside_hkFlag _ q _ 0))

theorem beside_hkNext {q : Nat} (n : Nat) (hq : q < 4) : Beside Q s (s.hkNext q n) := by
  induction n generalizing s with
  | zero => exact beside_refl Q s
  | succ n ih =>
    unfold State.hkNext
    refine beside_ite (beside_refl Q s) ?_
    split
    · simp only
      split
      · exact (((beside_setHk s q _).then (beside_hkResult _ _ 0 _ hq)).then (beside_hkEnded _ _ hq)).then (ih _)
      · exact (beside_setHk s q _).then (beside_hkStart _ q _)
    · exact beside_ite (beside_hkPassEnd s hq) (beside_refl Q s)

theorem beside_hkShow (q : Nat) : Beside Q s (s.hkShow q) := by
  unfold State.hkShow
  split
  · exact beside_hkFlag s q _ 0
  · exact beside_ite ((beside_hkFlag s q _ _).then (beside_hkFlag _ q _ _)) (beside_hkFlag s q _ _)

theorem beside_hkGo {q : Nat} (hq : q < 4) : Beside Q s (s.hkGo q) := (beside_hkNext s 70 hq).then (beside_hkShow _ q)

/-! ### The counters kept in MRAM (R304) -/

theorem beside_setCb (i v : Nat) (hi : i < 1000000) : Beside Q s (s.setCb i v) :=
  beside_setPair s v (by simp only [RunReg, A.cbCntLo]; omega) (by simp only [RunReg, A.cbCntHi]; omega)

theorem beside_mramWrite (page : Nat) : Beside Q s (s.mramWrite page) := by
  have hbook (b : BookX) : Beside Q s { s with book := b } := beside_hidden rfl rfl rfl rfl rfl rfl rfl rfl
  have hregion : mramRegion page < 8 := by
    unfold mramRegion
    repeat' split
    all_goals decide
  have hcb (b : BookX) (n : Nat) : Beside Q s (({ s with book := b } : State).setCb (20 + mramRegion page) n) :=
    (hbook b).then (beside_setCb _ _ n (by omega))
  unfold State.mramWrite
  exact beside_ite (hbook _) (beside_ite ((hcb _ _).then (beside_fire _ 1473 (by decide))) (hcb _ _))

theorem beside_cbSave : Beside Q s s.cbSave := by
  have hbook (u : State) (b : BookX) : Beside Q u { u with book := b } := beside_hidden rfl rfl rfl rfl rfl rfl rfl rfl
  have hadd : Beside Q s (s.cbAdd 11 1) := beside_setCb s 11 _ (by decide)
  unfold State.cbSave
  refine beside_ite (beside_refl Q s) ?_
  exact (((hadd.then (hbook _ _)).then (beside_setReg _ 0 (by simp only [RunReg, A.cbLastSave]; omega))).then
    (beside_mramWrite _ _)).then (beside_fire _ 1468 (by decide))

/-- Henone's return (R304, R417). -/
theorem beside_henTick : Beside Q s s.henTick := by
  have hback : Beside Q s { s with henRestart := none } := beside_hidden rfl rfl rfl rfl rfl rfl rfl rfl
  have hgo : Beside Q s ((List.range 4).foldl State.hkGo { s with henRestart := none }) :=
    hback.then (beside_range State.hkGo 4 (fun u _ hq => beside_hkGo u hq) _)
  unfold State.henTick
  split
  · exact beside_ite (beside_ite (hgo.then (beside_cbSave _)) hgo) (beside_refl Q s)
  · exact beside_refl Q s

/-! ### Messages and responses (R348, R371, R379) -/

/-- A plot that has tiles is one of the part's eight. -/
theorem State.lt_of_plotDefined {p : Nat} (h : s.plotDefined p = true) : p < 8 := by
  obtain ⟨t, ht⟩ := List.exists_mem_of_ne_nil _ (by simpa [State.plotDefined] using h : s.tilesOf p ≠ [])
  have hplot : s.plotOf t = some p := by
    have hin := ((mem_tilesOf s p t).1 ht).2
    simp only [State.inPlot, Bool.and_eq_true, beq_iff_eq] at hin
    exact hin.2
  unfold State.plotOf at hplot
  simp only at hplot
  split at hplot
  · obtain rfl := Option.some.inj hplot
    omega
  · cases hplot

theorem beside_msix {v : Nat} (hv : v < 1024) : Beside Q s (s.msix v) := by
  unfold State.msix
  exact beside_ite (beside_setReg s _ (by simp only [RunReg, A.msixPba]; omega)) (beside_send s _)

theorem beside_plotIrq (p v : Nat) (hv : p < 8 → v < 1024) : Beside Q s (s.plotIrq p v) := by
  unfold State.plotIrq
  split
  · next h => exact beside_msix s (hv (s.lt_of_plotDefined h))
  · exact beside_refl Q s

theorem beside_modRing (p : Nat) (f : RingX → RingX) : Beside Q s (s.modRing p f) := beside_hidden rfl rfl rfl rfl rfl rfl rfl rfl

theorem beside_ringIrq (p v : Nat) (hv : p < 8 → v < 1024) : Beside Q s (s.ringIrq p v) := by
  have hring (x : RingX) : Beside Q s (s.setRing p x) := beside_hidden rfl rfl rfl rfl rfl rfl rfl rfl
  unfold State.ringIrq
  exact beside_ite (hring _) (beside_plotIrq s p v hv)

theorem beside_pgAlert (p : Nat) (f : Fld) : Beside Q s (s.pgAlert p f) :=
  beside_ite (beside_refl Q s) ((beside_raise s f 1 (not_runReg_tile (by simp only [A.pgAlert]; omega))).then
    (beside_plotIrq _ p _ fun _ => by omega))

theorem beside_backpress (p : Nat) : Beside Q s (s.backpress p) := by
  unfold State.backpress
  split
  · exact beside_ite (beside_pgAlert s p _) (beside_refl Q s)
  · exact beside_refl Q s

theorem beside_ringSend (p ring : Nat) (l : List (Nat × Nat)) (b : List Byte) : Beside Q s (s.ringSend p ring l b) := by
  induction l generalizing s b with
  | nil => exact beside_refl Q s
  | cons x l ih => exact (beside_send s _).then (ih _ _)

theorem beside_rspFlush (p n : Nat) : Beside Q s (s.rspFlush p n) := by
  induction n generalizing s with
  | zero => exact beside_refl Q s
  | succ n ih =>
    unfold State.rspFlush
    split
    · exact beside_refl Q s
    · refine beside_ite (beside_modRing s p _) (beside_ite (beside_refl Q s) ?_)
      exact ((((beside_setReg s _ (not_runReg_tile (by simp only [A.rspProd]; omega))).then (beside_ringSend _ p 1 _ _)).then
        (beside_modRing _ p _)).then (beside_ringIrq _ p _ fun _ => by omega)).then (ih _)

theorem beside_respond (p kind : Nat) (cseq : BitVec 64) (tag : Word) (status op detail : Nat) (data : List Byte) :
    Beside Q s (s.respond p kind cseq tag status op detail data) := by
  unfold State.respond
  exact (beside_modRing s p _).then (beside_rspFlush _ p _)

theorem beside_mirrorOut (p : Nat) (body : List Byte) : Beside Q s (s.mirrorOut p body) := by
  unfold State.mirrorOut
  refine beside_ite ?_ (beside_refl Q s)
  split
  · exact beside_foldl_any _ _ (fun u pl => beside_pairPost u 1 _ pl) s
  · exact beside_refl Q s

theorem beside_capEnd (p : Nat) : Beside Q s (s.capEnd p) := by
  unfold State.capEnd
  exact beside_ite (beside_modRing s p _) ((beside_modRing s p _).then
    (beside_setFld _ _ 0 (not_runReg_tile (by simp only [A.cmdSts]; omega))))

theorem beside_capDone (p : Nat) (c : CapX) (status op detail : Nat) : Beside Q s (s.capDone p c status op detail) := by
  unfold State.capDone
  exact beside_ite (((beside_mirrorOut s p _).then (beside_capEnd _ p)).then (beside_respond _ p _ _ _ _ _ _ _))
    ((beside_mirrorOut s p _).then (beside_capEnd _ p))

theorem beside_tellCapsule (g : ImgX) (status detail : Nat) : Beside Q s (s.tellCapsule g status detail) := by
  unfold State.tellCapsule
  split
  · split
    · exact beside_capDone s _ _ _ _ _
    · exact beside_respond s _ _ _ _ _ _ _ _
  · exact beside_refl Q s

/-! ### Partial images (R304–R309) -/

theorem beside_mirrorImage (g : ImgX) : Beside Q s (s.mirrorImage g) := beside_mirrorOut s _ _

theorem beside_partialDone (g : ImgX) : Beside Q s (s.partialDone g) := by
  have hcfg (c : CfgX) : Beside Q s { s with cfg := c } := beside_hidden rfl rfl rfl rfl rfl rfl rfl rfl
  have hdone (c : CfgX) : Beside Q s ((((({ s with cfg := c } : State).setLd 0).raise A.cfgSts F.cfgSts.done 1).bump A.cfgPartCnt).fire
      1368) :=
    ((((hcfg c).then (beside_setFld _ _ 0 (by simp only [RunReg, A.cfgSts]; omega))).then
      (beside_raise _ _ 1 (by simp only [RunReg, A.cfgSts]; omega))).then
      (beside_bump _ (by simp only [RunReg, A.cfgPartCnt]; omega))).then (beside_fire _ 1368 (by decide))
  exact ((hdone _).then (beside_mirrorImage _ g)).then (beside_tellCapsule _ g 0 0)

theorem beside_waitImg (g : ImgX) : Beside Q s (s.waitImg g) := by
  have hcfg (g2 : ImgX) : Beside Q s (s.setImg (some g2)) := beside_hidden rfl rfl rfl rfl rfl rfl rfl rfl
  have hwait (g2 : ImgX) (v : Word) (n : Nat) : Beside Q s (((s.setImg (some g2)).setReg A.cfgPartP v).setLd n) :=
    ((hcfg g2).then (beside_setReg _ v (by simp only [RunReg, A.cfgPartP]; omega))).then
      (beside_setFld _ _ n (by simp only [RunReg, A.cfgSts]; omega))
  unfold State.waitImg
  simp only
  split
  · exact beside_ite ((hwait _ _ _).then (beside_pauseRequest _ _ _)) (hwait _ _ _)
  · exact hwait _ _ _

end

end Sys2Proof.Machine
end

section
/-! ## A step with no command waiting is one tick (R45, R46, R384, R467) -/

namespace Sys2Proof.Machine

open Sys2Proof.Safety

/-! ### The clocks stand -/

/-- Real time and DT, the PTP clock and the always-on domain stand as they stood. -/
def ClocksStand (s u : State) : Prop := u.tm = s.tm ∧ u.ptp = s.ptp ∧ u.aon = s.aon

theorem clocksStand_refl (s : State) : ClocksStand s s := ⟨rfl, rfl, rfl⟩

theorem ClocksStand.then {s t u : State} (h : ClocksStand s t) (k : ClocksStand t u) : ClocksStand s u := by
  obtain ⟨htm, hptp, haon⟩ := h
  obtain ⟨ktm, kptp, kaon⟩ := k
  exact ⟨ktm.trans htm, kptp.trans hptp, kaon.trans haon⟩

theorem Beside.clocksStand {s u : State} (h : Beside (fun _ => True) s u) : ClocksStand s u := h.clocks

theorem clocksStand_ite {c : Prop} [Decidable c] {s t u : State} (ht : ClocksStand s t) (hu : ClocksStand s u) :
    ClocksStand s (if c then t else u) := by
  split
  · exact ht
  · exact hu

theorem clocksStand_foldl {α : Type} (g : State → α → State) (l : List α) (hg : ∀ u x, x ∈ l → ClocksStand u (g u x)) (s : State) :
    ClocksStand s (l.foldl g s) := by
  induction l generalizing s with
  | nil => exact clocksStand_refl s
  | cons x l ih =>
    exact (hg s x List.mem_cons_self).then (ih (fun u y hy => hg u y (List.mem_cons_of_mem x hy)) _)

theorem clocksStand_range (g : State → Nat → State) (n : Nat) (hg : ∀ u i, i < n → ClocksStand u (g u i)) (s : State) :
    ClocksStand s ((List.range n).foldl g s) := clocksStand_foldl g _ (fun u i hi => hg u i (List.mem_range.1 hi)) s

section
variable (s : State)

theorem clocksStand_setReg (a : Nat) (v : Word) : ClocksStand s (s.setReg a v) := ⟨rfl, rfl, rfl⟩

theorem clocksStand_setFld (a : Nat) (f : Fld) (x : Nat) : ClocksStand s (s.setFld a f x) := ⟨rfl, rfl, rfl⟩

theorem clocksStand_raise (a : Nat) (f : Fld) (x : Nat) : ClocksStand s (s.raise a f x) := ⟨rfl, rfl, rfl⟩

theorem clocksStand_bumpBy (a n : Nat) : ClocksStand s (s.bumpBy a n) := ⟨rfl, rfl, rfl⟩

theorem clocksStand_bump (a : Nat) : ClocksStand s (s.bump a) := ⟨rfl, rfl, rfl⟩

theorem clocksStand_fire (src : Nat) : ClocksStand s (s.fire src) := ⟨rfl, rfl, rfl⟩

theorem clocksStand_fireRaw (src g : Nat) : ClocksStand s (s.fireRaw src g) := ⟨rfl, rfl, rfl⟩

theorem clocksStand_fireG (src g : Nat) : ClocksStand s (s.fireG src g) := by
  have hloop := ((clocksStand_raise s A.evfSts F.evfSts.evfLoop 1).then (clocksStand_bump _ A.evfLoopCnt)).then
    (clocksStand_setFld _ A.evfLoopSrc F.evfLoopSrc.src src)
  unfold State.fireG
  exact clocksStand_ite (clocksStand_fireRaw s src g) (clocksStand_ite hloop (hloop.then (clocksStand_fireRaw _ 1457 0)))

theorem clocksStand_arrived (lo : Nat) : ClocksStand s (s.arrived lo) := clocksStand_ite ⟨rfl, rfl, rfl⟩ (clocksStand_refl s)

theorem clocksStand_setPair (lo hi v : Nat) : ClocksStand s (s.setPair lo hi v) :=
  ((clocksStand_setReg s lo _).then (clocksStand_setReg _ hi _)).then (clocksStand_arrived _ lo)

theorem clocksStand_cbAdd (i n : Nat) : ClocksStand s (s.cbAdd i n) := clocksStand_setPair s _ _ _

/-! ### What follows the clocks in a tick -/

theorem clocksStand_onTimes (t : Nat) : ClocksStand s (s.onTimes t) := by
  have hadd (u : State) (c : Prop) [Decidable c] (i : Nat) : ClocksStand u (if c then u else u.cbAdd i 1) :=
    clocksStand_ite (clocksStand_refl u) (clocksStand_cbAdd u i 1)
  have hxy := clocksStand_range (fun s o => if (s.conv t o).st = 1 then s else s.cbAdd (64 + 5 * t + o) 1) 5 (fun u o _ => hadd u _ _) s
  unfold State.onTimes
  refine clocksStand_ite (clocksStand_refl s) ?_
  refine ((hxy.then (clocksStand_cbAdd _ _ _)).then (clocksStand_range _ 14 ?_ _)).then (clocksStand_range _ 16 ?_ _)
  · intro u f _
    exact hadd u _ _
  · intro u b _
    exact clocksStand_cbAdd u _ 1

/-- The second of real time: the counters kept in MRAM (R304, R439). -/
theorem clocksStand_secondTick : ClocksStand s s.secondTick := by
  have hsec : ClocksStand s ((s.setPair A.rtcSecLo A.rtcSecHi (s.rtc + 1)).modPower fun x => { x with secondAt := s.tm.now }) :=
    (clocksStand_setPair s _ _ _).then ⟨rfl, rfl, rfl⟩
  unfold State.secondTick
  refine clocksStand_ite (clocksStand_refl s) ?_
  simp only
  generalize (s.setPair A.rtcSecLo A.rtcSecHi (s.rtc + 1)).modPower _ = u at hsec
  have hcount := (hsec.then (clocksStand_cbAdd u 0 1)).then (clocksStand_range State.onTimes 32 (fun v t _ => clocksStand_onTimes v t) _)
  have hage := (hcount.then (clocksStand_bump _ A.cbLastSave)).then
    (clocksStand_setFld _ A.thAnchor F.thAnchor.ageS (min 0xFFFF (s.fld A.thAnchor F.thAnchor.ageS + 1)))
  exact clocksStand_ite hsec (clocksStand_ite (hsec.then ⟨rfl, rfl, rfl⟩)
    (clocksStand_ite (hage.then (clocksStand_setFld _ _ _ _)) hage))

theorem clocksStand_hkShow (q : Nat) : ClocksStand s (s.hkShow q) := (beside_hkShow s q).clocksStand

theorem clocksStand_hkTick (q : Nat) : ClocksStand s (s.hkTick q) := by
  have hhk (x : HkX) : ClocksStand s (s.setHk q x) := ⟨rfl, rfl, rfl⟩
  unfold State.hkTick
  split
  · exact clocksStand_ite ((hhk _).then (clocksStand_hkShow _ q)) (clocksStand_ite
      (((hhk _).then (clocksStand_setFld _ _ _ _)).then (clocksStand_hkShow _ q)) (clocksStand_refl s))
  · exact clocksStand_refl s

theorem clocksStand_snFree (q k : Nat) : ClocksStand s (s.snFree q k) := by
  have hsn (u : State) (x : SnX) : ClocksStand u (u.setSn q k x) := ⟨rfl, rfl, rfl⟩
  have hbegin (u : State) : ClocksStand u (u.snBegin q k) := ⟨rfl, rfl, rfl⟩
  have hchecked (u : State) : ClocksStand u (u.snChecked q) := clocksStand_ite (clocksStand_refl u) (clocksStand_fireG u _ _)
  unfold State.snFree
  exact clocksStand_ite (clocksStand_ite ((hsn s _).then (hbegin _)) (((hsn s _).then (hsn _ _)).then (hchecked _))) (hsn s _)

theorem clocksStand_hkPreempt {q : Nat} (hq : q < 4) : ClocksStand s (s.hkPreempt q) := by
  have hhk (x : HkX) : ClocksStand s (s.setHk q x) := ⟨rfl, rfl, rfl⟩
  have hgo (u : State) : ClocksStand u (u.hkGo q) := (beside_hkGo u hq).clocksStand
  have hdiscard (c : HkConv) : ClocksStand s (s.hkDiscard q c) :=
    clocksStand_ite (hhk _) (clocksStand_ite (((hhk _).then (clocksStand_bump _ _)).then (clocksStand_snFree _ q _))
      ((hhk _).then (clocksStand_bump _ _)))
  unfold State.hkPreempt
  split
  · exact clocksStand_ite ((hdiscard _).then (hgo _)) (clocksStand_refl s)
  · exact hgo s

theorem clocksStand_hkThermal {q : Nat} (hq : q < 4) : ClocksStand s (s.hkThermal q) := by
  have hhk (x : HkX) : ClocksStand s (s.setHk q x) := ⟨rfl, rfl, rfl⟩
  exact (hhk _).then (clocksStand_hkPreempt _ hq)

theorem clocksStand_anchorTick : ClocksStand s s.anchorTick := by
  have hpower : ClocksStand s (s.modPower fun x => { x with anchorAt := some s.tm.now, anchoring := true }) := ⟨rfl, rfl, rfl⟩
  exact clocksStand_ite (hpower.then (clocksStand_range _ 4
    (fun u q hq => clocksStand_ite (clocksStand_hkThermal u hq) (clocksStand_refl u)) _)) (clocksStand_refl s)

theorem clocksStand_ttStep : ClocksStand s s.ttStep := clocksStand_ite (clocksStand_refl s) ⟨rfl, rfl, rfl⟩

theorem clocksStand_tmTake (m : Nat) (x : Int) : ClocksStand s (s.tmTake m x) := by
  have htm (y : TmX) : ClocksStand s (s.setTm m y) := ⟨rfl, rfl, rfl⟩
  exact clocksStand_ite ((htm _).then (clocksStand_fireG _ _ _)) (htm _)

theorem clocksStand_tmEdge (m i st : Nat) : ClocksStand s (s.tmEdge m i st) := by
  have htm (y : TmX) : ClocksStand s (s.setTm m y) := ⟨rfl, rfl, rfl⟩
  unfold State.tmEdge
  simp only
  refine clocksStand_ite (clocksStand_refl s) (clocksStand_ite ?_ (clocksStand_ite ?_ (clocksStand_ite ?_ (clocksStand_ite (htm _) ?_))))
  · exact clocksStand_ite (clocksStand_refl s) (clocksStand_ite (clocksStand_raise s _ _ _) (htm _))
  · exact clocksStand_ite (clocksStand_refl s) ((htm _).then (clocksStand_tmTake _ m _))
  · refine clocksStand_ite (clocksStand_refl s) ?_
    split
    · exact (htm _).then (clocksStand_tmTake _ m _)
    · exact htm _
  · split
    · exact (htm _).then (clocksStand_tmTake _ m _)
    · exact clocksStand_refl s

/-- The source of a conditioned edge and the measurements that take it (R390, R394). -/
theorem clocksStand_edgeOut (i : Nat) (ed : Edge) : ClocksStand s ((List.range 4).foldl
    (fun s m => s.tmEdge m i (s.DT * 256 + ed.frac.toNat))
    (if i < 16 then s.fire (1392 + i) else s)) := by
  have hsource : ClocksStand s (if i < 16 then s.fire (1392 + i) else s) :=
    clocksStand_ite (clocksStand_fire s _) (clocksStand_refl s)
  exact hsource.then (clocksStand_range _ 4 (fun u m _ => clocksStand_tmEdge u m i _) _)

/-- An edge at a ball other than PPS_IN moves no clock (R390). -/
theorem clocksStand_condEdge (i : Nat) (ed : Edge) (hi : i ≠ 16) : ClocksStand s (s.condEdge i ed) := by
  have htiu (x : TiuX) : ClocksStand s ((s.setTiu i x).bump (A.tiuInEdgeCnt i)) := ⟨rfl, rfl, rfl⟩
  unfold State.condEdge
  simp only
  split
  · next hpps => exact absurd hpps (by simp [hi])
  · split
    · exact (htiu _).then (clocksStand_edgeOut _ i ed)
    · exact htiu _

theorem clocksStand_tiuIn (i : Nat) (ed : Edge) (hi : i ≠ 16) : ClocksStand s (s.tiuIn i ed) := by
  have htiu (x : TiuX) : ClocksStand s (s.setTiu i x) := ⟨rfl, rfl, rfl⟩
  have hrate : ClocksStand s (s.ballRate i ed.level) :=
    clocksStand_ite (((htiu _).then (clocksStand_raise _ _ _ _)).then (clocksStand_fire _ _)) (htiu _)
  exact clocksStand_ite (hrate.then (clocksStand_bump _ _)) (clocksStand_ite (hrate.then (clocksStand_condEdge _ i _ hi))
    (clocksStand_ite (hrate.then (clocksStand_condEdge _ i _ hi)) hrate))

theorem clocksStand_ttEdgesTick : ClocksStand s s.ttEdgesTick := by
  have hedges (x : TtX) : ClocksStand s { s with ttx := x } := ⟨rfl, rfl, rfl⟩
  exact (hedges _).then (clocksStand_foldl _ _ (fun u e _ => clocksStand_tiuIn u (26 + e.2.1) _ (by omega)) _)

theorem clocksStand_idleAsk (k : Nat) : ClocksStand s (s.idleAsk k) := by
  have hlink (u : State) (f : KLink → KLink) : ClocksStand u (u.modLink k f) := ⟨rfl, rfl, rfl⟩
  have hcontrol : ClocksStand s (s.control k 4 0) :=
    clocksStand_ite (beside_emitBlocks s k _).clocksStand (clocksStand_refl s)
  exact clocksStand_ite (hcontrol.then (hlink _ _)) (clocksStand_refl s)

theorem clocksStand_modTest (k i : Nat) (f : LaneTest → LaneTest) : ClocksStand s (s.modTest k i f) :=
  clocksStand_ite ⟨rfl, rfl, rfl⟩ (clocksStand_refl s)

theorem clocksStand_prbsTick (k : Nat) : ClocksStand s (s.prbsTick k) := by
  have hsend (u : State) (i : Nat) : ClocksStand u (u.prbsSend k i) :=
    clocksStand_ite (clocksStand_modTest u k i _) (clocksStand_modTest u k i _)
  have htake (u : State) (i : Nat) : ClocksStand u (u.prbsTake k i) :=
    clocksStand_ite (clocksStand_refl u) (((clocksStand_modTest u k i _).then (clocksStand_setFld _ _ _ _)).then (clocksStand_bumpBy _ _ _))
  exact clocksStand_ite (clocksStand_range _ 4 (fun u i _ => (hsend u i).then (htake _ i)) s) (clocksStand_refl s)

end

end Sys2Proof.Machine
end

section
/-! ## The tick up to its clocks (R45, R58, R309) -/

namespace Sys2Proof.Machine

open Sys2Proof.Safety

/-- The clocks stand, and so does whether DT runs. -/
def TickStands (s u : State) : Prop := ClocksStand s u ∧ u.on A.dtSts F.dtSts.running = s.on A.dtSts F.dtSts.running

theorem tickStands_refl (s : State) : TickStands s s := ⟨clocksStand_refl s, rfl⟩

theorem TickStands.then {s t u : State} (h : TickStands s t) (k : TickStands t u) : TickStands s u :=
  ⟨h.1.then k.1, k.2.trans h.2⟩

theorem Beside.tickStands {s u : State} (h : Beside (fun _ => True) s u) : TickStands s u :=
  ⟨h.clocksStand, h.on (by simp only [RunReg, A.dtSts]; omega) _⟩

theorem tickStands_ite {c : Prop} [Decidable c] {s t u : State} (ht : TickStands s t) (hu : TickStands s u) :
    TickStands s (if c then t else u) := by
  split
  · exact ht
  · exact hu

theorem tickStands_foldl (g : State → Nat → State) (l : List Nat) (hg : ∀ u x, x ∈ l → TickStands u (g u x)) (s : State) :
    TickStands s (l.foldl g s) := foldl_rel tickStands_refl (fun _ _ _ h k => h.then k) g l hg s

theorem TickStands.live {s u : State} (h : TickStands s u) : u.live = s.live := by
  obtain ⟨⟨-, -, haon⟩, -⟩ := h
  rw [State.live, State.live, haon]

/-! ### A hold that ends (R309) -/

/-- A source that is not the first of its word starts no DT, whatever register its word is. -/
theorem tickStands_fire (s : State) (src : Nat) (h : src % 32 ≠ 0) : TickStands s (s.fire src) := by
  refine ⟨clocksStand_fire s src, ?_⟩
  by_cases ha : A.dtSts = A.evfSrcSts (src / 32)
  · have hreg : (s.fire src).reg A.dtSts = s.reg A.dtSts ||| BitVec.ofNat 32 (2 ^ (src % 32)) := by
      rw [ha]
      exact s.reg_fire_same src
    have hfirst : ∀ m : Fin 32, m.val ≠ 0 → getF (BitVec.ofNat 32 (2 ^ m.val)) F.dtSts.running = 0 := by decide
    have hbit := hfirst ⟨src % 32, Nat.mod_lt _ (by decide)⟩ h
    rw [State.on, State.on, State.fld, State.fld, hreg, getF_or, hbit, Nat.or_zero]
  · exact State.on_of_reg (s.reg_fire_ne _ ha) _

theorem tickStands_countFault (s : State) (t q cause : Nat) : TickStands s (s.countFault t q cause) := by
  have hcfg (c : CfgX) : TickStands s ((({ s with cfg := c } : State).bump (A.seqFaultCnt t q)).fire (tileSrc t 2)) := by
    have hbook : Beside (fun _ => True) s { s with cfg := c } := beside_hidden rfl rfl rfl rfl rfl rfl rfl rfl
    exact (hbook.then (beside_bump _ (not_runReg_tile (by simp only [A.seqFaultCnt]; omega)))).tickStands.then
      (tickStands_fire _ _ (by simp only [tileSrc]; omega))
  unfold State.countFault
  simp only
  split
  · exact hcfg _
  · exact hcfg s.cfg

theorem tickStands_enterFaulted (s : State) (t q : Nat) (f : FaultInfo) : TickStands s (s.enterFaulted t q f) := by
  obtain ⟨c, hc⟩ := s.enterFaulted_eq t q f
  have hscheds (u : State) : TickStands u { u with scheds := c } := ⟨⟨rfl, rfl, rfl⟩, rfl⟩
  have hcaptured : Beside (fun _ => True) s ((s.faulting t q).faultCaptured t q f) :=
    ((beside_setSeqState s t q 6).then (beside_setSeq _ _ _)).then (beside_faultCaptured _ t q f)
  rw [hc]
  exact (hcaptured.tickStands.then (tickStands_countFault _ t q f.cause)).then (hscheds _)

theorem tickStands_preloadTo (s : State) (t q code : Nat) (x : SeqX) (bad : Option Nat) : TickStands s (s.preloadTo t q code x bad) := by
  have hroutine : Beside (fun _ => True) s ((s.preload t q).sysRoutine t q 0x1F80 bad).1 :=
    (beside_seqWork (seqWork_mono (fun _ => seqRegs_ge) (seqWork_preload s t q))).then (beside_sysRoutine _ t q 0x1F80 bad)
  unfold State.preloadTo
  simp only
  split
  · exact (hroutine.then (beside_setSeq _ _ x)).tickStands.then (tickStands_enterFaulted _ t q _)
  · exact ((hroutine.then (beside_setSeqState _ t q code)).then (beside_setSeq _ _ x)).tickStands

theorem tickStands_backSeqs (s : State) (ks fs : List Nat) : TickStands s (s.backSeqs ks fs) := by
  refine tickStands_foldl _ _ (fun u k _ => ?_) s
  have hoff : Beside (fun _ => True) u ((u.setSeqState (k / 34) (k % 34) 7).setSeq k {}) :=
    (beside_setSeqState u _ _ 7).then (beside_setSeq _ _ _)
  exact tickStands_ite hoff.tickStands (tickStands_ite (beside_setSeqState u _ _ 6).tickStands
    (tickStands_ite (tickStands_preloadTo u _ _ 0 _ none) (tickStands_preloadTo u _ _ 1 {} none)))

theorem tickStands_holdEnd (s : State) (h : HoldX) : TickStands s (s.holdEnd h) := by
  have hcfg : Beside (fun _ => True) s { s with cfg := { s.cfg with hold := none } } := beside_hidden rfl rfl rfl rfl rfl rfl rfl rfl
  have hend : TickStands s ((s.endHold h).setFld A.cfgSts F.cfgSts.holdTile 0xFF) :=
    (hcfg.tickStands.then (tickStands_backSeqs _ h.seqs h.faulted)).then
      (beside_setFld _ _ _ (by simp only [RunReg, A.cfgSts]; omega)).tickStands
  unfold State.holdEnd
  simp only
  generalize (s.endHold h).setFld A.cfgSts F.cfgSts.holdTile 0xFF = u at hend
  refine tickStands_ite hend ?_
  split
  · exact hend
  · split
    · exact hend.then ((beside_mirrorImage u _).then (beside_waitImg _ _)).tickStands
    · exact hend.then (beside_partialDone u _).tickStands

theorem tickStands_holdTick (s : State) : TickStands s s.holdTick := by
  unfold State.holdTick
  split
  · exact tickStands_ite (tickStands_holdEnd s _) (tickStands_refl s)
  · exact tickStands_refl s

/-! ### A trigger that overflows (R58) -/

theorem tickStands_trigLate (s : State) (p : Nat) (hp : p < 8) : TickStands s (s.trigLate p) := by
  have hclocks : ClocksStand s ((((s.setSched p { s.sched p with trigOvf := false }).runSet p F.runSts.shotTrigOvf 1).fire
      (shotSrc p 3))) := ⟨rfl, rfl, rfl⟩
  refine tickStands_ite ⟨hclocks, State.on_of_reg ?_ _⟩ (tickStands_refl s)
  rw [State.reg_fire_shotSrc _ ⟨p, hp⟩ 3 (by decide) (by decide),
    State.reg_runSet_ne _ _ _ (by simp only [A.dtSts, A.runSts]; omega), State.reg_setSched]

/-! ### The tick in three parts -/

/-- The tick before its clocks: the datapaths, the stalls, what ends, what presses back. -/
def State.beforeClocks (s : State) : State :=
  let s0 := (List.range 8).foldl State.trigLate s
  if s.live then (List.range 8).foldl State.backpress s0.tilesTick.stallTick.holdTick.henTick else s0

/-- The tick after its clocks: the loops of the next one begin. -/
def State.afterClocks (s : State) : State :=
  if s.live then
    (List.range 8).foldl (fun s k => (s.idleAsk k).prbsTick k) ((((List.range 4).foldl State.hkTick s).anchorTick).ttStep.ttEdgesTick)
  else s

theorem State.tick_eq (s : State) : s.tick = s.beforeClocks.clocksTick.secondTick.resetPins.afterClocks := rfl

theorem tickStands_beforeClocks (s : State) : TickStands s s.beforeClocks := by
  have htrig : TickStands s ((List.range 8).foldl State.trigLate s) :=
    tickStands_foldl _ _ (fun u p hp => tickStands_trigLate u p (List.mem_range.1 hp)) s
  unfold State.beforeClocks
  refine tickStands_ite ?_ htrig
  have hdata (u : State) := ((beside_tilesTick (Q := fun _ => True) u).then (beside_stallTick _)).tickStands
  refine (((htrig.then (hdata _)).then (tickStands_holdTick _)).then (beside_henTick _).tickStands).then ?_
  exact (beside_range State.backpress 8 (fun u p _ => beside_backpress u p) _).tickStands

theorem clocksStand_afterClocks (s : State) : ClocksStand s s.afterClocks := by
  have hhk : ClocksStand s ((List.range 4).foldl State.hkTick s) :=
    clocksStand_range State.hkTick 4 (fun u q _ => clocksStand_hkTick u q) s
  refine clocksStand_ite ?_ (clocksStand_refl s)
  exact (((hhk.then (clocksStand_anchorTick _)).then (clocksStand_ttStep _)).then (clocksStand_ttEdgesTick _)).then
    (clocksStand_range _ 8 (fun u k _ => (clocksStand_idleAsk u k).then (clocksStand_prbsTick _ k)) _)

/-! ### The clocks (R45, R46, R384) -/

/-- The tick's own state, before the PTP clock follows. -/
def State.ticked (s : State) : State :=
  { s with tm := { s.tm with now := s.tm.now + 1, dt := if s.live && s.on A.dtSts F.dtSts.running then s.tm.dt + 1 else s.tm.dt }, tie := {} }

theorem State.clocksTick_eq (s : State) : s.clocksTick = if s.live then s.ticked.ptpTick else s.ticked := rfl

theorem State.freshEpoch_clocks (s : State) : ClocksStand s s.freshEpoch := clocksStand_ite (clocksStand_refl s) (clocksStand_setFld s _ _ _)

theorem clampI_id {lo hi v : Int} (h1 : lo ≤ v) (h2 : v ≤ hi) : clampI lo hi v = v := by
  unfold clampI
  omega

/-- The PTP clock and its servo one tick later (R384). -/
def State.ptpNext (s : State) : PtpX :=
  let x := s.ptp
  let rate := (x.rates.filter fun r => decide (r.1 ≤ s.tm.now)).foldl (fun _ r => r.2) x.rate
  let want := match x.slew with | some w => w.want | none => (0, 0)
  let held := clampI (-rateLimit) rateLimit (rate + want.1)
  let next := x.clock + (281474976710656 + held).toNat
  { x with
    clock := next % ptpMod, prev := x.clock, rate := rate, rates := x.rates.filter fun r => decide (s.tm.now < r.1),
    slew := x.slew.map fun w => { w with left := w.left - (held - rate), ph := want.2 },
    wrapped := x.wrapped || decide (ptpMod ≤ next) }

theorem State.ptpTick_stands (s : State) : ClocksStand { s with ptp := s.ptpNext } s.ptpTick := by
  unfold State.ptpTick
  exact (clocksStand_ite (clocksStand_raise _ _ _ _) (clocksStand_refl _)).then (State.freshEpoch_clocks _)

/-- The PTP clock goes on by 0.4 ns and its rate (R384). -/
theorem State.ptpNext_clock (s : State) (hrates : s.ptp.rates = []) (hslew : s.ptp.slew = none) (hlo : -rateLimit ≤ s.ptp.rate)
    (hhi : s.ptp.rate ≤ rateLimit) : s.ptpNext.clock = (s.ptp.clock + (2 ^ 48 + s.ptp.rate).toNat) % ptpMod := by
  simp [State.ptpNext, hrates, hslew, clampI_id hlo hhi]

/-- What the clocks read one tick later (R45, R46, R384). -/
theorem State.clocksTick_spec (s : State) : s.clocksTick.tm = s.ticked.tm ∧ s.clocksTick.aon = s.aon ∧
    (s.live = true → s.ptp.rates = [] → s.ptp.slew = none → -rateLimit ≤ s.ptp.rate → s.ptp.rate ≤ rateLimit →
      s.clocksTick.ptp.clock = (s.ptp.clock + (2 ^ 48 + s.ptp.rate).toNat) % ptpMod) := by
  obtain ⟨htm, hptp, haon⟩ := s.ticked.ptpTick_stands
  rw [s.clocksTick_eq]
  cases hl : s.live with
  | false => exact ⟨rfl, rfl, nofun⟩
  | true =>
    exact ⟨htm, haon, fun _ hr hs hlo hhi => (congrArg PtpX.clock hptp).trans (s.ticked.ptpNext_clock hr hs hlo hhi)⟩

/-! ### A step with no command waiting -/

theorem State.resetPins_idle (s : State) (hpor : s.filtered s.aon.porLow = false) (hsys : s.filtered s.aon.sysLow = false) :
    s.resetPins = s := by
  simp [State.resetPins, hpor, hsys]

theorem State.filtered_false (s : State) (o : Option Nat) (h : ∀ a, o = some a → s.tm.now < a + 250) : s.filtered o = false := by
  cases o with
  | none => rfl
  | some a =>
    have ha := h a rfl
    exact decide_eq_false (by omega)

/-- A tick in which no reset pulse reaches its 100 ns (R467). -/
theorem State.tick_idle (s : State) (hpor : ∀ a, s.aon.porLow = some a → s.tm.now + 1 < a + 250)
    (hsys : ∀ a, s.aon.sysLow = some a → s.tm.now + 1 < a + 250) : s.tick = s.beforeClocks.clocksTick.secondTick.afterClocks := by
  have hbefore := tickStands_beforeClocks s
  have hsecond := clocksStand_secondTick s.beforeClocks.clocksTick
  obtain ⟨htm, haon, -⟩ := s.beforeClocks.clocksTick_spec
  have hnow : s.beforeClocks.clocksTick.secondTick.tm.now = s.tm.now + 1 := by
    rw [hsecond.1, htm, State.ticked, hbefore.1.1]
  have haon' : s.beforeClocks.clocksTick.secondTick.aon = s.aon := hsecond.2.2.trans (haon.trans hbefore.1.2.2)
  rw [s.tick_eq, State.resetPins_idle _ (State.filtered_false _ _ (by rw [haon', hnow]; exact hpor))
    (State.filtered_false _ _ (by rw [haon', hnow]; exact hsys))]

theorem State.beforeClocks_keeps (s : State) : s.beforeClocks.mem = s.mem ∧ s.beforeClocks.pending = s.pending := by
  unfold State.beforeClocks
  split <;> simp

theorem State.afterClocks_keeps (s : State) : s.afterClocks.mem = s.mem ∧ s.afterClocks.pending = s.pending := by
  unfold State.afterClocks
  split <;> simp

/-- Settles O2: what stands beside the clocks (`TickStands` before them, `ClocksStand` after them) leaves their tick as the whole step. -/
theorem idleStepIsOneTick : Obligations.IdleStepIsOneTick := by
  unfold Obligations.IdleStepIsOneTick
  intro s hidle hpor hsys
  have htick := s.tick_idle hpor hsys
  have hbefore := tickStands_beforeClocks s
  obtain ⟨⟨htm, hptp, -⟩, hrun⟩ := id hbefore
  obtain ⟨hctm, -, hclock⟩ := s.beforeClocks.clocksTick_spec
  obtain ⟨hatm, haptp, -⟩ := (clocksStand_secondTick s.beforeClocks.clocksTick).then (clocksStand_afterClocks _)
  obtain ⟨hbmem, hbpending⟩ := s.beforeClocks_keeps
  obtain ⟨hamem, hapending⟩ := s.beforeClocks.clocksTick.secondTick.afterClocks_keeps
  rw [hbefore.live, hptp] at hclock
  refine ⟨s.tick, step_idle s hidle, ?_, fun a => ?_, ?_, ?_, fun hl hr hs hlo hhi => ?_⟩
  · rw [htick, hatm, hctm, State.ticked, htm]
  · have hmem : s.tick.mem = s.mem := by simp [htick, hamem, hbmem]
    rw [State.byte, State.byte, hmem]
  · simp [htick, hapending, hbpending, hidle]
  · rw [htick, hatm, hctm, State.ticked, hbefore.live, hrun, htm]
    simp only [Bool.and_eq_true]
  · rw [htick, haptp]
    exact hclock hl hr hs hlo hhi

end Sys2Proof.Machine
end

section
/-! ## Instructions that go on, issue or fault (R89, R93, R105, R113, R114) -/

namespace Sys2Proof.Machine

open Sys2Proof.Safety

/-! ### The registers of a sequencer, by offset -/

theorem seqAddr (t q : Nat) :
    A.seqCtl t q = 0x1008000 + 0x80000 * t + 0x400 * q ∧ A.seqSts t q = 0x1008004 + 0x80000 * t + 0x400 * q ∧
    A.seqPc t q = 0x1008008 + 0x80000 * t + 0x400 * q ∧ A.seqTc t q = 0x100800C + 0x80000 * t + 0x400 * q ∧
    A.seqFault t q = 0x1008010 + 0x80000 * t + 0x400 * q ∧ A.seqFaultInfo t q = 0x1008014 + 0x80000 * t + 0x400 * q ∧
    A.seqFaultCnt t q = 0x1008018 + 0x80000 * t + 0x400 * q ∧ A.seqPmCorr t q = 0x100801C + 0x80000 * t + 0x400 * q ∧
    A.seqInstrLo t q = 0x1008020 + 0x80000 * t + 0x400 * q ∧ A.seqInstrHi t q = 0x1008024 + 0x80000 * t + 0x400 * q ∧
    A.seqCycLo t q = 0x1008028 + 0x80000 * t + 0x400 * q ∧ A.seqCycHi t q = 0x100802C + 0x80000 * t + 0x400 * q :=
  ⟨rfl, rfl, rfl, rfl, rfl, rfl, rfl, rfl, rfl, rfl, rfl, rfl⟩

theorem seqAddrAt (t q k : Nat) :
    A.seqS t q k = 0x1008040 + 0x80000 * t + 0x400 * q + 4 * k ∧ A.seqLoopSe t q k = 0x1008080 + 0x80000 * t + 0x400 * q + 8 * k ∧
    A.seqLoopRem t q k = 0x1008084 + 0x80000 * t + 0x400 * q + 8 * k := ⟨rfl, rfl, rfl⟩

theorem mem_seqMoves (t q a : Nat) : a ∈ seqMoves t q ↔
    a = A.seqPc t q ∨ a = A.seqCycLo t q ∨ a = A.seqCycHi t q ∨ a = A.seqInstrLo t q ∨ a = A.seqInstrHi t q := by
  simp only [seqMoves, List.mem_cons, List.not_mem_nil, or_false]

theorem seqTc_not_moves (t q : Nat) : A.seqTc t q ∉ seqMoves t q := by
  simp only [mem_seqMoves, seqAddr]
  omega

theorem seqS_not_moves (t q k : Nat) : A.seqS t q k ∉ seqMoves t q := by
  simp only [mem_seqMoves, seqAddr, seqAddrAt]
  omega

theorem seqLoopSe_not_moves (t q k : Nat) : A.seqLoopSe t q k ∉ seqMoves t q := by
  simp only [mem_seqMoves, seqAddr, seqAddrAt]
  omega

theorem seqLoopRem_not_moves (t q k : Nat) : A.seqLoopRem t q k ∉ seqMoves t q := by
  simp only [mem_seqMoves, seqAddr, seqAddrAt]
  omega

/-! ### Counting cycles and instructions -/

/-- SEQ_CYC has counted `n` island cycles and SEQ_INSTR `m` instructions. -/
def Ticks (i q n m : Nat) (s t : State) : Prop :=
  t.pair (A.seqCycLo i q) (A.seqCycHi i q) = (s.pair (A.seqCycLo i q) (A.seqCycHi i q) + n) % 2 ^ 64 ∧
  t.pair (A.seqInstrLo i q) (A.seqInstrHi i q) = (s.pair (A.seqInstrLo i q) (A.seqInstrHi i q) + m) % 2 ^ 64

theorem counts_of_ticks {i q n : Nat} {s t : State} (h : Ticks i q n 1 s t) : Counts i q n s t := h

theorem State.pair_lt (s : State) (lo hi : Nat) : s.pair lo hi < 2 ^ 64 := by
  have hl := (s.reg lo).isLt
  have hh := (s.reg hi).isLt
  unfold State.pair
  omega

/-- The counters of a sequencer. -/
def seqCounters (t q : Nat) : List Nat := [A.seqCycLo t q, A.seqCycHi t q, A.seqInstrLo t q, A.seqInstrHi t q]

theorem mem_seqCounters (t q a : Nat) : a ∈ seqCounters t q ↔
    a = A.seqCycLo t q ∨ a = A.seqCycHi t q ∨ a = A.seqInstrLo t q ∨ a = A.seqInstrHi t q := by
  simp only [seqCounters, List.mem_cons, List.not_mem_nil, or_false]

theorem ticks_of_counters {i q : Nat} {s t : State} (h : ∀ a ∈ seqCounters i q, t.reg a = s.reg a) : Ticks i q 0 0 s t := by
  have hcyc : t.pair (A.seqCycLo i q) (A.seqCycHi i q) = s.pair (A.seqCycLo i q) (A.seqCycHi i q) :=
    State.pair_of_reg (h _ (by simp [seqCounters])) (h _ (by simp [seqCounters]))
  have hinstr : t.pair (A.seqInstrLo i q) (A.seqInstrHi i q) = s.pair (A.seqInstrLo i q) (A.seqInstrHi i q) :=
    State.pair_of_reg (h _ (by simp [seqCounters])) (h _ (by simp [seqCounters]))
  exact ⟨by rw [hcyc, Nat.add_zero, Nat.mod_eq_of_lt (s.pair_lt _ _)], by rw [hinstr, Nat.add_zero, Nat.mod_eq_of_lt (s.pair_lt _ _)]⟩

theorem ticks_of_sameRegs {i q : Nat} {l : List Nat} {s t : State} (h : SameRegs l s t) (hl : ∀ a ∈ seqCounters i q, a ∉ l) :
    Ticks i q 0 0 s t := ticks_of_counters fun a ha => h a (hl a ha)

theorem ticks_trans {i q n m k l : Nat} {s t u : State} (h : Ticks i q n m s t) (g : Ticks i q k l t u) :
    Ticks i q (n + k) (m + l) s u := by
  obtain ⟨hcyc, hinstr⟩ := h
  obtain ⟨gcyc, ginstr⟩ := g
  refine ⟨?_, ?_⟩
  · rw [gcyc, hcyc, Nat.mod_add_mod, Nat.add_assoc]
  · rw [ginstr, hinstr, Nat.mod_add_mod, Nat.add_assoc]

theorem ticks_addCycles (s : State) (i q n : Nat) : Ticks i q n 0 s (s.addCycles i q n) := by
  refine ⟨s.pair_addCycles i q n, ?_⟩
  rw [State.pair_of_reg (s.reg_addCycles i q n _ ?_) (s.reg_addCycles i q n _ ?_), Nat.add_zero, Nat.mod_eq_of_lt (s.pair_lt _ _)]
  · simp only [seqAddr]; omega
  · simp only [seqAddr]; omega

theorem ticks_addInstr (s : State) (i q : Nat) : Ticks i q 0 1 s (s.addInstr i q) := by
  have hregs := (regWork_addInstr s i q).1
  refine ⟨?_, s.pair_addInstr i q⟩
  rw [State.pair_of_reg (hregs _ ?_) (hregs _ ?_), Nat.add_zero, Nat.mod_eq_of_lt (s.pair_lt _ _)]
  · simp only [List.mem_cons, List.not_mem_nil, or_false, seqAddr]; omega
  · simp only [List.mem_cons, List.not_mem_nil, or_false, seqAddr]; omega

theorem ticks_setPc (s : State) (i q pc : Nat) : Ticks i q 0 0 s (s.setPc i q pc) :=
  ticks_of_sameRegs (regWork_setPc s i q pc).1 fun a ha => by
    rw [mem_seqCounters] at ha
    simp only [List.mem_cons, List.not_mem_nil, or_false, seqAddr] at ha ⊢
    omega

@[simp] theorem State.tie_setPair (s : State) (lo hi v : Nat) : (s.setPair lo hi v).tie = s.tie := by
  unfold State.setPair State.arrived
  split <;> rfl

@[simp] theorem State.tie_addCycles (s : State) (t q n : Nat) : (s.addCycles t q n).tie = s.tie := s.tie_setPair ..

@[simp] theorem State.tie_addInstr (s : State) (t q : Nat) : (s.addInstr t q).tie = s.tie := s.tie_setPair ..

/-! ### An instruction that goes on to the next one -/

/-- What the loop test at the PC reads stands as it did. -/
theorem fallsThrough_of_regs {s u : State} {i q : Nat} (h : FallsThrough s i q) (hpc : u.pc i q = s.pc i q)
    (hdepth : u.depth i q = s.depth i q) (hse : ∀ k, k < 16 → u.reg (A.seqLoopSe i q k) = s.reg (A.seqLoopSe i q k)) :
    FallsThrough u i q := by
  have hlt := s.depth_lt i q
  unfold FallsThrough
  rw [hpc, hdepth, State.fld_of_reg (hse _ (by omega))]
  exact h

/-- The registers that the loop test reads: PC, the depth's and the entries'. -/
def loopRegs (t q a : Nat) : Prop := a = A.seqPc t q ∨ a = A.seqSts t q ∨ ∃ k < 16, a = A.seqLoopSe t q k

theorem fallsThrough_of_sameRegs {s u : State} {i q : Nat} {l : List Nat} (h : FallsThrough s i q) (hu : SameRegs l s u)
    (hl : ∀ a ∈ l, ¬ loopRegs i q a) : FallsThrough u i q := by
  have hkept (a : Nat) (ha : loopRegs i q a) : u.reg a = s.reg a := hu a fun hm => hl a hm ha
  exact fallsThrough_of_regs h (State.pc_of_reg (hkept _ (.inl rfl))) (State.depth_of_reg (hkept _ (.inr (.inl rfl))))
    fun k hk => hkept _ (.inr (.inr ⟨k, hk, rfl⟩))

theorem State.complete_falls_eq (s : State) (t q : Nat) (bad : Option Nat) (h : FallsThrough s t q) :
    s.complete t q bad = ((s.addInstr t q).addCycles t q 0).setPc t q (s.pc t q + 1) := by
  obtain ⟨hpc, hloop⟩ := h
  have hinstr := regWork_addInstr s t q
  have htest := State.loopTest_none (s.addInstr t q) t q (s.pc t q) 8 (by
    rw [State.depth_of_reg (hinstr.1 _ (seqSts_not_instr t q)), State.fld_of_reg (hinstr.1 _ (loopSe_not_instr t q _))]
    exact hloop)
  unfold State.complete
  simp only [htest]
  rw [if_neg (by omega)]

theorem State.complete_falls_ticks (s : State) (t q : Nat) (bad : Option Nat) (h : FallsThrough s t q) :
    Ticks t q 0 1 s (s.complete t q bad) := by
  rw [s.complete_falls_eq t q bad h]
  exact ticks_trans (ticks_trans (ticks_addInstr s t q) (ticks_addCycles _ t q 0)) (ticks_setPc _ t q _)

theorem State.complete_falls_tie (s : State) (t q : Nat) (bad : Option Nat) (h : FallsThrough s t q) :
    (s.complete t q bad).tie = s.tie := by
  rw [s.complete_falls_eq t q bad h]
  simp [State.setPc]

/-- An instruction that has done its work in registers completes, and the next one follows. -/
theorem State.finish_next_steps {s u : State} {i q : Nat} {l : List Nat} (cyc : Nat) (bad : Option Nat) (h : RegWork l s u)
    (hl : ∀ a ∈ l, a ∉ seqMoves i q) (hfall : FallsThrough u i q) : Steps l i q cyc s (s.finish i q cyc (.next u) bad) ∧
      ∀ a ∈ l, (s.finish i q cyc (.next u) bad).reg a = u.reg a := by
  have hcyc := regWork_addCycles u i q cyc
  have hfall' : FallsThrough (u.addCycles i q cyc) i q := fallsThrough_of_sameRegs hfall hcyc.1 fun a ha hr => by
    simp only [List.mem_cons, List.not_mem_nil, or_false, loopRegs, seqAddr, seqAddrAt] at ha hr
    obtain hr | hr | ⟨k, -, hr⟩ := hr <;> omega
  obtain ⟨hdone, hpc⟩ := State.complete_falls _ i q bad hfall'
  have hmoves : RegWork (seqMoves i q) u ((u.addCycles i q cyc).complete i q bad) :=
    regWork_trans (regWork_mono hcyc (seqMoves_cyc i q)) hdone
  have hu : ∀ a ∈ seqMoves i q, u.reg a = s.reg a := fun a ha => h.1 a fun hm => hl a hm ha
  have hticks : Ticks i q cyc 1 s ((u.addCycles i q cyc).complete i q bad) := by
    have h0 : Ticks i q 0 0 s u := ticks_of_counters fun a ha => hu a (by
      rw [mem_seqCounters] at ha
      rw [mem_seqMoves]
      exact .inr ha)
    have := ticks_trans (ticks_trans h0 (ticks_addCycles u i q cyc)) (State.complete_falls_ticks _ i q bad hfall')
    rwa [Nat.zero_add] at this
  have hall : RegWork (l ++ seqMoves i q) s ((u.addCycles i q cyc).complete i q bad) :=
    regWork_trans (regWork_mono h fun a => List.mem_append_left _) (regWork_mono hmoves fun a => List.mem_append_right _)
  refine ⟨⟨?_, hticks, hall.1, by rw [State.finish, hall.2]⟩, fun a ha => hmoves.1 a (hl a ha)⟩
  have hupc : (u.addCycles i q cyc).pc i q = s.pc i q := by
    refine (State.pc_of_reg (hcyc.1 _ ?_)).trans (State.pc_of_reg (hu _ ?_))
    · simp only [List.mem_cons, List.not_mem_nil, or_false, seqAddr]; omega
    · simp [seqMoves]
  exact hpc.trans (by rw [hupc])

/-! ### An instruction that issues a command -/

theorem State.tq_sendCmd_ne (s : State) (t q : Nat) (c : TqCmd) (stamp : Nat) (o : Option Nat) {k : Nat} (h : k ≠ sk t q) :
    (s.sendCmd t q c stamp o).tq k = s.tq k := KMap.get_set_ne _ _ _ _ h

theorem State.tq_sendCmd (s : State) (t q : Nat) (c : TqCmd) (stamp : Nat) (o : Option Nat) :
    (s.sendCmd t q c stamp o).tq (sk t q) = { s.tq (sk t q) with flight := (s.tq (sk t q)).flight ++
      [{ cmd := c, stamp := stamp, sid := s.runSid t, issued := s.tm.now, stalledAt := o }] } := s.tq_setTq _ _

theorem State.tc_addCycles (s : State) (t q n : Nat) : (s.addCycles t q n).tc t q = s.tc t q :=
  State.tc_of_reg (s.reg_addCycles t q n _ (by simp only [seqAddr]; omega))

theorem State.finish_issues (s : State) (i : Tile) (q : Seq) (cyc : Nat) (cmd : TqCmd) (bad : Option Nat) (hfall : FallsThrough s i q)
    (hq : s.queueFull (sk i q) = false) : Issues cmd i q cyc s (s.finish i q cyc (.issue cmd .next) bad) := by
  have hcyc := regWork_addCycles s i q cyc
  have heq : s.finish i q cyc (.issue cmd .next) bad =
      ((s.addCycles i q cyc).sendCmd i q cmd (s.tc i q) none).complete i q bad := by
    simp only [State.finish, State.issue, regWork_queueFull hcyc, hq, Bool.false_eq_true, if_false, State.after, State.tc_addCycles]
  have hregs : SameRegs [A.seqCycLo i q, A.seqCycHi i q] s ((s.addCycles i q cyc).sendCmd i q cmd (s.tc i q) none) := hcyc.1
  have hfall' := fallsThrough_of_sameRegs hfall hregs fun a ha hr => by
    simp only [List.mem_cons, List.not_mem_nil, or_false, loopRegs, seqAddr, seqAddrAt] at ha hr
    obtain hr | hr | ⟨k, -, hr⟩ := hr <;> omega
  obtain ⟨hdone, hpc⟩ := State.complete_falls _ i q bad hfall'
  have htie := State.complete_falls_tie _ i q bad hfall'
  have hticks := State.complete_falls_ticks _ i q bad hfall'
  have hown := (s.addCycles i q cyc).tq_sendCmd i q cmd (s.tc i q) none
  rw [regWork_tq hcyc, regWork_tm hcyc, s.runSid_addCycles] at hown
  rw [heq]
  refine ⟨(regWork_tq hdone _).trans hown, fun k hk => ?_, ?_, ?_, fun a ha => ?_, ?_⟩
  · rw [regWork_tq hdone, State.tq_sendCmd_ne _ _ _ _ _ _ hk, regWork_tq hcyc]
  · rw [hpc, State.pc_of_reg (hregs _ (by simp only [List.mem_cons, List.not_mem_nil, or_false, seqAddr]; omega))]
  · have hsend : Ticks i q cyc 0 s ((s.addCycles i q cyc).sendCmd i q cmd (s.tc i q) none) := ticks_addCycles s i q cyc
    exact counts_of_ticks (ticks_trans hsend hticks)
  · exact (hdone.1 a ha).trans (hregs a fun hm => ha (seqMoves_cyc i q a hm))
  · rw [hdone.2]
    have hframe : (s.addCycles i q cyc).sendCmd i q cmd (s.tc i q) none =
        { s with regs := (s.addCycles i q cyc).regs, holds := (s.addCycles i q cyc).holds,
                 tqs := ((s.addCycles i q cyc).sendCmd i q cmd (s.tc i q) none).tqs } := by
      have hc : s.addCycles i q cyc = { s with regs := (s.addCycles i q cyc).regs, holds := (s.addCycles i q cyc).holds } := by
        have h2 := hcyc.2
        rw [State.tie_addCycles] at h2
        exact h2
      unfold State.sendCmd State.setTq
      rw [hc]
    rw [htie, hframe]

end Sys2Proof.Machine
end

section
/-! ## Faults, wherever an instruction stands (R114, R125) -/

namespace Sys2Proof.Machine

open Sys2Proof.Safety

/-- The registers that a fault writes. -/
def faultRegs (t q : Nat) : List Nat :=
  [A.seqSts t q, A.seqFault t q, A.seqFaultInfo t q, A.seqFaultCnt t q, A.evfSrcSts (tileSrc t 2 / 32)]

theorem mem_faultRegs (t q a : Nat) : a ∈ faultRegs t q ↔ a = A.seqSts t q ∨ a = A.seqFault t q ∨ a = A.seqFaultInfo t q ∨
    a = A.seqFaultCnt t q ∨ a = A.evfSrcSts (tileSrc t 2 / 32) := by
  simp only [faultRegs, List.mem_cons, List.not_mem_nil, or_false]

/-- A fault captures `cause` and `info`, sends an end marker, counts and fires (R114). -/
theorem State.enterFaulted_faults (s : State) (i : Tile) (q : Seq) (cause : Nat) (info : Word) (hc : cause < 32) :
    let t := (s.sendCmd i q .endMarker (s.tc i q) none).enterFaulted i q { cause := cause, info := info, pc := s.pc i q }
    Faults cause info i q s t ∧ SameRegs (faultRegs i q) s t := by
  have hlt := evfSrcSts_tileSrc_lt i 2 (by decide)
  have hpc : s.pc i q < 4096 := getF_lt _ F.seqPc.pc
  obtain ⟨hregs, h6, -, htq, hmem, hevq, hcount, hkept, hnew⟩ :=
    (s.sendCmd i q .endMarker (s.tc i q) none).enterFaulted_spec i q { cause := cause, info := info, pc := s.pc i q }
  refine ⟨⟨h6, State.pc_of_reg (hregs _ ?_), State.tc_of_reg (hregs _ ?_), fun k hk => hregs _ ?_, ?_, fun hv => ?_, hkept, hcount,
    hevq, fun a => ?_⟩, hregs⟩
  · simp only [List.mem_cons, List.not_mem_nil, or_false, seqAddr]; omega
  · simp only [List.mem_cons, List.not_mem_nil, or_false, seqAddr]; omega
  · simp only [List.mem_cons, List.not_mem_nil, or_false, seqAddr, seqAddrAt]; omega
  · exact (congrArg (fun m => (KMap.get {} m (sk i q)).flight) htq).trans (s.flight_sendCmd i q .endMarker (s.tc i q) none)
  · obtain ⟨h1, h2, h3, h4⟩ := hnew hv
    exact ⟨h1, h2.trans (Nat.mod_eq_of_lt hc), h3.trans (Nat.mod_eq_of_lt hpc), h4⟩
  · exact congrArg (KMap.get 0 · a) hmem

theorem State.fault_faults (s : State) (i : Tile) (q : Seq) (cause : Nat) (info : Word) (hc : cause < 32)
    (hp : s.patched i = false) (hf : s.queueFull (sk i q) = false) :
    Faults cause info i q s (s.fault i q { cause := cause, info := info, pc := s.pc i q }) ∧
    SameRegs (faultRegs i q) s (s.fault i q { cause := cause, info := info, pc := s.pc i q }) := by
  rw [s.fault_eq i q _ hp hf]
  exact s.enterFaulted_faults i q cause info hc

/-- The registers that a fault reads of its sequencer, and those from which its shot is known. -/
def faultReads (t q a : Nat) : Prop :=
  a = A.seqPc t q ∨ a = A.seqTc t q ∨ (∃ k < 16, a = A.seqS t q k) ∨ a = A.seqFault t q ∨ a = A.seqFaultInfo t q ∨
    a = A.seqFaultCnt t q ∨ a < 0x100

/-- Work in other registers before a fault does not show in it. -/
theorem faults_after {s u t : State} {i : Tile} {q : Seq} {cause : Nat} {info : Word} {l : List Nat} (h : RegWork l s u)
    (hl : ∀ a ∈ l, ¬ faultReads i q a) (hf : Faults cause info i q u t) : Faults cause info i q s t := by
  have hkept (a : Nat) (ha : faultReads i q a) : u.reg a = s.reg a := h.1 a fun hm => hl a hm ha
  have hpc : u.pc i q = s.pc i q := State.pc_of_reg (hkept _ (.inl rfl))
  have htc : u.tc i q = s.tc i q := State.tc_of_reg (hkept _ (.inr (.inl rfl)))
  have hs (k : Nat) (hk : k < 16) : u.sreg i q k = s.sreg i q k := hkept _ (.inr (.inr (.inl ⟨k, hk, rfl⟩)))
  have hfault : u.reg (A.seqFault i q) = s.reg (A.seqFault i q) := hkept _ (.inr (.inr (.inr (.inl rfl))))
  have hinfo : u.reg (A.seqFaultInfo i q) = s.reg (A.seqFaultInfo i q) := hkept _ (.inr (.inr (.inr (.inr (.inl rfl)))))
  have hcnt : u.reg (A.seqFaultCnt i q) = s.reg (A.seqFaultCnt i q) := hkept _ (.inr (.inr (.inr (.inr (.inr (.inl rfl))))))
  have hsid : u.runSid i = s.runSid i := State.runSid_of
    (fun a ha => hkept a (.inr (.inr (.inr (.inr (.inr (.inr ha)))))))
    (fun p => regWork_sched h p) i
  obtain ⟨h6, tpc, ttc, ts, hflight, hnew, hold, hcount, hevq, hmem⟩ := hf
  rw [State.on_of_reg hfault] at hnew hold
  rw [hpc] at hnew
  rw [hfault, hinfo] at hold
  rw [regWork_tq h, htc, hsid, regWork_tm h] at hflight
  refine ⟨h6, tpc.trans hpc, ttc.trans htc, fun k hk => (ts k hk).trans (hs k hk), hflight, hnew, hold, by rw [hcount, hcnt],
    by rw [hevq, regWork_evq h], fun a => ?_⟩
  have hbyte : u.byte a = s.byte a := by
    unfold State.byte
    rw [regWork_mem h]
  exact (hmem a).trans hbyte

/-- The cycle counter is no register that a fault reads. -/
theorem cycles_not_faultReads (t q : Nat) : ∀ a ∈ [A.seqCycLo t q, A.seqCycHi t q], ¬ faultReads t q a := by
  intro a ha hr
  simp only [List.mem_cons, List.not_mem_nil, or_false, faultReads, seqAddr, seqAddrAt] at ha hr
  obtain hr | hr | ⟨k, -, hr⟩ | hr := hr <;> omega

theorem instrs_not_faultReads (t q : Nat) : ∀ a ∈ [A.seqInstrLo t q, A.seqInstrHi t q], ¬ faultReads t q a := by
  intro a ha hr
  simp only [List.mem_cons, List.not_mem_nil, or_false, faultReads, seqAddr, seqAddrAt] at ha hr
  obtain hr | hr | ⟨k, -, hr⟩ | hr := hr <;> omega

theorem State.pc_addCycles (s : State) (t q n : Nat) : (s.addCycles t q n).pc t q = s.pc t q :=
  State.pc_of_reg (s.reg_addCycles t q n _ (by simp only [seqAddr]; omega))

theorem State.reg_addInstr (s : State) (t q a : Nat) (ha : a ≠ A.seqInstrLo t q ∧ a ≠ A.seqInstrHi t q) :
    (s.addInstr t q).reg a = s.reg a := (regWork_addInstr s t q).1 a (by simp [ha])

theorem State.pc_addInstr (s : State) (t q : Nat) : (s.addInstr t q).pc t q = s.pc t q :=
  State.pc_of_reg (s.reg_addInstr t q _ (by simp only [seqAddr]; omega))

theorem State.patched_addInstr (s : State) (t q : Nat) : (s.addInstr t q).patched t = s.patched t :=
  State.patched_of_sameRegs t (regWork_addInstr s t q).1 fun m hm => by
    simp only [List.mem_cons, List.not_mem_nil, or_false, A.ucMatch, seqAddr]
    omega

/-- A fault counts no cycle and no instruction of its own. -/
theorem ticks_of_faultRegs {s t : State} {i : Tile} {q : Seq} (h : SameRegs (faultRegs i q) s t) : Ticks i q 0 0 s t :=
  ticks_of_sameRegs h fun a ha => by
    have hlt := evfSrcSts_tileSrc_lt i 2 (by decide)
    simp only [mem_seqCounters, mem_faultRegs, seqAddr] at ha ⊢
    omega

/-- An instruction that completes where no next address exists (R104, R113). -/
theorem State.pcEnd_faults (s : State) (i : Tile) (q : Seq) (n : Nat) (hp : s.patched i = false) (hf : s.queueFull (sk i q) = false) :
    Faults 4 0 i q s (((s.addCycles i q n).addInstr i q).fault i q { cause := 4, info := 0, pc := s.pc i q }) ∧
    Counts i q n s (((s.addCycles i q n).addInstr i q).fault i q { cause := 4, info := 0, pc := s.pc i q }) := by
  have hcyc := regWork_addCycles s i q n
  have hinstr := regWork_addInstr (s.addCycles i q n) i q
  have hpc : ((s.addCycles i q n).addInstr i q).pc i q = s.pc i q := (State.pc_addInstr _ i q).trans (s.pc_addCycles i q n)
  obtain ⟨hfaults, hregs⟩ := ((s.addCycles i q n).addInstr i q).fault_faults i q 4 0 (by decide)
    ((State.patched_addInstr _ i q).trans ((s.patched_addCycles i q n q.isLt).trans hp))
    ((regWork_queueFull hinstr _).trans ((regWork_queueFull hcyc _).trans hf))
  rw [hpc] at hfaults hregs
  exact ⟨faults_after hcyc (cycles_not_faultReads i q) (faults_after hinstr (instrs_not_faultReads i q) hfaults),
    counts_of_ticks (ticks_trans (ticks_trans (ticks_addCycles s i q n) (ticks_addInstr _ i q)) (ticks_of_faultRegs hregs))⟩

end Sys2Proof.Machine
end

section
/-! ## ALU instructions, RDSP, waits of the cursor, data memory and branches (R91, R92, R103, R110–R112) -/

namespace Sys2Proof.Machine

open Sys2Proof.Safety

/-! ### S[RA] takes a value -/

theorem State.insAt_ra_lt (s : State) (i q pc : Nat) : (s.insAt i q pc).ra < 16 := getF_lt _ _

theorem loopRegs_not_seqS {t q k : Nat} (hk : k < 16) : ¬ loopRegs t q (A.seqS t q k) := by
  intro h
  simp only [loopRegs, seqAddr, seqAddrAt] at h
  obtain h | h | ⟨j, -, h⟩ := h <;> omega

/-- An instruction writes S[k], and the next one follows. -/
theorem State.setSreg_steps (s : State) (i q k cyc : Nat) (v : Word) (hk : k < 16) (hfall : FallsThrough s i q) :
    (s.finish i q cyc (.next (s.setSreg i q k v))).sreg i q k = v ∧
    Steps [A.seqS i q k] i q cyc s (s.finish i q cyc (.next (s.setSreg i q k v))) := by
  have hwork : RegWork [A.seqS i q k] s (s.setSreg i q k v) := regWork_setReg s _ v
  obtain ⟨hsteps, hkept⟩ := State.finish_next_steps cyc none hwork (by simpa using seqS_not_moves i q k)
    (fallsThrough_of_sameRegs hfall hwork.1 (by simpa using loopRegs_not_seqS hk))
  exact ⟨(hkept _ (by simp)).trans (s.reg_setReg_same _ v), hsteps⟩

theorem State.alu_steps (s : State) (i q op cyc : Nat) (f : Word → Word → Word) (h : Passes s i q op) (hfall : FallsThrough s i q) :
    let x := s.insAt i q (s.pc i q)
    ∃ t, s.alu i q .clean op cyc f = .next t ∧ t.sreg i q x.ra = f (s.sreg i q x.rb) (s.operand2 i q x) ∧
      Steps [A.seqS i q x.ra] i q cyc s t :=
  ⟨_, s.instrRow_passes i q op _ _ _ h (beq_self_eq_true op), s.setSreg_steps i q _ cyc _ (s.insAt_ra_lt i q _) hfall⟩

theorem completes_movi (s : State) (i : Tile) (q : Seq) (h : Passes s i q 0x49) (hfall : FallsThrough s i q) :
    let x := s.insAt i q (s.pc i q)
    Completes (.movi i q .clean) s fun t => t.sreg i q x.ra = BitVec.ofNat 32 x.imm ∧ Steps [A.seqS i q x.ra] i q 1 s t :=
  completes_of_exec (by rw [exec_movi, execMovi, s.instrRow_passes i q 0x49 _ _ _ h rfl])
    (s.setSreg_steps i q _ 1 _ (s.insAt_ra_lt i q _) hfall)

/-! ### RDSP (R111) -/

/-- The value that SUB[2:0] names. -/
def State.rdspValue (s : State) (t q n : Nat) : Option Word :=
  match n with
  | 0 => some (s.reg (A.seqTc t q))
  | 1 => some (match s.plotOf t with | some p => s.reg (A.shotNum p) | none => 0)
  | 2 => some (BitVec.ofNat 32 t)
  | 3 => some (BitVec.ofNat 32 (s.effIdx t q))
  | 4 => some (if s.depth t q = 0 then 0 else s.reg (A.seqLoopRem t q (s.depth t q - 1)))
  | 5 => some (BitVec.ofNat 32 (s.depth t q))
  | _ => none

theorem exec_rdsp_passes (s : State) (i : Tile) (q : Seq) (h : Passes s i q 0x4A) :
    exec (.rdsp i q .clean) s = .next (s.finish i q 1 (match s.rdspValue i q (bits (s.insAt i q (s.pc i q)).sub 2 0) with
      | none => s.badOperand i q
      | some v => .next (s.setSreg i q (s.insAt i q (s.pc i q)).ra v))) := by
  rw [exec_rdsp, execRdsp, s.instrRow_passes i q 0x4A _ _ _ h rfl]
  rfl

theorem completes_rdsp (s : State) (i : Tile) (q : Seq) (v : Word) (h : Passes s i q 0x4A) (hfall : FallsThrough s i q)
    (hv : s.rdspValue i q (bits (s.insAt i q (s.pc i q)).sub 2 0) = some v) :
    Completes (.rdsp i q .clean) s fun t => t.sreg i q (s.insAt i q (s.pc i q)).ra = v ∧
      Steps [A.seqS i q (s.insAt i q (s.pc i q)).ra] i q 1 s t := by
  refine ⟨_, exec_rdsp_passes s i q h, ?_⟩
  rw [hv]
  exact s.setSreg_steps i q _ 1 v (s.insAt_ra_lt i q _) hfall

theorem State.rdspValue_none (s : State) (t q n : Nat) (h : 6 ≤ n) : s.rdspValue t q n = none := by
  obtain ⟨m, rfl⟩ := Nat.exists_eq_add_of_le' h
  rfl

theorem completes_rdsp_bad (s : State) (i : Tile) (q : Seq) (h : Passes s i q 0x4A)
    (hn : 6 ≤ bits (s.insAt i q (s.pc i q)).sub 2 0) (hf : s.queueFull (sk i q) = false) :
    Completes (.rdsp i q .clean) s fun t => Faults 3 (s.insHi i q) i q s t := by
  refine ⟨_, exec_rdsp_passes s i q h, ?_⟩
  obtain ⟨-, -, hp, -⟩ := h
  rw [s.rdspValue_none i q _ hn]
  exact s.faults_spec i q 3 (s.insHi i q) 3 (by decide) hp hf

/-- Settles O18: every ALU row is one rule, `State.alu_steps`, for its operation; RDSP's is the value that SUB names. -/
theorem aluInstructionsAndRdsp : Obligations.AluInstructionsAndRdsp := by
  unfold Obligations.AluInstructionsAndRdsp
  refine ⟨fun s i q hfall => ⟨fun h => ?_, fun h => ?_, fun h => ?_, fun h => ?_, fun h => ?_, fun h => ?_, fun h => ?_, fun h => ?_,
    fun h => ?_, fun h => completes_movi s i q h hfall⟩, fun s i q h => ⟨fun hfall => ⟨fun hn => ?_, fun p hn hplot => ?_, fun hn => ?_,
    fun hn hq => ?_, fun hn hd => ?_, fun hn hd => ?_, fun hn => ?_⟩, fun hn hf => completes_rdsp_bad s i q h hn hf⟩⟩
  · exact s.alu_steps i q 0x40 1 (· + ·) h hfall
  · exact s.alu_steps i q 0x41 1 (· - ·) h hfall
  · exact s.alu_steps i q 0x42 1 (· &&& ·) h hfall
  · exact s.alu_steps i q 0x43 1 (· ||| ·) h hfall
  · exact s.alu_steps i q 0x44 1 (· ^^^ ·) h hfall
  · exact s.alu_steps i q 0x45 1 aluShl h hfall
  · exact s.alu_steps i q 0x46 1 aluShr h hfall
  · exact s.alu_steps i q 0x47 1 aluSra h hfall
  · obtain ⟨t, hexec, hv, hsteps⟩ := s.alu_steps i q 0x48 3 (· * ·) h hfall
    exact ⟨t, hexec, hv.trans (BitVec.mul_def ..), hsteps⟩
  · exact completes_rdsp s i q _ h hfall (by rw [hn]; rfl)
  · exact completes_rdsp s i q _ h hfall (by rw [hn, State.rdspValue, hplot])
  · exact completes_rdsp s i q _ h hfall (by rw [hn]; rfl)
  · exact completes_rdsp s i q _ h hfall (by rw [hn, State.rdspValue, State.effIdx, if_pos hq])
  · exact completes_rdsp s i q _ h hfall (by rw [hn, State.rdspValue, if_pos hd])
  · exact completes_rdsp s i q _ h hfall (by rw [hn, State.rdspValue, if_neg hd])
  · exact completes_rdsp s i q _ h hfall (by rw [hn]; rfl)

/-! ### The time cursor (R91, R92) -/

theorem loopRegs_not_seqTc (t q : Nat) : ¬ loopRegs t q (A.seqTc t q) := by
  intro h
  simp only [loopRegs, seqAddr, seqAddrAt] at h
  obtain h | h | ⟨j, -, h⟩ := h <;> omega

/-- The cursor takes a value of 32 bits, and the next instruction follows. -/
theorem State.setTc_steps (s : State) (i q cyc v : Nat) (hv : v < 2 ^ 32) (hfall : FallsThrough s i q) :
    (s.finish i q cyc (.next (s.setTc i q v))).tc i q = v ∧
    Steps [A.seqTc i q] i q cyc s (s.finish i q cyc (.next (s.setTc i q v))) := by
  have hwork : RegWork [A.seqTc i q] s (s.setTc i q v) := regWork_setReg s _ _
  obtain ⟨hsteps, hkept⟩ := State.finish_next_steps cyc none hwork (by simpa using seqTc_not_moves i q)
    (fallsThrough_of_sameRegs hfall hwork.1 (by simpa using loopRegs_not_seqTc i q))
  refine ⟨?_, hsteps⟩
  rw [State.tc, hkept _ (by simp), State.setTc, State.reg_setReg_same, BitVec.toNat_ofNat, Nat.mod_eq_of_lt hv]

theorem State.tickOperand_lt (s : State) (i q : Nat) : s.tickOperand i q (s.insAt i q (s.pc i q)) < 2 ^ 32 := by
  unfold State.tickOperand
  split
  · exact BitVec.isLt _
  · exact BitVec.isLt (s.word _)

theorem exec_wait_passes (s : State) (i : Tile) (q : Seq) (h : Passes s i q 0x10) :
    exec (.wait i q .clean) s = .next (s.finish i q 1
      (if 0xFFFFFFFF < s.tc i q + s.tickOperand i q (s.insAt i q (s.pc i q)) then .fault 0xB 0 2
        else .next (s.setTc i q (s.tc i q + s.tickOperand i q (s.insAt i q (s.pc i q)))))) :=
  by rw [exec_wait, execWait, s.instrRow_passes i q 0x10 _ _ _ h rfl]

theorem exec_waituntil_passes (s : State) (i : Tile) (q : Seq) (h : Passes s i q 0x11) :
    exec (.waituntil i q .clean) s = .next (s.finish i q 2
      (if s.tc i q ≤ s.tickOperand i q (s.insAt i q (s.pc i q)) then .next (s.setTc i q (s.tickOperand i q (s.insAt i q (s.pc i q))))
        else .next (s.raise (A.seqSts i q) F.seqSts.tcClamp 1))) :=
  by rw [exec_waituntil, execWaituntil, s.instrRow_passes i q 0x11 _ _ _ h rfl]

/-- A WAITUNTIL whose target has passed: TC_CLAMP sets in SEQ_STS, whose other fields stand (R91). -/
theorem State.tcClamp_steps (s : State) (i q : Nat) (hfall : FallsThrough s i q) :
    let t := s.finish i q 2 (.next (s.raise (A.seqSts i q) F.seqSts.tcClamp 1))
    t.tc i q = s.tc i q ∧ t.fld (A.seqSts i q) F.seqSts.tcClamp = 1 ∧ t.seqState i q = s.seqState i q ∧
      Steps [A.seqSts i q] i q 2 s t := by
  have hwork := regWork_raise s (A.seqSts i q) F.seqSts.tcClamp 1
  have hfall' : FallsThrough (s.raise (A.seqSts i q) F.seqSts.tcClamp 1) i q := by
    refine fallsThrough_of_regs hfall (State.pc_of_reg (hwork.1 _ ?_))
      (s.fld_raise_disjoint _ _ _ 1 (by decide) (by decide)) fun k hk => hwork.1 _ ?_
    · simp only [List.mem_cons, List.not_mem_nil, or_false, seqAddr]; omega
    · simp only [List.mem_cons, List.not_mem_nil, or_false, seqAddr, seqAddrAt]; omega
  obtain ⟨hsteps, hkept⟩ := State.finish_next_steps 2 none hwork (by simpa using seqSts_not_moves i q) hfall'
  have hsts := hkept _ (List.mem_singleton.2 rfl)
  obtain ⟨-, -, hregs, -⟩ := id hsteps
  refine ⟨State.tc_of_reg (hregs _ ?_), (State.fld_of_reg hsts _).trans (s.fld_raise_bit _ _ (by decide) rfl),
    (State.fld_of_reg hsts _).trans (s.fld_raise_disjoint _ _ _ 1 (by decide) (by decide)), hsteps⟩
  simp only [List.singleton_append, List.mem_cons, mem_seqMoves, seqAddr]
  omega

theorem State.seqState_of_running {s : State} {i q : Nat} (h : s.running i q = true) : s.seqState i q = 2 := by
  simp only [State.running, Bool.and_eq_true, beq_iff_eq] at h
  exact h.1

theorem completes_wait (s : State) (i : Tile) (q : Seq) (h : Passes s i q 0x10) (hfall : FallsThrough s i q)
    (hn : s.tc i q + s.tickOperand i q (s.insAt i q (s.pc i q)) ≤ 0xFFFFFFFF) : Completes (.wait i q .clean) s fun t =>
      t.tc i q = s.tc i q + s.tickOperand i q (s.insAt i q (s.pc i q)) ∧ Steps [A.seqTc i q] i q 1 s t := by
  refine completes_of_exec (exec_wait_passes s i q h) ?_
  rw [if_neg (Nat.not_lt.2 hn)]
  exact s.setTc_steps i q 1 _ (Nat.lt_succ_of_le hn) hfall

theorem completes_wait_overflow (s : State) (i : Tile) (q : Seq) (h : Passes s i q 0x10) (hf : s.queueFull (sk i q) = false)
    (hn : 0xFFFFFFFF < s.tc i q + s.tickOperand i q (s.insAt i q (s.pc i q))) :
    Completes (.wait i q .clean) s fun t => Faults 0xB 0 i q s t := by
  refine completes_of_exec (exec_wait_passes s i q h) ?_
  obtain ⟨-, -, hp, -⟩ := h
  rw [if_pos hn]
  exact s.faults_spec i q 0xB 0 2 (by decide) hp hf

theorem completes_waituntil (s : State) (i : Tile) (q : Seq) (h : Passes s i q 0x11) (hfall : FallsThrough s i q)
    (hn : s.tc i q ≤ s.tickOperand i q (s.insAt i q (s.pc i q))) : Completes (.waituntil i q .clean) s fun t =>
      t.tc i q = s.tickOperand i q (s.insAt i q (s.pc i q)) ∧ Steps [A.seqTc i q] i q 2 s t := by
  refine completes_of_exec (exec_waituntil_passes s i q h) ?_
  rw [if_pos hn]
  exact s.setTc_steps i q 2 _ (s.tickOperand_lt i q) hfall

theorem completes_waituntil_clamp (s : State) (i : Tile) (q : Seq) (h : Passes s i q 0x11) (hfall : FallsThrough s i q)
    (hn : s.tickOperand i q (s.insAt i q (s.pc i q)) < s.tc i q) : Completes (.waituntil i q .clean) s fun t =>
      t.tc i q = s.tc i q ∧ t.fld (A.seqSts i q) F.seqSts.tcClamp = 1 ∧ t.seqState i q = 2 ∧ Steps [A.seqSts i q] i q 2 s t := by
  refine completes_of_exec (exec_waituntil_passes s i q h) ?_
  obtain ⟨hrun, -⟩ := h
  obtain ⟨htc, hclamp, hstate, hsteps⟩ := s.tcClamp_steps i q hfall
  rw [if_neg (Nat.not_le.2 hn)]
  exact ⟨htc, hclamp, hstate.trans (State.seqState_of_running hrun), hsteps⟩

/-- Settles O19: both rows write the cursor or raise TC_CLAMP, or fault. -/
theorem waitMovesTheCursor : Obligations.WaitMovesTheCursor := by
  unfold Obligations.WaitMovesTheCursor
  exact fun s i q => ⟨completes_wait s i q, completes_wait_overflow s i q, completes_waituntil s i q, completes_waituntil_clamp s i q⟩

end Sys2Proof.Machine
end

section
/-! ## Data memory and branches (R103, R112) -/

namespace Sys2Proof.Machine

open Sys2Proof.Safety

/-! ### LD and ST (R112) -/

/-- The four bytes of a word spell it. -/
theorem State.word_setWord (s : State) (a : Nat) (w : Word) : (s.setWord a w).word a = w := by
  have h0 := s.byte_setBytes_in a (wordBytes w) 0 (by simp [wordBytes])
  have h1 := s.byte_setBytes_in a (wordBytes w) 1 (by simp [wordBytes])
  have h2 := s.byte_setBytes_in a (wordBytes w) 2 (by simp [wordBytes])
  have h3 := s.byte_setBytes_in a (wordBytes w) 3 (by simp [wordBytes])
  rw [Nat.add_zero] at h0
  have hw := w.isLt
  apply BitVec.eq_of_toNat_eq
  rw [State.word, State.setWord, h0, h1, h2, h3]
  simp only [wordBytes, List.getElem_cons_zero, List.getElem_cons_succ, BitVec.toNat_ofNat]
  omega

theorem State.byte_setWord_out (s : State) (a : Nat) (w : Word) : SameBytesBut a 4 s (s.setWord a w) :=
  fun b hb => s.byte_setBytes_out a (wordBytes w) b hb

theorem State.setWord_frame (s : State) (a : Nat) (w : Word) : s.setWord a w = { s with mem := (s.setWord a w).mem } :=
  s.setBytes_frame a _

theorem State.dm_of_mem {s u : State} (h : u.mem = s.mem) (t q w : Nat) : u.dm t q w = s.dm t q w := by
  unfold State.dm State.word State.byte
  rw [h]

theorem exec_ld_passes (s : State) (i : Tile) (q : Seq) (h : Passes s i q 0x50) :
    let x := s.insAt i q (s.pc i q)
    let a := s.sreg i q x.rb + BitVec.ofNat 32 x.imm
    exec (.ld i q .clean) s =
      .next (s.finish i q 2 (if 255 < a.toNat then .fault 8 a 3 else .next (s.setSreg i q x.ra (s.dm i q a.toNat)))) := by
  rw [exec_ld, execLd, s.instrRow_passes i q 0x50 _ _ _ h rfl]

theorem exec_st_passes (s : State) (i : Tile) (q : Seq) (h : Passes s i q 0x51) :
    let x := s.insAt i q (s.pc i q)
    let a := s.sreg i q x.rb + BitVec.ofNat 32 x.imm
    exec (.st i q .clean) s =
      .next (s.finish i q 1 (if 255 < a.toNat then .fault 8 a 3 else .next (s.setWord (dataAt i q a.toNat) (s.sreg i q x.ra)))) := by
  rw [exec_st, execSt, s.instrRow_passes i q 0x51 _ _ _ h rfl]

theorem completes_ld (s : State) (i : Tile) (q : Seq) (h : Passes s i q 0x50) (hfall : FallsThrough s i q) :
    let x := s.insAt i q (s.pc i q)
    let a := s.sreg i q x.rb + BitVec.ofNat 32 x.imm
    a.toNat ≤ 255 → Completes (.ld i q .clean) s fun t =>
      t.sreg i q x.ra = s.dm i q a.toNat ∧ Steps [A.seqS i q x.ra] i q 2 s t := by
  intro x a ha
  refine completes_of_exec (exec_ld_passes s i q h) ?_
  rw [if_neg (Nat.not_lt.2 ha)]
  exact s.setSreg_steps i q _ 2 _ (s.insAt_ra_lt i q _) hfall

/-- A step that stores a word, and the next instruction follows. -/
theorem State.setWord_steps (s : State) (i q a : Nat) (w : Word) (hfall : FallsThrough s i q) :
    let t := s.finish i q 1 (.next (s.setWord a w))
    t.mem = (s.setWord a w).mem ∧ t.pc i q = s.pc i q + 1 ∧ SameRegs (seqMoves i q) s t ∧
      t = { s with regs := t.regs, tie := t.tie, holds := t.holds, mem := t.mem } := by
  have hframe := s.setWord_frame a w
  have hreg : ∀ b, (s.setWord a w).reg b = s.reg b := fun b => by rw [hframe]; rfl
  obtain ⟨⟨hpc, -, hregs, hsteps⟩, -⟩ := State.finish_next_steps (i := i) (q := q) 1 none (regWork_refl [] (s.setWord a w)) (by simp)
    (fallsThrough_of_sameRegs hfall (l := []) (fun b _ => hreg b) (by simp))
  have ht : s.finish i q 1 (.next (s.setWord a w)) = (s.setWord a w).finish i q 1 (.next (s.setWord a w)) := rfl
  rw [← ht] at hpc hregs hsteps
  refine ⟨by rw [hsteps], hpc.trans (by rw [State.pc_of_reg (hreg _)]), fun b hb => (hregs b hb).trans (hreg b), ?_⟩
  rw [hsteps, hframe]

theorem completes_st (s : State) (i : Tile) (q : Seq) (h : Passes s i q 0x51) (hfall : FallsThrough s i q) :
    let x := s.insAt i q (s.pc i q)
    let a := s.sreg i q x.rb + BitVec.ofNat 32 x.imm
    a.toNat ≤ 255 → Completes (.st i q .clean) s fun t =>
      t.dm i q a.toNat = s.sreg i q x.ra ∧ SameBytesBut (dataAt i q a.toNat) 4 s t ∧ t.pc i q = s.pc i q + 1 ∧
      SameRegs (seqMoves i q) s t ∧ t = { s with regs := t.regs, tie := t.tie, holds := t.holds, mem := t.mem } ∧
      ∀ u : State, u.mem = t.mem → Passes u i q 0x50 → FallsThrough u i q →
        u.sreg i q (u.insAt i q (u.pc i q)).rb + BitVec.ofNat 32 (u.insAt i q (u.pc i q)).imm = a →
        Completes (.ld i q .clean) u fun v => v.sreg i q (u.insAt i q (u.pc i q)).ra = s.sreg i q x.ra := by
  intro x a ha
  refine completes_of_exec (exec_st_passes s i q h) ?_
  rw [if_neg (Nat.not_lt.2 ha)]
  obtain ⟨hmem, hpc, hregs, hframe⟩ := s.setWord_steps i q (dataAt i q a.toNat) (s.sreg i q x.ra) hfall
  have hdm := (State.dm_of_mem hmem i q a.toNat).trans (s.word_setWord (dataAt i q a.toNat) (s.sreg i q x.ra))
  refine ⟨hdm, fun b hb => ?_, hpc, hregs, hframe, fun u hu hp hf hua => ?_⟩
  · exact (congrArg (KMap.get 0 · b) hmem).trans (s.byte_setWord_out _ _ b hb)
  · obtain ⟨v, hexec, hv, -⟩ := completes_ld u i q hp hf (by rwa [hua])
    rw [hua, State.dm_of_mem hu, hdm] at hv
    exact ⟨v, hexec, hv⟩

theorem completes_ld_range (s : State) (i : Tile) (q : Seq) (h : Passes s i q 0x50) (hf : s.queueFull (sk i q) = false) :
    let x := s.insAt i q (s.pc i q)
    let a := s.sreg i q x.rb + BitVec.ofNat 32 x.imm
    255 < a.toNat → Completes (.ld i q .clean) s fun t => Faults 8 a i q s t := by
  intro x a ha
  refine completes_of_exec (exec_ld_passes s i q h) ?_
  obtain ⟨-, -, hp, -⟩ := h
  rw [if_pos ha]
  exact s.faults_spec i q 8 a 3 (by decide) hp hf

theorem completes_st_range (s : State) (i : Tile) (q : Seq) (h : Passes s i q 0x51) (hf : s.queueFull (sk i q) = false) :
    let x := s.insAt i q (s.pc i q)
    let a := s.sreg i q x.rb + BitVec.ofNat 32 x.imm
    255 < a.toNat → Completes (.st i q .clean) s fun t => Faults 8 a i q s t := by
  intro x a ha
  refine completes_of_exec (exec_st_passes s i q h) ?_
  obtain ⟨-, -, hp, -⟩ := h
  rw [if_pos ha]
  exact s.faults_spec i q 8 a 3 (by decide) hp hf

/-- Settles O20: a word that ST has stored is the one that LD finds, `State.word_setWord`. -/
theorem loadAndStoreDataMemory : Obligations.LoadAndStoreDataMemory := by
  unfold Obligations.LoadAndStoreDataMemory
  exact fun s i q => ⟨completes_ld s i q, completes_st s i q, completes_ld_range s i q, completes_st_range s i q⟩

/-! ### Jumps -/

theorem State.pc_setPc_mod (s : State) (t q pc : Nat) : (s.setPc t q pc).pc t q = pc % 4096 := by
  unfold State.pc State.fld State.setPc
  rw [State.reg_setReg_same]
  simp only [getF, F.seqPc.pc, BitVec.toNat_ofNat]
  omega

/-- An instruction that goes elsewhere: PC, the counters, and the registers it has written. -/
theorem State.finish_jump_spec {s u : State} {i q : Nat} {l : List Nat} (cyc pc refill : Nat) (h : RegWork l s u)
    (hl : ∀ a ∈ l, a ∉ seqMoves i q) (hpc : pc < 4096) :
    let t := s.finish i q cyc (.jump u pc refill)
    t.pc i q = pc ∧ Counts i q (cyc + refill) s t ∧ RegWork (l ++ seqMoves i q) s t ∧ ∀ a, a ∉ seqMoves i q → t.reg a = u.reg a := by
  have hu : ∀ a ∈ seqMoves i q, u.reg a = s.reg a := fun a ha => h.1 a fun hm => hl a hm ha
  have hmoves : RegWork (seqMoves i q) u (((u.addCycles i q (cyc + refill)).addInstr i q).setPc i q pc) :=
    regWork_trans (regWork_trans (regWork_mono (regWork_addCycles u i q _) (seqMoves_cyc i q))
      (regWork_mono (regWork_addInstr _ i q) (seqMoves_instr i q))) (regWork_mono (regWork_setPc _ i q _) (seqMoves_pc i q))
  have h0 : Ticks i q 0 0 s u := ticks_of_counters fun a ha => hu a (by
    rw [mem_seqCounters] at ha
    rw [mem_seqMoves]
    exact .inr ha)
  have hticks := ticks_trans (ticks_trans (ticks_trans h0 (ticks_addCycles u i q (cyc + refill))) (ticks_addInstr _ i q))
    (ticks_setPc _ i q pc)
  rw [Nat.zero_add] at hticks
  exact ⟨State.pc_setPc _ i q pc hpc, counts_of_ticks hticks,
    regWork_trans (regWork_mono h fun a => List.mem_append_left _) (regWork_mono hmoves fun a => List.mem_append_right _), hmoves.1⟩

/-! ### The loop stack -/

/-- The registers of the loop entries of a list. -/
def loopEntries (t q : Nat) (l : List Nat) : List Nat := l.flatMap fun i => [A.seqLoopSe t q i, A.seqLoopRem t q i]

theorem mem_loopEntries (t q a : Nat) (l : List Nat) : a ∈ loopEntries t q l ↔ ∃ i ∈ l, a = A.seqLoopSe t q i ∨ a = A.seqLoopRem t q i := by
  simp only [loopEntries, List.mem_flatMap, List.mem_cons, List.not_mem_nil, or_false]

theorem regWork_clearLoops (s : State) (t q : Nat) (l : List Nat) : RegWork (loopEntries t q l) s (s.clearLoops t q l) := by
  induction l generalizing s with
  | nil => exact regWork_refl _ s
  | cons i l ih =>
    have hse := regWork_setReg s (A.seqLoopSe t q i) 0
    have hrem := regWork_setReg (s.setReg (A.seqLoopSe t q i) 0) (A.seqLoopRem t q i) 0
    exact regWork_trans (regWork_trans (regWork_mono hse (by simp [loopEntries])) (regWork_mono hrem (by simp [loopEntries])))
      (regWork_mono (ih _) fun a ha => List.mem_append_right _ ha)

theorem regWork_setDepth (s : State) (t q d : Nat) : RegWork [A.seqSts t q] s (s.setDepth t q d) := regWork_setReg s _ _

theorem State.depth_setDepth (s : State) (t q d : Nat) (h : d < 16) : (s.setDepth t q d).depth t q = d :=
  (s.fld_setFld_same _ _ d (by decide)).trans (Nat.mod_eq_of_lt h)

/-! ### BR (R103) -/

/-- Condition `cond` of BR between two values. -/
def brHolds (cond : Nat) (a b : Word) : Prop :=
  match cond with
  | 0 => True
  | 1 => a = b
  | 2 => a ≠ b
  | 3 => a.toInt < b.toInt
  | 4 => b.toInt ≤ a.toInt
  | 5 => a.toNat < b.toNat
  | _ => b.toNat ≤ a.toNat

theorem brTaken_holds {cond : Nat} {a b : Word} (hc : cond ≤ 6) (h : brHolds cond a b) : brTaken cond a b = some true := by
  interval_cases cond <;> simp_all [brHolds, brTaken, sval]

theorem brTaken_fails {cond : Nat} {a b : Word} (hc : cond ≤ 6) (h : ¬ brHolds cond a b) : brTaken cond a b = some false := by
  interval_cases cond
  · exact absurd trivial h
  · exact congrArg some (beq_false_of_ne h)
  · exact congrArg some (by simpa [brHolds] using h)
  · exact congrArg some (decide_eq_false h)
  · exact congrArg some (decide_eq_false h)
  · exact congrArg some (decide_eq_false h)
  · exact congrArg some (decide_eq_false h)

theorem brTaken_reserved {cond : Nat} (a b : Word) (hc : 7 ≤ cond) : brTaken cond a b = none := by
  obtain ⟨m, rfl⟩ := Nat.exists_eq_add_of_le' hc
  rfl

/-- The value that BR compares S[RA] with. -/
def State.brOperand (s : State) (t q : Nat) (x : Ins) : Word := if x.flag 0 then 0 else s.sreg t q x.rb

/-- The loop stack without its uppermost `pops` entries. -/
def State.popLoops (s : State) (t q pops : Nat) : State :=
  (s.clearLoops t q ((List.range 8).filter (s.depth t q - pops ≤ ·))).setDepth t q (s.depth t q - pops)

/-- What BR does once it has passed its checks. -/
def State.brResult (s : State) (t q : Nat) (x : Ins) : IRes :=
  match brTaken x.rc (s.sreg t q x.ra) (s.brOperand t q x) with
  | none => s.badOperand t q
  | some taken =>
    if 8 < bits x.imm 15 12 then s.badOperand t q
    else if !taken then .next s
    else if s.depth t q < bits x.imm 15 12 then .fault 6 0 3
    else .jump (s.popLoops t q (bits x.imm 15 12)) (bits x.imm 11 0) 2

theorem exec_br_passes (s : State) (i : Tile) (q : Seq) (h : Passes s i q 0x02) :
    exec (.br i q .clean) s = .next (s.finish i q 2 (s.brResult i q (s.insAt i q (s.pc i q)))) := by
  rw [exec_br, execBr, s.instrRow_passes i q 0x02 _ _ _ h rfl]
  rfl

section
variable {s : State} {t q : Nat} {x : Ins}

theorem State.brResult_taken (hrc : x.rc ≤ 6) (hpops : bits x.imm 15 12 ≤ 8) (hholds : brHolds x.rc (s.sreg t q x.ra) (s.brOperand t q x))
    (hle : bits x.imm 15 12 ≤ s.depth t q) : s.brResult t q x = .jump (s.popLoops t q (bits x.imm 15 12)) (bits x.imm 11 0) 2 := by
  simp [State.brResult, brTaken_holds hrc hholds, Nat.not_lt.2 hpops, Nat.not_lt.2 hle]

theorem State.brResult_passed (hrc : x.rc ≤ 6) (hpops : bits x.imm 15 12 ≤ 8)
    (hholds : ¬ brHolds x.rc (s.sreg t q x.ra) (s.brOperand t q x)) : s.brResult t q x = .next s := by
  simp [State.brResult, brTaken_fails hrc hholds, Nat.not_lt.2 hpops]

theorem State.brResult_bad (h : 7 ≤ x.rc ∨ 8 < bits x.imm 15 12) : s.brResult t q x = s.badOperand t q := by
  by_cases hrc : 7 ≤ x.rc
  · simp [State.brResult, brTaken_reserved _ _ hrc]
  · unfold State.brResult
    split
    · rfl
    · rw [if_pos (h.resolve_left hrc)]

theorem State.brResult_underflow (hrc : x.rc ≤ 6) (hpops : bits x.imm 15 12 ≤ 8)
    (hholds : brHolds x.rc (s.sreg t q x.ra) (s.brOperand t q x)) (hlt : s.depth t q < bits x.imm 15 12) :
    s.brResult t q x = .fault 6 0 3 := by
  simp [State.brResult, brTaken_holds hrc hholds, Nat.not_lt.2 hpops, hlt]

end

theorem bits_lt (n hi lo : Nat) : bits n hi lo < 2 ^ (hi + 1 - lo) := Nat.mod_lt _ (Nat.two_pow_pos _)

theorem State.popLoops_spec (s : State) (i q pops : Nat) (hd : s.depth i q ≤ 8) :
    RegWork (A.seqSts i q :: loopEntries i q ((List.range 8).filter (s.depth i q - pops ≤ ·))) s (s.popLoops i q pops) ∧
    (s.popLoops i q pops).depth i q = s.depth i q - pops :=
  ⟨regWork_trans (regWork_mono (regWork_clearLoops s i q _) fun a => List.mem_cons_of_mem _)
    (regWork_mono (regWork_setDepth _ i q _) (by simp)), State.depth_setDepth _ i q _ (by omega)⟩

/-- A taken branch leaves the entries that it does not pop, TC and S0–S15. -/
theorem State.jump_popLoops (s : State) (i q pops pc : Nat) (hd : s.depth i q ≤ 8) (hpc : pc < 4096) :
    let t := s.finish i q 2 (.jump (s.popLoops i q pops) pc 2)
    t.pc i q = pc ∧ t.depth i q = s.depth i q - pops ∧ t.tc i q = s.tc i q ∧ Counts i q 4 s t ∧
    (∀ k, k < 16 → t.sreg i q k = s.sreg i q k) ∧
    (∀ k, k < s.depth i q - pops → t.reg (A.seqLoopRem i q k) = s.reg (A.seqLoopRem i q k)) ∧
    t = { s with regs := t.regs, tie := t.tie, holds := t.holds } := by
  obtain ⟨hwork, hdepth⟩ := s.popLoops_spec i q pops hd
  have hpopped : ∀ a ∈ A.seqSts i q :: loopEntries i q ((List.range 8).filter (s.depth i q - pops ≤ ·)),
      a = A.seqSts i q ∨ ∃ k, s.depth i q - pops ≤ k ∧ (a = A.seqLoopSe i q k ∨ a = A.seqLoopRem i q k) := fun a ha => by
    rw [List.mem_cons, mem_loopEntries] at ha
    obtain ha | ⟨k, hk, ha⟩ := ha
    · exact .inl ha
    · simp only [List.mem_filter, decide_eq_true_eq] at hk
      exact .inr ⟨k, hk.2, ha⟩
  obtain ⟨hgo, hcounts, hall, hkept⟩ := State.finish_jump_spec (i := i) (q := q) 2 pc 2 hwork (fun a ha hm => by
      simp only [mem_seqMoves, seqAddr] at hm
      obtain h1 | ⟨k, -, h1⟩ := hpopped a ha <;> simp only [seqAddr, seqAddrAt] at h1 <;> omega) hpc
  have hother (a : Nat) (ha : a ∉ seqMoves i q) (h1 : a ≠ A.seqSts i q)
      (h2 : ∀ k, s.depth i q - pops ≤ k → a ≠ A.seqLoopSe i q k ∧ a ≠ A.seqLoopRem i q k) :
      (s.finish i q 2 (.jump (s.popLoops i q pops) pc 2)).reg a = s.reg a :=
    (hkept a ha).trans (hwork.1 a fun hm => by
      obtain h3 | ⟨k, hk, h3⟩ := hpopped a hm
      · exact h1 h3
      · exact h3.elim (h2 k hk).1 (h2 k hk).2)
  refine ⟨hgo, (State.depth_of_reg (hkept _ (seqSts_not_moves i q))).trans hdepth, State.tc_of_reg (hother _ (seqTc_not_moves i q) ?_ ?_),
    hcounts, fun k hk => hother _ (seqS_not_moves i q k) ?_ ?_, fun k hk => hother _ (seqLoopRem_not_moves i q k) ?_ ?_, hall.2⟩
  · simp only [seqAddr]; omega
  · intro k _; simp only [seqAddr, seqAddrAt]; omega
  · simp only [seqAddr, seqAddrAt]; omega
  · intro k _; simp only [seqAddrAt]; omega
  · simp only [seqAddr, seqAddrAt]; omega
  · intro j hj; simp only [seqAddrAt]; omega

/-- Settles O21, by the four results of a branch. -/
theorem branchesTakeTheirTarget : Obligations.BranchesTakeTheirTarget := by
  unfold Obligations.BranchesTakeTheirTarget
  intro s i q h
  have hexec := exec_br_passes s i q h
  obtain ⟨-, -, hp, -⟩ := h
  refine ⟨fun hrc hpops hholds hle hd => completes_of_exec hexec ?_, fun hrc hpops hholds hfall => completes_of_exec hexec ?_,
    fun hf hbad => completes_of_exec hexec ?_, fun hf hrc hpops hholds hlt => completes_of_exec hexec ?_⟩
  · rw [State.brResult_taken hrc hpops hholds hle]
    exact s.jump_popLoops i q _ _ hd (bits_lt _ _ _)
  · rw [State.brResult_passed hrc hpops hholds]
    exact (State.finish_next_steps 2 none (regWork_refl [] s) (by simp) hfall).1
  · rw [State.brResult_bad hbad]
    exact s.faults_spec i q 3 (s.insHi i q) 3 (by decide) hp hf
  · rw [State.brResult_underflow hrc hpops hholds hlt]
    exact s.faults_spec i q 6 0 3 (by decide) hp hf

end Sys2Proof.Machine
end

section
/-! ## Loops, and the wait for a decision (R104–R107, R239, R243) -/

namespace Sys2Proof.Machine

open Sys2Proof.Safety

/-! ### LOOP (R104) -/

/-- The count of a LOOP. -/
def State.loopCount (s : State) (t q : Nat) (x : Ins) : Word := if x.flag 0 then s.sreg t q x.ra else BitVec.ofNat 32 (bits x.imm 31 12)

/-- The loop stack with one more entry, from the next address to `endA`. -/
def State.pushLoop (s : State) (t q endA : Nat) (c : Word) : State :=
  ((s.setReg (A.seqLoopSe t q (s.depth t q)) (BitVec.ofNat 32 (endA * 2 ^ 16 + (s.pc t q + 1)))).setReg
    (A.seqLoopRem t q (s.depth t q)) c).setDepth t q (s.depth t q + 1)

/-- What LOOP does once it has passed its checks. -/
def State.loopResult (s : State) (t q : Nat) (x : Ins) : IRes :=
  if bits x.imm 11 0 < s.pc t q + 1 then s.badOperand t q
  else if s.loopCount t q x = 0 then (if bits x.imm 11 0 = 4095 then .pcEnd else .jump s (bits x.imm 11 0 + 1) 0)
  else if 8 ≤ s.depth t q then .fault 5 0 3
  else .next (s.pushLoop t q (bits x.imm 11 0) (s.loopCount t q x))

theorem exec_loop_passes (s : State) (i : Tile) (q : Seq) (h : Passes s i q 0x04) :
    exec (.loop i q .clean) s = .next (s.finish i q 2 (s.loopResult i q (s.insAt i q (s.pc i q)))) := by
  rw [exec_loop, execLoop, s.instrRow_passes i q 0x04 _ _ _ h rfl]
  rfl

/-- The fields of a loop entry. -/
theorem getF_loopWord (endA start : Nat) (he : endA < 4096) (hs : start < 4096) :
    getF (BitVec.ofNat 32 (endA * 2 ^ 16 + start)) F.seqLoopSe.endPc = endA ∧
    getF (BitVec.ofNat 32 (endA * 2 ^ 16 + start)) F.seqLoopSe.start = start := by
  simp only [getF, F.seqLoopSe.endPc, F.seqLoopSe.start, BitVec.toNat_ofNat]
  omega

/-- The registers of the entry that a push fills, and the depth's. -/
def pushRegs (t q d : Nat) : List Nat := [A.seqSts t q, A.seqLoopSe t q d, A.seqLoopRem t q d]

theorem State.pushLoop_spec (s : State) (t q endA : Nat) (c : Word) (hd : s.depth t q < 8) :
    RegWork (pushRegs t q (s.depth t q)) s (s.pushLoop t q endA c) ∧ (s.pushLoop t q endA c).depth t q = s.depth t q + 1 ∧
    (s.pushLoop t q endA c).reg (A.seqLoopSe t q (s.depth t q)) = BitVec.ofNat 32 (endA * 2 ^ 16 + (s.pc t q + 1)) ∧
    (s.pushLoop t q endA c).reg (A.seqLoopRem t q (s.depth t q)) = c := by
  have hse := regWork_setReg s (A.seqLoopSe t q (s.depth t q)) (BitVec.ofNat 32 (endA * 2 ^ 16 + (s.pc t q + 1)))
  have hrem := regWork_setReg (s.setReg (A.seqLoopSe t q (s.depth t q)) (BitVec.ofNat 32 (endA * 2 ^ 16 + (s.pc t q + 1))))
    (A.seqLoopRem t q (s.depth t q)) c
  have hdepth := regWork_setDepth ((s.setReg (A.seqLoopSe t q (s.depth t q)) (BitVec.ofNat 32 (endA * 2 ^ 16 + (s.pc t q + 1)))).setReg
    (A.seqLoopRem t q (s.depth t q)) c) t q (s.depth t q + 1)
  refine ⟨regWork_trans (regWork_trans (regWork_mono hse (by simp [pushRegs])) (regWork_mono hrem (by simp [pushRegs])))
    (regWork_mono hdepth (by simp [pushRegs])), State.depth_setDepth _ t q _ (by omega), ?_, ?_⟩
  · refine (hdepth.1 _ ?_).trans ((hrem.1 _ ?_).trans (s.reg_setReg_same _ _))
    · simp only [List.mem_cons, List.not_mem_nil, or_false, seqAddr, seqAddrAt]; omega
    · simp only [List.mem_cons, List.not_mem_nil, or_false, seqAddrAt]; omega
  · refine (hdepth.1 _ ?_).trans (State.reg_setReg_same ..)
    simp only [List.mem_cons, List.not_mem_nil, or_false, seqAddr, seqAddrAt]; omega

theorem State.finish_pushLoop (s : State) (i q endA : Nat) (c : Word) (hd : s.depth i q < 8) (he : endA < 4096)
    (hpc : s.pc i q + 1 ≤ endA) :
    let t := s.finish i q 2 (.next (s.pushLoop i q endA c))
    t.pc i q = s.pc i q + 1 ∧ t.depth i q = s.depth i q + 1 ∧
    t.fld (A.seqLoopSe i q (s.depth i q)) F.seqLoopSe.start = s.pc i q + 1 ∧
    t.fld (A.seqLoopSe i q (s.depth i q)) F.seqLoopSe.endPc = endA ∧ t.reg (A.seqLoopRem i q (s.depth i q)) = c ∧
    SameRegs (A.seqSts i q :: A.seqLoopSe i q (s.depth i q) :: A.seqLoopRem i q (s.depth i q) :: seqMoves i q) s t := by
  obtain ⟨hwork, hdepth, hse, hrem⟩ := s.pushLoop_spec i q endA c hd
  obtain ⟨hend, hstart⟩ := getF_loopWord endA (s.pc i q + 1) he (by omega)
  have hupc : (s.pushLoop i q endA c).pc i q = s.pc i q := State.pc_of_reg (hwork.1 _ (by
    simp only [pushRegs, List.mem_cons, List.not_mem_nil, or_false, seqAddr, seqAddrAt]; omega))
  have hfall : FallsThrough (s.pushLoop i q endA c) i q := by
    refine ⟨by rw [hupc]; omega, .inr ?_⟩
    rw [hdepth, Nat.add_sub_cancel, State.fld, hse, hend, hupc]
    omega
  obtain ⟨⟨hnext, -, hregs, -⟩, hkept⟩ := State.finish_next_steps 2 none hwork (fun a ha hm => by
    simp only [pushRegs, List.mem_cons, List.not_mem_nil, or_false, mem_seqMoves, seqAddr, seqAddrAt] at ha hm
    omega) hfall
  have hse' := (hkept _ (by simp [pushRegs])).trans hse
  refine ⟨hnext, (State.depth_of_reg (hkept _ (by simp [pushRegs]))).trans hdepth, ?_, ?_, (hkept _ (by simp [pushRegs])).trans hrem, hregs⟩
  · rw [State.fld, hse', hstart]
  · rw [State.fld, hse', hend]

section
variable {s : State} {i q : Nat} {x : Ins}

theorem State.loopResult_bad (h : bits x.imm 11 0 < s.pc i q + 1) : s.loopResult i q x = s.badOperand i q := if_pos h

theorem State.loopResult_skip (h : s.pc i q + 1 ≤ bits x.imm 11 0) (hc : s.loopCount i q x = 0) (he : bits x.imm 11 0 < 4095) :
    s.loopResult i q x = .jump s (bits x.imm 11 0 + 1) 0 := by
  rw [State.loopResult, if_neg (Nat.not_lt.2 h), if_pos hc, if_neg (Nat.ne_of_lt he)]

theorem State.loopResult_end (h : s.pc i q + 1 ≤ bits x.imm 11 0) (hc : s.loopCount i q x = 0) (he : bits x.imm 11 0 = 4095) :
    s.loopResult i q x = .pcEnd := by
  rw [State.loopResult, if_neg (Nat.not_lt.2 h), if_pos hc, if_pos he]

theorem State.loopResult_overflow (h : s.pc i q + 1 ≤ bits x.imm 11 0) (hc : s.loopCount i q x ≠ 0) (hd : 8 ≤ s.depth i q) :
    s.loopResult i q x = .fault 5 0 3 := by
  rw [State.loopResult, if_neg (Nat.not_lt.2 h), if_neg hc, if_pos hd]

theorem State.loopResult_push (h : s.pc i q + 1 ≤ bits x.imm 11 0) (hc : s.loopCount i q x ≠ 0) (hd : s.depth i q < 8) :
    s.loopResult i q x = .next (s.pushLoop i q (bits x.imm 11 0) (s.loopCount i q x)) := by
  rw [State.loopResult, if_neg (Nat.not_lt.2 h), if_neg hc, if_neg (Nat.not_le.2 hd)]

end

/-! ### The end of a loop's pass (R105) -/

theorem exec_nop_passes (s : State) (i : Tile) (q : Seq) (h : Passes s i q 0x00) :
    exec (.nop i q .clean) s = .next (s.finish i q 1 (.next s)) := by
  rw [exec_nop, execNop, s.instrRow_passes i q 0x00 _ _ _ h rfl]

/-- The loop test where a pass of the top entry remains. -/
theorem State.loopTest_returns (s : State) (t q pc fuel : Nat) (hd : 0 < s.depth t q)
    (he : s.fld (A.seqLoopSe t q (s.depth t q - 1)) F.seqLoopSe.endPc = pc) (h1 : s.reg (A.seqLoopRem t q (s.depth t q - 1)) ≠ 1) :
    s.loopTest t q pc (fuel + 1) =
      (s.setReg (A.seqLoopRem t q (s.depth t q - 1)) (s.reg (A.seqLoopRem t q (s.depth t q - 1)) - 1),
        some (s.fld (A.seqLoopSe t q (s.depth t q - 1)) F.seqLoopSe.start), 1) := by
  have hrem : s.reg (A.seqLoopRem t q (s.depth t q - 1)) - 1 ≠ 0 := fun h =>
    h1 ((BitVec.sub_eq_iff_eq_add.1 h).trans (by decide))
  rw [State.loopTest]
  simp only [Nat.pos_iff_ne_zero.1 hd, he, hrem, ne_eq, not_true, not_false_eq_true, if_true, if_false]

/-- The loop stack without its top entry. -/
def State.popLoop (s : State) (t q : Nat) : State := (s.clearLoops t q [s.depth t q - 1]).setDepth t q (s.depth t q - 1)

/-- The loop test where the top entry's last pass ends: the entry goes, and the next one is tested. -/
theorem State.loopTest_pops (s : State) (t q pc fuel : Nat) (hd : 0 < s.depth t q)
    (he : s.fld (A.seqLoopSe t q (s.depth t q - 1)) F.seqLoopSe.endPc = pc) (h1 : s.reg (A.seqLoopRem t q (s.depth t q - 1)) = 1) :
    s.loopTest t q pc (fuel + 1) = (((s.popLoop t q).loopTest t q pc fuel).1, ((s.popLoop t q).loopTest t q pc fuel).2.1,
      ((s.popLoop t q).loopTest t q pc fuel).2.2 + 1) := by
  have hrem : s.reg (A.seqLoopRem t q (s.depth t q - 1)) - 1 = 0 := by rw [h1]; rfl
  rw [State.loopTest]
  simp only [Nat.pos_iff_ne_zero.1 hd, he, hrem, ne_eq, not_true, if_false]
  rfl

theorem State.popLoop_spec (s : State) (t q : Nat) :
    RegWork (A.seqSts t q :: loopEntries t q [s.depth t q - 1]) s (s.popLoop t q) ∧
    (s.popLoop t q).depth t q = s.depth t q - 1 ∧ (s.popLoop t q).reg (A.seqLoopSe t q (s.depth t q - 1)) = 0 ∧
    (s.popLoop t q).reg (A.seqLoopRem t q (s.depth t q - 1)) = 0 := by
  have hclear := regWork_clearLoops s t q [s.depth t q - 1]
  have hdepth := regWork_setDepth (s.clearLoops t q [s.depth t q - 1]) t q (s.depth t q - 1)
  have hlt := s.depth_lt t q
  refine ⟨regWork_trans (regWork_mono hclear fun a => List.mem_cons_of_mem _) (regWork_mono hdepth (by simp)),
    State.depth_setDepth _ t q _ (by omega), ?_, ?_⟩
  · refine (hdepth.1 _ ?_).trans ((State.reg_setReg_ne _ _ ?_).trans (s.reg_setReg_same _ _))
    · simp only [List.mem_cons, List.not_mem_nil, or_false, seqAddr, seqAddrAt]; omega
    · simp only [seqAddrAt]; omega
  · refine (hdepth.1 _ ?_).trans (State.reg_setReg_same ..)
    simp only [List.mem_cons, List.not_mem_nil, or_false, seqAddr, seqAddrAt]; omega

/-- The state at an instruction's loop test, its cycles and itself counted. -/
def State.counted (s : State) (t q cyc : Nat) : State := (s.addCycles t q cyc).addInstr t q

theorem State.reg_counted (s : State) (t q cyc a : Nat) (h : a ∉ seqMoves t q) : (s.counted t q cyc).reg a = s.reg a := by
  simp only [mem_seqMoves, not_or] at h
  obtain ⟨-, hlo, hhi, hilo, hihi⟩ := h
  exact (State.reg_addInstr _ t q a ⟨hilo, hihi⟩).trans (s.reg_addCycles t q cyc a ⟨hlo, hhi⟩)

theorem State.depth_counted (s : State) (t q cyc : Nat) : (s.counted t q cyc).depth t q = s.depth t q :=
  State.depth_of_reg (s.reg_counted t q cyc _ (seqSts_not_moves t q))

theorem State.fld_loopSe_counted (s : State) (t q cyc k : Nat) (f : Fld) :
    (s.counted t q cyc).fld (A.seqLoopSe t q k) f = s.fld (A.seqLoopSe t q k) f :=
  State.fld_of_reg (s.reg_counted t q cyc _ (seqLoopSe_not_moves t q k)) f

theorem State.loopRem_counted (s : State) (t q cyc k : Nat) : (s.counted t q cyc).reg (A.seqLoopRem t q k) = s.reg (A.seqLoopRem t q k) :=
  s.reg_counted t q cyc _ (seqLoopRem_not_moves t q k)

/-- An instruction at a loop's end goes back to START, where a pass remains. -/
theorem State.finish_returns (s u : State) (t q cyc start n : Nat)
    (h : (s.counted t q cyc).loopTest t q (s.pc t q) 8 = (u, some start, n)) :
    s.finish t q cyc (.next s) = (u.addCycles t q n).setPc t q start := by
  have hpc := s.pc_addCycles t q cyc
  unfold State.finish State.complete
  rw [State.counted] at h
  simp only [hpc, h]

/-- An instruction at a loop's end goes on, where no pass remains. -/
theorem State.finish_falls (s u : State) (t q cyc n : Nat) (h : (s.counted t q cyc).loopTest t q (s.pc t q) 8 = (u, none, n))
    (hpc : s.pc t q < 4095) : s.finish t q cyc (.next s) = (u.addCycles t q n).setPc t q (s.pc t q + 1) := by
  have hpc' := s.pc_addCycles t q cyc
  unfold State.finish State.complete
  rw [State.counted] at h
  simp only [hpc', h, Nat.ne_of_lt hpc, if_false]

theorem State.reg_goneTo (u : State) (t q n pc a : Nat) (h : a ∉ seqMoves t q) :
    ((u.addCycles t q n).setPc t q pc).reg a = u.reg a := by
  simp only [mem_seqMoves, not_or] at h
  obtain ⟨hpc, hlo, hhi, -⟩ := h
  exact ((regWork_setPc _ t q pc).1 a (by simpa using hpc)).trans (u.reg_addCycles t q n a ⟨hlo, hhi⟩)

theorem completes_nop_returns (s : State) (i : Tile) (q : Seq) (h : Passes s i q 0x00) (hd : 0 < s.depth i q)
    (he : s.fld (A.seqLoopSe i q (s.depth i q - 1)) F.seqLoopSe.endPc = s.pc i q)
    (h1 : s.reg (A.seqLoopRem i q (s.depth i q - 1)) ≠ 1) :
    Completes (.nop i q .clean) s fun t =>
      t.pc i q = s.fld (A.seqLoopSe i q (s.depth i q - 1)) F.seqLoopSe.start ∧ t.depth i q = s.depth i q ∧
      t.reg (A.seqLoopRem i q (s.depth i q - 1)) = s.reg (A.seqLoopRem i q (s.depth i q - 1)) - 1 := by
  have htest := (s.counted i q 1).loopTest_returns i q (s.pc i q) 7 (by rwa [s.depth_counted])
    (by rwa [s.depth_counted, s.fld_loopSe_counted]) (by rwa [s.depth_counted, s.loopRem_counted])
  rw [s.depth_counted, s.loopRem_counted, s.fld_loopSe_counted] at htest
  refine completes_of_exec (exec_nop_passes s i q h) ?_
  rw [s.finish_returns _ i q 1 _ _ htest]
  refine ⟨State.pc_setPc _ i q _ (getF_lt _ F.seqLoopSe.start), ?_, ?_⟩
  · refine (State.depth_of_reg ((State.reg_goneTo _ i q 1 _ _ (seqSts_not_moves i q)).trans (State.reg_setReg_ne _ _ ?_))).trans
      (s.depth_counted i q 1)
    simp only [seqAddr, seqAddrAt]; omega
  · rw [State.reg_goneTo _ i q 1 _ _ (seqLoopRem_not_moves i q _), State.reg_setReg_same]

theorem completes_nop_pops (s : State) (i : Tile) (q : Seq) (h : Passes s i q 0x00) (hpc : s.pc i q < 4095) (hd : 0 < s.depth i q)
    (he : s.fld (A.seqLoopSe i q (s.depth i q - 1)) F.seqLoopSe.endPc = s.pc i q)
    (h1 : s.reg (A.seqLoopRem i q (s.depth i q - 1)) = 1)
    (hnext : s.depth i q = 1 ∨ s.fld (A.seqLoopSe i q (s.depth i q - 2)) F.seqLoopSe.endPc ≠ s.pc i q) :
    Completes (.nop i q .clean) s fun t =>
      t.pc i q = s.pc i q + 1 ∧ t.depth i q = s.depth i q - 1 ∧ t.reg (A.seqLoopSe i q (s.depth i q - 1)) = 0 ∧
      t.reg (A.seqLoopRem i q (s.depth i q - 1)) = 0 := by
  have htest := (s.counted i q 1).loopTest_pops i q (s.pc i q) 7 (by rwa [s.depth_counted])
    (by rwa [s.depth_counted, s.fld_loopSe_counted]) (by rwa [s.depth_counted, s.loopRem_counted])
  obtain ⟨hwork, hdepth, hse, hrem⟩ := (s.counted i q 1).popLoop_spec i q
  rw [s.depth_counted] at hwork hdepth hse hrem
  have hnone := ((s.counted i q 1).popLoop i q).loopTest_none i q (s.pc i q) 7 (by
    rw [hdepth]
    by_cases hlast : s.depth i q = 1
    · exact .inl (by rw [hlast])
    right
    rw [Nat.sub_sub, State.fld_of_reg (hwork.1 _ ?_), s.fld_loopSe_counted]
    · exact hnext.resolve_left hlast
    · simp only [List.mem_cons, mem_loopEntries, List.not_mem_nil, or_false, exists_eq_left, seqAddr, seqAddrAt]
      omega)
  rw [hnone] at htest
  refine completes_of_exec (exec_nop_passes s i q h) ?_
  rw [s.finish_falls _ i q 1 _ htest hpc]
  exact ⟨State.pc_setPc _ i q _ (by omega), (State.depth_of_reg (State.reg_goneTo _ i q 1 _ _ (seqSts_not_moves i q))).trans hdepth,
    (State.reg_goneTo _ i q 1 _ _ (seqLoopSe_not_moves i q _)).trans hse,
    (State.reg_goneTo _ i q 1 _ _ (seqLoopRem_not_moves i q _)).trans hrem⟩

theorem completes_nop_pops_returns (s : State) (i : Tile) (q : Seq) (h : Passes s i q 0x00) (hd : 2 ≤ s.depth i q)
    (he : s.fld (A.seqLoopSe i q (s.depth i q - 1)) F.seqLoopSe.endPc = s.pc i q)
    (h1 : s.reg (A.seqLoopRem i q (s.depth i q - 1)) = 1)
    (he2 : s.fld (A.seqLoopSe i q (s.depth i q - 2)) F.seqLoopSe.endPc = s.pc i q)
    (h2 : s.reg (A.seqLoopRem i q (s.depth i q - 2)) ≠ 1) :
    Completes (.nop i q .clean) s fun t =>
      t.pc i q = s.fld (A.seqLoopSe i q (s.depth i q - 2)) F.seqLoopSe.start ∧ t.depth i q = s.depth i q - 1 ∧
      t.reg (A.seqLoopRem i q (s.depth i q - 2)) = s.reg (A.seqLoopRem i q (s.depth i q - 2)) - 1 := by
  have htest := (s.counted i q 1).loopTest_pops i q (s.pc i q) 7 (by rw [s.depth_counted]; omega)
    (by rwa [s.depth_counted, s.fld_loopSe_counted]) (by rwa [s.depth_counted, s.loopRem_counted])
  obtain ⟨hwork, hdepth, -, -⟩ := (s.counted i q 1).popLoop_spec i q
  rw [s.depth_counted] at hwork hdepth
  have hse (f : Fld) : ((s.counted i q 1).popLoop i q).fld (A.seqLoopSe i q (s.depth i q - 2)) f =
      s.fld (A.seqLoopSe i q (s.depth i q - 2)) f := by
    rw [State.fld_of_reg (hwork.1 _ ?_), s.fld_loopSe_counted]
    simp only [List.mem_cons, mem_loopEntries, List.not_mem_nil, or_false, exists_eq_left, seqAddr, seqAddrAt]
    omega
  have hrem : ((s.counted i q 1).popLoop i q).reg (A.seqLoopRem i q (s.depth i q - 2)) = s.reg (A.seqLoopRem i q (s.depth i q - 2)) := by
    rw [hwork.1 _ ?_, s.loopRem_counted]
    simp only [List.mem_cons, mem_loopEntries, List.not_mem_nil, or_false, exists_eq_left, seqAddr, seqAddrAt]
    omega
  have hback := ((s.counted i q 1).popLoop i q).loopTest_returns i q (s.pc i q) 6 (by rw [hdepth]; omega)
    (by rw [hdepth, Nat.sub_sub, hse, he2]) (by rwa [hdepth, Nat.sub_sub, hrem])
  rw [hdepth, Nat.sub_sub, hse, hrem] at hback
  rw [hback] at htest
  refine completes_of_exec (exec_nop_passes s i q h) ?_
  rw [s.finish_returns _ i q 1 _ _ htest]
  refine ⟨State.pc_setPc _ i q _ (getF_lt _ F.seqLoopSe.start), ?_, ?_⟩
  · refine (State.depth_of_reg ((State.reg_goneTo _ i q 2 _ _ (seqSts_not_moves i q)).trans (State.reg_setReg_ne _ _ ?_))).trans hdepth
    simp only [seqAddr, seqAddrAt]; omega
  · rw [State.reg_goneTo _ i q _ _ _ (seqLoopRem_not_moves i q _), State.reg_setReg_same]

/-! ### BRMW (R106, R107) -/

/-- What BRMW does once it has passed its checks. -/
def State.brmwResult (s : State) (t q : Nat) (x : Ins) : IRes :=
  if !s.keyDefined t (bits x.imm 16 14) (bits x.imm 13 12 + 1) then s.badOperand t q
  else if bits x.imm 11 0 % 2 ^ (bits x.imm 13 12 + 1) ≠ 0 then .fault 7 0 3
  else .wait (.dec (bits x.imm 11 0) (bits x.imm 13 12 + 1) (bits x.imm 16 14) (s.midxOperand t q x) (x.flag 1)) 4

theorem exec_brmw_passes (s : State) (i : Tile) (q : Seq) (h : Passes s i q 0x03) :
    exec (.brmw i q .clean) s = .next (s.finish i q 2 (s.brmwResult i q (s.insAt i q (s.pc i q)))) := by
  rw [exec_brmw, execBrmw, s.instrRow_passes i q 0x03 _ _ _ h rfl]
  rfl

/-- An instruction that waits: its state and its wait are new, PC, TC and the queues stand. -/
theorem State.finish_waits (s : State) (i q cyc : Nat) (st : Stall) (code : Nat) (hc : code < 8) :
    let t := s.finish i q cyc (.wait st code)
    t.seqState i q = code ∧ (t.seq (sk i q)).stall = st ∧ t.pc i q = s.pc i q ∧ t.tc i q = s.tc i q ∧ t.tq (sk i q) = s.tq (sk i q) := by
  have hstate := regWork_setSeqState (s.addCycles i q cyc) i q code
  have hne : A.seqPc i q ∉ [A.seqSts i q] ∧ A.seqTc i q ∉ [A.seqSts i q] := by
    simp only [List.mem_cons, List.not_mem_nil, or_false, seqAddr]; omega
  refine ⟨State.seqState_setSeqState _ i q code hc, congrArg SeqX.stall (State.seq_setSeq ..),
    (State.pc_of_reg (hstate.1 _ hne.1)).trans (s.pc_addCycles i q cyc),
    (State.tc_of_reg (hstate.1 _ hne.2)).trans (s.tc_addCycles i q cyc), regWork_tq (regWork_addCycles s i q cyc) _⟩

theorem exec_brmwDecisionValid_reached (s : State) (i : Tile) (q : Seq) (cyc base k ks midx v : Nat) (nd : Bool)
    (h4 : s.seqState i q = 4) (hm : (s.seq (sk i q)).micro = none) (hst : (s.seq (sk i q)).stall = .dec base k ks midx nd)
    (hv : keyValue (s.keyBits i ks midx (s.runTag i) k 0) = some v) (hpast : s.islandPast i q 1 (s.keyAge i ks k) = true) :
    exec (.brmwDecisionValid i q cyc) s = .next ((((s.counted i q (cyc + 2 + 2)).setPc i q (base ||| v))).unstall i q) := by
  have htail := s.tail_plain i q cyc 2 { value := some v, deadline := decide (s.brmwDeadline i q ≤ s.DT) } hm
  rw [exec_brmwDecisionValid, execBrmwDecisionValid]
  simp only [hst, hv, htail, h4, hpast, onlyIf, beq_self_eq_true, Bool.and_self, if_true]
  rfl

theorem exec_brmwDecisionValid_early (s : State) (i : Tile) (q : Seq) (cyc base k ks midx v : Nat) (nd : Bool)
    (hst : (s.seq (sk i q)).stall = .dec base k ks midx nd)
    (hv : keyValue (s.keyBits i ks midx (s.runTag i) k 0) = some v) (hpast : s.islandPast i q 1 (s.keyAge i ks k) = false) :
    exec (.brmwDecisionValid i q cyc) s = .next s := by
  rw [exec_brmwDecisionValid, execBrmwDecisionValid]
  simp only [hst, hv, hpast, onlyIf, Bool.and_false, Bool.false_eq_true, if_false]

/-- A sequencer in RUN again at another address. -/
theorem State.unstalled_at (s : State) (i q cyc pc : Nat) :
    let t := ((s.counted i q cyc).setPc i q pc).unstall i q
    t.pc i q = pc % 4096 ∧ t.seqState i q = 2 ∧ (t.seq (sk i q)).stall = .none ∧ t.tc i q = s.tc i q ∧
      SameRegs (A.seqSts i q :: seqMoves i q) s t := by
  have hpc := regWork_setPc (s.counted i q cyc) i q pc
  have hstate := regWork_setSeqState ((s.counted i q cyc).setPc i q pc) i q 2
  have hregs : SameRegs (A.seqSts i q :: seqMoves i q) s (((s.counted i q cyc).setPc i q pc).unstall i q) := fun a ha => by
    rw [List.mem_cons, not_or] at ha
    exact (hstate.1 a (by simpa using ha.1)).trans ((hpc.1 a fun hm => ha.2 (seqMoves_pc i q a hm)).trans (s.reg_counted i q cyc a ha.2))
  refine ⟨?_, State.seqState_setSeqState _ i q 2 (by decide), congrArg SeqX.stall (State.seq_setSeq ..), State.tc_of_reg (hregs _ ?_), hregs⟩
  · refine (State.pc_of_reg (hstate.1 _ ?_)).trans (State.pc_setPc_mod _ i q pc)
    simp only [List.mem_cons, List.not_mem_nil, or_false, seqAddr]; omega
  · simp only [List.mem_cons, mem_seqMoves, seqAddr]; omega

theorem completes_brmwDeadline (s : State) (i : Tile) (q : Seq) (cyc base k ks midx : Nat) (h4 : s.seqState i q = 4)
    (hf : s.queueFull (sk i q) = false) (hp : s.patched i = false) (hm : (s.seq (sk i q)).micro = none)
    (hbad : (s.seq (sk i q)).bad = none) (hst : (s.seq (sk i q)).stall = .dec base k ks midx false)
    (hlate : keyValue (s.keyBits i ks midx (s.runTag i) k 0) = none ∨ s.islandPast i q 2 (s.keyAge i ks k) = false)
    (hdt : s.brmwDeadline i q ≤ s.DT) :
    Completes (.brmwDeadline i q cyc) s fun t => Faults 9 (toW (s.brmwDeadline i q)) i q s t := by
  have htail := s.tail_plain i q cyc 2 { deadline := true } hm
  have hcond : ((keyValue (s.keyBits i ks midx (s.runTag i) k 0)).isNone || !s.islandPast i q 2 (s.keyAge i ks k)) = true := by
    rcases hlate with h | h <;> simp [h]
  have hexec : exec (.brmwDeadline i q cyc) s =
      .next (s.finish i q (cyc + 2 + 1) (.fault 9 (toW (s.brmwDeadline i q)) (cyc + 2 + 1))) := by
    rw [exec_brmwDeadline, execBrmwDeadline]
    simp only [hst, htail, h4, hdt, hcond, hbad, onlyIf, beq_self_eq_true, decide_true, Bool.and_self, if_true]
    rfl
  exact completes_of_exec hexec (s.faults_spec i q 9 _ _ (by decide) hp hf)

theorem exec_brmwDeadline_none (s : State) (i : Tile) (q : Seq) (cyc base k ks midx : Nat)
    (hst : (s.seq (sk i q)).stall = .dec base k ks midx true) : exec (.brmwDeadline i q cyc) s = .next s := by
  rw [exec_brmwDeadline, execBrmwDeadline]
  simp only [hst]

/-- Settles O22: the results of LOOP, the loop test at the end of a pass, and the ends of BRMW's wait. -/
theorem loopsReturnAndBrmwDecides : Obligations.LoopsReturnAndBrmwDecides := by
  unfold Obligations.LoopsReturnAndBrmwDecides
  refine ⟨fun s i q => ⟨fun h he hc hd => completes_of_exec (exec_loop_passes s i q h) ?_,
    fun h he hc hlt => completes_of_exec (exec_loop_passes s i q h) ?_,
    fun h hf he hc hend => completes_of_exec (exec_loop_passes s i q h) ?_,
    fun h hf he => completes_of_exec (exec_loop_passes s i q h) ?_,
    fun h hf he hc hd => completes_of_exec (exec_loop_passes s i q h) ?_,
    fun h hd _ he _ h1 => completes_nop_returns s i q h hd he h1,
    fun h hpc hd _ he h1 hnext => completes_nop_pops s i q h hpc hd he h1 hnext,
    fun h hd _ he h1 he2 _ h2 => completes_nop_pops_returns s i q h hd he h1 he2 h2⟩,
    fun s i q h => ⟨fun hk hbase => completes_of_exec (exec_brmw_passes s i q h) ?_,
      fun hf hk => completes_of_exec (exec_brmw_passes s i q h) ?_,
      fun hf hk hbase => completes_of_exec (exec_brmw_passes s i q h) ?_⟩,
    fun s i q cyc base k ks midx v nd h4 hm hst hv => ⟨fun hpast => ?_, fun hpast => ?_⟩,
    fun s i q cyc base k ks midx h4 hf hp hm hbad hst hlate hdt =>
      completes_brmwDeadline s i q cyc base k ks midx h4 hf hp hm hbad hst hlate hdt,
    fun s i q cyc base k ks midx hst => completes_of_exec (exec_brmwDeadline_none s i q cyc base k ks midx hst) rfl⟩
  · rw [State.loopResult_push he hc hd]
    exact s.finish_pushLoop i q _ _ hd (bits_lt _ _ _) he
  · rw [State.loopResult_skip he hc hlt]
    obtain ⟨hpc, -, hwork, -⟩ := State.finish_jump_spec (i := i) (q := q) 2 _ 0 (regWork_refl [] s) (by simp) (Nat.succ_lt_succ hlt)
    exact ⟨hpc, State.depth_of_reg (hwork.1 _ (seqSts_not_moves i q)), hwork.1⟩
  · rw [State.loopResult_end he hc hend]
    exact s.pcEnd_faults i q 3 h.2.2.1 hf
  · rw [State.loopResult_bad he]
    exact s.faults_spec i q 3 (s.insHi i q) 3 (by decide) h.2.2.1 hf
  · rw [State.loopResult_overflow he hc hd]
    exact s.faults_spec i q 5 0 3 (by decide) h.2.2.1 hf
  · rw [State.brmwResult, if_neg (by simp [hk]), if_neg (not_not.2 hbase)]
    exact s.finish_waits i q 2 _ 4 (by decide)
  · rw [State.brmwResult, if_pos (by simp [hk])]
    exact s.faults_spec i q 3 (s.insHi i q) 3 (by decide) h.2.2.1 hf
  · rw [State.brmwResult, if_neg (by simp [hk]), if_pos hbase]
    exact s.faults_spec i q 7 0 3 (by decide) h.2.2.1 hf
  · exact completes_of_exec (exec_brmwDecisionValid_reached s i q cyc base k ks midx v nd h4 hm hst hv hpast) (s.unstalled_at i q _ _)
  · exact completes_of_exec (exec_brmwDecisionValid_early s i q cyc base k ks midx v nd hst hv hpast) rfl

end Sys2Proof.Machine
end

section
/-! ## The instructions that issue a command (R93–R101) -/

namespace Sys2Proof.Machine

open Sys2Proof.Safety

theorem completes_issues {c : Instr} {s : State} {i : Tile} {q : Seq} {cmd : TqCmd} {cyc : Nat}
    (hexec : exec c s = .next (s.finish i q cyc (.issue cmd .next))) (hfall : FallsThrough s i q)
    (hq : s.queueFull (sk i q) = false) : Completes c s (Issues cmd i q cyc s) :=
  completes_of_exec hexec (s.finish_issues i q cyc cmd none hfall hq)

theorem exec_play_issues (s : State) (i : Tile) (q : Seq) (h : Passes s i q 0x20)
    (hslot : fluxRole (s.role i q) = false ∨ bits (s.insAt i q (s.pc i q)).sub 2 0 = 0) :
    exec (.play i q .clean) s =
      .next (s.finish i q 2 (.issue (.play (s.playOperand i q (s.insAt i q (s.pc i q)))) .next)) := by
  have hok : (fluxRole (s.role i q) && bits (s.insAt i q (s.pc i q)).sub 2 0 != 0) = false := by
    rcases hslot with h | h <;> simp [h]
  rw [exec_play, execPlay, s.instrRow_passes i q 0x20 _ _ _ h rfl]
  simp only [hok, Bool.false_eq_true, if_false]

/-- The measurement index of MEAS. -/
def State.measIndex (s : State) (t q : Nat) (x : Ins) : Nat := if x.flag 1 then (s.sreg t q x.rb).toNat % 256 else x.sub

theorem exec_meas_issues (s : State) (i : Tile) (q : Seq) (h : Passes s i q 0x24) :
    let x := s.insAt i q (s.pc i q)
    s.lenOperand i q x ≠ 0 → s.lenOperand i q x ≤ 65535 → (x.imm.testBit 21 && x.imm.testBit 22) = false →
      exec (.meas i q .clean) s = .next (s.finish i q 3 (.issue (.meas (s.lenOperand i q x) (bits x.imm 19 16) (s.measIndex i q x)
        (x.imm.testBit 20) (x.imm.testBit 21) (x.imm.testBit 22)) .next)) := by
  intro x h0 hle hboth
  have hok : (decide (s.lenOperand i q (s.insAt i q (s.pc i q)) = 0) || decide (65535 < s.lenOperand i q (s.insAt i q (s.pc i q))) ||
      ((s.insAt i q (s.pc i q)).imm.testBit 21 && (s.insAt i q (s.pc i q)).imm.testBit 22)) = false := by
    simp only [Bool.or_eq_false_iff, decide_eq_false_iff_not]
    exact ⟨⟨h0, Nat.not_lt.2 hle⟩, hboth⟩
  rw [exec_meas, execMeas, s.instrRow_passes i q 0x24 _ _ _ h rfl]
  simp only [hok, Bool.false_eq_true, if_false]
  rfl

theorem exec_arm_issues (s : State) (i : Tile) (q : Seq) (alts : List (Option PlayArg)) (h : Passes s i q 0x21) :
    let x := s.insAt i q (s.pc i q)
    bits x.imm 13 10 + 1 ≤ 2 ^ (bits x.imm 9 8 + 1) → bits x.imm 17 14 < bits x.imm 13 10 + 1 →
    s.keyDefined i (bits x.imm 20 18) (bits x.imm 9 8 + 1) = true → bits x.imm 6 0 + bits x.imm 13 10 ≤ 127 →
    s.altsFrom i q (s.role i q) (bits x.imm 6 0) (bits x.imm 13 10 + 1) 0 = .ok alts →
      exec (.arm i q .clean) s = .next (s.finish i q (3 + bits x.imm 13 10) (.issue (.arm alts (bits x.imm 9 8 + 1) (bits x.imm 17 14)
        (bits x.imm 20 18) (s.midxOperand i q x)) .next)) := by
  intro x hn hfb hkey htab halts
  have hok : (decide (2 ^ (bits (s.insAt i q (s.pc i q)).imm 9 8 + 1) < bits (s.insAt i q (s.pc i q)).imm 13 10 + 1) ||
      decide (bits (s.insAt i q (s.pc i q)).imm 13 10 + 1 ≤ bits (s.insAt i q (s.pc i q)).imm 17 14) ||
      !s.keyDefined i (bits (s.insAt i q (s.pc i q)).imm 20 18) (bits (s.insAt i q (s.pc i q)).imm 9 8 + 1)) = false := by
    simp only [Bool.or_eq_false_iff, decide_eq_false_iff_not, Bool.not_eq_false']
    exact ⟨⟨Nat.not_lt.2 hn, Nat.not_le.2 hfb⟩, hkey⟩
  have hfits : ¬ 127 < bits (s.insAt i q (s.pc i q)).imm 6 0 + (bits (s.insAt i q (s.pc i q)).imm 13 10 + 1) - 1 := by
    rw [← Nat.add_assoc, Nat.add_sub_cancel]
    exact Nat.not_lt.2 htab
  have hcyc : 3 + bits (s.insAt i q (s.pc i q)).imm 13 10 = 2 + (bits (s.insAt i q (s.pc i q)).imm 13 10 + 1) := by omega
  rw [exec_arm, execArm, s.instrRow_passes i q 0x21 _ _ _ h rfl, hcyc]
  simp only [hok, hfits, Bool.false_eq_true, if_false]
  rw [halts]

/-- Settles O23: each row issues its command, `State.finish_issues`, once its operand fields are those that no check refuses. -/
theorem issuedCommandsReachTheQueue : Obligations.IssuedCommandsReachTheQueue := by
  unfold Obligations.IssuedCommandsReachTheQueue
  intro s i q hfall hq
  refine ⟨fun h => completes_issues ?_ hfall hq, fun h hslot => completes_issues (exec_play_issues s i q h hslot) hfall hq,
    fun h => completes_issues ?_ hfall hq, fun h => completes_issues ?_ hfall hq,
    fun h h0 hle hboth => completes_issues (exec_meas_issues s i q h h0 hle hboth) hfall hq,
    fun h => completes_issues ?_ hfall hq, fun h => completes_issues ?_ hfall hq, fun h => completes_issues ?_ hfall hq,
    fun alts h hn hfb hkey htab halts => completes_issues (exec_arm_issues s i q alts h hn hfb hkey htab halts) hfall hq⟩
  · rw [exec_evt, execEvt, s.instrRow_passes i q 0x06 _ _ _ h rfl]
  · rw [exec_mark, execMark, s.instrRow_passes i q 0x22 _ _ _ h rfl]
  · rw [exec_vec, execVec, s.instrRow_passes i q 0x23 _ _ _ h rfl]
  · rw [exec_biasq, execBiasq, s.instrRow_passes i q 0x25 _ _ _ h rfl]
    rfl
  · rw [exec_freq, execFreq, s.instrRow_passes i q 0x30 _ _ _ h rfl]
  · rw [exec_phase, execPhase, s.instrRow_passes i q 0x31 _ _ _ h rfl]

end Sys2Proof.Machine
end

section
/-! ## Entries at their tick: markers, frames and events (R98, R100, R101, R142, R149) -/

namespace Sys2Proof.Machine

open Sys2Proof.Safety

/-! ### The entry leaves its queue -/

/-- The queue of (t, q) without its oldest entry. -/
def State.unqueued (s : State) (t q : Nat) : State := s.setTq (sk t q) { s.tq (sk t q) with held := (s.tq (sk t q)).held.tail }

theorem State.due_held {s : State} {t q : Nat} {e : Entry} (h : s.due t q = some e) : ∃ es, (s.tq (sk t q)).held = e :: es := by
  unfold State.due at h
  split at h
  · next e' es p hheld hplot =>
    split at h
    · split at h
      · cases h
        exact ⟨es, hheld⟩
      · cases h
    · cases h
  · cases h

/-- An entry that nothing has moved past its stamp leaves its queue, and that is all. -/
theorem State.pop_due {s : State} {t q : Nat} {e : Entry} (h : s.due t q = some e) (hm : e.moved = false) :
    s.pop t q = s.unqueued t q := by
  obtain ⟨es, hheld⟩ := State.due_held h
  unfold State.pop
  simp only [hheld]
  split
  · next e' es' p heq hplot =>
    cases heq
    rw [if_neg (by simp [hm]), State.unqueued, hheld]
  · rw [State.unqueued, hheld]

theorem popped_unqueued (s : State) (t q : Nat) : Popped (sk t q) s (s.unqueued t q) :=
  ⟨s.tq_setTq _ _, fun _ hj => KMap.get_set_ne _ _ _ _ hj⟩

/-- What keeps the queues keeps the pop. -/
theorem popped_of_tqs {s u : State} {t q : Nat} (h : u.tqs = (s.unqueued t q).tqs) : Popped (sk t q) s u := by
  obtain ⟨hk, hj⟩ := popped_unqueued s t q
  have htq (j : Nat) : u.tq j = (s.unqueued t q).tq j := congrArg (KMap.get ({} : Tq) · j) h
  exact ⟨(htq _).trans hk, fun j hne => (htq j).trans (hj j hne)⟩

/-! ### Markers and vector lines (R98, R149) -/

theorem State.mark_setMark (s : State) (t m j : Nat) (x : Mark) : (s.setMark t m x).mark t j = if j = m then x else s.mark t j := by
  unfold State.mark State.setMark
  rw [KMap.get_set]
  simp only [Nat.add_left_cancel_iff]

/-- An output after a MARK or VEC with level or width `v` has acted on it in tick `now`. -/
def markedAs (now : Nat) (level : Bool) (bit v : Nat) (old : Mark) : Mark :=
  if level then { level := v.testBit bit, pulseEnd := none }
  else if v = 0 then old else { level := true, pulseEnd := some (now + v) }

theorem State.mark_markOne (s : State) (t m j : Nat) (level : Bool) (bit v : Nat) :
    (s.markOne t m level bit v).mark t j = if j = m then markedAs s.DT level bit v (s.mark t m) else s.mark t j := by
  unfold State.markOne markedAs
  cases level with
  | true => exact s.mark_setMark t m j _
  | false =>
    by_cases hv : v = 0
    · simp only [hv, Bool.false_eq_true, if_false, if_true]
      split
      · next h => rw [h]
      · rfl
    · simp only [hv, Bool.false_eq_true, if_false]
      exact s.mark_setMark t m j _

theorem State.markOne_frame (s : State) (t m : Nat) (level : Bool) (bit v : Nat) :
    s.markOne t m level bit v = { s with marks := (s.markOne t m level bit v).marks } := by
  unfold State.markOne
  split
  · rfl
  · split <;> rfl

theorem State.DT_markOne (s : State) (t m : Nat) (level : Bool) (bit v : Nat) : (s.markOne t m level bit v).DT = s.DT := by
  rw [s.markOne_frame]
  rfl

theorem State.markAll_frame (s : State) (t off : Nat) (level : Bool) (mask v : Nat) :
    s.markAll t off level mask v = { s with marks := (s.markAll t off level mask v).marks } := by
  unfold State.markAll
  cases mask.testBit 0 <;> cases mask.testBit 1
  · rfl
  · exact s.markOne_frame t (off + 1) level 1 v
  · exact s.markOne_frame t off level 0 v
  · have h0 := s.markOne_frame t off level 0 v
    have h1 := (s.markOne t off level 0 v).markOne_frame t (off + 1) level 1 v
    simp only [if_true]
    rw [h1, h0]

/-- Each output of the mask is marked by its own bit; no other output of the tile changes. -/
theorem State.mark_markAll (s : State) (t off : Nat) (level : Bool) (mask v : Nat) :
    (s.markAll t off level mask v).mark t off =
      (if mask.testBit 0 then markedAs s.DT level 0 v (s.mark t off) else s.mark t off) ∧
    (s.markAll t off level mask v).mark t (off + 1) =
      (if mask.testBit 1 then markedAs s.DT level 1 v (s.mark t (off + 1)) else s.mark t (off + 1)) ∧
    ∀ j, j ≠ off → j ≠ off + 1 → (s.markAll t off level mask v).mark t j = s.mark t j := by
  have h01 : off ≠ off + 1 := by omega
  unfold State.markAll
  cases mask.testBit 0 <;> cases mask.testBit 1
  · exact ⟨rfl, rfl, fun _ _ _ => rfl⟩
  · simp only [Bool.false_eq_true, if_false, if_true, State.mark_markOne, h01]
    exact ⟨trivial, trivial, fun j _ h1 => if_neg h1⟩
  · simp only [Bool.false_eq_true, if_false, if_true, State.mark_markOne, h01.symm]
    exact ⟨trivial, trivial, fun j h0 _ => if_neg h0⟩
  · simp only [if_true, State.mark_markOne, State.DT_markOne, h01, h01.symm, if_false]
    exact ⟨trivial, trivial, fun j h0 h1 => (if_neg h1).trans (if_neg h0)⟩

theorem exec_markExecute_due (s : State) (i : Tile) (q : Seq) (e : Entry) (level : Bool) (mask v : Nat) (h : s.due i q = some e)
    (hm : e.moved = false) (haux : s.auxPort i q e.execAt = true) (hc : e.cmd = .mark level mask v) :
    exec (.markExecute i q) s = .next ((s.unqueued i q).markAll i 0 level mask v) := by
  rw [exec_markExecute, execMarkExecute, ← State.pop_due h hm]
  simp only [h, hc, haux, if_true]

theorem exec_vecExecute_due (s : State) (i : Tile) (q : Seq) (e : Entry) (level : Bool) (mask v : Nat) (h : s.due i q = some e)
    (hm : e.moved = false) (haux : s.auxPort i q e.execAt = true) (hc : e.cmd = .vec level mask v) :
    exec (.vecExecute i q) s = .next ((s.unqueued i q).markAll i 2 level mask v) := by
  rw [exec_vecExecute, execVecExecute, ← State.pop_due h hm]
  simp only [h, hc, haux, if_true]

theorem State.unqueued_markAll (s : State) (i q off : Nat) (level : Bool) (mask v : Nat) :
    Popped (sk i q) s ((s.unqueued i q).markAll i off level mask v) ∧
    (s.unqueued i q).markAll i off level mask v = { s with
      marks := ((s.unqueued i q).markAll i off level mask v).marks, tqs := ((s.unqueued i q).markAll i off level mask v).tqs } := by
  have hframe := (s.unqueued i q).markAll_frame i off level mask v
  refine ⟨popped_of_tqs (by rw [hframe]), ?_⟩
  rw [hframe]
  rfl

theorem exec_markPulseEnd_due (s : State) (i : Tile) (m : Fin 2) (h : (s.mark i m).pulseEnd = some s.DT) :
    exec (.markPulseEnd i m) s = .next (s.setMark i m {}) := onlyIf_true _ _ _ (by simp [h])

theorem exec_vecPulseEnd_due (s : State) (i : Tile) (m : Fin 2) (h : (s.mark i (2 + m)).pulseEnd = some s.DT) :
    exec (.vecPulseEnd i m) s = .next (s.setMark i (2 + m) {}) := onlyIf_true _ _ _ (by simp [h])

theorem State.pulse_ended (s : State) (t m : Nat) : (s.setMark t m {}).mark t m = {} ∧
    s.setMark t m {} = { s with marks := (s.setMark t m {}).marks } ∧
    ∀ k, k ≠ 4 * t + m → KMap.get ({} : Mark) (s.setMark t m {}).marks k = KMap.get ({} : Mark) s.marks k :=
  ⟨by rw [s.mark_setMark, if_pos rfl], rfl,
    fun _ hk => KMap.get_set_ne ({} : Mark) {} s.marks {} hk⟩

/-! ### Frames (R100, R142) -/

theorem State.logSlot_frame (s : State) (t n k : Nat) : s.logSlot t n k = { s with slotLog := (s.logSlot t n k).slotLog } := by
  unfold State.logSlot
  split <;> rfl

theorem exec_freqExecute_due (s : State) (i : Tile) (q : Seq) (e : Entry) (n k fw : Nat) (h : s.due i q = some e)
    (hm : e.moved = false) (hpath : s.pathOf i q = some n) (hn : n < 16) (hc : e.cmd = .freq k fw) :
    exec (.freqExecute i q) s = .next (((s.unqueued i q).logSlot i n k).setFreqWord i n k (BitVec.ofNat 48 fw)) := by
  rw [exec_freqExecute, execFreqExecute, ← State.pop_due h hm]
  simp only [h, hc, hpath, hn, if_true]

theorem completes_freqExecute (s : State) (i : Tile) (q : Seq) (e : Entry) (n k fw : Nat) (h : s.due i q = some e)
    (hm : e.moved = false) (hpath : s.pathOf i q = some n) (hn : n < 16) (hc : e.cmd = .freq k fw) :
    Completes (.freqExecute i q) s fun t => t.freqWord i n k = BitVec.ofNat 48 fw ∧ Popped (sk i q) s t ∧
      (∀ j, j ≠ 128 * i.val + 8 * n + k → KMap.get 0 t.freqs j = KMap.get 0 s.freqs j) ∧
      t = { s with freqs := t.freqs, tqs := t.tqs, slotLog := t.slotLog } := by
  have hframe := (s.unqueued i q).logSlot_frame i n k
  refine completes_of_exec (exec_freqExecute_due s i q e n k fw h hm hpath hn hc) ⟨KMap.get_set_same .., popped_of_tqs ?_, fun j hj => ?_, ?_⟩
  · rw [hframe]; rfl
  · rw [hframe]; exact KMap.get_set_ne _ _ _ _ hj
  · rw [hframe]; rfl

theorem exec_phaseExecute_due (s : State) (i : Tile) (q : Seq) (e : Entry) (n k : Nat) (set : Bool) (ph : Word) (h : s.due i q = some e)
    (hm : e.moved = false) (hpath : s.pathOf i q = some n) (hn : n < 16) (hc : e.cmd = .phase k set ph) :
    exec (.phaseExecute i q) s = .next (((s.unqueued i q).logSlot i n k).setReg (phWorkAt i n k)
      (if set then ph else s.reg (phWorkAt i n k) + ph)) := by
  rw [exec_phaseExecute, execPhaseExecute]
  simp only [h, hc, hpath, hn, if_true, State.pop_due h hm]
  rfl

theorem completes_phaseExecute (s : State) (i : Tile) (q : Seq) (e : Entry) (n k : Nat) (set : Bool) (ph : Word) (h : s.due i q = some e)
    (hm : e.moved = false) (hpath : s.pathOf i q = some n) (hn : n < 16) (hc : e.cmd = .phase k set ph) :
    Completes (.phaseExecute i q) s fun t =>
      t.reg (phWorkAt i n k) = (if set then ph else s.reg (phWorkAt i n k) + ph) ∧ Popped (sk i q) s t ∧
      SameRegs [phWorkAt i n k] s t ∧ t = { s with regs := t.regs, tie := t.tie, tqs := t.tqs, slotLog := t.slotLog } := by
  have hframe := (s.unqueued i q).logSlot_frame i n k
  refine completes_of_exec (exec_phaseExecute_due s i q e n k set ph h hm hpath hn hc)
    ⟨State.reg_setReg_same .., popped_of_tqs ?_, fun a ha => ?_, ?_⟩
  · rw [hframe]; rfl
  · rw [State.reg_setReg_ne _ _ (List.ne_of_not_mem_cons ha), hframe]
    rfl
  · rw [hframe]; rfl

/-! ### Events (R101) -/

theorem completes_evtExecute (s : State) (i : Tile) (q : Seq) (e : Entry) (k : Nat) (h : s.due i q = some e) (hm : e.moved = false)
    (hc : e.cmd = .evt k) : Completes (.evtExecute i q) s fun t => Fires (tileSrc i (4 + k)) s t ∧ Popped (sk i q) s t ∧
      SameRegs [A.evfSrcSts (tileSrc i (4 + k) / 32)] s t ∧ t = { s with regs := t.regs, tie := t.tie, tqs := t.tqs, evq := t.evq } := by
  refine completes_of_exec (exec_evtExecute_due s i q e k h hc) ?_
  rw [State.pop_due h hm]
  exact ⟨rfl, popped_of_tqs rfl, fun a ha => State.reg_fire_ne _ _ (List.ne_of_not_mem_cons ha), rfl⟩

/-- Settles O29: the entry leaves its queue (`State.pop_due`), and each command acts on its own outputs, slot or source. -/
theorem markersFramesAndEventsExecute : Obligations.MarkersFramesAndEventsExecute := by
  unfold Obligations.MarkersFramesAndEventsExecute
  refine ⟨fun s i q e level mask v h hm haux => ⟨fun hc => ?_, fun hc => ?_⟩,
    fun s i m => ⟨fun h => completes_of_exec (exec_markPulseEnd_due s i m h) (s.pulse_ended i m),
      fun h => completes_of_exec (exec_vecPulseEnd_due s i m h) (s.pulse_ended i (2 + m))⟩,
    fun s i q e n k h hm hpath hn => ⟨fun fw hc => completes_freqExecute s i q e n k fw h hm hpath hn hc,
      fun set ph hc => completes_phaseExecute s i q e n k set ph h hm hpath hn hc⟩,
    fun s i q e k h hm hc => completes_evtExecute s i q e k h hm hc⟩
  · obtain ⟨h0, h1, hother⟩ := (s.unqueued i q).mark_markAll i 0 level mask v
    obtain ⟨hpop, hframe⟩ := s.unqueued_markAll i q 0 level mask v
    exact completes_of_exec (exec_markExecute_due s i q e level mask v h hm haux hc)
      ⟨h0, h1, hother 2 (by decide) (by decide), hother 3 (by decide) (by decide), hpop, hframe⟩
  · obtain ⟨h2, h3, hother⟩ := (s.unqueued i q).mark_markAll i 2 level mask v
    obtain ⟨hpop, hframe⟩ := s.unqueued_markAll i q 2 level mask v
    exact completes_of_exec (exec_vecExecute_due s i q e level mask v h hm haux hc)
      ⟨h2, h3, hother 0 (by decide) (by decide), hother 1 (by decide) (by decide), hpop, hframe⟩

end Sys2Proof.Machine
end

section
/-! ## The alternatives of an armed entry (R96, R241) -/

namespace Sys2Proof.Machine

open Sys2Proof.Safety

/-! ### What a selection writes -/

/-- The oldest unresolved ARM of (t, q) takes the alternative `x`. -/
def State.selected (s : State) (t q : Nat) (x : Option PlayArg) : State :=
  s.setTq (sk t q) { s.tq (sk t q) with held := setSel x (s.tq (sk t q)).held }

theorem State.held_selected (s : State) (t q : Nat) (x : Option PlayArg) :
    ((s.selected t q x).tq (sk t q)).held = setSel x (s.tq (sk t q)).held := by
  rw [State.selected, State.tq_setTq]

/-- A selection whose key names a value: it is counted, a fallback too, and TP_LAST_SEL records it. -/
theorem State.resolve_named {s : State} {t q p k fb ks midx v : Nat} {e : Entry} (alts : List (Option PlayArg))
    (hkey : keyValue (s.keyBits t ks midx (s.tagOf p e.sid) k 0) = some v) : ∃ w : Word,
    s.resolve t q p e alts k fb ks midx =
      (((if v < alts.length then s.bump (A.tpSelectCnt t) else (s.bump (A.tpSelectCnt t)).bump (A.tpFallbackCnt t)).setReg
        (A.tpLastSel t) w).selected t q (alts.getD (if v < alts.length then v else fb) none)) := by
  unfold State.resolve
  simp only [hkey]
  by_cases hv : v < alts.length
  · simp only [hv, if_true]
    exact ⟨_, rfl⟩
  · simp only [hv, if_false]
    exact ⟨_, rfl⟩

/-- A late decision for shot `sid` of plot `p`: its counters, LATE_DEC, the source of the tile and the shot's flag (R241). -/
def State.decidedLate (s : State) (t p sid : Nat) : State :=
  ((((s.bump (A.tpSelectCnt t)).raise (A.tpSts t) F.tpSts.lateDec 1).bump (A.tpLateDecCnt t)).fireOnceIn t 23
    (s.beforeStart p sid)).flagShot p sid Flag.lateDec

/-- A key bit of an earlier shot has been superseded (R241). -/
def State.notedSuperseded (s : State) (t : Nat) (sup : Bool) : State :=
  if sup then (s.raise (A.tpSts t) F.tpSts.superseded 1).bump (A.tpSupersededCnt t) else s

theorem State.resolve_late {s : State} {t q p k fb ks midx : Nat} {e : Entry} (alts : List (Option PlayArg))
    (hkey : keyValue (s.keyBits t ks midx (s.tagOf p e.sid) k 0) = none) : ∃ (sup : Bool) (w : Word),
    s.resolve t q p e alts k fb ks midx =
      ((((s.decidedLate t p e.sid).notedSuperseded t sup).setReg (A.tpLastSel t) w).selected t q (alts.getD fb none)) := by
  unfold State.resolve
  simp only [hkey]
  exact ⟨_, _, rfl⟩

/-! ### The counters of a selection -/

theorem toNat_min_self (r : Word) : r.toNat = min (r.toNat + 0) 0xFFFFFFFF := by
  have := r.isLt
  omega

theorem State.reg_bump_ne (s : State) {a b : Nat} (h : b ≠ a) : (s.bump a).reg b = s.reg b := s.reg_bumpBy_ne 1 h

/-- A source that fires once in a shot fires, or has fired. -/
theorem State.fireOnceIn_cases (s : State) (t k : Nat) (ahead : Bool) :
    s.fireOnceIn t k ahead = s ∨ ∃ once, s.fireOnceIn t k ahead = { s.fire (tileSrc t k) with once := once } := by
  unfold State.fireOnceIn
  by_cases h : (KMap.get [] s.once t).contains (k + if ahead then 100 else 0)
  · simp only [h, if_true, true_or]
  · exact .inr ⟨_, by simp only [h]; rfl⟩

/-- The FIRED bits lie below the tiles' registers. -/
theorem State.reg_fireOnceIn_tile (s : State) {t b : Nat} (k : Nat) (ahead : Bool) (ht : t < 32) (hk : k < 40) (hb : 0x300000 ≤ b) :
    (s.fireOnceIn t k ahead).reg b = s.reg b := by
  have hsrc := evfSrcSts_tileSrc_lt ⟨t, ht⟩ k hk
  rcases s.fireOnceIn_cases t k ahead with h | ⟨once, h⟩ <;> rw [h]
  exact s.reg_fire_ne _ (show b ≠ A.evfSrcSts (tileSrc t k / 32) by simp only at hsrc; omega)

theorem State.fireOnceIn_fires (s : State) {t k : Nat} {ahead : Bool}
    (h : (KMap.get [] s.once t).contains (k + if ahead then 100 else 0) = false) :
    (s.fireOnceIn t k ahead).evq = s.evq ++ [(tileSrc t k, 0)] := by
  unfold State.fireOnceIn
  simp only [h, Bool.false_eq_true, if_false]
  exact s.fire_evq _

/-- The flagged shots carry the flag. -/
theorem State.flagShot_flags (s : State) (p sid : Nat) (fl : BitVec 16) (g : Shot) (hg : g ∈ ((s.flagShot p sid fl).sched p).shots)
    (hsid : g.sid = sid) : g.flags &&& fl = fl := by
  unfold State.flagShot State.mapShots at hg
  rw [State.sched_setSched] at hg
  obtain ⟨h, -, rfl⟩ := List.mem_map.1 hg
  by_cases hh : h.sid = sid
  · simp only [hh, beq_self_eq_true, if_true]
    ext j hj
    simp only [BitVec.getElem_and, BitVec.getElem_or]
    cases fl[j] <;> simp
  · have : (h.sid == sid) = false := by simp [hh]
    simp only [this] at hsid
    exact absurd hsid hh

/-- A late decision counts as a selection and as late, and as no fallback. -/
theorem State.decidedLate_regs (s : State) (i : Tile) (p sid : Nat) :
    ((s.decidedLate i p sid).reg (A.tpSelectCnt i)).toNat = min ((s.reg (A.tpSelectCnt i)).toNat + 1) 0xFFFFFFFF ∧
    ((s.decidedLate i p sid).reg (A.tpLateDecCnt i)).toNat = min ((s.reg (A.tpLateDecCnt i)).toNat + 1) 0xFFFFFFFF ∧
    (s.decidedLate i p sid).reg (A.tpFallbackCnt i) = s.reg (A.tpFallbackCnt i) ∧
    (s.decidedLate i p sid).fld (A.tpSts i) F.tpSts.lateDec = 1 := by
  have hfire (u : State) (b : Nat) (hb : 0x300000 ≤ b) :
      ((u.fireOnceIn i 23 (s.beforeStart p sid)).flagShot p sid Flag.lateDec).reg b = u.reg b :=
    u.reg_fireOnceIn_tile 23 _ i.isLt (by decide) hb
  unfold State.decidedLate
  refine ⟨?_, ?_, ?_, ?_⟩
  · rw [hfire _ _ (by simp only [A.tpSelectCnt]; omega), State.reg_bump_ne _ (by simp only [A.tpSelectCnt, A.tpLateDecCnt]; omega),
      State.reg_raise_ne _ _ _ (by simp only [A.tpSelectCnt, A.tpSts]; omega), State.reg_bump]
  · rw [hfire _ _ (by simp only [A.tpLateDecCnt]; omega), State.reg_bump,
      State.reg_raise_ne _ _ _ (by simp only [A.tpLateDecCnt, A.tpSts]; omega),
      State.reg_bump_ne _ (by simp only [A.tpSelectCnt, A.tpLateDecCnt]; omega)]
  · rw [hfire _ _ (by simp only [A.tpFallbackCnt]; omega), State.reg_bump_ne _ (by simp only [A.tpFallbackCnt, A.tpLateDecCnt]; omega),
      State.reg_raise_ne _ _ _ (by simp only [A.tpFallbackCnt, A.tpSts]; omega),
      State.reg_bump_ne _ (by simp only [A.tpFallbackCnt, A.tpSelectCnt]; omega)]
  · rw [State.fld_of_reg (hfire _ _ (by simp only [A.tpSts]; omega)),
      State.fld_of_reg (State.reg_bump_ne _ (by simp only [A.tpSts, A.tpLateDecCnt]; omega))]
    exact State.fld_raise_bit _ _ _ (by decide) rfl

/-- A superseded bit leaves the other counters and LATE_DEC. -/
theorem State.notedSuperseded_regs (s : State) (i : Tile) (sup : Bool) :
    (s.notedSuperseded i sup).reg (A.tpSelectCnt i) = s.reg (A.tpSelectCnt i) ∧
    (s.notedSuperseded i sup).reg (A.tpLateDecCnt i) = s.reg (A.tpLateDecCnt i) ∧
    (s.notedSuperseded i sup).reg (A.tpFallbackCnt i) = s.reg (A.tpFallbackCnt i) ∧
    (s.notedSuperseded i sup).fld (A.tpSts i) F.tpSts.lateDec = s.fld (A.tpSts i) F.tpSts.lateDec := by
  cases sup with
  | false => exact ⟨rfl, rfl, rfl, rfl⟩
  | true =>
    have hreg (b : Nat) (hb : b ≠ A.tpSts i) (hb' : b ≠ A.tpSupersededCnt i) : (s.notedSuperseded i true).reg b = s.reg b :=
      (State.reg_bump_ne _ hb').trans (s.reg_raise_ne _ _ hb)
    refine ⟨hreg _ ?_ ?_, hreg _ ?_ ?_, hreg _ ?_ ?_, ?_⟩
    case refine_7 =>
      exact (State.fld_of_reg (State.reg_bump_ne _ (by simp only [A.tpSts, A.tpSupersededCnt]; omega)) _).trans
        (s.fld_raise_disjoint _ _ _ _ (by decide) (by decide))
    all_goals
      simp only [A.tpSelectCnt, A.tpLateDecCnt, A.tpFallbackCnt, A.tpSts, A.tpSupersededCnt]
      omega

theorem State.notedSuperseded_frame (s : State) (t : Nat) (sup : Bool) :
    (s.notedSuperseded t sup).scheds = s.scheds ∧ (s.notedSuperseded t sup).evq = s.evq ∧
    (s.notedSuperseded t sup).tqs = s.tqs := by
  cases sup <;> exact ⟨rfl, rfl, rfl⟩

theorem State.decidedLate_tqs (s : State) (t p sid : Nat) : (s.decidedLate t p sid).tqs = s.tqs := by
  let u := ((s.bump (A.tpSelectCnt t)).raise (A.tpSts t) F.tpSts.lateDec 1).bump (A.tpLateDecCnt t)
  have hfire : (u.fireOnceIn t 23 (s.beforeStart p sid)).tqs = u.tqs := by
    rcases u.fireOnceIn_cases t 23 (s.beforeStart p sid) with h | ⟨once, h⟩ <;> rw [h]
    rfl
  exact hfire

theorem State.decidedLate_fires (s : State) (t p sid : Nat)
    (h : (KMap.get [] s.once t).contains (if s.beforeStart p sid then 123 else 23) = false) :
    (s.decidedLate t p sid).evq = s.evq ++ [(tileSrc t 23, 0)] :=
  State.fireOnceIn_fires _ (by
    show (KMap.get [] s.once t).contains (23 + if s.beforeStart p sid then 100 else 0) = false
    cases hb : s.beforeStart p sid <;> simpa [hb] using h)

/-! ### The select tick -/

/-- Registers and timed queues alone have changed. -/
def QueueWork (s u : State) : Prop := u = { s with regs := u.regs, tie := u.tie, tqs := u.tqs }

theorem queueWork_refl (s : State) : QueueWork s s := rfl

theorem queueWork_setReg {s u : State} (h : QueueWork s u) (a : Nat) (w : Word) : QueueWork s (u.setReg a w) := by
  unfold QueueWork at h ⊢
  rw [h]
  rfl

theorem queueWork_bump {s u : State} (h : QueueWork s u) (a : Nat) : QueueWork s (u.bump a) := queueWork_setReg h a _

theorem queueWork_selected {s u : State} (h : QueueWork s u) (t q : Nat) (x : Option PlayArg) : QueueWork s (u.selected t q x) := by
  unfold QueueWork at h ⊢
  rw [h]
  rfl

theorem exec_armSelect_due {s : State} {i : Tile} {q : Seq} {p k fb ks midx : Nat} {alts : List (Option PlayArg)} {e : Entry} {h : Shot}
    (hun : s.unresolved i q = some e) (hp : s.plotOf i = some p) (hc : e.cmd = .arm alts k fb ks midx)
    (hstart : s.startOf p e.sid = some h) (ht : s.DT + 20 = h.start + e.execAt) :
    exec (.armSelect i q) s = .next (s.resolve i q p e alts k fb ks midx) := by
  rw [exec_armSelect, execArmSelect]
  simp only [hun, hp, hc, hstart]
  exact onlyIf_true _ _ _ (by simp [ht])

theorem completes_armSelect_named {s : State} {i : Tile} {q : Seq} {p k fb ks midx v : Nat} {alts : List (Option PlayArg)} {e : Entry}
    (hexec : exec (.armSelect i q) s = .next (s.resolve i q p e alts k fb ks midx))
    (hkey : keyValue (s.keyBits i ks midx (s.tagOf p e.sid) k 0) = some v) :
    Completes (.armSelect i q) s fun t =>
      (t.tq (sk i q)).held = setSel (alts.getD (if v < alts.length then v else fb) none) (s.tq (sk i q)).held ∧
      (t.reg (A.tpSelectCnt i)).toNat = min ((s.reg (A.tpSelectCnt i)).toNat + 1) 0xFFFFFFFF ∧
      (t.reg (A.tpFallbackCnt i)).toNat = min ((s.reg (A.tpFallbackCnt i)).toNat + if v < alts.length then 0 else 1) 0xFFFFFFFF ∧
      (t.reg (A.tpLateDecCnt i)).toNat = min ((s.reg (A.tpLateDecCnt i)).toNat + 0) 0xFFFFFFFF ∧
      t = { s with regs := t.regs, tie := t.tie, tqs := t.tqs } := by
  obtain ⟨w, hres⟩ := State.resolve_named (q := q) (fb := fb) alts hkey
  refine completes_of_exec (hexec.trans (congrArg _ hres)) ?_
  have hsel : A.tpSelectCnt i ≠ A.tpLastSel i := by simp only [A.tpSelectCnt, A.tpLastSel]; omega
  have hfb : A.tpFallbackCnt i ≠ A.tpLastSel i := by simp only [A.tpFallbackCnt, A.tpLastSel]; omega
  have hlate : A.tpLateDecCnt i ≠ A.tpLastSel i := by simp only [A.tpLateDecCnt, A.tpLastSel]; omega
  have hfs : A.tpFallbackCnt i ≠ A.tpSelectCnt i := by simp only [A.tpFallbackCnt, A.tpSelectCnt]; omega
  have hls : A.tpLateDecCnt i ≠ A.tpSelectCnt i := by simp only [A.tpLateDecCnt, A.tpSelectCnt]; omega
  have hlf : A.tpLateDecCnt i ≠ A.tpFallbackCnt i := by simp only [A.tpLateDecCnt, A.tpFallbackCnt]; omega
  have hw (u : State) {b : Nat} (x : Option PlayArg) (hb : b ≠ A.tpLastSel i) :
      ((u.setReg (A.tpLastSel i) w).selected i q x).reg b = u.reg b := u.reg_setReg_ne w hb
  rw [hw _ _ hsel, hw _ _ hfb, hw _ _ hlate]
  by_cases hv : v < alts.length
  · simp only [hv, if_true]
    exact ⟨State.held_selected .., s.reg_bump _, by rw [s.reg_bump_ne hfs]; exact toNat_min_self _,
      by rw [s.reg_bump_ne hls]; exact toNat_min_self _,
      queueWork_selected (queueWork_setReg (queueWork_bump (queueWork_refl s) _) _ w) ..⟩
  · simp only [hv, if_false]
    exact ⟨State.held_selected .., by rw [State.reg_bump_ne _ hfs.symm, s.reg_bump], by rw [State.reg_bump, s.reg_bump_ne hfs],
      by rw [State.reg_bump_ne _ hlf, s.reg_bump_ne hls]; exact toNat_min_self _,
      queueWork_selected (queueWork_setReg (queueWork_bump (queueWork_bump (queueWork_refl s) _) _) _ w) ..⟩

theorem completes_armSelect_late {s : State} {i : Tile} {q : Seq} {p k fb ks midx : Nat} {alts : List (Option PlayArg)} {e : Entry}
    (hexec : exec (.armSelect i q) s = .next (s.resolve i q p e alts k fb ks midx))
    (hkey : keyValue (s.keyBits i ks midx (s.tagOf p e.sid) k 0) = none) :
    Completes (.armSelect i q) s fun t =>
      (t.tq (sk i q)).held = setSel (alts.getD fb none) (s.tq (sk i q)).held ∧
      (t.reg (A.tpSelectCnt i)).toNat = min ((s.reg (A.tpSelectCnt i)).toNat + 1) 0xFFFFFFFF ∧
      (t.reg (A.tpLateDecCnt i)).toNat = min ((s.reg (A.tpLateDecCnt i)).toNat + 1) 0xFFFFFFFF ∧
      (t.reg (A.tpFallbackCnt i)).toNat = min ((s.reg (A.tpFallbackCnt i)).toNat + 0) 0xFFFFFFFF ∧
      t.on (A.tpSts i) F.tpSts.lateDec = true ∧
      (∀ g ∈ (t.sched p).shots, g.sid = e.sid → g.flags &&& Flag.lateDec = Flag.lateDec) ∧
      ((KMap.get [] s.once i).contains (if s.beforeStart p e.sid then 123 else 23) = false → Fires (tileSrc i 23) s t) := by
  obtain ⟨sup, w, hres⟩ := State.resolve_late (q := q) (fb := fb) alts hkey
  refine completes_of_exec (hexec.trans (congrArg _ hres)) ?_
  obtain ⟨hsel, hlate, hfb, hsts⟩ := s.decidedLate_regs i p e.sid
  obtain ⟨hsel', hlate', hfb', hsts'⟩ := (s.decidedLate i p e.sid).notedSuperseded_regs i sup
  obtain ⟨hscheds, hevq, htqs⟩ := (s.decidedLate i p e.sid).notedSuperseded_frame i sup
  have hw (u : State) {b : Nat} (x : Option PlayArg) (hb : b ≠ A.tpLastSel i) :
      ((u.setReg (A.tpLastSel i) w).selected i q x).reg b = u.reg b := u.reg_setReg_ne w hb
  refine ⟨?_, ?_, ?_, ?_, ?_, fun g hg hsid => ?_, fun hone => ?_⟩
  · rw [State.held_selected]
    show setSel _ (KMap.get {} ((s.decidedLate i p e.sid).notedSuperseded i sup).tqs (sk i q)).held = _
    rw [htqs, s.decidedLate_tqs]
    rfl
  · rw [hw _ _ (by simp only [A.tpSelectCnt, A.tpLastSel]; omega), hsel', hsel]
  · rw [hw _ _ (by simp only [A.tpLateDecCnt, A.tpLastSel]; omega), hlate', hlate]
  · rw [hw _ _ (by simp only [A.tpFallbackCnt, A.tpLastSel]; omega), hfb', hfb]
    exact toNat_min_self _
  · rw [State.on, State.fld_of_reg (hw _ _ (by simp only [A.tpSts, A.tpLastSel]; omega)), hsts', hsts]
    rfl
  · have hg' : g ∈ (KMap.get ({} : Sched) ((s.decidedLate i p e.sid).notedSuperseded i sup).scheds p).shots := hg
    rw [hscheds] at hg'
    exact State.flagShot_flags _ p e.sid _ g hg' hsid
  · exact hevq.trans (s.decidedLate_fires i p e.sid hone)

/-! ### The tick of the entry -/

theorem State.chan_setChan (s : State) (t n : Nat) (x : Chan) : (s.setChan t n x).chan t n = x := KMap.get_set_same ..

theorem State.chans_setChan_ne (s : State) (t n : Nat) (x : Chan) {k : Nat} (hk : k ≠ 32 * t + n) :
    KMap.get ({} : Chan) (s.setChan t n x).chans k = KMap.get ({} : Chan) s.chans k := KMap.get_set_ne ({} : Chan) {} s.chans x hk

/-- A path that plays nothing decanted stops alone (R134). -/
theorem State.stopPlay_undecanted {s : State} {i n : Nat} (h : Undecanted s i n) :
    (s.stopPlay i n).chan i n = { s.chan i n with playing := none } ∧
    (∀ k, k ≠ 32 * i + n → KMap.get ({} : Chan) (s.stopPlay i n).chans k = KMap.get ({} : Chan) s.chans k) ∧
    s.stopPlay i n = { s with chans := (s.stopPlay i n).chans } := by
  unfold State.stopPlay
  split
  · next hpl => exact ⟨by rw [← hpl], fun _ _ => rfl, rfl⟩
  · next pl hpl =>
    have hdec := h.1 pl hpl
    simp only [hdec, Bool.false_and, Bool.false_eq_true, if_false]
    exact ⟨s.chan_setChan i n _, fun k hk => s.chans_setChan_ne i n _ hk, rfl⟩

/-- A segment that is not decanted plays from its tick on, and no other channel changes (R134, R137). -/
theorem State.startSeg_plays {s : State} {i n : Nat} (c : Nat) (a : PlayArg) (hd : s.segDecant i a.seg = false) (h : Undecanted s i n) :
    Plays i n c a s (s.startSeg i n c a) ∧ s.startSeg i n c a = { s with chans := (s.startSeg i n c a).chans } := by
  obtain ⟨hchan, hother, hframe⟩ := State.stopPlay_undecanted h
  unfold State.startSeg
  simp only [hd, Bool.false_and, Bool.false_eq_true, if_false, Bool.not_false, if_true]
  refine ⟨⟨?_, fun k hk => ?_⟩, ?_⟩
  · rw [State.chan_setChan, hchan]
  · exact (State.chans_setChan_ne _ i n _ hk).trans (hother k hk)
  · rw [hframe]
    rfl

theorem exec_armExecute_nop {s : State} {i : Tile} {q : Seq} {k fb ks midx : Nat} {alts : List (Option PlayArg)} {e : Entry}
    (h : s.due i q = some e) (hm : e.moved = false) (hc : e.cmd = .arm alts k fb ks midx) (hsel : e.sel = some none) :
    exec (.armExecute i q) s = .next (s.unqueued i q) := by
  rw [exec_armExecute, execArmExecute, ← State.pop_due h hm]
  simp only [h, hc, hsel]

theorem exec_armExecute_plays {s : State} {i : Tile} {q : Seq} {k fb ks midx n : Nat} {alts : List (Option PlayArg)} {e : Entry} {a : PlayArg}
    (h : s.due i q = some e) (hm : e.moved = false) (hc : e.cmd = .arm alts k fb ks midx) (hsel : e.sel = some (some a))
    (hj : a.jump = false) (hpath : s.pathOf i q = some n) (hhalt : s.haltedAt i q e.execAt = false)
    (hplay : s.playable i q a.seg = true) :
    exec (.armExecute i q) s = .next ((s.unqueued i q).startSeg i n e.execAt a) := by
  have hhalt' : (s.unqueued i q).haltedAt i q e.execAt = false := by
    rw [← hhalt]
    unfold State.haltedAt State.unqueued
    rw [State.tq_setTq]
  have hpath' : (s.unqueued i q).pathOf i q = some n := hpath
  have hplay' : (s.unqueued i q).playable i q a.seg = true := hplay
  rw [exec_armExecute, execArmExecute]
  simp only [h, hc, hsel, State.pop_due h hm]
  unfold State.playOn State.play
  simp only [hpath', hhalt', hj, hplay', Bool.false_eq_true, if_false, if_true]

/-- Settles O28: the selection is what the key names (`State.resolve_named`, `State.resolve_late`), and the alternative plays on the
sequencer's path (`State.startSeg_plays`). -/
theorem armedEntriesTakeTheirAlternative : Obligations.ArmedEntriesTakeTheirAlternative := by
  unfold Obligations.ArmedEntriesTakeTheirAlternative
  refine ⟨fun s i q p k fb ks midx alts e h hun hp hc hstart ht => ?_, fun s i q k fb ks midx alts e h hm hc => ⟨fun hsel => ?_, ?_⟩⟩
  · have hexec := exec_armSelect_due hun hp hc hstart ht
    exact ⟨fun v hkey => completes_armSelect_named hexec hkey, fun hkey => completes_armSelect_late hexec hkey⟩
  · exact completes_of_exec (exec_armExecute_nop h hm hc hsel) ⟨popped_unqueued s i q, rfl⟩
  · intro a n hsel hj hpath hhalt hplay hd hun
    obtain ⟨hplays, hframe⟩ := State.startSeg_plays (s := s.unqueued i q) e.execAt a hd hun
    refine completes_of_exec (exec_armExecute_plays h hm hc hsel hj hpath hhalt hplay) ⟨hplays, popped_of_tqs ?_, ?_⟩
    · rw [hframe]
    · rw [hframe]
      rfl

end Sys2Proof.Machine
end

section
/-! ## The faults of fetch and fields (R80, R86, R88, R113, R485) -/

namespace Sys2Proof.Machine

open Sys2Proof.Safety

/-! ### The row of an instruction -/

theorem State.instrRow_runs (s : State) (i q : Nat) (e : Ecc) (ops : Nat → Bool) (cyc : Ins → Nat) (body : Ins → State → IRes)
    (hrun : s.running i q = true) (ho : ops (s.insAt i q (s.pc i q)).op = true) :
    s.instrRow i q e ops cyc body = .next (s.instr i q e cyc body) := onlyIf_true _ _ _ (by rw [hrun, ho]; rfl)

/-- A double-bit error of the program memory comes before everything else. -/
theorem State.instr_double (s : State) (i q : Nat) (cyc : Ins → Nat) (body : Ins → State → IRes) :
    s.instr i q .double cyc body = s.finish i q 1 (.fault 0xD 0 1) := rfl

theorem State.insWalk_unpatched (s : State) (i q : Nat) (e : Ecc) (x : Ins) (body : Ins → State → IRes) (hp : s.patched i = false)
    (he : ∀ n, e ≠ .microParity n) : s.insWalk i q e x body = none := by
  unfold State.insWalk
  cases e with
  | microParity n => exact absurd rfl (he n)
  | _ => simp [hp]

/-- An instruction of a tile without patches is judged, whatever its routine. -/
theorem State.instr_unpatched (s : State) (i q : Nat) (cyc : Ins → Nat) (body : Ins → State → IRes) (hp : s.patched i = false) :
    s.instr i q .clean cyc body =
      s.finish i q (cyc (s.insAt i q (s.pc i q))) (s.judged i q (s.insAt i q (s.pc i q)) body) := by
  unfold State.instr
  simp only [reduceCtorEq, if_false, State.pmCorrected, s.insWalk_unpatched i q .clean _ body hp (by simp)]

/-! ### The checks in their order (R485) -/

theorem State.judged_unlisted (s : State) (i q : Nat) (x : Ins) (body : Ins → State → IRes) (h : opMask x.op = none) :
    s.judged i q x body = .fault 1 0 3 := by
  unfold State.judged
  rw [h]

theorem State.judged_role (s : State) (i q : Nat) (x m : Ins) (body : Ins → State → IRes) (hm : opMask x.op = some m)
    (h : roleAllows x.op (s.role i q) = false) : s.judged i q x body = .fault 2 0 3 := by
  unfold State.judged
  simp [hm, h]

theorem State.judged_reserved (s : State) (i q : Nat) (x m : Ins) (body : Ins → State → IRes) (hm : opMask x.op = some m)
    (hr : roleAllows x.op (s.role i q) = true) (h : x.reservedOk m = false) :
    s.judged i q x body = .fault 3 (s.insHi i q) 3 := by
  unfold State.judged
  simp [hm, hr, h]

theorem State.judged_body (s : State) (i q : Nat) (x m : Ins) (body : Ins → State → IRes) (hm : opMask x.op = some m)
    (hr : roleAllows x.op (s.role i q) = true) (h : x.reservedOk m = true) : s.judged i q x body = body x s := by
  unfold State.judged
  simp [hm, hr, h]

theorem nop_ops {op : Nat} (h : op = 0 ∨ opMask op = none) : (op == 0 || (opMask op).isNone) = true := by
  rcases h with h | h <;> simp [h]

theorem completes_nop_double (s : State) (i : Tile) (q : Seq) (hrun : s.running i q = true) (hf : s.queueFull (sk i q) = false)
    (hop : (s.insAt i q (s.pc i q)).op = 0 ∨ opMask (s.insAt i q (s.pc i q)).op = none) (hp : s.patched i = false) :
    Completes (.nop i q .double) s fun t => Faults 0xD 0 i q s t := by
  have hexec : exec (.nop i q .double) s = .next (s.finish i q 1 (.fault 0xD 0 1)) := by
    rw [exec_nop, execNop, s.instrRow_runs i q _ _ _ _ hrun (nop_ops hop), s.instr_double]
  exact completes_of_exec hexec (s.faults_spec i q 0xD 0 1 (by decide) hp hf)

theorem completes_play_double (s : State) (i : Tile) (q : Seq) (hrun : s.running i q = true) (hf : s.queueFull (sk i q) = false)
    (hop : (s.insAt i q (s.pc i q)).op = 0x20) (hp : s.patched i = false) :
    Completes (.play i q .double) s fun t => Faults 0xD 0 i q s t := by
  have hexec : exec (.play i q .double) s = .next (s.finish i q 1 (.fault 0xD 0 1)) := by
    rw [exec_play, execPlay, s.instrRow_runs i q _ _ _ _ hrun (by simp [hop]), s.instr_double]
  exact completes_of_exec hexec (s.faults_spec i q 0xD 0 1 (by decide) hp hf)

theorem completes_nop_unlisted (s : State) (i : Tile) (q : Seq) (hrun : s.running i q = true) (hf : s.queueFull (sk i q) = false)
    (hop : opMask (s.insAt i q (s.pc i q)).op = none) (hp : s.patched i = false) :
    Completes (.nop i q .clean) s fun t => Faults 1 0 i q s t := by
  have hexec : exec (.nop i q .clean) s = .next (s.finish i q 1 (.fault 1 0 3)) := by
    rw [exec_nop, execNop, s.instrRow_runs i q _ _ _ _ hrun (nop_ops (.inr hop)), s.instr_unpatched i q _ _ hp,
      s.judged_unlisted i q _ _ hop]
  exact completes_of_exec hexec (s.faults_spec i q 1 0 3 (by decide) hp hf)

theorem roleAllows_play {r : Nat} (h : 3 < r) : roleAllows 0x20 r = false := by
  simp only [roleAllows, decide_eq_false_iff_not]
  omega

theorem completes_play_role (s : State) (i : Tile) (q : Seq) (hrun : s.running i q = true) (hf : s.queueFull (sk i q) = false)
    (hop : (s.insAt i q (s.pc i q)).op = 0x20) (hp : s.patched i = false) (hr : 3 < s.role i q) :
    Completes (.play i q .clean) s fun t => Faults 2 0 i q s t := by
  have hexec : exec (.play i q .clean) s = .next (s.finish i q 2 (.fault 2 0 3)) := by
    rw [exec_play, execPlay, s.instrRow_runs i q _ _ _ _ hrun (by simp [hop]), s.instr_unpatched i q _ _ hp,
      s.judged_role i q _ _ _ (by rw [hop]; rfl) (by rw [hop]; exact roleAllows_play hr)]
  exact completes_of_exec hexec (s.faults_spec i q 2 0 3 (by decide) hp hf)

theorem completes_add_reserved (s : State) (i : Tile) (q : Seq) (hrun : s.running i q = true) (hf : s.queueFull (sk i q) = false)
    (hop : (s.insAt i q (s.pc i q)).op = 0x40) (hp : s.patched i = false) (hsub : (s.insAt i q (s.pc i q)).sub ≠ 0) :
    Completes (.add i q .clean) s fun t => Faults 3 (s.insHi i q) i q s t := by
  have hres : (s.insAt i q (s.pc i q)).reservedOk ⟨0xFF, 15, 15, 15, 1, 0, 0xFFFFFFFF⟩ = false := by
    simp [Ins.reservedOk, Ne.symm hsub]
  have hexec : exec (.add i q .clean) s = .next (s.finish i q 1 (.fault 3 (s.insHi i q) 3)) := by
    rw [exec_add, execAdd, State.alu, s.instrRow_runs i q _ _ _ _ hrun (by simp [hop]), s.instr_unpatched i q _ _ hp,
      s.judged_reserved i q _ _ _ (by rw [hop]; rfl) (by rw [hop]; rfl) hres]
  exact completes_of_exec hexec (s.faults_spec i q 3 (s.insHi i q) 3 (by decide) hp hf)

/-! ### The end of the program memory (R113) -/

/-- With an empty loop stack the instruction at address 4,095 completes, and PC_END follows. -/
theorem State.complete_pcEnd (s : State) (t q : Nat) (hpc : s.pc t q = 4095) (hd : s.depth t q = 0) :
    s.complete t q none =
      (((s.addInstr t q).addCycles t q 0).addCycles t q 1).fault t q { cause := 4, info := 0, pc := s.pc t q } := by
  have hinstr := regWork_addInstr s t q
  have htest := State.loopTest_none (s.addInstr t q) t q (s.pc t q) 8
    (.inl ((State.depth_of_reg (hinstr.1 _ (seqSts_not_instr t q))).trans hd))
  unfold State.complete
  simp only [htest]
  rw [if_pos hpc]

theorem completes_nop_pcEnd (s : State) (i : Tile) (q : Seq) (h : Passes s i q 0) (hf : s.queueFull (sk i q) = false)
    (hpc : s.pc i q = 4095) (hd : s.depth i q = 0) :
    Completes (.nop i q .clean) s fun t => Faults 4 0 i q s t ∧ Counts i q 2 s t := by
  obtain ⟨-, -, hp, -⟩ := id h
  have hcyc := regWork_addCycles s i q 1
  have hinstr := regWork_addInstr (s.addCycles i q 1) i q
  have hzero := regWork_addCycles ((s.addCycles i q 1).addInstr i q) i q 0
  have hone := regWork_addCycles (((s.addCycles i q 1).addInstr i q).addCycles i q 0) i q 1
  have hexec := exec_nop_passes s i q h
  have hcpc := s.pc_addCycles i q 1
  have hcd : (s.addCycles i q 1).depth i q = 0 :=
    (State.depth_of_reg (s.reg_addCycles i q 1 _ (by simp only [seqAddr]; omega))).trans hd
  rw [State.finish, State.complete_pcEnd _ i q (hcpc.trans hpc) hcd] at hexec
  have hfpc : ((((s.addCycles i q 1).addInstr i q).addCycles i q 0).addCycles i q 1).pc i q = (s.addCycles i q 1).pc i q :=
    (State.pc_addCycles _ i q 1).trans ((State.pc_addCycles _ i q 0).trans (State.pc_addInstr _ i q))
  obtain ⟨hfaults, hregs⟩ := ((((s.addCycles i q 1).addInstr i q).addCycles i q 0).addCycles i q 1).fault_faults i q 4 0 (by decide)
    (by rw [State.patched_addCycles _ _ _ _ q.isLt, State.patched_addCycles _ _ _ _ q.isLt, State.patched_addInstr,
      s.patched_addCycles _ _ _ q.isLt, hp])
    (by rw [regWork_queueFull hone, regWork_queueFull hzero, regWork_queueFull hinstr, regWork_queueFull hcyc, hf])
  rw [hfpc] at hfaults hregs
  have hcycles := cycles_not_faultReads i q
  refine completes_of_exec hexec ⟨faults_after hcyc hcycles (faults_after hinstr (instrs_not_faultReads i q)
    (faults_after hzero hcycles (faults_after hone hcycles hfaults))), ?_⟩
  exact counts_of_ticks (ticks_trans (ticks_trans (ticks_trans (ticks_trans (ticks_addCycles s i q 1) (ticks_addInstr _ i q))
    (ticks_addCycles _ i q 0)) (ticks_addCycles _ i q 1)) (ticks_of_faultRegs hregs))

/-! ### A single-bit error of the program memory (R80) -/

theorem completes_nop_clean (s : State) (i : Tile) (q : Seq) (h : Passes s i q 0) (hfall : FallsThrough s i q) :
    Completes (.nop i q .clean) s (Steps [] i q 1 s) :=
  completes_of_exec (exec_nop_passes s i q h) (State.finish_next_steps 1 none (regWork_refl [] s) (by simp) hfall).1

theorem State.pmCorrected_spec (s : State) (i : Tile) (q : Seq) :
    SameRegs [A.seqSts i q, A.seqPmCorr i q, A.evfSrcSts (tileSrc i 3 / 32)] s (s.pmCorrected i q .single) ∧
    (s.pmCorrected i q .single).fld (A.seqSts i q) F.seqSts.pmCorr = 1 ∧
    (s.pmCorrected i q .single).depth i q = s.depth i q ∧ CountsUp (A.seqPmCorr i q) 1 s (s.pmCorrected i q .single) ∧
    (s.pmCorrected i q .single).evq = s.evq ++ [(tileSrc i 3, 0)] := by
  have hlt := evfSrcSts_tileSrc_lt i 3 (by decide)
  have hfire (u : State) {a : Nat} (ha : 0x300000 ≤ a) : (u.fire (tileSrc i 3)).reg a = u.reg a := u.reg_fire_ne _ (by omega)
  have hsts : (s.pmCorrected i q .single).reg (A.seqSts i q) = (s.raise (A.seqSts i q) F.seqSts.pmCorr 1).reg (A.seqSts i q) :=
    (hfire _ (by simp only [seqAddr]; omega)).trans (State.reg_bump_ne _ (by simp only [seqAddr]; omega))
  refine ⟨fun a ha => ?_, ?_, ?_, ?_, rfl⟩
  · simp only [List.mem_cons, List.not_mem_nil, or_false, not_or] at ha
    obtain ⟨h1, h2, h3⟩ := ha
    exact (State.reg_fire_ne _ _ h3).trans ((State.reg_bump_ne _ h2).trans (s.reg_raise_ne _ _ h1))
  · exact (State.fld_of_reg hsts _).trans (s.fld_raise_bit _ _ (by decide) rfl)
  · exact (State.depth_of_reg hsts).trans (s.fld_raise_disjoint _ _ _ _ (by decide) (by decide))
  · unfold CountsUp
    rw [State.pmCorrected, hfire _ (by simp only [seqAddr]; omega), State.reg_bump,
      s.reg_raise_ne _ _ (by simp only [seqAddr]; omega)]

theorem State.role_of_regs {s u : State} {t q : Nat} (h : u.reg (A.tilePlaceSts t) = s.reg (A.tilePlaceSts t)) :
    u.role t q = s.role t q := by
  unfold State.role State.effIdx
  rw [State.fld_of_reg h, State.fld_of_reg h]

theorem exec_nop_single (s : State) (i : Tile) (q : Seq) (h : Passes s i q 0) : exec (.nop i q .single) s =
    .next ((s.pmCorrected i q .single).finish i q 1 (.next (s.pmCorrected i q .single))) := by
  obtain ⟨hrun, hop, hp, hrole, m, hm, hres⟩ := h
  obtain ⟨hregs, -⟩ := s.pmCorrected_spec i q
  have hlt := evfSrcSts_tileSrc_lt i 3 (by decide)
  have hp' : (s.pmCorrected i q .single).patched i = false := (State.patched_of_sameRegs i hregs fun m hm => by
    simp only [List.mem_cons, List.not_mem_nil, or_false, A.ucMatch, seqAddr]
    omega).trans hp
  have hrole' : (s.pmCorrected i q .single).role i q = s.role i q := State.role_of_regs (hregs _ (by
    simp only [List.mem_cons, List.not_mem_nil, or_false, A.tilePlaceSts, seqAddr]
    omega))
  rw [exec_nop, execNop, s.instrRow_runs i q _ _ _ _ hrun (nop_ops (.inl hop))]
  unfold State.instr
  simp only [reduceCtorEq, if_false, State.insWalk_unpatched _ i q .single _ _ hp' (by simp)]
  rw [State.judged_body _ i q _ m _ (by rw [hop, hm]) (by rw [hop, hrole', hrole]) hres]

theorem completes_nop_single (s : State) (i : Tile) (q : Seq) (h : Passes s i q 0) (hfall : FallsThrough s i q) :
    Completes (.nop i q .single) s fun t =>
      t.pc i q = s.pc i q + 1 ∧ Counts i q 1 s t ∧ t.on (A.seqSts i q) F.seqSts.pmCorr = true ∧
      (t.reg (A.seqPmCorr i q)).toNat = min ((s.reg (A.seqPmCorr i q)).toNat + 1) 0xFFFFFFFF ∧
      t.evq = s.evq ++ [(tileSrc i 3, 0)] := by
  have hlt := evfSrcSts_tileSrc_lt i 3 (by decide)
  obtain ⟨hregs, hcorr, hdepth, hcount, hevq⟩ := s.pmCorrected_spec i q
  have hpc : (s.pmCorrected i q .single).pc i q = s.pc i q := State.pc_of_reg (hregs _ (by
    simp only [List.mem_cons, List.not_mem_nil, or_false, seqAddr]
    omega))
  have hfall' := fallsThrough_of_regs hfall hpc hdepth fun k hk => hregs _ (by
    simp only [List.mem_cons, List.not_mem_nil, or_false, seqAddr, seqAddrAt]
    omega)
  obtain ⟨⟨hnext, hcounts, hsame, hframe⟩, -⟩ := State.finish_next_steps 1 none (regWork_refl [] (s.pmCorrected i q .single))
    (by simp) hfall'
  have hticks : Ticks i q 0 0 s (s.pmCorrected i q .single) := ticks_of_sameRegs hregs fun a ha => by
    simp only [mem_seqCounters, List.mem_cons, List.not_mem_nil, or_false, seqAddr] at ha ⊢
    omega
  refine completes_of_exec (exec_nop_single s i q h) ⟨hnext.trans (by rw [hpc]), ?_, ?_, ?_, ?_⟩
  · exact counts_of_ticks (ticks_trans hticks hcounts)
  · rw [State.on, State.fld_of_reg (hsame _ (by
      rw [List.nil_append]
      exact seqSts_not_moves i q)), hcorr]
    rfl
  · rw [hsame _ (by
      simp only [List.nil_append, mem_seqMoves, seqAddr]
      omega)]
    exact hcount
  · rw [hframe]
    exact hevq

end Sys2Proof.Machine
end

section
/-! ## Microwords that fault, and routines that a patch redirects (R113, R117, R120, R121) -/

namespace Sys2Proof.Machine

open Sys2Proof.Safety

/-! ### The walk of one microword -/

theorem Micro.hits_eq (m : Micro) : (match m.hit with | some i => [i] | none => []) = m.hits := by
  unfold Micro.hits
  cases m.hit <;> rfl

theorem microWalk_parity (fetch : Nat → Micro) (cond : Nat → Nat) (fuel a : Nat) :
    microWalk fetch cond (some 0) (fuel + 1) a = ⟨(fetch a).hits, 1, [], none, .fault 0 (fetch a).addr⟩ := by
  rw [← Micro.hits_eq]
  rfl

theorem microWalk_fault (fetch : Nat → Micro) (cond : Nat → Nat) (fuel a c : Nat) (h : microFault (fetch a).word = some c) :
    microWalk fetch cond none (fuel + 1) a = ⟨(fetch a).hits, 1, [], none, .fault c (fetch a).addr⟩ := by
  rw [← Micro.hits_eq]
  show (match microFault (fetch a).word with | some c => _ | none => _) = _
  rw [h] <;> rfl

theorem microWalk_done (fetch : Nat → Micro) (cond : Nat → Nat) (fuel a : Nat) (h : microFault (fetch a).word = none)
    (hd : mwDone (fetch a).word = true) :
    microWalk fetch cond none (fuel + 1) a = ⟨(fetch a).hits, 1, (fetch a).drive a, none, .dn⟩ := by
  rw [← Micro.hits_eq]
  show (match microFault (fetch a).word with | some c => _ | none => _) = _
  rw [h]
  exact if_pos hd

theorem State.insWalk_parity (s : State) (i q : Nat) (n : Fin 64) (x : Ins) (body : Ins → State → IRes) :
    ∃ cond, s.insWalk i q (.microParity n) x body =
      some (microWalk (s.microFetch i) cond (some n.val) 512 ((s.seq (sk i q)).micro.getD (dispatchAddr x.op))) := ⟨_, rfl⟩

theorem State.insWalk_patched (s : State) (i q : Nat) (x : Ins) (body : Ins → State → IRes) (hp : s.patched i = true) :
    ∃ cond, s.insWalk i q .clean x body =
      some (microWalk (s.microFetch i) cond none 512 ((s.seq (sk i q)).micro.getD (dispatchAddr x.op))) := by
  unfold State.insWalk
  simp only [hp, if_true]
  exact ⟨_, rfl⟩

theorem State.ucMatch_unpatched (s : State) (t a : Nat) (h : s.patched t = false) : s.ucMatch t a = none := by
  rw [State.ucMatch, List.find?_eq_none]
  intro m hm
  have hoff := List.any_eq_false.1 h m hm
  simp [hoff]

theorem State.patched_of_ucMatch {s : State} {t a m : Nat} (h : s.ucMatch t a = some m) : s.patched t = true := by
  unfold State.ucMatch at h
  have hm := List.find?_some h
  rw [Bool.and_eq_true] at hm
  obtain ⟨hon, -⟩ := hm
  exact List.any_eq_true.2 ⟨m, List.mem_of_find?_eq_some h, hon⟩

theorem State.microFetch_unpatched (s : State) (t a : Nat) (h : s.patched t = false) (ha : a < 0x2000) :
    s.microFetch t a = ⟨a, romWord a, none⟩ := by
  unfold State.microFetch
  rw [if_pos ha, s.ucMatch_unpatched t a h]

theorem State.microFetch_patched {s : State} {t a m : Nat} (h : s.ucMatch t a = some m) (ha : a < 0x2000) :
    s.microFetch t a = ⟨0x2000 + s.fld (A.ucMatch t m) F.ucMatch.target,
      s.reg (A.ucPatchRam t (s.fld (A.ucMatch t m) F.ucMatch.target)), some m⟩ := by
  unfold State.microFetch
  rw [if_pos ha, h]

/-! ### An instruction whose routine is walked -/

/-- The hits of a walk counted, and no microword waited for. -/
def State.walked (s : State) (t q : Nat) (hits : List Nat) : State := (s.countHits t hits).holdMicro t q none false none

theorem State.instr_microFault {s : State} {i q : Nat} {e : Ecc} {body : Ins → State → IRes} {c a words : Nat} {d : List (BitVec 192)}
    {bad : Option Nat} (cyc : Ins → Nat) (he : e ≠ .double) (hpm : s.pmCorrected i q e = s) (hm : (s.seq (sk i q)).micro = none)
    (hw : s.insWalk i q e (s.insAt i q (s.pc i q)) body = some ⟨[], words, d, bad, .fault c a⟩) :
    s.instr i q e cyc body = ((s.walked i q []).microError i c).finish i q 0
      (.fault 0xE (BitVec.ofNat 32 (a + c * 2 ^ 16)) (words + 1)) bad := by
  unfold State.instr
  simp only [he, if_false, hpm, hw, hm, Option.isSome_none, Bool.and_false, bne_self_eq_false, Bool.or_self, Bool.false_eq_true]
  rfl

theorem State.instr_redirected {s : State} {i q m : Nat} {e : Ecc} {body : Ins → State → IRes} {words : Nat} {d : List (BitVec 192)}
    {bad : Option Nat} {fin : MicroEnd} (cyc : Ins → Nat) (he : e ≠ .double) (hpm : s.pmCorrected i q e = s)
    (hw : s.insWalk i q e (s.insAt i q (s.pc i q)) body = some ⟨[m], words, d, bad, fin⟩) :
    s.instr i q e cyc body =
      (s.walked i q [m]).redirected i q (s.insAt i q (s.pc i q)) ⟨[m], words, d, bad, fin⟩ body := by
  have hne : ([m] != []) = true := rfl
  unfold State.instr
  simp only [he, if_false, hpm, hw, hne, Bool.or_true, if_true]
  rfl

/-! ### A parity error of the first microword (R117) -/

theorem State.microError_parity (s : State) (t : Nat) : RegWork [A.ucSts t, A.ucParCnt t] s (s.microError t 0) ∧
    (s.microError t 0).fld (A.ucSts t) F.ucSts.parErr = 1 ∧ CountsUp (A.ucParCnt t) 1 s (s.microError t 0) := by
  have hne : A.ucSts t ≠ A.ucParCnt t := by simp only [A.ucSts, A.ucParCnt]; omega
  refine ⟨⟨fun a ha => ?_, rfl⟩, ?_, ?_⟩
  · simp only [List.mem_cons, List.not_mem_nil, or_false, not_or] at ha
    exact (State.reg_bump_ne _ ha.2).trans (s.reg_raise_ne _ _ ha.1)
  · exact (State.fld_of_reg (State.reg_bump_ne _ hne) _).trans (s.fld_raise_bit _ _ (by decide) rfl)
  · unfold CountsUp
    exact (State.reg_bump _ _).trans (by rw [s.reg_raise_ne _ _ hne.symm])

/-- A fault before the instruction has done anything, and the registers that it writes. -/
theorem State.finish_faults (s : State) (i : Tile) (q : Seq) (cause : Nat) (info : Word) (n : Nat) (hc : cause < 32)
    (hp : s.patched i = false) (hf : s.queueFull (sk i q) = false) :
    Faults cause info i q s (s.finish i q 0 (.fault cause info n)) ∧
    SameRegs ([A.seqCycLo i q, A.seqCycHi i q] ++ faultRegs i q) s (s.finish i q 0 (.fault cause info n)) := by
  have hcyc := regWork_addCycles s i q n
  obtain ⟨hfaults, hregs⟩ := (s.addCycles i q n).fault_faults i q cause info hc ((s.patched_addCycles i q n q.isLt).trans hp)
    ((regWork_queueFull hcyc _).trans hf)
  rw [s.pc_addCycles i q n] at hfaults hregs
  refine ⟨faults_after hcyc (cycles_not_faultReads i q) hfaults, fun a ha => ?_⟩
  rw [List.mem_append, not_or] at ha
  exact (hregs a ha.2).trans (hcyc.1 a ha.1)

/-- The registers of the microcode are none of a sequencer's, and lie above the FIRED bits. -/
theorem ucRegs_not_faultRegs (i : Tile) (q : Seq) {a : Nat} (h : a = A.ucSts i ∨ a = A.ucParCnt i) :
    a ∉ [A.seqCycLo i q, A.seqCycHi i q] ++ faultRegs i q := by
  have hlt := evfSrcSts_tileSrc_lt i 2 (by decide)
  rw [List.mem_append, mem_faultRegs]
  rintro (hm | hm)
  · simp only [List.mem_cons, List.not_mem_nil, or_false, seqAddr, A.ucSts, A.ucParCnt] at h hm
    omega
  · simp only [seqAddr, A.ucSts, A.ucParCnt] at h hm
    omega

theorem ucRegs_not_faultReads (i : Tile) (q : Seq) : ∀ a ∈ [A.ucSts i, A.ucParCnt i], ¬ faultReads i q a := by
  intro a ha hr
  simp only [List.mem_cons, List.not_mem_nil, or_false, faultReads, seqAddr, seqAddrAt, A.ucSts, A.ucParCnt] at ha hr
  obtain hr | hr | ⟨k, hk, hr⟩ | hr := hr <;> omega

theorem completes_add_parity (s : State) (i : Tile) (q : Seq) (hrun : s.running i q = true) (hf : s.queueFull (sk i q) = false)
    (hop : (s.insAt i q (s.pc i q)).op = 0x40) (hp : s.patched i = false) (hm : (s.seq (sk i q)).micro = none) :
    Completes (.add i q (.microParity 0)) s fun t => Faults 0xE 0x800 i q s t ∧ t.fld (A.ucSts i) F.ucSts.parErr = 1 ∧
      CountsUp (A.ucParCnt i) 1 s t := by
  obtain ⟨hwork, herr, hcnt⟩ := (s.walked i q []).microError_parity i
  have hexec : exec (.add i q (.microParity 0)) s =
      .next (((s.walked i q []).microError i 0).finish i q 0 (.fault 0xE 0x800 2)) := by
    obtain ⟨cond, hw⟩ := s.insWalk_parity i q 0 (s.insAt i q (s.pc i q))
      fun x s => .next (s.setSreg i q x.ra (s.sreg i q x.rb + s.operand2 i q x))
    have hwalk := microWalk_parity (s.microFetch i) cond 511 0x800
    rw [s.microFetch_unpatched i 0x800 hp (by decide)] at hwalk
    rw [hm, hop] at hw
    rw [exec_add, execAdd, State.alu, s.instrRow_runs i q _ _ _ _ hrun (by simp [hop]),
      State.instr_microFault _ (by simp) rfl hm (hw.trans (congrArg some hwalk))]
    rfl
  have hpatched : ((s.walked i q []).microError i 0).patched i = false := (State.patched_of_sameRegs i hwork.1 fun m hm => by
    simp only [List.mem_cons, List.not_mem_nil, or_false, A.ucMatch, A.ucSts, A.ucParCnt]
    omega).trans hp
  obtain ⟨hfaults, hregs⟩ := ((s.walked i q []).microError i 0).finish_faults i q 0xE 0x800 2 (by decide) hpatched
    ((regWork_queueFull hwork _).trans hf)
  have hwalked : Faults 0xE 0x800 i q (s.walked i q []) _ := faults_after hwork (ucRegs_not_faultReads i q) hfaults
  refine completes_of_exec hexec ⟨hwalked, ?_, ?_⟩
  · rw [State.fld_of_reg (hregs _ (ucRegs_not_faultRegs i q (.inl rfl))), herr]
  · unfold CountsUp at hcnt ⊢
    rw [hregs _ (ucRegs_not_faultRegs i q (.inr rfl)), hcnt]
    rfl

/-! ### A fault in a tile with patches (R114, R120, R125) -/

/-- The registers in which routines and faults keep their counts. -/
def microRegs (t q a : Nat) : Prop :=
  (0x1050000 + 0x80000 * t ≤ a ∧ a < 0x1050400 + 0x80000 * t) ∨ a = A.seqFaultCnt t q ∨ (0x201000 ≤ a ∧ a < 0x300000)

/-- Counting work of routines: PAR_ERR stays set, UC_PAR_CNT does not fall. -/
def MicroWork (t q : Nat) (s u : State) : Prop :=
  (∀ a, ¬ microRegs t q a → u.reg a = s.reg a) ∧
  (s.fld (A.ucSts t) F.ucSts.parErr = 1 → u.fld (A.ucSts t) F.ucSts.parErr = 1) ∧
  (s.reg (A.ucParCnt t)).toNat ≤ (u.reg (A.ucParCnt t)).toNat ∧
  u = { s with regs := u.regs, tie := u.tie, evq := u.evq, cfg := u.cfg }

theorem microWork_refl (t q : Nat) (s : State) : MicroWork t q s s := ⟨fun _ _ => rfl, id, Nat.le_refl _, rfl⟩

theorem microWork_trans {t q : Nat} {s u v : State} (h : MicroWork t q s u) (k : MicroWork t q u v) : MicroWork t q s v := by
  obtain ⟨hreg, herr, hcnt, hframe⟩ := h
  obtain ⟨kreg, kerr, kcnt, kframe⟩ := k
  exact ⟨fun a ha => (kreg a ha).trans (hreg a ha), fun h => kerr (herr h), hcnt.trans kcnt, by rw [kframe, hframe]⟩

theorem State.le_reg_bump (s : State) (a b : Nat) : (s.reg b).toNat ≤ ((s.bump a).reg b).toNat := by
  by_cases h : b = a
  · have hlt := (s.reg a).isLt
    rw [h, s.reg_bump]
    omega
  · rw [s.reg_bump_ne h]

theorem microWork_bump {t q a : Nat} (s : State) (ha : microRegs t q a) (hs : A.ucSts t ≠ a) : MicroWork t q s (s.bump a) :=
  ⟨fun _ hb => s.reg_bump_ne fun h => hb (h ▸ ha), fun h => (State.fld_of_reg (s.reg_bump_ne hs) _).trans h, s.le_reg_bump a _, rfl⟩

theorem microWork_raise {t q : Nat} (s : State) (f : Fld)
    (hf : (s.raise (A.ucSts t) f 1).fld (A.ucSts t) F.ucSts.parErr = 1 ∨
      (s.raise (A.ucSts t) f 1).fld (A.ucSts t) F.ucSts.parErr = s.fld (A.ucSts t) F.ucSts.parErr) :
    MicroWork t q s (s.raise (A.ucSts t) f 1) := by
  have hin : microRegs t q (A.ucSts t) := .inl (by simp only [A.ucSts]; omega)
  refine ⟨fun b hb => s.reg_raise_ne _ _ fun h => hb (h ▸ hin), fun h => ?_, ?_, rfl⟩
  · rcases hf with hf | hf
    · exact hf
    · rw [hf, h]
  · rw [s.reg_raise_ne _ _ (by simp only [A.ucParCnt, A.ucSts]; omega)]

theorem microWork_countHits (t q : Nat) (s : State) (l : List Nat) (hl : ∀ m ∈ l, m < 16) : MicroWork t q s (s.countHits t l) := by
  induction l generalizing s with
  | nil => exact microWork_refl t q s
  | cons m l ih =>
    have hm := hl m List.mem_cons_self
    exact microWork_trans
      (microWork_bump s (.inl (by simp only [A.ucHitCnt]; omega)) (by simp only [A.ucSts, A.ucHitCnt]; omega))
      (ih _ fun j hj => hl j (List.mem_cons_of_mem m hj))

theorem microWork_microError (t q : Nat) (s : State) (c : Nat) : MicroWork t q s (s.microError t c) := by
  unfold State.microError
  split
  · exact microWork_trans (microWork_raise s _ (.inl (s.fld_raise_bit _ _ (by decide) rfl)))
      (microWork_bump _ (.inl (by simp only [A.ucParCnt]; omega)) (by simp only [A.ucSts, A.ucParCnt]; omega))
  · exact microWork_raise s _ (.inr (s.fld_raise_disjoint _ _ _ _ (by decide) (by decide)))

theorem microWork_countFault (t : Tile) (q : Seq) (s : State) (cause : Nat) : MicroWork t q s (s.countFault t q cause) := by
  obtain ⟨hregs, -⟩ := s.countFault_spec t q cause
  have hlt := evfSrcSts_tileSrc_lt t 2 (by decide)
  have hge : 0x201000 ≤ A.evfSrcSts (tileSrc t 2 / 32) := by simp only [A.evfSrcSts]; omega
  have hout (a : Nat) (ha : a ∉ [A.seqFaultCnt t q, A.evfSrcSts (tileSrc t 2 / 32)]) : (s.countFault t q cause).reg a = s.reg a :=
    hregs a ha
  refine ⟨fun a ha => hout a ?_, fun h => (State.fld_of_reg (hout _ ?_) _).trans h, ?_, ?_⟩
  · simp only [microRegs, not_or] at ha
    simp only [List.mem_cons, List.not_mem_nil, or_false]
    omega
  · simp only [List.mem_cons, List.not_mem_nil, or_false, A.ucSts, seqAddr]
    omega
  · rw [hout _ (by
      simp only [List.mem_cons, List.not_mem_nil, or_false, A.ucParCnt, seqAddr]
      omega)]
  · unfold State.countFault
    simp only
    split <;> rfl

theorem microWork_sysRoutine (t q : Nat) (s : State) (a : Nat) (bad : Option Nat) : MicroWork t q s (s.sysRoutine t q a bad).1 := by
  unfold State.sysRoutine
  split
  · have hhits := microWork_countHits t q s _ (microWalk_hits_lt (s.microFetch t) (fun a m => s.microFetch_hit_lt t a m)
      (s.microCond t q (s.insAt t q (s.pc t q)) (s.queueFull (sk t q)) {}) bad 512 a)
    simp only
    split
    · exact microWork_trans hhits (microWork_microError t q _ _)
    · exact hhits
  · exact microWork_refl t q s

theorem microWork_queueFull {t q : Nat} {s u : State} (h : MicroWork t q s u) (k : Nat) : u.queueFull k = s.queueFull k := by
  obtain ⟨-, -, -, hframe⟩ := h
  rw [hframe]
  rfl

/-- With room in the queue a fault, whatever its routine does, sends its end marker and enters FAULTED. -/
theorem State.fault_goes (s : State) (t : Tile) (q : Seq) (f : FaultInfo) (bad : Option Nat) (hf : s.queueFull (sk t q) = false) :
    ∃ u, MicroWork t q s u ∧ s.fault t q f bad = (u.sendCmd t q .endMarker (u.tc t q) none).enterFaulted t q f := by
  have hsys := microWork_sysRoutine t q s 0x1F00 bad
  have hroom (u : State) (h : MicroWork t q s u) : u.queueFull (sk t q) = false := (microWork_queueFull h _).trans hf
  unfold State.fault
  generalize s.sysRoutine t q 0x1F00 bad = r at hsys
  obtain ⟨u, e⟩ := r
  cases e with
  | fault c a =>
    have hcount := microWork_trans hsys (microWork_countFault t q u 0xE)
    exact ⟨_, hcount, by simp only [hroom _ hcount, Bool.false_eq_true, if_false]⟩
  | waits a => exact ⟨u, hsys, by simp only [hroom _ hsys, Bool.false_eq_true, if_false]⟩
  | dn => exact ⟨u, hsys, by simp only [hroom _ hsys, Bool.false_eq_true, if_false]⟩
  | sys a c => exact ⟨u, hsys, by simp only [hroom _ hsys, Bool.false_eq_true, if_false]⟩

theorem microRegs_not_seq (t : Tile) (q : Seq) {a : Nat} (h : a = A.seqPc t q ∨ a = A.seqTc t q ∨ a = A.seqFault t q ∨ a < 0x100) :
    ¬ microRegs t q a := by
  simp only [microRegs, seqAddr] at h ⊢
  omega

/-- A UCODE fault of a tile with patches, beside what its fault routine counts. -/
theorem State.fault_patched (s : State) (t : Tile) (q : Seq) (info : Word) (bad : Option Nat) (hf : s.queueFull (sk t q) = false) :
    let u := s.fault t q { cause := 0xE, info := info, pc := s.pc t q } bad
    u.seqState t q = 6 ∧ u.pc t q = s.pc t q ∧ u.tc t q = s.tc t q ∧ SameBytes s u ∧
    (u.tq (sk t q)).flight = (s.tq (sk t q)).flight ++
      [{ cmd := .endMarker, stamp := s.tc t q, sid := s.runSid t, issued := s.tm.now }] ∧
    (s.on (A.seqFault t q) F.seqFault.valid = false →
      u.fld (A.seqFault t q) F.seqFault.valid = 1 ∧ u.fld (A.seqFault t q) F.seqFault.cause = 0xE ∧
      u.reg (A.seqFaultInfo t q) = info) ∧
    (s.fld (A.ucSts t) F.ucSts.parErr = 1 → u.fld (A.ucSts t) F.ucSts.parErr = 1) ∧
    (s.reg (A.ucParCnt t)).toNat ≤ (u.reg (A.ucParCnt t)).toNat := by
  obtain ⟨v, ⟨hreg, herr, hcnt, hframe⟩, heq⟩ := s.fault_goes t q { cause := 0xE, info := info, pc := s.pc t q } bad hf
  have hpc : v.pc t q = s.pc t q := State.pc_of_reg (hreg _ (microRegs_not_seq t q (.inl rfl)))
  have htc : v.tc t q = s.tc t q := State.tc_of_reg (hreg _ (microRegs_not_seq t q (.inr (.inl rfl))))
  have hvalid : v.on (A.seqFault t q) F.seqFault.valid = s.on (A.seqFault t q) F.seqFault.valid :=
    State.on_of_reg (hreg _ (microRegs_not_seq t q (.inr (.inr (.inl rfl))))) _
  have hsid : v.runSid t = s.runSid t := State.runSid_of (fun a ha => hreg a (microRegs_not_seq t q (.inr (.inr (.inr ha)))))
    (fun p => by rw [hframe]; rfl) t
  obtain ⟨⟨h6, upc, utc, -, hflight, hnew, -, -, -, hmem⟩, hregs⟩ := v.enterFaulted_faults t q 0xE info (by decide)
  simp only [hpc] at h6 upc utc hflight hnew hmem hregs
  have huc (a : Nat) (ha : a = A.ucSts t ∨ a = A.ucParCnt t) : a ∉ faultRegs t q := fun hm =>
    ucRegs_not_faultRegs t q ha (List.mem_append_right _ hm)
  rw [heq]
  refine ⟨h6, upc, utc.trans htc, fun a => (hmem a).trans (by rw [hframe]; rfl), ?_, fun hv => ?_, fun h => ?_, ?_⟩
  · rw [hflight, htc, hsid]
    rw [hframe]
    rfl
  · obtain ⟨h1, h2, -, h3⟩ := hnew (hvalid.trans hv)
    exact ⟨h1, h2, h3⟩
  · exact (State.fld_of_reg (hregs _ (huc _ (.inl rfl))) _).trans (herr h)
  · rw [hregs _ (huc _ (.inr rfl))]
    exact hcnt

end Sys2Proof.Machine
end

section
/-! ## A first microword that a match register redirects (R120, R121) -/

namespace Sys2Proof.Machine

open Sys2Proof.Safety

/-! ### Its hit -/

/-- The hit of match register `m` is counted, and no microword is waited for. -/
theorem State.walked_one (s : State) (i q m : Nat) : SameRegs [A.ucHitCnt i m] s (s.walked i q [m]) ∧
    CountsUp (A.ucHitCnt i m) 1 s (s.walked i q [m]) ∧
    s.walked i q [m] = { s with regs := (s.walked i q [m]).regs, seqs := (s.walked i q [m]).seqs } :=
  ⟨fun _ ha => s.reg_bump_ne (List.ne_of_not_mem_cons ha), s.reg_bump _, rfl⟩

theorem ucHitCnt_addr (i m : Nat) : A.ucHitCnt i m = 0x1050200 + 0x80000 * i + 4 * m := rfl

theorem State.microFetch_first {s : State} {i m : Nat} (h : s.ucMatch i 0 = some m) :
    s.microFetch i 0 = ⟨0x2000 + s.fld (A.ucMatch i m) F.ucMatch.target,
      s.reg (A.ucPatchRam i (s.fld (A.ucMatch i m) F.ucMatch.target)), some m⟩ := State.microFetch_patched h (by decide)

theorem exec_nop_runs (s : State) (i : Tile) (q : Seq) (hrun : s.running i q = true) (hop : (s.insAt i q (s.pc i q)).op = 0) :
    exec (.nop i q .clean) s = .next (s.instr i q .clean (fun _ => 1) fun _ s => .next s) := by
  rw [exec_nop, execNop, s.instrRow_runs i q _ _ _ _ hrun (nop_ops (.inl hop))]

/-! ### A word with wrong parity -/

theorem microFault_parity {w : Word} (h : oddParity w = false) : microFault w = some 0 := by
  unfold microFault
  simp [h]

/-- The state in which a redirected first microword with wrong parity enters the fault routine. -/
def State.parityFaulting (s : State) (i q m : Nat) : State := ((s.walked i q [m]).microError i 0).addCycles i q 2

theorem exec_nop_badPatch {s : State} {i : Tile} {q : Seq} {m : Nat} (hrun : s.running i q = true)
    (hop : (s.insAt i q (s.pc i q)).op = 0) (hmatch : s.ucMatch i 0 = some m) (hm : (s.seq (sk i q)).micro = none)
    (hpar : oddParity (s.reg (A.ucPatchRam i (s.fld (A.ucMatch i m) F.ucMatch.target))) = false) :
    exec (.nop i q .clean) s = .next ((s.parityFaulting i q m).fault i q
      { cause := 0xE, info := BitVec.ofNat 32 (0x2000 + s.fld (A.ucMatch i m) F.ucMatch.target),
        pc := (s.parityFaulting i q m).pc i q } none) := by
  obtain ⟨cond, hw⟩ := s.insWalk_patched i q (s.insAt i q (s.pc i q)) (fun _ s => .next s) (State.patched_of_ucMatch hmatch)
  have hwalk := microWalk_fault (s.microFetch i) cond 511 0 0 (by
    rw [State.microFetch_first hmatch]
    exact microFault_parity hpar)
  rw [State.microFetch_first hmatch] at hwalk
  rw [hm, hop] at hw
  rw [exec_nop_runs s i q hrun hop, State.instr_redirected _ (by simp) rfl (hw.trans (congrArg some hwalk)),
    State.parityFaulting, State.pc_addCycles]
  rfl

theorem State.parityFaulting_spec (s : State) (i : Tile) (q : Seq) (m : Nat) (hm : m < 16) :
    SameRegs [A.ucHitCnt i m, A.ucSts i, A.ucParCnt i, A.seqCycLo i q, A.seqCycHi i q] s (s.parityFaulting i q m) ∧
    (s.parityFaulting i q m).fld (A.ucSts i) F.ucSts.parErr = 1 ∧ CountsUp (A.ucParCnt i) 1 s (s.parityFaulting i q m) ∧
    (∀ k, (s.parityFaulting i q m).tq k = s.tq k) ∧ (s.parityFaulting i q m).mem = s.mem ∧
    (s.parityFaulting i q m).tm = s.tm ∧ ∀ p, (s.parityFaulting i q m).sched p = s.sched p := by
  obtain ⟨hhit, -, -⟩ := s.walked_one i q m
  obtain ⟨herr, hparErr, hparCnt⟩ := (s.walked i q [m]).microError_parity i
  have hcyc := regWork_addCycles ((s.walked i q [m]).microError i 0) i q 2
  have hpar : A.ucParCnt i ∉ [A.ucHitCnt i m] := by
    simp only [List.mem_cons, List.not_mem_nil, or_false, A.ucParCnt, ucHitCnt_addr]
    omega
  have hkept (a : Nat) (ha : a = A.ucSts i ∨ a = A.ucParCnt i) : a ∉ [A.seqCycLo i q, A.seqCycHi i q] := by
    simp only [List.mem_cons, List.not_mem_nil, or_false, A.ucSts, A.ucParCnt, seqAddr] at ha ⊢
    omega
  refine ⟨fun a ha => ?_, (State.fld_of_reg (hcyc.1 _ (hkept _ (.inl rfl))) _).trans hparErr, ?_, fun k => ?_, ?_, ?_, fun p => ?_⟩
  · simp only [List.mem_cons, List.not_mem_nil, or_false, not_or] at ha
    obtain ⟨h1, h2, h3, h4, h5⟩ := ha
    exact (hcyc.1 a (by simp [h4, h5])).trans ((herr.1 a (by simp [h2, h3])).trans (hhit a (by simp [h1])))
  · unfold CountsUp at hparCnt ⊢
    rw [State.parityFaulting, hcyc.1 _ (hkept _ (.inr rfl)), hparCnt, hhit _ hpar]
  · exact (regWork_tq hcyc k).trans (regWork_tq herr k)
  · exact (regWork_mem hcyc).trans ((regWork_mem herr).trans rfl)
  · exact (regWork_tm hcyc).trans ((regWork_tm herr).trans rfl)
  · exact (regWork_sched hcyc p).trans (regWork_sched herr p)

theorem completes_nop_badPatch (s : State) (i : Tile) (q : Seq) (m : Nat) (hrun : s.running i q = true)
    (hf : s.queueFull (sk i q) = false) (hop : (s.insAt i q (s.pc i q)).op = 0) (hmatch : s.ucMatch i 0 = some m)
    (hm : (s.seq (sk i q)).micro = none)
    (hpar : oddParity (s.reg (A.ucPatchRam i (s.fld (A.ucMatch i m) F.ucMatch.target))) = false) :
    Completes (.nop i q .clean) s fun t =>
      t.seqState i q = 6 ∧ t.pc i q = s.pc i q ∧ t.tc i q = s.tc i q ∧ SameBytes s t ∧
      (t.tq (sk i q)).flight = (s.tq (sk i q)).flight ++
        [{ cmd := .endMarker, stamp := s.tc i q, sid := s.runSid i, issued := s.tm.now }] ∧
      (s.on (A.seqFault i q) F.seqFault.valid = false →
        t.fld (A.seqFault i q) F.seqFault.valid = 1 ∧ t.fld (A.seqFault i q) F.seqFault.cause = 0xE ∧
        t.reg (A.seqFaultInfo i q) = BitVec.ofNat 32 (0x2000 + s.fld (A.ucMatch i m) F.ucMatch.target)) ∧
      t.fld (A.ucSts i) F.ucSts.parErr = 1 ∧ min ((s.reg (A.ucParCnt i)).toNat + 1) 0xFFFFFFFF ≤ (t.reg (A.ucParCnt i)).toNat := by
  have hm16 := s.ucMatch_lt i 0 m hmatch
  obtain ⟨hregs, hparErr, hparCnt, htq, hmem, htm, hsched⟩ := s.parityFaulting_spec i q m hm16
  have hseq (a : Nat) (ha : a = A.seqPc i q ∨ a = A.seqTc i q ∨ a = A.seqFault i q ∨ a < 0x100) :
      (s.parityFaulting i q m).reg a = s.reg a := hregs a (by
    simp only [List.mem_cons, List.not_mem_nil, or_false, A.ucSts, A.ucParCnt, ucHitCnt_addr, seqAddr] at ha ⊢
    omega)
  have hfull : (s.parityFaulting i q m).queueFull (sk i q) = false := by
    unfold State.queueFull at hf ⊢
    rw [htq, hf]
  have htc : (s.parityFaulting i q m).tc i q = s.tc i q := State.tc_of_reg (hseq _ (.inr (.inl rfl)))
  have hsid : (s.parityFaulting i q m).runSid i = s.runSid i :=
    State.runSid_of (fun a ha => hseq a (.inr (.inr (.inr ha)))) hsched i
  obtain ⟨h6, upc, utc, ubytes, uflight, unew, uerr, ucnt⟩ := (s.parityFaulting i q m).fault_patched i q
    (BitVec.ofNat 32 (0x2000 + s.fld (A.ucMatch i m) F.ucMatch.target)) none hfull
  refine completes_of_exec (exec_nop_badPatch hrun hop hmatch hm hpar) ⟨h6, ?_, utc.trans htc, fun a => ?_, ?_, fun hv => unew ?_,
    uerr hparErr, ?_⟩
  · exact upc.trans (State.pc_of_reg (hseq _ (.inl rfl)))
  · rw [ubytes a]
    unfold State.byte
    rw [hmem]
  · rw [uflight, htq, htc, hsid, htm]
  · exact (State.on_of_reg (hseq _ (.inr (.inr (.inl rfl)))) _).trans hv
  · unfold CountsUp at hparCnt
    rw [← hparCnt]
    exact ucnt

/-! ### A word that ends the routine -/

theorem State.redirected_done (s : State) (i q : Nat) {x m : Ins} (hits : List Nat) (words : Nat) (d : List (BitVec 192))
    (bad : Option Nat) (body : Ins → State → IRes) (hx : opMask x.op = some m) :
    s.redirected i q x ⟨hits, words, d, bad, .dn⟩ body = s.finish i q words (s.driven i q d (s.judged i q x body)) bad := by
  unfold State.redirected
  simp only [hx, Option.isNone_some, Bool.false_eq_true, if_false]

theorem exec_nop_patched {s : State} {i : Tile} {q : Seq} {m : Nat} (hrun : s.running i q = true)
    (hx : s.insAt i q (s.pc i q) = ⟨0, 0, 0, 0, 0, 0, 0⟩) (hmatch : s.ucMatch i 0 = some m) (hm : (s.seq (sk i q)).micro = none)
    (hok : microFault (s.reg (A.ucPatchRam i (s.fld (A.ucMatch i m) F.ucMatch.target))) = none)
    (hd : mwDone (s.reg (A.ucPatchRam i (s.fld (A.ucMatch i m) F.ucMatch.target))) = true) :
    exec (.nop i q .clean) s = .next ((s.walked i q [m]).finish i q 1
      ((s.walked i q [m]).driven i q ((s.microFetch i 0).drive 0) (.next (s.walked i q [m])))) := by
  have hop : (s.insAt i q (s.pc i q)).op = 0 := by rw [hx]
  obtain ⟨cond, hw⟩ := s.insWalk_patched i q (s.insAt i q (s.pc i q)) (fun _ s => .next s) (State.patched_of_ucMatch hmatch)
  have hfetch := State.microFetch_first hmatch
  have hwalk := microWalk_done (s.microFetch i) cond 511 0 (by rw [hfetch]; exact hok) (by rw [hfetch]; exact hd)
  have hhits : (s.microFetch i 0).hits = [m] := by rw [hfetch]; rfl
  rw [hhits] at hwalk
  rw [hm, hop] at hw
  rw [exec_nop_runs s i q hrun hop, State.instr_redirected _ (by simp) rfl (hw.trans (congrArg some hwalk)), hx,
    State.redirected_done _ i q (m := ⟨0xFF, 0, 0, 0, 0, 0, 0⟩) _ _ _ _ _ rfl,
    State.judged_body _ i q _ ⟨0xFF, 0, 0, 0, 0, 0, 0⟩ _ rfl rfl rfl]

/-- What an instruction that steps on from its redirected fetch has done from the fetch on. -/
theorem steps_from_walked {s t : State} {i : Tile} {q : Seq} {m : Nat} {l : List Nat} (hm : m < 16)
    (hl : A.ucHitCnt i m ∉ l) (h : Steps l i q 1 (s.walked i q [m]) t) :
    CountsUp (A.ucHitCnt i m) 1 s t ∧ t.pc i q = s.pc i q + 1 ∧ Counts i q 1 s t ∧
    SameRegs (A.ucHitCnt i m :: l ++ seqMoves i q) s t ∧
    t = { s with regs := t.regs, holds := t.holds, tie := t.tie, seqs := t.seqs } := by
  obtain ⟨hregs, hcount, -⟩ := s.walked_one i q m
  obtain ⟨hpc, hticks, hsame, hframe⟩ := h
  have hmoves : A.ucHitCnt i m ∉ l ++ seqMoves i q := by
    rw [List.mem_append, not_or, mem_seqMoves]
    refine ⟨hl, ?_⟩
    simp only [ucHitCnt_addr, seqAddr]
    omega
  have hother (a : Nat) (ha : a ∈ seqMoves i q) : (s.walked i q [m]).reg a = s.reg a := hregs a (by
    simp only [mem_seqMoves, List.mem_cons, List.not_mem_nil, or_false, ucHitCnt_addr, seqAddr] at ha ⊢
    omega)
  refine ⟨?_, ?_, ?_, fun a ha => ?_, ?_⟩
  · unfold CountsUp at hcount ⊢
    rw [hsame _ hmoves, hcount]
  · rw [hpc, State.pc_of_reg (hother _ (by simp [seqMoves]))]
  · have h0 : Ticks i q 0 0 s (s.walked i q [m]) := ticks_of_counters fun a ha => hother a (by
      rw [mem_seqCounters] at ha
      rw [mem_seqMoves]
      exact .inr ha)
    exact counts_of_ticks (ticks_trans h0 hticks)
  · rw [List.cons_append, List.mem_cons, not_or] at ha
    exact (hsame a ha.2).trans (hregs a (by simpa using ha.1))
  · rw [hframe]
    rfl

theorem fallsThrough_walked {s : State} {i : Tile} {q : Seq} {m : Nat} (hm : m < 16) (h : FallsThrough s i q) :
    FallsThrough (s.walked i q [m]) i q :=
  fallsThrough_of_sameRegs h (s.walked_one i q m).1 fun a ha hr => by
    simp only [List.mem_cons, List.not_mem_nil, or_false, loopRegs, ucHitCnt_addr, seqAddr, seqAddrAt] at ha hr
    obtain hr | hr | ⟨k, hk, hr⟩ := hr <;> omega

/-- The registers that the nano-words of a changed routine may write. -/
def driveList (t q : Nat) : List Nat := A.seqTc t q :: (List.range 16).map (A.seqS t q)

theorem regWork_setSregs (t q : Nat) (f : Nat → Word) (l : List Nat) (s : State) :
    RegWork (l.map (A.seqS t q)) s (l.foldl (fun z i => z.setSreg t q i (f i)) s) := by
  induction l generalizing s with
  | nil => exact regWork_refl _ s
  | cons k l ih =>
    refine regWork_trans (regWork_mono (regWork_setReg s (A.seqS t q k) (f k)) fun a ha => ?_)
      (regWork_mono (ih _) fun a ha => List.mem_cons_of_mem _ ha)
    rw [List.mem_singleton.1 ha]
    exact List.mem_cons_self

theorem regWork_driveRegs (s s1 : State) (t q : Nat) (ds : List (BitVec 192)) : RegWork (driveList t q) s1 (s.driveRegs s1 t q ds) := by
  unfold State.driveRegs
  exact regWork_trans (regWork_mono (regWork_setSregs t q _ (List.range 16) s1) fun a ha => List.mem_cons_of_mem _ ha)
    (regWork_mono (regWork_setReg _ (A.seqTc t q) _) fun a ha => List.mem_singleton.1 ha ▸ List.mem_cons_self)

theorem mem_driveList (t q a : Nat) : a ∈ driveList t q ↔ a = A.seqTc t q ∨ ∃ k < 16, A.seqS t q k = a := by
  simp only [driveList, List.mem_cons, List.mem_map, List.mem_range]

theorem State.driven_nop (s : State) (i q : Nat) (ds : List (BitVec 192)) (h : ds ≠ []) :
    s.driven i q ds (.next s) = .next (s.driveRegs s i q ds) := by
  unfold State.driven
  simp only [h, if_false, ite_self]

theorem completes_nop_patched (s : State) (i : Tile) (q : Seq) (m : Nat) (hrun : s.running i q = true)
    (hx : s.insAt i q (s.pc i q) = ⟨0, 0, 0, 0, 0, 0, 0⟩) (hmatch : s.ucMatch i 0 = some m) (hm : (s.seq (sk i q)).micro = none)
    (hok : microFault (s.reg (A.ucPatchRam i (s.fld (A.ucMatch i m) F.ucMatch.target))) = none)
    (hd : mwDone (s.reg (A.ucPatchRam i (s.fld (A.ucMatch i m) F.ucMatch.target))) = true) (hfall : FallsThrough s i q) :
    let w := s.reg (A.ucPatchRam i (s.fld (A.ucMatch i m) F.ucMatch.target))
    (mwNano w = mwNano (romWord 0) →
      Completes (.nop i q .clean) s fun t => CountsUp (A.ucHitCnt i m) 1 s t ∧ t.pc i q = s.pc i q + 1 ∧ Counts i q 1 s t ∧
        SameRegs (A.ucHitCnt i m :: seqMoves i q) s t ∧
        t = { s with regs := t.regs, holds := t.holds, tie := t.tie, seqs := t.seqs }) ∧
    (mwNano w ≠ mwNano (romWord 0) →
      Completes (.nop i q .clean) s fun t => CountsUp (A.ucHitCnt i m) 1 s t ∧ t.pc i q = s.pc i q + 1 ∧ Counts i q 1 s t ∧
        SameRegs (A.ucHitCnt i m :: A.seqTc i q :: (List.range 16).map (A.seqS i q) ++ seqMoves i q) s t ∧
        t = { s with regs := t.regs, holds := t.holds, tie := t.tie, seqs := t.seqs }) := by
  have hm16 := s.ucMatch_lt i 0 m hmatch
  have hfallw := fallsThrough_walked (q := q) hm16 hfall
  have hexec := exec_nop_patched hrun hx hmatch hm hok hd
  have hdrive := congrArg (Micro.drive · 0) (State.microFetch_first hmatch)
  refine ⟨fun hnano => ?_, fun hnano => ?_⟩
  · have hnone : (s.microFetch i 0).drive 0 = [] := hdrive.trans (by simp [Micro.drive, hnano])
    rw [hnone] at hexec
    exact completes_of_exec hexec (steps_from_walked (l := []) hm16 (by simp)
      (State.finish_next_steps 1 none (regWork_refl [] _) (by simp) hfallw).1)
  · have hsome : (s.microFetch i 0).drive 0 ≠ [] := fun h => by
      have hnil := hdrive.symm.trans h
      simp [Micro.drive, hnano] at hnil
    rw [State.driven_nop _ _ _ _ hsome] at hexec
    have hwork := regWork_driveRegs (s.walked i q [m]) (s.walked i q [m]) i q ((s.microFetch i 0).drive 0)
    have hfalld := fallsThrough_of_sameRegs hfallw hwork.1 fun a ha hr => by
      simp only [mem_driveList, loopRegs, seqAddr, seqAddrAt] at ha hr
      obtain hr | hr | ⟨j, hj, hr⟩ := hr <;> obtain ha | ⟨k, hk, ha⟩ := ha <;> omega
    refine completes_of_exec hexec (steps_from_walked (l := driveList i q) hm16 ?_
      (State.finish_next_steps 1 none hwork (fun a ha => ?_) hfalld).1)
    · rw [mem_driveList]
      simp only [ucHitCnt_addr, seqAddr, seqAddrAt]
      rintro (h | ⟨k, hk, h⟩) <;> omega
    · simp only [mem_driveList, mem_seqMoves, seqAddr, seqAddrAt] at ha ⊢
      obtain ha | ⟨k, hk, ha⟩ := ha <;> omega

end Sys2Proof.Machine
end

section
/-! ## Writes of a sequencer's control register (R83, R88, R115, R124, R303) -/

namespace Sys2Proof.Machine

open Sys2Proof.Safety

/-! ### The word that is written -/

theorem getF_putF_apart (v : Word) (f g : Fld) (x : Nat) (h : f.ok) (d : f.hi < g.lo ∨ g.hi < f.lo) :
    getF (putF v f x) g = getF v g := d.elim (getF_putF_above v f g x h) (getF_putF_below v f g x h)

/-- The fields of SEQ_CTL that a host write of `w` asks for. -/
def SameCtl (v w : Word) : Prop := getF v F.seqCtl.startPc = getF w F.seqCtl.startPc ∧
  getF v F.seqCtl.enable = getF w F.seqCtl.enable ∧ getF v F.seqCtl.faultRestart = getF w F.seqCtl.faultRestart

/-- A write of CLR_FAULT asks for the other fields as they stand in the word. -/
theorem sameCtl_or_two (w : Word) : SameCtl (w ||| 2) w ∧ getF (w ||| 2) F.seqCtl.clrFault = 1 := by
  have hor (f : Fld) (h : getF (2 : Word) f = 0) : getF (w ||| 2) f = getF w f := by rw [getF_or, h, Nat.or_zero]
  refine ⟨⟨hor _ rfl, hor _ rfl, hor _ rfl⟩, ?_⟩
  have hlt := getF_lt w F.seqCtl.clrFault
  have h2 : getF (2 : Word) F.seqCtl.clrFault = 1 := rfl
  rw [getF_or, h2]
  have : getF w F.seqCtl.clrFault = 0 ∨ getF w F.seqCtl.clrFault = 1 := by
    simp only [F.seqCtl.clrFault] at hlt ⊢
    omega
  rcases this with h | h <;> rw [h] <;> rfl

theorem sameCtl_putF (w : Word) : SameCtl (putF w F.seqCtl.clrFault 0) w ∧ getF (putF w F.seqCtl.clrFault 0) F.seqCtl.clrFault = 0 :=
  ⟨⟨getF_putF_apart _ _ _ _ (by decide) (by decide), getF_putF_apart _ _ _ _ (by decide) (by decide),
    getF_putF_apart _ _ _ _ (by decide) (by decide)⟩, getF_putF_same _ _ _ (by decide)⟩

theorem State.seqCtlWord_idle (s : State) (t q : Nat) (w : Word) (h : s.seqIdle t q = true) : s.seqCtlWord t q w = w := if_pos h

/-- While the sequencer is not idle START_PC and ENABLE keep their values, and the other fields are written. -/
theorem State.seqCtlWord_busy (s : State) (t q : Nat) (w : Word) (h : s.seqIdle t q = false) :
    getF (s.seqCtlWord t q w) F.seqCtl.startPc = s.fld (A.seqCtl t q) F.seqCtl.startPc ∧
    getF (s.seqCtlWord t q w) F.seqCtl.enable = s.fld (A.seqCtl t q) F.seqCtl.enable ∧
    getF (s.seqCtlWord t q w) F.seqCtl.faultRestart = getF w F.seqCtl.faultRestart := by
  have hword : s.seqCtlWord t q w = putF (putF w F.seqCtl.startPc (s.fld (A.seqCtl t q) F.seqCtl.startPc)) F.seqCtl.enable
      (s.fld (A.seqCtl t q) F.seqCtl.enable) := if_neg (by simp [h])
  rw [hword]
  refine ⟨?_, ?_, ?_⟩
  · rw [getF_putF_apart _ _ _ _ (by decide) (by decide), getF_putF_same _ _ _ (by decide)]
    exact Nat.mod_eq_of_lt (getF_lt _ F.seqCtl.startPc)
  · rw [getF_putF_same _ _ _ (by decide)]
    exact Nat.mod_eq_of_lt (getF_lt _ F.seqCtl.enable)
  · rw [getF_putF_apart _ _ _ _ (by decide) (by decide), getF_putF_apart _ _ _ _ (by decide) (by decide)]

theorem State.seqCtlWord_eq_iff (s : State) (t q : Nat) (w : Word) (h : s.seqIdle t q = false) : s.seqCtlWord t q w = w ↔
    getF w F.seqCtl.startPc = s.fld (A.seqCtl t q) F.seqCtl.startPc ∧ getF w F.seqCtl.enable = s.fld (A.seqCtl t q) F.seqCtl.enable := by
  obtain ⟨hstart, hen, -⟩ := s.seqCtlWord_busy t q w h
  refine ⟨fun heq => ?_, fun ⟨h1, h2⟩ => ?_⟩
  · rw [heq] at hstart hen
    exact ⟨hstart, hen⟩
  · have hword : s.seqCtlWord t q w = putF (putF w F.seqCtl.startPc (s.fld (A.seqCtl t q) F.seqCtl.startPc)) F.seqCtl.enable
        (s.fld (A.seqCtl t q) F.seqCtl.enable) := if_neg (by simp [h])
    rw [hword, ← h1, ← h2, putF_getF_self _ _ (by decide), putF_getF_self _ _ (by decide)]

theorem State.seqCtlWord_same (s : State) (t q : Nat) (w : Word) (h1 : getF w F.seqCtl.startPc = s.fld (A.seqCtl t q) F.seqCtl.startPc)
    (h2 : getF w F.seqCtl.enable = s.fld (A.seqCtl t q) F.seqCtl.enable) : s.seqCtlWord t q w = w := by
  cases h : s.seqIdle t q with
  | true => exact s.seqCtlWord_idle t q w h
  | false => exact (s.seqCtlWord_eq_iff t q w h).2 ⟨h1, h2⟩

/-! ### The register, and the effect of the write -/

/-- SEQ_CTL of (t, q) has taken the host's word `w`. -/
def State.ctlTaken (s : State) (t q : Nat) (w : Word) : State :=
  s.setReg (A.seqCtl t q) (s.hostMerged spec_seqCtl (A.seqCtl t q) w)

theorem State.ctlTaken_onlyRegs (s : State) (t q : Nat) (w : Word) : OnlyRegs [A.seqCtl t q] s (s.ctlTaken t q w) :=
  onlyRegs_setReg s _ _ _ (by simp)

theorem State.reg_ctlTaken_ne (s : State) (t q : Nat) (w : Word) {a : Nat} (h : a ≠ A.seqCtl t q) :
    (s.ctlTaken t q w).reg a = s.reg a := s.reg_setReg_ne _ h

theorem State.cfg_setReg (s : State) (a : Nat) (v : Word) : (s.setReg a v).cfg = s.cfg := rfl

theorem State.cfg_ctlTaken (s : State) (t q : Nat) (w : Word) : (s.ctlTaken t q w).cfg = s.cfg := by
  rw [State.ctlTaken, State.cfg_setReg]

theorem State.mem_ctlTaken (s : State) (t q : Nat) (w : Word) : (s.ctlTaken t q w).mem = s.mem := by
  rw [State.ctlTaken]
  exact (State.setReg_keeps s _ _).1

theorem State.ctlTaken_takes (s : State) (t q : Nat) (w : Word) : Takes spec_seqCtl (A.seqCtl t q) w s (s.ctlTaken t q w) :=
  State.takes_of_reg (by decide) (s.reg_setReg_same _ _)

/-- Before sealing the fields of SEQ_CTL take the word (R124). -/
theorem State.ctlTaken_open (s : State) (t q : Nat) (w : Word) (h : s.isSealed = false) :
    (s.ctlTaken t q w).fld (A.seqCtl t q) F.seqCtl.startPc = getF w F.seqCtl.startPc ∧
    (s.ctlTaken t q w).fld (A.seqCtl t q) F.seqCtl.enable = getF w F.seqCtl.enable ∧
    (s.ctlTaken t q w).fld (A.seqCtl t q) F.seqCtl.faultRestart = getF w F.seqCtl.faultRestart := by
  have htakes := s.ctlTaken_takes t q w
  have hstart := htakes ⟨F.seqCtl.startPc, .rw, true⟩ (by decide)
  have hen := htakes ⟨F.seqCtl.enable, .rw, true⟩ (by decide)
  have hrestart := htakes ⟨F.seqCtl.faultRestart, .rw, false⟩ (by decide)
  simp only [h, Bool.false_eq_true, false_and, if_false] at hstart hen hrestart
  exact ⟨hstart, hen, hrestart⟩

/-- After sealing START_PC and ENABLE stay (R303). -/
theorem State.ctlTaken_sealed (s : State) (t q : Nat) (w : Word) (h : s.isSealed = true) :
    (s.ctlTaken t q w).fld (A.seqCtl t q) F.seqCtl.startPc = s.fld (A.seqCtl t q) F.seqCtl.startPc ∧
    (s.ctlTaken t q w).fld (A.seqCtl t q) F.seqCtl.enable = s.fld (A.seqCtl t q) F.seqCtl.enable ∧
    (s.ctlTaken t q w).fld (A.seqCtl t q) F.seqCtl.faultRestart = getF w F.seqCtl.faultRestart := by
  have htakes := s.ctlTaken_takes t q w
  have hstart := htakes ⟨F.seqCtl.startPc, .rw, true⟩ (by decide)
  have hen := htakes ⟨F.seqCtl.enable, .rw, true⟩ (by decide)
  have hrestart := htakes ⟨F.seqCtl.faultRestart, .rw, false⟩ (by decide)
  simp only [h, true_and, Bool.false_eq_true, if_true, if_false] at hstart hen hrestart
  exact ⟨hstart, hen, hrestart⟩

/-- What follows the write of SEQ_CTL: `w` is the word written, `w1` what the register was offered. -/
def State.ctlEffect (s : State) (t q : Nat) (w1 w : Word) (s1 : State) : State :=
  let s2 := if w1 = w then s1 else s1.raise (A.seqSts t q) F.seqSts.wrIgnored 1
  let s3 := s2.seqEnable t q (s.on (A.seqCtl t q) F.seqCtl.enable) (s2.on (A.seqCtl t q) F.seqCtl.enable)
  if getF w F.seqCtl.clrFault = 1 then s3.clearFault t q else s3

theorem State.writeSeqCtl_open (s : State) (t q : Nat) (w : Word) (hs : s.isSealed = false) : s.writeSeqCtl .host t q w =
    s.write .host spec_seqCtl (A.seqCtl t q) (s.seqCtlWord t q w) none (s.ctlEffect t q (s.seqCtlWord t q w) w) := by
  have hw1 : (if (s.locked .host || Req.host == .mgmt) = true then w else s.seqCtlWord t q w) = s.seqCtlWord t q w := by
    rw [s.locked_host, hs]
    exact if_neg (by decide)
  unfold State.writeSeqCtl State.ctlEffect
  rw [hw1]

theorem State.hostWrite_writeSeqCtl (s : State) (t q : Nat) (w : Word) (h : HostOpen s (A.seqCtl t q)) (hs : s.isSealed = false) :
    State.hostWrite (s.writeSeqCtl .host t q w) (A.seqCtl t q) =
      s.ctlEffect t q (s.seqCtlWord t q w) w (s.ctlTaken t q (s.seqCtlWord t q w)) := by
  rw [s.writeSeqCtl_open t q w hs, s.hostWrite_eff _ _ _ _ _ _ h rfl (.inl hs), State.ctlTaken]

theorem State.seqEnable_same (s : State) (t q : Nat) (b : Bool) : s.seqEnable t q b b = s := by
  unfold State.seqEnable
  simp

theorem State.on_eq_of_fld {s u : State} {a : Nat} {f : Fld} (h : u.fld a f = s.fld a f) : u.on a f = s.on a f := by
  unfold State.on
  rw [h]

/-- A write that leaves ENABLE as it was does nothing but tell of the fields that it could not change. -/
theorem State.ctlEffect_steady (s : State) (t q : Nat) (w1 w : Word) (s1 : State)
    (hen : s1.fld (A.seqCtl t q) F.seqCtl.enable = s.fld (A.seqCtl t q) F.seqCtl.enable) :
    s.ctlEffect t q w1 w s1 =
      (if getF w F.seqCtl.clrFault = 1
      then (if w1 = w then s1 else s1.raise (A.seqSts t q) F.seqSts.wrIgnored 1).clearFault t q
      else if w1 = w then s1 else s1.raise (A.seqSts t q) F.seqSts.wrIgnored 1) := by
  have hne : A.seqCtl t q ≠ A.seqSts t q := by simp only [seqAddr]; omega
  have hon : (if w1 = w then s1 else s1.raise (A.seqSts t q) F.seqSts.wrIgnored 1).on (A.seqCtl t q) F.seqCtl.enable =
      s.on (A.seqCtl t q) F.seqCtl.enable := by
    split
    · exact State.on_eq_of_fld hen
    · exact State.on_eq_of_fld ((s1.fld_raise_ne _ _ _ hne).trans hen)
  unfold State.ctlEffect
  simp only [hon, State.seqEnable_same]

/-- A write of the whole word, without CLR_FAULT. -/
theorem State.ctlEffect_whole (s : State) (t q : Nat) (w : Word) (s1 : State) (h : getF w F.seqCtl.clrFault = 0) :
    s.ctlEffect t q w w s1 =
      s1.seqEnable t q (s.on (A.seqCtl t q) F.seqCtl.enable) (s1.on (A.seqCtl t q) F.seqCtl.enable) := by
  unfold State.ctlEffect
  simp only [h, Nat.zero_ne_one, if_false, if_true]

/-! ### CLR_FAULT (R115) -/

/-- A hold knows of the fault of sequencer `k` no more. -/
def State.holdForgets (s : State) (k : Nat) : State :=
  { s with cfg := { s.cfg with hold := s.cfg.hold.map fun h => { h with faulted := h.faulted.erase k } } }

theorem State.regs_holdForgets (s : State) (k : Nat) : (s.holdForgets k).regs = s.regs := rfl

theorem State.mem_holdForgets (s : State) (k : Nat) : (s.holdForgets k).mem = s.mem := rfl

theorem CfgX.hold_none (c : CfgX) (f : HoldX → HoldX) (h : c.hold = none) : { c with hold := c.hold.map f } = c := by
  rw [h, Option.map_none, ← h]

theorem State.holdForgets_none (s : State) (k : Nat) (h : s.cfg.hold = none) : s.holdForgets k = s := by
  unfold State.holdForgets
  rw [CfgX.hold_none _ _ h]

/-- The recorded fault of (t, q) is gone. -/
def State.faultCleared (s : State) (t q : Nat) : State := (s.setFld (A.seqFault t q) F.seqFault.valid 0).holdForgets (sk t q)

/-- The state in which a preload leaves a sequencer: IDLE while its plot is STOPPED, or without one, and WAIT_SHOT otherwise. -/
def State.waitCode (s : State) (t : Nat) : Nat := match s.plotOf t with | some p => if s.stopped p then 0 else 1 | none => 0

theorem State.waitCode_none {s : State} {t : Nat} (h : s.plotOf t = none) : s.waitCode t = 0 := by
  unfold State.waitCode
  rw [h]

theorem State.waitCode_some {s : State} {t p : Nat} (h : s.plotOf t = some p) : s.waitCode t = if s.stopped p then 0 else 1 := by
  unfold State.waitCode
  rw [h]

theorem State.faultCleared_regs (s : State) (t q : Nat) :
    (s.faultCleared t q).regs = (s.setFld (A.seqFault t q) F.seqFault.valid 0).regs := by
  rw [State.faultCleared, State.regs_holdForgets]

theorem State.faultCleared_mem (s : State) (t q : Nat) : (s.faultCleared t q).mem = s.mem := by
  rw [State.faultCleared, State.mem_holdForgets]
  exact (s.setFld_keeps (A.seqFault t q) F.seqFault.valid 0).1

theorem State.faultCleared_sameRegs (s : State) (t q : Nat) : SameRegs [A.seqFault t q] s (s.faultCleared t q) := fun a ha =>
  (State.reg_of_regs (s.faultCleared_regs t q) a).trans (s.reg_setReg_ne _ (List.ne_of_not_mem_cons ha))

theorem State.faultCleared_valid (s : State) (t q : Nat) : (s.faultCleared t q).fld (A.seqFault t q) F.seqFault.valid = 0 :=
  (State.fld_of_regs (s.faultCleared_regs t q) _ _).trans
    ((s.fld_setFld_same (A.seqFault t q) F.seqFault.valid 0 (by decide)).trans (Nat.zero_mod _))

theorem State.clearFault_preloads (s : State) (t q : Nat)
    (h : s.seqState t q = 6 ∨ (s.seqState t q = 0 ∧ s.on (A.seqFault t q) F.seqFault.valid = true)) :
    s.clearFault t q = (s.faultCleared t q).preloadTo t q (s.waitCode t) ((s.faultCleared t q).seq (sk t q)) := by
  have hcode : (if (match s.plotOf t with | some p => s.stopped p | none => true) = true then 0 else 1) = s.waitCode t := by
    cases hp : s.plotOf t with
    | none => rw [State.waitCode_none hp, if_pos rfl]
    | some p => rw [State.waitCode_some hp]
  unfold State.clearFault
  simp only [h, if_true]
  rw [← hcode]
  rfl

theorem State.clearFault_rests (s : State) (t q : Nat) (h6 : s.seqState t q ≠ 6)
    (hv : s.on (A.seqFault t q) F.seqFault.valid = false) : s.clearFault t q = s.faultCleared t q := by
  unfold State.clearFault
  simp only [h6, hv, Bool.false_eq_true, and_false, or_false, if_false]
  rfl

/-- The status registers of a sequencer that a preload leaves. -/
theorem State.reg_preloadTo (s : State) (t q code : Nat) (x : SeqX) (hq : q < 34) (hp : s.patched t = false) {a : Nat}
    (ha : A.seqCtl t q ≤ a ∧ a < A.seqCtl t q + 0x40)
    (hn : a ∉ [A.seqSts t q, A.seqPc t q, A.seqCycLo t q, A.seqCycHi t q]) : (s.preloadTo t q code x).reg a = s.reg a := by
  simp only [List.mem_cons, List.not_mem_nil, or_false, not_or] at hn
  obtain ⟨hsts, hpc, hlo, hhi⟩ := hn
  rw [s.preloadTo_unpatched t q code x hq hp, State.reg_setSeq]
  refine ((regWork_setSeqState _ t q code).1 a (by simp [hsts])).trans ?_
  rw [s.preload_eq, State.reg_addCycles _ t q 4 a ⟨hlo, hhi⟩]
  refine ((regWork_setPc _ t q _).1 a (by simp [hpc])).trans (((regWork_setDepth _ t q 0).1 a (by simp [hsts])).trans ?_)
  exact s.preload_early_reg t q a (fun i hi => by simp only [seqAddr, seqAddrAt] at ha ⊢; omega)
    (fun i hi => by simp only [seqAddr, seqAddrAt] at ha ⊢; omega)

/-- A preloaded sequencer's words are those that the state before the write holds. -/
theorem preloaded_of {i q : Nat} {s u t : State} (h : Preloaded i q u t) (hmem : u.mem = s.mem)
    (hstart : u.fld (A.seqCtl i q) F.seqCtl.startPc = s.fld (A.seqCtl i q) F.seqCtl.startPc) : Preloaded i q s t := by
  obtain ⟨hs, hd, hpc⟩ := h
  refine ⟨fun k hk => (hs k hk).trans ?_, hd, hpc.trans hstart⟩
  unfold State.dm State.word State.byte
  rw [hmem]

theorem exec_clrFault_same {s : State} {i : Tile} {q : Seq} {w : Word} (h : HostOpen s (A.seqCtl i q)) (hs : s.isSealed = false)
    (hstart : getF w F.seqCtl.startPc = s.fld (A.seqCtl i q) F.seqCtl.startPc)
    (hen : getF w F.seqCtl.enable = s.fld (A.seqCtl i q) F.seqCtl.enable) :
    exec (.clrFault i q w) s = .next ((s.ctlTaken i q (w ||| 2)).clearFault i q) := by
  obtain ⟨⟨h1, h2, -⟩, hclr⟩ := sameCtl_or_two w
  have hword := s.seqCtlWord_same i q (w ||| 2) (h1.trans hstart) (h2.trans hen)
  have htaken := (s.ctlTaken_open i q (w ||| 2) hs).2.1
  rw [exec_clrFault, execClrFault, s.hostWrite_writeSeqCtl i q _ h hs, hword,
    s.ctlEffect_steady i q _ _ _ (htaken.trans (h2.trans hen))]
  simp only [hclr, if_true]

/-- The registers from which the state, the plot and the patches of a sequencer are known stand after a write of SEQ_CTL. -/
theorem State.ctlTaken_kept (s : State) (i : Tile) (q : Seq) (w : Word) : (s.ctlTaken i q w).seqState i q = s.seqState i q ∧
    (s.ctlTaken i q w).on (A.seqFault i q) F.seqFault.valid = s.on (A.seqFault i q) F.seqFault.valid ∧
    (s.ctlTaken i q w).plotOf i = s.plotOf i ∧ (∀ p, p < 8 → (s.ctlTaken i q w).stopped p = s.stopped p) ∧
    (s.ctlTaken i q w).patched i = s.patched i ∧ (s.ctlTaken i q w).role i q = s.role i q := by
  have hreg {a : Nat} (h : a ≠ A.seqCtl i q) := s.reg_ctlTaken_ne i q w h
  refine ⟨State.seqState_of_reg (hreg (by simp only [seqAddr]; omega)), State.on_of_reg (hreg (by simp only [seqAddr]; omega)) _, ?_,
    fun p hp => ?_, State.patched_of_sameRegs i (s.ctlTaken_onlyRegs i q w).1 fun m hm => ?_, State.role_of_regs (hreg ?_)⟩
  · unfold State.plotOf
    rw [State.fld_of_reg (hreg (by simp only [A.glbTilePlot, seqAddr]; omega))]
  · unfold State.stopped State.runState
    rw [State.fld_of_reg (hreg (by simp only [A.runSts, seqAddr]; omega))]
  · simp only [List.mem_cons, List.not_mem_nil, or_false, A.ucMatch, seqAddr]
    omega
  · simp only [A.tilePlaceSts, seqAddr]
    omega

theorem State.plotOf_lt {s : State} {t p : Nat} (h : s.plotOf t = some p) : p < 8 := by
  unfold State.plotOf at h
  simp only at h
  split at h
  · cases h
    omega
  · cases h

theorem State.waitCode_ctlTaken (s : State) (i : Tile) (q : Seq) (w : Word) : (s.ctlTaken i q w).waitCode i = s.waitCode i := by
  obtain ⟨-, -, hplot, hstopped, -⟩ := s.ctlTaken_kept i q w
  cases hp : s.plotOf i with
  | none => rw [State.waitCode_none hp, State.waitCode_none (hplot.trans hp)]
  | some p => rw [State.waitCode_some hp, State.waitCode_some (hplot.trans hp), hstopped p (State.plotOf_lt hp)]

theorem State.waitCode_lt (s : State) (t : Nat) : s.waitCode t < 8 := by
  unfold State.waitCode
  split
  · split <;> decide
  · decide

theorem completes_clrFault_preloads (s : State) (i : Tile) (q : Seq) (w : Word) (h : HostOpen s (A.seqCtl i q))
    (hs : s.isSealed = false) (hstart : getF w F.seqCtl.startPc = s.fld (A.seqCtl i q) F.seqCtl.startPc)
    (hen : getF w F.seqCtl.enable = s.fld (A.seqCtl i q) F.seqCtl.enable)
    (hst : s.seqState i q = 6 ∨ (s.seqState i q = 0 ∧ s.on (A.seqFault i q) F.seqFault.valid = true)) (hp : s.patched i = false) :
    Completes (.clrFault i q w) s fun t => t.on (A.seqFault i q) F.seqFault.valid = false ∧ Preloaded i q s t ∧
      t.seqState i q = s.waitCode i := by
  obtain ⟨hstate, hvalid, -, -, hpatched, -⟩ := s.ctlTaken_kept i q (w ||| 2)
  have hctl := (s.ctlTaken_open i q (w ||| 2) hs).1.trans ((sameCtl_or_two w).1.1.trans hstart)
  have hexec := exec_clrFault_same h hs hstart hen
  rw [State.clearFault_preloads _ i q (by rwa [hstate, hvalid]), s.waitCode_ctlTaken] at hexec
  generalize hu : s.ctlTaken i q (w ||| 2) = u at *
  have hfault := u.faultCleared_sameRegs i q
  have hp' : (u.faultCleared i q).patched i = false := (State.patched_of_sameRegs i hfault fun m hm => by
    simp only [List.mem_cons, List.not_mem_nil, or_false, A.ucMatch, seqAddr]
    omega).trans (hpatched.trans hp)
  obtain ⟨hcode, -, hloaded, -⟩ := (u.faultCleared i q).preloadTo_spec i q (s.waitCode i) ((u.faultCleared i q).seq (sk i q)) q.isLt
    (s.waitCode_lt i) hp'
  refine completes_of_exec hexec ⟨?_, preloaded_of hloaded ?_ ?_, hcode⟩
  · have hkept := (u.faultCleared i q).reg_preloadTo i q (s.waitCode i) ((u.faultCleared i q).seq (sk i q)) q.isLt hp'
      (a := A.seqFault i q) (by simp only [seqAddr]; omega)
      (by simp only [List.mem_cons, List.not_mem_nil, or_false, seqAddr]; omega)
    rw [State.on_of_reg hkept, State.on, u.faultCleared_valid]
    rfl
  · rw [u.faultCleared_mem, ← hu, s.mem_ctlTaken]
  · exact (State.fld_of_reg (hfault _ (by
      simp only [List.mem_cons, List.not_mem_nil, or_false, seqAddr]
      omega)) _).trans hctl

/-- Without a hold a cleared fault is a cleared bit. -/
theorem State.faultCleared_onlyRegs (s : State) (t q : Nat) (h : s.cfg.hold = none) : OnlyRegs [A.seqFault t q] s (s.faultCleared t q) := by
  rw [State.faultCleared, State.holdForgets_none _ _ (by rw [State.setFld, State.cfg_setReg, h])]
  exact onlyRegs_setFld s _ _ _ _ (by simp)

theorem completes_clrFault_rests (s : State) (i : Tile) (q : Seq) (w : Word) (h : HostOpen s (A.seqCtl i q))
    (hs : s.isSealed = false) (hstart : getF w F.seqCtl.startPc = s.fld (A.seqCtl i q) F.seqCtl.startPc)
    (hen : getF w F.seqCtl.enable = s.fld (A.seqCtl i q) F.seqCtl.enable) (h6 : s.seqState i q ≠ 6)
    (hv : s.on (A.seqFault i q) F.seqFault.valid = false) (hold : s.cfg.hold = none) :
    Completes (.clrFault i q w) s fun t => OnlyRegs [A.seqCtl i q, A.seqFault i q] s t := by
  obtain ⟨hstate, hvalid, -⟩ := s.ctlTaken_kept i q (w ||| 2)
  have hexec := exec_clrFault_same h hs hstart hen
  rw [State.clearFault_rests _ i q (by rwa [hstate]) (hvalid.trans hv)] at hexec
  exact completes_of_exec hexec (onlyRegs_trans (onlyRegs_mono (s.ctlTaken_onlyRegs i q _) (by simp))
    (onlyRegs_mono (State.faultCleared_onlyRegs (s.ctlTaken i q (w ||| 2)) i q (by rw [s.cfg_ctlTaken, hold])) (by simp)))

/-! ### Writes of SEQ_CTL (R124) -/

theorem exec_seqCtlWrite_open {s : State} {i : Tile} {q : Seq} (w : Word) (h : HostOpen s (A.seqCtl i q)) (hs : s.isSealed = false) :
    let v := putF w F.seqCtl.clrFault 0
    exec (.seqCtlWrite i q w) s = .next (s.ctlEffect i q (s.seqCtlWord i q v) v (s.ctlTaken i q (s.seqCtlWord i q v))) := by
  rw [exec_seqCtlWrite, execSeqCtlWrite, s.hostWrite_writeSeqCtl i q _ h hs]

/-- A write to an idle sequencer is taken whole. -/
theorem exec_seqCtlWrite_idle {s : State} {i : Tile} {q : Seq} (w : Word) (h : HostOpen s (A.seqCtl i q)) (hs : s.isSealed = false)
    (hidle : s.seqIdle i q = true) : exec (.seqCtlWrite i q w) s = .next ((s.ctlTaken i q (putF w F.seqCtl.clrFault 0)).seqEnable i q
      (s.on (A.seqCtl i q) F.seqCtl.enable) ((s.ctlTaken i q (putF w F.seqCtl.clrFault 0)).on (A.seqCtl i q) F.seqCtl.enable)) := by
  rw [exec_seqCtlWrite_open w h hs, s.seqCtlWord_idle i q _ hidle, State.ctlEffect_whole _ _ _ _ _ (sameCtl_putF w).2]

theorem completes_seqCtlWrite_idle (s : State) (i : Tile) (q : Seq) (w : Word) (h : HostOpen s (A.seqCtl i q)) (hs : s.isSealed = false)
    (hidle : s.seqIdle i q = true) (hen : getF w F.seqCtl.enable = s.fld (A.seqCtl i q) F.seqCtl.enable) :
    Completes (.seqCtlWrite i q w) s fun t =>
      t.fld (A.seqCtl i q) F.seqCtl.startPc = getF w F.seqCtl.startPc ∧
      t.fld (A.seqCtl i q) F.seqCtl.faultRestart = getF w F.seqCtl.faultRestart ∧ OnlyRegs [A.seqCtl i q] s t := by
  obtain ⟨h1, h2, h3⟩ := (sameCtl_putF w).1
  obtain ⟨t1, t2, t3⟩ := s.ctlTaken_open i q (putF w F.seqCtl.clrFault 0) hs
  have hexec := exec_seqCtlWrite_idle w h hs hidle
  rw [State.on_eq_of_fld (t2.trans (h2.trans hen)), State.seqEnable_same] at hexec
  exact completes_of_exec hexec ⟨t1.trans h1, t3.trans h3, s.ctlTaken_onlyRegs i q _⟩

theorem completes_seqCtlWrite_busy (s : State) (i : Tile) (q : Seq) (w : Word) (h : HostOpen s (A.seqCtl i q)) (hs : s.isSealed = false)
    (hbusy : s.seqIdle i q = false) :
    Completes (.seqCtlWrite i q w) s fun t =>
      t.fld (A.seqCtl i q) F.seqCtl.startPc = s.fld (A.seqCtl i q) F.seqCtl.startPc ∧
      t.fld (A.seqCtl i q) F.seqCtl.enable = s.fld (A.seqCtl i q) F.seqCtl.enable ∧
      t.fld (A.seqCtl i q) F.seqCtl.faultRestart = getF w F.seqCtl.faultRestart ∧
      t.fld (A.seqSts i q) F.seqSts.wrIgnored =
        (if getF w F.seqCtl.startPc = s.fld (A.seqCtl i q) F.seqCtl.startPc ∧
            getF w F.seqCtl.enable = s.fld (A.seqCtl i q) F.seqCtl.enable then s.fld (A.seqSts i q) F.seqSts.wrIgnored
          else 1) ∧ OnlyRegs [A.seqCtl i q, A.seqSts i q] s t := by
  obtain ⟨⟨h1, h2, h3⟩, hclr⟩ := sameCtl_putF w
  have hexec := exec_seqCtlWrite_open w h hs
  generalize putF w F.seqCtl.clrFault 0 = v at h1 h2 h3 hclr hexec
  obtain ⟨hstart, hen, hrestart⟩ := s.seqCtlWord_busy i q v hbusy
  have hiff := s.seqCtlWord_eq_iff i q v hbusy
  rw [h1, h2] at hiff
  obtain ⟨t1, t2, t3⟩ := s.ctlTaken_open i q (s.seqCtlWord i q v) hs
  have honly := s.ctlTaken_onlyRegs i q (s.seqCtlWord i q v)
  have hsts : (s.ctlTaken i q (s.seqCtlWord i q v)).fld (A.seqSts i q) F.seqSts.wrIgnored = s.fld (A.seqSts i q) F.seqSts.wrIgnored :=
    State.fld_of_reg (s.reg_ctlTaken_ne i q _ (by simp only [seqAddr]; omega)) _
  have hne : A.seqCtl i q ≠ A.seqSts i q := by simp only [seqAddr]; omega
  simp only [s.ctlEffect_steady i q _ _ _ (t2.trans hen), hclr, Nat.zero_ne_one, if_false] at hexec
  refine completes_of_exec hexec ?_
  have hs1 := t1.trans hstart
  have hs2 := t2.trans hen
  have hs3 := t3.trans (hrestart.trans h3)
  by_cases heq : s.seqCtlWord i q v = v
  · rw [if_pos heq, if_pos (hiff.1 heq)]
    exact ⟨hs1, hs2, hs3, hsts, onlyRegs_mono honly (by simp)⟩
  · rw [if_neg heq, if_neg fun hc => heq (hiff.2 hc)]
    exact ⟨(State.fld_raise_ne _ _ _ _ hne).trans hs1, (State.fld_raise_ne _ _ _ _ hne).trans hs2,
      (State.fld_raise_ne _ _ _ _ hne).trans hs3,
      State.fld_raise_bit _ _ _ (by decide) rfl, onlyRegs_trans (onlyRegs_mono honly (by simp)) (onlyRegs_raiseReg _ _ _ _ (by simp))⟩

end Sys2Proof.Machine
end

section
/-! ## ENABLE, the seal, and what settles O25 (R83, R124, R303) -/

namespace Sys2Proof.Machine

open Sys2Proof.Safety

/-! ### ENABLE set and cleared (R124) -/

theorem State.off_idle {s : State} {t q : Nat} (h : s.seqState t q = 7) : s.seqIdle t q = true := by
  unfold State.seqIdle
  rw [h]
  rfl

theorem State.on_of_one {s : State} {a : Nat} {f : Fld} (h : s.fld a f = 1) : s.on a f = true := by
  unfold State.on
  rw [h]
  rfl

theorem State.on_of_zero {s : State} {a : Nat} {f : Fld} (h : s.fld a f = 0) : s.on a f = false := by
  unfold State.on
  rw [h]
  rfl

theorem State.current_setReg (s : State) (a : Nat) (v : Word) (p : Nat) : (s.setReg a v).current p = s.current p := rfl

/-- ENABLE set on a sequencer that has a role and was disabled. -/
theorem State.seqEnable_set (s : State) (t q : Nat) (hr : s.role t q ≠ 5) : s.seqEnable t q false true =
    match s.plotOf t with
    | none => s.setSeqState t q 0
    | some p =>
      if s.stopped p then s.setSeqState t q 0
      else if (s.current p).isSome then s.setSeq (sk t q) { s.seq (sk t q) with joinAtEnd := true }
      else s.preloadTo t q 1 (s.seq (sk t q)) := by
  unfold State.seqEnable
  simp only [Bool.not_true, Bool.false_eq_true, if_false, hr, show (false == true) = false from rfl] <;> rfl

theorem State.seqEnable_plotless (s : State) (t q : Nat) (hr : s.role t q ≠ 5) (hp : s.plotOf t = none) :
    s.seqEnable t q false true = s.setSeqState t q 0 := by
  rw [s.seqEnable_set t q hr, hp]

theorem State.seqEnable_stopped (s : State) (t q p : Nat) (hr : s.role t q ≠ 5) (hp : s.plotOf t = some p) (h : s.stopped p = true) :
    s.seqEnable t q false true = s.setSeqState t q 0 := by
  rw [s.seqEnable_set t q hr, hp]
  exact if_pos h

theorem State.seqEnable_preloads (s : State) (t q p : Nat) (hr : s.role t q ≠ 5) (hp : s.plotOf t = some p) (h : s.stopped p = false)
    (hc : s.current p = none) : s.seqEnable t q false true = s.preloadTo t q 1 (s.seq (sk t q)) := by
  rw [s.seqEnable_set t q hr, hp]
  simp only [h, hc, Bool.false_eq_true, if_false, Option.isSome_none]

theorem State.seqEnable_joins (s : State) (t q p : Nat) (hr : s.role t q ≠ 5) (hp : s.plotOf t = some p) (h : s.stopped p = false)
    (hc : s.current p ≠ none) :
    s.seqEnable t q false true = s.setSeq (sk t q) { s.seq (sk t q) with joinAtEnd := true } := by
  rw [s.seqEnable_set t q hr, hp]
  simp only [h, Option.isSome_iff_ne_none.2 hc, Bool.false_eq_true, if_false, if_true]

/-- A spare without a role stays OFF. -/
theorem State.seqEnable_spare (s : State) (t q : Nat) (hr : s.role t q = 5) : s.seqEnable t q false true = s := by
  unfold State.seqEnable
  simp only [hr, if_true, Bool.not_true, Bool.false_eq_true, if_false, show (false == true) = false from rfl]

theorem State.seqEnable_clear (s : State) (t q : Nat) : s.seqEnable t q true false =
    (s.setSeqState t q 7).setSeq (sk t q) { s.seq (sk t q) with joinAtEnd := false } := rfl

section
variable {s : State} {i : Tile} {q : Seq} (w : Word) (h : HostOpen s (A.seqCtl i q)) (hs : s.isSealed = false)
include h hs

/-- ENABLE set on an OFF sequencer. -/
theorem exec_seqCtlWrite_enables (h7 : s.seqState i q = 7) (hoff : s.on (A.seqCtl i q) F.seqCtl.enable = false)
    (hen : getF w F.seqCtl.enable = 1) :
    exec (.seqCtlWrite i q w) s = .next ((s.ctlTaken i q (putF w F.seqCtl.clrFault 0)).seqEnable i q false true) := by
  have htaken := (s.ctlTaken_open i q (putF w F.seqCtl.clrFault 0) hs).2.1.trans ((sameCtl_putF w).1.2.1.trans hen)
  rw [exec_seqCtlWrite_idle w h hs (State.off_idle h7), hoff, State.on_of_one htaken]

theorem completes_seqCtlWrite_enable (p : Nat) (h7 : s.seqState i q = 7) (hoff : s.on (A.seqCtl i q) F.seqCtl.enable = false)
    (hen : getF w F.seqCtl.enable = 1) (hplot : s.plotOf i = some p) (hr : s.role i q ≠ 5) :
    (s.stopped p = true → Completes (.seqCtlWrite i q w) s fun t => t.seqState i q = 0) ∧
    (s.stopped p = false → s.current p = none → s.patched i = false →
      Completes (.seqCtlWrite i q w) s fun t => t.seqState i q = 1 ∧ t.pc i q = getF w F.seqCtl.startPc) ∧
    (s.stopped p = false → s.current p ≠ none →
      Completes (.seqCtlWrite i q w) s fun t => t.seqState i q = 7 ∧ (t.seq (sk i q)).joinAtEnd = true) := by
  have hexec := exec_seqCtlWrite_enables w h hs h7 hoff hen
  have hstart := (s.ctlTaken_open i q (putF w F.seqCtl.clrFault 0) hs).1.trans (sameCtl_putF w).1.1
  obtain ⟨ustate, -, uplot, ustopped, upatched, urole⟩ := s.ctlTaken_kept i q (putF w F.seqCtl.clrFault 0)
  have ucur : (s.ctlTaken i q (putF w F.seqCtl.clrFault 0)).current p = s.current p := by
    rw [State.ctlTaken, State.current_setReg]
  have hstopped := ustopped p (State.plotOf_lt hplot)
  generalize s.ctlTaken i q (putF w F.seqCtl.clrFault 0) = u at *
  have hur := urole.symm ▸ hr
  have hup := uplot.trans hplot
  refine ⟨fun hst => ?_, fun hst hc hp => ?_, fun hst hc => ?_⟩
  · rw [u.seqEnable_stopped i q p hur hup (hstopped.trans hst)] at hexec
    exact completes_of_exec hexec (State.seqState_setSeqState _ i q 0 (by decide))
  · rw [u.seqEnable_preloads i q p hur hup (hstopped.trans hst) (ucur.trans hc)] at hexec
    obtain ⟨hstate, -, ⟨-, -, hpc⟩, -⟩ := u.preloadTo_spec i q 1 (u.seq (sk i q)) q.isLt (by decide) (upatched.trans hp)
    exact completes_of_exec hexec ⟨hstate, hpc.trans hstart⟩
  · rw [u.seqEnable_joins i q p hur hup (hstopped.trans hst) (by rwa [ucur])] at hexec
    exact completes_of_exec hexec ⟨by rw [State.seqState, State.fld_setSeq]; exact ustate.trans h7, by rw [State.seq_setSeq]⟩

theorem completes_seqCtlWrite_enable_apart (h7 : s.seqState i q = 7) (hoff : s.on (A.seqCtl i q) F.seqCtl.enable = false)
    (hen : getF w F.seqCtl.enable = 1) :
    (s.role i q = 5 → Completes (.seqCtlWrite i q w) s fun t =>
      t.seqState i q = 7 ∧ t.fld (A.seqCtl i q) F.seqCtl.enable = 1 ∧ OnlyRegs [A.seqCtl i q] s t) ∧
    (s.role i q ≠ 5 → s.plotOf i = none → Completes (.seqCtlWrite i q w) s fun t => t.seqState i q = 0) := by
  have hexec := exec_seqCtlWrite_enables w h hs h7 hoff hen
  have htaken := (s.ctlTaken_open i q (putF w F.seqCtl.clrFault 0) hs).2.1.trans ((sameCtl_putF w).1.2.1.trans hen)
  obtain ⟨ustate, -, uplot, -, -, urole⟩ := s.ctlTaken_kept i q (putF w F.seqCtl.clrFault 0)
  refine ⟨fun hr => ?_, fun hr hp => ?_⟩
  · rw [State.seqEnable_spare _ i q (urole.trans hr)] at hexec
    exact completes_of_exec hexec ⟨ustate.trans h7, htaken, s.ctlTaken_onlyRegs i q _⟩
  · rw [State.seqEnable_plotless _ i q (by rwa [urole]) (uplot.trans hp)] at hexec
    exact completes_of_exec hexec (State.seqState_setSeqState _ i q 0 (by decide))

theorem completes_seqCtlWrite_disable (hidle : s.seqIdle i q = true) (hon : s.on (A.seqCtl i q) F.seqCtl.enable = true)
    (hen : getF w F.seqCtl.enable = 0) :
    Completes (.seqCtlWrite i q w) s fun t => t.seqState i q = 7 ∧ (t.seq (sk i q)).joinAtEnd = false ∧
      t.fld (A.seqCtl i q) F.seqCtl.enable = 0 ∧ SameRegs [A.seqCtl i q, A.seqSts i q] s t := by
  have hexec := exec_seqCtlWrite_idle w h hs hidle
  have htaken := (s.ctlTaken_open i q (putF w F.seqCtl.clrFault 0) hs).2.1.trans ((sameCtl_putF w).1.2.1.trans hen)
  have hregs := (s.ctlTaken_onlyRegs i q (putF w F.seqCtl.clrFault 0)).1
  rw [hon, State.on_of_zero htaken, State.seqEnable_clear] at hexec
  generalize s.ctlTaken i q (putF w F.seqCtl.clrFault 0) = u at *
  have hstate := regWork_setSeqState u i q 7
  refine completes_of_exec hexec ⟨?_, by rw [State.seq_setSeq], ?_, fun a ha => ?_⟩
  · rw [State.seqState, State.fld_setSeq]
    exact State.seqState_setSeqState u i q 7 (by decide)
  · rw [State.fld_setSeq]
    exact (State.fld_of_reg (hstate.1 _ (by
      simp only [List.mem_cons, List.not_mem_nil, or_false, seqAddr]
      omega)) _).trans htaken
  · simp only [List.mem_cons, List.not_mem_nil, or_false, not_or] at ha
    rw [State.reg_setSeq]
    exact (hstate.1 a (by simp [ha.2])).trans (hregs a (by simp [ha.1]))

end

/-! ### After sealing (R303) -/

/-- What the host's write of SEQ_CTL comes to in a sealed configuration. -/
theorem State.writeSeqCtl_sealed (s : State) (t q : Nat) (w : Word) (h : HostOpen s (A.seqCtl t q)) (hs : s.isSealed = true) :
    s.writeSeqCtl .host t q w = (s.ctlEffect t q w w (s.ctlTaken t q w),
      if lockHit spec_seqCtl.fields true (s.reg (A.seqCtl t q)) w then some .accessErr else none) := by
  have hlock : s.locked .host = true := by rw [s.locked_host, hs]
  have hw1 : (if (s.locked .host || Req.host == .mgmt) = true then w else s.seqCtlWord t q w) = w := if_pos (by rw [hlock]; rfl)
  unfold State.writeSeqCtl
  rw [hw1, s.write_ok _ _ _ _ _ h, hlock, State.ctlEffect, State.ctlTaken, State.hostMerged, hlock]

/-- A write meets the lock where it would change START_PC or ENABLE. -/
theorem lockHit_seqCtl (old w : Word) : lockHit spec_seqCtl.fields true old w = false ↔
    getF w F.seqCtl.startPc = getF old F.seqCtl.startPc ∧ getF w F.seqCtl.enable = getF old F.seqCtl.enable := by
  have hhit : lockHit spec_seqCtl.fields true old w =
      (getF old F.seqCtl.startPc != getF w F.seqCtl.startPc || getF old F.seqCtl.enable != getF w F.seqCtl.enable) := by
    simp [lockHit, spec_seqCtl, F.seqCtl.startPc, F.seqCtl.enable]
  rw [hhit, Bool.or_eq_false_iff, bne_eq_false_iff_eq, bne_eq_false_iff_eq, eq_comm, @eq_comm _ (getF old F.seqCtl.enable)]

theorem hostWrite_taken (s : State) (off : Nat) : State.hostWrite (s, none) off = s := rfl

theorem hostWrite_recorded (s : State) (e : Refuse) (off : Nat) : State.hostWrite (s, some e) off = s.refuseHost e 0 off := rfl

theorem exec_seqCtlWrite_sealed {s : State} {i : Tile} {q : Seq} (w : Word) (h : HostOpen s (A.seqCtl i q)) (hs : s.isSealed = true) :
    exec (.seqCtlWrite i q w) s = .next
      (if lockHit spec_seqCtl.fields true (s.reg (A.seqCtl i q)) (putF w F.seqCtl.clrFault 0)
      then (s.ctlTaken i q (putF w F.seqCtl.clrFault 0)).refuseHost .accessErr 0 (A.seqCtl i q)
      else s.ctlTaken i q (putF w F.seqCtl.clrFault 0)) := by
  have hsteady := (s.ctlTaken_sealed i q (putF w F.seqCtl.clrFault 0) hs).2.1
  have heff : s.ctlEffect i q (putF w F.seqCtl.clrFault 0) (putF w F.seqCtl.clrFault 0)
      (s.ctlTaken i q (putF w F.seqCtl.clrFault 0)) = s.ctlTaken i q (putF w F.seqCtl.clrFault 0) := by
    rw [s.ctlEffect_whole _ _ _ _ (sameCtl_putF w).2, State.on_eq_of_fld hsteady, State.seqEnable_same]
  rw [exec_seqCtlWrite, execSeqCtlWrite, s.writeSeqCtl_sealed i q _ h hs, heff]
  cases lockHit spec_seqCtl.fields true (s.reg (A.seqCtl i q)) (putF w F.seqCtl.clrFault 0) with
  | false => simp only [Bool.false_eq_true, if_false, hostWrite_taken]
  | true => simp only [if_true, hostWrite_recorded]

theorem completes_seqCtlWrite_sealed (s : State) (i : Tile) (q : Seq) (w : Word) (h : HostOpen s (A.seqCtl i q)) (hs : s.isSealed = true) :
    Completes (.seqCtlWrite i q w) s fun t =>
      t.fld (A.seqCtl i q) F.seqCtl.startPc = s.fld (A.seqCtl i q) F.seqCtl.startPc ∧
      t.fld (A.seqCtl i q) F.seqCtl.enable = s.fld (A.seqCtl i q) F.seqCtl.enable ∧
      t.fld (A.seqCtl i q) F.seqCtl.faultRestart = getF w F.seqCtl.faultRestart ∧
      if getF w F.seqCtl.startPc = s.fld (A.seqCtl i q) F.seqCtl.startPc ∧ getF w F.seqCtl.enable = s.fld (A.seqCtl i q) F.seqCtl.enable
      then OnlyRegs [A.seqCtl i q] s t
      else t.reg A.glbErrSts = s.reg A.glbErrSts ||| 1 ∧ OnlyRegs [A.seqCtl i q, A.glbErrSts, A.glbErrAddr] s t := by
  have hexec := exec_seqCtlWrite_sealed w h hs
  obtain ⟨h1, h2, h3⟩ := (sameCtl_putF w).1
  have hhit := lockHit_seqCtl (s.reg (A.seqCtl i q)) (putF w F.seqCtl.clrFault 0)
  rw [h1, h2] at hhit
  obtain ⟨u1, u2, u3⟩ := s.ctlTaken_sealed i q (putF w F.seqCtl.clrFault 0) hs
  have honly := s.ctlTaken_onlyRegs i q (putF w F.seqCtl.clrFault 0)
  generalize s.ctlTaken i q (putF w F.seqCtl.clrFault 0) = u at *
  refine completes_of_exec hexec ?_
  by_cases hsame : getF w F.seqCtl.startPc = s.fld (A.seqCtl i q) F.seqCtl.startPc ∧
      getF w F.seqCtl.enable = s.fld (A.seqCtl i q) F.seqCtl.enable
  · simp only [if_pos hsame, hhit.2 hsame, Bool.false_eq_true, if_false]
    exact ⟨u1, u2, u3.trans h3, honly⟩
  · have hlock := eq_true_of_ne_false fun hf => hsame (hhit.1 hf)
    obtain ⟨hrefused, herr, -⟩ := u.refuseHost_refused .accessErr 0 (A.seqCtl i q) (by decide) (by decide)
    have hctl : (u.refuseHost .accessErr 0 (A.seqCtl i q)).reg (A.seqCtl i q) = u.reg (A.seqCtl i q) := hrefused.1 _ (by
      simp only [List.mem_cons, List.not_mem_nil, or_false, A.glbErrSts, A.glbErrAddr, seqAddr]
      omega)
    have hsts : u.reg A.glbErrSts = s.reg A.glbErrSts := honly.1 _ (by
      simp only [List.mem_cons, List.not_mem_nil, or_false, A.glbErrSts, seqAddr]
      omega)
    rw [if_neg hsame, if_pos hlock]
    refine ⟨(State.fld_of_reg hctl _).trans u1, (State.fld_of_reg hctl _).trans u2,
      (State.fld_of_reg hctl _).trans (u3.trans h3), ?_, onlyRegs_trans (onlyRegs_mono honly (by simp)) (onlyRegs_mono hrefused (by simp))⟩
    rw [herr, hsts]
    rfl

/-- Settles O25: the checks of an instruction come in the order of `State.judged`, a microword's before them, and a write of SEQ_CTL
is its merged word with the effect that `State.ctlEffect` names. -/
theorem faultsAndSequencerControl : Obligations.FaultsAndSequencerControl := by
  unfold Obligations.FaultsAndSequencerControl
  refine ⟨fun s i q hrun hf => ⟨fun hop hp => completes_nop_double s i q hrun hf hop hp, fun hop hp => completes_play_double s i q hrun hf hop hp,
    fun hop hp => completes_nop_unlisted s i q hrun hf hop hp, fun hop hp hr => completes_play_role s i q hrun hf hop hp hr,
    fun hop hp hsub => completes_add_reserved s i q hrun hf hop hp hsub, fun hop hp hm => completes_add_parity s i q hrun hf hop hp hm,
    fun m hop hmatch hm => ⟨fun hpar => completes_nop_badPatch s i q m hrun hf hop hmatch hm hpar,
      fun hok hd hx hfall => completes_nop_patched s i q m hrun hx hmatch hm hok hd hfall⟩,
    fun h hpc hd => completes_nop_pcEnd s i q h hf hpc hd,
    fun h hfall => ⟨completes_nop_clean s i q h hfall, completes_nop_single s i q h hfall⟩⟩,
    fun s i q w h hs hstart hen => ⟨fun hst hp => completes_clrFault_preloads s i q w h hs hstart hen hst hp,
      fun h6 hv hold => completes_clrFault_rests s i q w h hs hstart hen h6 hv hold⟩,
    fun s i q w h hs => ⟨fun hidle hen => completes_seqCtlWrite_idle s i q w h hs hidle hen,
      fun hbusy => completes_seqCtlWrite_busy s i q w h hs hbusy,
      fun p h7 hoff hen hplot hr => completes_seqCtlWrite_enable w h hs p h7 hoff hen hplot hr,
      fun h7 hoff hen => completes_seqCtlWrite_enable_apart w h hs h7 hoff hen,
      fun hidle hon hen => completes_seqCtlWrite_disable w h hs hidle hon hen⟩,
    fun s i q w h hs => completes_seqCtlWrite_sealed s i q w h hs⟩

end Sys2Proof.Machine
end

section
/-! ## A window opens on its lane (R97, R204–R208) -/

namespace Sys2Proof.Machine

open Sys2Proof.Safety

/-! ### A lane's accumulator sets -/

section
variable (x : LaneX) (sh b : Bool)

@[simp] theorem LaneX.win_setWin (w : Option Win) : (x.setWin sh w).win b = if b = sh then w else x.win b := by
  cases sh <;> cases b <;> rfl

@[simp] theorem LaneX.acc_setWin (w : Option Win) : (x.setWin sh w).acc b = x.acc b := by cases sh <;> rfl

@[simp] theorem LaneX.job_setWin (w : Option Win) : (x.setWin sh w).job b = x.job b := by cases sh <;> rfl

@[simp] theorem LaneX.due_setWin (w : Option Win) : (x.setWin sh w).due = x.due := by cases sh <;> rfl

@[simp] theorem LaneX.win_setAcc (a : Accum) : (x.setAcc sh a).win b = x.win b := by cases sh <;> rfl

@[simp] theorem LaneX.acc_setAcc (a : Accum) : (x.setAcc sh a).acc b = if b = sh then a else x.acc b := by
  cases sh <;> cases b <;> rfl

@[simp] theorem LaneX.job_setAcc (a : Accum) : (x.setAcc sh a).job b = x.job b := by cases sh <;> rfl

@[simp] theorem LaneX.win_setJob (j : Option (Nat × Nat)) : (x.setJob sh j).win b = x.win b := by cases sh <;> rfl

@[simp] theorem LaneX.acc_setJob (j : Option (Nat × Nat)) : (x.setJob sh j).acc b = x.acc b := by cases sh <;> rfl

@[simp] theorem LaneX.job_setJob (j : Option (Nat × Nat)) : (x.setJob sh j).job b = if b = sh then j else x.job b := by
  cases sh <;> cases b <;> rfl

@[simp] theorem LaneX.due_setJob (j : Option (Nat × Nat)) : (x.setJob sh j).due = x.due := by cases sh <;> rfl

end

@[simp] theorem State.lane_setLane (s : State) (t p : Nat) (x : LaneX) : (s.setLane t p x).lane t p = x := KMap.get_set_same ..

@[simp] theorem State.lane_modLane (s : State) (t p : Nat) (f : LaneX → LaneX) : (s.modLane t p f).lane t p = f (s.lane t p) :=
  s.lane_setLane t p _

@[simp] theorem State.lane_lnSet (s : State) (t p t' p' : Nat) (f : Fld) : (s.lnSet t p f).lane t' p' = s.lane t' p' := rfl

/-! ### What opening a window changes -/

/-- Lane `p` of tile `i`, its LN_STS and the ties of this tick alone have changed. -/
def LaneWork (i p : Nat) (s u : State) : Prop :=
  (∀ k, k ≠ 8 * i + p → KMap.get {} u.lanes k = KMap.get {} s.lanes k) ∧ SameRegs [A.lnSts i p] s u ∧
    u = { s with lanes := u.lanes, regs := u.regs, tie := u.tie }

theorem laneWork_setLane (s : State) (i p : Nat) (x : LaneX) : LaneWork i p s (s.setLane i p x) :=
  ⟨fun _ hk => KMap.get_set_ne ({} : LaneX) {} s.lanes x hk, fun _ _ => rfl, rfl⟩

theorem laneWork_modLane (s : State) (i p : Nat) (f : LaneX → LaneX) : LaneWork i p s (s.modLane i p f) := laneWork_setLane s i p _

theorem laneWork_lnSet (s : State) (i p : Nat) (f : Fld) : LaneWork i p s (s.lnSet i p f) :=
  ⟨fun _ _ => rfl, fun _ ha => s.reg_raise_ne _ _ (by simpa using ha), rfl⟩

theorem LaneWork.trans {i p : Nat} {s u v : State} (h : LaneWork i p s u) (k : LaneWork i p u v) : LaneWork i p s v := by
  obtain ⟨hlanes, hregs, hframe⟩ := h
  obtain ⟨klanes, kregs, kframe⟩ := k
  exact ⟨fun j hj => (klanes j hj).trans (hlanes j hj), fun a ha => (kregs a ha).trans (hregs a ha), by rw [kframe, hframe]⟩

/-! ### The accumulator and the job (R207) -/

/-- The lane whose set `sh` starts afresh for a window of set `r`. -/
def LaneX.afresh (x : LaneX) (sh : Bool) (r : Nat) (avg : Bool) : LaneX :=
  if avg then (x.setJob sh (some (r, 1))).setAcc sh {} else x.setAcc sh {}

theorem State.openAcc_goes {s : State} {t p r m : Nat} {sh : Bool} (hj : (s.lane t p).job sh = some (r, m)) :
    s.openAcc t p sh r true = s.modLane t p fun x => x.setJob sh (some (r, m + 1)) := by
  simp [State.openAcc, hj]

theorem State.openAcc_without_job {s : State} {t p : Nat} {sh : Bool} (r : Nat) (avg : Bool) (hj : (s.lane t p).job sh = none) :
    s.openAcc t p sh r avg = s.modLane t p fun x => x.afresh sh r avg := by
  cases avg <;> simp [State.openAcc, hj, LaneX.afresh]

theorem State.dropJob_of_some {s : State} {t p : Nat} {sh : Bool} {j : Nat × Nat} (hj : (s.lane t p).job sh = some j) :
    s.dropJob t p sh = (s.modLane t p fun x => (x.setJob sh none).setAcc sh {}).lnSet t p F.lnSts.avgLost := by
  simp [State.dropJob, hj]

theorem State.openAcc_drops {s : State} {t p x m : Nat} {sh : Bool} (r : Nat) (avg : Bool) (hj : (s.lane t p).job sh = some (x, m))
    (hno : ¬(avg = true ∧ x = r)) : s.openAcc t p sh r avg = (s.dropJob t p sh).modLane t p fun x => x.afresh sh r avg := by
  have hdrop : ((s.dropJob t p sh).lane t p).job sh = none := by simp [State.dropJob_of_some hj]
  have hsel : (avg && x == r) = false := by simpa using hno
  cases avg <;> simp_all [State.openAcc, LaneX.afresh]

/-- What opening a window of set `r` does to accumulator set `sh` of a lane, with its averaging job (R207); `avg` is the set's ACC. -/
def AccOpened (i p r avg : Nat) (sh : Bool) (s u : State) : Prop :=
  ((avg = 1 ∧ ∃ m, (s.lane i p).job sh = some (r, m)) → (u.lane i p).acc sh = (s.lane i p).acc sh) ∧
  (¬(avg = 1 ∧ ∃ m, (s.lane i p).job sh = some (r, m)) → (u.lane i p).acc sh = {}) ∧
  (∀ m, avg = 1 → (s.lane i p).job sh = some (r, m) → (u.lane i p).job sh = some (r, m + 1)) ∧
  (avg = 1 → ¬(avg = 1 ∧ ∃ m, (s.lane i p).job sh = some (r, m)) → (u.lane i p).job sh = some (r, 1)) ∧
  (avg = 0 → (u.lane i p).job sh = none) ∧
  (((s.lane i p).job sh).isSome = true → ¬(avg = 1 ∧ ∃ m, (s.lane i p).job sh = some (r, m)) →
    u.on (A.lnSts i p) F.lnSts.avgLost = true) ∧
  (u.lane i p).acc (!sh) = (s.lane i p).acc (!sh) ∧ (u.lane i p).job (!sh) = (s.lane i p).job (!sh)

/-- The windows of the lane do not enter into it. -/
theorem AccOpened.of_setLane {i p r avg : Nat} {sh : Bool} {s u : State} {y : LaneX} (h : AccOpened i p r avg sh s u)
    (hacc : ∀ b, y.acc b = (u.lane i p).acc b) (hjob : ∀ b, y.job b = (u.lane i p).job b) :
    AccOpened i p r avg sh s (u.setLane i p y) := by
  unfold AccOpened at h ⊢
  rw [State.lane_setLane]
  simp only [hacc, hjob]
  exact h

theorem accOpened_openAcc (s : State) (i p r avg : Nat) (sh : Bool) (havg : avg < 2) :
    AccOpened i p r avg sh s (s.openAcc i p sh r (avg == 1)) := by
  have hnot : (!sh) ≠ sh := by cases sh <;> decide
  unfold AccOpened
  cases hj : (s.lane i p).job sh with
  | none =>
    rw [State.openAcc_without_job r _ hj]
    obtain rfl | rfl : avg = 0 ∨ avg = 1 := by omega
    all_goals simp [LaneX.afresh, hnot, hj]
  | some j =>
    obtain ⟨x, m⟩ := j
    by_cases hgo : avg = 1 ∧ x = r
    · obtain ⟨rfl, rfl⟩ := hgo
      rw [show ((1 : Nat) == 1) = true from rfl, State.openAcc_goes hj]
      simp [hnot]
    · rw [State.openAcc_drops r _ hj (by simpa using hgo), State.dropJob_of_some hj]
      have hlost (u : State) (f : LaneX → LaneX) : ((u.lnSet i p F.lnSts.avgLost).modLane i p f).on (A.lnSts i p) F.lnSts.avgLost = true :=
        State.on_of_one (u.fld_raise_bit _ _ (by decide) rfl)
      obtain rfl | rfl : avg = 0 ∨ avg = 1 := by omega
      all_goals simp_all [LaneX.afresh]

theorem laneWork_openAcc (s : State) (i p r : Nat) (sh avg : Bool) : LaneWork i p s (s.openAcc i p sh r avg) := by
  cases hj : (s.lane i p).job sh with
  | none =>
    rw [State.openAcc_without_job r _ hj]
    exact laneWork_modLane s i p _
  | some j =>
    obtain ⟨x, m⟩ := j
    by_cases hgo : avg = true ∧ x = r
    · obtain ⟨rfl, rfl⟩ := hgo
      rw [State.openAcc_goes hj]
      exact laneWork_modLane s i p _
    · rw [State.openAcc_drops r _ hj hgo, State.dropJob_of_some hj]
      exact ((laneWork_modLane s i p _).trans (laneWork_lnSet _ i p _)).trans (laneWork_modLane _ i p _)

theorem State.win_openAcc (s : State) (i p r : Nat) (sh avg b : Bool) :
    ((s.openAcc i p sh r avg).lane i p).win b = (s.lane i p).win b := by
  have hfresh (x : LaneX) : (x.afresh sh r avg).win b = x.win b := by cases avg <;> simp [LaneX.afresh]
  cases hj : (s.lane i p).job sh with
  | none => rw [State.openAcc_without_job r _ hj, State.lane_modLane, hfresh]
  | some j =>
    obtain ⟨x, m⟩ := j
    by_cases hgo : avg = true ∧ x = r
    · obtain ⟨rfl, rfl⟩ := hgo
      rw [State.openAcc_goes hj, State.lane_modLane, LaneX.win_setJob]
    · rw [State.openAcc_drops r _ hj hgo, State.dropJob_of_some hj, State.lane_modLane, hfresh, State.lane_lnSet, State.lane_modLane,
        LaneX.win_setAcc, LaneX.win_setJob]

/-! ### The lane is taken (R206) -/

section
variable {s : State} {t p : Nat} {sh : Bool} {w o : Win}

theorem State.takeLane_alone (h : (s.lane t p).win (!sh) = none) :
    s.takeLane t p sh w = s.setLane t p ((s.lane t p).setWin sh (some w)) := by
  simp only [State.takeLane, h]

theorem State.takeLane_from (h : (s.lane t p).win (!sh) = some o) (hlater : ¬(o.start = w.start ∧ o.t = w.t) ∨ sh = true) :
    s.takeLane t p sh w = s.setLane t p (((s.lane t p).setWin sh (some w)).setWin (!sh) (some (o.preempted w))) := by
  have hno : ¬(o.start = w.start ∧ o.t = w.t ∧ sh = false) := by
    rintro ⟨h1, h2, h3⟩
    rcases hlater with hn | hs
    · exact hn ⟨h1, h2⟩
    · exact absurd (h3.symm.trans hs) (by decide)
  simp only [State.takeLane, h, if_neg hno]

theorem State.takeLane_under (h : (s.lane t p).win (!sh) = some o) (hsame : o.start = w.start ∧ o.t = w.t) (hsh : sh = false) :
    s.takeLane t p sh w = s.setLane t p ((s.lane t p).setWin sh (some (w.preempted o))) := by
  simp only [State.takeLane, h, if_pos (And.intro hsame.1 (And.intro hsame.2 hsh))]

end

/-! ### The command -/

/-- The window that a MEAS with read-out set `r` opens. -/
def State.measWin (s : State) (t p pl sid start c r len midx : Nat) (noRec noDec : Bool) (num : Word) : Win :=
  { set := r, a := s.reg (A.rsA t p r), b := s.reg (A.rsB t p r), c := s.reg (A.rsC t p r), d := s.reg (A.rsD t p r),
    t := c, len := len, start := start, plot := pl, sid := sid, num := num, midx := midx,
    noRec := noRec, noDec := noDec, nco := s.ncoBefore t p (s.fld (A.rsA t p r) F.rsA.slot) }

theorem State.openWindow_refuses {s : State} {t p r : Nat} {sh : Bool} (pl sid start c len midx : Nat) (noRec noDec : Bool) (num : Word)
    (h : s.fld (A.rsA t p r) F.rsA.valid = 0 ∨ ((s.lane t p).win sh).isSome = true) :
    s.openWindow t p pl sid start c r len midx sh noRec noDec num = s.refuseMeas t p pl sid := by
  unfold State.openWindow
  exact if_pos (by simpa [State.fld] using h)

theorem State.openWindow_opens {s : State} {t p r : Nat} {sh : Bool} (pl sid start c len midx : Nat) (noRec noDec : Bool) (num : Word)
    (hv : s.fld (A.rsA t p r) F.rsA.valid = 1) (hw : (s.lane t p).win sh = none) :
    s.openWindow t p pl sid start c r len midx sh noRec noDec num =
      (s.openAcc t p sh r (s.fld (A.rsA t p r) F.rsA.acc == 1)).takeLane t p sh
        (s.measWin t p pl sid start c r len midx noRec noDec num) := by
  have hv' : getF (s.reg (A.rsA t p r)) F.rsA.valid = 1 := hv
  unfold State.openWindow
  exact if_neg (by simp [hv', hw])

section
variable {s : State} {i : Tile} {q : Seq} {e : Entry} {pl len r midx : Nat} {sh noRec noDec : Bool} {h : Shot}
variable (hd : s.due i q = some e) (hm : e.moved = false) (hp : s.plotOf i = some pl) (hc : e.cmd = .meas len r midx sh noRec noDec)
variable (hs : s.startOf pl e.sid = some h)
include hd hm hp hc hs

/-- A MEAS on a path that feeds no lane, or on a halted channel, only leaves its queue. -/
theorem exec_windowOpen_off_lane (hn : ∀ n, s.pathOf i q = some n → n < 8 ∨ 16 ≤ n ∨ s.haltedAt i q e.execAt = true) :
    exec (.windowOpen i q) s = .next (s.unqueued i q) := by
  rw [exec_windowOpen, execWindowOpen, ← State.pop_due hd hm]
  simp only [hd, hp, hc, hs]
  cases hpath : s.pathOf i q with
  | none => rfl
  | some n =>
    have hoff : (8 ≤ n && n < 16 && !s.haltedAt i q e.execAt) = false := by
      rcases hn n hpath with h | h | h
      · simp [Nat.not_le.2 h]
      · simp [Nat.not_lt.2 h]
      · simp [h]
    simp only [hoff]
    rfl

theorem exec_windowOpen_on_lane {n : Nat} (hpath : s.pathOf i q = some n) (h8 : 8 ≤ n) (h16 : n < 16)
    (hrun : s.haltedAt i q e.execAt = false) :
    exec (.windowOpen i q) s =
      .next ((s.unqueued i q).openWindow i (n - 8) pl e.sid h.start e.execAt r len midx sh noRec noDec h.num) := by
  rw [exec_windowOpen, execWindowOpen, ← State.pop_due hd hm]
  simp only [hd, hp, hc, hs, hpath, hrun, h8, h16, decide_true, Bool.not_false, Bool.and_self, if_true]

end

/-! ### A refused MEAS (R205) -/

/-- A refused MEAS sets WIN_REFUSED, counts, fires source 17 of the tile and taints its shot. -/
theorem State.refuseMeas_refuses (s : State) (i : Tile) (p pl sid : Nat) :
    (s.refuseMeas i p pl sid).on (A.lnSts i p) F.lnSts.winRefused = true ∧
    ((s.refuseMeas i p pl sid).reg (A.lnRefusedCnt i p)).toNat = min ((s.reg (A.lnRefusedCnt i p)).toNat + 1) 0xFFFFFFFF ∧
    Fires (tileSrc i 17) s (s.refuseMeas i p pl sid) ∧
    (∀ g ∈ ((s.refuseMeas i p pl sid).sched pl).shots, g.sid = sid → g.flags &&& Flag.taint = Flag.taint) := by
  have hsrc := evfSrcSts_tileSrc_lt i 17 (by decide)
  have hreg (b : Nat) (hb : 0x300000 ≤ b) : (s.refuseMeas i p pl sid).reg b =
      ((s.lnSet i p F.lnSts.winRefused).bump (A.lnRefusedCnt i p)).reg b := State.reg_fire_ne _ _ (by omega)
  have hne : A.lnSts i p ≠ A.lnRefusedCnt i p := by simp only [A.lnSts, A.lnRefusedCnt]; omega
  refine ⟨?_, ?_, rfl, fun g hg hsid => State.flagShot_flags _ pl sid _ g hg hsid⟩
  · have hsts : (s.refuseMeas i p pl sid).reg (A.lnSts i p) = (s.lnSet i p F.lnSts.winRefused).reg (A.lnSts i p) :=
      (hreg _ (by simp only [A.lnSts]; omega)).trans (State.reg_bump_ne _ hne)
    rw [State.on_of_reg hsts]
    exact State.on_of_one (s.fld_raise_bit _ _ (by decide) rfl)
  · rw [hreg _ (by simp only [A.lnRefusedCnt]; omega), State.reg_bump, State.lnSet, s.reg_raise_ne _ _ hne.symm]

theorem State.refuseMeas_frame (s : State) (t p pl sid : Nat) : s.refuseMeas t p pl sid =
    { s with regs := (s.refuseMeas t p pl sid).regs, tie := (s.refuseMeas t p pl sid).tie, evq := (s.refuseMeas t p pl sid).evq,
             scheds := (s.refuseMeas t p pl sid).scheds } := rfl

/-! ### A MEAS that opens its window (R204, R206, R207) -/

/-- What a MEAS of set `r` on lane `p` changes as it opens its window, but for the windows themselves. -/
def Opens (i : Tile) (q : Seq) (p r avg : Nat) (sh : Bool) (s t : State) : Prop :=
  AccOpened i p r avg sh s t ∧ (∀ k, k ≠ 8 * i.val + p → KMap.get {} t.lanes k = KMap.get {} s.lanes k) ∧
    SameRegs [A.lnSts i p] s t ∧ Popped (sk i q) s t ∧ t = { s with lanes := t.lanes, tqs := t.tqs, regs := t.regs, tie := t.tie }

theorem State.rsAcc_lt (s : State) (t p r : Nat) : s.fld (A.rsA t p r) F.rsA.acc < 2 := getF_lt _ _

/-- The lane after the accumulator is set up takes its windows `y`. -/
theorem opens_of_setLane (s : State) (i : Tile) (q : Seq) (p r avg : Nat) (sh : Bool) (havg : avg < 2) {y : LaneX}
    (hacc : ∀ b, y.acc b = (((s.unqueued i q).openAcc i p sh r (avg == 1)).lane i p).acc b)
    (hjob : ∀ b, y.job b = (((s.unqueued i q).openAcc i p sh r (avg == 1)).lane i p).job b) :
    Opens i q p r avg sh s (((s.unqueued i q).openAcc i p sh r (avg == 1)).setLane i p y) := by
  have hopen := (accOpened_openAcc (s.unqueued i q) i p r avg sh havg).of_setLane hacc hjob
  have hwork := (laneWork_openAcc (s.unqueued i q) i p r sh (avg == 1)).trans (laneWork_setLane _ i p y)
  generalize ((s.unqueued i q).openAcc i p sh r (avg == 1)).setLane i p y = t at hopen hwork
  obtain ⟨hlanes, hregs, hframe⟩ := hwork
  refine ⟨hopen, hlanes, hregs, popped_of_tqs ?_, ?_⟩
  · rw [hframe]
  · rw [hframe]
    rfl

section
variable {s : State} {i : Tile} {q : Seq} {e : Entry} {pl len r midx n : Nat} {sh noRec noDec : Bool} {h : Shot}
variable (hd : s.due i q = some e) (hm : e.moved = false) (hp : s.plotOf i = some pl) (hc : e.cmd = .meas len r midx sh noRec noDec)
variable (hs : s.startOf pl e.sid = some h) (hpath : s.pathOf i q = some n) (h8 : 8 ≤ n) (h16 : n < 16)
variable (hrun : s.haltedAt i q e.execAt = false)
include hd hm hp hc hs hpath h8 h16 hrun

theorem completes_windowOpen_refused
    (hno : s.fld (A.rsA i (n - 8) r) F.rsA.valid = 0 ∨ ((s.lane i (n - 8)).win sh).isSome = true) :
    Completes (.windowOpen i q) s fun t => t.on (A.lnSts i (n - 8)) F.lnSts.winRefused = true ∧
      (t.reg (A.lnRefusedCnt i (n - 8))).toNat = min ((s.reg (A.lnRefusedCnt i (n - 8))).toNat + 1) 0xFFFFFFFF ∧
      Fires (tileSrc i 17) s t ∧ Popped (sk i q) s t ∧
      (∀ g ∈ (t.sched pl).shots, g.sid = e.sid → g.flags &&& Flag.taint = Flag.taint) ∧
      t = { s with regs := t.regs, tie := t.tie, evq := t.evq, tqs := t.tqs, scheds := t.scheds } := by
  refine completes_of_exec ((exec_windowOpen_on_lane hd hm hp hc hs hpath h8 h16 hrun).trans
    (congrArg _ (State.openWindow_refuses pl e.sid h.start e.execAt len midx noRec noDec h.num hno))) ?_
  obtain ⟨hsts, hcnt, hfires, htaint⟩ := (s.unqueued i q).refuseMeas_refuses i (n - 8) pl e.sid
  have hframe := (s.unqueued i q).refuseMeas_frame i (n - 8) pl e.sid
  generalize (s.unqueued i q).refuseMeas i (n - 8) pl e.sid = t at hsts hcnt hfires htaint hframe
  refine ⟨hsts, hcnt, hfires, popped_of_tqs ?_, htaint, ?_⟩
  · rw [hframe]
  · rw [hframe]
    rfl

variable (hv : s.fld (A.rsA i (n - 8) r) F.rsA.valid = 1) (hw : (s.lane i (n - 8)).win sh = none)
include hv hw

theorem exec_windowOpen_opens : exec (.windowOpen i q) s =
    .next (((s.unqueued i q).openAcc i (n - 8) sh r (s.fld (A.rsA i (n - 8) r) F.rsA.acc == 1)).takeLane i (n - 8) sh
      (s.measWin i (n - 8) pl e.sid h.start e.execAt r len midx noRec noDec h.num)) :=
  (exec_windowOpen_on_lane hd hm hp hc hs hpath h8 h16 hrun).trans
    (congrArg _ (State.openWindow_opens pl e.sid h.start e.execAt len midx noRec noDec h.num hv hw))

theorem completes_windowOpen_alone (ho : (s.lane i (n - 8)).win (!sh) = none) :
    Completes (.windowOpen i q) s fun t => Opens i q (n - 8) r (s.fld (A.rsA i (n - 8) r) F.rsA.acc) sh s t ∧
      (t.lane i (n - 8)).win sh = some (s.measWin i (n - 8) pl e.sid h.start e.execAt r len midx noRec noDec h.num) ∧
      (t.lane i (n - 8)).win (!sh) = none := by
  have hnot : (!sh) ≠ sh := by cases sh <;> decide
  have hother := ((s.unqueued i q).win_openAcc i (n - 8) r sh (s.fld (A.rsA i (n - 8) r) F.rsA.acc == 1) (!sh)).trans ho
  refine completes_of_exec ((exec_windowOpen_opens hd hm hp hc hs hpath h8 h16 hrun hv hw).trans
    (congrArg _ (State.takeLane_alone hother))) ⟨opens_of_setLane s i q (n - 8) r _ sh (s.rsAcc_lt ..) ?_ ?_, ?_, ?_⟩
  · simp
  · simp
  · simp
  · simp [hnot, hother]

theorem completes_windowOpen_from {o : Win} (ho : (s.lane i (n - 8)).win (!sh) = some o)
    (hlater : ¬(o.start = h.start ∧ o.t = e.execAt) ∨ sh = true) :
    Completes (.windowOpen i q) s fun t => Opens i q (n - 8) r (s.fld (A.rsA i (n - 8) r) F.rsA.acc) sh s t ∧
      (t.lane i (n - 8)).win sh = some (s.measWin i (n - 8) pl e.sid h.start e.execAt r len midx noRec noDec h.num) ∧
      (t.lane i (n - 8)).win (!sh) =
        some (o.preempted (s.measWin i (n - 8) pl e.sid h.start e.execAt r len midx noRec noDec h.num)) := by
  have hnot : sh ≠ !sh := by cases sh <;> decide
  have hother := ((s.unqueued i q).win_openAcc i (n - 8) r sh (s.fld (A.rsA i (n - 8) r) F.rsA.acc == 1) (!sh)).trans ho
  refine completes_of_exec ((exec_windowOpen_opens hd hm hp hc hs hpath h8 h16 hrun hv hw).trans
    (congrArg _ (State.takeLane_from hother hlater))) ⟨opens_of_setLane s i q (n - 8) r _ sh (s.rsAcc_lt ..) ?_ ?_, ?_, ?_⟩
  · simp
  · simp
  · simp [hnot]
  · simp

theorem completes_windowOpen_under {o : Win} (ho : (s.lane i (n - 8)).win (!sh) = some o) (hsame : o.start = h.start ∧ o.t = e.execAt)
    (hsh : sh = false) :
    Completes (.windowOpen i q) s fun t => Opens i q (n - 8) r (s.fld (A.rsA i (n - 8) r) F.rsA.acc) sh s t ∧
      (t.lane i (n - 8)).win (!sh) = some o ∧
      (t.lane i (n - 8)).win sh =
        some ((s.measWin i (n - 8) pl e.sid h.start e.execAt r len midx noRec noDec h.num).preempted o) := by
  have hnot : (!sh) ≠ sh := by cases sh <;> decide
  have hother := ((s.unqueued i q).win_openAcc i (n - 8) r sh (s.fld (A.rsA i (n - 8) r) F.rsA.acc == 1) (!sh)).trans ho
  refine completes_of_exec ((exec_windowOpen_opens hd hm hp hc hs hpath h8 h16 hrun hv hw).trans
    (congrArg _ (State.takeLane_under hother hsame hsh))) ⟨opens_of_setLane s i q (n - 8) r _ sh (s.rsAcc_lt ..) ?_ ?_, ?_, ?_⟩
  · simp
  · simp
  · simp [hnot, hother]
  · simp

end

end Sys2Proof.Machine
end

section
/-! ## A window integrates, stores and closes (R198, R200–R204, R207, R211, R230) -/

namespace Sys2Proof.Machine

open Sys2Proof.Safety

/-! ### The ticks of a window (R198, R201–R204) -/

/-- The window with the phase of its slot in this tick. -/
def State.winNow (s : State) (t p : Nat) (w : Win) : Win :=
  { w with nco := (s.ncoNow t p (getF w.a F.rsA.slot) :: w.nco).take 72 }

/-- The lane with that window in place. -/
def State.tickedLane (s : State) (t p : Nat) (sh : Bool) (w : Win) : State := s.modLane t p fun x => x.setWin sh (some (s.winNow t p w))

theorem State.acc_tickedLane (s : State) (t p : Nat) (sh : Bool) (w : Win) (b : Bool) :
    ((s.tickedLane t p sh w).lane t p).acc b = (s.lane t p).acc b := by
  rw [State.tickedLane, State.lane_modLane, LaneX.acc_setWin]

theorem State.winTick_accumulates {s : State} {t p : Nat} {sh : Bool} {w : Win} (h : (s.lane t p).win sh = some w)
    (hlast : s.DT ≤ w.last + 29) : s.winTick t p sh = (s.tickedLane t p sh w).accTick t p sh (s.winNow t p w) := by
  have hno : ¬(s.DT = w.last + 31 ∧ w.stored = none ∧ (!s.between t p sh w) = true) := fun hc => by have := hc.1; omega
  simp only [State.winTick, h, if_neg hno]
  rfl

/-- A set that does not average stores each of its windows. -/
theorem State.winTick_stores {s : State} {t p : Nat} {sh : Bool} {w : Win} (h : (s.lane t p).win sh = some w)
    (hlast : s.DT = w.last + 31) (hst : w.stored = none) (hacc : getF w.a F.rsA.acc = 0) :
    s.winTick t p sh = (s.tickedLane t p sh w).storeWin t p sh (s.winNow t p w) := by
  have hyes : s.DT = w.last + 31 ∧ w.stored = none ∧ (!s.between t p sh w) = true := ⟨hlast, hst, by simp [State.between, hacc]⟩
  have hidle : (s.tickedLane t p sh w).accTick t p sh (s.winNow t p w) = s.tickedLane t p sh w :=
    if_pos (.inr (show w.last + 29 < s.DT by omega))
  simp only [State.winTick, h, if_pos hyes]
  exact congrArg (fun u : State => u.storeWin t p sh (s.winNow t p w)) hidle

theorem State.lane_noteOvf (s : State) (t p pl sid n : Nat) (t' p' : Nat) : (s.noteOvf t p pl sid n).lane t' p' = s.lane t' p' := by
  unfold State.noteOvf
  split
  · rfl
  · let u := (s.lnSet t p F.lnSts.ovf).bumpBy (A.lnOvfCnt t p) n
    have hfire : (u.fireOnce t 16).lane t' p' = u.lane t' p' := by
      rcases u.fireOnceIn_cases t 16 false with h | ⟨once, h⟩ <;> rw [State.fireOnce, h]
      rfl
    exact hfire

/-- Rectangular weights: 32,767 in each tick that the window did not lose (R201). -/
theorem State.weightAt_rect (s : State) (t p k : Nat) {w : Win} (hlost : w.lost = []) (hmode : getF w.a F.rsA.wmode = 0) :
    s.weightAt t p w k = some (32767, 0) := by
  simp [State.weightAt, hlost, hmode]

/-- The product of a 16-bit sample and the rectangular weight is below the bound of the product (R202). -/
theorem Accum.i_add_rect (a : Accum) (x : BitVec 16 × BitVec 16) (hc : a.ci = false) :
    (a.add x (32767, 0)).i = clampI (-(2 ^ 47 - 1)) (2 ^ 47 - 1) (a.i + 32767 * x.1.toInt) := by
  have hlo := BitVec.le_toInt x.1
  have hhi := BitVec.toInt_lt (x := x.1)
  have hprod : clampI (-2147483648) 2147483647 (x.1.toInt * 32767 - x.2.toInt * 0) = 32767 * x.1.toInt := by
    rw [clampI_id] <;> omega
  simp only [Accum.add, accAdd, hc, hprod, Bool.false_eq_true, if_false]

/-- A tick within the window's integration adds its sample to the accumulator. -/
theorem State.acc_accTick {s : State} {t p : Nat} {sh : Bool} {w : Win} (hfirst : w.first + 29 ≤ s.DT) (hlast : s.DT ≤ w.last + 29)
    {wt : Int × Int} (hwt : s.weightAt t p w (s.DT - 29 - w.first) = some wt) :
    ((s.accTick t p sh w).lane t p).acc sh = ((s.lane t p).acc sh).add (s.decimated t w) wt := by
  have hin : ¬(s.DT < w.first + 29 ∨ w.last + 29 < s.DT) := by omega
  simp only [State.accTick, if_neg hin, hwt, State.lane_noteOvf, State.lane_modLane, LaneX.acc_setWin, LaneX.acc_setAcc, if_true]

theorem State.acc_winTick_rect {s : State} {t p : Nat} {sh : Bool} {w : Win} (h : (s.lane t p).win sh = some w)
    (hfirst : w.first + 29 ≤ s.DT) (hlast : s.DT ≤ w.last + 29) (hlost : w.lost = []) (hmode : getF w.a F.rsA.wmode = 0)
    (hc : ((s.lane t p).acc sh).ci = false) :
    (((s.winTick t p sh).lane t p).acc sh).i =
      clampI (-(2 ^ 47 - 1)) (2 ^ 47 - 1) (((s.lane t p).acc sh).i + 32767 * (s.decimated t (s.winNow t p w)).1.toInt) := by
  have hwt := (s.tickedLane t p sh w).weightAt_rect t p (s.DT - 29 - w.first) (w := s.winNow t p w) hlost hmode
  have hacc := State.acc_accTick (s := s.tickedLane t p sh w) (w := s.winNow t p w) (sh := sh) hfirst hlast hwt
  rw [State.winTick_accumulates h hlast, hacc, State.acc_tickedLane, Accum.i_add_rect _ _ hc]
  rfl

/-! ### The store (R203, R204) -/

theorem State.reg_lnSet_ne (s : State) {t p a : Nat} (f : Fld) (h : a ≠ A.lnSts t p) : (s.lnSet t p f).reg a = s.reg a :=
  s.reg_raise_ne f 1 h

theorem State.reg_setResult (s : State) (t p : Nat) (w : Win) (r : Result) : (s.setResult t p w r).reg (A.lnResI t p) = toW r.i := by
  have hne : A.lnResI t p ≠ A.lnSts t p := by simp only [A.lnResI, A.lnSts]; omega
  have hres (f : LaneX → LaneX) : ((s.setReg (A.lnResI t p) (toW r.i)).modLane t p f).reg (A.lnResI t p) = toW r.i :=
    s.reg_setReg_same _ _
  unfold State.setResult
  simp only
  split <;> split <;> simp only [State.reg_lnSet_ne _ _ hne, hres]

theorem State.reg_storeWin (s : State) (t p : Nat) (sh : Bool) (w : Win) :
    (s.storeWin t p sh w).reg (A.lnResI t p) = toW (s.store t p sh w).i := s.reg_setResult t p w _

theorem State.win_storeWin (s : State) (t p : Nat) (sh : Bool) (w : Win) :
    ((s.storeWin t p sh w).lane t p).win sh = some { w with stored := some (s.store t p sh w) } := by
  rw [State.storeWin, State.lane_modLane]
  cases sh <;> rfl

theorem State.store_i (s : State) (t p : Nat) (sh : Bool) (w : Win) : (s.store t p sh w).i =
    clampI (-2147483648) 2147483647 (roundDiv ((s.lane t p).acc sh).i (2 ^ getF w.a F.rsA.shift)) := rfl

theorem State.winTick_stored {s : State} {t p : Nat} {sh : Bool} {w : Win} (h : (s.lane t p).win sh = some w)
    (hlast : s.DT = w.last + 31) (hst : w.stored = none) (hacc : getF w.a F.rsA.acc = 0) :
    (s.winTick t p sh).reg (A.lnResI t p) =
      toW (clampI (-2147483648) 2147483647 (roundDiv ((s.lane t p).acc sh).i (2 ^ getF w.a F.rsA.shift))) ∧
    ∃ x r, ((s.winTick t p sh).lane t p).win sh = some x ∧ x.stored = some r ∧
      r.i = clampI (-2147483648) 2147483647 (roundDiv ((s.lane t p).acc sh).i (2 ^ getF w.a F.rsA.shift)) := by
  have hi := (s.tickedLane t p sh w).store_i t p sh (s.winNow t p w)
  rw [State.acc_tickedLane] at hi
  rw [State.winTick_stores h hlast hst hacc]
  exact ⟨(State.reg_storeWin ..).trans (congrArg toW hi), _, _, State.win_storeWin .., rfl, hi⟩

/-! ### What a decision on its way leaves alone (R211, R230, R234, R244) -/

/-- The lanes, the schedulers, the decisions on their way to the views and every register of a tile are as they were. -/
def ReadoutKept (s u : State) : Prop :=
  u.lanes = s.lanes ∧ u.scheds = s.scheds ∧ u.tileRels = s.tileRels ∧ u.devRels = s.devRels ∧ ∀ a, 0x1000000 ≤ a → u.reg a = s.reg a

theorem ReadoutKept.refl (s : State) : ReadoutKept s s := ⟨rfl, rfl, rfl, rfl, fun _ _ => rfl⟩

theorem ReadoutKept.trans {s u v : State} (h : ReadoutKept s u) (k : ReadoutKept u v) : ReadoutKept s v := by
  obtain ⟨h1, h2, h3, h4, h5⟩ := h
  obtain ⟨k1, k2, k3, k4, k5⟩ := k
  exact ⟨k1.trans h1, k2.trans h2, k3.trans h3, k4.trans h4, fun a ha => (k5 a ha).trans (h5 a ha)⟩

theorem readoutKept_setReg (s : State) {a : Nat} (v : Word) (ha : a < 0x1000000) : ReadoutKept s (s.setReg a v) :=
  ⟨rfl, rfl, rfl, rfl, fun _ hb => s.reg_setReg_ne v (by omega)⟩

theorem readoutKept_modLink (s : State) (k : Nat) (f : KLink → KLink) : ReadoutKept s (s.modLink k f) :=
  ⟨rfl, rfl, rfl, rfl, fun _ _ => rfl⟩

theorem readoutKept_send (s : State) (o : Out) : ReadoutKept s (s.send o) := ⟨rfl, rfl, rfl, rfl, fun _ _ => rfl⟩

theorem readoutKept_emitBlocks (s : State) (k : Nat) (bs : List Block) : ReadoutKept s (s.emitBlocks k bs) := by
  unfold State.emitBlocks
  split
  · exact (readoutKept_modLink s k _).trans (readoutKept_send _ _)
  · exact readoutKept_send s _

theorem readoutKept_emit (s : State) (k : Nat) (bs : List Block) : ReadoutKept s (s.emit k bs) :=
  (readoutKept_modLink s k _).trans (readoutKept_emitBlocks _ k bs)

theorem readoutKept_pump (s : State) {k : Nat} (hk : k < 8) (fuel : Nat) : ReadoutKept s (s.pump k fuel) := by
  induction fuel generalizing s with
  | zero => exact .refl s
  | succ n ih =>
    have hcounted (u : State) (c : Prop) [Decidable c] : ReadoutKept u (if c then u.bump (A.klTxDecCnt k) else u) := by
      split
      · exact readoutKept_setReg u _ (by simp only [A.klTxDecCnt]; omega)
      · exact .refl u
    unfold State.pump
    split
    · exact .refl s
    · split
      · exact .refl s
      · extract_lets x alive bs s1 s2
        split
        · exact .refl s
        · have hlink : ReadoutKept s s1 := readoutKept_modLink s k fun _ => _
          exact ((hlink.trans (hcounted s1 _)).trans (readoutKept_emit s2 k bs)).trans (ih _)

theorem readoutKept_post (s : State) {k : Nat} (hk : k < 8) (m : KMsg) : ReadoutKept s (s.post k m) :=
  (readoutKept_modLink s k _).trans (readoutKept_pump _ hk _)

theorem readoutKept_dropDest (s : State) : ReadoutKept s s.dropDest := by
  have hdrop : ReadoutKept s ((s.bump A.klFwdDropCnt).raise A.klGsts F.klGsts.fwdDrop 1) :=
    ⟨rfl, rfl, rfl, rfl, fun a ha => (State.reg_raise_ne _ _ _ (by simp only [A.klGsts]; omega)).trans
      (s.reg_bump_ne (by simp only [A.klFwdDropCnt]; omega))⟩
  exact hdrop.trans ⟨rfl, rfl, rfl, rfl, fun a ha => State.reg_fire_ne _ _ (by simp only [A.evfSrcSts]; omega)⟩

theorem readoutKept_foldl {α : Type} (g : State → α → State) (l : List α) (s : State) (h : ∀ u, ∀ x ∈ l, ReadoutKept u (g u x)) :
    ReadoutKept s (l.foldl g s) :=
  List.foldlRecOn (motive := ReadoutKept s) l g (.refl s) fun u hu x hx => hu.trans (h u x hx)

theorem readoutKept_sendDecision (s : State) (src hops slot value tag midx useDt mask : Nat) :
    ReadoutKept s (s.sendDecision src hops slot value tag midx useDt mask) := by
  unfold State.sendDecision
  have hdrop := readoutKept_foldl (fun s _ => s.dropDest) (List.range (s.dropped mask hops)) s fun u _ _ => readoutKept_dropDest u
  simp only
  split
  · exact hdrop
  · refine hdrop.trans (readoutKept_foldl _ (List.range 8) _ fun u k hk => ?_)
    split
    · exact .refl u
    · exact readoutKept_post u (List.mem_range.1 hk) _

theorem readoutKept_exportSlot (s : State) (n value tag midx wend : Nat) : ReadoutKept s (s.exportSlot n value tag midx wend) := by
  unfold State.exportSlot
  simp only
  split
  · exact .refl s
  · split
    · exact readoutKept_setReg s _ (by simp only [A.klFwdDropCnt]; omega)
    · exact readoutKept_sendDecision ..

theorem readoutKept_parLatches (s : State) (n value tag midx wend : Nat) : ReadoutKept s (s.parLatches n value tag midx wend) := by
  refine readoutKept_foldl _ (List.range 16) s fun u k _ => ?_
  unfold State.parLatch
  simp only
  split
  · exact ⟨rfl, rfl, rfl, rfl, fun _ _ => rfl⟩
  · exact .refl u

/-- The decisions of a delivered state, and nothing else of the read-out. -/
theorem readoutKept_deliverState (s : State) (t p : Nat) (sh : Bool) (w : Win) (st : Nat) :
    ReadoutKept
      { s with
        tileRels := addDec s.tileRels (8 * t + p)
          { value := st, tag := w.num.toNat % 256, midx := w.midx, at_ := s.tm.now + 52, shadow := sh },
        devRels := addDec s.devRels (8 * t + p)
          { value := st, tag := w.num.toNat % 256, midx := w.midx, at_ := s.tm.now + 92, shadow := sh } }
      (s.deliverState t p sh w st) :=
  (readoutKept_parLatches ..).trans (readoutKept_exportSlot ..)

theorem get_addDec (m : KMap (List Dec)) (n : Nat) (d : Dec) : KMap.get [] (addDec m n d) n = KMap.get [] m n ++ [d] :=
  KMap.get_set_same ..

/-! ### The steps of a close (R204, R207, R211, R221) -/

/-- The window is gone and counted, and the shot cannot end before this tick. -/
def State.windowShut (s : State) (t p : Nat) (sh : Bool) (w : Win) : State :=
  ((s.modLane t p fun x => x.setWin sh none).bump (A.lnWinCnt t p)).setSched w.plot { s.sched w.plot with endTick := s.DT }

/-- An averaging job ends with the window that stored it. -/
def State.jobShut (s : State) (t p : Nat) (sh : Bool) (w : Win) : State :=
  if getF w.a F.rsA.acc == 1 then s.modLane t p fun x => x.setJob sh none else s

/-- The stored state goes to the trellis, unless the set averages or the MEAS turned decisions off. -/
def State.decided (s : State) (t p : Nat) (sh : Bool) (w : Win) (st : Nat) : State :=
  if getF w.a F.rsA.acc == 1 || w.noDec then s else s.deliverState t p sh w st

/-- The stored result goes to a record, unless the MEAS turned records off. -/
def State.recordOwed (s : State) (t p : Nat) (w : Win) (r : Result) : State :=
  if w.noRec then s
  else (s.mapShots w.plot (fun h => h.sid == w.sid) fun h => { h with results := h.results + 1 }).modLane t p fun x =>
    { x with due := x.due ++ [{ win := { w with nco := [] }, res := r }] }

theorem State.closeWindow_unstored (s : State) (t p : Nat) (sh : Bool) {w : Win} (h : w.stored = none) :
    s.closeWindow t p sh w = s.windowShut t p sh w := by
  simp only [State.closeWindow, h]
  rfl

theorem State.closeWindow_stored (s : State) (t p : Nat) (sh : Bool) {w : Win} {r : Result} (h : w.stored = some r) :
    s.closeWindow t p sh w = (((s.windowShut t p sh w).jobShut t p sh w).decided t p sh w r.st).recordOwed t p w r := by
  unfold State.closeWindow State.recordOwed
  rw [h]
  rfl

section
variable (s : State) (t p : Nat) (sh : Bool) (w : Win)

theorem State.lane_windowShut : (s.windowShut t p sh w).lane t p = (s.lane t p).setWin sh none :=
  s.lane_modLane t p fun x => x.setWin sh none

theorem State.reg_windowShut : ((s.windowShut t p sh w).reg (A.lnWinCnt t p)).toNat =
    min ((s.reg (A.lnWinCnt t p)).toNat + 1) 0xFFFFFFFF := State.reg_bump (s.modLane t p _) _

theorem State.sched_windowShut : (s.windowShut t p sh w).sched w.plot = { s.sched w.plot with endTick := s.DT } :=
  State.sched_setSched ..

theorem State.lane_jobShut : (s.jobShut t p sh w).lane t p =
    if getF w.a F.rsA.acc = 1 then (s.lane t p).setJob sh none else s.lane t p := by
  unfold State.jobShut
  by_cases h : getF w.a F.rsA.acc = 1
  · simp [h]
  · simp [h]

theorem State.jobShut_frame : s.jobShut t p sh w = { s with lanes := (s.jobShut t p sh w).lanes } := by
  unfold State.jobShut
  split <;> rfl

theorem State.reg_jobShut (a : Nat) : (s.jobShut t p sh w).reg a = s.reg a := State.reg_of_regs (by rw [State.jobShut_frame]) a

theorem State.decided_none (st : Nat) (h : getF w.a F.rsA.acc = 1 ∨ w.noDec = true) : s.decided t p sh w st = s := by
  unfold State.decided
  exact if_pos (by simpa using h)

theorem State.decided_some (st : Nat) (hacc : getF w.a F.rsA.acc = 0) (hd : w.noDec = false) :
    s.decided t p sh w st = s.deliverState t p sh w st := by
  simp [State.decided, hacc, hd]

/-- A decision leaves the lanes, the schedulers and the tiles' registers. -/
theorem State.decided_keeps (st : Nat) : (s.decided t p sh w st).lanes = s.lanes ∧ (s.decided t p sh w st).scheds = s.scheds ∧
    ∀ a, 0x1000000 ≤ a → (s.decided t p sh w st).reg a = s.reg a := by
  unfold State.decided
  split
  · exact ⟨rfl, rfl, fun _ _ => rfl⟩
  · obtain ⟨hlanes, hscheds, -, -, hregs⟩ := readoutKept_deliverState s t p sh w st
    exact ⟨hlanes, hscheds, hregs⟩

end

theorem State.recordOwed_frame (s : State) (t p : Nat) (w : Win) (r : Result) :
    s.recordOwed t p w r = { s with lanes := (s.recordOwed t p w r).lanes, scheds := (s.recordOwed t p w r).scheds } := by
  unfold State.recordOwed
  split <;> rfl

theorem State.reg_recordOwed (s : State) (t p : Nat) (w : Win) (r : Result) (a : Nat) : (s.recordOwed t p w r).reg a = s.reg a :=
  State.reg_of_regs (by rw [State.recordOwed_frame]) a

/-- A record that is owed leaves the lane but for the results whose record is due. -/
theorem State.lane_recordOwed (s : State) (t p : Nat) (w : Win) (r : Result) : (s.recordOwed t p w r).lane t p =
    { s.lane t p with
      due := if w.noRec then (s.lane t p).due else (s.lane t p).due ++ [{ win := { w with nco := [] }, res := r }] } := by
  unfold State.recordOwed
  by_cases hn : w.noRec = true
  · rw [if_pos hn, if_pos hn]
  · rw [if_neg hn, if_neg hn, State.lane_modLane]
    rfl

theorem State.sched_recordOwed (s : State) (t p : Nat) (w : Win) (r : Result) : (s.recordOwed t p w r).sched w.plot =
    { s.sched w.plot with
      shots := if w.noRec then (s.sched w.plot).shots
        else (s.sched w.plot).shots.map fun h => if h.sid == w.sid then { h with results := h.results + 1 } else h } := by
  unfold State.recordOwed
  by_cases hn : w.noRec = true
  · rw [if_pos hn, if_pos hn]
  · rw [if_neg hn, if_neg hn]
    exact State.sched_setSched ..

end Sys2Proof.Machine
end

section
/-! ## A window closes in tick L + 36 (R204, R207, R211, R221, R230) -/

namespace Sys2Proof.Machine

open Sys2Proof.Safety

/-! ### The lane of the closed window -/

section
variable (s : State) (t p : Nat) (sh : Bool) (w : Win)

/-- Without a store the window is only counted. -/
theorem State.lane_closeWindow_unstored (h : w.stored = none) :
    (s.closeWindow t p sh w).lane t p = (s.lane t p).setWin sh none := by
  rw [s.closeWindow_unstored t p sh h, State.lane_windowShut]

/-- The lane after a window that stored `r` closes. -/
theorem State.lane_closeWindow_stored {r : Result} (h : w.stored = some r) : (s.closeWindow t p sh w).lane t p =
    { (if getF w.a F.rsA.acc = 1 then ((s.lane t p).setWin sh none).setJob sh none else (s.lane t p).setWin sh none) with
      due := if w.noRec then (s.lane t p).due else (s.lane t p).due ++ [{ win := { w with nco := [] }, res := r }] } := by
  have hlane : (((s.windowShut t p sh w).jobShut t p sh w).decided t p sh w r.st).lane t p =
      if getF w.a F.rsA.acc = 1 then ((s.lane t p).setWin sh none).setJob sh none else (s.lane t p).setWin sh none := by
    rw [← s.lane_windowShut t p sh w, ← State.lane_jobShut, State.lane, State.lane, (State.decided_keeps _ t p sh w r.st).1]
  rw [s.closeWindow_stored t p sh h, State.lane_recordOwed, hlane]
  by_cases hacc : getF w.a F.rsA.acc = 1
  · simp only [hacc, if_true, LaneX.due_setJob, LaneX.due_setWin]
  · simp only [hacc, if_false, LaneX.due_setWin]

/-- The window that closes leaves its set; the other set's stays. -/
theorem State.win_closeWindow (b : Bool) :
    ((s.closeWindow t p sh w).lane t p).win b = if b = sh then none else (s.lane t p).win b := by
  have hdue (x : LaneX) (l : List Stored) : ({ x with due := l } : LaneX).win b = x.win b := by cases b <;> rfl
  cases h : w.stored with
  | none => rw [s.lane_closeWindow_unstored t p sh w h, LaneX.win_setWin]
  | some r =>
    rw [s.lane_closeWindow_stored t p sh w h, hdue]
    split <;> simp only [LaneX.win_setJob, LaneX.win_setWin]

theorem State.job_closeWindow_stored {r : Result} (h : w.stored = some r) (hacc : getF w.a F.rsA.acc = 1) :
    ((s.closeWindow t p sh w).lane t p).job sh = none := by
  have hdue (x : LaneX) (l : List Stored) : ({ x with due := l } : LaneX).job sh = x.job sh := by cases sh <;> rfl
  rw [s.lane_closeWindow_stored t p sh w h, hdue, if_pos hacc, LaneX.job_setJob, if_pos rfl]

theorem State.due_closeWindow_stored {r : Result} (h : w.stored = some r) : ((s.closeWindow t p sh w).lane t p).due =
    if w.noRec then (s.lane t p).due else (s.lane t p).due ++ [{ win := { w with nco := [] }, res := r }] := by
  rw [s.lane_closeWindow_stored t p sh w h]

theorem State.due_closeWindow_kept (h : w.stored = none ∨ w.noRec = true) :
    ((s.closeWindow t p sh w).lane t p).due = (s.lane t p).due := by
  cases hst : w.stored with
  | none => rw [s.lane_closeWindow_unstored t p sh w hst, LaneX.due_setWin]
  | some r => rw [s.due_closeWindow_stored t p sh w hst, if_pos (h.resolve_left (by simp [hst]))]

/-! ### The shots of its plot -/

/-- The scheduler of the window's plot, where the window stored a result. -/
theorem State.sched_closeWindow_stored {r : Result} (h : w.stored = some r) : (s.closeWindow t p sh w).sched w.plot =
    { s.sched w.plot with
      endTick := s.DT
      shots := if w.noRec then (s.sched w.plot).shots
        else (s.sched w.plot).shots.map fun h => if h.sid == w.sid then { h with results := h.results + 1 } else h } := by
  have hsched : (((s.windowShut t p sh w).jobShut t p sh w).decided t p sh w r.st).sched w.plot =
      { s.sched w.plot with endTick := s.DT } := by
    rw [← s.sched_windowShut t p sh w, State.sched, State.sched, (State.decided_keeps _ t p sh w r.st).2.1, State.jobShut_frame]
  rw [s.closeWindow_stored t p sh h, State.sched_recordOwed, hsched]

theorem State.sched_closeWindow_unstored (h : w.stored = none) :
    (s.closeWindow t p sh w).sched w.plot = { s.sched w.plot with endTick := s.DT } := by
  rw [s.closeWindow_unstored t p sh h, State.sched_windowShut]

theorem State.endTick_closeWindow : ((s.closeWindow t p sh w).sched w.plot).endTick = s.DT := by
  cases h : w.stored with
  | none => rw [s.sched_closeWindow_unstored t p sh w h]
  | some r => rw [s.sched_closeWindow_stored t p sh w h]

/-- The record joins its shot's count, and no other one's. -/
theorem State.results_closeWindow {r : Result} (h : w.stored = some r) (hr : w.noRec = false) :
    ((s.closeWindow t p sh w).sched w.plot).shots.map (fun h => (h.sid, h.results)) =
      (s.sched w.plot).shots.map (fun h => (h.sid, if h.sid = w.sid then h.results + 1 else h.results)) := by
  have hone (g : Shot) : (fun h : Shot => (h.sid, h.results)) (if g.sid == w.sid then { g with results := g.results + 1 } else g) =
      (g.sid, if g.sid = w.sid then g.results + 1 else g.results) := by
    by_cases hg : g.sid = w.sid <;> simp [hg]
  rw [s.sched_closeWindow_stored t p sh w h]
  simp only [hr, Bool.false_eq_true, if_false, List.map_map]
  exact List.map_congr_left fun g _ => hone g

theorem State.shots_closeWindow_kept (h : w.stored = none ∨ w.noRec = true) :
    ((s.closeWindow t p sh w).sched w.plot).shots = (s.sched w.plot).shots := by
  cases hst : w.stored with
  | none => rw [s.sched_closeWindow_unstored t p sh w hst]
  | some r =>
    rw [s.sched_closeWindow_stored t p sh w hst]
    exact if_pos (h.resolve_left (by simp [hst]))

/-! ### Its count and its decisions -/

theorem State.count_closeWindow : ((s.closeWindow t p sh w).reg (A.lnWinCnt t p)).toNat =
    min ((s.reg (A.lnWinCnt t p)).toNat + 1) 0xFFFFFFFF := by
  cases h : w.stored with
  | none => rw [s.closeWindow_unstored t p sh h, State.reg_windowShut]
  | some r =>
    rw [s.closeWindow_stored t p sh h, State.reg_recordOwed,
      (State.decided_keeps _ t p sh w r.st).2.2 _ (by simp only [A.lnWinCnt]; omega), State.reg_jobShut, State.reg_windowShut]

theorem State.rels_closeWindow_kept (h : w.stored = none ∨ getF w.a F.rsA.acc = 1 ∨ w.noDec = true) :
    (s.closeWindow t p sh w).tileRels = s.tileRels ∧ (s.closeWindow t p sh w).devRels = s.devRels := by
  cases hst : w.stored with
  | none =>
    rw [s.closeWindow_unstored t p sh hst]
    exact ⟨rfl, rfl⟩
  | some r =>
    rw [s.closeWindow_stored t p sh hst, State.decided_none _ t p sh w r.st (h.resolve_left (by simp [hst])), State.recordOwed_frame,
      State.jobShut_frame]
    exact ⟨rfl, rfl⟩

/-- A decision of the stored state sets out for the tile view and for the device view. -/
theorem State.rels_closeWindow_stored {r : Result} (h : w.stored = some r) (hacc : getF w.a F.rsA.acc = 0) (hd : w.noDec = false) :
    (s.closeWindow t p sh w).tileRels = addDec s.tileRels (8 * t + p)
      { value := r.st, tag := w.num.toNat % 256, midx := w.midx, at_ := s.tm.now + 52, shadow := sh } ∧
    (s.closeWindow t p sh w).devRels = addDec s.devRels (8 * t + p)
      { value := r.st, tag := w.num.toNat % 256, midx := w.midx, at_ := s.tm.now + 92, shadow := sh } := by
  have hjob : (s.windowShut t p sh w).jobShut t p sh w = s.windowShut t p sh w := by simp [State.jobShut, hacc]
  obtain ⟨-, -, htile, hdev, -⟩ := readoutKept_deliverState (s.windowShut t p sh w) t p sh w r.st
  rw [s.closeWindow_stored t p sh h, hjob, State.decided_some _ t p sh w r.st hacc hd, State.recordOwed_frame]
  exact ⟨htile, hdev⟩

end

theorem exec_windowClose_due {s : State} {i : Tile} {p : Lane} {sh : Bool} {w : Win} (h : (s.lane i p).win sh = some w)
    (hlast : s.DT = w.last + 36) : exec (.windowClose i p sh) s = .next (s.closeWindow i p sh w) := by
  rw [exec_windowClose, execWindowClose]
  simp only [h]
  exact onlyIf_true _ _ _ (by simp [hlast])

end Sys2Proof.Machine
end

section
/-! ## The windows of the read-out -/

namespace Sys2Proof.Machine

open Sys2Proof.Safety

/-- Settles O35: a MEAS is refused or opens its window, which takes the lane from the other set's or leaves it; the ticks of a window
accumulate and store; and its close counts it, sends its decision and owes its record. -/
theorem windowsOpenAndClose : Obligations.WindowsOpenAndClose := by
  unfold Obligations.WindowsOpenAndClose
  refine ⟨?opening, ?ticks, ?closing⟩
  case opening =>
    intro s i q e pl len r midx sh noRec noDec h hd hm hp hc hs
    refine ⟨fun hoff => completes_of_exec (exec_windowOpen_off_lane hd hm hp hc hs hoff) ⟨popped_unqueued s i q, rfl⟩, ?_⟩
    intro n hpath h8 h16 hrun
    simp only
    refine ⟨completes_windowOpen_refused hd hm hp hc hs hpath h8 h16 hrun, fun hv hw => ⟨fun ho => ?_, fun o ho hl => ?_, ?_⟩⟩
    · obtain ⟨t, hexec, ht, hwin, hother⟩ := completes_windowOpen_alone hd hm hp hc hs hpath h8 h16 hrun hv hw ho
      exact ⟨t, hexec, by simpa only [Opens, AccOpened, and_assoc] using ht, hwin, hother⟩
    · obtain ⟨t, hexec, ht, hwin, hother⟩ := completes_windowOpen_from hd hm hp hc hs hpath h8 h16 hrun hv hw ho hl
      exact ⟨t, hexec, by simpa only [Opens, AccOpened, and_assoc] using ht, hwin, hother.trans (apply_ite some _ _ _)⟩
    · intro o ho hst hte hsh
      obtain ⟨t, hexec, ht, hother, hwin⟩ := completes_windowOpen_under hd hm hp hc hs hpath h8 h16 hrun hv hw ho ⟨hst, hte⟩ hsh
      exact ⟨t, hexec, by simpa only [Opens, AccOpened, and_assoc] using ht, hother, hwin.trans (apply_ite some _ _ _)⟩
  case ticks =>
    intro s i p sh w h
    exact ⟨State.acc_winTick_rect h, State.winTick_stored h⟩
  case closing =>
    intro s i p sh w h hlast
    have hnot : (!sh) ≠ sh := by cases sh <;> decide
    have hmem := (s.closeWindow_keeps i p sh w).1
    refine completes_of_exec (exec_windowClose_due h hlast) ⟨?_, ?_, s.count_closeWindow i p sh w, s.endTick_closeWindow i p sh w,
      fun a => congrArg (KMap.get 0 · a) hmem, s.rels_closeWindow_kept i p sh w, fun r hr hacc hd => ?_,
      fun r hr hacc => s.job_closeWindow_stored i p sh w hr hacc, fun r hr hrec => ⟨?_, s.results_closeWindow i p sh w hr hrec⟩,
      fun hno => ⟨s.due_closeWindow_kept i p sh w hno, s.shots_closeWindow_kept i p sh w hno⟩⟩
    · rw [State.win_closeWindow, if_pos rfl]
    · rw [State.win_closeWindow, if_neg hnot]
    · obtain ⟨htile, hdev⟩ := s.rels_closeWindow_stored i p sh w hr hacc hd
      exact ⟨by rw [htile, get_addDec], by rw [hdev, get_addDec]⟩
    · rw [s.due_closeWindow_stored i p sh w hr, hrec]
      rfl

end Sys2Proof.Machine
end
